-- ==== Sys2Proof/Word.lean ====
section
/-! DEFINITION. The words the module computes with and their plainest arithmetic. -/

namespace Sys2Proof

/-- A register or window word (R21). -/
abbrev Word := BitVec 32

/-- A byte of a frame, a buffer or a record. -/
abbrev Byte := BitVec 8

/-- A host address (R21). -/
abbrev Addr := BitVec 24

/-- The signed 32-bit reading of a register word (Table 0.5). -/
def Word.int (w : Word) : Int := w.toInt

/-- The register word of a signed quantity, wrapped to 32 bits. -/
def Word.ofInt (i : Int) : Word := BitVec.ofInt 32 i

end Sys2Proof
end

