-- ==== Sys2Proof/Types.lean ====
section
/-! DEFINITION. The closed sets of names the spec uses (phases, steps, states, roles) and the records that
commands carry as operands: samples, frames, requests. -/

namespace Sys2Proof

/-- World of a session or of unsessioned access (R268, R322). -/
inductive World where
  | control | service | vendor
  deriving DecidableEq, Repr

/-- MOT phases (R72, Table 4.8). -/
inductive Phase where
  | idle | prep | speed | approach | stopping | landed | holding | held | tripped | special
  deriving DecidableEq, Repr

/-- Special-run types (Table 5.6). -/
inductive RunType where
  | none | correction | recovery | relevelling
  deriving DecidableEq, Repr

/-- Correction-run steps (Table 5.2). -/
inductive HStep where
  | none | backoff | search | final
  deriving DecidableEq, Repr

/-- Causes of a failed correction run (Table 5.6). -/
inductive HomeErr where
  | none | limit | chatter | noref | mismatch | hold | trip
  deriving DecidableEq, Repr

/-- Who committed the target (Table 4.8, COMMIT_SRC). -/
inductive CommitSrc where
  | none | scheduler | host | horizon
  deriving DecidableEq, Repr

/-- Ramp shapes (Table 4.2). -/
inductive Shape where
  | constJerk | sine | poly5
  deriving DecidableEq, Repr

/-- Drive steps (Table 6.1). -/
inductive DrvStep where
  | off | magnetise | preload | lift | follow | drop
  deriving DecidableEq, Repr

/-- Position source states (Table 3.5). -/
inductive SrcState where
  | absent | valid | lost | probation
  deriving DecidableEq, Repr

/-- Position sources (Table 3.1). -/
inductive PosSrc where
  | enc1 | enc2 | sr | dza | dzb | acc | load
  deriving DecidableEq, Repr

/-- The two channels: of Electrum, of the door-zone sensors, of the door sides (A is front). -/
inductive Chan where
  | a | b
  deriving DecidableEq, Repr

/-- Electrum states (Table 10.4). -/
inductive ElState where
  | start | normal | tripped
  deriving DecidableEq, Repr

/-- Operating modes of the X22 inputs (R202). -/
inductive ElMode where
  | normal | ins | pins | emer | multi
  deriving DecidableEq, Repr

/-- Degraded modes with a timer (Table 10.8). -/
inductive DegMode where
  | sr | enc2 | dz | load
  deriving DecidableEq, Repr

/-- Reset kinds of trip causes (Table 10.3), in the order AUTO, HOST, SERVICE, PIT, POWER. -/
inductive TripKind where
  | auto | host | service | pit | power
  deriving DecidableEq, Repr

/-- Service modes (Table 7.4). -/
inductive SchMode where
  | collective | downCollective | destination | independent | recall
  deriving DecidableEq, Repr

/-- A direction of service (Table 7.9). -/
inductive Dir where
  | none | up | down
  deriving DecidableEq, Repr

/-- Call types of the group bus (R138). -/
inductive CallType where
  | up | down | dest
  deriving DecidableEq, Repr

/-- States of a destination entry (Table 7.3). -/
inductive DestState where
  | free | waiting | riding
  deriving DecidableEq, Repr

/-- Bellmetal membership (Table 8.3). -/
inductive Member where
  | off | listen | member | island
  deriving DecidableEq, Repr

/-- Door axis states (Table 9.3, codes of Table 9.8). -/
inductive DoorSt where
  | off | unref | homing | closed | opening | opened | closing | reversing | geared | stopped | learn | fault
  deriving DecidableEq, Repr

/-- LSF slot states (Table 11.4). -/
inductive LsfSt where
  | off | wait | run | failed
  deriving DecidableEq, Repr

/-- CAN controller states (Table 12.6). -/
inductive CanSt where
  | off | errorActive | errorPassive | busOff | sleep
  deriving DecidableEq, Repr

/-- Results of a transmit object (Table 12.3). -/
inductive TxResult where
  | idle | pending | done | failed
  deriving DecidableEq, Repr

/-- How one transmission attempt ended (R239). `errorAfterVp`: an error in the last bit of the end of frame, after the
validity point of the receivers (R145, R146). -/
inductive AttemptEnd where
  | success | lostArbitration | error (lec : Nat) | errorAfterVp (lec : Nat)
  deriving DecidableEq, Repr

/-- Wake causes of a CAN controller (Table 12.6). -/
inductive CanWake where
  | pattern | frame | frameErr
  deriving DecidableEq, Repr

/-- Field supply levels (Table 13.3). -/
inductive Supply where
  | ok | low | uvlo | missing
  deriving DecidableEq, Repr

/-- Output diagnostics (R251). -/
inductive Diag where
  | openLoad | shortVf | clim | overload
  deriving DecidableEq, Repr

/-- Module roles (Table 15.3). -/
inductive Role where
  | init | solo | active | standby | isolated
  deriving DecidableEq, Repr

/-- Sterling bands (Table 15.1), in the code order of PART_STATUS.BAND. -/
inductive Band where
  | openBand | absent | present | claiming | short | invalid
  deriving DecidableEq, Repr

/-- What a module presents on its own loop (R283, R294). -/
inductive Present where
  | noSink | present | claiming | echo
  deriving DecidableEq, Repr

/-- Mirror state (Table 15.8, SYNC). -/
inductive Sync where
  | none | synced | stale
  deriving DecidableEq, Repr

/-- Life-cycle states (Table 17.12). -/
inductive Lc where
  | blank | vendor | oem | field | service | retired
  deriving DecidableEq, Repr

/-- Reset kinds (Table 19.1); deep is the start after DEEP. -/
inductive ResetKind where
  | por | bor | pin | wdog | soft | safe | part | clk | deep
  deriving DecidableEq, Repr

/-- Where the start-up stands (Table 18.3), and the states of chapter 19. -/
inductive RunState where
  | attempt | clockHold | clkDead | run | park | deep | unpowered
  deriving DecidableEq, Repr

/-- Causes of a failed start attempt (Table 18.8, CLK_BOOT.CAUSE). -/
inductive BootCause where
  | none | xoNoAmp | xoStop | xoFreq | ircQual | pllLock
  deriving DecidableEq, Repr

/-- Causes of clock fallback (Table 18.8, CLK_STATUS.CAUSE). -/
inductive ClkCause where
  | none | stop | freq | pll | xoStart
  deriving DecidableEq, Repr

/-- Wake causes of PARK and DEEP (Table 19.8, PWR_STATUS.WAKE). -/
inductive WakeCause where
  | none | wakePin | can (controllers : BitVec 4) | timer | tamper | host | fieldOrCall | safetyOrBand
  deriving DecidableEq, Repr

/-- Record types (Table 16.2). -/
inductive RecType where
  | event | host | start | powerFail | clockSet | recordsLost
  deriving DecidableEq, Repr

/-- The source of a host write: the port of Table 2.5, the world of R268, and the session it travels in
(none: unsessioned SPI, or the profile loader). -/
structure Src where
  port : Nat
  world : World
  session : Option Nat
  deriving DecidableEq, Repr

/-- Unsessioned SPI (R268). -/
def Src.spi : Src where
  port := 0
  world := .control
  session := none

/-- The path an LRP request came by: unsessioned SPI, or an open session. -/
inductive Via where
  | spi
  | session (i : Nat)
  /-- an OPEN in plain form over UDP, on port 1 to 3, and its sender (R266, R270) -/
  | plain (port : Nat) (peer : List Byte)
  deriving DecidableEq, Repr

/-- One encoder sample at a tick (Table 3.1): the latched count and whether the sample has a fault of the
signal itself (amplitude, illegal transition, missing or bad SSI frame). -/
structure EncSample where
  count : Word
  fault : Bool
  deriving DecidableEq, Repr

/-- One accelerometer sample (R41): the three axes in µm/s² along +X, +Y, +Z, and its faults. -/
structure AccSample where
  x : Int
  y : Int
  z : Int
  missing : Bool
  selfTestFail : Bool
  fullScale : Bool
  deriving DecidableEq, Repr

/-- What the sample latch of a servo period takes from the field (Table 1.1). Door-zone edges, reader answers,
load conversions and drive responses come by commands of their own. -/
structure TickIn where
  enc1 : EncSample
  enc2 : EncSample
  acc : AccSample
  deriving DecidableEq, Repr

/-- One Electrum channel's samples of a cycle (Table 10.1): CH_IN and the eight taps in mV, the raw levels of its other
input paths, its encoder, the reader's answer that its own receiver took since the last cycle (its bytes, and the µs from
its end stamp to the start of this cycle), and the door-zone edges since the last cycle (rising, age in µs). -/
structure ElSample where
  chIn : Nat
  taps : List Nat
  mirrors : BitVec 4
  cdm : BitVec 2
  x22 : BitVec 10
  stoFb : Bool
  enc : EncSample
  sr : Option (List Byte × Nat)
  dz : Bool
  dzEdges : List (Bool × Nat)
  deriving DecidableEq, Repr

/-- The inputs of one Electrum cycle: both channels, and the output nodes read back (slots 0 to 8). -/
structure ElIn where
  a : ElSample
  b : ElSample
  nodes : BitVec 9
  deriving DecidableEq, Repr

/-- When a demand fell relative to a test pulse and its reading at 250 µs (R207). -/
inductive PulseDemand where
  | none | offBeforeReading | offAtOrAfterReading | onDuring
  deriving DecidableEq, Repr

/-- The inputs of one 8 kHz door evaluation (R163): torque current in mA, load angle, encoder count,
the light-curtain, closed and open inputs as wired (`ol` none where OL is not wired), stage temperature in 0.1 °C, the DOOR
supply in mV, and the fault that the stage reports at present (Table 9.8 codes 1 to 5; 0 none). -/
structure DoorIn where
  iq : Int
  theta : Int
  count : Int
  lc : Bool
  cl : Bool
  ol : Option Bool
  temp : Int
  mv : Nat
  flt : Nat
  deriving DecidableEq, Repr

/-- A data or remote frame on a CAN bus. -/
structure CanFrame where
  ide : Bool
  id : BitVec 29
  remote : Bool
  fdf : Bool
  brs : Bool
  esi : Bool
  data : List Byte
  sof : Nat
  vp : Nat
  deriving DecidableEq, Repr

/-- The measurements of one start attempt (R338): IRC-A's cycles over 32 LPO periods, when the backup PLL locked, when XO
showed amplitude, whether it stopped, what IRC-A counted against it, when the root PLL locked, and whether and when a
failure of XO was detected after IRC-A's qualification. Then what the start reads: the PUF response, the straps of the
program slot, of the profile and of IMMEDIATE, and whether the tamper mesh is active. -/
structure StartIn where
  ircCycles : Nat
  /-- µs from the end of IRC-A's window to the lock of the backup PLL -/
  backupLockUs : Option Nat
  /-- µs from the attempt's start to XO's amplitude -/
  xoAmpUs : Option Nat
  xoStopped : Bool
  /-- IRC-A cycles in which XO counted 65,536 -/
  xoIrcCycles : Nat
  /-- µs from the end of XO's count to the lock of the root PLL -/
  rootLockUs : Option Nat
  /-- an XO failure was detected once IRC-A had qualified, and the LPO period it was detected in, from 1 -/
  xoFailedAfterIrc : Bool
  xoFailLpo : Nat
  puf : List Byte
  slotB : Bool
  sel : BitVec 2
  immediate : Bool
  meshActive : Bool
  deriving DecidableEq, Repr

/-- One door axis in the DOORS class of a mirror epoch (Table 15.4). -/
structure MirrorDoor where
  state : DoorSt
  spPos : Int
  posLost : Bool
  mass : Nat
  width : Int
  friction : Nat
  tOpen : Nat
  tClose : Nat
  deriving DecidableEq, Repr

/-- A destination entry as it is held and mirrored (Table 7.3). -/
structure Dest where
  src : Nat
  dst : Nat
  state : DestState
  seq : Nat
  enterMs : Nat
  /-- the round tag of the award that gave the entry (R152), none when the host entered it -/
  tag : Option Nat
  deriving DecidableEq, Repr

/-- The CALLS class (Table 15.4). -/
structure MirrorCalls where
  cc : List Nat
  hu : List Nat
  hd : List Nat
  dests : List (Nat × Dest)
  nextDir : Dir
  deriving DecidableEq, Repr

/-- The RUN class (Table 15.4). -/
structure MirrorRun where
  phase : Phase
  committed : Bool
  target : Nat
  targetPos : Int
  horizon : Option Nat
  remain : Nat
  relevCnt : Nat
  deriving DecidableEq, Repr

/-- The POSN class (Table 15.4); e is the sender's arc at the mirrored period. -/
structure MirrorPosn where
  p : Int
  v : Int
  a : Int
  s : Int
  kap : Nat
  b : Int
  abs : Bool
  seq : Nat
  deriving DecidableEq, Repr

/-- A mirror epoch as received (R291): its number, whether its CRC-32 is correct, and the classes it carries;
`image` marks the final segment of a full image (R296). -/
structure Epoch where
  number : Nat
  crcOk : Bool
  posn : MirrorPosn
  calls : Option MirrorCalls
  doors : Option (MirrorDoor × MirrorDoor)
  run : Option MirrorRun
  counters : Option (Nat × Nat × Nat)
  config : Option (List Byte × BitVec 2)
  finalSegment : Bool
  deriving DecidableEq, Repr

/-- A host access as the bus carries it (R21): the value, and whether the access is narrower than the 32-bit word. -/
structure BusWord where
  val : Word
  narrow : Bool
  deriving DecidableEq, Repr

/-- What the always-on domain saw while a door's stage was down (R174, R379): whether its edge counter overran, and whether
the encoder's supply was cut. -/
structure DownTime where
  overrun : Bool
  cut : Bool
  deriving DecidableEq, Repr

end Sys2Proof
end

