-- ==== Sys2Proof/Syntax.lean ====
section
/-! DEFINITION. The commands of the block: one constructor per row of the opcode table, in the table's order.
The table gives no operands; those here are what the rule of each row needs from outside (log entry 1). A command
that is a host write carries its source `src` (port, world, session). -/

namespace Sys2Proof

/-- The commands (opcode_table.json). -/
inductive Instr where
  /-- SERVO_TICK (R12) -/
  | servoTick (i : TickIn)
  /-- PHASE_DEADLINE_MISS (R15) -/
  | phaseDeadlineMiss (master : Nat)
  /-- ELECTRUM_CYCLE (R180) -/
  | electrumCycle (i : ElIn)
  /-- STROBE_TIMEOUT (R181) -/
  | strobeTimeout (early : Bool)
  /-- ELECTRUM_START_COMPLETE (R192) -/
  | electrumStartComplete (selfTestsPass : Bool) (digestA : Word) (digestB : Word)
  /-- SAFE_RESET_CMD (R191) -/
  | safeResetCmd (src : Src)
  /-- AUTO_RESET (R191) -/
  | autoReset
  /-- KEY_RST_INPUT (R191) -/
  | keyRstInput (heldMs : Nat)
  /-- PIT_RESET (R203) -/
  | pitReset
  /-- TEST_PULSE (R206) -/
  | testPulse (slot : Nat) (nodeLow : Bool) (demand : PulseDemand)
  /-- MODE_NORMAL_RETURN (R202) -/
  | modeNormalReturn
  /-- DEGRADED_EXPIRED (R210) -/
  | degradedExpired (mode : DegMode)
  /-- DEGRADED_TIMER_CLEAR (R210) -/
  | degradedTimerClear (mode : DegMode)
  /-- NEAREST_LANDING_RUN (R210) -/
  | nearestLandingRun
  /-- PAIR_MISMATCH (R184) -/
  | pairMismatch (pair : Nat)
  /-- CHANNEL_DISAGREE (R184) -/
  | channelDisagree
  /-- ABS_TIMEOUT (R183) -/
  | absTimeout (ch : Chan)
  /-- MIRROR_TIMEOUT (R200) -/
  | mirrorTimeout (output : Nat)
  /-- STO_FB_TIMEOUT (R200) -/
  | stoFbTimeout
  /-- DCM_PLAUS (R201) -/
  | dcmPlaus (side : Chan)
  /-- SAFE_CONFIG_WRITE (R211) -/
  | safeConfigWrite (src : Src) (offset : BitVec 12) (val : Word)
  /-- HOST_REGISTER_WRITE (R31) -/
  | hostRegisterWrite (src : Src) (addr : Addr) (val : BusWord)
  /-- ERR_CLEAR (R24) -/
  | errClear (src : Src) (page : BitVec 8) (val : Word)
  /-- HLOCK_SET (R29) -/
  | hlockSet (src : Src) (page : BitVec 8)
  /-- HLOCK_UNLOCK (R29) -/
  | hlockUnlock (src : Src) (page : BitVec 8) (key : BitVec 16)
  /-- LRP_READ (R263) -/
  | lrpRead (via : Via) (req : List Byte)
  /-- LRP_WRITE (R263) -/
  | lrpWrite (via : Via) (req : List Byte)
  /-- LRP_OPEN (R266) -/
  | lrpOpen (port : Nat) (req : List Byte)
  /-- LRP_CLOSE (R267) -/
  | lrpClose (via : Via) (req : List Byte)
  /-- LRP_NOP (R262) -/
  | lrpNop (via : Via) (req : List Byte)
  /-- LRP_INVALID_OP (R263) -/
  | lrpInvalidOp (via : Via) (req : List Byte)
  /-- SPI_TRANSACTION (R264) -/
  | spiTransaction (mosi : List Byte)
  /-- SESSION_ENVELOPE (R265) -/
  | sessionEnvelope (port : Nat) (bytes : List Byte)
  /-- ETH_FRAME_RX (R270) -/
  | ethFrameRx (port : Nat) (fcsOk : Bool) (bytes : List Byte)
  /-- ETH_LINK_CHANGE (R267) -/
  | ethLinkChange (port : Nat) (up : Bool) (amp24 : Bool) (sqi : BitVec 3)
  /-- SESSION_PENDING_TIMEOUT (R266) -/
  | sessionPendingTimeout (i : Nat)
  /-- SESSION_TIMEOUT (R267) -/
  | sessionTimeout (i : Nat)
  /-- HOST_SEAL_OPEN (R269) -/
  | hostSealOpen (src : Src)
  /-- HOST_CLOSE_OTHERS (R267) -/
  | hostCloseOthers (src : Src)
  /-- HOST_CNT_CLR (R278) -/
  | hostCntClr (src : Src)
  /-- ETH_CNT_CLR (R279) -/
  | ethCntClr (src : Src) (port : Nat)
  /-- ETH_RENEG (R279) -/
  | ethReneg (src : Src) (port : Nat)
  /-- XBAR_CLR_PEAK (R280) -/
  | xbarClrPeak (src : Src)
  /-- XBAR_CLR_FLT (R280) -/
  | xbarClrFlt (src : Src)
  /-- BUDGET_EXHAUSTED (R273) -/
  | budgetExhausted (master : Nat)
  /-- SR_ANSWER (R39) -/
  | srAnswer (bytes : List Byte) (endNs : Nat)
  /-- SR_TIMEOUT (R36) -/
  | srTimeout
  /-- SOURCE_RETURN (R48) -/
  | sourceReturn (source : PosSrc)
  /-- DZ_EDGE (R40) -/
  | dzEdge (ch : Chan) (rising : Bool) (stampUs : Nat)
  /-- DZ_WIRING_FAULT (R52) -/
  | dzWiringFault (ch : Chan)
  /-- DZ_WIRING_FAULT_END (R52) -/
  | dzWiringFaultEnd (ch : Chan)
  /-- ENC_DISAGREE (R50) -/
  | encDisagree
  /-- ENC_DISAGREE_CLEAR (R50) -/
  | encDisagreeClear
  /-- TRACTION (R56) -/
  | traction
  /-- BIAS_CAL (R61) -/
  | biasCal (src : Src)
  /-- BIAS_CAL_DONE (R61) -/
  | biasCalDone
  /-- SR_REACQ (R61) -/
  | srReacq (src : Src)
  /-- CLR_TRACT (R57) -/
  | clrTract (src : Src)
  /-- KAPPA_RESET (R61) -/
  | kappaReset (src : Src)
  /-- POS_RUN_CLEAR (R63) -/
  | posRunClear (src : Src)
  /-- KAPPA_BIAS_SAVE (R55) -/
  | kappaBiasSave
  /-- LWB_CONVERSION (R64) -/
  | lwbConversion (raw : Int) (openWire : Bool) (exc : Bool) (overLimit : Bool)
  /-- LWB_VALID_CLEAR (R65) -/
  | lwbValidClear
  /-- LWB_VALID_SET (R65) -/
  | lwbValidSet
  /-- LWB_ZERO (R66) -/
  | lwbZero (src : Src)
  /-- LWB_SPAN (R66) -/
  | lwbSpan (src : Src)
  /-- LWB_CAL_DONE (R66) -/
  | lwbCalDone
  /-- MOT_START (R73) -/
  | motStart (src : Src)
  /-- MOT_APPLY (R81) -/
  | motApply (src : Src)
  /-- MOT_RESUME (R97) -/
  | motResume (src : Src)
  /-- MOT_TRUN (R71) -/
  | motTrun (src : Src)
  /-- MOT_TARGET_WRITE (R77) -/
  | motTargetWrite (src : Src) (val : Word)
  /-- MOT_HORIZON_WRITE (R75) -/
  | motHorizonWrite (src : Src) (val : Word)
  /-- MOT_HOLD (R94) -/
  | motHold (src : Src)
  /-- PLAN_END (R79) -/
  | planEnd
  /-- FOLLOW_ERROR (R83) -/
  | followError
  /-- VCAP_CHANGE (R82) -/
  | vcapChange
  /-- MOT_HOME (R86) -/
  | motHome (src : Src)
  /-- MOT_RECOVER (R86) -/
  | motRecover (src : Src)
  /-- MOT_RELEVEL (R86) -/
  | motRelevel (src : Src)
  /-- MOT_ABANDON (R86) -/
  | motAbandon (src : Src)
  /-- AUTO_SPECIAL_START (R87) -/
  | autoSpecialStart
  /-- AUTO_RELEVEL (R92) -/
  | autoRelevel
  /-- HOME_REF_INPUT (R89) -/
  | homeRefInput (active : Bool)
  /-- HOME_LIMIT_INPUT (R89) -/
  | homeLimitInput
  /-- HOME_MAXDIST (R89) -/
  | homeMaxdist
  /-- DRV_READY_TIMEOUT (R101) -/
  | drvReadyTimeout
  /-- DRV_PRELOAD_DONE (R101) -/
  | drvPreloadDone
  /-- DRV_BRAKE_LIFTED (R101) -/
  | drvBrakeLifted
  /-- DRV_BRAKE_APPLIED (R101) -/
  | drvBrakeApplied
  /-- DRV_RESPONSE (R105) -/
  | drvResponse (bytes : List Byte) (delimNs : Nat) (endNs : Nat)
  /-- MOTION_WATCHDOG (R107) -/
  | motionWatchdog
  /-- DRV_FAULT_RST (R109) -/
  | drvFaultRst (src : Src)
  /-- DRV_CNT_CLR (R116) -/
  | drvCntClr (src : Src)
  /-- CIA_TPDO (R111) -/
  | ciaTpdo (statusword : BitVec 16) (position : Word) (sofUs : Nat)
  /-- CIA_SDO_RESPONSE (R110) -/
  | ciaSdoResponse
  /-- LEGACY_RDY_CHANGE (R114) -/
  | legacyRdyChange (active : Bool)
  /-- LANDING_TABLE_WRITE (R119) -/
  | landingTableWrite (src : Src) (addr : Addr) (val : Word)
  /-- CALL_SET (R121) -/
  | callSet (src : Src) (addr : Addr) (val : Word)
  /-- CALL_CLR (R121) -/
  | callClr (src : Src) (addr : Addr) (val : Word)
  /-- DEST_ADD (R122) -/
  | destAdd (src : Src) (val : Word)
  /-- DEST_DEL (R122) -/
  | destDel (src : Src) (val : Word)
  /-- SCH_MODE_WRITE (R124) -/
  | schModeWrite (src : Src) (val : Word)
  /-- SCH_RUN_SET (R118) -/
  | schRunSet (src : Src)
  /-- SCH_RUN_CLEAR (R119) -/
  | schRunClear (src : Src)
  /-- SCH_OOS_REQUEST (R133) -/
  | schOosRequest (src : Src) (on : Bool)
  /-- SCHED_RUN_START (R128) -/
  | schedRunStart
  /-- SCHED_RESUME (R128) -/
  | schedResume
  /-- HOLD_TIME_END (R129) -/
  | holdTimeEnd
  /-- SCH_RESTORE (R133) -/
  | schRestore (src : Src)
  /-- CC_CLR_ALL (R136) -/
  | ccClrAll (src : Src)
  /-- END_DWELL (R129) -/
  | endDwell (src : Src)
  /-- BTN_STUCK (R132) -/
  | btnStuck (landing : Nat)
  /-- HALL_PRESS (R141) -/
  | hallPress (frame : CanFrame)
  /-- ANNOUNCEMENT (R142) -/
  | announcement (frame : CanFrame)
  /-- BID_FRAME (R146) -/
  | bidFrame (frame : CanFrame)
  /-- ROUND_NOBID (R148) -/
  | roundNobid
  /-- RELEASE_FRAME (R152) -/
  | releaseFrame (frame : CanFrame)
  /-- AWARD_TAKE_EFFECT (R151) -/
  | awardTakeEffect
  /-- ANNOUNCE_REPEAT (R148) -/
  | announceRepeat (key : Nat) (seq : Nat)
  /-- REBID (R152) -/
  | rebid (key : Nat) (seq : Nat)
  /-- ORPHAN_DETECT (R153) -/
  | orphanDetect (key : Nat) (seq : Nat)
  /-- LISTEN_END (R154) -/
  | listenEnd
  /-- ISLAND_ENTER (R154) -/
  | islandEnter
  /-- ISLAND_EXIT (R154) -/
  | islandExit
  /-- BID_RUN_SET (R154) -/
  | bidRunSet
  /-- BID_REJOIN (R154) -/
  | bidRejoin (src : Src)
  /-- BID_RELEASE_ALL (R156) -/
  | bidReleaseAll (src : Src)
  /-- BID_CNT_CLR (R156) -/
  | bidCntClr (src : Src)
  /-- BID_QUERY (R156) -/
  | bidQuery (src : Src) (val : Word)
  /-- DOOR_OPEN (R166) -/
  | doorOpen (src : Src) (axis : Chan)
  /-- DOOR_CLOSE (R166) -/
  | doorClose (src : Src) (axis : Chan)
  /-- DOOR_STOP (R166) -/
  | doorStop (src : Src) (axis : Chan)
  /-- DOOR_ARM_ADV (R171) -/
  | doorArmAdv (src : Src) (axis : Chan)
  /-- DOOR_HOME (R178) -/
  | doorHome (src : Src) (axis : Chan)
  /-- DOOR_LEARN (R176) -/
  | doorLearn (src : Src) (axis : Chan)
  /-- DOOR_CLR_FAULT (R167) -/
  | doorClrFault (src : Src) (axis : Chan)
  /-- DOOR_EVAL (R163) -/
  | doorEval (axis : Chan) (i : DoorIn)
  /-- STEP_LOSS (R161) -/
  | stepLoss (axis : Chan)
  /-- DOOR_AUTO_HOME (R167) -/
  | doorAutoHome (axis : Chan)
  /-- DOOR_OPEN_END (R162) -/
  | doorOpenEnd (axis : Chan)
  /-- DOOR_CLOSE_END (R167) -/
  | doorCloseEnd (axis : Chan)
  /-- DOOR_HOMED (R167) -/
  | doorHomed (axis : Chan)
  /-- DOOR_HOME_FAIL (R167) -/
  | doorHomeFail (axis : Chan)
  /-- DOOR_OBSTRUCT_RETRY (R167) -/
  | doorObstructRetry (axis : Chan)
  /-- DOOR_LOCK_TIMEOUT (R167) -/
  | doorLockTimeout (axis : Chan)
  /-- DOOR_DEFER_END (R167) -/
  | doorDeferEnd (axis : Chan)
  /-- DOOR_NUDGE (R169) -/
  | doorNudge (axis : Chan)
  /-- DOOR_REVERSE_END (R167) -/
  | doorReverseEnd (axis : Chan)
  /-- DOOR_LEARN_DONE (R176) -/
  | doorLearnDone (axis : Chan)
  /-- DOOR_STAGE_FAULT (R167) -/
  | doorStageFault (axis : Chan) (code : Nat)
  /-- DOOR_SUPPLY_FAULT (R159) -/
  | doorSupplyFault (overLimit : Bool)
  /-- DOOR_SUPPLY_RECOVER (R159) -/
  | doorSupplyRecover (overLimit : Bool)
  /-- DOOR_REST_DETECT (R159) -/
  | doorRestDetect (axis : Chan) (count : Int)
  /-- DOOR_PEAK_EXHAUSTED (R158) -/
  | doorPeakExhausted (axis : Chan)
  /-- DOOR_STAGE_POWER_UP (R175) -/
  | doorStagePowerUp (axis : Chan) (count : Int) (down : DownTime)
  /-- LSF_FRAME_RX (R221) -/
  | lsfFrameRx (bus : Nat) (frame : CanFrame)
  /-- LSF_TIMEOUT (R223) -/
  | lsfTimeout (slot : Nat)
  /-- LSF_CRC_RATE (R222) -/
  | lsfCrcRate (slot : Nat)
  /-- LSF_CONF_TIMEOUT (R224) -/
  | lsfConfTimeout (slot : Nat)
  /-- LSF_PRODUCE (R219) -/
  | lsfProduce (slot : Nat) (identical : Bool)
  /-- LSF_RESTART (R227) -/
  | lsfRestart (src : Src) (val : Word)
  /-- LSF_CNT_CLR (R229) -/
  | lsfCntClr (src : Src)
  /-- CAN_FRAME_RX (R236) -/
  | canFrameRx (n : Nat) (frame : CanFrame)
  /-- CAN_TX_REQ (R237) -/
  | canTxReq (src : Src) (n : Nat) (val : Word)
  /-- CAN_TX_ABORT (R239) -/
  | canTxAbort (src : Src) (n : Nat) (val : Word)
  /-- CAN_TX_ATTEMPT_END (R239) -/
  | canTxAttemptEnd (n : Nat) (obj : Nat) (outcome : AttemptEnd) (sofUs : Nat)
  /-- CAN_ERROR (R242) -/
  | canError (n : Nat) (lec : Nat) (transmitting : Bool) (increment : Nat)
  /-- CAN_BUS_OFF (R242) -/
  | canBusOff (n : Nat)
  /-- CAN_BUSOFF_RECOVERY (R242) -/
  | canBusoffRecovery (n : Nat)
  /-- CAN_ALONE (R243) -/
  | canAlone (n : Nat)
  /-- CAN_SLEEP (R244) -/
  | canSleep (src : Src) (n : Nat)
  /-- CAN_LOCAL_WAKE (R244) -/
  | canLocalWake (src : Src) (n : Nat)
  /-- CAN_WAKE (R244) -/
  | canWake (n : Nat) (cause : CanWake) (frame : Option CanFrame)
  /-- CAN_INTEGRATE (R246) -/
  | canIntegrate (n : Nat)
  /-- CAN_CNT_CLR (R246) -/
  | canCntClr (src : Src) (n : Nat)
  /-- FIELD_FILTER_TICK (R248) -/
  | fieldFilterTick (group : Nat) (raw : Word)
  /-- FIO_OUT_SET (R254) -/
  | fioOutSet (src : Src) (group : Nat) (val : Word)
  /-- FIO_OUT_CLR (R254) -/
  | fioOutClr (src : Src) (group : Nat) (val : Word)
  /-- FIO_TSD (R251) -/
  | fioTsd (channel : Nat)
  /-- FIO_TSD_RECOVER (R251) -/
  | fioTsdRecover (channel : Nat)
  /-- FIO_TSD_CLR (R251) -/
  | fioTsdClr (src : Src) (group : Nat) (val : Word)
  /-- GRP_OC (R251) -/
  | grpOc (group : Nat)
  /-- FIO_GRP_CLR (R251) -/
  | fioGrpClr (src : Src) (group : Nat)
  /-- FIO_DIAG_CHANGE (R251) -/
  | fioDiagChange (channel : Nat) (kind : Diag) (present : Bool)
  /-- FIELD_SUPPLY_CHANGE (R256) -/
  | fieldSupplyChange (group : Nat) (mv : Nat)
  /-- FIO_CHANNEL_CFG (R255) -/
  | fioChannelCfg (src : Src) (channel : Nat) (val : Word)
  /-- SILENCE_TIMEOUT (R257) -/
  | silenceTimeout
  /-- SIL_ACK (R257) -/
  | silAck (src : Src)
  /-- BAND_CHANGE (R282) -/
  | bandChange (loopUa : Nat) (heldUs : Nat)
  /-- PRESENT_STABLE (R283) -/
  | presentStable
  /-- PRESENT_OPEN (R283) -/
  | presentOpen
  /-- CLAIM (R286) -/
  | claim
  /-- CLAIM_SETTLE_END (R287) -/
  | claimSettleEnd
  /-- ISOLATED_EXIT (R294) -/
  | isolatedExit
  /-- ECHO_WINDOW (R294) -/
  | echoWindow
  /-- ECHO_STOP (R294) -/
  | echoStop
  /-- MIRROR_EPOCH_RX (R291) -/
  | mirrorEpochRx (e : Epoch)
  /-- MIRROR_EPOCH_APPLY (R291) -/
  | mirrorEpochApply
  /-- MIRROR_STALE (R291) -/
  | mirrorStale
  /-- PARTNER_LINK_DOWN (R293) -/
  | partnerLinkDown
  /-- PARTNER_LINK_UP (R296) -/
  | partnerLinkUp
  /-- RESYNC_COMPLETE (R296) -/
  | resyncComplete
  /-- ROLE_EXCHANGE (R295) -/
  | roleExchange
  /-- XCH_NOW (R295) -/
  | xchNow (src : Src)
  /-- XCH_HOLD_END (R295) -/
  | xchHoldEnd
  /-- PART_RESYNC (R296) -/
  | partResync (src : Src)
  /-- PART_CNT_CLR (R299) -/
  | partCntClr (src : Src)
  /-- FLUSH_START (R308) -/
  | flushStart
  /-- RECORDS_LOST_STAGE (R307) -/
  | recordsLostStage
  /-- REC_FLUSH (R308) -/
  | recFlush (src : Src)
  /-- REC_WALL_SET (R310) -/
  | recWallSet (src : Src)
  /-- REC_FIRE (R301) -/
  | recFire (src : Src) (slot : Nat)
  /-- REC_CNT_CLR (R312) -/
  | recCntClr (src : Src)
  /-- REC_READ (R311) -/
  | recRead (src : Src) (seq : Word)
  /-- COUNTER_SAVE (R305) -/
  | counterSave
  /-- FINAL_SAVE (R309) -/
  | finalSave
  /-- KEY_LOAD (R323) -/
  | keyLoad (src : Src) (cmd : Word)
  /-- KEY_UNLOAD (R323) -/
  | keyUnload (src : Src) (cmd : Word)
  /-- KEY_REPLACE (R325) -/
  | keyReplace (src : Src) (cmd : Word)
  /-- KEY_SWAP (R325) -/
  | keySwap (slot : Nat)
  /-- KEY_GENERATE (R323) -/
  | keyGenerate (src : Src) (cmd : Word)
  /-- KEY_IMPORT (R323) -/
  | keyImport (src : Src) (cmd : Word)
  /-- KEY_DERIVE (R323) -/
  | keyDerive (src : Src) (cmd : Word)
  /-- KEY_STORE_RES (R323) -/
  | keyStoreRes (src : Src) (cmd : Word)
  /-- KEY_ERASE_RES (R323) -/
  | keyEraseRes (src : Src) (cmd : Word)
  /-- ATTEST_KEY (R329) -/
  | attestKey (src : Src) (cmd : Word)
  /-- ATTEST_DEV (R329) -/
  | attestDev (src : Src) (cmd : Word)
  /-- ID_PUB (R323) -/
  | idPub (src : Src) (cmd : Word)
  /-- NONCE (R323) -/
  | nonce (src : Src) (cmd : Word)
  /-- LC_TRANSITION (R315) -/
  | lcTransition (src : Src) (cmd : Word)
  /-- LC_RETURN (R315) -/
  | lcReturn (src : Src) (cmd : Word)
  /-- VERIFY (R319) -/
  | verify (src : Src) (cmd : Word)
  /-- KEYMGMT (R323) -/
  | keymgmt (src : Src) (cmd : Word)
  /-- KEY_REMASK (R324) -/
  | keyRemask
  /-- ID_READY (R328) -/
  | idReady
  /-- LOWER_TREE_BUILD (R328) -/
  | lowerTreeBuild
  /-- SERVICE_EXPIRY (R316) -/
  | serviceExpiry
  /-- TAMPER_EVENT (R332) -/
  | tamperEvent (sources : BitVec 4)
  /-- TAMPER_RELEASE (R333) -/
  | tamperRelease (src : Src)
  /-- START_ATTEMPT (R338) -/
  | startAttempt (i : StartIn)
  /-- CLOCK_HOLD_END (R339) -/
  | clockHoldEnd
  /-- INVAR_WINDOW (R341) -/
  | invarWindow (count : Nat)
  /-- XO_STOP (R341) -/
  | xoStop
  /-- PLL_LOSS_OF_LOCK (R341) -/
  | pllLossOfLock (backup : Bool)
  /-- IRC_TRIM (R341) -/
  | ircTrim (up : Bool)
  /-- IRC_FAIL (R343) -/
  | ircFail
  /-- FALLBACK_ACC_1PCT (R342) -/
  | fallbackAcc1pct
  /-- CLK_GATE_WRITE (R345) -/
  | clkGateWrite (src : Src) (val : Word)
  /-- GATE_DRAIN_END (R346) -/
  | gateDrainEnd (ended : Bool)
  /-- CLKOUT_RECONFIG (R348) -/
  | clkoutReconfig
  /-- POWER_ON_RESET (R350) -/
  | powerOnReset
  /-- BROWN_OUT_RESET (R357) -/
  | brownOutReset
  /-- PIN_RESET (R356) -/
  | pinReset
  /-- WATCHDOG_RESET (R350) -/
  | watchdogReset
  /-- SOFT_RESET (R350) -/
  | softReset (src : Src) (cmd : Word)
  /-- SAFE_RESET (R350) -/
  | safeReset
  /-- PART_RESET (R350) -/
  | partReset
  /-- CLK_RESET (R343) -/
  | clkReset
  /-- RESET_BUTTON_RELEASE (R355) -/
  | resetButtonRelease (pressMs : Nat) (immediate : Bool)
  /-- RESET_BUTTON_STUCK (R355) -/
  | resetButtonStuck
  /-- RESET_BUTTON_REARM (R355) -/
  | resetButtonRearm
  /-- DEFERRED_PIN_RESET (R356) -/
  | deferredPinReset
  /-- POWER_FAIL_WARNING (R357) -/
  | powerFailWarning (mv : Nat)
  /-- POWER_RECOVERY (R357) -/
  | powerRecovery (mv : Nat)
  /-- HOLDUP_READY (R357) -/
  | holdupReady
  /-- PROF_DATA_WRITE (R360) -/
  | profDataWrite (src : Src) (val : Word)
  /-- PROF_STORE (R360) -/
  | profStore (src : Src) (slot : BitVec 2)
  /-- PROF_STORE_DONE (R360) -/
  | profStoreDone (writeOk : Bool)
  /-- PROFILE_OVR_WRITE (R359) -/
  | profileOvrWrite (src : Src) (val : Word)
  /-- PARK (R362) -/
  | park (src : Src)
  /-- AUTO_PARK (R362) -/
  | autoPark
  /-- PARK_WAKE (R363) -/
  | parkWake (cause : WakeCause)
  /-- PWR_RUN (R363) -/
  | pwrRun (src : Src)
  /-- DEEP (R364) -/
  | deep (src : Src)
  /-- DEEP_WAKE (R364) -/
  | deepWake (cause : WakeCause)
  /-- IMAGE_UPDATE (R3) -/
  | imageUpdate (src : Src) (object : List Byte)
  /-- ENROLMENT (R315) -/
  | enrolment (helper : List Byte) (vendorRoots : List (List Byte))
  /-- KEY_COMMAND_DONE (R323) -/
  | keyCommandDone
  /-- AON_POWER_LOSS (R357) -/
  | aonPowerLoss
  /-- BOR_START (R357) -/
  | borStart
  /-- ETH_FAR_FAULT (R271) -/
  | ethFarFault (on : Bool)
  deriving DecidableEq, Repr

end Sys2Proof
end

