-- ==== Sys2Proof/Config.lean ====
section
/-! DEFINITION. What one module is made with, and the values the spec leaves open: free values and uninterpreted
functions. Nothing in this file has a body a proof could use, but for the fixed choices that a log entry names. -/

namespace Sys2Proof.Config

/-- Random bytes of the internal generator (nonces, keys, masks), at the state's counter of draws (log entry 5). -/
opaque randomByte : Nat → Nat → Byte

/-- SHA-256 (R290, R361); uninterpreted (log entry 4). -/
opaque sha256 : List Byte → List Byte

/-- HKDF-SHA256 of RFC 5869: key material, salt, info, output length (R314); uninterpreted. -/
opaque hkdf : List Byte → List Byte → List Byte → Nat → List Byte

/-- AES-256-GCM sealing: key, nonce, additional data, plaintext; answers ciphertext and 16-byte tag (R265, R320). -/
opaque gcmSeal : List Byte → List Byte → List Byte → List Byte → List Byte × List Byte

/-- AES-256-GCM opening: key, nonce, additional data, ciphertext, tag; none when authentication fails. -/
opaque gcmOpen : List Byte → List Byte → List Byte → List Byte → List Byte → Option (List Byte)

/-- LMS verification of RFC 8554: 56-byte public key, message, signature (R317, R319). -/
opaque lmsVerify : List Byte → List Byte → List Byte → Bool

/-- HSS signature of RFC 8554: identity seed, identifier, index, message (R329, R330). -/
opaque hssSign : List Byte → List Byte → Nat → List Byte → List Byte

/-- The 60-byte HSS public key of an identity seed and identifier (R328). -/
opaque hssPublic : List Byte → List Byte → List Byte

/-- PUF regeneration: response and helper data to the device root, none when the check value differs (R313). -/
opaque pufRoot : List Byte → List Byte → Option (List Byte)

/-- What a PROFILE_SEL or ID field of manufacture holds where the spec gives no value: microcode revision of the
running image (Table 2.4); per image, so a free value (log entry 3). -/
opaque ucode : Nat → BitVec 16

/-- The MAC address bytes of port n, from OTP (R270); made at manufacture, so a free value. -/
opaque mac : Nat → Nat → Byte

/-- The quotient of a division by zero that a formula of the spec meets, as a function of the dividend. -/
opaque divByZero : Int → Int

/-- The word a register takes where the result of a formula does not fit it, as a function of the result. -/
opaque outOfRange : Int → BitVec 32

/-- What a torn MRAM ring place holds (R308, R311): only that it fails its check matters; its bytes are free. -/
opaque tornByte : Nat → Nat → Byte

/-- The CRC-32 digest of Electrum's configuration words and landing copy (R184); the spec gives no layout of what it covers. -/
opaque safeDigest : List (BitVec 32) → BitVec 32

/-- What tap `i` reads between 30 % and 70 % of CH_IN (R189): tap voltage and CH_IN, mV. -/
opaque tapBetween : Nat → Nat → Nat → Bool

/-- The protection-window words of the masters other than the host port, set by the microcode (R275): offset in XBAR_MWIN. -/
opaque microWindow : Nat → BitVec 32

/-- The interconnect cycles a master was granted in a period (XBAR_USED, Table 14.14): master, tick. -/
opaque busUse : Nat → Nat → Nat

/-- The highest such count since it was cleared: master, tick of the clear, tick. -/
opaque busPeak : Nat → Nat → Nat → Nat

/-- The info bytes a DERIVE command takes from the start of the buffer: 1 to 64 of them; no field gives their number. -/
opaque deriveInfo : List Byte → List Byte

/-- The code of a profile store whose MRAM readback differs; the spec states none (R360). `reportable` keeps R33. -/
opaque storeFault : BitVec 8

/-- The code of a stored profile entry that names an address no profile may set; the spec states none (R360). -/
opaque entryCode : Nat → BitVec 8

/-- The first session identifier of a start; the spec does not say how SID is chosen (R266). -/
opaque sidBase : Nat

/-- Whether an MRAM write of a record reads back equal (R308): sequence, attempt. -/
opaque mramGood : Nat → Nat → Bool

end Sys2Proof.Config
end

