-- ==== Sys2Proof/Machine/RegMap.lean ====
section
/-! DEFINITION. The register map: every page's registers with their access codes, retention classes, reset values,
fields and limits, transcribed from the page tables of the spec (Tables 2.3, 3.6-3.9, 4.7, 5.5, 6.7, 7.8, 8.6, 9.7,
10.9, 11.6, 12.5, 13.5, 13.7, 14.9, 14.11, 14.13, 15.7, 16.4, 17.11, 17.13, 18.7, 19.5, 19.7). -/

namespace Sys2Proof.Machine

/-- Access codes (Table 2.6). -/
inductive Acc where
  | rw | ro | w1c | wo | rws | rwp
  deriving DecidableEq, Repr

/-- Retention classes (Table 2.7). -/
inductive Cls where
  | p | a | v | n
  deriving DecidableEq, Repr

/-- One field: lowest bit, width, access code, and the limits of its value where the tables state them. -/
structure Fld where
  lo : Nat
  width : Nat
  acc : Acc
  lim : Option (Int × Int)
  signed : Bool
  deriving DecidableEq, Repr

/-- `count` registers of one kind, `stride` bytes apart from offset `off`. Bits in no field are reserved (R27). -/
structure RegSpec where
  off : Nat
  count : Nat
  stride : Nat
  cls : Cls
  reset : Nat
  flds : List Fld
  deriving DecidableEq, Repr

/-- A field with no stated limit. -/
def fld (lo width : Nat) (acc : Acc) : Fld := ⟨lo, width, acc, none, false⟩

/-- A field with a stated limit. -/
def fldL (lo width : Nat) (acc : Acc) (min max : Int) : Fld := ⟨lo, width, acc, some (min, max), false⟩

/-- A signed field with a stated limit. -/
def fldS (lo width : Nat) (acc : Acc) (min max : Int) : Fld := ⟨lo, width, acc, some (min, max), true⟩

/-- Registers of the SYS page (Table 19.5), part 1. -/
def sysRegs0 : List RegSpec := [
  ⟨0x8, 1, 4, .v, 0x0, [fld 0 32 .ro]⟩,
  ⟨0xc, 1, 4, .v, 0x0, [fld 0 32 .ro]⟩,
  ⟨0x40, 1, 4, .v, 0x0, [fld 0 32 .ro]⟩,
  ⟨0x44, 1, 4, .v, 0x0, [fld 0 1 .w1c, fld 1 1 .w1c, fld 2 1 .w1c]⟩,
  ⟨0x48, 1, 4, .v, 0x0, [fld 0 32 .ro]⟩,
  ⟨0x4c, 1, 4, .a, 0x0, [fld 0 32 .ro]⟩,
  ⟨0x50, 1, 4, .a, 0x0, [fld 0 2 .rw, fld 8 1 .rw, fld 9 1 .ro]⟩,
  ⟨0x54, 4, 4, .n, 0x0, [fld 0 32 .ro]⟩,
  ⟨0x70, 1, 4, .v, 0x0, [fldL 0 32 .rw (0) 5120]⟩,
  ⟨0x74, 1, 4, .v, 0x0, [fld 0 32 .wo]⟩,
  ⟨0x78, 1, 4, .v, 0x0, [fld 0 1 .wo, fld 1 1 .wo, fld 2 2 .wo, fld 16 16 .wo]⟩,
  ⟨0x7c, 1, 4, .v, 0x0, [fld 0 32 .ro]⟩]

/-- The registers of the SYS page. -/
def sysRegs : List RegSpec := sysRegs0

/-- Registers of the CLK page (Table 18.7), part 1. -/
def clkRegs0 : List RegSpec := [
  ⟨0x8, 1, 4, .v, 0x0, [fld 0 32 .ro]⟩,
  ⟨0xc, 1, 4, .v, 0x0, [fld 0 32 .ro]⟩,
  ⟨0x40, 1, 4, .v, 0x0, [fld 0 32 .ro]⟩,
  ⟨0x44, 1, 4, .n, 0x200, [fld 0 32 .ro]⟩,
  ⟨0x48, 1, 4, .v, 0x0, [fld 0 32 .ro]⟩,
  ⟨0x4c, 1, 4, .v, 0xfffffff, [fld 0 1 .rw, fld 1 1 .rw, fld 2 1 .rw, fld 3 1 .rw, fld 4 1 .rw, fld 5 1 .rw, fld 6 1 .rw, fld 7 1 .rw, fld 8 1 .rw, fld 9 1 .rw, fld 10 1 .rw, fld 11 1 .rw, fld 12 4 .rw, fld 16 3 .rw, fld 19 1 .rw, fld 20 8 .rw]⟩,
  ⟨0x50, 1, 4, .v, 0xfffffff, [fld 0 32 .ro]⟩,
  ⟨0x54, 1, 4, .p, 0x0, [fldL 0 4 .rwp (0) 14, fld 4 1 .rwp, fld 16 16 .rwp]⟩,
  ⟨0x58, 1, 4, .a, 0x0, [fld 0 32 .ro]⟩]

/-- The registers of the CLK page. -/
def clkRegs : List RegSpec := clkRegs0

/-- Registers of the PWR page (Table 19.7), part 1. -/
def pwrRegs0 : List RegSpec := [
  ⟨0x8, 1, 4, .v, 0x0, [fld 0 32 .ro]⟩,
  ⟨0xc, 1, 4, .v, 0x0, [fld 0 32 .ro]⟩,
  ⟨0x40, 1, 4, .v, 0x0, [fld 0 32 .ro]⟩,
  ⟨0x44, 1, 4, .p, 0x1, [fld 0 1 .rwp, fld 1 1 .rwp]⟩,
  ⟨0x48, 1, 4, .p, 0x12c, [fldL 0 32 .rwp (10) 86400]⟩,
  ⟨0x4c, 1, 4, .p, 0x0, [fldL 0 32 .rwp (0) 604800]⟩,
  ⟨0x50, 1, 4, .n, 0x0, [fld 0 32 .ro]⟩,
  ⟨0x54, 1, 4, .v, 0x0, [fld 0 1 .wo, fld 1 1 .wo, fld 2 1 .wo]⟩]

/-- The registers of the PWR page. -/
def pwrRegs : List RegSpec := pwrRegs0

/-- Registers of the XBAR page (Table 14.13), part 1. -/
def xbarRegs0 : List RegSpec := [
  ⟨0x40, 1, 4, .v, 0x0, [fld 0 12 .w1c]⟩,
  ⟨0x44, 1, 4, .p, 0x9c4, [fld 0 14 .ro]⟩,
  ⟨0x48, 1, 4, .p, 0x7d0, [fld 0 14 .ro]⟩,
  ⟨0x4c, 1, 4, .p, 0x4b0, [fld 0 14 .ro]⟩,
  ⟨0x50, 1, 4, .p, 0x960, [fld 0 14 .ro]⟩,
  ⟨0x54, 1, 4, .p, 0x190, [fld 0 14 .ro]⟩,
  ⟨0x58, 1, 4, .p, 0x190, [fld 0 14 .ro]⟩,
  ⟨0x5c, 1, 4, .p, 0x4b0, [fldL 0 14 .rwp (600) 4000]⟩,
  ⟨0x60, 1, 4, .p, 0x640, [fldL 0 14 .rwp (800) 4000]⟩,
  ⟨0x64, 1, 4, .p, 0x4b0, [fldL 0 14 .rwp (1100) 4000]⟩,
  ⟨0x68, 1, 4, .p, 0x320, [fldL 0 14 .rwp (400) 2000]⟩,
  ⟨0x6c, 1, 4, .p, 0x258, [fldL 0 14 .rwp (300) 2000]⟩,
  ⟨0x70, 1, 4, .p, 0x3e8, [fldL 0 14 .rwp (800) 3000]⟩,
  ⟨0x80, 12, 4, .v, 0x0, [fld 0 32 .ro]⟩,
  ⟨0xb0, 1, 4, .v, 0x0, [fld 0 1 .wo, fld 1 1 .wo]⟩,
  ⟨0x100, 24, 4, .v, 0x0, [fld 0 32 .ro]⟩,
  ⟨0x200, 16, 8, .p, 0x0, [fld 0 24 .rwp]⟩,
  ⟨0x204, 1, 8, .p, 0x3fffffc, [fld 0 24 .rwp, fld 24 1 .rwp, fld 25 1 .rwp, fldL 26 2 .rwp (0) 2]⟩,
  ⟨0x20c, 15, 8, .p, 0x0, [fld 0 24 .rwp, fld 24 1 .rwp, fld 25 1 .rwp, fldL 26 2 .rwp (0) 2]⟩,
  ⟨0x400, 384, 4, .v, 0x0, [fld 0 32 .ro]⟩]

/-- The registers of the XBAR page. -/
def xbarRegs : List RegSpec := xbarRegs0

/-- Registers of the HOST page (Table 14.9), part 1. -/
def hostRegs0 : List RegSpec := [
  ⟨0x8, 1, 4, .v, 0x0, [fld 0 32 .ro]⟩,
  ⟨0xc, 1, 4, .v, 0x0, [fld 0 32 .ro]⟩,
  ⟨0x40, 1, 4, .p, 0x3, [fld 0 1 .rwp, fld 1 1 .rwp]⟩,
  ⟨0x44, 1, 4, .p, 0x2710, [fldL 0 32 .rwp (1000) 600000]⟩,
  ⟨0x50, 4, 4, .v, 0x0, [fld 0 32 .ro]⟩,
  ⟨0x60, 1, 4, .v, 0x0, [fld 0 32 .ro]⟩,
  ⟨0x64, 1, 4, .v, 0x0, [fld 0 1 .wo, fld 1 1 .wo, fld 2 1 .wo]⟩]

/-- The registers of the HOST page. -/
def hostRegs : List RegSpec := hostRegs0

/-- Registers of the POS page (Table 3.6), part 1. -/
def posRegs0 : List RegSpec := [
  ⟨0x8, 1, 4, .v, 0x1fe, [fld 0 1 .rw, fld 1 1 .rwp, fld 2 1 .rwp, fld 3 1 .rwp, fld 4 1 .rwp, fld 5 1 .rwp, fld 6 1 .rwp, fld 7 1 .rwp, fld 8 1 .rwp]⟩,
  ⟨0xc, 1, 4, .v, 0x0, [fld 0 32 .ro]⟩,
  ⟨0x40, 1, 4, .v, 0x0, [fld 0 32 .ro]⟩,
  ⟨0x44, 1, 4, .v, 0x0, [fld 0 32 .ro]⟩,
  ⟨0x48, 1, 4, .v, 0x0, [fld 0 32 .ro]⟩,
  ⟨0x4c, 1, 4, .v, 0x0, [fld 0 32 .ro]⟩,
  ⟨0x50, 1, 4, .v, 0x0, [fld 0 32 .ro]⟩,
  ⟨0x54, 1, 4, .n, 0x0, [fld 0 32 .ro]⟩,
  ⟨0x58, 1, 4, .n, 0x0, [fld 0 32 .ro]⟩,
  ⟨0x5c, 1, 4, .v, 0x0, [fld 0 32 .ro]⟩,
  ⟨0x60, 1, 4, .v, 0x0, [fld 0 32 .ro]⟩,
  ⟨0x64, 1, 4, .v, 0x0, [fld 0 32 .ro]⟩,
  ⟨0x68, 1, 4, .v, 0x0, [fld 0 32 .ro]⟩,
  ⟨0x6c, 1, 4, .v, 0x0, [fld 0 32 .ro]⟩,
  ⟨0x70, 1, 4, .v, 0x0, [fld 0 32 .ro]⟩,
  ⟨0x74, 1, 4, .v, 0x0, [fld 0 32 .ro]⟩,
  ⟨0x78, 1, 4, .v, 0x0, [fld 0 32 .ro]⟩,
  ⟨0x7c, 1, 4, .v, 0x0, [fld 0 32 .ro]⟩,
  ⟨0x80, 1, 4, .p, 0x10000, [fld 0 32 .rwp]⟩,
  ⟨0x84, 1, 4, .p, 0x10000, [fld 0 32 .rwp]⟩,
  ⟨0x88, 1, 4, .p, 0x0, [fld 0 2 .rwp, fld 2 5 .rwp, fld 8 2 .rwp, fld 10 5 .rwp]⟩,
  ⟨0x8c, 1, 4, .p, 0x28, [fldL 0 16 .rwp (0) 2000]⟩,
  ⟨0x90, 1, 4, .p, 0x0, [fld 0 32 .rwp]⟩,
  ⟨0x94, 1, 4, .p, 0x0, [fld 0 32 .rwp]⟩]

/-- Registers of the POS page (Table 3.6), part 2. -/
def posRegs1 : List RegSpec := [
  ⟨0x98, 1, 4, .p, 0x0, [fld 0 32 .rwp]⟩,
  ⟨0x9c, 1, 4, .p, 0x0, [fld 0 32 .rwp]⟩,
  ⟨0xa0, 1, 4, .p, 0x2710, [fldL 0 32 .rwp (1000) 50000]⟩,
  ⟨0xa4, 1, 4, .p, 0xc350, [fldL 0 32 .rwp (10000) 200000]⟩,
  ⟨0xa8, 1, 4, .p, 0x4e20, [fldL 0 32 .rwp (1000) 65535]⟩,
  ⟨0xac, 1, 4, .p, 0x4, [fldL 0 3 .rwp (0) 5]⟩,
  ⟨0xb0, 1, 4, .p, 0x95a33a, [fldL 0 32 .rwp (9760000) 9840000]⟩,
  ⟨0xb4, 1, 4, .p, 0x2710, [fld 0 32 .rwp]⟩,
  ⟨0xb8, 1, 4, .p, 0x493e0, [fld 0 32 .rwp]⟩,
  ⟨0xbc, 1, 4, .p, 0x1e8480, [fld 0 32 .rwp]⟩,
  ⟨0xc0, 1, 4, .p, 0xc350, [fldL 0 32 .rwp (5000) 500000]⟩,
  ⟨0xc4, 1, 4, .p, 0xc8, [fldL 0 32 .rwp (10) 5000]⟩,
  ⟨0xc8, 1, 4, .p, 0x7530, [fldL 0 32 .rwp (5000) 200000]⟩,
  ⟨0xcc, 1, 4, .p, 0xc350, [fldL 0 32 .rwp (5000) 1000000]⟩,
  ⟨0xd0, 1, 4, .p, 0x0, [fldL 0 32 .rwp (0) 16777215]⟩,
  ⟨0xd4, 1, 4, .p, 0x186a0, [fld 0 32 .rwp]⟩,
  ⟨0xd8, 1, 4, .v, 0x0, [fld 0 1 .wo, fld 1 1 .wo, fld 2 1 .wo, fld 3 1 .wo]⟩,
  ⟨0x100, 1, 4, .p, 0x2000, [fld 0 16 .rwp]⟩,
  ⟨0x104, 1, 4, .p, 0x200, [fld 0 16 .rwp]⟩,
  ⟨0x108, 1, 4, .p, 0x10, [fld 0 16 .rwp]⟩,
  ⟨0x10c, 1, 4, .p, 0x1000, [fld 0 16 .rwp]⟩,
  ⟨0x110, 1, 4, .p, 0x4, [fld 0 16 .rwp]⟩,
  ⟨0x114, 1, 4, .p, 0x4000, [fld 0 16 .rwp]⟩,
  ⟨0x118, 1, 4, .p, 0x100, [fld 0 16 .rwp]⟩]

/-- Registers of the POS page (Table 3.6), part 3. -/
def posRegs2 : List RegSpec := [
  ⟨0x11c, 1, 4, .p, 0x0, [fld 0 16 .rwp]⟩,
  ⟨0x120, 1, 4, .p, 0x40, [fld 0 16 .rwp]⟩,
  ⟨0x124, 1, 4, .p, 0x8000, [fld 0 16 .rwp]⟩,
  ⟨0x128, 1, 4, .p, 0x0, [fld 0 16 .rwp]⟩,
  ⟨0x140, 1, 4, .p, 0x4000, [fld 0 16 .rwp]⟩,
  ⟨0x144, 1, 4, .p, 0x400, [fld 0 16 .rwp]⟩,
  ⟨0x148, 1, 4, .p, 0x20, [fld 0 16 .rwp]⟩,
  ⟨0x14c, 1, 4, .p, 0x2000, [fld 0 16 .rwp]⟩,
  ⟨0x150, 1, 4, .p, 0x0, [fld 0 16 .rwp]⟩,
  ⟨0x154, 1, 4, .p, 0x2000, [fld 0 16 .rwp]⟩,
  ⟨0x158, 1, 4, .p, 0x200, [fld 0 16 .rwp]⟩,
  ⟨0x15c, 1, 4, .p, 0x1000, [fld 0 16 .rwp]⟩,
  ⟨0x160, 1, 4, .p, 0x0, [fld 0 16 .rwp]⟩,
  ⟨0x164, 1, 4, .p, 0x8000, [fld 0 16 .rwp]⟩,
  ⟨0x168, 1, 4, .p, 0x8000, [fld 0 16 .rwp]⟩,
  ⟨0x180, 1, 4, .p, 0x4000, [fld 0 16 .rwp]⟩,
  ⟨0x184, 1, 4, .p, 0x400, [fld 0 16 .rwp]⟩,
  ⟨0x188, 1, 4, .p, 0x20, [fld 0 16 .rwp]⟩,
  ⟨0x18c, 1, 4, .p, 0x2000, [fld 0 16 .rwp]⟩,
  ⟨0x190, 1, 4, .p, 0x0, [fld 0 16 .rwp]⟩,
  ⟨0x194, 1, 4, .p, 0x1000, [fld 0 16 .rwp]⟩,
  ⟨0x198, 1, 4, .p, 0x100, [fld 0 16 .rwp]⟩,
  ⟨0x19c, 1, 4, .p, 0x800, [fld 0 16 .rwp]⟩,
  ⟨0x1a0, 1, 4, .p, 0x0, [fld 0 16 .rwp]⟩]

/-- Registers of the POS page (Table 3.6), part 4. -/
def posRegs3 : List RegSpec := [
  ⟨0x1a4, 1, 4, .p, 0x4000, [fld 0 16 .rwp]⟩,
  ⟨0x1a8, 1, 4, .p, 0x4000, [fld 0 16 .rwp]⟩,
  ⟨0x1c0, 1, 4, .p, 0x4000, [fld 0 16 .rwp]⟩,
  ⟨0x1c4, 1, 4, .p, 0x400, [fld 0 16 .rwp]⟩,
  ⟨0x1c8, 1, 4, .p, 0x20, [fld 0 16 .rwp]⟩,
  ⟨0x1cc, 1, 4, .p, 0x2000, [fld 0 16 .rwp]⟩,
  ⟨0x1d0, 1, 4, .p, 0x0, [fld 0 16 .rwp]⟩,
  ⟨0x1d4, 1, 4, .p, 0x800, [fld 0 16 .rwp]⟩,
  ⟨0x1d8, 1, 4, .p, 0x80, [fld 0 16 .rwp]⟩,
  ⟨0x1dc, 1, 4, .p, 0x400, [fld 0 16 .rwp]⟩,
  ⟨0x1e0, 1, 4, .p, 0x0, [fld 0 16 .rwp]⟩,
  ⟨0x1e4, 1, 4, .p, 0x2000, [fld 0 16 .rwp]⟩,
  ⟨0x1e8, 1, 4, .p, 0x2000, [fld 0 16 .rwp]⟩]

/-- The registers of the POS page. -/
def posRegs : List RegSpec := posRegs0 ++ posRegs1 ++ posRegs2 ++ posRegs3

/-- Registers of the MOT page (Table 4.7, 5.5), part 1. -/
def motRegs0 : List RegSpec := [
  ⟨0x8, 1, 4, .v, 0x0, [fld 0 1 .rws, fld 1 1 .rw]⟩,
  ⟨0xc, 1, 4, .v, 0x0, [fld 0 32 .ro]⟩,
  ⟨0x40, 1, 4, .v, 0x0, [fld 0 8 .rw]⟩,
  ⟨0x44, 1, 4, .v, 0x0, [fld 0 32 .ro]⟩,
  ⟨0x48, 1, 4, .v, 0x0, [fld 0 8 .rw]⟩,
  ⟨0x4c, 1, 4, .v, 0x0, [fld 0 32 .ro]⟩,
  ⟨0x50, 1, 4, .v, 0x0, [fld 0 32 .ro]⟩,
  ⟨0x54, 1, 4, .v, 0x0, [fld 0 32 .ro]⟩,
  ⟨0x58, 1, 4, .v, 0x0, [fld 0 32 .ro]⟩,
  ⟨0x5c, 1, 4, .v, 0x0, [fld 0 32 .ro]⟩,
  ⟨0x60, 1, 4, .v, 0x0, [fld 0 32 .ro]⟩,
  ⟨0x64, 1, 4, .v, 0x0, [fld 0 32 .ro]⟩,
  ⟨0x68, 1, 4, .v, 0xffffffff, [fld 0 32 .ro]⟩,
  ⟨0x6c, 1, 4, .v, 0x0, [fld 0 32 .ro]⟩,
  ⟨0x70, 1, 4, .v, 0xf4240, [fld 0 32 .ro]⟩,
  ⟨0x74, 1, 4, .v, 0x7a120, [fld 0 32 .ro]⟩,
  ⟨0x78, 1, 4, .v, 0x7a120, [fld 0 32 .ro]⟩,
  ⟨0x7c, 1, 4, .v, 0x7a120, [fld 0 32 .ro]⟩,
  ⟨0x80, 1, 4, .v, 0x7a120, [fld 0 32 .ro]⟩,
  ⟨0x84, 1, 4, .v, 0x7a120, [fld 0 32 .ro]⟩,
  ⟨0x88, 1, 4, .v, 0x7a120, [fld 0 32 .ro]⟩,
  ⟨0x8c, 1, 4, .v, 0xf4240, [fld 0 32 .ro]⟩,
  ⟨0x90, 1, 4, .v, 0xf4240, [fld 0 32 .rw]⟩,
  ⟨0x94, 1, 4, .v, 0x7a120, [fld 0 32 .rw]⟩]

/-- Registers of the MOT page (Table 4.7, 5.5), part 2. -/
def motRegs1 : List RegSpec := [
  ⟨0x98, 1, 4, .v, 0x7a120, [fld 0 32 .rw]⟩,
  ⟨0x9c, 1, 4, .v, 0x7a120, [fld 0 32 .rw]⟩,
  ⟨0xa0, 1, 4, .v, 0x7a120, [fld 0 32 .rw]⟩,
  ⟨0xa4, 1, 4, .v, 0x7a120, [fld 0 32 .rw]⟩,
  ⟨0xa8, 1, 4, .v, 0x7a120, [fld 0 32 .rw]⟩,
  ⟨0xac, 1, 4, .v, 0x0, [fld 0 1 .wo, fld 1 1 .wo, fld 2 1 .wo, fld 3 1 .wo]⟩,
  ⟨0xb0, 1, 4, .p, 0x0, [fldL 0 2 .rwp (0) 2]⟩,
  ⟨0xb4, 1, 4, .p, 0x4e20, [fldL 0 32 .rwp (1000) 500000]⟩,
  ⟨0xb8, 1, 4, .v, 0x0, [fldL 0 32 .rw (1000) 1000000000]⟩,
  ⟨0xbc, 1, 4, .v, 0x0, [fld 0 32 .ro]⟩,
  ⟨0xc0, 1, 4, .p, 0xf4240, [fldL 0 32 .rwp (100000) 20000000]⟩,
  ⟨0xc4, 1, 4, .p, 0x7a120, [fldL 0 32 .rwp (100000) 2000000]⟩,
  ⟨0xc8, 1, 4, .p, 0x7a120, [fldL 0 32 .rwp (100000) 2000000]⟩,
  ⟨0xcc, 1, 4, .p, 0x7a120, [fldL 0 32 .rwp (100000) 5000000]⟩,
  ⟨0xd0, 1, 4, .p, 0x7a120, [fldL 0 32 .rwp (100000) 5000000]⟩,
  ⟨0xd4, 1, 4, .p, 0x7a120, [fldL 0 32 .rwp (100000) 5000000]⟩,
  ⟨0xd8, 1, 4, .p, 0x7a120, [fldL 0 32 .rwp (100000) 5000000]⟩,
  ⟨0x100, 1, 4, .v, 0x0, [fld 0 1 .wo, fld 1 1 .wo, fld 2 1 .wo, fld 3 1 .wo]⟩,
  ⟨0x104, 1, 4, .v, 0x0, [fld 0 32 .ro]⟩,
  ⟨0x108, 1, 4, .v, 0x0, [fld 0 1 .w1c, fld 1 1 .w1c, fld 2 1 .w1c, fld 3 1 .w1c, fld 4 1 .w1c, fld 5 1 .w1c, fld 6 1 .w1c, fld 7 1 .w1c]⟩,
  ⟨0x10c, 1, 4, .p, 0x27, [fld 0 1 .rwp, fld 1 1 .rwp, fld 2 1 .rwp, fldL 4 2 .rwp (0) 2]⟩,
  ⟨0x110, 1, 4, .p, 0x0, [fld 0 8 .rwp, fld 8 8 .rwp, fld 16 1 .rwp, fld 17 1 .rwp, fld 18 1 .rwp]⟩,
  ⟨0x114, 1, 4, .p, 0x7a120, [fldL 0 32 .rwp (50000) 1000000]⟩,
  ⟨0x118, 1, 4, .p, 0x3b9aca00, [fldL 0 32 .rwp (1000000) 1000000000]⟩]

/-- Registers of the MOT page (Table 4.7, 5.5), part 3. -/
def motRegs2 : List RegSpec := [
  ⟨0x11c, 1, 4, .p, 0x7a120, [fldL 0 32 .rwp (100000) 5000000]⟩,
  ⟨0x120, 1, 4, .p, 0x3, [fldL 0 32 .rwp (1) 15]⟩,
  ⟨0x124, 1, 4, .p, 0x493e0, [fldL 0 32 .rwp (50000) 300000]⟩,
  ⟨0x128, 1, 4, .p, 0x1388, [fldL 0 32 .rwp (1000) 10000]⟩,
  ⟨0x12c, 1, 4, .p, 0x2710, [fldL 0 32 .rwp (2000) 20000]⟩,
  ⟨0x130, 1, 4, .p, 0xc8, [fldL 0 32 .rwp (10) 5000]⟩,
  ⟨0x134, 1, 4, .p, 0xc350, [fldL 0 32 .rwp (10000) 300000]⟩,
  ⟨0x138, 1, 4, .p, 0x4, [fldL 0 32 .rwp (1) 15]⟩]

/-- The registers of the MOT page. -/
def motRegs : List RegSpec := motRegs0 ++ motRegs1 ++ motRegs2

/-- Registers of the DRV page (Table 6.7), part 1. -/
def drvRegs0 : List RegSpec := [
  ⟨0x8, 1, 4, .v, 0x0, [fld 0 32 .ro]⟩,
  ⟨0xc, 1, 4, .v, 0x0, [fld 0 32 .ro]⟩,
  ⟨0x40, 1, 4, .p, 0x0, [fldL 0 3 .rwp (0) 4, fld 3 1 .rwp]⟩,
  ⟨0x44, 1, 4, .v, 0x0, [fld 0 32 .ro]⟩,
  ⟨0x48, 1, 4, .v, 0x0, [fld 0 32 .ro]⟩,
  ⟨0x4c, 1, 4, .v, 0x0, [fld 0 32 .ro]⟩,
  ⟨0x50, 1, 4, .v, 0x0, [fld 0 32 .ro]⟩,
  ⟨0x54, 1, 4, .v, 0x0, [fld 0 32 .ro]⟩,
  ⟨0x58, 1, 4, .p, 0x1f4, [fldL 0 32 .rwp (0) 10000]⟩,
  ⟨0x5c, 1, 4, .p, 0x0, [fld 0 32 .rwp]⟩,
  ⟨0x60, 1, 4, .p, 0x3e8, [fldL 0 32 .rwp (100) 10000]⟩,
  ⟨0x64, 1, 4, .p, 0x64, [fldL 0 32 .rwp (0) 2000]⟩,
  ⟨0x68, 1, 4, .p, 0xc8, [fldL 0 32 .rwp (20) 2000]⟩,
  ⟨0x6c, 1, 4, .p, 0x12c, [fldL 0 32 .rwp (20) 2000]⟩,
  ⟨0x70, 1, 4, .p, 0x1, [fldL 0 32 .rwp (1) 127]⟩,
  ⟨0x74, 1, 4, .p, 0x10000, [fld 0 32 .rwp]⟩,
  ⟨0x78, 1, 4, .p, 0xf4240, [fldL 0 32 .rwp (100000) 25000000]⟩,
  ⟨0x7c, 1, 4, .p, 0xa0000, [fld 0 32 .rwp]⟩,
  ⟨0x80, 1, 4, .p, 0x0, [fld 0 32 .rwp]⟩,
  ⟨0x84, 1, 4, .p, 0x0, [fldS 0 32 .rwp (-500) 500]⟩,
  ⟨0x88, 1, 4, .v, 0x0, [fld 0 32 .ro]⟩,
  ⟨0x8c, 1, 4, .p, 0x10000, [fldL 0 32 .rwp (6554) 6553600]⟩,
  ⟨0x90, 1, 4, .v, 0x0, [fld 0 1 .wo, fld 1 1 .wo]⟩]

/-- The registers of the DRV page. -/
def drvRegs : List RegSpec := drvRegs0

/-- Registers of the SCH page (Table 7.8), part 1. -/
def schRegs0 : List RegSpec := [
  ⟨0x8, 1, 4, .v, 0x0, [fld 0 1 .rw, fld 1 1 .rw]⟩,
  ⟨0xc, 1, 4, .v, 0x0, [fld 0 32 .ro]⟩,
  ⟨0x40, 1, 4, .v, 0x0, [fldL 0 3 .rw (0) 4]⟩,
  ⟨0x44, 1, 4, .p, 0x0, [fldL 0 3 .rwp (0) 4]⟩,
  ⟨0x48, 1, 4, .p, 0x0, [fld 0 8 .rwp]⟩,
  ⟨0x4c, 1, 4, .p, 0xbb8, [fldL 0 32 .rwp (500) 60000]⟩,
  ⟨0x50, 1, 4, .p, 0x50, [fldL 0 32 .rwp (50) 100]⟩,
  ⟨0x54, 1, 4, .p, 0x0, [fld 0 1 .rwp]⟩,
  ⟨0x58, 1, 4, .p, 0x7530, [fldL 0 32 .rwp (1000) 600000]⟩,
  ⟨0x5c, 1, 4, .v, 0x0, [fld 0 32 .ro]⟩,
  ⟨0x60, 1, 4, .v, 0x0, [fld 0 32 .ro]⟩,
  ⟨0x64, 1, 4, .v, 0x0, [fld 0 32 .ro]⟩,
  ⟨0x68, 1, 4, .v, 0x0, [fld 0 32 .ro]⟩,
  ⟨0x6c, 1, 4, .v, 0x0, [fld 0 32 .ro]⟩,
  ⟨0x70, 1, 4, .v, 0x0, [fld 0 8 .wo, fld 8 8 .wo, fld 16 16 .wo]⟩,
  ⟨0x74, 1, 4, .v, 0x0, [fld 0 10 .wo]⟩,
  ⟨0x78, 1, 4, .v, 0x0, [fld 0 32 .ro]⟩,
  ⟨0x7c, 1, 4, .v, 0x0, [fld 0 1 .wo, fld 1 1 .wo, fld 2 1 .wo]⟩,
  ⟨0x80, 1, 4, .p, 0xc8, [fldL 0 32 .rwp (0) 6000]⟩,
  ⟨0x84, 1, 4, .p, 0x14, [fldL 0 32 .rwp (0) 6000]⟩,
  ⟨0x88, 1, 4, .p, 0x1e, [fldL 0 32 .rwp (0) 6000]⟩]

/-- The registers of the SCH page. -/
def schRegs : List RegSpec := schRegs0

/-- Registers of the BID page (Table 8.6), part 1. -/
def bidRegs0 : List RegSpec := [
  ⟨0x8, 1, 4, .v, 0x0, [fld 0 1 .ro, fld 1 1 .rw]⟩,
  ⟨0xc, 1, 4, .v, 0x0, [fld 0 32 .ro]⟩,
  ⟨0x40, 1, 4, .p, 0x1c0, [fld 0 6 .rwp, fld 6 1 .rwp, fld 7 1 .rwp, fld 8 1 .rwp]⟩,
  ⟨0x44, 1, 4, .p, 0x3e8, [fldL 0 32 .rwp (200) 10000]⟩,
  ⟨0x48, 1, 4, .p, 0x3e8, [fldL 0 32 .rwp (200) 10000]⟩,
  ⟨0x4c, 1, 4, .p, 0x3, [fldL 0 32 .rwp (2) 15]⟩,
  ⟨0x50, 1, 4, .p, 0x7d0, [fldL 0 32 .rwp (1000) 30000]⟩,
  ⟨0x54, 1, 4, .v, 0x0, [fld 0 32 .ro]⟩,
  ⟨0x58, 1, 4, .v, 0x0, [fld 0 32 .ro]⟩,
  ⟨0x5c, 1, 4, .v, 0xffff0000, [fld 0 32 .ro]⟩,
  ⟨0x60, 1, 4, .v, 0x0, [fld 0 16 .rw, fld 16 8 .rw]⟩,
  ⟨0x64, 1, 4, .v, 0xffff, [fld 0 32 .ro]⟩,
  ⟨0x68, 1, 4, .v, 0x0, [fld 0 32 .ro]⟩,
  ⟨0x6c, 1, 4, .v, 0x0, [fld 0 32 .ro]⟩,
  ⟨0x70, 1, 4, .v, 0x0, [fld 0 1 .wo, fld 1 1 .wo, fld 2 1 .wo]⟩,
  ⟨0x400, 512, 4, .v, 0x0, [fld 0 32 .ro]⟩]

/-- The registers of the BID page. -/
def bidRegs : List RegSpec := bidRegs0

/-- Registers of the DOOR page (Table 9.7), part 1. -/
def doorRegs0 : List RegSpec := [
  ⟨0x8, 1, 4, .v, 0x0, [fld 0 32 .ro]⟩,
  ⟨0xc, 1, 4, .v, 0x10, [fld 0 32 .ro]⟩,
  ⟨0x40, 1, 4, .p, 0x28, [fld 0 1 .rwp, fld 1 1 .rwp, fld 2 1 .rwp, fld 3 1 .rwp, fld 4 1 .rwp, fld 5 1 .rwp, fld 6 1 .rwp, fld 7 1 .rwp, fld 8 1 .rwp, fld 9 1 .rwp]⟩,
  ⟨0x44, 1, 4, .v, 0x0, [fld 0 32 .ro]⟩,
  ⟨0x48, 1, 4, .v, 0x0, [fld 0 32 .ro]⟩,
  ⟨0x4c, 1, 4, .v, 0x0, [fld 0 32 .ro]⟩,
  ⟨0x50, 1, 4, .v, 0x0, [fld 0 32 .ro]⟩,
  ⟨0x54, 1, 4, .v, 0x0, [fld 0 32 .ro]⟩,
  ⟨0x58, 1, 4, .v, 0x0, [fld 0 32 .ro]⟩,
  ⟨0x5c, 1, 4, .v, 0x0, [fld 0 32 .ro]⟩,
  ⟨0x60, 1, 4, .v, 0x0, [fld 0 32 .ro]⟩,
  ⟨0x64, 1, 4, .v, 0x0, [fld 0 32 .ro]⟩,
  ⟨0x68, 1, 4, .v, 0x0, [fld 0 32 .ro]⟩,
  ⟨0x6c, 1, 4, .v, 0x0, [fld 0 32 .ro]⟩,
  ⟨0x70, 1, 4, .n, 0x0, [fld 0 32 .ro]⟩,
  ⟨0x74, 1, 4, .n, 0x0, [fld 0 32 .ro]⟩,
  ⟨0x78, 1, 4, .n, 0x578, [fld 0 32 .ro]⟩,
  ⟨0x7c, 1, 4, .n, 0xaf0, [fld 0 32 .ro]⟩,
  ⟨0x80, 1, 4, .n, 0x0, [fld 0 32 .ro]⟩,
  ⟨0x84, 1, 4, .p, 0x7a120, [fldL 0 32 .rwp (50000) 1500000]⟩,
  ⟨0x88, 1, 4, .p, 0x493e0, [fldL 0 32 .rwp (50000) 1000000]⟩,
  ⟨0x8c, 1, 4, .p, 0xf4240, [fldL 0 32 .rwp (200000) 5000000]⟩,
  ⟨0x90, 1, 4, .p, 0x989680, [fldL 0 32 .rwp (1000000) 100000000]⟩,
  ⟨0x94, 1, 4, .p, 0x17d7840, [fldL 0 32 .rwp (5000000) 50000000]⟩]

/-- Registers of the DOOR page (Table 9.7), part 2. -/
def doorRegs1 : List RegSpec := [
  ⟨0x98, 1, 4, .p, 0x7530, [fldL 0 32 .rwp (5000) 100000]⟩,
  ⟨0x9c, 1, 4, .p, 0x4e20, [fldL 0 32 .rwp (5000) 100000]⟩,
  ⟨0xa0, 1, 4, .p, 0x5dc, [fldL 0 32 .rwp (300) 1500]⟩,
  ⟨0xa4, 1, 4, .p, 0x2710, [fldL 0 32 .rwp (1000) 10000]⟩,
  ⟨0xa8, 1, 4, .p, 0xfa0, [fldL 0 32 .rwp (500) 4000]⟩,
  ⟨0xac, 1, 4, .p, 0x4e20, [fldL 0 32 .rwp (5000) 120000]⟩,
  ⟨0xb0, 1, 4, .p, 0x1f4, [fldL 0 32 .rwp (0) 5000]⟩,
  ⟨0xb4, 1, 4, .p, 0x30d40, [fldL 0 32 .rwp (10000) 1000000]⟩,
  ⟨0xb8, 1, 4, .p, 0x199a, [fldL 0 32 .rwp (1) 16777215]⟩,
  ⟨0xbc, 1, 4, .p, 0x10000, [fld 0 32 .rwp]⟩,
  ⟨0xc0, 1, 4, .p, 0x3e80000, [fldL 0 32 .rwp (6553600) 655360000]⟩,
  ⟨0xc4, 1, 4, .p, 0x3e8, [fldL 0 32 .rwp (100) 8000]⟩,
  ⟨0xc8, 1, 4, .p, 0x1f40, [fldL 0 32 .rwp (500) 20000]⟩,
  ⟨0xcc, 1, 4, .p, 0xc3500, [fldL 0 32 .rwp (100000) 800000]⟩,
  ⟨0xd0, 1, 4, .p, 0x249f0, [fldL 0 32 .rwp (0) 350000]⟩,
  ⟨0xd4, 1, 4, .p, 0x0, [fldL 0 32 .rwp (0) 350000]⟩,
  ⟨0xd8, 1, 4, .p, 0x0, [fldL 0 32 .rwp (0) 350000]⟩,
  ⟨0xdc, 1, 4, .p, 0x0, [fldL 0 32 .rwp (0) 350000]⟩,
  ⟨0xe0, 1, 4, .p, 0x10000, [fldL 0 32 .rwp (0) 262144]⟩,
  ⟨0xe4, 1, 4, .p, 0x0, [fldL 0 32 .rwp (0) 262144]⟩,
  ⟨0xe8, 1, 4, .p, 0x0, [fldL 0 32 .rwp (0) 262144]⟩,
  ⟨0xec, 1, 4, .p, 0x0, [fldL 0 32 .rwp (0) 262144]⟩,
  ⟨0xf0, 1, 4, .p, 0x7d0, [fldL 0 32 .rwp (200) 10000]⟩,
  ⟨0xf4, 1, 4, .p, 0x3, [fldL 0 32 .rwp (0) 7]⟩]

/-- Registers of the DOOR page (Table 9.7), part 3. -/
def doorRegs2 : List RegSpec := [
  ⟨0xf8, 1, 4, .a, 0x0, [fld 0 32 .ro]⟩,
  ⟨0xfc, 1, 4, .a, 0x0, [fld 0 32 .ro]⟩,
  ⟨0x100, 1, 4, .v, 0x0, [fld 0 1 .wo, fld 1 1 .wo, fld 2 1 .wo, fld 3 1 .wo, fld 4 1 .wo, fld 5 1 .wo, fld 6 1 .wo]⟩,
  ⟨0x104, 1, 4, .v, 0x0, [fld 0 32 .ro]⟩]

/-- The registers of the DOOR page. -/
def doorRegs : List RegSpec := doorRegs0 ++ doorRegs1 ++ doorRegs2

/-- Registers of the SAFE page (Table 10.9), part 1. -/
def safeRegs0 : List RegSpec := [
  ⟨0x8, 1, 4, .v, 0x0, [fld 0 32 .ro]⟩,
  ⟨0xc, 1, 4, .v, 0x0, [fld 0 32 .ro]⟩,
  ⟨0x40, 1, 4, .v, 0x0, [fld 0 32 .ro]⟩,
  ⟨0x44, 1, 4, .v, 0x0, [fld 0 32 .ro]⟩,
  ⟨0x48, 1, 4, .v, 0x0, [fld 0 32 .ro]⟩,
  ⟨0x4c, 1, 4, .v, 0x0, [fld 0 32 .ro]⟩,
  ⟨0x50, 1, 4, .v, 0x0, [fld 0 32 .ro]⟩,
  ⟨0x54, 1, 4, .v, 0x0, [fld 0 32 .ro]⟩,
  ⟨0x58, 1, 4, .v, 0x0, [fld 0 32 .ro]⟩,
  ⟨0x5c, 1, 4, .v, 0x0, [fld 0 32 .ro]⟩,
  ⟨0x60, 1, 4, .v, 0x493e0, [fld 0 32 .ro]⟩,
  ⟨0x64, 1, 4, .v, 0x543a8, [fld 0 32 .ro]⟩,
  ⟨0x68, 1, 4, .v, 0x0, [fld 0 32 .ro]⟩,
  ⟨0x6c, 1, 4, .v, 0x0, [fld 0 32 .ro]⟩,
  ⟨0x70, 1, 4, .n, 0x0, [fld 0 32 .ro]⟩,
  ⟨0x74, 1, 4, .n, 0x0, [fld 0 32 .ro]⟩,
  ⟨0x78, 1, 4, .n, 0x0, [fld 0 32 .ro]⟩,
  ⟨0x7c, 1, 4, .n, 0x0, [fld 0 32 .ro]⟩,
  ⟨0x80, 1, 4, .a, 0x0, [fld 0 32 .ro]⟩,
  ⟨0x84, 1, 4, .v, 0x0, [fld 0 32 .ro]⟩,
  ⟨0x88, 1, 4, .v, 0x0, [fld 0 32 .ro]⟩,
  ⟨0x8c, 1, 4, .v, 0x0, [fld 0 1 .wo]⟩,
  ⟨0x100, 1, 4, .p, 0x7, [fld 0 1 .rwp, fld 1 1 .rwp, fld 2 1 .rwp, fldL 3 2 .rwp (0) 2, fld 5 1 .rwp, fld 6 1 .rwp]⟩,
  ⟨0x104, 1, 4, .p, 0x1, [fldL 0 4 .rwp (0) 6, fldL 4 4 .rwp (0) 6, fldL 8 4 .rwp (0) 6, fldL 12 4 .rwp (0) 6, fldL 16 4 .rwp (0) 6, fldL 20 4 .rwp (0) 6, fldL 24 4 .rwp (0) 6, fldL 28 4 .rwp (0) 6]⟩]

/-- Registers of the SAFE page (Table 10.9), part 2. -/
def safeRegs1 : List RegSpec := [
  ⟨0x108, 1, 4, .p, 0xf4240, [fldL 0 32 .rwp (100000) 20000000]⟩,
  ⟨0x10c, 1, 4, .p, 0x7d, [fldL 0 32 .rwp (120) 140]⟩,
  ⟨0x110, 1, 4, .p, 0x4e20, [fldL 0 32 .rwp (5000) 50000]⟩,
  ⟨0x114, 1, 4, .p, 0xc3500, [fldL 0 32 .rwp (100000) 800000]⟩,
  ⟨0x118, 1, 4, .p, 0x493e0, [fldL 0 32 .rwp (50000) 300000]⟩,
  ⟨0x11c, 1, 4, .p, 0x99cf0, [fldL 0 32 .rwp (100000) 630000]⟩,
  ⟨0x120, 1, 4, .p, 0x493e0, [fldL 0 32 .rwp (100000) 300000]⟩,
  ⟨0x124, 1, 4, .p, 0xc350, [fldL 0 32 .rwp (0) 500000]⟩,
  ⟨0x128, 1, 4, .p, 0xf4240, [fldL 0 32 .rwp (100000) 3000000]⟩,
  ⟨0x12c, 1, 4, .p, 0x3d090, [fldL 0 32 .rwp (0) 1000000]⟩,
  ⟨0x130, 1, 4, .p, 0x493e0, [fldL 0 32 .rwp (100000) 2000000]⟩,
  ⟨0x134, 1, 4, .p, 0x1f4, [fldL 0 32 .rwp (50) 2000]⟩,
  ⟨0x138, 1, 4, .p, 0x2710, [fldL 0 32 .rwp (2000) 50000]⟩,
  ⟨0x13c, 1, 4, .p, 0x14, [fldL 0 32 .rwp (5) 100]⟩,
  ⟨0x140, 1, 4, .p, 0xc350, [fldL 0 32 .rwp (10000) 200000]⟩,
  ⟨0x144, 1, 4, .p, 0x186a0, [fldL 0 32 .rwp (20000) 500000]⟩,
  ⟨0x148, 1, 4, .p, 0x10000, [fld 0 32 .rwp]⟩,
  ⟨0x14c, 1, 4, .p, 0x10000, [fld 0 32 .rwp]⟩,
  ⟨0x150, 1, 4, .p, 0x0, [fld 0 32 .rwp]⟩,
  ⟨0x154, 1, 4, .p, 0x0, [fld 0 6 .rwp, fld 8 6 .rwp, fld 16 6 .rwp, fld 24 6 .rwp, fld 6 2 .rwp, fld 14 2 .rwp, fld 22 2 .rwp, fld 30 2 .rwp]⟩]

/-- The registers of the SAFE page. -/
def safeRegs : List RegSpec := safeRegs0 ++ safeRegs1

/-- Registers of the LSF page (Table 11.6), part 1. -/
def lsfRegs0 : List RegSpec := [
  ⟨0x8, 1, 4, .v, 0x0, [fld 0 32 .ro]⟩,
  ⟨0xc, 1, 4, .v, 0x0, [fld 0 32 .ro]⟩,
  ⟨0x40, 1, 4, .p, 0x0, [fld 0 12 .rwp]⟩,
  ⟨0x44, 1, 4, .p, 0x3, [fldL 0 32 .rwp (1) 15]⟩,
  ⟨0x48, 1, 4, .v, 0x0, [fld 0 32 .ro]⟩,
  ⟨0x4c, 1, 4, .v, 0x0, [fld 0 32 .ro]⟩,
  ⟨0x50, 1, 4, .v, 0x0, [fld 0 32 .wo]⟩,
  ⟨0x54, 1, 4, .v, 0x0, [fld 0 1 .wo]⟩,
  ⟨0x60, 4, 4, .p, 0x0, [fld 0 9 .rwp]⟩,
  ⟨0x200, 32, 32, .p, 0x0, [fld 0 1 .rwp, fld 1 1 .rwp, fld 2 2 .rwp, fld 4 1 .rwp, fld 8 4 .rwp, fld 16 12 .rwp]⟩,
  ⟨0x204, 32, 32, .p, 0x0, [fld 0 32 .rwp]⟩,
  ⟨0x208, 32, 32, .p, 0xc080032, [fld 0 16 .rwp, fldL 16 8 .rwp (1) 255, fldL 24 6 .rwp (1) 48]⟩,
  ⟨0x20c, 32, 32, .p, 0x0, [fldL 0 32 .rwp (0) 3]⟩,
  ⟨0x210, 32, 32, .v, 0x0, [fld 0 32 .ro]⟩,
  ⟨0x214, 32, 32, .v, 0x0, [fld 0 32 .ro]⟩,
  ⟨0x218, 32, 32, .v, 0x0, [fld 0 32 .ro]⟩,
  ⟨0x800, 32, 64, .v, 0x0, [fld 0 32 .ro]⟩,
  ⟨0x804, 32, 64, .v, 0x0, [fld 0 32 .ro]⟩,
  ⟨0x808, 32, 64, .v, 0x0, [fld 0 32 .ro]⟩,
  ⟨0x80c, 32, 64, .v, 0x0, [fld 0 32 .ro]⟩,
  ⟨0x810, 32, 64, .v, 0x0, [fld 0 32 .ro]⟩,
  ⟨0x814, 32, 64, .v, 0x0, [fld 0 32 .ro]⟩,
  ⟨0x818, 32, 64, .v, 0x0, [fld 0 32 .ro]⟩,
  ⟨0x81c, 32, 64, .v, 0x0, [fld 0 32 .ro]⟩]

/-- Registers of the LSF page (Table 11.6), part 2. -/
def lsfRegs1 : List RegSpec := [
  ⟨0x820, 32, 64, .v, 0x0, [fld 0 32 .ro]⟩,
  ⟨0x824, 32, 64, .v, 0x0, [fld 0 32 .ro]⟩,
  ⟨0x828, 32, 64, .v, 0x0, [fld 0 32 .ro]⟩,
  ⟨0x82c, 32, 64, .v, 0x0, [fld 0 32 .ro]⟩,
  ⟨0x830, 32, 64, .v, 0x0, [fld 0 32 .ro]⟩]

/-- The registers of the LSF page. -/
def lsfRegs : List RegSpec := lsfRegs0 ++ lsfRegs1

/-- Registers of the CAN page (Table 12.5), part 1. -/
def canRegs0 : List RegSpec := [
  ⟨0x8, 1, 4, .v, 0x0, [fld 0 1 .ro, fld 1 1 .rw]⟩,
  ⟨0xc, 1, 4, .v, 0x0, [fld 0 32 .ro]⟩,
  ⟨0x40, 1, 4, .p, 0x31, [fld 0 1 .rwp, fldL 1 2 .rwp (0) 2, fld 3 1 .rwp, fld 4 1 .rwp, fld 5 1 .rwp]⟩,
  ⟨0x44, 1, 4, .p, 0xf1e7c0, [fld 0 5 .rwp, fld 5 8 .rwp, fld 13 7 .rwp, fld 20 7 .rwp]⟩,
  ⟨0x48, 1, 4, .p, 0xcdc0, [fld 0 5 .rwp, fld 5 5 .rwp, fld 10 4 .rwp, fld 14 4 .rwp, fld 18 8 .rwp]⟩,
  ⟨0x4c, 1, 4, .v, 0x0, [fld 0 32 .ro]⟩,
  ⟨0x50, 1, 4, .v, 0x0, [fld 0 32 .ro]⟩,
  ⟨0x54, 1, 4, .v, 0x0, [fld 0 32 .wo]⟩,
  ⟨0x58, 1, 4, .v, 0x0, [fld 0 32 .wo]⟩,
  ⟨0x5c, 1, 4, .v, 0x0, [fld 0 32 .ro]⟩,
  ⟨0x60, 1, 4, .v, 0x0, [fld 0 32 .w1c]⟩,
  ⟨0x64, 1, 4, .v, 0x0, [fld 0 32 .w1c]⟩,
  ⟨0x70, 4, 4, .v, 0x0, [fld 0 32 .w1c]⟩,
  ⟨0x80, 4, 4, .v, 0x0, [fld 0 32 .w1c]⟩,
  ⟨0x90, 1, 4, .p, 0x0, [fld 0 29 .rwp, fld 29 1 .rwp]⟩,
  ⟨0x94, 1, 4, .p, 0x1fffffff, [fld 0 32 .rwp]⟩,
  ⟨0x98, 1, 4, .p, 0x8, [fldL 0 4 .rwp (0) 8]⟩,
  ⟨0x9c, 2, 4, .p, 0x0, [fld 0 32 .rwp]⟩,
  ⟨0xa4, 2, 4, .p, 0x0, [fld 0 32 .rwp]⟩,
  ⟨0xb0, 1, 4, .v, 0x0, [fld 0 32 .ro]⟩,
  ⟨0xb4, 1, 4, .v, 0x0, [fld 0 32 .ro]⟩,
  ⟨0xb8, 1, 4, .v, 0x0, [fld 0 1 .wo]⟩]

/-- The registers of the CAN page. -/
def canRegs : List RegSpec := canRegs0

/-- Registers of the ETH page (Table 14.11), part 1. -/
def ethRegs0 : List RegSpec := [
  ⟨0xc, 1, 4, .v, 0x0, [fld 0 32 .ro]⟩,
  ⟨0x40, 1, 4, .p, 0x3, [fld 0 1 .rwp, fld 1 1 .rwp, fld 2 1 .rwp]⟩,
  ⟨0x44, 1, 4, .n, 0x0, [fld 0 32 .ro]⟩,
  ⟨0x48, 1, 4, .n, 0x0, [fld 0 32 .ro]⟩,
  ⟨0x4c, 1, 4, .p, 0x0, [fld 0 32 .rwp]⟩,
  ⟨0x50, 1, 4, .v, 0x0, [fld 0 32 .ro]⟩,
  ⟨0x54, 1, 4, .v, 0x0, [fld 0 32 .ro]⟩,
  ⟨0x58, 1, 4, .v, 0x0, [fld 0 1 .wo, fld 1 1 .wo]⟩]

/-- The registers of the ETH page. -/
def ethRegs : List RegSpec := ethRegs0

/-- Registers of the FIO page (Table 13.5), part 1. -/
def fioRegs0 : List RegSpec := [
  ⟨0x8, 1, 4, .v, 0x0, [fld 0 32 .ro]⟩,
  ⟨0xc, 1, 4, .v, 0x0, [fld 0 32 .ro]⟩,
  ⟨0x40, 1, 4, .p, 0x1, [fld 0 1 .rwp]⟩,
  ⟨0x44, 1, 4, .p, 0x3e8, [fldL 0 32 .rwp (1) 65535]⟩,
  ⟨0x48, 1, 4, .v, 0x0, [fld 0 32 .ro]⟩,
  ⟨0x4c, 1, 4, .v, 0x0, [fld 0 32 .ro]⟩,
  ⟨0x50, 1, 4, .v, 0x0, [fld 0 1 .wo]⟩]

/-- The registers of the FIO page. -/
def fioRegs : List RegSpec := fioRegs0

/-- Registers of the FIOG page (Table 13.7), part 1. -/
def fiogRegs0 : List RegSpec := [
  ⟨0xc, 1, 4, .v, 0x0, [fld 0 32 .ro]⟩,
  ⟨0x40, 1, 4, .p, 0x1903, [fldL 0 4 .rwp (0) 8, fld 4 1 .rwp, fldL 8 8 .rwp (1) 255]⟩,
  ⟨0x44, 1, 4, .v, 0x0, [fld 0 32 .ro]⟩,
  ⟨0x48, 1, 4, .v, 0x0, [fld 0 32 .ro]⟩,
  ⟨0x4c, 1, 4, .v, 0x0, [fld 0 32 .ro]⟩,
  ⟨0x50, 1, 4, .v, 0x0, [fld 0 32 .ro]⟩,
  ⟨0x54, 1, 4, .v, 0x0, [fld 0 32 .ro]⟩,
  ⟨0x58, 1, 4, .v, 0x0, [fld 0 32 .wo]⟩,
  ⟨0x5c, 1, 4, .v, 0x0, [fld 0 32 .wo]⟩,
  ⟨0x60, 1, 4, .v, 0x0, [fld 0 32 .rw]⟩,
  ⟨0x64, 1, 4, .v, 0x0, [fld 0 32 .rw]⟩,
  ⟨0x68, 1, 4, .v, 0x0, [fld 0 32 .w1c]⟩,
  ⟨0x6c, 1, 4, .v, 0x0, [fld 0 32 .ro]⟩,
  ⟨0x70, 1, 4, .v, 0x0, [fld 0 32 .ro]⟩,
  ⟨0x74, 1, 4, .v, 0x0, [fld 0 32 .ro]⟩,
  ⟨0x78, 1, 4, .v, 0x0, [fld 0 32 .ro]⟩,
  ⟨0x7c, 1, 4, .v, 0x0, [fld 0 32 .ro]⟩,
  ⟨0x80, 1, 4, .v, 0x0, [fld 0 32 .ro]⟩,
  ⟨0x84, 1, 4, .v, 0x0, [fld 0 32 .wo]⟩,
  ⟨0x88, 1, 4, .v, 0x0, [fld 0 1 .wo]⟩,
  ⟨0x100, 32, 4, .p, 0x0, [fldL 0 2 .rwp (0) 2, fld 2 2 .rwp, fldL 4 2 .rwp (0) 2, fld 6 1 .rwp, fldL 8 2 .rwp (0) 2]⟩]

/-- The registers of the FIOG page. -/
def fiogRegs : List RegSpec := fiogRegs0

/-- Registers of the PART page (Table 15.7), part 1. -/
def partRegs0 : List RegSpec := [
  ⟨0x8, 1, 4, .v, 0x0, [fld 0 32 .ro]⟩,
  ⟨0xc, 1, 4, .v, 0x0, [fld 0 32 .ro]⟩,
  ⟨0x40, 1, 4, .p, 0x1, [fld 0 1 .rwp]⟩,
  ⟨0x44, 1, 4, .p, 0x15180, [fldL 0 32 .rwp (3600) 604800]⟩,
  ⟨0x48, 1, 4, .p, 0xa, [fldL 0 32 .rwp (5) 600]⟩,
  ⟨0x4c, 1, 4, .v, 0x0, [fld 0 32 .ro]⟩,
  ⟨0x50, 1, 4, .v, 0x0, [fld 0 32 .ro]⟩,
  ⟨0x54, 1, 4, .v, 0x0, [fld 0 32 .ro]⟩,
  ⟨0x58, 1, 4, .v, 0xffffffff, [fld 0 32 .ro]⟩,
  ⟨0x5c, 1, 4, .v, 0x0, [fld 0 32 .ro]⟩,
  ⟨0x60, 1, 4, .v, 0x0, [fld 0 32 .ro]⟩,
  ⟨0x64, 1, 4, .v, 0x0, [fld 0 32 .ro]⟩,
  ⟨0x68, 1, 4, .a, 0x15180, [fld 0 32 .ro]⟩,
  ⟨0x6c, 1, 4, .v, 0x0, [fld 0 1 .wo, fld 1 1 .wo, fld 2 1 .wo]⟩]

/-- The registers of the PART page. -/
def partRegs : List RegSpec := partRegs0

/-- Registers of the REC page (Table 16.4), part 1. -/
def recRegs0 : List RegSpec := [
  ⟨0x8, 1, 4, .v, 0x0, [fld 0 32 .ro]⟩,
  ⟨0xc, 1, 4, .v, 0x0, [fld 0 32 .ro]⟩,
  ⟨0x40, 1, 4, .p, 0x20, [fldL 0 6 .rwp (8) 63]⟩,
  ⟨0x44, 1, 4, .p, 0x3e8, [fldL 0 32 .rwp (10) 60000]⟩,
  ⟨0x48, 2, 4, .p, 0x0, [fld 0 32 .rwp]⟩,
  ⟨0x50, 1, 4, .n, 0x0, [fld 0 32 .ro]⟩,
  ⟨0x54, 1, 4, .n, 0x0, [fld 0 32 .ro]⟩,
  ⟨0x58, 1, 4, .n, 0x0, [fld 0 32 .ro]⟩,
  ⟨0x5c, 1, 4, .n, 0x0, [fld 0 32 .ro]⟩,
  ⟨0x60, 2, 4, .v, 0x0, [fld 0 32 .rw]⟩,
  ⟨0x68, 2, 4, .v, 0x0, [fld 0 32 .ro]⟩,
  ⟨0x70, 1, 4, .n, 0x0, [fld 0 32 .ro]⟩,
  ⟨0x74, 1, 4, .v, 0x0, [fld 0 32 .ro]⟩,
  ⟨0x78, 1, 4, .v, 0x0, [fld 0 32 .rw]⟩,
  ⟨0x7c, 1, 4, .v, 0x0, [fld 0 32 .ro]⟩,
  ⟨0x80, 1, 4, .v, 0x0, [fld 0 1 .wo, fld 1 1 .wo, fld 2 1 .wo, fld 3 1 .wo, fld 8 6 .wo]⟩,
  ⟨0x100, 64, 4, .p, 0x0, [fld 0 8 .rwp, fld 8 9 .rwp, fldL 17 6 .rwp (0) 48, fld 23 1 .rwp, fld 31 1 .rwp]⟩,
  ⟨0x200, 64, 4, .v, 0x0, [fld 0 32 .ro]⟩,
  ⟨0x800, 512, 4, .p, 0x0, [fld 0 24 .rwp]⟩]

/-- The registers of the REC page. -/
def recRegs : List RegSpec := recRegs0

/-- Registers of the KEY page (Table 17.11), part 1. -/
def keyRegs0 : List RegSpec := [
  ⟨0x8, 1, 4, .v, 0x0, [fld 0 32 .ro]⟩,
  ⟨0xc, 1, 4, .v, 0x0, [fld 0 32 .ro]⟩,
  ⟨0x40, 1, 4, .v, 0x0, [fld 0 8 .wo, fld 8 6 .wo, fld 16 4 .wo, fld 20 1 .wo, fld 21 1 .wo, fld 24 8 .wo]⟩,
  ⟨0x44, 1, 4, .v, 0x0, [fldL 0 16 .rw (0) 65534, fld 16 4 .rw, fldL 20 2 .rw (0) 2, fld 22 4 .rw, fld 26 3 .rw]⟩,
  ⟨0x48, 1, 4, .v, 0x0, [fld 0 32 .ro]⟩,
  ⟨0x4c, 1, 4, .v, 0x0, [fld 0 2 .rw]⟩,
  ⟨0x50, 4, 4, .v, 0x0, [fld 0 32 .ro]⟩,
  ⟨0x60, 1, 4, .n, 0x0, [fld 0 32 .ro]⟩,
  ⟨0x64, 1, 4, .p, 0x64, [fldL 0 32 .rwp (10) 1000]⟩,
  ⟨0x68, 1, 4, .n, 0x0, [fld 0 32 .ro]⟩,
  ⟨0x6c, 2, 4, .n, 0x0, [fld 0 32 .ro]⟩,
  ⟨0x74, 1, 4, .v, 0x0, [fld 0 32 .ro]⟩,
  ⟨0x100, 64, 4, .v, 0x0, [fld 0 32 .ro]⟩,
  ⟨0x800, 512, 4, .v, 0x0, [fld 0 32 .rw]⟩]

/-- The registers of the KEY page. -/
def keyRegs : List RegSpec := keyRegs0

/-- Registers of the TAMP page (Table 17.13), part 1. -/
def tampRegs0 : List RegSpec := [
  ⟨0xc, 1, 4, .a, 0x0, [fld 0 32 .ro]⟩,
  ⟨0x40, 1, 4, .p, 0xf, [fld 0 4 .rwp]⟩,
  ⟨0x44, 1, 4, .n, 0x0, [fld 0 32 .ro]⟩,
  ⟨0x48, 1, 4, .n, 0x0, [fld 0 32 .ro]⟩,
  ⟨0x4c, 1, 4, .n, 0x0, [fld 0 32 .ro]⟩,
  ⟨0x50, 1, 4, .v, 0x0, [fld 0 1 .wo]⟩]

/-- The registers of the TAMP page. -/
def tampRegs : List RegSpec := tampRegs0

/-- Registers of the LWB page (Table 3.8), part 1. -/
def lwbRegs0 : List RegSpec := [
  ⟨0x8, 1, 4, .p, 0x1, [fld 0 1 .rwp]⟩,
  ⟨0xc, 1, 4, .v, 0x20, [fld 0 32 .ro]⟩,
  ⟨0x40, 1, 4, .v, 0x0, [fld 0 32 .ro]⟩,
  ⟨0x44, 1, 4, .v, 0x0, [fld 0 32 .ro]⟩,
  ⟨0x48, 1, 4, .v, 0x0, [fld 0 32 .ro]⟩,
  ⟨0x4c, 1, 4, .n, 0x0, [fld 0 32 .ro]⟩,
  ⟨0x50, 1, 4, .n, 0x0, [fld 0 32 .ro]⟩,
  ⟨0x54, 1, 4, .p, 0x3e8, [fldL 0 32 .rwp (100) 10000]⟩,
  ⟨0x58, 1, 4, .p, 0x32, [fldL 0 32 .rwp (1) 1000]⟩,
  ⟨0x5c, 1, 4, .p, 0x0, [fld 0 32 .rwp]⟩,
  ⟨0x60, 1, 4, .v, 0x0, [fld 0 1 .wo, fld 1 1 .wo]⟩]

/-- The registers of the LWB page. -/
def lwbRegs : List RegSpec := lwbRegs0

/-- The number of interrupt sources of each page (the IRQ_RAW rows of the field tables). -/
def irqCount : Nat → Nat
  | 0 => 5
  | 1 => 4
  | 2 => 4
  | 3 => 3
  | 4 => 5
  | 8 => 12
  | 9 => 9
  | 10 => 6
  | 11 => 10
  | 12 => 7
  | 13 => 17
  | 14 => 17
  | 16 => 10
  | 17 => 6
  | 20 => 9
  | 21 => 9
  | 22 => 9
  | 23 => 9
  | 24 => 3
  | 25 => 3
  | 26 => 3
  | 28 => 2
  | 29 => 9
  | 30 => 9
  | 31 => 9
  | 32 => 9
  | 33 => 9
  | 34 => 9
  | 35 => 9
  | 36 => 9
  | 40 => 9
  | 44 => 6
  | 48 => 5
  | 49 => 3
  | 52 => 4
  | _ => 0

/-- The block registers of each assigned page (Table 2.2); none for a reserved page. -/
def pageRegs : Nat → Option (List RegSpec)
  | 0 => some sysRegs
  | 1 => some clkRegs
  | 2 => some pwrRegs
  | 3 => some xbarRegs
  | 4 => some hostRegs
  | 8 => some posRegs
  | 9 => some motRegs
  | 10 => some drvRegs
  | 11 => some schRegs
  | 12 => some bidRegs
  | 13 => some doorRegs
  | 14 => some doorRegs
  | 16 => some safeRegs
  | 17 => some lsfRegs
  | 20 => some canRegs
  | 21 => some canRegs
  | 22 => some canRegs
  | 23 => some canRegs
  | 24 => some ethRegs
  | 25 => some ethRegs
  | 26 => some ethRegs
  | 28 => some fioRegs
  | 29 => some fiogRegs
  | 30 => some fiogRegs
  | 31 => some fiogRegs
  | 32 => some fiogRegs
  | 33 => some fiogRegs
  | 34 => some fiogRegs
  | 35 => some fiogRegs
  | 36 => some fiogRegs
  | 40 => some partRegs
  | 44 => some recRegs
  | 48 => some keyRegs
  | 49 => some tampRegs
  | 52 => some lwbRegs
  | _ => none

end Sys2Proof.Machine
end

