-- ==== Sys2Proof/Machine/Addr.lean ====
section
/-! DEFINITION. The addresses of the registers by name (R21, Table 2.2 and the page tables): `<block>.<REGISTER>`.
Blocks with several pages (door, can, eth, fiog) take the page number. -/

namespace Sys2Proof.Machine

/-- POS_CTRL. -/
@[reducible] def posCtrl : Nat := 0x8008
/-- POS_STATUS. -/
@[reducible] def posStatus : Nat := 0x800c
/-- POS_EST_POS. -/
@[reducible] def posEstPos : Nat := 0x8040
/-- POS_EST_VEL. -/
@[reducible] def posEstVel : Nat := 0x8044
/-- POS_EST_ACC. -/
@[reducible] def posEstAcc : Nat := 0x8048
/-- POS_EST_SLIP. -/
@[reducible] def posEstSlip : Nat := 0x804c
/-- POS_EST_STRETCH. -/
@[reducible] def posEstStretch : Nat := 0x8050
/-- POS_EST_BIAS. -/
@[reducible] def posEstBias : Nat := 0x8054
/-- POS_EST_KAPPA. -/
@[reducible] def posEstKappa : Nat := 0x8058
/-- POS_EST_SEQ. -/
@[reducible] def posEstSeq : Nat := 0x805c
/-- POS_SLIP_RATE. -/
@[reducible] def posSlipRate : Nat := 0x8060
/-- POS_SRC. -/
@[reducible] def posSrc : Nat := 0x8064
/-- POS_SR_RAW. -/
@[reducible] def posSrRaw : Nat := 0x8068
/-- POS_SR_INFO. -/
@[reducible] def posSrInfo : Nat := 0x806c
/-- POS_INNOV_SR. -/
@[reducible] def posInnovSr : Nat := 0x8070
/-- POS_INNOV_DZ. -/
@[reducible] def posInnovDz : Nat := 0x8074
/-- POS_LOAD_KG. -/
@[reducible] def posLoadKg : Nat := 0x8078
/-- POS_ARC. -/
@[reducible] def posArc : Nat := 0x807c
/-- POS_ENC1_SCALE. -/
@[reducible] def posEnc1Scale : Nat := 0x8080
/-- POS_ENC2_SCALE. -/
@[reducible] def posEnc2Scale : Nat := 0x8084
/-- POS_ENC_CFG. -/
@[reducible] def posEncCfg : Nat := 0x8088
/-- POS_SR_CFG. -/
@[reducible] def posSrCfg : Nat := 0x808c
/-- POS_SR_OFS. -/
@[reducible] def posSrOfs : Nat := 0x8090
/-- POS_ROPE_TOP. -/
@[reducible] def posRopeTop : Nat := 0x8094
/-- POS_DZA_OFS. -/
@[reducible] def posDzaOfs : Nat := 0x8098
/-- POS_DZB_OFS. -/
@[reducible] def posDzbOfs : Nat := 0x809c
/-- POS_DZ_TOL. -/
@[reducible] def posDzTol : Nat := 0x80a0
/-- POS_DZ_CAPTURE. -/
@[reducible] def posDzCapture : Nat := 0x80a4
/-- POS_SR_ACCEPT. -/
@[reducible] def posSrAccept : Nat := 0x80a8
/-- POS_ACC_CFG. -/
@[reducible] def posAccCfg : Nat := 0x80ac
/-- POS_ACC_G. -/
@[reducible] def posAccG : Nat := 0x80b0
/-- POS_BAND_V1. -/
@[reducible] def posBandV1 : Nat := 0x80b4
/-- POS_BAND_V2. -/
@[reducible] def posBandV2 : Nat := 0x80b8
/-- POS_BAND_V3. -/
@[reducible] def posBandV3 : Nat := 0x80bc
/-- POS_TRACT_RATE. -/
@[reducible] def posTractRate : Nat := 0x80c0
/-- POS_TRACT_TIME_MS. -/
@[reducible] def posTractTimeMs : Nat := 0x80c4
/-- POS_TRACT_STEP. -/
@[reducible] def posTractStep : Nat := 0x80c8
/-- POS_ENC_DIFF. -/
@[reducible] def posEncDiff : Nat := 0x80cc
/-- POS_KAPPA_INIT. -/
@[reducible] def posKappaInit : Nat := 0x80d0
/-- POS_KAPPA_LL_MIN. -/
@[reducible] def posKappaLlMin : Nat := 0x80d4
/-- POS_CMD. -/
@[reducible] def posCmd : Nat := 0x80d8
/-- POS_GAIN. -/
@[reducible] def posGain : Nat := 0x8100
/-- LWB_CTRL. -/
@[reducible] def lwbCtrl : Nat := 0x34008
/-- LWB_STATUS. -/
@[reducible] def lwbStatus : Nat := 0x3400c
/-- LWB_RAW. -/
@[reducible] def lwbRaw : Nat := 0x34040
/-- LWB_LOAD_KG. -/
@[reducible] def lwbLoadKg : Nat := 0x34044
/-- LWB_LOAD_PCT. -/
@[reducible] def lwbLoadPct : Nat := 0x34048
/-- LWB_ZERO. -/
@[reducible] def lwbZero : Nat := 0x3404c
/-- LWB_SPAN. -/
@[reducible] def lwbSpan : Nat := 0x34050
/-- LWB_RATED_KG. -/
@[reducible] def lwbRatedKg : Nat := 0x34054
/-- LWB_FILT_MS. -/
@[reducible] def lwbFiltMs : Nat := 0x34058
/-- LWB_CAL_KG. -/
@[reducible] def lwbCalKg : Nat := 0x3405c
/-- LWB_CMD. -/
@[reducible] def lwbCmd : Nat := 0x34060
/-- MOT_CTRL. -/
@[reducible] def motCtrl : Nat := 0x9008
/-- MOT_STATUS. -/
@[reducible] def motStatus : Nat := 0x900c
/-- MOT_TARGET. -/
@[reducible] def motTarget : Nat := 0x9040
/-- MOT_TARGET_POS. -/
@[reducible] def motTargetPos : Nat := 0x9044
/-- MOT_HORIZON. -/
@[reducible] def motHorizon : Nat := 0x9048
/-- MOT_REMAIN. -/
@[reducible] def motRemain : Nat := 0x904c
/-- MOT_SP_POS. -/
@[reducible] def motSpPos : Nat := 0x9050
/-- MOT_SP_VEL. -/
@[reducible] def motSpVel : Nat := 0x9054
/-- MOT_SP_ACC. -/
@[reducible] def motSpAcc : Nat := 0x9058
/-- MOT_SP_JERK. -/
@[reducible] def motSpJerk : Nat := 0x905c
/-- MOT_SP_SEQ. -/
@[reducible] def motSpSeq : Nat := 0x9060
/-- MOT_STOP_POS. -/
@[reducible] def motStopPos : Nat := 0x9064
/-- MOT_T_REMAIN_US. -/
@[reducible] def motTRemainUs : Nat := 0x9068
/-- MOT_FOLLOW_ERR. -/
@[reducible] def motFollowErr : Nat := 0x906c
/-- MOT_VMAX. -/
@[reducible] def motVmax : Nat := 0x9070
/-- MOT_AMAX. -/
@[reducible] def motAmax : Nat := 0x9074
/-- MOT_DMAX. -/
@[reducible] def motDmax : Nat := 0x9078
/-- MOT_JA1. -/
@[reducible] def motJa1 : Nat := 0x907c
/-- MOT_JA2. -/
@[reducible] def motJa2 : Nat := 0x9080
/-- MOT_JD1. -/
@[reducible] def motJd1 : Nat := 0x9084
/-- MOT_JD2. -/
@[reducible] def motJd2 : Nat := 0x9088
/-- MOT_VCAP. -/
@[reducible] def motVcap : Nat := 0x908c
/-- MOT_NEW_VMAX. -/
@[reducible] def motNewVmax : Nat := 0x9090
/-- MOT_NEW_AMAX. -/
@[reducible] def motNewAmax : Nat := 0x9094
/-- MOT_NEW_DMAX. -/
@[reducible] def motNewDmax : Nat := 0x9098
/-- MOT_NEW_JA1. -/
@[reducible] def motNewJa1 : Nat := 0x909c
/-- MOT_NEW_JA2. -/
@[reducible] def motNewJa2 : Nat := 0x90a0
/-- MOT_NEW_JD1. -/
@[reducible] def motNewJd1 : Nat := 0x90a4
/-- MOT_NEW_JD2. -/
@[reducible] def motNewJd2 : Nat := 0x90a8
/-- MOT_CMD. -/
@[reducible] def motCmd : Nat := 0x90ac
/-- MOT_SHAPE. -/
@[reducible] def motShape : Nat := 0x90b0
/-- MOT_FOLLOW_MAX. -/
@[reducible] def motFollowMax : Nat := 0x90b4
/-- MOT_TRUN_D. -/
@[reducible] def motTrunD : Nat := 0x90b8
/-- MOT_TRUN_US. -/
@[reducible] def motTrunUs : Nat := 0x90bc
/-- MOT_P_VMAX. -/
@[reducible] def motPVmax : Nat := 0x90c0
/-- MOT_P_AMAX. -/
@[reducible] def motPAmax : Nat := 0x90c4
/-- MOT_P_DMAX. -/
@[reducible] def motPDmax : Nat := 0x90c8
/-- MOT_P_JA1. -/
@[reducible] def motPJa1 : Nat := 0x90cc
/-- MOT_P_JA2. -/
@[reducible] def motPJa2 : Nat := 0x90d0
/-- MOT_P_JD1. -/
@[reducible] def motPJd1 : Nat := 0x90d4
/-- MOT_P_JD2. -/
@[reducible] def motPJd2 : Nat := 0x90d8
/-- MOT_RT_CMD. -/
@[reducible] def motRtCmd : Nat := 0x9100
/-- MOT_RT_STATUS. -/
@[reducible] def motRtStatus : Nat := 0x9104
/-- MOT_RT_EVENT. -/
@[reducible] def motRtEvent : Nat := 0x9108
/-- MOT_RT_CFG. -/
@[reducible] def motRtCfg : Nat := 0x910c
/-- MOT_HOME_CH. -/
@[reducible] def motHomeCh : Nat := 0x9110
/-- MOT_HOME_VEL. -/
@[reducible] def motHomeVel : Nat := 0x9114
/-- MOT_HOME_MAXDIST. -/
@[reducible] def motHomeMaxdist : Nat := 0x9118
/-- MOT_HOME_BACKOFF. -/
@[reducible] def motHomeBackoff : Nat := 0x911c
/-- MOT_HOME_CHAT. -/
@[reducible] def motHomeChat : Nat := 0x9120
/-- MOT_RECOV_VEL. -/
@[reducible] def motRecovVel : Nat := 0x9124
/-- MOT_LEVEL_ACC. -/
@[reducible] def motLevelAcc : Nat := 0x9128
/-- MOT_RELEV_TRIG. -/
@[reducible] def motRelevTrig : Nat := 0x912c
/-- MOT_RELEV_MS. -/
@[reducible] def motRelevMs : Nat := 0x9130
/-- MOT_RELEV_VEL. -/
@[reducible] def motRelevVel : Nat := 0x9134
/-- MOT_RELEV_MAX. -/
@[reducible] def motRelevMax : Nat := 0x9138
/-- DRV_CTRL. -/
@[reducible] def drvCtrl : Nat := 0xa008
/-- DRV_STATUS. -/
@[reducible] def drvStatus : Nat := 0xa00c
/-- DRV_CFG. -/
@[reducible] def drvCfg : Nat := 0xa040
/-- DRV_LINK. -/
@[reducible] def drvLink : Nat := 0xa044
/-- DRV_ACT_POS. -/
@[reducible] def drvActPos : Nat := 0xa048
/-- DRV_ACT_TQ. -/
@[reducible] def drvActTq : Nat := 0xa04c
/-- DRV_REMOTE_ST. -/
@[reducible] def drvRemoteSt : Nat := 0xa050
/-- DRV_PRELOAD. -/
@[reducible] def drvPreload : Nat := 0xa054
/-- DRV_BAL_KG. -/
@[reducible] def drvBalKg : Nat := 0xa058
/-- DRV_TQ_PER_KG. -/
@[reducible] def drvTqPerKg : Nat := 0xa05c
/-- DRV_READY_TO_MS. -/
@[reducible] def drvReadyToMs : Nat := 0xa060
/-- DRV_PRELOAD_MS. -/
@[reducible] def drvPreloadMs : Nat := 0xa064
/-- DRV_BRK_LIFT_MS. -/
@[reducible] def drvBrkLiftMs : Nat := 0xa068
/-- DRV_BRK_DROP_MS. -/
@[reducible] def drvBrkDropMs : Nat := 0xa06c
/-- DRV_CIA_NODE. -/
@[reducible] def drvCiaNode : Nat := 0xa070
/-- DRV_CIA_SCALE. -/
@[reducible] def drvCiaScale : Nat := 0xa074
/-- DRV_AN_VFS. -/
@[reducible] def drvAnVfs : Nat := 0xa078
/-- DRV_AN_KP. -/
@[reducible] def drvAnKp : Nat := 0xa07c
/-- DRV_AN_KI. -/
@[reducible] def drvAnKi : Nat := 0xa080
/-- DRV_AN_OFS_MV. -/
@[reducible] def drvAnOfsMv : Nat := 0xa084
/-- DRV_AN_OUT. -/
@[reducible] def drvAnOut : Nat := 0xa088
/-- DRV_STEP_UM. -/
@[reducible] def drvStepUm : Nat := 0xa08c
/-- DRV_CMD. -/
@[reducible] def drvCmd : Nat := 0xa090
/-- SCH_CTRL. -/
@[reducible] def schCtrl : Nat := 0xb008
/-- SCH_STATUS. -/
@[reducible] def schStatus : Nat := 0xb00c
/-- SCH_MODE. -/
@[reducible] def schMode : Nat := 0xb040
/-- SCH_P_MODE. -/
@[reducible] def schPMode : Nat := 0xb044
/-- SCH_RECALL. -/
@[reducible] def schRecall : Nat := 0xb048
/-- SCH_HOLD_MS. -/
@[reducible] def schHoldMs : Nat := 0xb04c
/-- SCH_BYPASS_PCT. -/
@[reducible] def schBypassPct : Nat := 0xb050
/-- SCH_CFG. -/
@[reducible] def schCfg : Nat := 0xb054
/-- SCH_BTN_STUCK_MS. -/
@[reducible] def schBtnStuckMs : Nat := 0xb058
/-- SCH_ANSWER. -/
@[reducible] def schAnswer : Nat := 0xb05c
/-- SCH_PASSED. -/
@[reducible] def schPassed : Nat := 0xb060
/-- SCH_OOS. -/
@[reducible] def schOos : Nat := 0xb064
/-- SCH_LT_FAULT. -/
@[reducible] def schLtFault : Nat := 0xb068
/-- SCH_CALL_CNT. -/
@[reducible] def schCallCnt : Nat := 0xb06c
/-- SCH_DEST_ADD. -/
@[reducible] def schDestAdd : Nat := 0xb070
/-- SCH_DEST_DEL. -/
@[reducible] def schDestDel : Nat := 0xb074
/-- SCH_DEST_LAST. -/
@[reducible] def schDestLast : Nat := 0xb078
/-- SCH_CMD. -/
@[reducible] def schCmd : Nat := 0xb07c
/-- SCH_BID_LOADPEN. -/
@[reducible] def schBidLoadpen : Nat := 0xb080
/-- SCH_BID_CALLPEN. -/
@[reducible] def schBidCallpen : Nat := 0xb084
/-- SCH_BID_STICK. -/
@[reducible] def schBidStick : Nat := 0xb088
/-- BID_CTRL. -/
@[reducible] def bidCtrl : Nat := 0xc008
/-- BID_STATUS. -/
@[reducible] def bidStatus : Nat := 0xc00c
/-- BID_CFG. -/
@[reducible] def bidCfg : Nat := 0xc040
/-- BID_REBID_MS. -/
@[reducible] def bidRebidMs : Nat := 0xc044
/-- BID_REPEAT_MS. -/
@[reducible] def bidRepeatMs : Nat := 0xc048
/-- BID_ORPHAN_N. -/
@[reducible] def bidOrphanN : Nat := 0xc04c
/-- BID_LISTEN_MS. -/
@[reducible] def bidListenMs : Nat := 0xc050
/-- BID_ROUND. -/
@[reducible] def bidRound : Nat := 0xc054
/-- BID_AWARD. -/
@[reducible] def bidAward : Nat := 0xc058
/-- BID_COSTS. -/
@[reducible] def bidCosts : Nat := 0xc05c
/-- BID_QUERY. -/
@[reducible] def bidQuery : Nat := 0xc060
/-- BID_QRESULT. -/
@[reducible] def bidQresult : Nat := 0xc064
/-- BID_CNT_RND. -/
@[reducible] def bidCntRnd : Nat := 0xc068
/-- BID_CNT_ERR. -/
@[reducible] def bidCntErr : Nat := 0xc06c
/-- BID_CMD. -/
@[reducible] def bidCmd : Nat := 0xc070
/-- BID_GCL. -/
@[reducible] def bidGcl : Nat := 0xc400
/-- DOORx_CTRL on page `pg`. -/
@[reducible] def doorCtrl (pg : Nat) : Nat := pg * 4096 + 0x8
/-- DOORx_STATUS on page `pg`. -/
@[reducible] def doorStatus (pg : Nat) : Nat := pg * 4096 + 0xc
/-- DOORx_CFG on page `pg`. -/
@[reducible] def doorCfg (pg : Nat) : Nat := pg * 4096 + 0x40
/-- DOORx_SP_POS on page `pg`. -/
@[reducible] def doorSpPos (pg : Nat) : Nat := pg * 4096 + 0x44
/-- DOORx_ACT_POS on page `pg`. -/
@[reducible] def doorActPos (pg : Nat) : Nat := pg * 4096 + 0x48
/-- DOORx_ACT_VEL on page `pg`. -/
@[reducible] def doorActVel (pg : Nat) : Nat := pg * 4096 + 0x4c
/-- DOORx_FORCE on page `pg`. -/
@[reducible] def doorForce (pg : Nat) : Nat := pg * 4096 + 0x50
/-- DOORx_ENERGY on page `pg`. -/
@[reducible] def doorEnergy (pg : Nat) : Nat := pg * 4096 + 0x54
/-- DOORx_CURRENT on page `pg`. -/
@[reducible] def doorCurrent (pg : Nat) : Nat := pg * 4096 + 0x58
/-- DOORx_LOAD_ANGLE on page `pg`. -/
@[reducible] def doorLoadAngle (pg : Nat) : Nat := pg * 4096 + 0x5c
/-- DOORx_TEMP on page `pg`. -/
@[reducible] def doorTemp (pg : Nat) : Nat := pg * 4096 + 0x60
/-- DOORx_GEAR_INFO on page `pg`. -/
@[reducible] def doorGearInfo (pg : Nat) : Nat := pg * 4096 + 0x64
/-- DOORx_GEAR_LAG on page `pg`. -/
@[reducible] def doorGearLag (pg : Nat) : Nat := pg * 4096 + 0x68
/-- DOORx_V_E on page `pg`. -/
@[reducible] def doorVE (pg : Nat) : Nat := pg * 4096 + 0x6c
/-- DOORx_MASS_G on page `pg`. -/
@[reducible] def doorMassG (pg : Nat) : Nat := pg * 4096 + 0x70
/-- DOORx_WIDTH_UM on page `pg`. -/
@[reducible] def doorWidthUm (pg : Nat) : Nat := pg * 4096 + 0x74
/-- DOORx_T_OPEN_MS on page `pg`. -/
@[reducible] def doorTOpenMs (pg : Nat) : Nat := pg * 4096 + 0x78
/-- DOORx_T_CLOSE_MS on page `pg`. -/
@[reducible] def doorTCloseMs (pg : Nat) : Nat := pg * 4096 + 0x7c
/-- DOORx_FRICTION on page `pg`. -/
@[reducible] def doorFriction (pg : Nat) : Nat := pg * 4096 + 0x80
/-- DOORx_VOPEN on page `pg`. -/
@[reducible] def doorVopen (pg : Nat) : Nat := pg * 4096 + 0x84
/-- DOORx_VCLOSE on page `pg`. -/
@[reducible] def doorVclose (pg : Nat) : Nat := pg * 4096 + 0x88
/-- DOORx_AMAX on page `pg`. -/
@[reducible] def doorAmax (pg : Nat) : Nat := pg * 4096 + 0x8c
/-- DOORx_JMAX on page `pg`. -/
@[reducible] def doorJmax (pg : Nat) : Nat := pg * 4096 + 0x90
/-- DOORx_REV_DEC on page `pg`. -/
@[reducible] def doorRevDec (pg : Nat) : Nat := pg * 4096 + 0x94
/-- DOORx_CREEP_VEL on page `pg`. -/
@[reducible] def doorCreepVel (pg : Nat) : Nat := pg * 4096 + 0x98
/-- DOORx_CREEP_UM on page `pg`. -/
@[reducible] def doorCreepUm (pg : Nat) : Nat := pg * 4096 + 0x9c
/-- DOORx_FMAX on page `pg`. -/
@[reducible] def doorFmax (pg : Nat) : Nat := pg * 4096 + 0xa0
/-- DOORx_EMAX on page `pg`. -/
@[reducible] def doorEmax (pg : Nat) : Nat := pg * 4096 + 0xa4
/-- DOORx_ENUDGE on page `pg`. -/
@[reducible] def doorEnudge (pg : Nat) : Nat := pg * 4096 + 0xa8
/-- DOORx_NUDGE_MS on page `pg`. -/
@[reducible] def doorNudgeMs (pg : Nat) : Nat := pg * 4096 + 0xac
/-- DOORx_LC_CLEAR_MS on page `pg`. -/
@[reducible] def doorLcClearMs (pg : Nat) : Nat := pg * 4096 + 0xb0
/-- DOORx_MASS_MAX on page `pg`. -/
@[reducible] def doorMassMax (pg : Nat) : Nat := pg * 4096 + 0xb4
/-- DOORx_KF on page `pg`. -/
@[reducible] def doorKf (pg : Nat) : Nat := pg * 4096 + 0xb8
/-- DOORx_ENC_SCALE on page `pg`. -/
@[reducible] def doorEncScale (pg : Nat) : Nat := pg * 4096 + 0xbc
/-- DOORx_STEP_UM on page `pg`. -/
@[reducible] def doorStepUm (pg : Nat) : Nat := pg * 4096 + 0xc0
/-- DOORx_I_HOLD on page `pg`. -/
@[reducible] def doorIHold (pg : Nat) : Nat := pg * 4096 + 0xc4
/-- DOORx_I_CEIL on page `pg`. -/
@[reducible] def doorICeil (pg : Nat) : Nat := pg * 4096 + 0xc8
/-- DOORx_GEAR_VMAX on page `pg`. -/
@[reducible] def doorGearVmax (pg : Nat) : Nat := pg * 4096 + 0xcc
/-- DOORx_GB_DIST on page `pg`. -/
@[reducible] def doorGbDist (pg : Nat) : Nat := pg * 4096 + 0xd0
/-- DOORx_GB_RATIO on page `pg`. -/
@[reducible] def doorGbRatio (pg : Nat) : Nat := pg * 4096 + 0xe0
/-- DOORx_LOCK_TO_MS on page `pg`. -/
@[reducible] def doorLockToMs (pg : Nat) : Nat := pg * 4096 + 0xf0
/-- DOORx_CLOSE_RETRY on page `pg`. -/
@[reducible] def doorCloseRetry (pg : Nat) : Nat := pg * 4096 + 0xf4
/-- DOORx_RET_ANGLE on page `pg`. -/
@[reducible] def doorRetAngle (pg : Nat) : Nat := pg * 4096 + 0xf8
/-- DOORx_RET_CNT on page `pg`. -/
@[reducible] def doorRetCnt (pg : Nat) : Nat := pg * 4096 + 0xfc
/-- DOORx_CMD on page `pg`. -/
@[reducible] def doorCmd (pg : Nat) : Nat := pg * 4096 + 0x100
/-- DOORx_FAULT on page `pg`. -/
@[reducible] def doorFault (pg : Nat) : Nat := pg * 4096 + 0x104
/-- SAFE_CTRL. -/
@[reducible] def safeCtrl : Nat := 0x10008
/-- SAFE_STATUS. -/
@[reducible] def safeStatus : Nat := 0x1000c
/-- SAFE_TRIP. -/
@[reducible] def safeTrip : Nat := 0x10040
/-- SAFE_TRIP_FIRST. -/
@[reducible] def safeTripFirst : Nat := 0x10044
/-- SAFE_TAPS. -/
@[reducible] def safeTaps : Nat := 0x10048
/-- SAFE_OUT. -/
@[reducible] def safeOut : Nat := 0x1004c
/-- SAFE_POS_A. -/
@[reducible] def safePosA : Nat := 0x10050
/-- SAFE_POS_B. -/
@[reducible] def safePosB : Nat := 0x10054
/-- SAFE_VEL_A. -/
@[reducible] def safeVelA : Nat := 0x10058
/-- SAFE_VEL_B. -/
@[reducible] def safeVelB : Nat := 0x1005c
/-- SAFE_VLIM. -/
@[reducible] def safeVlim : Nat := 0x10060
/-- SAFE_OVS1_THR. -/
@[reducible] def safeOvs1Thr : Nat := 0x10064
/-- SAFE_UCM_REF. -/
@[reducible] def safeUcmRef : Nat := 0x10068
/-- SAFE_DEG. -/
@[reducible] def safeDeg : Nat := 0x1006c
/-- SAFE_DEG_SR_S. -/
@[reducible] def safeDegSrS : Nat := 0x10070
/-- SAFE_DEG_ENC2_S. -/
@[reducible] def safeDegEnc2S : Nat := 0x10074
/-- SAFE_DEG_DZ_S. -/
@[reducible] def safeDegDzS : Nat := 0x10078
/-- SAFE_DEG_LOAD_S. -/
@[reducible] def safeDegLoadS : Nat := 0x1007c
/-- SAFE_PROOF. -/
@[reducible] def safeProof : Nat := 0x10080
/-- SAFE_TEST. -/
@[reducible] def safeTest : Nat := 0x10084
/-- SAFE_DIGEST. -/
@[reducible] def safeDigest : Nat := 0x10088
/-- SAFE_CMD. -/
@[reducible] def safeCmd : Nat := 0x1008c
/-- SAFE_CFG. -/
@[reducible] def safeCfg : Nat := 0x10100
/-- SAFE_TAP_CFG. -/
@[reducible] def safeTapCfg : Nat := 0x10104
/-- SAFE_V_RATED. -/
@[reducible] def safeVRated : Nat := 0x10108
/-- SAFE_OVS2_PCT. -/
@[reducible] def safeOvs2Pct : Nat := 0x1010c
/-- SAFE_UCM_DIST. -/
@[reducible] def safeUcmDist : Nat := 0x10110
/-- SAFE_V_BYP. -/
@[reducible] def safeVByp : Nat := 0x10114
/-- SAFE_V_RELEV. -/
@[reducible] def safeVRelev : Nat := 0x10118
/-- SAFE_V_INS. -/
@[reducible] def safeVIns : Nat := 0x1011c
/-- SAFE_V_EMER. -/
@[reducible] def safeVEmer : Nat := 0x10120
/-- SAFE_INS_OVR. -/
@[reducible] def safeInsOvr : Nat := 0x10124
/-- SAFE_ETS_DEC. -/
@[reducible] def safeEtsDec : Nat := 0x10128
/-- SAFE_ETS_OFS. -/
@[reducible] def safeEtsOfs : Nat := 0x1012c
/-- SAFE_CAP_DEC. -/
@[reducible] def safeCapDec : Nat := 0x10130
/-- SAFE_BRK_T_MS. -/
@[reducible] def safeBrkTMs : Nat := 0x10134
/-- SAFE_BRK_CREEP_UM. -/
@[reducible] def safeBrkCreepUm : Nat := 0x10138
/-- SAFE_STO_FB_MS. -/
@[reducible] def safeStoFbMs : Nat := 0x1013c
/-- SAFE_XPOS_TOL. -/
@[reducible] def safeXposTol : Nat := 0x10140
/-- SAFE_XVEL_TOL. -/
@[reducible] def safeXvelTol : Nat := 0x10144
/-- SAFE_ENCA_SCALE. -/
@[reducible] def safeEncaScale : Nat := 0x10148
/-- SAFE_ENCB_SCALE. -/
@[reducible] def safeEncbScale : Nat := 0x1014c
/-- SAFE_SR_OFS. -/
@[reducible] def safeSrOfs : Nat := 0x10150
/-- SAFE_LSF_MAP. -/
@[reducible] def safeLsfMap : Nat := 0x10154
/-- LSF_CTRL. -/
@[reducible] def lsfCtrl : Nat := 0x11008
/-- LSF_STATUS. -/
@[reducible] def lsfStatus : Nat := 0x1100c
/-- LSF_NODE. -/
@[reducible] def lsfNode : Nat := 0x11040
/-- LSF_CRC_MAX. -/
@[reducible] def lsfCrcMax : Nat := 0x11044
/-- LSF_RUN_MASK. -/
@[reducible] def lsfRunMask : Nat := 0x11048
/-- LSF_FAIL_MASK. -/
@[reducible] def lsfFailMask : Nat := 0x1104c
/-- LSF_RESTART. -/
@[reducible] def lsfRestart : Nat := 0x11050
/-- LSF_CMD. -/
@[reducible] def lsfCmd : Nat := 0x11054
/-- LSF_MAP_BIT. -/
@[reducible] def lsfMapBit : Nat := 0x11060
/-- LSF_Cn_CFG. -/
@[reducible] def lsfCnCfg : Nat := 0x11200
/-- LSF_Cn_TAG. -/
@[reducible] def lsfCnTag : Nat := 0x11204
/-- LSF_Cn_TIME. -/
@[reducible] def lsfCnTime : Nat := 0x11208
/-- LSF_Cn_SAFE. -/
@[reducible] def lsfCnSafe : Nat := 0x1120c
/-- LSF_Cn_STATUS. -/
@[reducible] def lsfCnStatus : Nat := 0x11210
/-- LSF_Cn_CNT. -/
@[reducible] def lsfCnCnt : Nat := 0x11214
/-- LSF_Cn_SEQ. -/
@[reducible] def lsfCnSeq : Nat := 0x11218
/-- LSF_Dn_DATA. -/
@[reducible] def lsfDnData : Nat := 0x11800
/-- LSF_Dn_INFO. -/
@[reducible] def lsfDnInfo : Nat := 0x11830
/-- CANn_CTRL on page `pg`. -/
@[reducible] def canCtrl (pg : Nat) : Nat := pg * 4096 + 0x8
/-- CANn_STATUS on page `pg`. -/
@[reducible] def canStatus (pg : Nat) : Nat := pg * 4096 + 0xc
/-- CANn_CFG on page `pg`. -/
@[reducible] def canCfg (pg : Nat) : Nat := pg * 4096 + 0x40
/-- CANn_NBT on page `pg`. -/
@[reducible] def canNbt (pg : Nat) : Nat := pg * 4096 + 0x44
/-- CANn_DBT on page `pg`. -/
@[reducible] def canDbt (pg : Nat) : Nat := pg * 4096 + 0x48
/-- CANn_ERRC on page `pg`. -/
@[reducible] def canErrc (pg : Nat) : Nat := pg * 4096 + 0x4c
/-- CANn_TSTAMP on page `pg`. -/
@[reducible] def canTstamp (pg : Nat) : Nat := pg * 4096 + 0x50
/-- CANn_TX_REQ on page `pg`. -/
@[reducible] def canTxReq (pg : Nat) : Nat := pg * 4096 + 0x54
/-- CANn_TX_ABORT on page `pg`. -/
@[reducible] def canTxAbort (pg : Nat) : Nat := pg * 4096 + 0x58
/-- CANn_TX_PEND on page `pg`. -/
@[reducible] def canTxPend (pg : Nat) : Nat := pg * 4096 + 0x5c
/-- CANn_TX_DONE on page `pg`. -/
@[reducible] def canTxDone (pg : Nat) : Nat := pg * 4096 + 0x60
/-- CANn_TX_FAIL on page `pg`. -/
@[reducible] def canTxFail (pg : Nat) : Nat := pg * 4096 + 0x64
/-- CANn_RX_NEW on page `pg`. -/
@[reducible] def canRxNew (pg : Nat) : Nat := pg * 4096 + 0x70
/-- CANn_RX_LOST on page `pg`. -/
@[reducible] def canRxLost (pg : Nat) : Nat := pg * 4096 + 0x80
/-- CANn_WAKE_ID on page `pg`. -/
@[reducible] def canWakeId (pg : Nat) : Nat := pg * 4096 + 0x90
/-- CANn_WAKE_IDM on page `pg`. -/
@[reducible] def canWakeIdm (pg : Nat) : Nat := pg * 4096 + 0x94
/-- CANn_WAKE_DLC on page `pg`. -/
@[reducible] def canWakeDlc (pg : Nat) : Nat := pg * 4096 + 0x98
/-- CANn_WAKE_DATA on page `pg`. -/
@[reducible] def canWakeData (pg : Nat) : Nat := pg * 4096 + 0x9c
/-- CANn_WAKE_DM on page `pg`. -/
@[reducible] def canWakeDm (pg : Nat) : Nat := pg * 4096 + 0xa4
/-- CANn_CNT_FRM on page `pg`. -/
@[reducible] def canCntFrm (pg : Nat) : Nat := pg * 4096 + 0xb0
/-- CANn_CNT_ERR on page `pg`. -/
@[reducible] def canCntErr (pg : Nat) : Nat := pg * 4096 + 0xb4
/-- CANn_CMD on page `pg`. -/
@[reducible] def canCmd (pg : Nat) : Nat := pg * 4096 + 0xb8
/-- FIO_CTRL. -/
@[reducible] def fioCtrl : Nat := 0x1c008
/-- FIO_STATUS. -/
@[reducible] def fioStatus : Nat := 0x1c00c
/-- FIO_CFG. -/
@[reducible] def fioCfg : Nat := 0x1c040
/-- FIO_SILENCE_MS. -/
@[reducible] def fioSilenceMs : Nat := 0x1c044
/-- FIO_SIL_REM_MS. -/
@[reducible] def fioSilRemMs : Nat := 0x1c048
/-- FIO_GRP_IRQ. -/
@[reducible] def fioGrpIrq : Nat := 0x1c04c
/-- FIO_CMD. -/
@[reducible] def fioCmd : Nat := 0x1c050
/-- FIOGg_STATUS on page `pg`. -/
@[reducible] def fiogStatus (pg : Nat) : Nat := pg * 4096 + 0xc
/-- FIOGg_FILT on page `pg`. -/
@[reducible] def fiogFilt (pg : Nat) : Nat := pg * 4096 + 0x40
/-- FIOGg_VFIELD on page `pg`. -/
@[reducible] def fiogVfield (pg : Nat) : Nat := pg * 4096 + 0x44
/-- FIOGg_IN_RAW on page `pg`. -/
@[reducible] def fiogInRaw (pg : Nat) : Nat := pg * 4096 + 0x48
/-- FIOGg_IN on page `pg`. -/
@[reducible] def fiogIn (pg : Nat) : Nat := pg * 4096 + 0x4c
/-- FIOGg_OUT on page `pg`. -/
@[reducible] def fiogOut (pg : Nat) : Nat := pg * 4096 + 0x50
/-- FIOGg_OUT_ACT on page `pg`. -/
@[reducible] def fiogOutAct (pg : Nat) : Nat := pg * 4096 + 0x54
/-- FIOGg_OUT_SET on page `pg`. -/
@[reducible] def fiogOutSet (pg : Nat) : Nat := pg * 4096 + 0x58
/-- FIOGg_OUT_CLR on page `pg`. -/
@[reducible] def fiogOutClr (pg : Nat) : Nat := pg * 4096 + 0x5c
/-- FIOGg_COS_RISE on page `pg`. -/
@[reducible] def fiogCosRise (pg : Nat) : Nat := pg * 4096 + 0x60
/-- FIOGg_COS_FALL on page `pg`. -/
@[reducible] def fiogCosFall (pg : Nat) : Nat := pg * 4096 + 0x64
/-- FIOGg_COS on page `pg`. -/
@[reducible] def fiogCos (pg : Nat) : Nat := pg * 4096 + 0x68
/-- FIOGg_COS_LAST on page `pg`. -/
@[reducible] def fiogCosLast (pg : Nat) : Nat := pg * 4096 + 0x6c
/-- FIOGg_DIAG_OPEN on page `pg`. -/
@[reducible] def fiogDiagOpen (pg : Nat) : Nat := pg * 4096 + 0x70
/-- FIOGg_DIAG_SVF on page `pg`. -/
@[reducible] def fiogDiagSvf (pg : Nat) : Nat := pg * 4096 + 0x74
/-- FIOGg_DIAG_CLIM on page `pg`. -/
@[reducible] def fiogDiagClim (pg : Nat) : Nat := pg * 4096 + 0x78
/-- FIOGg_DIAG_OVL on page `pg`. -/
@[reducible] def fiogDiagOvl (pg : Nat) : Nat := pg * 4096 + 0x7c
/-- FIOGg_DIAG_TSD on page `pg`. -/
@[reducible] def fiogDiagTsd (pg : Nat) : Nat := pg * 4096 + 0x80
/-- FIOGg_TSD_CLR on page `pg`. -/
@[reducible] def fiogTsdClr (pg : Nat) : Nat := pg * 4096 + 0x84
/-- FIOGg_CMD on page `pg`. -/
@[reducible] def fiogCmd (pg : Nat) : Nat := pg * 4096 + 0x88
/-- FIOGg_CH_CFG on page `pg`. -/
@[reducible] def fiogChCfg (pg : Nat) : Nat := pg * 4096 + 0x100
/-- HOST_CTRL. -/
@[reducible] def hostCtrl : Nat := 0x4008
/-- HOST_STATUS. -/
@[reducible] def hostStatus : Nat := 0x400c
/-- HOST_CFG. -/
@[reducible] def hostCfg : Nat := 0x4040
/-- HOST_SESS_TO_MS. -/
@[reducible] def hostSessToMs : Nat := 0x4044
/-- HOST_SESS. -/
@[reducible] def hostSess : Nat := 0x4050
/-- HOST_CNT. -/
@[reducible] def hostCnt : Nat := 0x4060
/-- HOST_CMD. -/
@[reducible] def hostCmd : Nat := 0x4064
/-- ETHn_STATUS on page `pg`. -/
@[reducible] def ethStatus (pg : Nat) : Nat := pg * 4096 + 0xc
/-- ETHn_CFG on page `pg`. -/
@[reducible] def ethCfg (pg : Nat) : Nat := pg * 4096 + 0x40
/-- ETHn_MAC_LO on page `pg`. -/
@[reducible] def ethMacLo (pg : Nat) : Nat := pg * 4096 + 0x44
/-- ETHn_MAC_HI on page `pg`. -/
@[reducible] def ethMacHi (pg : Nat) : Nat := pg * 4096 + 0x48
/-- ETHn_IP on page `pg`. -/
@[reducible] def ethIp (pg : Nat) : Nat := pg * 4096 + 0x4c
/-- ETHn_CNT_FRM on page `pg`. -/
@[reducible] def ethCntFrm (pg : Nat) : Nat := pg * 4096 + 0x50
/-- ETHn_CNT_ERR on page `pg`. -/
@[reducible] def ethCntErr (pg : Nat) : Nat := pg * 4096 + 0x54
/-- ETHn_CMD on page `pg`. -/
@[reducible] def ethCmd (pg : Nat) : Nat := pg * 4096 + 0x58
/-- XBAR_OVR. -/
@[reducible] def xbarOvr : Nat := 0x3040
/-- XBAR_BUDGET. -/
@[reducible] def xbarBudget : Nat := 0x3044
/-- XBAR_USED. -/
@[reducible] def xbarUsed : Nat := 0x3080
/-- XBAR_CMD. -/
@[reducible] def xbarCmd : Nat := 0x30b0
/-- XBAR_FLT. -/
@[reducible] def xbarFlt : Nat := 0x3100
/-- XBAR_WIN. -/
@[reducible] def xbarWin : Nat := 0x3200
/-- XBAR_MWIN. -/
@[reducible] def xbarMwin : Nat := 0x3400
/-- PART_CTRL. -/
@[reducible] def partCtrl : Nat := 0x28008
/-- PART_STATUS. -/
@[reducible] def partStatus : Nat := 0x2800c
/-- PART_CFG. -/
@[reducible] def partCfg : Nat := 0x28040
/-- PART_XCH_PERIOD_S. -/
@[reducible] def partXchPeriodS : Nat := 0x28044
/-- PART_XCH_IDLE_S. -/
@[reducible] def partXchIdleS : Nat := 0x28048
/-- PART_LOOP_UA. -/
@[reducible] def partLoopUa : Nat := 0x2804c
/-- PART_EPOCH_TX. -/
@[reducible] def partEpochTx : Nat := 0x28050
/-- PART_EPOCH_RX. -/
@[reducible] def partEpochRx : Nat := 0x28054
/-- PART_EPOCH_AGE_US. -/
@[reducible] def partEpochAgeUs : Nat := 0x28058
/-- PART_DIGEST. -/
@[reducible] def partDigest : Nat := 0x2805c
/-- PART_PEER_DIGEST. -/
@[reducible] def partPeerDigest : Nat := 0x28060
/-- PART_CNT. -/
@[reducible] def partCnt : Nat := 0x28064
/-- PART_XCH_DUE_S. -/
@[reducible] def partXchDueS : Nat := 0x28068
/-- PART_CMD. -/
@[reducible] def partCmd : Nat := 0x2806c
/-- REC_CTRL. -/
@[reducible] def recCtrl : Nat := 0x2c008
/-- REC_STATUS. -/
@[reducible] def recStatus : Nat := 0x2c00c
/-- REC_CFG. -/
@[reducible] def recCfg : Nat := 0x2c040
/-- REC_FLUSH_MS. -/
@[reducible] def recFlushMs : Nat := 0x2c044
/-- REC_MASK. -/
@[reducible] def recMask : Nat := 0x2c048
/-- REC_SEQ_NEXT. -/
@[reducible] def recSeqNext : Nat := 0x2c050
/-- REC_PCYCLE. -/
@[reducible] def recPcycle : Nat := 0x2c054
/-- REC_OPTIME_LO. -/
@[reducible] def recOptimeLo : Nat := 0x2c058
/-- REC_OPTIME_HI. -/
@[reducible] def recOptimeHi : Nat := 0x2c05c
/-- REC_WALL_LO. -/
@[reducible] def recWallLo : Nat := 0x2c060
/-- REC_WALL_HI. -/
@[reducible] def recWallHi : Nat := 0x2c064
/-- REC_WALL_OFS_LO. -/
@[reducible] def recWallOfsLo : Nat := 0x2c068
/-- REC_WALL_OFS_HI. -/
@[reducible] def recWallOfsHi : Nat := 0x2c06c
/-- REC_NEWEST. -/
@[reducible] def recNewest : Nat := 0x2c070
/-- REC_LOST. -/
@[reducible] def recLost : Nat := 0x2c074
/-- REC_RD_SEQ. -/
@[reducible] def recRdSeq : Nat := 0x2c078
/-- REC_RD_STAT. -/
@[reducible] def recRdStat : Nat := 0x2c07c
/-- REC_CMD. -/
@[reducible] def recCmd : Nat := 0x2c080
/-- REC_TRG. -/
@[reducible] def recTrg : Nat := 0x2c100
/-- REC_RD_DATA. -/
@[reducible] def recRdData : Nat := 0x2c200
/-- REC_SNAP. -/
@[reducible] def recSnap : Nat := 0x2c800
/-- KEY_CTRL. -/
@[reducible] def keyCtrl : Nat := 0x30008
/-- KEY_STATUS. -/
@[reducible] def keyStatus : Nat := 0x3000c
/-- KEY_CMD. -/
@[reducible] def keyCmd : Nat := 0x30040
/-- KEY_ARG. -/
@[reducible] def keyArg : Nat := 0x30044
/-- KEY_RESULT. -/
@[reducible] def keyResult : Nat := 0x30048
/-- KEY_BUF_BANK. -/
@[reducible] def keyBufBank : Nat := 0x3004c
/-- KEY_NONCE. -/
@[reducible] def keyNonce : Nat := 0x30050
/-- KEY_IDX. -/
@[reducible] def keyIdx : Nat := 0x30060
/-- KEY_REMASK_MS. -/
@[reducible] def keyRemaskMs : Nat := 0x30064
/-- KEY_OTP. -/
@[reducible] def keyOtp : Nat := 0x30068
/-- KEY_SERIAL_LO. -/
@[reducible] def keySerialLo : Nat := 0x3006c
/-- KEY_SERIAL_HI. -/
@[reducible] def keySerialHi : Nat := 0x30070
/-- KEY_SVC_REM_S. -/
@[reducible] def keySvcRemS : Nat := 0x30074
/-- KEY_SLOT. -/
@[reducible] def keySlot : Nat := 0x30100
/-- KEY_BUF. -/
@[reducible] def keyBuf : Nat := 0x30800
/-- TAMP_STATUS. -/
@[reducible] def tampStatus : Nat := 0x3100c
/-- TAMP_CFG. -/
@[reducible] def tampCfg : Nat := 0x31040
/-- TAMP_EVENTS. -/
@[reducible] def tampEvents : Nat := 0x31044
/-- TAMP_LAST_PC. -/
@[reducible] def tampLastPc : Nat := 0x31048
/-- TAMP_LAST_OPT. -/
@[reducible] def tampLastOpt : Nat := 0x3104c
/-- TAMP_CMD. -/
@[reducible] def tampCmd : Nat := 0x31050
/-- CLK_CTRL. -/
@[reducible] def clkCtrl : Nat := 0x1008
/-- CLK_STATUS. -/
@[reducible] def clkStatus : Nat := 0x100c
/-- CLK_INVAR. -/
@[reducible] def clkInvar : Nat := 0x1040
/-- CLK_TRIM. -/
@[reducible] def clkTrim : Nat := 0x1044
/-- CLK_FB_MS. -/
@[reducible] def clkFbMs : Nat := 0x1048
/-- CLK_GATE. -/
@[reducible] def clkGate : Nat := 0x104c
/-- CLK_GATE_ST. -/
@[reducible] def clkGateSt : Nat := 0x1050
/-- CLK_OUT_CFG. -/
@[reducible] def clkOutCfg : Nat := 0x1054
/-- CLK_BOOT. -/
@[reducible] def clkBoot : Nat := 0x1058
/-- SYS_CTRL. -/
@[reducible] def sysCtrl : Nat := 0x8
/-- SYS_STATUS. -/
@[reducible] def sysStatus : Nat := 0xc
/-- SYS_IRQ_SUMMARY. -/
@[reducible] def sysIrqSummary : Nat := 0x40
/-- SYS_NMI_STATUS. -/
@[reducible] def sysNmiStatus : Nat := 0x44
/-- SYS_RST_CAUSE. -/
@[reducible] def sysRstCause : Nat := 0x48
/-- SYS_RST_CNT. -/
@[reducible] def sysRstCnt : Nat := 0x4c
/-- SYS_PROFILE_OVR. -/
@[reducible] def sysProfileOvr : Nat := 0x50
/-- SYS_PROF_INFO. -/
@[reducible] def sysProfInfo : Nat := 0x54
/-- SYS_PROF_PTR. -/
@[reducible] def sysProfPtr : Nat := 0x70
/-- SYS_PROF_DATA. -/
@[reducible] def sysProfData : Nat := 0x74
/-- SYS_CMD. -/
@[reducible] def sysCmd : Nat := 0x78
/-- SYS_PROF_RESULT. -/
@[reducible] def sysProfResult : Nat := 0x7c
/-- PWR_CTRL. -/
@[reducible] def pwrCtrl : Nat := 0x2008
/-- PWR_STATUS. -/
@[reducible] def pwrStatus : Nat := 0x200c
/-- PWR_LOGIC_MV. -/
@[reducible] def pwrLogicMv : Nat := 0x2040
/-- PWR_CFG. -/
@[reducible] def pwrCfg : Nat := 0x2044
/-- PWR_PARK_IDLE_S. -/
@[reducible] def pwrParkIdleS : Nat := 0x2048
/-- PWR_DEEP_WAKE_S. -/
@[reducible] def pwrDeepWakeS : Nat := 0x204c
/-- PWR_PF_CNT. -/
@[reducible] def pwrPfCnt : Nat := 0x2050
/-- PWR_CMD. -/
@[reducible] def pwrCmd : Nat := 0x2054

end Sys2Proof.Machine
end

