-- ==== Sys2Proof/Machine/Blocks.lean ====
section
/-! DEFINITION. The state of each block that is no register of its own: the estimator, the runs, the calls, the
doors, Electrum's channels, sessions, records, keys. Plain data throughout. Times called `At` are tick indices of the
servo-period counter (62.5 µs, R12); times called `Us` are microseconds of the time base of R241. -/

namespace Sys2Proof.Machine

/-- A word store in canonical form: addresses strictly rising, no entry equal to what an unlisted one reads. -/
abbrev Cells := List (Nat × Word)

/-- A position source with its count of consecutive fault-free samples (Table 3.5). -/
structure SrcWatch where
  st : SrcState
  n : Nat
  deriving DecidableEq, Repr

/-- An encoder as POS sees it: its state, last count, and its last 16 arc steps, newest first (R37, R50). -/
structure EncCh where
  w : SrcWatch
  prev : Word
  steps : List Int
  deriving DecidableEq, Repr

/-- An accepted shaft-reader answer: position in µm, end stamp in ns since the first tick, a whole µs (R38), sequence. -/
structure SrAns where
  z : Int
  endNs : Nat
  seq : Nat
  deriving DecidableEq, Repr

/-- A shaft-reader probation under way (R51): its start, the span and the mean of |y|. -/
structure SrProb where
  startAt : Nat
  lo : Int
  hi : Int
  sumAbs : Int
  n : Nat
  deriving DecidableEq, Repr

/-- The shaft-reader channel (R38, R39, R48, R51). -/
structure SrCh where
  st : SrcState
  reqSeq : Nat
  reqOut : Bool
  reqAt : Nat
  /-- the bytes of the request that X13 sent last; none of a request that another module's driver sends (Table 15.2) -/
  reqFrame : List Byte
  pend : Option SrAns
  newest : Option SrAns
  /-- end of the last accepted answer, or when waiting for one began, in ns of the time base -/
  lastAt : Nat
  overN : Nat
  conflict : Bool
  prob : Option SrProb
  /-- the probation of R51 has run its 500 ms; VALID waits for its step, and for band 0 where the mean is too large -/
  passed : Bool
  deriving DecidableEq, Repr

/-- A landing's zone that a door-zone channel passes (R52): the boundaries the estimate has crossed, whether an edge was
seen within the capture distance of either, and the boundaries whose own edge was within tolerance. -/
structure DzPass where
  n : Nat
  crossLo : Bool
  crossHi : Bool
  hit : Bool
  tolLo : Bool
  tolHi : Bool
  deriving DecidableEq, Repr

/-- A door-zone channel (R40, R52, R90). -/
structure DzCh where
  st : SrcState
  active : Bool
  wiring : Bool
  lostByWiring : Bool
  /-- edges since the last fusion: rising, stamp in µs -/
  edges : List (Bool × Nat)
  misses : Nat
  /-- the zones, widened by the capture distance, that the estimate is passing -/
  zones : List DzPass
  /-- landings in a row with both edges within tolerance, in PROBATION -/
  good : Nat
  /-- the capture edge of a correction run: shifted boundary and the arc at the edge, both in µm × 2^16 -/
  capture : Option (Int × Int)
  captureUs : Nat
  deriving DecidableEq, Repr

/-- The position engine (R42 to R61). -/
structure Pos where
  p : Int
  v : Int
  a : Int
  s : Int
  kap : Nat
  b : Int
  e : Int
  /-- ENC2's own arc accumulator (R49) -/
  e2 : Int
  d : Int
  loadKg : Nat
  seq : Nat
  band : Nat
  abs : Bool
  restored : Bool
  traction : Bool
  dzMismatch : Bool
  encDisagree : Bool
  enc1 : EncCh
  enc2 : EncCh
  acc : SrcWatch
  accFull : Nat
  sr : SrCh
  dza : DzCh
  dzb : DzCh
  load : SrcState
  /-- the last 1,600 values of s, newest first (R44) -/
  sHist : List Int
  slipRate : Int
  tractTicks : Nat
  tractStep : Bool
  diffTicks : Nat
  agreeTicks : Nat
  /-- BIAS_CAL: samples taken, their sum (R61) -/
  cal : Option (Nat × Int)
  innovSr : Int
  innovDz : Int
  validWas : Bool
  wasRun : Bool
  deriving DecidableEq, Repr

/-- The load-weighing bridge (R64 to R66). -/
structure Lwb where
  raw : Int
  y : Int
  first : Bool
  openWire : Bool
  exc : Bool
  overRange : Bool
  faultConv : Nat
  okConv : Nat
  valid : Bool
  held : Nat
  zeroStored : Bool
  spanStored : Bool
  /-- a calibration: SPAN (not ZERO), conversions taken, their sum -/
  cal : Option (Bool × Nat × Int)
  deriving DecidableEq, Repr

/-- A segment of a plan: duration in time units (2^28 to a period), acceleration at its start and end (× 2^16). -/
structure Seg where
  dur : Int
  a0 : Int
  a1 : Int
  deriving DecidableEq, Repr

/-- A set-point state: position, velocity, acceleration, jerk, each × 2^16. -/
structure SetPt where
  x : Int
  v : Int
  a : Int
  j : Int
  deriving DecidableEq, Repr

/-- A plan: the tick it starts at, the direction, the state it starts from, its segments (in the direction of
travel), the shape, its length in time units (none: speed mode, which goes on), and the exact end position in µm
(none: wherever it comes to rest). -/
structure Plan where
  t0 : Nat
  up : Bool
  x0 : Int
  v0 : Int
  segs : List Seg
  shape : Shape
  len : Option Int
  endX : Option Int
  deriving DecidableEq, Repr

/-- The run engine (chapters 4 and 5). -/
structure Mot where
  phase : Phase
  up : Bool
  committed : Bool
  target : Nat
  targetPos : Int
  csrc : CommitSrc
  /-- a horizon kept through HOLDING and HELD with no target -/
  keptHorizon : Bool
  plan : Option Plan
  sp : SetPt
  spSeq : Nat
  stopPos : Int
  ramped : Bool
  blend : Bool
  follow : Bool
  followN : Nat
  followErr : Int
  cap : Nat
  /-- the speed limit of a special run (Table 5.1) -/
  specVel : Nat
  runType : RunType
  hstep : HStep
  homeErr : HomeErr
  homeTravel : Int
  backTravel : Int
  backArmed : Bool
  chat : Nat
  refWas : Bool
  /-- FINAL runs back to the level from rest (R90) -/
  homeBack : Bool
  moved : Bool
  relevCnt : Nat
  relevTicks : Nat
  relevBlocked : Bool
  relevPend : Bool
  landing : Nat
  landValid : Bool
  posChk : Bool
  autoTicks : Nat
  holdRun : Bool
  /-- door sides still to cycle for the start-up proof, and whether the one in hand has opened (R98) -/
  proofDoors : List Chan
  proofOpen : Bool
  trunPend : Bool
  /-- a relevelling run has been decided on in this period (R92) -/
  relevGo : Bool
  deriving DecidableEq, Repr

/-- The drive port (chapter 6). -/
structure Drv where
  /-- the interface latched from the profile at the start (R100) -/
  iface : Nat
  step : DrvStep
  stepAt : Nat
  readyAt : Option Nat
  ready : Bool
  energise : Bool
  follow : Bool
  wdog : Bool
  fault : Bool
  timeout : Bool
  /-- validity of the last 16 periods, newest first -/
  hist : List Bool
  miss : Nat
  seq : Nat
  framed : Bool
  frame : List Byte
  delim : Bool
  okResp : Bool
  /-- the response check of the period, or of the cycle that has ended, has run (R107, R111) -/
  checked : Bool
  faultRst : Nat
  sdoDone : Bool
  sdoSent : Bool
  sync : Nat
  syncUs : Nat
  tpdo : Bool
  /-- whether the cycle that has ended had its TPDO (R111) -/
  tpdoLast : Bool
  rdy : Bool
  rdyMiss : Nat
  ie : Int
  /-- the reference computed for the next tick, mV (R112) -/
  anNext : Int
  stepP0 : Int
  stepN : Int
  /-- steps to be emitted in the next period, signed (R113) -/
  pulses : Int
  liftReq : Bool
  stoFb : Bool
  linkUp : Bool
  deriving DecidableEq, Repr

/-- The set of calls answered at a stop (R129), and where the dwell stands. -/
structure Answer where
  landing : Nat
  cc : Bool
  hu : Bool
  hd : Bool
  dests : List Nat
  /-- sides still to report fully open -/
  opening : List Chan
  holdAt : Option Nat
  holdMs : Nat
  closing : Bool
  /-- closing follows as soon as the doors report open -/
  endNow : Bool
  deriving DecidableEq, Repr

/-- The stop scheduler (chapter 7). -/
structure Sch where
  cc : List Nat
  hu : List Nat
  hd : List Nat
  dests : List (Nat × Dest)
  nextDir : Dir
  cand : Option Nat
  nocall : Bool
  passed : List Nat
  ans : Option Answer
  oosHost : Bool
  oosTraction : Bool
  oosSafe : Bool
  bypass : Bool
  recallDone : Bool
  btnOn : List (Nat × Nat)
  btnArmed : List Nat
  btnStuck : List Nat
  /-- presses that wait for the button slot of the period -/
  btnPend : List Nat
  /-- calls where the car stands that wait for a case of R130: landing and call -/
  hereWait : List (Nat × Nat)
  deriving DecidableEq, Repr

/-- A round of the group (R142). -/
structure Round where
  key : Nat
  seq : Nat
  tag : Nat
  slot : Nat
  dest : Nat
  flags : Nat
  holder : Nat
  openUs : Nat
  deriving DecidableEq, Repr

/-- A known call of the group: key, SEQ, destination, holder, award tag, and when it was last heard. -/
structure GCall where
  key : Nat
  seq : Nat
  dest : Nat
  up : Bool
  holder : Option Nat
  tag : Nat
  /-- the tick of the award or the holder's last re-bid; of a WAIT call, of its last repeat -/
  lastAt : Nat
  /-- the tick of its last announcement -/
  annAt : Nat
  /-- the tick of its last close by NOBID, from which its repeat counts -/
  closeAt : Nat
  /-- the tick of its last announcement with ORPHAN (log entry 205) -/
  orphAt : Nat
  /-- the tick of the first announcement of this SEQ, on a time line that reaches back before this start -/
  firstAt : Option Int
  mine : Bool
  deriving DecidableEq, Repr

/-- A queued announcement or release (R143, R152). -/
structure BidReq where
  release : Bool
  key : Nat
  seq : Nat
  dest : Nat
  flags : Nat
  holder : Nat
  reason : Nat
  tag : Nat
  deriving DecidableEq, Repr

/-- The bid engine (chapter 8). -/
structure Bid where
  member : Member
  run : Bool
  round : Option Round
  lastRound : Option Round
  award : Option (Round × Nat)
  /-- awards heard, not yet in effect: the round, the winner, the tick -/
  pendAwards : List (Round × Nat × Nat)
  ownCost : Nat
  lastTag : Option Nat
  calls : List GCall
  queue : List BidReq
  /-- own announcement or release in transmit object 31 -/
  armed : Option BidReq
  bidArmed : Bool
  counter : Nat
  listenAt : Nat
  presses : List (Nat × Nat × Nat)
  cutAt : Option Nat
  okAt : Nat
  costs : List (Nat × Nat × Nat)
  query : Option Word
  releasing : List (Nat × Nat)
  deriving DecidableEq, Repr

/-- What a LEARN has in hand (R176): 0 homing, 1 to 6 the move under way, 7 all made; the sums and counts of the move's
force samples at full acceleration and in the cruise, in 0.1 N; where the move began; and what the moves made gave. -/
structure Learn where
  moves : Nat
  sumAcc : Int
  nAcc : Nat
  sumRun : Int
  nRun : Nat
  startPos : Int
  /-- F_acc and F_run of each move made -/
  forces : List (Int × Int)
  /-- the travel of each opening, µm -/
  travels : List Int
  deriving DecidableEq, Repr

/-- A door axis (chapter 9). -/
structure Door where
  st : DoorSt
  posLost : Bool
  fault : Nat
  spPos : Int
  spVel : Int
  spAcc : Int
  plan : Option Plan
  creep : Bool
  actPos : Int
  actVel : Int
  count : Int
  force : Int
  energy : Nat
  current : Nat
  theta : Int
  temp : Int
  iLim : Nat
  peakOut : Bool
  keLim : Bool
  fLim : Bool
  fCnt : Nat
  fHold : Nat
  stepCnt : Nat
  cl : Bool
  ol : Bool
  olWired : Bool
  lcClear : Bool
  lcCnt : Nat
  lcClearAt : Nat
  lcBlockAt : Option Nat
  armed : Bool
  hostArmed : Bool
  nudge : Bool
  uv : Bool
  ov : Bool
  /-- moving when the DOOR supply failed, and the stage switched off then (R159) -/
  moving : Bool
  wasOff : Bool
  defer : Bool
  retry : Nat
  obstruct : Nat
  stopAt : Nat
  lockAt : Option Nat
  stayOpen : Bool
  gearSeg : Nat
  gearCause : Nat
  gearLag : Int
  gearD : Int
  gearArc : Int
  afterStop : Option DoorSt
  reqAt : Nat
  cleanOpen : Bool
  cleanClose : Bool
  learn : Option Learn
  learned : Bool
  /-- what the always-on domain keeps while the stage is down (R174): the state left and the set-point position -/
  retSt : DoorSt
  retSp : Int
  homeTravel : Int
  evals : Nat
  /-- encoder reading at the closed stop; and at the start of a fault or supply fault -/
  cntZero : Int
  refCount : Int
  /-- a motion request that waits for the DOOR supply (Table 9.5): true is OPEN -/
  waitReq : Option Bool
  waitAt : Nat
  obsWait : Bool
  /-- the tick of the last profile point or plan: the set-point between points is interpolated (R157) -/
  spTick : Nat
  /-- the fault the stage reports at present (Table 9.8) -/
  fltNow : Nat
  /-- evaluations in a row with the DOOR supply below 20.0 V, above 21.0 V, above 64.0 V, below 62.0 V (R159) -/
  lowN : Nat
  upN : Nat
  highN : Nat
  downN : Nat
  /-- evaluations in a row with an unchanged encoder count -/
  restN : Nat
  /-- the last host motion command that acted, and its tick (R170) -/
  hostCmd : Option (Nat × Src)
  /-- stretches of evaluations with the current above the continuous limit, newest first (R158) -/
  peaks : List (Nat × Nat)
  deriving DecidableEq, Repr

/-- One binary safety input: its filtered level and the cycles its raw level has differed from it (R187). -/
structure Flt where
  lvl : Bool
  n : Nat
  deriving DecidableEq, Repr

/-- One Electrum channel (R180 to R184). -/
structure ElCh where
  /-- µm × 2^16 -/
  pos : Int
  /-- µm/s, over the 1.0 ms window of R198 -/
  vel : Int
  /-- the position steps of the last four cycles, µm × 2^16, newest first -/
  win : List Int
  abs : Bool
  /-- cycles of travel since a correction was last available (R183) -/
  absBad : Nat
  prev : Word
  /-- the encoder is lost; its fault-free cycles in a row (Table 3.1) -/
  encBad : Bool
  encGood : Nat
  /-- the channel's own speed band (R45, R209), by which it judges R52 and Table 3.1 -/
  band : Nat
  /-- the shaft reader on this channel's own receiver (R39, R51, R209, Table 3.5): its state, lost until it is VALID again,
  the cycle of the last accepted telegram, its probation, the telegrams in a row beyond POS_SR_ACCEPT, the conflict, and the
  sequence of the request at the last strobe -/
  srSt : SrcState
  srLost : Bool
  srAt : Nat
  srProb : Option SrProb
  srOver : Nat
  srConflict : Bool
  srHeard : Option Nat
  /-- the last five telegrams (µm, µs of the channel's time), newest first -/
  srHist : List (Int × Nat)
  dz : Bool
  /-- the channel's own judgement of its door-zone input (R52, R209), and lost until it is VALID again -/
  dzc : DzCh
  dzLost : Bool
  /-- CH_IN at or above 18 V, filtered (R184, R189) -/
  chOk : Flt
  taps : List Flt
  mirrors : List Flt
  cdmF : Flt
  cdmR : Flt
  /-- INS, PINS, EMER, UP, DN, RUN, KEY_RST, PIT_RST, PIT_DOOR, HEAD -/
  x22 : List Flt
  stoFb : Flt
  ucmRef : Int
  brkRef : Int
  /-- cycles for which each contradiction of R201 has held on this channel: three of the front side, three of the rear -/
  plaus : List Nat
  /-- its own copy of the SAFE configuration and of the LEVEL and HW words of the enabled landings (R180), and its digest -/
  copy : Cells
  digest : Word
  /-- the switch commands of this channel by slot of Table 10.2 (R185) -/
  outs : List Bool
  deriving DecidableEq, Repr

/-- Electrum's common state (chapter 10). -/
structure El where
  st : ElState
  a : ElCh
  b : ElCh
  /-- latched causes by bit of Table 10.3 -/
  causes : List Nat
  first : Option Nat
  /-- causes whose condition was present in the last cycle, and the last cycle each was present in -/
  present : List Nat
  /-- the tick of the last cycle: one cycle starts at the tick of every fourth period (R16, R181) -/
  cycAt : Option Nat
  lastPresent : List (Nat × Nat)
  cyc : Nat
  chain : Bool
  lockedAll : Bool
  lockedF : Bool
  lockedR : Bool
  perm : Bool
  bypOn : Bool
  relevGrant : Bool
  dzv : Option Nat
  proofPend : Bool
  proofF : Bool
  proofR : Bool
  proofOpenF : Bool
  proofOpenR : Bool
  proofLockF : Bool
  proofLockR : Bool
  mode : ElMode
  /-- cycles with no mode input and the chain closed (R202) -/
  modeOff : Nat
  pitLatch : Bool
  headLatch : Bool
  /-- INS as the last cycle showed it, and switched active since HEAD_LATCH set (R203) -/
  insWas : Bool
  insSeen : Bool
  govTripped : Bool
  nodes : List Bool
  chgAt : List Nat
  stoChgAt : Nat
  vlim : Nat
  /-- SAFE_OVS1_THR × 4,000: the ramp of R198 advances by SAFE_CAP_DEC a cycle -/
  ovs1 : Int
  deg : List DegMode
  expired : List DegMode
  /-- cycles of continuous VALID, and the timers in cycles (R210) -/
  degOk : List (DegMode × Nat)
  degCyc : List (DegMode × Nat)
  /-- SAFE_DEG.ACTIVE as last shown -/
  degWas : Nat
  /-- cycles with both speeds below 10 mm/s, and cycles with the common conditions of R191 -/
  quiet : Nat
  commonN : Nat
  /-- cycles for which each difference of R184 has held: CH_IN 0, taps 1 to 8, mirrors 9 to 12, position 13, speed 14, the
  decision on each output 15 to 23 -/
  disagree : List (Nat × Nat)
  pairBad : List (Nat × Nat)
  pitRst : Nat
  /-- when LSF_CTRL.RUN set, µs; none while Electrum is in START (Table 11.6) -/
  runUs : Option Nat
  ucmArmed : Bool
  brkArmed : Bool
  lastPulse : Option (Nat × Bool × Bool)
  /-- the rotation slot, counted from the first cycle, whose pulse has been scored (R206) -/
  pulsed : Option Nat
  /-- the switch that opens in the next pulse of each slot: true is B -/
  swNext : List Bool
  deriving DecidableEq, Repr

/-- One LSF slot (chapter 11). -/
structure LsfSlot where
  st : LsfSt
  conf : Bool
  confUs : Nat
  cause : Nat
  lastAge : Nat
  deadline : Nat
  seq : Nat
  crcUs : List Nat
  data : List Byte
  n : Nat
  valid : Bool
  infoSeq : Nat
  deriving DecidableEq, Repr

/-- A transmit object's progress (Table 12.3); its identifier, configuration and data are window words. -/
structure TxObj where
  res : TxResult
  aborted : Bool
  attempts : Nat
  sof : Nat
  /-- when it was aborted, µs: an attempt whose start of frame is no later was on the bus then (R239) -/
  abortUs : Nat
  /-- when its request was set, at the earliest and at the latest, µs (R238, log entry 206) -/
  reqUs : Nat
  reqLate : Nat
  deriving DecidableEq, Repr

/-- A receive object's contents (Table 12.3). -/
structure RxObj where
  len : Nat
  fdf : Bool
  brs : Bool
  esi : Bool
  new : Bool
  lost : Bool
  sof : Nat
  vp : Nat
  data : List Byte
  deriving DecidableEq, Repr

/-- A CAN controller (chapter 12). -/
structure Can where
  st : CanSt
  tec : Nat
  recE : Nat
  ackRun : Nat
  lec : Nat
  alone : Bool
  wake : Nat
  integrating : Bool
  tx : List (Nat × TxObj)
  rx : List (Nat × RxObj)
  /-- objects stored in the present period, and whether that store newly set LOST (R236) -/
  newNow : List (Nat × Bool)
  /-- the last validity point on its bus, µs (R238) -/
  lastVp : Option Nat
  deriving DecidableEq, Repr

/-- A field group (chapter 13). -/
structure Fiog where
  raw : Word
  q : List Nat
  filt : Word
  /-- the filters have had their first setting (R248, R256) -/
  set : Bool
  /-- channels that became INPUT since and wait for their first raw sample -/
  renew : Word
  out : Word
  /-- outputs whose command was written while the module was without authority (R258) -/
  wrote : Word
  supply : Supply
  /-- the supply has been measured since start-up -/
  seen : Bool
  mv : Nat
  grpOc : Bool
  tsd : Word
  tsdHot : Word
  tsdClr : Word
  dOpen : Word
  dSvf : Word
  dClim : Word
  dOvl : Word
  cosNow : Word
  deriving DecidableEq, Repr

/-- An LRP session (R265 to R267). -/
structure Session where
  isOpen : Bool
  port : Nat
  world : World
  keyId : Nat
  slot : Nat
  sid : Nat
  key : List Byte
  saltIn : List Byte
  saltOut : List Byte
  ctrIn : Nat
  ctrOut : Nat
  lastAt : Nat
  lastReq : Option (List Byte × List Byte)
  /-- source MAC, IP address and UDP port of the last datagram, for replies (R270) -/
  peer : List Byte
  deriving DecidableEq, Repr

/-- A burst that continues under R80. -/
structure Burst where
  via : Via
  req : List Byte
  src : Src
  addr : Nat
  words : List Word
  done : Nat
  deriving DecidableEq, Repr

/-- A host write waiting for its tick (R14): its source, address, value, and the burst it belongs to. A refusal that came
after a waiting clear of the same ERR waits too, with its code (R24). -/
structure Deferred where
  src : Src
  addr : Nat
  val : Word
  burst : Option Burst
  refused : Option Nat
  deriving DecidableEq, Repr

/-- The host port (chapter 14). -/
structure HostP where
  sessions : List (Option Session)
  sealBy : Option Nat
  sidNext : Nat
  spiLast : Option (List Byte × List Byte)
  spiResp : Option (List Byte)
  spiOut : List Byte
  waiting : List (Via × List Byte)
  budget : Nat
  ethOut : List (Nat × List Byte)
  ethBuf : List (Nat × List Byte)
  netOut : Bool
  deferred : List Deferred
  deriving DecidableEq, Repr

/-- The field silence timer (R257): its deadline in µs since start while it runs. -/
structure Sil where
  deadline : Option Nat
  silent : Bool
  deriving DecidableEq, Repr

/-- The mirrored state a standby holds (Table 15.4). -/
structure Mirror where
  calls : Option MirrorCalls
  doors : Option (MirrorDoor × MirrorDoor)
  run : Option MirrorRun
  deriving DecidableEq, Repr

/-- Pairing and authority (chapter 15). -/
structure Part where
  role : Role
  stable : Bool
  slotB : Bool
  band : Band
  loopUa : Nat
  bandAt : Nat
  latch : Bool
  pres : Present
  settle : Option Nat
  claimAt : Option Nat
  /-- while ISOLATED: since when the band has been one that ends it, and since when it has read valid (R6, R294) -/
  validAt : Option Nat
  readAt : Option Nat
  echoAt : Nat
  linkUp : Bool
  sync : Sync
  faulted : Bool
  xchHold : Option Nat
  stillAt : Option Nat
  txEpoch : Nat
  /-- the epoch that the last Mirror phase sent; the class contents sent last, none when an image is due; the digest sent
  last and when (R290, R291) -/
  sent : Option Epoch
  told : Option Mirror
  toldCfg : Option (List Byte × BitVec 2)
  cfgAt : Nat
  rxEpoch : Nat
  rxAt : Nat
  gotRx : Bool
  pendEpoch : Option Epoch
  shadow : Option Mirror
  mirror : Mirror
  peerDigest : Option (List Byte × BitVec 2)
  misRaised : Bool
  resyncing : Bool
  handOver : Bool
  mirrorDelay : Bool
  /-- ms of operating time to the next exchange (PART_XCH_DUE_S) -/
  xchDueMs : Nat
  /-- since when the order of service has been empty (R295) -/
  idleSince : Nat
  /-- the start of a 15 ms window of PRESENT while echoing (R294) -/
  window : Option Nat
  /-- the last epoch applied carried the final segment of an image (R296) -/
  segFinal : Bool
  /-- since when the data link is up -/
  linkAt : Nat
  /-- the next epoch starts a new sequence: the link came up, or a gap asked for an image (R291) -/
  rejoin : Bool
  /-- the tick at which the mirrored state was last complete and up to date -/
  goodAt : Nat
  /-- authority was lost in the present period (R17) -/
  lostNow : Bool
  /-- the mirrored DOORS stood up to date when the partner let go of authority (R292) -/
  doorsOk : Bool
  deriving DecidableEq, Repr

/-- A record (Table 16.2). -/
structure Rcd where
  typ : RecType
  source : Nat
  slot : Nat
  late : Bool
  noSnap : Bool
  noAuth : Bool
  clkFb : Bool
  pfail : Bool
  seq : Nat
  pcycle : Nat
  optime : Nat
  tick : Nat
  detail : Word
  snap : List Word
  todo : List Nat
  lost : Nat
  flush : Bool
  firedAt : Nat
  deriving DecidableEq, Repr

/-- A ring place in MRAM: a record, or what a failed write left. -/
inductive RingCell where
  | good (r : Rcd)
  | bad (seq : Nat)
  deriving DecidableEq, Repr

/-- The recorder (chapter 16). -/
structure Rec where
  seqNext : Nat
  pcycle : Nat
  optime : Nat
  subMs : Nat
  /-- staging places by index (s mod 64) -/
  places : List (Nat × Rcd)
  /-- unwritten records, oldest first -/
  unwritten : List Nat
  flushing : List Nat
  /-- writes of the flush's first record that have failed to read back (R308) -/
  tries : Nat
  flushReq : Bool
  ring : List (Nat × RingCell)
  newest : Option Nat
  /-- records lost since the last RECORDS_LOST record, and since the last record staged (R303, R307) -/
  lostCnt : Nat
  lostNew : Nat
  lostSrc : Nat
  wallValid : Bool
  wallOfs : Int
  prevOfs : Option Int
  mramErr : Bool
  rdPend : Bool
  rdData : List Byte
  rdStat : Nat
  stopped : Bool
  /-- the tick of a power-failure warning whose final save is still to come (R309) -/
  finalAt : Option Nat
  savedOp : Nat
  savedAt : Nat
  savedSeq : Nat
  /-- M9's budget is used up: no MRAM write until the next tick (R273) -/
  held : Bool
  deriving DecidableEq, Repr

/-- A key slot (R320, R321, R325, R326). -/
structure KeySlot where
  head : List Byte
  key : List Byte
  mask : Nat
  resident : Bool
  orphaned : Bool
  parent : Option Nat
  shadow : Option (List Byte × List Byte)
  deriving DecidableEq, Repr

/-- A running key command: its word, its source, the tick it was accepted, and once its irrevocable step is done (the
index of R329 committed, the first bit of R315 burnt, or the command found faulty) the index and the code it ends with. -/
structure KeyJob where
  cmd : Word
  src : Src
  at_ : Nat
  idx : Option Nat
  code : Option Nat
  deriving DecidableEq, Repr

/-- The two index records of an identity (R329); none: not valid. -/
structure IdxPair where
  a : Option Nat
  b : Option Nat
  lost : Bool
  deriving DecidableEq, Repr

/-- A public key place of OTP: present, revoked, the 56-byte key. -/
structure PubKey where
  present : Bool
  revoked : Bool
  bytes : List Byte
  deriving DecidableEq, Repr

/-- The key store (chapter 17). -/
structure Key where
  lcOtp : Lc
  service : Option Nat
  rootOk : Bool
  secOff : Bool
  root : List Byte
  stateRoot : List Byte
  wrap : List Byte
  idSeed : List Byte
  idI : List Byte
  idReady : Bool
  lowerBuild : Option Nat
  job : Option KeyJob
  orphans : List Nat
  slots : List (Nat × KeySlot)
  resident : List (Nat × List Byte)
  nonce : List Byte
  idx : List (Lc × IdxPair)
  vendorKeys : List PubKey
  oemKeys : List PubKey
  imgSvn : Nat
  serial : List Byte
  helper : List Byte
  /-- the SRAM response of the present start (R313) -/
  puf : List Byte
  remaskAt : Nat
  /-- a life-cycle state of which only the first bit is burnt, and the token that asked for it (R315) -/
  halfBurnt : Option (Lc × List Byte)
  result : Word
  deriving DecidableEq, Repr

/-- The tamper shield (R331 to R333). -/
structure Tamp where
  tampered : Bool
  active : BitVec 4
  cause : BitVec 4
  moment : Nat
  tamperNow : Bool
  deriving DecidableEq, Repr

/-- Clocks (chapter 18). -/
structure Clk where
  fallback : Bool
  cause : ClkCause
  xoOk : Bool
  ircOk : Bool
  rootLock : Bool
  backupLock : Bool
  ircFail : Bool
  acc1 : Bool
  fbTicks : Nat
  invarCount : Nat
  invarFails : Nat
  badWin : Nat
  frozen : Bool
  bootWord : Word
  /-- retries made since the first attempt of this start (Table 18.3) -/
  retries : Nat
  outPend : Option Word
  /-- the setting the CLKOUT pin follows now (R348) -/
  outCfg : Word
  /-- a CLK_GATE write whose drain is in progress: its port and value (R346) -/
  drain : Option (Nat × Word)
  gateSt : Word
  deriving DecidableEq, Repr

/-- A stored profile bank: generation, header signer, the object's bytes, and whether its digest check passes. -/
structure ProfBank where
  gen : Nat
  signed : Bool
  signer : Nat
  object : List Byte
  ok : Bool
  deriving DecidableEq, Repr

/-- Resets, profiles, supply and states (chapter 19). -/
structure Sys where
  run : RunState
  kind : ResetKind
  kinds : List ResetKind
  overrun : Bool
  slot : Nat
  slotOvr : Bool
  /-- the selected slot was valid at this start: its profile is applied (R4, R361) -/
  profValid : Bool
  pinDefer : Option Nat
  stuck : Bool
  btnArmed : Bool
  immediate : Bool
  sel : BitVec 2
  ordD : Bool
  banks : List (Nat × ProfBank)
  staging : Cells
  /-- a running store: its slot, the result word its checks gave, and the profile (R360) -/
  store : Option (Nat × Word × ProfBank)
  holdup : Bool
  pfw : Option Nat
  logicMv : Nat
  wake : WakeCause
  parkIdle : Nat
  aonPowered : Bool
  firstTick : Bool
  image : List Byte
  imgNew : Bool
  /-- the code of the last image update: 0 accepted, else the first failing check (R3, R319) -/
  imgCode : Nat
  imageSvn : Nat
  posSaved : Option (Int × Int × Nat × Int)
  kbSaved : Option (Nat × Int)
  /-- the tick of the last save of κ and b, or of the start (R55) -/
  kbAt : Nat
  deriving DecidableEq, Repr

/-- The interconnect (R272, R280): the host port's charges in the present period, its LAST and PEAK, and the tick of the
last CLR_PEAK. The other masters' grants are free values (log entry 7). -/
structure Xbar where
  used : Nat
  last : Nat
  peak : Nat
  clrAt : Nat
  deriving DecidableEq, Repr

end Sys2Proof.Machine
end

