-- ==== Sys2Proof/Machine/State.lean ====
section
/-! DEFINITION. The state of the module, the reasons a step could stop, and the state right after a power-on reset
takes effect: every register at its reset value, every block stopped, the queue empty, before the first start attempt
(R351, R338, R353). -/

namespace Sys2Proof.Machine

/-- No command of this block faults: every row has an effect for every state. The type has no constructor. -/
inductive Fault where
  deriving DecidableEq, Repr

/-- Reasons a command is refused by the model. -/
inductive Refusal where
  /-- Raised by an arm of `exec` whose command has no meaning yet; safe. -/
  | notModelled (mnemonic : String)
  deriving DecidableEq, Repr

/-- The whole state. -/
structure State where
  /-- commands waiting, first in first out -/
  pending : List Instr
  /-- servo-period index, counted from the start of this power cycle (R303) -/
  tick : Nat
  /-- the tick at which the last start attempt reached its first tick; the CAN time base counts from here (R241) -/
  baseTick : Nat
  /-- the model's own counter of free values drawn (log entry 5) -/
  fresh : Nat
  /-- registers and window words that differ from what they read at reset -/
  rf : Cells
  /-- interrupt bits raised in the present period, by page (R25) -/
  irqNow : Cells
  pos : Pos
  lwb : Lwb
  mot : Mot
  drv : Drv
  sch : Sch
  bid : Bid
  doorF : Door
  doorR : Door
  el : El
  lsf : List LsfSlot
  can : List Can
  fiog : List Fiog
  host : HostP
  sil : Sil
  part : Part
  rcd : Rec
  key : Key
  tamp : Tamp
  clk : Clk
  sys : Sys
  xbar : Xbar
  deriving DecidableEq, Repr

/-- A source before observation starts (Table 3.5). -/
def SrcWatch.reset : SrcWatch := ⟨.absent, 0⟩

/-- An encoder channel at reset. -/
def EncCh.reset : EncCh := ⟨SrcWatch.reset, 0, []⟩

/-- The shaft-reader channel at reset. -/
def SrCh.reset : SrCh where
  st := .absent
  reqSeq := 0
  reqOut := false
  reqAt := 0
  reqFrame := []
  pend := none
  newest := none
  lastAt := 0
  overN := 0
  conflict := false
  prob := none
  passed := false

/-- A door-zone channel at reset. -/
def DzCh.reset : DzCh where
  st := .absent
  active := false
  wiring := false
  lostByWiring := false
  edges := []
  misses := 0
  zones := []
  good := 0
  capture := none
  captureUs := 0

/-- The estimator at reset; what R53 restores is restored at the start. -/
def Pos.reset : Pos where
  p := 0
  v := 0
  a := 0
  s := 0
  kap := 0
  b := 0
  e := 0
  e2 := 0
  d := 0
  loadKg := 0
  seq := 0
  band := 0
  abs := false
  restored := false
  traction := false
  dzMismatch := false
  encDisagree := false
  enc1 := EncCh.reset
  enc2 := EncCh.reset
  acc := SrcWatch.reset
  accFull := 0
  sr := SrCh.reset
  dza := DzCh.reset
  dzb := DzCh.reset
  load := .absent
  sHist := []
  slipRate := 0
  tractTicks := 0
  tractStep := false
  diffTicks := 0
  agreeTicks := 0
  cal := none
  innovSr := 0
  innovDz := 0
  validWas := false
  wasRun := false

/-- The load-weighing bridge at reset (Table 3.9: UNCAL is 1 until both values have been stored). -/
def Lwb.reset : Lwb where
  raw := 0
  y := 0
  first := true
  openWire := false
  exc := false
  overRange := false
  faultConv := 0
  okConv := 0
  valid := false
  held := 0
  zeroStored := false
  spanStored := false
  cal := none

/-- The run engine at reset (Table 4.8). -/
def Mot.reset : Mot where
  phase := .idle
  up := false
  committed := false
  target := 0
  targetPos := 0
  csrc := .none
  keptHorizon := false
  plan := none
  sp := ⟨0, 0, 0, 0⟩
  spSeq := 0
  stopPos := 0
  ramped := false
  blend := false
  follow := false
  followN := 0
  followErr := 0
  cap := 0xFFFFFFFF
  specVel := 0
  runType := .none
  hstep := .none
  homeErr := .none
  homeTravel := 0
  backTravel := 0
  backArmed := false
  chat := 0
  refWas := false
  homeBack := false
  moved := false
  relevCnt := 0
  relevTicks := 0
  relevBlocked := false
  relevPend := false
  landing := 0
  landValid := false
  posChk := false
  autoTicks := 0
  holdRun := false
  proofDoors := []
  proofOpen := false
  trunPend := false
  relevGo := false

/-- The drive port at reset (Table 6.8). -/
def Drv.reset : Drv where
  iface := 0
  step := .off
  stepAt := 0
  readyAt := none
  ready := false
  energise := false
  follow := false
  wdog := false
  fault := false
  timeout := false
  hist := []
  miss := 0
  seq := 0
  framed := false
  frame := []
  delim := false
  okResp := false
  checked := true
  faultRst := 0
  sdoDone := false
  sdoSent := false
  sync := 0
  syncUs := 0
  tpdo := false
  tpdoLast := false
  rdy := false
  rdyMiss := 0
  ie := 0
  anNext := 0
  stepP0 := 0
  stepN := 0
  pulses := 0
  liftReq := false
  stoFb := false
  linkUp := false

/-- The stop scheduler at reset (Table 7.9). -/
def Sch.reset : Sch where
  cc := []
  hu := []
  hd := []
  dests := []
  nextDir := .none
  cand := none
  nocall := false
  passed := []
  ans := none
  oosHost := false
  oosTraction := false
  oosSafe := false
  bypass := false
  recallDone := false
  btnOn := []
  btnArmed := []
  btnStuck := []
  btnPend := []
  hereWait := []

/-- The bid engine at reset (Table 8.7). -/
def Bid.reset : Bid where
  member := .off
  run := false
  round := none
  lastRound := none
  award := none
  pendAwards := []
  ownCost := 0xFFFF
  lastTag := none
  calls := []
  queue := []
  armed := none
  bidArmed := false
  counter := 0
  listenAt := 0
  presses := []
  cutAt := none
  okAt := 0
  costs := []
  query := none
  releasing := []

/-- A door axis at reset (Table 9.8: POS_LOST is 1). -/
def Door.reset : Door where
  st := .off
  posLost := true
  fault := 0
  spPos := 0
  spVel := 0
  spAcc := 0
  plan := none
  creep := false
  actPos := 0
  actVel := 0
  count := 0
  force := 0
  energy := 0
  current := 0
  theta := 0
  temp := 0
  iLim := 0
  peakOut := false
  keLim := false
  fLim := false
  fCnt := 0
  fHold := 0
  stepCnt := 0
  cl := false
  ol := false
  olWired := false
  lcClear := false
  lcCnt := 0
  lcClearAt := 0
  lcBlockAt := none
  armed := false
  hostArmed := false
  nudge := false
  uv := false
  ov := false
  moving := false
  wasOff := false
  defer := false
  retry := 0
  obstruct := 0
  stopAt := 0
  lockAt := none
  stayOpen := false
  gearSeg := 0
  gearCause := 0
  gearLag := 0
  gearD := 0
  gearArc := 0
  afterStop := none
  reqAt := 0
  cleanOpen := false
  cleanClose := false
  learn := none
  learned := false
  retSt := .off
  retSp := 0
  homeTravel := 0
  evals := 0
  cntZero := 0
  refCount := 0
  waitReq := none
  waitAt := 0
  obsWait := false
  spTick := 0
  fltNow := 0
  lowN := 0
  upN := 0
  highN := 0
  downN := 0
  restN := 0
  hostCmd := none
  peaks := []

/-- A binary safety input at reset. -/
def Flt.reset : Flt := ⟨false, 0⟩

/-- An Electrum channel at reset (R183: position 0 with ABS clear). -/
def ElCh.reset : ElCh where
  pos := 0
  vel := 0
  win := []
  abs := false
  absBad := 0
  prev := 0
  encBad := false
  encGood := 0
  band := 0
  srSt := .probation
  srLost := false
  srAt := 0
  srProb := none
  srOver := 0
  srConflict := false
  srHeard := none
  srHist := []
  dz := false
  dzc := { DzCh.reset with st := .probation }
  dzLost := false
  chOk := Flt.reset
  taps := List.replicate 8 Flt.reset
  mirrors := List.replicate 4 Flt.reset
  cdmF := Flt.reset
  cdmR := Flt.reset
  x22 := List.replicate 10 Flt.reset
  stoFb := Flt.reset
  ucmRef := 0
  brkRef := 0
  plaus := List.replicate 6 0
  copy := []
  digest := 0
  outs := List.replicate 9 false

/-- Electrum at a power-on reset: START, everything off, the proof pending (R192, R208, Table 10.9). -/
def El.reset : El where
  st := .start
  a := ElCh.reset
  b := ElCh.reset
  causes := []
  first := none
  present := []
  cycAt := none
  lastPresent := []
  cyc := 0
  chain := false
  lockedAll := false
  lockedF := false
  lockedR := false
  perm := false
  bypOn := false
  relevGrant := false
  dzv := none
  proofPend := true
  proofF := false
  proofR := false
  proofOpenF := false
  proofOpenR := false
  proofLockF := false
  proofLockR := false
  mode := .normal
  modeOff := 0
  pitLatch := false
  headLatch := false
  insWas := false
  insSeen := false
  govTripped := false
  nodes := List.replicate 9 false
  chgAt := List.replicate 9 0
  stoChgAt := 0
  vlim := 300000
  ovs1 := 1380000000
  deg := []
  expired := []
  degOk := []
  degCyc := []
  degWas := 0
  quiet := 0
  commonN := 0
  disagree := []
  pairBad := []
  pitRst := 0
  runUs := none
  ucmArmed := false
  brkArmed := false
  lastPulse := none
  pulsed := none
  swNext := List.replicate 9 false

/-- An LSF slot at reset. -/
def LsfSlot.reset : LsfSlot where
  st := .off
  conf := false
  confUs := 0
  cause := 0
  lastAge := 0
  deadline := 0
  seq := 0
  crcUs := []
  data := []
  n := 0
  valid := false
  infoSeq := 0

/-- A CAN controller at reset (R246: OFF until the profile is applied). -/
def Can.reset : Can where
  st := .off
  tec := 0
  recE := 0
  ackRun := 0
  lec := 0
  alone := false
  wake := 0
  integrating := false
  tx := []
  rx := []
  newNow := []
  lastVp := none

/-- A field group at reset. -/
def Fiog.reset : Fiog where
  raw := 0
  q := List.replicate 32 0
  filt := 0
  set := false
  renew := 0
  out := 0
  wrote := 0
  supply := .ok
  seen := false
  mv := 0
  grpOc := false
  tsd := 0
  tsdHot := 0
  tsdClr := 0
  dOpen := 0
  dSvf := 0
  dClim := 0
  dOvl := 0
  cosNow := 0

/-- The host port at reset: no session, no stored response. -/
def HostP.reset : HostP where
  sessions := List.replicate 4 none
  sealBy := none
  sidNext := 1
  spiLast := none
  spiResp := none
  spiOut := []
  waiting := []
  budget := 1200
  ethOut := []
  ethBuf := []
  netOut := false
  deferred := []

/-- The pairing block at reset (Table 15.8). -/
def Part.reset : Part where
  role := .init
  stable := false
  slotB := false
  band := .openBand
  loopUa := 0
  bandAt := 0
  latch := false
  pres := .noSink
  settle := none
  claimAt := none
  validAt := none
  readAt := none
  echoAt := 0
  linkUp := false
  sync := .none
  faulted := false
  xchHold := none
  stillAt := none
  txEpoch := 0
  sent := none
  told := none
  toldCfg := none
  cfgAt := 0
  rxEpoch := 0
  rxAt := 0
  gotRx := false
  pendEpoch := none
  shadow := none
  mirror := ⟨none, none, none⟩
  peerDigest := none
  misRaised := false
  resyncing := false
  handOver := false
  mirrorDelay := false
  xchDueMs := 86400000
  idleSince := 0
  window := none
  segFinal := false
  linkAt := 0
  rejoin := true
  goodAt := 0
  lostNow := false
  doorsOk := false

/-- The recorder of a module with an empty ring. -/
def Rec.reset : Rec where
  seqNext := 0
  pcycle := 0
  optime := 0
  subMs := 0
  places := []
  unwritten := []
  flushing := []
  tries := 0
  flushReq := false
  ring := []
  newest := none
  lostCnt := 0
  lostNew := 0
  lostSrc := 0
  wallValid := false
  wallOfs := 0
  prevOfs := none
  mramErr := false
  rdPend := false
  rdData := []
  rdStat := 0
  stopped := false
  finalAt := none
  savedOp := 0
  savedAt := 0
  savedSeq := 0
  held := false

/-- The key store of a module as it comes before enrolment (BLANK): nothing stored in OTP or MRAM. -/
def Key.reset : Key where
  lcOtp := .blank
  service := none
  rootOk := false
  secOff := false
  root := []
  stateRoot := []
  wrap := []
  idSeed := []
  idI := []
  idReady := false
  lowerBuild := none
  job := none
  orphans := []
  slots := []
  resident := []
  nonce := []
  idx := []
  vendorKeys := List.replicate 2 ⟨false, false, []⟩
  oemKeys := List.replicate 4 ⟨false, false, []⟩
  imgSvn := 0
  serial := List.replicate 8 0
  helper := []
  puf := []
  remaskAt := 0
  halfBurnt := none
  result := 0

/-- Clocks at a power-on reset, the first attempt running (R338, Table 18.8). -/
def Clk.reset : Clk where
  fallback := false
  cause := .none
  xoOk := false
  ircOk := false
  rootLock := false
  backupLock := false
  ircFail := false
  acc1 := false
  fbTicks := 0
  invarCount := 0
  invarFails := 0
  badWin := 0
  frozen := false
  bootWord := 0
  retries := 0
  outPend := none
  outCfg := 0
  drain := none
  gateSt := 0x0FFF_FFFF

/-- Resets, supply and profiles at a power-on reset of a module with no stored profile. -/
def Sys.reset : Sys where
  run := .attempt
  kind := .por
  kinds := [.por]
  overrun := false
  slot := 0
  slotOvr := false
  profValid := false
  pinDefer := none
  stuck := false
  btnArmed := true
  immediate := false
  sel := 0
  ordD := true
  banks := []
  staging := []
  store := none
  holdup := false
  pfw := none
  logicMv := 0
  wake := .none
  parkIdle := 0
  aonPowered := true
  firstTick := false
  image := []
  imgNew := false
  imgCode := 0
  imageSvn := 0
  posSaved := none
  kbSaved := none
  kbAt := 0

/-- The state right after a power-on reset takes effect: class P at its defaults until the start applies a profile,
class A and V at their reset values, class N as a module that has stored nothing holds it (Table 19.2, log entry 3). -/
def State.reset : State where
  pending := []
  tick := 0
  baseTick := 0
  fresh := 0
  rf := []
  irqNow := []
  pos := Pos.reset
  lwb := Lwb.reset
  mot := Mot.reset
  drv := Drv.reset
  sch := Sch.reset
  bid := Bid.reset
  doorF := Door.reset
  doorR := Door.reset
  el := El.reset
  lsf := List.replicate 32 LsfSlot.reset
  can := List.replicate 4 Can.reset
  fiog := List.replicate 8 Fiog.reset
  host := HostP.reset
  sil := ⟨none, false⟩
  part := Part.reset
  rcd := Rec.reset
  key := Key.reset
  tamp := ⟨false, 0, 0, 0, false⟩
  clk := Clk.reset
  sys := Sys.reset
  xbar := ⟨0, 0, 0, 0⟩

end Sys2Proof.Machine
end

