-- ==== Sys2Proof/Machine/Ops.lean ====
section
/-! DEFINITION. The named operations over registers and time: the word store and its canonical form, register reads and
writes by field, interrupt bits, saturating counters, and elapsed times. -/

namespace Sys2Proof.Machine

/-- The SYS page (Table 2.2). -/
@[reducible] def pgSys : Nat := 0x0
/-- The CLK page (Table 2.2). -/
@[reducible] def pgClk : Nat := 0x1
/-- The PWR page (Table 2.2). -/
@[reducible] def pgPwr : Nat := 0x2
/-- The XBAR page (Table 2.2). -/
@[reducible] def pgXbar : Nat := 0x3
/-- The HOST page (Table 2.2). -/
@[reducible] def pgHost : Nat := 0x4
/-- The POS page (Table 2.2). -/
@[reducible] def pgPos : Nat := 0x8
/-- The MOT page (Table 2.2). -/
@[reducible] def pgMot : Nat := 0x9
/-- The DRV page (Table 2.2). -/
@[reducible] def pgDrv : Nat := 0xa
/-- The SCH page (Table 2.2). -/
@[reducible] def pgSch : Nat := 0xb
/-- The BID page (Table 2.2). -/
@[reducible] def pgBid : Nat := 0xc
/-- The SAFE page (Table 2.2). -/
@[reducible] def pgSafe : Nat := 0x10
/-- The LSF page (Table 2.2). -/
@[reducible] def pgLsf : Nat := 0x11
/-- The FIO page (Table 2.2). -/
@[reducible] def pgFio : Nat := 0x1c
/-- The PART page (Table 2.2). -/
@[reducible] def pgPart : Nat := 0x28
/-- The REC page (Table 2.2). -/
@[reducible] def pgRec : Nat := 0x2c
/-- The KEY page (Table 2.2). -/
@[reducible] def pgKey : Nat := 0x30
/-- The TAMP page (Table 2.2). -/
@[reducible] def pgTamp : Nat := 0x31
/-- The LWB page (Table 2.2). -/
@[reducible] def pgLwb : Nat := 0x34

/-- The entry at an address, if listed. -/
def Cells.find : Cells → Nat → Option Word
  | [], _ => none
  | (b, w) :: r, a => if a < b then none else if a = b then some w else Cells.find r a

/-- Store a word where an unlisted address `a` reads `d`: the form stays canonical. -/
def Cells.put (d : Word) : Cells → Nat → Word → Cells
  | [], a, w => if w = d then [] else [(a, w)]
  | (b, v) :: r, a, w =>
    if a < b then (if w = d then (b, v) :: r else (a, w) :: (b, v) :: r)
    else if a = b then (if w = d then r else (a, w) :: r)
    else (b, v) :: Cells.put d r a w

/-- A code the module may report (R33), of a free byte: a code of Table 2.9, or a block-specific code from 0x40. -/
def reportable (b : Byte) : Nat :=
  let n := b.toNat
  if n = 0 then 1 else if 0x10 ≤ n ∧ n < 0x40 then n + 0x30 else n

/-- Read with a default. -/
def Cells.get (c : Cells) (d : Word) (a : Nat) : Word := (c.find a).getD d

/-- Canonical form over reset values `d`: addresses strictly rising, no entry equal to its reset value. -/
def Cells.wf (d : Nat → Word) : Cells → Bool
  | [] => true
  | [(a, w)] => w != d a
  | (a, w) :: (b, v) :: r => a < b && w != d a && Cells.wf d ((b, v) :: r)

/-- Bits [lo+width-1:lo] of a word. -/
def Word.bits (w : Word) (lo width : Nat) : Nat := (w.toNat >>> lo) % 2 ^ width

/-- One bit of a word. -/
def Word.bit (w : Word) (i : Nat) : Bool := w.toNat.testBit i

/-- A word with bits [lo+width-1:lo] set to `v`. -/
def Word.setBits (w : Word) (lo width v : Nat) : Word :=
  BitVec.ofNat 32 (w.toNat - (Word.bits w lo width <<< lo) + ((v % 2 ^ width) <<< lo))

/-- The number of a bit: 0 or 1. -/
def b2n (b : Bool) : Nat := if b then 1 else 0

/-- The word of a natural number, wrapped. -/
def wordN (n : Nat) : Word := BitVec.ofNat 32 n

/-- The word of a signed number, wrapped. -/
def wordI (i : Int) : Word := BitVec.ofInt 32 i

/-- A signed value saturated to 32 bits (R44). -/
def sat32 (i : Int) : Int := min (max i (-2147483648)) 2147483647

/-- sat(x, m) of R43. -/
def satTo (x m : Int) : Int := min (max x (-m)) m

/-- A natural value saturated at a largest one. -/
def satN (n m : Nat) : Nat := min n m

/-- The value of the bits set in a word, as bit numbers. -/
def bitsOf (w : Nat) (n : Nat) : List Nat := (List.range n).filter (fun i => w.testBit i)

/-- The number with the given bits set. -/
def ofBits (l : List Nat) : Nat := l.foldl (fun acc i => acc ||| (1 <<< i)) 0

/-- Every `RegSpec` place of a register at offset `o`. -/
def RegSpec.covers (r : RegSpec) (o : Nat) : Bool :=
  r.off ≤ o && (o - r.off) % r.stride == 0 && (o - r.off) / r.stride < r.count

/-- The register at offset `o` of a page's list. -/
def findReg (l : List RegSpec) (o : Nat) : Option RegSpec := l.find? (fun r => r.covers o)

/-- The reset value of a register or window word (the page tables; window words read 0). -/
def regReset (a : Nat) : Word :=
  if a < 0x100000 then
    match pageRegs (a / 4096) with
    | none => 0
    | some l => match findReg l (a % 4096) with
      | none => 0
      | some r => BitVec.ofNat 32 r.reset
  else 0

/-- The retention class of an address; the header registers are V, landing-table words P, receive identifiers P. -/
def regClass (a : Nat) : Cls :=
  if a < 0x100000 then
    match pageRegs (a / 4096) with
    | none => .v
    | some l => match findReg l (a % 4096) with
      | none => .v
      | some r => r.cls
  else if 0x150000 ≤ a ∧ a < 0x154000 then .p
  else if a < 0x140000 ∧ a % 0x10000 < 0x4000 ∧ a % 0x80 = 0 then .p
  else .v

/-- The stored word of a register or window address. -/
def State.rd (s : State) (a : Nat) : Word := s.rf.get (regReset a) a

/-- The stored word as a number. -/
def State.rn (s : State) (a : Nat) : Nat := (s.rd a).toNat

/-- The stored word as a signed number (Table 0.5). -/
def State.ri (s : State) (a : Nat) : Int := (s.rd a).toInt

/-- Bits of a stored word. -/
def State.rf_ (s : State) (a lo width : Nat) : Nat := Word.bits (s.rd a) lo width

/-- A bit of a stored word. -/
def State.rb (s : State) (a i : Nat) : Bool := Word.bit (s.rd a) i

/-- Store a word. -/
def State.wr (s : State) (a : Nat) (w : Word) : State := { s with rf := s.rf.put (regReset a) a w }

/-- Store a number. -/
def State.wn (s : State) (a n : Nat) : State := s.wr a (wordN n)

/-- Store a signed number. -/
def State.wi (s : State) (a : Nat) (i : Int) : State := s.wr a (wordI i)

/-- Store bits of a word. -/
def State.wf_ (s : State) (a lo width v : Nat) : State := s.wr a (Word.setBits (s.rd a) lo width v)

/-- Add one to a counter field, saturating at all ones. -/
def State.bump (s : State) (a lo width : Nat) : State :=
  s.wf_ a lo width (min (s.rf_ a lo width + 1) (2 ^ width - 1))

/-- Raise interrupt bit `i` of page `pg` (R25): latched in IRQ_RAW, and remembered for this period. -/
def State.raise (s : State) (pg i : Nat) : State :=
  let a := pg * 4096 + 0x14
  let t := s.wf_ a i 1 1
  { t with irqNow := t.irqNow.put 0 pg (Word.setBits (t.irqNow.get 0 pg) i 1 1) }

/-- IRQ_STATUS of a page: IRQ_RAW AND IRQ_EN (Table 2.3). -/
def State.irqStatus (s : State) (pg : Nat) : Word := s.rd (pg * 4096 + 0x14) &&& s.rd (pg * 4096 + 0x18)

/-- Servo periods in a number of milliseconds. -/
def msTicks (ms : Nat) : Nat := ms * 16

/-- Whether at least `n` ticks have passed since tick `t`. -/
def State.since (s : State) (t n : Nat) : Bool := t + n ≤ s.tick

/-- The index of the present period: the first servo tick of a start is 0. -/
def State.period (s : State) : Nat := s.tick - s.baseTick

/-- The time base of R241, µs since the first tick of this start. -/
def State.us (s : State) : Nat := (s.tick - s.baseTick) * 125 / 2

/-- The tick's time in ns since the first tick of this start (R12: 62.5 µs a period). -/
def State.ns (s : State) : Nat := (s.tick - s.baseTick) * 62500

/-- One more free value drawn (log entry 5). -/
def State.draw (s : State) : State := { s with fresh := s.fresh + 1 }

/-- `n` random bytes at the present draw. -/
def State.randBytes (s : State) (n : Nat) : List Byte := (List.range n).map (Config.randomByte s.fresh)

/-- Element `i` of a list, with a default. -/
def nth {α : Type} (l : List α) (i : Nat) (d : α) : α := (l[i]?).getD d

/-- An association list's value at a key. -/
def alook {α : Type} (l : List (Nat × α)) (k : Nat) : Option α := (l.find? (fun x => x.1 == k)).map (·.2)

/-- An association list with the value at a key replaced or added, keys in rising order. -/
def aput {α : Type} (l : List (Nat × α)) (k : Nat) (v : α) : List (Nat × α) :=
  match l with
  | [] => [(k, v)]
  | (j, u) :: r => if k < j then (k, v) :: (j, u) :: r else if k = j then (k, v) :: r else (j, u) :: aput r k v

/-- An association list without a key. -/
def adel {α : Type} (l : List (Nat × α)) (k : Nat) : List (Nat × α) := l.filter (fun x => x.1 != k)

/-- Insert into a strictly rising list of numbers. -/
def setIns : List Nat → Nat → List Nat
  | [], n => [n]
  | m :: r, n => if n < m then n :: m :: r else if n = m then m :: r else m :: setIns r n

/-- Remove from a list of numbers. -/
def setDel (l : List Nat) (n : Nat) : List Nat := l.filter (fun m => m != n)

/-- Fold a state change over a list. -/
def each {α : Type} (l : List α) (s : State) (f : State → α → State) : State := l.foldl f s

/-- Whether a module role holds authority with its latch set (R285). -/
def State.authority (s : State) : Bool :=
  s.part.latch && s.part.settle.isNone && (s.part.role == .solo || s.part.role == .active)

/-- Whether outputs may be on: authority (R284), and a valid profile (R4). -/
def State.outputsMay (s : State) : Bool := s.authority && s.sys.profValid

/-- Integer square root by bisection over `n` bits (isqrt of R164, R199). -/
def isqrtBits : Nat → Nat → Nat → Nat
  | 0, _, r => r
  | k + 1, x, r => let t := r + 2 ^ k; isqrtBits k x (if t * t ≤ x then t else r)

/-- The integer square root, rounded down. -/
def isqrt (x : Nat) : Nat := isqrtBits ((Nat.log2 x) / 2 + 1) x 0

end Sys2Proof.Machine
end

