-- ==== Sys2Proof/Machine/Operands.lean ====
section
/-! DEFINITION. Operand forms: bytes and words, the CRCs of R38, R217 and R291, the landing table (Table 7.1), field
channels, and the fields of frames. -/

namespace Sys2Proof.Machine

/-- The number of bytes, least significant first. -/
def leNat : List Byte → Nat
  | [] => 0
  | b :: r => b.toNat + 256 * leNat r

/-- `n` bytes of a number, least significant first. -/
def natLe : Nat → Nat → List Byte
  | 0, _ => []
  | n + 1, x => BitVec.ofNat 8 x :: natLe n (x / 256)

/-- The 4 bytes of a word, least significant first. -/
def wordLe (w : Word) : List Byte := natLe 4 w.toNat

/-- The words of a byte list, 4 bytes each. -/
def leWords : List Byte → List Word
  | a :: b :: c :: d :: r => wordN (leNat [a, b, c, d]) :: leWords r
  | _ => []

/-- Bytes `i` to `i + n - 1`. -/
def slice (l : List Byte) (i n : Nat) : List Byte := (l.drop i).take n

/-- Byte `i`, 0 beyond the end. -/
def byteAt (l : List Byte) (i : Nat) : Nat := (nth l i 0).toNat

/-- The signed value of `n` bits. -/
def signed (n x : Nat) : Int := (BitVec.ofNat n x).toInt

/-- One bit of a CRC shifted out at the top (not reflected). -/
def crcMsbBit (poly width : Nat) (c : Nat) : Nat :=
  let sh := (c * 2) % 2 ^ width
  if c.testBit (width - 1) then sh ^^^ poly else sh

/-- `k` bits of a not-reflected CRC. -/
def crcMsbBits (poly width : Nat) : Nat → Nat → Nat
  | 0, c => c
  | k + 1, c => crcMsbBits poly width k (crcMsbBit poly width c)

/-- CRC-16/CCITT of R38: polynomial 0x1021, initial 0xFFFF, not reflected, no final XOR. -/
def crc16 (l : List Byte) : Nat :=
  l.foldl (fun c b => crcMsbBits 0x1021 16 8 (c ^^^ (b.toNat * 256))) 0xFFFF

/-- The CRC-16 sent most significant byte first. -/
def crc16Bytes (l : List Byte) : List Byte := let c := crc16 l; [BitVec.ofNat 8 (c / 256), BitVec.ofNat 8 c]

/-- One bit of a reflected CRC. -/
def crcLsbBit (poly c : Nat) : Nat := if c % 2 = 1 then (c / 2) ^^^ poly else c / 2

/-- `k` bits of a reflected CRC. -/
def crcLsbBits (poly : Nat) : Nat → Nat → Nat
  | 0, c => c
  | k + 1, c => crcLsbBits poly k (crcLsbBit poly c)

/-- A reflected CRC-32 with initial value and final XOR 0xFFFF_FFFF; `poly` is bit-reversed. -/
def crc32r (poly : Nat) (l : List Byte) : Nat :=
  (l.foldl (fun c b => crcLsbBits poly 8 (c ^^^ b.toNat)) 0xFFFFFFFF) ^^^ 0xFFFFFFFF

/-- The safety CRC of R217: polynomial 0xF4ACFB13, reflected. -/
def safetyCrc (l : List Byte) : Nat := crc32r 0xC8DF352F l

/-- The CRC-32 of IEEE 802.3 (R291). -/
def crc32 (l : List Byte) : Nat := crc32r 0xEDB88320 l

/-- The landing-table word `o` of landing `n` (Table 7.1). -/
def State.lt (s : State) (n o : Nat) : Word := s.rf.get 0 (0x150000 + 0x40 * n + o)

/-- The level of a landing, µm. -/
def State.level (s : State) (n : Nat) : Int := (s.lt n 0).toInt

/-- The door-zone half-width of a landing, µm. -/
def State.hw (s : State) (n : Nat) : Int := (s.lt n 4).toInt

/-- A flag bit of a landing. -/
def State.ltBit (s : State) (n i : Nat) : Bool := Word.bit (s.lt n 8) i

/-- Whether a landing is enabled. -/
def State.enabled (s : State) (n : Nat) : Bool := s.ltBit n 0

/-- Whether a door side serves a landing. -/
def State.serves (s : State) (n : Nat) (c : Chan) : Bool :=
  match c with
  | .a => s.ltBit n 1
  | .b => s.ltBit n 2

/-- The enabled landings, lowest first: the listed flag words with EN set. -/
def State.landings (s : State) : List Nat :=
  s.rf.filterMap (fun (a, w) =>
    if 0x150000 ≤ a && a < 0x154000 && a % 0x40 == 8 && Word.bit w 0 then some ((a - 0x150000) / 0x40) else none)

/-- The enabled landing nearest to a position, the lower index on a tie. -/
def nearestOf (lev : Nat → Int) (p : Int) : List Nat → Option Nat
  | [] => none
  | n :: r => match nearestOf lev p r with
    | none => some n
    | some m => if (lev n - p).natAbs ≤ (lev m - p).natAbs then some n else some m

/-- The nearest enabled landing. -/
def State.nearest (s : State) (p : Int) : Option Nat := nearestOf s.level p s.landings

/-- The zone offset of a door-zone channel (R40). -/
def State.dzOfs (s : State) (c : Chan) : Int :=
  match c with
  | .a => s.ri posDzaOfs
  | .b => s.ri posDzbOfs

/-- The landing whose zone, shifted by `ofs`, holds a position in µm. -/
def State.zoneOf (s : State) (ofs p : Int) : Option Nat :=
  s.landings.find? (fun n => decide (s.level n - s.hw n + ofs ≤ p) && decide (p ≤ s.level n + s.hw n + ofs))

/-- The terminal enabled landing in a direction. -/
def State.terminal (s : State) (up : Bool) : Option Nat := if up then s.landings.getLast? else s.landings.head?

/-- A field group's state by number 1 to 8. -/
def State.grp (s : State) (g : Nat) : Fiog := nth s.fiog (g - 1) Fiog.reset

/-- Replace a field group's state. -/
def State.setGrp (s : State) (g : Nat) (f : Fiog) : State := { s with fiog := s.fiog.set (g - 1) f }

/-- The page of field group `g` (R247). -/
@[reducible] def grpPage (g : Nat) : Nat := 0x1C + g

/-- The configuration word of field channel `c` (R247, Table 13.7). -/
def State.chCfg (s : State) (c : Nat) : Word := s.rd (fiogChCfg (grpPage (c / 32 + 1)) + 4 * (c % 32))

/-- The filtered state of field channel `c` (R248). -/
def State.chIn (s : State) (c : Nat) : Bool := Word.bit (s.grp (c / 32 + 1)).filt (c % 32)

/-- Set or clear the command of field channel `c`. -/
def State.chCmd (s : State) (c : Nat) (on : Bool) : State :=
  let g := s.grp (c / 32 + 1)
  s.setGrp (c / 32 + 1) { g with out := Word.setBits g.out (c % 32) 1 (b2n on) }

/-- A CAN controller. -/
def State.cann (s : State) (n : Nat) : Can := nth s.can n Can.reset

/-- Replace a CAN controller. -/
def State.setCan (s : State) (n : Nat) (c : Can) : State := { s with can := s.can.set n c }

/-- The page of a CAN controller. -/
@[reducible] def canPage (n : Nat) : Nat := 0x14 + n

/-- An LSF slot. -/
def State.lsfn (s : State) (n : Nat) : LsfSlot := nth s.lsf n LsfSlot.reset

/-- Replace an LSF slot. -/
def State.setLsf (s : State) (n : Nat) (c : LsfSlot) : State := { s with lsf := s.lsf.set n c }

/-- A door axis. -/
def State.door (s : State) (c : Chan) : Door :=
  match c with
  | .a => s.doorF
  | .b => s.doorR

/-- Replace a door axis. -/
def State.setDoor (s : State) (c : Chan) (d : Door) : State :=
  match c with
  | .a => { s with doorF := d }
  | .b => { s with doorR := d }

/-- The page of a door axis. -/
@[reducible] def doorPage (c : Chan) : Nat :=
  match c with
  | .a => 0xD
  | .b => 0xE

/-- A register of a door axis, as a number. -/
def State.dr (s : State) (c : Chan) (r : Nat → Nat) : Nat := s.rn (r (doorPage c))

/-- Whether a door axis is enabled (DOORx_CFG.EN). -/
def State.doorEn (s : State) (c : Chan) : Bool := s.rb (doorCfg (doorPage c)) 0

/-- The enabled door axes, front first. -/
def State.doorsIn (s : State) : List Chan := [Chan.a, Chan.b].filter s.doorEn

/-- Electrum's view of a door side as closed and locked (R189). -/
def State.locked (s : State) (c : Chan) : Bool :=
  match c with
  | .a => s.el.lockedF
  | .b => s.el.lockedR

/-- "Every door is closed and locked" (R167): each enabled axis in CLOSED with LOCKED. -/
def State.doorsClosed (s : State) : Bool := s.doorsIn.all (fun c => (s.door c).st == .closed && s.locked c)

/-- POS_STATUS.VALID (R54): ENC1 VALID and ABS. -/
def State.posValid (s : State) : Bool := s.pos.enc1.w.st == .valid && s.pos.abs

/-- Rounding of R44: (x + 32,768) >> 16, saturated to signed 32 bits. -/
def round16 (x : Int) : Int := sat32 ((x + 32768) / 65536)

/-- POS_EST_POS, µm. -/
def State.estPos (s : State) : Int := round16 s.pos.p

/-- POS_EST_VEL, µm/s. -/
def State.estVel (s : State) : Int := round16 s.pos.v

/-- MOT_SP_POS, µm. -/
def State.spPos (s : State) : Int := round16 s.mot.sp.x

/-- The writer MOT_CTRL.SRC: true when the host writes run commands. -/
def State.hostRuns (s : State) : Bool := s.rb motCtrl 0

/-- Both brake circuits' mirrors show applied in both channels (MIR3, MIR4 high, Table 20.5). -/
def El.brakeApplied (e : El) : Bool :=
  [e.a, e.b].all (fun c => (nth c.mirrors 2 Flt.reset).lvl && (nth c.mirrors 3 Flt.reset).lvl)

/-- Both brake circuits' mirrors show lifted. -/
def El.brakeLifted (e : El) : Bool :=
  [e.a, e.b].all (fun c => !(nth c.mirrors 2 Flt.reset).lvl && !(nth c.mirrors 3 Flt.reset).lvl)

/-- Both main-contactor mirrors show dropped. -/
def El.mcDropped (e : El) : Bool :=
  [e.a, e.b].all (fun c => (nth c.mirrors 0 Flt.reset).lvl && (nth c.mirrors 1 Flt.reset).lvl)

/-- Both main-contactor mirrors show pulled in. -/
def El.mcIn (e : El) : Bool :=
  [e.a, e.b].all (fun c => !(nth c.mirrors 0 Flt.reset).lvl && !(nth c.mirrors 1 Flt.reset).lvl)

/-- A commanded output of Table 10.2. -/
def El.out (e : El) (slot : Nat) : Bool := nth e.a.outs slot false && nth e.b.outs slot false

/-- The two channels. -/
def El.chans (e : El) : List ElCh := [e.a, e.b]

/-- Both channel speeds below 10 mm/s. -/
def El.still (e : El) : Bool := e.chans.all (fun c => decide (c.vel.natAbs < 10000))

/-- A word that each channel of Electrum keeps a copy of (R180): the SAFE configuration, and LEVEL and HW of landings. -/
def copied (a : Nat) : Bool :=
  (decide (0x10100 ≤ a) && decide (a < 0x10158)) ||
    (decide (0x150000 ≤ a) && decide (a < 0x154000) && (a % 0x40 == 0 || a % 0x40 == 4))

/-- The copy that a channel takes (R180): landings that are enabled. -/
def State.elCopyNow (s : State) : Cells :=
  s.rf.filter (fun x => copied x.1 && (decide (x.1 < 0x150000) || s.landings.contains ((x.1 - 0x150000) / 0x40)))

/-- Both channels take their copies (R192, R211). -/
def State.elTake (s : State) : State :=
  let k := s.elCopyNow
  { s with el := { s.el with a := { s.el.a with copy := k }, b := { s.el.b with copy := k } } }

/-- The configuration and landings as a channel's own copy has them (R180). -/
def State.own (s : State) (c : ElCh) : State :=
  { s with rf := c.copy.foldl (fun r x => Cells.put (regReset x.1) r x.1 x.2) (s.rf.filter (fun x => !copied x.1)) }

/-- The SCH in-service condition (R133): no out-of-service cause, and a valid profile (R4). -/
def State.inService (s : State) : Bool :=
  s.sys.profValid && s.rb schCtrl 0 && !s.sch.oosHost && !s.sch.oosTraction && !s.sch.oosSafe

/-- The life-cycle state in force (R316: SERVICE is volatile). -/
def State.lc (s : State) : Lc := if s.key.service.isSome then .service else s.key.lcOtp

end Sys2Proof.Machine

namespace Sys2Proof

/-- The ranks of worlds: CONTROL < SERVICE < VENDOR (R322). -/
def World.rank : World → Nat
  | .control => 0
  | .service => 1
  | .vendor => 2

end Sys2Proof
end

