-- ==== Sys2Proof/Machine/Flags.lean ====
section
/-! DEFINITION. Flag computations: the status words of every page, as the field tables lay them out, computed from the
state of the blocks. -/

namespace Sys2Proof

/-- Codes of POS_SRC (Table 3.7). -/
def SrcState.code : SrcState → Nat
  | .absent => 0
  | .valid => 1
  | .lost => 2
  | .probation => 3

/-- Codes of MOT_STATUS.PHASE (Table 4.8). -/
def Phase.code : Phase → Nat
  | .idle => 0
  | .prep => 1
  | .speed => 2
  | .approach => 3
  | .stopping => 4
  | .landed => 5
  | .holding => 6
  | .held => 7
  | .tripped => 8
  | .special => 9

/-- Codes of COMMIT_SRC. -/
def CommitSrc.code : CommitSrc → Nat
  | .none => 0
  | .scheduler => 1
  | .host => 2
  | .horizon => 3

/-- Codes of Table 5.6. -/
def RunType.code : RunType → Nat
  | .none => 0
  | .correction => 1
  | .recovery => 2
  | .relevelling => 3

/-- Codes of HSTEP. -/
def HStep.code : HStep → Nat
  | .none => 0
  | .backoff => 1
  | .search => 2
  | .final => 3

/-- Codes of HOME_ERR. -/
def HomeErr.code : HomeErr → Nat
  | .none => 0
  | .limit => 1
  | .chatter => 2
  | .noref => 3
  | .mismatch => 4
  | .hold => 5
  | .trip => 6

/-- Codes of DRV_STATUS.STEP. -/
def DrvStep.code : DrvStep → Nat
  | .off => 0
  | .magnetise => 1
  | .preload => 2
  | .lift => 3
  | .follow => 4
  | .drop => 5

/-- Codes of directions (Table 7.9). -/
def Dir.code : Dir → Nat
  | .none => 0
  | .up => 1
  | .down => 2

/-- Codes of BID_STATUS.MEMBER. -/
def Member.code : Member → Nat
  | .off => 0
  | .listen => 1
  | .member => 2
  | .island => 3

/-- Codes of CANn_STATUS.STATE. -/
def CanSt.code : CanSt → Nat
  | .off => 0
  | .errorActive => 1
  | .errorPassive => 2
  | .busOff => 3
  | .sleep => 4

/-- Whether Bellmetal bids in a mode (Table 7.4). -/
def SchMode.bids : SchMode → Bool
  | .collective => true
  | .downCollective => true
  | .destination => true
  | .independent => false
  | .recall => false

/-- Codes of DOORx_STATUS.STATE. -/
def DoorSt.code : DoorSt → Nat
  | .off => 0
  | .unref => 1
  | .homing => 2
  | .closed => 3
  | .opening => 4
  | .opened => 5
  | .closing => 6
  | .reversing => 7
  | .geared => 8
  | .stopped => 9
  | .learn => 10
  | .fault => 11

/-- Codes of SAFE_STATUS.STATE. -/
def ElState.code : ElState → Nat
  | .start => 0
  | .normal => 1
  | .tripped => 2

/-- Codes of SAFE_STATUS.MODE. -/
def ElMode.code : ElMode → Nat
  | .normal => 0
  | .ins => 1
  | .pins => 2
  | .emer => 3
  | .multi => 4

/-- Codes of SAFE_TRIP_FIRST.KIND. -/
def TripKind.code : TripKind → Nat
  | .auto => 0
  | .host => 1
  | .service => 2
  | .pit => 3
  | .power => 4

/-- The code bit of a timed degraded mode (Table 10.10). -/
def DegMode.bit : DegMode → Nat
  | .sr => 0
  | .enc2 => 1
  | .dz => 2
  | .load => 3

/-- Codes of LSF_Cn_STATUS.STATE. -/
def LsfSt.code : LsfSt → Nat
  | .off => 0
  | .wait => 1
  | .run => 2
  | .failed => 3

/-- Codes of FIOGg_STATUS.SUPPLY. -/
def Supply.code : Supply → Nat
  | .ok => 0
  | .low => 1
  | .uvlo => 2
  | .missing => 3

/-- Whether a group's supply leaves outputs on and inputs live (Table 13.3). -/
def Supply.good : Supply → Bool
  | .ok => true
  | .low => true
  | .uvlo => false
  | .missing => false

/-- Codes of worlds. -/
def World.code : World → Nat
  | .control => 0
  | .service => 1
  | .vendor => 2

/-- Codes of PART_STATUS.ROLE. -/
def Role.code : Role → Nat
  | .init => 0
  | .solo => 1
  | .active => 2
  | .standby => 3
  | .isolated => 4

/-- Codes of PART_STATUS.BAND. -/
def Band.code : Band → Nat
  | .openBand => 0
  | .absent => 1
  | .present => 2
  | .claiming => 3
  | .short => 4
  | .invalid => 5

/-- Codes of PART_STATUS.SYNC. -/
def Sync.code : Sync → Nat
  | .none => 0
  | .synced => 1
  | .stale => 2

/-- Codes of KEY_STATUS.LC. -/
def Lc.code : Lc → Nat
  | .blank => 0
  | .vendor => 1
  | .oem => 2
  | .field => 3
  | .service => 4
  | .retired => 5

/-- Codes of CLK_STATUS.CAUSE. -/
def ClkCause.code : ClkCause → Nat
  | .none => 0
  | .stop => 1
  | .freq => 2
  | .pll => 3
  | .xoStart => 4

/-- Codes of reset kinds (Table 19.1). -/
def ResetKind.code : ResetKind → Nat
  | .por => 0
  | .bor => 1
  | .pin => 2
  | .wdog => 3
  | .soft => 4
  | .safe => 5
  | .part => 6
  | .clk => 7
  | .deep => 8

/-- WAKE codes (Table 19.8). -/
def WakeCause.code : WakeCause → Nat
  | .none => 0
  | .wakePin => 1
  | .can _ => 2
  | .timer => 3
  | .tamper => 4
  | .host => 5
  | .fieldOrCall => 6
  | .safetyOrBand => 7

/-- WAKE_CAN. -/
def WakeCause.cans : WakeCause → Nat
  | .can c => c.toNat
  | _ => 0

end Sys2Proof

namespace Sys2Proof.Machine

/-- Pack fields (lowest bit, width, value) into a word. -/
def pack (l : List (Nat × Nat × Nat)) : Word :=
  wordN (l.foldl (fun acc f => acc + ((f.2.2 % 2 ^ f.2.1) <<< f.1)) 0)

/-- Pack single bits, bit 0 first. -/
def packBits (l : List Bool) : Word := wordN (l.foldr (fun b acc => b2n b + 2 * acc) 0)

/-- POS_SRC. -/
def State.posSrcW (s : State) : Word :=
  pack [(0, 2, s.pos.enc1.w.st.code), (2, 2, s.pos.enc2.w.st.code), (4, 2, s.pos.sr.st.code),
    (6, 2, s.pos.dza.st.code), (8, 2, s.pos.dzb.st.code), (10, 2, s.pos.acc.st.code), (12, 2, s.pos.load.code)]

/-- POS_STATUS (Table 3.7). -/
def State.posStatusW (s : State) : Word :=
  pack [(0, 1, s.rf_ posCtrl 0 1), (1, 1, b2n s.posValid), (2, 1, b2n s.pos.abs), (3, 1, b2n s.pos.restored),
    (4, 2, s.pos.band), (6, 1, b2n s.pos.traction), (7, 1, b2n s.pos.sr.conflict), (8, 1, b2n s.pos.dzMismatch),
    (9, 1, b2n s.pos.encDisagree), (10, 1, b2n s.pos.dza.active), (11, 1, b2n s.pos.dzb.active),
    (12, 1, b2n s.pos.cal.isSome)]

/-- The bridge counts as lost (R65): EN is 1 and VALID is 0. -/
def State.lwbLost (s : State) : Bool := s.rb lwbCtrl 0 && !s.lwb.valid

/-- LWB_STATUS.UNCAL: ZERO or SPAN never stored. -/
def Lwb.uncal (l : Lwb) : Bool := !(l.zeroStored && l.spanStored)

/-- LWB_STATUS (Table 3.9). -/
def State.lwbStatusW (s : State) : Word :=
  packBits [s.lwb.valid && s.rb lwbCtrl 0, s.lwb.openWire, s.lwb.exc, s.lwb.overRange, s.lwb.cal.isSome, s.lwb.uncal]

/-- LWB_LOAD_KG (R64). -/
def State.loadKg (s : State) : Nat := if s.rb lwbCtrl 0 then s.lwb.y.toNat else 0

/-- LWB_LOAD_PCT (R64), saturating at 255. -/
def State.loadPct (s : State) : Nat := min (s.loadKg * 100 / s.rn lwbRatedKg) 255

/-- MOT_STATUS. -/
def State.motStatusW (s : State) : Word :=
  pack [(0, 4, s.mot.phase.code), (4, 1, b2n s.mot.committed), (5, 1, b2n s.mot.up), (6, 2, s.mot.csrc.code),
    (8, 1, b2n (decide (s.mot.cap < s.rn motVmax))), (9, 1, b2n s.mot.blend), (10, 1, b2n s.mot.follow),
    (11, 1, b2n s.mot.ramped)]

/-- MOT_VCAP (R82): the lower of the live VMAX and Electrum's cap as it took effect. -/
def State.vcap (s : State) : Nat := min (s.rn motVmax) s.mot.cap

/-- MOT_RT_STATUS.LEVEL (R91). -/
def State.isLevel (s : State) : Bool :=
  s.mot.landValid && decide ((s.estPos - s.level s.mot.landing).natAbs ≤ s.rn motLevelAcc)

/-- MOT_RT_STATUS. -/
def State.motRtStatusW (s : State) : Word :=
  pack [(0, 2, s.mot.runType.code), (2, 2, s.mot.hstep.code), (4, 3, s.mot.homeErr.code), (7, 1, b2n s.isLevel),
    (8, 1, b2n s.mot.landValid), (9, 1, b2n s.mot.posChk), (12, 4, min s.mot.relevCnt 15), (16, 8, s.mot.landing),
    (24, 4, min s.mot.chat 15)]

/-- The interface in use, DRV_CFG.IF. -/
def State.drvIf (s : State) : Nat := s.drv.iface

/-- DRV_STATUS. -/
def State.drvStatusW (s : State) : Word :=
  pack [(0, 3, s.drv.step.code), (3, 1, b2n s.drv.ready), (4, 1, b2n s.drv.wdog), (5, 1, b2n s.drv.fault),
    (6, 1, b2n s.drv.linkUp), (7, 1, b2n s.lwbLost), (8, 1, b2n s.drv.timeout)]

/-- DRV_LINK: MISS beside the counters kept in the register. -/
def State.drvLinkW (s : State) : Word := Word.setBits (s.rd drvLink) 0 3 (min s.drv.miss 7)

/-- Whether MOT is IDLE. -/
def State.motIdle (s : State) : Bool := s.mot.phase == .idle

/-- SCH_STATUS (Table 7.9). CAND shows the candidate in SPEED and the target from commitment to LANDED (R126). -/
def State.schStatusW (s : State) : Word :=
  let shown : Option Nat :=
    if s.mot.committed && s.mot.phase != .idle then some s.mot.target
    else if s.mot.phase == .speed then s.sch.cand else none
  pack [(0, 3, s.rf_ schMode 0 3), (3, 1, s.rf_ schCtrl 0 1), (4, 1, b2n s.inService),
    (5, 2, if s.motIdle then 0 else if s.mot.up then 1 else 2), (7, 2, s.sch.nextDir.code),
    (9, 1, b2n s.sch.bypass), (10, 1, b2n (shown.isSome && s.sch.nocall)), (11, 1, b2n s.sch.ans.isSome),
    (12, 1, b2n s.sch.recallDone), (13, 1, b2n shown.isSome), (16, 8, shown.getD 0)]

/-- SCH_OOS. -/
def State.schOosW (s : State) : Word := packBits [s.sch.oosHost, s.sch.oosTraction, s.sch.oosSafe]

/-- SCH_ANSWER (Table 7.9). -/
def State.schAnswerW (s : State) : Word :=
  match s.sch.ans with
  | none => 0
  | some a => pack [(0, 8, a.landing), (8, 1, b2n a.cc), (9, 1, b2n a.hu), (10, 1, b2n a.hd),
      (11, 1, b2n (!a.dests.isEmpty)), (12, 1, 1)]

/-- SCH_CALL_CNT. -/
def State.schCallCntW (s : State) : Word := pack [(0, 9, s.sch.cc.length), (16, 10, s.sch.hu.length + s.sch.hd.length)]

/-- Destination entries in use. -/
def State.destCount (s : State) : Nat := (s.sch.dests.filter (fun d => d.2.state != .free)).length

/-- The mode in force (Table 7.4); codes 5-7 cannot be written. -/
def State.mode (s : State) : SchMode :=
  match s.rf_ schMode 0 3 with
  | 0 => .collective
  | 1 => .downCollective
  | 2 => .destination
  | 3 => .independent
  | _ => .recall

/-- R149 apart from what depends on the key: BID_STATUS.ELIGIBLE. -/
def State.bidEligible (s : State) : Bool :=
  s.bid.member == .member && s.rb bidCfg 6 && !s.rb bidCtrl 1 && (s.cann 2).st == .errorActive && s.inService &&
    s.mode.bids && !s.sch.bypass && decide (s.loadPct < 80)

/-- BID_CTRL: RUN beside PAUSE. -/
def State.bidCtrlW (s : State) : Word := Word.setBits (s.rd bidCtrl) 0 1 (b2n s.bid.run)

/-- BID_STATUS. -/
def State.bidStatusW (s : State) : Word :=
  pack [(0, 2, s.bid.member.code), (2, 1, b2n s.bidEligible), (3, 1, b2n s.bid.round.isSome), (4, 1, b2n s.bid.bidArmed),
    (5, 1, b2n ((s.cann 2).st == .errorPassive)), (8, 4, s.bid.lastTag.getD 0), (16, 7, s.bid.queue.length + b2n s.bid.armed.isSome)]

/-- BID_ROUND. -/
def State.bidRoundW (s : State) : Word :=
  match s.bid.round with
  | some r => pack [(0, 16, r.key), (16, 4, r.tag), (20, 6, r.slot), (31, 1, 1)]
  | none => match s.bid.lastRound with
    | some r => pack [(0, 16, r.key), (16, 4, r.tag), (20, 6, r.slot)]
    | none => 0

/-- BID_AWARD. -/
def State.bidAwardW (s : State) : Word :=
  match s.bid.award with
  | some (r, car) => pack [(0, 16, r.key), (16, 4, r.tag), (20, 6, car), (31, 1, 1)]
  | none => 0

/-- Periods since the last re-bid or repeat of a call, saturating at 15 (Table 8.7). -/
def State.silentPeriods (s : State) (c : GCall) : Nat :=
  let p := msTicks (if c.holder.isSome then s.rn bidRebidMs else s.rn bidRepeatMs)
  if p = 0 then 0 else min ((s.tick - c.lastAt) / p) 15

/-- A BID_GCL word, for call type `t` and landing `n`. -/
def State.bidGclW (s : State) (t n : Nat) : Word :=
  match s.bid.calls.find? (fun c => c.key == n * 256 + t * 64) with
  | none => 0
  | some c => pack [(0, 16, c.seq), (16, 6, c.holder.getD 0), (22, 1, b2n c.holder.isSome), (23, 1, b2n c.holder.isNone),
      (24, 4, c.tag), (28, 4, s.silentPeriods c)]

/-- PERMIT of R165; none without a valid profile (R4). -/
def State.permit (s : State) (c : Chan) : Bool :=
  let d := s.door c
  s.doorEn c && s.outputsMay && d.st != .fault && !d.posLost &&
    (s.mot.phase == .idle || s.mot.phase == .landed || s.mot.phase == .held || s.mot.phase == .tripped) &&
    s.pos.band == 0 &&
    (match s.el.dzv with
     | some n => s.serves n c
     | none => false)

/-- DOORx_STATUS (Table 9.8). -/
def State.doorStatusW (s : State) (c : Chan) : Word :=
  let d := s.door c
  pack [(0, 4, d.st.code), (4, 1, b2n d.posLost), (5, 1, b2n d.learned), (6, 1, b2n (s.locked c)), (7, 1, b2n d.cl),
    (8, 1, b2n d.ol), (9, 1, b2n d.lcClear), (10, 1, b2n d.keLim), (11, 1, b2n d.fLim), (12, 1, b2n d.armed),
    (13, 1, b2n d.nudge), (14, 1, b2n (decide (d.iLim < s.dr c doorICeil) && d.evals != 0)), (15, 1, b2n d.uv),
    (16, 1, b2n d.ov), (17, 1, b2n (s.permit c)), (18, 1, b2n d.defer), (19, 1, b2n d.learn.isSome),
    (20, 3, min d.retry 7)]

/-- The reset kind of a cause by bit of Table 10.3. -/
def causeKind : Nat → TripKind
  | 0 | 1 | 12 | 16 => .auto
  | 4 | 6 | 10 | 14 | 15 => .host
  | 11 => .pit
  | 17 | 18 | 19 => .power
  | _ => .service

/-- SAFE_STATUS.OOS (R210, R202). -/
def State.elOos (s : State) : Bool :=
  !s.el.expired.isEmpty || s.el.mode != .normal || s.el.pitLatch || s.el.headLatch || s.clk.fallback ||
    s.el.causes.any (fun c => causeKind c != .auto)

/-- SAFE_STATUS (Table 10.10). -/
def State.safeStatusW (s : State) : Word :=
  pack [(0, 2, s.el.st.code), (2, 1, b2n s.el.perm), (3, 1, b2n s.el.bypOn), (4, 1, b2n s.el.dzv.isSome),
    (5, 1, b2n s.el.proofPend), (6, 1, b2n s.elOos), (7, 3, s.el.mode.code), (10, 1, b2n s.el.pitLatch),
    (11, 1, b2n s.el.headLatch), (12, 1, b2n s.el.a.abs), (13, 1, b2n s.el.b.abs), (14, 1, b2n s.el.chain),
    (15, 1, b2n s.el.lockedAll), (16, 1, b2n s.el.lockedF), (17, 1, b2n s.el.lockedR), (18, 1, b2n s.el.govTripped),
    (19, 1, b2n (decide (s.el.vlim < s.rn safeVRated))), (24, 8, s.el.dzv.getD 0)]

/-- SAFE_TRIP. -/
def State.safeTripW (s : State) : Word := wordN (ofBits s.el.causes)

/-- SAFE_TRIP_FIRST. -/
def State.safeFirstW (s : State) : Word :=
  match s.el.first with
  | none => 0
  | some c => pack [(0, 5, c), (5, 3, (causeKind c).code), (31, 1, 1)]

/-- SAFE_TAPS. -/
def State.safeTapsW (s : State) : Word :=
  let t (c : ElCh) : Nat := ofBits ((List.range 8).filter (fun i => (nth c.taps i Flt.reset).lvl))
  pack [(0, 8, t s.el.a), (8, 8, t s.el.b), (16, 1, b2n s.el.a.cdmF.lvl), (17, 1, b2n s.el.b.cdmF.lvl),
    (18, 1, b2n s.el.a.cdmR.lvl), (19, 1, b2n s.el.b.cdmR.lvl), (24, 1, b2n s.el.a.chOk.lvl)]

/-- SAFE_OUT: MIRROR is 1 when the mirror input is low (Table 20.5). -/
def State.safeOutW (s : State) : Word :=
  let m (i : Nat) : Nat := b2n (!(nth s.el.a.mirrors i Flt.reset).lvl)
  pack [(0, 9, ofBits ((List.range 9).filter s.el.out)), (16, 9, ofBits ((List.range 9).filter (fun i => nth s.el.nodes i false))),
    (25, 1, m 0), (26, 1, m 1), (27, 1, m 2), (28, 1, m 3),
    (29, 1, b2n (if s.rf_ safeCfg 3 2 = 2 then s.drv.stoFb else s.el.a.stoFb.lvl))]

/-- SAFE_DEG. -/
def State.safeDegW (s : State) : Word :=
  pack [(0, 4, ofBits (s.el.deg.map DegMode.bit)),
    (4, 1, b2n (s.rb posCtrl 4 && s.pos.acc.st != .valid)), (5, 1, b2n s.clk.fallback),
    (8, 4, ofBits (s.el.expired.map DegMode.bit))]

/-- SAFE_TEST counts in its register; slot, switch and score come from the last pulse. -/
def State.safeTestW (s : State) : Word :=
  match s.el.lastPulse with
  | none => s.rd safeTest
  | some (slot, sw, ok) => Word.setBits (pack [(0, 4, slot), (4, 1, b2n sw), (5, 1, b2n ok)]) 16 16 (s.rf_ safeTest 16 16)

/-- LSF slots' configuration word. -/
def State.lsfCfg (s : State) (n : Nat) : Word := s.rd (lsfCnCfg + 0x20 * n)

/-- Whether LSF slot `n` is enabled. -/
def State.lsfEn (s : State) (n : Nat) : Bool := Word.bit (s.lsfCfg n) 0

/-- Whether LSF slot `n` is a producer. -/
def State.lsfProd (s : State) (n : Nat) : Bool := Word.bit (s.lsfCfg n) 1

/-- LSF_STATUS. -/
def State.lsfStatusW (s : State) : Word :=
  let cnt (f : Nat → Bool) : Nat := ((List.range 32).filter f).length
  pack [(0, 6, cnt (fun n => s.lsfEn n && !s.lsfProd n)), (8, 6, cnt (fun n => s.lsfEn n && s.lsfProd n)),
    (16, 6, cnt (fun n => (s.lsfn n).st == .failed))]

/-- The slots in a state, as a mask. -/
def State.lsfMask (s : State) (st : LsfSt) : Word := wordN (ofBits ((List.range 32).filter (fun n => (s.lsfn n).st == st)))

/-- LSF_Cn_STATUS. -/
def State.lsfSlotStatusW (s : State) (n : Nat) : Word :=
  let l := s.lsfn n
  pack [(0, 2, l.st.code), (2, 1, b2n l.conf), (4, 2, l.cause), (8, 8, l.lastAge),
    (16, 16, if l.st == .run && !s.lsfProd n then (l.deadline - s.us) / 1000 else 0)]

/-- The safe value of a consumer slot (R226): LSF_Cn_SAFE in bytes 0-3, 0 beyond. -/
def State.lsfSafe (s : State) (n : Nat) : List Byte := wordLe (s.rd (lsfCnSafe + 0x20 * n)) ++ List.replicate 44 0

/-- What slot `n` delivers: received data only in RUN, else its safe value (R224, R226); a producer's last image. -/
def State.lsfDelivered (s : State) (n : Nat) : List Byte :=
  if (s.lsfn n).st == .run then (s.lsfn n).data else s.lsfSafe n

/-- LSF_Dn_INFO. -/
def State.lsfInfoW (s : State) (n : Nat) : Word :=
  let l := s.lsfn n
  pack [(0, 1, b2n l.valid), (8, 6, l.n), (16, 16, l.infoSeq)]

/-- Whether triple sampling applies (R232): AUTO at or below 125 kbit/s, ON always, OFF never. -/
def State.nominalRate (s : State) (n : Nat) : Nat :=
  let w := s.rd (canNbt (canPage n))
  40000000 / ((Word.bits w 0 5 + 1) * (1 + (Word.bits w 5 8 + 1) + (Word.bits w 13 7 + 1)))

/-- The data bit rate (R231). -/
def State.dataRate (s : State) (n : Nat) : Nat :=
  let w := s.rd (canDbt (canPage n))
  40000000 / ((Word.bits w 0 5 + 1) * (1 + (Word.bits w 5 5 + 1) + (Word.bits w 10 4 + 1)))

/-- CANn_STATUS.TS_ON. -/
def State.tripleOn (s : State) (n : Nat) : Bool :=
  match s.rf_ (canCfg (canPage n)) 1 2 with
  | 0 => decide (s.nominalRate n ≤ 125000)
  | 1 => true
  | _ => false

/-- CANn_STATUS. -/
def State.canStatusW (s : State) (n : Nat) : Word :=
  let c := s.cann n
  pack [(0, 3, c.st.code), (3, 1, b2n c.alone), (4, 1, b2n (s.tripleOn n)), (5, 1, b2n (decide (1000000 < s.dataRate n))),
    (6, 1, b2n s.clk.fallback), (8, 3, c.wake)]

/-- CANn_ERRC. -/
def State.canErrcW (s : State) (n : Nat) : Word :=
  let c := s.cann n
  pack [(0, 8, min c.tec 255), (8, 8, min c.recE 255), (16, 6, min c.ackRun 63), (24, 3, c.lec)]

/-- CANn_CTRL: RUN beside SLEEP. -/
def State.canCtrlW (s : State) (n : Nat) : Word :=
  pack [(0, 1, b2n ((s.cann n).st != .off || (s.cann n).integrating)), (1, 1, s.rf_ (canCtrl (canPage n)) 1 1)]

/-- CANn_TX_PEND. -/
def State.canPendW (s : State) (n : Nat) : Word :=
  wordN (ofBits (((s.cann n).tx.filter (fun o => o.2.res == .pending && decide (o.1 < 32))).map (·.1)))

/-- The channels of a group in a mode (FIOGg_CHn_CFG.MODE). -/
def State.modeMask (s : State) (g m : Nat) : List Nat :=
  (List.range 32).filter (fun c => s.rf_ (fiogChCfg (grpPage g) + 4 * c) 0 2 == m)

/-- FIOGg_STATUS. -/
def State.fiogStatusW (s : State) (g : Nat) : Word :=
  let f := s.grp g
  pack [(0, 2, f.supply.code), (2, 1, b2n (f.supply.good && f.set)), (3, 1, b2n f.grpOc),
    (4, 1, s.rf_ (fiogFilt (grpPage g)) 4 1)]

/-- The signal a door-owned output follows (R254): FUNC 0 NUDGE, 1 the axis in OPEN, 2 LOCKED. -/
def State.doorSignal (s : State) (c : Chan) (func : Nat) : Bool :=
  match func with
  | 0 => (s.door c).nudge
  | 1 => (s.door c).st == .opened
  | _ => s.locked c

/-- A scheduler-owned lamp (R132): on while its car call is set and not answered; off in RECALL. -/
def State.schLamp (s : State) (ch : Nat) : Bool :=
  s.mode != .recall && s.sch.cc.any (fun n =>
    Word.bit (s.lt n 0x10) 17 && Word.bits (s.lt n 0x10) 8 8 == ch &&
      !(match s.sch.ans with
        | some a => a.cc && a.landing == n
        | none => false))

/-- The owner's command of channel `i` of group `g`: the command register, a lamp, or a door signal (R132, R254). -/
def State.ownerCmd (s : State) (g i : Nat) : Bool :=
  let cfg := s.rd (fiogChCfg (grpPage g) + 4 * i)
  match Word.bits cfg 2 2 with
  | 1 => s.schLamp (32 * (g - 1) + i)
  | 2 => s.doorSignal .a (Word.bits cfg 8 2)
  | 3 => s.doorSignal .b (Word.bits cfg 8 2)
  | _ => Word.bit (s.grp g).out i

/-- The command of output `i` of group `g` with the silence timeout taken in (Table 13.2, lines 4 and 5). -/
def State.effectiveCmd (s : State) (g i : Nat) : Bool :=
  let f (lo w : Nat) : Nat := s.rf_ (fiogChCfg (grpPage g) + 4 * i) lo w
  if s.sil.silent && f 2 2 == 0 then
    match f 4 2 with
    | 0 => false
    | 1 => true
    | _ => s.ownerCmd g i
  else s.ownerCmd g i

/-- The driver of output `i` of group `g` (Table 13.2). -/
def State.driverOn (s : State) (g i : Nat) : Bool :=
  let f := s.grp g
  if !s.outputsMay then false
  else if !f.supply.good then false
  else if f.grpOc || Word.bit f.tsd i then false
  else s.rf_ (fiogChCfg (grpPage g) + 4 * i) 0 2 == 2 && s.effectiveCmd g i

/-- FIOGg_OUT_ACT. -/
def State.outActW (s : State) (g : Nat) : Word := wordN (ofBits ((List.range 32).filter (s.driverOn g)))

/-- FIOGg_OUT: the commands, those of door-owned outputs included. -/
def State.outW (s : State) (g : Nat) : Word :=
  wordN (ofBits ((List.range 32).filter (fun i => s.rf_ (fiogChCfg (grpPage g) + 4 * i) 0 2 == 2 && s.ownerCmd g i)))

/-- HOST_STATUS. -/
def State.hostStatusW (s : State) : Word :=
  pack [(0, 3, (s.host.sessions.filter (·.isSome)).length), (3, 1, b2n s.host.sealBy.isSome)]

/-- HOST_SESSn. -/
def State.hostSessW (s : State) (n : Nat) : Word :=
  match nth s.host.sessions n none with
  | none => 0
  | some x => pack [(0, 2, if x.isOpen then 2 else 1), (2, 3, x.port), (5, 2, x.world.code), (16, 16, x.keyId)]

/-- The profile seal of every page (R30): closed in FIELD unless a session opened it. -/
def State.sealed (s : State) : Bool := s.lc == .field && s.host.sealBy.isNone

/-- The digest of the active profile (R290): of the selected slot's object, of nothing when there is none. -/
def State.digest (s : State) : List Byte :=
  match s.sys.banks.find? (fun b => b.1 == s.sys.slot) with
  | some (_, b) => Config.sha256 b.object
  | none => List.replicate 32 0

/-- DIGEST_OK: partner digest received and equal, straps included (R290: CONFIG carries PROFILE_SEL). -/
def State.digestOk (s : State) : Bool :=
  match s.part.peerDigest with
  | none => false
  | some (d, sel) => d == s.digest && sel == s.sys.sel

/-- PART_STATUS. -/
def State.partStatusW (s : State) : Word :=
  let p := s.part
  pack [(0, 3, p.role.code), (3, 1, b2n p.slotB), (4, 3, p.band.code), (7, 1, b2n p.latch), (8, 2, p.sync.code),
    (10, 1, b2n p.linkUp), (11, 1, b2n p.faulted), (12, 1, b2n p.xchHold.isSome), (13, 1, b2n s.digestOk),
    (14, 1, b2n (p.pres == .echo)), (15, 1, b2n p.settle.isSome)]

/-- REC_STATUS. -/
def State.recStatusW (s : State) : Word :=
  pack [(0, 7, s.rcd.unwritten.length), (7, 1, b2n (!s.rcd.flushing.isEmpty)), (8, 1, b2n s.rcd.wallValid),
    (9, 1, b2n s.sys.pfw.isSome), (10, 1, b2n s.rcd.mramErr)]

/-- The next index of an identity (R329): the larger of the valid records. -/
def IdxPair.next (i : IdxPair) : Option Nat :=
  match i.a, i.b with
  | none, none => none
  | some x, none => some x
  | none, some y => some y
  | some x, some y => some (max x y)

/-- The index records of a life-cycle state's identity; an identity never used holds index 0 in both. -/
def idxFor (l : List (Lc × IdxPair)) (c : Lc) : IdxPair := ((l.find? (fun x => x.1 == c)).map (·.2)).getD ⟨some 0, some 0, false⟩

/-- The index records of the state in force. -/
def State.idxOf (s : State) : IdxPair := idxFor s.key.idx s.lc

/-- IDX_LOST of the state in force (R329). -/
def State.idxLost (s : State) : Bool := s.idxOf.lost || s.idxOf.next.isNone

/-- KEY_STATUS. -/
def State.keyStatusW (s : State) : Word :=
  pack [(0, 3, s.lc.code), (3, 1, b2n s.key.rootOk), (4, 1, b2n s.key.secOff), (5, 1, b2n s.key.idReady),
    (6, 1, b2n s.key.job.isSome), (7, 1, b2n s.idxLost), (8, 7, s.key.slots.length)]

/-- KEY_OTP. -/
def State.keyOtpW (s : State) : Word :=
  let m (l : List PubKey) (f : PubKey → Bool) : Nat :=
    ofBits ((List.range l.length).filter (fun i => match l[i]? with
      | some k => f k
      | none => false))
  pack [(0, 2, m s.key.vendorKeys (·.revoked)), (4, 4, m s.key.oemKeys (·.present)), (8, 4, m s.key.oemKeys (·.revoked)),
    (16, 16, s.key.imgSvn)]

/-- KEY_SLOTs. -/
def State.keySlotW (s : State) (n : Nat) : Word :=
  match alook s.key.slots n with
  | none => if s.key.orphans.contains n then pack [(18, 1, 1)] else 0
  | some k => pack [(0, 16, leNat (slice k.head 0 2)), (16, 1, 1), (17, 1, b2n k.resident), (18, 1, b2n k.orphaned),
      (19, 1, b2n k.shadow.isSome), (20, 6, k.parent.getD 0), (26, 1, b2n k.parent.isSome)]

/-- TAMP_STATUS. -/
def State.tampStatusW (s : State) : Word :=
  pack [(0, 1, b2n s.tamp.tampered), (1, 4, s.tamp.active.toNat), (8, 4, s.tamp.cause.toNat), (12, 2, s.tamp.moment)]

/-- CLK_STATUS. -/
def State.clkStatusW (s : State) : Word :=
  let c := s.clk
  pack [(0, 1, b2n c.fallback), (1, 1, b2n c.xoOk), (2, 1, b2n c.ircOk), (3, 1, b2n c.rootLock), (4, 1, b2n c.backupLock),
    (5, 1, b2n (c.ircOk && c.backupLock && !c.ircFail && s.sys.run != .attempt)), (6, 1, b2n c.ircFail),
    (7, 1, b2n c.acc1), (8, 3, c.cause.code)]

/-- CLK_FB_MS. -/
def State.clkFbMs (s : State) : Word := wordN (min (s.clk.fbTicks / 16) 0xFFFFFFFF)

/-- SYS_STATUS. -/
def State.sysStatusW (s : State) : Word :=
  let y := s.sys
  pack [(0, 1, b2n y.overrun), (1, 2, y.slot), (3, 1, b2n y.slotOvr), (4, 1, b2n y.profValid), (5, 1, b2n y.pinDefer.isSome),
    (6, 1, b2n y.stuck), (7, 1, b2n y.immediate), (8, 2, y.sel.toNat)]

/-- SYS_RST_CAUSE. -/
def State.rstCauseW (s : State) : Word :=
  pack [(0, 4, s.sys.kind.code), (8, 9, ofBits (s.sys.kinds.map ResetKind.code))]

/-- PWR_STATUS. -/
def State.pwrStatusW (s : State) : Word :=
  pack [(0, 2, if s.sys.run == .park then 1 else 0), (2, 1, b2n s.sys.pfw.isSome), (3, 1, b2n s.sys.holdup),
    (4, 1, b2n s.part.stable), (5, 3, s.sys.wake.code), (8, 4, s.sys.wake.cans)]

/-- Whether the engines run (RUN, not PARK). -/
def State.live (s : State) : Bool := s.sys.run == .run

/-- Whether the module is up: RUN or PARK, where Electrum, the host port, inputs and the recorder run (R363). -/
def State.up_ (s : State) : Bool := s.sys.run == .run || s.sys.run == .park

end Sys2Proof.Machine
end

