-- ==== Sys2Proof/Machine/RecOps.lean ====
section
/-! DEFINITION. Staging of recorder records (R300 to R307), shared by every source. -/

namespace Sys2Proof.Machine

/-- The sources whose mask bits have no effect, and which force a flush (Table 16.1). -/
def unmaskable (src : Nat) : Bool := [1, 8, 9, 14, 15, 16, 17].contains src

/-- The sources whose records force a flush (Table 16.1). -/
def forcesFlush (src : Nat) : Bool := [1, 4, 8, 9, 14, 15, 16, 17].contains src

/-- The configuration word of trigger slot `i`. -/
def State.trg (s : State) (i : Nat) : Word := s.rd (recTrg + 4 * i)

/-- The lowest enabled trigger slot that names a source (R301). -/
def State.slotOf (s : State) (src : Nat) : Option Nat :=
  (List.range 64).find? (fun i => Word.bit (s.trg i) 31 && Word.bits (s.trg i) 0 8 == src)

/-- The register addresses of slot `i`'s snapshot list, in list order (R301). -/
def State.snapList (s : State) (i : Nat) : List Nat :=
  (List.range (Word.bits (s.trg i) 17 6)).map (fun j => s.rf_ (recSnap + 4 * (Word.bits (s.trg i) 8 9 + j)) 0 24)

/-- A record with the header fields of this moment (Table 16.2). -/
def State.mkRcd (s : State) (typ : RecType) (source : Nat) (slot : Option Nat) (detail : Word) (snap : List Word)
    (flush : Bool) : Rcd where
  typ := typ
  source := source
  slot := slot.getD 0xFF
  late := false
  noSnap := typ == .event && slot.isNone
  noAuth := !s.authority
  clkFb := s.clk.fallback
  pfail := s.sys.pfw.isSome
  seq := s.rcd.seqNext
  pcycle := s.rcd.pcycle
  optime := s.rcd.optime
  tick := s.tick
  detail := detail
  snap := snap
  todo := match slot with
    | some i => s.snapList i
    | none => []
  lost := s.rcd.lostNew
  flush := flush || (match slot with
    | some i => Word.bit (s.trg i) 23
    | none => false)
  firedAt := s.tick

/-- Put a record into its staging place (R305, R307): RECORD is raised. -/
def State.putRcd (s : State) (r : Rcd) : State :=
  ({ s with rcd := { s.rcd with
      seqNext := s.rcd.seqNext + 1
      lostNew := 0
      places := aput s.rcd.places (r.seq % 64) r
      unwritten := s.rcd.unwritten ++ [r.seq] } }).raise pgRec 1

/-- Stage a record, or lose it while 63 unwritten records are held (R307); nothing after the final save (R309). -/
def State.stage (s : State) (typ : RecType) (source : Nat) (slot : Option Nat) (detail : Word) (snap : List Word)
    (flush : Bool) : State :=
  if s.rcd.stopped then s
  else if 63 ≤ s.rcd.unwritten.length then
    (({ s with rcd := { s.rcd with
        lostCnt := s.rcd.lostCnt + 1
        lostNew := s.rcd.lostNew + 1
        lostSrc := if s.rcd.lostCnt = 0 then source else s.rcd.lostSrc } }).bump recLost 0 32).raise pgRec 3
  else s.putRcd (s.mkRcd typ source slot detail snap flush)

/-- A source fires (R300): one EVENT record unless its mask bit is set. -/
def State.fire (s : State) (src : Nat) (detail : Word) : State :=
  if !unmaskable src && s.rb (recMask + 4 * (src / 32)) (src % 32) then s
  else s.stage .event src (s.slotOf src) detail [] (forcesFlush src)

/-- A change of PART_STATUS.ROLE fires the recorder (Table 16.1, code 0x0F); a rewrite of the present role does not. -/
def State.setRole (s : State) (r : Role) : State :=
  if s.part.role = r then s
  else
    let t := { s with part := { s.part with role := r } }
    (t.raise pgPart 1).fire 0xF (pack [(0, 3, r.code), (4, 3, s.part.band.code)])

end Sys2Proof.Machine
end

