-- ==== Sys2Proof/Machine/FioOps.lean ====
section
/-! DEFINITION. The shared operations of the field channels (chapter 13): filters, supplies, protection, commands, the
silence timer. -/

namespace Sys2Proof.Machine

/-- The group of a channel, 1 to 8 (R247). -/
def chGroup (c : Nat) : Nat := c / 32 + 1

/-- A field of a channel's configuration. -/
def State.chField (s : State) (g i lo w : Nat) : Nat := s.rf_ (fiogChCfg (grpPage g) + 4 * i) lo w

/-- One step of an input counter (R248). -/
def filtQ (n q : Nat) (raw : Bool) : Nat := if raw then min (q + 1) n else min q n - 1

/-- The filtered state after a step (R248). -/
def filtOut (n q : Nat) (old : Bool) : Bool := if q = n then true else if q = 0 then false else old

/-- The supply level of Table 13.3 from the present level and the voltage in mV. -/
def supplyLevel (cur : Supply) (mv : Nat) : Supply :=
  let bad := cur == .uvlo || cur == .missing
  if mv < 5000 ∨ (cur = .missing ∧ mv ≤ 5000) then .missing
  else if mv < 14000 ∨ (bad ∧ mv ≤ 16000) then .uvlo
  else if mv < 18000 ∨ (cur ≠ .ok ∧ mv ≤ 19000) then .low
  else .ok

/-- A recorded change of a filtered state (R249). -/
def State.cosNote (s : State) (g i : Nat) (up : Bool) : State :=
  let pg := grpPage g
  if s.rb (if up then fiogCosRise pg else fiogCosFall pg) i then
    let f := s.grp g
    let s1 := s.setGrp g { f with cosNow := Word.setBits f.cosNow i 1 1 }
    let s2 := s1.wf_ (fiogCos pg) i 1 1
    (s2.wr (fiogCosLast pg) (pack [(0, 5, i), (5, 1, b2n up), (8, 24, s.us)])).raise pg 1
  else s

/-- Whether channel `i` of group `g` takes its first setting at this tick (R248, R256). -/
def State.firstSetting (s : State) (g i : Nat) : Bool := !(s.grp g).set || Word.bit (s.grp g).renew i

/-- The counters of a group after a filter tick. -/
def State.filtQs (s : State) (g : Nat) (raw : Word) : List Nat :=
  let f := s.grp g
  let n := s.rf_ (fiogFilt (grpPage g)) 8 8
  (List.range 32).map (fun i =>
    if s.chField g i 0 2 != 1 then 0
    else if s.firstSetting g i then (if Word.bit raw i then n else 0)
    else filtQ n (nth f.q i 0) (Word.bit raw i))

/-- The filtered states of a group after a filter tick. -/
def State.filtStates (s : State) (g : Nat) (raw : Word) : List Bool :=
  let f := s.grp g
  let n := s.rf_ (fiogFilt (grpPage g)) 8 8
  (List.range 32).map (fun i =>
    s.chField g i 0 2 == 1 &&
      (if s.firstSetting g i then Word.bit raw i else filtOut n (nth (s.filtQs g raw) i 0) (Word.bit f.filt i)))

/-- The channels whose filtered state changed at a tick, with their new state (R248: a first setting is no change). -/
def State.filtChanges (s : State) (g : Nat) (raw : Word) : List (Nat × Bool) :=
  ((s.filtStates g raw).zipIdx).filterMap (fun x =>
    if s.chField g x.2 0 2 == 1 && !s.firstSetting g x.2 && x.1 != Word.bit (s.grp g).filt x.2 then some (x.2, x.1) else none)

/-- A filter tick of a group (R248, R249, R256). -/
def State.filterTick (s : State) (g : Nat) (raw : Word) : State :=
  let f := s.grp g
  if !f.supply.good then s.setGrp g { f with raw := raw }
  else
    let states := s.filtStates g raw
    let t := s.setGrp g { f with
      raw := raw, q := s.filtQs g raw, filt := packBits states, set := true, renew := 0 }
    each (s.filtChanges g raw) t (fun u x => u.cosNote g x.1 x.2)

/-- A supply change after its 2 ms (R256). -/
def State.supplySet (s : State) (g mv : Nat) : State :=
  let f := s.grp g
  let lvl := supplyLevel (if f.seen then f.supply else .ok) mv
  let t := s.setGrp g { f with supply := lvl, mv := mv, seen := true }
  if f.seen && lvl != f.supply then t.raise (grpPage g) 2 else t

/-- A thermal shutdown (R251). -/
def State.tsdSet (s : State) (c : Nat) : State :=
  let g := chGroup c
  let f := s.grp g
  if s.chField g (c % 32) 0 2 == 2 then
    let t := s.setGrp g { f with tsd := Word.setBits f.tsd (c % 32) 1 1, tsdHot := Word.setBits f.tsdHot (c % 32) 1 1 }
    (t.raise (grpPage g) 5).fire 0xC (pack [(0, 8, c)])
  else s

/-- The junction has cooled (R251). -/
def State.tsdCool (s : State) (c : Nat) : State :=
  let g := chGroup c
  let i := c % 32
  let f := s.grp g
  let release := s.chField g i 6 1 == 0 || Word.bit f.tsdClr i
  s.setGrp g { f with
    tsdHot := Word.setBits f.tsdHot i 1 0, tsdClr := Word.setBits f.tsdClr i 1 0
    tsd := if release then Word.setBits f.tsd i 1 0 else f.tsd }

/-- A FIOGg_TSD_CLR write: a hot junction clears once it has cooled (R251). -/
def State.tsdClear (s : State) (g : Nat) (val : Word) : State :=
  let f := s.grp g
  s.setGrp g { f with tsd := f.tsd &&& ~~~(val &&& ~~~f.tsdHot), tsdClr := f.tsdClr ||| (val &&& f.tsdHot) }

/-- The diagnostics bit and interrupt of a kind (R251). -/
def Fiog.setDiag (f : Fiog) (k : Diag) (i : Nat) (on : Bool) : Fiog :=
  match k with
  | .openLoad => { f with dOpen := Word.setBits f.dOpen i 1 (b2n on) }
  | .shortVf => { f with dSvf := Word.setBits f.dSvf i 1 (b2n on) }
  | .clim => { f with dClim := Word.setBits f.dClim i 1 (b2n on) }
  | .overload => { f with dOvl := Word.setBits f.dOvl i 1 (b2n on) }

/-- The diagnostics bit of a kind. -/
def Fiog.diag (f : Fiog) (k : Diag) (i : Nat) : Bool :=
  match k with
  | .openLoad => Word.bit f.dOpen i
  | .shortVf => Word.bit f.dSvf i
  | .clim => Word.bit f.dClim i
  | .overload => Word.bit f.dOvl i

/-- The interrupt bit of a diagnostics kind (Table 13.8). -/
def diagIrq (k : Diag) : Nat :=
  match k with
  | .openLoad => 3
  | .shortVf => 4
  | .overload => 6
  | .clim => 8

/-- Off-state diagnostics are suspended without authority (R252) and below LOW's rising threshold (R256). -/
def State.diagSuspended (s : State) (g i : Nat) (k : Diag) : Bool :=
  (k == .openLoad || k == .shortVf) && !s.driverOn g i && (!s.authority || (s.grp g).supply != .ok)

/-- A diagnostics condition appears or has been absent for 20 ms (R251). -/
def State.diagSet (s : State) (c : Nat) (k : Diag) (present : Bool) : State :=
  let g := chGroup c
  let i := c % 32
  if s.chField g i 0 2 != 2 || (present && s.diagSuspended g i k) then s
  else
    let t := s.setGrp g ((s.grp g).setDiag k i present)
    if present && !(s.grp g).diag k i then t.raise (grpPage g) (diagIrq k) else t

/-- A group's outputs as commands replaced by a function of channel and present command, for host-owned outputs. -/
def State.hostOutputs (s : State) (f : Nat → Nat → Bool → Bool) : State :=
  { s with fiog := (s.fiog.zipIdx).map (fun x =>
      let g := x.2 + 1
      { x.1 with out := packBits ((List.range 32).map (fun i =>
          let now := Word.bit x.1.out i
          if s.chField g i 0 2 == 2 && s.chField g i 2 2 == 0 then f g i now else now)) }) }

/-- Each host-owned output goes to its safe state: OFF, ON, or HOLD its command (R257, R258). -/
def State.safeOutputs (s : State) : State :=
  s.hostOutputs (fun g i now => match s.chField g i 4 2 with
    | 0 => false
    | 1 => true
    | _ => now)

/-- The commands of host-owned outputs as the module gains authority (R258): OFF, ON, or what was written while it was
without authority. -/
def State.gainOutputs (s : State) : State :=
  let t := s.hostOutputs (fun g i now => match s.chField g i 4 2 with
    | 0 => false
    | 1 => true
    | _ => now && Word.bit (s.grp g).wrote i)
  { t with fiog := t.fiog.map (fun f => { f with wrote := 0 }) }

/-- The silence timer restarts from a stamp in µs (R257). -/
def State.silRestart (s : State) (stamp : Nat) : State :=
  if s.rb fioCfg 0 then { s with sil := { s.sil with deadline := some (stamp + 1000 * s.rn fioSilenceMs) } } else s

/-- FIO_CFG.SIL_EN takes a value (R257): the timer starts where it comes on, and stops where it goes off. -/
def State.silEnable (s : State) (was : Bool) : State :=
  if !s.rb fioCfg 0 then { s with sil := { s.sil with deadline := none } }
  else if was || s.sil.silent then s else s.silRestart s.us

/-- A valid frame from an admitted host (R257): restarts the timer unless SILENT or stamped after the deadline. -/
def State.silFrame (s : State) : State :=
  match s.sil.deadline with
  | none => s
  | some d => if s.sil.silent || d < s.us then s else s.silRestart s.us

/-- The deadline expires (R257). -/
def State.silExpire (s : State) : State :=
  (({ s with sil := ⟨none, true⟩ }).raise pgFio 1).fire 0xD 0

/-- SIL_ACK (R257): each host-owned output keeps its safe state as its command. -/
def State.silAckNow (s : State) : State :=
  let t := if s.sil.silent then s.safeOutputs else s
  ({ t with sil := ⟨none, false⟩ }).silRestart s.us

/-- A host command to outputs (R254). -/
def State.outWrite (s : State) (g : Nat) (val : Word) (on : Bool) : State :=
  let f := s.grp g
  s.setGrp g { f with
    out := if on then f.out ||| val else f.out &&& ~~~val, wrote := if s.authority then f.wrote else f.wrote ||| val }

/-- The silence deadline lies before the present stamp (R19, R20): late, though SILENCE_TIMEOUT has not run yet. -/
def State.silLate (s : State) : Bool :=
  match s.sil.deadline with
  | none => false
  | some d => decide (d < s.us)

/-- The refusals of an OUT_SET or OUT_CLR write (R4, R19, R254, R257). -/
def State.outRefusals (s : State) (g : Nat) (val : Word) : List Nat :=
  let named := bitsOf val.toNat 32
  (if named.any (fun i => s.chField g i 2 2 != 0) then [3] else []) ++
  (if named.any (fun i => s.chField g i 2 2 == 0 && s.chField g i 0 2 != 2) then [2] else []) ++
  (if !s.sys.profValid then [2] else []) ++ (if s.sil.silent || s.silLate then [0xE] else [])

/-- A channel's configuration takes effect (R255): leaving OUTPUT clears its command; becoming INPUT renews its filter. -/
def State.chCfgApply (s : State) (g i : Nat) (val : Word) : State :=
  let was := s.chField g i 0 2
  let now := Word.bits val 0 2
  let f := s.grp g
  let t := s.wr (fiogChCfg (grpPage g) + 4 * i) val
  t.setGrp g { f with
    out := if was == 2 && now != 2 then Word.setBits f.out i 1 0 else f.out
    renew := if was != 1 && now == 1 then Word.setBits f.renew i 1 1 else f.renew
    filt := if now != 1 then Word.setBits f.filt i 1 0 else f.filt
    tsd := if now != 2 then Word.setBits f.tsd i 1 0 else f.tsd
    dOpen := if now != 2 then Word.setBits f.dOpen i 1 0 else f.dOpen
    dSvf := if now != 2 then Word.setBits f.dSvf i 1 0 else f.dSvf
    dClim := if now != 2 then Word.setBits f.dClim i 1 0 else f.dClim
    dOvl := if now != 2 then Word.setBits f.dOvl i 1 0 else f.dOvl }

end Sys2Proof.Machine
end

