-- ==== Sys2Proof/Machine/CanOps.lean ====
section
/-! DEFINITION. The shared operations of the CAN controllers (chapter 12) and of the safe frame layer (chapter 11). -/

namespace Sys2Proof

/-- The 29-bit identifier of a frame; a base identifier sits in bits 28 to 18 (Table 12.3). -/
def CanFrame.key (f : CanFrame) : Nat × Bool := (f.id.toNat, f.ide)

end Sys2Proof

namespace Sys2Proof.Machine

/-- The window address of transmit object `j` of controller `n`; the bid object is 32 (Table 12.2). -/
def txoAddr (n j : Nat) : Nat := 0x100000 + 0x10000 * n + (if j = 32 then 0x5000 else 0x4000 + 0x80 * j)

/-- The window address of receive object `i` of controller `n`. -/
def rxoAddr (n i : Nat) : Nat := 0x100000 + 0x10000 * n + 0x80 * i

/-- The enabled LSF slots of a bus that are producers (or consumers), in slot order. -/
def State.lsfOn (s : State) (n : Nat) (prod : Bool) : List Nat :=
  (List.range 32).filter (fun k => s.lsfEn k && Word.bits (s.lsfCfg k) 2 2 == n && s.lsfProd k == prod)

/-- Transmit objects that the drive and Bellmetal take from the top of controller `n` (Table 12.4). -/
def State.txTop (s : State) (n : Nat) : Nat :=
  if n = 3 ∧ s.drvIf = 2 then 3 else if n = 2 ∧ s.rb bidCfg 6 then 1 else 0

/-- Receive objects that the drive takes from the top. -/
def State.rxTop (s : State) (n : Nat) : Nat := if n = 3 ∧ s.drvIf = 2 then 2 else 0

/-- Whether an engine owns transmit object `j` (R240). -/
def State.txEngine (s : State) (n j : Nat) : Bool := decide (32 ≤ j + s.txTop n + (s.lsfOn n true).length)

/-- Whether an engine owns receive object `i` (R240). -/
def State.rxEngine (s : State) (n i : Nat) : Bool := decide (128 ≤ i + s.rxTop n + (s.lsfOn n false).length)

/-- The object of a slot among those its engine takes, `top` objects below the highest (R240). -/
def objIndex (all top : Nat) (slots : List Nat) (k : Nat) : Nat := all - 1 - top - (slots.takeWhile (fun x => x != k)).length

/-- The transmit object of producer slot `k`. -/
def State.lsfTxObj (s : State) (k : Nat) : Nat :=
  let n := Word.bits (s.lsfCfg k) 2 2
  objIndex 32 (s.txTop n) (s.lsfOn n true) k

/-- The receive object of consumer slot `k`. -/
def State.lsfRxObj (s : State) (k : Nat) : Nat :=
  let n := Word.bits (s.lsfCfg k) 2 2
  objIndex 128 (s.rxTop n) (s.lsfOn n false) k

/-- The LSF identifier of a producer node and connection (R213). -/
def lsfId (node conn : Nat) : Nat := 5 * 2 ^ 26 + node * 16 + conn

/-- The identifier (29 bits with IDE) an engine binds to a receive object; a host object's is its RXO_ID (R213, Table 6.5). -/
def State.rxBound (s : State) (n i : Nat) : Option (Nat × Bool) :=
  if s.rxEngine n i then
    if n = 3 ∧ s.drvIf = 2 ∧ i = 127 then some ((0x180 + s.rn drvCiaNode) * 2 ^ 18, false)
    else if n = 3 ∧ s.drvIf = 2 ∧ i = 126 then some ((0x580 + s.rn drvCiaNode) * 2 ^ 18, false)
    else ((s.lsfOn n false).find? (fun k => s.lsfRxObj k == i)).map
      (fun k => (lsfId (Word.bits (s.lsfCfg k) 16 12) (Word.bits (s.lsfCfg k) 8 4), true))
  else
    let w := s.rd (rxoAddr n i)
    if Word.bit w 31 then some (Word.bits w 0 29, Word.bit w 29) else none

/-- A transmit object's progress. -/
def State.txo (s : State) (n j : Nat) : TxObj := (alook (s.cann n).tx j).getD ⟨.idle, false, 0, 0, 0, 0, 0⟩

/-- Replace a transmit object's progress. -/
def State.setTxo (s : State) (n j : Nat) (o : TxObj) : State :=
  s.setCan n { s.cann n with tx := aput (s.cann n).tx j o }

/-- Enter a controller state: STATE_CHG on a change (R242). -/
def State.canInto (s : State) (n : Nat) (st : CanSt) : State :=
  let t := s.setCan n { s.cann n with st := st }
  if (s.cann n).st = st then t else t.raise (canPage n) 1

/-- The error state that the counters give (R242). -/
def State.canErrState (s : State) (n : Nat) : State :=
  let c := s.cann n
  if c.st = .errorActive ∨ c.st = .errorPassive then
    s.canInto n (if 127 < c.tec ∨ 127 < c.recE then .errorPassive else .errorActive)
  else s

/-- A result of a request (R239): host-owned objects show it in CANn_TX_DONE or CANn_TX_FAIL with their interrupt. -/
def State.txResult (s : State) (n j : Nat) (done : Bool) (o : TxObj) : State :=
  let t := s.setTxo n j o
  if s.txEngine n j then t
  else if done then (t.wf_ (canTxDone (canPage n)) j 1 1).raise (canPage n) 6
  else (t.wf_ (canTxFail (canPage n)) j 1 1).raise (canPage n) 7

/-- Abort a pending object (R239). -/
def State.canAbort (s : State) (n j : Nat) : State :=
  let o := s.txo n j
  if o.res = .pending then s.txResult n j false { o with res := .failed, aborted := true, abortUs := s.us } else s

/-- Abort every pending object of a controller (R244, R284). -/
def State.canAbortAll (s : State) (n : Nat) : State :=
  each (((s.cann n).tx.filter (fun o => o.2.res == .pending)).map (·.1)) s (fun t j => t.canAbort n j)

/-- Request a transmit object in the window of time from `lo` to `hi`, µs (R237, R238); without authority it is aborted at
once (Table 15.2). -/
def State.canRequestIn (s : State) (n j lo hi : Nat) : State :=
  if (s.txo n j).res = .pending then s
  else
    let t := s.setTxo n j { s.txo n j with res := .pending, aborted := false, attempts := 0, reqUs := lo, reqLate := hi }
    if s.authority then t else t.canAbort n j

/-- Request a transmit object (R237) at a time within the present period (log entry 206). -/
def State.canRequest (s : State) (n j : Nat) : State := s.canRequestIn n j s.us (s.us + 62)

/-- Data words of a frame, padded with zeros to 64 bytes. -/
def padData (l : List Byte) (n : Nat) : List Byte := (l ++ List.replicate n 0).take n

/-- An engine fills one of its objects (R237, R240): FDF frames carry BRS only while it is allowed (R237, R245). -/
def State.canFill (s : State) (n j : Nat) (ide : Bool) (id : Nat) (fd : Bool) (data : List Byte) : State :=
  let brs := fd && s.rb (canCfg (canPage n)) 0 && !s.clk.fallback
  let a := txoAddr n j
  let s1 := s.wr a (pack [(0, 29, id), (29, 1, b2n ide), (30, 1, b2n fd), (31, 1, b2n brs)])
  let s2 := s1.wr (a + 4) (pack [(0, 7, data.length)])
  let s3 := ((leWords (padData data 64)).zipIdx).foldl (fun t w => t.wr (a + 0x40 + 4 * w.2) w.1) s2
  s3.setTxo n j { s3.txo n j with res := .idle }

/-- An engine fills one of its objects and requests it. -/
def State.canSend (s : State) (n j : Nat) (ide : Bool) (id : Nat) (fd : Bool) (data : List Byte) : State :=
  (s.canFill n j ide id fd data).canRequest n j

/-- Store a received frame in receive object `i` (R236). -/
def State.canStore (s : State) (n i : Nat) (f : CanFrame) : State :=
  let c := s.cann n
  let eng := s.rxEngine n i
  let old := alook c.rx i
  let wasNew := (old.map (·.new)).getD false
  let wasLost := (old.map (·.lost)).getD false
  let o : RxObj := { len := f.data.length, fdf := f.fdf, brs := f.brs, esi := f.esi, new := true, lost := wasLost || wasNew,
                     sof := f.sof, vp := f.vp, data := padData f.data 64 }
  let pg := canPage n
  let s1 := s.setCan n { c with rx := aput c.rx i o, newNow := (i, wasNew && !wasLost) :: c.newNow.filter (fun x => x.1 != i) }
  let s2 := s1.bump (canCntFrm pg) 0 16
  let s3 := if wasNew then s2.bump (canCntErr pg) 16 8 else s2
  if eng then s3
  else
    let s4 := s3.raise pg 4
    if wasNew then s4.raise pg 5 else s4

/-- An engine takes the frame of object `i`: NEW clears (R236). -/
def State.canTake (s : State) (n i : Nat) : State :=
  let c := s.cann n
  match alook c.rx i with
  | none => s
  | some o => s.setCan n { c with rx := aput c.rx i { o with new := false } }

/-- Clear NEW of an object by W1C (R236): a frame stored in this period keeps NEW, and did not set LOST. -/
def State.canClrNew (s : State) (n i : Nat) : State :=
  let c := s.cann n
  match alook c.rx i with
  | none => s
  | some o => match alook c.newNow i with
    | some newly => s.setCan n { c with rx := aput c.rx i { o with lost := o.lost && !newly } }
    | none => s.setCan n { c with rx := aput c.rx i { o with new := false } }

/-- Clear LOST of an object by W1C. -/
def State.canClrLost (s : State) (n i : Nat) : State :=
  let c := s.cann n
  match alook c.rx i with
  | none => s
  | some o => s.setCan n { c with rx := aput c.rx i { o with lost := false } }

/-- Whether a controller takes part in its bus: it receives in the error-active and error-passive states. -/
def State.canRuns (s : State) (n : Nat) : Bool := (s.cann n).st == .errorActive || (s.cann n).st == .errorPassive

/-- A frame passes its validity point (R235, R236, R242, R243). -/
def State.canReceive (s : State) (n : Nat) (f : CanFrame) : State :=
  if !s.canRuns n then s
  else
    let c := s.cann n
    let r := if 127 < c.recE then 119 else c.recE - 1
    let s1 := (s.setCan n { c with recE := r, alone := false, ackRun := if c.alone then 0 else c.ackRun, lastVp := some f.vp }).canErrState n
    if f.remote then s1.bump (canCntErr (canPage n)) 24 8
    else match (List.range 128).find? (fun i => s1.rxBound n i == some f.key) with
      | some i => s1.canStore n i f
      | none => s1.bump (canCntErr (canPage n)) 8 8

/-- The data lengths of CAN FD and of classical frames (Table 12.3). -/
def lenOk (fd : Bool) (n : Nat) : Bool := decide (n ≤ 8) || (fd && [12, 16, 20, 24, 32, 48, 64].contains n)

/-- A TX_REQ word names an object that may not be sent (R237). -/
def State.txBad (s : State) (n j : Nat) : Bool :=
  let id := s.rd (txoAddr n j)
  let fd := Word.bit id 30
  let brs := Word.bit id 31
  !lenOk fd (s.rf_ (txoAddr n j + 4) 0 7) || (brs && !fd) || (brs && !s.rb (canCfg (canPage n)) 0)

/-- One nominal bit time of a controller, ns (R231). -/
def State.canBitNs (s : State) (n : Nat) : Nat :=
  let w := s.rd (canNbt (canPage n))
  (Word.bits w 0 5 + 1) * (1 + (Word.bits w 5 8 + 1) + (Word.bits w 13 7 + 1)) * 25

/-- The rank of a transmit object on the bus, lowest first (R238): the identifier, a base-format frame before an extended one
with the same bits 28 to 18, then the object index. -/
def State.txRank (s : State) (n j : Nat) : Nat :=
  let w := s.rd (txoAddr n j)
  ((Word.bits w 18 11 * 2 + b2n (Word.bit w 29)) * 262144 + Word.bits w 0 18) * 64 + j

/-- The time by which a request must be set to take part at a start of frame (R238): the start of the last intermission bit,
3 bit times after the validity point, where the frame follows that intermission; on an idle bus the start of frame. -/
def State.txLimit (s : State) (n sof : Nat) : Nat :=
  match (s.cann n).lastVp with
  | none => sof
  | some vp =>
    let b := s.canBitNs n
    if sof * 1000 ≤ vp * 1000 + 4 * b + 1000 then (vp * 1000 + 3 * b) / 1000 else sof

/-- Whether the controller offers object `j` at a start of frame (R238): it is pending, or was when the frame began; its
request may have been in time; and no pending object that was surely in time ranks before it. -/
def State.txOffered (s : State) (n j sof : Nat) : Bool :=
  let o := s.txo n j
  let lim := s.txLimit n sof
  (o.res == .pending || (o.aborted && o.res == .failed && decide (sof ≤ o.abortUs))) && decide (o.reqUs ≤ lim) &&
    (s.cann n).tx.all (fun x => !(x.2.res == .pending && decide (x.2.reqLate ≤ lim) && decide (s.txRank n x.1 < s.txRank n j)))

/-- An attempt of a pending object ends in an error (R239): it counts, and the last of SHOTS ends the request. -/
def State.canFailed (s : State) (n j : Nat) : State :=
  let o := s.txo n j
  if o.res = .pending then
    let a := min (o.attempts + 1) 255
    let shots := s.rf_ (txoAddr n j + 4) 8 8
    if shots ≠ 0 ∧ shots ≤ a then s.txResult n j false { o with res := .failed, attempts := a }
    else s.setTxo n j { o with attempts := a }
  else s

/-- The end of an attempt (R239, R243): success, lost arbitration, or an error that counts. -/
def State.canAttempt (s : State) (n j : Nat) (out : AttemptEnd) (sof : Nat) : State :=
  let o := s.txo n j
  let c := s.cann n
  match out with
  | .lostArbitration => s
  | .success =>
    if o.res = .pending ∨ (o.aborted ∧ o.res = .failed ∧ sof ≤ o.abortUs) then
      let s1 := (s.setCan n { c with
        tec := c.tec - 1, ackRun := 0, alone := false, lastVp := some (max sof s.us) }).canErrState n
      (s1.bump (canCntFrm (canPage n)) 16 16).txResult n j true { o with res := .done, aborted := false, sof := sof }
    else s
  | .error _ => s.canFailed n j
  | .errorAfterVp _ => s.canFailed n j

/-- Sleep (R244): pending objects are aborted and the transceiver enters low-power mode. -/
def State.canSleepNow (s : State) (n : Nat) : State :=
  if (s.cann n).st = .off ∨ (s.cann n).st = .sleep then s
  else ((s.canAbortAll n).wf_ (canCtrl (canPage n)) 1 1 1).canInto n .sleep

/-- A wake with its cause (R244): the controller re-integrates. -/
def State.canWakeNow (s : State) (n cause : Nat) : State :=
  if (s.cann n).st = .sleep then
    ((s.setCan n { s.cann n with wake := cause, integrating := true }).wf_ (canCtrl (canPage n)) 1 1 0).raise (canPage n) 8
  else s

/-- The classical wake frame of R244. -/
def State.wakeMatch (s : State) (n : Nat) (f : CanFrame) : Bool :=
  let pg := canPage n
  let m := s.rf_ (canWakeIdm pg) 0 29
  let d (o : Nat) : Nat := leNat (slice (padData f.data 8) o 4)
  !f.remote && !f.fdf && f.ide == s.rb (canWakeId pg) 29 && (f.id.toNat &&& m) == (s.rf_ (canWakeId pg) 0 29 &&& m) &&
    f.data.length == s.rf_ (canWakeDlc pg) 0 4 &&
    (d 0 &&& s.rn (canWakeDm pg)) == (s.rn (canWakeData pg) &&& s.rn (canWakeDm pg)) &&
    (d 4 &&& s.rn (canWakeDm pg + 4)) == (s.rn (canWakeData pg + 4) &&& s.rn (canWakeDm pg + 4))

/-- A slot's time expectation or period, ms. -/
def State.lsfTime (s : State) (k : Nat) : Nat := s.rf_ (lsfCnTime + 0x20 * k) 0 16

/-- A slot's safe-data length. -/
def State.lsfLen (s : State) (k : Nat) : Nat := s.rf_ (lsfCnTime + 0x20 * k) 24 6

/-- A slot's counter register. -/
def lsfCnt (k : Nat) : Nat := lsfCnCnt + 0x20 * k

/-- The smallest CAN FD data length that holds `n` bytes, from 12 up (R215). -/
def fdLen (n : Nat) : Nat := ([12, 16, 20, 24, 32, 48, 64].find? (fun m => decide (n ≤ m))).getD 64

/-- The 16 + N bytes of R217. -/
def lsfCrcOver (tag : Word) (producer consumer seqh : Nat) (body : List Byte) : List Byte :=
  wordLe tag ++ natLe 2 producer ++ natLe 2 consumer ++ natLe 2 seqh ++ body

/-- Electrum's image (Table 11.2). -/
def State.lsfImage (s : State) : List Byte :=
  natLe 1 (ofBits ((List.range 8).filter (fun i => match i with
    | 0 => s.el.chain
    | 1 => s.el.lockedAll
    | 2 => s.el.dzv.isSome
    | 3 => s.el.perm
    | 4 => s.el.bypOn
    | 5 => s.el.st == .tripped
    | 6 => s.elOos
    | _ => s.el.proofPend))) ++
  natLe 1 (s.el.dzv.getD 0) ++
  natLe 1 (s.el.mode.code + 8 * b2n s.el.govTripped + 16 * b2n (decide (s.el.vlim < s.rn safeVRated))) ++ natLe 1 0 ++
  wordLe (wordI (round16 s.el.a.pos)) ++ wordLe (wordI s.el.a.vel)

/-- The first production instant after now (R219): the multiples of TIME_MS from the moment LSF_CTRL.RUN set. -/
def State.lsfInstant (s : State) (k : Nat) : Nat :=
  let t := 1000 * s.lsfTime k
  let r := s.el.runUs.getD s.us
  r + ((s.us - r) / t + 1) * t

/-- A slot enters OFF and, while LSF runs and the slot is enabled, starts (R224): a consumer waits, a producer runs. -/
def State.lsfStart (s : State) (k : Nat) : State :=
  let l := s.lsfn k
  if !s.lsfEn k || s.el.runUs.isNone then s.setLsf k { LsfSlot.reset with seq := if s.lsfProd k then l.seq else 0 }
  else if s.lsfProd k then s.setLsf k { LsfSlot.reset with st := .run, seq := l.seq, deadline := s.lsfInstant k }
  else s.setLsf k { LsfSlot.reset with st := .wait, cause := l.cause }

/-- LSF_CTRL.RUN sets once Electrum has left START (Table 11.6): every enabled slot starts. -/
def State.lsfRunNow (s : State) : State :=
  if s.el.st = .start ∨ s.el.runUs.isSome then s
  else each (List.range 32) { s with el := { s.el with runUs := some s.us } } (fun w k => w.lsfStart k)

/-- A consumer fails (Table 11.4): CAUSE, CONN_FAIL, the recorder; with AUTO_RST it waits at once. -/
def State.lsfFail (s : State) (k cause : Nat) : State :=
  let l := s.lsfn k
  let auto := Word.bit (s.lsfCfg k) 4
  let t := s.setLsf k { l with st := if auto then .wait else .failed, conf := false, cause := cause, valid := false, crcUs := [] }
  (t.raise pgLsf 2).fire 0xA (pack [(0, 5, k), (8, 2, cause)])

/-- The consumer slot bound to a frame's identifier on a bus. -/
def State.lsfSlotOf (s : State) (n : Nat) (f : CanFrame) : Option Nat :=
  (s.lsfOn n false).find? (fun k =>
    f.ide && f.id.toNat == lsfId (Word.bits (s.lsfCfg k) 16 12) (Word.bits (s.lsfCfg k) 8 4))

/-- The verdict of Table 11.3 on a frame. -/
inductive LsfVerdict where
  | accept (full age : Nat) (data : List Byte)
  | duplicate | other | seqErr | crcErr | aged
  deriving DecidableEq, Repr

/-- Rules 4 and 5 of Table 11.3 for a candidate full sequence. -/
def State.lsfCheck (s : State) (k full : Nat) (d : List Byte) : LsfVerdict :=
  let n := s.lsfLen k
  let body := d.take (6 + n)
  let crc := safetyCrc (lsfCrcOver (s.rd (lsfCnTag + 0x20 * k)) (Word.bits (s.lsfCfg k) 16 12) (s.rf_ lsfNode 0 12)
    (full / 65536 % 65536) body)
  if leNat (slice d (6 + n) 4) ≠ crc then .crcErr
  else if s.lsfTime k ≤ byteAt d 4 then .aged
  else .accept full (byteAt d 4) (slice d 6 n)

/-- R216: the full sequence a consumer reconstructs. -/
def lsfFull (last seq : Nat) : Nat := (last + (seq + 65536 - last % 65536) % 65536) % 4294967296

/-- The rejection rules of Table 11.3 in order. -/
def State.lsfJudge (s : State) (k : Nat) (f : CanFrame) : LsfVerdict :=
  let l := s.lsfn k
  let n := s.lsfLen k
  let d := f.data
  let cfg := s.lsfCfg k
  let seq := leNat (slice d 2 2)
  let full := lsfFull l.seq seq
  let delta := (seq + 65536 - l.seq % 65536) % 65536
  let win := s.rf_ (lsfCnTime + 0x20 * k) 16 8
  if !f.fdf || f.remote || !f.ide || byteAt d 5 != n || d.length != fdLen (10 + n) || (d.drop (10 + n)).any (· != 0) then .other
  else if leNat (slice d 0 2) ≠ Word.bits cfg 16 12 + 4096 * Word.bits cfg 8 4 then .other
  else match l.st with
    | .run => if delta = 0 then .duplicate else if win < delta then .seqErr else s.lsfCheck k full d
    | .wait =>
      if l.conf then (if 1 ≤ delta ∧ delta ≤ win then s.lsfCheck k full d else .seqErr)
      else
        let cont := if 1 ≤ delta ∧ delta ≤ 32767 then s.lsfCheck k full d else .crcErr
        match cont, s.lsfCheck k seq d with
        | .accept a b c, _ => .accept a b c
        | _, .accept a b c => .accept a b c
        | .aged, _ => .aged
        | _, v => v
    | _ => .other

/-- A received safe frame (R220 to R225). -/
def State.lsfReceive (s0 : State) (n : Nat) (f : CanFrame) : State :=
  match s0.lsfSlotOf n f with
  | none => s0
  | some k =>
    let s1 := s0.canTake n (s0.lsfRxObj k)
    let l1 := s1.lsfn k
    -- a confirmation timer that expired before the frame's stamp has cleared CONF (R19, R224)
    let s := if l1.st = .wait ∧ l1.conf ∧ l1.confUs < f.vp then s1.setLsf k { l1 with conf := false } else s1
    let l := s.lsfn k
    let seqBack := if l.st = .wait ∧ l.conf then s.setLsf k { l with conf := false } else s
    match l.st with
    | .off => s
    | .failed => s
    | _ => match s.lsfJudge k f with
      | .duplicate => s
      -- rules 1 and 2 leave CONF; rule 5 clears it (Table 11.4)
      | .other => s.bump (lsfCnt k) 16 8
      | .aged => seqBack.bump (lsfCnt k) 16 8
      | .seqErr => (seqBack.bump (lsfCnt k) 8 8).raise pgLsf 4
      | .crcErr =>
        let t := (seqBack.bump (lsfCnt k) 0 8).raise pgLsf 3
        t.setLsf k { t.lsfn k with crcUs := f.vp :: (t.lsfn k).crcUs.filter (fun u => decide (f.vp < u + 1000000)) }
      | .accept full age data =>
        let dl := f.vp + 1000 * s.lsfTime k - 1000 * age
        let upd := { l with seq := full, lastAge := age, data := data, n := s.lsfLen k, infoSeq := full % 65536 }
        match l.st with
        | .run =>
          if l.deadline < f.vp then s
          else (s.setLsf k { upd with deadline := dl, valid := true }).wn (lsfCnSeq + 0x20 * k) full
        | _ =>
          if l.conf then
            ((s.setLsf k { upd with st := .run, conf := false, deadline := dl, valid := true }).wn (lsfCnSeq + 0x20 * k) full).raise pgLsf 1
          else
            (s.setLsf k { l with seq := full, conf := true, confUs := f.vp + 1000 * s.lsfTime k, lastAge := age }).wn (lsfCnSeq + 0x20 * k) full

/-- Electrum takes the newly received frame of a consumer slot at the start of a cycle (R220); what was overwritten before it
is a gap. -/
def State.lsfTake (s : State) (k : Nat) : State :=
  let cfg := s.lsfCfg k
  let n := Word.bits cfg 2 2
  if !s.lsfEn k || s.lsfProd k then s
  else match alook (s.cann n).rx (s.lsfRxObj k) with
    | none => s
    | some o =>
      if o.new then
        s.lsfReceive n ⟨true, BitVec.ofNat 29 (lsfId (Word.bits cfg 16 12) (Word.bits cfg 8 4)), false, o.fdf, o.brs, o.esi,
          o.data.take o.len, o.sof, o.vp⟩
      else s

/-- Electrum takes every newly received frame (R220). -/
def State.lsfTakeAll (s : State) : State := each (List.range 32) s (fun t k => t.lsfTake k)

/-- A production instant of a producer slot (R219). -/
def State.lsfProduceNow (s : State) (k : Nat) (identical : Bool) : State :=
  let l := s.lsfn k
  let n := Word.bits (s.lsfCfg k) 2 2
  let j := s.lsfTxObj k
  let full := (l.seq + 1) % 4294967296
  let pend := (s.txo n j).res == .pending
  let s1 := if pend then (s.canAbort n j).bump (lsfCnt k) 8 8 else s
  let img := s.lsfImage
  let peer := Word.bits (s.lsfCfg k) 16 12
  let conn := Word.bits (s.lsfCfg k) 8 4
  let own := s.rf_ lsfNode 0 12
  let body := natLe 2 (own + 4096 * conn) ++ natLe 2 full ++ natLe 1 1 ++ natLe 1 12 ++ img
  let crc := safetyCrc (lsfCrcOver (s.rd (lsfCnTag + 0x20 * k)) own peer (full / 65536) body)
  let s2 := (s1.setLsf k { l with seq := full, deadline := l.deadline + 1000 * s.lsfTime k }).wn (lsfCnSeq + 0x20 * k) full
  if identical then
    (s2.setLsf k { s2.lsfn k with data := img, n := 12, valid := true, infoSeq := full % 65536 }).canSend n j true
      (lsfId own conn) true (padData (body ++ natLe 4 crc) 24)
  else (s2.bump (lsfCnt k) 0 8).raise pgLsf 5

/-- Binding j of SAFE_LSF_MAP with role `role` reads its bit at the safe value 0 (R204, R226). -/
def State.lsfOpen (s : State) (role : Nat) : Bool :=
  (List.range 4).any (fun j =>
    s.rf_ safeLsfMap (8 * j + 6) 2 == role &&
      (let d := s.lsfDelivered (s.rf_ safeLsfMap (8 * j) 6)
       let b := s.rf_ (lsfMapBit + 4 * j) 0 9
       !((nth d (b / 8) 0).toNat.testBit (b % 8))))

end Sys2Proof.Machine
end

