-- ==== Sys2Proof/Machine/Ramp.lean ====
section
/-! DEFINITION. The ramp arithmetic of R69 to R71 and R81 in fixed point: quantities × 2^16, times in units of which
2^28 make a servo period (log entry 6). A plan is a list of segments; every distance and duration is computed from
the same segments that the set-points are taken from. -/

namespace Sys2Proof.Machine

/-- Time units in a second. -/
def tUnit : Int := 16000 * 2 ^ 28

/-- 1.0 of the shape functions. -/
def q32 : Int := 2 ^ 32

/-- Product of two numbers at scale 2^32. -/
def mulQ (a b : Int) : Int := a * b / q32

/-- The limits a plan is made under (Table 4.1), in register units. -/
structure Lims where
  vm : Int
  am : Int
  dm : Int
  ja1 : Int
  ja2 : Int
  jd1 : Int
  jd2 : Int
  shape : Shape
  deriving DecidableEq, Repr

/-- K of Table 4.2, at scale 2^32. -/
def kOf : Shape → Int
  | .constJerk => 4294967296
  | .sine => 6746518852
  | .poly5 => 8053063680

/-- π at scale 2^32. -/
def piQ : Int := 13493037705

/-- The Taylor sum of cosine: x² and the terms already divided, at scale 2^32. -/
def cosTaylor (x2 : Int) : Nat → Int → Int → Int
  | 0, _, _ => 0
  | n + 1, k, term => term + cosTaylor x2 n (k + 2) (-(mulQ term x2) / ((k + 1) * (k + 2)))

/-- cos(πu) for u in [0, 1]. -/
def cosPi (u : Int) : Int :=
  if 2 * u ≤ q32 then let x := mulQ piQ u; cosTaylor (mulQ x x) 9 0 q32
  else let x := mulQ piQ (q32 - u); -(cosTaylor (mulQ x x) 9 0 q32)

/-- sin(πu) for u in [0, 1]. -/
def sinPi (u : Int) : Int :=
  let w := if 2 * u ≤ q32 then u else q32 - u
  let x := mulQ piQ w
  cosTaylor (mulQ x x) 9 1 x

/-- The rise of a lobe at u, from 0 to 1 (Table 4.2). -/
def shapeF (sh : Shape) (u : Int) : Int :=
  match sh with
  | .constJerk => u
  | .sine => (q32 - cosPi u) / 2
  | .poly5 =>
    let u3 := mulQ (mulQ u u) u
    10 * u3 - 15 * mulQ u3 u + 6 * mulQ (mulQ u3 u) u

/-- The first integral of the rise. -/
def shapeF1 (sh : Shape) (u : Int) : Int :=
  match sh with
  | .constJerk => mulQ u u / 2
  | .sine => u / 2 - sinPi u * q32 / (2 * piQ)
  | .poly5 =>
    let u4 := mulQ (mulQ u u) (mulQ u u)
    5 * u4 / 2 - 3 * mulQ u4 u + mulQ u4 (mulQ u u)

/-- The second integral of the rise; at u = 1 it is (1 - C)/2. -/
def shapeF2 (sh : Shape) (u : Int) : Int :=
  match sh with
  | .constJerk => mulQ (mulQ u u) u / 6
  | .sine => mulQ u u / 4 - (q32 - cosPi u) * q32 / (2 * mulQ piQ piQ)
  | .poly5 =>
    let u5 := mulQ (mulQ (mulQ u u) (mulQ u u)) u
    u5 / 2 - mulQ u5 u / 2 + mulQ u5 (mulQ u u) / 7

/-- The derivative of the rise. -/
def shapeD (sh : Shape) (u : Int) : Int :=
  match sh with
  | .constJerk => q32
  | .sine => mulQ piQ (sinPi u) / 2
  | .poly5 => 30 * mulQ (mulQ u u) (mulQ (q32 - u) (q32 - u))

/-- The duration of a lobe that changes the acceleration by `a` at jerk limit `j` (R69). -/
def lobeDur (sh : Shape) (a j : Int) : Int := kOf sh * a.natAbs * tUnit / (q32 * 65536 * max j 1)

/-- The state `t` into a segment entered at rest position 0 with speed `v`: distance, speed, acceleration, jerk. -/
def segAt (sh : Shape) (v : Int) (g : Seg) (t : Int) : SetPt :=
  let d := max g.dur 1
  let u := t * q32 / d
  let da := g.a1 - g.a0
  { x := v * t / tUnit + (g.a0 * t * t / 2 + da * shapeF2 sh u * d * d / q32) / (tUnit * tUnit)
    v := v + (g.a0 * t + da * shapeF1 sh u * d / q32) / tUnit
    a := g.a0 + mulQ da (shapeF sh u)
    j := if g.dur ≤ 0 then 0 else mulQ da (shapeD sh u) * tUnit / d }

/-- Distance and speed at the end of a list of segments, from speed `v`. -/
def segsEnd (sh : Shape) : Int → List Seg → Int × Int
  | v, [] => (0, v)
  | v, g :: r => let e := if g.dur ≤ 0 then (⟨0, v, 0, 0⟩ : SetPt) else segAt sh v g g.dur
    let q := segsEnd sh e.v r
    (e.x + q.1, q.2)

/-- The duration of a list of segments. -/
def segsDur (l : List Seg) : Int := l.foldl (fun d g => d + max g.dur 0) 0

/-- The state at time `t` along segments, entered at position `x` and speed `v`; a cruise follows the last. -/
def segsAt (sh : Shape) (x v t : Int) : List Seg → SetPt
  | [] => ⟨x + v * t / tUnit, v, 0, 0⟩
  | g :: r =>
    if t < g.dur then let e := segAt sh v g t; { e with x := x + e.x }
    else if g.dur ≤ 0 then segsAt sh x v t r
    else let e := segAt sh v g g.dur; segsAt sh (x + e.x) e.v (t - g.dur) r

/-- Bisection for the integer square root over Int. -/
def sqrtBits : Nat → Int → Int → Int
  | 0, _, r => r
  | k + 1, x, r => let t := r + 2 ^ k; sqrtBits k x (if t * t ≤ x then t else r)

/-- Square root rounded down, 0 for negatives. -/
def isqrtI (x : Int) : Int := if x ≤ 0 then 0 else sqrtBits (Nat.log2 x.toNat / 2 + 1) x 0

/-- ramp(dv, A, Jh, Jl) of R70 as durations of its high-speed lobe, plateau and low-speed lobe, and its peak. -/
def rampParts (sh : Shape) (dv a jh jl : Int) : Int × Int × Int × Int :=
  let s := lobeDur sh a jh
  let r := lobeDur sh a jl
  if a * (s + r) ≤ 2 * dv * tUnit then (s, dv * tUnit / max a 1 - (s + r) / 2, r, a)
  else
    let ap := isqrtI (2 * a * dv * tUnit / max (s + r) 1)
    let s2 := s * ap / max a 1
    let r2 := r * ap / max a 1
    (s2, if ap = 0 then 0 else max (dv * tUnit / ap - (s2 + r2) / 2) 0, r2, ap)

/-- The segments of a deceleration by `dv`. -/
def downSegs (sh : Shape) (dv a jh jl : Int) : List Seg :=
  let (s, c, r, ap) := rampParts sh dv a jh jl
  if ap = 0 then [] else [⟨s, 0, -ap⟩, ⟨c, -ap, -ap⟩, ⟨r, -ap, 0⟩]

/-- The segments of an acceleration by `dv`: the time-reverse (R70). -/
def upSegs (sh : Shape) (dv a jh jl : Int) : List Seg :=
  let (s, c, r, ap) := rampParts sh dv a jh jl
  if ap = 0 then [] else [⟨r, 0, ap⟩, ⟨c, ap, ap⟩, ⟨s, ap, 0⟩]

/-- lobe0 of R70: bring acceleration a0 to zero. -/
def lobe0 (L : Lims) (a0 : Int) : List Seg :=
  if a0 = 0 then [] else [⟨lobeDur L.shape a0 (if 0 < a0 then L.ja2 else L.jd2), a0, 0⟩]

/-- The speed lobe0 ends at. -/
def lobe0V (L : Lims) (v a : Int) : Int := (segsEnd L.shape v (lobe0 L a)).2

/-- The stop ramp without slack: lobe0, then ramp(v1, DM, JD1, JD2); none where lobe0 takes the speed through 0. -/
def stopSegs (L : Lims) (v a : Int) : Option (List Seg) :=
  let v1 := lobe0V L v a
  if v1 < 0 then none else some (lobe0 L a ++ downSegs L.shape v1 (L.dm * 65536) L.jd1 L.jd2)

/-- dstop of R70, × 2^16. -/
def dstop (L : Lims) (v a : Int) : Option Int := (stopSegs L v a).map (fun l => (segsEnd L.shape v l).1)

/-- A distance rounded up to whole µm. -/
def ceilUm (x : Int) : Int := -((-x) / 65536)

/-- feasible of R70; the distance `d` is × 2^16. -/
def feasible (L : Lims) (v a d : Int) : Bool :=
  match dstop L v a with
  | none => false
  | some x => decide (ceilUm x * 65536 ≤ d)

/-- The stop ramp with its slack cruise inserted after lobe0 (R76). -/
def stopWithSlack (L : Lims) (v a d : Int) : List Seg :=
  match stopSegs L v a with
  | none => []
  | some l =>
    let v1 := lobe0V L v a
    let slack := max (d - (segsEnd L.shape v l).1) 0
    lobe0 L a ++ [⟨if v1 ≤ 0 then 0 else slack * tUnit / v1, 0, 0⟩] ++ downSegs L.shape v1 (L.dm * 65536) L.jd1 L.jd2

/-- Speed mode of R74 from speed `v` and acceleration `a`; `ramped`: never raise the speed again. Above MOT_VCAP with an
acceleration already negative, lobe0 brings it to 0 at JD2 first (DESIGN CHOICE, log entry 199). -/
def speedSegs (L : Lims) (ramped : Bool) (v a : Int) : List Seg :=
  let vm := L.vm * 65536
  let am := L.am * 65536
  let v1 := lobe0V L v a
  if ramped || decide (vm ≤ v1) then
    lobe0 L a ++ (if vm < v1 then downSegs L.shape (v1 - vm) (L.dm * 65536) L.jd1 L.jd2 else [])
  else if a ≤ 0 then lobe0 L a ++ upSegs L.shape (vm - v1) am L.ja2 L.ja1
  else
    let sA := lobeDur L.shape am L.ja1
    let sB := lobeDur L.shape am L.ja2
    if am < a then
      let h := lobeDur L.shape a L.ja2
      let c := (2 * (vm - v) * tUnit - a * h) / (2 * max am 1)
      [⟨lobeDur L.shape (a - am) L.ja2, a, am⟩, ⟨c, am, am⟩, ⟨sB, am, 0⟩]
    else
      -- 2·AM·(V - v)/(sA + sB) + a²·sA/(sA + sB) = ap²
      let ap := isqrtI ((2 * am * (vm - v) * tUnit + a * a * sA) / max (sA + sB) 1)
      let pk := min ap am
      let r := lobeDur L.shape (pk - a) L.ja1
      let s := lobeDur L.shape pk L.ja2
      let gain := (segsEnd L.shape v [⟨r, a, pk⟩, ⟨s, pk, 0⟩]).2
      [⟨r, a, pk⟩, ⟨if pk = 0 then 0 else max ((vm - gain) * tUnit / pk) 0, pk, pk⟩, ⟨s, pk, 0⟩]

/-- The blend of case B (R81) for plateau deceleration `a1`: none where the velocity condition gives t_p < 0. -/
def blendSegs (L : Lims) (v a a1 : Int) : Option (List Seg) :=
  let first : List Seg :=
    if 0 < a then [⟨lobeDur L.shape a L.ja2, a, 0⟩, ⟨lobeDur L.shape a1 L.jd1, 0, -a1⟩]
    else if a ≤ -a1 then [⟨lobeDur L.shape (a + a1) L.jd2, a, -a1⟩]
    else [⟨lobeDur L.shape (a + a1) L.jd1, a, -a1⟩]
  let t3 := lobeDur L.shape a1 L.jd2
  let v1 := (segsEnd L.shape v first).2
  let num := 2 * v1 * tUnit - a1 * t3
  if num < 0 || a1 ≤ 0 then none else some (first ++ [⟨num / (2 * a1), -a1, -a1⟩, ⟨t3, -a1, 0⟩])

/-- Bisection for A1 of case B: `lo` stays on the side that travels `d` or more. -/
def blendBisect (L : Lims) (v a d : Int) : Nat → Int → Int → Int
  | 0, lo, _ => lo
  | n + 1, lo, hi =>
    let m := (lo + hi) / 2
    match blendSegs L v a m with
    | none => blendBisect L v a d n lo m
    | some l => if (segsEnd L.shape v l).1 < d then blendBisect L v a d n lo m else blendBisect L v a d n m hi

/-- Case B of R81: the blend whose distance equals `d`, found by a 32-step bisection; none where no A1 in (0, DMAX]
reaches it to within 1 µm. -/
def blend (L : Lims) (v a d : Int) : Option (List Seg) :=
  let top := L.dm * 65536
  let reaches (a1 : Int) : Option (List Seg) :=
    match blendSegs L v a a1 with
    | none => none
    | some l => if (((segsEnd L.shape v l).1 - d).natAbs : Int) ≤ 65536 then some l else none
  match reaches top with
  | some l => some l
  | none => reaches (blendBisect L v a d 32 0 top)

/-- Bisection for the instant at which the speed of a lobe reaches zero. -/
def zeroBisect (sh : Shape) (v : Int) (g : Seg) : Nat → Int → Int → Int
  | 0, lo, _ => lo
  | n + 1, lo, hi =>
    let m := (lo + hi) / 2
    if 0 < (segAt sh v g m).v then zeroBisect sh v g n m hi else zeroBisect sh v g n lo m

/-- A controlled stop (R94): its segments and its length. -/
def holdSegs (L : Lims) (v a : Int) : List Seg × Int :=
  match stopSegs L v a with
  | some l => (l, segsDur l)
  | none => match lobe0 L a with
    | [] => ([], 0)
    | g :: _ => ([g], zeroBisect L.shape v g 64 0 g.dur)

/-- The state of a plan at tick `n` (R69): position and speed in absolute direction. -/
def Plan.at (p : Plan) (n : Nat) : SetPt :=
  let t := ((n - p.t0 : Nat) : Int) * 2 ^ 28
  let sg : Int := if p.up then 1 else -1
  let mk (e : SetPt) : SetPt := ⟨p.x0 + sg * e.x, sg * e.v, sg * e.a, sg * e.j⟩
  match p.len with
  | none => mk (segsAt p.shape 0 p.v0 t p.segs)
  | some l =>
    if t < l then mk (segsAt p.shape 0 p.v0 t p.segs)
    else match p.endX with
      | some x => ⟨x * 65536, 0, 0, 0⟩
      | none => ⟨p.x0 + sg * (segsAt p.shape 0 p.v0 l p.segs).x, 0, 0, 0⟩

/-- Whether a plan has ended at tick `n`. -/
def Plan.done (p : Plan) (n : Nat) : Bool :=
  match p.len with
  | none => false
  | some l => decide (l ≤ ((n - p.t0 : Nat) : Int) * 2 ^ 28)

/-- The time from tick `n` to a plan's end, in time units. -/
def Plan.left (p : Plan) (n : Nat) : Int :=
  match p.len with
  | none => 0
  | some l => max (l - ((n - p.t0 : Nat) : Int) * 2 ^ 28) 0

/-- Time units to µs, rounded up; what the fixed point's own rounding adds (below 1 ns) is not counted (log entry 6). -/
def unitsToUs (t : Int) : Nat := (-((4096 - t) * 125 / (2 ^ 29))).toNat

/-- Distance of a run's two ramps with peak speed `v` (× 2^16). -/
def rampsX (L : Lims) (v : Int) : Int :=
  (segsEnd L.shape 0 (upSegs L.shape v (L.am * 65536) L.ja2 L.ja1)).1 +
  (segsEnd L.shape v (downSegs L.shape v (L.dm * 65536) L.jd1 L.jd2)).1

/-- Duration of a run's two ramps. -/
def rampsT (L : Lims) (v : Int) : Int :=
  segsDur (upSegs L.shape v (L.am * 65536) L.ja2 L.ja1) + segsDur (downSegs L.shape v (L.dm * 65536) L.jd1 L.jd2)

/-- The 25-step bisection of R71 over whole µm/s. -/
def trunBisect (L : Lims) (d : Int) : Nat → Int → Int → Int
  | 0, lo, _ => lo
  | n + 1, lo, hi =>
    let m := (lo + hi) / 2
    if rampsX L (m * 65536) ≤ d * 65536 then trunBisect L d n m hi else trunBisect L d n lo m

/-- The quadratic of R71 for the peak speed, × 2^16. -/
def trunPeak (L : Lims) (d : Int) : Int :=
  let k := kOf L.shape
  let c : Int := match L.shape with
    | .constJerk => 2863311531
    | .sine => 3017825988
    | .poly5 => 3067833783
  let q := 3 * q32 / 8 - c / 2
  let ta1 := k * L.am / max L.ja1 1
  let ta2 := k * L.am / max L.ja2 1
  let td1 := k * L.dm / max L.jd1 1
  let td2 := k * L.dm / max L.jd2 1
  let al := (2 ^ 64 / (2 * max L.am 1)) + (2 ^ 64 / (2 * max L.dm 1))
  let be := (ta2 + td1) / 2
  let ga := (L.am * q * (ta1 * ta1 - ta2 * ta2) + L.dm * q * (td2 * td2 - td1 * td1)) / (q32 * q32)
  let root := isqrtI (be * be + 4 * al * (d * q32 - ga) / q32)
  (root - be) * 2 ^ 48 / (2 * max al 1)

/-- t_run(d) of R71 in time units. -/
def trunT (L : Lims) (d : Int) : Int :=
  let vm := L.vm * 65536
  let rest (v : Int) : Int := rampsT L v + (d * 65536 - rampsX L v) * tUnit / max v 1
  if rampsX L vm ≤ d * 65536 then rest vm
  else
    let half (a j1 j2 : Int) : Int := a * 65536 * (lobeDur L.shape (a * 65536) j1 + lobeDur L.shape (a * 65536) j2) / (2 * tUnit)
    let vp := trunPeak L d
    if vp < max (half L.am L.ja1 L.ja2) (half L.dm L.jd1 L.jd2) then
      rest (trunBisect L d 25 0 L.vm * 65536)
    else rest vp

/-- t_run(d) in µs, rounded up (R71). -/
def trunUs (L : Lims) (d : Int) : Nat := unitsToUs (trunT L d)

/-- The latest instant along a speed plan at which the stop to distance `d` is still feasible, by bisection. -/
def rampInstant (L : Lims) (v d : Int) (segs : List Seg) : Nat → Int → Int → Int
  | 0, lo, _ => lo
  | n + 1, lo, hi =>
    let m := (lo + hi) / 2
    let e := segsAt L.shape 0 v m segs
    if feasible L e.v e.a (d - e.x) then rampInstant L v d segs n m hi else rampInstant L v d segs n lo m

/-- The duration of the plan of APPROACH (R79): speed mode, cruise, and the stop ramp with its slack, begun in the last
period at whose tick the stop is still feasible (R76). -/
def approachT (L : Lims) (ramped : Bool) (v a d : Int) : Int :=
  let segs := speedSegs L ramped v a
  let span := segsDur segs + (if L.vm ≤ 0 then 0 else d * tUnit / (L.vm * 65536)) + tUnit
  let t := rampInstant L v d segs 52 0 span / 2 ^ 28 * 2 ^ 28
  let e := segsAt L.shape 0 v t segs
  t + segsDur (stopWithSlack L e.v e.a (d - e.x))

end Sys2Proof.Machine
end

