-- ==== Sys2Proof/Machine/DoorOps.lean ====
section
/-! DEFINITION. The shared operations of a door axis (chapter 9): limits, plans, state changes, requests, gearing,
the force estimate and the stage's power. Set-point position, velocity and acceleration are held × 2^16, positive
towards open. -/

namespace Sys2Proof.Machine

/-- ERR of a page records a refusal (R31, Table 2.5): CODE, OFFSET, PORT, COUNT saturating, HOST_ERR. -/
def State.errNote (s : State) (pg off : Nat) (src : Src) (code : Nat) : State :=
  let e := pg * 4096 + 0x10
  let n := min (s.rf_ e 24 8 + 1) 255
  (s.wr e (pack [(0, 8, code), (8, 12, off), (20, 4, src.port), (24, 8, n)])).raise pg 0

/-- The mass of R163, g. -/
def State.doorMass (s : State) (c : Chan) : Nat :=
  max (if (s.door c).learned then s.dr c doorMassG else s.dr c doorMassMax) 1

/-- The speed cap from an energy in mJ and a mass in g (R164), µm/s. -/
def energySpeed (e m : Nat) : Nat := isqrt (2000000000000 * e / max m 1)

/-- v_E, published in DOORx_V_E (R164). -/
def State.doorVE (s : State) (c : Chan) : Nat := energySpeed (s.dr c doorEmax) (s.doorMass c)

/-- The energy speed cap on a motion (R162, R164, R176): v_E, in a nudging close of DOORx_ENUDGE, in a learning of
DOORx_MASS_MAX. -/
def State.doorCap (s : State) (c : Chan) (opening : Bool) : Nat :=
  let d := s.door c
  if d.learn.isSome then energySpeed (s.dr c doorEmax) (s.dr c doorMassMax)
  else if !opening && d.nudge then min (s.doorVE c) (energySpeed (s.dr c doorEnudge) (s.doorMass c))
  else s.doorVE c

/-- The profile speed of a motion. -/
def State.doorOwnSpeed (s : State) (c : Chan) (opening : Bool) : Nat := if opening then s.dr c doorVopen else s.dr c doorVclose

/-- The speed limit of a motion (R162): profile speed, energy cap, nudging cap. -/
def State.doorSpeed (s : State) (c : Chan) (opening : Bool) : Nat := min (s.doorOwnSpeed c opening) (s.doorCap c opening)

/-- The limits of a door plan (R162). -/
def State.doorLims (s : State) (c : Chan) (opening : Bool) : Lims :=
  let a : Int := s.dr c doorAmax
  let j : Int := s.dr c doorJmax
  ⟨s.doorSpeed c opening, a, a, j, j, j, j, .constJerk⟩

/-- The part of a plan of linear segments up to time `t`. -/
def cutSegs (t : Int) : List Seg → List Seg
  | [] => []
  | g :: r =>
    if g.dur ≤ t then g :: cutSegs (t - max g.dur 0) r
    else if t ≤ 0 then [] else [⟨t, g.a0, (segAt .constJerk 0 g t).a⟩]

/-- The plan of a whole motion over distance `d` (× 2^16): speed mode, cruise, stop; a stop at once where `d` cannot
be met. -/
def motionSegs (L : Lims) (v a d : Int) : List Seg :=
  if feasible L v a d then
    let up := speedSegs L false v a
    let span := segsDur up + (if L.vm ≤ 0 then 0 else d * tUnit / (L.vm * 65536)) + tUnit
    let t := rampInstant L v d up 52 0 span
    let e := segsAt L.shape 0 v t up
    cutSegs t up ++ (if segsDur up < t then [⟨t - segsDur up, 0, 0⟩] else []) ++ stopWithSlack L e.v e.a (d - e.x)
  else (holdSegs L v a).1

/-- The distance a creeping set-point makes in one profile step of 1 ms (R162, R164), µm × 2^16. -/
def State.doorCreepStep (s : State) (c : Chan) (opening : Bool) : Int :=
  (min (s.dr c doorCreepVel) (s.doorCap c opening) : Nat) * 65536 / 1000

/-- The way a creeping axis moves: open only in an opening. -/
def Door.creepUp (d : Door) : Bool := d.st == .opening

/-- The tick of the next profile point after tick `k` (R12: every 16th period). -/
def State.nextPoint (s : State) (k : Nat) : Nat := k + 16 - (k - s.baseTick) % 16

/-- The set-point at this tick, interpolated linearly from the last profile or gear point to the next (R157), µm × 2^16. -/
def State.doorSpNow (s : State) (c : Chan) : Int :=
  let d := s.door c
  let n := s.nextPoint d.spTick
  let next := match d.plan with
    | some p => (p.at n).x
    | none => if d.creep then d.spPos + (if d.creepUp then 1 else -1) * s.doorCreepStep c d.creepUp else d.spPos
  d.spPos + (next - d.spPos) * (min (s.tick - d.spTick) (n - d.spTick) : Nat) / (n - d.spTick : Nat)

/-- The set-point of this tick becomes the point from which a new plan starts (R162). -/
def State.doorHere (s : State) (c : Chan) : State :=
  s.setDoor c { s.door c with spPos := s.doorSpNow c, spTick := s.tick }

/-- A door plan towards open or closed ending at `x` µm, from the present set-point. -/
def State.doorPlan (s : State) (c : Chan) (opening : Bool) (x : Int) : Plan :=
  let d := s.door c
  let sg : Int := if opening then 1 else -1
  let L := s.doorLims c opening
  let dist := sg * (x * 65536 - d.spPos)
  let segs := motionSegs L (sg * d.spVel) (sg * d.spAcc) dist
  { t0 := s.tick, up := opening, x0 := d.spPos, v0 := sg * d.spVel, segs := segs, shape := .constJerk
    len := some (segsDur segs)
    endX := if feasible L (sg * d.spVel) (sg * d.spAcc) dist then some x else none }

/-- A stop at DOORx_REV_DEC from the present set-point. -/
def State.doorStopPlan (s : State) (c : Chan) : Plan :=
  let d := s.door c
  let dec : Int := s.dr c doorRevDec * 65536
  let v : Int := d.spVel.natAbs
  let t := v * tUnit / max dec 1
  { t0 := s.tick, up := decide (0 ≤ d.spVel), x0 := d.spPos, v0 := v, segs := [⟨t, -dec, -dec⟩], shape := .constJerk
    len := some t, endX := none }

/-- Enter a state: STATE_CHG on a change; NUDGE clears at CLOSED and OPEN (R169). -/
def State.doorInto (s : State) (c : Chan) (st : DoorSt) : State :=
  let d := s.door c
  let t := s.setDoor c { d with
    st := st
    nudge := d.nudge && st != .closed && st != .opened
    lcBlockAt := if st = .closed then none else d.lcBlockAt
    stopAt := s.tick }
  if d.st = st then t else t.raise (doorPage c) 1

/-- POS_LOST sets (its interrupt on the change). -/
def State.doorLosePos (s : State) (c : Chan) : State :=
  let d := s.door c
  if d.posLost then s else (s.setDoor c { d with posLost := true }).raise (doorPage c) 10

/-- A count of encoder edges in excess of half a step (R159, Table 9.3), µm × 2^16 on both sides. -/
def State.overHalfStep (s : State) (c : Chan) (edges : Nat) : Bool :=
  decide (s.dr c doorStepUm < 2 * edges * (s.ri (doorEncScale (doorPage c))).natAbs)

/-- A count of encoder edges below half a step (R175). -/
def State.belowHalfStep (s : State) (c : Chan) (edges : Nat) : Bool :=
  decide (2 * edges * (s.ri (doorEncScale (doorPage c))).natAbs < s.dr c doorStepUm)

/-- Whether the DOOR supply or authority keeps the stage from running. -/
def State.doorHeld (s : State) (c : Chan) : Bool := (s.door c).uv || (s.door c).ov || !s.outputsMay

/-- An opening planned from the present set-point (R162). -/
def State.doorStartOpen (s0 : State) (c : Chan) : State :=
  let s := s0.doorHere c
  let t := s.setDoor c { s.door c with
    plan := some (s.doorPlan c true ((s.dr c doorWidthUm : Int) - s.dr c doorCreepUm))
    creep := false, fCnt := 0, fHold := 0, defer := false, obsWait := false, afterStop := none }
  t.doorInto c .opening

/-- A closing planned from the present set-point (R162). -/
def State.doorStartClose (s0 : State) (c : Chan) : State :=
  let s := s0.doorHere c
  let t := s.setDoor c { s.door c with
    plan := some (s.doorPlan c false (s.dr c doorCreepUm))
    creep := false, fCnt := 0, fHold := 0, defer := false, obsWait := false, stayOpen := false, afterStop := none
    lcBlockAt := none }
  t.doorInto c .closing

/-- A stop at REV_DEC into a state (STOPPED, REVERSING), remembering what follows at rest. -/
def State.doorStopInto (s0 : State) (c : Chan) (st : DoorSt) (after : Option DoorSt) : State :=
  let s := s0.doorHere c
  let t := s.setDoor c { s.door c with
    plan := some (s.doorStopPlan c), creep := false, fCnt := 0, afterStop := after
    cleanOpen := false, cleanClose := false, armed := false }
  t.doorInto c st

/-- Whether LC lets a closing start: ignored, or clear for DOORx_LC_CLEAR_MS (R167). -/
def State.lcOk (s : State) (c : Chan) : Bool :=
  let d := s.door c
  !s.rb (doorCfg (doorPage c)) 5 || d.nudge || (d.lcClear && s.since d.lcClearAt (msTicks (s.dr c doorLcClearMs)))

/-- A reversal (R168): decelerate at REV_DEC, then open. `byLc`: the light curtain caused it (R169). -/
def State.doorReverse (s : State) (c : Chan) (raised byLc : Bool) : State :=
  let d := s.door c
  let t := s.setDoor c { d with lcBlockAt := if byLc && d.lcBlockAt.isNone then some s.tick else d.lcBlockAt }
  let u := t.doorStopInto c .reversing none
  if raised then u.raise (doorPage c) 3 else u

/-- End a learning with nothing stored (R176): LEARN_ABORT, a stop, then a CLOSE. -/
def State.doorLearnAbort (s : State) (c : Chan) : State :=
  ((s.setDoor c { s.door c with learn := none }).doorStopInto c .stopped (some .closing)).raise (doorPage c) 13

/-- A geared axis ends by abort (R173), with the code of DOORx_GEAR_INFO.CAUSE. -/
def State.doorGearAbort (s : State) (c : Chan) (cause : Nat) : State :=
  if (s.door c).st = .geared then
    ((s.setDoor c { s.door c with gearCause := cause }).doorStopInto c .stopped (some .closing)).raise (doorPage c) 8
  else s

/-- An OPEN that acts (R167, Table 9.5): opening, or a reversal when closing. -/
def State.doorOpenAct (s : State) (c : Chan) : State :=
  let d := s.door c
  if d.uv || d.ov then s.setDoor c { d with waitReq := some true, waitAt := s.tick }
  else match d.st with
    | .closed =>
      let t := s.setDoor c { d with reqAt := s.tick, cleanOpen := true, obstruct := 0, cleanClose := false }
      t.doorStartOpen c
    | .geared =>
      let t := s.setDoor c { d with reqAt := s.tick, cleanOpen := false, obstruct := 0 }
      t.doorStartOpen c
    | .stopped =>
      let t := s.setDoor c { d with reqAt := s.tick, cleanOpen := false, obstruct := 0 }
      t.doorStartOpen c
    | .opened => s.setDoor c { d with defer := false, lcBlockAt := none }
    | .closing => s.doorReverse c false false
    | _ => s

/-- A CLOSE that acts (R167): closing, or deferred while LC is not clear; an axis without authority stays at rest (R160). -/
def State.doorCloseAct (s : State) (c : Chan) : State :=
  let d := s.door c
  if d.uv || d.ov then s.setDoor c { d with waitReq := some false, waitAt := s.tick }
  else if (d.st = .opened || d.st = .stopped) && s.outputsMay then
    if s.lcOk c then
      let t := s.setDoor c { d with reqAt := s.tick, cleanClose := decide (d.st = .opened) }
      t.doorStartClose c
    else s.setDoor c { d with
      defer := true, reqAt := if d.defer then d.reqAt else s.tick, cleanClose := decide (d.st = .opened)
      lcBlockAt := if d.lcBlockAt.isNone then some s.tick else d.lcBlockAt }
  else s

/-- A STOP (R167): any moving state stops at REV_DEC; gearing and a learning end as R173 and R176 say. -/
def State.doorStopAct (s : State) (c : Chan) : State :=
  match (s.door c).st with
  | .geared => s.doorGearAbort c 6
  | .learn => s.doorLearnAbort c
  | .opening => s.doorStopInto c .stopped none
  | .closing => s.doorStopInto c .stopped none
  | .reversing => s.doorStopInto c .stopped none
  | .homing => s.doorStopInto c .stopped none
  | .stopped => s.setDoor c { s.door c with afterStop := none, obsWait := false }
  | _ => s

/-- HOMING: close at DOORx_CREEP_VEL (R167). Without authority the stage does not restart and the axis stays (R160). -/
def State.doorStartHome (s0 : State) (c : Chan) : State :=
  let s := s0.doorHere c
  if !s.outputsMay then s0
  else
    let t := s.setDoor c { s.door c with
      plan := none, creep := true, homeTravel := 0, fHold := 0, learn := none, afterStop := none, defer := false
      obsWait := false }
    t.doorInto c .homing

/-- A host command that a higher event of the same evaluation has made meaningless records E_STATE (R170). -/
def State.doorDiscard (s : State) (c : Chan) : State :=
  match (s.door c).hostCmd with
  | some (k, src) => if k = s.tick then (s.setDoor c { s.door c with hostCmd := none }).errNote (doorPage c) 0x100 src 2 else s
  | none => s

/-- Enter FAULT with a code (R167): the stage is off. -/
def State.doorFaulted (s0 : State) (c : Chan) (code : Nat) : State :=
  let s := s0.doorDiscard c
  let d := s.door c
  let t := s.setDoor c { d with
    fault := code, plan := none, creep := false, learn := none, spVel := 0, spAcc := 0, refCount := d.count, armed := false
    afterStop := none, waitReq := none, defer := false, obsWait := false }
  let u := if d.learn.isSome then t.raise (doorPage c) 13 else t
  (u.doorInto c .fault).raise (doorPage c) 14

/-- Authority is lost (R160): the phases are shorted and the axis enters STOPPED. -/
def State.doorAuthLost (s0 : State) (c : Chan) : State :=
  let s := s0.doorDiscard c
  let d := s.door c
  match d.st with
  | .off => s
  | .unref => s
  | .fault => s
  | _ =>
    let t := s.setDoor c { d with
      plan := none, creep := false, learn := none, spVel := 0, spAcc := 0, armed := false, afterStop := none, waitReq := none
      defer := false, obsWait := false }
    let u := if d.learn.isSome then t.raise (doorPage c) 13 else t
    u.doorInto c .stopped

/-- Whether an axis is at rest (R174). -/
def Door.atRest (d : Door) : Bool := d.st == .closed || d.st == .opened || d.st == .stopped

/-- What the always-on domain keeps of an axis (R174): from rest its angle, set-point and count; what it holds of a stage
that is down stays; of a moving axis nothing. -/
def State.doorRetain (s : State) (c : Chan) : State :=
  let d := s.door c
  let pg := doorPage c
  if d.atRest then
    let idx := ((d.spPos * 256 / max (s.dr c doorStepUm : Int) 1) % 1024).toNat
    let t := (s.wr (doorRetAngle pg) (pack [(0, 10, idx), (17, 1, 1)])).wi (doorRetCnt pg) d.count
    t.setDoor c { d with retSt := d.st, retSp := d.spPos }
  else if d.st == .off then s
  else s.wr (doorRetAngle pg) 0

/-- A stage powered down, from CLOSED, OPEN or STOPPED only (R174). -/
def State.doorPowerDown (s : State) (c : Chan) : State :=
  if (s.door c).atRest then (s.doorRetain c).doorInto c .off else s

/-- A motor or encoder quantity in the axis' own sense: DOORx_DIR_INV reverses both. -/
def State.doorSense (s : State) (c : Chan) (x : Int) : Int := if s.rb (doorCfg (doorPage c)) 9 then -x else x

/-- A stage powered again (R175), with the encoder count and OVERRUN of the always-on domain. Where the encoder's supply was
`cut` while the stage was down, VALID has cleared (R379). -/
def State.doorPowerUp (s0 : State) (c : Chan) (raw : Int) (overrun cut : Bool) : State :=
  let s := if cut then s0.wf_ (doorRetAngle (doorPage c)) 17 1 0 else s0
  let d := s.door c
  let pg := doorPage c
  let count := s.doorSense c raw
  let valid := s.rb (doorRetAngle pg) 17 && !overrun && s.sys.aonPowered
  let moved := (count - s.ri (doorRetCnt pg)).natAbs
  let t := s.setDoor c { d with count := count }
  if valid && s.belowHalfStep c moved then
    let st := if d.retSt = .closed || d.retSt = .opened then d.retSt else .stopped
    let cz := s.ri (doorRetCnt pg) - d.retSp / s.ri (doorEncScale pg)
    (t.setDoor c { t.door c with spPos := d.retSp, posLost := false, refCount := count, spTick := s.tick, cntZero := cz }).doorInto c st
  else ((t.wf_ (doorRetAngle pg) 16 1 (b2n overrun)).doorLosePos c).doorInto c .unref

/-- D of R172, µm. -/
def State.gearD (s : State) : Int := (s.mot.targetPos - s.estPos).natAbs

/-- The used breakpoint with the smallest distance not below D: its index and ratio (R172). -/
def State.gearSegOf (s : State) (c : Chan) (d : Int) : Nat × Nat :=
  let pg := doorPage c
  (List.range 4).foldl (fun best i =>
    let x : Int := s.rn (doorGbDist pg + 4 * i)
    if 0 < x && d ≤ x && (best.1 == 0 || decide (x < (s.rn (doorGbDist pg + 4 * (best.1 - 1)) : Int)))
    then (i + 1, s.rn (doorGbRatio pg + 4 * i)) else best) (0, 0)

/-- POS_ARC, µm. -/
def State.arcUm (s : State) : Int := round16 s.pos.e

/-- Gear engagement (R171). -/
def State.doorEngage (s : State) (c : Chan) : State :=
  let d := s.door c
  let seg := s.gearSegOf c s.gearD
  if d.st = .closed && s.rb (doorCfg (doorPage c)) 3 && d.armed && s.mot.phase == .stopping &&
      s.serves s.mot.target c && s.el.bypOn && decide (s.estVel.natAbs ≤ s.dr c doorGearVmax) && 0 < seg.2 then
    let t := s.setDoor c { d with
      gearSeg := seg.1, gearCause := 0, gearLag := 0, gearD := s.gearD, gearArc := s.arcUm, cleanOpen := false, plan := none
      creep := false, fCnt := 0 }
    (t.doorInto c .geared).raise (doorPage c) 7
  else s

/-- The acceleration of the geared set-point (R163), µm/s² × 2^16: the ratio times the estimate's acceleration towards the
target; none where the speed cap or the end of the geared travel holds the set-point (log entry 207). -/
def State.gearAcc (s : State) (ratio : Nat) (held : Bool) : Int :=
  if held then 0 else (if s.mot.up then s.pos.a else -s.pos.a) * ratio / 65536

/-- One geared period (R172). -/
def State.doorGearStep (s : State) (c : Chan) : State :=
  let d := s.door c
  let dk := s.gearD
  let arc := s.arcUm
  let seg := s.gearSegOf c dk
  let raw : Int := if s.rb (doorCfg (doorPage c)) 4 then (arc - d.gearArc) * (if s.mot.up then 1 else -1) else d.gearD - dk
  let want := max raw 0 * seg.2 / 65536
  let top : Int := s.doorVE c / 16000
  let inc := min want top
  let stop : Int := ((s.dr c doorWidthUm : Int) - s.dr c doorCreepUm) * 65536
  let sp := min (d.spPos + inc * 65536) stop
  s.setDoor c { d with
    gearSeg := seg.1, gearD := dk, gearArc := arc, spPos := sp, spTick := s.tick, spVel := (sp - d.spPos) * 16000
    spAcc := s.gearAcc seg.2 (decide (top < want) || decide (stop ≤ sp))
    keLim := decide (top < want), gearLag := d.gearLag + (want - inc) }

/-- The abort conditions seen in the Door master update: grant, speed, MOT phase (R173). -/
def State.doorGearCheck (s : State) (c : Chan) : State :=
  let d := s.door c
  if d.st != .geared then s
  else match s.mot.phase with
    | .stopping =>
      if !s.el.bypOn then s.doorGearAbort c 1
      else if s.dr c doorGearVmax < s.estVel.natAbs then s.doorGearAbort c 2
      else s
    | .landed =>
      -- no opening request came in the period of RUN_DONE: GEAR_UNUSED, and the door closes
      (s.raise (doorPage c) 9).doorStartClose c
    | .idle => (s.raise (doorPage c) 9).doorStartClose c
    | .tripped => s.doorGearAbort c 4
    | _ => s.doorGearAbort c 3

/-- ARMED (R171): with OWNER = 0 from commitment to LANDED when the stop will open; a host's ARM_ADV arms the committed run
until LANDED, TRIPPED or HOLDING; and the breakpoint in force of a
committed run (R172). -/
def State.doorArm (s : State) (c : Chan) : State :=
  let d := s.door c
  let run := s.mot.committed && (s.mot.phase == .approach || s.mot.phase == .stopping || s.mot.phase == .prep)
  let kept := s.mot.committed && s.mot.phase != .landed && s.mot.phase != .tripped && s.mot.phase != .holding && s.mot.phase != .idle
  let auto := !s.rb (doorCfg (doorPage c)) 2 && (!s.sch.nocall || s.rb schCfg 0) && s.mode != .recall
  s.setDoor c { d with
    armed := (run && auto) || (kept && d.hostArmed), hostArmed := d.hostArmed && kept
    gearSeg := if s.mot.committed then (s.gearSegOf c s.gearD).1 else 0 }

/-- The Door master update of one axis (R12, R171 to R173). -/
def State.doorMaster (s : State) (c : Chan) : State :=
  if !s.doorEn c || (s.door c).uv || (s.door c).ov then s
  else if !s.outputsMay then s.doorArm c
  else
    let t := ((s.doorArm c).doorGearCheck c).doorEngage c
    let u := if (t.door c).st = .geared then t.doorGearStep c else t
    if (u.door c).st = .learn && !u.permit c then u.doorLearnAbort c else u

/-- Move a creeping set-point by one profile step of 1 ms towards open or closed, under the energy cap. -/
def State.doorCreep (s : State) (c : Chan) (opening : Bool) : Door :=
  let d := s.door c
  let v : Int := (min (s.dr c doorCreepVel) (s.doorCap c opening) : Nat)
  let sg : Int := if opening then 1 else -1
  { d with
    spPos := d.spPos + sg * s.doorCreepStep c opening, spTick := s.tick, spVel := sg * v * 65536, spAcc := 0
    homeTravel := d.homeTravel + s.doorCreepStep c opening
    keLim := decide (s.doorCap c opening < s.dr c doorCreepVel) }

/-- The speeds a learning runs at (R176): half the acceleration, half the lower of VOPEN and v_E at DOORx_MASS_MAX. -/
def State.learnLims (s : State) (c : Chan) : Lims :=
  let a : Int := (s.dr c doorAmax : Int) / 2
  let j : Int := s.dr c doorJmax
  let v : Int := (min (s.dr c doorVopen) (energySpeed (s.dr c doorEmax) (s.dr c doorMassMax)) : Nat)
  ⟨v / 2, a, a, j, j, j, j, .constJerk⟩

/-- Whether the energy cap holds a planned speed down in this period (R164): the cap is below the speed the axis would
otherwise have, and the set-point runs at it. -/
def State.doorKeLim (s : State) (c : Chan) (v : Int) : Bool :=
  let lim (capped own : Int) : Bool := decide (capped < own) && decide (capped * 65536 ≤ (v.natAbs : Int) + 65536)
  match (s.door c).st with
  | .opening => lim (s.doorSpeed c true) (s.doorOwnSpeed c true)
  | .closing => lim (s.doorSpeed c false) (s.doorOwnSpeed c false)
  | .learn => lim (s.learnLims c).vm ((s.dr c doorVopen : Int) / 2)
  | _ => false

/-- One profile step (R157, R162): the set-point of the plan in force, and the change to creep at its end. -/
def State.doorProfile (s : State) (c : Chan) : State :=
  let d := s.door c
  if s.doorHeld c || !s.doorEn c then s
  else match d.plan with
    | some p =>
      let e := p.at s.tick
      let fin := p.done s.tick
      let t := s.setDoor c { d with
        spPos := e.x, spTick := s.tick, spVel := e.v, spAcc := e.a
        plan := if fin then none else some p
        creep := fin && (d.st == .opening || d.st == .closing)
        keLim := s.doorKeLim c e.v }
      if fin && d.st == .stopped then
        match d.afterStop with
        | some .closing => (t.setDoor c { t.door c with afterStop := none }).doorCloseAct c
        | _ => t
      else t
    | none =>
      if d.creep then
        match d.st with
        | .opening => s.setDoor c (s.doorCreep c true)
        | .closing => s.setDoor c (s.doorCreep c false)
        | .homing => s.setDoor c (s.doorCreep c false)
        | .learn => s.setDoor c (s.doorCreep c false)
        | _ => s
      else if d.st = .stopped && d.afterStop = some .closing then
        (s.setDoor c { d with afterStop := none }).doorCloseAct c
      else if d.st = .geared then s
      else s.setDoor c { d with keLim := false }

/-- The live energy of R164, mJ. -/
def State.doorEnergyMj (s : State) (c : Chan) : Nat :=
  let v := ((s.door c).spVel / 65536).natAbs
  s.doorMass c * (v * v) / 2000000000000

/-- sin of an angle in 2^-16 revolution, at scale 2^32. -/
def sinTurn (theta : Int) : Int :=
  let t := theta % 65536
  if t < 32768 then sinPi (t * 131072) else -(sinPi ((t - 32768) * 131072))

/-- A phase-current limit derated above 100 °C (Table 9.2); the temperature is in 0.1 °C. -/
def derate (lim : Nat) (temp : Int) : Nat :=
  if temp ≤ 1000 then lim else ((lim : Int) * max (1500 - temp) 0 / 500).toNat

/-- The current limit in force (R158), mA. -/
def State.doorILim (s : State) (c : Chan) (temp : Int) : Nat :=
  min (s.dr c doorICeil) (derate (if (s.door c).peakOut then 8000 else 20000) temp)

/-- The adaptive current of a stepper (R161): moves towards its demand by at most 100 mA. -/
def stepperCurrent (hold ceil lim : Nat) (theta : Int) (now : Nat) : Nat :=
  let t := (min (max (theta - 4096) 0) 8192).toNat
  let ic := min (hold + (ceil - hold) * t / 8192) lim
  if now ≤ ic then min (now + 100) ic else max (now - 100) ic

/-- The torque current in the axis' own sense (R163), mA: for a stepper I × sin θ. -/
def State.doorIq (s : State) (c : Chan) (iq theta : Int) : Int :=
  if s.rb (doorCfg (doorPage c)) 1 then (s.door c).current * sinTurn theta / 4294967296 else s.doorSense c iq

/-- The direction of motion of an axis: of its set-point; at rest, that of the motion in hand. -/
def Door.dir (d : Door) : Int :=
  if d.spVel < 0 then -1 else if 0 < d.spVel then 1
  else match d.st, d.learn with
    | .closing, _ => -1
    | .homing, _ => -1
    | .learn, some l => if l.moves % 2 = 0 then -1 else 1
    | _, _ => 1

/-- F of R163 in 0.1 N, towards the direction of motion. -/
def State.doorForceOf (s : State) (c : Chan) (iq : Int) : Int :=
  let d := s.door c
  let sg : Int := d.spVel.sign
  let dir := d.dir
  let f := iq * s.dr c doorKf / 65536 - Int.tdiv (s.doorMass c * (d.spAcc / 65536)) 100000 - sg * s.dr c doorFriction
  dir * f

/-- Evaluations inside the last 10 s spent above the continuous limit (R158). -/
def peakUsed (now : Nat) (l : List (Nat × Nat)) : Nat :=
  l.foldl (fun n p => n + (p.2 - max p.1 (now - 80000))) 0

/-- Note one evaluation with the current above the continuous limit, and forget what lies before the window. -/
def peakNote (now : Nat) (above : Bool) (l : List (Nat × Nat)) : List (Nat × Nat) :=
  let kept := l.filter (fun p => decide (now < p.2 + 80000))
  if above then match kept with
    | (a, b) :: r => if b = now then (a, now + 1) :: r else (now, now + 1) :: (a, b) :: r
    | [] => [(now, now + 1)]
  else kept

/-- The end of an opening (R162): OPENED, the learned time (R177), OPEN. -/
def State.doorOpened (s : State) (c : Chan) : State :=
  let d := s.door c
  let pg := doorPage c
  let ms := (s.tick - d.reqAt) / 16
  let told := s.dr c doorTOpenMs
  let t := if d.cleanOpen && d.obstruct == 0 then s.wi (doorTOpenMs pg) ((told : Int) + Int.tdiv ((ms : Int) - told) 8) else s
  let u := t.setDoor c { d with
    creep := false, plan := none, spPos := s.doorSpNow c, spTick := s.tick, spVel := 0, spAcc := 0, cleanOpen := false, obstruct := 0 }
  (u.doorInto c .opened).raise pg 2

/-- LOCKED sets on a side (R167, R177): the retry count clears, and a clean closing updates its learned time. -/
def State.doorLocked (s : State) (c : Chan) : State :=
  let d := s.door c
  let pg := doorPage c
  let ms := (s.tick - d.reqAt) / 16
  let told := s.dr c doorTCloseMs
  let t := if d.cleanClose && d.st == .closed then s.wi (doorTCloseMs pg) ((told : Int) + Int.tdiv ((ms : Int) - told) 8) else s
  t.setDoor c { d with retry := 0, lockAt := none, stayOpen := false, cleanClose := d.cleanClose && d.st != .closed }

/-- LOCKED as Electrum shows it in this cycle, for an axis that has closed (R167). -/
def State.lockNote (s : State) (c : Chan) : State :=
  let d := s.door c
  if d.st = .closed ∧ s.locked c ∧ (d.lockAt.isSome ∨ d.retry ≠ 0 ∨ d.cleanClose) then s.doorLocked c else s

/-- F_LIM for two evaluations running while opening (R167): a stop with OBSTRUCT_OPEN, and at the third OPEN_FAIL. -/
def State.doorObstructed (s : State) (c : Chan) : State :=
  let d := s.door c
  let pg := doorPage c
  let n := d.obstruct + 1
  let t := (s.setDoor c { d with obstruct := n }).raise pg 4
  if 3 ≤ n then
    let u := ((t.doorStopInto c .opened none).setDoor c { (t.doorStopInto c .opened none).door c with obstruct := 0 })
    u.raise pg 5
  else
    let u := t.doorStopInto c .stopped none
    u.setDoor c { u.door c with obsWait := true }

end Sys2Proof.Machine
end

