-- ==== Sys2Proof/Machine/Trip.lean ====
section
/-! DEFINITION. The trip of Electrum (R190) and what it does to the run, the drive, the doors and the calibrations in
hand (R72, R96, R101, R173, R277); losing authority (R160, R283, R288). -/

namespace Sys2Proof

/-- The rank of reset kinds for SAFE_TRIP_FIRST (R190). -/
def TripKind.rank : TripKind → Nat
  | .auto => 0
  | .host => 1
  | .service => 2
  | .pit => 3
  | .power => 4

end Sys2Proof

namespace Sys2Proof.Machine

/-- Whether a MOT phase is one that the set-point drives the car in. -/
def State.moving (s : State) : Bool :=
  match s.mot.phase with
  | .speed => true
  | .approach => true
  | .stopping => true
  | .holding => s.mot.plan.isSome
  | .special => s.mot.moved
  | _ => false

/-- MOT_RT_EVENT bit `i` sets (Table 5.6). -/
def State.rtEvent (s : State) (i : Nat) : State := s.wf_ motRtEvent i 1 1

/-- The correction run fails (R89): HOME_ERR, HOME_FAIL, and the recorder. -/
def State.homeFailed (s : State) (e : HomeErr) : State :=
  let t := ({ s with mot := { s.mot with homeErr := e, hstep := .none } }).rtEvent 1
  t.fire 6 t.motRtStatusW

/-- Permission ends (R193): it stands until DRV releases the main contactors, or until a trip. -/
def State.permEnd (s : State) : State :=
  if s.el.perm then ({ s with el := { s.el with perm := false } }).raise pgSafe 3 else s

/-- DRV returns to OFF (Table 6.1): ENERGISE and FOLLOW released, contactors released, preload 0; the legacy port stops
with EN (R112, R113). -/
def State.drvOff (s : State) : State :=
  (({ s with drv := { s.drv with
      step := .off, energise := false, follow := false, liftReq := false, readyAt := none, stepAt := s.tick, ie := 0
      anNext := 0, pulses := 0 } }.wn drvPreload 0).wn drvAnOut 0).permEnd

/-- The set-point at rest on the published estimate, as in IDLE, HELD and TRIPPED (R72, R95). -/
def State.spFollow (s : State) : State :=
  { s with mot := { s.mot with sp := ⟨s.estPos * 65536, 0, 0, 0⟩, plan := none } }

/-- MOT enters TRIPPED (Table 4.3): streaming ends, a committed target is kept (R95, Table 5.4); a correction run ends
with HOME_ERR = TRIP (Table 5.2). -/
def State.motTrip (s : State) : State :=
  if s.mot.phase = .tripped then s
  else
    let corr := s.mot.phase == .special && s.mot.runType == .correction
    let t := if corr then s.homeFailed .trip else s
    { t with mot := { t.mot with
        phase := .tripped, plan := none, blend := false, trunPend := t.mot.trunPend
        keptHorizon := false, holdRun := false, proofDoors := [], proofOpen := false, autoTicks := 0, moved := false } }

/-- STANDSTILL and OUT_OF_SERVICE functions are abandoned (R277): calibrations, door homing and learning. -/
def State.abandonCals (s : State) : State :=
  let s1 := if s.pos.cal.isSome then ({ s with pos := { s.pos with cal := none } }).raise pgPos 10 else s
  let s2 := if s1.lwb.cal.isSome then ({ s1 with lwb := { s1.lwb with cal := none } }).raise pgLwb 3 else s1
  each [Chan.a, Chan.b] s2 (fun t c =>
    match (t.door c).st with
    | .learn => t.doorLearnAbort c
    | .homing => ((t.setDoor c { t.door c with creep := false, spVel := 0, spAcc := 0 }).doorInto c .unref).raise (doorPage c) 16
    | _ => t)

/-- Each channel commands its switch of an output of Table 10.2 (R185), noting the cycle in which the output changes. -/
def El.setSw (e : El) (slot : Nat) (onA onB : Bool) (cyc : Nat) : El :=
  let t := { e with a := { e.a with outs := e.a.outs.set slot onA }, b := { e.b with outs := e.b.outs.set slot onB } }
  if e.out slot = (onA && onB) then t
  else { t with chgAt := e.chgAt.set slot cyc, stoChgAt := if slot = 6 ∨ slot = 7 then cyc else e.stoChgAt }

/-- Both channels command one output of Table 10.2. -/
def El.setOut (e : El) (slot : Nat) (on : Bool) (cyc : Nat) : El := e.setSw slot on on cyc

/-- Outputs 0 to 7 off: everything of Table 10.2 but GOV (R190). -/
def El.allOff (e : El) : El := (List.range 8).foldl (fun x i => x.setOut i false e.cyc) e

/-- The first cause of several: highest kind, then lowest bit (R190). -/
def firstCause : List Nat → Option Nat
  | [] => none
  | c :: r => match firstCause r with
    | none => some c
    | some d =>
      let a := (causeKind c).rank
      let b := (causeKind d).rank
      if b < a ∨ (a = b ∧ c < d) then some c else some d

/-- The causes that show Electrum's own hardware, latched without authority too (R289); and those that hand over (R288). -/
def ownCause (c : Nat) : Bool := c == 15 || c == 17 || c == 18 || c == 19

/-- What the latching of causes does beside the latches: permission and bridging end, outputs 0 to 7 switch off. -/
def El.tripped (e : El) (new : List Nat) : El :=
  { e.allOff with
    causes := new.foldl setIns e.causes
    first := if e.causes.isEmpty then firstCause new else e.first
    st := .tripped, perm := false, bypOn := false, relevGrant := false, govTripped := e.govTripped || new.contains 5 }

/-- A latching in full: OVS2 trips the governor's output too (R190). -/
def El.latched (e : El) (new : List Nat) : El :=
  if new.contains 5 then (e.tripped new).setOut 8 false e.cyc else e.tripped new

/-- Losing authority (R160, R239, R284): the latch clears, doors short, outputs switch off, pending frames abort. -/
def State.loseAuthority (s : State) : State :=
  let s1 := { s with part := { s.part with latch := false, settle := none, lostNow := s.part.lostNow || s.part.latch } }
  let s2 := each [Chan.a, Chan.b] s1 (fun t c => t.doorAuthLost c)
  let s3 := { s2.wn drvAnOut 0 with
    drv := { s2.drv with anNext := 0, pulses := 0 }
    el := { s2.el.allOff.setOut 8 false s2.el.cyc with perm := false, bypOn := false, relevGrant := false } }
  each [0, 1, 2, 3] s3 (fun t n => t.canAbortAll n)

/-- Handover (R288): the latch clears, FAULTED sets, the module is STANDBY, and the partner link stops. -/
def State.handover (s : State) : State :=
  let t := s.loseAuthority
  ({ t with part := { t.part with faulted := true, sync := .none, resyncing := false, pres := .present } }).setRole .standby

/-- The causes of a trip, with UCM where it ends bridging while a door section or CDM pair is not closed and either channel
moves (R195). -/
def State.withUcm (s : State) (causes : List Nat) : List Nat :=
  if s.el.bypOn && !causes.isEmpty && !s.el.lockedAll && !s.el.still then setIns causes 3 else causes

/-- A trip (R190): latch the causes that may latch, remove power, hold the run, raise, record; hand over when the
cause and role ask for it (R288). The record fires when the state leaves NORMAL or START. -/
def State.tripAll (s : State) (asked : List Nat) : State :=
  let causes := s.withUcm asked
  let may := if s.authority then causes else causes.filter ownCause
  let new := may.filter (fun c => !s.el.causes.contains c)
  if new.isEmpty then s
  else
    let fresh := s.el.st != .tripped
    let perm := s.el.perm
    let byp := s.el.bypOn
    let s1 := { s with el := s.el.latched new }
    let s2 := if perm then s1.raise pgSafe 3 else s1
    let s3 := if byp then s2.raise pgSafe 4 else s2
    let s4 := (each [Chan.a, Chan.b] s3 (fun t c =>
      let u := t.doorGearAbort c 4
      u.setDoor c { u.door c with armed := false, hostArmed := false })).abandonCals
    let s5 := s4.motTrip.drvOff.spFollow
    let s6 := if fresh then ((s5.raise pgSafe 1).wf_ sysNmiStatus 2 1 1).fire 1 s5.safeTripW else s5
    if new.any ownCause && s6.part.role == .active then s6.handover else s6

/-- A trip for one cause. -/
def State.trip (s : State) (cause : Nat) : State := s.tripAll [cause]

/-- The engines' request for a trip, cause MODULE (Table 10.3). -/
def State.tripModule (s : State) : State := s.trip 15

end Sys2Proof.Machine
end

