-- ==== Sys2Proof/Machine/PosOps.lean ====
section
/-! DEFINITION. The position engine (chapter 3): fusion, source states, calibrations, and the load weighing bridge. -/

namespace Sys2Proof.Machine

/-- mulq of R43: (x × g) >> 16. -/
def mulq (x : Int) (g : Nat) : Int := x * g / 65536

/-- POS_CTRL.RUN. -/
def State.posRun (s : State) : Bool := s.rb posCtrl 0

/-- Gain word `w` of the present band (R46). -/
def State.gain (s : State) (w : Nat) : Nat := s.rf_ (posGain + 0x40 * s.pos.band + 4 * w) 0 16

/-- select_band of R45. -/
def State.selectBand (s : State) : Nat :=
  let v : Int := s.pos.v.natAbs
  let t (i : Nat) : Int := s.ri (posBandV1 + 4 * (i - 1))
  let b := s.pos.band
  if b < 3 ∧ t (b + 1) * 65536 ≤ v then b + 1
  else if 0 < b ∧ v < (t b - (t b).tdiv 16) * 65536 then b - 1
  else b

/-- Word length W of an encoder (R37). -/
def State.encWidth (s : State) (second : Bool) : Nat :=
  let lo := if second then 8 else 0
  if s.rf_ posEncCfg lo 2 = 2 then s.rf_ posEncCfg (lo + 2) 5 + 1 else 32

/-- The arc step of an encoder's new count (R37), µm × 2^16. -/
def State.arcStep (s : State) (second : Bool) (prev count : Word) : Int :=
  let w := s.encWidth second
  signed w ((count.toNat + 2 ^ 32 - prev.toNat) % 2 ^ w) * s.ri (if second then posEnc2Scale else posEnc1Scale)

/-- The arc step of a sample: none on the first, which has no count before it. -/
def State.encStep (s : State) (second : Bool) (x : EncSample) : Int :=
  if s.pos.wasRun then s.arcStep second (if second then s.pos.enc2 else s.pos.enc1).prev x.count else 0

/-- The suspended rope length of R42, mm. -/
def State.ropeMm (s : State) : Nat := (min (max ((s.ri posRopeTop * 65536 - s.pos.p).tdiv 65536000) 0) 1048575).toNat

/-- The reading of the configured axis (R41), µm/s². -/
def State.accAxis (s : State) (a : AccSample) : Int :=
  match s.rf_ posAccCfg 0 3 with
  | 0 => a.x
  | 1 => -a.x
  | 2 => a.y
  | 3 => -a.y
  | 4 => a.z
  | _ => -a.z

/-- f_acc of R41. -/
def State.fAcc (s : State) (a : AccSample) : Int := sat32 (s.accAxis a - s.ri posAccG)

/-- The watch of a simple source. -/
def Pos.watch (p : Pos) : PosSrc → SrcState
  | .enc1 => p.enc1.w.st
  | .enc2 => p.enc2.w.st
  | .sr => p.sr.st
  | .dza => p.dza.st
  | .dzb => p.dzb.st
  | .acc => p.acc.st
  | .load => p.load

/-- A door-zone channel. -/
def State.dz (s : State) (c : Chan) : DzCh :=
  match c with
  | .a => s.pos.dza
  | .b => s.pos.dzb

/-- Replace a door-zone channel. -/
def State.setDz (s : State) (c : Chan) (d : DzCh) : State :=
  match c with
  | .a => { s with pos := { s.pos with dza := d } }
  | .b => { s with pos := { s.pos with dzb := d } }

/-- A probation from zero. -/
def SrcWatch.probe (w : SrcWatch) (n : Nat) : SrcWatch := { w with st := .probation, n := n }

/-- A door-zone channel whose probation starts from zero. -/
def DzCh.probe (d : DzCh) : DzCh := { d with st := .probation, lostByWiring := false, misses := 0, good := 0 }

/-- A shaft reader whose probation starts from zero at `ns`. -/
def SrCh.probe (r : SrCh) (ns : Nat) : SrCh :=
  { r with st := .probation, prob := none, passed := false, overN := 0, lastAt := ns }

/-- Set a source's state with its counts at zero (Table 3.5). -/
def State.setSrc (s : State) (i : PosSrc) (st : SrcState) : State :=
  { s with pos := match i with
    | .enc1 => { s.pos with enc1 := { s.pos.enc1 with w := ⟨st, 0⟩, steps := [] } }
    | .enc2 => { s.pos with enc2 := { s.pos.enc2 with w := ⟨st, 0⟩, steps := [] } }
    | .sr => { s.pos with sr := { (s.pos.sr.probe s.ns) with st := st } }
    | .dza => { s.pos with dza := { s.pos.dza.probe with st := st } }
    | .dzb => { s.pos with dzb := { s.pos.dzb.probe with st := st } }
    | .acc => { s.pos with acc := ⟨st, 0⟩ }
    | .load => { s.pos with load := st } }

/-- VALID_CHG on a change of POS_STATUS.VALID (R54). -/
def State.posNote (s : State) : State :=
  if s.posValid = s.pos.validWas then s
  else ({ s with pos := { s.pos with validWas := s.posValid } }).raise pgPos 1

/-- A VALID source is lost (Table 3.5, R49): SRC_LOST, the recorder, and for ENC1 the request for a trip. -/
def State.sourceLost (s : State) (i : PosSrc) : State :=
  let t := (s.setSrc i .lost).raise pgPos 2
  let u := (t.fire 2 t.posSrcW).posNote
  if i = .enc1 then u.tripModule else u

/-- The arc is re-based so that the next encoder innovation is zero (R49); the slip rate starts again (R44). -/
def State.rebase (s : State) : State :=
  { s with pos := { s.pos with e := s.pos.p + s.pos.s + s.pos.d, sHist := [], slipRate := 0 } }

/-- A source becomes VALID (Table 3.5): SRC_BACK; the encoders are re-based (R49). -/
def State.sourceBack (s : State) (i : PosSrc) : State :=
  let t := (s.setSrc i .valid).raise pgPos 3
  let u := match i with
    | .enc1 => t.rebase
    | .enc2 => { t with pos := { t.pos with e2 := t.pos.p + t.pos.s + t.pos.d } }
    | _ => t
  u.posNote

/-- The landing in whose zone the car stands as ABS becomes 1 in a correction run (R91). -/
def State.absLanding (s : State) : State :=
  if s.mot.phase = .special ∧ s.mot.runType = .correction ∧ s.pos.band = 0 then
    match s.nearest s.estPos with
    | some n =>
      if ((s.estPos - s.level n).natAbs : Int) ≤ s.hw n then { s with mot := { s.mot with landing := n, landValid := true } } else s
    | none => s
  else s

/-- The absolute reference is established (R53). -/
def State.setAbs (s : State) : State :=
  (({ s with pos := { s.pos with abs := true, restored := false } } : State).absLanding).posNote

/-- The reader position of an answer, compensated for its age (R43). -/
def State.srZ (s : State) (z : Int) (ageUs : Nat) : Int :=
  (z + s.ri posSrOfs) * 65536 + (s.pos.v * ageUs).tdiv 1000000 +
    (((s.pos.a * ageUs).tdiv 1000000) * ageUs).tdiv 2000000

/-- The age of an answer at the present tick (R39), µs. -/
def State.srAge (s : State) (x : SrAns) : Nat := (s.ns - x.endNs) / 1000 + s.rf_ posSrCfg 0 16

/-- The loss conditions of Table 3.1 for the sources sampled at the tick. -/
def State.encBad (s : State) (second : Bool) (x : EncSample) : Bool :=
  x.fault || decide (1563 * 65536 < (s.encStep second x).natAbs)

/-- A sampled source meets its fault or a fault-free sample (Tables 3.1 and 3.5). `counts`: the sample counts towards
its probation. -/
def State.watchSrc (s : State) (i : PosSrc) (bad counts : Bool) : State :=
  let setN (w : SrcWatch) : State :=
    { s with pos := match i with
      | .enc1 => { s.pos with enc1 := { s.pos.enc1 with w := w } }
      | .enc2 => { s.pos with enc2 := { s.pos.enc2 with w := w } }
      | _ => { s.pos with acc := w } }
  let w := match i with
    | .enc1 => s.pos.enc1.w
    | .enc2 => s.pos.enc2.w
    | _ => s.pos.acc
  match w.st with
  | .absent => s
  | .valid => if bad then s.sourceLost i else s
  | .lost => if bad then s else setN (w.probe (b2n counts))
  | .probation => setN (if bad || !counts then w.probe 0 else w.probe (min (w.n + 1) 1600))

/-- The live load of a period (Table 3.1, R65): held at its last valid value while the bridge is not valid. -/
def State.takeLoad (s : State) : State :=
  match s.pos.load with
  | .absent => { s with pos := { s.pos with loadKg := 0 } }
  | .valid => if s.lwb.valid then { s with pos := { s.pos with loadKg := s.loadKg } } else s.sourceLost .load
  | st =>
    if s.lwb.valid then { s with pos := { s.pos with loadKg := s.loadKg, load := .probation } }
    else { s with pos := { s.pos with load := st } }

/-- The encoder correction of R43; a source that is not VALID leaves the prediction. -/
def State.fuseEnc (s : State) (step : Int) : State :=
  let q := s.pos
  let pp := q.p + q.v.tdiv 16000 + q.a.tdiv 512000000
  let vp := q.v + q.a.tdiv 16000
  if q.enc1.w.st = .valid then
    let e := q.e + step
    let y := satTo (e - q.s - q.d - pp) 4294967295
    { s with pos := { q with
        e := e, p := pp + mulq y (s.gain 0), v := vp + mulq y (s.gain 1) * 16000
        a := q.a + mulq y (s.gain 2) * 512000000 } }
  else { s with pos := { q with p := pp, v := vp } }

/-- The accelerometer correction of R43. -/
def State.fuseAcc (s : State) (f : Int) : State :=
  let q := s.pos
  if q.acc.st = .valid then
    let fq := f * 65536
    let a := q.a + mulq (satTo (fq - q.b - q.a) 8796093022207) (s.gain 3)
    let b := if q.band = 0 ∧ s.rb posCtrl 8 then q.b + mulq (satTo (fq - q.b) 8796093022207) (s.gain 4) else q.b
    { s with pos := { q with a := a, b := b } }
  else s

/-- The learned κ after a reader innovation (R43, R65). -/
def State.kappaLearn (s : State) (y : Int) (lmm : Nat) : Nat :=
  let q := s.pos
  let ll := q.loadKg * lmm
  if q.band = 0 ∧ s.rb posCtrl 7 ∧ s.lwb.valid ∧ s.rn posKappaLlMin * 1000 ≤ ll then
    let num := mulq y (s.gain 8) * 65536
    let x := if ll = 0 then Config.divByZero num else num.tdiv ll
    (min (max ((q.kap : Int) - x) 0) 0xFFFFFF).toNat
  else q.kap

/-- One accepted answer of a reader in PROBATION (R51). -/
def SrCh.probStep (r : SrCh) (tick : Nat) (y acceptQ : Int) : SrCh :=
  if r.passed then r
  else
    let fresh : SrProb := ⟨tick, y, y, y.natAbs, 1⟩
    match r.prob with
    | none => { r with prob := some fresh }
    | some b =>
      let lo := min b.lo y
      let hi := max b.hi y
      if acceptQ < hi - lo then { r with prob := some fresh }
      else { r with prob := some { b with lo := lo, hi := hi, sumAbs := b.sumAbs + y.natAbs, n := b.n + 1 }
                    passed := decide (b.startAt + msTicks 500 ≤ tick) }

/-- The shaft-reader correction of R43, with the conflict of Table 3.5 and the probation of R51. -/
def State.fuseSr (s : State) (lmm : Nat) : State :=
  match s.pos.sr.pend with
  | none => s
  | some x =>
    if s.ns ≤ x.endNs then s
    else
      let s0 := { s with pos := { s.pos with sr := { s.pos.sr with pend := none } } }
      let y := satTo (s0.srZ x.z (s0.srAge x) - s0.pos.p) 4294967295
      let acc : Int := s0.ri posSrAccept * 65536
      let q := s0.pos
      match q.sr.st with
      | .valid =>
        let n := if acc < Int.ofNat y.natAbs then q.sr.overN + 1 else 0
        let t := { s0 with pos := { q with
          innovSr := y, kap := s0.kappaLearn y lmm, p := q.p + mulq y (s0.gain 5)
          v := q.v + mulq y (s0.gain 6) * 4000, s := q.s - mulq y (s0.gain 7)
          sr := { q.sr with overN := n } } }
        if n < 8 then t
        else
          (({ t with pos := { t.pos with sr := { t.pos.sr with conflict := true } } }).raise pgPos 5).sourceLost .sr
      | .probation => { s0 with pos := { q with innovSr := y, sr := q.sr.probStep s.tick y acc } }
      | _ => s0

/-- Whether an edge stands at the lower boundary of a zone (R40); none where the direction is not defined. -/
def edgeLower (rising : Bool) (v : Int) : Option Bool := if v = 0 then none else some (rising == decide (0 < v))

/-- A boundary of landing `n` for a channel (R40), µm × 2^16. -/
def State.boundary (s : State) (c : Chan) (lower : Bool) (n : Nat) : Int :=
  (s.level n + (if lower then -(s.hw n) else s.hw n) + s.dzOfs c) * 65536

/-- edge_position of R43: the landing and its boundary nearest to the estimate. -/
def State.edgeAt (s : State) (c : Chan) (lower : Bool) : Option (Nat × Int) :=
  (nearestOf (s.boundary c lower) s.pos.p s.landings).map (fun n => (n, s.boundary c lower n))

/-- The distance that counts towards a probation: DZ_TOL, or DZ_CAPTURE without the reader (R52), µm × 2^16. -/
def State.dzTol (s : State) : Int := (if s.pos.sr.st = .valid then s.ri posDzTol else s.ri posDzCapture) * 65536

/-- An edge at `z` seen while a zone is passed (R52). -/
def State.passEdge (s : State) (c : Chan) (rising : Bool) (z : Int) (x : DzPass) : DzPass :=
  let lo := (z - s.boundary c true x.n).natAbs
  let hi := (z - s.boundary c false x.n).natAbs
  let kind := edgeLower rising s.pos.v
  { x with
    hit := x.hit || decide ((min lo hi : Int) ≤ s.ri posDzCapture * 65536)
    tolLo := x.tolLo || (kind == some true && decide ((lo : Int) ≤ s.dzTol))
    tolHi := x.tolHi || (kind == some false && decide ((hi : Int) ≤ s.dzTol)) }

/-- A channel shows an edge: where the estimate was at its stamp, against the zones it is passing (R52); none in band 0
(R40). -/
def State.dzShown (s : State) (c : Chan) (rising : Bool) (stampUs : Nat) : State :=
  let d := s.dz c
  let z := s.pos.p - (s.pos.v * ((s.us - stampUs : Nat) : Int)).tdiv 1000000
  if s.pos.band = 0 then s else s.setDz c { d with zones := d.zones.map (s.passEdge c rising z) }

/-- A single edge of a channel in the procedure of R43. -/
def State.fuseEdge (s : State) (c : Chan) (rising : Bool) (stampUs : Nat) : State :=
  let d := s.dz c
  if (d.st != .valid && d.st != .probation) || s.pos.band = 0 then s
  else match edgeLower rising s.pos.v with
    | none => s
    | some lower => match s.edgeAt c lower with
      | none => s
      | some (_, bnd) =>
        let z := bnd + (s.pos.v * ((s.us - stampUs : Nat) : Int)).tdiv 1000000
        let y := z - s.pos.p
        let t := { s with pos := { s.pos with innovDz := y } }
        if s.pos.sr.st = .valid then
          let miss := decide (s.ri posDzTol * 65536 < (y.natAbs : Int))
          let u := { t with pos := { t.pos with dzMismatch := miss } }
          if miss then u.raise pgPos 6 else u
        else if s.ri posDzCapture * 65536 < (y.natAbs : Int) then t.raise pgPos 7
        else if d.st = .valid then
          let ds := mulq y (s.gain 10)
          { t with pos := { t.pos with
              p := t.pos.p + mulq y (s.gain 9), s := t.pos.s - ds
              tractStep := t.pos.tractStep || decide (s.ri posTractStep * 65536 < (ds.natAbs : Int)) } }
        else t

/-- The edges of one channel since the last fusion: each counts as shown (R52); a single one is applied, two or more are
chatter (R40). -/
def State.fuseDz (s : State) (c : Chan) : State :=
  let d := s.dz c
  let t := d.edges.foldl (fun u (e : Bool × Nat) => u.dzShown c e.1 e.2) (s.setDz c { d with edges := [] })
  match d.edges with
  | [] => t
  | [(r, us)] => t.fuseEdge c r us
  | _ => if d.st = .absent then t else t.raise pgPos 11

/-- Whether the zone of landing `n`, widened by the capture distance, meets the span from `p0` to `p1` (R52). -/
def State.zoneMeets (s : State) (c : Chan) (p0 p1 : Int) (n : Nat) : Bool :=
  let w := s.ri posDzCapture * 65536
  decide (s.boundary c true n - w ≤ max p0 p1) && decide (min p0 p1 ≤ s.boundary c false n + w)

/-- Whether the estimate crossed `b` between two periods. -/
def crossed (b p0 p1 : Int) : Bool := (decide (p0 < b) && decide (b ≤ p1)) || (decide (p1 < b) && decide (b ≤ p0))

/-- Before the edges of a period: the zones the channel passes (R52). -/
def State.dzTrack (s : State) (c : Chan) (p0 : Int) : State :=
  let d := s.dz c
  if d.st = .absent ∨ d.st = .lost then s.setDz c { d with zones := [] }
  else
    let new := s.landings.filter (fun n => s.zoneMeets c p0 s.pos.p n && d.zones.all (fun x => x.n != n))
    s.setDz c { d with zones := d.zones ++ new.map (fun n => ⟨n, false, false, false, false, false⟩) }

/-- The boundaries of a zone that the estimate has crossed in a period, in band 1, 2 or 3 (R52). -/
def State.passCross (s : State) (c : Chan) (p0 : Int) (x : DzPass) : DzPass :=
  let run := s.pos.band != 0
  { x with
    crossLo := x.crossLo || (run && crossed (s.boundary c true x.n) p0 s.pos.p)
    crossHi := x.crossHi || (run && crossed (s.boundary c false x.n) p0 s.pos.p) }

/-- A passage of a zone has ended (R52): a miss, or a zone that counts towards a probation. -/
def State.passEnd (s : State) (c : Chan) (x : DzPass) : State :=
  if !(x.crossLo && x.crossHi) then s
  else
    let d := s.dz c
    let misses := if x.hit then 0 else d.misses + 1
    match d.st with
    | .valid =>
      let t := s.setDz c { d with misses := misses }
      if 2 ≤ misses then t.sourceLost (if c = .a then .dza else .dzb) else t
    | .probation =>
      let good := if x.tolLo && x.tolHi then min (d.good + 1) 2 else 0
      s.setDz c (if 2 ≤ misses then { d with misses := 0, good := 0 } else { d with misses := misses, good := good })
    | _ => s

/-- After the edges of a period: the boundaries crossed, by the edges' own corrections too, and the passages that have
ended (R52). -/
def State.dzEndCrossing (s : State) (c : Chan) (p0 : Int) : State :=
  let l := (s.dz c).zones.map (s.passCross c p0)
  let near (x : DzPass) : Bool := s.zoneMeets c s.pos.p s.pos.p x.n
  let t := s.setDz c { s.dz c with zones := l.filter near }
  each (l.filter (fun x => !near x)) t (fun u x => u.passEnd c x)

/-- A push onto a history of at most `n`, newest first. -/
def pushHist {α : Type} (l : List α) (n : Nat) (x : α) : List α := (x :: l).take n

/-- The speed of an encoder over 16 periods (R50), µm/s. -/
def EncCh.speed (c : EncCh) : Int := c.steps.foldl (· + ·) 0 * 1000 / 65536

/-- The encoder comparison of R50: how long the speeds have differed or agreed. -/
def State.encCompare (s : State) : State :=
  let q := s.pos
  if q.enc1.w.st = .valid ∧ q.enc2.w.st = .valid ∧ q.enc1.steps.length = 16 ∧ q.enc2.steps.length = 16 then
    if s.ri posEncDiff < ((q.enc1.speed - q.enc2.speed).natAbs : Int) then
      { s with pos := { q with diffTicks := min (q.diffTicks + 1) 160, agreeTicks := 0 } }
    else { s with pos := { q with diffTicks := 0, agreeTicks := min (q.agreeTicks + 1) 16000 } }
  else { s with pos := { q with diffTicks := 0, agreeTicks := 0 } }

/-- The slip rate of R44 and the time it has exceeded POS_TRACT_RATE (R56). -/
def State.slipNote (s : State) : State :=
  let q := s.pos
  let rate := match q.sHist[1599]? with
    | some old => (q.s - old) * 10 / 65536
    | none => 0
  let tooFast := q.sr.st == .valid && decide (s.ri posTractRate < (rate.natAbs : Int))
  { s with pos := { q with
      slipRate := rate, sHist := pushHist q.sHist 1600 q.s
      tractTicks := if tooFast then min (q.tractTicks + 1) (s.rn posTractTimeMs * 16) else 0 } }

/-- A calibration step of BIAS_CAL (R61): abandoned when the band leaves 0 or ACC is lost. -/
def State.biasCalStep (s : State) (f : Int) : State :=
  match s.pos.cal with
  | none => s
  | some (n, sum) =>
    if s.pos.band ≠ 0 ∨ s.pos.acc.st ≠ .valid then ({ s with pos := { s.pos with cal := none } }).raise pgPos 10
    else if n < 16000 then { s with pos := { s.pos with cal := some (n + 1, sum + f * 65536) } }
    else s

/-- A load calibration is abandoned when the band leaves 0 (R66). -/
def State.lwbCalWatch (s : State) : State :=
  if s.lwb.cal.isSome ∧ s.pos.band ≠ 0 then ({ s with lwb := { s.lwb with cal := none } }).raise pgLwb 3 else s

/-- The request of R38, every fourth tick; without authority the driver is off and the partner's is heard (Table 15.2). -/
def State.srRequest (s : State) : State :=
  if s.period % 4 = 0 ∧ s.pos.sr.st ≠ .absent then
    let r := s.pos.sr
    let q := if r.reqOut && s.authority then (r.reqSeq + 1) % 256 else r.reqSeq
    { s with pos := { s.pos with sr := { r with
        reqSeq := q, reqOut := true, reqAt := s.tick, reqFrame := if s.authority then [0x5A, BitVec.ofNat 8 q] else [] } } }
  else s

/-- d = κ · L · l, from the p of the previous period (R43). -/
def State.fuseStretch (t : State) : State :=
  { t with pos := { t.pos with d := (t.pos.kap : Int) * t.pos.loadKg * t.ropeMm / 65536 } }

/-- The arc steps of a period are kept for R50, ENC2's arc moves, and the counts become the previous ones. -/
def State.encStore (s : State) (i : TickIn) (st1 st2 : Int) : State :=
  let q := s.pos
  { s with pos := { q with
      enc1 := { q.enc1 with prev := i.enc1.count, steps := if q.enc1.w.st = .valid then pushHist q.enc1.steps 16 st1 else [] }
      enc2 := { q.enc2 with prev := i.enc2.count, steps := if q.enc2.w.st = .valid then pushHist q.enc2.steps 16 st2 else [] }
      e2 := if q.enc2.w.st = .valid then q.e2 + st2 else q.e2
      accFull := if i.acc.fullScale then min (q.accFull + 1) 16 else 0 } }

/-- The sources of Table 3.1 sampled at the tick, before the procedure of R43. -/
def State.watchAll (s : State) (i : TickIn) : State :=
  let b1 := s.encBad false i.enc1
  let b2 := s.encBad true i.enc2
  let full := i.acc.fullScale && decide (15 ≤ s.pos.accFull)
  let s1 := s.watchSrc .enc1 b1 (s.pos.band == 0)
  let s2 := s1.watchSrc .enc2 b2 true
  (s2.watchSrc .acc (i.acc.missing || i.acc.selfTestFail || full) true).takeLoad

/-- The Fusion phase (R43) and what follows it in the same period (R44, R50, R52, R56, R61). -/
def State.fusion (s : State) (i : TickIn) : State :=
  if !s.posRun then { s with pos := { s.pos with wasRun := false } }
  else
    let st1 := s.encStep false i.enc1
    let st2 := s.encStep true i.enc2
    let p0 := s.pos.p
    let s1 := { s with pos := { s.pos with band := s.selectBand } }
    let s2 := (s1.watchAll i).fuseStretch
    let f := s2.fAcc i.acc
    let lmm := s2.ropeMm
    let s3 := ((s2.fuseEnc st1).fuseAcc f).fuseSr lmm
    let s4 := (s3.dzTrack .a p0).dzTrack .b p0
    let s5 := (s4.fuseDz .a).fuseDz .b
    let s6 := (s5.dzEndCrossing .a p0).dzEndCrossing .b p0
    let s7 := ((s6.encStore i st1 st2).encCompare.slipNote.biasCalStep f).lwbCalWatch.srRequest
    ({ s7 with pos := { s7.pos with seq := s.period, wasRun := true } }).posNote

/-- The mean |y| of the reader's probation is at most POS_SR_ACCEPT (R51). -/
def State.srSmall (s : State) : Bool :=
  match s.pos.sr.prob with
  | none => false
  | some b => decide (b.sumAbs ≤ s.ri posSrAccept * 65536 * b.n)

/-- Whether the probation of a source has passed (Table 3.1, R51, R52). -/
def State.probationPassed (s : State) (i : PosSrc) : Bool :=
  let q := s.pos
  match i with
  | .enc1 => q.enc1.w.st == .probation && decide (1600 ≤ q.enc1.w.n) && q.band == 0
  | .enc2 => q.enc2.w.st == .probation && decide (1600 ≤ q.enc2.w.n)
  | .acc => q.acc.st == .probation && decide (1600 ≤ q.acc.n)
  | .load => q.load == .probation && s.lwb.valid
  | .dza => q.dza.st == .probation && decide (2 ≤ q.dza.good)
  | .dzb => q.dzb.st == .probation && decide (2 ≤ q.dzb.good)
  | .sr => q.sr.st == .probation && q.sr.passed && (s.srSmall || q.band == 0)

/-- p taken from the newest accepted answer, at its age at this tick (R51, R53). -/
def State.takeReader (s : State) (rest : Bool) : State :=
  match s.pos.sr.newest with
  | none => s
  | some x =>
    let t := { s with pos := { s.pos with p := s.srZ x.z (s.srAge x) } }
    (if rest then { t with pos := { t.pos with v := 0, a := 0 } } else t).rebase

/-- A source passes its probation (R48): used from the next period. The reader sets ABS (R51); p is taken from it where
its mean offset was too large, and where it is the first absolute reference (R53). -/
def State.sourceReturn (s : State) (i : PosSrc) : State :=
  if !s.probationPassed i then s
  else match i with
    | .sr =>
      let big := !s.srSmall
      let t := s.sourceBack .sr
      (if big || !s.pos.abs then t.takeReader big else t).setAbs
    | _ => s.sourceBack i

/-- An answer of the shaft reader (R39): accepted or rejected. Its end is stamped to the whole µs it ends in (R38, log
entry 198). Without authority it answers the partner's request, whose
sequence the module hears (Table 15.2). -/
def State.srAnswer (s : State) (l : List Byte) (endNs : Nat) : State :=
  let r := s.pos.sr
  if !s.posRun ∨ r.st = .absent then s
  else
    let tickAfter := (endNs / 62500 + 1) * 62500
    let stamp := endNs / 1000 * 1000
    let age := (tickAfter - stamp) / 1000 + s.rf_ posSrCfg 0 16
    let good := l.length = 8 ∧ slice l 6 2 = crc16Bytes (slice l 0 6) ∧ byteAt l 0 = 0 ∧ r.reqOut = true ∧
      (s.authority = true → byteAt l 5 = r.reqSeq) ∧ endNs < (r.reqAt - s.baseTick + 4) * 62500 ∧ age ≤ 2000
    if good then
      let x : SrAns := ⟨signed 32 (leNat (slice l 1 4)), stamp, byteAt l 5⟩
      let t := { s with pos := { s.pos with sr := { r with pend := some x, newest := some x, lastAt := endNs } } }
      let u := (t.wi posSrRaw x.z).wr posSrInfo (pack [(0, 16, age), (16, 8, x.seq), (24, 8, s.rf_ posSrInfo 24 8)])
      if r.st = .lost ∧ !r.conflict then { u with pos := { u.pos with sr := u.pos.sr.probe endNs } } else u
    else s.bump posSrInfo 24 8

/-- No accepted telegram for 2 ms (R36, Table 3.5). -/
def State.srTimeout (s : State) : State :=
  if s.pos.sr.lastAt + 2000000 ≤ s.ns then
    match s.pos.sr.st with
    | .valid => s.sourceLost .sr
    | .probation => { s with pos := { s.pos with sr := s.pos.sr.probe s.ns } }
    | _ => s
  else s

/-- A reader conflict that an Electrum channel judged on its own receiver clears (Table 3.5, R209). -/
def ElCh.reacq (c : ElCh) : ElCh :=
  if c.srConflict then { c with srConflict := false, srSt := .probation, srProb := none } else c

/-- POS_CMD.SR_REACQ (Table 3.5, R61): the conflict and the rejections clear. -/
def State.srReacq (s : State) : State :=
  let t := ({ s with el := { s.el with a := s.el.a.reacq, b := s.el.b.reacq } } : State).wf_ posSrInfo 24 8 0
  if s.pos.sr.conflict then
    { t with pos := { t.pos with sr := { (t.pos.sr.probe t.ns) with conflict := false } } }
  else t

/-- A door-zone edge as it is stamped (R40, R48): kept for the next fusion; the first edge of a LOST channel starts its
probation. -/
def State.dzEdgeSeen (s : State) (c : Chan) (rising : Bool) (stampUs : Nat) : State :=
  let d := s.dz c
  let d1 := { d with active := rising }
  if d.st = .absent ∨ !s.posRun then s.setDz c d1
  else
    let d2 := { d1 with edges := d1.edges ++ [(rising, stampUs)] }
    s.setDz c (if d.st = .lost ∧ !d.wiring then d2.probe else d2)

/-- A wiring fault on a door-zone channel makes it LOST at once (R52), from PROBATION too, where Table 3.5 lets probation
start again; DESIGN CHOICE, log entry 196. -/
def State.dzFault (s : State) (c : Chan) : State :=
  let d := s.dz c
  let t := s.setDz c { d with wiring := true }
  let i : PosSrc := if c = .a then .dza else .dzb
  match d.st with
  | .valid => let u := t.sourceLost i
    u.setDz c { u.dz c with lostByWiring := true }
  | .probation => t.setDz c { ((t.dz c).probe) with st := .lost, lostByWiring := true }
  | _ => t

/-- A wiring fault of X14 or X15 as the Electrum channel that reads the input judges it (R52, R209). -/
def DzCh.wire (d : DzCh) (on : Bool) : DzCh :=
  if on then
    (match d.st with
     | .valid | .probation => { d.probe with wiring := true, st := .lost, lostByWiring := true }
     | _ => { d with wiring := true })
  else
    (let e := { d with wiring := false }
     if d.st = .lost ∧ d.lostByWiring then e.probe else e)

/-- The same on a channel: lost until VALID again. -/
def ElCh.wire (c : ElCh) (on : Bool) : ElCh :=
  let d := c.dzc.wire on
  { c with dzc := d, dzLost := d.st == .lost || c.dzLost }

/-- A wiring fault of X14 is Electrum A's, of X15 Electrum B's (Table 10.1). -/
def State.elWire (s : State) (c : Chan) (on : Bool) : State :=
  { s with el := match c with
    | .a => { s.el with a := s.el.a.wire on }
    | .b => { s.el with b := s.el.b.wire on } }

/-- A wiring fault ends (R52). -/
def State.dzFaultEnd (s : State) (c : Chan) : State :=
  let d := { s.dz c with wiring := false }
  s.setDz c (if d.st = .lost ∧ d.lostByWiring then d.probe else d)

/-- Observation starts on every enabled source (Table 3.5). -/
def State.posObserve (s : State) : State :=
  let st (on : Bool) : SrcState := if on then .probation else .absent
  let one (t : State) (x : PosSrc × Bool) : State := t.setSrc x.1 (st x.2)
  let t := each [((.enc1 : PosSrc), true), (.enc2, s.rb posCtrl 5), (.sr, s.rb posCtrl 1), (.dza, s.rb posCtrl 2), (.dzb, s.rb posCtrl 3),
    (.acc, s.rb posCtrl 4), (.load, s.rb posCtrl 6)] s one
  { t with pos := { t.pos with wasRun := false } }

/-- POS_CTRL.RUN clears (R63): VALID and ABS clear, and no source is observed. -/
def State.posStop (s : State) : State :=
  let t := s.wf_ posCtrl 0 1 0
  let u := each [(.enc1 : PosSrc), .enc2, .sr, .dza, .dzb, .acc, .load] t (fun t i => t.setSrc i .absent)
  ({ u with pos := { u.pos with abs := false, cal := none } }).posNote

/-- Whether every enabled door-zone channel is active, with at least one enabled (R53). -/
def State.allDzActive (s : State) : Bool :=
  (s.rb posCtrl 2 || s.rb posCtrl 3) && (!s.rb posCtrl 2 || s.pos.dza.active) && (!s.rb posCtrl 3 || s.pos.dzb.active)

/-- The absolute reference of R53 with the shaft reader disabled. -/
def State.absFromZone (s : State) : State :=
  if s.rb posCtrl 1 ∨ !s.pos.restored ∨ !s.allDzActive then s
  else match s.nearest s.estPos with
    | none => s
    | some n =>
      if ((s.estPos - s.level n).natAbs : Int) ≤ s.ri posDzCapture then
        ({ s with pos := { s.pos with s := 0 } }).rebase.setAbs
      else s

/-- The position engine at start-up (R53): what is stored is restored, and observation starts. `saved`: p, s, κ, b of the
last power failure; `kb`: κ and b as stored last. -/
def State.posStart (s : State) (saved : Option (Int × Int × Nat × Int)) (kb : Option (Nat × Int)) : State :=
  let kap := (kb.map (fun (x : Nat × Int) => x.1)).getD (s.rn posKappaInit)
  let b := (kb.map (fun (x : Nat × Int) => x.2)).getD 0
  let q := { s.pos with
    p := (saved.map (fun (x : Int × Int × Nat × Int) => x.1)).getD 0
    s := (saved.map (fun (x : Int × Int × Nat × Int) => x.2.1)).getD 0, v := 0, a := 0, kap := kap, b := b, abs := false
    restored := saved.isSome, band := 0, sHist := [], slipRate := 0, tractTicks := 0, tractStep := false, cal := none }
  let t := { s with pos := { q with e := q.p + q.s, d := 0 } }
  (t.wf_ posCtrl 0 1 1).posObserve.absFromZone

/-- A load-weighing conversion (R64 to R66), at 1 kHz; none with EN at 0. The 100 ms of R65 'without any of them' count
OPEN, EXC and OVER, and run on while UNCAL is 1 (DESIGN CHOICE, log entry 197). -/
def State.lwbConvert (s : State) (raw : Int) (openWire exc overRange : Bool) : State :=
  if !s.rb lwbCtrl 0 then s
  else
    let l := s.lwb
    let load := min (max ((raw - s.ri lwbZero) * (s.rn lwbSpan : Int) / 16777216) 0) 65535
    let y := if l.first then load else l.y + (load - l.y).tdiv (s.rn lwbFiltMs)
    let bad := openWire || exc || overRange
    { s with lwb := { l with
        raw := raw, y := y, first := false, openWire := openWire, exc := exc, overRange := overRange
        faultConv := if bad then min (l.faultConv + 1) 50 else 0
        okConv := if bad then 0 else min (l.okConv + 1) 100
        cal := match l.cal with
          | some (k, n, sum) => if n < 2000 then some (k, n + 1, sum + raw) else some (k, n, sum)
          | none => none } }

/-- LWB_STATUS.VALID changes (R65). -/
def State.lwbSetValid (s : State) (v : Bool) : State :=
  if s.lwb.valid = v then s else ({ s with lwb := { s.lwb with valid := v } }).raise pgLwb 1

/-- LWB_CTRL.EN takes a value (R64). -/
def State.lwbEnable (s : State) (on : Bool) : State :=
  if on then { s with lwb := { s.lwb with first := true, y := 0, raw := 0, faultConv := 0, okConv := 0 } }
  else
    let t := s.lwbSetValid false
    { t with lwb := { t.lwb with y := 0, raw := 0, openWire := false, exc := false, overRange := false, cal := none } }

/-- The end of a load calibration (R66). -/
def State.lwbCalEnd (s : State) : State :=
  match s.lwb.cal with
  | some (span, 2000, sum) =>
    let mean := sum.tdiv 2000
    let t := { s with lwb := { s.lwb with cal := none } }
    if !span then ({ (t.wi lwbZero mean) with lwb := { t.lwb with zeroStored := true } }).raise pgLwb 2
    else
      let diff := mean - s.ri lwbZero
      if diff ≤ 0 then t.raise pgLwb 3
      else
        let v := ((s.rn lwbCalKg : Int) * 16777216).tdiv diff
        let w : Word := if v < 4294967296 then wordI v else Config.outOfRange v
        ({ (t.wr lwbSpan w) with lwb := { t.lwb with spanStored := true } }).raise pgLwb 2
  | _ => s

end Sys2Proof.Machine
end

