-- ==== Sys2Proof/Machine/MotOps.lean ====
section
/-! DEFINITION. The run engine (chapters 4 and 5): limits, commitment, holding, special runs, the set-point phase, and
the ends of runs. A replan outside a tick starts from the set-point in force from tick MOT_SP_SEQ; within a tick, that
is C(k). -/

namespace Sys2Proof.Machine

/-- The ramp shape of MOT_SHAPE (R69). -/
def State.shape (s : State) : Shape :=
  match s.rf_ motShape 0 2 with
  | 1 => .sine
  | 2 => .poly5
  | _ => .constJerk

/-- The live limits from a base address (live, staged or ceiling set), with a speed limit (R70). -/
def State.limsAt (s : State) (base vm : Nat) : Lims :=
  let g (i : Nat) : Int := s.rn (base + 4 * i)
  ⟨vm, g 1, g 2, g 3, g 4, g 5, g 6, s.shape⟩

/-- The speed limit of the run in hand: MOT_VCAP, and in a special run the speed of its type (R85). -/
def State.runVm (s : State) : Nat := if s.mot.phase = .special then min s.vcap s.mot.specVel else s.vcap

/-- The live limits of the run in hand (R70). -/
def State.lims (s : State) : Lims := s.limsAt motVmax s.runVm

/-- The live limits of a normal run. -/
def State.runLims (s : State) : Lims := s.limsAt motVmax s.vcap

/-- +1 upward, -1 downward. -/
def Mot.sign (m : Mot) : Int := if m.up then 1 else -1

/-- The distance from a set-point to a level in the direction of travel, × 2^16. -/
def Mot.ahead (m : Mot) (x level : Int) : Int := m.sign * (level * 65536 - x)

/-- Speed and acceleration of a set-point in the direction of travel. -/
def Mot.along (m : Mot) (p : SetPt) : Int × Int := (m.sign * p.v, m.sign * p.a)

/-- The horizon landing of MOT_HORIZON. -/
def State.horizon (s : State) : Nat := s.rf_ motHorizon 0 8

/-- feasible(C(k), d) of R70 for a level. -/
def State.feasibleNow (s : State) (level : Int) : Bool :=
  let va := s.mot.along s.mot.sp
  feasible s.lims va.1 va.2 (s.mot.ahead s.mot.sp.x level)

/-- R76: whether the stop ramp to a level must start in this period. -/
def State.mustStop (s : State) (level : Int) : Bool :=
  match s.mot.plan with
  | none => false
  | some p =>
    let n := p.at (s.mot.spSeq + 1)
    let va := s.mot.along n
    s.feasibleNow level && !feasible s.lims va.1 va.2 (s.mot.ahead n.x level)

/-- A plan in speed mode from the present set-point (R74). -/
def State.speedPlan (s : State) : Plan :=
  let va := s.mot.along s.mot.sp
  ⟨s.mot.spSeq, s.mot.up, s.mot.sp.x, va.1, speedSegs s.lims s.mot.ramped va.1 va.2, s.shape, none, none⟩

/-- Speed mode from the present set-point. -/
def State.motSpeed (s : State) : State := { s with mot := { s.mot with plan := some s.speedPlan, blend := false } }

/-- The stop ramp with its slack cruise, from the present set-point to a level (R76). -/
def State.stopPlan (s : State) (level : Int) : Plan :=
  let va := s.mot.along s.mot.sp
  let segs := stopWithSlack s.lims va.1 va.2 (s.mot.ahead s.mot.sp.x level)
  ⟨s.mot.spSeq, s.mot.up, s.mot.sp.x, va.1, segs, s.shape, some (segsDur segs), some level⟩

/-- The stop ramp to the committed target starts: STOP_RAMP raised, MOT_STOP_POS latched (R76, Table 4.7). -/
def State.motStopRamp (s : State) : State :=
  let special := s.mot.phase == .special
  ({ s with mot := { s.mot with
      plan := some (s.stopPlan s.mot.targetPos), ramped := true, blend := false, stopPos := s.spPos
      phase := if special then .special else .stopping } }).raise pgMot 2

/-- A target is committed (R77, R78): level latched, COMMITTED and COMMIT_SRC set, COMMIT raised. -/
def State.motCommit (s : State) (n : Nat) (src : CommitSrc) : State :=
  (({ s with mot := { s.mot with committed := true, target := n, targetPos := s.level n, csrc := src } }).wn motTarget n).raise
    pgMot 1

/-- The host commits a target (R77): in SPEED the phase becomes APPROACH (Table 4.3). -/
def State.hostCommit (s : State) (n : Nat) : State :=
  let t := s.motCommit n .host
  if t.mot.phase = .speed then { t with mot := { t.mot with phase := .approach } } else t

/-- The scheduler or MOT commits a landing and the stop ramp starts in the same period (R78). -/
def State.commitStop (s : State) (n : Nat) (src : CommitSrc) : State := (s.motCommit n src).motStopRamp

/-- Whether a level lies outside the door zone of landing `n` as seen from the set-point (R73). -/
def State.outsideZone (s : State) (n : Nat) (um : Int) : Bool := decide (s.hw n < ((s.level n - um).natAbs : Int))

/-- DRV leaves OFF for MAGNETISE (Table 6.1, R107): WDOG, TIMEOUT clear, MISS restarts. -/
def State.drvRequest (s : State) : State :=
  { s with drv := { s.drv with
      step := .magnetise, stepAt := s.tick, readyAt := none, energise := false, follow := false, wdog := false
      timeout := false, miss := 0, rdyMiss := 0, liftReq := false } }

/-- A run starts from IDLE towards a horizon (R73): the set-point is latched and DRV is asked to prepare. -/
def State.motStartNow (s : State) : State :=
  let t := { s with sch := { s.sch with passed := [], cand := none }, mot := { s.mot with
    phase := .prep, up := decide (s.spPos < s.level s.horizon), committed := false, csrc := .none, ramped := false
    follow := false, followN := 0, blend := false, plan := none, keptHorizon := false, landValid := false, relevCnt := 0
    relevTicks := 0, relevBlocked := false, relevPend := false, moved := false, runType := .none, hstep := .none
    autoTicks := 0, proofDoors := [], proofOpen := false } }
  t.drvRequest

/-- The car has reached a landing (R91). -/
def State.motLanded (s : State) : State :=
  { s with mot := { s.mot with
      phase := .landed, plan := none, landing := s.mot.target, landValid := true, relevTicks := 0, blend := false } }

/-- Everything of a run is dropped and MOT is IDLE. -/
def State.motIdleNow (s : State) : State :=
  ({ s with mot := { s.mot with
      phase := .idle, plan := none, committed := false, csrc := .none, keptHorizon := false, ramped := s.mot.ramped
      runType := .none, hstep := .none, moved := false, blend := false, holdRun := false
      homeBack := false, autoTicks := 0 } }).spFollow

/-- The plan of a controlled stop from the present set-point (R94). -/
def State.holdPlan (s : State) : Plan :=
  let va := s.mot.along s.mot.sp
  let h := holdSegs s.lims va.1 va.2
  ⟨s.mot.spSeq, s.mot.up, s.mot.sp.x, va.1, h.1, s.shape, some h.2, none⟩

/-- A controlled stop as MOT_CTRL.HOLD makes it, by phase (R94). -/
def State.motHoldNow (s : State) : State :=
  match s.mot.phase with
  | .prep =>
    let t := s.drvOff
    ({ t with mot := { t.mot with phase := .held, plan := none, keptHorizon := !t.mot.committed } }).spFollow
  | .speed | .approach | .stopping =>
    { s with mot := { s.mot with phase := .holding, plan := some s.holdPlan, keptHorizon := !s.mot.committed, blend := false } }
  | .special =>
    let t := if s.mot.runType = .correction then s.homeFailed .hold else s
    if s.mot.moved then
      { t with mot := { t.mot with
          phase := .holding, plan := some s.holdPlan, committed := false, csrc := .none, keptHorizon := false } }
    else t.drvOff.motIdleNow
  | _ => s

/-- A correction run fails (R89): a controlled stop with no target kept. -/
def State.homeFail (s : State) (e : HomeErr) : State :=
  let t := s.homeFailed e
  if s.mot.moved then
    { t with mot := { t.mot with
        phase := .holding, plan := some s.holdPlan, committed := false, csrc := .none, keptHorizon := false } }
  else t.drvOff.motIdleNow

/-- The reference input of MOT_HOME_CH (R88). -/
def State.refInput (s : State) : Bool := s.chIn (s.rf_ motHomeCh 0 8) != s.rb motHomeCh 16

/-- The limit input of MOT_HOME_CH, when it is used. -/
def State.limInput (s : State) : Bool := s.rb motHomeCh 18 && (s.chIn (s.rf_ motHomeCh 8 8) != s.rb motHomeCh 17)

/-- The direction of search (R88): true upward. -/
def State.homeUp (s : State) : Bool :=
  match s.rf_ motRtCfg 4 2 with
  | 0 => false
  | 1 => true
  | _ =>
    match s.terminal false, s.terminal true with
    | some lo, some hi => s.pos.restored && decide ((s.level hi - s.estPos).natAbs < (s.level lo - s.estPos).natAbs)
    | _, _ => false

/-- A special run of a type starts (R85, R92): the set-point is latched and DRV is asked to prepare. -/
def State.specialStart (s : State) (t : RunType) (up : Bool) (vel : Nat) : State :=
  ({ s with mot := { s.mot with
    phase := .special, runType := t, up := up, committed := false, csrc := .none, ramped := false, blend := false, plan := none
    specVel := vel, moved := false, landValid := false, hstep := .none, keptHorizon := false
    relevCnt := if t = RunType.relevelling then s.mot.relevCnt else 0, relevTicks := 0
    relevBlocked := s.mot.relevBlocked && t == RunType.relevelling, relevPend := false, autoTicks := 0, homeBack := false
    proofDoors := [], proofOpen := false } }).spFollow.drvRequest

/-- A correction run starts (R88, R89, Table 5.2). -/
def State.homeStart (s : State) : State :=
  let tUp := s.homeUp
  let away := s.refInput || s.limInput
  let vel := s.rn motHomeVel
  let t := s.specialStart .correction (if away then !tUp else tUp) (if s.el.proofPend then min vel 300000 else vel)
  { t with
    mot := { t.mot with
      hstep := if away then .backoff else .search, homeErr := .none, homeTravel := 0, backTravel := 0, backArmed := false
      chat := 0, refWas := s.refInput }
    pos := { t.pos with dza := { t.pos.dza with capture := none }, dzb := { t.pos.dzb with capture := none } } }

/-- The door axes in use. -/
def State.sidesOf (s : State) (n : Nat) : List Chan := s.doorsIn.filter (s.serves n)

/-- Door axes still unproven (R98): those without proof, all of them when none is proven. -/
def State.unproven (s : State) : List Chan :=
  s.doorsIn.filter (fun c => match c with
    | .a => !s.el.proofF
    | .b => !s.el.proofR)

/-- The landing a recovery run targets (R98). -/
def State.recoverTarget (s : State) : Option Nat :=
  let all := s.landings.filter (fun n => s.doorsIn.all (s.serves n))
  if all.isEmpty then nearestOf s.level s.estPos (s.landings.filter (fun n => s.unproven.any (s.serves n)))
  else nearestOf s.level s.estPos all

/-- The door cycles of R98 at landing `n`. -/
def State.proofCycle (s : State) (n : Nat) : State :=
  { s with mot := { s.mot with proofDoors := s.sidesOf n, proofOpen := false } }

/-- A special run that commits its target at once (R85, R92, R98). -/
def State.specialTo (s : State) (t : RunType) (n vel : Nat) : State :=
  (s.specialStart t (decide (s.estPos < s.level n)) vel).motCommit n .horizon

/-- A recovery run starts (R98); with the car level at the chosen landing there is no motion. Where no enabled landing
serves an axis still unproven, nothing starts (DESIGN CHOICE, log entry 204). -/
def State.recoverStart (s : State) : State :=
  match s.recoverTarget with
  | none => s
  | some n =>
    let t := s.specialTo .recovery n (s.rn motRecovVel)
    if ((s.estPos - s.level n).natAbs : Int) ≤ s.ri motLevelAcc then (t.drvOff.motLanded.raise pgMot 3).proofCycle n else t

/-- R93 apart from the doors: every enabled door-zone channel VALID, with the car inside LANDING's zone on it; where
POS_CTRL enables one channel, that one suffices (DESIGN CHOICE, log entry 203). -/
def State.relevZone (s : State) : Bool :=
  let n := s.mot.landing
  let one (c : Chan) (en : Bool) : Bool := !en || ((s.dz c).st == .valid && (s.dz c).active &&
    decide (((s.estPos - s.level n - s.dzOfs c).natAbs : Int) ≤ s.hw n))
  (s.rb posCtrl 2 || s.rb posCtrl 3) && one .a (s.rb posCtrl 2) && one .b (s.rb posCtrl 3)

/-- The conditions of R93. -/
def State.relevMay (s : State) : Bool := s.relevZone && (s.doorsClosed || s.el.relevGrant)

/-- A relevelling run starts (R92): RELEV_START, RELEV_CNT, and RELEV_FAIL when it reaches MOT_RELEV_MAX. -/
def State.relevStart (s : State) : State :=
  let t := (s.specialTo .relevelling s.mot.landing (s.rn motRelevVel)).rtEvent 2
  let u := { t with mot := { t.mot with relevCnt := min (t.mot.relevCnt + 1) 15, landing := s.mot.landing } }
  if u.mot.relevCnt = s.rn motRelevMax then let w := u.rtEvent 4; w.fire 7 w.motRtStatusW else u

/-- A relevelling run is decided on (R92); it starts in `relevSettle`. -/
def State.relevDecide (s : State) : State := { s with mot := { s.mot with relevGo := true } }

/-- A relevelling is due but R93 fails: RELEV_BLOCKED once per stop, bridging asked for where only it is missing. -/
def State.relevBlock (s : State) : State :=
  let t := if s.mot.relevBlocked then s else s.rtEvent 3
  { t with mot := { t.mot with relevBlocked := true, relevTicks := 0, relevPend := s.relevZone && !s.doorsClosed } }

/-- Drive ready reaches MOT (Tables 4.3 and 6.1): the run begins to move. -/
def State.motReady (s : State) : State :=
  match s.mot.phase with
  | .prep => ({ s with mot := { s.mot with phase := if s.mot.committed then .approach else .speed } }).motSpeed
  | .special => ({ s with mot := { s.mot with moved := true } }).motSpeed
  | _ => s

/-- A run is complete at its target without a plan's end: RUN_DONE, LANDED, and the doors of a proof run (R96 to R98). -/
def State.motReached (s : State) : State :=
  let proof := s.el.proofPend && (s.mot.runType == .recovery || s.mot.runType == .correction)
  let t := s.motLanded.raise pgMot 3
  if proof then t.proofCycle s.mot.target else t

/-- The position check of R96. -/
def State.posCheck (s : State) : Bool :=
  s.posValid && !s.pos.traction &&
    (if s.pos.sr.st = .valid then decide (((round16 s.pos.innovSr).natAbs : Int) ≤ s.ri posSrAccept) else !s.pos.dzMismatch)

/-- Whether the car stands inside a landing's zone. -/
def State.inZone (s : State) (n : Nat) : Bool := !s.outsideZone n s.estPos

/-- MOT leaves TRIPPED after Electrum's reset (R96, Table 5.4). A special run's target is kept like any other; it is never
resumed (R85, log entry 68). -/
def State.motResolve (s : State) : State :=
  if s.mot.phase = .tripped ∧ s.el.st = .normal ∧ s.pos.band = 0 then
    let ok := s.posCheck
    let t := { s with mot := { s.mot with posChk := ok } }
    if !ok then t.rtEvent 7
    else if !t.mot.committed then t.motIdleNow
    else if t.inZone t.mot.target then t.motReached
    else ({ t with mot := { t.mot with phase := .held, plan := none } }).spFollow
  else s

/-- Brake applied reaches MOT (R72, R89, R96). -/
def State.motBrakeApplied (s : State) : State :=
  match s.mot.phase with
  | .landed => s.motIdleNow
  | .holding =>
    if s.mot.committed || s.mot.keptHorizon then
      ({ s with mot := { s.mot with phase := .held, plan := none } }).spFollow
    else s.motIdleNow
  | _ => s

/-- DRV asks for the brake to drop (Table 6.1). -/
def State.drvDrop (s : State) : State :=
  if s.drv.step = .follow then { s with drv := { s.drv with step := .drop, stepAt := s.tick, liftReq := false } } else s

/-- The plan of a stop ramp has ended at its target: RUN_DONE, LANDED, and the doors of a proof run (R79, R98). -/
def State.motRunDone (s : State) : State := s.motReached.drvDrop

/-- Whether the run in hand is one whose plan ends at its target. -/
def Mot.landsAt (m : Mot) : Bool :=
  (m.phase == .stopping || m.phase == .special) && (match m.plan with
    | some p => p.len.isSome && p.endX.isSome
    | none => false)

/-- The set-point of the plan at the next tick. -/
def State.spAdvance (s : State) : State :=
  match s.mot.plan with
  | none => s
  | some p => { s with mot := { s.mot with sp := p.at (s.mot.spSeq + 1) } }

/-- Travel of the set-point in a period, for the distances of Table 5.2; the spec does not say on what they are measured
(DESIGN CHOICE, log entry 201). -/
def State.homeTravelled (s : State) (x0 : Int) : State :=
  let d : Int := (s.mot.sp.x - x0).natAbs
  if s.mot.runType = .correction then
    let armed := !s.refInput && !s.limInput
    { s with mot := { s.mot with
        homeTravel := s.mot.homeTravel + d
        backTravel := if armed then s.mot.backTravel + d else 0, backArmed := armed } }
  else s

/-- The set-point of a special run that moves: its search legs, its stop ramp, and the turn (Table 5.2, R79, R90). -/
def State.spSpecial (s : State) : State :=
  match s.mot.plan with
  | none => s
  | some p =>
    if p.len.isSome then
      if p.endX.isNone && p.done s.mot.spSeq then
        -- at rest: the search after a back-off, or the run back to the level
        if s.mot.hstep = .backoff then
          (({ s with mot := { s.mot with up := !s.mot.up, hstep := .search, refWas := s.refInput } }).motSpeed).spAdvance
        else if s.mot.homeBack then
          (({ s with mot := { s.mot with
              up := decide (s.mot.sp.x < s.mot.targetPos * 65536), ramped := false, homeBack := false } }).motSpeed).spAdvance
        else s.spAdvance
      else s.spAdvance
    else if s.mot.committed then
      (if s.mustStop s.mot.targetPos then s.motStopRamp else s).spAdvance
    else if s.mot.hstep = .backoff ∧ s.mot.backArmed ∧ s.ri motHomeBackoff * 65536 ≤ s.mot.backTravel then
      ({ s with mot := { s.mot with plan := some s.holdPlan } }).spAdvance
    else s.spAdvance

/-- The Set-point phase (R74 to R79, R94): the set-point in force from the next tick. -/
def State.motSetPoint (s : State) : State :=
  let x0 := s.mot.sp.x
  let t := match s.mot.phase with
    | .idle | .held | .tripped => s.spFollow
    | .prep | .landed => s
    | .speed =>
      (if s.mustStop (s.level s.horizon) then s.commitStop s.horizon .horizon else s).spAdvance
    | .approach => (if s.mustStop s.mot.targetPos then s.motStopRamp else s).spAdvance
    | .stopping | .holding => s.spAdvance
    | .special => if s.mot.moved then s.spSpecial.homeTravelled x0 else s
  { t with mot := { t.mot with spSeq := s.tick + 1 } }

/-- The phases whose follow error is watched (R83). -/
def Mot.follows (m : Mot) : Bool := m.phase == .speed || m.phase == .approach || m.phase == .stopping

/-- MOT_FOLLOW_ERR of the tick and how long it has been too large (R83); 0 in every other phase (DESIGN CHOICE, log
entry 200). -/
def State.followNote (s : State) : State :=
  if s.mot.follows then
    let e := s.estPos - s.spPos
    { s with mot := { s.mot with
        followErr := e
        followN := if s.ri motFollowMax < (e.natAbs : Int) then min (s.mot.followN + 1) 16 else 0 } }
  else { s with mot := { s.mot with followErr := 0, followN := 0 } }

/-- A channel that shows two or more edges in a period: none of them is a capture edge (R40). -/
def DzCh.noChatter (d : DzCh) : DzCh :=
  if 2 ≤ d.edges.length ∧ d.edges.any (fun e => e.2 == d.captureUs) then { d with capture := none } else d

/-- The capture edges that stand at the start of a Fusion phase. -/
def State.captureEdges (s : State) : State :=
  { s with pos := { s.pos with dza := s.pos.dza.noChatter, dzb := s.pos.dzb.noChatter } }

/-- The capture of R90 at the start of a Fusion phase. -/
def State.homeCapture (s0 : State) : State :=
  let s := s0.captureEdges
  if s.mot.phase = .special ∧ s.mot.hstep = .search then
    let chans := ([Chan.a, Chan.b].filter (fun c => s.rb posCtrl (if c = .a then 2 else 3))).filterMap
      (fun c => some (c, (s.dz c).capture, (s.dz c).captureUs))
    let got := chans.filterMap (fun x => x.2.1.map (fun y => (y.1, y.2, x.2.2)))
    if chans.isEmpty ∨ got.length ≠ chans.length then s
    else
      let bad := match got with
        | [x, y] => decide (s.ri posDzTol * 65536 < ((((x.2.1 - y.2.1).natAbs : Int) - (x.1 - y.1).natAbs).natAbs : Int))
        | _ => false
      if bad then s.homeFail .mismatch
      else
        let last := got.foldl (fun (m : Option (Int × Int × Nat)) x => match m with
          | none => some x
          | some y => if y.2.2 ≤ x.2.2 then some x else some y) none
        match last, s.terminal s.mot.up with
        | some x, some n =>
          let p := x.1 + (s.pos.v * ((s.us - x.2.2 : Nat) : Int)).tdiv 1000000
          let dx := p - s.pos.p
          let t := ({ s with pos := { s.pos with p := p, s := 0 } }).rebase.setAbs.rtEvent 0
          let u := { t with mot := { t.mot with
            hstep := .final, sp := (⟨t.mot.sp.x + dx, t.mot.sp.v, t.mot.sp.a, t.mot.sp.j⟩ : SetPt)
            plan := t.mot.plan.map (fun (q : Plan) => { q with x0 := q.x0 + dx }) } }
          let w := u.motCommit n .horizon
          if w.feasibleNow w.mot.targetPos then w
          else { w with mot := { w.mot with plan := some w.holdPlan, homeBack := true } }
        | _, _ => s
  else s

/-- An edge that a search takes as a capture edge (R90): of the boundary that faces the car. The arc at the edge is e of
the last tick carried on with the estimate's v (DESIGN CHOICE, log entry 202). -/
def State.homeEdge (s : State) (c : Chan) (rising : Bool) (stampUs : Nat) : State :=
  if s.mot.phase = .special ∧ s.mot.hstep = .search ∧ s.refInput ∧ s.pos.band ≠ 0 ∧
      edgeLower rising s.pos.v = some s.mot.up ∧ (s.dz c).capture.isNone then
    match s.terminal s.mot.up with
    | none => s
    | some n =>
      let arc := s.pos.e + (s.pos.v * ((stampUs : Int) - s.us)).tdiv 1000000
      s.setDz c { s.dz c with capture := some (s.boundary c s.mot.up n, arc), captureUs := stampUs }
  else s

/-- Chatter of an enabled door-zone channel fails a search with the reference active (Table 5.2). -/
def State.homeChatter (s : State) : State :=
  let chat (c : Chan) (i : Nat) : Bool := s.rb posCtrl i && decide (2 ≤ (s.dz c).edges.length)
  if s.mot.phase = .special ∧ s.mot.hstep = .search ∧ s.refInput ∧ (chat .a 2 ∨ chat .b 3) then s.homeFail .chatter else s

/-- R87's conditions. -/
def State.autoCond (s : State) : Bool :=
  s.mot.phase == .idle && s.el.chain && s.doorsClosed && s.el.st != .tripped && s.el.mode == .normal &&
    (s.part.role == .active || s.part.role == .solo)

/-- The waits of R87, R91 and R92, tick by tick. A relevelling by itself asks for bridging (R195) from the time its error
exceeds MOT_RELEV_TRIG, so that the grant can stand when MOT_RELEV_MS has passed. -/
def State.motWaits (s : State) : State :=
  let n := s.mot.landing
  let err := ((s.estPos - s.level n).natAbs : Int)
  let valid := s.mot.landValid && s.inZone n
  let tooFar := s.mot.phase == .idle && valid && decide (s.ri motRelevTrig < err)
  { s with mot := { s.mot with
      autoTicks := if s.autoCond then min (s.mot.autoTicks + 1) 16000 else 0
      landValid := valid
      relevPend := (s.mot.relevPend && s.mot.phase == .idle && valid && decide (s.ri motLevelAcc < err)) ||
        (tooFar && s.rb motRtCfg 2 && decide (s.mot.relevCnt < s.rn motRelevMax) && s.relevZone && !s.doorsClosed)
      relevTicks := if tooFar then min (s.mot.relevTicks + 1) (s.rn motRelevMs * 16) else 0 } }

/-- LANDED with DRV already in OFF passes to IDLE at the next tick (R72). -/
def State.landedTick (s : State) : State := if s.mot.phase = .landed ∧ s.drv.step = .off then s.motIdleNow else s

/-- A HOLDING plan that has ended asks for the brake (Table 6.1). -/
def State.holdingEnd (s : State) : State :=
  match s.mot.phase, s.mot.plan with
  | .holding, some p => if p.done s.tick then s.drvDrop else s
  | .holding, none => s.drvDrop
  | _, _ => s

/-- The door cycle of the proof (R98), one side at a time, front first. -/
def State.proofStep (s : State) : State :=
  match s.mot.proofDoors with
  | [] => s
  | c :: r =>
    let d := s.door c
    if s.mot.phase ≠ .landed ∧ s.mot.phase ≠ .idle then s
    else match d.st with
    | .closed =>
      if s.mot.proofOpen then
        if s.locked c then { s with mot := { s.mot with proofDoors := r, proofOpen := false } } else s
      else if s.permit c then s.doorOpenAct c else s
    | .opened => if s.mot.proofOpen then s else ({ s with mot := { s.mot with proofOpen := true } }).doorCloseAct c
    | .fault => { s with mot := { s.mot with proofDoors := [], proofOpen := false } }
    | _ => s

/-- Whether a checked APPLY has a plan under new limits `L` (R81): case A, else case B's segments. -/
def State.applyPlan (s : State) (L : Lims) (level : Int) : Option (Option (List Seg)) :=
  let va := s.mot.along s.mot.sp
  let d := s.mot.ahead s.mot.sp.x level
  if feasible L va.1 va.2 d then some none
  else if s.mot.phase = .stopping then (blend L va.1 va.2 d).map some else none

/-- The remaining plan is rebuilt from the present set-point under the limits in force (R81, R82). -/
def State.motReplan (s : State) (b : Option (List Seg)) : State :=
  match s.mot.phase with
  | .speed | .approach => s.motSpeed
  | .stopping => match b with
    | none => ({ s with mot := { s.mot with phase := .approach } }).motSpeed
    | some l =>
      let va := s.mot.along s.mot.sp
      { s with mot := { s.mot with
          blend := true
          plan := some ⟨s.mot.spSeq, s.mot.up, s.mot.sp.x, va.1, l, s.shape, some (segsDur l), some s.mot.targetPos⟩ } }
  | .special =>
    if s.mot.moved && !s.mot.ramped && (match s.mot.plan with
      | some p => p.len.isNone
      | none => false) then s.motSpeed else s
  | _ => s

/-- The seven staged values become the live set (R80). -/
def State.copyStaged (s : State) : State :=
  each (List.range 7) s (fun t i => t.wr (motVmax + 4 * i) (s.rd (motNewVmax + 4 * i)))

/-- The level an APPLY is checked against (Table 4.4); none where there is no check. -/
def State.applyLevel (s : State) : Option Int :=
  match s.mot.phase with
  | .speed => some (s.level s.horizon)
  | .approach | .stopping => some s.mot.targetPos
  | _ => none

/-- The staged limits as they would govern. -/
def State.stagedLims (s : State) : Lims := s.limsAt motNewVmax (min (s.rn motNewVmax) s.mot.cap)

/-- VMAX lowered alone: such an APPLY is never rejected (R81). -/
def State.onlyVmaxLowered (s : State) : Bool :=
  decide (s.rn motNewVmax ≤ s.rn motVmax) &&
    [1, 2, 3, 4, 5, 6].all (fun i => s.rd (motVmax + 4 * i) == s.rd (motNewVmax + 4 * i))

/-- Whether an APPLY reaches its level (R81). -/
def State.applyOk (s : State) : Bool :=
  match s.applyLevel with
  | none => true
  | some l => s.onlyVmaxLowered || (s.applyPlan s.stagedLims l).isSome

/-- An accepted APPLY (R80, R81): all seven limits, the plan rebuilt, LIM_APPLIED. Where VMAX is lowered alone and the two
cases find no plan, the ramp already running goes on. -/
def State.applyNow (s : State) : State :=
  let t := match s.applyLevel with
    | none => s.copyStaged.motReplan none
    | some l => match s.applyPlan s.stagedLims l with
      | some b => s.copyStaged.motReplan b
      | none => s.copyStaged
  t.raise pgMot 4

/-- A change of Electrum's cap takes effect (R82). -/
def State.capChange (s : State) : State :=
  let t := ({ s with mot := { s.mot with cap := s.el.vlim } }).raise pgMot 6
  match s.mot.phase with
  | .stopping =>
    let v := (s.mot.along s.mot.sp).1
    if v ≤ (t.vcap : Int) * 65536 then t
    else match t.applyPlan t.lims t.mot.targetPos with
      | none => t
      | some b => t.motReplan b
  | _ => t.motReplan none

/-- MOT_CMD.TRUN's result (R71). -/
def State.trunNow (s : State) : State :=
  let us := trunUs s.runLims (s.ri motTrunD)
  ({ s with mot := { s.mot with trunPend := false } }.wr motTrunUs
    (if us < 4294967296 then wordN us else Config.outOfRange us)).raise pgMot 8

/-- RESUME (R97): from rest to the target, or in speed mode towards the kept horizon; RAMPED clears (R74). -/
def State.resumeNow (s : State) : State :=
  let t := ({ s with mot := { s.mot with ramped := false }, sch := { s.sch with passed := [], cand := none } } : State).rtEvent 6
  let go (up : Bool) (u : State) : State :=
    ({ u with mot := { u.mot with
        phase := .prep, up := up, ramped := false, blend := false, plan := none, keptHorizon := false, landValid := false } }).drvRequest
  if s.mot.committed then
    if ((s.estPos - s.mot.targetPos).natAbs : Int) ≤ s.ri motLevelAcc ∧ s.inZone s.mot.target then t.motReached
    else go (decide (s.estPos < s.mot.targetPos)) t
  else
    let n := s.horizon
    let u := if s.inZone n then t.motCommit n .horizon else t
    if u.mot.committed ∧ ((s.estPos - s.level n).natAbs : Int) ≤ s.ri motLevelAcc then u.motReached
    else go (decide (s.estPos < s.level n)) u

/-- ABANDON (Table 5.4): target and horizon dropped. -/
def State.abandonNow (s : State) : State := s.motIdleNow

/-- MOT_REMAIN (R79, R95), µm. -/
def State.motRemain (s : State) : Nat :=
  if !s.mot.committed then 0
  else match s.mot.phase with
    | .holding | .held | .tripped => (s.mot.targetPos - s.estPos).natAbs
    | .idle | .landed => 0
    | _ => (s.mot.targetPos - s.spPos).natAbs

/-- MOT_T_REMAIN_US (R79, R95). -/
def State.motTRemain (s : State) : Nat :=
  let left : Nat := match s.mot.plan with
    | some p => unitsToUs (p.left s.mot.spSeq)
    | none => 0
  let coming : Nat :=
    let va := s.mot.along s.mot.sp
    unitsToUs (approachT s.lims s.mot.ramped va.1 va.2 (s.mot.ahead s.mot.sp.x s.mot.targetPos))
  if s.mot.phase = .landed then 0
  else if !s.mot.committed then 4294967295
  else match s.mot.phase with
    | .prep => trunUs s.runLims s.motRemain
    | .approach => coming
    | .stopping | .holding => left
    | .special =>
      if !s.mot.moved then trunUs s.lims s.motRemain
      else match s.mot.plan with
        | some p => if p.len.isSome then left else coming
        | none => left
    | _ => 4294967295

end Sys2Proof.Machine
end

