-- ==== Sys2Proof/Machine/DrvOps.lean ====
section
/-! DEFINITION. The hoist drive ports (chapter 6): the step sequence, the native link, CiA 402, the analog and step
ports. -/

namespace Sys2Proof.Machine

/-- DRV_STATUS.READY takes a value (Table 6.6); READY_CHG on a change. -/
def State.drvSetReady (s : State) (r : Bool) : State :=
  if s.drv.ready = r then s else ({ s with drv := { s.drv with ready := r } }).raise pgDrv 1

/-- LINK_UP takes a value (R107, R114); LINK_CHG on a change. -/
def State.drvSetLink (s : State) (u : Bool) : State :=
  if s.drv.linkUp = u then s else ({ s with drv := { s.drv with linkUp := u } }).raise pgDrv 5

/-- ENERGISE is asserted once permission stands (Table 6.1); the ready timer starts. -/
def State.drvEnergise (s : State) : State :=
  if s.drv.step = .magnetise ∧ s.el.perm ∧ !s.drv.energise then
    { s with drv := { s.drv with energise := true, readyAt := some s.tick } }
  else s

/-- The preload of R115, 0.1 % of rated torque. -/
def State.preloadOf (s : State) : Int :=
  if !s.rb lwbCtrl 0 ∨ s.drvIf = 3 ∨ s.drvIf = 4 then 0
  else
    let l : Int := if s.lwbLost then s.rn lwbRatedKg else s.loadKg
    satTo (((l - s.rn drvBalKg) * s.ri drvTqPerKg + 32768) / 65536) 3000

/-- MAGNETISE passes to PRELOAD (Table 6.1): the drive ready, permission standing, STO1 and STO2 energised; with CiA 402
the SDO confirmed (R110). -/
def State.drvCheckReady (s : State) : State :=
  let t := s.drvEnergise
  if t.drv.step = .magnetise ∧ t.drv.energise ∧ t.el.perm ∧ t.drv.ready ∧ t.el.out 6 ∧ t.el.out 7 ∧ (t.drvIf = 2 → t.drv.sdoDone = true) then
    ({ t with drv := { t.drv with step := .preload, stepAt := t.tick, readyAt := none } }).wr drvPreload
      (wordN ((wordI t.preloadOf).toNat % 65536))
  else t

/-- A drive fault (R109): latched, copied, tripped, recorded. -/
def State.drvFault (s : State) (status : Nat) : State :=
  let t := ({ (s.wn drvRemoteSt status) with drv := { s.drv with fault := true } }).raise pgDrv 3
  (t.fire 9 (t.rd drvRemoteSt)).tripModule

/-- What a valid response or a TPDO of a cycle does to DRV_FAULT and READY (R109, Table 6.6). -/
def State.drvStatusIn (s : State) (status : Nat) (ready fault : Bool) : State :=
  let t := (s.wn drvRemoteSt status).drvSetReady ready
  if (t.drv.step ≠ .off ∧ fault) ∨ (t.drv.step = .follow ∧ !ready) then t.drvFault status else t.drvCheckReady

/-- A signed value as it crosses the interface (R100). -/
def State.dirInv (s : State) (x : Int) : Int := if s.rb drvCfg 3 then -x else x

/-- The 18 bytes of a set-point frame after its delimiter, without the CRC (Table 6.2). -/
def State.setPointBody (s : State) (seq : Nat) : List Byte :=
  let tq := if s.drv.step = .preload ∨ s.drv.step = .lift ∨ s.drv.step = .follow ∨ s.drv.step = .drop then
    signed 16 (s.rn drvPreload % 65536) else 0
  let w (x : Int) : List Byte := wordLe (wordI (s.dirInv x))
  natLe 1 seq ++ natLe 2 (b2n s.drv.energise + 2 * b2n s.drv.follow + 4 * b2n (decide (0 < s.drv.faultRst))) ++
    w (round16 s.mot.sp.x) ++ w (round16 s.mot.sp.v) ++ w (round16 s.mot.sp.a) ++
    (wordLe (wordI (s.dirInv tq))).take 2

/-- The set-point frame of a period (R104). -/
def State.linkSend (s : State) : State :=
  if s.drvIf ≠ 1 then s
  else
    let seq := (s.drv.seq + 1) % 256
    let body := s.setPointBody seq
    let sent := s.outputsMay
    { s with drv := { s.drv with
        seq := seq, framed := sent, frame := if sent then [0xA7] ++ body ++ crc16Bytes body else []
        delim := false, okResp := false, checked := false
        faultRst := s.drv.faultRst - 1 } }

/-- A check of the link (R107): MISS, the history and LINK_UP. -/
def State.linkCheck (s : State) (ok : Bool) : State :=
  let hist := pushHist s.drv.hist 16 ok
  ({ s with drv := { s.drv with miss := if ok then 0 else min (s.drv.miss + 1) 7, hist := hist } }).drvSetLink (hist.any id)

/-- A response or NAK on the link (R105, R106, R107); times are ns from the period's tick. What ends after 56.0 µs, or
after the check, is discarded; its delimiter has been seen. -/
def State.linkResponse (s : State) (l : List Byte) (delimNs endNs : Nat) : State :=
  if s.drvIf ≠ 1 ∨ s.drv.checked then s
  else match l with
  | [0xC3] => if 56000 < endNs then s else s.bump drvLink 24 8
  | 0x5C :: r =>
    let t := { s with drv := { s.drv with delim := s.drv.delim || decide (delimNs ≤ 41000) } }
    if 56000 < endNs then t
    else if r.length ≠ 11 ∨ slice r 9 2 ≠ crc16Bytes (slice r 0 9) then t.bump drvLink 16 8
    else if byteAt r 0 ≠ t.drv.seq then t
    else
      let status := leNat (slice r 1 2)
      let u := { t with drv := { t.drv with okResp := true, stoFb := status.testBit 3 } }
      let v := (u.wi drvActPos (u.dirInv (signed 32 (leNat (slice r 3 4))))).wn drvActTq
        ((wordI (u.dirInv (signed 16 (leNat (slice r 7 2))))).toNat % 65536)
      v.drvStatusIn status (status.testBit 0) (status.testBit 2)
  | _ => s

/-- Whether the motion watchdog's condition stands (R107, R111, R114). -/
def State.watchdogDue (s : State) : Bool :=
  s.drv.step != .off && !s.drv.wdog &&
    (if s.drvIf = 1 ∨ s.drvIf = 2 then decide (4 ≤ s.drv.miss)
     else (s.drv.step != .magnetise) && decide (4 ≤ s.drv.rdyMiss))

/-- Whatever of the exchange is still to be sent is abandoned (R18, R107): a repetition, and an RPDO. -/
def State.drvAbandon (s : State) : State :=
  let t := { s with drv := { s.drv with framed := false, frame := [] } }
  if s.drvIf = 2 then t.canAbort 3 30 else t

/-- The motion watchdog (R107): WDOG, the recorder, the request for a trip; what is pending is abandoned (R18). -/
def State.watchdogNow (s : State) : State :=
  let t := ({ s with drv := { s.drv with wdog := true } }).raise pgDrv 2
  ((t.fire 8 t.drvLinkW).tripModule).drvOff.drvAbandon

/-- The response check (R107): of the period at 56.0 µs, with the repetition it made (R106), or of the CiA 402 cycle that
has ended (R111). It runs once. -/
def State.drvCheck (s : State) : State :=
  if s.drv.checked then s
  else
    let ok := if s.drvIf = 2 then s.drv.tpdoLast else s.drv.okResp
    let rep := s.drvIf == 1 && s.drv.framed && !s.drv.delim
    let t := { (if rep then s.bump drvLink 8 8 else s) with drv := { s.drv with checked := true } }
    let u := t.linkCheck ok
    if ok then u else u.drvSetReady false

/-- The check with the response it may call for. -/
def State.drvWatch (s : State) : State :=
  let t := s.drvCheck
  if t.watchdogDue then t.watchdogNow else t

/-- The ticks at which RDY has been inactive, from PRELOAD onwards (R114). -/
def State.rdyCount (s : State) : State :=
  if s.drvIf = 3 ∨ s.drvIf = 4 then
    let watched := s.drv.step != .off && s.drv.step != .magnetise
    { s with drv := { s.drv with rdyMiss := if watched && !s.drv.rdy then min (s.drv.rdyMiss + 1) 4 else 0 } }
  else s

/-- What a tick finds of the drive port: the check of the period or cycle before it, RDY, and the motion watchdog before
any further frame (R107, R114). -/
def State.linkFinish (s : State) : State := s.rdyCount.drvWatch

/-- A quantity × 2^16 in drive increments (R110), with the rounding of R44. -/
def State.ciaUnits (s : State) (x : Int) : Int :=
  let sc := s.ri drvCiaScale
  round16 (if sc = 0 then Config.divByZero (x * 65536) else (x * 65536).tdiv sc)

/-- The set-point of MOT's plan at the next SYNC tick (R110). -/
def State.spAtSync (s : State) : SetPt :=
  match s.mot.plan with
  | some p => p.at (s.tick + 16)
  | none => s.mot.sp

/-- The RPDO of a cycle (Table 6.5). -/
def State.rpdo (s : State) : List Byte :=
  let cw := if 0 < s.drv.faultRst then 0x80 else if s.drv.step = .off then 6 else 0xF
  let p := s.spAtSync
  let tq := if s.drv.step = .preload ∨ s.drv.step = .lift ∨ s.drv.step = .follow ∨ s.drv.step = .drop then
    signed 16 (s.rn drvPreload % 65536) else 0
  natLe 2 cw ++ wordLe (wordI (s.dirInv (s.ciaUnits p.x))) ++ wordLe (wordI (s.dirInv (s.ciaUnits p.v))) ++
    (wordLe (wordI (s.dirInv tq))).take 2

/-- The SYNC of every 16th tick, at its start (R110, R111): the cycle before it ends, an unsent RPDO is aborted, SYNC and
RPDO are sent; the SDO write of 0x6060 in OFF until it is sent, by a module that may send. -/
def State.ciaSync (s : State) : State :=
  if s.drvIf ≠ 2 ∨ s.period % 16 ≠ 0 then s
  else
    let body := s.rpdo
    let u := ((s.canAbort 3 30).canSend 3 31 false (0x80 * 2 ^ 18) true []).canSend 3 30 false
      ((0x200 + s.rn drvCiaNode) * 2 ^ 18) true body
    let w := if u.drv.step = .off ∧ !u.drv.sdoSent ∧ u.authority then
        let x := u.canSend 3 29 false ((0x600 + u.rn drvCiaNode) * 2 ^ 18) true [0x2F, 0x60, 0x60, 0, 8, 0, 0, 0]
        { x with drv := { x.drv with sdoSent := true } }
      else u
    { w with drv := { w.drv with
        sync := w.drv.sync + 1, syncUs := w.us, tpdo := false, tpdoLast := w.drv.tpdo, checked := w.drv.sync == 0
        faultRst := w.drv.faultRst - 1 } }

/-- A TPDO (R111): it counts for the cycle in whose window its start-of-frame stamp lies, after that cycle's SYNC and at or
before the next SYNC tick; for the cycle before the present one until its check has run (R19). -/
def State.ciaTpdoIn (s : State) (sw : Nat) (pos : Word) (sofUs : Nat) : State :=
  let now := decide (s.drv.syncUs < sofUs) && decide (sofUs ≤ s.drv.syncUs + 1000)
  let before := decide (sofUs ≤ s.drv.syncUs) && decide (s.drv.syncUs < sofUs + 1000) && !s.drv.checked
  if s.drvIf = 2 ∧ s.drv.sync ≠ 0 ∧ (now ∨ before) then
    let t := { s with drv := { s.drv with tpdo := s.drv.tpdo || now, tpdoLast := s.drv.tpdoLast || before } }
    let u := t.wi drvActPos (t.dirInv (round16 (pos.toInt * s.ri drvCiaScale)))
    u.drvStatusIn sw (sw &&& 0x6F == 0x27) (sw.testBit 3)
  else s

/-- The analog output takes at a tick the reference computed for it (R112): 0 V while EN is off. -/
def State.analogOut (s : State) : State :=
  if s.drvIf = 3 then s.wi drvAnOut (if s.drv.energise && s.authority then s.drv.anNext else 0) else s

/-- The reference of the analog port for the next tick (R112), mV; the speed crosses the interface with DIR_INV (R100). -/
def State.analogStep (s : State) : State :=
  let e := s.spPos - s.estPos
  let vfs := s.ri drvAnVfs
  let follow := s.drv.step == .follow
  let ti := s.drv.ie * s.rn drvAnKi / 65536
  let grow := decide ((ti.natAbs : Int) < vfs.tdiv 8) || decide (e.sign ≠ ti.sign)
  let ie := if follow then (if grow then s.drv.ie + e else s.drv.ie) else 0
  let vc := if follow then round16 s.mot.sp.v + e * s.rn drvAnKp / 65536 + satTo ti (vfs.tdiv 8) else 0
  let mv := satTo ((s.dirInv vc * 10000).tdiv vfs + s.ri drvAnOfsMv) 10000
  { s with drv := { s.drv with ie := ie, anNext := mv } }

/-- The pulses of the step port (R113): the signed steps of the next period. -/
def State.stepStep (s : State) : State :=
  if s.drv.step = .follow then
    let q := (s.dirInv (s.spPos - s.drv.stepP0) * 65536).tdiv (s.ri drvStepUm)
    { s with drv := { s.drv with pulses := if s.authority then q - s.drv.stepN else 0, stepN := q } }
  else { s with drv := { s.drv with pulses := 0 } }

/-- The legacy port at a tick (R114): readiness and LINK_UP. -/
def State.legacyTick (s : State) : State :=
  if s.drvIf = 3 ∨ s.drvIf = 4 then (s.drvSetLink s.drv.rdy).drvSetReady (s.drv.rdy && s.drv.energise) else s

/-- The drive port's outputs of a period, after the Set-point phase (R104, R112, R113). -/
def State.drvPeriod (s : State) : State :=
  let t := match s.drvIf with
    | 1 => s.linkSend
    | 3 => s.analogStep
    | 4 => s.stepStep
    | _ => s
  t.legacyTick.drvCheckReady

/-- DRV_READY_TO_MS expires in MAGNETISE (Table 6.1). -/
def State.readyTimeout (s : State) : State :=
  match s.drv.readyAt with
  | none => s
  | some t0 =>
    if s.drv.step = .magnetise ∧ s.since t0 (msTicks (s.rn drvReadyToMs)) then
      (({ s with drv := { s.drv with timeout := true } }).drvOff).raise pgDrv 4
    else s

/-- DRV_PRELOAD_MS has elapsed (Table 6.1): the brake lift is requested. -/
def State.preloadDone (s : State) : State :=
  if s.drv.step = .preload ∧ s.since s.drv.stepAt (msTicks (s.rn drvPreloadMs)) then
    { s with drv := { s.drv with step := .lift, stepAt := s.tick, liftReq := true } }
  else s

/-- The brake is lifted (Table 6.1): FOLLOW, and drive ready to MOT. -/
def State.brakeLifted (s : State) : State :=
  if s.drv.step = .lift ∧ s.el.brakeLifted ∧ s.since s.drv.stepAt (msTicks (s.rn drvBrkLiftMs)) then
    ({ s with drv := { s.drv with step := .follow, stepAt := s.tick, follow := true, ie := 0, stepP0 := s.spPos, stepN := 0 } }).motReady
  else s

/-- The brake is applied (Table 6.1): DRV returns to OFF and MOT learns of it. -/
def State.brakeDropped (s : State) : State :=
  if s.drv.step = .drop ∧ s.el.brakeApplied ∧ s.since s.drv.stepAt (msTicks (s.rn drvBrkDropMs)) then s.drvOff.motBrakeApplied
  else s

/-- DRV_CMD.FAULT_RST (R109). -/
def State.faultReset (s : State) : State :=
  { s with drv := { s.drv with fault := false, faultRst := 16 } }

/-- A grant that ends before the brake is lifted, in a relevelling run with a door not locked (R102). -/
def State.relevGrantEnds (s : State) : State :=
  if s.mot.phase = .special ∧ s.mot.runType = .relevelling ∧ !s.doorsClosed ∧ !s.el.relevGrant ∧
      (s.drv.step = .magnetise ∨ s.drv.step = .preload ∨ s.drv.step = .lift) then s.drvOff else s

end Sys2Proof.Machine
end

