-- ==== Sys2Proof/Machine/SchOps.lean ====
section
/-! DEFINITION. The stop scheduler (chapter 7): calls, the order of service, stop evaluation, answers and dwells, modes,
out of service; and the release of awarded calls to the group (R152). A call at a landing is named by a number: 0 car
call, 1 hall up, 2 hall down, 4 + i destination entry i. -/

namespace Sys2Proof.Machine

/-- This car's index. -/
def State.car (s : State) : Nat := s.rf_ bidCfg 0 6

/-- The direction of a destination entry: true upward. -/
def State.destUp (s : State) (d : Dest) : Bool := decide (s.level d.src < s.level d.dst)

/-- The group key of a call (R138). -/
def callKey (landing type : Nat) : Nat := landing * 256 + type * 64

/-- Whether this car holds a call by award (R151). -/
def State.heldByUs (s : State) (key seq : Nat) : Bool :=
  s.bid.calls.any (fun c => c.key == key && (key % 256 / 64 != 2 || c.seq == seq) && c.holder == some s.car)

/-- Whether a call's release is queued (R152). -/
def State.isReleasing (s : State) (key seq : Nat) : Bool :=
  s.bid.releasing.any (fun r => r.1 == key && (key % 256 / 64 != 2 || r.2 == seq))

/-- The calls at landing `n` as Table 7.4 counts them: the car call, the hall call in direction `up`, and, when `last`, the
one in the other direction (R125). -/
def State.callsAt (s : State) (n : Nat) (up last : Bool) : List Nat :=
  if s.mode = .recall then (if n = s.rf_ schRecall 0 8 ∧ !s.sch.recallDone then [0] else [])
  else
    let hall (u : Bool) : Bool := (u == up || last) && !s.sch.bypass
    let key (t : Nat) : Bool := !s.isReleasing (callKey n t) 0
    (if s.sch.cc.contains n then [0] else []) ++
    (if hall true && s.sch.hu.contains n && key 0 then [1] else []) ++
    (if hall false && s.sch.hd.contains n && key 1 then [2] else []) ++
    s.sch.dests.filterMap (fun x =>
      let d := x.2
      if (d.state == .riding && d.dst == n) ||
        (d.state == .waiting && d.src == n && hall (s.destUp d) && !s.isReleasing (callKey n 2) d.seq) then some (4 + x.1) else none)

/-- The enabled landings strictly ahead of a position in µm, nearest first. -/
def State.aheadOf (s : State) (p : Int) (up : Bool) : List Nat :=
  if up then s.landings.filter (fun n => decide (p < s.level n))
  else (s.landings.filter (fun n => decide (s.level n < p))).reverse

/-- The calls at `n` not yet in `done`. -/
def openCalls (done : List (Nat × Nat)) (n : Nat) (l : List Nat) : List Nat := l.filter (fun c => !done.contains (n, c))

/-- far(P, D, done) of R125. -/
def State.farCall (s : State) (p : Int) (up : Bool) (done : List (Nat × Nat)) : Option Nat :=
  ((s.aheadOf p up).filter (fun n => !(openCalls done n (s.callsAt n up true)).isEmpty)).getLast?

/-- One sweep of the order of service: the visits made, each with the calls it collects, and the calls placed. -/
def State.sweep (s : State) (up : Bool) (f : Nat) : List Nat → List (Nat × Nat) → List (Nat × List Nat) × List (Nat × Nat)
  | [], done => ([], done)
  | n :: r, done =>
    let c := openCalls done n (s.callsAt n up (n == f))
    let done' := done ++ c.map (fun x => (n, x))
    let q := if n = f then ([], done') else s.sweep up f r done'
    (if c.isEmpty then q.1 else (n, c) :: q.1, q.2)

/-- The sweeps of R125 in their directions; `skip` leaves landings out of the first. -/
def State.sweeps (s : State) (skip : Nat → Bool) : List Bool → Int → List (Nat × Nat) → List (Nat × List Nat)
  | [], _, _ => []
  | up :: r, p, done =>
    match s.farCall p up done with
    | none => s.sweeps (fun _ => false) r p done
    | some f =>
      let q := s.sweep up f ((s.aheadOf p up).filter (fun n => !skip n)) done
      q.1 ++ s.sweeps (fun _ => false) r (s.level f) q.2

/-- The order of service (R125) from position `p` in direction `up`, each visit with the calls it collects. -/
def State.visitsFrom (s : State) (p : Int) (up : Bool) (done : List (Nat × Nat)) : List (Nat × List Nat) :=
  s.sweeps (fun _ => false) [up, !up, up] p done

/-- Whether any call lies strictly ahead of a position. -/
def State.callAhead (s : State) (p : Int) (up : Bool) : Bool := (s.farCall p up []).isSome

/-- The enabled landings that hold a call. -/
def State.callLandings (s : State) : List Nat := s.landings.filter (fun n => !(s.callsAt n true true).isEmpty)

/-- The direction of a run from rest (R128): NEXT_DIR while a call is ahead in it, else towards the nearest call, up on a
tie. -/
def State.runDir (s : State) : Option Bool :=
  let p := s.estPos
  let next : Option Bool := match s.sch.nextDir with
    | .none => none
    | .up => some true
    | .down => some false
  match next with
  | some u => if s.callAhead p u then some u else near p
  | none => near p
where
  /-- Towards the nearest call strictly above or below. -/
  near (p : Int) : Option Bool :=
    let d (up : Bool) : Option Nat := ((s.aheadOf p up).find? (fun n => !(s.callsAt n true true).isEmpty)).map
      (fun n => (s.level n - p).natAbs)
    match d true, d false with
    | none, none => none
    | some _, none => some true
    | none, some _ => some false
    | some a, some b => some (decide (a ≤ b))

/-- The direction D of R125 without a commitment: MOT_STATUS.DIR from a START on and while the car moves, at rest the
direction of R128. -/
def State.serviceDir (s : State) : Option Bool :=
  if s.moving || s.mot.phase == .prep || (s.mot.phase == .tripped && s.pos.band != 0) then some s.mot.up else s.runDir

/-- The visits of the order of service now (R125): from the target once committed, from the set-point in SPEED, from the
position otherwise. -/
def State.visitsNow (s : State) : List (Nat × List Nat) :=
  let up := s.mot.up
  if s.mot.committed then
    let n := s.mot.target
    let last := !s.callAhead s.mot.targetPos up
    let c := s.callsAt n up last
    (n, c) :: s.visitsFrom s.mot.targetPos up (c.map (fun x => (n, x)))
  else if s.mot.phase = .speed then
    s.sweeps (fun n => !s.feasibleNow (s.level n)) [up, !up, up] s.spPos []
  else match s.serviceDir with
    | none => []
    | some u => s.visitsFrom s.estPos u []

/-- The order of service now. -/
def State.orderNow (s : State) : List Nat := s.visitsNow.map (fun (v : Nat × List Nat) => v.1)

/-- Kinds of SCH_ANSWER and SCH_PASSED for call numbers. -/
def kindsOf (l : List Nat) : Nat :=
  b2n (l.contains 0) + 2 * b2n (l.contains 1) + 4 * b2n (l.contains 2) + 8 * b2n (l.any (fun c => 4 ≤ c))

/-- A call has been passed (R126, Table 7.6): SCH_PASSED and CALL_PASSED. -/
def State.passedNote (s : State) (n kinds : Nat) : State :=
  let w := s.rd schPassed
  (s.wr schPassed (pack [(0, 8, n), (8, 4, kinds), (16, 16, min (Word.bits w 16 16 + 1) 0xFFFF)])).raise pgSch 2

/-- The walk of stop_eval over the landings ahead (R126): passed calls are noted, the first reachable call is the
candidate. -/
def State.evalWalk (s : State) (f : Nat) : List Nat → State × Option Nat
  | [] => (s, none)
  | n :: r =>
    let c := s.callsAt n s.mot.up (n == f)
    if c.isEmpty then (if n = f then (s, none) else s.evalWalk f r)
    else if s.feasibleNow (s.level n) then (s, some n)
    else
      let t := if s.sch.passed.contains n then s
        else (({ s with sch := { s.sch with passed := setIns s.sch.passed n } }).passedNote n (kindsOf c))
      if n = f then (t, none) else t.evalWalk f r

/-- The Stop evaluation phase (R126), with MOT_CTRL.SRC = 0 and MOT in SPEED. -/
def State.stopEval (s : State) : State :=
  if s.hostRuns ∨ !s.rb schCtrl 0 ∨ s.mot.phase ≠ .speed then s
  else
    let p := s.spPos
    let ahead := s.aheadOf p s.mot.up
    let q := match s.farCall p s.mot.up [] with
      | none => (s, none)
      | some f => s.evalWalk f ahead
    let t := q.1
    let nocall := q.2.isNone
    let cand := match q.2 with
      | some n => some n
      | none => ahead.find? (fun n => t.feasibleNow (t.level n))
    let u := { t with sch := { t.sch with cand := cand, nocall := nocall } }
    let v := if s.sch.cand = cand then u else u.raise pgSch 1
    match cand with
    | none => v
    | some n => if v.mustStop (v.level n) then v.commitStop n .scheduler else v

/-- NOCALL of a committed stop (R127): no call remains at the target. -/
def State.nocallNote (s : State) : State :=
  if s.mot.committed ∧ [Phase.prep, .approach, .stopping, .holding, .held].contains s.mot.phase then
    let last := !s.callAhead s.mot.targetPos s.mot.up
    { s with sch := { s.sch with nocall := (s.callsAt s.mot.target s.mot.up last).isEmpty } }
  else s

/-- Whether a request is a re-bid: those go after everything else (R143). -/
def BidReq.rebid (r : BidReq) : Bool := !r.release && r.flags % 2 == 1

/-- The requests that wait, with the one in transmit object 31. -/
def State.bidCount (s : State) : Nat := s.bid.queue.length + b2n s.bid.armed.isSome

/-- A request enters the queue behind those of its kind; re-bids stand behind all others. -/
def enqueue (r : BidReq) (q : List BidReq) : List BidReq :=
  if r.rebid then q ++ [r] else q.filter (fun x => !x.rebid) ++ [r] ++ q.filter (fun x => x.rebid)

/-- Queue a request of Bellmetal (R143): re-bids after everything else; a full queue counts QOVF. -/
def State.bidPush (s : State) (r : BidReq) : State :=
  if 64 ≤ s.bidCount then (s.bump bidCntErr 24 8).raise pgBid 6
  else
    { s with bid := { s.bid with queue := enqueue r s.bid.queue } }

/-- A request taken back from the transmit object goes before the others of its kind. -/
def requeue (r : BidReq) (q : List BidReq) : List BidReq :=
  if r.rebid then q.filter (fun x => !x.rebid) ++ [r] ++ q.filter (fun x => x.rebid) else r :: q

/-- Release a call held by award (R152): a release is queued while Bellmetal may send, and once queued keeps the call out of
the order of service; otherwise the hold ends here. -/
def State.releaseCall (s : State) (key seq reason : Nat) : State :=
  match s.bid.calls.find? (fun c => c.key == key && (key % 256 / 64 != 2 || c.seq == seq) && c.holder == some s.car) with
  | none => s
  | some c =>
    if s.bid.member = .member ∨ s.bid.member = .listen then
      let t := s.bidPush ⟨true, key, c.seq, c.dest, 0, s.car, reason, c.tag⟩
      if 64 ≤ s.bidCount then t else { t with bid := { t.bid with releasing := (key, c.seq) :: t.bid.releasing } }
    else { s with bid := { s.bid with calls := s.bid.calls.filter (fun x => !(x.key == key && x.seq == c.seq)) } }

/-- Release and clear a hall call. -/
def State.dropHall (s : State) (n : Nat) (up : Bool) (reason : Nat) : State :=
  let t := s.releaseCall (callKey n (if up then 0 else 1)) 0 reason
  { t with sch := if up then { t.sch with hu := setDel t.sch.hu n } else { t.sch with hd := setDel t.sch.hd n } }

/-- Release and free a WAITING entry. -/
def State.dropDest (s : State) (i : Nat) (reason : Nat) : State :=
  match alook s.sch.dests i with
  | none => s
  | some d =>
    let t := if d.state = .waiting then s.releaseCall (callKey d.src 2) d.seq reason else s
    { t with sch := { t.sch with dests := adel t.sch.dests i } }

/-- Release and clear every hall call (R124, R133, R134). -/
def State.dropHalls (s : State) (reason : Nat) : State :=
  each s.sch.hd (each s.sch.hu s (fun t n => t.dropHall n true reason)) (fun t n => t.dropHall n false reason)

/-- The slots of entries in a state. -/
def State.destSlots (s : State) (st : DestState) : List Nat := (s.sch.dests.filter (fun d => d.2.state == st)).map (·.1)

/-- Release and free every WAITING entry. -/
def State.dropWaiting (s : State) (reason : Nat) : State := each (s.destSlots .waiting) s (fun t i => t.dropDest i reason)

/-- RIDING entries become car calls (Table 7.5). -/
def State.ridersToCalls (s : State) : State :=
  each (s.destSlots .riding) s (fun t i => match alook t.sch.dests i with
    | none => t
    | some d => { t with sch := { t.sch with cc := setIns t.sch.cc d.dst, dests := adel t.sch.dests i } })

/-- Whether a door side reports to the scheduler: enabled, served, OWNER = 0. -/
def State.schSides (s : State) (n : Nat) : List Chan := (s.sidesOf n).filter (fun c => !s.rb (doorCfg (doorPage c)) 2)

/-- The scheduler requests an axis to open (R166): a request it cannot act on raises REQ_REFUSED. -/
def State.schOpenAxis (s : State) (c : Chan) : State :=
  let d := s.door c
  let act := match d.st with
    | .closed | .stopped | .closing => s.permit c
    | .geared => !d.posLost
    | .opened | .opening | .reversing => !d.posLost
    | _ => false
  if act then s.doorOpenAct c else s.raise (doorPage c) 15

/-- The scheduler requests an axis to close. -/
def State.schCloseAxis (s : State) (c : Chan) : State :=
  let d := s.door c
  let act := s.authority && !d.posLost && (match d.st with
    | .opened | .stopped | .closed | .closing => true
    | _ => false)
  if act then s.doorCloseAct c else s.raise (doorPage c) 15

/-- The hold time at a landing (R129), ms. -/
def State.holdMs (s : State) (n : Nat) : Nat := let h := Word.bits (s.lt n 0xC) 0 16; if h = 0 then s.rn schHoldMs else h

/-- Closing is requested after a dwell (R129). -/
def State.schClose (s : State) : State :=
  match s.sch.ans with
  | none => s
  | some a =>
    let t := { s with sch := { s.sch with ans := some { a with closing := true, holdAt := none, opening := [] } } }
    each (s.schSides a.landing) t (fun u c => u.schCloseAxis c)

/-- A dwell begins at landing `n` with an answered set (R129): the doors of its mask are requested to open. -/
def State.dwellStart (s : State) (a : Answer) : State :=
  let sides := s.schSides a.landing
  let t := { s with sch := { s.sch with ans := some { a with opening := sides, closing := sides.isEmpty } } }
  each sides t (fun u c => u.schOpenAxis c)

/-- NEXT_DIR at landing `n` for a run in direction `up` (R129). -/
def State.nextDirAt (s : State) (n : Nat) (up : Bool) : Dir :=
  let lev := s.level n
  let dir (u : Bool) : Dir := if u then .up else .down
  let here := s.callsAt n (!up) false
  if s.callAhead lev up then dir up
  else if here.any (fun c => c != 0 && (c < 4 || (s.destSlots .waiting).contains (c - 4))) then dir (!up)
  else if s.callLandings.any (fun m => m != n) then dir (!up)
  else .none

/-- The answered set at landing `n` (R129). -/
def State.answerSet (s : State) (n : Nat) (nd : Dir) (up : Bool) : Answer :=
  let u := match nd with
    | .none => up
    | .up => true
    | .down => false
  let c := s.callsAt n u false
  { landing := n, cc := c.contains 0, hu := c.contains 1, hd := c.contains 2, dests := (c.filter (fun x => 4 ≤ x)).map (· - 4)
    opening := [], holdAt := none, holdMs := s.holdMs n, closing := false, endNow := false }

/-- Whether an answered set is empty. -/
def Answer.isEmpty (a : Answer) : Bool := !a.cc && !a.hu && !a.hd && a.dests.isEmpty

/-- Arrival at the recall landing (R131): the doors of its mask open, RECALL_DONE; no hold time follows. -/
def State.recallReached (s : State) (n : Nat) : State :=
  let t := (({ s with sch := { s.sch with recallDone := true, nextDir := .none } }).raise pgSch 7).raise pgSch 3
  t.dwellStart ⟨n, false, false, false, [], [], none, 0, false, false⟩

/-- RUN_DONE of a run at landing `n` (R129, R131, R133): NEXT_DIR, the answered set with ANSWERED, the doors. -/
def State.schRunDone (s : State) (n : Nat) : State :=
  if !s.rb schCtrl 0 ∨ s.sch.ans.isSome then s
  else if s.mode = .recall then
    if n = s.rf_ schRecall 0 8 then s.recallReached n else s.raise pgSch 3
  else
    let up := s.mot.up
    let last := !s.callAhead (s.level n) up
    let nocall := (s.callsAt n up last).isEmpty
    let nd := s.nextDirAt n up
    let a := s.answerSet n nd up
    let t := ({ s with sch := { s.sch with nextDir := nd } }).raise pgSch 3
    if !a.isEmpty ∨ !s.inService ∨ (nocall ∧ s.rb schCfg 0) then t.dwellStart a else t

/-- RUN_DONE of a normal run that is complete without a plan's end (R97, R129, Table 5.4), between two states. -/
def State.schReached (t before : State) : State :=
  if t.mot.phase = .landed ∧ before.mot.phase ≠ .landed ∧ before.mot.runType = .none ∧ !before.mot.holdRun then
    t.schRunDone t.mot.target
  else t

/-- Whether the car stands level at a landing with LAND_VALID, MOT in IDLE or LANDED (R121). -/
def State.standsAt (s : State) (n : Nat) : Bool :=
  s.isLevel && s.mot.landing == n && (s.mot.phase == .idle || s.mot.phase == .landed)

/-- An answered set with one more call. -/
def Answer.add (a : Answer) (c : Nat) : Answer :=
  match c with
  | 0 => { a with cc := true }
  | 1 => { a with hu := true }
  | 2 => { a with hd := true }
  | _ => { a with dests := setIns a.dests (c - 4) }

/-- The answered calls are cleared once every door is closed and locked (R129). -/
def State.schServed (s : State) : State :=
  match s.sch.ans with
  | none => s
  | some a =>
    if a.closing && s.doorsClosed then
      let n := a.landing
      let s1 := if a.hu then s.dropHall n true 0 else s
      let s2 := if a.hd then s1.dropHall n false 0 else s1
      let s3 := each a.dests s2 (fun t i => match alook t.sch.dests i with
        | none => t
        | some d => match d.state with
          | .waiting =>
            let u := t.releaseCall (callKey d.src 2) d.seq 0
            { u with sch := { u.sch with dests := aput u.sch.dests i { d with state := .riding, tag := none } } }
          | _ => { t with sch := { t.sch with dests := adel t.sch.dests i } })
      ({ s3 with sch := { s3.sch with
          cc := if a.cc then setDel s3.sch.cc n else s3.sch.cc, ans := none } }).raise pgSch 4
    else s

/-- A call joins the set being answered (R130): the hold restarts, or the doors reopen. -/
def State.hereJoin (s : State) (a : Answer) (c : Nat) : State :=
  let a1 := { a.add c with endNow := false }
  if a.closing then
    let sides := s.schSides a.landing
    let u := { s with sch := { s.sch with ans := some { a1 with closing := false, opening := sides, holdAt := none } } }
    each sides u (fun w d => w.schOpenAxis d)
  else { s with sch := { s.sch with ans := some { a1 with holdAt := a.holdAt.map (fun _ => s.tick) } } }

/-- Whether a call is in an answered set. -/
def Answer.has (a : Answer) (c : Nat) : Bool :=
  match c with
  | 0 => a.cc
  | 1 => a.hu
  | 2 => a.hd
  | _ => a.dests.contains (c - 4)

/-- A call where the car stands idle with its doors closed starts a new answer under R129, with no run (R130): a car call,
or a call that the answered set takes in; another one waits. -/
def State.hereAnswer (s : State) (n c : Nat) : State :=
  let nd := s.nextDirAt n s.mot.up
  let a0 := s.answerSet n nd s.mot.up
  let a := if c = 0 then a0.add 0 else a0
  if a.has c then (({ s with sch := { s.sch with nextDir := nd } }).raise pgSch 3).dwellStart a else s

/-- Whether a call counts in the direction being answered at landing `n` (R129, R130). -/
def State.answersDir (s : State) (c : Nat) : Bool :=
  let up := match s.sch.nextDir with
    | .none => s.mot.up
    | .up => true
    | .down => false
  match c with
  | 0 => true
  | 1 => up
  | 2 => !up
  | _ => match alook s.sch.dests (c - 4) with
    | some d => s.destUp d == up
    | none => false

/-- A call at the landing being answered (R130): it joins; a call in the other direction joins only where R129 would have
answered it, that is with no NEXT_DIR and no call ahead, and NEXT_DIR becomes its direction; else it waits. -/
def State.hereOpen (s : State) (a : Answer) (c : Nat) : State :=
  if s.answersDir c then s.hereJoin a c
  else if s.sch.nextDir = .none ∧ !s.callAhead (s.level a.landing) s.mot.up then
    ({ s with sch := { s.sch with nextDir := if s.mot.up then .down else .up } }).hereJoin a c
  else s

/-- A call at landing `n`, by the state of the doors (R130). Where the car stands there and no case of R130 holds yet (MOT
still in LANDED, a door not closed and no answer in hand), the call waits for it. -/
def State.hereHandle (s0 : State) (n c : Nat) : State :=
  let s := s0.schServed
  match s.sch.ans with
  | some a => if a.landing = n then s.hereOpen a c else s
  | none =>
    if s.doorsClosed ∧ s.mot.phase = .idle then s.hereAnswer n c
    else { s with sch := { s.sch with hereWait := s.sch.hereWait ++ [(n, c)] } }

/-- A call for the landing being answered or where the car stands (R130): HERE in every case. -/
def State.hereCall (s : State) (n c : Nat) : State := (s.raise pgSch 9).hereHandle n c

/-- Whether a landing lies strictly between the set-point and the target of a committed normal run (Table 7.6). -/
def State.betweenTarget (s : State) (n : Nat) : Bool :=
  let x := s.level n * 65536
  let t := s.mot.targetPos * 65536
  s.mot.committed && s.mot.runType == .none && s.mot.phase != .idle && s.mot.phase != .landed &&
    (decide (s.mot.sp.x < x && x < t) || decide (t < x && x < s.mot.sp.x))

/-- What follows when call `c` at landing `n` is in the maps (R127, R129, R130): it meets the answer in hand there or starts
one, it is passed, or it waits in the order of service. Under BYPASS a hall call is skipped (R134). -/
def State.callArrived (s : State) (n c : Nat) : State :=
  if s.sch.bypass ∧ c ≠ 0 then s
  else match s.sch.ans with
    | some a =>
      if a.landing = n ∧ s.mode ≠ .recall then s.hereCall n c
      else if c = 0 ∧ s.mode = .independent ∧ a.holdAt.isSome then s.schClose
      else s
    | none =>
      if s.standsAt n then s.hereCall n c
      else if s.betweenTarget n then s.passedNote n (kindsOf [c])
      else s

/-- Enter a car call (R121, R130): not entered where the car stands level. -/
def State.carCall (s : State) (n : Nat) : State :=
  if s.standsAt n then s.hereCall n 0
  else if s.sch.cc.contains n then s
  else ({ s with sch := { s.sch with cc := setIns s.sch.cc n } }).callArrived n 0

/-- The calls that wait for R130's cases are looked at again each period; a car call whose landing the car has left is
entered. -/
def State.hereSettle (s : State) : State :=
  each s.sch.hereWait { s with sch := { s.sch with hereWait := [] } } (fun t x =>
    if t.standsAt x.1 then (if x.2 = 0 ∨ (t.callsAt x.1 true true).contains x.2 then t.hereHandle x.1 x.2 else t)
    else if x.2 = 0 ∧ !t.sch.cc.contains x.1 then ({ t with sch := { t.sch with cc := setIns t.sch.cc x.1 } }).callArrived x.1 0
    else t)

/-- A car that stands idle at the recall landing with its doors closed has arrived there (R131). -/
def State.recallHere (s : State) : State :=
  let n := s.rf_ schRecall 0 8
  if s.rb schCtrl 0 ∧ s.mode = .recall ∧ !s.sch.recallDone ∧ s.mot.phase = .idle ∧ s.standsAt n ∧ s.doorsClosed ∧
      s.sch.ans.isNone then s.recallReached n
  else s

/-- Enter a hall call. -/
def State.hallCall (s : State) (n : Nat) (up : Bool) : State :=
  if (if up then s.sch.hu else s.sch.hd).contains n then s
  else
    let t := { s with sch := if up then { s.sch with hu := setIns s.sch.hu n } else { s.sch with hd := setIns s.sch.hd n } }
    t.callArrived n (if up then 1 else 2)

/-- The lowest free destination slot. -/
def State.freeDest (s : State) : Option Nat := (List.range 1024).find? (fun i => (alook s.sch.dests i).isNone)

/-- Place a WAITING entry in a slot (R122), stamped with the operating time. -/
def State.destPlace (s : State) (i src dst seq : Nat) (tag : Option Nat) : State :=
  let t := { s with sch := { s.sch with
    dests := aput s.sch.dests i ⟨src, dst, .waiting, seq, s.rcd.optime % 4294967296, tag⟩ } }
  t.callArrived src (4 + i)

/-- Whether Bellmetal bids (R121, R134): running, enabled, in a mode that bids. -/
def State.bidding (s : State) : Bool := s.bid.run && s.rb bidCfg 6 && s.mode.bids

/-- The refusals of a SET word (R121): `kind` 0 CC, 1 HU, 2 HD, at landing `n`. -/
def State.setRefusal (s : State) (kind n : Nat) : List Nat :=
  let m := s.mode
  (if !s.inService || m == .recall then [2] else []) ++
  (if kind != 0 && (m == .destination || m == .independent || s.bidding) then [2] else []) ++
  (if !s.enabled n || !s.ltBit n (3 + kind) then [1] else []) ++
  (if kind == 1 && m == .downCollective && s.terminal false != some n then [1] else [])

/-- The landings named by a word of a map: word index and bits. -/
def mapLandings (w : Nat) (val : Word) : List Nat := (bitsOf val.toNat 32).map (fun b => 32 * w + b)

/-- A SET word as accepted. -/
def State.callSetNow (s : State) (kind w : Nat) (val : Word) : State :=
  each (mapLandings w val) s (fun t n => match kind with
    | 0 => t.carCall n
    | 1 => t.hallCall n true
    | _ => t.hallCall n false)

/-- A CLR word: never rejected; a call held by award is released (R121). -/
def State.callClrNow (s : State) (kind w : Nat) (val : Word) : State :=
  each (mapLandings w val) s (fun t n => match kind with
    | 0 => { t with sch := { t.sch with
        cc := setDel t.sch.cc n, hereWait := t.sch.hereWait.filter (fun x => x != (n, 0)) } }
    | 1 => if t.sch.hu.contains n then t.dropHall n true 2 else t
    | _ => if t.sch.hd.contains n then t.dropHall n false 2 else t)

/-- A door reports fully open (R129): the hold starts with the last one, and again with each new report (R167). No hold
starts with a door that stays open after CLOSE_FAIL, nor at the recall landing (R131). -/
def State.schDoorOpened (s : State) (c : Chan) : State :=
  match s.sch.ans with
  | none => s
  | some a =>
    if (s.schSides a.landing).contains c then
      let r := a.opening.filter (fun x => x != c)
      let hold := r.isEmpty && !(s.mode == .recall && s.sch.recallDone) && !(s.door c).stayOpen
      let t := { s with sch := { s.sch with
          ans := some { a with opening := r, closing := false, holdAt := if hold then some s.tick else none } } }
      if a.endNow ∧ r.isEmpty then t.schClose else t
    else s

/-- The hold time ends (R129). -/
def State.schHoldEnd (s : State) : State :=
  match s.sch.ans with
  | some a =>
    match a.holdAt with
    | some t => if s.mode ≠ .independent ∧ s.since t (msTicks a.holdMs) then s.schClose else s
    | none => s
  | none => s

/-- END_DWELL, and every other end of the hold at once (R129, R131, R135). -/
def State.schEndHold (s : State) : State :=
  match s.sch.ans with
  | some a =>
    let stays := a.opening.isEmpty && !a.closing && !(s.mode == .recall && s.sch.recallDone)
    if a.holdAt.isSome ∨ stays then s.schClose else s
  | none => s

/-- A dwell ends as soon as it can (R131, R135): closing is requested at once, or, of doors that are still opening, when they
report open. -/
def State.schEndAnyhow (s : State) : State :=
  match s.sch.ans with
  | some a =>
    if a.closing then s
    else if a.opening.isEmpty then s.schClose
    else { s with sch := { s.sch with ans := some { a with endNow := true, holdAt := none } } }
  | none => s

/-- RELEV_FAIL (R135): the hold ends and the doors are requested to close. -/
def State.schRelevFail (s : State) : State :=
  if s.mot.relevCnt = s.rn motRelevMax then
    match s.sch.ans with
    | some _ => s.schEndAnyhow
    | none => if s.mot.landValid && !s.doorsClosed then each (s.schSides s.mot.landing) s (fun t c => t.schCloseAxis c) else s
  else s

/-- An out-of-service cause sets (R133). -/
def State.oosSet (s : State) : State :=
  let s1 := (s.dropHalls 4).dropWaiting 4
  let s2 := { s1 with sch := { s1.sch with cc := [], dests := [], hereWait := [] } }
  let s3 := s2.raise pgSch 6
  if s3.mot.phase = .idle ∧ s3.mot.landValid ∧ s3.sch.ans.isNone ∧ s3.rb schCtrl 0 then
    s3.dwellStart ⟨s3.mot.landing, false, false, false, [], [], none,
      s3.holdMs s3.mot.landing, false, false⟩
  else s3

/-- The causes of SCH_OOS change; setting the first acts (R133), a change of IN_SERVICE raises OOS_CHG. -/
def State.oosChange (s : State) (host traction safe : Bool) : State :=
  let q := s.sch
  let was := q.oosHost || q.oosTraction || q.oosSafe
  let now := host || traction || safe
  let t := { s with sch := { q with oosHost := host, oosTraction := traction, oosSafe := safe } }
  let new := (host && !q.oosHost) || (traction && !q.oosTraction) || (safe && !q.oosSafe)
  if new then t.oosSet
  else if was && !now then t.raise pgSch 6
  else t

/-- SCH_CTRL.OOS takes a value (R133). -/
def State.oosHostNow (s : State) (on : Bool) : State := s.oosChange on s.sch.oosTraction s.sch.oosSafe

/-- Electrum's demand sets the SAFE cause (R133, R210). -/
def State.oosSafeCheck (s : State) : State :=
  if s.elOos && !s.sch.oosSafe then s.oosChange s.sch.oosHost s.sch.oosTraction true else s

/-- TRACTION latches (R56, R57): a controlled stop, and out of service. -/
def State.tractionLatch (s : State) : State :=
  let due := s.pos.tractStep || (s.pos.sr.st == .valid && decide (s.rn posTractTimeMs * 16 ≤ s.pos.tractTicks) && 0 < s.pos.tractTicks)
  if due ∧ !s.pos.traction then
    let t := ({ s with pos := { s.pos with traction := true, tractStep := false } }).raise pgPos 4
    let u := t.fire 4 (wordI t.pos.slipRate)
    let w := u.motHoldNow
    w.oosChange w.sch.oosHost true w.sch.oosSafe
  else s

/-- RESTORE clears TRACTION and SAFE when their sources are no longer active (R133). -/
def State.schRestoreOk (s : State) : Bool := !s.pos.traction && !s.elOos

/-- BYPASS follows the load and LOAD_ASSUMED (R134). -/
def State.bypassNote (s : State) : State :=
  let b := decide (s.rn schBypassPct ≤ s.loadPct) || s.lwbLost
  if b = s.sch.bypass then s
  else
    let t := { s with sch := { s.sch with bypass := b } }
    if b ∧ s.bidding then (t.dropHalls 5).dropWaiting 5 else t

/-- The entry actions of a mode (R124, Table 7.5). -/
def State.modeEntry (s : State) (m : SchMode) : State :=
  match m with
  | .collective => (s.ridersToCalls).dropWaiting 6
  | .downCollective =>
    let t := (s.ridersToCalls).dropWaiting 6
    each (t.sch.hu.filter (fun n => t.terminal false != some n)) t (fun u n => u.dropHall n true 6)
  | .destination => s.dropHalls 6
  | .independent => ((s.dropHalls 6).dropWaiting 6).ridersToCalls
  | .recall =>
    let t := (s.dropHalls 6).dropWaiting 6
    ({ t with sch := { t.sch with cc := [], dests := [], hereWait := [], recallDone := false } }).schEndAnyhow

/-- The codes of SCH_MODE. -/
def modeOf (w : Nat) : SchMode :=
  match w with
  | 0 => .collective
  | 1 => .downCollective
  | 2 => .destination
  | 3 => .independent
  | _ => .recall

/-- A SCH_MODE write takes effect (R124, R131): leaving RECALL lets the car go on after its doors close. -/
def State.modeWrite (s : State) (val : Word) : State :=
  let was := s.mode
  let t := (s.wr schMode val).raise pgSch 5
  let m := modeOf (Word.bits val 0 3)
  if was = m then t
  else
    let u := t.modeEntry m
    if was = .recall ∧ u.sch.recallDone then ({ u with sch := { u.sch with recallDone := false } }).schClose else u

/-- Whether a landing's button or lamp channel is used and not configured for the scheduler as it should be (R118). -/
def State.ltChanBad (s : State) (n : Nat) : Bool :=
  let bad (en ch mode : Nat) : Bool :=
    let b := Word.bits (s.lt n 0x10) ch 8
    Word.bit (s.lt n 0x10) en && !(Word.bits (s.chCfg b) 0 2 == mode && Word.bits (s.chCfg b) 2 2 == 1)
  bad 16 0 1 || bad 17 8 2

/-- The first failing check of R118 for an enabled landing, but for its channels, given the enabled landing before it. -/
def State.ltReason (s : State) (prev : Option Nat) (n : Nat) : Nat :=
  let up := match prev with
    | none => 0
    | some m => if s.level n ≤ s.level m then 1 else if s.level n - s.hw n ≤ s.level m + s.hw m then 2 else 0
  if up ≠ 0 then up
  else if s.hw n < 10000 ∨ 350000 < s.hw n then 3
  else if (!s.serves n .a ∧ !s.serves n .b) ∨ (s.serves n .a ∧ !s.doorEn .a) ∨ (s.serves n .b ∧ !s.doorEn .b) then 4
  else 0

/-- The channels a landing names. -/
def State.ltChans (s : State) (n : Nat) : List Nat :=
  (if Word.bit (s.lt n 0x10) 16 then [Word.bits (s.lt n 0x10) 0 8] else []) ++
  (if Word.bit (s.lt n 0x10) 17 then [Word.bits (s.lt n 0x10) 8 8] else [])

/-- The walk of R118 in index order: an enabled landing has every check, a disabled one those of the channels it names. -/
def State.ltWalk (s : State) (prev : Option Nat) (used : List Nat) : List Nat → Option (Nat × Nat)
  | [] => none
  | n :: r =>
    let c := s.ltChans n
    let k := if s.enabled n then s.ltReason prev n else 0
    if k ≠ 0 then some (n, k)
    else if s.ltChanBad n ∨ c.any used.contains ∨ (c.length = 2 ∧ c.head? = c.getLast?) then some (n, 7)
    else s.ltWalk (if s.enabled n then some n else prev) (used ++ c) r

/-- The landing-table check (R118): the first failing landing and its reason. -/
def State.ltCheck (s : State) : Option (Nat × Nat) :=
  if s.landings.length < 2 then some (s.landings.headD 0, 5)
  else if !s.landings.contains (s.rf_ schRecall 0 8) then some (s.rf_ schRecall 0 8, 6)
  else s.ltWalk none [] ((List.range 256).filter (fun n => s.enabled n || !(s.ltChans n).isEmpty))

/-- SCH_LT_FAULT names the landing and the reason of a table `t` that fails the check (R118). -/
def State.ltFaultNote (s t : State) : State :=
  match t.ltCheck with
  | some (n, r) => s.wr schLtFault (pack [(0, 8, n), (8, 4, r)])
  | none => s

/-- SCH_CTRL.RUN sets after the check (R118). -/
def State.schRunNow (s : State) : State :=
  match s.ltCheck with
  | some _ => s.ltFaultNote s
  | none => (s.wr schLtFault 0).wf_ schCtrl 0 1 1

/-- The condition of R63 for clearing RUN: out of service, brake applied, safe torque off active. -/
def State.stoppedSafe (s : State) : Bool := !s.inService && s.el.brakeApplied && !s.el.out 6 && !s.el.out 7

/-- The conditions of R128 but for the phase and the order of service; a module without authority starts no run (R284). -/
def State.schMayRun (s : State) : Bool :=
  s.authority && !s.hostRuns && s.rb schCtrl 0 && s.sch.ans.isNone && s.doorsClosed && s.posValid && !s.el.proofPend && s.sys.pinDefer.isNone

/-- R73's conditions on the horizon. -/
def State.horizonOk (s : State) : Bool := s.enabled s.horizon && s.outsideZone s.horizon s.spPos

/-- The scheduler starts a run towards a landing's direction (R128): horizon, then START. -/
def State.schStart (s : State) (up : Bool) : State :=
  match s.terminal up with
  | none => s
  | some n =>
    let t := s.wn motHorizon n
    if t.horizonOk ∧ s.drvIf ≠ 0 then t.motStartNow else t

/-- A window of the landing table (R119): what a write changes besides the call enables. -/
def ltOnlyEnables (old new : Word) : Bool := (old ^^^ new) &&& 0xFFFFFF87 == 0

/-- A landing-table word takes its value; calls of a cleared enable are cleared and released (R119). -/
def State.ltWrite (s : State) (addr : Nat) (val : Word) : State :=
  let old := s.rf.get 0 addr
  let n := (addr - 0x150000) / 0x40
  let t := s.wr addr val
  if (addr - 0x150000) % 0x40 ≠ 8 then t
  else
    let off (i : Nat) : Bool := Word.bit old i && !Word.bit val i
    let s1 := if off 3 then { t with sch := { t.sch with cc := setDel t.sch.cc n } } else t
    let s2 := if off 4 && s1.sch.hu.contains n then s1.dropHall n true 3 else s1
    let s3 := if off 5 && s2.sch.hd.contains n then s2.dropHall n false 3 else s2
    if off 6 then
      each ((s3.sch.dests.filter (fun d => d.2.src == n || d.2.dst == n)).map (·.1)) s3 (fun u i => u.dropDest i 3)
    else s3

/-- A button of the car operating panel is found active (R132): its time starts, and with a `press` it waits for the button
slot of the period. -/
def State.buttonOn (s : State) (n : Nat) (press : Bool) : State :=
  { s with sch := { s.sch with
      btnOn := aput s.sch.btnOn n s.tick
      btnPend := if press && s.sch.btnArmed.contains n then s.sch.btnPend ++ [n] else s.sch.btnPend } }

/-- A button is found inactive (R132). -/
def State.buttonOff (s : State) (n : Nat) : State :=
  { s with sch := { s.sch with
      btnOn := adel s.sch.btnOn n, btnArmed := setIns s.sch.btnArmed n, btnStuck := setDel s.sch.btnStuck n } }

/-- The landings whose button is channel `c`. -/
def State.buttonsOf (s : State) (c : Nat) : List Nat :=
  s.landings.filter (fun n => Word.bit (s.lt n 0x10) 16 && Word.bits (s.lt n 0x10) 0 8 == c)

end Sys2Proof.Machine
end

