-- ==== Sys2Proof/Machine/BidOps.lean ====
section
/-! DEFINITION. The bid engine (chapter 8): eligibility and cost, the frames of Ritha, rounds and awards, releases,
repeats and re-bids, hall presses, and membership. -/

namespace Sys2Proof.Machine

/-- The landing of a call key (R138). -/
def keyLanding (k : Nat) : Nat := k / 256 % 256

/-- The type of a call key: 0 UP, 1 DOWN, 2 DEST. -/
def keyType (k : Nat) : Nat := k % 256 / 64

/-- The key in a Ritha announcement or release identifier (Table 8.1). -/
def idKey (id : Nat) : Nat := id / 1024 % 65536

/-- Bits 9-4 of a Ritha identifier: announcer slot or car index. -/
def idCar (id : Nat) : Nat := id / 16 % 64

/-- The round tag of a Ritha identifier. -/
def idTag (id : Nat) : Nat := id % 16

/-- The frame class of an identifier (R137). -/
def idClass (id : Nat) : Nat := id / 2 ^ 26 % 8

/-- Whether a frame is a Ritha frame of a class: extended, no remote frame (R137). -/
def isRitha (c : Nat) (f : CanFrame) : Bool := f.ide && !f.remote && idClass f.id.toNat == c

/-- Whether an entry is the call of a key and, for type DEST, a SEQ (R141). -/
def GCall.is (c : GCall) (key seq : Nat) : Bool := c.key == key && (keyType key != 2 || c.seq == seq)

/-- The group's entry of a call. -/
def State.gcall (s : State) (key seq : Nat) : Option GCall := s.bid.calls.find? (fun c => c.is key seq)

/-- The list without a call. -/
def State.gcallDel (s : State) (key seq : Nat) : State :=
  { s with bid := { s.bid with calls := s.bid.calls.filter (fun c => !c.is key seq) } }

/-- The destination entry with the oldest re-bid. -/
def oldestDest (l : List GCall) : Option GCall :=
  l.foldl (fun (m : Option GCall) c => if keyType c.key != 2 then m else match m with
    | none => some c
    | some d => if c.lastAt < d.lastAt then some c else m) none

/-- Enter or replace a call; a full destination list drops its oldest entry (R156). -/
def State.gcallPut (s : State) (c : GCall) : State :=
  let r := s.bid.calls.filter (fun x => !x.is c.key c.seq)
  let full := keyType c.key == 2 && decide (1024 ≤ (r.filter (fun x => keyType x.key == 2)).length)
  let r2 := if full then match oldestDest r with
      | none => r
      | some d => r.filter (fun x => !x.is d.key d.seq)
    else r
  { s with bid := { s.bid with calls := r2 ++ [c] } }

/-- The longer of a door time over the axes that a landing's mask names (R150), µs. -/
def State.doorTime (s : State) (n : Nat) (r : Nat → Nat) : Nat :=
  (s.sidesOf n).foldl (fun m c => max m (1000 * s.dr c r)) 0

/-- One stop's share of T_stops. -/
def State.stopTime (s : State) (n : Nat) : Nat := s.doorTime n doorTOpenMs + 1000 * s.holdMs n + s.doorTime n doorTCloseMs

/-- What a dwell in progress adds to T_stops. -/
def State.dwellTime (s : State) : Nat :=
  match s.sch.ans with
  | none => 0
  | some a =>
    let hold := if a.closing then 0 else match a.holdAt with
      | none => a.holdMs
      | some t => a.holdMs - (s.tick - t) / 16
    1000 * hold + s.doorTime a.landing doorTCloseMs

/-- The first leg of T_path, to the first stop's level (R150), µs. -/
def State.firstLeg (s : State) (n : Nat) : Nat :=
  if s.mot.committed ∧ s.mot.phase ≠ .idle ∧ s.mot.phase ≠ .landed then s.motTRemain
  else if s.mot.phase = .speed then
    let va := s.mot.along s.mot.sp
    let d := s.mot.ahead s.mot.sp.x (s.level n)
    match stopSegs s.lims va.1 va.2 with
    | none => trunUs s.runLims (s.level n - s.spPos).natAbs
    | some l =>
      let rest := d - (segsEnd s.shape va.1 l).1
      unitsToUs ((if va.1 = 0 then Config.divByZero (rest * tUnit) else rest * tUnit / va.1) + segsDur l)
  else
    let d := (s.level n - s.estPos).natAbs
    if d = 0 ∨ s.standsAt n then 0 else trunUs s.runLims d

/-- The legs from landing `m` over the visits `l` until call `c` of landing `n` is collected: T_path and T_stops. -/
def State.legs (s : State) (n c : Nat) (m : Nat) : List (Nat × List Nat) → Nat × Nat
  | [] => (0, 0)
  | v :: r =>
    let leg := trunUs s.runLims (s.level v.1 - s.level m).natAbs
    if v.1 = n ∧ v.2.contains c then (leg, 0)
    else
      let q := s.legs n c v.1 r
      (leg + q.1, s.stopTime v.1 + q.2)

/-- Whether a call in the maps would be answered where the car stands (R129, R130). -/
def State.answeredNow (s : State) (n c : Nat) : Bool :=
  match s.sch.ans with
  | some a => a.landing == n && (s.answersDir c || (s.sch.nextDir == .none && !s.callAhead (s.level n) s.mot.up))
  | none => (s.answerSet n (s.nextDirAt n s.mot.up) s.mot.up).has c

/-- T_path and T_stops of a call at landing `n` in a direction (R150), µs. -/
def State.costTerms (s : State) (n : Nat) (up : Bool) : Nat × Nat :=
  let c := if up then 1 else 2
  let key := callKey n (if up then 0 else 1)
  let t := { s with
    sch := if up then { s.sch with hu := setIns s.sch.hu n } else { s.sch with hd := setIns s.sch.hd n }
    bid := { s.bid with releasing := s.bid.releasing.filter (fun r => r.1 != key) } }
  if s.standsAt n ∧ t.answeredNow n c then (0, s.dwellTime)
  else match t.visitsNow with
    | [] => (0, s.dwellTime)
    | v :: r =>
      let first := t.firstLeg v.1
      if v.1 = n ∧ v.2.contains c then (first, s.dwellTime)
      else
        let q := t.legs n c v.1 r
        (first + q.1, t.stopTime v.1 + q.2 + s.dwellTime)

/-- The cost-table refresh of every 16th period (R150). -/
def State.costRefresh (s : State) : State :=
  if s.bid.run ∧ s.rb bidCfg 6 then
    { s with bid := { s.bid with costs := s.landings.flatMap (fun n =>
        let d := s.costTerms n false
        let u := s.costTerms n true
        [(2 * n, d.1, d.2), (2 * n + 1, u.1, u.2)]) } }
  else s

/-- The direction in which a call counts at its landing: DEST from FROM to TO (R150). -/
def State.keyUp (s : State) (key dest : Nat) : Bool :=
  match keyType key with
  | 0 => true
  | 1 => false
  | _ => decide (s.level (keyLanding key) < s.level dest)

/-- R149 for a call: what depends on the mode and the landing. -/
def State.keyEligible (s : State) (key dest : Nat) : Bool :=
  let n := keyLanding key
  s.enabled n && (match keyType key, s.mode with
    | 0, .collective => s.ltBit n 4
    | 0, .downCollective => s.ltBit n 4 && s.terminal false == some n
    | 1, .collective | 1, .downCollective => s.ltBit n 5
    | 2, .destination => s.ltBit n 6 && s.enabled dest && s.ltBit dest 6 && s.freeDest.isSome
    | _, _ => false)

/-- Hall calls and WAITING entries held and not yet served (R150). -/
def State.heldCount (s : State) : Nat := s.sch.hu.length + s.sch.hd.length + (s.destSlots .waiting).length

/-- Whether this car's own maps hold a call (R150, R151). -/
def State.holdsCall (s : State) (key seq : Nat) : Bool :=
  let n := keyLanding key
  match keyType key with
  | 0 => s.sch.hu.contains n
  | 1 => s.sch.hd.contains n
  | _ => s.sch.dests.any (fun x => x.2.state == .waiting && x.2.src == n && x.2.seq == seq)

/-- cost(K, holder) of R150, and CTIME; `mine` leaves the announcement itself aside. -/
def State.bidCost (s : State) (key dest seq : Nat) (holder : Option Nat) : Nat × Nat :=
  match alook s.bid.costs (2 * keyLanding key + b2n (s.keyUp key dest)) with
  | none => (0xFFFF, 0)
  | some t =>
    let time := (t.1 + t.2 + 99999) / 100000
    if !s.bidEligible || !s.keyEligible key dest then (0xFFFF, min time 0xFFFE)
    else
      let p := s.loadPct
      let c1 : Int := time + (if 50 < p then s.rn schBidLoadpen * (p - 50) / 30 else 0)
      let c2 : Int := c1 + s.rn schBidCallpen * ((s.heldCount : Int) - b2n (s.holdsCall key seq))
      let c3 : Int := if holder = some s.car then c2 - s.rn schBidStick else c2
      ((min (max c3 0) 0xFFFE).toNat, min time 0xFFFE)

/-- The data bytes of an announcement or release (Table 8.2). -/
def State.bidData (s : State) (r : BidReq) : List Byte :=
  let age := match (s.gcall r.key r.seq).bind (fun c => c.firstAt) with
    | none => 0
    | some f => min (((s.tick : Int) - f).toNat / 16000) 255
  natLe 2 r.key ++ natLe 1 r.dest ++ natLe 1 (if r.release then r.reason else r.flags) ++ natLe 2 r.seq ++
    (if r.release then natLe 2 0 else natLe 1 r.holder ++ natLe 1 age)

/-- The tag of the next announcement (R143). -/
def State.nextTag (s : State) : Nat :=
  match s.bid.lastTag with
  | none => 0
  | some t => (t + 1) % 16

/-- The identifier of an announcement or release (Table 8.1). -/
def State.bidId (s : State) (r : BidReq) : Nat :=
  if r.release then 3 * 2 ^ 26 + r.key * 1024 + s.car * 16 + r.tag
  else 2 ^ 26 + r.key * 1024 + s.car * 16 + s.nextTag

/-- Whether a queued request may go out now (R142, R156): no announcement in an open round; PAUSE keeps re-bids. -/
def State.bidMay (s : State) (r : BidReq) : Bool :=
  r.release || (s.bid.round.isNone && (!s.rb bidCtrl 1 || r.flags % 2 == 1))

/-- A request that object 31 no longer carries goes back to the queue's front. -/
def State.bidRecall (s : State) : State :=
  match s.bid.armed with
  | some r => if (s.txo 2 31).res = .pending then s else { s with bid := { s.bid with armed := none, queue := requeue r s.bid.queue } }
  | none => s

/-- The first request that may go out is armed in transmit object 31 (R143, R240). -/
def State.bidPump (s0 : State) : State :=
  let s := s0.bidRecall
  if s.bid.member ≠ .member ∨ s.bid.armed.isSome ∨ !s.authority then s
  else match s.bid.queue.find? s.bidMay with
    | none => s
    | some r =>
      let t := { s with bid := { s.bid with armed := some r, queue := s.bid.queue.filter (fun x => x != r) } }
      t.canSend 2 31 true (t.bidId r) true (t.bidData r)

/-- Whether a call's request of a kind waits already. -/
def State.bidQueued (s : State) (release : Bool) (key seq : Nat) : Bool :=
  (s.bid.armed.toList ++ s.bid.queue).any (fun r => r.release == release && r.key == key && (keyType key != 2 || r.seq == seq))

/-- Queue an announcement of a call (R143). -/
def State.announceCall (s : State) (c : GCall) (flags holder : Nat) : State :=
  (s.bidPush ⟨false, c.key, c.seq, c.dest, flags + 2 * b2n (keyType c.key == 2 && c.up), holder, 0, 0⟩).bidPump

/-- The conditions of R140 on a received frame of class `c`. -/
def State.rithaBad (s : State) (c : Nat) (f : CanFrame) : Bool :=
  let id := f.id.toNat
  let d := f.data
  let key := leNat (slice d 0 2)
  d.length != 8 || keyType key == 3 || key % 64 != 0 ||
    (c != 2 && key != idKey id) ||
    (c != 3 && decide (32 ≤ byteAt d 3)) ||
    (c == 3 && (decide (6 < byteAt d 3) || leNat (slice d 6 2) != 0)) ||
    (c == 1 && keyType key == 2 && (byteAt d 2 == 0xFF || byteAt d 2 == keyLanding key)) ||
    (c == 1 && s.bid.round.isSome)

/-- A frame discarded under R140. -/
def State.bidProto (s : State) : State := (s.bump bidCntErr 8 8).raise pgBid 5

/-- Own announcements give way to one just heard (R143): those of the same call are dropped, pending or queued; another
pending one is armed again after the round. -/
def State.bidYield (s : State) (key seq : Nat) : State :=
  let same (r : BidReq) : Bool := !r.release && r.key == key && (keyType key != 2 || r.seq == seq)
  let s0 := { s with bid := { s.bid with queue := s.bid.queue.filter (fun r => !same r) } }
  match s.bid.armed with
  | none => s0
  | some r =>
    if r.release then s0
    else
      let t := s0.canAbort 2 31
      { t with bid := { t.bid with armed := none, queue := if same r then t.bid.queue else requeue r t.bid.queue } }

/-- What an announcement tells of its call (R139, R152 to R154): REBID names the holder, RELEASED frees the call. -/
def State.bidLearn (s : State) (key seq dest flags holder age : Nat) (slot : Nat) : State :=
  let old := s.gcall key seq
  let was := old.bind (fun c => c.holder)
  let h : Option Nat := if flags % 2 = 1 ∧ holder ≠ 0xFF then some holder else if flags / 16 % 2 = 1 then none else was
  -- SILENT counts from a re-bid or a repeat
  let heard := flags % 2 = 1 ∨ flags / 4 % 2 = 1
  let first : Option Int := (old.filter (fun c => c.seq == seq)).bind (fun c => c.firstAt)
  s.gcallPut {
    key := key, seq := seq, dest := dest, up := s.keyUp key dest, holder := h
    tag := (old.map (fun c => c.tag)).getD 0
    lastAt := if heard then s.tick else (old.map (fun c => c.lastAt)).getD s.tick
    annAt := s.tick, closeAt := (old.map (fun c => c.closeAt)).getD s.tick
    orphAt := if flags / 8 % 2 = 1 then s.tick else (old.map (fun c => c.orphAt)).getD 0
    firstAt := some (first.getD ((s.tick : Int) - age * 16000))
    mine := slot == s.car }

/-- The bid object is armed for the open round, no later than 2 µs after the validity point (R144). -/
def State.bidArm (s : State) (key seq dest flags holder slot tag vpUs : Nat) : State :=
  let released := flags / 16 % 2 = 1 ∧ slot = s.car
  let c := s.bidCost key dest seq (if holder = 0xFF then none else some holder)
  if released ∨ c.1 = 0xFFFF then { s with bid := { s.bid with ownCost := 0xFFFF, bidArmed := false } }
  else
    let t := { s with bid := { s.bid with ownCost := c.1, bidArmed := true } }
    (t.canFill 2 32 true (2 * 2 ^ 26 + c.1 * 1024 + s.car * 16 + tag) true
      (natLe 2 key ++ natLe 1 dest ++ natLe 1 flags ++ natLe 2 seq ++ natLe 2 c.2)).canRequestIn 2 32 vpUs (vpUs + 2)

/-- The validity point of an announcement, own or received (R142 to R144). -/
def State.announceHeard (s : State) (id : Nat) (d : List Byte) (vpUs : Nat) : State :=
  let key := idKey id
  let seq := leNat (slice d 4 2)
  let dest := byteAt d 2
  let flags := byteAt d 3
  let holder := byteAt d 6
  let s1 := s.bidYield key seq
  let s2 := { s1 with bid := { s1.bid with
    lastTag := some (idTag id), round := some ⟨key, seq, idTag id, idCar id, dest, flags, holder, vpUs⟩ } }
  let s3 := (s2.bump bidCntRnd 0 16).bidLearn key seq dest flags holder (byteAt d 7) (idCar id)
  s3.bidArm key seq dest flags holder (idCar id) (idTag id) vpUs

/-- Whether Bellmetal hears the bus: in every membership state but OFF (Table 8.3). -/
def State.bidHears (s : State) : Bool := s.bid.member != .off

/-- A received announcement (R140, R142). -/
def State.announcementRx (s : State) (f : CanFrame) : State :=
  if !s.bidHears ∨ !isRitha 1 f then s
  else if s.rithaBad 1 f then s.bidProto
  else s.announceHeard f.id.toNat f.data f.vp

/-- The round closes and the own bid is withdrawn (R145). -/
def State.roundClose (s : State) : State :=
  let t := { s with bid := { s.bid with round := none, lastRound := s.bid.round, bidArmed := false } }
  t.canAbort 2 32

/-- A bid frame that opens or decides nothing: ignored as a repetition of the last award's (R146), else stale (R147). -/
def State.bidStale (s : State) (key tag : Nat) : State :=
  let again := match s.bid.award with
    | some (r, _) => r.key == key && r.tag == tag
    | none => false
  if again then s else s.bump bidCntErr 0 8

/-- The validity point of a bid, own or received (R142, R145 to R147). -/
def State.bidHeard (s : State) (id : Nat) (d : List Byte) : State :=
  let key := leNat (slice d 0 2)
  match s.bid.round with
  | some r =>
    if r.key = key ∧ r.tag = idTag id then
      let t := s.roundClose
      let cost := id / 1024 % 65536
      (({ t with bid := { t.bid with
          award := some (r, idCar id), pendAwards := t.bid.pendAwards ++ [(r, idCar id, s.tick)] } }).wr bidCosts
        (pack [(0, 16, cost), (16, 16, s.bid.ownCost)])).bidPump
    else s.bidStale key (idTag id)
  | none => s.bidStale key (idTag id)

/-- A received bid frame. -/
def State.bidFrameRx (s : State) (f : CanFrame) : State :=
  if !s.bidHears ∨ !isRitha 2 f then s
  else if s.rithaBad 2 f then s.bidProto
  else s.bidHeard f.id.toNat f.data

/-- A round without a bid closes (R148). -/
def State.roundNobid (s : State) : State :=
  match s.bid.round with
  | none => s
  | some r =>
    if r.openUs + 5000 < s.us + 63 then
      let t := (s.roundClose.bump bidCntErr 16 8).raise pgBid 3
      (match t.gcall r.key r.seq with
        | none => t
        | some c => t.gcallPut { c with closeAt := t.tick }).bidPump
    else s

/-- The validity point of a release, own or received (R147, R152). -/
def State.releaseHeard (s : State) (id : Nat) (d : List Byte) : State :=
  let key := idKey id
  let seq := leNat (slice d 4 2)
  match s.gcall key seq with
  | none => s.bump bidCntErr 0 8
  | some c =>
    if c.holder ≠ some (idCar id) ∨ c.tag ≠ idTag id then s.bump bidCntErr 0 8
    else
      let own := idCar id == s.car
      let t := if own then { s with bid := { s.bid with releasing := s.bid.releasing.filter (fun r => !(r.1 == key &&
        (keyType key != 2 || r.2 == seq))) } } else s
      if byteAt d 3 = 0 then t.gcallDel key seq
      else
        let c2 := { c with holder := none, lastAt := s.tick, annAt := s.tick, closeAt := s.tick, mine := own }
        let u := t.gcallPut c2
        if own then u.announceCall c2 16 0xFF else u

/-- A received release. -/
def State.releaseRx (s : State) (f : CanFrame) : State :=
  if !s.bidHears ∨ !isRitha 3 f then s
  else if s.rithaBad 3 f then s.bidProto
  else s.releaseHeard f.id.toNat f.data

/-- Object 31 or the bid object has been sent: the sender hears its own frame (R142, R145, R152). -/
def State.bidSent (s : State) (j sofUs : Nat) : State :=
  let id := s.rf_ (txoAddr 2 j) 0 29
  let d := (wordLe (s.rd (txoAddr 2 j + 0x40)) ++ wordLe (s.rd (txoAddr 2 j + 0x44)))
  if j = 32 then ({ s with bid := { s.bid with bidArmed := false } }).bidHeard id d
  else match s.bid.armed with
    | none => s
    | some r =>
      let t := { s with bid := { s.bid with armed := none } }
      if r.release then (t.releaseHeard id d).bidPump else t.announceHeard id d (max sofUs s.us)

/-- This car loses a call to another (R151). -/
def State.awardLost (s : State) (key seq : Nat) : State :=
  let n := keyLanding key
  let held := s.holdsCall key seq
  let q := { s with bid := { s.bid with
    queue := s.bid.queue.filter (fun r => !(held && r.key == key && (keyType key != 2 || r.seq == seq)))
    releasing := s.bid.releasing.filter (fun r => !(r.1 == key && (keyType key != 2 || r.2 == seq))) } }
  let t := match keyType key with
    | 0 => { q with sch := { q.sch with hu := setDel q.sch.hu n } }
    | 1 => { q with sch := { q.sch with hd := setDel q.sch.hd n } }
    | _ => { q with sch := { q.sch with
        dests := q.sch.dests.filter (fun x => !(x.2.state == .waiting && x.2.src == n && x.2.seq == seq)) } }
  if held then t.raise pgBid 2 else t

/-- The reason for which a car that has lost its eligibility releases a call just awarded (R151, R152). -/
def State.cannotHold (s : State) (key dest : Nat) : Option Nat :=
  let n := keyLanding key
  if !s.inService then some 4
  else if s.sch.bypass then some 5
  else if !s.mode.bids ∨ ((keyType key = 2) ≠ (s.mode = .destination)) then some 6
  else if !s.enabled n ∨ !s.ltBit n (4 + keyType key) ∨ (keyType key = 2 ∧ (!s.enabled dest ∨ !s.ltBit dest 6)) then some 3
  else if s.mode = .downCollective ∧ keyType key = 0 ∧ s.terminal false ≠ some n then some 6
  else none

/-- The winner's part of an award (R151). -/
def State.awardWon (s : State) (r : Round) : State :=
  let n := keyLanding r.key
  let s1 := (s.bump bidCntRnd 16 16).raise pgBid 1
  let out := s1.cannotHold r.key r.dest
  match keyType r.key with
  | 2 =>
    let have_ := s1.sch.dests.any (fun x => x.2.state == .waiting && x.2.src == n && x.2.seq == r.seq)
    if have_ then { s1 with sch := { s1.sch with dests := s1.sch.dests.map (fun x =>
        if x.2.state == .waiting && x.2.src == n && x.2.seq == r.seq then (x.1, { x.2 with tag := some r.tag }) else x) } }
    else match out, s1.freeDest with
      | none, some i => s1.destPlace i n r.dest r.seq (some r.tag)
      | some k, _ => s1.releaseCall r.key r.seq k
      | none, none => s1.releaseCall r.key r.seq 1
  | k =>
    match out with
    | some reason => s1.dropHall n (k == 0) reason
    | none => s1.hallCall n (k == 0)

/-- An award takes effect (R151). -/
def State.awardNow (s : State) (r : Round) (car : Nat) : State :=
  let old := s.gcall r.key r.seq
  let entry : GCall :=
    { key := r.key, seq := r.seq, dest := r.dest, up := s.keyUp r.key r.dest, holder := some car, tag := r.tag, lastAt := s.tick
      annAt := (old.map (fun c => c.annAt)).getD s.tick, closeAt := s.tick, orphAt := (old.map (fun c => c.orphAt)).getD 0
      firstAt := some ((old.bind (fun c => c.firstAt)).getD (s.tick : Int)), mine := false }
  let t := if car = s.car then s else s.awardLost r.key r.seq
  let u := t.gcallPut entry
  if car = s.car then u.awardWon r else u

/-- The awards heard before tick `k` take effect, oldest first (R151: at the tick after the one they were heard in). -/
def State.awardsBy (s : State) (k : Nat) : State :=
  let due (x : Round × Nat × Nat) : Bool := decide (x.2.2 < k)
  (each (s.bid.pendAwards.filter due) { s with bid := { s.bid with pendAwards := s.bid.pendAwards.filter (fun x => !due x) } }
    (fun t x => t.awardNow x.1 x.2.1)).bidPump

/-- The awards due at this tick take effect. -/
def State.awardsNow (s : State) : State := s.awardsBy s.tick

/-- The button slot of a period (R121, R132): host writes have been made, the awards due go before, then the presses are
entered as though a host had set them; one that R121 would refuse is ignored. -/
def State.buttonSlot (s : State) : State :=
  if s.sch.btnPend.isEmpty then s
  else
    let t := s.awardsNow
    each t.sch.btnPend { t with sch := { t.sch with btnPend := [] } }
      (fun u n => if (u.setRefusal 0 n).isEmpty then u.carCall n else u)

/-- What the scheduler does after the host writes of a period (R121, R130, R131). -/
def State.schSlot (s : State) : State := s.buttonSlot.hereSettle.recallHere

/-- A press enters a new call of the group as WAIT (R141), announced unless ANNOUNCE_EN is 0. -/
def State.pressNew (s : State) (key dest seq : Nat) : State :=
  let own := keyType key != 2
  let q := if own then (s.car * 1024 + s.bid.counter) % 65536 else seq
  let t := if own then { s with bid := { s.bid with counter := (s.bid.counter + 1) % 1024 } } else s
  let ann := s.rb bidCfg 8
  let c : GCall := { key := key, seq := q, dest := dest, up := s.keyUp key dest, holder := none, tag := 0, lastAt := s.tick
                     annAt := s.tick, closeAt := s.tick, orphAt := 0, firstAt := none, mine := ann }
  let u := t.gcallPut c
  if ann then u.announceCall c 0 0xFF else u

/-- A press of an island car (Table 8.3): accepted by R121's and R122's rules, it is held at once. -/
def State.pressIsland (s : State) (key dest seq : Nat) : State :=
  let n := keyLanding key
  let alone := { s with bid := { s.bid with run := false } }
  let ok := match keyType key with
    | 2 => s.inService && s.keyEligible key dest && n != dest
    | k => (alone.setRefusal (k + 1) n).isEmpty
  if !ok ∨ !s.rb bidCfg 7 then s
  else
    let q := if keyType key = 2 then seq else (s.car * 1024 + s.bid.counter) % 65536
    let t := if keyType key = 2 then s else { s with bid := { s.bid with counter := (s.bid.counter + 1) % 1024 } }
    let u := t.gcallPut { key := key, seq := q, dest := dest, up := s.keyUp key dest, holder := some s.car, tag := 0,
                          lastAt := s.tick, annAt := s.tick, closeAt := s.tick, orphAt := 0, firstAt := none, mine := false }
    match keyType key with
    | 2 => match u.freeDest with
      | some i => u.destPlace i n dest q none
      | none => u
    | k => u.hallCall n (k == 0)

/-- A hall press by membership state (R141, R154). -/
def State.press (s : State) (key dest seq : Nat) : State :=
  match s.bid.member with
  | .off => s
  | .listen => { s with bid := { s.bid with presses := s.bid.presses ++ [(key, dest, seq)] } }
  | .member => if (s.gcall key seq).isSome then s else s.pressNew key dest seq
  | .island => if (s.gcall key seq).isSome then s else s.pressIsland key dest seq

/-- Whether a frame on CAN1 is a hall press (R141). -/
def isPress (f : CanFrame) : Bool :=
  f.ide && !f.remote && idClass f.id.toNat == 4 && f.id.toNat % 1024 == 0 && keyType (idKey f.id.toNat) != 3 &&
    idKey f.id.toNat % 64 == 0 && (keyType (idKey f.id.toNat) != 2 || decide (3 ≤ f.data.length))

/-- A hall press as received. -/
def State.pressRx (s : State) (f : CanFrame) : State :=
  if isPress f then
    let key := idKey f.id.toNat
    if keyType key = 2 then s.press key (byteAt f.data 0) (leNat (slice f.data 1 2)) else s.press key 0xFF 0
  else s

/-- A membership state is entered (Table 8.3): MEMBER_CHG on a change. -/
def State.bidInto (s : State) (m : Member) : State :=
  if s.bid.member = m then s else ({ s with bid := { s.bid with member := m } }).raise pgBid 4

/-- Frames of Bellmetal still pending are withdrawn. -/
def State.bidSilent (s : State) : State :=
  let t := if s.bid.armed.isSome then (s.canAbort 2 31).bidRecall else s
  let u := if t.bid.bidArmed then t.canAbort 2 32 else t
  { u with bid := { u.bid with
    round := none, bidArmed := false, lastRound := if u.bid.round.isSome then u.bid.round else u.bid.lastRound } }

/-- The listen timer starts (Table 8.3). -/
def State.bidListen (s : State) : State := ({ s with bid := { s.bid with listenAt := s.tick } }).bidInto .listen

/-- A hall call or WAITING entry held without an entry of the group list gets one as held by this car (R154). -/
def State.adoptCalls (s : State) : State :=
  let adopt (t : State) (key dest seq : Nat) : State :=
    if t.heldByUs key seq then t
    else t.gcallPut { key := key, seq := seq, dest := dest, up := t.keyUp key dest, holder := some t.car, tag := 0, lastAt := t.tick
                      annAt := t.tick, closeAt := t.tick, orphAt := 0, firstAt := none, mine := false }
  let hall (up : Bool) (t : State) (n : Nat) : State :=
    let key := callKey n (if up then 0 else 1)
    if t.heldByUs key 0 then t
    else adopt { t with bid := { t.bid with counter := (t.bid.counter + 1) % 1024 } } key 0xFF
      ((t.car * 1024 + t.bid.counter) % 65536)
  let s1 := each s.sch.hu s (hall true)
  let s2 := each s.sch.hd s1 (hall false)
  each (s.destSlots .waiting) s2 (fun t i => match alook t.sch.dests i with
    | none => t
    | some d => adopt t (callKey d.src 2) d.dst d.seq)

/-- Bellmetal becomes MEMBER (Table 8.3): deferred presses are announced, held calls queued for re-bid. -/
def State.bidJoin (s : State) : State :=
  let t := (s.adoptCalls).bidInto .member
  let p := t.bid.presses
  let u := each p { t with bid := { t.bid with presses := [] } } (fun w x => w.press x.1 x.2.1 x.2.2)
  each (u.bid.calls.filter (fun c => c.holder == some u.car)) u (fun w c => w.announceCall c 1 w.car)

/-- LISTEN ends (Table 8.3); a module without authority stays in LISTEN (R292). -/
def State.listenEnd (s : State) : State :=
  if s.authority ∧ s.bid.member = .listen ∧ (s.cann 2).st = .errorActive ∧ s.since s.bid.listenAt (msTicks (s.rn bidListenMs)) then
    s.bidJoin
  else s

/-- CAN2's state as membership watches it (Table 8.3). -/
def State.bidWatch (s : State) : State :=
  let c := s.cann 2
  let cut := c.st == .busOff || c.alone
  let ok := c.st == .errorActive && !c.alone
  { s with bid := { s.bid with
      cutAt := if cut then some (s.bid.cutAt.getD s.tick) else none
      okAt := if ok then s.bid.okAt else s.tick } }

/-- A car cut off from the group becomes an island. -/
def State.islandEnter (s : State) : State :=
  match s.bid.cutAt with
  | none => s
  | some t =>
    if (s.bid.member = .listen ∨ s.bid.member = .member) ∧ s.since t (s.rn bidOrphanN * msTicks (s.rn bidRebidMs)) then
      s.bidSilent.bidInto .island
    else s

/-- An island hears the group again. -/
def State.islandExit (s : State) : State :=
  if s.bid.member = .island ∧ s.since s.bid.okAt 16000 ∧ (s.cann 2).st = .errorActive ∧ !(s.cann 2).alone then s.bidListen else s

/-- BID_CTRL.RUN sets (Table 8.7). -/
def State.bidRunSet (s : State) : State :=
  if s.bid.run ∨ !s.rb schCtrl 0 ∨ !s.sys.profValid then s
  else
    let t := { s with bid := { s.bid with run := true } }
    if s.rb bidCfg 6 then t.bidListen else t

/-- RUN clears: OFF, held calls kept in SCH (Table 8.3). -/
def State.bidStop (s : State) : State :=
  let t := s.bidSilent
  ({ t with bid := { t.bid with
      run := false, queue := [], armed := none, releasing := [], presses := [], pendAwards := [], costs := []
      calls := t.bid.calls.filter (fun c => c.holder == some t.car) } }).bidInto .off

/-- A held call is announced for a re-bid (R152). -/
def State.rebidNow (s : State) (key seq : Nat) : State :=
  match s.gcall key seq with
  | none => s
  | some c =>
    if s.bid.member = .member ∧ c.holder = some s.car ∧ !s.isReleasing key seq ∧ !s.bidQueued false key seq ∧
        s.since c.lastAt (msTicks (s.rn bidRebidMs)) then s.announceCall c 1 s.car
    else s

/-- A WAIT call is announced again by its announcer (R148). -/
def State.repeatNow (s : State) (key seq : Nat) : State :=
  match s.gcall key seq with
  | none => s
  | some c =>
    if s.bid.member = .member ∧ c.holder.isNone ∧ c.mine ∧ !s.bidQueued false key seq ∧
        s.since c.closeAt (msTicks (s.rn bidRepeatMs)) then s.announceCall c 4 0xFF
    else s

/-- A call gone silent is announced with ORPHAN (R153): a held call by its re-bids, a WAIT call by its announcements; again
only when as long a silence has passed since the last ORPHAN (log entry 205). -/
def State.orphanNow (s : State) (key seq : Nat) : State :=
  match s.gcall key seq with
  | none => s
  | some c =>
    let p := msTicks (if c.holder.isSome then s.rn bidRebidMs else s.rn bidRepeatMs)
    if s.bid.member = .member ∧ !s.bidQueued false key seq ∧
        s.since (if c.holder.isSome then max c.lastAt c.orphAt else c.annAt) (s.rn bidOrphanN * p) then
      s.announceCall c 8 (c.holder.getD 0xFF)
    else s

/-- RELEASE_ALL (Table 8.7): every hall call and WAITING entry held by award is released with REASON HOST. -/
def State.releaseAll (s : State) : State :=
  let s1 := each (s.sch.hu.filter (fun n => s.heldByUs (callKey n 0) 0)) s (fun t n => t.dropHall n true 2)
  let s2 := each (s.sch.hd.filter (fun n => s.heldByUs (callKey n 1) 0)) s1 (fun t n => t.dropHall n false 2)
  (each ((s.sch.dests.filter (fun d => d.2.state == .waiting && s.heldByUs (callKey d.2.src 2) d.2.seq)).map
    (fun (d : Nat × Dest) => d.1)) s2 (fun t i => t.dropDest i 2)).bidPump

/-- BID_QRESULT at the tick after a query takes effect (Table 8.7), with no holder. -/
def State.queryTick (s : State) : State :=
  match s.bid.query with
  | none => s
  | some w =>
    let c := s.bidCost (Word.bits w 0 16) (Word.bits w 16 8) 0 none
    ({ s with bid := { s.bid with query := none } }).wr bidQresult (pack [(0, 16, c.1), (16, 16, c.2)])

/-- What Bellmetal does at a tick of its own: watch CAN2, refresh the costs every 16th period, send what waits. -/
def State.bidTick (s : State) : State :=
  let t := s.bidWatch
  (if s.period % 16 = 0 then t.costRefresh else t).bidPump

end Sys2Proof.Machine
end

