-- ==== Sys2Proof/Machine/ElOps.lean ====
section
/-! DEFINITION. The Electrum safety kernel (chapter 10): the channels' samples, filters and positions, the judgement of
chain and doors, the safety functions, permission, bridging, outputs, modes, the start-up proof, degraded modes and
resets. -/

namespace Sys2Proof

/-- One raw sample of a binary input through the 1.5 ms filter (R187): six cycles after the first that differs. -/
def Machine.Flt.next (f : Machine.Flt) (raw : Bool) : Machine.Flt :=
  if raw = f.lvl then ⟨f.lvl, 0⟩ else if 6 ≤ f.n then ⟨raw, 0⟩ else ⟨f.lvl, f.n + 1⟩

end Sys2Proof

namespace Sys2Proof.Machine

/-- The filters of a group of inputs. -/
def fltAll (l : List Flt) (raw : Nat) : List Flt := l.mapIdx (fun i f => f.next (raw.testBit i))

/-- The filtered level of an input of a group. -/
def lvlOf (l : List Flt) (i : Nat) : Bool := (nth l i Flt.reset).lvl

/-- Position in µm of a channel. -/
def ElCh.um (c : ElCh) : Int := round16 c.pos

/-- A channel's own time, µs, at the start of a cycle. -/
def cycUs (cyc : Nat) : Nat := cyc * 250

/-- Whether a fitted shaft reader is VALID on a channel's own path (R183, R209, Table 3.5). -/
def State.elSrOk (s : State) (c : ElCh) : Bool := s.rb safeCfg 0 && c.srSt == .valid

/-- Whether channel B reads its speed from the second encoder (R182). -/
def State.encB (s : State) : Bool := s.rb safeCfg 1

/-- A tap's raw level (R189): high at or above 70 % of CH_IN, low at or below 30 %; between the two the spec states none. -/
def tapHigh (i mv chIn : Nat) : Bool :=
  if chIn * 7 ≤ mv * 10 then true else if mv * 10 ≤ chIn * 3 then false else Config.tapBetween i mv chIn

/-- The binary inputs of a cycle (R187). -/
def ElCh.inputs (c : ElCh) (x : ElSample) : ElCh :=
  { c with
    chOk := c.chOk.next (decide (18000 ≤ x.chIn))
    taps := c.taps.mapIdx (fun i f => f.next (tapHigh i (nth x.taps i 0) x.chIn))
    mirrors := fltAll c.mirrors x.mirrors.toNat
    cdmF := c.cdmF.next (x.cdm.toNat.testBit 0), cdmR := c.cdmR.next (x.cdm.toNat.testBit 1)
    x22 := fltAll c.x22 x.x22.toNat, stoFb := c.stoFb.next x.stoFb, dz := x.dz }

/-- The encoder of a channel (R182, Table 3.1): its step, µm × 2^16, and whether it is lost. A step above 1,563 µm in one
period is one above 6,252 µm in a cycle; ENC1 counts as back only in band 0 (R49). -/
def State.elEnc (s : State) (second : Bool) (c : ElCh) (x : EncSample) : ElCh × Int :=
  let w := s.encWidth second
  let d := signed w ((x.count.toNat + 2 ^ 32 - c.prev.toNat) % 2 ^ w) * s.ri (if second then safeEncbScale else safeEncaScale)
  let step : Int := if s.el.cyc = 0 then 0 else d
  let bad := x.fault || decide (6252 * 65536 < step.natAbs)
  let good := if bad || !(second || c.band == 0) then 0 else min (c.encGood + 1) 400
  ({ c with prev := x.count, encBad := bad || (c.encBad && decide (good < 400)), encGood := good }, if bad then 0 else step)

/-- An answer of the shaft reader on a channel's own receiver, by the checks of R39 (Table 10.1): the position and its age
in µs. -/
def State.elTelegram (s : State) (c : ElCh) (x : ElSample) : Option (Int × Nat) :=
  match x.sr with
  | none => none
  | some (l, us) =>
    let age := us + s.rf_ posSrCfg 0 16
    if l.length = 8 ∧ slice l 6 2 = crc16Bytes (slice l 0 6) ∧ byteAt l 0 = 0 ∧ c.srHeard.isSome ∧
        (s.authority = true → c.srHeard = some (byteAt l 5)) ∧ 1 ≤ us ∧ us ≤ 250 ∧ age ≤ 2000 then
      some (signed 32 (leNat (slice l 1 4)), age)
    else none

/-- The telegrams that a speed from the reader needs (R182). -/
def State.elHeard (s : State) (c : ElCh) (tel : Option (Int × Nat)) : ElCh :=
  match tel with
  | some (z, age) => { c with srHist := ((z, cycUs s.el.cyc - age) :: c.srHist).take 5 }
  | none => c

/-- The shaft reader's state in a channel (R209, Table 3.5): `y` is the innovation of an accepted telegram against the
channel's own position. -/
def State.elReader (s : State) (c : ElCh) (y : Option Int) : ElCh :=
  let acc : Int := s.ri posSrAccept * 65536
  let st : SrcState := if !s.rb safeCfg 0 then .absent else if c.srSt = .absent then .probation else c.srSt
  let d : ElCh := match y, st with
    | some y, .valid =>
      let n := if acc < (y.natAbs : Int) then c.srOver + 1 else 0
      if n < 8 then { c with srAt := s.el.cyc, srOver := n }
      else { c with srAt := s.el.cyc, srSt := .lost, srOver := 0, srConflict := true }
    | some y, .probation =>
      let r := ({ SrCh.reset with prob := c.srProb } : SrCh).probStep (4 * s.el.cyc) y acc
      { c with srAt := s.el.cyc, srSt := if r.passed then .valid else .probation, srOver := 0, srProb := if r.passed then none else r.prob }
    | some _, .lost => { c with srAt := s.el.cyc, srSt := if c.srConflict then .lost else .probation, srProb := none }
    | some _, .absent => { c with srAt := s.el.cyc, srSt := .absent }
    | none, t =>
      if s.el.cyc < c.srAt + 8 then { c with srSt := t }
      else { c with srSt := if t = .valid then .lost else t, srProb := none, srOver := 0 }
  { d with srLost := d.srSt == .lost || (c.srLost && d.srSt == .probation) }

/-- The speed from four telegrams (R182), µm/s. -/
def srSpeed (l : List (Int × Nat)) : Int :=
  match l with
  | [a, _, _, _, b] => if a.2 ≤ b.2 then 0 else ((a.1 - b.1) * 1000000).tdiv ((a.2 - b.2 : Nat) : Int)
  | _ => 0

/-- The door-zone boundary that an edge of a channel's own input marks (R40, R183), µm × 2^16, and its landing. -/
def State.elEdge (s : State) (second rising : Bool) (c : ElCh) : Option (Nat × Int) :=
  match edgeLower rising c.vel with
  | none => none
  | some lower =>
    let ch : Chan := if second then .b else .a
    (nearestOf (s.boundary ch lower) c.pos s.landings).map (fun n => (n, s.boundary ch lower n))

/-- The position engine's data with a channel's own position, speed, band and reader in them, to judge the channel's
door-zone input by the rules of R52 (R209). -/
def State.asChannel (s : State) (c : ElCh) : State :=
  { s with pos := { s.pos with
      p := c.pos, v := c.vel * 65536, band := c.band, dza := c.dzc, dzb := c.dzc
      sr := { s.pos.sr with st := if s.elSrOk c then .valid else .lost } } }

/-- A channel's door-zone input in a cycle (R52, R209): its edges, the zones that its own position passes, misses and
probation. Without ABS the position names no zone (R183), and nothing is judged but the first edge. -/
def State.elZone (s : State) (second : Bool) (c : ElCh) (p0 : Int) (x : ElSample) : ElCh :=
  let k : Chan := if second then .b else .a
  let st : SrcState := if !s.rb posCtrl (if second then 3 else 2) then .absent
    else if c.dzc.st = .absent then .probation else c.dzc.st
  let d0 : DzCh := { c.dzc with st := st }
  let d1 := if d0.st = .lost ∧ !d0.wiring ∧ !x.dzEdges.isEmpty then d0.probe else d0
  let d2 :=
    if !c.abs then { d1 with zones := [] }
    else
      let t := (s.asChannel { c with dzc := d1 }).dzTrack k p0
      let see (u : State) (e : Bool × Nat) : State :=
        if c.band = 0 then u
        else u.setDz k { u.dz k with zones := (u.dz k).zones.map (u.passEdge k e.1 (c.pos - (c.vel * e.2 * 65536).tdiv 1000000)) }
      ((x.dzEdges.foldl see t).dzEndCrossing k p0).dz k
  let d3 := if d2.st = .probation ∧ 2 ≤ d2.good then { d2 with st := .valid, misses := 0, good := 0 } else d2
  { c with dzc := d3, dzLost := d3.st == .lost || (c.dzLost && d3.st == .probation) }

/-- A correction sets the position (R183); while ABS is clear it is no movement, so the references of SF-UCM and the creep
check shift with it. -/
def ElCh.setPos (c : ElCh) (p : Int) (abs : Bool) : ElCh :=
  let d := if c.abs then 0 else p - c.pos
  { c with pos := p, abs := c.abs || abs, ucmRef := c.ucmRef + d, brkRef := c.brkRef + d, absBad := 0 }

/-- A telegram's position at the start of the cycle (R183), µm × 2^16. -/
def State.elAt (s : State) (c : ElCh) (z : Int) (age : Nat) : Int :=
  (z + s.ri safeSrOfs) * 65536 + (c.vel * age * 65536).tdiv 1000000

/-- The corrections of a cycle (R183). -/
def State.elCorrect (s : State) (second : Bool) (c : ElCh) (tel : Option (Int × Nat)) (x : ElSample) : ElCh :=
  match tel with
  | some (z, age) => if s.rb safeCfg 0 then c.setPos (s.elAt c z age) true else c
  | none =>
    if s.elSrOk c then c
    else match x.dzEdges with
      | [(rising, age)] =>
        match s.elEdge second rising c with
        | none => c
        | some (n, b) =>
          let term := s.terminal true == some n || s.terminal false == some n
          c.setPos (b + (c.vel * age * 65536).tdiv 1000000) (term && decide (c.vel.natAbs ≤ 300000))
      | _ => c

/-- One channel's samples, speed and position in a cycle (R180 to R183), by its own copy of the configuration. -/
def State.elChan (w : State) (second : Bool) (c0 : ElCh) (x : ElSample) : ElCh :=
  let s := w.own c0
  let c1 := c0.inputs x
  let tel := s.elTelegram c1 x
  let q := s.elEnc second c1 x.enc
  let c2 := s.elHeard q.1 tel
  let byReader := second && (!s.encB || c2.encBad)
  let c3 : ElCh :=
    if byReader then
      let v := srSpeed c2.srHist
      { c2 with vel := v, win := [], pos := c2.pos + v * 16384 / 1000 }
    else
      let w := (q.2 :: c2.win).take 4
      { c2 with win := w, vel := (w.foldl (· + ·) 0 * 1000).tdiv 65536, pos := c2.pos + q.2 }
  let c4 := { c3 with
    band := (s.asChannel c3).selectBand
    absBad := if c3.vel.natAbs < 10000 then c3.absBad else c3.absBad + 1 }
  let c5 := s.elReader c4 (tel.map (fun z => s.elAt c4 z.1 z.2 - c4.pos))
  let c6 := s.elCorrect second c5 tel x
  { s.elZone second c6 c0.pos x with srHeard := if s.pos.sr.reqOut && s.pos.sr.reqAt == s.tick then some s.pos.sr.reqSeq else none }

/-- The role of section `i` (R188). -/
def State.role (s : State) (i : Nat) : Nat := s.rf_ safeTapCfg (4 * i) 4

/-- The used sections, contiguous from section 0. -/
def State.sections (s : State) : List Nat := (List.range 8).takeWhile (fun i => s.role i != 0)

/-- What a channel judges of a section (R189). -/
inductive Sect where
  | closed | opened | unknown
  deriving DecidableEq, Repr

/-- Whether a channel sees CH_IN at or above 18 V, filtered (R184). -/
def ElCh.chInOk (c : ElCh) : Bool := c.chOk.lvl

/-- A channel's judgement of section `i` (R189). -/
def ElCh.sect (c : ElCh) (i : Nat) : Sect :=
  if !c.chInOk then .opened
  else if i ≠ 0 && !lvlOf c.taps (i - 1) then .unknown
  else if lvlOf c.taps i then .closed else .opened

/-- A channel's contact of a CDM pair: closed. -/
def ElCh.cdm (c : ElCh) (x : Chan) : Bool :=
  match x with
  | .a => c.cdmF.lvl
  | .b => c.cdmR.lvl

/-- The sections of a role. -/
def State.ofRole (s : State) (r : Nat) : List Nat := s.sections.filter (fun i => s.role i == r)

/-- The LDG_LOCK and CAR_DOOR roles of a side. -/
def lockRole : Chan → Nat
  | .a => 3
  | .b => 4

/-- The CAR_DOOR role of a side. -/
def carRole : Chan → Nat
  | .a => 5
  | .b => 6

/-- The door sides whose contacts the chain holds. -/
def State.elSides (s : State) : List Chan :=
  [Chan.a, Chan.b].filter (fun c => s.doorEn c || !(s.ofRole (carRole c)).isEmpty || !(s.ofRole (lockRole c)).isEmpty)

/-- Whether a channel judges sections of given roles all closed. -/
def State.allClosed (w : State) (c : ElCh) (roles : List Nat) : Bool :=
  let s := w.own c
  (s.sections.filter (fun i => roles.contains (s.role i))).all (fun i => c.sect i == .closed)

/-- Whether a channel judges any section of given roles open. -/
def State.anyOpen (w : State) (c : ElCh) (roles : List Nat) : Bool :=
  let s := w.own c
  (s.sections.filter (fun i => roles.contains (s.role i))).any (fun i => c.sect i == .opened)

/-- A door side is locked in both channels (R189). -/
def State.sideLocked (s : State) (e : El) (x : Chan) : Bool :=
  !(s.ofRole (lockRole x)).isEmpty && !(s.ofRole (carRole x)).isEmpty &&
    e.chans.all (fun c => s.allClosed c [lockRole x, carRole x] && c.cdm x)

/-- The states of the chain and the doors (R189): closed and locked only while both channels judge so. -/
def State.elJudge (s : State) (e : El) : El :=
  { e with
    chain := e.chans.all (fun c => s.allClosed c [1, 2]) && !s.lsfOpen 1 && !s.lsfOpen 2
    lockedF := s.sideLocked e .a, lockedR := s.sideLocked e .b
    lockedAll := e.chans.all (fun c => s.allClosed c [3, 4, 5, 6] && s.elSides.all (fun x => c.cdm x)) }

/-- A door section or CDM pair is open for SF-DCM: either channel judges it so (R189). -/
def State.doorOpenIn (s : State) : Bool :=
  s.el.chans.any (fun c => s.anyOpen c [3, 4, 5, 6] || s.elSides.any (fun x => !c.cdm x))

/-- An X22 input as either channel's own contact shows it. -/
def El.x22Any (e : El) (i : Nat) : Bool := e.chans.any (fun c => lvlOf c.x22 i)

/-- An X22 input as both channels' contacts show it. -/
def El.x22Both (e : El) (i : Nat) : Bool := e.chans.all (fun c => lvlOf c.x22 i)

/-- SF-DZV (R194). -/
def State.dzConfirm (s : State) : Option Nat :=
  let zone (second : Bool) (c : ElCh) : Option Nat :=
    if c.dz && c.abs then (s.own c).zoneOf (s.dzOfs (if second then .b else .a)) c.um else none
  let za := zone false s.el.a
  let zb := zone true s.el.b
  if s.el.a.dzLost = s.el.b.dzLost then (if za = zb then za else none)
  else if s.el.still && s.el.brakeApplied then (if s.el.a.dzLost then zb else za) else none

/-- The mode that the X22 inputs ask for (R202); none while none is active. -/
def El.modeAsked (e : El) : Option ElMode :=
  match e.x22Any 0, e.x22Any 1, e.x22Any 2 with
  | false, false, false => none
  | true, false, false => some .ins
  | false, true, false => some .pins
  | false, false, true => some .emer
  | _, _, _ => some .multi

/-- MODE enters a value (R202). -/
def State.modeInto (s : State) (m : ElMode) : State :=
  if s.el.mode = m then s else ({ s with el := { s.el with mode := m } }).raise pgSafe 5

/-- The modes in a cycle (R202): entered at once; the return waits. -/
def State.elMode (s : State) : State :=
  match s.el.modeAsked with
  | some m => ({ s with el := { s.el with modeOff := 0 } }).modeInto m
  | none => { s with el := { s.el with modeOff := if s.el.chain then min (s.el.modeOff + 1) 4000 else 0 } }

/-- The cap of a mode (R198). -/
def State.modeCap (s : State) : List Nat :=
  match s.el.mode with
  | .normal => []
  | .ins | .pins => [s.rn safeVIns]
  | .emer => [s.rn safeVEmer]
  | .multi => [s.rn safeVIns, s.rn safeVEmer]

/-- The limit in force (R198). -/
def State.vlimNow (s : State) : Nat :=
  let v := s.rn safeVRated
  let slow := s.el.proofPend || !s.el.a.abs || !s.el.b.abs || s.clk.fallback
  let deg := s.el.deg.contains .sr || s.el.deg.contains .enc2
  ((if deg then [v / 2] else []) ++ (if slow then [300000] else []) ++ s.modeCap).foldl min v

/-- SAFE_VLIM and SAFE_OVS1_THR in a cycle (R198). -/
def State.elLimit (s : State) : State :=
  let v := s.vlimNow
  let t : Int := v * 4600
  { s with el := { s.el with
      vlim := v, ovs1 := if s.el.ovs1 ≤ t then t else max (s.el.ovs1 - s.ri safeCapDec) t } }

/-- The degraded modes whose fault is present (R209, Table 10.8). -/
def State.degNow (s : State) : List DegMode :=
  let sr := s.rb safeCfg 0 && (s.el.a.srLost || s.el.b.srLost)
  (if sr then [DegMode.sr] else []) ++
  (if s.encB && s.el.b.encBad && s.elSrOk s.el.b then [DegMode.enc2] else []) ++
  (if s.el.a.dzLost || s.el.b.dzLost then [DegMode.dz] else []) ++
  (if s.lwbLost then [DegMode.load] else [])

/-- A value kept per degraded mode. -/
def degGet (l : List (DegMode × Nat)) (m : DegMode) : Nat := ((l.find? (fun x => x.1 == m)).map (fun (x : DegMode × Nat) => x.2)).getD 0

/-- A value kept per degraded mode, changed. -/
def degSet (l : List (DegMode × Nat)) (m : DegMode) (n : Nat) : List (DegMode × Nat) := (m, n) :: l.filter (fun x => x.1 != m)

/-- SAFE_DEG.ACTIVE. -/
def State.degActive (s : State) : Nat := Word.bits s.safeDegW 0 6

/-- The degraded modes and their timers in a cycle (R209, R210). -/
def State.elDegrade (s : State) : State :=
  let now := s.degNow
  let e := [DegMode.sr, .enc2, .dz, .load].foldl (fun (e : El) m =>
    if now.contains m then { e with degCyc := degSet e.degCyc m (degGet e.degCyc m + 1), degOk := degSet e.degOk m 0 }
    else { e with degOk := degSet e.degOk m (min (degGet e.degOk m + 1) 2400000) }) s.el
  let t := { s with el := { e with deg := now } }
  let w := t.degActive
  let u := { t with el := { t.el with degWas := w } }
  if w = s.el.degWas then u else u.raise pgSafe 6

/-- A channel's speed source is lost with no degraded mode (R182, R209). -/
def State.sourceGone (s : State) : Bool :=
  s.el.a.encBad || (if s.encB then s.el.b.encBad && !s.elSrOk s.el.b else s.el.b.srLost)

/-- What differs between the channels in this cycle (R184): CH_IN 0, taps 1 to 8, mirrors 9 to 12, position 13, speed 14,
the decision on each output 15 to 23. -/
def State.elDiffer (s : State) : List Nat :=
  let a := s.el.a
  let b := s.el.b
  (if a.chInOk != b.chInOk then [0] else []) ++
    ((List.range 8).filter (fun i => lvlOf a.taps i != lvlOf b.taps i)).map (· + 1) ++
    ((List.range 4).filter (fun i => lvlOf a.mirrors i != lvlOf b.mirrors i)).map (· + 9) ++
    (if !s.sourceGone && a.abs == b.abs && decide (s.ri safeXposTol < ((a.um - b.um).natAbs : Int)) then [13] else []) ++
    (if !s.sourceGone && decide (s.ri safeXvelTol + ((a.vel.natAbs / 16 : Nat) : Int) < ((a.vel - b.vel).natAbs : Int)) then [14] else []) ++
    ((List.range 9).filter (fun i => nth a.outs i false != nth b.outs i false)).map (· + 15)

/-- The pairs whose contacts differ (R184): X22 0 to 9, CDM_F 10, CDM_R 11, STO_FB 12. -/
def State.pairsDiffer (s : State) : List Nat :=
  let a := s.el.a
  let b := s.el.b
  (List.range 10).filter (fun i => lvlOf a.x22 i != lvlOf b.x22 i) ++
    (if a.cdmF.lvl != b.cdmF.lvl then [10] else []) ++ (if a.cdmR.lvl != b.cdmR.lvl then [11] else []) ++
    (if s.rf_ safeCfg 3 2 == 1 && a.stoFb.lvl != b.stoFb.lvl then [12] else [])

/-- How far a door axis stands from its closed stop, over 50 mm (R201). -/
def State.doorFar (s : State) (x : Chan) : Bool := decide (50000 < (s.door x).actPos)

/-- R201's contradictions of a side in this cycle, each by itself, as a channel sees them. -/
def State.implausible (w : State) (c : ElCh) (x : Chan) : List Bool :=
  let s := w.own c
  let car (v : Sect) : Bool := (s.ofRole (carRole x)).any (fun i => c.sect i == v)
  let lock : Bool := (s.ofRole (lockRole x)).any (fun i => c.sect i == .closed)
  let far := s.doorEn x && s.doorFar x
  [(c.cdm x && car .opened) || (!c.cdm x && car .closed), c.cdm x && far,
    lock && far && (match s.el.dzv with
      | some n => s.serves n x
      | none => false)]

/-- How long each contradiction of R201 has held on a channel. -/
def State.elPlaus (s : State) (c : ElCh) : ElCh :=
  let n (x : Bool × Nat) : Nat := if x.1 then min (nth c.plaus x.2 0 + 1) 2000 else 0
  { c with plaus := (s.implausible c .a ++ s.implausible c .b).zipIdx.map n }

/-- A contradiction of a side has held for 500 ms (R201). -/
def El.plausBad (e : El) (x : Chan) : Bool :=
  let k := match x with
    | .a => 0
    | .b => 3
  e.chans.any (fun c => ((c.plaus.drop k).take 3).any (fun n => decide (2000 ≤ n)))

/-- A contradiction of R201 is present on either channel. -/
def El.plausNow (e : El) : Bool := e.chans.any (fun c => c.plaus.any (fun n => n != 0))

/-- The feedback of STO1 and STO2 shows the state commanded, in every channel that reads it (R200). -/
def State.stoFbOk (s : State) : Bool :=
  let want := !(s.el.out 6 && s.el.out 7)
  match s.rf_ safeCfg 3 2 with
  | 1 => s.el.chans.all (fun c => c.stoFb.lvl == want)
  | 2 => s.drv.stoFb == want
  | _ => true

/-- A mirror contact shows the state its output is commanded to, in both channels (Table 20.5: low is energised). -/
def State.mirrorOk (s : State) (slot : Nat) : Bool := s.el.chans.all (fun c => lvlOf c.mirrors (slot - 2) != s.el.out slot)

/-- The counts of what persists (R184, R191, R201, R203). -/
def State.elPersist (s : State) : State :=
  let e := s.el
  let pd := s.pairsDiffer
  let bump (c : Bool) (n m : Nat) : Nat := if c then min (n + 1) m else 0
  let quiet := bump e.still e.quiet 4000
  let common := decide (4000 ≤ quiet) && e.brakeApplied && e.mcDropped
  { s with el := { e with
      quiet := quiet
      commonN := bump common e.commonN 2000
      a := s.elPlaus e.a, b := s.elPlaus e.b
      disagree := s.elDiffer.map (fun i => (i, min ((alook e.disagree i).getD 0 + 1) 8))
      pairBad := pd.map (fun i => (i, min ((alook e.pairBad i).getD 0 + 1) 800))
      pitRst := bump (e.x22Both 7 && e.x22Both 8 && e.chans.all (fun c => s.allClosed c [2]) && !s.lsfOpen 2 && !s.lsfOpen 3 &&
        !e.x22Any 1) e.pitRst 4000 } }

/-- The common conditions of R191. -/
def State.commonOk (s : State) : Bool := decide (4000 ≤ s.el.quiet) && s.el.brakeApplied && s.el.mcDropped

/-- SF-UCM and the creep check arm and take their references (R197, R200). -/
def State.elArm (s : State) : State :=
  let e := s.el
  let u := !e.lockedAll && !e.bypOn
  let k := e.brakeApplied && e.mcDropped
  let ref (c : ElCh) : ElCh :=
    { c with ucmRef := if u && !e.ucmArmed then c.pos else c.ucmRef, brkRef := if k && !e.brkArmed then c.pos else c.brkRef }
  { s with el := { e with a := ref e.a, b := ref e.b, ucmArmed := u, brkArmed := k } }

/-- SF-ETS for a channel (R199). -/
def State.etsActs (w : State) (c : ElCh) : Bool :=
  let s := w.own c
  c.abs && c.vel != 0 && (match s.terminal (decide (0 < c.vel)) with
    | none => false
    | some n =>
      let x := if 0 < c.vel then s.level n - c.um else c.um - s.level n
      let lim := (if x ≤ 0 then 0 else isqrt (2 * s.rn safeEtsDec * x.toNat)) + s.rn safeEtsOfs
      decide (lim < c.vel.natAbs))

/-- A channel stands beyond a terminal level by more than SAFE_INS_OVR (R202). -/
def State.insOver (w : State) (c : ElCh) : Bool :=
  let s := w.own c
  c.abs && (match s.terminal true, s.terminal false with
    | some hi, some lo => decide (s.level hi + s.ri safeInsOvr < c.um) || decide (c.um < s.level lo - s.ri safeInsOvr)
    | _, _ => false)

/-- SF-PIT acts (R203). -/
def State.pitActs (s : State) : Bool :=
  s.rb safeCfg 5 && (s.el.chans.any (fun c => s.anyOpen c [2]) || !s.el.x22Both 8 || s.lsfOpen 2 || s.lsfOpen 3)

/-- SF-HEAD acts (R203). -/
def State.headActs (s : State) : Bool := s.rb safeCfg 6 && s.el.x22Any 9 && s.el.mode != .ins

/-- The causes whose condition is present in this cycle (Tables 10.3 and 10.5). -/
def State.elPresent (s : State) : List Nat :=
  let e := s.el
  let off (i : Nat) : Bool := !e.out i && nth e.nodes i false && decide (nth e.chgAt i 0 + 2 ≤ e.cyc)
  let creep := e.brkArmed && e.chans.any (fun c => decide ((s.own c).ri safeBrkCreepUm * 65536 < ((c.pos - c.brkRef).natAbs : Int)))
  let ucm := e.ucmArmed && (creep || e.chans.any (fun c => decide ((s.own c).ri safeUcmDist * 65536 < ((c.pos - c.ucmRef).natAbs : Int))))
  (List.range 20).filter (fun k => match k with
    | 0 => e.chans.any (fun c => s.anyOpen c [1])
    | 1 => s.doorOpenIn && (e.out 2 || e.out 3) && !e.bypOn
    | 2 => e.plausNow
    | 3 => ucm
    | 4 => e.chans.any (fun c => decide (e.ovs1 < ((c.vel.natAbs * 4000 : Nat) : Int)))
    | 5 => e.chans.any (fun c => decide ((s.own c).rn safeOvs2Pct * (s.own c).rn safeVRated < c.vel.natAbs * 100))
    | 6 => e.chans.any s.etsActs
    | 7 => creep
    | 9 => !s.stoFbOk
    | 10 => e.chans.any s.insOver
    | 11 => s.pitActs || s.headActs
    | 12 => s.lsfOpen 1
    | 13 => !e.pairBad.isEmpty
    | 14 => s.sourceGone
    | 15 => s.drv.fault
    | 16 => !s.authority
    | 17 => (List.range 9).any off
    | 19 => e.st != .start && e.a.digest != e.b.digest
    | _ => false)

/-- The causes that a cycle itself latches; the others come with a command of their own (MIRROR_TIMEOUT and the like). -/
def tripsInCycle : List Nat := [0, 1, 3, 4, 5, 6, 7, 10, 11, 12, 14, 17, 19]

/-- The latches of SF-PIT and SF-HEAD, and the release of HEAD_LATCH as INS goes inactive with HEAD inactive (R203). -/
def State.elLatches (s : State) : State :=
  let e := s.el
  let head := e.headLatch || s.headActs
  let ins := e.x22Any 0
  let release := head && e.insSeen && !ins && !e.x22Any 9
  { s with el := { e with
      pitLatch := e.pitLatch || s.pitActs, headLatch := head && !release, insWas := ins
      insSeen := head && ins && (e.insSeen || (e.headLatch && !e.insWas)) } }

/-- The bridging request and its landing (R195): relevelling, or a stop with an ARMED axis; it stays at LANDED until DRV
signals the brake applied. The pair's first is true for relevelling. -/
def State.bypRequest (s : State) : Option (Bool × Nat) :=
  let relev := s.mot.relevPend || (s.mot.phase == .special && s.mot.runType == .relevelling)
  let adv := s.mot.phase == .stopping && s.doorsIn.any (fun c => (s.door c).armed)
  let stays := s.el.bypOn && s.mot.phase == .landed && s.drv.step != .off
  if relev then some (true, s.mot.landing)
  else if adv then some (false, s.mot.target)
  else if stays then some (s.el.relevGrant, s.mot.landing)
  else none

/-- R195's conditions for a request. -/
def State.bypOk (s : State) (r : Bool × Nat) : Bool :=
  let v (c : ElCh) : Nat := if r.1 then (s.own c).rn safeVRelev else (s.own c).rn safeVByp
  s.el.dzv == some r.2 && s.el.chans.all (fun c => decide (c.vel.natAbs ≤ v c)) && s.el.chain && s.el.st == .normal &&
    s.el.mode == .normal && !s.el.proofPend && !s.el.a.dzLost && !s.el.b.dzLost && s.authority

/-- Bridging in a cycle (R195): granted at the end of the first cycle with a request and its conditions met, ended with the
first in which the request or a condition fails; UCM where the car then moves with a door not closed. -/
def State.elBypass (s : State) : State :=
  let was := s.el.bypOn
  let r := s.bypRequest
  let ok := match r with
    | none => false
    | some r => s.bypOk r
  let t := { s with el := { s.el with bypOn := ok, relevGrant := match r with
    | none => false
    | some r => ok && r.1 } }
  let u := if ok = was then t else t.raise pgSafe 4
  if was ∧ !ok ∧ !s.el.lockedAll ∧ !s.el.still then u.trip 3 else u

/-- Whether the car stands outside every door zone by both channels' positions (R210). -/
def State.outsideZones (s : State) : Bool :=
  s.el.chans.all (fun c => c.abs && (s.landings.all (fun n => decide ((s.own c).hw n < (((s.own c).level n - c.um).natAbs : Int)))))

/-- The run of R210 to the nearest landing, by each channel's own position. -/
def State.nearestRun (s : State) : Bool :=
  s.outsideZones && s.el.chans.all (fun c => nearestOf (s.own c).level c.um s.landings == some s.horizon)

/-- The conditions of permission (R193). -/
def State.permOk (s : State) : Bool :=
  let e := s.el
  let relev := s.mot.runType == .relevelling
  e.st == .normal && s.authority &&
    (e.mode == .normal || (s.mot.holdRun && e.mode != .multi)) &&
    (!(e.pitLatch || e.headLatch) || (s.mot.holdRun && (e.mode == .pins || e.mode == .ins))) &&
    e.chain && (e.lockedAll || (relev && e.bypOn)) && e.brakeApplied && e.mcDropped &&
    (!e.proofPend || s.mot.runType == .correction || s.mot.runType == .recovery) &&
    (e.expired.isEmpty || s.nearestRun)

/-- Permission in a cycle (R193). -/
def State.elPermit (s : State) : State :=
  if s.drv.step = .magnetise ∧ !s.el.perm ∧ s.permOk then ({ s with el := { s.el with perm := true } }).raise pgSafe 3 else s

/-- What a channel wants energised at the end of a cycle (R186), by its own copy of the configuration. -/
def State.elWants (w : State) (c : ElCh) : List Bool :=
  let s := w.own c
  let e := s.el
  let sto := e.perm && e.mcIn
  let brk := sto && s.drv.liftReq && e.out 6 && e.out 7
  [e.st == .normal && e.chain, e.bypOn, e.perm, e.perm, brk, brk, sto, sto, e.st != .start && !e.govTripped && s.rb safeCfg 2]

/-- The outputs at the end of a cycle (R185, R186): each channel drives its own switch. -/
def State.elOutputs (s : State) : State :=
  let auth := s.outputsMay
  let a := s.elWants s.el.a
  let b := s.elWants s.el.b
  { s with el := (List.range 9).foldl (fun x i => x.setSw i (auth && nth a i false) (auth && nth b i false) x.cyc) s.el }

/-- One door side in the start-up proof (R208): what has been seen open, and whether it is proven now. -/
def State.proofSide (s : State) (x : Chan) (sawCdm sawLock : Bool) : Bool × Bool × Bool :=
  let e := s.el
  let y : Chan := match x with
    | .a => .b
    | .b => .a
  let alone := !s.elSides.contains y || s.sideLocked e y || e.chans.all (fun c => c.cdm y)
  let here := e.still && (match e.dzv with
    | some n => s.serves n x
    | none => false)
  let lock (v : Sect) : Bool := e.chans.all (fun c => (s.ofRole (lockRole x)).all (fun i => c.sect i == v))
  if !here then (false, false, false)
  else
    let cdm := sawCdm || (alone && e.chans.all (fun c => !c.cdm x))
    let lck := sawLock || (alone && lock .opened)
    (cdm, lck, cdm && lck && lock .closed && e.chans.all (fun c => c.cdm x))

/-- The start-up proof in a cycle (R208): PROOF_DONE, and RECOV_DONE of R98. -/
def State.elProof (s : State) : State :=
  if !s.el.proofPend ∨ s.el.st = .start then s
  else
    let f := s.proofSide .a s.el.proofOpenF s.el.proofLockF
    let r := s.proofSide .b s.el.proofOpenR s.el.proofLockR
    let doneF := s.el.proofF || f.2.2
    let doneR := s.el.proofR || r.2.2
    let all := (!s.doorEn .a || doneF) && (!s.doorEn .b || doneR)
    let t := { s with el := { s.el with
      proofOpenF := f.1, proofLockF := f.2.1, proofOpenR := r.1, proofLockR := r.2.1, proofF := doneF, proofR := doneR
      proofPend := !all } }
    if all then
      let u := t.raise pgSafe 8
      u.rtEvent 5
    else t

/-- A hold-to-run run is wanted (R202): RUN and exactly one direction input; true upward. -/
def El.holdWanted (e : El) : Option Bool :=
  if !e.x22Both 5 then none
  else match e.x22Both 3, e.x22Both 4 with
    | true, false => some true
    | false, true => some false
    | _, _ => none

/-- Hold-to-run runs in a cycle (R202). -/
def State.elHoldRun (s : State) : State :=
  let e := s.el
  let may := e.mode != .normal && e.mode != .multi && e.st == .normal
  if s.mot.holdRun then
    match s.mot.phase with
    | .prep | .speed | .approach | .stopping =>
      if may ∧ e.holdWanted = some s.mot.up then s
      else
        let t := s.motHoldNow
        if t.mot.phase = .held then t.motIdleNow
        else { t with mot := { t.mot with committed := false, csrc := .none, keptHorizon := false } }
    | .held => s.motIdleNow
    | _ => s
  else match e.holdWanted with
    | none => s
    | some up =>
      match s.terminal up with
      | none => s
      | some n =>
        let t := s.wn motHorizon n
        if may ∧ s.mot.phase = .idle ∧ t.horizonOk ∧ s.drvIf ≠ 0 then
          let u := t.motStartNow
          { u with mot := { u.mot with holdRun := true } }
        else s

/-- The state of Electrum after its samples (R180 to R184, R187, R189, R194, R202). -/
def State.elSample (s : State) (i : ElIn) : State :=
  let e := { s.el with
    cyc := s.el.cyc + 1, a := s.elChan false s.el.a i.a, b := s.elChan true s.el.b i.b
    nodes := (List.range 9).map (fun k => i.nodes.toNat.testBit k) }
  let t := { s with el := s.elJudge e }
  let u := { t with el := { t.el with dzv := t.dzConfirm } }
  u.elMode

/-- The decisions of a cycle (R184, R190 to R210): trips first, then what may be energised. -/
def State.elDecide (s : State) : State :=
  let s1 := ((s.elDegrade).elArm.elPersist).elLimit
  let now := s1.elPresent
  let s2 := { s1 with el := { s1.el with
    present := now, lastPresent := now.foldl (fun l k => aput l k s1.el.cyc) s1.el.lastPresent } }
  let test := now.contains 17
  let s3 := (if test ∧ !s2.el.causes.contains 17 then s2.raise pgSafe 9 else s2).tripAll
    (now.filter (fun k => if s2.el.st = .start then k == 17 else tripsInCycle.contains k))
  s3.elLatches

/-- ELECTRUM_CYCLE (R180). -/
def State.elCycle (s : State) (i : ElIn) : State :=
  let s1 := (s.lsfRunNow.lsfTakeAll.elSample i).elDecide
  let s2 := if s1.el.st = .normal then s1.elHoldRun.elPermit.elBypass.elProof else s1
  let s3 := s2.relevGrantEnds.elOutputs
  (((s3.drvCheckReady).lockNote .a).lockNote .b).schServed

/-- Electrum leaves TRIPPED when no cause is left (R192). -/
def State.elResolve (s : State) : State :=
  if s.el.st = .tripped ∧ s.el.causes.isEmpty then
    ({ s with el := { s.el with st := .normal } }).raise pgSafe 2
  else s

/-- Causes are cleared; GOV is energised again with OVS2 (R186, R191). -/
def State.elClear (s : State) (l : List Nat) : State :=
  let t := { s with el := { s.el with
    causes := s.el.causes.filter (fun c => !l.contains c), govTripped := s.el.govTripped && !l.contains 5 } }
  t.elOutputs.elResolve

/-- Whether a reset kind is covered by a host's world (R191); unsessioned SPI is an admitted host with CONTROL (R268). -/
def covers (src : Src) : TripKind → Bool
  | .auto | .host => true
  | .service => decide (1 ≤ src.world.rank)
  | .pit | .power => false

/-- The latched causes that a covered reset would clear now (R191). -/
def State.clearable (s : State) (cov : TripKind → Bool) : List Nat :=
  if s.commonOk then s.el.causes.filter (fun c => cov (causeKind c) && !s.el.present.contains c) else []

/-- The refusals of SAFE_CMD.RESET (R191). -/
def State.safeResetRefusal (s : State) (src : Src) : List Nat :=
  if !(s.clearable (covers src)).isEmpty then []
  else if s.el.causes.any (fun c => !covers src (causeKind c)) then [5] else [2]

/-- The AUTO causes that clear by themselves now (R191). -/
def State.autoClear (s : State) : List Nat :=
  if 2000 ≤ s.el.commonN then
    s.el.causes.filter (fun c => causeKind c == .auto && !s.el.present.contains c &&
      decide (((alook s.el.lastPresent c).getD 0) + 2000 ≤ s.el.cyc))
  else []

/-- The pulse of a slot is due (R206): in the first cycle of its place in the rotation of 16 slots of 25 cycles, or in the
next, in which the pulse ends; once. -/
def El.pulseDue (e : El) (slot : Nat) : Bool :=
  decide (0 < e.cyc) && (e.cyc - 1) / 25 % 16 == slot && decide ((e.cyc - 1) % 25 ≤ 1) && e.pulsed != some ((e.cyc - 1) / 25)

/-- A test pulse (R206, R207). -/
def State.testPulseNow (s : State) (slot : Nat) (nodeLow : Bool) (demand : PulseDemand) : State :=
  if 9 ≤ slot ∨ !s.el.out slot ∨ !s.el.pulseDue slot then s
  else
    let swB := nth s.el.swNext slot false
    let ok := match demand with
      | .offBeforeReading => true
      | _ => nodeLow
    let n := (s.rf_ safeTest 16 16 + 1) % 65536
    let t := ({ s with el := { s.el with
      lastPulse := some (slot, swB, ok), pulsed := some ((s.el.cyc - 1) / 25), swNext := s.el.swNext.set slot (!swB) } }).wf_ safeTest 16 16 n
    if ok then t else (t.raise pgSafe 9).trip 17

/-- The limit of a degraded mode, in cycles (Table 10.8). -/
def degLimit : DegMode → Nat
  | .sr | .enc2 => 60 * 60 * 4000
  | .dz => 24 * 60 * 60 * 4000
  | .load => 8 * 60 * 60 * 4000

/-- A degraded mode's limit is reached (R210). -/
def State.degExpire (s : State) (m : DegMode) : State :=
  if degLimit m ≤ degGet s.el.degCyc m ∧ !s.el.expired.contains m then
    ({ s with el := { s.el with expired := m :: s.el.expired } }).raise pgSafe 7
  else s

/-- A degraded mode's timer is cleared after 10 min of continuous VALID (R210). -/
def State.degClear (s : State) (m : DegMode) : State :=
  if 2400000 ≤ degGet s.el.degOk m ∧ !s.el.deg.contains m then
    { s with el := { s.el with degCyc := degSet s.el.degCyc m 0, expired := s.el.expired.filter (fun x => x != m) } }
  else s

/-- The run to the nearest landing (R210). -/
def State.nearestStart (s : State) : State :=
  match s.nearest s.estPos with
  | none => s
  | some n =>
    if !s.el.expired.isEmpty ∧ s.mot.phase = .idle ∧ s.el.still ∧ s.pos.band = 0 ∧ s.rb schCtrl 0 ∧ !s.hostRuns ∧
        s.landings.all (fun m => s.outsideZone m s.estPos) ∧ s.doorsClosed ∧ s.posValid ∧ s.drvIf ≠ 0 ∧ s.authority then
      (s.wn motHorizon n).motStartNow
    else s

/-- The digest that a channel computes over its own copy (R184). -/
def State.safeDigestOf (w : State) (c : ElCh) : Word :=
  let s := w.own c
  Config.safeDigest (((List.range 22).map (fun i => s.rd (safeCfg + 4 * i))) ++
    s.landings.flatMap (fun n => [s.lt n 0, s.lt n 4]))

/-- After an accepted configuration write both channels take their copies in the same cycle and compute their digests
(R184, R211). -/
def State.elDigest (s : State) : State :=
  let t := s.elTake
  { t with el := { t.el with
      a := { t.el.a with digest := t.safeDigestOf t.el.a }, b := { t.el.b with digest := t.safeDigestOf t.el.b } } }

/-- Electrum's START ends (R192, Table 10.4). -/
def State.elStart (s : State) (pass : Bool) (da db : Word) : State :=
  if s.el.st ≠ .start then s
  else
    let t := { s with el := { s.el with a := { s.el.a with digest := da }, b := { s.el.b with digest := db } } }
    if pass ∧ da = db then
      (({ t with el := { t.el with st := if t.el.causes.isEmpty then .normal else .tripped } }).elOutputs).lsfRunNow
    else
      (if t.el.causes.contains 19 then { t with el := { t.el with st := .tripped } } else t.trip 19).lsfRunNow

end Sys2Proof.Machine
end

