-- ==== Sys2Proof/Machine/View.lean ====
section
/-! DEFINITION. What every register and window word reads (R21 to R26, R347): the stored word, or the view that the
owning chapter gives of the state of its block. Reads change nothing. -/

namespace Sys2Proof.Machine

/-- The bytes of a record (Table 16.2), its CRC-32 last. -/
def Rcd.bytes (r : Rcd) : List Byte :=
  let typ : Nat := match r.typ with
    | .event => 1
    | .host => 2
    | .start => 3
    | .powerFail => 4
    | .clockSet => 5
    | .recordsLost => 6
  let flags := ofBits ((List.range 5).filter (fun i => match i with
    | 0 => r.late
    | 1 => r.noSnap
    | 2 => r.noAuth
    | 3 => r.clkFb
    | _ => r.pfail))
  let head := natLe 1 typ ++ natLe 1 r.source ++ natLe 1 r.slot ++ natLe 1 flags ++ natLe 4 r.seq ++ natLe 4 r.pcycle ++
    natLe 6 r.optime ++ natLe 2 (r.snap.length + r.todo.length) ++ natLe 4 r.tick ++ wordLe r.detail ++ natLe 4 0
  let snap := padData (r.snap.flatMap wordLe) 192
  let body := head ++ snap ++ natLe 4 r.lost ++ natLe 4 r.seq ++ natLe 20 0
  body ++ natLe 4 (crc32 body)

/-- Word `w` of a byte list, bytes 4w to 4w + 3, 0 beyond the end. -/
def byteWord (l : List Byte) (w : Nat) : Word := wordN (leNat (slice l (4 * w) 4))

/-- Word `w` of a landing map. -/
def mapWord (l : List Nat) (w : Nat) : Word := wordN (ofBits ((l.filter (fun n => n / 32 == w)).map (fun n => n % 32)))

/-- The payload entries of a profile object (R358): address and value pairs. -/
def profEntries (object : List Byte) : List (Nat × Word) :=
  let n := leNat (slice object 8 4) / 8
  (List.range n).map (fun i =>
    (leNat (slice object (32 + 8 * i) 3), byteWord (object.drop (32 + 8 * i)) 1))

/-- The bank in force of a profile slot. -/
def State.bank (s : State) (n : Nat) : Option ProfBank := alook s.sys.banks n

/-- Public key `i` of Table 17.3: 0-1 vendor root keys, 2-5 OEM keys. -/
def Key.pub (k : Key) (i : Nat) : Option PubKey := if i < 2 then k.vendorKeys[i]? else k.oemKeys[i - 2]?

/-- A signature that passes the key check and verifies (R319): the signed part, then 1,612 bytes. -/
def State.sigOk (s : State) (signer : Nat) (object : List Byte) : Bool :=
  match s.key.pub signer with
  | none => false
  | some k =>
    let n := 32 + leNat (slice object 8 4)
    k.present && !k.revoked && Config.lmsVerify k.bytes (object.take n) (slice object n 1612)

/-- A slot is valid (R361): its digest check passes and, in FIELD and SERVICE, its signature; RETIRED accepts none (R316). -/
def State.slotValid (s : State) (n : Nat) : Bool :=
  match s.bank n with
  | none => false
  | some b => b.ok && s.lc != .retired &&
      (!(s.lc == .field || s.lc == .service) || (b.signed && 2 ≤ b.signer && s.sigOk b.signer b.object))

/-- The entries of the active profile: of the selected slot, when it is valid. -/
def State.active (s : State) : List (Nat × Word) :=
  if s.sys.profValid then ((s.bank s.sys.slot).map (fun b => profEntries b.object)).getD [] else []

/-- The RWP bits of a register. -/
def RegSpec.rwpMask (r : RegSpec) : Word :=
  wordN (r.flds.foldl (fun acc f => if f.acc = .rwp then acc + ((2 ^ f.width - 1) <<< f.lo) else acc) 0)

/-- The value a profile gives a word: its last entry for the address, else the default. -/
def profValue (l : List (Nat × Word)) (a : Nat) : Word :=
  (((l.filter (fun e => e.1 == a)).getLast?).map (fun (e : Nat × Word) => e.2)).getD (regReset a)

/-- The register of an address below 0x10_0000. -/
def regAt (a : Nat) : Option RegSpec := (pageRegs (a / 4096)).bind (fun l => findReg l (a % 4096))

/-- The page that shows a word's RWP bits as running values, and those bits: a register's own page; SCH for the landing
table; a CAN controller for its RXO_ID words (Table 12.3). The windows' pages are the model's choice (log entry 192). -/
def rwpPage (a : Nat) : Option (Nat × Word) :=
  if a < 0x100000 then (regAt a).map (fun r => (a / 4096, r.rwpMask))
  else if a < 0x140000 then (if a % 0x10000 < 0x4000 && a % 0x80 == 0 then some (0x14 + (a - 0x100000) / 0x10000, 0xFFFFFFFF) else none)
  else if 0x150000 ≤ a && a < 0x154000 then some (pgSch, 0xFFFFFFFF)
  else none

/-- LOCK.DIRTY of a page: a running RWP value differs from the active profile. -/
def State.dirty (s : State) (pg : Nat) : Bool :=
  let act := s.active
  ((s.rf.map (fun (e : Nat × Word) => e.1)) ++ (act.map (fun (e : Nat × Word) => e.1))).any
    (fun a => match rwpPage a with
      | none => false
      | some (p, m) => p == pg && (s.rd a ^^^ profValue act a) &&& m != 0)

/-- LOCK (Table 2.8). -/
def State.lockW (s : State) (pg : Nat) : Word :=
  pack [(0, 1, s.rf_ (pg * 4096 + 0x20) 0 1), (8, 1, b2n s.sealed), (9, 1, b2n (s.dirty pg))]

/-- ID (Table 2.4). -/
def idW (pg : Nat) : Word :=
  let inst := if 0x14 ≤ pg ∧ pg ≤ 0x17 then pg - 0x14 else if 0x18 ≤ pg ∧ pg ≤ 0x1A then pg - 0x18
    else if 0x1D ≤ pg ∧ pg ≤ 0x24 then pg - 0x1D else 0
  pack [(0, 8, pg), (8, 8, inst), (16, 16, 0x2560)]

/-- VERSION (Table 2.4, Table 19.6): the microcode revision belongs to the running image. -/
def State.versionW (s : State) (pg : Nat) : Word :=
  pack [(0, 8, 1), (8, 16, (Config.ucode s.sys.imageSvn).toNat), (24, 1, if pg = pgSys then b2n s.sys.ordD else 0)]

/-- The gate bit of a page (Table 18.8), for the blocks a host may gate. -/
def gateBit (pg : Nat) : Option Nat :=
  if pg = 0x8 then some 9 else if pg = 0xD then some 10 else if pg = 0xE then some 11
  else if 0x14 ≤ pg ∧ pg ≤ 0x17 then some (pg - 2)
  else if 0x18 ≤ pg ∧ pg ≤ 0x1A then some (pg - 8)
  else if pg = pgLwb then some 19
  else if 0x1D ≤ pg ∧ pg ≤ 0x24 then some (pg - 9)
  else none

/-- Whether a page's block is gated (R347). -/
def State.gated (s : State) (pg : Nat) : Bool :=
  match gateBit pg with
  | none => false
  | some b => !Word.bit s.clk.gateSt b

/-- Every assigned page, in page-map order (R34). -/
def allPages : List Nat :=
  [0x0, 0x1, 0x2, 0x3, 0x4, 0x8, 0x9, 0xA, 0xB, 0xC, 0xD, 0xE, 0x10, 0x11, 0x14, 0x15, 0x16, 0x17, 0x18, 0x19, 0x1A]

/-- FIO_GRP_IRQ. -/
def State.grpIrqW (s : State) : Word :=
  wordN (ofBits ((List.range 8).filter (fun i => s.irqStatus (0x1D + i) != 0)))

/-- SYS_IRQ_SUMMARY (R34). -/
def State.irqSummaryW (s : State) : Word :=
  let hit := (allPages.zipIdx).filterMap (fun (p, i) => if s.irqStatus p != 0 then some i else none)
  let fio := if s.irqStatus pgFio != 0 || s.grpIrqW != 0 then [21] else []
  let rest := ([pgPart, pgRec, pgKey, pgTamp, pgLwb].zipIdx).filterMap
    (fun (p, i) => if s.irqStatus p != 0 then some (22 + i) else none)
  wordN (ofBits (hit ++ fio ++ rest))

/-- IRQ_N and NMI_N on X1 asserted (R34, R35, R382): never before the first servo tick of a start. -/
def State.irqPin (s : State) : Bool := s.up_ && !s.sys.firstTick && s.irqSummaryW != 0

/-- NMI_N asserted. -/
def State.nmiPin (s : State) : Bool := s.up_ && !s.sys.firstTick && s.rd sysNmiStatus != 0

/-- POS page views (Table 3.6). -/
def State.viewPos (s : State) (o : Nat) : Option Word :=
  let q := s.pos
  match o with
  | 0x0C => some s.posStatusW
  | 0x40 => some (wordI s.estPos)
  | 0x44 => some (wordI s.estVel)
  | 0x48 => some (wordI (round16 q.a))
  | 0x4C => some (wordI (round16 q.s))
  | 0x50 => some (wordI (round16 q.d))
  | 0x54 => some (wordI (round16 q.b))
  | 0x58 => some (wordN q.kap)
  | 0x5C => some (wordN q.seq)
  | 0x60 => some (wordI q.slipRate)
  | 0x64 => some s.posSrcW
  | 0x70 => some (wordI (round16 q.innovSr))
  | 0x74 => some (wordI (round16 q.innovDz))
  | 0x78 => some (pack [(0, 16, q.loadKg)])
  | 0x7C => some (wordI (round16 q.e))
  | _ => none

/-- LWB page views (Table 3.8). -/
def State.viewLwb (s : State) (o : Nat) : Option Word :=
  match o with
  | 0x0C => some s.lwbStatusW
  | 0x40 => some (wordI s.lwb.raw)
  | 0x44 => some (pack [(0, 16, s.loadKg)])
  | 0x48 => some (pack [(0, 8, s.loadPct)])
  | _ => none

/-- MOT page views (Tables 4.7 and 5.5). -/
def State.viewMot (s : State) (o : Nat) : Option Word :=
  let m := s.mot
  match o with
  | 0x0C => some s.motStatusW
  | 0x44 => some (wordI m.targetPos)
  | 0x4C => some (wordN s.motRemain)
  | 0x50 => some (wordI s.spPos)
  | 0x54 => some (wordI (round16 m.sp.v))
  | 0x58 => some (wordI (round16 m.sp.a))
  | 0x5C => some (wordI (round16 m.sp.j))
  | 0x60 => some (wordN (m.spSeq - s.baseTick))
  | 0x64 => some (wordI m.stopPos)
  | 0x68 => some (let t := s.motTRemain; if t < 4294967296 then wordN t else Config.outOfRange t)
  | 0x6C => some (wordI m.followErr)
  | 0x8C => some (wordN s.vcap)
  | 0x104 => some s.motRtStatusW
  | _ => none

/-- DRV page views (Table 6.7). -/
def State.viewDrv (s : State) (o : Nat) : Option Word :=
  match o with
  | 0x08 => some (pack [(0, 1, b2n (s.up_ && s.sys.profValid))])
  | 0x0C => some s.drvStatusW
  | 0x44 => some s.drvLinkW
  | _ => none

/-- SCH page views (Table 7.8). -/
def State.viewSch (s : State) (o : Nat) : Option Word :=
  match o with
  | 0x0C => some s.schStatusW
  | 0x5C => some s.schAnswerW
  | 0x64 => some s.schOosW
  | 0x6C => some s.schCallCntW
  | 0x78 => some (Word.setBits (s.rd schDestLast) 16 11 s.destCount)
  | _ => none

/-- BID page views (Table 8.6). -/
def State.viewBid (s : State) (o : Nat) : Option Word :=
  match o with
  | 0x08 => some s.bidCtrlW
  | 0x0C => some s.bidStatusW
  | 0x54 => some s.bidRoundW
  | 0x58 => some s.bidAwardW
  | _ => if 0x400 ≤ o ∧ o < 0xC00 then some (s.bidGclW ((o - 0x400) / 0x400) ((o - 0x400) % 0x400 / 4)) else none

/-- Door page views (Table 9.7). -/
def State.viewDoor (s : State) (c : Chan) (o : Nat) : Option Word :=
  let d := s.door c
  match o with
  | 0x08 => some (pack [(0, 1, b2n (s.live && s.sys.profValid))])
  | 0x0C => some (s.doorStatusW c)
  | 0x44 => some (wordI (round16 (s.doorSpNow c)))
  | 0x48 => some (wordI d.actPos)
  | 0x4C => some (wordI d.actVel)
  | 0x50 => some (pack [(0, 16, (BitVec.ofInt 16 d.force).toNat)])
  | 0x54 => some (pack [(0, 16, min d.energy 0xFFFF)])
  | 0x58 => some (pack [(0, 16, d.current)])
  | 0x5C => some (pack [(0, 16, (BitVec.ofInt 16 d.theta).toNat)])
  | 0x60 => some (pack [(0, 16, (BitVec.ofInt 16 d.temp).toNat), (16, 16, d.iLim)])
  | 0x64 => some (pack [(0, 3, d.gearSeg), (4, 4, d.gearCause)])
  | 0x68 => some (wordI d.gearLag)
  | 0x6C => some (let v := if s.up_ && s.sys.profValid then s.doorVE c else 0; if v < 4294967296 then wordN v else Config.outOfRange v)
  | 0x104 => some (wordN d.fault)
  | _ => none

/-- A timer of Table 10.8 in whole seconds. -/
def State.degS (s : State) (m : DegMode) : Word := wordN (min (degGet s.el.degCyc m / 4000) 0xFFFFFFFF)

/-- SAFE page views (Table 10.9). -/
def State.viewSafe (s : State) (o : Nat) : Option Word :=
  let e := s.el
  match o with
  | 0x08 => some (pack [(0, 1, b2n (e.st != .start))])
  | 0x0C => some s.safeStatusW
  | 0x40 => some s.safeTripW
  | 0x44 => some s.safeFirstW
  | 0x48 => some s.safeTapsW
  | 0x4C => some s.safeOutW
  | 0x50 => some (wordI e.a.um)
  | 0x54 => some (wordI e.b.um)
  | 0x58 => some (wordI e.a.vel)
  | 0x5C => some (wordI e.b.vel)
  | 0x60 => some (wordN e.vlim)
  | 0x64 => some (wordI (e.ovs1 / 4000))
  | 0x68 => some (wordI (round16 e.a.ucmRef))
  | 0x6C => some s.safeDegW
  | 0x70 => some (s.degS .sr)
  | 0x74 => some (s.degS .enc2)
  | 0x78 => some (s.degS .dz)
  | 0x7C => some (s.degS .load)
  | 0x80 => some (packBits [e.proofPend, e.proofF, e.proofR])
  | 0x84 => some s.safeTestW
  | 0x88 => some e.a.digest
  | _ => none

/-- LSF page views (Table 11.6). -/
def State.viewLsf (s : State) (o : Nat) : Option Word :=
  match o with
  | 0x08 => some (pack [(0, 1, b2n s.el.runUs.isSome)])
  | 0x0C => some s.lsfStatusW
  | 0x48 => some (s.lsfMask .run)
  | 0x4C => some (s.lsfMask .failed)
  | _ =>
    if 0x200 ≤ o ∧ o < 0x600 ∧ o % 0x20 = 0x10 then some (s.lsfSlotStatusW ((o - 0x200) / 0x20))
    else if 0x800 ≤ o ∧ o % 0x40 < 0x30 then some (byteWord (s.lsfDelivered ((o - 0x800) / 0x40)) (o % 0x40 / 4))
    else if 0x800 ≤ o ∧ o % 0x40 = 0x30 then some (s.lsfInfoW ((o - 0x800) / 0x40))
    else none

/-- The NEW (or LOST) bits of receive objects 32w to 32w + 31. -/
def State.rxBits (s : State) (n w : Nat) (f : RxObj → Bool) : Word :=
  wordN (ofBits ((((s.cann n).rx.filter (fun o => o.1 / 32 == w && f o.2)).map (fun (o : Nat × RxObj) => o.1 % 32))))

/-- CAN page views (Table 12.5). -/
def State.viewCan (s : State) (n o : Nat) : Option Word :=
  match o with
  | 0x08 => some (s.canCtrlW n)
  | 0x0C => some (s.canStatusW n)
  | 0x4C => some (s.canErrcW n)
  | 0x50 => some (wordN s.us)
  | 0x5C => some (s.canPendW n)
  | _ =>
    if 0x70 ≤ o ∧ o < 0x80 then some (s.rxBits n ((o - 0x70) / 4) (·.new))
    else if 0x80 ≤ o ∧ o < 0x90 then some (s.rxBits n ((o - 0x80) / 4) (·.lost))
    else none

/-- FIO page views (Table 13.5). -/
def State.viewFio (s : State) (o : Nat) : Option Word :=
  match o with
  | 0x08 => some (pack [(0, 1, b2n (s.up_ && s.sys.profValid))])
  | 0x0C => some (pack [(0, 1, b2n s.sil.silent)])
  | 0x48 => some (match s.sil.deadline with
      | some d => if s.sil.silent then 0 else pack [(0, 16, (d - s.us) / 1000)]
      | none => 0)
  | 0x4C => some s.grpIrqW
  | _ => none

/-- FIOGg_IN_RAW: an UNUSED channel reads 0 (R247). -/
def State.inRawW (s : State) (g : Nat) : Word :=
  wordN (ofBits ((List.range 32).filter (fun i => s.rf_ (fiogChCfg (grpPage g) + 4 * i) 0 2 != 0 && Word.bit (s.grp g).raw i)))

/-- Field-group page views (Table 13.7). -/
def State.viewFiog (s : State) (g o : Nat) : Option Word :=
  let f := s.grp g
  match o with
  | 0x0C => some (s.fiogStatusW g)
  | 0x44 => some (pack [(0, 16, f.mv)])
  | 0x48 => some (s.inRawW g)
  | 0x4C => some f.filt
  | 0x50 => some (s.outW g)
  | 0x54 => some (s.outActW g)
  | 0x70 => some f.dOpen
  | 0x74 => some f.dSvf
  | 0x78 => some f.dClim
  | 0x7C => some f.dOvl
  | 0x80 => some f.tsd
  | _ => none

/-- HOST page views (Table 14.9). -/
def State.viewHost (s : State) (o : Nat) : Option Word :=
  match o with
  | 0x08 => some (pack [(0, 1, b2n s.up_)])
  | 0x0C => some s.hostStatusW
  | _ => if 0x50 ≤ o ∧ o < 0x60 then some (s.hostSessW ((o - 0x50) / 4)) else none

/-- Ethernet page views (Table 14.11): the MAC address of OTP. -/
def viewEth (n o : Nat) : Option Word :=
  match o with
  | 0x44 => some (byteWord ((List.range 6).map (Config.mac n)) 0)
  | 0x48 => some (byteWord ((List.range 6).map (Config.mac n)) 1)
  | _ => none

/-- XBAR page views (Table 14.13). -/
def State.viewXbar (s : State) (o : Nat) : Option Word :=
  if 0x80 ≤ o ∧ o < 0xB0 then
    let m := (o - 0x80) / 4
    let lim := s.rf_ (xbarBudget + 4 * m) 0 14
    if m = 8 then some (pack [(0, 14, s.xbar.last), (16, 14, s.xbar.peak)])
    else
      let last := min (Config.busUse m s.tick) lim
      some (pack [(0, 14, last), (16, 14, max last (min (Config.busPeak m s.xbar.clrAt s.tick) lim))])
  else if 0x400 ≤ o ∧ o < 0xA00 then some (Config.microWindow (o - 0x400))
  else none

/-- PART page views (Table 15.7). -/
def State.viewPart (s : State) (o : Nat) : Option Word :=
  let p := s.part
  match o with
  | 0x08 => some (pack [(0, 1, b2n s.up_)])
  | 0x0C => some s.partStatusW
  | 0x4C => some (wordN p.loopUa)
  | 0x50 => some (wordN p.txEpoch)
  | 0x54 => some (wordN p.rxEpoch)
  | 0x58 => some (if p.gotRx then wordN (min ((s.tick - p.rxAt) * 125 / 2) 0xFFFFFFFF) else 0xFFFFFFFF)
  | 0x5C => some (byteWord s.digest 0)
  | 0x60 => some ((p.peerDigest.map (fun (d : List Byte × BitVec 2) => byteWord d.1 0)).getD 0)
  | 0x68 => some (wordN (p.xchDueMs / 1000))
  | _ => none

/-- REC page views (Table 16.4). -/
def State.viewRec (s : State) (o : Nat) : Option Word :=
  let r := s.rcd
  match o with
  | 0x08 => some (pack [(0, 1, b2n s.up_)])
  | 0x0C => some s.recStatusW
  | 0x50 => some (wordN r.seqNext)
  | 0x54 => some (wordN r.pcycle)
  | 0x58 => some (wordN r.optime)
  | 0x5C => some (pack [(0, 16, r.optime / 4294967296)])
  | 0x68 => some (wordI r.wallOfs)
  | 0x6C => some (wordI (r.wallOfs / 4294967296))
  | 0x70 => some (wordN (r.newest.getD 0))
  | 0x7C => some (pack [(0, 2, r.rdStat), (2, 1, b2n r.rdPend)])
  | _ => if 0x200 ≤ o ∧ o < 0x300 then some (byteWord r.rdData ((o - 0x200) / 4)) else none

/-- Where a word of the key buffer is stored (R323): four banks of 2 KiB beyond the host's addresses. -/
def keyBufAt (bank w : Nat) : Nat := 0x1000000 + 0x800 * bank + 4 * w

/-- The key buffer's bytes. -/
def State.keyBuf (s : State) (n : Nat) : List Byte :=
  (List.range ((n + 3) / 4)).flatMap (fun w => wordLe (s.rf.get 0 (0x1000000 + 4 * w)))

/-- KEY page views (Table 17.11). -/
def State.viewKey (s : State) (o : Nat) : Option Word :=
  let k := s.key
  match o with
  | 0x08 => some (pack [(0, 1, b2n s.up_)])
  | 0x0C => some s.keyStatusW
  | 0x48 => some k.result
  | 0x60 => some (pack [(0, 21, s.idxOf.next.getD 0)])
  | 0x68 => some s.keyOtpW
  | 0x6C => some (byteWord k.serial 0)
  | 0x70 => some (byteWord k.serial 1)
  | 0x74 => some (wordN (((k.service.map (fun e => e - s.rcd.optime)).getD 0 + 999) / 1000))
  | _ =>
    if 0x50 ≤ o ∧ o < 0x60 then some (byteWord k.nonce ((o - 0x50) / 4))
    else if 0x100 ≤ o ∧ o < 0x200 then some (s.keySlotW ((o - 0x100) / 4))
    else if 0x800 ≤ o then some (s.rf.get 0 (keyBufAt (s.rf_ keyBufBank 0 2) ((o - 0x800) / 4)))
    else none

/-- TAMP page views (Table 17.13). -/
def State.viewTamp (s : State) (o : Nat) : Option Word := if o = 0x0C then some s.tampStatusW else none

/-- CLK page views (Table 18.7). -/
def State.viewClk (s : State) (o : Nat) : Option Word :=
  match o with
  | 0x08 => some (pack [(0, 1, b2n s.up_)])
  | 0x0C => some s.clkStatusW
  | 0x40 => some (pack [(0, 16, min s.clk.invarCount 0xFFFF), (16, 16, min s.clk.invarFails 0xFFFF)])
  | 0x44 => some (Word.setBits (s.rd clkTrim) 16 1 (b2n s.clk.frozen))
  | 0x48 => some s.clkFbMs
  | 0x50 => some s.clk.gateSt
  | _ => none

/-- SYS_PROF_INFOn (Table 19.6). -/
def State.profInfoW (s : State) (n : Nat) : Word :=
  match s.bank n with
  | none => pack [(8, 3, 7)]
  | some b => pack [(0, 1, b2n (s.slotValid n)), (1, 1, b2n b.signed), (8, 3, if b.signed then b.signer else 7), (16, 16, b.gen)]

/-- SYS page views (Table 19.5). -/
def State.viewSys (s : State) (o : Nat) : Option Word :=
  match o with
  | 0x08 => some (pack [(0, 1, b2n s.up_)])
  | 0x0C => some s.sysStatusW
  | 0x40 => some s.irqSummaryW
  | 0x48 => some s.rstCauseW
  | _ => if 0x54 ≤ o ∧ o < 0x64 then some (s.profInfoW ((o - 0x54) / 4)) else none

/-- PWR page views (Table 19.7). -/
def State.viewPwr (s : State) (o : Nat) : Option Word :=
  match o with
  | 0x08 => some (pack [(0, 1, b2n s.up_)])
  | 0x0C => some s.pwrStatusW
  | 0x40 => some (pack [(0, 16, s.sys.logicMv)])
  | _ => none

/-- The view of a block register, where it is no stored word. -/
def State.viewReg (s : State) (pg o : Nat) : Option Word :=
  match pg with
  | 0x00 => s.viewSys o
  | 0x01 => s.viewClk o
  | 0x02 => s.viewPwr o
  | 0x03 => s.viewXbar o
  | 0x04 => s.viewHost o
  | 0x08 => s.viewPos o
  | 0x09 => s.viewMot o
  | 0x0A => s.viewDrv o
  | 0x0B => s.viewSch o
  | 0x0C => s.viewBid o
  | 0x0D => s.viewDoor .a o
  | 0x0E => s.viewDoor .b o
  | 0x10 => s.viewSafe o
  | 0x11 => s.viewLsf o
  | 0x1C => s.viewFio o
  | 0x28 => s.viewPart o
  | 0x2C => s.viewRec o
  | 0x30 => s.viewKey o
  | 0x31 => s.viewTamp o
  | 0x34 => s.viewLwb o
  | _ =>
    if 0x14 ≤ pg ∧ pg ≤ 0x17 then s.viewCan (pg - 0x14) o
    else if 0x18 ≤ pg ∧ pg ≤ 0x1A then viewEth (pg - 0x18) o
    else if 0x1D ≤ pg ∧ pg ≤ 0x24 then s.viewFiog (pg - 0x1C) o
    else none

/-- RXO_STAT (Table 12.3). -/
def RxObj.statW (o : RxObj) : Word :=
  pack [(0, 7, o.len), (8, 1, b2n o.fdf), (9, 1, b2n o.brs), (10, 1, b2n o.esi), (16, 1, b2n o.new), (17, 1, b2n o.lost)]

/-- TXO_STAT (Table 12.3). -/
def TxObj.statW (o : TxObj) : Word :=
  let r : Nat := match o.res with
    | .idle => 0
    | .pending => 1
    | .done => 2
    | .failed => 3
  pack [(0, 2, r), (2, 1, b2n o.aborted), (8, 8, min o.attempts 255)]

/-- Where an address of the CAN window lies (Table 12.2): the transmit object 0-32 or the receive object 0-127, and the
offset in it; none where the address is reserved. -/
def canWin (a : Nat) : Option (Nat × Bool × Nat × Nat) :=
  let n := (a - 0x100000) / 0x10000
  let o := a % 0x10000
  let okOff (x : Nat) : Bool := decide (x < 0x10) || decide (0x40 ≤ x)
  if o < 0x4000 then (if okOff (o % 0x80) then some (n, false, o / 0x80, o % 0x80) else none)
  else if o < 0x5000 then (if okOff (o % 0x80) then some (n, true, (o - 0x4000) / 0x80, o % 0x80) else none)
  else if n = 2 ∧ o < 0x5080 ∧ okOff (o % 0x80) then some (n, true, 32, o % 0x80)
  else none

/-- A word of the CAN object window. -/
def State.canWord (s : State) (a : Nat) : Word :=
  match canWin a with
  | none => 0
  | some (n, true, j, o) =>
    if o = 8 then (s.txo n j).statW else if o = 0xC then wordN (s.txo n j).sof else s.rd a
  | some (n, false, i, o) =>
    if o = 0 then
      (if s.rxEngine n i then
        (match s.rxBound n i with
         | some (id, ide) => pack [(0, 29, id), (29, 1, b2n ide), (31, 1, 1)]
         | none => 0)
       else s.rd a)
    else match alook (s.cann n).rx i with
      | none => 0
      | some x => if o = 4 then x.statW else if o = 8 then wordN x.sof else if o = 0xC then wordN x.vp
          else byteWord x.data ((o - 0x40) / 4)

/-- A word of a destination entry (Table 7.3). -/
def State.destWord (s : State) (i o : Nat) : Word :=
  match alook s.sch.dests i with
  | none => 0
  | some d =>
    let st : Nat := match d.state with
      | .free => 0
      | .waiting => 1
      | .riding => 2
    if o = 0 then pack [(0, 8, d.src), (8, 8, d.dst), (16, 2, st)]
    else if o = 4 then pack [(0, 16, d.seq)] else if o = 8 then wordN d.enterMs else 0

/-- A word of the call-table window (Table 7.2). -/
def State.callWord (s : State) (a : Nat) : Word :=
  let o := a - 0x140000
  if o < 0x20 then mapWord s.sch.cc (o / 4)
  else if o < 0x40 then mapWord s.sch.hu ((o - 0x20) / 4)
  else if o < 0x60 then mapWord s.sch.hd ((o - 0x40) / 4)
  else if 0x1000 ≤ o ∧ o < 0x5000 then s.destWord ((o - 0x1000) / 0x10) (o % 0x10)
  else 0

/-- A word of the recorder staging window (R307). -/
def State.stageWord (s : State) (a : Nat) : Word :=
  let o := a - 0x160000
  match alook s.rcd.places (o / 0x100) with
  | none => 0
  | some r => byteWord r.bytes (o % 0x100 / 4)

/-- A word of the shared-memory windows (Table 2.1); reserved addresses read 0 (R22). -/
def State.winWord (s : State) (a : Nat) : Word :=
  if a < 0x140000 then s.canWord a
  else if a < 0x150000 then s.callWord a
  else if a < 0x154000 then (if a % 0x40 < 0x14 then s.rd a else 0)
  else if 0x160000 ≤ a ∧ a < 0x164000 then s.stageWord a
  else 0

/-- The header of Table 2.3, where it holds no stored word. -/
def State.headWord (s : State) (pg o : Nat) : Option Word :=
  match o with
  | 0x00 => some (idW pg)
  | 0x04 => some (s.versionW pg)
  | 0x10 => some (s.rd (pg * 4096 + 0x10))
  | 0x14 => some (s.rd (pg * 4096 + 0x14))
  | 0x18 => some (s.rd (pg * 4096 + 0x18))
  | 0x1C => some (s.irqStatus pg)
  | 0x20 => some (s.lockW pg)
  | _ => none

/-- What a word-aligned address holds, whether or not its block is gated (R21 to R27, R347). -/
def State.heldWord (s : State) (a : Nat) : Word :=
  if 0x100000 ≤ a then s.winWord a
  else
    let pg := a / 4096
    let o := a % 4096
    match pageRegs pg with
    | none => 0
    | some l => match s.headWord pg o with
      | some w => w
      | none => match findReg l o with
        | none => 0
        | some _ => (s.viewReg pg o).getD (s.rd a)

/-- What a read of a word-aligned address answers: 0 on a gated page but for ID and VERSION (R347). -/
def State.readWord (s : State) (a : Nat) : Word :=
  if a < 0x100000 && s.gated (a / 4096) && 8 ≤ a % 4096 then 0 else s.heldWord a

end Sys2Proof.Machine
end

