-- ==== Sys2Proof/Machine/RecRun.lean ====
section
/-! DEFINITION. The recorder at work (chapter 16): snapshots, flushes, the ring, the wall clock, and the counters it keeps. -/

namespace Sys2Proof.Machine

/-- The record of a sequence number, while its staging place still holds it. -/
def State.staged (s : State) (q : Nat) : Option Rcd := (alook s.rcd.places (q % 64)).filter (fun r => r.seq == q)

/-- Replace a staged record. -/
def State.setRcd (s : State) (r : Rcd) : State := { s with rcd := { s.rcd with places := aput s.rcd.places (r.seq % 64) r } }

/-- One record's snapshot words, within a number of words (R302): a snapshot left over is LATE. -/
def State.snapOne (s : State) (left : Nat) (r : Rcd) : State × Nat :=
  if r.todo.isEmpty ∨ s.tick ≤ r.firedAt then (s, left)
  else
    let now := r.todo.take left
    let rest := r.todo.drop left
    (s.setRcd { r with snap := r.snap ++ now.map s.readWord, todo := rest, late := r.late || !rest.isEmpty }, left - now.length)

/-- The snapshots M9 reads in this period, in firing order, 4 cycles a word (R302). -/
def State.snapshots (s : State) : State :=
  let cycles := s.rf_ (xbarBudget + 36) 0 14 - (if s.rcd.flushing.isEmpty then 0 else 64)
  (s.rcd.unwritten.foldl (fun (x : State × Nat) q => match x.1.staged q with
    | none => x
    | some r => x.1.snapOne x.2 r) (s, cycles / 4)).1

/-- The record of a flush that is done with: written, or given up. -/
def State.flushNext (s : State) (cell : RingCell) (q : Nat) : State :=
  let r := s.rcd
  let rest := r.flushing.drop 1
  let t := { s with rcd := { r with
    ring := aput r.ring (q % 16384) cell, flushing := rest, tries := 0, unwritten := setDel r.unwritten q } }
  if rest.isEmpty then t.raise pgRec 2 else t

/-- One MRAM write of a running flush (R308): read back, repeated once, then given up with MRAM_ERR. -/
def State.flushWrite (s : State) : State :=
  match s.rcd.flushing with
  | [] => s
  | q :: _ => match s.staged q with
    | none => s.flushNext (.bad q) q
    | some r =>
      if !r.todo.isEmpty then s
      else if Config.mramGood q s.rcd.tries then
        (let t := s.flushNext (.good r) q
         { t with rcd := { t.rcd with newest := some q } })
      else if s.rcd.tries = 0 then { s with rcd := { s.rcd with tries := 1 } }
      else
        let t := ((s.flushNext (.bad q) q).bump recLost 0 32).raise pgRec 5
        { t with rcd := { t.rcd with mramErr := true } }

/-- A condition of R308 that starts a flush. -/
def State.flushDue (s : State) : Bool :=
  let l := s.rcd.unwritten
  !l.isEmpty && (s.rcd.flushReq || s.sys.pfw.isSome || decide (s.rf_ recCfg 0 6 ≤ l.length) ||
    l.any (fun q => ((s.staged q).map (·.flush)).getD false) ||
    (match l.head?.bind s.staged with
     | some r => decide (r.firedAt + msTicks (s.rn recFlushMs) < s.tick)
     | none => false))

/-- A flush starts (R308): it writes every record staged now. -/
def State.flushStart (s : State) : State :=
  if s.rcd.flushing.isEmpty && s.flushDue then
    { s with rcd := { s.rcd with flushing := s.rcd.unwritten, tries := 0, flushReq := false } }
  else s

/-- Stage the RECORDS_LOST record into the kept place (R307). -/
def State.stageLost (s : State) : State :=
  if s.rcd.lostCnt = 0 ∨ s.rcd.stopped ∨ 64 ≤ s.rcd.unwritten.length then s
  else
    let r := { s.mkRcd .recordsLost s.rcd.lostSrc none 0 [] false with lost := s.rcd.lostCnt }
    let t := s.putRcd r
    { t with rcd := { t.rcd with lostCnt := 0 } }

/-- A 64-bit value as two words, low first. -/
def word64 (i : Int) : List Word := [wordI i, wordI (i / 4294967296)]

/-- REC_CMD.WALL_SET (R310): the offset is set, and a CLOCK_SET record is staged (R304). -/
def State.wallSet (s : State) : State :=
  let wall := s.rn recWallLo + 4294967296 * s.rn recWallHi
  let ofs : Int := wall - s.rcd.optime
  let prev : List Word := match s.rcd.prevOfs with
    | some o => word64 o
    | none => [0, 0x80000000]
  ({ s with rcd := { s.rcd with wallValid := true, wallOfs := ofs, prevOfs := some ofs } }).stage .clockSet 0 none 0
    (word64 ofs ++ prev) false

/-- REC_CMD.FIRE (R301): a HOST record with the slot's snapshot. -/
def State.hostFire (s : State) (slot : Nat) : State := s.stage .host 0 (some slot) 0 [] false

/-- The load of REC_RD_SEQ at the tick after the write (R311). -/
def State.readLoad (s : State) : State :=
  if !s.rcd.rdPend then s
  else
    let q := s.rn recRdSeq
    let torn := (List.range 256).map (Config.tornByte q)
    let res : Nat × Option (List Byte) := match s.rcd.newest with
      | none => (0, none)
      | some n =>
        if n < q then (0, none)
        else if q + 16383 < n then (3, none)
        else match alook s.rcd.ring (q % 16384) with
          | none => (0, none)
          | some (.bad b) => if b = q then (2, some torn) else (0, none)
          | some (.good r) => if r.seq = q then (1, some r.bytes) else (0, none)
    ({ s with rcd := { s.rcd with rdPend := false, rdStat := res.1, rdData := res.2.getD s.rcd.rdData } }).raise pgRec 4

/-- The save of OPTIME, the next SEQ and PCYCLE to MRAM (R305). -/
def State.counterSave (s : State) : State :=
  { s with rcd := { s.rcd with savedOp := s.rcd.optime, savedAt := s.rcd.optime, savedSeq := s.rcd.seqNext } }

/-- A millisecond of operating time for each 16 periods (R305). -/
def State.opTick (s : State) : State :=
  if s.rcd.subMs + 1 < 16 then { s with rcd := { s.rcd with subMs := s.rcd.subMs + 1 } }
  else { s with rcd := { s.rcd with subMs := 0, optime := s.rcd.optime + 1 } }

/-- The recorder's work of a period: snapshots first, then one MRAM write, and the load of REC_RD_SEQ. -/
def State.recTick (s : State) : State :=
  let t := s.snapshots
  if t.rcd.held then { t with rcd := { t.rcd with held := false } }.readLoad else t.flushWrite.readLoad

/-- Write out everything staged, as the orderly save and the final save do (R309, R354). -/
def State.flushAll (s : State) : State :=
  each s.rcd.unwritten s (fun t q => match t.staged q with
    | none => t
    | some r =>
      let done := { r with snap := r.snap ++ r.todo.map t.readWord, todo := [] }
      let wrote (c : RingCell) : State := { t with rcd := { t.rcd with
        ring := aput t.rcd.ring (q % 16384) c, unwritten := setDel t.rcd.unwritten q, flushing := [], tries := 0 } }
      if Config.mramGood q 0 || Config.mramGood q 1 then
        (let u := wrote (.good done)
         { u with rcd := { u.rcd with newest := some q } })
      else
        (let u := ((wrote (.bad q)).bump recLost 0 32).raise pgRec 5
         { u with rcd := { u.rcd with mramErr := true } }))

/-- κ and b are stored (R55). -/
def State.kbSave (s : State) : State := { s with sys := { s.sys with kbSaved := some (s.pos.kap, s.pos.b), kbAt := s.tick } }

/-- What R55 stores of the estimate; nothing where the position engine never started, and what is stored stays (R53). -/
def State.posSave (s : State) : State :=
  if s.sys.profValid then
    ({ s with sys := { s.sys with posSaved := some (s.pos.p, s.pos.s, s.pos.kap, s.pos.b) } }).kbSave
  else s

/-- The final save of R309: 30 ms after the warning, what R305 and R55 keep; from then on nothing is staged, until LOGIC
has recovered. -/
def State.finalSave (s : State) : State :=
  let t := s.flushAll.counterSave.posSave
  { t with rcd := { t.rcd with finalAt := none, stopped := t.sys.pfw.isSome } }

end Sys2Proof.Machine
end

