-- ==== Sys2Proof/Machine/KeyOps.lean ====
section
/-! DEFINITION. Mumetal (chapter 17): derivation, signed objects, slots, key commands, life cycle, identity and tamper.
The cryptographic primitives are uninterpreted functions of Config. -/

namespace Sys2Proof.Machine

/-- ASCII bytes. -/
def ascii (s : String) : List Byte := s.toList.map (fun c => BitVec.ofNat 8 c.toNat)

/-- The ASCII name of a life-cycle state that has a root (R314). -/
def lcName : Lc → Option String
  | .vendor => some "VENDOR"
  | .oem => some "OEM"
  | .field => some "FIELD"
  | .service => some "SERVICE"
  | _ => none

/-- The empty salt of RFC 5869 (R314). -/
def noSalt : List Byte := List.replicate 32 0

/-- End session `i` (R267): its stored response goes with it, and the seal it opened closes (R30). -/
def State.sessEnd (s : State) (i : Nat) : State :=
  match nth s.host.sessions i none with
  | none => s
  | some _ =>
    let h := s.host
    ({ s with host := { h with
        sessions := h.sessions.set i none, sealBy := if h.sealBy = some i then none else h.sealBy } }).raise pgHost 2

/-- End every session. -/
def State.sessEndAll (s : State) : State := each (List.range 4) s (fun t i => t.sessEnd i)

/-- End the sessions under the key of a slot. -/
def State.sessEndSlot (s : State) (n : Nat) : State :=
  each (List.range 4) s (fun t i => if ((nth t.host.sessions i none).map (·.slot)) = some n then t.sessEnd i else t)

/-- Bytes XORed with a slot's mask (R324). -/
def masked (mask : Nat) (l : List Byte) : List Byte := l.mapIdx (fun i b => b ^^^ Config.randomByte mask i)

/-- A slot's key. -/
def KeySlot.plain (k : KeySlot) : List Byte := masked k.mask k.key

/-- The KEY_ID of a slot. -/
def KeySlot.id (k : KeySlot) : Nat := leNat (slice k.head 0 2)

/-- Put a key into a slot under a fresh mask. -/
def State.putSlot (s : State) (n : Nat) (head key : List Byte) (resident : Bool) (parent : Option Nat) : State :=
  { s.draw with key := { s.key with
      slots := aput s.key.slots n ⟨head, masked s.fresh key, s.fresh, resident, false, parent, none⟩
      orphans := setDel s.key.orphans n } }

/-- The slot that holds a KEY_ID. -/
def State.slotOfId (s : State) (id : Nat) : Option Nat :=
  (s.key.slots.find? (fun k => k.2.id == id && !k.2.orphaned)).map (fun (k : Nat × KeySlot) => k.1)

/-- The slot of a blob's parent: none where the blob has none; the inner none where the parent is not loaded. -/
def State.blobParent (s : State) (b : List Byte) : Option (Option Nat) :=
  let id := leNat (slice b 8 2)
  if id = 0xFFFF then some none else (s.slotOfId id).map some

/-- Whether a running command uses a slot: the one it names, or that of its blob's parent. -/
def State.jobUses (s : State) (n : Nat) : Bool :=
  match s.key.job with
  | none => false
  | some j =>
    let op := Word.bits j.cmd 0 8
    ([2, 3, 4, 5, 6, 9].contains op && Word.bits j.cmd 8 6 == n && !Word.bit j.cmd 21) ||
      ((op == 1 || op == 3) && s.blobParent (s.keyBuf 80) == some (some n))

/-- Clear an orphaned slot: ORPHANED sets, ORPHAN is raised, its sessions end (R326). -/
def State.orphanSlot (s : State) (n : Nat) : State :=
  (({ s with key := { s.key with slots := adel s.key.slots n, orphans := setIns s.key.orphans n } }).raise pgKey 2).sessEndSlot n

/-- Orphan the children of slot `n`, down the chain; a child in use by the running command is cleared at its end (R326). -/
def State.orphanChildren : Nat → State → Nat → State
  | 0, s, _ => s
  | f + 1, s, n =>
    ((s.key.slots.filter (fun k => k.2.parent == some n)).map (fun (k : Nat × KeySlot) => k.1)).foldl (fun t c =>
      let u := if t.jobUses c then
          { t with key := { t.key with slots := t.key.slots.map (fun k => if k.1 = c then (k.1, { k.2 with orphaned := true }) else k) } }
        else t.orphanSlot c
      u.orphanChildren f c) s

/-- Clear a slot: its sessions end and its children are orphaned. -/
def State.dropSlot (s : State) (n : Nat) : State :=
  (({ s with key := { s.key with slots := adel s.key.slots n } }).sessEndSlot n).orphanChildren 64 n

/-- A usable slot: loaded and not orphaned. -/
def State.slotKey (s : State) (n : Nat) : Option KeySlot := (alook s.key.slots n).filter (fun k => !k.orphaned)

/-- The master bit of a port (Table 17.5): HOST for SPI, NET for Ethernet, SYS for the module itself. -/
def masterBit (port : Nat) : Nat := if port = 0 then 0 else if port ≤ 3 then 1 else 3

/-- R322: the key's master, state and usage bits permit the operation. -/
def State.keyMay (s : State) (head : List Byte) (port usage : Nat) : Bool :=
  (byteAt head 4).testBit (masterBit port) && (byteAt head 6).testBit (s.lc.code - 1) && (byteAt head 7).testBit usage

/-- The form of a blob (Table 17.5). -/
def blobOk (b : List Byte) : Bool :=
  leNat (slice b 0 2) != 0xFFFF && byteAt b 2 == 1 && 1 ≤ byteAt b 3 && byteAt b 3 ≤ 3 && byteAt b 4 < 16 && byteAt b 5 < 3 &&
    byteAt b 6 < 16 && byteAt b 7 < 8 && (slice b 11 5).all (· == 0) && (slice b 76 4).all (· == 0)

/-- Unwrap a blob (R320): its key and its parent's slot. The parent must permit it to the master that asks (R322). -/
def State.unwrap (s : State) (port : Nat) (b : List Byte) : Option (List Byte × Option Nat) :=
  if s.key.secOff || !s.key.rootOk || !blobOk b || byteAt b 10 != s.lc.code then none
  else
    let with_ (k : List Byte) : Option (List Byte) :=
      Config.gcmOpen k (slice b 16 12) (slice b 0 16) (slice b 28 32) (slice b 60 16)
    match s.blobParent b with
    | none => none
    | some none => (with_ s.key.wrap).map (fun k => (k, none))
    | some (some p) => match s.slotKey p with
      | none => none
      | some k => if s.keyMay k.head port 1 then (with_ k.plain).map (fun x => (x, some p)) else none

/-- Wrap a key under its parent's key or the state's wrapping key (R320). -/
def State.wrapBlob (s : State) (head key : List Byte) (parent : Option KeySlot) : List Byte :=
  let nonce := s.randBytes 12
  let k := (parent.map KeySlot.plain).getD s.key.wrap
  let r := Config.gcmSeal k nonce head key
  head ++ nonce ++ padData r.1 32 ++ padData r.2 16 ++ List.replicate 4 0

/-- Load resident blob `n` into slot `n`, when its WSTATE is the state in force (R321). -/
def State.loadResident (s : State) (n : Nat) : State :=
  match alook s.key.resident n with
  | none => s
  | some b => match s.unwrap 15 b with
    | none => s
    | some (k, p) => if (s.slotOfId (leNat (slice b 0 2))).isSome then s else s.putSlot n (b.take 16) k true p

/-- Load every resident blob of the state in force. -/
def State.loadResidents (s : State) : State := each (List.range 16) s (fun t n => t.loadResident n)

/-- Derive the values of Table 17.1 for the state in force, and prepare its identity in the background (R328). -/
def State.deriveState (s : State) : State :=
  match lcName s.lc with
  | none => { s with key := { s.key with stateRoot := [], wrap := [], idSeed := [], idI := [], idReady := false, lowerBuild := none } }
  | some nm =>
    if !s.key.rootOk then s
    else
      let r := Config.hkdf s.key.root s.key.serial (ascii "LNSH" ++ ascii nm) 32
      { s with key := { s.key with
        stateRoot := r, wrap := Config.hkdf r noSalt (ascii "WRAP") 32, idSeed := Config.hkdf r noSalt (ascii "IDENT") 32
        idI := Config.hkdf r noSalt (ascii "IDENT-I") 16, idReady := false, lowerBuild := none } }

/-- Root derivation of a start or of a tamper release (R313): the check passes, or SEC_OFF sets. -/
def State.deriveRoot (s : State) : State :=
  match Config.pufRoot s.key.puf s.key.helper with
  | none => { s with key := { s.key with root := [], rootOk := false, secOff := true } }
  | some r => (({ s with key := { s.key with root := r, rootOk := true, secOff := false } }).deriveState).loadResidents

/-- A change of life-cycle state (R315). -/
def State.lcEnter (s : State) (otp : Lc) (service : Option Nat) : State :=
  let t := { s with key := { s.key with lcOtp := otp, service := service, halfBurnt := none } }
  let keep := t.key.slots.filter (fun k => t.lc != .retired && byteAt k.2.head 10 == t.lc.code)
  (({ t with key := { t.key with slots := keep } }).sessEndAll.deriveState.loadResidents).raise pgKey 3

/-- SERVICE ends: back to FIELD (Table 17.2). -/
def State.serviceEnd (s : State) : State := if s.key.service.isSome then s.lcEnter s.key.lcOtp none else s

/-- The target state of a life-cycle token or ticket, where Table 17.2 lists the transition. -/
def State.lcTarget (s : State) (typ arg : Nat) : Option Lc :=
  let oemIn := s.key.oemKeys.any (fun k => k.present && !k.revoked)
  if typ = 6 then (if s.lc = .field then some .service else none)
  else if arg = 2 then (if s.lc = .vendor ∧ oemIn then some .oem else none)
  else if arg = 3 then (if s.lc = .oem then some .field else none)
  else if arg = 5 then (match s.lc with
    | .vendor | .oem | .field | .service => some .retired
    | _ => none)
  else none

/-- The signers a type accepts (Tables 17.2 and 17.4). -/
def State.signerOk (s : State) (typ arg signer : Nat) : Bool :=
  let vendor := decide (signer < 2)
  let oem := decide (2 ≤ signer ∧ signer < 6)
  let idx := arg / 256 % 256
  match typ with
  | 1 => vendor
  | 2 => oem || (s.lc == .vendor && vendor)
  | 3 => if arg = 2 then vendor else if arg = 3 then oem else vendor || oem
  | 4 => vendor || oem
  | 5 => match arg % 256 with
    | 1 => if s.lc == .vendor then vendor else (s.lc == .oem || s.lc == .field) && oem && signer - 2 != idx
    | 2 => vendor || (oem && signer - 2 != idx)
    | _ => vendor && signer != idx
  | _ => oem

/-- MAGIC, TYPE, LENGTH, ARG and the reserved bytes of a header are consistent (R319, Table 17.3). -/
def headerOk (o : List Byte) (room : Nat) : Bool :=
  let typ := byteAt o 4
  let arg := leNat (slice o 12 4)
  let len := leNat (slice o 8 4)
  leNat (slice o 0 4) == 0x534E4F4C && 1 ≤ typ && typ ≤ 6 && (slice o 6 2).all (· == 0) && 32 + len + 1612 ≤ room &&
    (match typ with
     | 2 | 4 => arg == 0
     | 5 => 1 ≤ arg % 256 && arg % 256 ≤ 3 && arg / 65536 == 0 && arg / 256 < (if arg % 256 == 3 then 2 else 4) &&
        (arg % 256 != 1 || len == 56)
     | 6 => 60 ≤ arg && arg ≤ 86400
     | _ => true) &&
    (match typ with
     | 1 | 2 => (slice o 24 8).all (· == 0)
     | _ => true)

/-- BIND matches (Table 17.3): the nonce's bytes 0-7, or TAMP_EVENTS; a token whose transition is half burnt matches again. -/
def State.bindOk (s : State) (o : List Byte) : Bool :=
  let b := slice o 24 8
  match byteAt o 4 with
  | 3 | 5 | 6 => (s.key.nonce.length == 16 && b == s.key.nonce.take 8) ||
      ((s.key.halfBurnt.map (fun (h : Lc × List Byte) => h.2)) == some o)
  | 4 => b == natLe 4 (s.rn tampEvents) ++ List.replicate 4 0
  | _ => true

/-- The first failing check of R319, in order; 0 when the object is accepted. `room` is the space it was given. -/
def State.objectCode (s : State) (o : List Byte) (room : Nat) : Nat :=
  let typ := byteAt o 4
  let arg := leNat (slice o 12 4)
  let signer := byteAt o 5
  let serial := slice o 16 8
  let key := ((s.key.pub signer).map (fun k => k.present && !k.revoked)).getD false
  if !headerOk o room then 1
  else if !key || !s.signerOk typ arg signer then 0xB
  else if !s.sigOk signer o then 0xC
  else if !(serial == s.key.serial || (typ ≤ 2 && serial.all (· == 0))) || !s.bindOk o then 0xE
  else if typ = 1 ∧ arg < s.key.imgSvn then 0xE
  else 0

/-- Whether the checks of R319 reach BIND with a nonce to compare. -/
def State.usesNonce (s : State) (o : List Byte) (room : Nat) : Bool :=
  (byteAt o 4 == 3 || byteAt o 4 == 5 || byteAt o 4 == 6) && (s.objectCode o room == 0 || s.objectCode o room == 0xE)

/-- KEY_NONCE is consumed by the first object checked against it (R319). -/
def State.useNonce (s : State) (o : List Byte) (room : Nat) : State :=
  if s.usesNonce o room then { s with key := { s.key with nonce := [] } } else s

/-- The object in the key buffer. -/
def State.bufObject (s : State) : List Byte :=
  let head := s.keyBuf 32
  (s.keyBuf (min (32 + leNat (slice head 8 4) + 1612) 8192)).take (32 + leNat (slice head 8 4) + 1612)

/-- The world of a number of Table 17.5. -/
def worldOf (n : Nat) : World := if n = 0 then .control else if n = 1 then .service else .vendor

/-- The lowest world that may give a key command (Table 17.6). -/
def State.keyWorld (s : State) (cmd : Word) : World :=
  let slot := Word.bits cmd 8 6
  match Word.bits cmd 0 8 with
  | 2 | 3 => ((alook s.key.slots slot).map (fun k => worldOf (byteAt k.head 5))).getD .control
  | 4 | 5 | 6 => worldOf (s.rf_ keyArg 20 2)
  | 7 => worldOf (byteAt (s.keyBuf 8) 5)
  | 8 => ((alook s.key.resident (Word.bits cmd 16 4)).map (fun b => worldOf (byteAt b 5))).getD .control
  | 13 =>
    let o := s.keyBuf 16
    if Word.bits cmd 24 8 = 0x10 ∨ byteAt o 4 ≠ 3 then .control
    else if leNat (slice o 12 4) = 2 then .vendor else .service
  | 15 => if s.lc = .oem ∨ s.lc = .field then .service else .vendor
  | _ => .control

/-- The refusals of a KEY_CMD write (R323, Table 17.12), as codes. -/
def State.keyCmdRefusals (s : State) (src : Src) (cmd : Word) : List Nat :=
  let op := Word.bits cmd 0 8
  (if s.tamp.tampered && op != 14 then [0xF] else []) ++
  (if src.world.rank < (s.keyWorld cmd).rank then [5] else []) ++
  (if s.key.job.isSome then [4] else []) ++
  (if op = 2 ∧ ((alook s.key.slots (Word.bits cmd 8 6)).map (·.shadow.isSome)) = some true then [4] else []) ++
  (if op = 0 ∨ 15 < op then [1] else []) ++
  (if Word.bit cmd 21 ∧ op ≠ 4 then [1] else [])

/-- Accept a key command: BUSY sets; it runs from the next tick (R323). -/
def State.keyAccept (s : State) (src : Src) (cmd : Word) : State :=
  { s with key := { s.key with job := some ⟨cmd, src, s.tick, none, none⟩ } }

/-- Store bytes as the key buffer's whole contents (R323). -/
def State.setBuf (s : State) (l : List Byte) : State :=
  let words := (leWords (padData l (4 * ((l.length + 3) / 4)))).zipIdx
  words.reverse.foldl (fun t w => t.wr (0x1000000 + 4 * w.2) w.1)
    { s with rf := s.rf.filter (fun e => decide (e.1 < 0x1000000)) }

/-- The outcome of a command: its code, the slot it names, and its output if any. -/
structure KeyOut where
  st : State
  code : Nat
  slot : Nat
  out : Option (List Byte)

/-- A failed command. -/
def KeyOut.fail (s : State) (code : Nat) : KeyOut := ⟨s, code, 0, none⟩

/-- LOAD of a blob into the lowest free slot from 16 (Table 17.6). -/
def State.keyLoad (s : State) (port : Nat) (b : List Byte) : KeyOut :=
  match s.unwrap port b with
  | none => .fail s 0xB
  | some (k, p) =>
    if (s.slotOfId (leNat (slice b 0 2))).isSome then .fail s 2
    else match (List.range 48).find? (fun i => (alook s.key.slots (16 + i)).isNone) with
      | none => .fail s 0xD
      | some i => ⟨s.putSlot (16 + i) (b.take 16) k false p, 0, 16 + i, none⟩

/-- UNLOAD: the slot is cleared, its children orphaned. -/
def State.keyUnload (s : State) (n : Nat) : KeyOut :=
  if (s.slotKey n).isNone then .fail s 0xB else ⟨s.dropSlot n, 0, n, none⟩

/-- REPLACE: the new blob is unwrapped and verified in the slot's shadow (R325). -/
def State.keyReplace (s : State) (port n : Nat) (b : List Byte) : KeyOut :=
  match s.slotKey n, s.unwrap port b with
  | some k, some (key, _) =>
    if slice b 0 2 = slice k.head 0 2 ∧ slice b 8 2 = slice k.head 8 2 then
      ⟨{ s with key := { s.key with slots := aput s.key.slots n { k with shadow := some (b.take 16, key) } } }, 0, n, none⟩
    else .fail s 2
  | _, _ => .fail s 0xB

/-- The swap of a verified replacement, at a tick at which no operation uses the slot (R325). -/
def State.keySwap (s : State) (n : Nat) : State :=
  match alook s.key.slots n with
  | none => s
  | some k => match k.shadow with
    | none => s
    | some (head, key) =>
      if s.jobUses n then s
      else
        let t := ((s.sessEndSlot n).orphanChildren 64 n)
        t.putSlot n head key k.resident k.parent

/-- The head of a blob made under KEY_ARG (Table 17.5). -/
def State.newHead (s : State) (origin : Nat) (parent : Option KeySlot) : List Byte :=
  natLe 2 (s.rf_ keyArg 0 16) ++ natLe 1 1 ++ natLe 1 origin ++ natLe 1 (s.rf_ keyArg 16 4) ++ natLe 1 (s.rf_ keyArg 20 2) ++
    natLe 1 (s.rf_ keyArg 22 4) ++ natLe 1 (s.rf_ keyArg 26 3) ++
    (match parent with
     | some k => slice k.head 0 2
     | none => natLe 2 0xFFFF) ++
    natLe 1 ((parent.map (fun k => byteAt k.head 10)).getD s.lc.code) ++ List.replicate 5 0

/-- Wrap a made key, give its blob out, and load it when LOAD is 1 (R323). -/
def State.keyMade (s0 : State) (src : Src) (cmd : Word) (origin : Nat) (parent : Option KeySlot) (key : List Byte) : KeyOut :=
  let s := s0.draw
  let blob := s.wrapBlob (s.newHead origin parent) key parent
  let t := s.draw
  if Word.bit cmd 20 then
    let r := t.keyLoad src.port blob
    if r.code = 0 then { r with out := some blob } else .fail t r.code
  else ⟨t, 0, 0, some blob⟩

/-- GENERATE, IMPORT and DERIVE (Table 17.6). -/
def State.keyMake (s : State) (src : Src) (cmd : Word) : KeyOut :=
  let op := Word.bits cmd 0 8
  let parent := s.slotKey (Word.bits cmd 8 6)
  let may (k : KeySlot) (u : Nat) : Bool := s.keyMay k.head src.port u
  if s.key.secOff || !s.key.rootOk then .fail s 0xB
  else if op = 4 then
    if Word.bit cmd 21 then s.keyMade src cmd 1 none (s.randBytes 32)
    else match parent with
      | none => .fail s 0xB
      | some k => if may k 1 then s.keyMade src cmd 1 parent (s.randBytes 32) else .fail s 0xB
  else match parent with
    | none => .fail s 0xB
    | some k =>
      if op = 5 then
        let b := s.keyBuf 60
        if !may k 1 then .fail s 0xB
        else match Config.gcmOpen k.plain (slice b 0 12) (wordLe (s.rd keyArg)) (slice b 12 32) (slice b 44 16) with
          | none => .fail s 0xB
          | some key => s.keyMade src cmd 2 parent key
      else if may k 2 then s.keyMade src cmd 3 parent (Config.hkdf k.plain noSalt (Config.deriveInfo (s.keyBuf 64)) 32)
      else .fail s 0xB

/-- STORE_RES and ERASE_RES (Table 17.6). -/
def State.keyResident (s : State) (cmd : Word) : KeyOut :=
  let n := Word.bits cmd 16 4
  let b := s.keyBuf 80
  if Word.bits cmd 0 8 = 8 then ⟨{ s with key := { s.key with resident := adel s.key.resident n } }, 0, 0, none⟩
  else if !blobOk b then .fail s 1
  else ⟨{ s with key := { s.key with resident := aput s.key.resident n b } }, 0, 0, none⟩

/-- The attestation statement (Table 17.8). -/
def State.attestStatement (s : State) (key : Option KeySlot) (challenge : List Byte) : List Byte :=
  wordLe 0x54414E4C#32 ++ natLe 1 (if key.isSome then 2 else 1) ++ natLe 1 s.lc.code ++ natLe 2 0 ++ padData s.key.serial 8 ++
    padData challenge 16 ++ natLe 4 s.rcd.pcycle ++ natLe 6 s.rcd.optime ++ natLe 2 0 ++
    natLe 4 (Config.ucode s.sys.imageSvn).toNat ++
    (match key with
     | some k => padData (k.head.take 16) 32
     | none => padData s.digest 32)

/-- Commit an index (R329): N + 1 goes into the record that does not hold N. -/
def State.idxCommit (s : State) (n : Nat) : State :=
  let p := s.idxOf
  let q : IdxPair := if p.a = some n then { p with b := some (n + 1) } else { p with a := some (n + 1) }
  let t := { s with key := { s.key with idx := (s.lc, q) :: s.key.idx.filter (fun x => x.1 != s.lc) } }
  if n + 1 = 2 ^ 20 - 1024 then t.raise pgKey 4 else t

/-- The irrevocable step of a running command, at a tick after it took effect: an attestation commits its index once the
identity is ready (R328, R329); a life-cycle command checks its token and burns the first bit (R315). -/
def State.keyStep (s : State) : State :=
  match s.key.job with
  | none => s
  | some j =>
    let op := Word.bits j.cmd 0 8
    let ends (t : State) (idx : Option Nat) (code : Nat) : State :=
      { t with key := { t.key with job := some { j with idx := idx, code := some code } } }
    if s.tick ≤ j.at_ ∨ j.code.isSome then s
    else if op = 9 ∨ op = 10 then
      if s.key.secOff || s.idxLost || (lcName s.lc).isNone then ends s none 0xB
      else if op = 9 ∧ (s.slotKey (Word.bits j.cmd 8 6)).isNone then ends s none 0xB
      else if !s.key.idReady then s
      else match s.idxOf.next with
        | none => ends s none 0xB
        | some n => if 2 ^ 20 ≤ n then ends s none 0xD else ends (s.idxCommit n) (some n) 0
    else if op = 13 ∧ Word.bits j.cmd 24 8 ≠ 0x10 then
      let o := s.bufObject
      let typ := byteAt o 4
      let arg := leNat (slice o 12 4)
      let code := if typ ≠ 3 ∧ typ ≠ 6 then 1 else s.objectCode o 8192
      let t := s.useNonce o 8192
      if code ≠ 0 then ends t none code
      else match s.lcTarget typ arg with
        | none => ends t none 2
        | some .service => ends t none 0
        | some l => ends { t with key := { t.key with halfBurnt := some (l, o) } } none 0
    else s

/-- KEYMGMT: enrol or revoke a public key (R318, R319). A revoked bit, burnt before its key was enrolled, stays (OTP). -/
def State.keyManage (s0 : State) : KeyOut :=
  let o := s0.bufObject
  let arg := leNat (slice o 12 4)
  let code := if byteAt o 4 ≠ 5 then 1 else s0.objectCode o 8192
  let s := s0.useNonce o 8192
  let i := arg / 256 % 256
  let live (l : List PubKey) : Nat := (l.filter (fun k => k.present && !k.revoked)).length
  let revoke (l : List PubKey) : List PubKey := l.mapIdx (fun j k => if j = i then { k with revoked := true } else k)
  if code ≠ 0 then .fail s code
  else match arg % 256 with
    | 1 =>
      let was := nth s.key.oemKeys i ⟨true, false, []⟩
      if was.present then .fail s 2
      else ⟨{ s with key := { s.key with oemKeys := s.key.oemKeys.set i ⟨true, was.revoked, slice o 32 56⟩ } }, 0, 0, none⟩
    | 2 =>
      let l := revoke s.key.oemKeys
      if (s.lc = .oem ∨ s.lc = .field) ∧ live l = 0 then .fail s 2
      else ⟨{ s with key := { s.key with oemKeys := l } }, 0, 0, none⟩
    | _ =>
      let l := revoke s.key.vendorKeys
      if live l = 0 then .fail s 2 else ⟨{ s with key := { s.key with vendorKeys := l } }, 0, 0, none⟩

/-- The life-cycle command's end: the second bit is burnt, SERVICE starts, or RETURN leaves it (Table 17.2). -/
def State.keyLifecycle (s : State) (j : KeyJob) : KeyOut :=
  let done (t : State) : KeyOut := ⟨t, 0, 0, none⟩
  if Word.bits j.cmd 24 8 = 0x10 then (if s.lc = .service then done s.serviceEnd else .fail s 2)
  else match j.code with
    | some 0 => match s.key.halfBurnt with
      | some (l, _) => done (s.lcEnter l none)
      | none => done (s.lcEnter s.key.lcOtp (some (s.rcd.optime + 1000 * leNat (slice s.bufObject 12 4))))
    | c => .fail s (c.getD 2)

/-- What a command does at its end (Table 17.6). -/
def State.keyRun (s : State) (j : KeyJob) : KeyOut :=
  let cmd := j.cmd
  let slot := Word.bits cmd 8 6
  match Word.bits cmd 0 8 with
  | 1 => s.keyLoad j.src.port (s.keyBuf 80)
  | 2 => s.keyUnload slot
  | 3 => s.keyReplace j.src.port slot (s.keyBuf 80)
  | 4 | 5 | 6 => s.keyMake j.src cmd
  | 7 | 8 => s.keyResident cmd
  | 9 | 10 => match j.idx with
    | none => .fail s (j.code.getD 0xB)
    | some n =>
      let st := s.attestStatement (if Word.bits cmd 0 8 = 9 then alook s.key.slots slot else none) (s.keyBuf 16)
      let sig := padData (Config.hssSign s.key.idSeed s.key.idI n st) 5076
      let t := if n % 1024 = 1023 then { s with key := { s.key with idReady := false, lowerBuild := some s.tick } } else s
      ⟨t, 0, if Word.bits cmd 0 8 = 9 then slot else 0, some (st ++ sig)⟩
  | 11 =>
    if s.key.secOff || s.idxLost || (lcName s.lc).isNone then .fail s 0xB
    else ⟨s, 0, 0, some (padData (Config.hssPublic s.key.idSeed s.key.idI) 60)⟩
  | 12 => ⟨{ s.draw with key := { s.key with nonce := s.randBytes 16 } }, 0, 0, none⟩
  | 13 => s.keyLifecycle j
  | 14 => ⟨s.useNonce s.bufObject 8192, s.objectCode s.bufObject 8192, 0, none⟩
  | _ => s.keyManage

/-- Whether the running command may end now: it has taken effect, and its irrevocable step, if any, is done. -/
def State.keyReady (s : State) (j : KeyJob) : Bool :=
  decide (j.at_ < s.tick) &&
    (match Word.bits j.cmd 0 8 with
     | 9 | 10 => j.code.isSome
     | 13 => Word.bits j.cmd 24 8 == 0x10 || j.code.isSome
     | _ => true)

/-- Give every slot the command used a fresh mask, and clear it where it was orphaned meanwhile (R324, R326). -/
def State.remaskSlot (s : State) (n : Nat) : State :=
  match alook s.key.slots n with
  | none => s
  | some k => { s.draw with key := { s.key with slots := aput s.key.slots n { k with key := masked s.fresh k.plain, mask := s.fresh } } }

/-- A key command ends (R323): KEY_RESULT and DONE; an orphaned child it used is cleared. -/
def State.keyDone (s : State) : State :=
  match s.key.job with
  | none => s
  | some j =>
    if !s.keyReady j then s
    else
      let r := s.keyRun j
      let t := match r.out with
        | some l => r.st.setBuf l
        | none => r.st
      let res := pack [(0, 8, r.code), (8, 6, r.slot), (16, 16, (r.out.map List.length).getD 0)]
      let n := Word.bits j.cmd 8 6
      let u := { t with key := { t.key with job := none, result := res } }
      let v := if s.jobUses n then (if ((alook u.key.slots n).map (·.orphaned)) = some true then u.orphanSlot n else u.remaskSlot n) else u
      v.raise pgKey 1

/-- Abandon the running key command, its buffer cleared (R327; with E_TAMPER, Table 17.10). -/
def State.keyAbandon (s : State) (code : Option Nat) : State :=
  match s.key.job with
  | none => s
  | some _ =>
    let t := s.setBuf []
    let k := { t.key with job := none }
    match code with
    | none => { t with key := k }
    | some c => ({ t with key := { k with result := pack [(0, 8, c)] } }).raise pgKey 1

/-- The sources that act now (R331). -/
def State.tampEnabled (s : State) : Nat :=
  if s.lc = .field ∨ s.lc = .service then 15 else s.rf_ tampCfg 0 4

/-- Zeroise all volatile key material (R332). -/
def State.zeroise (s : State) : State :=
  { s with key := { s.key with
      root := [], stateRoot := [], wrap := [], idSeed := [], idI := [], rootOk := false, slots := [], idReady := false
      lowerBuild := none, nonce := [] } }

/-- The moment of a tamper event (Table 17.10). -/
def State.tampMoment (s : State) : Nat :=
  match s.sys.run with
  | .run => if s.key.job.isSome then 2 else 1
  | .park | .deep => 3
  | _ => 0

/-- A tamper event (R332). -/
def State.tampered (s : State) (sources : Nat) : State :=
  let act := sources &&& s.tampEnabled
  let new := act &&& ((15 : Nat) ^^^ (s.tamp.active.toNat &&& s.tampEnabled))
  let s0 := { s with tamp := { s.tamp with active := BitVec.ofNat 4 sources } }
  if new = 0 then s0
  else
    let when_ := s.tampMoment
    let s1 := ((s0.zeroise).keyAbandon (some 0xF)).sessEndAll
    let s2 := { s1 with
      tamp := { s1.tamp with tampered := true, cause := BitVec.ofNat 4 act, moment := when_, tamperNow := true }
      key := { s1.key with secOff := s1.key.secOff || when_ == 0 || when_ == 3 } }
    let s3 := ((s2.bump tampEvents 0 32).wn tampLastPc s.rcd.pcycle).wn tampLastOpt s.rcd.optime
    ((s3.raise pgTamp 1).wf_ sysNmiStatus 1 1 1).fire 0x11 s3.tampStatusW

/-- TAMP_CMD.RELEASE (R333), once it is not refused: the object's code goes to KEY_RESULT. -/
def State.tampRelease (s : State) : State :=
  let o := s.bufObject
  let code := if byteAt o 4 ≠ 4 then 1 else s.objectCode o 8192
  let t := { s with key := { s.key with result := pack [(0, 8, code)] } }
  if code ≠ 0 ∨ !s.tamp.tampered then t
  else (({ t with tamp := { t.tamp with tampered := false } }).raise pgTamp 2).deriveRoot

end Sys2Proof.Machine
end

