-- ==== Sys2Proof/Machine/SysOps.lean ====
section
/-! DEFINITION. Clocks, resets, start-up, profiles applied, power states and supply (chapters 18 and 19). -/

namespace Sys2Proof.Machine

/-- Give one entry of a profile to the running values (R358): an RWP field, or a landing-table word. -/
def State.entryApply (s : State) (e : Nat × Word) : State :=
  if 0x100000 ≤ e.1 then s.wr e.1 e.2
  else match regAt e.1 with
    | none => s
    | some r => s.wr e.1 ((s.rd e.1 &&& ~~~r.rwpMask) ||| (e.2 &&& r.rwpMask))

/-- Copy `n` consecutive words. -/
def State.copyWords (s : State) (src dst n : Nat) : State :=
  (List.range n).foldl (fun t i => t.wr (dst + 4 * i) (s.rd (src + 4 * i))) s

/-- Apply a profile's entries in list order, what resets to a profile value (Tables 4.7 and 7.8), and what is latched from
it: the drive interface (R100). -/
def State.applyEntries (s : State) (l : List (Nat × Word)) : State :=
  let t := l.foldl State.entryApply s
  let u := ((t.copyWords motPVmax motVmax 7).copyWords motPVmax motNewVmax 7).wr schMode (t.rd schPMode)
  { u with drv := { u.drv with iface := u.rf_ drvCfg 0 3 } }

/-- The stored words a start keeps, by retention class (Table 19.2). -/
def State.keepWords (s : State) (keep : Cls → Bool) : State :=
  { s with rf := s.rf.filter (fun e => keep (regClass e.1)) }

/-- The priority of reset kinds, highest first (R352). -/
def resetRank : ResetKind → Nat
  | .por => 0
  | .bor => 1
  | .clk => 2
  | .safe => 3
  | .wdog => 4
  | .part => 5
  | .pin => 6
  | .soft => 7
  | .deep => 8

/-- Kinds that make the orderly save first (R354). -/
def resetSaves : ResetKind → Bool
  | .pin | .soft | .part => true
  | _ => false

/-- The orderly save of R354. -/
def State.orderlySave (s : State) : State :=
  each s.doorsIn (s.flushAll.counterSave.posSave) (fun t c => t.doorRetain c)

/-- A door axis after a reset: its learned state, and what the always-on domain retained (Table 19.2). -/
def Door.afterReset (d : Door) : Door := { Door.reset with learned := d.learned, retSt := d.retSt, retSp := d.retSp }

/-- Electrum after a reset (R192, R208, Table 19.2): the proof and the POWER causes as the kind keeps them. -/
def El.afterReset (e : El) (k : ResetKind) : El :=
  let fresh := k == .por || k == .bor
  let t := { El.reset with expired := e.expired, degCyc := e.degCyc }
  let u := if fresh || k == .deep then t
    else { t with proofPend := e.proofPend, proofF := e.proofF, proofR := e.proofR }
  if fresh then u else { u with causes := e.causes.filter (fun c => causeKind c == .power) }

/-- The recorder after a reset (R303, R305): the ring is kept; SEQ resumes above the newest record. -/
def Rec.afterReset (r : Rec) (fresh : Bool) : Rec :=
  let op := match r.newest.bind (fun n => alook r.ring (n % 16384)) with
    | some (.good x) => max r.savedOp x.optime
    | _ => r.savedOp
  { Rec.reset with
    seqNext := (r.newest.map (· + 1)).getD r.savedSeq, pcycle := r.pcycle, optime := if fresh then op else r.optime
    subMs := if fresh then 0 else r.subMs, ring := r.ring, newest := r.newest, savedOp := r.savedOp, savedAt := if fresh then op else r.savedAt
    savedSeq := r.savedSeq }

/-- The key store after a reset (R313, R315, R321): everything volatile is gone, SERVICE too. -/
def Key.afterReset (k : Key) : Key :=
  { Key.reset with
    lcOtp := k.lcOtp, resident := k.resident, idx := k.idx, vendorKeys := k.vendorKeys, oemKeys := k.oemKeys
    imgSvn := k.imgSvn, serial := k.serial, helper := k.helper, halfBurnt := k.halfBurnt }

/-- The state a reset of a kind leaves (R351, R353), with `kinds` requested; it takes effect here. An active module hands
over on every reset but POR and BOR (R288); a wake from DEEP is a start, no reset (Table 19.1). -/
def State.resetWith (s0 : State) (k : ResetKind) (kinds : List ResetKind) : State :=
  let fresh := k == .por || k == .bor
  let s1 := if !fresh && k != .deep && s0.part.role == .active then s0.handover else s0
  let s := if resetSaves k then s1.orderlySave else s1
  let words := s.keepWords (fun c => match c with
    | .n => true
    | .a => k != .por
    | _ => false)
  let cnt := if fresh then (words.wr sysProfileOvr 0).wr sysRstCnt 0
    else if k == .deep then words else words.bump sysRstCnt 0 16
  let lost := k == .clk || k == .safe || k == .wdog
  let t := if lost then (cnt.wr (doorRetAngle 0xD) 0).wr (doorRetAngle 0xE) 0 else cnt
  { State.reset with
    pos := (match s.sys.kbSaved with
      | some (kap, b) => { Pos.reset with kap := kap, b := b }
      | none => Pos.reset)
    pending := s.pending, tick := if fresh then 0 else s.tick, baseTick := if fresh then 0 else s.tick, fresh := s.fresh, rf := t.rf
    lwb := { Lwb.reset with zeroStored := s.lwb.zeroStored, spanStored := s.lwb.spanStored }
    doorF := s.doorF.afterReset, doorR := s.doorR.afterReset, el := s.el.afterReset k
    part := { Part.reset with
      slotB := s.part.slotB, faulted := !fresh && s.part.faulted
      xchDueMs := if k == .por then 86400000 else s.part.xchDueMs }
    rcd := s.rcd.afterReset fresh, key := s.key.afterReset
    tamp := { s.tamp with active := 0, tamperNow := false }
    clk := { Clk.reset with bootWord := s.clk.bootWord }
    sys := { Sys.reset with
      kind := k, kinds := kinds, ordD := s.sys.ordD, immediate := s.sys.immediate, sel := s.sys.sel, banks := s.sys.banks
      holdup := !fresh && s.sys.holdup, logicMv := s.sys.logicMv, wake := if k == .por then .none else s.sys.wake
      image := s.sys.image, imgNew := s.sys.imgNew, imageSvn := s.sys.imageSvn, posSaved := s.sys.posSaved, kbSaved := s.sys.kbSaved } }

/-- A reset request (R350, R352): within a running reset sequence it is merged into it. -/
def State.resetBy (s : State) (k : ResetKind) : State :=
  match s.sys.run with
  | .run | .park => s.resetWith k [k]
  | .attempt | .clockHold =>
    if k = .por ∨ k = .bor then
      s.resetWith k (k :: s.sys.kinds.filter (· != k))
    else
      { s with sys := { s.sys with
        kinds := k :: s.sys.kinds.filter (· != k), kind := if resetRank k < resetRank s.sys.kind then k else s.sys.kind } }
  | .clkDead | .deep | .unpowered => if k = .por ∨ k = .bor then s.resetWith k [k] else s

/-- A clock or PLL has come up within a time (R338). -/
def startedIn (us : Option Nat) (limit : Nat) : Bool :=
  match us with
  | none => false
  | some t => decide (t ≤ limit)

/-- The XO failure of an attempt, if any (R338). -/
def xoCause (i : StartIn) : Option BootCause :=
  if !startedIn i.xoAmpUs 20000 then some .xoNoAmp
  else if i.xoStopped then some .xoStop
  else if i.xoIrcCycles < 51380 ∨ 53477 < i.xoIrcCycles then some .xoFreq
  else none

/-- The code of a boot cause (Table 18.8). -/
def bootCode : BootCause → Nat
  | .none => 0
  | .xoNoAmp => 1
  | .xoStop => 2
  | .xoFreq => 3
  | .ircQual => 4
  | .pllLock => 5

/-- An XO failure comes after IRC-A's qualification (R338, R339): a count is judged no earlier than it; one detected in the
LPO period in which IRC-A's window of 32 periods closes comes before it. -/
def xoAfterIrc (i : StartIn) (c : BootCause) : Bool := (c == .xoFreq || i.xoFailedAfterIrc) && decide (32 < i.xoFailLpo)

/-- What an attempt comes to (Table 18.3): a cause for CLOCK-HOLD, or RUN, in fallback or not. -/
def startOutcome (i : StartIn) : Option BootCause × Bool :=
  let ircWin := decide (19141 ≤ i.ircCycles ∧ i.ircCycles ≤ 19922)
  let backup := startedIn i.backupLockUs 200
  match xoCause i with
  | some c =>
    if !xoAfterIrc i c then (some c, false)
    else if !ircWin then (some .ircQual, false)
    else if !backup then (some .pllLock, false)
    else (none, true)
  | none =>
    if !ircWin then (some .ircQual, false)
    else if !backup || !startedIn i.rootLockUs 200 then (some .pllLock, false)
    else (none, false)

/-- A failed attempt (R339, R340): the boot-failure word, then CLOCK-HOLD or CLK_DEAD. -/
def State.startFailed (s : State) (c : BootCause) : State :=
  let dead := decide (8 ≤ s.clk.retries)
  let w := s.clk.bootWord
  let word := pack [(0, 4, min (Word.bits w 0 4 + 1) 9), (4, 4, bootCode c), (8, 1, b2n (dead || Word.bit w 8))]
  { s with clk := { s.clk with bootWord := word }, sys := { s.sys with run := if dead then .clkDead else .clockHold } }

/-- The partner is SYNCED with an equal digest, as the active module judges it (R288, R295): the link has been up for
the 50 ms a resynchronisation takes (R296). -/
def State.partnerSynced (s : State) : Bool := s.part.linkUp && s.since s.part.linkAt 800 && s.digestOk

/-- Enter clock fallback (R342): CLK_FAIL, NMI, the recorder; PHYs are held in reset and Ethernet sessions end. An
active module with a SYNCED partner stops to hand over (R288). -/
def State.fallback (s0 : State) (c : ClkCause) : State :=
  if s0.clk.fallback then s0
  else
    let s := if s0.part.role == .active && s0.partnerSynced then
        ({ s0 with part := { s0.part with handOver := true } }).motHoldNow
      else s0
    let s1 := { s with clk := { s.clk with fallback := true, cause := c, frozen := true, xoOk := s.clk.xoOk && c == .pll, rootLock := false } }
    let s2 := each [0, 1, 2] s1 (fun t n =>
      let a := ethStatus (0x18 + n)
      if t.rb a 0 then (t.wr a 0).raise (0x18 + n) 1 else t)
    let s3 := each (List.range 4) s2 (fun t i =>
      if ((nth t.host.sessions i none).map (fun x => decide (1 ≤ x.port ∧ x.port ≤ 3))) = some true then t.sessEnd i else t)
    ((s3.raise pgClk 1).wf_ sysNmiStatus 0 1 1).fire 0x10 s3.clkStatusW

/-- The slot a start selects (R359), after adopting an armed override at a SOFT reset. -/
def State.selectSlot (s : State) : State :=
  let s1 := if s.sys.kind = .soft ∧ s.rb sysProfileOvr 8 then s.wf_ sysProfileOvr 9 1 1 else s
  let ovr := s1.rb sysProfileOvr 9
  { s1 with sys := { s1.sys with slot := if ovr then s1.rf_ sysProfileOvr 0 2 else s1.sys.sel.toNat, slotOvr := ovr } }

/-- The engines after a profile is applied (R53, R118, R246): POS observes, SCH runs when the landing table passes, the
controllers in use join their buses. -/
def State.enginesStart (s : State) : State :=
  let s1 := s.posStart s.sys.posSaved s.sys.kbSaved
  let s2 := s1.schRunNow.silRestart 0
  each [0, 1, 2, 3] s2 (fun t n => if t.rb (canCfg (canPage n)) 5 then t.setCan n { t.cann n with integrating := true } else t)

/-- What a start attempt that succeeds takes in: the straps it sampled, the image, the PUF reading and the clocks. -/
def State.startFields (s : State) (i : StartIn) (fb : Bool) : State :=
  let svn := if s.sys.imgNew then leNat (slice s.sys.image 12 4) else s.sys.imageSvn
  { s with
    sys := { s.sys with run := .run, firstTick := true, imgNew := false, imageSvn := svn, sel := i.sel, immediate := i.immediate, kbAt := s.tick }
    part := { s.part with slotB := i.slotB }
    key := { s.key with puf := i.puf, imgSvn := max s.key.imgSvn svn, remaskAt := s.tick }
    clk := { s.clk with xoOk := !fb, ircOk := true, rootLock := !fb, backupLock := true, retries := 0, bootWord := 0 } }

/-- A mesh that acts at the start is a tamper event of the attempt (Table 17.10). -/
def State.startMesh (s : State) (active : Bool) : State :=
  if active then
    (let t := ({ s with sys := { s.sys with run := .attempt } }).tampered 1
     { t with sys := { t.sys with run := .run } })
  else s

/-- The profile slot is selected and its entries are applied. -/
def State.startProfile (s : State) : State :=
  let t := s.selectSlot
  let u := { t with sys := { t.sys with profValid := t.slotValid t.sys.slot } }
  u.applyEntries u.active

/-- The keys of a start: derived, or off after a tamper event. -/
def State.startKeys (s : State) : State :=
  if s.tamp.tampered then { s with key := { s.key with secOff := true, rootOk := false } } else s.deriveRoot

/-- The counts and dates of a start, and the START record. -/
def State.startRecord (s : State) (bootWord : Word) : State :=
  let fresh := decide (s.sys.kind = ResetKind.por ∨ s.sys.kind = ResetKind.bor)
  let t := { s with
    rcd := { s.rcd with pcycle := if fresh then min (s.rcd.pcycle + 1) 0xFFFFFFFF else s.rcd.pcycle }
    part := { s.part with xchDueMs := if s.sys.kind = ResetKind.por then 1000 * s.rn partXchPeriodS else s.part.xchDueMs }
    host := { s.host with budget := s.rf_ (xbarBudget + 32) 0 14 }
    clk := { s.clk with outCfg := s.rd clkOutCfg } }
  (t.wr clkBoot bootWord).stage .start 0 none (wordN s.sys.kind.code) [bootWord, wordN s.sys.slot] false

/-- The start that reaches RUN (R351): image, straps, mesh check, profile, roots, the START record, then the first tick. -/
def State.startRun (s : State) (i : StartIn) (fb : Bool) : State :=
  let t := ((((s.startFields i fb).startMesh i.meshActive).startProfile).startKeys).startRecord s.clk.bootWord
  let u := (if t.sys.profValid then t.enginesStart else t).elTake
  if fb then u.fallback .xoStart else u

/-- A start attempt (R338, R339). -/
def State.startAttempt (s : State) (i : StartIn) : State :=
  if s.sys.run ≠ .attempt then s
  else match startOutcome i with
    | (some c, _) => s.startFailed c
    | (none, fb) => s.startRun i fb

/-- CLOCK-HOLD ends (Table 18.3): a new attempt. -/
def State.holdEnd (s : State) : State :=
  if s.sys.run ≠ .clockHold then s
  else { s with clk := { s.clk with retries := s.clk.retries + 1 }, sys := { s.sys with run := .attempt } }

/-- An Invar window (R341): XO cycles over 1,024 IRC-A cycles, or over an LPO period once IRC-A has failed (R343). -/
def State.invar (s : State) (count : Nat) : State :=
  if !s.up_ || s.clk.fallback then s
  else
    let bad := if s.clk.ircFail then decide (count < 725 ∨ 801 < count) else decide (count < 1255 ∨ 1305 < count)
    let n := if bad then s.clk.badWin + 1 else 0
    let t := { s with clk := { s.clk with invarCount := count, invarFails := s.clk.invarFails + b2n bad, badWin := n } }
    if n < 2 then t else if s.clk.ircFail then t.resetBy .clk else t.fallback .freq

/-- An IRC-A trim step, every 10 ms (R341); a code at an end fails IRC-A (R343). -/
def State.trimStep (s : State) (up : Bool) : State :=
  if !s.up_ || s.clk.fallback || s.clk.ircFail then s
  else
    let c := s.rf_ clkTrim 0 10
    let d := if up then min (c + 1) 1023 else c - 1
    let t := s.wf_ clkTrim 0 10 d
    if d = 0 ∨ d = 1023 then ({ t with clk := { t.clk with ircFail := true, badWin := 0 } }).raise pgClk 2 else t

/-- IRC-A stops while XO is in use, or in fallback (R343). -/
def State.ircStop (s : State) : State :=
  if !s.up_ then s
  else if s.clk.fallback then s.resetBy .clk
  else if s.clk.ircFail then s
  else ({ s with clk := { s.clk with ircFail := true, ircOk := false, badWin := 0 } }).raise pgClk 2

/-- XO stops (R341, R343). -/
def State.xoStopped (s : State) : State :=
  if !s.up_ || s.clk.fallback then s else if s.clk.ircFail then s.resetBy .clk else s.fallback .stop

/-- A PLL loses lock (R341, R343). -/
def State.pllLost (s : State) (backup : Bool) : State :=
  if !s.up_ then s
  else if backup then
    let t := { s with clk := { s.clk with backupLock := false } }
    if s.clk.fallback then t.resetBy .clk else t
  else if s.clk.fallback then s
  else if s.clk.ircFail then s.resetBy .clk
  else s.fallback .pll

/-- What the CLKOUT pin outputs (R348): its source, its divisor and the source cycles of its high time, half of an even
divisor and (n + 1)/2 of an odd one; none for 0 V; in fallback XO and the root PLL give 0 V. -/
def State.clkoutPin (s : State) : Option (Nat × Nat × Nat) :=
  let w := s.clk.outCfg
  let n := Word.bits w 16 16 + 1
  if !Word.bit w 4 || (s.clk.fallback && decide (Word.bits w 0 4 < 2)) then none else some (Word.bits w 0 4, n, (n + 1) / 2)

/-- The standstill of R356. -/
def State.standstill (s : State) : Bool :=
  s.pos.band == 0 && s.el.brakeApplied &&
    s.doorsIn.all (fun c => match (s.door c).st with
      | .opening | .closing | .reversing | .geared | .homing => false
      | _ => true)

/-- The release of a press (R355, R356), at which the IMMEDIATE strap is sampled (R370). -/
def State.buttonRelease (s0 : State) (pressMs : Nat) (immediate : Bool) : State :=
  let s := if s0.up_ then { s0 with sys := { s0.sys with immediate := immediate } } else s0
  if !s.up_ || !s.sys.btnArmed || s.sys.pinDefer.isSome || pressMs < 50 || 10000 < pressMs then s
  else if immediate || s.standstill then s.resetBy .pin
  else ({ s with sys := { s.sys with pinDefer := some s.tick } }).raise pgSys 3

/-- A deferred PIN reset takes effect (R356): at standstill, or after 30 s with the car stopped as on a trip. -/
def State.pinDeferred (s : State) : State :=
  match s.sys.pinDefer with
  | none => s
  | some t =>
    if s.standstill then s.resetBy .pin
    else if s.since t 480000 then (s.motTrip.drvOff.spFollow).resetBy .pin
    else s

/-- No STANDSTILL or OUT_OF_SERVICE function runs (Table 14.8). -/
def State.noFunction (s : State) : Bool :=
  s.pos.cal.isNone && s.lwb.cal.isNone && s.doorsIn.all (fun c => (s.door c).learn.isNone && (s.door c).st != .homing)

/-- The conditions of R362. -/
def State.parkOk (s : State) : Bool :=
  s.motIdle && s.orderNow.isEmpty && s.sch.ans.isNone && s.doorsClosed && s.el.st == .normal && s.noFunction && s.sys.pinDefer.isNone

/-- Entry to PARK (R363). -/
def State.parkNow (s : State) : State :=
  let s1 := s.bidStop
  let s2 := each s1.doorsIn s1 (fun t c => t.doorPowerDown c)
  let s3 := each [0, 1, 2, 3] s2 (fun t n => if t.rb (canCfg (canPage n)) 4 then t.canSleepNow n else t)
  ({ s3 with sys := { s3.sys with run := .park, parkIdle := 0 } }).raise pgPwr 2

/-- PARK ends (R363): the engines run again, Bellmetal listens, sleeping controllers re-integrate. -/
def State.parkEnd (s : State) (w : WakeCause) : State :=
  if s.sys.run ≠ .park then s
  else
    let s1 := (({ s with sys := { s.sys with run := .run, wake := w, parkIdle := 0 } }).raise pgPwr 2).raise pgPwr 3
    (each [0, 1, 2, 3] s1 (fun t n => t.canWakeNow n 4)).bidRunSet

/-- DEEP (R364). -/
def State.deepNow (s : State) : State :=
  let t := ((s.oosHostNow true).orderlySave).loseAuthority
  { t with sys := { t.sys with run := .deep }, part := { t.part with pres := .noSink } }

/-- Whether a cause wakes from DEEP (R364). -/
def State.deepWakes (s : State) : WakeCause → Bool
  | .wakePin => s.rb pwrCfg 0
  | .can c => [0, 1, 2, 3].any (fun n => c.toNat.testBit n && s.rb (canCfg (canPage n)) 4)
  | .timer => s.rn pwrDeepWakeS != 0
  | .tamper => true
  | _ => false

/-- A wake from DEEP: a start with code 8. -/
def State.deepEnd (s : State) (w : WakeCause) : State :=
  if s.sys.run ≠ .deep ∨ !s.deepWakes w then s
  else ({ s with sys := { s.sys with wake := w } }).resetWith .deep [.deep]

/-- What a power-failure warning does (R309, R327, R357, R366). -/
def State.warnNow (s : State) (mv : Nat) : State :=
  let s1 := ({ s with sys := { s.sys with pfw := some s.tick, logicMv := mv }, rcd := { s.rcd with finalAt := some s.tick } }).raise pgPwr 1
  let s2 := (each s1.doorsIn (s1.bump pwrPfCnt 0 16) (fun t c => t.doorRetain c)).keyAbandon none
  s2.stage .powerFail 0 none (wordN mv) [] true

/-- The power-failure warning of the supply: LOGIC below 16.0 V (R357). -/
def State.powerWarn (s : State) (mv : Nat) : State :=
  if !s.up_ || s.sys.pfw.isSome || 16000 ≤ mv then s else s.warnNow mv

/-- LOGIC recovers (R357). -/
def State.powerBack (s : State) (mv : Nat) : State :=
  if !s.up_ || s.sys.pfw.isNone || mv < 17000 then s
  else
    let t := { s with sys := { s.sys with pfw := none, logicMv := mv }, rcd := { s.rcd with stopped := false } }
    t.bump pwrPfCnt 16 16

/-- The final save is due 30 ms after the warning, even where LOGIC has recovered in between (R309, R357). -/
def State.finalDue (s : State) : Bool :=
  match s.rcd.finalAt with
  | none => false
  | some t => s.since t 480

/-- A brown-out reset (R357): the module is down until LOGIC returns. -/
def State.brownOut (s : State) : State :=
  if s.sys.run = .unpowered then s
  else
    let t := s.resetBy .bor
    { t with sys := { t.sys with run := .unpowered } }

/-- LOGIC returns within the time the always-on domain holds (R357). -/
def State.borStart (s : State) : State :=
  if s.sys.run = .unpowered ∧ s.sys.aonPowered then { s with sys := { s.sys with run := .attempt } } else s

/-- The always-on domain loses its power while the module is down (R357): what it held is gone. -/
def State.aonLost (s : State) : State :=
  if s.sys.run ≠ .unpowered ∨ !s.sys.aonPowered then s
  else
    let t := s.keepWords (fun c => c == .n)
    { t with sys := { t.sys with aonPowered := false } }

end Sys2Proof.Machine
end

