-- ==== Sys2Proof/Machine/PartOps.lean ====
section
/-! DEFINITION. Pairing and authority (chapter 15): the band and the roles, claims and the settle time, echoes, what a
claim takes up, the mirror and its resynchronisation, the link, and the exchange of roles. -/

namespace Sys2Proof

/-- A band under which a module may set its latch, or keep it (R283). -/
def Band.free : Band → Bool
  | .absent => true
  | .present => true
  | _ => false

/-- The band of a loop current in µA (Table 15.1). -/
def bandOf (ua : Nat) : Band :=
  if ua < 500 then .openBand
  else if 1000 ≤ ua ∧ ua ≤ 3000 then .absent
  else if 5000 ≤ ua ∧ ua ≤ 7000 then .present
  else if 12000 ≤ ua ∧ ua ≤ 16000 then .claiming
  else if 20000 < ua then .short
  else .invalid

/-- A band that shows a wiring fault (Table 15.3). -/
def Band.wiring : Band → Bool
  | .openBand => true
  | .short => true
  | .invalid => true
  | _ => false

end Sys2Proof

namespace Sys2Proof.Machine

/-- Presentation (R283, R294). -/
def State.show (s : State) (p : Present) : State := { s with part := { s.part with pres := p, window := none } }

/-- The module becomes STANDBY: its mirror starts over beside a holder of authority (R296). -/
def State.standbyNow (s : State) : State :=
  let t := (s.show .present).setRole .standby
  { t with part := { t.part with resyncing := t.part.linkUp, rejoin := true } }

/-- ISOLATED (Table 15.3): echoing on a wiring fault; an LC-2560-S beside a partner presents PRESENT (R6). -/
def State.isolateNow (s : State) (echo : Bool) : State :=
  let t := (s.show (if echo then .echo else .present)).setRole .isolated
  { t with part := { t.part with validAt := none, readAt := if echo then none else some s.tick, echoAt := s.tick } }

/-- Hardware clears the latch (R283): Electrum latches AUTH, and the outputs fall. -/
def State.hwLose (s : State) : State := ((s.trip 16).loseAuthority).show .present

/-- A COLLISION is counted (R287). -/
def State.collided (s : State) : State := (s.bump partCnt 16 8).raise pgPart 8

/-- A band that a module takes while ISOLATED: valid for D, ABSENT for S (R6, Table 15.3). -/
def State.bandGood (s : State) (b : Band) : Bool := if s.sys.ordD then !b.wiring else b == .absent

/-- A latch that is set meets a band other than ABSENT or PRESENT (R283, R287). -/
def State.bandClears (s : State) (b : Band) : State :=
  let settling := s.part.settle.isSome
  let t := if settling then s.loseAuthority.show .present else s.hwLose
  let u := if settling || b == Band.claiming then t.collided else t
  if b.wiring then u.isolateNow true else if settling then u else u.standbyNow

/-- The band of an ISOLATED module (R6, R294, Table 15.3): since when it has read a valid band, and one it takes; a wiring
fault that comes back resumes ECHO. -/
def State.bandIsolated (s : State) (b : Band) : State :=
  let p := s.part
  let t := if b.wiring && p.readAt.isSome then s.show .echo else s
  { t with part := { t.part with
      readAt := if b.wiring then none else some (p.readAt.getD s.tick)
      validAt := if s.bandGood b then some (p.validAt.getD s.tick) else none } }

/-- The band's effect by role (Table 15.3) for an LC-2560-D. -/
def State.bandD (s : State) (b : Band) : State :=
  if s.part.latch then
    if !b.free then s.bandClears b
    else match s.part.role, b with
      | .solo, .present =>
        let t := s.setRole .active
        { t with part := { t.part with told := none } }
      | .active, .absent => s.setRole .solo
      | _, _ => s
  else match s.part.role with
    | .standby => if b.wiring then s.isolateNow true else s
    | .isolated => s.bandIsolated b
    | _ => s

/-- The band's effect for an LC-2560-S (R6). -/
def State.bandS (s : State) (b : Band) : State :=
  if s.part.latch && b != .absent then
    let t := if s.part.settle.isSome then (s.loseAuthority.show .present).collided else s.hwLose
    t.isolateNow b.wiring
  else match s.part.role with
    | .standby => if b == .absent then s else s.isolateNow b.wiring
    | .isolated => s.bandIsolated b
    | _ => s

/-- An LC-2560-S clears its own latch as soon as the current leaves the ABSENT band, before the filter passes another (R6). -/
def State.bandRaw (s : State) (ua : Nat) : State :=
  if s.sys.ordD ∨ !s.part.latch ∨ (1000 ≤ ua ∧ ua ≤ 3000) then s
  else
    let t := if s.part.settle.isSome then (s.loseAuthority.show .present).collided else s.hwLose
    let u := t.isolateNow false
    { u with part := { u.part with validAt := some s.tick } }

/-- A loop current (R282): once it has stayed in its band for 3.0 ms the filter passes that band, the claim timer restarts,
and the role follows; a change wakes from PARK. -/
def State.bandInto (s : State) (ua heldUs : Nat) : State :=
  let p := s.part
  let b := bandOf ua
  if !s.up_ then s
  else if p.band = b ∨ heldUs < 3000 then ({ s with part := { p with loopUa := ua } } : State).bandRaw ua
  else
    let fresh := decide (s.tick ≤ p.goodAt + 80)
    let s1 := ({ s with part := { p with
      band := b, loopUa := ua, bandAt := s.tick, claimAt := none
      doorsOk := if p.band = Band.claiming then p.mirror.doors.isSome && fresh else p.doorsOk } }).raise pgPart 2
    let s2 := if !s1.part.stable then s1 else if s1.sys.ordD then s1.bandD b else s1.bandS b
    s2.parkEnd .safetyOrBand

/-- The own PRESENT contact has been stable for 200 ms (R283, Table 15.3). -/
def State.presentNow (s : State) : State :=
  if !s.up_ || s.part.stable then s
  else
    let t := { s with part := { s.part with stable := true, validAt := none } }
    if s.bandGood s.part.band then t.standbyNow
    else if s.part.band.wiring then t.isolateNow true
    else t.isolateNow false

/-- The own PRESENT contact opens (R283, R366): INIT, the link stopped, and a power-failure warning. -/
def State.presentLost (s : State) : State :=
  if !s.up_ then s
  else
    let s1 := (s.loseAuthority.show .noSink).setRole .init
    let s2 := { s1 with part := { s1.part with stable := false, linkUp := false, sync := .none, resyncing := false, claimAt := none } }
    if s2.sys.pfw.isSome then s2 else s2.warnNow s2.sys.logicMv

/-- The conditions of R286 apart from the digest. -/
def State.claimWants (s : State) : Bool :=
  let p := s.part
  p.role == .standby && p.stable && !p.latch && p.band.free && (s.sys.ordD || p.band == .absent) && !p.faulted &&
    p.xchHold.isNone && (match p.stillAt with
      | none => false
      | some t => s.since t 3200)

/-- The conditions of R286. -/
def State.claimMay (s : State) : Bool := s.claimWants && (s.part.band == .absent || s.digestOk)

/-- The claim timer's length by slot (R286). -/
def State.claimTicks (s : State) : Nat := if s.part.slotB then 960 else 320

/-- A claim sets the latch and opens the settle time (R287). -/
def State.claimNow (s : State) : State :=
  match s.part.claimAt with
  | none => s
  | some t =>
    if s.claimMay ∧ s.since t s.claimTicks then
      let u := s.show .claiming
      { u with part := { u.part with latch := true, settle := some s.tick, claimAt := none } }
    else s

/-- MOT takes up the mirrored run (R292). -/
def State.takeMot (s : State) : State :=
  match s.part.mirror.run with
  | none => s.motIdleNow.spFollow
  | some r =>
    let s1 := s.motIdleNow.spFollow
    let s2 := { s1 with mot := { s1.mot with relevCnt := r.relevCnt } }
    if r.committed then
      let m := { s2 with mot := { s2.mot with committed := true, target := r.target, targetPos := r.targetPos } }
      if ((m.estPos - r.targetPos).natAbs : Int) ≤ m.ri motLevelAcc ∧ m.inZone r.target then m.motLanded.raise pgMot 3
      else { m with mot := { m.mot with phase := .held } }
    else match r.horizon with
      | some h => let m := s2.wn motHorizon h
        { m with mot := { m.mot with phase := .held, keptHorizon := true } }
      | none => s2

/-- A door state taken up from the mirror (R292): at rest where the partner left it. -/
def takeDoorSt : DoorSt → DoorSt
  | .closed => .closed
  | .opened => .opened
  | .off => .off
  | .unref => .unref
  | .homing => .unref
  | .fault => .fault
  | _ => .stopped

/-- A door axis takes its position from the mirrored reference and its own count (R292). -/
def State.takeDoor (s : State) (c : Chan) : State :=
  match s.part.mirror.doors with
  | none => s
  | some ds =>
    let m := match c with
      | .a => ds.1
      | .b => ds.2
    if !s.doorEn c then s
    else if s.part.doorsOk && !m.posLost then
      let d := s.door c
      (s.setDoor c { d with spPos := (d.count - d.cntZero) * s.ri (doorEncScale (doorPage c)), spVel := 0, spAcc := 0, posLost := false
                            plan := none }).doorInto c (takeDoorSt m.state)
    else (s.doorLosePos c).doorInto c .unref

/-- What the new holder of authority takes up (R258, R289, R292). Bellmetal becomes MEMBER at once where the module has been
a partner's standby; where it never heard a partner, LISTEN runs its time (R154). -/
def State.takeUp (s : State) : State :=
  let s1 := s.takeMot
  let s2 := s1.drvOff
  let s3 := { s2 with drv := { s2.drv with faultRst := 16 }, el := { s2.el with ucmArmed := false } }
  let s4 := each s3.doorsIn s3.gainOutputs (fun t c => t.takeDoor c)
  let s5 := s4.schReached s
  if s5.bid.run ∧ s5.rb bidCfg 6 ∧ s5.part.gotRx then s5.bidJoin else s5

/-- The settle time ends (R287): the claim completes, and the role follows the band. -/
def State.claimDone (s : State) : State :=
  match s.part.settle with
  | none => s
  | some t =>
    if s.part.latch ∧ s.since t 160 then
      let r : Role := if s.part.band = .present then .active else .solo
      let s1 := ({ s with part := { s.part with settle := none, told := none, resyncing := false, sync := if r = Role.active then s.part.sync else .none } }).setRole r
      let s2 := if s1.part.gotRx then s1.bump partCnt 0 8 else s1
      s2.takeUp
    else s

/-- ISOLATED ends 1 s after the band became valid (Table 15.3, R6). -/
def State.isolatedEnd (s : State) : State :=
  match s.part.role, s.part.validAt with
  | .isolated, some t => if s.since t 16000 ∧ s.bandGood s.part.band then s.standbyNow else s
  | _, _ => s

/-- A window of PRESENT opens, once a second while echoing (R294). -/
def State.echoOpen (s : State) : State :=
  if s.part.role = .isolated ∧ s.part.pres = .echo ∧ s.since s.part.echoAt 16000 then
    { s with part := { s.part with pres := .present, window := some s.tick, echoAt := s.tick } }
  else s

/-- The window of PRESENT closes after 15 ms (R294). -/
def State.echoClose (s : State) : State :=
  match s.part.window with
  | none => s
  | some t => if s.since t 240 then s.show .echo else s

/-- Echoing stops once the band has read valid for 10 ms (R294). -/
def State.echoEnd (s : State) : State :=
  match s.part.role, s.part.readAt with
  | .isolated, some t => if s.since t 160 then s.show .present else s
  | _, _ => s

/-- SYNC takes a value; a change raises SYNC_CHG. -/
def State.setSync (s : State) (y : Sync) : State :=
  if s.part.sync = y then s else ({ s with part := { s.part with sync := y } }).raise pgPart 3

/-- A full image is asked for (R296): the shadow copy starts from what is held. -/
def State.resyncNow (s : State) : State :=
  { s with part := { s.part with resyncing := true, rejoin := true, segFinal := false, shadow := some s.part.mirror } }

/-- The CALLS class enters the call table (Table 15.4). -/
def State.takeCalls (s : State) (c : MirrorCalls) : State :=
  { s with sch := { s.sch with cc := c.cc, hu := c.hu, hd := c.hd, dests := c.dests, nextDir := c.nextDir } }

/-- The DOORS class of one axis enters its page (Table 15.4). -/
def State.mirrorDoor (s : State) (c : Chan) (m : MirrorDoor) : State :=
  let pg := doorPage c
  let d := s.door c
  let t := ((((s.wn (doorMassG pg) m.mass).wi (doorWidthUm pg) m.width).wn (doorFriction pg) m.friction).wn (doorTOpenMs pg)
    m.tOpen).wn (doorTCloseMs pg) m.tClose
  t.setDoor c { d with spPos := m.spPos * 65536, posLost := m.posLost, cntZero := d.count - m.spPos * 65536 / s.ri (doorEncScale pg) }

/-- The DOORS class enters the door pages. -/
def State.takeDoors (s : State) (ds : MirrorDoor × MirrorDoor) : State := (s.mirrorDoor .a ds.1).mirrorDoor .b ds.2

/-- A mirror with an epoch's classes. -/
def Mirror.with (m : Mirror) (e : Epoch) : Mirror :=
  ⟨if e.calls.isSome then e.calls else m.calls, if e.doors.isSome then e.doors else m.doors, if e.run.isSome then e.run else m.run⟩

/-- POSN (Table 15.4): s, κ and b are taken over; p too where only the mirrored ABS is set, advanced by the own arc. -/
def State.takePosn (s : State) (m : MirrorPosn) : State :=
  let t := { s with pos := { s.pos with s := m.s, kap := m.kap, b := m.b } }
  if m.abs && !s.pos.abs then
    let arc := match s.pos.enc1.steps with
      | [] => 0
      | x :: _ => x
    ({ t with pos := { t.pos with p := m.p + arc } }).rebase.setAbs
  else t

/-- The CONFIG class (R286, R290). -/
def State.takeConfig (s : State) (c : List Byte × BitVec 2) : State :=
  let t := { s with part := { s.part with peerDigest := some c } }
  if t.digestOk then { t with part := { t.part with misRaised := false } } else t

/-- COUNTERS (Table 15.4): the recorder goes on from the larger values. -/
def State.takeCounters (s : State) (c : Nat × Nat × Nat) : State :=
  { s with rcd := { s.rcd with
      seqNext := max s.rcd.seqNext c.1, pcycle := max s.rcd.pcycle c.2.1, optime := max s.rcd.optime c.2.2 } }

/-- The mirrored calls and doors enter the standby's own tables. -/
def State.takeMirror (s : State) (m : Mirror) : State :=
  let t := { s with part := { s.part with mirror := m } }
  let u := match m.calls with
    | none => t
    | some c => t.takeCalls c
  match m.doors with
  | none => u
  | some ds => u.takeDoors ds

/-- An epoch is applied whole at the tick (R291). -/
def State.epochApply (s : State) : State :=
  match s.part.pendEpoch with
  | none => s
  | some e =>
    let s1 := { s with part := { s.part with
      pendEpoch := none, rxEpoch := e.number, rxAt := s.tick, gotRx := true, rejoin := false
      segFinal := s.part.segFinal || (e.finalSegment && s.part.resyncing) } }
    let s2 := match e.counters with
      | none => s1.takePosn e.posn
      | some c => (s1.takePosn e.posn).takeCounters c
    let s3 := match e.config with
      | none => s2
      | some c => s2.takeConfig c
    if s3.part.resyncing then
      { s3 with part := { s3.part with shadow := some ((s3.part.shadow.getD s3.part.mirror).with e) } }
    else
      let s4 := { s3 with part := { s3.part with goodAt := s.tick } }
      (s4.takeMirror (s4.part.mirror.with e)).setSync .synced

/-- An epoch is discarded (R291): counted; the gap makes the standby STALE and asks for an image. -/
def State.epochDiscard (s : State) : State :=
  let t := (s.bump partCnt 24 8).raise pgPart 7
  if t.part.resyncing then t else (t.setSync .stale).resyncNow

/-- An epoch has been received (R291): held for the next tick when it is sound and follows on the last one. -/
def State.epochRx (s0 : State) (e : Epoch) : State :=
  if !s0.up_ || !s0.part.linkUp || !s0.sys.ordD then s0
  else if s0.authority then
    match e.config with
    | some c => if e.crcOk then s0.takeConfig c else s0
    | none => s0
  else if s0.part.role ≠ .standby then s0
  else
    let s := s0.epochApply
    if e.crcOk && (s.part.rejoin || e.number == (s.part.rxEpoch + 1) % 4294967296) then
      { s with part := { s.part with pendEpoch := some e } }
    else s.epochDiscard

/-- The newest applied epoch is more than 2.0 ms old (R291). -/
def State.epochAged (s : State) : State :=
  if s.part.sync = .synced ∧ s.part.rxAt + 32 < s.tick then s.setSync .stale else s

/-- The data link is lost (R293): a standby rebuilds its calls from the field. -/
def State.linkLost (s : State) : State :=
  let s1 := { s with part := { s.part with linkUp := false, resyncing := false, pendEpoch := none } }
  if s.part.role ≠ .standby then s1
  else
    let lampOn (n : Nat) : Bool :=
      let c := Word.bits (s.lt n 0x10) 8 8
      Word.bit (s.lt n 0x10) 17 && Word.bit (s.grp (c / 32 + 1)).raw (c % 32)
    let mine := s.bid.calls.filter (fun c => c.holder == some s.car)
    let of (t : Nat) : List Nat := (mine.filter (fun c => keyType c.key == t)).foldl (fun l c => setIns l (keyLanding c.key)) []
    let rides := (s.sch.dests.filter (fun d => d.2.state == .riding)).map (fun d => d.2.dst)
    let waits := (mine.filter (fun c => keyType c.key == 2)).mapIdx (fun i c =>
      (i, (⟨keyLanding c.key, c.dest, .waiting, c.seq, s.rcd.optime % 4294967296, some c.tag⟩ : Dest)))
    let s2 := { s1 with sch := { s1.sch with
      cc := rides.foldl setIns (s.landings.filter lampOn), hu := of 0, hd := of 1, dests := waits } }
    s2.setSync .stale

/-- The data link trains (R296). -/
def State.linkBack (s : State) : State :=
  if s.part.linkUp ∨ !s.sys.ordD ∨ !s.up_ then s
  else
    let t := { s with part := { s.part with linkUp := true, linkAt := s.tick, told := none } }
    if t.part.role = .standby then t.resyncNow else t

/-- The epoch with the final segment has been applied: the shadow is swapped in (R296). -/
def State.resyncDone (s : State) : State :=
  if s.part.resyncing ∧ s.part.segFinal then
    let m := s.part.shadow.getD s.part.mirror
    let t := { s with part := { s.part with resyncing := false, segFinal := false, shadow := none, goodAt := s.tick } }
    (t.takeMirror m).setSync .synced
  else s

/-- The DOORS class of one axis (Table 15.4). -/
def State.txDoor (s : State) (c : Chan) : MirrorDoor :=
  let d := s.door c
  let pg := doorPage c
  ⟨d.st, d.spPos / 65536, d.posLost, s.rn (doorMassG pg), s.ri (doorWidthUm pg), s.rn (doorFriction pg), s.rn (doorTOpenMs pg),
    s.rn (doorTCloseMs pg)⟩

/-- The RUN class (Table 15.4): the horizon while it is what the run goes by. -/
def State.txRun (s : State) : MirrorRun :=
  let m := s.mot
  ⟨m.phase, m.committed, m.target, m.targetPos,
    if m.phase = .prep ∨ m.phase = .speed ∨ m.keptHorizon then some s.horizon else none, s.motRemain, m.relevCnt⟩

/-- The classes that are sent on change, as they stand (Table 15.4). -/
def State.txMirror (s : State) : Mirror :=
  ⟨some ⟨s.sch.cc, s.sch.hu, s.sch.hd, s.sch.dests, s.sch.nextDir⟩, some (s.txDoor .a, s.txDoor .b), some s.txRun⟩

/-- The POSN class (Table 15.4). -/
def State.txPosn (s : State) : MirrorPosn :=
  let q := s.pos
  ⟨q.p, q.v, q.a, q.s, q.kap, q.b, q.abs, q.seq⟩

/-- A class that has changed since it was sent. -/
def unsent {α : Type} [BEq α] (was now : Option α) : Option α := if was == now then none else now

/-- The Mirror phase (R12, R290, R291): an epoch with POSN, the classes that have changed, COUNTERS every 100 ms and CONFIG
on a change and every 1 s; everything where an image is due (R296), in one segment. -/
def State.mirrorSend (s : State) : State :=
  let p := s.part
  let m := s.txMirror
  let was := p.told.getD ⟨none, none, none⟩
  let cfg := (s.digest, s.sys.sel)
  let cfgDue := p.told.isNone || p.toldCfg != some cfg || s.since p.cfgAt 16000
  let n := (p.txEpoch + 1) % 4294967296
  let e : Epoch := {
    number := n, crcOk := true, posn := s.txPosn
    calls := unsent was.calls m.calls, doors := unsent was.doors m.doors, run := unsent was.run m.run
    counters := if p.told.isNone || s.period % 1600 == 0 then some (s.rcd.seqNext, s.rcd.pcycle, s.rcd.optime) else none
    config := if cfgDue then some cfg else none, finalSegment := p.told.isNone }
  { s with part := { p with
      txEpoch := n, sent := some e, told := some m, toldCfg := some cfg, cfgAt := if cfgDue then s.tick else p.cfgAt } }

/-- Whether the Mirror phase sends (R290, R291): the active module, with the link up and no delay of R273. -/
def State.mirrors (s : State) : Bool := s.authority && s.part.role == .active && s.part.linkUp && !s.part.mirrorDelay

/-- The conditions of R295 for an exchange. -/
def State.xchMay (s : State) : Bool :=
  s.authority && s.part.role == .active && s.partnerSynced && s.motIdle && s.mot.landValid && s.doorsClosed && s.el.st == .normal &&
    s.orderNow.isEmpty && s.since s.part.idleSince (16000 * s.rn partXchIdleS)

/-- The active module hands authority over (R295): a final epoch, the latch cleared, XCH_HOLD for 500 ms. -/
def State.xchNow (s : State) : State :=
  let t := s.mirrorSend
  let s1 := { t with part := { t.part with xchHold := some s.tick, xchDueMs := 1000 * s.rn partXchPeriodS } }
  s1.loseAuthority.standbyNow

/-- XCH_HOLD ends (R295): with no claim of the partner, the exchange has failed. -/
def State.xchHoldEnd (s : State) : State :=
  match s.part.xchHold with
  | none => s
  | some t =>
    if !s.since t 8000 then s
    else
      let u := { s with part := { s.part with xchHold := none } }
      if s.part.band = .claiming ∧ s.since s.part.bandAt 160 then u else (u.raise pgPart 6).fire 0xE u.partStatusW

/-- The partner's settle time has ended during XCH_HOLD (R295): its claim has stood for 10 ms. -/
def State.xchWatch (s : State) : State :=
  match s.part.xchHold with
  | none => s
  | some _ =>
    if s.part.band = .claiming ∧ s.tick = s.part.bandAt + 160 then (s.bump partCnt 8 8).raise pgPart 5 else s

/-- The claim timer and its conditions, tick by tick (R286). -/
def State.claimWatch (s : State) : State :=
  let still := s.el.still && s.el.brakeApplied
  let s1 := { s with part := { s.part with stillAt := if still then some (s.part.stillAt.getD s.tick) else none } }
  let s2 := { s1 with part := { s1.part with claimAt := if s1.claimMay then some (s1.part.claimAt.getD s.tick) else none } }
  if s2.claimWants ∧ s2.part.band = .present ∧ !s2.digestOk ∧ !s2.part.misRaised then
    ({ s2 with part := { s2.part with misRaised := true } }).raise pgPart 4
  else s2

/-- Handover after a clock failure (R288): at standstill with the brake applied. -/
def State.handOverWatch (s : State) : State :=
  if s.part.handOver ∧ s.part.role = .active ∧ s.pos.band = 0 ∧ s.el.brakeApplied then
    (({ s with part := { s.part with handOver := false } }).handover)
  else s

/-- Without authority Bellmetal runs in LISTEN (R292). -/
def State.bidYieldRole (s : State) : State :=
  if !s.authority ∧ s.bid.run ∧ (s.bid.member = .member ∨ s.bid.member = .island) then s.bidSilent.bidListen else s

/-- What pairing does in a servo period: the claim timer, windows, the mirror's epoch (R290), the exchange's timers. -/
def State.partTick (s : State) : State :=
  let s0 := s.claimWatch.echoClose.xchWatch.handOverWatch.bidYieldRole
  let s1 := if s0.mirrors then s0.mirrorSend else { s0 with part := { s0.part with sent := none } }
  let p := s1.part
  let busy := !s1.orderNow.isEmpty || !s1.motIdle
  { s1 with part := { p with
      idleSince := if busy then s.tick else p.idleSince
      mirrorDelay := false
      xchDueMs := if s.period % 16 = 0 then p.xchDueMs - 1 else p.xchDueMs } }

end Sys2Proof.Machine
end

