-- ==== Sys2Proof/Machine/Judge.lean ====
section
/-! DEFINITION. How a host write is judged (R21 to R33, R275, R383): the codes for which a write would be refused, field
by field and by the conditions of the owning chapters, and the first of them in the order of R31. -/

namespace Sys2Proof.Machine

/-- The rank of a code in the order of R31. -/
def errRank (c : Nat) : Nat :=
  match c with
  | 8 => 0
  | 9 => 1
  | 15 => 2
  | 3 => 3
  | 5 => 4
  | 2 => 5
  | 14 => 6
  | 1 => 30
  | 6 => 31
  | n => if n < 16 then 7 + n else 100 + n

/-- The code reported of several: the first in the order of R31. -/
def firstCode : List Nat → Option Nat
  | [] => none
  | c :: r => match firstCode r with
    | none => some c
    | some d => if errRank d < errRank c then some d else some c

/-- A refusal under a condition. -/
def ifC (c : Bool) (code : Nat) : List Nat := if c then [code] else []

/-- Whether a write changes bits [lo+width-1:lo]. -/
def chg (cur val : Word) (lo width : Nat) : Bool := Word.bits cur lo width != Word.bits val lo width

/-- More than one of the lowest `n` command bits is set. -/
def multi (val : Word) (n : Nat) : Bool := decide (1 < ((List.range n).filter (Word.bit val)).length)

/-- A profile protection window of M8: base, limit word (Table 14.14). -/
def State.win (s : State) (w : Nat) : Nat × Word := (s.rf_ (xbarWin + 8 * w) 0 24, s.rd (xbarWin + 8 * w + 4))

/-- Whether a window permits an access to all of [lo, hi] in a world (R275). -/
def winCovers (w : Nat × Word) (rank lo hi : Nat) (write : Bool) : Bool :=
  decide (w.1 ≤ lo) && decide (hi ≤ Word.bits w.2 0 24) && Word.bit w.2 (if write then 25 else 24) &&
    decide (Word.bits w.2 26 2 ≤ rank)

/-- Whether M8's windows permit a beat (R275). -/
def State.winPass (s : State) (src : Src) (a : Nat) (write : Bool) : Bool :=
  (List.range 16).any (fun w => winCovers (s.win w) src.world.rank a a write)

/-- HLOCK of a page (R29). -/
def State.hlock (s : State) (pg : Nat) : Bool := s.rf_ (pg * 4096 + 0x20) 0 1 == 1

/-- The refusals of a changed RWP field for seal and tamper (R30). -/
def State.rwpCodes (s : State) : List Nat := ifC s.tamp.tampered 0xF ++ ifC s.sealed 3

/-- The value of a field. -/
def Fld.val (f : Fld) (w : Word) : Int :=
  let n := Word.bits w f.lo f.width
  if f.signed then Sys2Proof.Machine.signed f.width n else n

/-- The refusals of one field for its access code, HLOCK, seal and stated limits (R27, R29, R30, R383). -/
def State.fldCodes (s : State) (pg : Nat) (cur val : Word) (f : Fld) : List Nat :=
  let lims := match f.lim with
    | none => []
    | some (lo, hi) => ifC (decide (f.val val < lo) || decide (hi < f.val val)) 1
  match f.acc with
  | .ro | .w1c => []
  | .wo => if Word.bits val f.lo f.width = 0 then [] else lims
  | .rw | .rws => if chg cur val f.lo f.width then ifC (s.hlock pg) 3 ++ lims else []
  | .rwp => if chg cur val f.lo f.width then ifC (s.hlock pg) 3 ++ s.rwpCodes ++ lims else []

/-- The bits of a register that some field defines. -/
def RegSpec.mask (r : RegSpec) : Nat := r.flds.foldl (fun acc f => acc ||| ((2 ^ f.width - 1) <<< f.lo)) 0

/-- A register whose every field is RO (R383). -/
def RegSpec.allRo (r : RegSpec) : Bool := r.flds.all (fun f => f.acc == .ro)

/-- The refusals that the page tables alone give (R27, R383). -/
def State.regCodes (s : State) (pg : Nat) (r : RegSpec) (cur val : Word) : List Nat :=
  if r.allRo then [3]
  else ifC (val.toNat &&& (0xFFFFFFFF ^^^ r.mask) != 0) 9 ++ r.flds.flatMap (s.fldCodes pg cur val)

/-- POS page conditions (R47, R57, R61, R63). -/
def State.judgePos (s : State) (o : Nat) (cur val : Word) : List Nat :=
  let run := s.posRun
  let moving := s.pos.band != 0
  match o with
  | 0x08 => ifC (Word.bit cur 0 && !Word.bit val 0 && !s.stoppedSafe) 2 ++ ifC (run && chg cur val 1 6) 2
  | 0x80 | 0x84 | 0x8C | 0x90 | 0x94 | 0x98 | 0x9C | 0xAC => ifC (run && cur != val) 2
  | 0x88 =>
    let bad (l : Nat) : Bool := Word.bits val l 2 == 3 || (Word.bits val l 2 == 2 && decide (Word.bits val (l + 2) 5 < 7))
    ifC (run && cur != val) 2 ++ ifC (bad 0 || bad 8) 1
  | 0xB4 => ifC (!decide (val.toInt < s.ri posBandV2)) 1
  | 0xB8 => ifC (!(decide (s.ri posBandV1 < val.toInt) && decide (val.toInt < s.ri posBandV3))) 1
  | 0xBC => ifC (!decide (s.ri posBandV2 < val.toInt)) 1
  | 0xD8 =>
    ifC (Word.bit val 0 && moving) 2 ++ ifC (Word.bit val 0 && s.pos.cal.isSome) 4 ++
      ifC (Word.bit val 0 && s.pos.acc.st != .valid) 0x40 ++
      ifC (Word.bit val 1 && moving) 2 ++ ifC (Word.bit val 1 && s.pos.sr.st == .absent) 0x40 ++
      ifC ((Word.bit val 2 || Word.bit val 3) && moving) 2
  | _ => []

/-- LWB page conditions (R66, Table 3.9). -/
def State.judgeLwb (s : State) (o : Nat) (cur val : Word) : List Nat :=
  match o with
  | 0x08 => ifC (s.posRun && chg cur val 0 1) 2
  | 0x60 =>
    let kg := s.rn lwbCalKg
    let rated := s.rn lwbRatedKg
    ifC (val != 0 && s.inService) 2 ++ ifC (val != 0 && (s.lwb.cal.isSome || multi val 2)) 4 ++
      ifC (Word.bit val 1 && (decide (kg * 4 < rated) || decide (rated < kg))) 1
  | _ => []

/-- A landing strictly nearer than another in the direction of travel. -/
def State.nearer (s : State) (n m : Nat) : Bool :=
  decide (s.mot.ahead s.mot.sp.x (s.level n) < s.mot.ahead s.mot.sp.x (s.level m))

/-- MOT_TARGET takes a commitment now (R77, Table 4.4). -/
def State.targetOpen (s : State) : Bool :=
  s.hostRuns && (s.mot.phase == .prep || s.mot.phase == .speed) && !s.mot.committed

/-- MOT_TARGET (R77, Table 4.4). A write that leaves it at its value meets no state condition (R383). -/
def State.judgeTarget (s : State) (cur val : Word) : List Nat :=
  let n := Word.bits val 0 8
  if !s.targetOpen then (if chg cur val 0 8 then 2 :: ifC (!s.enabled n) 1 else [])
  else
    ifC (!s.enabled n) 1 ++ (
      ifC (decide (s.mot.ahead s.mot.sp.x (s.level n) < 0) || s.nearer s.horizon n || !s.feasibleNow (s.level n)) 6)

/-- MOT_HORIZON (R75, Table 4.4). A write that leaves it at its value meets no state condition (R383). -/
def State.judgeHorizon (s : State) (cur val : Word) : List Nat :=
  let n := Word.bits val 0 8
  if !chg cur val 0 8 then []
  else if !s.hostRuns then [2]
  else match s.mot.phase with
    | .idle | .landed => []
    | .prep | .speed =>
      ifC (!s.enabled n) 1 ++
        ifC (s.nearer n s.horizon && (decide (s.mot.ahead s.mot.sp.x (s.level n) < 0) || !s.feasibleNow (s.level n))) 6
    | _ => [2]

/-- A target or horizon that a RESUME may run to is kept (R95, R97); a special run is never resumed (R85). -/
def Mot.keeps (m : Mot) : Bool := (m.committed || m.keptHorizon) && m.runType == .none

/-- MOT_CMD (R71, R73, R80, R81, R97); without a valid profile no run starts or resumes (R4). -/
def State.judgeMotCmd (s : State) (val : Word) : List Nat :=
  if multi val 4 then [1]
  else if Word.bit val 0 then
    ifC (s.mot.phase != .idle || !s.hostRuns || !s.posValid || s.drvIf == 0 || s.sys.pinDefer.isSome || !s.sys.profValid) 2 ++
      ifC (!s.horizonOk) 1
  else if Word.bit val 1 then
    ifC (s.mot.phase == .holding || s.mot.phase == .special) 2 ++ ifC (!s.applyOk) 6
  else if Word.bit val 2 then
    ifC (s.mot.phase != .held || s.rb motCtrl 1 || !s.hostRuns || !s.posValid || !s.mot.keeps || s.sys.pinDefer.isSome || !s.sys.profValid) 2
  else if Word.bit val 3 then ifC (decide (s.ri motTrunD < 1000) || decide (1000000000 < s.ri motTrunD)) 1
  else []

/-- Electrum's reset complete (R192). -/
def State.elReset (s : State) : Bool := s.el.st == .normal

/-- A RELEVEL command's own conditions (R92), apart from R93. -/
def State.relevWanted (s : State) : Bool :=
  s.mot.phase == .idle && s.mot.landValid && decide (s.ri motLevelAcc < (s.estPos - s.level s.mot.landing).natAbs) &&
    decide (s.mot.relevCnt < s.rn motRelevMax)

/-- MOT_RT_CMD (R86, Table 5.1); with IF = 0 every special run is refused (R100), and without a valid profile (R4). -/
def State.judgeRtCmd (s : State) (val : Word) : List Nat :=
  if val = 0 then []
  else ifC (multi val 4) 1 ++ ifC (!s.hostRuns || !s.sys.profValid) 2 ++
    ifC (Word.bit val 0 &&
      (s.drvIf == 0 || !(s.mot.phase == .idle || (s.mot.phase == .tripped && s.elReset && s.pos.band == 0)))) 2 ++
    ifC (Word.bit val 1 && (s.drvIf == 0 || !(s.mot.phase == .idle && s.posValid && s.el.proofPend))) 2 ++
    ifC (Word.bit val 2 && (s.drvIf == 0 || !(s.relevWanted && s.relevMay))) 2 ++
    ifC (Word.bit val 3 && !(s.mot.phase == .held || (s.mot.phase == .tripped && s.elReset))) 2

/-- The range of a staged limit (Table 4.1), by its place in the set. -/
def limRange (i : Nat) : Nat × Nat :=
  if i = 0 then (100000, 20000000) else if i ≤ 2 then (100000, 2000000) else (100000, 5000000)

/-- MOT page conditions. -/
def State.judgeMot (s : State) (o : Nat) (cur val : Word) : List Nat :=
  match o with
  | 0x08 => ifC (chg cur val 0 1 && s.mot.phase != .idle) 2
  | 0x40 => s.judgeTarget cur val
  | 0x48 => s.judgeHorizon cur val
  | 0xAC => s.judgeMotCmd val
  | 0xB0 => ifC (cur != val && s.mot.phase != .idle) 2 ++ ifC (Word.bits val 0 2 == 3) 1
  | 0xB8 => ifC (decide (val.toNat < 1000) || decide (1000000000 < val.toNat)) 1
  | 0x100 => s.judgeRtCmd val
  | _ =>
    if 0x90 ≤ o ∧ o ≤ 0xA8 then
      let i := (o - 0x90) / 4
      ifC (decide (val.toNat < (limRange i).1) || decide ((limRange i).2 < val.toNat) ||
        decide (s.rn (motPVmax + 4 * i) < val.toNat)) 1
    else if 0x10C ≤ o ∧ o ≤ 0x138 then
      ifC (cur != val && s.mot.phase == .special) 2 ++
        ifC (o == 0x12C && decide (val.toNat ≤ s.rn motLevelAcc)) 1 ++
        ifC (o == 0x128 && decide (s.rn motRelevTrig ≤ val.toNat)) 1 ++ ifC (o == 0x10C && Word.bits val 4 2 == 3) 1
    else []

/-- DRV page conditions (R109, R116). -/
def State.judgeDrv (s : State) (r : RegSpec) (o : Nat) (cur val : Word) : List Nat :=
  let off := s.drv.step == .off
  ifC ((cur ^^^ val) &&& r.rwpMask != 0 && !off) 2 ++ ifC (o == 0x40 && decide (4 < Word.bits val 0 3)) 1 ++
    ifC (o == 0x90 && Word.bit val 0 && !off) 2

/-- SCH_DEST_ADD (R122). -/
def State.judgeDestAdd (s : State) (val : Word) : List Nat :=
  let a := Word.bits val 0 8
  let b := Word.bits val 8 8
  let held := s.sch.dests.any (fun d => d.2.src == a && d.2.dst == b && d.2.seq == Word.bits val 16 16)
  ifC (s.mode != .destination || !s.sys.profValid) 2 ++
    ifC (a == b || !s.enabled a || !s.enabled b || !s.ltBit a 6 || !s.ltBit b 6) 1 ++ ifC (!held && s.freeDest.isNone) 0xD

/-- SCH page conditions (R118, R119, R122, R133). -/
def State.judgeSch (s : State) (o : Nat) (cur val : Word) : List Nat :=
  match o with
  | 0x08 => ifC (Word.bit cur 0 && !Word.bit val 0 && !s.stoppedSafe) 2 ++
      ifC (!Word.bit cur 0 && Word.bit val 0 && !s.sys.profValid) 2 ++
      ifC (!Word.bit cur 0 && Word.bit val 0 && s.ltCheck.isSome) 0x40
  | 0x40 | 0x44 => ifC (decide (4 < Word.bits val 0 3)) 1
  | 0x70 => s.judgeDestAdd val
  | 0x7C => ifC (Word.bit val 0 && !s.schRestoreOk) 2
  | _ => []

/-- BID page conditions (R156). -/
def State.judgeBid (s : State) (r : RegSpec) (o : Nat) (cur val : Word) : List Nat :=
  ifC ((cur ^^^ val) &&& r.rwpMask != 0 && s.bid.run) 2 ++
  (match o with
   | 0x44 => ifC (decide (s.rn bidListenMs < 2 * val.toNat)) 1
   | 0x50 => ifC (decide (val.toNat < 2 * s.rn bidRebidMs)) 1
   | 0x60 => ifC (Word.bits val 6 2 == 3) 1 ++ ifC (Word.bits val 6 2 == 2 && Word.bits val 16 8 == Word.bits val 8 8) 1
   | 0x70 => ifC (Word.bit val 2 && s.bid.member != .island) 2
   | _ => [])

/-- DOORx_CMD (R165, R166, R171, R176, R178); a CLOSE without EN or authority or in FAULT is refused (log entry 208); without a valid profile no command that moves the axis (R4). -/
def State.judgeDoorCmd (s : State) (c : Chan) (val : Word) : List Nat :=
  let d := s.door c
  let host := s.rb (doorCfg (doorPage c)) 2
  if val = 0 then []
  else
    ifC (multi val 7) 1 ++
    ifC ((Word.bits val 0 2 != 0 || Word.bits val 3 3 != 0) && !s.sys.profValid) 2 ++
    ifC (!host && (Word.bit val 0 || Word.bit val 1 || Word.bit val 3)) 2 ++
    ifC (Word.bit val 0 && !s.permit c) 2 ++
    ifC (Word.bit val 1 && (!s.doorEn c || !s.authority || d.st == .fault)) 2 ++
    ifC ((Word.bit val 0 || Word.bit val 1) && d.learn.isSome) 2 ++
    ifC (d.posLost && (Word.bit val 0 || Word.bit val 1 || Word.bit val 5)) 0x40 ++
    ifC (Word.bit val 3 && !s.mot.committed) 2 ++
    ifC (Word.bit val 4 && (s.pos.band != 0 || d.st == .geared || d.st == .fault)) 2 ++
    ifC (Word.bit val 5 && (s.inService || !s.permit c || !(d.st == .closed || d.st == .opened || d.st == .stopped))) 2

/-- Door page conditions (R166, R179). -/
def State.judgeDoor (s : State) (c : Chan) (r : RegSpec) (o : Nat) (cur val : Word) : List Nat :=
  let st := (s.door c).st
  ifC ((cur ^^^ val) &&& r.rwpMask != 0 && !(st == .closed || st == .unref || st == .off || st == .fault)) 2 ++
    ifC (o == 0x40 && chg cur val 0 1 && s.rb schCtrl 0) 2 ++
    ifC (o == 0xC4 && decide (s.dr c doorICeil < val.toNat)) 1 ++ ifC (o == 0xC8 && decide (val.toNat < s.dr c doorIHold)) 1 ++
    (if o = 0x100 then s.judgeDoorCmd c val else [])

/-- Where a configuration write of SAFE or LSF is accepted from (R211, R229). -/
def State.safeCfgCodes (s : State) (src : Src) : List Nat :=
  ifC (src.session.isNone || src.world == .control) 5 ++
    ifC (!(s.pos.band == 0 && s.el.brakeApplied && !s.inService)) 2

/-- SAFE page conditions (R188, R191, R211). -/
def State.judgeSafe (s : State) (src : Src) (r : RegSpec) (o : Nat) (cur val : Word) : List Nat :=
  (if (cur ^^^ val) &&& r.rwpMask != 0 then s.safeCfgCodes src else []) ++
  (match o with
   | 0x8C => if Word.bit val 0 then s.safeResetRefusal src else []
   | 0x100 => ifC (Word.bits val 3 2 == 3) 1
   | 0x104 => ifC ((List.range 8).any (fun i => decide (6 < Word.bits val (4 * i) 4))) 1
   | _ => [])

/-- LSF page conditions (R227, R229). An admitted host counts as an authenticated one (R268). -/
def State.judgeLsf (s : State) (src : Src) (r : RegSpec) (o : Nat) (cur val : Word) : List Nat :=
  (if (cur ^^^ val) &&& r.rwpMask != 0 then s.safeCfgCodes src else []) ++
    ifC (o == 0x50 && (bitsOf val.toNat 32).any (fun k => s.lsfProd k || (s.lsfn k).st != .failed)) 2

/-- The bits of a word that name objects an engine owns. -/
def engineNamed (own : Nat → Bool) (first : Nat) (val : Word) : Bool := (bitsOf val.toNat 32).any (fun j => own (first + j))

/-- Cycles of the CAN clock in a bit (R231). -/
def bitCycles (w : Word) (nominal : Bool) : Nat :=
  if nominal then (Word.bits w 0 5 + 1) * (Word.bits w 5 8 + Word.bits w 13 7 + 3)
  else (Word.bits w 0 5 + 1) * (Word.bits w 5 5 + Word.bits w 10 4 + 3)

/-- The bit-timing conditions of R231: nominal 10 to 1,000 kbit/s, data up to 8 Mbit/s and not below it, SJW, TSEG1. -/
def timingBad (nbt dbt : Word) : Bool :=
  let n := bitCycles nbt true
  let d := bitCycles dbt false
  decide (n < 40) || decide (4000 < n) || decide (d < 5) || decide (n < d) ||
    decide (Word.bits nbt 13 7 < Word.bits nbt 20 7) || decide (Word.bits dbt 10 4 < Word.bits dbt 14 4) ||
    Word.bits nbt 5 8 == 0

/-- Triple sampling with too short a segment (R232). -/
def tripleBad (cfg nbt : Word) : Bool :=
  (match Word.bits cfg 1 2 with
   | 0 => decide (320 ≤ bitCycles nbt true)
   | 1 => true
   | _ => false) && decide (Word.bits nbt 5 8 < 2)

/-- The nominal rates at which a wake frame can be matched (R244): 50, 125, 250, 500 kbit/s and 1 Mbit/s. -/
def wakeRateBad (cfg nbt : Word) : Bool :=
  Word.bit cfg 3 && !([800, 320, 160, 80, 40].contains (bitCycles nbt true))

/-- CAN page conditions (R231, R232, R237, R240, R244). -/
def State.judgeCan (s : State) (n o : Nat) (cur val : Word) : List Nat :=
  let pg := canPage n
  let st := (s.cann n).st
  let stopped := st == .off || st == .sleep
  match o with
  | 0x40 => ifC (cur != val && !stopped) 2 ++
      ifC (Word.bits val 1 2 == 3 || tripleBad val (s.rd (canNbt pg)) || wakeRateBad val (s.rd (canNbt pg))) 1
  | 0x44 => ifC (cur != val && !stopped) 2 ++
      ifC (timingBad val (s.rd (canDbt pg)) || tripleBad (s.rd (canCfg pg)) val || wakeRateBad (s.rd (canCfg pg)) val) 1
  | 0x48 => ifC (cur != val && !stopped) 2 ++ ifC (timingBad (s.rd (canNbt pg)) val) 1
  | 0x54 => ifC (engineNamed (s.txEngine n) 0 val) 3 ++
      ifC (!(st == .errorActive || st == .errorPassive || st == .busOff)) 2 ++
      ifC ((bitsOf val.toNat 32).any (s.txBad n)) 1
  | 0x58 | 0x60 | 0x64 => ifC (engineNamed (s.txEngine n) 0 val) 3
  | _ =>
    if 0x70 ≤ o ∧ o < 0x80 then ifC (engineNamed (s.rxEngine n) (8 * (o - 0x70)) val) 3
    else if 0x80 ≤ o ∧ o < 0x90 then ifC (engineNamed (s.rxEngine n) (8 * (o - 0x80)) val) 3
    else []

/-- A channel that the landing table or MOT_HOME_CH names (R255). -/
def State.chNamed (s : State) (ch : Nat) : Bool :=
  s.landings.any (fun n => (s.ltChans n).contains ch) || s.rf_ motHomeCh 0 8 == ch ||
    (s.rb motHomeCh 18 && s.rf_ motHomeCh 8 8 == ch)

/-- Field-group page conditions (R248, R254, R255, R257). -/
def State.judgeFiog (s : State) (g o : Nat) (cur val : Word) : List Nat :=
  match o with
  | 0x40 => ifC (decide (8 < Word.bits val 0 4) || Word.bits val 8 8 == 0) 1
  | 0x58 | 0x5C => s.outRefusals g val
  | _ =>
    if 0x100 ≤ o ∧ o < 0x180 then
      let ch := 32 * (g - 1) + (o - 0x100) / 4
      ifC (chg cur val 0 4 && s.rb schCtrl 0 && s.chNamed ch) 2 ++
        ifC (Word.bits val 0 2 == 3 || Word.bits val 4 2 == 3 || Word.bits val 8 2 == 3 ||
          (decide (2 ≤ Word.bits val 2 2) && Word.bits val 0 2 == 1)) 1
    else []

/-- A write to a window word of XBAR that leaves the writer without a window for the XBAR page (Table 14.14). -/
def State.locksOut (s : State) (src : Src) (o : Nat) (val : Word) : Bool :=
  let t := s.wr (0x3000 + o) val
  !(List.range 16).any (fun w => winCovers (t.win w) src.world.rank 0x3000 0x3FFC true)

/-- A window word outside its range, beside the words in force (Table 14.14). -/
def xbarWinBad (s : State) (o : Nat) (val : Word) : Bool :=
  if 0x200 ≤ o ∧ o < 0x280 then
    let w := (o - 0x200) / 8
    let base := if o % 8 = 0 then Word.bits val 0 24 else (s.win w).1
    let lim := if o % 8 = 0 then (s.win w).2 else val
    (decide (Word.bits lim 0 24 < base) && Word.bits lim 24 2 != 0) || Word.bits val 0 2 != 0 || Word.bits lim 26 2 == 3
  else false

/-- XBAR page conditions (Table 14.14). -/
def State.judgeXbar (s : State) (src : Src) (o : Nat) (cur val : Word) : List Nat :=
  if 0x200 ≤ o ∧ o < 0x280 ∧ cur ≠ val then ifC (xbarWinBad s o val) 1 ++ ifC (s.locksOut src o val) 1 else []

/-- REC page conditions (R300, R301, R310, R311). -/
def State.judgeRec (s : State) (o : Nat) (val : Word) : List Nat :=
  match o with
  | 0x40 => ifC (decide (Word.bits val 0 6 < 8)) 1
  | 0x48 => ifC ((bitsOf val.toNat 32).any unmaskable) 1
  | 0x4C => ifC ((bitsOf val.toNat 32).any (fun b => unmaskable (32 + b))) 1
  | 0x64 => ifC (Word.bit val 31) 1
  | 0x78 => ifC s.rcd.rdPend 4
  | 0x80 => ifC (Word.bit val 2 && !Word.bit (s.trg (Word.bits val 8 6)) 31) 2
  | _ => []

/-- KEY page conditions (R323, Table 17.12). -/
def State.judgeKey (s : State) (src : Src) (o : Nat) (val : Word) : List Nat :=
  match o with
  | 0x40 => s.keyCmdRefusals src val
  | 0x44 => ifC (Word.bits val 0 16 == 0xFFFF || Word.bits val 20 2 == 3) 1
  | _ => []

/-- TAMP page conditions (R333, R335). -/
def State.judgeTamp (s : State) (o : Nat) (cur val : Word) : List Nat :=
  match o with
  | 0x40 => ifC ((s.lc == .field || s.lc == .service) && (cur.toNat &&& (0xFFFFFFFF ^^^ val.toNat)) != 0) 2
  | 0x50 => ifC (Word.bit val 0 && ((s.tamp.active.toNat &&& s.tampEnabled) != 0 || s.tamp.tamperNow)) 2
  | _ => []

/-- Whether the block of a gate bit is in use (Table 18.6). -/
def State.inUse (s : State) (b : Nat) : Bool :=
  match b with
  | 9 => s.posRun
  | 10 => s.doorEn .a
  | 11 => s.doorEn .b
  | 19 => s.rb lwbCtrl 0
  | _ =>
    if 12 ≤ b ∧ b ≤ 15 then (s.cann (b - 12)).st != .off
    else if 16 ≤ b ∧ b ≤ 18 then s.rb (ethCfg (b + 8)) 0
    else if 20 ≤ b then (List.range 32).any (fun i => s.chField (b - 19) i 0 2 != 0)
    else false

/-- The domain gate of a block gate (Table 18.6). -/
def gateParent (b : Nat) : Nat :=
  if b = 9 then 1 else if b ≤ 11 then 2 else if b ≤ 15 then 3 else if b ≤ 18 then 4 else 5

/-- CLK_GATE (R345): E_CHILD goes before E_BUSY. -/
def State.judgeGate (s : State) (cur val : Word) : List Nat :=
  ifC ([0, 6, 7, 8].any (fun b => Word.bit cur b && !Word.bit val b)) 3 ++
    ifC ((List.range 28).any (fun b => decide (9 ≤ b) && Word.bit cur b && !Word.bit val b && s.inUse b)) 2 ++
    (if (List.range 28).any (fun b => decide (9 ≤ b) && Word.bit val b && !Word.bit val (gateParent b)) then [7]
     else ifC (s.clk.drain.isSome && cur != val) 4)

/-- The nominal frequency of a CLKOUT selection, Hz (Tables 18.1, 18.2). -/
def clkFreq (sel : Nat) : Nat :=
  nth [25000000, 1000000000, 20000000, 1000000000, 16000000, 32768, 250000000, 125000000, 100000000, 40000000, 125000000,
    25000000, 100000000, 96000000, 32768] sel 0

/-- CLK page conditions (R345, R348). -/
def State.judgeClk (s : State) (o : Nat) (cur val : Word) : List Nat :=
  match o with
  | 0x4C => s.judgeGate cur val
  | 0x54 => ifC (decide (50000000 * (Word.bits val 16 16 + 1) < clkFreq (Word.bits val 0 4))) 1
  | _ => []

/-- SYS page conditions (R359, R360, Table 19.1, Table 19.6). -/
def State.judgeSys (s : State) (src : Src) (o : Nat) (cur val : Word) : List Nat :=
  match o with
  | 0x50 => ifC ((chg cur val 0 2 || (Word.bit val 8 && !Word.bit cur 8)) && !s.slotValid (Word.bits val 0 2)) 2
  | 0x74 => ifC (s.rn sysProfPtr == 5120) 0xD
  | 0x78 =>
    ifC (Word.bit val 0 && Word.bits val 16 16 != 0x5346) 3 ++
      ifC (Word.bit val 0 && !(s.pos.band == 0 && s.el.brakeApplied)) 2 ++
      ifC (Word.bit val 1 && s.tamp.tampered) 0xF ++
      ifC (Word.bit val 1 && src.world == .control) 5 ++ ifC (Word.bit val 1 && s.sys.store.isSome) 4
  | _ => []

/-- PWR page conditions (R362, R364, Table 19.8). -/
def State.judgePwr (s : State) (o : Nat) (val : Word) : List Nat :=
  match o with
  | 0x54 => ifC (multi val 3) 1 ++ ifC ((Word.bit val 0 || Word.bit val 2) && !s.parkOk) 2
  | _ => []

/-- HOST, ETH and PART page conditions (R269, R267, R279, R295, R296). -/
def State.judgePort (s : State) (src : Src) (pg o : Nat) (val : Word) : List Nat :=
  match pg, o with
  | 0x04, 0x64 => ifC ((Word.bit val 1 || Word.bit val 2) && (src.session.isNone || src.world == .control)) 5
  | 0x19, 0x58 => ifC (Word.bit val 1) 2
  | 0x28, 0x6C =>
    ifC (Word.bit val 0 && src.world != .service) 5 ++ ifC (Word.bit val 0 && !s.xchMay) 2 ++
      ifC (Word.bit val 1 && !(s.part.role == .standby && s.part.linkUp)) 2
  | _, _ => []

/-- The conditions that the owning chapter places on a write to a block register. -/
def State.pageCodes (s : State) (src : Src) (pg : Nat) (r : RegSpec) (o : Nat) (cur val : Word) : List Nat :=
  match pg with
  | 0x00 => s.judgeSys src o cur val
  | 0x01 => s.judgeClk o cur val
  | 0x02 => s.judgePwr o val
  | 0x03 => s.judgeXbar src o cur val
  | 0x08 => s.judgePos o cur val
  | 0x09 => s.judgeMot o cur val
  | 0x0A => s.judgeDrv r o cur val
  | 0x0B => s.judgeSch o cur val
  | 0x0C => s.judgeBid r o cur val
  | 0x0D => s.judgeDoor .a r o cur val
  | 0x0E => s.judgeDoor .b r o cur val
  | 0x10 => s.judgeSafe src r o cur val
  | 0x11 => s.judgeLsf src r o cur val
  | 0x2C => s.judgeRec o val
  | 0x30 => s.judgeKey src o val
  | 0x31 => s.judgeTamp o cur val
  | 0x34 => s.judgeLwb o cur val
  | _ =>
    if 0x14 ≤ pg ∧ pg ≤ 0x17 then s.judgeCan (pg - 0x14) o cur val
    else if 0x1D ≤ pg ∧ pg ≤ 0x24 then s.judgeFiog (pg - 0x1C) o cur val
    else s.judgePort src pg o val

/-- The header registers (Tables 2.3, 2.8; R24, R25, R29). -/
def State.headCodes (s : State) (pg o : Nat) (val : Word) : Option (List Nat) :=
  match o with
  | 0x00 | 0x04 | 0x14 => some [3]
  | 0x10 => some []
  | 0x18 | 0x1C => some (ifC (decide (2 ^ irqCount pg ≤ val.toNat)) 9)
  | 0x20 => some (ifC (Word.bits val 1 7 != 0 || Word.bits val 10 6 != 0) 9 ++
      ifC (s.hlock pg && !Word.bit val 0 && Word.bits val 16 16 != 0x4C4B) 3)
  | _ => none

/-- The refusals of a write to a register page. -/
def State.pageWriteCodes (s : State) (src : Src) (a : Nat) (val : Word) : List Nat :=
  let pg := a / 4096
  let o := a % 4096
  match pageRegs pg with
  | none => [9]
  | some l =>
    ifC (s.gated pg && o != 0x10) 2 ++
    (match s.headCodes pg o val with
      | some c => c
      | none => match findReg l o with
        | none => [9]
        | some r => s.regCodes pg r (s.heldWord a) val ++
            (if r.allRo then [] else s.pageCodes src pg r o (s.heldWord a) val))

/-- The refusals of a write to the CAN object window (Table 12.3, R235, R237, R240). HLOCK of the controller's page locks
its object words too (log entry 194). -/
def State.canWinCodes (s : State) (a : Nat) (val : Word) : List Nat :=
  match canWin a with
  | none => [9]
  | some (n, true, j, o) =>
    ifC (s.gated (canPage n)) 2 ++ ifC (o == 8 || o == 0xC) 3 ++ ifC (s.txEngine n j) 3 ++
      ifC ((s.txo n j).res == .pending) 4 ++
      ifC (s.hlock (canPage n) && !(o == 8 || o == 0xC) && s.readWord a != val) 3 ++
      ifC (o == 4 && (val.toNat &&& 0xFFFF0080) != 0) 9
  | some (n, false, i, o) =>
    if o = 0 then
      let cur := s.readWord a
      ifC (s.gated (canPage n)) 2 ++ ifC (Word.bit val 30) 9 ++ ifC (s.rxEngine n i) 3 ++
        (if cur != val then s.rwpCodes ++ ifC (s.hlock (canPage n)) 3 else []) ++
        ifC (Word.bit cur 31 && Word.bit val 31 && chg cur val 0 30) 2 ++
        ifC (!Word.bit val 29 && Word.bits val 0 18 != 0) 1
    else if o = 4 then
      ifC (s.gated (canPage n)) 2 ++ ifC ((val.toNat &&& 0xFFFCF880) != 0) 9 ++
        ifC (s.rxEngine n i && Word.bits val 16 2 != 0) 3
    else [3]

/-- Where a word of the call-table window lies (Table 7.2). -/
inductive CallArea where
  | map | set (kind w : Nat) | clr (kind w : Nat) | entry | none
  deriving DecidableEq, Repr

/-- The area of a call-table address; reserved offsets are `none`. -/
def callArea (a : Nat) : CallArea :=
  let o := a - 0x140000
  if o < 0x60 then .map
  else if 0x80 ≤ o ∧ o < 0xE0 then .set ((o - 0x80) / 0x20) (o % 0x20 / 4)
  else if 0x100 ≤ o ∧ o < 0x160 then .clr ((o - 0x100) / 0x20) (o % 0x20 / 4)
  else if 0x1000 ≤ o ∧ o < 0x5000 then .entry
  else .none

/-- The refusals of a write to the call table (R120, R121). -/
def State.callCodes (s : State) (a : Nat) (val : Word) : List Nat :=
  match callArea a with
  | .map | .entry => [3]
  | .none => [9]
  | .set kind w => (mapLandings w val).flatMap (s.setRefusal kind)
  | .clr _ _ => []

/-- The reserved bits of a landing-table word (Table 7.1). -/
def ltReserved (o : Nat) : Nat :=
  match o with
  | 8 => 0xFFFFFF80
  | 0xC => 0xFFFF0000
  | 0x10 => 0xFFFC0000
  | _ => 0

/-- A landing-table value outside its limits (Table 7.1). -/
def ltOutside (o : Nat) (val : Word) : Bool :=
  match o with
  | 4 => decide (val.toNat < 10000) || decide (350000 < val.toNat)
  | 0xC => val != 0 && (decide (val.toNat < 500) || decide (60000 < val.toNat))
  | _ => false

/-- The refusals of a write to the landing table (R119). HLOCK of SCH locks it too (log entry 194). -/
def State.ltCodes (s : State) (a : Nat) (val : Word) : List Nat :=
  let o := a % 0x40
  if 0x14 ≤ o then [9]
  else
    let cur := s.rd a
    ifC ((val.toNat &&& ltReserved o) != 0) 9 ++
    (if cur = val then [] else
      s.rwpCodes ++ ifC (s.hlock pgSch) 3 ++ ifC (ltOutside o val) 1 ++
        ifC (s.rb schCtrl 0 && !(o == 8 && ltOnlyEnables cur val && s.enabled ((a - 0x150000) / 0x40))) 2)

/-- The refusals of a write to an aligned address. -/
def State.wordCodes (s : State) (src : Src) (a : Nat) (val : Word) : List Nat :=
  if a < 0x100000 then s.pageWriteCodes src a val
  else if a < 0x140000 then s.canWinCodes a val
  else if a < 0x150000 then s.callCodes a val
  else if a < 0x154000 then s.ltCodes a val
  else if 0x160000 ≤ a ∧ a < 0x164000 then [3]
  else [9]

/-- The address is the ERR of an assigned page. -/
def isErr (a : Nat) : Bool := decide (a < 0x100000) && a % 4096 == 0x10 && (pageRegs (a / 4096)).isSome

/-- Why a host write is refused, if it is: the first code in the order of R31. A write to ERR is never refused (R24), not
even where no window of M8 permits it: R24 stands against R275 there, and the model follows R24 (log entry 191). -/
def State.judge (s : State) (src : Src) (a : Nat) (val : Word) : Option Nat :=
  if isErr a then none
  else if a % 4 ≠ 0 then some 8
  else firstCode (ifC (!s.winPass src a true) 5 ++ s.wordCodes src a val)

/-- The page whose ERR records a refused write (R22, R31). -/
def errPage (a : Nat) : Nat :=
  if a < 0x100000 then (if (pageRegs (a / 4096)).isSome then a / 4096 else pgSys)
  else if a < 0x140000 then (if (canWin a).isSome || a % 4 ≠ 0 then canPage ((a - 0x100000) / 0x10000) else pgSys)
  else if a < 0x150000 then (if callArea a = .none ∧ a % 4 = 0 then pgSys else pgSch)
  else if a < 0x154000 then (if 0x14 ≤ a % 0x40 then pgSys else pgSch)
  else if 0x160000 ≤ a ∧ a < 0x164000 then pgRec
  else pgSys

/-- Record a refusal (R31, Table 2.5): CODE, OFFSET and PORT of this write, COUNT saturating, HOST_ERR. A window word has no
offset in a page; OFFSET takes the low 12 bits of its address (log entry 193). -/
def State.reject (s : State) (src : Src) (a code : Nat) : State :=
  s.errNote (errPage a) (a % 4096) src code

end Sys2Proof.Machine
end

