-- ==== Sys2Proof/Machine/ProfOps.lean ====
section
/-! DEFINITION. The checks of a profile store (R8, R358, R360), and the store itself. A check that compares several
registers names them: its failing entry is the first that addresses one of them (log entry 63). -/

namespace Sys2Proof.Machine

/-- The registers at `n` places from address `a`, `d` bytes apart. -/
def span (a n d : Nat) : List Nat := (List.range n).map (fun i => a + d * i)

/-- Two elements of a list are equal. -/
def hasTwin : List (Nat × Nat × Nat) → Bool
  | [] => false
  | x :: r => r.contains x || hasTwin r

/-- The used gear breakpoints fall strictly (R172). -/
def fallsStrictly : List Nat → Bool
  | a :: b :: r => decide (b < a) && fallsStrictly (b :: r)
  | _ => true

/-- A register's word holding an RWP field, a landing-table word or a receive identifier (R360, Table 12.3). -/
def rwpAt (a : Nat) : Bool :=
  if a < 0x100000 then ((regAt a).map (fun r => r.rwpMask != 0)).getD false
  else if 0x150000 ≤ a ∧ a < 0x154000 then decide (a % 0x40 < 0x14)
  else match canWin a with
    | some (_, false, _, 0) => true
    | _ => false

/-- Why an entry names nothing that a profile may set, if so (R358, R360). -/
def entryName (e : Nat × Word) : Option Nat :=
  if e.1 % 4 ≠ 0 then some 8
  else if rwpAt e.1 then none
  else if e.1 < 0x100000 then
    (if (regAt e.1).isSome || ((pageRegs (e.1 / 4096)).isSome && e.1 % 4096 ≤ 0x20) then some (reportable (Config.entryCode e.1))
     else some 9)
  else some (reportable (Config.entryCode e.1))

/-- The limits and reserved bits of an entry, judged in the scratch state `t` that holds the whole profile (R8). -/
def State.entryCodes (t : State) (e : Nat × Word) : List Nat :=
  let a := e.1
  if a < 0x100000 then
    match regAt a with
    | none => []
    | some r =>
      ifC ((e.2.toNat &&& (0xFFFFFFFF ^^^ r.mask)) != 0) 9 ++
      r.flds.flatMap (fun f => match f.acc, f.lim with
        | .rwp, some (lo, hi) => ifC (decide (f.val e.2 < lo) || decide (hi < f.val e.2)) 1
        | _, _ => []) ++
      (if a / 4096 = pgXbar then ifC (xbarWinBad t (a % 4096) e.2) 1
       else (t.pageCodes ⟨15, .vendor, none⟩ (a / 4096) r (a % 4096) (wordN r.reset) e.2).filter (· == 1))
  else if 0x150000 ≤ a then ifC ((e.2.toNat &&& ltReserved (a % 0x40)) != 0) 9 ++ ifC (ltOutside (a % 0x40) e.2) 1
  else ifC (Word.bit e.2 30) 9 ++ ifC (!Word.bit e.2 29 && Word.bits e.2 0 18 != 0) 1

/-- Door checks (R168, R172, R179). -/
def State.profDoor (t : State) (c : Chan) : List (Bool × List Nat) :=
  let pg := doorPage c
  let dist := (List.range 4).map (fun i => t.rn (pg * 4096 + 0xD0 + 4 * i))
  [(decide (16000 < t.rn (doorVclose pg) * 1000000 / t.rn (doorRevDec pg)), [doorVclose pg, doorRevDec pg]),
   (decide (t.rn (doorICeil pg) < t.rn (doorIHold pg)), [doorIHold pg, doorICeil pg]),
   (!fallsStrictly (dist.filter (· != 0)), span (pg * 4096 + 0xD0) 4 4),
   (t.doorEn c && (t.rd (doorKf pg) == 0 || t.rd (doorEncScale pg) == 0), [doorCfg pg, doorKf pg, doorEncScale pg]),
   (t.doorEn c && decide (t.rn safeVByp < t.rn (doorGearVmax pg)), [doorCfg pg, doorGearVmax pg, safeVByp]),
   (t.doorEn c && ((t.ofRole (lockRole c)).isEmpty || (t.ofRole (carRole c)).isEmpty), [doorCfg pg, safeTapCfg])]

/-- The order of the section roles is broken (R188). -/
def State.tapsBad (t : State) : Bool :=
  let roles := t.sections.map t.role
  let doors := roles.dropWhile (fun r => decide (r < 3))
  (List.range 8).any (fun i => decide (t.sections.length ≤ i) && t.role i != 0) || !roles.contains 1 ||
    doors.any (fun r => decide (r < 3)) || (doors.dropWhile (fun r => decide (r < 5))).any (fun r => decide (r < 5))

/-- Electrum's checks (R182, R188, R199, R211). -/
def State.profSafe (t : State) : List (Bool × List Nat) :=
  [(!t.rb safeCfg 0 && !t.rb safeCfg 1, [safeCfg]),
   (t.tapsBad, [safeTapCfg]),
   (decide (t.rn safeEtsDec < t.rn motPDmax), [safeEtsDec, motPDmax]),
   (decide (t.rn safeVRated < t.rn motPVmax), [safeVRated, motPVmax])]

/-- The bus, PEER (consumers) and CONN of the enabled LSF slots of a kind. -/
def State.lsfKeys (t : State) (prod : Bool) : List (Nat × Nat × Nat) :=
  ((List.range 32).filter (fun k => t.lsfEn k && t.lsfProd k == prod)).map (fun k =>
    (Word.bits (t.lsfCfg k) 2 2, if prod then 0 else Word.bits (t.lsfCfg k) 16 12, Word.bits (t.lsfCfg k) 8 4))

/-- A SAFE_LSF_MAP binding in use that is not sound (R229). -/
def State.bindingBad (t : State) (j : Nat) : Bool :=
  let k := t.rf_ safeLsfMap (8 * j) 6
  let b := t.rf_ (lsfMapBit + 4 * j) 0 9
  t.rf_ safeLsfMap (8 * j + 6) 2 != 0 &&
    (decide (31 < k) || !t.lsfEn k || t.lsfProd k || decide (8 * t.lsfLen k ≤ b) ||
      (decide (b < 32) && Word.bit (t.rd (lsfCnSafe + 0x20 * k)) b))

/-- LSF's checks (R229). -/
def State.profLsf (t : State) : List (Bool × List Nat) :=
  let en := (List.range 32).filter t.lsfEn
  let cfgs := span lsfCnCfg 32 0x20
  [(hasTwin (t.lsfKeys false), cfgs), (hasTwin (t.lsfKeys true), cfgs),
   (en.any (fun k => t.lsfProd k && (t.lsfLen k != 12 || decide (t.lsfTime k < 5) || decide (100 < t.lsfTime k))),
    cfgs ++ span lsfCnTime 32 0x20),
   (en.any (fun k => !t.lsfProd k && (decide (t.lsfTime k < 10) || decide (200 < t.lsfTime k))),
    cfgs ++ span lsfCnTime 32 0x20),
   ((List.range 4).any t.bindingBad, safeLsfMap :: span lsfMapBit 4 4 ++ cfgs ++ span lsfCnTime 32 0x20 ++ span lsfCnSafe 32 0x20)]

/-- The enabled host receive objects of a controller: object, identifier with IDE. -/
def State.hostRx (t : State) (n : Nat) : List (Nat × Nat × Nat) :=
  (List.range 128).filterMap (fun i =>
    let w := t.rd (rxoAddr n i)
    if Word.bit w 31 then some (i, Word.bits w 0 29, Word.bits w 29 1) else none)

/-- A controller that the profile needs (R246). -/
def State.canNeeded (t : State) (n : Nat) : Bool :=
  (n == 3 && t.drvIf == 2) || (n == 2 && t.rb bidCfg 6) || (n == 1 && t.rb bidCfg 6 && (t.rb bidCfg 7 || t.rb bidCfg 8)) ||
    (List.range 32).any (fun k => t.lsfEn k && Word.bits (t.lsfCfg k) 2 2 == n) || !(t.hostRx n).isEmpty

/-- A controller's checks (R235, R240, R246). Identifiers that engines bind count as bound objects. -/
def State.profCan (t : State) (n : Nat) : List (Bool × List Nat) :=
  let rx := t.hostRx n
  let ids := (List.range 128).filterMap (fun i => (t.rxBound n i).map (fun b => (0, b.1, b2n b.2)))
  [(hasTwin ids, span (rxoAddr n 0) 128 0x80), (rx.any (fun x => t.rxEngine n x.1), span (rxoAddr n 0) 128 0x80),
   (t.canNeeded n && !t.rb (canCfg (canPage n)) 5, [canCfg (canPage n)])]

/-- A pool entry that an enabled trigger slot uses is no word-aligned register address (R301). -/
def State.trgBad (t : State) (i : Nat) : Bool :=
  let w := t.trg i
  let first := Word.bits w 8 9
  let len := Word.bits w 17 6
  decide (48 < len) || decide (512 < first + len) ||
    (Word.bit w 31 && (span (0x2C800 + 4 * first) len 4).any (fun a => t.rn a % 4 != 0 || decide (0x100000 ≤ t.rn a)))

/-- A rise above 1,000 m between the lowest and the highest enabled landing (Table 0.2). -/
def State.riseBad (t : State) : Bool :=
  t.landings.any (fun n => t.landings.any (fun m => decide (1000000000 < t.level n - t.level m)))

/-- The remaining cross-checks (R8, R71, R88, R112, R113, R118, R272, R301). -/
def State.profRest (t : State) : List (Bool × List Nat) :=
  let inp (ch : Nat) : Bool := Word.bits (t.chCfg ch) 0 2 == 1
  [(t.drvIf == 3 && decide (9 * t.rn drvAnVfs < 10 * t.rn motPVmax), [drvCfg, drvAnVfs, motPVmax]),
   (t.drvIf == 4 && decide (1875000 * t.rn drvStepUm + t.rn drvStepUm ≤ t.rn motPVmax * 65536), [drvCfg, drvStepUm, motPVmax]),
   (!inp (t.rf_ motHomeCh 0 8) || (t.rb motHomeCh 18 && !inp (t.rf_ motHomeCh 8 8)), [motHomeCh]),
   (t.ltCheck.isSome, schRecall :: span 0x150000 4096 4), (t.riseBad, span 0x150000 256 0x40),
   (decide (15625 < ((List.range 12).map (fun m => t.rn (xbarBudget + 4 * m))).foldl (· + ·) 0), span xbarBudget 12 4),
   ((List.range 64).any t.trgBad, span recTrg 64 4 ++ span 0x2C800 512 4)]

/-- Every cross-check of the owning chapters, in the order of their pages. -/
def State.profCross (t : State) : List (Bool × List Nat) :=
  t.profRest ++ t.profDoor .a ++ t.profDoor .b ++ t.profSafe ++ t.profLsf ++ (List.range 4).flatMap t.profCan

/-- The place of the first entry for which `f` answers, and its answer. -/
def firstEntry (f : Nat × Word → Option Nat) : Nat → List (Nat × Word) → Option (Nat × Nat)
  | _, [] => none
  | i, e :: r => match f e with
    | some c => some (i, c)
    | none => firstEntry f (i + 1) r

/-- The state that holds a profile and nothing else, in which its values are judged. -/
def profScratch (l : List (Nat × Word)) : State := State.reset.applyEntries l

/-- The first failure of a profile's payload: entry and code (R360): the names, then the limits, then the cross-checks. -/
def payloadFailure (l : List (Nat × Word)) : Option (Nat × Nat) :=
  match firstEntry entryName 0 l with
  | some x => some x
  | none =>
    let t := profScratch l
    match firstEntry (fun e => firstCode (t.entryCodes e)) 0 l with
    | some x => some x
    | none =>
      let bad := (t.profCross.filter (fun c => c.1)).map (fun c => c.2)
      if bad.isEmpty then none
      else some (((firstEntry (fun e => if bad.any (fun rs => rs.contains e.1) then some 1 else none) 0 l).map (fun x => x.1)).getD 0, 1)

/-- A store of VENDOR or OEM without a signature (R360). -/
def State.unsignedStore (s : State) (o : List Byte) : Bool := byteAt o 5 == 0xFF && (s.lc == .vendor || s.lc == .oem)

/-- The object's own check (R319, R360): an unsigned object by its header only; one of another type is none of R360's. -/
def State.profObjectCode (s : State) (o : List Byte) : Nat :=
  if s.lc = .retired then 2
  else if s.unsignedStore o then (if leNat (slice o 0 4) == 0x534E4F4C && byteAt o 4 == 2 && decide (leNat (slice o 8 4) ≤ 20448) then 0 else 1)
  else if byteAt o 4 ≠ 2 then 1
  else s.objectCode o 20480

/-- The payload is a list of up to 2,048 whole entries with [31:24] of the address zero (R358). -/
def payloadForm (o : List Byte) : Option (Nat × Nat) :=
  let len := leNat (slice o 8 4)
  if len % 8 ≠ 0 ∨ 16384 < len then some (2048, 1)
  else
    match (List.range (len / 8)).find? (fun i => byteAt o (35 + 8 * i) != 0) with
    | some i => some (i, 9)
    | none => none

/-- The first failure of a store: code and entry. -/
def State.storeFailure (s : State) (o : List Byte) : Option (Nat × Nat) :=
  let c := s.profObjectCode o
  if c ≠ 0 then some (0, c)
  else match payloadForm o with
    | some x => some x
    | none => payloadFailure (profEntries o)

/-- The staging buffer's bytes (R360). -/
def State.stagingBytes (s : State) : List Byte := (List.range 5120).flatMap (fun i => wordLe (s.sys.staging.get 0 i))

/-- PROF_STORE starts (R360): BUSY; the store ends with `profStoreEnd`. The generation follows the bank in force. -/
def State.profStoreNow (s : State) (slot : Nat) : State :=
  let o := s.stagingBytes
  let signed := !s.unsignedStore o
  let n := 32 + leNat (slice o 8 4) + (if signed then 1612 else 0)
  let res := match s.storeFailure o with
    | none => 0
    | some (i, c) => pack [(0, 8, c), (16, 16, i)]
  let gen := ((s.bank slot).map (fun b => b.gen)).getD 0 + 1
  ({ s with sys := { s.sys with
      store := some (slot, res, ⟨gen, signed, byteAt o 5, o.take n, true⟩) } }).wr sysProfResult 0x100

/-- The end of a store (R360): the profile is current, or the slot is unchanged; PROF_DONE is raised. -/
def State.profStoreEnd (s : State) (writeOk : Bool) : State :=
  match s.sys.store with
  | none => s
  | some (slot, res, b) =>
    let t := { s with sys := { s.sys with store := none } }
    let u :=
      if res ≠ 0 then t.wr sysProfResult res
      else if writeOk then ({ t with sys := { t.sys with banks := aput t.sys.banks slot b } }).wr sysProfResult 0
      else t.wr sysProfResult (pack [(0, 8, reportable Config.storeFault)])
    u.raise pgSys 2

end Sys2Proof.Machine
end

