-- ==== Sys2Proof/Machine/Apply.lean ====
section
/-! DEFINITION. What an accepted host write does (R14, R27, R383): its fields take their values, W1C bits clear, and
commands act as the owning chapters say. -/

namespace Sys2Proof.Machine

/-- The bits of a register that keep what is written: RW, RWS and RWP. -/
def RegSpec.keepMask (r : RegSpec) : Word :=
  wordN (r.flds.foldl (fun acc f => match f.acc with
    | .rw | .rws | .rwp => acc ||| ((2 ^ f.width - 1) <<< f.lo)
    | _ => acc) 0)

/-- The W1C bits of a register. -/
def RegSpec.w1cMask (r : RegSpec) : Word :=
  wordN (r.flds.foldl (fun acc f => if f.acc = .w1c then acc ||| ((2 ^ f.width - 1) <<< f.lo) else acc) 0)

/-- Store a register's written fields (Table 2.6). -/
def State.storeReg (s : State) (a : Nat) (r : RegSpec) (val : Word) : State :=
  let old := s.rd a
  s.wr a (((old &&& ~~~r.keepMask) ||| (val &&& r.keepMask)) &&& ~~~(val &&& r.w1cMask))

/-- IRQ_STATUS (R25): a 1 clears the bit, unless its source occurred in this period. -/
def State.irqClear (s : State) (pg : Nat) (val : Word) : State :=
  let a := pg * 4096 + 0x14
  s.wr a (s.rd a &&& ~~~(val &&& ~~~(s.irqNow.get 0 pg)))

/-- LOCK (Table 2.8): HLOCK. -/
def State.lockWrite (s : State) (pg : Nat) (val : Word) : State := s.wn (pg * 4096 + 0x20) (Word.bits val 0 1)

/-- A write to the header (Table 2.3). -/
def State.applyHead (s : State) (pg o : Nat) (val : Word) : Option State :=
  match o with
  | 0x10 => some (s.wr (pg * 4096 + 0x10) 0)
  | 0x18 => some (s.wr (pg * 4096 + 0x18) val)
  | 0x1C => some (s.irqClear pg val)
  | 0x20 => some (s.lockWrite pg val)
  | _ => none

/-- POS_CMD.BIAS_CAL starts (R61). -/
def State.biasCalStart (s : State) : State := { s with pos := { s.pos with cal := some (0, 0) } }

/-- POS_CMD.CLR_TRACT (R57). -/
def State.clrTract (s : State) : State :=
  { s with pos := { s.pos with traction := false, tractTicks := 0, tractStep := false } }

/-- POS_CMD.KAPPA_RESET (R61). -/
def State.kappaReset (s : State) : State := { s with pos := { s.pos with kap := s.rn posKappaInit } }

/-- POS page. -/
def State.applyPos (s : State) (o : Nat) (r : RegSpec) (val : Word) : State :=
  match o with
  | 0x08 =>
    let was := s.posRun
    let t := s.storeReg posCtrl r val
    if was && !Word.bit val 0 then t.posStop else if !was && Word.bit val 0 then t.posObserve else t
  | 0xD8 =>
    let s1 := if Word.bit val 0 then s.biasCalStart else s
    let s2 := if Word.bit val 1 then s1.srReacq else s1
    let s3 := if Word.bit val 2 then s2.clrTract else s2
    if Word.bit val 3 then s3.kappaReset else s3
  | _ => s.storeReg (0x8000 + o) r val

/-- A load calibration starts (R66). -/
def State.lwbCalStart (s : State) (span : Bool) : State := { s with lwb := { s.lwb with cal := some (span, 0, 0) } }

/-- LWB page. -/
def State.applyLwb (s : State) (o : Nat) (r : RegSpec) (val : Word) : State :=
  match o with
  | 0x08 =>
    let was := s.rb lwbCtrl 0
    let t := s.storeReg lwbCtrl r val
    if was = Word.bit val 0 then t else t.lwbEnable (Word.bit val 0)
  | 0x60 => if Word.bit val 0 then s.lwbCalStart false else if Word.bit val 1 then s.lwbCalStart true else s
  | _ => s.storeReg (0x34000 + o) r val

/-- MOT_CMD, already accepted (R80). -/
def State.motCmd (s : State) (val : Word) : State :=
  if Word.bit val 0 then s.motStartNow
  else if Word.bit val 1 then s.applyNow
  else if Word.bit val 2 then s.resumeNow.schReached s
  else if Word.bit val 3 then { s with mot := { s.mot with trunPend := true } }
  else s

/-- MOT_RT_CMD, already accepted (R86). -/
def State.rtCmd (s : State) (val : Word) : State :=
  if Word.bit val 0 then s.homeStart
  else if Word.bit val 1 then s.recoverStart
  else if Word.bit val 2 then s.relevStart.schRelevFail
  else if Word.bit val 3 then s.abandonNow
  else s

/-- MOT page. -/
def State.applyMot (s : State) (o : Nat) (r : RegSpec) (val : Word) : State :=
  match o with
  | 0x40 => if s.targetOpen then s.hostCommit (Word.bits val 0 8) else s
  | 0xAC => s.motCmd val
  | 0x100 => s.rtCmd val
  | _ => s.storeReg (0x9000 + o) r val

/-- DRV_CMD.CNT_CLR: REPEATS, CRC_ERR and NAKS of DRV_LINK clear. -/
def State.drvCntClr (s : State) : State := s.wr drvLink 0

/-- DRV page. -/
def State.applyDrv (s : State) (o : Nat) (r : RegSpec) (val : Word) : State :=
  match o with
  | 0x90 =>
    let t := if Word.bit val 0 then s.faultReset else s
    if Word.bit val 1 then t.drvCntClr else t
  | _ => s.storeReg (0xA000 + o) r val

/-- SCH_CTRL.RUN clears (R119), and with it BID_CTRL.RUN. -/
def State.schStop (s : State) : State := (s.wf_ schCtrl 0 1 0).bidStop

/-- SCH_CTRL.RUN is written 1 (R118). -/
def State.schRunSet (s : State) : State := if s.rb schCtrl 0 then s else s.schRunNow

/-- SCH_DEST_ADD, already accepted (R122): a new entry, or the one held already; SCH_DEST_LAST names it. -/
def State.destAdd (s : State) (val : Word) : State :=
  let a := Word.bits val 0 8
  let b := Word.bits val 8 8
  let q := Word.bits val 16 16
  match s.sch.dests.find? (fun d => d.2.src == a && d.2.dst == b && d.2.seq == q) with
  | some d => s.wn schDestLast (0x8000 + d.1)
  | none => match s.freeDest with
    | none => s
    | some i => (s.wn schDestLast (0x8000 + i)).destPlace i a b q none

/-- SCH_DEST_DEL (R122): the slot is freed in any state; an entry held by award is released. -/
def State.destDel (s : State) (i : Nat) : State :=
  match alook s.sch.dests i with
  | none => s
  | some d => if d.state = .waiting then s.dropDest i 2
    else { s with sch := { s.sch with dests := adel s.sch.dests i } }

/-- SCH_CMD.RESTORE (R133). -/
def State.schRestore (s : State) : State := s.oosChange s.sch.oosHost false false

/-- SCH_CMD.CC_CLR_ALL: every car call and every RIDING entry. -/
def State.ccClrAll (s : State) : State :=
  { s with sch := { s.sch with
      cc := [], dests := s.sch.dests.filter (fun d => d.2.state != .riding)
      hereWait := s.sch.hereWait.filter (fun x => x.2 != 0) } }

/-- SCH page. -/
def State.applySch (s : State) (o : Nat) (r : RegSpec) (val : Word) : State :=
  match o with
  | 0x08 =>
    let was := s.rb schCtrl 0
    let t := (s.wf_ schCtrl 1 1 (Word.bits val 1 1)).oosHostNow (Word.bit val 1)
    if was && !Word.bit val 0 then t.schStop else if Word.bit val 0 then t.schRunSet else t
  | 0x40 => s.modeWrite val
  | 0x70 => s.destAdd val
  | 0x74 => s.destDel (Word.bits val 0 10)
  | 0x7C =>
    let s1 := if Word.bit val 0 then s.schRestore else s
    let s2 := if Word.bit val 1 then s1.ccClrAll else s1
    if Word.bit val 2 then s2.schEndHold else s2
  | _ => s.storeReg (0xB000 + o) r val

/-- BID_CMD.CNT_CLR. -/
def State.bidCntClr (s : State) : State := (s.wr bidCntRnd 0).wr bidCntErr 0

/-- BID_CMD.REJOIN (Table 8.3): an island listens again. -/
def State.bidRejoin (s : State) : State := if s.bid.member = .island then s.bidListen else s

/-- BID_QUERY: the evaluation follows at the next tick (Table 8.7). -/
def State.bidQuery (s : State) (val : Word) : State := { (s.wr Sys2Proof.Machine.bidQuery val) with bid := { s.bid with query := some val } }

/-- BID page. -/
def State.applyBid (s : State) (o : Nat) (r : RegSpec) (val : Word) : State :=
  match o with
  | 0x60 => s.bidQuery (val &&& 0x00FFFFFF)
  | 0x70 =>
    let s1 := if Word.bit val 0 then s.bidCntClr else s
    let s2 := if Word.bit val 1 then s1.releaseAll else s1
    if Word.bit val 2 then s2.bidRejoin else s2
  | _ => s.storeReg (0xC000 + o) r val

/-- DOORx_CMD.ARM_ADV (R171). -/
def State.doorArmHost (s : State) (c : Chan) : State := s.setDoor c { s.door c with hostArmed := true, armed := true }

/-- LEARN starts (R176): homing first. -/
def State.doorLearnStart (s : State) (c : Chan) : State :=
  let d := s.door c
  (s.setDoor c { d with
    plan := none, creep := true, homeTravel := 0, fCnt := 0, fHold := 0, learn := some ⟨0, 0, 0, 0, 0, 0, [], []⟩
    afterStop := none, defer := false, obsWait := false, waitReq := none }).doorInto c .learn

/-- Whether the cause of a fault is gone (Table 9.3): an overheated stage below 120 °C; any other fault of the stage no longer
reported by it. A slipped step and a missing closed stop do not last. -/
def Door.faultGone (d : Door) : Bool := if d.fault = 4 then decide (d.temp < 1200) else d.fltNow != d.fault

/-- CLR_FAULT (Table 9.3): POS_LOST sets when the encoder has counted more than half a step since. -/
def State.doorClrFault (s : State) (c : Chan) : State :=
  let d := s.door c
  if d.st = .fault ∧ d.faultGone then
    let t := if s.overHalfStep c (d.count - d.refCount).natAbs then s.doorLosePos c else s
    let lost := (t.door c).posLost
    (t.setDoor c { t.door c with fault := 0 }).doorInto c (if lost then .unref else .stopped)
  else s

/-- A host motion command is noted with its tick (R170). -/
def State.doorNoted (s : State) (c : Chan) (src : Src) (val : Word) : State :=
  if Word.bits val 0 3 != 0 ∨ Word.bits val 4 2 != 0 then s.setDoor c { s.door c with hostCmd := some (s.tick, src) } else s

/-- DOORx_CMD, already accepted. -/
def State.doorCmd (s : State) (c : Chan) (val : Word) : State :=
  if Word.bit val 0 then s.doorOpenAct c
  else if Word.bit val 1 then s.doorCloseAct c
  else if Word.bit val 2 then s.doorStopAct c
  else if Word.bit val 3 then s.doorArmHost c
  else if Word.bit val 4 then s.doorStartHome c
  else if Word.bit val 5 then s.doorLearnStart c
  else if Word.bit val 6 then s.doorClrFault c
  else s

/-- A door page; an axis taken out of use loses its stage. -/
def State.applyDoor (s : State) (src : Src) (c : Chan) (o : Nat) (r : RegSpec) (val : Word) : State :=
  match o with
  | 0x100 => (s.doorCmd c val).doorNoted c src val
  | 0x40 =>
    let t := s.storeReg (doorCfg (doorPage c)) r val
    if s.doorEn c && !t.doorEn c then t.doorPowerDown c else t
  | _ => s.storeReg (doorPage c * 4096 + o) r val

/-- SAFE_CMD.RESET, already accepted (R191). -/
def State.safeReset (s : State) (src : Src) : State := s.elClear (s.clearable (covers src))

/-- SAFE page (R211): an accepted configuration write takes effect in both channels, and the digests with it. -/
def State.applySafe (s : State) (src : Src) (o : Nat) (r : RegSpec) (val : Word) : State :=
  match o with
  | 0x8C => if Word.bit val 0 then s.safeReset src else s
  | _ => (s.storeReg (0x10000 + o) r val).elDigest

/-- LSF_RESTART (R227): the named slots wait, with a fresh confirmation. -/
def State.lsfRestartNow (s : State) (val : Word) : State :=
  each (bitsOf val.toNat 32) s (fun t k => t.setLsf k { t.lsfn k with st := .wait, conf := false })

/-- LSF_CMD.CNT_CLR. -/
def State.lsfCntClr (s : State) : State := each (List.range 32) s (fun t k => t.wr (lsfCnt k) 0)

/-- LSF page: a slot with an accepted write to its configuration starts over (R224). -/
def State.applyLsf (s : State) (o : Nat) (r : RegSpec) (val : Word) : State :=
  match o with
  | 0x50 => s.lsfRestartNow val
  | 0x54 => if Word.bit val 0 then s.lsfCntClr else s
  | _ =>
    let t := s.storeReg (0x11000 + o) r val
    if 0x200 ≤ o ∧ o < 0x600 then t.lsfStart ((o - 0x200) / 0x20) else t

/-- A controller leaves use: its pending objects are aborted (R246). -/
def State.canOff (s : State) (n : Nat) : State :=
  let t := s.canAbortAll n
  (t.setCan n { t.cann n with integrating := false }).canInto n .off

/-- A controller comes into use (R246): it integrates. -/
def State.canStart (s : State) (n : Nat) : State := s.setCan n { s.cann n with integrating := true }

/-- A host abort through CANn_TX_ABORT (R239). -/
def State.canAbortMask (s : State) (n : Nat) (val : Word) : State :=
  each (bitsOf val.toNat 32) s (fun t j => t.canAbort n j)

/-- A host request through CANn_TX_REQ (R237). -/
def State.canRequestMask (s : State) (n : Nat) (val : Word) : State :=
  each (bitsOf val.toNat 32) s (fun t j => t.canRequest n j)

/-- CANn_CMD.CNT_CLR. -/
def State.canCntClr (s : State) (n : Nat) : State := (s.wr (canCntFrm (canPage n)) 0).wr (canCntErr (canPage n)) 0

/-- CANn_CTRL.SLEEP (R244): 1 puts the controller to sleep, 0 wakes it with cause local. -/
def State.canSleepBit (s : State) (n : Nat) (on : Bool) : State := if on then s.canSleepNow n else s.canWakeNow n 4

/-- A CAN page. -/
def State.applyCan (s : State) (n o : Nat) (r : RegSpec) (val : Word) : State :=
  let pg := canPage n
  match o with
  | 0x08 => s.canSleepBit n (Word.bit val 1)
  | 0x40 =>
    let was := s.rb (canCfg pg) 5
    let t := s.storeReg (canCfg pg) r val
    if was && !Word.bit val 5 then t.canOff n else if !was && Word.bit val 5 then t.canStart n else t
  | 0x54 => s.canRequestMask n val
  | 0x58 => s.canAbortMask n val
  | 0xB8 => if Word.bit val 0 then s.canCntClr n else s
  | _ =>
    if 0x70 ≤ o ∧ o < 0x80 then each (bitsOf val.toNat 32) s (fun t i => t.canClrNew n (8 * (o - 0x70) + i))
    else if 0x80 ≤ o ∧ o < 0x90 then each (bitsOf val.toNat 32) s (fun t i => t.canClrLost n (8 * (o - 0x80) + i))
    else s.storeReg (pg * 4096 + o) r val

/-- FIO page. -/
def State.applyFio (s : State) (o : Nat) (r : RegSpec) (val : Word) : State :=
  match o with
  | 0x50 => if Word.bit val 0 then s.silAckNow else s
  | 0x40 => (s.storeReg (0x1C000 + o) r val).silEnable (s.rb fioCfg 0)
  | _ => s.storeReg (0x1C000 + o) r val

/-- FIOGg_CMD.GRP_CLR (R251): the group's shutdown latch clears. -/
def State.grpClr (s : State) (g : Nat) : State := s.setGrp g { s.grp g with grpOc := false }

/-- FIOGg_COS (R249): a 1 clears a recorded change, unless the change fell in this period. -/
def State.cosClear (s : State) (g : Nat) (val : Word) : State :=
  let a := fiogCos (grpPage g)
  s.wr a (s.rd a &&& ~~~(val &&& ~~~((s.grp g).cosNow)))

/-- A field-group page; a channel's configuration is applied by `chCfgApply` at its tick (R255). -/
def State.applyFiog (s : State) (g o : Nat) (r : RegSpec) (val : Word) : State :=
  match o with
  | 0x58 => s.outWrite g val true
  | 0x5C => s.outWrite g val false
  | 0x68 => s.cosClear g val
  | 0x84 => s.tsdClear g val
  | 0x88 => if Word.bit val 0 then s.grpClr g else s
  | _ => if 0x100 ≤ o ∧ o < 0x180 then s.chCfgApply g ((o - 0x100) / 4) (val &&& r.keepMask)
    else s.storeReg (grpPage g * 4096 + o) r val

/-- HOST_CMD.SEAL_OPEN (R269): in FIELD the seal opens for the session; elsewhere no effect. -/
def State.sealOpen (s : State) (src : Src) : State :=
  if s.lc = .field then { s with host := { s.host with sealBy := src.session } } else s

/-- HOST_CMD.CLOSE_OTHERS (R267). -/
def State.closeOthers (s : State) (src : Src) : State :=
  each ((List.range 4).filter (fun i => some i != src.session)) s (fun t i => t.sessEnd i)

/-- HOST page. -/
def State.applyHost (s : State) (src : Src) (o : Nat) (r : RegSpec) (val : Word) : State :=
  match o with
  | 0x64 =>
    let s1 := if Word.bit val 0 then s.wr hostCnt 0 else s
    let s2 := if Word.bit val 1 then s1.sealOpen src else s1
    if Word.bit val 2 then s2.closeOthers src else s2
  | _ => s.storeReg (0x4000 + o) r val

/-- ETHn_STATUS.LINK changes (R267, Table 14.12): LINK_CHG, and at a loss the port's sessions end. -/
def State.ethLink (s : State) (n : Nat) (up amp24 : Bool) (sqi : Nat) : State :=
  let a := ethStatus (n + 0x18)
  let was := s.rb a 0
  let far := s.rf_ a 1 1
  let t := s.wr a (pack [(0, 1, b2n up), (1, 1, far), (2, 1, b2n (up && amp24)), (4, 3, if up then sqi else 0)])
  let u := if was = up then t else t.raise (n + 0x18) 1
  if up then u
  else each (List.range 4) u (fun w i =>
    if ((nth w.host.sessions i none).map (fun (x : Session) => x.port)) = some (n + 1) then w.sessEnd i else w)

/-- ETHn_CMD.RENEG restarts auto-negotiation: the link is down until ETH_LINK_CHANGE shows it up. -/
def State.ethReneg (s : State) (n : Nat) : State := s.ethLink n false false 0

/-- ETHn_CMD.CNT_CLR. -/
def State.ethCntClr (s : State) (n : Nat) : State := (s.wr (ethCntFrm (n + 0x18)) 0).wr (ethCntErr (n + 0x18)) 0

/-- An Ethernet page. -/
def State.applyEth (s : State) (n o : Nat) (r : RegSpec) (val : Word) : State :=
  match o with
  | 0x58 =>
    let t := if Word.bit val 0 then s.ethCntClr n else s
    if Word.bit val 1 then t.ethReneg n else t
  | _ => s.storeReg ((n + 0x18) * 4096 + o) r val

/-- XBAR_CMD.CLR_PEAK. -/
def State.clrPeak (s : State) : State := { s with xbar := { s.xbar with peak := 0, clrAt := s.tick } }

/-- XBAR_CMD.CLR_FLT. -/
def State.clrFlt (s : State) : State := each (List.range 24) s (fun t i => t.wr (xbarFlt + 4 * i) 0)

/-- XBAR page. -/
def State.applyXbar (s : State) (o : Nat) (r : RegSpec) (val : Word) : State :=
  match o with
  | 0xB0 =>
    let t := if Word.bit val 0 then s.clrPeak else s
    if Word.bit val 1 then t.clrFlt else t
  | _ => s.storeReg (0x3000 + o) r val

/-- PART page. -/
def State.applyPart (s : State) (o : Nat) (r : RegSpec) (val : Word) : State :=
  match o with
  | 0x6C =>
    let s1 := if Word.bit val 2 then s.wr partCnt 0 else s
    let s2 := if Word.bit val 1 then s1.resyncNow else s1
    if Word.bit val 0 then s2.xchNow else s2
  | _ => s.storeReg (0x28000 + o) r val

/-- REC_CMD.FLUSH (R308). -/
def State.flushAsk (s : State) : State := { s with rcd := { s.rcd with flushReq := true } }

/-- A write to REC_RD_SEQ (R311). -/
def State.readAsk (s : State) (val : Word) : State := { (s.wr recRdSeq val) with rcd := { s.rcd with rdPend := true } }

/-- REC_CMD.CNT_CLR: REC_LOST clears. -/
def State.recCntClr (s : State) : State := s.wr recLost 0

/-- REC page. -/
def State.applyRec (s : State) (o : Nat) (r : RegSpec) (val : Word) : State :=
  match o with
  | 0x78 => s.readAsk val
  | 0x80 =>
    let s1 := if Word.bit val 1 then s.wallSet else s
    let s2 := if Word.bit val 2 then s1.hostFire (Word.bits val 8 6) else s1
    let s3 := if Word.bit val 3 then s2.recCntClr else s2
    if Word.bit val 0 then s3.flushAsk else s3
  | _ => s.storeReg (0x2C000 + o) r val

/-- KEY page: the buffer window writes the bank that KEY_BUF_BANK selects. -/
def State.applyKey (s : State) (src : Src) (o : Nat) (r : RegSpec) (val : Word) : State :=
  if o = 0x40 then s.keyAccept src val
  else if 0x800 ≤ o then
    s.wr (keyBufAt (s.rf_ keyBufBank 0 2) ((o - 0x800) / 4)) val
  else s.storeReg (0x30000 + o) r val

/-- TAMP page: a source that is enabled while active is a tamper event (R331, R332). -/
def State.applyTamp (s : State) (o : Nat) (r : RegSpec) (val : Word) : State :=
  match o with
  | 0x50 => if Word.bit val 0 then s.tampRelease else s
  | _ =>
    let was := s.tampEnabled
    let t := s.storeReg (0x31000 + o) r val
    let new := t.tampEnabled &&& (15 ^^^ was) &&& s.tamp.active.toNat
    if new != 0 then t.tampered new else t

/-- CLK_GATE (R345, R346): gates that stop wait for their drain; gates that start run at the next tick. -/
def State.gateWrite (s : State) (port : Nat) (val : Word) : State :=
  let cur := s.rd clkGate
  if (cur &&& ~~~val) = 0 then s.wr clkGate val
  else { s with clk := { s.clk with drain := some (port, val) } }

/-- CLK page. -/
def State.applyClk (s : State) (src : Src) (o : Nat) (r : RegSpec) (val : Word) : State :=
  match o with
  | 0x4C => s.gateWrite src.port val
  | 0x54 =>
    let t := s.storeReg clkOutCfg r val
    { t with clk := { t.clk with outPend := some (t.rd clkOutCfg) } }
  | _ => s.storeReg (0x1000 + o) r val

/-- SYS_PROFILE_OVR (R359): EN = 0 disarms and clears ADOPTED. -/
def State.ovrWrite (s : State) (val : Word) : State :=
  let en := Word.bit val 8
  let old := s.rd sysProfileOvr
  let t := s.wr sysProfileOvr (pack [(0, 2, Word.bits val 0 2), (8, 1, b2n en), (9, 1, if en then Word.bits old 9 1 else 0)])
  if en then t else { t with sys := { t.sys with slotOvr := false } }

/-- SYS_PROF_DATA (R360): a word goes to the staging buffer and PTR advances. -/
def State.profData (s : State) (val : Word) : State :=
  let p := s.rn sysProfPtr
  if p < 5120 then ({ s with sys := { s.sys with staging := s.sys.staging.put 0 p val } }).wn sysProfPtr (p + 1) else s

/-- SYS_CMD.SOFT_RST: a SOFT reset (Table 19.1). -/
def State.softReset (s : State) : State := s.resetBy .soft

/-- PWR_CMD, already accepted: PARK, RUN, DEEP (R362 to R364). -/
def State.pwrCmd (s : State) (val : Word) : State :=
  if Word.bit val 0 then s.parkNow
  else if Word.bit val 1 then s.parkEnd .host
  else if Word.bit val 2 then s.deepNow
  else s

/-- SYS page. -/
def State.applySys (s : State) (o : Nat) (r : RegSpec) (val : Word) : State :=
  match o with
  | 0x50 => s.ovrWrite val
  | 0x74 => s.profData val
  | 0x78 =>
    let t := if Word.bit val 1 then s.profStoreNow (Word.bits val 2 2) else s
    if Word.bit val 0 then t.softReset else t
  | _ => s.storeReg o r val

/-- PWR page. -/
def State.applyPwr (s : State) (o : Nat) (r : RegSpec) (val : Word) : State :=
  match o with
  | 0x54 => s.pwrCmd val
  | _ => s.storeReg (0x2000 + o) r val

/-- A word of the CAN object window (Table 12.3). -/
def State.applyCanWin (s : State) (a : Nat) (val : Word) : State :=
  match canWin a with
  | none => s
  | some (_, true, _, _) => s.wr a val
  | some (n, false, i, o) =>
    if o = 0 then s.wr a val
    else
      let t := if Word.bit val 16 then s.canClrNew n i else s
      if Word.bit val 17 then t.canClrLost n i else t

/-- A word of the call table (R121), its place decoded. -/
def State.applyCallAt (s : State) (c : CallArea) (val : Word) : State :=
  match c with
  | .set kind w => (if s.sys.run = .park then s.parkEnd .fieldOrCall else s).callSetNow kind w val
  | .clr kind w => s.callClrNow kind w val
  | .map | .entry | .none => s

/-- A word of the call table. -/
def State.applyCall (s : State) (a : Nat) (val : Word) : State := s.applyCallAt (callArea a) val

/-- A word of the landing table (R119); Electrum's landing copy follows (R184). -/
def State.applyLt (s : State) (a : Nat) (val : Word) : State := (s.ltWrite a val).elDigest

/-- A write to a block register, already accepted. -/
def State.applyPage (s : State) (src : Src) (pg o : Nat) (r : RegSpec) (val : Word) : State :=
  match pg with
  | 0x00 => s.applySys o r val
  | 0x01 => s.applyClk src o r val
  | 0x02 => s.applyPwr o r val
  | 0x03 => s.applyXbar o r val
  | 0x04 => s.applyHost src o r val
  | 0x08 => s.applyPos o r val
  | 0x09 => s.applyMot o r val
  | 0x0A => s.applyDrv o r val
  | 0x0B => s.applySch o r val
  | 0x0C => s.applyBid o r val
  | 0x0D => s.applyDoor src .a o r val
  | 0x0E => s.applyDoor src .b o r val
  | 0x10 => s.applySafe src o r val
  | 0x11 => s.applyLsf o r val
  | 0x1C => s.applyFio o r val
  | 0x28 => s.applyPart o r val
  | 0x2C => s.applyRec o r val
  | 0x30 => s.applyKey src o r val
  | 0x31 => s.applyTamp o r val
  | 0x34 => s.applyLwb o r val
  | _ =>
    if 0x14 ≤ pg ∧ pg ≤ 0x17 then s.applyCan (pg - 0x14) o r val
    else if 0x18 ≤ pg ∧ pg ≤ 0x1A then s.applyEth (pg - 0x18) o r val
    else if 0x1D ≤ pg ∧ pg ≤ 0x24 then s.applyFiog (pg - 0x1C) o r val
    else s

/-- An accepted write takes effect. -/
def State.applyWrite (s : State) (src : Src) (a : Nat) (val : Word) : State :=
  if a < 0x100000 then
    match s.applyHead (a / 4096) (a % 4096) val with
    | some t => t
    | none => match regAt a with
      | none => s
      | some r => s.applyPage src (a / 4096) (a % 4096) r val
  else if a < 0x140000 then s.applyCanWin a val
  else if a < 0x150000 then s.applyCall a val
  else s.applyLt a val

/-- A refused write (R31), with what three rules add: LIM_REJECTED (R80), SCH_LT_FAULT (R118), RELEV_BLOCKED (R93). -/
def State.refuse (s : State) (src : Src) (a : Nat) (val : Word) (code : Nat) : State :=
  let t := s.reject src a code
  if a = Sys2Proof.Machine.motCmd ∧ Word.bit val 1 ∧ !multi val 4 then t.raise pgMot 5
  else if a = Sys2Proof.Machine.schCtrl ∧ code = 0x40 then t.ltFaultNote s
  else if a = Sys2Proof.Machine.motRtCmd ∧ val = 4 ∧ code = 2 ∧ s.relevWanted ∧ !s.relevMay then t.relevBlock
  else t

/-- A host write judged and, where nothing refuses it, made: the state after, and the refusal's code. -/
def State.hostWrite (s : State) (src : Src) (a : Nat) (val : Word) : State × Option Nat :=
  match s.judge src a val with
  | none => (s.applyWrite src a val, none)
  | some c => (s.refuse src a val c, some c)

/-- A command that is a write to a register (the rows of the table that name one): none without a host port. -/
def State.command (s : State) (src : Src) (a : Nat) (val : Word) : State :=
  if s.up_ then (s.hostWrite src a val).1 else s

end Sys2Proof.Machine
end

