-- ==== Sys2Proof/Machine/HostOps.lean ====
section
/-! DEFINITION. The host port (chapter 14): LRP requests and responses, sessions and their envelopes, the SPI and
Ethernet ports, M8's budget, and the writes that wait for their tick (R14, R80). -/

namespace Sys2Proof.Machine

/-- Registers whose write is checked in the period it takes effect (R80): TARGET, HORIZON, CMD, RT_CMD. -/
def checkedAddr (a : Nat) : Bool := a == motTarget || a == motHorizon || a == motCmd || a == motRtCmd

/-- Addresses whose writes wait for the next tick (R14, R255): the pages POS to DOORR, their tables, the channel
configurations. -/
def deferredAddr (a : Nat) : Bool :=
  (decide (0x8000 ≤ a) && decide (a < 0xF000)) || (decide (0x140000 ≤ a) && decide (a < 0x154000)) ||
    (decide (0x1D000 ≤ a) && decide (a < 0x25000) && decide (0x100 ≤ a % 4096) && decide (a % 4096 < 0x180))

/-- The state with the waiting writes made, against which a further one is judged (R14: completion order). -/
def State.preview (s : State) : State :=
  s.host.deferred.foldl (fun t d => if checkedAddr d.addr || d.refused.isSome then t else t.applyWrite d.src d.addr d.val) s

/-- A write waits for its tick. -/
def State.defer_ (s : State) (d : Deferred) : State := { s with host := { s.host with deferred := s.host.deferred ++ [d] } }

/-- A refusal on a page of R14 is recorded at once, or behind a clear of its ERR that waits (R24: completion order). -/
def State.refuseLater (s : State) (src : Src) (a : Nat) (val : Word) (c : Nat) : State :=
  if s.host.deferred.any (fun d => d.addr == errPage a * 4096 + 0x10) then s.defer_ ⟨src, a, val, none, some c⟩
  else s.refuse src a val c

/-- The execution of one written word that is not checked under R80: made now, or kept for the tick. -/
def State.hostExec (s : State) (src : Src) (a : Nat) (val : Word) : State × Option Nat :=
  if deferredAddr a then
    match s.preview.judge src a val with
    | none => (s.defer_ ⟨src, a, val, none, none⟩, none)
    | some c =>
      let t := s.refuseLater src a val c
      (if a = schCtrl ∧ c = 0x40 then t.ltFaultNote s.preview else t, some c)
  else s.hostWrite src a val

/-- HOST_REGISTER_WRITE (R14, R21, R31): one register write as the register path executes it; an access narrower than 32
bits is refused with E_ALIGN. -/
def State.registerWrite (s : State) (src : Src) (a : Nat) (val : Word) (narrow : Bool) : State :=
  if !s.up_ then s
  else if narrow then s.refuseLater src a val 8
  else if checkedAddr a then s.defer_ ⟨src, a, val, none, none⟩
  else (s.hostExec src a val).1

/-- The words of a burst write in address order, one that runs past 0xFF_FFFF not wrapping (log entry 195; R32, R80): done words and status once the burst has ended, none while
it goes on at a tick or the module has gone down. -/
def State.writeWords (s : State) (via : Via) (req : List Byte) (src : Src) :
    Nat → List Word → Nat → State × Option (Nat × Nat)
  | _, [], done => (s, some (done, 0))
  | a, w :: r, done =>
    if !s.up_ then (s, none)
    else if checkedAddr a then (s.defer_ ⟨src, a, w, some ⟨via, req, src, a + 4, r, done⟩, none⟩, none)
    else match s.hostExec src a w with
      | (t, some c) => (t, some (done, c))
      | (t, none) => t.writeWords via req src (a + 4) r (done + 1)

/-- The words of a burst read (R263): the words read, and the status. The address does not wrap (log entry 195). -/
def State.readWords (s : State) (src : Src) : Nat → Nat → List Word × Nat
  | 0, _ => ([], 0)
  | n + 1, a =>
    if a % 4 ≠ 0 then ([], 8)
    else if !s.winPass src a false then ([], 5)
    else
      let (l, c) := s.readWords src n (a + 4)
      (s.readWord a :: l, c)

/-- A DMA fault of a master is recorded (R276). -/
def State.dmaFault (s : State) (m a code bytes : Nat) : State :=
  let n := min (s.rf_ (xbarFlt + 8 * m + 4) 24 8 + 1) 255
  ((s.wn (xbarFlt + 8 * m) (a % 16777216)).wr (xbarFlt + 8 * m + 4) (pack [(0, 8, code), (8, 16, bytes), (24, 8, n)])).raise pgXbar 2

/-- A burst of more than one word that has stopped is an M8 transfer with a fault (R276). -/
def State.burstStop (s : State) (src : Src) (a done words status : Nat) (write : Bool) : State :=
  if status = 0 ∨ words < 2 then s
  else s.dmaFault 8 (a + 4 * done) (if s.winPass src (a + 4 * done) write then 2 else 1) (4 * done)

/-- OP, start address and words of a request (Table 14.1). -/
def lrpOp (q : List Byte) : Nat := byteAt q 0
/-- The start address of a request. -/
def lrpAddr (q : List Byte) : Nat := leNat (slice q 2 3)
/-- The words a request addresses. -/
def lrpCount (q : List Byte) : Nat := byteAt q 5 + 1

/-- The length of a request with a valid OP (Table 14.1). -/
def lrpLength (q : List Byte) : Nat :=
  match lrpOp q with
  | 2 => 8 + 4 * lrpCount q
  | 3 => 28
  | _ => 8

/-- A request's OP is valid (R262). -/
def lrpValid (q : List Byte) : Bool := decide (1 ≤ lrpOp q) && decide (lrpOp q ≤ 5)

/-- The length agrees with OP and COUNT, and the CRC is right (R263). -/
def lrpSound (q : List Byte) : Bool :=
  q.length == lrpLength q && (lrpOp q != 3 || lrpCount q == 5) && crc16Bytes (q.take (q.length - 2)) == q.drop (q.length - 2)

/-- A response (Table 14.2). -/
def lrpAnswer (q : List Byte) (status done : Nat) (data : List Byte) : List Byte :=
  let body := natLe 1 (lrpOp q + 0x80) ++ natLe 1 (byteAt q 1) ++ natLe 1 status ++ natLe 2 done ++ data
  body ++ crc16Bytes body

/-- The written words of a request. -/
def lrpWords (q : List Byte) : List Word := leWords (slice q 6 (4 * lrpCount q))

/-- What M8 is charged for words, 4 cycles each (R263). -/
def State.charge (s : State) (n : Nat) : State :=
  { s with host := { s.host with budget := s.host.budget - n }, xbar := { s.xbar with used := s.xbar.used + n } }

/-- A session. -/
def State.sess (s : State) (i : Nat) : Option Session := nth s.host.sessions i none

/-- Replace a session. -/
def State.setSess (s : State) (i : Nat) (x : Session) : State :=
  { s with host := { s.host with sessions := s.host.sessions.set i (some x) } }

/-- The source a path stands for (R268); none when its session is gone or not open, and for a plain datagram, which may only
open a session. -/
def State.viaSrc (s : State) : Via → Option Src
  | .spi => some Src.spi
  | .plain _ _ => none
  | .session i => match s.sess i with
    | none => none
    | some x => if x.isOpen then some ⟨x.port, x.world, some i⟩ else none

/-- A frame sent on an Ethernet port (R270): its kind (0 ARP reply, 1 echo reply, 2 UDP), the peer, the payload. -/
def State.ethSend (s : State) (n kind : Nat) (peer payload : List Byte) : State :=
  let t := { s with host := { s.host with ethOut := s.host.ethOut ++ [(n, natLe 1 kind ++ peer ++ payload)] } }
  t.bump (ethCntFrm (n + 0x18)) 16 16

/-- The envelope of a session's next response (R265). -/
def sealEnvelope (x : Session) (frame : List Byte) : List Byte :=
  let head := natLe 2 x.sid ++ natLe 8 (x.ctrOut + 1)
  let (ct, tag) := Config.gcmSeal x.key (x.saltOut ++ natLe 8 (x.ctrOut + 1)) head frame
  head ++ ct ++ tag

/-- A response leaves by the path its request came (R264, R265, R270). CTR at its end ends the session (R267). -/
def State.lrpSend (s : State) (via : Via) (resp : List Byte) : State :=
  match via with
  | .spi => { s with host := { s.host with spiResp := some resp } }
  | .plain port peer => s.ethSend (port - 1) 2 peer resp
  | .session i => match s.sess i with
    | none => s
    | some x =>
      let e := sealEnvelope x resp
      let t := s.setSess i { x with ctrOut := x.ctrOut + 1 }
      let u := if x.port = 0 then { t with host := { t.host with spiResp := some e } } else t.ethSend (x.port - 1) 2 x.peer e
      if x.ctrOut + 1 = 2 ^ 64 - 1 then u.sessEnd i else u

/-- The last executed request of a path and its response (R263). -/
def State.lastOf (s : State) : Via → Option (List Byte × List Byte)
  | .spi => s.host.spiLast
  | .plain _ _ => none
  | .session i => (s.sess i).bind (fun x => x.lastReq)

/-- Keep an executed request with its response. -/
def State.keepLast (s : State) (via : Via) (q resp : List Byte) : State :=
  match via with
  | .spi => { s with host := { s.host with spiLast := some (q, resp) } }
  | .plain _ _ => s
  | .session i => match s.sess i with
    | none => s
    | some x => s.setSess i { x with lastReq := some (q, resp) }

/-- An executed request is answered; a module that has gone down answers nothing. -/
def State.lrpRespond (s : State) (via : Via) (q resp : List Byte) : State :=
  if s.up_ then (s.keepLast via q resp).lrpSend via resp else s

/-- A burst write has ended: its fault, if it stopped, and its response. -/
def State.writeEnded (s : State) (via : Via) (q : List Byte) (src : Src) (done status : Nat) : State :=
  (s.burstStop src (lrpAddr q) done (lrpCount q) status true).lrpRespond via q (lrpAnswer q status done [])

/-- The first free session place (R266). -/
def freeSess (l : List (Option Session)) : Option Nat := (List.range 4).find? (fun i => (nth l i none).isNone)

/-- The refusals of an OPEN (R266). -/
def State.openCodes (s : State) (port keyId : Nat) : List Nat :=
  let busy := s.host.sessions.any (fun x => match x with
    | none => false
    | some y => y.world != .control)
  ifC s.tamp.tampered 0xF ++
  (match (s.slotOfId keyId).bind (fun n => s.slotKey n) with
   | none => [0xB]
   | some k => ifC (!s.keyMay k.head port 0) 0xB ++ ifC (worldOf (byteAt k.head 5) != .control && busy) 4) ++
  ifC (freeSess s.host.sessions).isNone 0xD

/-- OPEN (R266): the session becomes PENDING; the response. -/
def State.openSession (s : State) (port : Nat) (peer q : List Byte) : State × List Byte :=
  let keyId := leNat (slice q 6 2)
  match firstCode (s.openCodes port keyId), s.slotOfId keyId, freeSess s.host.sessions with
  | none, some n, some i =>
    match s.slotKey n with
    | none => (s, lrpAnswer q 0xB 0 [])
    | some k =>
      let nh := slice q 10 16
      let nm := s.randBytes 16
      let sid := (Config.sidBase + s.host.sidNext) % 65536
      let out := Config.hkdf k.plain (nh ++ nm) (ascii "LRP1" ++ natLe 1 port ++ natLe 2 sid) 40
      let x : Session := {
        isOpen := false, port := port, world := worldOf (byteAt k.head 5), keyId := keyId, slot := n, sid := sid
        key := slice out 0 32, saltIn := slice out 32 4, saltOut := slice out 36 4, ctrIn := 0, ctrOut := 0
        lastAt := s.tick, lastReq := none, peer := peer }
      let tag := (Config.gcmSeal x.key (x.saltOut ++ natLe 8 0) (nh ++ nm ++ natLe 2 sid) []).2
      let t := s.draw.setSess i x
      ({ t with host := { t.host with sidNext := t.host.sidNext + 1 } }, lrpAnswer q 0 0 (natLe 2 sid ++ nm ++ tag))
  | some c, _, _ => (s, lrpAnswer q c 0 [])
  | none, _, _ => (s, lrpAnswer q 0xB 0 [])

/-- The port of a path. -/
def State.viaPort (s : State) : Via → Nat
  | .spi => 0
  | .plain port _ => port
  | .session i => ((s.sess i).map (fun (x : Session) => x.port)).getD 0

/-- The peer of a path, kept for the session it opens. -/
def State.viaPeer (s : State) : Via → List Byte
  | .spi => []
  | .plain _ peer => peer
  | .session i => ((s.sess i).map (fun (x : Session) => x.peer)).getD []

/-- The words of a request that are executed when it completes: those before the first checked one (R80). -/
def wordsBefore : Nat → Nat → Nat
  | 0, _ => 0
  | n + 1, a => if checkedAddr a then 0 else wordsBefore n (a + 4) + 1

/-- M8's charge for the execution of a request (R263). -/
def lrpCharge (q : List Byte) : Nat :=
  match lrpOp q with
  | 1 => 4 * lrpCount q
  | 2 => 4 * wordsBefore (lrpCount q) (lrpAddr q)
  | _ => 4

/-- An OPEN is executed on the path it came by (R266). -/
def State.openNow (s : State) (via : Via) (q : List Byte) : State :=
  let (u, resp) := (s.charge 4).openSession (s.viaPort via) (s.viaPeer via) q
  u.lrpRespond via q resp

/-- A request is executed (R263); a plain datagram may only open a session. -/
def State.lrpExecute (s : State) (via : Via) (q : List Byte) : State :=
  match s.viaSrc via with
  | none => (match via with
    | .plain _ _ => if lrpOp q = 3 then s.openNow via q else s
    | _ => s)
  | some src =>
    let t := s.charge (lrpCharge q)
    match lrpOp q with
    | 1 =>
      let (l, c) := t.readWords src (lrpCount q) (lrpAddr q)
      (t.burstStop src (lrpAddr q) l.length (lrpCount q) c false).lrpRespond via q
        (lrpAnswer q c l.length (l.flatMap wordLe))
    | 2 => match t.writeWords via q src (lrpAddr q) (lrpWords q) 0 with
      | (u, none) => u
      | (u, some (done, status)) => u.writeEnded via q src done status
    | 3 => s.openNow via q
    | 4 =>
      let u := t.lrpRespond via q (lrpAnswer q 0 0 [])
      (match via with
       | .session i => u.sessEnd i
       | _ => u)
    | _ => t.lrpRespond via q (lrpAnswer q 0 0 [])

/-- M8 has used up its budget (R273): OVR; the request waits. -/
def State.overrun8 (s : State) : State := (s.wf_ xbarOvr 8 1 1).raise pgXbar 1

/-- A sound request is executed now, answered again from the store, or waits for the next period (R263). -/
def State.lrpAdmit (s : State) (via : Via) (q : List Byte) : State :=
  match s.lastOf via with
  | some (q0, resp) =>
    if q0 = q then s.lrpSend via resp
    else if lrpCharge q ≤ s.host.budget then s.lrpExecute via q
    else { s with host := { s.host with waiting := s.host.waiting ++ [(via, q)] } }.overrun8
  | none =>
    if lrpCharge q ≤ s.host.budget then s.lrpExecute via q
    else { s with host := { s.host with waiting := s.host.waiting ++ [(via, q)] } }.overrun8

/-- A transport failure is answered and counted (R263): nothing executes. -/
def State.lrpFault (s : State) (via : Via) (q : List Byte) (op : Bool) : State :=
  if op then (s.bump hostCnt 24 8).lrpSend via (lrpAnswer q 0x11 0 [])
  else ((s.bump hostCnt 0 8).raise pgHost 3).lrpSend via (lrpAnswer q 0x10 0 [])

/-- An authentication failure is counted (R265, R268). -/
def State.authFail (s : State) : State := (s.bump hostCnt 8 8).raise pgHost 4

/-- A complete LRP request (R263, R268). -/
def State.lrpRequest (s : State) (via : Via) (q0 : List Byte) : State :=
  if !s.up_ || (s.viaSrc via).isNone then s
  else
    let q := if via = .spi ∧ lrpValid q0 then q0.take (lrpLength q0) else q0
    if !lrpValid q then s.lrpFault via q true
    else if !lrpSound q then s.lrpFault via q false
    else if via = .spi ∧ !s.rb hostCfg 1 ∧ lrpOp q ≠ 3 then s.authFail.lrpSend via (lrpAnswer q 5 0 [])
    else
      let t := if via = .spi ∧ !s.rb hostCfg 1 then s else s.silFrame
      t.lrpAdmit via q

/-- The requests that waited are executed in the next period, oldest first, while the budget lasts; one that repeats the
request executed last is answered from the store (R263). -/
def State.runWaiting (s : State) : State :=
  let l := s.host.waiting
  l.foldl (fun t r => t.lrpAdmit r.1 r.2) { s with host := { s.host with waiting := [] } }

/-- The session of an envelope: its SID on its port. -/
def State.sessOf (s : State) (port sid : Nat) : Option (Nat × Session) :=
  (List.range 4).findSome? (fun i => match s.sess i with
    | none => none
    | some x => if x.port = port ∧ x.sid = sid then some (i, x) else none)

/-- A session envelope (R265 to R267): authenticated, not a replay, its frame executed. -/
def State.envelope (s : State) (port : Nat) (peer l : List Byte) : State :=
  if !s.up_ then s
  else
    let head := slice l 0 10
    let ctr := leNat (slice l 2 8)
    let ct := slice l 10 (l.length - 26)
    match s.sessOf port (leNat (slice l 0 2)) with
    | none => s.authFail
    | some (i, x) =>
      if l.length < 26 then s.authFail
      else match Config.gcmOpen x.key (x.saltIn ++ slice l 2 8) head ct (l.drop (l.length - 16)) with
        | none => s.authFail
        | some q =>
          if ctr ≤ x.ctrIn then s.bump hostCnt 16 8
          else
            let t := s.setSess i { x with ctrIn := ctr, lastAt := s.tick, isOpen := true, peer := peer }
            let u := if x.isOpen then t else t.raise pgHost 1
            let w := u.lrpRequest (.session i) q
            if ctr = 2 ^ 64 - 1 then w.sessEnd i else w

/-- An SPI transaction (R264): what the module clocks out, then the request or envelope it carries. -/
def State.spi (s : State) (mosi : List Byte) : State :=
  if !s.up_ || !s.rb hostCfg 0 || mosi.isEmpty then s
  else
    let out := (s.host.spiResp.getD [] ++ List.replicate mosi.length 0).take mosi.length
    let t := { s with host := { s.host with spiOut := out, spiResp := none } }
    if byteAt mosi 0 = 0 then t
    else if byteAt mosi 0 = 6 then t.envelope 0 [] (slice mosi 3 (leNat (slice mosi 1 2)))
    else t.lrpRequest .spi mosi

/-- A plain OPEN over UDP (R266, R270): executed now, or once M8's budget allows. -/
def State.ethOpen (s : State) (n : Nat) (peer q : List Byte) : State :=
  if !s.up_ then s
  else if !lrpSound q then s.lrpFault (.plain (n + 1) peer) q false
  else s.lrpAdmit (.plain (n + 1) peer) q

/-- A number sent most significant byte first. -/
def beNat (l : List Byte) : Nat := leNat l.reverse

/-- The bytes of an Ethernet port's own MAC address (R270). -/
def macOf (n : Nat) : List Byte := (List.range 6).map (Config.mac n)

/-- A frame a port does not take (R270). -/
def State.ethUnknown (s : State) (n : Nat) : State := s.bump (ethCntErr (n + 0x18)) 16 8

/-- A UDP datagram for the register port (R265, R270): a plain OPEN, else an envelope. -/
def State.datagram (s : State) (n : Nat) (peer payload : List Byte) : State :=
  if payload.length = 28 ∧ lrpOp payload = 3 then s.ethOpen n peer payload else s.envelope (n + 1) peer payload

/-- A received frame with a good FCS is judged and answered (R270); `f` ends with its FCS. -/
def State.ethTake (s : State) (n : Nat) (f : List Byte) : State :=
  let ip := s.rn (ethIp (n + 0x18))
  let typ := beNat (slice f 12 2)
  let src := slice f 6 6
  let mine := slice f 0 6 == macOf n
  let all := (slice f 0 6).all (fun b => b == 0xFF)
  if f.length < 64 ∨ 1518 < f.length ∨ ip = 0 then s.ethUnknown n
  else if typ = 0x0806 ∧ (mine || all) ∧ beNat (slice f 14 8) = 0x0001080006040001 ∧ beNat (slice f 38 4) = ip then
    s.ethSend n 0 (src ++ slice f 28 4) []
  else if typ = 0x0800 ∧ mine ∧ byteAt f 14 = 0x45 ∧ beNat (slice f 20 2) % 16384 = 0 ∧ beNat (slice f 30 4) = ip then
    let len := beNat (slice f 16 2)
    let peer := src ++ slice f 26 4
    if byteAt f 23 = 1 ∧ beNat (slice f 34 2) = 0x0800 ∧ s.rb (ethCfg (n + 0x18)) 1 then
      s.ethSend n 1 peer (slice f 38 (len - 24))
    else if byteAt f 23 = 17 ∧ beNat (slice f 36 2) = 49731 then
      s.datagram n (peer ++ slice f 34 2) (slice f 42 (beNat (slice f 38 2) - 8))
    else s.ethUnknown n
  else s.ethUnknown n

/-- A frame arrives on a port (R270, R273): with M7's budget used up it waits in the buffer. -/
def State.ethRx (s : State) (n : Nat) (fcsOk : Bool) (f : List Byte) : State :=
  if !s.up_ || !s.rb (ethCfg (n + 0x18)) 0 || s.gated (n + 0x18) || s.clk.fallback then s
  else if !fcsOk then s.bump (ethCntErr (n + 0x18)) 0 8
  else
    let t := s.bump (ethCntFrm (n + 0x18)) 0 16
    if t.host.netOut then
      (if 16 ≤ (t.host.ethBuf.filter (fun e => e.1 == n)).length then t.bump (ethCntErr (n + 0x18)) 8 8
       else { t with host := { t.host with ethBuf := t.host.ethBuf ++ [(n, f)] } })
    else t.ethTake n f

/-- The buffered frames are taken at the next tick, oldest first. -/
def State.ethDrain (s : State) : State :=
  let l := s.host.ethBuf
  l.foldl (fun t e => t.ethTake e.1 e.2) { s with host := { s.host with ethBuf := [], netOut := false } }

/-- What waits for `checkedAll`: the checked writes, and behind them clears of MOT's ERR and the refusals after one (R24). -/
def Deferred.late (d : Deferred) : Bool :=
  checkedAddr d.addr || d.addr == 0x9010 || (d.refused.isSome && errPage d.addr == pgMot)

/-- The rank of a motion command of an axis in Table 9.5: STOP, OPEN, CLOSE. -/
def doorRank (val : Word) : Nat := if Word.bit val 2 then 6 else if Word.bit val 0 then 7 else if Word.bit val 1 then 8 else 9

/-- Whether a waiting command of a door axis has a higher one of the same period beside it (R170). -/
def Deferred.outranked (d : Deferred) (l : List Deferred) : Bool :=
  (d.addr == doorCmd (doorPage .a) || d.addr == doorCmd (doorPage .b)) && doorRank d.val < 9 &&
    l.any (fun e => e.addr == d.addr && e.refused.isNone && decide (doorRank e.val < doorRank d.val))

/-- A waiting write is made, or a waiting refusal recorded. -/
def State.deferredDo (s : State) (d : Deferred) : State :=
  match d.refused with
  | none => s.applyWrite d.src d.addr d.val
  | some c => s.refuse d.src d.addr d.val c

/-- A checked write in its period (R80): refused it ends its burst; accepted it acts, and the words after it go on. -/
def State.checkedNow (s : State) (d : Deferred) : State :=
  let t := if d.burst.isSome then s.charge 4 else s
  match t.hostWrite d.src d.addr d.val, d.burst with
  | (u, _), none => u
  | (u, some c), some b => u.writeEnded b.via b.req b.src b.done c
  | (u, none), some b =>
    match (u.charge (4 * wordsBefore b.words.length b.addr)).writeWords b.via b.req b.src b.addr b.words (b.done + 1) with
    | (w, none) => w
    | (w, some (done, status)) => w.writeEnded b.via b.req b.src done status

/-- The writes that wait are made at the tick, in completion order (R14); the checked ones are left for `checkedAll`. -/
def State.deferredNow (s : State) : State × List Deferred :=
  let l := s.host.deferred
  let t := { s with host := { s.host with deferred := [] } }
  ((l.filter (fun d => !d.late)).foldl (fun u d =>
    u.deferredDo (if d.outranked l && d.refused.isNone then { d with refused := some 2 } else d)) t, l.filter (fun d => d.late))

/-- A request that would move the car: discarded with E_STATE after an Electrum demand of the same period (R17). A target
or horizon is judged by its phase (Table 4.4). -/
def movesCar (d : Deferred) : Bool :=
  (d.addr == motCmd && (Word.bit d.val 0 || Word.bit d.val 2)) || (d.addr == motRtCmd && Word.bits d.val 0 3 != 0)

/-- Several bits of MOT_CMD: E_RANGE and nothing else is checked (R80). -/
def manyMotBits (d : Deferred) : Bool := d.addr == motCmd && multi d.val 4

/-- The code of a checked write that is discarded (R17): E_STATE, or a reason that goes before it in R31; several bits of
MOT_CMD give E_RANGE and nothing else (R80). -/
def State.dropCode (s : State) (d : Deferred) : Nat :=
  match s.judge d.src d.addr d.val with
  | none => 2
  | some c => if errRank c < errRank 2 || manyMotBits d then c else 2

/-- A checked write that is discarded with E_STATE (R17). -/
def State.checkedDrop (s : State) (d : Deferred) : State :=
  let c := s.dropCode d
  let u := s.refuse d.src d.addr d.val c
  match d.burst with
  | none => u
  | some b => u.writeEnded b.via b.req b.src b.done c

/-- The checked writes of a period, in completion order, after the Stop evaluation phase (R80). `tripped`: Electrum has
demanded the safe state, or authority was lost, in this period (R17). -/
def State.checkedAll (s : State) (l : List Deferred) (tripped : Bool) : State :=
  l.foldl (fun t d => if !checkedAddr d.addr then t.deferredDo d else if tripped && movesCar d then t.checkedDrop d
    else t.checkedNow d) s

end Sys2Proof.Machine
end

