-- ==== Sys2Proof/Machine/TickOps.lean ====
section
/-! DEFINITION. One servo period (R12): the phases of Table 1.1 in their order, the writes of R14 and R80, and what the
other blocks do once a period. -/

namespace Sys2Proof.Machine

/-- What the tick itself does: time moves on, what one period remembers is forgotten, budgets refill (R272), a started
gate runs (R345). -/
def State.tickBegin (s : State) : State :=
  let n := s.tick + 1
  { s with
    tick := n
    baseTick := if s.sys.firstTick then n else s.baseTick
    irqNow := []
    can := s.can.map (fun c => { c with newNow := [] })
    fiog := s.fiog.map (fun f => { f with cosNow := 0 })
    tamp := { s.tamp with tamperNow := false }
    part := { s.part with lostNow := false }
    host := { s.host with ethOut := [], budget := s.rf_ (xbarBudget + 32) 0 14 }
    xbar := { s.xbar with last := s.xbar.used, peak := max s.xbar.peak s.xbar.used, used := 0 }
    clk := { s.clk with
      fbTicks := if s.clk.fallback then s.clk.fbTicks + 1 else s.clk.fbTicks
      gateSt := if s.clk.drain.isNone then s.rd clkGate else s.clk.gateSt }
    sys := { s.sys with firstTick := false, parkIdle := if s.live && s.parkOk then s.sys.parkIdle + 1 else 0 } }

/-- The level of MOT_CTRL.HOLD in a period (R94). -/
def State.holdLevel (s : State) : State := if s.rb motCtrl 1 then s.motHoldNow else s

/-- TRUN's result comes in the period after its command (R71). -/
def State.trunDue (s : State) : State := if s.mot.trunPend then s.trunNow else s

/-- The Fusion phase with the correction run's watch on its sensors (R43, R90). -/
def State.phaseFusion (s : State) (i : TickIn) : State := ((s.homeChatter.homeCapture).fusion i).followNote.motWaits

/-- The Stop evaluation of a period (R126). Where Fusion has tripped the run in this period, a commit still takes place
(R17): it is found from the run `before` the trip, and the trip keeps it. -/
def State.stopEvalHeld (s : State) (before : Mot) : State :=
  if s.mot.phase = .tripped ∧ before.phase = .speed then
    ({ s with mot := { s.mot with phase := .speed, plan := before.plan, sp := before.sp } } : State).stopEval.motTrip.spFollow
  else s.stopEval

/-- The Stop evaluation phase and what the scheduler judges once a period. -/
def State.phaseStop (s : State) (before : Mot) : State := (s.stopEvalHeld before).nocallNote.bypassNote.oosSafeCheck

/-- A relevelling run that was decided on starts, unless a START has been accepted in the same period (R92). -/
def State.relevSettle (s : State) : State :=
  let t := { s with mot := { s.mot with relevGo := false } }
  if s.mot.relevGo && s.mot.phase == .idle && s.relevMay then t.relevStart.schRelevFail else t

/-- MOT leaves TRIPPED (R96), and the scheduler answers where the run is complete (R129). -/
def State.tripResolve (s : State) : State := s.motResolve.schReached s

/-- The Set-point phase and the drive output; a controlled stop comes after the checks of R80. -/
def State.phaseSet (s : State) : State := s.relevSettle.tractionLatch.holdLevel.motSetPoint.trunDue.drvPeriod.holdingEnd.tripResolve

/-- The Door master update; the profiles every 16th period (R12). -/
def State.phaseDoors (s : State) : State :=
  let t := (s.doorMaster .a).doorMaster .b
  (if s.period % 16 = 0 then (t.doorProfile .a).doorProfile .b else t).proofStep

/-- Electrum has demanded the safe state, or authority was lost, in the period that `irqNow` covers (R17). -/
def State.demanded (s : State) : Bool := Word.bit (s.irqNow.get 0 pgSafe) 1 || s.part.lostNow

/-- The engines' part of a period, in RUN. `tripped`: such a demand came since the last tick. -/
def State.tickRun (s : State) (i : TickIn) (tripped : Bool) : State :=
  let (s0, checked) := ((s.awardsBy (s.tick - 1)).landedTick.linkFinish.analogOut.ciaSync.queryTick).deferredNow
  let s1 := s0.schSlot
  let fused := s1.recTick.phaseFusion i
  let s2 := (fused.phaseStop s1.mot).checkedAll checked (tripped || fused.demanded)
  if s2.live then s2.phaseSet.phaseDoors.partTick.bidTick.keyStep else s2

/-- What runs in PARK (R363): the host port, the recorder, pairing and the key store. -/
def State.tickPark (s : State) : State :=
  let (s1, checked) := s.deferredNow
  ((s1.recTick).checkedAll checked false).partTick.keyStep

/-- SERVO_TICK (R12): nothing before a start has reached its first tick. -/
def State.servoTick (s : State) (i : TickIn) : State :=
  if !s.up_ then s
  else
    let tripped := s.demanded
    let t := s.tickBegin.opTick
    let u := if t.live then t.tickRun i tripped else t.tickPark
    if u.up_ then u.runWaiting.ethDrain else u

end Sys2Proof.Machine
end

