-- ==== Sys2Proof/Machine/Electrum.lean ====
section
/-! DEFINITION. Meanings of the servo tick and of Electrum's commands (chapters 1 and 10). A row that stands for a
condition's effect acts where the condition holds, and otherwise leaves the state as it is (log entry 2). -/

namespace Sys2Proof.Machine

/-- SERVO_TICK (R12): one servo period of a running module. -/
def execServoTick (i : TickIn) (s : State) : Host.Outcome State Fault Refusal := .next (s.servoTick i)

/-- A missed phase deadline (R15): OVERRUN latches, this period sends no drive frame, Electrum trips. -/
def State.deadlineMiss (s : State) : State :=
  let t := { s with
    sys := { s.sys with overrun := true }
    drv := { s.drv with framed := false, frame := [] } }
  (t.raise pgSys 1).tripModule

/-- PHASE_DEADLINE_MISS (R15): M0, M1 or M3. -/
def execPhaseDeadlineMiss (master : Nat) (s : State) : Host.Outcome State Fault Refusal :=
  .next (if s.live ∧ (master = 0 ∨ master = 1 ∨ master = 3) then s.deadlineMiss else s)

/-- A cycle is due (R16, R181): at the tick of a period whose index is a multiple of four, once. -/
def State.elDue (s : State) : Bool := s.up_ && !s.sys.firstTick && s.period % 4 == 0 && s.el.cycAt != some s.tick

/-- ELECTRUM_CYCLE (R16, R180): one cycle of both channels. -/
def execElectrumCycle (i : ElIn) (s : State) : Host.Outcome State Fault Refusal :=
  .next (if s.elDue then ({ s with el := { s.el with cycAt := some s.tick } } : State).elCycle i else s)

/-- STROBE_TIMEOUT (R181): Electrum B starts its cycle on its own count, and both channels trip with DISAGREE. The strobe
late and the strobe early end alike. -/
def execStrobeTimeout (_early : Bool) (s : State) : Host.Outcome State Fault Refusal :=
  .next (if s.up_ then s.trip 18 else s)

/-- ELECTRUM_START_COMPLETE (R192): START ends in NORMAL, or tripped with cause CONFIG. -/
def execElectrumStartComplete (selfTestsPass : Bool) (digestA digestB : Word) (s : State) :
    Host.Outcome State Fault Refusal :=
  .next (if s.up_ then s.elStart selfTestsPass digestA digestB else s)

/-- SAFE_RESET_CMD (R191): a write of RESET to SAFE_CMD. -/
def execSafeResetCmd (src : Src) (s : State) : Host.Outcome State Fault Refusal := .next (s.command src safeCmd 1)

/-- AUTO_RESET (R191): AUTO causes clear after 500 ms of the common conditions. -/
def execAutoReset (s : State) : Host.Outcome State Fault Refusal :=
  .next (if s.up_ ∧ !s.autoClear.isEmpty then s.elClear s.autoClear else s)

/-- A reset of kind SERVICE covers HOST and AUTO too (R191). -/
def keyCovers : TripKind → Bool
  | .auto | .host | .service => true
  | .pit | .power => false

/-- KEY_RST_INPUT (R191): the KEY_RST pair held for 1 to 5 s. -/
def execKeyRstInput (heldMs : Nat) (s : State) : Host.Outcome State Fault Refusal :=
  let l := s.clearable keyCovers
  .next (if s.up_ ∧ 1000 ≤ heldMs ∧ heldMs ≤ 5000 ∧ !l.isEmpty then s.elClear l else s)

/-- The pit reset (R191, R203): PIT_LATCH clears, and the PIT cause under the common conditions where it is no longer
present. -/
def State.pitResetNow (s : State) : State :=
  let t := { s with el := { s.el with pitLatch := false } }
  if s.commonOk && !s.el.present.contains 11 then t.elClear [11] else t

/-- PIT_RESET (R203): PIT_RST held for 1 s with the pit closed and PINS inactive. -/
def execPitReset (s : State) : Host.Outcome State Fault Refusal :=
  .next (if s.up_ ∧ 4000 ≤ s.el.pitRst then s.pitResetNow else s)

/-- TEST_PULSE (R206, R207): the dark pulse of a slot, scored. -/
def execTestPulse (slot : Nat) (nodeLow : Bool) (demand : PulseDemand) (s : State) : Host.Outcome State Fault Refusal :=
  .next (if s.up_ then s.testPulseNow slot nodeLow demand else s)

/-- MODE_NORMAL_RETURN (R202): 1 s after the mode input has gone inactive with the chain closed. -/
def execModeNormalReturn (s : State) : Host.Outcome State Fault Refusal :=
  .next (if s.up_ ∧ 4000 ≤ s.el.modeOff ∧ s.el.mode ≠ .normal then s.modeInto .normal else s)

/-- DEGRADED_EXPIRED (R210). -/
def execDegradedExpired (mode : DegMode) (s : State) : Host.Outcome State Fault Refusal :=
  .next (if s.up_ then s.degExpire mode else s)

/-- DEGRADED_TIMER_CLEAR (R210). -/
def execDegradedTimerClear (mode : DegMode) (s : State) : Host.Outcome State Fault Refusal :=
  .next (if s.up_ then s.degClear mode else s)

/-- NEAREST_LANDING_RUN (R210). -/
def execNearestLandingRun (s : State) : Host.Outcome State Fault Refusal := .next (if s.live then s.nearestStart else s)

/-- PAIR_MISMATCH (R184): a pair's contacts have differed for 200 ms. -/
def execPairMismatch (pair : Nat) (s : State) : Host.Outcome State Fault Refusal :=
  .next (if s.up_ ∧ 800 ≤ (alook s.el.pairBad pair).getD 0 then s.trip 13 else s)

/-- CHANNEL_DISAGREE (R184): eight cycles in a row. -/
def execChannelDisagree (s : State) : Host.Outcome State Fault Refusal :=
  .next (if s.up_ ∧ s.el.disagree.any (fun x => decide (8 ≤ x.2)) then s.trip 18 else s)

/-- ABS clears in a channel (R183). -/
def State.absLost (s : State) (c : Chan) : State :=
  { s with el := match c with
    | .a => { s.el with a := { s.el.a with abs := false } }
    | .b => { s.el with b := { s.el.b with abs := false } } }

/-- A channel of Electrum. -/
def El.chan (e : El) : Chan → ElCh
  | .a => e.a
  | .b => e.b

/-- ABS_TIMEOUT (R183): both corrections unavailable for 60 min of travel. -/
def execAbsTimeout (ch : Chan) (s : State) : Host.Outcome State Fault Refusal :=
  .next (if s.up_ ∧ 14400000 ≤ (s.el.chan ch).absBad then s.absLost ch else s)

/-- The time a mirror contact has, in cycles (R200): 100 ms for the contactors, SAFE_BRK_T_MS for the brakes. -/
def State.mirrorTime (s : State) (slot : Nat) : Nat := if slot ≤ 3 then 400 else s.rn safeBrkTMs * 4

/-- MIRROR_TIMEOUT (R200): a mirror contact of MC1, MC2, BRK1 or BRK2 has not followed. -/
def execMirrorTimeout (output : Nat) (s : State) : Host.Outcome State Fault Refusal :=
  .next (if s.up_ ∧ 2 ≤ output ∧ output ≤ 5 ∧ !s.mirrorOk output ∧ nth s.el.chgAt output 0 + s.mirrorTime output ≤ s.el.cyc then
    s.trip (if output ≤ 3 then 8 else 7) else s)

/-- STO_FB_TIMEOUT (R200): the STO feedback has not followed. -/
def execStoFbTimeout (s : State) : Host.Outcome State Fault Refusal :=
  .next (if s.up_ ∧ s.rf_ safeCfg 3 2 ≠ 0 ∧ !s.stoFbOk ∧ s.el.stoChgAt + s.rn safeStoFbMs * 4 ≤ s.el.cyc then s.trip 9 else s)

/-- DCM_PLAUS (R201): a contradiction of the door contacts for 500 ms. -/
def execDcmPlaus (side : Chan) (s : State) : Host.Outcome State Fault Refusal :=
  .next (if s.up_ ∧ s.el.plausBad side then s.trip 2 else s)

/-- SAFE_CONFIG_WRITE (R211). -/
def execSafeConfigWrite (src : Src) (offset : BitVec 12) (val : Word) (s : State) : Host.Outcome State Fault Refusal :=
  .next (s.command src (0x10000 + offset.toNat) val)

end Sys2Proof.Machine
end

