-- ==== Sys2Proof/Machine/HostPort.lean ====
section
/-! DEFINITION. Meanings of the host port's commands (chapters 2 and 14). A dedicated row that is a register write is
judged and made at once: it stands for the write taking effect (log entry 2). -/

namespace Sys2Proof.Machine

/-- HOST_REGISTER_WRITE (R14, R21, R31): executed now; the pages of R14 take effect at the next tick. -/
def execHostRegisterWrite (src : Src) (addr : Addr) (val : BusWord) (s : State) :
    Host.Outcome State Fault Refusal :=
  .next (s.registerWrite src addr.toNat val.val val.narrow)

/-- ERR_CLEAR (R24): a write of any value clears ERR. -/
def execErrClear (src : Src) (page : BitVec 8) (val : Word) (s : State) : Host.Outcome State Fault Refusal :=
  .next (s.command src (page.toNat * 4096 + 0x10) val)

/-- HLOCK_SET (R29). -/
def execHlockSet (src : Src) (page : BitVec 8) (s : State) : Host.Outcome State Fault Refusal :=
  .next (s.command src (page.toNat * 4096 + 0x20) 1)

/-- HLOCK_UNLOCK (R29): HLOCK written 0 with a key in UNLOCK. -/
def execHlockUnlock (src : Src) (page : BitVec 8) (key : BitVec 16) (s : State) : Host.Outcome State Fault Refusal :=
  .next (s.command src (page.toNat * 4096 + 0x20) (pack [(16, 16, key.toNat)]))

/-- LRP_READ (R263). -/
def execLrpRead (via : Via) (req : List Byte) (s : State) : Host.Outcome State Fault Refusal :=
  .next (if lrpOp req = 1 then s.lrpRequest via req else s)

/-- LRP_WRITE (R32, R263). -/
def execLrpWrite (via : Via) (req : List Byte) (s : State) : Host.Outcome State Fault Refusal :=
  .next (if lrpOp req = 2 then s.lrpRequest via req else s)

/-- LRP_OPEN (R266): in plain form on SPI (port 0) or an Ethernet port. -/
def execLrpOpen (port : Nat) (req : List Byte) (s : State) : Host.Outcome State Fault Refusal :=
  .next (if lrpOp req ≠ 3 ∨ 3 < port then s else if port = 0 then s.lrpRequest .spi req else s.ethOpen (port - 1) [] req)

/-- LRP_CLOSE (R267). -/
def execLrpClose (via : Via) (req : List Byte) (s : State) : Host.Outcome State Fault Refusal :=
  .next (if lrpOp req = 4 then s.lrpRequest via req else s)

/-- LRP_NOP (R262). -/
def execLrpNop (via : Via) (req : List Byte) (s : State) : Host.Outcome State Fault Refusal :=
  .next (if lrpOp req = 5 then s.lrpRequest via req else s)

/-- LRP_INVALID_OP (R263). -/
def execLrpInvalidOp (via : Via) (req : List Byte) (s : State) : Host.Outcome State Fault Refusal :=
  .next (if lrpValid req then s else s.lrpRequest via req)

/-- SPI_TRANSACTION (R264): the bytes clocked in during one chip-select assertion. -/
def execSpiTransaction (mosi : List Byte) (s : State) : Host.Outcome State Fault Refusal := .next (s.spi mosi)

/-- SESSION_ENVELOPE (R265): an envelope on a port (0 SPI, 1 to 3 Ethernet). -/
def execSessionEnvelope (port : Nat) (bytes : List Byte) (s : State) : Host.Outcome State Fault Refusal :=
  let peer := ((s.sessOf port (leNat (slice bytes 0 2))).map (fun x => x.2.peer)).getD []
  .next (s.envelope port peer bytes)

/-- ETH_FRAME_RX (R270). -/
def execEthFrameRx (port : Nat) (fcsOk : Bool) (bytes : List Byte) (s : State) : Host.Outcome State Fault Refusal :=
  .next (if port < 3 then s.ethRx port fcsOk bytes else s)

/-- ETH_LINK_CHANGE (R267, Table 14.12); the amplitude and quality are those of ETH2. -/
def execEthLinkChange (port : Nat) (up amp24 : Bool) (sqi : BitVec 3) (s : State) : Host.Outcome State Fault Refusal :=
  .next (if s.up_ ∧ port < 3 then s.ethLink port up (amp24 && port == 2) (if port = 2 then sqi.toNat else 0) else s)

/-- ETH_FAR_FAULT (R271, Table 14.12): ETH1's far-end fault appears or ends. -/
def execEthFarFault (on : Bool) (s : State) : Host.Outcome State Fault Refusal :=
  let t := s.wf_ (ethStatus 0x19) 1 1 (b2n on)
  .next (if !s.up_ then s else if on then t.raise 0x19 2 else t)

/-- SESSION_PENDING_TIMEOUT (R266): a PENDING session without an envelope for 1 s is freed. -/
def execSessionPendingTimeout (i : Nat) (s : State) : Host.Outcome State Fault Refusal :=
  .next (match s.sess i with
    | none => s
    | some x => if !x.isOpen ∧ x.lastAt + 16000 ≤ s.tick then s.sessEnd i else s)

/-- SESSION_TIMEOUT (R267): HOST_SESS_TO_MS without an authenticated envelope. -/
def execSessionTimeout (i : Nat) (s : State) : Host.Outcome State Fault Refusal :=
  .next (match s.sess i with
    | none => s
    | some x => if x.isOpen ∧ x.lastAt + msTicks (s.rn hostSessToMs) ≤ s.tick then s.sessEnd i else s)

/-- HOST_SEAL_OPEN (R269). -/
def execHostSealOpen (src : Src) (s : State) : Host.Outcome State Fault Refusal := .next (s.command src hostCmd 2)

/-- HOST_CLOSE_OTHERS (R267). -/
def execHostCloseOthers (src : Src) (s : State) : Host.Outcome State Fault Refusal := .next (s.command src hostCmd 4)

/-- HOST_CNT_CLR (R278). -/
def execHostCntClr (src : Src) (s : State) : Host.Outcome State Fault Refusal := .next (s.command src hostCmd 1)

/-- ETH_CNT_CLR (R279). -/
def execEthCntClr (src : Src) (port : Nat) (s : State) : Host.Outcome State Fault Refusal :=
  .next (if port < 3 then s.command src (ethCmd (port + 0x18)) 1 else s)

/-- ETH_RENEG (R279): refused on ETH1. -/
def execEthReneg (src : Src) (port : Nat) (s : State) : Host.Outcome State Fault Refusal :=
  .next (if port < 3 then s.command src (ethCmd (port + 0x18)) 2 else s)

/-- XBAR_CLR_PEAK (R280). -/
def execXbarClrPeak (src : Src) (s : State) : Host.Outcome State Fault Refusal := .next (s.command src xbarCmd 1)

/-- XBAR_CLR_FLT (R280). -/
def execXbarClrFlt (src : Src) (s : State) : Host.Outcome State Fault Refusal := .next (s.command src xbarCmd 2)

/-- A master has used up its budget (R273). -/
def State.exhausted (s : State) (m : Nat) : State :=
  let t := (s.wf_ xbarOvr m 1 1).raise pgXbar 1
  match m with
  | 0 | 1 | 2 | 3 | 4 | 5 => t.deadlineMiss
  | 7 => { t with host := { t.host with netOut := true } }
  | 8 => { t with host := { t.host with budget := 0 } }
  | 9 => { t with rcd := { t.rcd with held := true } }
  | 11 => { t with part := { t.part with mirrorDelay := true } }
  | _ => t

/-- BUDGET_EXHAUSTED (R273): frames of M6 wait in their controllers and the key commands of M10 end later, which the
commands that end them show. -/
def execBudgetExhausted (master : Nat) (s : State) : Host.Outcome State Fault Refusal :=
  .next (if s.up_ ∧ master < 12 then s.exhausted master else s)

end Sys2Proof.Machine
end

