-- ==== Sys2Proof/Machine/Position.lean ====
section
/-! DEFINITION. Meanings of the commands of shaft position and load weighing (chapter 3). -/

namespace Sys2Proof.Machine

/-- SR_ANSWER (R39): the answer's bytes and the end of its last stop bit, ns of the time base. -/
def execSrAnswer (bytes : List Byte) (endNs : Nat) (s : State) : Host.Outcome State Fault Refusal :=
  .next (if s.live then s.srAnswer bytes endNs else s)

/-- SR_TIMEOUT (R36): no accepted telegram for 2 ms. -/
def execSrTimeout (s : State) : Host.Outcome State Fault Refusal := .next (if s.live then s.srTimeout else s)

/-- SOURCE_RETURN (R48, R49, R51): a probation has passed. -/
def execSourceReturn (source : PosSrc) (s : State) : Host.Outcome State Fault Refusal :=
  .next (if s.live then (s.sourceReturn source).posNote else s)

/-- DZ_EDGE (R40, R90): kept for the next Fusion phase, and as the capture edge of a correction run; a zone seen active
at standstill may establish the absolute reference without a shaft reader (R53). -/
def State.dzEdgeNow (s : State) (c : Chan) (rising : Bool) (stampUs : Nat) : State :=
  let t := (s.homeEdge c rising stampUs).dzEdgeSeen c rising stampUs
  if rising ∧ t.pos.band = 0 ∧ t.posRun ∧ !t.pos.abs then t.absFromZone.posNote else t

/-- DZ_EDGE (R40). -/
def execDzEdge (ch : Chan) (rising : Bool) (stampUs : Nat) (s : State) : Host.Outcome State Fault Refusal :=
  .next (if s.live then s.dzEdgeNow ch rising stampUs else s)

/-- DZ_WIRING_FAULT (R52). -/
def execDzWiringFault (ch : Chan) (s : State) : Host.Outcome State Fault Refusal :=
  .next (let t := if s.up_ then s.elWire ch true else s
         if s.live then t.dzFault ch else t)

/-- DZ_WIRING_FAULT_END (R52). -/
def execDzWiringFaultEnd (ch : Chan) (s : State) : Host.Outcome State Fault Refusal :=
  .next (let t := if s.up_ then s.elWire ch false else s
         if s.live then t.dzFaultEnd ch else t)

/-- The encoders have disagreed (R50): the latch, its interrupt, the recorder. -/
def State.encDisagreeNow (s : State) : State :=
  (({ s with pos := { s.pos with encDisagree := true } }).raise pgPos 8).fire 3 (wordI s.estVel)

/-- ENC_DISAGREE (R50): after 10 ms of too great a difference. -/
def execEncDisagree (s : State) : Host.Outcome State Fault Refusal :=
  .next (if s.live ∧ 160 ≤ s.pos.diffTicks ∧ !s.pos.encDisagree then s.encDisagreeNow else s)

/-- ENC_DISAGREE_CLEAR (R50, Table 3.7): after 1 s of agreement. -/
def execEncDisagreeClear (s : State) : Host.Outcome State Fault Refusal :=
  .next (if s.live ∧ 16000 ≤ s.pos.agreeTicks then { s with pos := { s.pos with encDisagree := false } } else s)

/-- TRACTION (R56, R57). -/
def execTraction (s : State) : Host.Outcome State Fault Refusal := .next (if s.live then s.tractionLatch else s)

/-- BIAS_CAL (R61): POS_CMD bit 0. -/
def execBiasCal (src : Src) (s : State) : Host.Outcome State Fault Refusal := .next (s.command src posCmd 1)

/-- The calibration ends (R61): b is the mean of 16,000 samples. -/
def State.biasCalEnd (s : State) (sum : Int) : State :=
  ({ s with pos := { s.pos with cal := none, b := sum.tdiv 16000 } }).raise pgPos 9

/-- BIAS_CAL_DONE (R61). -/
def execBiasCalDone (s : State) : Host.Outcome State Fault Refusal :=
  .next (match s.pos.cal with
    | some (n, sum) => if s.live ∧ 16000 ≤ n then s.biasCalEnd sum else s
    | none => s)

/-- SR_REACQ (R61): POS_CMD bit 1. -/
def execSrReacq (src : Src) (s : State) : Host.Outcome State Fault Refusal := .next (s.command src posCmd 2)

/-- CLR_TRACT (R57): POS_CMD bit 2. -/
def execClrTract (src : Src) (s : State) : Host.Outcome State Fault Refusal := .next (s.command src posCmd 4)

/-- KAPPA_RESET (R61): POS_CMD bit 3. -/
def execKappaReset (src : Src) (s : State) : Host.Outcome State Fault Refusal := .next (s.command src posCmd 8)

/-- POS_RUN_CLEAR (R63): POS_CTRL written with RUN cleared. -/
def execPosRunClear (src : Src) (s : State) : Host.Outcome State Fault Refusal :=
  .next (s.command src posCtrl (Word.setBits (s.rd posCtrl) 0 1 0))

/-- KAPPA_BIAS_SAVE (R55): κ and b to MRAM, every 10 min of operating time. -/
def execKappaBiasSave (s : State) : Host.Outcome State Fault Refusal :=
  .next (if s.up_ && s.sys.profValid && s.since s.sys.kbAt 9600000 then s.kbSave else s)

/-- LWB_CONVERSION (R64). -/
def execLwbConversion (raw : Int) (openWire exc overLimit : Bool) (s : State) : Host.Outcome State Fault Refusal :=
  .next (if s.live then s.lwbConvert raw openWire exc overLimit else s)

/-- LWB_VALID_CLEAR (R65): a fault for 50 ms, or UNCAL. -/
def execLwbValidClear (s : State) : Host.Outcome State Fault Refusal :=
  .next (if s.live ∧ (50 ≤ s.lwb.faultConv ∨ s.lwb.uncal) then s.lwbSetValid false else s)

/-- LWB_VALID_SET (R65): 100 ms without a fault. -/
def execLwbValidSet (s : State) : Host.Outcome State Fault Refusal :=
  .next (if s.live ∧ s.rb lwbCtrl 0 ∧ 100 ≤ s.lwb.okConv ∧ !s.lwb.uncal then s.lwbSetValid true else s)

/-- LWB_ZERO (R66): LWB_CMD bit 0. -/
def execLwbZero (src : Src) (s : State) : Host.Outcome State Fault Refusal := .next (s.command src lwbCmd 1)

/-- LWB_SPAN (R66): LWB_CMD bit 1. -/
def execLwbSpan (src : Src) (s : State) : Host.Outcome State Fault Refusal := .next (s.command src lwbCmd 2)

/-- LWB_CAL_DONE (R66): 2,000 conversions taken. -/
def execLwbCalDone (s : State) : Host.Outcome State Fault Refusal := .next (if s.live then s.lwbCalEnd else s)

end Sys2Proof.Machine
end

