-- ==== Sys2Proof/Machine/Motion.lean ====
section
/-! DEFINITION. Meanings of the commands of runs, homing, levelling and the drive ports (chapters 4 to 6). -/

namespace Sys2Proof.Machine

/-- MOT_START (R73): MOT_CMD bit 0. -/
def execMotStart (src : Src) (s : State) : Host.Outcome State Fault Refusal := .next (s.command src motCmd 1)

/-- MOT_APPLY (R80, R81): MOT_CMD bit 1. -/
def execMotApply (src : Src) (s : State) : Host.Outcome State Fault Refusal := .next (s.command src motCmd 2)

/-- MOT_RESUME (R97): MOT_CMD bit 2. -/
def execMotResume (src : Src) (s : State) : Host.Outcome State Fault Refusal := .next (s.command src motCmd 4)

/-- MOT_TRUN (R71): MOT_CMD bit 3. -/
def execMotTrun (src : Src) (s : State) : Host.Outcome State Fault Refusal := .next (s.command src motCmd 8)

/-- MOT_TARGET_WRITE (R77). -/
def execMotTargetWrite (src : Src) (val : Word) (s : State) : Host.Outcome State Fault Refusal :=
  .next (s.command src motTarget val)

/-- MOT_HORIZON_WRITE (R75). -/
def execMotHorizonWrite (src : Src) (val : Word) (s : State) : Host.Outcome State Fault Refusal :=
  .next (s.command src motHorizon val)

/-- MOT_CTRL written with HOLD set, and the controlled stop it asks for (R94). -/
def State.holdCommand (s : State) (src : Src) : State :=
  let t := s.command src motCtrl (Word.setBits (s.rd motCtrl) 1 1 1)
  if t.live then t.holdLevel else t

/-- MOT_HOLD (R94). -/
def execMotHold (src : Src) (s : State) : Host.Outcome State Fault Refusal := .next (s.holdCommand src)

/-- The run's plan has ended at its target (R79): RUN_DONE, and the scheduler's answer for a normal run (R129). -/
def State.planEndNow (s : State) : State :=
  let normal := s.mot.runType == .none && !s.mot.holdRun
  let n := s.mot.target
  let t := s.motRunDone
  if normal then t.schRunDone n else t

/-- PLAN_END (R79). -/
def execPlanEnd (s : State) : Host.Outcome State Fault Refusal :=
  .next (match s.mot.plan with
    | some p => if s.live ∧ s.mot.landsAt ∧ p.done s.tick then s.planEndNow else s
    | none => s)

/-- A follow error (R83): FOLLOW, the recorder, a controlled stop. -/
def State.followNow (s : State) : State :=
  ((({ s with mot := { s.mot with follow := true } }).raise pgMot 7).fire 5 (wordI s.mot.followErr)).motHoldNow

/-- FOLLOW_ERROR (R83): 16 periods in a row, in SPEED, APPROACH or STOPPING. -/
def execFollowError (s : State) : Host.Outcome State Fault Refusal :=
  .next (if s.live ∧ 16 ≤ s.mot.followN ∧ s.mot.follows then s.followNow else s)

/-- VCAP_CHANGE (R82): Electrum's cap takes effect. -/
def execVcapChange (s : State) : Host.Outcome State Fault Refusal :=
  .next (if s.live ∧ s.mot.cap ≠ s.el.vlim then s.capChange else s)

/-- MOT_HOME (R86): MOT_RT_CMD bit 0. -/
def execMotHome (src : Src) (s : State) : Host.Outcome State Fault Refusal := .next (s.command src motRtCmd 1)

/-- MOT_RECOVER (R86): MOT_RT_CMD bit 1. -/
def execMotRecover (src : Src) (s : State) : Host.Outcome State Fault Refusal := .next (s.command src motRtCmd 2)

/-- MOT_RELEVEL (R86): MOT_RT_CMD bit 2. -/
def execMotRelevel (src : Src) (s : State) : Host.Outcome State Fault Refusal := .next (s.command src motRtCmd 4)

/-- MOT_ABANDON (R86): MOT_RT_CMD bit 3. -/
def execMotAbandon (src : Src) (s : State) : Host.Outcome State Fault Refusal := .next (s.command src motRtCmd 8)

/-- The special run that starts by itself (R87): a correction without the absolute reference, a recovery while the proof
is pending. No run starts with the drive interface disabled (R100). -/
def State.autoSpecial (s : State) : State :=
  if s.drvIf = 0 then s
  else if !s.pos.abs && s.rb motRtCfg 0 then s.homeStart
  else if s.pos.abs && s.posValid && s.el.proofPend && s.rb motRtCfg 1 then s.recoverStart
  else s

/-- AUTO_SPECIAL_START (R87): the conditions have held for 1 s. -/
def execAutoSpecialStart (s : State) : Host.Outcome State Fault Refusal :=
  .next (if s.live ∧ s.autoCond ∧ 16000 ≤ s.mot.autoTicks then s.autoSpecial else s)

/-- The conditions of R92 for a relevelling run by itself, apart from R93. -/
def State.relevDue (s : State) : Bool :=
  s.rb motRtCfg 2 && s.relevWanted && decide (s.rn motRelevMs * 16 ≤ s.mot.relevTicks) && s.drvIf != 0 && s.authority &&
    decide (s.ri motRelevTrig < ((s.estPos - s.level s.mot.landing).natAbs : Int))

/-- AUTO_RELEVEL (R92, R93): the decision for a run, which starts at the end of the period unless a START prevails, or
RELEV_BLOCKED, raised once per stop. -/
def execAutoRelevel (s : State) : Host.Outcome State Fault Refusal :=
  .next (if !s.live || !s.relevDue then s else if s.relevMay then s.relevDecide else s.relevBlock)

/-- The reference input changes in a correction run (Table 5.2): a drop-out in SEARCH counts, and fails at
MOT_HOME_CHAT. -/
def State.homeRef (s : State) (active : Bool) : State :=
  let t := { s with mot := { s.mot with refWas := active } }
  if s.mot.hstep = .search ∧ s.mot.refWas ∧ !active then
    let u := { t with mot := { t.mot with chat := min (t.mot.chat + 1) 15 } }
    if s.rn motHomeChat ≤ u.mot.chat then u.homeFail .chatter else u
  else t

/-- HOME_REF_INPUT (R89). -/
def execHomeRefInput (active : Bool) (s : State) : Host.Outcome State Fault Refusal :=
  .next (if s.live ∧ s.mot.phase = .special ∧ s.mot.runType = .correction ∧ s.refInput = active ∧ s.mot.refWas ≠ active then
    s.homeRef active else s)

/-- HOME_LIMIT_INPUT (R89): the limit input active in SEARCH or FINAL. -/
def execHomeLimitInput (s : State) : Host.Outcome State Fault Refusal :=
  .next (if s.live ∧ s.mot.phase = .special ∧ (s.mot.hstep = .search ∨ s.mot.hstep = .final) ∧ s.limInput then
    s.homeFail .limit else s)

/-- HOME_MAXDIST (R89): the distance travelled without capture. -/
def execHomeMaxdist (s : State) : Host.Outcome State Fault Refusal :=
  .next (if s.live ∧ s.mot.phase = .special ∧ (s.mot.hstep = .backoff ∨ s.mot.hstep = .search) ∧
      s.ri motHomeMaxdist * 65536 ≤ s.mot.homeTravel then s.homeFail .noref else s)

/-- DRV_READY_TIMEOUT (R101). -/
def execDrvReadyTimeout (s : State) : Host.Outcome State Fault Refusal := .next (if s.live then s.readyTimeout else s)

/-- DRV_PRELOAD_DONE (R101). -/
def execDrvPreloadDone (s : State) : Host.Outcome State Fault Refusal := .next (if s.live then s.preloadDone else s)

/-- DRV_BRAKE_LIFTED (R101). -/
def execDrvBrakeLifted (s : State) : Host.Outcome State Fault Refusal := .next (if s.live then s.brakeLifted else s)

/-- DRV_BRAKE_APPLIED (R101). -/
def execDrvBrakeApplied (s : State) : Host.Outcome State Fault Refusal := .next (if s.live then s.brakeDropped else s)

/-- DRV_RESPONSE (R105, R106): a response or NAK on the drive link; times in ns from the period's tick. -/
def execDrvResponse (bytes : List Byte) (delimNs endNs : Nat) (s : State) : Host.Outcome State Fault Refusal :=
  .next (if s.live then s.linkResponse bytes delimNs endNs else s)

/-- MOTION_WATCHDOG (R107, R111): the response check runs now and brings MISS to 4. -/
def execMotionWatchdog (s : State) : Host.Outcome State Fault Refusal :=
  .next (if s.live ∧ s.drvCheck.watchdogDue then s.drvWatch else s)

/-- DRV_FAULT_RST (R109): DRV_CMD bit 0. -/
def execDrvFaultRst (src : Src) (s : State) : Host.Outcome State Fault Refusal := .next (s.command src drvCmd 1)

/-- DRV_CNT_CLR (R116): DRV_CMD bit 1. -/
def execDrvCntClr (src : Src) (s : State) : Host.Outcome State Fault Refusal := .next (s.command src drvCmd 2)

/-- CIA_TPDO (R111): the TPDO of a cycle. -/
def execCiaTpdo (statusword : BitVec 16) (position : Word) (sofUs : Nat) (s : State) : Host.Outcome State Fault Refusal :=
  .next (if s.live ∧ s.drvIf = 2 then s.ciaTpdoIn statusword.toNat position sofUs else s)

/-- The drive confirms its mode request (R110). -/
def State.sdoConfirm (s : State) : State :=
  if s.drv.sdoSent then ({ s with drv := { s.drv with sdoDone := true } }).drvCheckReady else s

/-- CIA_SDO_RESPONSE (R110). -/
def execCiaSdoResponse (s : State) : Host.Outcome State Fault Refusal :=
  .next (if s.live ∧ s.drvIf = 2 then s.sdoConfirm else s)

/-- LEGACY_RDY_CHANGE (R114): the RDY input of the analog and step ports. -/
def execLegacyRdyChange (active : Bool) (s : State) : Host.Outcome State Fault Refusal :=
  .next (if s.up_ then { s with drv := { s.drv with rdy := active } } else s)

end Sys2Proof.Machine
end

