-- ==== Sys2Proof/Machine/Calls.lean ====
section
/-! DEFINITION. Meanings of the commands of the landing table, the call table and the stop scheduler (chapter 7). -/

namespace Sys2Proof.Machine

/-- LANDING_TABLE_WRITE (R119): a word of the landing table. -/
def execLandingTableWrite (src : Src) (addr : Addr) (val : Word) (s : State) : Host.Outcome State Fault Refusal :=
  .next (if 0x150000 ≤ addr.toNat then s.command src addr.toNat val else s)

/-- CALL_SET (R121): a CC_SET, HU_SET or HD_SET word. -/
def execCallSet (src : Src) (addr : Addr) (val : Word) (s : State) : Host.Outcome State Fault Refusal :=
  .next (match callArea addr.toNat with
    | .set _ _ => s.command src addr.toNat val
    | .clr _ _ | .map | .entry | .none => s)

/-- CALL_CLR (R121): a CC_CLR, HU_CLR or HD_CLR word. -/
def execCallClr (src : Src) (addr : Addr) (val : Word) (s : State) : Host.Outcome State Fault Refusal :=
  .next (match callArea addr.toNat with
    | .clr _ _ => s.command src addr.toNat val
    | .set _ _ | .map | .entry | .none => s)

/-- DEST_ADD (R122). -/
def execDestAdd (src : Src) (val : Word) (s : State) : Host.Outcome State Fault Refusal :=
  .next (s.command src schDestAdd val)

/-- DEST_DEL (R122). -/
def execDestDel (src : Src) (val : Word) (s : State) : Host.Outcome State Fault Refusal :=
  .next (s.command src schDestDel val)

/-- SCH_MODE_WRITE (R124). -/
def execSchModeWrite (src : Src) (val : Word) (s : State) : Host.Outcome State Fault Refusal :=
  .next (s.command src schMode val)

/-- SCH_RUN_SET (R118): SCH_CTRL with RUN written 1. -/
def execSchRunSet (src : Src) (s : State) : Host.Outcome State Fault Refusal :=
  .next (s.command src schCtrl (Word.setBits (s.rd schCtrl) 0 1 1))

/-- SCH_RUN_CLEAR (R119): SCH_CTRL with RUN written 0. -/
def execSchRunClear (src : Src) (s : State) : Host.Outcome State Fault Refusal :=
  .next (s.command src schCtrl (Word.setBits (s.rd schCtrl) 0 1 0))

/-- SCH_OOS_REQUEST (R133): SCH_CTRL with OOS written. -/
def execSchOosRequest (src : Src) (on : Bool) (s : State) : Host.Outcome State Fault Refusal :=
  .next (s.command src schCtrl (Word.setBits (s.rd schCtrl) 1 1 (b2n on)))

/-- The conditions of R128 that a start and a resume share: in service, no dwell, doors locked, a call to serve. -/
def State.schDue (s : State) : Bool := s.inService && s.schMayRun && !s.orderNow.isEmpty

/-- SCHED_RUN_START (R128): the scheduler writes the horizon and START. -/
def execSchedRunStart (s : State) : Host.Outcome State Fault Refusal :=
  .next (if s.live ∧ s.schDue ∧ s.mot.phase = .idle then
    match s.runDir with
    | some up => s.schStart up
    | none => s
  else s)

/-- What R97 asks of a RESUME that the scheduler issues: HELD, no HOLD, a target or horizon of a normal run kept. -/
def State.schResume (s : State) : State :=
  if s.mot.phase = .held ∧ !s.rb motCtrl 1 ∧ s.mot.keeps ∧ s.drvIf ≠ 0 then s.resumeNow.schReached s else s

/-- SCHED_RESUME (R128, R97). -/
def execSchedResume (s : State) : Host.Outcome State Fault Refusal :=
  .next (if s.live ∧ s.schDue then s.schResume else s)

/-- HOLD_TIME_END (R129). -/
def execHoldTimeEnd (s : State) : Host.Outcome State Fault Refusal := .next (if s.live then s.schHoldEnd else s)

/-- SCH_RESTORE (R133): SCH_CMD bit 0. -/
def execSchRestore (src : Src) (s : State) : Host.Outcome State Fault Refusal := .next (s.command src schCmd 1)

/-- CC_CLR_ALL (R136): SCH_CMD bit 1. -/
def execCcClrAll (src : Src) (s : State) : Host.Outcome State Fault Refusal := .next (s.command src schCmd 2)

/-- END_DWELL (R129): SCH_CMD bit 2. -/
def execEndDwell (src : Src) (s : State) : Host.Outcome State Fault Refusal := .next (s.command src schCmd 4)

/-- A button active for SCH_BTN_STUCK_MS (R132): raised once; its release registers nothing. -/
def State.btnStuckNow (s : State) (n : Nat) : State :=
  match alook s.sch.btnOn n with
  | none => s
  | some t =>
    if s.since t (msTicks (s.rn schBtnStuckMs)) ∧ !s.sch.btnStuck.contains n then
      ({ s with sch := { s.sch with btnStuck := setIns s.sch.btnStuck n } }).raise pgSch 8
    else s

/-- BTN_STUCK (R132). -/
def execBtnStuck (landing : Nat) (s : State) : Host.Outcome State Fault Refusal :=
  .next (if s.live then s.btnStuckNow landing else s)

end Sys2Proof.Machine
end

