-- ==== Sys2Proof/Machine/Group.lean ====
section
/-! DEFINITION. Meanings of the commands of the group bus (chapter 8), and what a frame that passes its validity point
does on each controller. -/

namespace Sys2Proof.Machine

/-- The drive's objects on CAN3 (R110, R111, Table 6.5): DRV takes its TPDO and its SDO response. -/
def State.drvFrame (s : State) (f : CanFrame) : State :=
  if s.drvIf ≠ 2 ∨ f.ide ∨ f.remote ∨ !s.live then s
  else
    let node := s.rn drvCiaNode
    let id := f.id.toNat
    if id = (0x180 + node) * 2 ^ 18 then
      (s.canTake 3 127).ciaTpdoIn (leNat (slice f.data 0 2)) (wordN (leNat (slice f.data 2 4))) f.sof
    else if id = (0x580 + node) * 2 ^ 18 then
      let t := s.canTake 3 126
      if byteAt f.data 0 = 0x60 then t.sdoConfirm else t
    else s

/-- What the engines make of a frame on controller `n`, after its storing: Bellmetal hears CAN2 and the presses of CAN1
(R141, R235), the drive CAN3. Electrum takes the frames of LSF at the start of its next cycle (R220). -/
def State.engineFrame (s : State) (n : Nat) (f : CanFrame) : State :=
  match n with
  | 1 => s.pressRx f
  | 2 => ((s.announcementRx f).bidFrameRx f).releaseRx f
  | 3 => s.drvFrame f
  | _ => s

/-- A frame passes its validity point on controller `n` (R235, R236, R242). -/
def State.canIncoming (s : State) (n : Nat) (f : CanFrame) : State :=
  if s.up_ ∧ s.canRuns n then (s.canReceive n f).engineFrame n f else s

/-- HALL_PRESS (R141): a press on CAN1. -/
def execHallPress (frame : CanFrame) (s : State) : Host.Outcome State Fault Refusal :=
  .next (if isPress frame then s.canIncoming 1 frame else s)

/-- ANNOUNCEMENT (R142): a frame of class 0b001 on CAN2. -/
def execAnnouncement (frame : CanFrame) (s : State) : Host.Outcome State Fault Refusal :=
  .next (if isRitha 1 frame then s.canIncoming 2 frame else s)

/-- BID_FRAME (R145 to R147): a frame of class 0b010 on CAN2. -/
def execBidFrame (frame : CanFrame) (s : State) : Host.Outcome State Fault Refusal :=
  .next (if isRitha 2 frame then s.canIncoming 2 frame else s)

/-- ROUND_NOBID (R142, R148): 5 ms after the opening. -/
def execRoundNobid (s : State) : Host.Outcome State Fault Refusal := .next (if s.live then s.roundNobid else s)

/-- RELEASE_FRAME (R147, R152): a frame of class 0b011 on CAN2. -/
def execReleaseFrame (frame : CanFrame) (s : State) : Host.Outcome State Fault Refusal :=
  .next (if isRitha 3 frame then s.canIncoming 2 frame else s)

/-- AWARD_TAKE_EFFECT (R151). -/
def execAwardTakeEffect (s : State) : Host.Outcome State Fault Refusal := .next (if s.live then s.awardsNow else s)

/-- ANNOUNCE_REPEAT (R148). -/
def execAnnounceRepeat (key seq : Nat) (s : State) : Host.Outcome State Fault Refusal :=
  .next (if s.live then s.repeatNow key seq else s)

/-- REBID (R152). -/
def execRebid (key seq : Nat) (s : State) : Host.Outcome State Fault Refusal :=
  .next (if s.live then s.rebidNow key seq else s)

/-- ORPHAN_DETECT (R153). -/
def execOrphanDetect (key seq : Nat) (s : State) : Host.Outcome State Fault Refusal :=
  .next (if s.live then s.orphanNow key seq else s)

/-- LISTEN_END (Table 8.3). -/
def execListenEnd (s : State) : Host.Outcome State Fault Refusal := .next (if s.live then s.listenEnd else s)

/-- ISLAND_ENTER (Table 8.3). -/
def execIslandEnter (s : State) : Host.Outcome State Fault Refusal := .next (if s.live then s.islandEnter else s)

/-- ISLAND_EXIT (Table 8.3). -/
def execIslandExit (s : State) : Host.Outcome State Fault Refusal := .next (if s.live then s.islandExit else s)

/-- BID_RUN_SET (R154): once the profile is applied and SCH runs. -/
def execBidRunSet (s : State) : Host.Outcome State Fault Refusal := .next (if s.live then s.bidRunSet else s)

/-- BID_REJOIN (Table 8.7): BID_CMD bit 2. -/
def execBidRejoin (src : Src) (s : State) : Host.Outcome State Fault Refusal := .next (s.command src bidCmd 4)

/-- BID_RELEASE_ALL (Table 8.7): BID_CMD bit 1. -/
def execBidReleaseAll (src : Src) (s : State) : Host.Outcome State Fault Refusal := .next (s.command src bidCmd 2)

/-- BID_CNT_CLR (Table 8.7): BID_CMD bit 0. -/
def execBidCntClr (src : Src) (s : State) : Host.Outcome State Fault Refusal := .next (s.command src bidCmd 1)

/-- BID_QUERY (Table 8.7). -/
def execBidQuery (src : Src) (val : Word) (s : State) : Host.Outcome State Fault Refusal :=
  .next (s.command src bidQuery val)

end Sys2Proof.Machine
end

