-- ==== Sys2Proof/Machine/Doors.lean ====
section
/-! DEFINITION. Meanings of the commands of the door axes (chapter 9). -/

namespace Sys2Proof.Machine

/-- DOOR_OPEN (R166): DOORx_CMD bit 0. -/
def execDoorOpen (src : Src) (axis : Chan) (s : State) : Host.Outcome State Fault Refusal :=
  .next (s.command src (doorCmd (doorPage axis)) 1)

/-- DOOR_CLOSE (R166): DOORx_CMD bit 1. -/
def execDoorClose (src : Src) (axis : Chan) (s : State) : Host.Outcome State Fault Refusal :=
  .next (s.command src (doorCmd (doorPage axis)) 2)

/-- DOOR_STOP (R166): DOORx_CMD bit 2. -/
def execDoorStop (src : Src) (axis : Chan) (s : State) : Host.Outcome State Fault Refusal :=
  .next (s.command src (doorCmd (doorPage axis)) 4)

/-- DOOR_ARM_ADV (R171): DOORx_CMD bit 3. -/
def execDoorArmAdv (src : Src) (axis : Chan) (s : State) : Host.Outcome State Fault Refusal :=
  .next (s.command src (doorCmd (doorPage axis)) 8)

/-- DOOR_HOME (R178): DOORx_CMD bit 4. -/
def execDoorHome (src : Src) (axis : Chan) (s : State) : Host.Outcome State Fault Refusal :=
  .next (s.command src (doorCmd (doorPage axis)) 16)

/-- DOOR_LEARN (R176): DOORx_CMD bit 5. -/
def execDoorLearn (src : Src) (axis : Chan) (s : State) : Host.Outcome State Fault Refusal :=
  .next (s.command src (doorCmd (doorPage axis)) 32)

/-- DOOR_CLR_FAULT (R167): DOORx_CMD bit 6. -/
def execDoorClrFault (src : Src) (axis : Chan) (s : State) : Host.Outcome State Fault Refusal :=
  .next (s.command src (doorCmd (doorPage axis)) 64)

/-- Encoder position, µm: counts from the closed stop by DOORx_ENC_SCALE. -/
def State.doorActual (s : State) (c : Chan) (count : Int) : Int :=
  (count - (s.door c).cntZero) * s.ri (doorEncScale (doorPage c)) / 65536

/-- The 2.0 ms filter of LC (R168) at 8 kHz: the output changes 16 evaluations after the first sample that differs. -/
def Door.lcFilter (d : Door) (raw : Bool) (tick : Nat) : Door :=
  if raw = d.lcClear then { d with lcCnt := 0 }
  else if 16 ≤ d.lcCnt then { d with lcClear := raw, lcCnt := 0, lcClearAt := if raw then tick else d.lcClearAt }
  else { d with lcCnt := d.lcCnt + 1 }

/-- Whether the stage drives its motor. -/
def State.stageOn (s : State) (c : Chan) : Bool := !s.doorHeld c && (s.door c).st != .off && (s.door c).st != .fault

/-- The phase current amplitude of an evaluation (R157, R158, R161), mA, within the limit in force: adaptive for a stepper, the
torque current of a PMSM. -/
def State.doorAmp (s : State) (c : Chan) (iq theta : Int) (lim : Nat) : Nat :=
  if !s.stageOn c then 0
  else if s.rb (doorCfg (doorPage c)) 1 then
    stepperCurrent (s.dr c doorIHold) (s.dr c doorICeil) lim theta (s.door c).current
  else min iq.natAbs lim

/-- A count of evaluations in a row for which something holds. -/
def runOf (holds : Bool) (n : Nat) : Nat := if holds then min (n + 1) 65535 else 0

/-- The samples of one 8 kHz evaluation (R157, R158, R161, R163, R164): inputs, encoder, current, force, energy. -/
def State.doorSample (s : State) (c : Chan) (i : DoorIn) : State :=
  let cfg := doorCfg (doorPage c)
  let d0 := (s.door c).lcFilter i.lc s.tick
  let n := d0.evals + 1
  let count := s.doorSense c i.count
  let pos := s.doorActual c count
  let lim := s.doorILim c i.temp
  let amp := s.doorAmp c i.iq i.theta lim
  let peaks := peakNote n (decide (derate 8000 i.temp < amp)) d0.peaks
  let d1 := { d0 with
    fltNow := i.flt, lowN := runOf (decide (i.mv < 20000)) d0.lowN, upN := runOf (decide (21000 < i.mv)) d0.upN
    highN := runOf (decide (64000 < i.mv)) d0.highN, downN := runOf (decide (i.mv < 62000)) d0.downN
    restN := runOf (count == d0.count) d0.restN
    lcBlockAt := if d0.lcClear && !d0.defer then none else d0.lcBlockAt
    evals := n, count := count, actVel := (pos - d0.actPos) * 8000, actPos := pos, cl := i.cl != s.rb cfg 7
    ol := i.ol.any (fun x => x != s.rb cfg 8), olWired := i.ol.isSome, temp := i.temp, theta := i.theta, current := amp, iLim := lim, peaks := peaks
    peakOut := d0.peakOut && decide (16000 ≤ peakUsed n peaks)
    stepCnt := if s.rb cfg 1 && decide (16384 < i.theta) then d0.stepCnt + 1 else 0 }
  let t := s.setDoor c d1
  let iq := max (-(lim : Int)) (min i.iq lim)
  let f := t.doorForceOf c (t.doorIq c iq i.theta)
  let hard := decide ((s.dr c doorFmax : Int) < f)
  t.setDoor c { d1 with
    force := f, fLim := hard, fCnt := if hard then d1.fCnt + 1 else 0
    fHold := if (d1.creep || (d1.st == .learn && !d1.olWired)) && decide ((s.dr c doorFmax : Int) < 2 * f) then d1.fHold + 1 else 0
    energy := t.doorEnergyMj c }

/-- A mean as the learning forms it (R176), rounded as the spec's div; of no samples the spec states none. -/
def meanOf (sum : Int) (n : Nat) : Int := if n = 0 then Config.divByZero sum else sum.tdiv n

/-- The next move of a learning (R176): speed mode at half the acceleration and half the speed, towards open on odd
moves. -/
def State.learnMove (s : State) (c : Chan) (l : Learn) : State :=
  let d := s.door c
  let p : Plan := { t0 := s.tick, up := l.moves % 2 == 1, x0 := d.spPos, v0 := 0, segs := speedSegs (s.learnLims c) false 0 0
                    shape := .constJerk, len := none, endX := none }
  s.setDoor c { d with
    plan := if l.moves < 7 then some p else none, creep := false, spVel := 0, spAcc := 0, fCnt := 0, fHold := 0
    learn := some { l with sumAcc := 0, nAcc := 0, sumRun := 0, nRun := 0, startPos := d.actPos } }

/-- The force samples of a learning's move (R176): F of R163 with m = 0 and FRICTION = 0, during full acceleration and in
the cruise. -/
def State.learnSample (s : State) (c : Chan) (l : Learn) (i : DoorIn) : Learn :=
  let d := s.door c
  let L := s.learnLims c
  let sg : Int := if l.moves % 2 = 1 then 1 else -1
  let f := sg * (s.doorIq c i.iq i.theta * s.dr c doorKf / 65536)
  if sg * d.spAcc = L.am * 65536 then { l with sumAcc := l.sumAcc + f, nAcc := l.nAcc + 1 }
  else if d.spAcc = 0 ∧ (sg * d.spVel - L.vm * 65536).natAbs ≤ 65536 then { l with sumRun := l.sumRun + f, nRun := l.nRun + 1 }
  else l

/-- The end of an opening (R162): OL active; where OL is not wired, the force above one half of DOORx_FMAX for 20 ms. -/
def Door.openStop (d : Door) : Bool := if d.olWired then d.ol else decide (160 ≤ d.fHold)

/-- One evaluation of a learning (R176): homing as HOMING, then the moves, each to its stop. -/
def State.learnEval (s : State) (c : Chan) (i : DoorIn) : State :=
  let d := s.door c
  match d.learn with
  | none => s
  | some l =>
    if l.moves = 0 then
      if d.cl ∧ 400 ≤ d.fHold then
        (s.setDoor c { d with cntZero := d.count, actPos := 0, spPos := 0, posLost := false }).learnMove c { l with moves := 1 }
      else s
    else if 7 ≤ l.moves then s
    else
      let l1 := s.learnSample c l i
      let opening := l1.moves % 2 = 1
      if (opening ∧ d.openStop) ∨ (!opening ∧ d.cl) then
        s.learnMove c { l1 with
          moves := l1.moves + 1, forces := (meanOf l1.sumAcc l1.nAcc, meanOf l1.sumRun l1.nRun) :: l1.forces
          travels := if opening then (d.actPos - l1.startPos) :: l1.travels else l1.travels }
      else s.setDoor c { d with learn := some l1 }

/-- Whether the light curtain interrupts (R168): used, not clear, and not in a nudging close. -/
def State.lcBroken (s : State) (c : Chan) : Bool :=
  s.rb (doorCfg (doorPage c)) 5 && !(s.door c).lcClear && !(s.door c).nudge

/-- Whether a learning is in a closing move. -/
def Door.learnCloses (d : Door) : Bool :=
  match d.learn with
  | some l => l.moves == 2 || l.moves == 4 || l.moves == 6
  | none => false

/-- The force limit and the light curtain on the motion in hand (R167, R168, R173, R176), in the order of Table 9.5. A
third obstruction counts as fully open for the scheduler. -/
def State.doorGuard (s : State) (c : Chan) : State :=
  let d := s.door c
  let force := decide (2 ≤ d.fCnt)
  match d.st with
  | .closing => if force then s.doorReverse c true false else if s.lcBroken c then s.doorReverse c true true else s
  | .opening =>
    if force then
      let t := s.doorObstructed c
      if (t.door c).st = .opened then t.schDoorOpened c else t
    else s
  | .geared => if force then s.doorGearAbort c 5 else s
  | .learn => if (force && d.learn.any (fun l => l.moves != 0)) || (d.learnCloses && s.lcBroken c) then s.doorLearnAbort c else s
  | _ => s

/-- DOOR_EVAL (R163): one 8 kHz evaluation of an axis in use. -/
def execDoorEval (axis : Chan) (i : DoorIn) (s : State) : Host.Outcome State Fault Refusal :=
  .next (if s.live ∧ s.doorEn axis then
    let t := s.doorSample axis i
    if t.doorHeld axis then t else (t.doorGuard axis).learnEval axis i
  else s)

/-- STEP_LOSS (R161): θ above 90° for 4 evaluations. -/
def execStepLoss (axis : Chan) (s : State) : Host.Outcome State Fault Refusal :=
  .next (if s.live ∧ 4 ≤ (s.door axis).stepCnt ∧ (s.door axis).st ≠ .fault then (s.doorLosePos axis).doorFaulted axis 6 else s)

/-- DOOR_AUTO_HOME (R167): UNREF with BAND = 0. -/
def execDoorAutoHome (axis : Chan) (s : State) : Host.Outcome State Fault Refusal :=
  .next (if s.live ∧ s.doorEn axis ∧ !s.doorHeld axis ∧ (s.door axis).st = .unref ∧ s.pos.band = 0 then s.doorStartHome axis
    else s)

/-- DOOR_OPEN_END (R162, R129): creeping, and the opening has met its end. -/
def execDoorOpenEnd (axis : Chan) (s : State) : Host.Outcome State Fault Refusal :=
  let d := s.door axis
  .next (if s.live ∧ d.st = .opening ∧ d.creep ∧ d.openStop then (s.doorOpened axis).schDoorOpened axis else s)

/-- A closing has reached its stop (R167): holding current, and the lock timer starts. -/
def State.doorClosedNow (s : State) (c : Chan) : State :=
  (s.setDoor c { s.door c with
    creep := false, plan := none, spPos := s.doorSpNow c, spTick := s.tick, spVel := 0, spAcc := 0, lockAt := some s.tick }).doorInto
    c .closed

/-- DOOR_CLOSE_END (R167): CL active and creep complete. -/
def execDoorCloseEnd (axis : Chan) (s : State) : Host.Outcome State Fault Refusal :=
  let d := s.door axis
  .next (if s.live ∧ d.st = .closing ∧ d.creep ∧ d.cl then s.doorClosedNow axis else s)

/-- HOMING has found the closed stop (R167): position 0, POS_LOST cleared, HOMED. -/
def State.doorHomedNow (s : State) (c : Chan) : State :=
  let d := s.door c
  let t := s.setDoor c { d with
    cntZero := d.count, actPos := 0, spPos := 0, spVel := 0, spAcc := 0, posLost := false, creep := false, plan := none
    cleanClose := false }
  (t.doorInto c .closed).raise (doorPage c) 11

/-- DOOR_HOMED (R167): CL active and the force above one half of DOORx_FMAX for 50 ms. -/
def execDoorHomed (axis : Chan) (s : State) : Host.Outcome State Fault Refusal :=
  let d := s.door axis
  .next (if s.live ∧ d.st = .homing ∧ d.cl ∧ 400 ≤ d.fHold then s.doorHomedNow axis else s)

/-- Whether an axis is homing: by itself, or as the first part of a learning. -/
def Door.homes (d : Door) : Bool := d.st == .homing || (d.st == .learn && d.learn.any (fun l => l.moves == 0))

/-- DOOR_HOME_FAIL (R167): DOORx_WIDTH_UM + 100 mm travelled without CL. -/
def execDoorHomeFail (axis : Chan) (s : State) : Host.Outcome State Fault Refusal :=
  let d := s.door axis
  .next (if s.live ∧ d.homes ∧ !d.cl ∧ ((s.dr axis doorWidthUm : Int) + 100000) * 65536 ≤ d.homeTravel then
    (s.raise (doorPage axis) 16).doorFaulted axis 7 else s)

/-- DOOR_OBSTRUCT_RETRY (R167): OPENING again 1,000 ms after an obstruction. -/
def execDoorObstructRetry (axis : Chan) (s : State) : Host.Outcome State Fault Refusal :=
  let d := s.door axis
  .next (if s.live ∧ d.st = .stopped ∧ d.obsWait ∧ s.since d.stopAt 16000 ∧ s.permit axis ∧ !s.doorHeld axis then
    s.doorStartOpen axis else s)

/-- The lock timer expires without LOCKED (R167): reopening, and CLOSE_FAIL past DOORx_CLOSE_RETRY. -/
def State.doorLockFail (s : State) (c : Chan) : State :=
  let n := (s.door c).retry + 1
  let fail := decide (s.dr c doorCloseRetry < n)
  let t := (s.setDoor c { s.door c with
    retry := n, lockAt := none, cleanOpen := false, cleanClose := false, obstruct := 0 }).doorStartOpen c
  if fail then (t.setDoor c { t.door c with stayOpen := true }).raise (doorPage c) 6 else t

/-- DOOR_LOCK_TIMEOUT (R167). -/
def execDoorLockTimeout (axis : Chan) (s : State) : Host.Outcome State Fault Refusal :=
  let d := s.door axis
  .next (match d.lockAt with
    | none => s
    | some t =>
      if s.live ∧ d.st = .closed ∧ !s.locked axis ∧ s.since t (msTicks (s.dr axis doorLockToMs)) ∧ s.permit axis ∧
        !s.doorHeld axis then s.doorLockFail axis else s)

/-- Whether a deferred close may go on. -/
def State.deferMay (s : State) (c : Chan) : Bool :=
  let d := s.door c
  s.live && d.defer && (d.st == .opened || d.st == .stopped) && !s.doorHeld c && !d.posLost

/-- DOOR_DEFER_END (R167): LC has been clear for DOORx_LC_CLEAR_MS. -/
def execDoorDeferEnd (axis : Chan) (s : State) : Host.Outcome State Fault Refusal :=
  .next (if s.deferMay axis ∧ s.lcOk axis then s.doorStartClose axis else s)

/-- A nudging close (R169). -/
def State.nudgeNow (s : State) (c : Chan) : State := (s.setDoor c { s.door c with nudge := true }).doorStartClose c

/-- DOOR_NUDGE (R169): closing deferred or reversed by LC for DOORx_NUDGE_MS. -/
def execDoorNudge (axis : Chan) (s : State) : Host.Outcome State Fault Refusal :=
  .next (match (s.door axis).lcBlockAt with
    | none => s
    | some t =>
      if s.deferMay axis ∧ s.rb (doorCfg (doorPage axis)) 6 ∧ s.since t (msTicks (s.dr axis doorNudgeMs)) then s.nudgeNow axis
      else s)

/-- DOOR_REVERSE_END (R167): the reversal has reached speed zero. An axis that has lost its PERMIT meanwhile may not open
(R165) and stays STOPPED (log entry 209). -/
def execDoorReverseEnd (axis : Chan) (s : State) : Host.Outcome State Fault Refusal :=
  let d := s.door axis
  .next (if s.live ∧ d.st = .reversing ∧ !s.doorHeld axis ∧ d.plan.all (fun p => p.done s.tick) then
    let t := s.setDoor axis { d with
      plan := none, spPos := (d.plan.map (fun p => (p.at s.tick).x)).getD d.spPos, spTick := s.tick, spVel := 0, spAcc := 0
      obstruct := 0 }
    if t.permit axis then t.doorStartOpen axis else t.doorInto axis .stopped
  else s)

/-- FRIC of R176, 0.1 N: the mean of |F_run| over the moves. -/
def Learn.fric (l : Learn) : Int := meanOf (l.forces.foldl (fun n f => n + f.2.natAbs) 0) l.forces.length

/-- M of R176, g. -/
def Learn.mass (l : Learn) (aL : Int) : Int :=
  meanOf (l.forces.foldl (fun n f => n + (((f.1.natAbs : Int) - f.2.natAbs) * 100000000).tdiv aL) 0) l.forces.length

/-- W of R176, µm. -/
def Learn.width (l : Learn) : Int := meanOf (l.travels.foldl (· + ·) 0) l.travels.length

/-- A learning completes (R176): W, FRIC and M are stored in one step; M above DOORx_MASS_MAX ends it with nothing
stored. -/
def State.learnDone (s : State) (c : Chan) (l : Learn) : State :=
  let pg := doorPage c
  let m := l.mass (s.learnLims c).am
  if (s.dr c doorMassMax : Int) < m then s.doorLearnAbort c
  else
    let t := ((s.wi (doorMassG pg) m).wi (doorWidthUm pg) l.width).wf_ (doorFriction pg) 0 16 (wordI l.fric).toNat
    let d := t.door c
    ((t.setDoor c { d with
      learn := none, learned := true, plan := none, creep := false, spPos := d.actPos * 65536, spVel := 0, spAcc := 0 }).doorInto
      c .closed).raise pg 12

/-- DOOR_LEARN_DONE (R176): the six moves are made. -/
def execDoorLearnDone (axis : Chan) (s : State) : Host.Outcome State Fault Refusal :=
  .next (match (s.door axis).learn with
    | none => s
    | some l => if s.live ∧ (s.door axis).st = .learn ∧ 7 ≤ l.moves then s.learnDone axis l else s)

/-- DOOR_STAGE_FAULT (R167, Table 9.8): codes 1 to 5; OVERTEMP at 135 °C. -/
def execDoorStageFault (axis : Chan) (code : Nat) (s : State) : Host.Outcome State Fault Refusal :=
  .next (if s.live ∧ s.doorEn axis ∧ (s.door axis).st ≠ .fault ∧ (s.door axis).st ≠ .off ∧ 1 ≤ code ∧ code ≤ 5 ∧
      (code = 4 → 1350 ≤ (s.door axis).temp) then
    (s.setDoor axis { s.door axis with fltNow := code }).doorFaulted axis code else s)

/-- Whether an axis is in a state that moves. -/
def Door.moves (d : Door) : Bool :=
  d.plan.isSome || d.creep || d.st == .geared || d.st == .opening || d.st == .closing || d.st == .reversing || d.st == .homing ||
    d.st == .learn

/-- DOOR_UV or DOOR_OV sets on an axis (R159): the stage is off, or shorted, and the door runs out. Its encoder count is
noted when the stage switches off. -/
def State.supplyBad (s : State) (c : Chan) (overLimit : Bool) : State :=
  let d := s.door c
  let off := !overLimit && (d.moving || d.moves)
  s.setDoor c { d with
    uv := d.uv || !overLimit, ov := d.ov || overLimit, moving := d.moving || d.moves
    wasOff := (d.wasOff && d.moving) || off, refCount := if off && !(d.wasOff && d.moving) then d.count else d.refCount
    plan := none, creep := false, spPos := s.doorSpNow c, spTick := s.tick, spVel := 0, spAcc := 0, fCnt := 0 }

/-- The evaluations in a row, of either axis, that bear a change of the supply monitor (R159): 16 make 2 ms at 8 kHz. -/
def State.supplyRun (s : State) (f : Door → Nat) : Nat := max (f s.doorF) (f s.doorR)

/-- DOOR_SUPPLY_FAULT (R159): the supply below 20.0 V, or above 64.0 V, for 2 ms; both axes share it. -/
def execDoorSupplyFault (overLimit : Bool) (s : State) : Host.Outcome State Fault Refusal :=
  .next (if s.up_ ∧ 16 ≤ s.supplyRun (if overLimit then Door.highN else Door.lowN) then
    (s.supplyBad .a overLimit).supplyBad .b overLimit else s)

/-- A request that waited for the supply acts (Table 9.5); its time counts from the request (R177). -/
def State.doorWaited (s : State) (c : Chan) : State :=
  let d := s.door c
  if d.uv || d.ov || d.moving then s
  else match d.waitReq with
    | none => s
    | some o =>
      let t := s.setDoor c { d with waitReq := none }
      let u := if o then (if t.permit c then t.doorOpenAct c else t) else if t.outputsMay && !d.posLost then t.doorCloseAct c else t
      u.setDoor c { u.door c with reqAt := d.waitAt }

/-- The supply is good again on an axis (R159). -/
def State.supplyGood (s : State) (c : Chan) (overLimit : Bool) : State :=
  let d := s.door c
  (s.setDoor c { d with uv := d.uv && overLimit, ov := d.ov && !overLimit }).doorWaited c

/-- DOOR_SUPPLY_RECOVER (R159): the supply above 21.0 V for 2 ms, or below 62.0 V. -/
def execDoorSupplyRecover (overLimit : Bool) (s : State) : Host.Outcome State Fault Refusal :=
  .next (if s.up_ ∧ 16 ≤ s.supplyRun (if overLimit then Door.downN else Door.upN) then
    (s.supplyGood .a overLimit).supplyGood .b overLimit else s)

/-- An axis that was moving when the supply failed has come to rest (R159): POS_LOST where the stage was off and the encoder
has counted more than half a step since. -/
def State.doorRest (s : State) (c : Chan) : State :=
  let d := s.door c
  let s1 := if d.learn.isSome then (s.setDoor c { d with learn := none }).raise (doorPage c) 13 else s
  let e := s1.door c
  let s2 := s1.setDoor c { e with
    moving := false, wasOff := false, spPos := e.actPos * 65536, spTick := s.tick, spVel := 0, spAcc := 0, afterStop := none }
  let s3 := if d.wasOff ∧ s.overHalfStep c (d.count - d.refCount).natAbs then s2.doorLosePos c else s2
  (if d.st = .fault ∨ d.st = .off ∨ d.st = .unref then s3 else s3.doorInto c .stopped).doorWaited c

/-- DOOR_REST_DETECT (R159): the encoder has shown rest for 50 ms, 400 evaluations, and its count still stands where the
last of them saw it. -/
def execDoorRestDetect (axis : Chan) (count : Int) (s : State) : Host.Outcome State Fault Refusal :=
  .next (if s.up_ ∧ (s.door axis).moving ∧ 400 ≤ (s.door axis).restN ∧ s.doorSense axis count = (s.door axis).count
    then s.doorRest axis else s)

/-- DOOR_PEAK_EXHAUSTED (R158): 2.0 s of the last 10 s above the continuous limit. -/
def execDoorPeakExhausted (axis : Chan) (s : State) : Host.Outcome State Fault Refusal :=
  let d := s.door axis
  .next (if s.live ∧ 16000 ≤ peakUsed d.evals d.peaks then s.setDoor axis { d with peakOut := true } else s)

/-- DOOR_STAGE_POWER_UP (R175): the encoder count of the always-on domain, and what it saw while the stage was down. -/
def execDoorStagePowerUp (axis : Chan) (count : Int) (down : DownTime) (s : State) : Host.Outcome State Fault Refusal :=
  .next (if s.live ∧ s.doorEn axis ∧ (s.door axis).st = .off ∧ !s.doorHeld axis then s.doorPowerUp axis count down.overrun down.cut else s)

end Sys2Proof.Machine
end

