-- ==== Sys2Proof/Machine/Frames.lean ====
section
/-! DEFINITION. Meanings of the commands of the safe frame layer and of the CAN controllers (chapters 11 and 12). -/

namespace Sys2Proof.Machine

/-- A frame on an LSF identifier is stored, and taken at the start of the next Electrum cycle (R220). -/
def State.lsfFrame (s : State) (bus : Nat) (f : CanFrame) : State :=
  let t := s.canIncoming bus f
  match t.lsfSlotOf bus f with
  | some k => t.lsfTake k
  | none => t

/-- LSF_FRAME_RX (R220, R221): a frame on an LSF identifier. -/
def execLsfFrameRx (bus : Nat) (frame : CanFrame) (s : State) : Host.Outcome State Fault Refusal :=
  .next (if s.up_ ∧ bus < 4 ∧ frame.ide ∧ idClass frame.id.toNat = 5 then s.lsfFrame bus frame else s)

/-- Whether a slot is an enabled consumer in RUN. -/
def State.lsfRuns (s : State) (k : Nat) : Bool := s.up_ && s.lsfEn k && !s.lsfProd k && (s.lsfn k).st == .run

/-- What the deadline of a slot does once the frames that have come are taken (R223). -/
def State.lsfLate (s : State) (slot : Nat) : State :=
  if s.lsfRuns slot ∧ (s.lsfn slot).deadline < s.us then (s.bump (lsfCnt slot) 24 8).lsfFail slot 1 else s

/-- LSF_TIMEOUT (R223): the deadline has passed with no frame in time. -/
def execLsfTimeout (slot : Nat) (s : State) : Host.Outcome State Fault Refusal :=
  .next (if s.up_ then (s.lsfTake slot).lsfLate slot else s)

/-- LSF_CRC_RATE (R222): LSF_CRC_MAX rejections within 1 s. -/
def execLsfCrcRate (slot : Nat) (s : State) : Host.Outcome State Fault Refusal :=
  .next (if s.lsfRuns slot ∧ s.rn lsfCrcMax ≤ (s.lsfn slot).crcUs.length then s.lsfFail slot 2 else s)

/-- What the confirmation timer of a slot does once the frames that have come are taken (R224). -/
def State.lsfUnconf (s : State) (slot : Nat) : State :=
  let l := s.lsfn slot
  if l.st = .wait ∧ l.conf ∧ l.confUs < s.us then s.setLsf slot { l with conf := false } else s

/-- LSF_CONF_TIMEOUT (R224): the confirmation timer expires. -/
def execLsfConfTimeout (slot : Nat) (s : State) : Host.Outcome State Fault Refusal :=
  .next (if s.up_ then (s.lsfTake slot).lsfUnconf slot else s)

/-- LSF_PRODUCE (R219): the first Electrum cycle at or after a production instant. -/
def execLsfProduce (slot : Nat) (identical : Bool) (s : State) : Host.Outcome State Fault Refusal :=
  .next (if s.up_ ∧ s.lsfEn slot ∧ s.lsfProd slot ∧ (s.lsfn slot).st = .run ∧ (s.lsfn slot).deadline ≤ s.us then
    s.lsfProduceNow slot identical else s)

/-- LSF_RESTART (R227). -/
def execLsfRestart (src : Src) (val : Word) (s : State) : Host.Outcome State Fault Refusal :=
  .next (s.command src lsfRestart val)

/-- LSF_CNT_CLR (R229): LSF_CMD bit 0. -/
def execLsfCntClr (src : Src) (s : State) : Host.Outcome State Fault Refusal := .next (s.command src lsfCmd 1)

/-- CAN_FRAME_RX (R235, R236): a frame passes its validity point. -/
def execCanFrameRx (n : Nat) (frame : CanFrame) (s : State) : Host.Outcome State Fault Refusal :=
  .next (if n < 4 then s.canIncoming n frame else s)

/-- CAN_TX_REQ (R237). -/
def execCanTxReq (src : Src) (n : Nat) (val : Word) (s : State) : Host.Outcome State Fault Refusal :=
  .next (if n < 4 then s.command src (canTxReq (canPage n)) val else s)

/-- CAN_TX_ABORT (R239). -/
def execCanTxAbort (src : Src) (n : Nat) (val : Word) (s : State) : Host.Outcome State Fault Refusal :=
  .next (if n < 4 then s.command src (canTxAbort (canPage n)) val else s)

/-- Whether an object of controller `n` is Bellmetal's: 31, or the bid object (Table 12.4). -/
def State.bidObject (s : State) (n obj : Nat) : Bool := n == 2 && s.rb bidCfg 6 && (obj == 31 || obj == 32)

/-- An attempt ends (R239); Bellmetal learns the outcome of its own frames (R230). An own frame that its receivers have found
valid has had its validity point, and what is left of it is aborted (R143, R145). -/
def State.attemptEnd (s : State) (n obj : Nat) (out : AttemptEnd) (sofUs : Nat) : State :=
  let t := s.canAttempt n obj out sofUs
  if s.bidObject n obj ∧ s.live then match out with
    | .success => if (t.txo n obj).res = .done ∧ (s.txo n obj).res ≠ .done then t.bidSent obj sofUs else t
    | .errorAfterVp _ => if (s.txo n obj).res = .pending then (t.canAbort n obj).bidSent obj sofUs else t
    | .error _ | .lostArbitration => t
  else t

/-- Whether an attempt of a controller can end so (R242, R244): a controller that sleeps completes the frame on the bus, and
the attempt in progress at bus-off counts as an errored one. -/
def State.attemptMay (s : State) (n : Nat) (out : AttemptEnd) : Bool :=
  s.canRuns n || (s.cann n).st == .sleep || ((s.cann n).st == .busOff && out != .success && out != .lostArbitration)

/-- CAN_TX_ATTEMPT_END (R238, R239): of the object that the controller offered at the start of that frame. -/
def execCanTxAttemptEnd (n obj : Nat) (outcome : AttemptEnd) (sofUs : Nat) (s : State) : Host.Outcome State Fault Refusal :=
  .next (if s.up_ ∧ n < 4 ∧ obj ≤ 32 ∧ s.attemptMay n outcome ∧ s.txOffered n obj sofUs then s.attemptEnd n obj outcome sofUs else s)

/-- An error detected by a controller (R242, R243): the counters move as ISO 11898-1 says, an error-passive node's
acknowledgement errors leaving TEC alone. -/
def State.canErrorNow (s : State) (n lec : Nat) (transmitting : Bool) (increment : Nat) : State :=
  let c := s.cann n
  let ack := transmitting && lec == 3
  let c2 : Can :=
    if transmitting then
      { c with
        lec := lec, tec := if ack && c.st == .errorPassive then c.tec else min (c.tec + increment) 256
        ackRun := if ack then min (c.ackRun + 1) 63 else 0 }
    else { c with lec := lec, recE := min (c.recE + increment) 255 }
  (s.setCan n c2).canErrState n

/-- CAN_ERROR (R242). -/
def execCanError (n lec : Nat) (transmitting : Bool) (increment : Nat) (s : State) : Host.Outcome State Fault Refusal :=
  .next (if s.up_ ∧ n < 4 ∧ 1 ≤ lec ∧ lec ≤ 6 ∧ s.canRuns n then s.canErrorNow n lec transmitting increment else s)

/-- Bus-off (R242): BUS_OFF, its count, the recorder. -/
def State.busOffNow (s : State) (n : Nat) : State :=
  let t := ((s.canInto n .busOff).raise (canPage n) 3).bump (canCntErr (canPage n)) 0 8
  t.fire 0xB (pack [(0, 2, n), (8, 24, (t.canErrcW n).toNat)])

/-- CAN_BUS_OFF (R242): the transmit error counter has passed 255. -/
def execCanBusOff (n : Nat) (s : State) : Host.Outcome State Fault Refusal :=
  .next (if s.up_ ∧ n < 4 ∧ s.canRuns n ∧ 256 ≤ (s.cann n).tec then s.busOffNow n else s)

/-- CAN_BUSOFF_RECOVERY (R242): 128 occurrences of 11 recessive bits. -/
def execCanBusoffRecovery (n : Nat) (s : State) : Host.Outcome State Fault Refusal :=
  .next (if s.up_ ∧ n < 4 ∧ (s.cann n).st = .busOff then
    (s.setCan n { s.cann n with tec := 0, recE := 0 }).canInto n .errorActive else s)

/-- CAN_ALONE (R243): the 32nd consecutive acknowledgement error. -/
def execCanAlone (n : Nat) (s : State) : Host.Outcome State Fault Refusal :=
  .next (if s.up_ ∧ n < 4 ∧ 32 ≤ (s.cann n).ackRun ∧ !(s.cann n).alone then
    (s.setCan n { s.cann n with alone := true }).raise (canPage n) 2 else s)

/-- CAN_SLEEP (R244): CANn_CTRL.SLEEP written 1. -/
def execCanSleep (src : Src) (n : Nat) (s : State) : Host.Outcome State Fault Refusal :=
  .next (if n < 4 then s.command src (canCtrl (canPage n)) (Word.setBits (s.rd (canCtrl (canPage n))) 1 1 1) else s)

/-- CAN_LOCAL_WAKE (R244): CANn_CTRL.SLEEP written 0. -/
def execCanLocalWake (src : Src) (n : Nat) (s : State) : Host.Outcome State Fault Refusal :=
  .next (if n < 4 then s.command src (canCtrl (canPage n)) (Word.setBits (s.rd (canCtrl (canPage n))) 1 1 0) else s)

/-- Whether what the bus shows wakes a controller, and its code (R244, Table 12.6). -/
def State.wakeCode (s : State) (n : Nat) (cause : CanWake) (frame : Option CanFrame) : Option Nat :=
  let cfg := canCfg (canPage n)
  if !s.rb cfg 4 then none
  else match cause with
    | .pattern => if s.rb cfg 3 then none else some 1
    | .frame => if s.rb cfg 3 && frame.any (fun f => s.wakeMatch n f) then some 2 else none
    | .frameErr => if s.rb cfg 3 then some 3 else none

/-- A CAN wake (R244, R363, R364): the controller, and the module from PARK or DEEP. -/
def State.canWoken (s : State) (n code : Nat) : State :=
  let w : WakeCause := .can (BitVec.ofNat 4 (2 ^ n))
  match s.sys.run with
  | .deep => s.deepEnd w
  | .park => if (s.cann n).st = .sleep then (s.canWakeNow n code).parkEnd w else s
  | _ => if s.up_ then s.canWakeNow n code else s

/-- CAN_WAKE (R244). -/
def execCanWake (n : Nat) (cause : CanWake) (frame : Option CanFrame) (s : State) : Host.Outcome State Fault Refusal :=
  .next (match s.wakeCode n cause frame with
    | some k => if n < 4 then s.canWoken n k else s
    | none => s)

/-- CAN_INTEGRATE (R246): 11 recessive bits; the controller is error-active. -/
def execCanIntegrate (n : Nat) (s : State) : Host.Outcome State Fault Refusal :=
  .next (if s.up_ ∧ n < 4 ∧ (s.cann n).integrating then
    (s.setCan n { s.cann n with integrating := false }).canInto n .errorActive else s)

/-- CAN_CNT_CLR (R246): CANn_CMD bit 0. -/
def execCanCntClr (src : Src) (n : Nat) (s : State) : Host.Outcome State Fault Refusal :=
  .next (if n < 4 then s.command src (canCmd (canPage n)) 1 else s)

end Sys2Proof.Machine
end

