-- ==== Sys2Proof/Machine/Field.lean ====
section
/-! DEFINITION. Meanings of the commands of the field channels (chapter 13). -/

namespace Sys2Proof.Machine

/-- The channel of a landing's button, in use by the scheduler (R132). -/
def State.buttonCh (s : State) (n : Nat) : Option Nat :=
  if s.enabled n && Word.bit (s.lt n 0x10) 16 then some (Word.bits (s.lt n 0x10) 0 8) else none

/-- Buttons out of use, or whose channel takes its first setting in group `g`, must be seen inactive again (R132). -/
def State.btnDisarm (s : State) (g : Nat) : State :=
  let stays (n : Nat) : Bool := match s.buttonCh n with
    | none => false
    | some c => !(chGroup c == g && (s.chField g (c % 32) 0 2 != 1 || s.firstSetting g (c % 32)))
  { s with sch := { s.sch with
      btnArmed := s.sch.btnArmed.filter stays, btnStuck := s.sch.btnStuck.filter stays
      btnOn := s.sch.btnOn.filter (fun x => stays x.1) } }

/-- A landing's button after a filter tick of group `g` that changed the channels `ch` (R132). -/
def State.btnTick (s : State) (g : Nat) (ch : List (Nat × Bool)) (n : Nat) : State :=
  match s.buttonCh n with
  | none => s
  | some c =>
    if chGroup c ≠ g ∨ s.chField g (c % 32) 0 2 ≠ 1 then s
    else if Word.bit (s.grp g).filt (c % 32) then
      (if ch.contains (c % 32, true) then s.buttonOn n true
       else if (alook s.sch.btnOn n).isNone then s.buttonOn n false else s)
    else if s.sch.btnArmed.contains n ∧ (alook s.sch.btnOn n).isNone then s
    else s.buttonOff n

/-- Whether a change of channel `i` wakes the module from PARK (R363). -/
def State.fieldWakes (s : State) (g i : Nat) : Bool :=
  s.rb (fiogCosRise (grpPage g)) i || s.rb (fiogCosFall (grpPage g)) i || !(s.buttonsOf ((g - 1) * 32 + i)).isEmpty

/-- A filter tick of a group with what follows from it (R132, R248, R249, R363). -/
def State.fieldTick (s : State) (g : Nat) (raw : Word) : State :=
  if !(s.grp g).supply.good then s.filterTick g raw
  else
    let ch := s.filtChanges g raw
    let t := (s.btnDisarm g).filterTick g raw
    let u := if t.sys.run = .park ∧ ch.any (fun x => s.fieldWakes g x.1) then t.parkEnd .fieldOrCall else t
    each u.landings u (fun w n => w.btnTick g ch n)

/-- FIELD_FILTER_TICK (R248). -/
def execFieldFilterTick (group : Nat) (raw : Word) (s : State) : Host.Outcome State Fault Refusal :=
  .next (if s.up_ ∧ 1 ≤ group ∧ group ≤ 8 then s.fieldTick group raw else s)

/-- FIO_OUT_SET (R254). -/
def execFioOutSet (src : Src) (group : Nat) (val : Word) (s : State) : Host.Outcome State Fault Refusal :=
  .next (if 1 ≤ group ∧ group ≤ 8 then s.command src (fiogOutSet (grpPage group)) val else s)

/-- FIO_OUT_CLR (R254). -/
def execFioOutClr (src : Src) (group : Nat) (val : Word) (s : State) : Host.Outcome State Fault Refusal :=
  .next (if 1 ≤ group ∧ group ≤ 8 then s.command src (fiogOutClr (grpPage group)) val else s)

/-- FIO_TSD (R251): a thermal shutdown of an output. -/
def execFioTsd (channel : Nat) (s : State) : Host.Outcome State Fault Refusal :=
  .next (if s.up_ ∧ channel < 256 then s.tsdSet channel else s)

/-- FIO_TSD_RECOVER (R251): the junction has cooled below 155 °C. -/
def execFioTsdRecover (channel : Nat) (s : State) : Host.Outcome State Fault Refusal :=
  .next (if s.up_ ∧ channel < 256 ∧ Word.bit (s.grp (chGroup channel)).tsdHot (channel % 32) then s.tsdCool channel else s)

/-- FIO_TSD_CLR (R251). -/
def execFioTsdClr (src : Src) (group : Nat) (val : Word) (s : State) : Host.Outcome State Fault Refusal :=
  .next (if 1 ≤ group ∧ group ≤ 8 then s.command src (fiogTsdClr (grpPage group)) val else s)

/-- A group's output current has exceeded 6.0 A for 100 ms (R251). -/
def State.grpOcNow (s : State) (g : Nat) : State :=
  ((s.setGrp g { s.grp g with grpOc := true }).raise (grpPage g) 7).fire 0xC (pack [(0, 8, (g - 1) * 32), (8, 1, 1)])

/-- GRP_OC (R251). -/
def execGrpOc (group : Nat) (s : State) : Host.Outcome State Fault Refusal :=
  .next (if s.up_ ∧ 1 ≤ group ∧ group ≤ 8 ∧ !(s.grp group).grpOc then s.grpOcNow group else s)

/-- FIO_GRP_CLR (R251): FIOGg_CMD bit 0. -/
def execFioGrpClr (src : Src) (group : Nat) (s : State) : Host.Outcome State Fault Refusal :=
  .next (if 1 ≤ group ∧ group ≤ 8 then s.command src (fiogCmd (grpPage group)) 1 else s)

/-- FIO_DIAG_CHANGE (R251). -/
def execFioDiagChange (channel : Nat) (kind : Diag) (present : Bool) (s : State) : Host.Outcome State Fault Refusal :=
  .next (if s.up_ ∧ channel < 256 then s.diagSet channel kind present else s)

/-- FIELD_SUPPLY_CHANGE (R256): a supply voltage that has held for 2 ms, or the first measurement. -/
def execFieldSupplyChange (group mv : Nat) (s : State) : Host.Outcome State Fault Refusal :=
  .next (if s.up_ ∧ 1 ≤ group ∧ group ≤ 8 then s.supplySet group mv else s)

/-- FIO_CHANNEL_CFG (R255). -/
def execFioChannelCfg (src : Src) (channel : Nat) (val : Word) (s : State) : Host.Outcome State Fault Refusal :=
  .next (if channel < 256 then s.command src (fiogChCfg (grpPage (chGroup channel)) + 4 * (channel % 32)) val else s)

/-- SILENCE_TIMEOUT (R257): the deadline has passed. -/
def execSilenceTimeout (s : State) : Host.Outcome State Fault Refusal :=
  .next (match s.sil.deadline with
    | none => s
    | some d => if s.up_ ∧ !s.sil.silent ∧ d < s.us then s.silExpire else s)

/-- SIL_ACK (R257): FIO_CMD bit 0. -/
def execSilAck (src : Src) (s : State) : Host.Outcome State Fault Refusal := .next (s.command src fioCmd 1)

end Sys2Proof.Machine
end

