-- ==== Sys2Proof/Machine/Pairing.lean ====
section
/-! DEFINITION. Meanings of the commands of pairing and authority (chapter 15). -/

namespace Sys2Proof.Machine

/-- BAND_CHANGE (R281, R282): the loop current, and for how long it has stayed inside its band, or outside every band. -/
def execBandChange (loopUa heldUs : Nat) (s : State) : Host.Outcome State Fault Refusal :=
  .next (s.bandInto loopUa heldUs)

/-- PRESENT_STABLE (R283): the own contact stable for 200 ms. -/
def execPresentStable (s : State) : Host.Outcome State Fault Refusal := .next s.presentNow

/-- PRESENT_OPEN (R283): the own contact opens. -/
def execPresentOpen (s : State) : Host.Outcome State Fault Refusal := .next s.presentLost

/-- CLAIM (R286). -/
def execClaim (s : State) : Host.Outcome State Fault Refusal := .next (if s.up_ then s.claimNow else s)

/-- CLAIM_SETTLE_END (R287). -/
def execClaimSettleEnd (s : State) : Host.Outcome State Fault Refusal := .next (if s.up_ then s.claimDone else s)

/-- ISOLATED_EXIT (Table 15.3). -/
def execIsolatedExit (s : State) : Host.Outcome State Fault Refusal := .next (if s.up_ then s.isolatedEnd else s)

/-- ECHO_WINDOW (R294). -/
def execEchoWindow (s : State) : Host.Outcome State Fault Refusal := .next (if s.up_ then s.echoOpen else s)

/-- ECHO_STOP (R294). -/
def execEchoStop (s : State) : Host.Outcome State Fault Refusal := .next (if s.up_ then s.echoEnd else s)

/-- MIRROR_EPOCH_RX (R291): the closing frame of an epoch has been received. -/
def execMirrorEpochRx (e : Epoch) (s : State) : Host.Outcome State Fault Refusal := .next (s.epochRx e)

/-- MIRROR_EPOCH_APPLY (R291): at the next period tick. -/
def execMirrorEpochApply (s : State) : Host.Outcome State Fault Refusal := .next (if s.up_ then s.epochApply else s)

/-- MIRROR_STALE (R291). -/
def execMirrorStale (s : State) : Host.Outcome State Fault Refusal := .next (if s.up_ then s.epochAged else s)

/-- PARTNER_LINK_DOWN (R293). -/
def execPartnerLinkDown (s : State) : Host.Outcome State Fault Refusal :=
  .next (if s.up_ ∧ s.part.linkUp then s.linkLost else s)

/-- PARTNER_LINK_UP (R296). -/
def execPartnerLinkUp (s : State) : Host.Outcome State Fault Refusal := .next s.linkBack

/-- RESYNC_COMPLETE (R296). -/
def execResyncComplete (s : State) : Host.Outcome State Fault Refusal := .next (if s.up_ then s.resyncDone else s)

/-- ROLE_EXCHANGE (R295): once a period, at the first moment at which the conditions hold. -/
def execRoleExchange (s : State) : Host.Outcome State Fault Refusal :=
  .next (if s.live ∧ s.rb partCfg 0 ∧ s.part.xchDueMs = 0 ∧ s.xchMay then s.xchNow else s)

/-- XCH_NOW (R295): PART_CMD bit 0. -/
def execXchNow (src : Src) (s : State) : Host.Outcome State Fault Refusal := .next (s.command src partCmd 1)

/-- XCH_HOLD_END (R295). -/
def execXchHoldEnd (s : State) : Host.Outcome State Fault Refusal := .next (if s.up_ then s.xchHoldEnd else s)

/-- PART_RESYNC (Table 15.8): PART_CMD bit 1. -/
def execPartResync (src : Src) (s : State) : Host.Outcome State Fault Refusal := .next (s.command src partCmd 2)

/-- PART_CNT_CLR (Table 15.8): PART_CMD bit 2. -/
def execPartCntClr (src : Src) (s : State) : Host.Outcome State Fault Refusal := .next (s.command src partCmd 4)

end Sys2Proof.Machine
end

