-- ==== Sys2Proof/Machine/Recorder.lean ====
section
/-! DEFINITION. Meanings of the commands of the event recorder (chapter 16). -/

namespace Sys2Proof.Machine

/-- FLUSH_START (R308). -/
def execFlushStart (s : State) : Host.Outcome State Fault Refusal := .next (if s.up_ then s.flushStart else s)

/-- RECORDS_LOST_STAGE (R307): the kept place is free, so at most 63 places hold unwritten records. -/
def execRecordsLostStage (s : State) : Host.Outcome State Fault Refusal := .next (if s.up_ then s.stageLost else s)

/-- REC_FLUSH (R308): REC_CMD bit 0. -/
def execRecFlush (src : Src) (s : State) : Host.Outcome State Fault Refusal := .next (s.command src recCmd 1)

/-- REC_WALL_SET (R310): REC_CMD bit 1. -/
def execRecWallSet (src : Src) (s : State) : Host.Outcome State Fault Refusal := .next (s.command src recCmd 2)

/-- REC_FIRE (R301): REC_CMD bit 2 with its slot. -/
def execRecFire (src : Src) (slot : Nat) (s : State) : Host.Outcome State Fault Refusal :=
  .next (s.command src recCmd (pack [(2, 1, 1), (8, 6, slot)]))

/-- REC_CNT_CLR (R312): REC_CMD bit 3. -/
def execRecCntClr (src : Src) (s : State) : Host.Outcome State Fault Refusal := .next (s.command src recCmd 8)

/-- REC_READ (R311): a write to REC_RD_SEQ. -/
def execRecRead (src : Src) (seq : Word) (s : State) : Host.Outcome State Fault Refusal :=
  .next (s.command src recRdSeq seq)

/-- COUNTER_SAVE (R305): every 10 min of operating time. -/
def execCounterSave (s : State) : Host.Outcome State Fault Refusal :=
  .next (if s.up_ ∧ s.rcd.savedAt + 600000 ≤ s.rcd.optime then s.counterSave else s)

/-- FINAL_SAVE (R309): 30 ms after the warning. -/
def execFinalSave (s : State) : Host.Outcome State Fault Refusal :=
  .next (if s.up_ ∧ s.finalDue then s.finalSave else s)

end Sys2Proof.Machine
end

