-- ==== Sys2Proof/Machine/Keys.lean ====
section
/-! DEFINITION. Meanings of the commands of keys, identity and tamper (chapter 17). A key command is a write to KEY_CMD
with its OP (Table 17.6); an accepted one runs until KEY_COMMAND_DONE. -/

namespace Sys2Proof.Machine

/-- A KEY_CMD write whose OP is the row's (R323). -/
def State.keyWrite (s : State) (op : Nat) (src : Src) (cmd : Word) : State :=
  if Word.bits cmd 0 8 = op then s.command src keyCmd cmd else s

/-- KEY_LOAD (R323): OP 1 unwraps a blob into a free slot. -/
def execKeyLoad (src : Src) (cmd : Word) (s : State) : Host.Outcome State Fault Refusal := .next (s.keyWrite 1 src cmd)

/-- KEY_UNLOAD (R323): OP 2 clears a slot. -/
def execKeyUnload (src : Src) (cmd : Word) (s : State) : Host.Outcome State Fault Refusal := .next (s.keyWrite 2 src cmd)

/-- KEY_REPLACE (R323): OP 3 unwraps a new blob into the slot's shadow (R325). -/
def execKeyReplace (src : Src) (cmd : Word) (s : State) : Host.Outcome State Fault Refusal := .next (s.keyWrite 3 src cmd)

/-- KEY_GENERATE (R323): OP 4 makes a random key. -/
def execKeyGenerate (src : Src) (cmd : Word) (s : State) : Host.Outcome State Fault Refusal := .next (s.keyWrite 4 src cmd)

/-- KEY_IMPORT (R323): OP 5 unwraps a transported key. -/
def execKeyImport (src : Src) (cmd : Word) (s : State) : Host.Outcome State Fault Refusal := .next (s.keyWrite 5 src cmd)

/-- KEY_DERIVE (R323): OP 6 derives a key from its parent. -/
def execKeyDerive (src : Src) (cmd : Word) (s : State) : Host.Outcome State Fault Refusal := .next (s.keyWrite 6 src cmd)

/-- KEY_STORE_RES (R323): OP 7 writes a resident blob (R321). -/
def execKeyStoreRes (src : Src) (cmd : Word) (s : State) : Host.Outcome State Fault Refusal := .next (s.keyWrite 7 src cmd)

/-- KEY_ERASE_RES (R323): OP 8 erases a resident blob (R321). -/
def execKeyEraseRes (src : Src) (cmd : Word) (s : State) : Host.Outcome State Fault Refusal := .next (s.keyWrite 8 src cmd)

/-- ATTEST_KEY (R323): OP 9 signs a key statement (R329). -/
def execAttestKey (src : Src) (cmd : Word) (s : State) : Host.Outcome State Fault Refusal := .next (s.keyWrite 9 src cmd)

/-- ATTEST_DEV (R323): OP 10 signs a device statement (R329). -/
def execAttestDev (src : Src) (cmd : Word) (s : State) : Host.Outcome State Fault Refusal := .next (s.keyWrite 10 src cmd)

/-- ID_PUB (R323): OP 11 gives the identity public key. -/
def execIdPub (src : Src) (cmd : Word) (s : State) : Host.Outcome State Fault Refusal := .next (s.keyWrite 11 src cmd)

/-- NONCE (R323): OP 12 places a new KEY_NONCE. -/
def execNonce (src : Src) (cmd : Word) (s : State) : Host.Outcome State Fault Refusal := .next (s.keyWrite 12 src cmd)

/-- LC_TRANSITION (R315): OP 13 with ARG TOKEN or TICKET: the object of the buffer asks for the transition. -/
def execLcTransition (src : Src) (cmd : Word) (s : State) : Host.Outcome State Fault Refusal :=
  .next (if Word.bits cmd 24 8 = 0x10 then s else s.keyWrite 13 src cmd)

/-- LC_RETURN (R315): OP 13 with ARG RETURN. -/
def execLcReturn (src : Src) (cmd : Word) (s : State) : Host.Outcome State Fault Refusal :=
  .next (if Word.bits cmd 24 8 = 0x10 then s.keyWrite 13 src cmd else s)

/-- VERIFY (R323): OP 14 checks a signed object (R319). -/
def execVerify (src : Src) (cmd : Word) (s : State) : Host.Outcome State Fault Refusal := .next (s.keyWrite 14 src cmd)

/-- KEYMGMT (R323): OP 15 enrols or revokes a public key (R318). -/
def execKeymgmt (src : Src) (cmd : Word) (s : State) : Host.Outcome State Fault Refusal := .next (s.keyWrite 15 src cmd)

/-- KEY_COMMAND_DONE (R323). -/
def execKeyCommandDone (s : State) : Host.Outcome State Fault Refusal := .next (if s.up_ then s.keyDone else s)

/-- KEY_SWAP (R325): at a tick at which no operation uses the slot. -/
def execKeySwap (slot : Nat) (s : State) : Host.Outcome State Fault Refusal := .next (if s.up_ then s.keySwap slot else s)

/-- KEY_REMASK (R324): every slot but one a command uses. -/
def State.remaskAll (s : State) : State :=
  let t := each (s.key.slots.map (fun (k : Nat × KeySlot) => k.1)) s (fun u n => if u.jobUses n then u else u.remaskSlot n)
  { t with key := { t.key with remaskAt := s.tick } }

/-- KEY_REMASK (R324): once in each KEY_REMASK_MS. -/
def execKeyRemask (s : State) : Host.Outcome State Fault Refusal :=
  .next (if s.up_ ∧ s.key.remaskAt + msTicks (s.rn keyRemaskMs) ≤ s.tick then s.remaskAll else s)

/-- The identity of the state in force can be prepared (R313, R328). -/
def State.identityMay (s : State) : Bool := s.key.rootOk && (lcName s.lc).isSome && !s.idxLost

/-- ID_READY (R328): the top tree and the lower tree of the next index are prepared. -/
def execIdReady (s : State) : Host.Outcome State Fault Refusal :=
  .next (if s.up_ ∧ s.identityMay ∧ s.key.lowerBuild.isNone then { s with key := { s.key with idReady := true } } else s)

/-- LOWER_TREE_BUILD (R328): the next lower tree is built, and ID_READY is 1 again. -/
def execLowerTreeBuild (s : State) : Host.Outcome State Fault Refusal :=
  .next (if s.up_ ∧ s.key.lowerBuild.isSome then { s with key := { s.key with lowerBuild := none, idReady := s.identityMay } } else s)

/-- SERVICE_EXPIRY (R316): the ticket's operating time is over. -/
def execServiceExpiry (s : State) : Host.Outcome State Fault Refusal :=
  .next (match s.key.service with
    | none => s
    | some t => if s.up_ ∧ t ≤ s.rcd.optime then s.serviceEnd else s)

/-- A tamper event wakes the module from PARK and from DEEP (Table 17.10). -/
def State.tamperWake (s : State) : State :=
  if !s.tamp.tamperNow then s
  else match s.sys.run with
    | .park => s.parkEnd .tamper
    | .deep => s.deepEnd .tamper
    | _ => s

/-- TAMPER_EVENT (R331, R332): the sources active now. An unpowered module detects nothing. -/
def execTamperEvent (sources : BitVec 4) (s : State) : Host.Outcome State Fault Refusal :=
  .next (if s.sys.run = .unpowered then s
    else
      let t := { s with tamp := { s.tamp with tamperNow := false } }
      let u := (t.tampered sources.toNat).tamperWake
      { u with tamp := { u.tamp with tamperNow := s.tamp.tamperNow || u.tamp.tamperNow } })

/-- TAMPER_RELEASE (R333): TAMP_CMD bit 0. -/
def execTamperRelease (src : Src) (s : State) : Host.Outcome State Fault Refusal := .next (s.command src tampCmd 1)

/-- Enrolment (Table 17.2): the helper data and the vendor root keys are written, and the state becomes VENDOR. The root
is regenerated at the next start (R313). -/
def State.enrolNow (s : State) (helper : List Byte) (roots : List (List Byte)) : State :=
  let keys := (List.range 2).map (fun i => match roots[i]? with
    | some k => (⟨true, false, k⟩ : PubKey)
    | none => ⟨false, false, []⟩)
  { s with key := { s.key with helper := helper, vendorKeys := keys } }.lcEnter .vendor none

/-- ENROLMENT (R315): only in BLANK. -/
def execEnrolment (helper : List Byte) (vendorRoots : List (List Byte)) (s : State) : Host.Outcome State Fault Refusal :=
  .next (if s.up_ ∧ s.key.lcOtp = .blank then s.enrolNow helper vendorRoots else s)

end Sys2Proof.Machine
end

