-- ==== Sys2Proof/Machine/Clocks.lean ====
section
/-! DEFINITION. Meanings of the commands of clocks, resets, stored profiles, power states and supply (chapters 0, 18, 19). -/

namespace Sys2Proof.Machine

/-- START_ATTEMPT (R338, R351). -/
def execStartAttempt (i : StartIn) (s : State) : Host.Outcome State Fault Refusal := .next (s.startAttempt i)

/-- CLOCK_HOLD_END (R339): 328 LPO periods. -/
def execClockHoldEnd (s : State) : Host.Outcome State Fault Refusal := .next s.holdEnd

/-- INVAR_WINDOW (R341, R343). -/
def execInvarWindow (count : Nat) (s : State) : Host.Outcome State Fault Refusal := .next (s.invar count)

/-- XO_STOP (R341, R343). -/
def execXoStop (s : State) : Host.Outcome State Fault Refusal := .next s.xoStopped

/-- PLL_LOSS_OF_LOCK (R341, R343): the root PLL, or the backup PLL. -/
def execPllLossOfLock (backup : Bool) (s : State) : Host.Outcome State Fault Refusal := .next (s.pllLost backup)

/-- IRC_TRIM (R341): every 10 ms, at most one step. -/
def execIrcTrim (up : Bool) (s : State) : Host.Outcome State Fault Refusal := .next (s.trimStep up)

/-- IRC_FAIL (R343): IRC-A stops. -/
def execIrcFail (s : State) : Host.Outcome State Fault Refusal := .next s.ircStop

/-- FALLBACK_ACC_1PCT (R342): CLK_FB_MS reaches 600,000. -/
def execFallbackAcc1pct (s : State) : Host.Outcome State Fault Refusal :=
  .next (if s.up_ ∧ s.clk.fallback ∧ !s.clk.acc1 ∧ 600000 ≤ s.clk.fbTicks / 16 then
    ({ s with clk := { s.clk with acc1 := true } }).raise pgClk 3 else s)

/-- CLK_GATE_WRITE (R345). -/
def execClkGateWrite (src : Src) (val : Word) (s : State) : Host.Outcome State Fault Refusal :=
  .next (s.command src clkGate val)

/-- The end of a drain (R346): the gates stop, or the write is refused with E_BUSY and nothing changes. -/
def State.drainEnd (s : State) (ended : Bool) : State :=
  match s.clk.drain with
  | none => s
  | some (port, val) =>
    let t := { s with clk := { s.clk with drain := none } }
    if ended then t.wr clkGate val else t.reject ⟨port, .control, none⟩ clkGate 4

/-- GATE_DRAIN_END (R346). -/
def execGateDrainEnd (ended : Bool) (s : State) : Host.Outcome State Fault Refusal :=
  .next (if s.up_ then s.drainEnd ended else s)

/-- CLKOUT_RECONFIG (R348): the end of the present output period. -/
def execClkoutReconfig (s : State) : Host.Outcome State Fault Refusal :=
  .next (match s.clk.outPend with
    | none => s
    | some w => if s.up_ then { s with clk := { s.clk with outCfg := w, outPend := none } } else s)

/-- POWER_ON_RESET (R350): LOGIC rises while the always-on domain is unpowered. -/
def execPowerOnReset (s : State) : Host.Outcome State Fault Refusal := .next (s.resetBy .por)

/-- BROWN_OUT_RESET (R357): LOGIC has not recovered 50 ms after the warning, or sooner where no hold-up is charged. -/
def State.brownOutDue (s : State) : Bool :=
  match s.sys.pfw with
  | some t => s.since t 800 || !s.sys.holdup
  | none => !s.up_

/-- BROWN_OUT_RESET (R357). -/
def execBrownOutReset (s : State) : Host.Outcome State Fault Refusal :=
  .next (if s.brownOutDue then s.brownOut else s)

/-- PIN_RESET (R356): it takes effect with the car at a standstill, or with the IMMEDIATE strap fitted. -/
def execPinReset (s : State) : Host.Outcome State Fault Refusal :=
  .next (if s.up_ ∧ !s.standstill ∧ !s.sys.immediate then s else s.resetBy .pin)

/-- WATCHDOG_RESET (R350). -/
def execWatchdogReset (s : State) : Host.Outcome State Fault Refusal := .next (s.resetBy .wdog)

/-- SOFT_RESET (R350): SYS_CMD bit 0 with its key. -/
def execSoftReset (src : Src) (cmd : Word) (s : State) : Host.Outcome State Fault Refusal :=
  .next (if Word.bit cmd 0 then s.command src sysCmd cmd else s)

/-- SAFE_RESET (R350): Electrum first trips with cause MODULE. -/
def execSafeReset (s : State) : Host.Outcome State Fault Refusal :=
  .next ((if s.up_ then s.trip 15 else s).resetBy .safe)

/-- PART_RESET (R350): accepted only in STANDBY or ISOLATED. -/
def execPartReset (s : State) : Host.Outcome State Fault Refusal :=
  .next (if s.part.role = .standby ∨ s.part.role = .isolated then s.resetBy .part else s)

/-- CLK_RESET (R343). -/
def execClkReset (s : State) : Host.Outcome State Fault Refusal := .next (s.resetBy .clk)

/-- RESET_BUTTON_RELEASE (R355, R356). -/
def execResetButtonRelease (pressMs : Nat) (immediate : Bool) (s : State) : Host.Outcome State Fault Refusal :=
  .next (s.buttonRelease pressMs immediate)

/-- RESET_BUTTON_STUCK (R355): the press passes 10 s. One that began while a reset is deferred changes nothing. -/
def execResetButtonStuck (s : State) : Host.Outcome State Fault Refusal :=
  .next (if s.up_ ∧ s.sys.btnArmed ∧ s.sys.pinDefer.isNone then
    ({ s with sys := { s.sys with stuck := true, btnArmed := false } }).raise pgSys 4 else s)

/-- RESET_BUTTON_REARM (R355): seen released for 1 s. -/
def execResetButtonRearm (s : State) : Host.Outcome State Fault Refusal :=
  .next (if s.up_ ∧ !s.sys.btnArmed then { s with sys := { s.sys with stuck := false, btnArmed := true } } else s)

/-- DEFERRED_PIN_RESET (R356). -/
def execDeferredPinReset (s : State) : Host.Outcome State Fault Refusal := .next (if s.up_ then s.pinDeferred else s)

/-- POWER_FAIL_WARNING (R357). -/
def execPowerFailWarning (mv : Nat) (s : State) : Host.Outcome State Fault Refusal := .next (s.powerWarn mv)

/-- POWER_RECOVERY (R357): LOGIC at or above 17.0 V for 10 ms. -/
def execPowerRecovery (mv : Nat) (s : State) : Host.Outcome State Fault Refusal := .next (s.powerBack mv)

/-- HOLDUP_READY (R357). -/
def execHoldupReady (s : State) : Host.Outcome State Fault Refusal :=
  .next (if s.sys.run = .unpowered then s else { s with sys := { s.sys with holdup := true } })

/-- PROF_DATA_WRITE (R360): a write to SYS_PROF_DATA. -/
def execProfDataWrite (src : Src) (val : Word) (s : State) : Host.Outcome State Fault Refusal :=
  .next (s.command src sysProfData val)

/-- PROF_STORE (R360): SYS_CMD bit 1 with its slot. -/
def execProfStore (src : Src) (slot : BitVec 2) (s : State) : Host.Outcome State Fault Refusal :=
  .next (s.command src sysCmd (pack [(1, 1, 1), (2, 2, slot.toNat)]))

/-- PROF_STORE_DONE (R360). -/
def execProfStoreDone (writeOk : Bool) (s : State) : Host.Outcome State Fault Refusal :=
  .next (if s.up_ then s.profStoreEnd writeOk else s)

/-- PROFILE_OVR_WRITE (R359). -/
def execProfileOvrWrite (src : Src) (val : Word) (s : State) : Host.Outcome State Fault Refusal :=
  .next (s.command src sysProfileOvr val)

/-- PARK (R362): PWR_CMD bit 0. -/
def execPark (src : Src) (s : State) : Host.Outcome State Fault Refusal := .next (s.command src pwrCmd 1)

/-- AUTO_PARK (R362): the conditions have held for PWR_PARK_IDLE_S. -/
def execAutoPark (s : State) : Host.Outcome State Fault Refusal :=
  .next (if s.live ∧ s.rb pwrCfg 1 ∧ s.parkOk ∧ s.rn pwrParkIdleS * 16000 ≤ s.sys.parkIdle then s.parkNow else s)

/-- Whether an event ends PARK (R363). What Electrum or the tamper latch shows is judged by their state; PWR_CMD.RUN,
a CAN wake and a call written are events of their own rows too. -/
def State.parkWakes (s : State) : WakeCause → Bool
  | .wakePin => true
  | .can c => [0, 1, 2, 3].any (fun n => c.toNat.testBit n && s.rb (canCfg (canPage n)) 4 && (s.cann n).st == .sleep)
  | .fieldOrCall => true
  | .safetyOrBand => s.el.st != .normal || s.el.ucmArmed
  | _ => false

/-- PARK_WAKE (R363). -/
def execParkWake (cause : WakeCause) (s : State) : Host.Outcome State Fault Refusal :=
  .next (if s.parkWakes cause then s.parkEnd cause else s)

/-- PWR_RUN (R363): PWR_CMD bit 1. -/
def execPwrRun (src : Src) (s : State) : Host.Outcome State Fault Refusal := .next (s.command src pwrCmd 2)

/-- DEEP (R364): PWR_CMD bit 2. -/
def execDeep (src : Src) (s : State) : Host.Outcome State Fault Refusal := .next (s.command src pwrCmd 4)

/-- DEEP_WAKE (R364). -/
def execDeepWake (cause : WakeCause) (s : State) : Host.Outcome State Fault Refusal := .next (s.deepEnd cause)

/-- The code that an image update ends with (R3, R31, R319, Table 14.4): the refusals that any signed object may meet, then
the first failing check; 0 for an accepted one. -/
def State.imageCode (s : State) (src : Src) (o : List Byte) : Nat :=
  if s.tamp.tampered then 0xF
  else if src.world.rank < World.service.rank then 5
  else if byteAt o 4 ≠ 1 then 1
  else s.objectCode o o.length

/-- An image update (R3): an accepted image runs from the next start; a refused one leaves the image held. -/
def State.imageTake (s : State) (src : Src) (o : List Byte) : State :=
  let c := s.imageCode src o
  { s with sys := { s.sys with
      imgCode := c, image := if c = 0 then o else s.sys.image, imgNew := s.sys.imgNew || c == 0 } }

/-- IMAGE_UPDATE (R3). -/
def execImageUpdate (src : Src) (object : List Byte) (s : State) : Host.Outcome State Fault Refusal :=
  .next (if s.up_ then s.imageTake src object else s)

/-- AON_POWER_LOSS (R357). -/
def execAonPowerLoss (s : State) : Host.Outcome State Fault Refusal := .next s.aonLost

/-- BOR_START (R357). -/
def execBorStart (s : State) : Host.Outcome State Fault Refusal := .next s.borStart

end Sys2Proof.Machine
end

