-- ==== Sys2Proof/Machine/Dispatch.lean ====
section
/-! DEFINITION. The dispatch of commands to their meanings, one arm per constructor. -/

namespace Sys2Proof.Machine

/-- A command's effect on everything but the queue. -/
def exec (i : Instr) (s : State) : Host.Outcome State Fault Refusal :=
  match i with
  | .servoTick inp => Sys2Proof.Machine.execServoTick inp s
  | .phaseDeadlineMiss master => Sys2Proof.Machine.execPhaseDeadlineMiss master s
  | .electrumCycle inp => Sys2Proof.Machine.execElectrumCycle inp s
  | .strobeTimeout early => Sys2Proof.Machine.execStrobeTimeout early s
  | .electrumStartComplete selfTestsPass digestA digestB => Sys2Proof.Machine.execElectrumStartComplete selfTestsPass digestA digestB s
  | .safeResetCmd src => Sys2Proof.Machine.execSafeResetCmd src s
  | .autoReset => Sys2Proof.Machine.execAutoReset s
  | .keyRstInput heldMs => Sys2Proof.Machine.execKeyRstInput heldMs s
  | .pitReset => Sys2Proof.Machine.execPitReset s
  | .testPulse slot nodeLow demand => Sys2Proof.Machine.execTestPulse slot nodeLow demand s
  | .modeNormalReturn => Sys2Proof.Machine.execModeNormalReturn s
  | .degradedExpired mode => Sys2Proof.Machine.execDegradedExpired mode s
  | .degradedTimerClear mode => Sys2Proof.Machine.execDegradedTimerClear mode s
  | .nearestLandingRun => Sys2Proof.Machine.execNearestLandingRun s
  | .pairMismatch pair => Sys2Proof.Machine.execPairMismatch pair s
  | .channelDisagree => Sys2Proof.Machine.execChannelDisagree s
  | .absTimeout ch => Sys2Proof.Machine.execAbsTimeout ch s
  | .mirrorTimeout output => Sys2Proof.Machine.execMirrorTimeout output s
  | .stoFbTimeout => Sys2Proof.Machine.execStoFbTimeout s
  | .dcmPlaus side => Sys2Proof.Machine.execDcmPlaus side s
  | .safeConfigWrite src offset val => Sys2Proof.Machine.execSafeConfigWrite src offset val s
  | .hostRegisterWrite src addr val => Sys2Proof.Machine.execHostRegisterWrite src addr val s
  | .errClear src page val => Sys2Proof.Machine.execErrClear src page val s
  | .hlockSet src page => Sys2Proof.Machine.execHlockSet src page s
  | .hlockUnlock src page key => Sys2Proof.Machine.execHlockUnlock src page key s
  | .lrpRead via req => Sys2Proof.Machine.execLrpRead via req s
  | .lrpWrite via req => Sys2Proof.Machine.execLrpWrite via req s
  | .lrpOpen port req => Sys2Proof.Machine.execLrpOpen port req s
  | .lrpClose via req => Sys2Proof.Machine.execLrpClose via req s
  | .lrpNop via req => Sys2Proof.Machine.execLrpNop via req s
  | .lrpInvalidOp via req => Sys2Proof.Machine.execLrpInvalidOp via req s
  | .spiTransaction mosi => Sys2Proof.Machine.execSpiTransaction mosi s
  | .sessionEnvelope port bytes => Sys2Proof.Machine.execSessionEnvelope port bytes s
  | .ethFrameRx port fcsOk bytes => Sys2Proof.Machine.execEthFrameRx port fcsOk bytes s
  | .ethLinkChange port up amp24 sqi => Sys2Proof.Machine.execEthLinkChange port up amp24 sqi s
  | .sessionPendingTimeout inp => Sys2Proof.Machine.execSessionPendingTimeout inp s
  | .sessionTimeout inp => Sys2Proof.Machine.execSessionTimeout inp s
  | .hostSealOpen src => Sys2Proof.Machine.execHostSealOpen src s
  | .hostCloseOthers src => Sys2Proof.Machine.execHostCloseOthers src s
  | .hostCntClr src => Sys2Proof.Machine.execHostCntClr src s
  | .ethCntClr src port => Sys2Proof.Machine.execEthCntClr src port s
  | .ethReneg src port => Sys2Proof.Machine.execEthReneg src port s
  | .xbarClrPeak src => Sys2Proof.Machine.execXbarClrPeak src s
  | .xbarClrFlt src => Sys2Proof.Machine.execXbarClrFlt src s
  | .budgetExhausted master => Sys2Proof.Machine.execBudgetExhausted master s
  | .srAnswer bytes endNs => Sys2Proof.Machine.execSrAnswer bytes endNs s
  | .srTimeout => Sys2Proof.Machine.execSrTimeout s
  | .sourceReturn source => Sys2Proof.Machine.execSourceReturn source s
  | .dzEdge ch rising stampUs => Sys2Proof.Machine.execDzEdge ch rising stampUs s
  | .dzWiringFault ch => Sys2Proof.Machine.execDzWiringFault ch s
  | .dzWiringFaultEnd ch => Sys2Proof.Machine.execDzWiringFaultEnd ch s
  | .encDisagree => Sys2Proof.Machine.execEncDisagree s
  | .encDisagreeClear => Sys2Proof.Machine.execEncDisagreeClear s
  | .traction => Sys2Proof.Machine.execTraction s
  | .biasCal src => Sys2Proof.Machine.execBiasCal src s
  | .biasCalDone => Sys2Proof.Machine.execBiasCalDone s
  | .srReacq src => Sys2Proof.Machine.execSrReacq src s
  | .clrTract src => Sys2Proof.Machine.execClrTract src s
  | .kappaReset src => Sys2Proof.Machine.execKappaReset src s
  | .posRunClear src => Sys2Proof.Machine.execPosRunClear src s
  | .kappaBiasSave => Sys2Proof.Machine.execKappaBiasSave s
  | .lwbConversion raw openWire exc overLimit => Sys2Proof.Machine.execLwbConversion raw openWire exc overLimit s
  | .lwbValidClear => Sys2Proof.Machine.execLwbValidClear s
  | .lwbValidSet => Sys2Proof.Machine.execLwbValidSet s
  | .lwbZero src => Sys2Proof.Machine.execLwbZero src s
  | .lwbSpan src => Sys2Proof.Machine.execLwbSpan src s
  | .lwbCalDone => Sys2Proof.Machine.execLwbCalDone s
  | .motStart src => Sys2Proof.Machine.execMotStart src s
  | .motApply src => Sys2Proof.Machine.execMotApply src s
  | .motResume src => Sys2Proof.Machine.execMotResume src s
  | .motTrun src => Sys2Proof.Machine.execMotTrun src s
  | .motTargetWrite src val => Sys2Proof.Machine.execMotTargetWrite src val s
  | .motHorizonWrite src val => Sys2Proof.Machine.execMotHorizonWrite src val s
  | .motHold src => Sys2Proof.Machine.execMotHold src s
  | .planEnd => Sys2Proof.Machine.execPlanEnd s
  | .followError => Sys2Proof.Machine.execFollowError s
  | .vcapChange => Sys2Proof.Machine.execVcapChange s
  | .motHome src => Sys2Proof.Machine.execMotHome src s
  | .motRecover src => Sys2Proof.Machine.execMotRecover src s
  | .motRelevel src => Sys2Proof.Machine.execMotRelevel src s
  | .motAbandon src => Sys2Proof.Machine.execMotAbandon src s
  | .autoSpecialStart => Sys2Proof.Machine.execAutoSpecialStart s
  | .autoRelevel => Sys2Proof.Machine.execAutoRelevel s
  | .homeRefInput active => Sys2Proof.Machine.execHomeRefInput active s
  | .homeLimitInput => Sys2Proof.Machine.execHomeLimitInput s
  | .homeMaxdist => Sys2Proof.Machine.execHomeMaxdist s
  | .drvReadyTimeout => Sys2Proof.Machine.execDrvReadyTimeout s
  | .drvPreloadDone => Sys2Proof.Machine.execDrvPreloadDone s
  | .drvBrakeLifted => Sys2Proof.Machine.execDrvBrakeLifted s
  | .drvBrakeApplied => Sys2Proof.Machine.execDrvBrakeApplied s
  | .drvResponse bytes delimNs endNs => Sys2Proof.Machine.execDrvResponse bytes delimNs endNs s
  | .motionWatchdog => Sys2Proof.Machine.execMotionWatchdog s
  | .drvFaultRst src => Sys2Proof.Machine.execDrvFaultRst src s
  | .drvCntClr src => Sys2Proof.Machine.execDrvCntClr src s
  | .ciaTpdo statusword position sofUs => Sys2Proof.Machine.execCiaTpdo statusword position sofUs s
  | .ciaSdoResponse => Sys2Proof.Machine.execCiaSdoResponse s
  | .legacyRdyChange active => Sys2Proof.Machine.execLegacyRdyChange active s
  | .landingTableWrite src addr val => Sys2Proof.Machine.execLandingTableWrite src addr val s
  | .callSet src addr val => Sys2Proof.Machine.execCallSet src addr val s
  | .callClr src addr val => Sys2Proof.Machine.execCallClr src addr val s
  | .destAdd src val => Sys2Proof.Machine.execDestAdd src val s
  | .destDel src val => Sys2Proof.Machine.execDestDel src val s
  | .schModeWrite src val => Sys2Proof.Machine.execSchModeWrite src val s
  | .schRunSet src => Sys2Proof.Machine.execSchRunSet src s
  | .schRunClear src => Sys2Proof.Machine.execSchRunClear src s
  | .schOosRequest src on => Sys2Proof.Machine.execSchOosRequest src on s
  | .schedRunStart => Sys2Proof.Machine.execSchedRunStart s
  | .schedResume => Sys2Proof.Machine.execSchedResume s
  | .holdTimeEnd => Sys2Proof.Machine.execHoldTimeEnd s
  | .schRestore src => Sys2Proof.Machine.execSchRestore src s
  | .ccClrAll src => Sys2Proof.Machine.execCcClrAll src s
  | .endDwell src => Sys2Proof.Machine.execEndDwell src s
  | .btnStuck landing => Sys2Proof.Machine.execBtnStuck landing s
  | .hallPress frame => Sys2Proof.Machine.execHallPress frame s
  | .announcement frame => Sys2Proof.Machine.execAnnouncement frame s
  | .bidFrame frame => Sys2Proof.Machine.execBidFrame frame s
  | .roundNobid => Sys2Proof.Machine.execRoundNobid s
  | .releaseFrame frame => Sys2Proof.Machine.execReleaseFrame frame s
  | .awardTakeEffect => Sys2Proof.Machine.execAwardTakeEffect s
  | .announceRepeat key seq => Sys2Proof.Machine.execAnnounceRepeat key seq s
  | .rebid key seq => Sys2Proof.Machine.execRebid key seq s
  | .orphanDetect key seq => Sys2Proof.Machine.execOrphanDetect key seq s
  | .listenEnd => Sys2Proof.Machine.execListenEnd s
  | .islandEnter => Sys2Proof.Machine.execIslandEnter s
  | .islandExit => Sys2Proof.Machine.execIslandExit s
  | .bidRunSet => Sys2Proof.Machine.execBidRunSet s
  | .bidRejoin src => Sys2Proof.Machine.execBidRejoin src s
  | .bidReleaseAll src => Sys2Proof.Machine.execBidReleaseAll src s
  | .bidCntClr src => Sys2Proof.Machine.execBidCntClr src s
  | .bidQuery src val => Sys2Proof.Machine.execBidQuery src val s
  | .doorOpen src axis => Sys2Proof.Machine.execDoorOpen src axis s
  | .doorClose src axis => Sys2Proof.Machine.execDoorClose src axis s
  | .doorStop src axis => Sys2Proof.Machine.execDoorStop src axis s
  | .doorArmAdv src axis => Sys2Proof.Machine.execDoorArmAdv src axis s
  | .doorHome src axis => Sys2Proof.Machine.execDoorHome src axis s
  | .doorLearn src axis => Sys2Proof.Machine.execDoorLearn src axis s
  | .doorClrFault src axis => Sys2Proof.Machine.execDoorClrFault src axis s
  | .doorEval axis inp => Sys2Proof.Machine.execDoorEval axis inp s
  | .stepLoss axis => Sys2Proof.Machine.execStepLoss axis s
  | .doorAutoHome axis => Sys2Proof.Machine.execDoorAutoHome axis s
  | .doorOpenEnd axis => Sys2Proof.Machine.execDoorOpenEnd axis s
  | .doorCloseEnd axis => Sys2Proof.Machine.execDoorCloseEnd axis s
  | .doorHomed axis => Sys2Proof.Machine.execDoorHomed axis s
  | .doorHomeFail axis => Sys2Proof.Machine.execDoorHomeFail axis s
  | .doorObstructRetry axis => Sys2Proof.Machine.execDoorObstructRetry axis s
  | .doorLockTimeout axis => Sys2Proof.Machine.execDoorLockTimeout axis s
  | .doorDeferEnd axis => Sys2Proof.Machine.execDoorDeferEnd axis s
  | .doorNudge axis => Sys2Proof.Machine.execDoorNudge axis s
  | .doorReverseEnd axis => Sys2Proof.Machine.execDoorReverseEnd axis s
  | .doorLearnDone axis => Sys2Proof.Machine.execDoorLearnDone axis s
  | .doorStageFault axis code => Sys2Proof.Machine.execDoorStageFault axis code s
  | .doorSupplyFault overLimit => Sys2Proof.Machine.execDoorSupplyFault overLimit s
  | .doorSupplyRecover overLimit => Sys2Proof.Machine.execDoorSupplyRecover overLimit s
  | .doorRestDetect axis count => Sys2Proof.Machine.execDoorRestDetect axis count s
  | .doorPeakExhausted axis => Sys2Proof.Machine.execDoorPeakExhausted axis s
  | .doorStagePowerUp axis count down => Sys2Proof.Machine.execDoorStagePowerUp axis count down s
  | .lsfFrameRx bus frame => Sys2Proof.Machine.execLsfFrameRx bus frame s
  | .lsfTimeout slot => Sys2Proof.Machine.execLsfTimeout slot s
  | .lsfCrcRate slot => Sys2Proof.Machine.execLsfCrcRate slot s
  | .lsfConfTimeout slot => Sys2Proof.Machine.execLsfConfTimeout slot s
  | .lsfProduce slot identical => Sys2Proof.Machine.execLsfProduce slot identical s
  | .lsfRestart src val => Sys2Proof.Machine.execLsfRestart src val s
  | .lsfCntClr src => Sys2Proof.Machine.execLsfCntClr src s
  | .canFrameRx n frame => Sys2Proof.Machine.execCanFrameRx n frame s
  | .canTxReq src n val => Sys2Proof.Machine.execCanTxReq src n val s
  | .canTxAbort src n val => Sys2Proof.Machine.execCanTxAbort src n val s
  | .canTxAttemptEnd n obj outcome sofUs => Sys2Proof.Machine.execCanTxAttemptEnd n obj outcome sofUs s
  | .canError n lec transmitting increment => Sys2Proof.Machine.execCanError n lec transmitting increment s
  | .canBusOff n => Sys2Proof.Machine.execCanBusOff n s
  | .canBusoffRecovery n => Sys2Proof.Machine.execCanBusoffRecovery n s
  | .canAlone n => Sys2Proof.Machine.execCanAlone n s
  | .canSleep src n => Sys2Proof.Machine.execCanSleep src n s
  | .canLocalWake src n => Sys2Proof.Machine.execCanLocalWake src n s
  | .canWake n cause frame => Sys2Proof.Machine.execCanWake n cause frame s
  | .canIntegrate n => Sys2Proof.Machine.execCanIntegrate n s
  | .canCntClr src n => Sys2Proof.Machine.execCanCntClr src n s
  | .fieldFilterTick group raw => Sys2Proof.Machine.execFieldFilterTick group raw s
  | .fioOutSet src group val => Sys2Proof.Machine.execFioOutSet src group val s
  | .fioOutClr src group val => Sys2Proof.Machine.execFioOutClr src group val s
  | .fioTsd channel => Sys2Proof.Machine.execFioTsd channel s
  | .fioTsdRecover channel => Sys2Proof.Machine.execFioTsdRecover channel s
  | .fioTsdClr src group val => Sys2Proof.Machine.execFioTsdClr src group val s
  | .grpOc group => Sys2Proof.Machine.execGrpOc group s
  | .fioGrpClr src group => Sys2Proof.Machine.execFioGrpClr src group s
  | .fioDiagChange channel kind present => Sys2Proof.Machine.execFioDiagChange channel kind present s
  | .fieldSupplyChange group mv => Sys2Proof.Machine.execFieldSupplyChange group mv s
  | .fioChannelCfg src channel val => Sys2Proof.Machine.execFioChannelCfg src channel val s
  | .silenceTimeout => Sys2Proof.Machine.execSilenceTimeout s
  | .silAck src => Sys2Proof.Machine.execSilAck src s
  | .bandChange loopUa heldUs => Sys2Proof.Machine.execBandChange loopUa heldUs s
  | .presentStable => Sys2Proof.Machine.execPresentStable s
  | .presentOpen => Sys2Proof.Machine.execPresentOpen s
  | .claim => Sys2Proof.Machine.execClaim s
  | .claimSettleEnd => Sys2Proof.Machine.execClaimSettleEnd s
  | .isolatedExit => Sys2Proof.Machine.execIsolatedExit s
  | .echoWindow => Sys2Proof.Machine.execEchoWindow s
  | .echoStop => Sys2Proof.Machine.execEchoStop s
  | .mirrorEpochRx e => Sys2Proof.Machine.execMirrorEpochRx e s
  | .mirrorEpochApply => Sys2Proof.Machine.execMirrorEpochApply s
  | .mirrorStale => Sys2Proof.Machine.execMirrorStale s
  | .partnerLinkDown => Sys2Proof.Machine.execPartnerLinkDown s
  | .partnerLinkUp => Sys2Proof.Machine.execPartnerLinkUp s
  | .resyncComplete => Sys2Proof.Machine.execResyncComplete s
  | .roleExchange => Sys2Proof.Machine.execRoleExchange s
  | .xchNow src => Sys2Proof.Machine.execXchNow src s
  | .xchHoldEnd => Sys2Proof.Machine.execXchHoldEnd s
  | .partResync src => Sys2Proof.Machine.execPartResync src s
  | .partCntClr src => Sys2Proof.Machine.execPartCntClr src s
  | .flushStart => Sys2Proof.Machine.execFlushStart s
  | .recordsLostStage => Sys2Proof.Machine.execRecordsLostStage s
  | .recFlush src => Sys2Proof.Machine.execRecFlush src s
  | .recWallSet src => Sys2Proof.Machine.execRecWallSet src s
  | .recFire src slot => Sys2Proof.Machine.execRecFire src slot s
  | .recCntClr src => Sys2Proof.Machine.execRecCntClr src s
  | .recRead src seq => Sys2Proof.Machine.execRecRead src seq s
  | .counterSave => Sys2Proof.Machine.execCounterSave s
  | .finalSave => Sys2Proof.Machine.execFinalSave s
  | .keyLoad src cmd => Sys2Proof.Machine.execKeyLoad src cmd s
  | .keyUnload src cmd => Sys2Proof.Machine.execKeyUnload src cmd s
  | .keyReplace src cmd => Sys2Proof.Machine.execKeyReplace src cmd s
  | .keySwap slot => Sys2Proof.Machine.execKeySwap slot s
  | .keyGenerate src cmd => Sys2Proof.Machine.execKeyGenerate src cmd s
  | .keyImport src cmd => Sys2Proof.Machine.execKeyImport src cmd s
  | .keyDerive src cmd => Sys2Proof.Machine.execKeyDerive src cmd s
  | .keyStoreRes src cmd => Sys2Proof.Machine.execKeyStoreRes src cmd s
  | .keyEraseRes src cmd => Sys2Proof.Machine.execKeyEraseRes src cmd s
  | .attestKey src cmd => Sys2Proof.Machine.execAttestKey src cmd s
  | .attestDev src cmd => Sys2Proof.Machine.execAttestDev src cmd s
  | .idPub src cmd => Sys2Proof.Machine.execIdPub src cmd s
  | .nonce src cmd => Sys2Proof.Machine.execNonce src cmd s
  | .lcTransition src cmd => Sys2Proof.Machine.execLcTransition src cmd s
  | .lcReturn src cmd => Sys2Proof.Machine.execLcReturn src cmd s
  | .verify src cmd => Sys2Proof.Machine.execVerify src cmd s
  | .keymgmt src cmd => Sys2Proof.Machine.execKeymgmt src cmd s
  | .keyRemask => Sys2Proof.Machine.execKeyRemask s
  | .idReady => Sys2Proof.Machine.execIdReady s
  | .lowerTreeBuild => Sys2Proof.Machine.execLowerTreeBuild s
  | .serviceExpiry => Sys2Proof.Machine.execServiceExpiry s
  | .tamperEvent sources => Sys2Proof.Machine.execTamperEvent sources s
  | .tamperRelease src => Sys2Proof.Machine.execTamperRelease src s
  | .startAttempt inp => Sys2Proof.Machine.execStartAttempt inp s
  | .clockHoldEnd => Sys2Proof.Machine.execClockHoldEnd s
  | .invarWindow count => Sys2Proof.Machine.execInvarWindow count s
  | .xoStop => Sys2Proof.Machine.execXoStop s
  | .pllLossOfLock backup => Sys2Proof.Machine.execPllLossOfLock backup s
  | .ircTrim up => Sys2Proof.Machine.execIrcTrim up s
  | .ircFail => Sys2Proof.Machine.execIrcFail s
  | .fallbackAcc1pct => Sys2Proof.Machine.execFallbackAcc1pct s
  | .clkGateWrite src val => Sys2Proof.Machine.execClkGateWrite src val s
  | .gateDrainEnd ended => Sys2Proof.Machine.execGateDrainEnd ended s
  | .clkoutReconfig => Sys2Proof.Machine.execClkoutReconfig s
  | .powerOnReset => Sys2Proof.Machine.execPowerOnReset s
  | .brownOutReset => Sys2Proof.Machine.execBrownOutReset s
  | .pinReset => Sys2Proof.Machine.execPinReset s
  | .watchdogReset => Sys2Proof.Machine.execWatchdogReset s
  | .softReset src cmd => Sys2Proof.Machine.execSoftReset src cmd s
  | .safeReset => Sys2Proof.Machine.execSafeReset s
  | .partReset => Sys2Proof.Machine.execPartReset s
  | .clkReset => Sys2Proof.Machine.execClkReset s
  | .resetButtonRelease pressMs immediate => Sys2Proof.Machine.execResetButtonRelease pressMs immediate s
  | .resetButtonStuck => Sys2Proof.Machine.execResetButtonStuck s
  | .resetButtonRearm => Sys2Proof.Machine.execResetButtonRearm s
  | .deferredPinReset => Sys2Proof.Machine.execDeferredPinReset s
  | .powerFailWarning mv => Sys2Proof.Machine.execPowerFailWarning mv s
  | .powerRecovery mv => Sys2Proof.Machine.execPowerRecovery mv s
  | .holdupReady => Sys2Proof.Machine.execHoldupReady s
  | .profDataWrite src val => Sys2Proof.Machine.execProfDataWrite src val s
  | .profStore src slot => Sys2Proof.Machine.execProfStore src slot s
  | .profStoreDone writeOk => Sys2Proof.Machine.execProfStoreDone writeOk s
  | .profileOvrWrite src val => Sys2Proof.Machine.execProfileOvrWrite src val s
  | .park src => Sys2Proof.Machine.execPark src s
  | .autoPark => Sys2Proof.Machine.execAutoPark s
  | .parkWake cause => Sys2Proof.Machine.execParkWake cause s
  | .pwrRun src => Sys2Proof.Machine.execPwrRun src s
  | .deep src => Sys2Proof.Machine.execDeep src s
  | .deepWake cause => Sys2Proof.Machine.execDeepWake cause s
  | .imageUpdate src object => Sys2Proof.Machine.execImageUpdate src object s
  | .enrolment helper vendorRoots => Sys2Proof.Machine.execEnrolment helper vendorRoots s
  | .keyCommandDone => Sys2Proof.Machine.execKeyCommandDone s
  | .aonPowerLoss => Sys2Proof.Machine.execAonPowerLoss s
  | .borStart => Sys2Proof.Machine.execBorStart s
  | .ethFarFault on => Sys2Proof.Machine.execEthFarFault on s

end Sys2Proof.Machine
end

