-- ==== Sys2Proof/Safety.lean ====
section
/-! DEFINITION. What counts as a safe state and a safe step, in the terms the statements use: the canonical store, what
Electrum may energise, and what one-time-programmable and index memory never takes back. -/

namespace Sys2Proof.Machine

/-- The register store is canonical: addresses strictly rising, no entry equal to its reset value. -/
def State.Canonical (s : State) : Prop := Cells.wf regReset s.rf = true

/-- What Electrum may energise (R186, R190, R192, R193, R195): a latched cause rules out NORMAL, and outside NORMAL there
is no permission, no bridging, and both switches of every output but GOV are off. -/
structure ElSafe (causes : List Nat) (st : ElState) (perm byp grant : Bool) (outsA outsB : List Bool) : Prop where
  tripped : causes ≠ [] → st ≠ .normal
  off : st ≠ .normal → perm = false ∧ byp = false ∧ grant = false ∧
    ∀ i < 8, nth outsA i false = false ∧ nth outsB i false = false

/-- `ElSafe` of a state. -/
def State.ElectrumSafe (s : State) : Prop := 
  ElSafe s.el.causes s.el.st s.el.perm s.el.bypOn s.el.relevGrant s.el.a.outs s.el.b.outs

/-- From one list of OTP key places to another, nothing burnt is taken back: an enrolled key keeps its bytes and stays
enrolled, a revoked place stays revoked (KEY_OTP, R317 to R319). -/
def OtpKeeps (l m : List PubKey) : Prop :=
  ∀ (i : Nat) (k : PubKey), l[i]? = some k → ∃ k', m[i]? = some k' ∧
    (k.present = true → k'.present = true ∧ k'.bytes = k.bytes) ∧ (k.revoked = true → k'.revoked = true)

/-- From one list of index records to another, no identity's next index falls (R329): none is used twice. -/
def IdxRises (l m : List (Lc × IdxPair)) : Prop :=
  ∀ (c : Lc) (n : Nat), (idxFor l c).next = some n → ∃ n', (idxFor m c).next = some n' ∧ n ≤ n'

/-- The state both invariants of a run keep: a canonical store and a safe Electrum. -/
structure State.Sound (s : State) : Prop where
  canonical : s.Canonical
  electrum : s.ElectrumSafe

/-- A choice of parts of the state, the fields of `State` but its queue. -/
structure Parts where
  tick : Bool := false
  baseTick : Bool := false
  fresh : Bool := false
  rf : Bool := false
  irqNow : Bool := false
  pos : Bool := false
  lwb : Bool := false
  mot : Bool := false
  drv : Bool := false
  sch : Bool := false
  bid : Bool := false
  doorF : Bool := false
  doorR : Bool := false
  el : Bool := false
  lsf : Bool := false
  can : Bool := false
  fiog : Bool := false
  host : Bool := false
  sil : Bool := false
  part : Bool := false
  rcd : Bool := false
  key : Bool := false
  tamp : Bool := false
  clk : Bool := false
  sys : Bool := false
  xbar : Bool := false

/-- From `s` to `t` only the chosen parts may change; the queue never does. -/
structure Only (m : Parts) (s t : State) : Prop where
  pending : t.pending = s.pending
  tick : m.tick = true ∨ t.tick = s.tick
  baseTick : m.baseTick = true ∨ t.baseTick = s.baseTick
  fresh : m.fresh = true ∨ t.fresh = s.fresh
  rf : m.rf = true ∨ t.rf = s.rf
  irqNow : m.irqNow = true ∨ t.irqNow = s.irqNow
  pos : m.pos = true ∨ t.pos = s.pos
  lwb : m.lwb = true ∨ t.lwb = s.lwb
  mot : m.mot = true ∨ t.mot = s.mot
  drv : m.drv = true ∨ t.drv = s.drv
  sch : m.sch = true ∨ t.sch = s.sch
  bid : m.bid = true ∨ t.bid = s.bid
  doorF : m.doorF = true ∨ t.doorF = s.doorF
  doorR : m.doorR = true ∨ t.doorR = s.doorR
  el : m.el = true ∨ t.el = s.el
  lsf : m.lsf = true ∨ t.lsf = s.lsf
  can : m.can = true ∨ t.can = s.can
  fiog : m.fiog = true ∨ t.fiog = s.fiog
  host : m.host = true ∨ t.host = s.host
  sil : m.sil = true ∨ t.sil = s.sil
  part : m.part = true ∨ t.part = s.part
  rcd : m.rcd = true ∨ t.rcd = s.rcd
  key : m.key = true ∨ t.key = s.key
  tamp : m.tamp = true ∨ t.tamp = s.tamp
  clk : m.clk = true ∨ t.clk = s.clk
  sys : m.sys = true ∨ t.sys = s.sys
  xbar : m.xbar = true ∨ t.xbar = s.xbar

/-- A cause would latch now (R190, R289): it is not latched, and there is authority or it shows Electrum's own hardware. -/
def State.Latches (s : State) (c : Nat) : Prop := c ∉ s.el.causes ∧ (s.authority = true ∨ ownCause c = true)

/-- The parts a trip may change. -/
@[reducible] def tripParts : Parts where
  rf := true
  irqNow := true
  pos := true
  lwb := true
  mot := true
  drv := true
  doorF := true
  doorR := true
  el := true
  can := true
  part := true
  rcd := true

/-- What a trip for cause `c` does (R190, R95, R142): the cause joins those latched, everything but GOV is off, MOT is in
TRIPPED and DRV in OFF; a frame of the drive link stays as it is. -/
structure Tripped (s t : State) (c : Nat) : Prop where
  state : t.el.st = .tripped
  cause : c ∈ t.el.causes
  older : ∀ k ∈ s.el.causes, k ∈ t.el.causes
  permission : t.el.perm = false ∧ t.el.bypOn = false
  outputs : ∀ i < 8, nth t.el.a.outs i false = false ∧ nth t.el.b.outs i false = false
  motion : t.mot.phase = .tripped
  drive : t.drv.step = .off ∧ t.drv.energise = false
  link : t.drv.framed = s.drv.framed ∧ t.drv.frame = s.drv.frame
  frame : Only tripParts s t

/-- From `s` to `t` no stored word outside the listed addresses changes. -/
def WordsKept (l : List Nat) (s t : State) : Prop := ∀ a, a ∉ l → t.rd a = s.rd a

/-- The latched causes of the covered kinds whose condition is no longer present (R191). -/
def State.coveredCauses (s : State) (cov : TripKind → Bool) : List Nat :=
  s.el.causes.filter (fun c => cov (causeKind c) && !s.el.present.contains c)

/-- From `s` to `t` the listed causes clear and no others (R191); with none left Electrum leaves TRIPPED for NORMAL with
RESET_DONE (R192), and otherwise no stored word changes. -/
structure CausesCleared (l : List Nat) (s t : State) : Prop where
  causes : t.el.causes = s.el.causes.filter (fun c => !l.contains c)
  state : t.el.st = if s.el.st = .tripped ∧ t.el.causes = [] then .normal else s.el.st
  permission : t.el.perm = s.el.perm
  done : t.rf = if s.el.st = .tripped ∧ t.el.causes = [] then (s.raise pgSafe 2).rf else s.rf
  frame : Only { rf := true, irqNow := true, el := true } s t

/-- A door axis as it enters a state (Table 9.3): NUDGE clears at CLOSED and OPEN (R169), the light curtain's blocking is
forgotten at CLOSED, and the time of the change is kept. -/
def Door.entered (d : Door) (st : DoorSt) (tick : Nat) : Door :=
  { d with
    st := st, nudge := d.nudge && st != .closed && st != .opened
    lcBlockAt := if st = .closed then none else d.lcBlockAt, stopAt := tick }

/-- What a command of one door axis may change: the axis, and the registers and interrupt bits. -/
def doorParts (c : Chan) : Parts := { rf := true, irqNow := true, doorF := c == .a, doorR := c == .b }

end Sys2Proof.Machine
end

