-- ==== Sys2Proof/Certificates/Slice0/Obligations.lean ====
section
/-! DEFINITION. The statements for the provers: what the commands of the block do, by the spec's numbered rules. A clause about a
command says for which states and operands it answers a next state, and which. -/

open Sys2Proof Sys2Proof.Machine

/-- With a command at the front of the queue, a step is that command's effect on the state with the queue's rest. Rests on
The Module at Work, R14. -/
def Obligations.StepRunsTheFrontCommand : Prop :=
  ∀ (c : Instr) (s : State), step { s with pending := c :: s.pending } = exec c s

/-- With no command waiting the block idles: the step answers the state unchanged. The spec names no such step; it is the
model's choice of log entry 2. Rests on The Module at Work. -/
def Obligations.StepIdlesOnAnEmptyQueue : Prop :=
  ∀ s : State, s.pending = [] → step s = .next s

/-- In every state every command answers a next state, never a fault or a refusal, and the queue stays as it was. Rests on
The Module at Work, What each step holds. -/
def Obligations.EveryCommandAnswers : Prop :=
  ∀ (c : Instr) (s : State), ∃ t, exec c s = .next t ∧ t.pending = s.pending

/-- After reset the register store is canonical and Electrum is safe; every stored word reads as its page table's reset
value; Electrum is in START with no permission, no bridging and every output off in both channels; no host session is
open; no authority is held; MOT is in IDLE and DRV in OFF. The values of the module's own fields that no rule states
are the choices of log entry 3. Rests on R28, R192, R284, Resets, Power and States. -/
def Obligations.ResetIsSound : Prop :=
  State.reset.Sound ∧ (∀ a, State.reset.rd a = regReset a) ∧ State.reset.el.st = .start ∧
    State.reset.el.perm = false ∧ State.reset.el.bypOn = false ∧ (∀ i, State.reset.el.out i = false ∧ nth State.reset.el.a.outs i false = false ∧
      nth State.reset.el.b.outs i false = false) ∧
    (∀ i, State.reset.sess i = none) ∧ State.reset.authority = false ∧ State.reset.mot.phase = .idle ∧
    State.reset.drv.step = .off

/-- From every state with a canonical register store in which Electrum energises nothing outside NORMAL (no permission, no
bridging, outputs 0 to 7 off) and is not in NORMAL while a cause is latched, a step answers a next state of the same
kind, whatever command it runs. Rests on R186, R190, R192, R193, R195. -/
def Obligations.EveryStepKeepsSoundness : Prop :=
  ∀ s : State, s.Sound → ∃ t, step s = .next t ∧ t.Sound

/-- Over every step, an enrolled OEM key of OTP keeps its bytes and its place, a revoked place stays revoked, the least
accepted image version never falls, and the next index of no identity falls, so no index is handed out twice. Rests on
R318, R319, R329. -/
def Obligations.EveryStepKeepsOneTimeMemory : Prop :=
  ∀ s t : State, step s = .next t →
    OtpKeeps s.key.oemKeys t.key.oemKeys ∧ s.key.imgSvn ≤ t.key.imgSvn ∧ IdxRises s.key.idx t.key.idx

/-- A write to the ERR of an assigned page is never refused. At any other address, a misaligned one is refused with
E_ALIGN; any other refused write reports one of the reasons that the module finds (no window of M8 permits it, or one
of those the page or window word gives), and no reason found goes before it in the order E_RESERVED, E_TAMPER,
E_LOCKED, E_AUTH, E_STATE, E_STALE, the codes that no rule places in ascending order (log entry 31), E_RANGE,
E_INFEASIBLE, then block-specific codes; a write for which no reason is found is accepted. Rests on R21, R24, R31,
R275. -/
def Obligations.RefusalsFollowTheOrder : Prop :=
  (∀ (s : State) (src : Src) (a : Nat) (v : Word), isErr a = true → s.judge src a v = none) ∧
  (∀ (s : State) (src : Src) (a : Nat) (v : Word), isErr a = false → a % 4 ≠ 0 → s.judge src a v = some 8) ∧
  (∀ (s : State) (src : Src) (a c : Nat) (v : Word), isErr a = false → a % 4 = 0 → s.judge src a v = some c →
    let found := ifC (!s.winPass src a true) 5 ++ s.wordCodes src a v
    c ∈ found ∧ ∀ d ∈ found, errRank c ≤ errRank d) ∧
  (∀ (s : State) (src : Src) (a : Nat) (v : Word), isErr a = false → a % 4 = 0 →
    (s.judge src a v = none ↔ s.winPass src a true = true ∧ s.wordCodes src a v = [])) ∧
  [8, 9, 15, 3, 5, 2, 14, 4, 7, 10, 11, 12, 13, 1, 6, 0x40, 0x41].Pairwise (fun a b => errRank a < errRank b)

/-- HOST_REGISTER_WRITE completes where the access is refused: one narrower than 32 bits with E_ALIGN; any other that is
judged as it comes (all but those to MOT_TARGET, MOT_HORIZON, MOT_CMD and MOT_RT_CMD) with the code of its judgement,
a write on the pages of R14 being judged as if the writes waiting before it had been made. Every stored word but the
ERR and IRQ_RAW of the refusing page stays as it was; ERR holds the code, the offset and the port of this write and a
count one higher, at most 255; HOST_ERR (bit 0 of IRQ_RAW) is set; nothing else changes. Left aside are MOT_CMD, the
E_LT of SCH_CTRL, whose refusals do more (R80, R118), and a page whose ERR has a clear waiting for the tick. Rests on
R14, R21, R22, R25, R31. -/
def Obligations.RefusedWriteIsRecorded : Prop :=
  ∀ (src : Src) (addr : Addr) (v : Word) (narrow : Bool) (c : Nat) (s : State), s.Canonical → s.up_ = true →
    let a := addr.toNat
    let pg := errPage a
    (∀ d ∈ s.host.deferred, d.addr ≠ pg * 4096 + 0x10) → a ≠ motCmd → (a = schCtrl → c ≠ 0x40) →
    (narrow = true ∧ c = 8) ∨ (narrow = false ∧ checkedAddr a = false ∧
      (if deferredAddr a = true then s.preview else s).judge src a v = some c) →
    ∃ t, exec (.hostRegisterWrite src addr ⟨v, narrow⟩) s = .next t ∧
      t.rd (pg * 4096 + 0x10) = pack [(0, 8, c), (8, 12, a % 4096), (20, 4, src.port),
        (24, 8, min (s.rf_ (pg * 4096 + 0x10) 24 8 + 1) 255)] ∧
      t.rd (pg * 4096 + 0x14) = Word.setBits (s.rd (pg * 4096 + 0x14)) 0 1 1 ∧
      WordsKept [pg * 4096 + 0x10, pg * 4096 + 0x14] s t ∧ Only { rf := true, irqNow := true } s t

/-- HOST_REGISTER_WRITE of a whole word, accepted: outside the pages of R14, the call and landing tables and the channel
configurations it is made at once. On those it waits for the next tick, behind the writes already waiting and judged
as if those had been made; a write to MOT_TARGET, MOT_HORIZON, MOT_CMD or MOT_RT_CMD waits to be checked in its
period. While it waits, nothing but the list of waiting writes has changed. Rests on R14, R80. -/
def Obligations.HostWriteTakesEffect : Prop :=
  ∀ (src : Src) (addr : Addr) (v : Word) (s : State), s.up_ = true →
    let a := addr.toNat
    let waits : State := { s with host := { s.host with deferred := s.host.deferred ++ [⟨src, a, v, none, none⟩] } }
    (checkedAddr a = true → exec (.hostRegisterWrite src addr ⟨v, false⟩) s = .next waits) ∧
    (checkedAddr a = false → deferredAddr a = true → s.preview.judge src a v = none →
      exec (.hostRegisterWrite src addr ⟨v, false⟩) s = .next waits) ∧
    (deferredAddr a = false → s.judge src a v = none →
      exec (.hostRegisterWrite src addr ⟨v, false⟩) s = .next (s.applyWrite src a v))

/-- ERR_CLEAR: a write of any value to the ERR of an assigned page, from any port, is accepted and leaves all the fields
of ERR at 0 and everything else as it was. Cleared before a rejection of the same page, ERR then shows that rejection
with COUNT at 1; cleared after it, it shows 0. Formalises R24. -/
def Obligations.ErrClearClears : Prop :=
  ∀ (src : Src) (page : BitVec 8) (v : Word) (s : State), s.Canonical → s.up_ = true →
    let e := page.toNat * 4096 + 0x10
    (pageRegs page.toNat).isSome = true →
    s.judge src e v = none ∧ exec (.errClear src page v) s = .next (s.wr e 0) ∧ (s.wr e 0).rd e = 0 ∧
    (∀ (a c : Nat), errPage a = page.toNat → ((s.wr e 0).reject src a c).rd e =
      pack [(0, 8, c), (8, 12, a % 4096), (20, 4, src.port), (24, 8, 1)]) ∧
    (∀ (a c : Nat), exec (.errClear src page v) (s.reject src a c) = .next ((s.reject src a c).wr e 0))

/-- HLOCK_SET and HLOCK_UNLOCK, while the page is in use and from a port whose window permits the write: a write of 1 to
LOCK sets HLOCK, and a write that clears a set HLOCK is made with 0x4C4B in UNLOCK and refused with E_LOCKED with any
other value; either changes nothing but the stored LOCK. With HLOCK set, LOCK still accepts the write of 1. Rests on
R29. -/
def Obligations.HostLockSetsAndClears : Prop :=
  ∀ (src : Src) (page : BitVec 8) (key : BitVec 16) (s : State), s.up_ = true →
    (pageRegs page.toNat).isSome = true → s.gated page.toNat = false →
    let a := page.toNat * 4096 + 0x20
    s.winPass src a true = true →
    exec (.hlockSet src page) s = .next (s.wn a 1) ∧
    exec (.hlockUnlock src page 0x4C4B) s = .next (s.wn a 0) ∧
    (s.hlock page.toNat = true → key ≠ 0x4C4B → exec (.hlockUnlock src page key) s = .next (s.refuse src a (pack [(16, 16, key.toNat)]) 3))

/-- SERVO_TICK completes in RUN and in PARK. In RUN it moves the time base on by one tick; first comes what is due at the
tick itself (awards, the landed time, the drive link's response check, the analog output, the CiA SYNC, the query),
then the writes that wait, the buttons of the period, Fusion, Stop evaluation (with the run as it was before Fusion),
the checked writes of R80, the Set-point phase with the drive output, the Door master update, and the work of pairing,
bidding and the key store, in that order, each on the state that the one before left. In PARK only the writes, the
recorder, the checked writes, pairing and the key store run. In both, requests and frames that waited for the host
port's budget follow. Where the host port does not run, nothing happens. Rests on R12, R13, R14, R17, R80, R363. -/
def Obligations.ServoPeriodRunsItsPhases : Prop :=
  ∀ (i : TickIn) (s : State),
    let begun := s.tickBegin.opTick
    let waits := ((begun.awardsBy (begun.tick - 1)).landedTick.linkFinish.analogOut.ciaSync.queryTick).deferredNow
    let slot := waits.1.schSlot
    let fused := slot.recTick.phaseFusion i
    let stops := fused.phaseStop slot.mot
    let checked := stops.checkedAll waits.2 (s.demanded || fused.demanded)
    let run := if checked.live then checked.phaseSet.phaseDoors.partTick.bidTick.keyStep else checked
    let parked := ((begun.deferredNow.1.recTick).checkedAll begun.deferredNow.2 false).partTick.keyStep
    s.tickBegin.tick = s.tick + 1 ∧ s.tickBegin.irqNow = [] ∧
    (s.up_ = true → begun.live = true →
      exec (.servoTick i) s = .next (if run.up_ then run.runWaiting.ethDrain else run)) ∧
    (s.up_ = true → begun.live = false →
      exec (.servoTick i) s = .next (if parked.up_ then parked.runWaiting.ethDrain else parked)) ∧
    (s.up_ = false → exec (.servoTick i) s = .next s)

/-- ELECTRUM_CYCLE completes once at the tick of every period whose index is a multiple of four, while Electrum runs: it
takes the frames of LSF, samples both channels and counts itself, then decides; only in NORMAL are hold-to-run runs,
permission, bridging and the start-up proof considered, and only after that do the outputs take their state; DRV's
readiness, the door locks and the scheduler's answers are then looked at. At any other moment it leaves the state
alone. Rests on R16, R180, R190, R193, R195. -/
def Obligations.ElectrumCycleRunsItsFunctions : Prop :=
  ∀ (i : ElIn) (s : State),
    let due : State := { s with el := { s.el with cycAt := some s.tick } }
    let sampled := due.lsfRunNow.lsfTakeAll.elSample i
    let judged := sampled.elDecide
    let granted := if judged.el.st = .normal then judged.elHoldRun.elPermit.elBypass.elProof else judged
    let out := granted.relevGrantEnds.elOutputs
    (s.elDue = true ↔ s.up_ = true ∧ s.sys.firstTick = false ∧ s.period % 4 = 0 ∧ s.el.cycAt ≠ some s.tick) ∧
    sampled.el.cyc = s.el.cyc + 1 ∧
    (s.elDue = true → exec (.electrumCycle i) s = .next ((((out.drvCheckReady).lockNote .a).lockNote .b).schServed)) ∧
    (s.elDue = false → exec (.electrumCycle i) s = .next s)

/-- Each of these commands completes, where its check has failed and its cause would latch now (not latched yet, and the
module holds authority or the cause shows Electrum's own hardware), by tripping Electrum: STROBE_TIMEOUT, late or
early (DISAGREE); PAIR_MISMATCH of a pair whose contacts have differed for 200 ms (PAIR); CHANNEL_DISAGREE of channels
that have differed in one thing for 8 cycles (DISAGREE); MIRROR_TIMEOUT of a contactor late by 100 ms (MC) or of a
brake by SAFE_BRK_T_MS (BRK); STO_FB_TIMEOUT late by SAFE_STO_FB_MS (STO_FB); DCM_PLAUS of a side whose contacts have
contradicted each other on a channel for 500 ms (DCM_PLAUS). The cause joins those latched, everything but GOV is off
in both channels, permission and bridging end, MOT is in TRIPPED and DRV in OFF, and only the parts that a trip
touches change. Rests on R181, R184, R190, R200, R201. -/
def Obligations.TimedChecksTrip : Prop :=
  ∀ s : State, s.up_ = true →
    (∀ early, s.Latches 18 → ∃ t, exec (.strobeTimeout early) s = .next t ∧ Tripped s t 18) ∧
    (∀ pair, s.Latches 13 → 800 ≤ (alook s.el.pairBad pair).getD 0 →
      ∃ t, exec (.pairMismatch pair) s = .next t ∧ Tripped s t 13) ∧
    (∀ k n, s.Latches 18 → (k, n) ∈ s.el.disagree → 8 ≤ n → ∃ t, exec .channelDisagree s = .next t ∧ Tripped s t 18) ∧
    (∀ k, s.Latches 8 → (k = 2 ∨ k = 3) → s.mirrorOk k = false → nth s.el.chgAt k 0 + 400 ≤ s.el.cyc →
      ∃ t, exec (.mirrorTimeout k) s = .next t ∧ Tripped s t 8) ∧
    (∀ k, s.Latches 7 → (k = 4 ∨ k = 5) → s.mirrorOk k = false →
      nth s.el.chgAt k 0 + s.rn safeBrkTMs * 4 ≤ s.el.cyc →
      ∃ t, exec (.mirrorTimeout k) s = .next t ∧ Tripped s t 7) ∧
    (s.Latches 9 → s.rf_ safeCfg 3 2 ≠ 0 → s.stoFbOk = false → s.el.stoChgAt + s.rn safeStoFbMs * 4 ≤ s.el.cyc →
      ∃ t, exec .stoFbTimeout s = .next t ∧ Tripped s t 9) ∧
    (∀ (ch : ElCh) (k n : Nat), s.Latches 2 → ch = s.el.a ∨ ch = s.el.b → ch.plaus[k]? = some n → 2000 ≤ n →
      (k < 3 → ∃ t, exec (.dcmPlaus .a) s = .next t ∧ Tripped s t 2) ∧
      (3 ≤ k → k < 6 → ∃ t, exec (.dcmPlaus .b) s = .next t ∧ Tripped s t 2))

/-- PHASE_DEADLINE_MISS completes in RUN for M0, M1 and M3: OVERRUN latches and its interrupt is raised, the drive-link
frame of this period is taken back, and Electrum is asked to trip with cause MODULE. Where that cause would latch now
it does: Electrum trips with it, OVERRUN stands and no frame is sent. Where it is latched already nothing more
follows. Another master, or a module not in RUN, changes nothing. Rests on R15, R190. -/
def Obligations.MissedDeadlineTrips : Prop :=
  ∀ (m : Nat) (s : State),
    let late := ({ s with
      sys := { s.sys with overrun := true }, drv := { s.drv with framed := false, frame := [] } } : State).raise pgSys 1
    (s.live = true → m = 0 ∨ m = 1 ∨ m = 3 → ∃ t, exec (.phaseDeadlineMiss m) s = .next t ∧ t = late.trip 15 ∧
      (s.Latches 15 → Tripped late t 15 ∧ t.sys.overrun = true ∧ t.drv.framed = false ∧ t.drv.frame = [])  ∧
      (15 ∈ s.el.causes → s.el.bypOn = false → t = late)) ∧
    (s.live = false ∨ (m ≠ 0 ∧ m ≠ 1 ∧ m ≠ 3) → exec (.phaseDeadlineMiss m) s = .next s)

/-- ELECTRUM_START_COMPLETE completes in START: both channels hold the digests given. With the self-tests passed and both
digests equal Electrum enters NORMAL (TRIPPED while a cause is latched) and the outputs take their state; with a
failed self-test or different digests it trips with cause CONFIG, or is TRIPPED with that cause latched already. In
both cases LSF then runs. Outside START it changes nothing. Rests on R184, R192, R224. -/
def Obligations.ElectrumStartEnds : Prop :=
  ∀ (pass : Bool) (da db : Word) (s : State), s.up_ = true →
    let kept : State := { s with el := { s.el with a := { s.el.a with digest := da }, b := { s.el.b with digest := db } } }
    (s.el.st = .start → pass = true → da = db → exec (.electrumStartComplete pass da db) s = .next
      ({ kept with el := { kept.el with st := if s.el.causes.isEmpty then .normal else .tripped } } :
        State).elOutputs.lsfRunNow) ∧
    (s.el.st = .start → pass = false ∨ da ≠ db → 19 ∉ s.el.causes → ∃ u, Tripped kept u 19 ∧
      exec (.electrumStartComplete pass da db) s = .next u.lsfRunNow) ∧
    (s.el.st = .start → pass = false ∨ da ≠ db → 19 ∈ s.el.causes → exec (.electrumStartComplete pass da db) s = .next
      ({ kept with el := { kept.el with st := .tripped } } : State).lsfRunNow) ∧
    (s.el.st ≠ .start → exec (.electrumStartComplete pass da db) s = .next s) ∧
    (∀ u : State, u.el.st ≠ .start → u.el.runUs = none → u.lsfRunNow = each (List.range 32)
      { u with el := { u.el with runUs := some u.us } } (fun w k => w.lsfStart k))

/-- SAFE_RESET_CMD, accepted, clears the latched causes that the world of its session covers and that are no longer
present. AUTO_RESET clears the latched causes of kind AUTO that have been absent for 500 ms while the common
conditions have held for 500 ms. KEY_RST_INPUT, held for 1 to 5 s under the common conditions, clears the absent
causes of kinds AUTO, HOST and SERVICE. PIT_RESET, after its second, clears the latch of the pit, and under the common
conditions, with PIT absent, the cause PIT too. The causes left are exactly the others; Electrum leaves TRIPPED for
NORMAL with RESET_DONE when none is left and otherwise stays as it was; permission does not change; only Electrum, and
IRQ_RAW with RESET_DONE, do. Where there is no such cause, AUTO_RESET and KEY_RST_INPUT change nothing. Rests on R191,
R192, R203. -/
def Obligations.ResetsClearTheirCauses : Prop :=
  ∀ s : State, s.up_ = true →
    (∀ src : Src, s.judge src safeCmd 1 = none →
      ∃ t, exec (.safeResetCmd src) s = .next t ∧ CausesCleared (s.coveredCauses (covers src)) s t) ∧
    (∀ c, c ∈ s.autoClear ↔ 2000 ≤ s.el.commonN ∧ c ∈ s.el.causes ∧ causeKind c = .auto ∧ c ∉ s.el.present ∧
      (alook s.el.lastPresent c).getD 0 + 2000 ≤ s.el.cyc) ∧
    (s.autoClear ≠ [] → ∃ t, exec .autoReset s = .next t ∧ CausesCleared s.autoClear s t) ∧
    (s.autoClear = [] → exec .autoReset s = .next s) ∧
    (∀ ms, 1000 ≤ ms → ms ≤ 5000 → s.commonOk = true → s.coveredCauses keyCovers ≠ [] →
      ∃ t, exec (.keyRstInput ms) s = .next t ∧ CausesCleared (s.coveredCauses keyCovers) s t) ∧
    (∀ ms, ms < 1000 ∨ 5000 < ms ∨ s.commonOk = false ∨ s.coveredCauses keyCovers = [] →
      exec (.keyRstInput ms) s = .next s) ∧
    (4000 ≤ s.el.pitRst → s.commonOk = true → 11 ∉ s.el.present →
      ∃ t, exec .pitReset s = .next t ∧ CausesCleared [11] s t ∧ t.el.pitLatch = false) ∧
    (4000 ≤ s.el.pitRst → s.commonOk = false ∨ 11 ∈ s.el.present →
      exec .pitReset s = .next { s with el := { s.el with pitLatch := false } }) ∧
    (s.el.pitRst < 4000 → exec .pitReset s = .next s)

/-- TEST_PULSE completes where the pulse of an energised output is due: it is counted, remembered with the switch it
opened and its score, and the next pulse of that output opens the other switch. It passes when the node read low or
the demand came before the reading; a pulse that fails raises TEST_FAULT and, where the cause would latch now, trips
with cause SWITCH. An output that is off, a slot from 9 and a pulse that is not due change nothing. A pulse is due in
the first two cycles of its slot's place of 25 cycles, once. Rests on R206, R207. -/
def Obligations.TestPulsesAreScored : Prop :=
  ∀ (slot : Nat) (low : Bool) (d : PulseDemand) (s : State), s.up_ = true →
    let ok := low || d == .offBeforeReading
    let pulsed := ({ s with el := { s.el with
      lastPulse := some (slot, nth s.el.swNext slot false, ok), pulsed := some ((s.el.cyc - 1) / 25)
      swNext := s.el.swNext.set slot (!nth s.el.swNext slot false) } } : State).wf_ safeTest 16 16 ((s.rf_ safeTest 16 16 + 1) % 65536)
    (s.el.pulseDue slot = true ↔ 0 < s.el.cyc ∧ (s.el.cyc - 1) / 25 % 16 = slot ∧ (s.el.cyc - 1) % 25 ≤ 1 ∧
      s.el.pulsed ≠ some ((s.el.cyc - 1) / 25)) ∧
    (9 ≤ slot ∨ s.el.out slot = false ∨ s.el.pulseDue slot = false → exec (.testPulse slot low d) s = .next s) ∧
    (slot < 9 → s.el.out slot = true → s.el.pulseDue slot = true → ok = true →
      exec (.testPulse slot low d) s = .next pulsed) ∧
    (slot < 9 → s.el.out slot = true → s.el.pulseDue slot = true → ok = false → s.Latches 17 →
      ∃ t, exec (.testPulse slot low d) s = .next t ∧ Tripped (pulsed.raise pgSafe 9) t 17)

/-- MODE_NORMAL_RETURN: MODE returns to normal after its second, raising MODE_CHG. DEGRADED_EXPIRED: at a degraded mode's
limit its EXPIRED bit sets with DEG_EXPIRED. DEGRADED_TIMER_CLEAR: after 10 min of continuous VALID the timer and the
bit clear. ABS_TIMEOUT: ABS of a channel clears after 60 min of travel without a correction. SAFE_CONFIG_WRITE: an
accepted write of a SAFE configuration word stores its fields and gives both channels the same copy of the new
configuration with their digests of it. Each changes nothing else, and where its time has not come nothing at all.
Rests on R183, R184, R202, R210, R211. -/
def Obligations.ElectrumModesAndTimers : Prop :=
  ∀ s : State, s.up_ = true →
    (4000 ≤ s.el.modeOff → s.el.mode ≠ .normal → exec .modeNormalReturn s =
      .next (({ s with el := { s.el with mode := .normal } } : State).raise pgSafe 5)) ∧
    (s.el.modeOff < 4000 ∨ s.el.mode = .normal → exec .modeNormalReturn s = .next s) ∧
    (∀ m, degLimit m ≤ degGet s.el.degCyc m → s.el.expired.contains m = false → exec (.degradedExpired m) s =
      .next (({ s with el := { s.el with expired := m :: s.el.expired } } : State).raise pgSafe 7)) ∧
    (∀ m, degGet s.el.degCyc m < degLimit m ∨ s.el.expired.contains m = true → exec (.degradedExpired m) s = .next s) ∧
    (∀ m, 2400000 ≤ degGet s.el.degOk m → s.el.deg.contains m = false → exec (.degradedTimerClear m) s =
      .next { s with el := { s.el with
        degCyc := degSet s.el.degCyc m 0, expired := s.el.expired.filter (fun x => x != m) } }) ∧
    (∀ m, degGet s.el.degOk m < 2400000 ∨ s.el.deg.contains m = true → exec (.degradedTimerClear m) s = .next s) ∧
    (14400000 ≤ s.el.a.absBad → exec (.absTimeout .a) s =
      .next { s with el := { s.el with a := { s.el.a with abs := false } } }) ∧
    (14400000 ≤ s.el.b.absBad → exec (.absTimeout .b) s =
      .next { s with el := { s.el with b := { s.el.b with abs := false } } }) ∧
    (s.el.a.absBad < 14400000 → exec (.absTimeout .a) s = .next s) ∧
    (s.el.b.absBad < 14400000 → exec (.absTimeout .b) s = .next s) ∧
    (∀ (src : Src) (o : BitVec 12) (v : Word) (r : RegSpec), 0x40 ≤ o.toNat → o.toNat ≠ 0x8C →
      s.judge src (0x10000 + o.toNat) v = none → regAt (0x10000 + o.toNat) = some r →
      let u := s.storeReg (0x10000 + o.toNat) r v
      ∃ t, exec (.safeConfigWrite src o v) s = .next t ∧ t = u.elDigest ∧ t.rf = u.rf ∧
        t.el.a.copy = u.elCopyNow ∧ t.el.b.copy = u.elCopyNow ∧ t.el.a.digest = t.safeDigestOf t.el.a ∧
        t.el.b.digest = t.safeDigestOf t.el.b ∧ Only { rf := true, el := true } s t)

/-- NEAREST_LANDING_RUN: with a degraded mode expired and the car at rest outside every zone, MOT in IDLE, SCH running and
no host steering the runs, the doors closed, a valid position, a drive and authority, the horizon becomes the enabled
landing nearest to the car and the run starts: MOT in PREP with nothing committed, DRV asked to magnetise, nothing
passed yet. Without an expired mode nothing happens. Rests on R210. -/
def Obligations.RunToTheNearestLanding : Prop :=
  ∀ (n : Nat) (s : State), s.live = true →
    (s.el.expired = [] → exec .nearestLandingRun s = .next s) ∧
    (s.nearest s.estPos = some n → s.el.expired ≠ [] → s.mot.phase = .idle → s.el.still = true → s.pos.band = 0 →
      s.rb schCtrl 0 = true → s.hostRuns = false → (∀ m ∈ s.landings, s.outsideZone m s.estPos = true) →
      s.doorsClosed = true → s.posValid = true → s.drvIf ≠ 0 → s.authority = true →
      ∃ t, exec .nearestLandingRun s = .next t ∧ t.rf = (s.wn motHorizon n).rf ∧ t.mot.phase = .prep ∧
        t.mot.committed = false ∧ t.drv.step = .magnetise ∧ t.sch.passed = [] ∧ t.sch.cand = none ∧
        Only { rf := true, mot := true, drv := true, sch := true } s t)

/-- LRP_READ, LRP_WRITE, LRP_OPEN, LRP_CLOSE and LRP_NOP complete for every sound request of their OP on a path that
stands for a source: unsessioned SPI, or an open session. On SPI without SPI_OPEN anything but OPEN is answered with
E_AUTH and counted. Otherwise the request counts as a host frame for the silence deadline; one identical in every byte
to the last executed one of the path is answered from the store and not executed again; one whose charge exceeds what
is left of M8's budget waits for the next period; any other is charged and executed: READ answers with the words read
up to the first refused one, WRITE with the words written in address order up to the first refused one (or waits for
its tick), OPEN with the session it makes or its refusal, CLOSE with status 0 and ends its session, NOP with status 0;
the request and its response are kept. LRP_OPEN in plain form on an Ethernet port is executed within the budget, waits
beyond it, and is answered E_FRAME where it is not sound. A row given a request of another OP does nothing. Rests on
R32, R262, R263, R268. -/
def Obligations.LrpRequestsExecute : Prop :=
  ∀ (via : Via) (src : Src) (q : List Byte) (s : State), s.up_ = true →
    let heard := if via = .spi ∧ s.rb hostCfg 1 = false then s else s.silFrame
    let t := heard.charge (lrpCharge q)
    let shut := via = .spi ∧ s.rb hostCfg 1 = false ∧ lrpOp q ≠ 3
    let fresh := ∀ p, s.lastOf via = some p → p.1 ≠ q
    (s.viaSrc via = some src → lrpSound q = true →
      (∀ c : Instr, (lrpOp q = 1 ∧ c = .lrpRead via q) ∨ (lrpOp q = 2 ∧ c = .lrpWrite via q) ∨
          (lrpOp q = 3 ∧ via = .spi ∧ c = .lrpOpen 0 q) ∨ (lrpOp q = 4 ∧ c = .lrpClose via q) ∨
          (lrpOp q = 5 ∧ c = .lrpNop via q) →
        (shut → exec c s = .next (s.authFail.lrpSend .spi (lrpAnswer q 5 0 []))) ∧
        (∀ resp, ¬ shut → s.lastOf via = some (q, resp) → exec c s = .next (heard.lrpSend via resp)) ∧
        (¬ shut → fresh → s.host.budget < lrpCharge q → exec c s =
          .next ({ heard with host := { heard.host with waiting := heard.host.waiting ++ [(via, q)] } } : State).overrun8)) ∧
      (¬ shut → fresh → lrpCharge q ≤ s.host.budget →
        (∀ l c, lrpOp q = 1 → t.readWords src (lrpCount q) (lrpAddr q) = (l, c) →
          exec (.lrpRead via q) s = .next ((t.burstStop src (lrpAddr q) l.length (lrpCount q) c false).lrpRespond via q
            (lrpAnswer q c l.length (l.flatMap wordLe)))) ∧
        (∀ u, lrpOp q = 2 → t.writeWords via q src (lrpAddr q) (lrpWords q) 0 = (u, none) →
          exec (.lrpWrite via q) s = .next u) ∧
        (∀ u done c, lrpOp q = 2 → t.writeWords via q src (lrpAddr q) (lrpWords q) 0 = (u, some (done, c)) →
          exec (.lrpWrite via q) s = .next (u.writeEnded via q src done c)) ∧
        (lrpOp q = 3 → via = .spi → exec (.lrpOpen 0 q) s =
          .next ((t.openSession 0 [] q).1.lrpRespond .spi q (t.openSession 0 [] q).2)) ∧
        (lrpOp q = 4 → via = .spi → exec (.lrpClose via q) s = .next (t.lrpRespond via q (lrpAnswer q 0 0 []))) ∧
        (∀ i, lrpOp q = 4 → via = .session i → exec (.lrpClose via q) s =
          .next ((t.lrpRespond via q (lrpAnswer q 0 0 [])).sessEnd i)) ∧
        (lrpOp q = 5 → exec (.lrpNop via q) s = .next (t.lrpRespond via q (lrpAnswer q 0 0 []))))) ∧
    (∀ port, 1 ≤ port → port ≤ 3 → lrpOp q = 3 →
      (lrpSound q = false → exec (.lrpOpen port q) s = .next (s.lrpFault (.plain port []) q false)) ∧
      (lrpSound q = true → s.host.budget < 4 → exec (.lrpOpen port q) s =
        .next ({ s with host := { s.host with waiting := s.host.waiting ++ [(.plain port [], q)] } } : State).overrun8) ∧
      (lrpSound q = true → 4 ≤ s.host.budget → exec (.lrpOpen port q) s =
        .next (((s.charge 4).openSession port [] q).1.lrpRespond (.plain port []) q ((s.charge 4).openSession port [] q).2))) ∧
    (lrpOp q ≠ 1 → exec (.lrpRead via q) s = .next s) ∧ (lrpOp q ≠ 2 → exec (.lrpWrite via q) s = .next s) ∧
    (∀ port, lrpOp q ≠ 3 → exec (.lrpOpen port q) s = .next s) ∧ (lrpOp q ≠ 4 → exec (.lrpClose via q) s = .next s) ∧
    (lrpOp q ≠ 5 → exec (.lrpNop via q) s = .next s)

/-- LRP_INVALID_OP completes: an invalid OP, on a path that stands for a source, is counted in HOST_CNT.OP and answered
with E_OP. A request of valid OP that fails its length or CRC check is counted in HOST_CNT.FRAME, raises FRAME_ERR and
is answered with E_FRAME. Both carry their TAG and DONE 0, and nothing else happens. SPI_TRANSACTION completes: it
clocks out the newest response once; one whose first byte is 0x00 carries no request, one whose first byte is 0x06 an
envelope, any other the request it spells. With SPI disabled, or without a byte, it does nothing. Rests on R263, R264. -/
def Obligations.LrpFaultsExecuteNothing : Prop :=
  ∀ (via : Via) (q : List Byte) (s : State), s.up_ = true →
    (s.viaSrc via ≠ none → lrpValid q = false → exec (.lrpInvalidOp via q) s =
      .next ((s.bump hostCnt 24 8).lrpSend via (lrpAnswer q 0x11 0 []))) ∧
    (∀ c : Instr, s.viaSrc via ≠ none → (lrpOp q = 1 ∧ c = .lrpRead via q) ∨ (lrpOp q = 2 ∧ c = .lrpWrite via q) ∨
        (lrpOp q = 3 ∧ via = .spi ∧ c = .lrpOpen 0 q) ∨ (lrpOp q = 4 ∧ c = .lrpClose via q) ∨
        (lrpOp q = 5 ∧ c = .lrpNop via q) → (via = .spi → q.length ≤ lrpLength q) → lrpSound q = false →
      exec c s = .next (((s.bump hostCnt 0 8).raise pgHost 3).lrpSend via (lrpAnswer q 0x10 0 []))) ∧
    (∀ resp, (s.lrpSend .spi resp).host.spiResp = some resp) ∧
    (∀ (b : Byte) (r : List Byte), s.rb hostCfg 0 = true →
      let out := (s.host.spiResp.getD [] ++ List.replicate (r.length + 1) 0).take (r.length + 1)
      let clocked : State := { s with host := { s.host with spiOut := out, spiResp := none } }
      (b = 0 → exec (.spiTransaction (b :: r)) s = .next clocked) ∧
      (b = 6 → exec (.spiTransaction (b :: r)) s =
        .next (clocked.envelope 0 [] (slice (b :: r) 3 (leNat (slice (b :: r) 1 2))))) ∧
      (b ≠ 0 → b ≠ 6 → exec (.spiTransaction (b :: r)) s = .next (clocked.lrpRequest .spi (b :: r)))) ∧
    (∀ l, s.rb hostCfg 0 = false ∨ l = [] → exec (.spiTransaction l) s = .next s)

/-- SESSION_ENVELOPE completes for every port and bytes. An envelope of no session of its port, one too short, or one that
fails authentication, is dropped and counted in HOST_CNT.AUTH with AUTH_FAIL; one whose CTR is not above the last
accepted is dropped and counted in HOST_CNT.REPLAY. Any other makes its session OPEN, raising SESS_OPEN where it was
PENDING, moves CTR and the time of the last envelope, and has its frame handled; CTR at 2^64 − 1 ends the session.
Rests on R265, R266, R267. -/
def Obligations.EnvelopesAreAuthenticated : Prop :=
  ∀ (port : Nat) (e : List Byte) (s : State), s.up_ = true →
    let counted := (s.bump hostCnt 8 8).raise pgHost 4
    (s.sessOf port (leNat (slice e 0 2)) = none → exec (.sessionEnvelope port e) s = .next counted) ∧
    (∀ (i : Nat) (x : Session), s.sessOf port (leNat (slice e 0 2)) = some (i, x) →
      let ctr := leNat (slice e 2 8)
      let opened := Config.gcmOpen x.key (x.saltIn ++ slice e 2 8) (slice e 0 10) (slice e 10 (e.length - 26))
        (e.drop (e.length - 16))
      (e.length < 26 ∨ opened = none → exec (.sessionEnvelope port e) s = .next counted) ∧
      (∀ q, 26 ≤ e.length → opened = some q → ctr ≤ x.ctrIn →
        exec (.sessionEnvelope port e) s = .next (s.bump hostCnt 16 8)) ∧
      (∀ q, 26 ≤ e.length → opened = some q → x.ctrIn < ctr →
        let t := s.setSess i { x with ctrIn := ctr, lastAt := s.tick, isOpen := true }
        let done := (if x.isOpen then t else t.raise pgHost 1).lrpRequest (.session i) q
        exec (.sessionEnvelope port e) s = .next (if ctr = 2 ^ 64 - 1 then done.sessEnd i else done)))

/-- SESSION_PENDING_TIMEOUT of a PENDING session without an envelope for 1 s, and SESSION_TIMEOUT of an OPEN one without
one for HOST_SESS_TO_MS, end it: its place is free, SESS_END is raised, and the seal it had opened closes; before that
time, of a session in the other state, or of a free place, they do nothing. HOST_SEAL_OPEN, accepted, opens the seal
for its session in FIELD and has no effect elsewhere; HOST_CLOSE_OTHERS, accepted, ends every session but its own.
Rests on R266, R267, R269. -/
def Obligations.SessionsEnd : Prop :=
  ∀ s : State, s.up_ = true →
    (∀ i, s.sess i = none → exec (.sessionPendingTimeout i) s = .next s ∧ exec (.sessionTimeout i) s = .next s) ∧
    (∀ (i : Nat) (x : Session), s.sess i = some x →
      let ended := ({ s with host := { s.host with
        sessions := s.host.sessions.set i none
        sealBy := if s.host.sealBy = some i then none else s.host.sealBy } } : State).raise pgHost 2
      let pendingOver := x.isOpen = false ∧ x.lastAt + 16000 ≤ s.tick
      let openOver := x.isOpen = true ∧ x.lastAt + msTicks (s.rn hostSessToMs) ≤ s.tick
      (pendingOver → exec (.sessionPendingTimeout i) s = .next ended) ∧
      (¬ pendingOver → exec (.sessionPendingTimeout i) s = .next s) ∧
      (openOver → exec (.sessionTimeout i) s = .next ended) ∧
      (¬ openOver → exec (.sessionTimeout i) s = .next s)) ∧
    (∀ src : Src, s.judge src hostCmd 2 = none →
      (s.lc = .field → exec (.hostSealOpen src) s = .next { s with host := { s.host with sealBy := src.session } }) ∧
      (s.lc ≠ .field → exec (.hostSealOpen src) s = .next s)) ∧
    (∀ src : Src, s.judge src hostCmd 4 = none → exec (.hostCloseOthers src) s =
      .next (each ((List.range 4).filter (fun i => some i != src.session)) s (fun t i => t.sessEnd i)))

/-- ETH_FRAME_RX completes for every port and frame. A port that is disabled or gated, or any port in the fallback clock,
takes nothing; a frame with a wrong FCS is counted as CRC error; any other is counted as received. With M7's budget
used up it waits in the port's buffer, of 16 frames, beyond which it is counted as overflow. Otherwise a frame outside
64 to 1,518 bytes, or to a port without an address, is counted UNKNOWN; an ARP request for the port's address is
answered, and so is an echo request where PING is set; a datagram to the register port goes to the port's protocol.
ETH_LINK_CHANGE completes: the link is shown in ETHn_STATUS with LINK_CHG, and a port whose link goes down ends its
sessions. ETH_FAR_FAULT completes: ETH1's far-end fault is shown and raised. Rests on R265, R267, R270, R273, R279. -/
def Obligations.EthernetPortsTakeFrames : Prop :=
  ∀ (n : Nat) (s : State), n < 3 → s.up_ = true →
    let took := s.bump (ethCntFrm (n + 0x18)) 0 16
    let inUse := s.rb (ethCfg (n + 0x18)) 0 = true ∧ s.gated (n + 0x18) = false ∧ s.clk.fallback = false
    let ip := took.rn (ethIp (n + 0x18))
    (∀ ok f, ¬ inUse → exec (.ethFrameRx n ok f) s = .next s) ∧
    (∀ f, inUse → exec (.ethFrameRx n false f) s = .next (s.bump (ethCntErr (n + 0x18)) 0 8)) ∧
    (∀ f, inUse → s.host.netOut = true → (s.host.ethBuf.filter (fun e => e.1 == n)).length < 16 →
      exec (.ethFrameRx n true f) s = .next { took with host := { s.host with ethBuf := s.host.ethBuf ++ [(n, f)] } }) ∧
    (∀ f, inUse → s.host.netOut = true → 16 ≤ (s.host.ethBuf.filter (fun e => e.1 == n)).length →
      exec (.ethFrameRx n true f) s = .next (took.bump (ethCntErr (n + 0x18)) 8 8)) ∧
    (∀ f : List Byte, inUse → s.host.netOut = false →
      let typ := beNat (slice f 12 2)
      let src := slice f 6 6
      let mine := slice f 0 6 == macOf n
      let all := (slice f 0 6).all (fun b => b == 0xFF)
      let forMe := typ = 0x0800 ∧ mine = true ∧ byteAt f 14 = 0x45 ∧ beNat (slice f 20 2) % 16384 = 0 ∧
        beNat (slice f 30 4) = ip
      (f.length < 64 ∨ 1518 < f.length ∨ ip = 0 →
        exec (.ethFrameRx n true f) s = .next (took.bump (ethCntErr (n + 0x18)) 16 8)) ∧
      (64 ≤ f.length → f.length ≤ 1518 → ip ≠ 0 →
        (typ = 0x0806 → mine = true ∨ all = true → beNat (slice f 14 8) = 0x0001080006040001 →
          beNat (slice f 38 4) = ip → exec (.ethFrameRx n true f) s = .next (took.ethSend n 0 (src ++ slice f 28 4) [])) ∧
        (forMe → byteAt f 23 = 1 → beNat (slice f 34 2) = 0x0800 → took.rb (ethCfg (n + 0x18)) 1 = true →
          exec (.ethFrameRx n true f) s =
            .next (took.ethSend n 1 (src ++ slice f 26 4) (slice f 38 (beNat (slice f 16 2) - 24)))) ∧
        (forMe → byteAt f 23 = 17 → beNat (slice f 36 2) = 49731 → exec (.ethFrameRx n true f) s =
          .next (took.datagram n (src ++ slice f 26 4 ++ slice f 34 2) (slice f 42 (beNat (slice f 38 2) - 8)))))) ∧
    (∀ up amp (sqi : BitVec 3),
      let shown := s.wr (ethStatus (n + 0x18)) (pack [(0, 1, b2n up), (1, 1, s.rf_ (ethStatus (n + 0x18)) 1 1),
        (2, 1, b2n (up && (amp && n == 2))), (4, 3, if up then (if n = 2 then sqi.toNat else 0) else 0)])
      let changed := if s.rb (ethStatus (n + 0x18)) 0 = up then shown else shown.raise (n + 0x18) 1
      exec (.ethLinkChange n up amp sqi) s = .next (if up then changed else each (List.range 4) changed (fun w i =>
        if ((nth w.host.sessions i none).map (fun (x : Session) => x.port)) = some (n + 1) then w.sessEnd i else w))) ∧
    exec (.ethFarFault true) s = .next ((s.wf_ (ethStatus 0x19) 1 1 1).raise 0x19 2) ∧
    exec (.ethFarFault false) s = .next (s.wf_ (ethStatus 0x19) 1 1 0)

/-- HOST_CNT_CLR and ETH_CNT_CLR, accepted, clear the counters of their page, XBAR_CLR_PEAK every peak and XBAR_CLR_FLT
every recorded fault, and ETH_RENEG takes the link of ETH0 or ETH2 down, to be negotiated again. BUDGET_EXHAUSTED
completes: a master that uses up its budget sets its XBAR_OVR bit and raises OVR; M0 to M5 have missed their deadline,
M7 buffers its frames, M8's budget is at 0, M9's records stay staged, M11's mirror frame waits, and M6 and M10 show
nothing more. There is no master from 12. Rests on R273, R278, R279, R280. -/
def Obligations.HostCountersAndBudgets : Prop :=
  ∀ s : State, s.up_ = true →
    (∀ src, s.judge src hostCmd 1 = none → exec (.hostCntClr src) s = .next (s.wr hostCnt 0)) ∧
    (∀ src n, n < 3 → s.judge src (ethCmd (n + 0x18)) 1 = none →
      exec (.ethCntClr src n) s = .next ((s.wr (ethCntFrm (n + 0x18)) 0).wr (ethCntErr (n + 0x18)) 0)) ∧
    (∀ src n, (n = 0 ∨ n = 2) → s.judge src (ethCmd (n + 0x18)) 2 = none →
      exec (.ethReneg src n) s = exec (.ethLinkChange n false false 0) s ∧ ∃ t, exec (.ethReneg src n) s = .next t) ∧
    (∀ src, s.judge src xbarCmd 1 = none →
      exec (.xbarClrPeak src) s = .next { s with xbar := { s.xbar with peak := 0, clrAt := s.tick } }) ∧
    (∀ src, s.judge src xbarCmd 2 = none →
      exec (.xbarClrFlt src) s = .next (each (List.range 24) s (fun t i => t.wr (xbarFlt + 4 * i) 0))) ∧
    (let spent (m : Nat) : State := (s.wf_ xbarOvr m 1 1).raise pgXbar 1
     (∀ m, m < 6 → exec (.budgetExhausted m) s = .next (spent m).deadlineMiss) ∧
     exec (.budgetExhausted 6) s = .next (spent 6) ∧
     exec (.budgetExhausted 7) s = .next { spent 7 with host := { s.host with netOut := true } } ∧
     exec (.budgetExhausted 8) s = .next { spent 8 with host := { s.host with budget := 0 } } ∧
     exec (.budgetExhausted 9) s = .next { spent 9 with rcd := { s.rcd with held := true } } ∧
     exec (.budgetExhausted 10) s = .next (spent 10) ∧
     exec (.budgetExhausted 11) s = .next { spent 11 with part := { s.part with mirrorDelay := true } } ∧
     ∀ m, 12 ≤ m → exec (.budgetExhausted m) s = .next s)

/-- SR_ANSWER completes for every bytes and time. In RUN, with POS running and the reader enabled, an answer of 8 bytes
with status 0 and a right CRC, to an outstanding request, with its sequence (checked where the module has authority),
that ends before the fourth period after the request and is no older than 2 ms by the stamp of its end, is accepted:
it is the pending and the newest telegram, its position and age show in the registers, and a LOST reader without a
conflict starts its probation. Any other adds one to the rejections, at most 255, and does nothing else. Where POS
does not run or the reader is not enabled nothing happens. Rests on R36, R38, R39. -/
def Obligations.ReaderAnswersAreJudged : Prop :=
  ∀ (l : List Byte) (e : Nat) (s : State),
    let r := s.pos.sr
    let stamp := e / 1000 * 1000
    let age := ((e / 62500 + 1) * 62500 - stamp) / 1000 + s.rf_ posSrCfg 0 16
    let inUse : Prop := s.live = true ∧ s.posRun = true ∧ r.st ≠ .absent
    let good : Prop := l.length = 8 ∧ slice l 6 2 = crc16Bytes (slice l 0 6) ∧ byteAt l 0 = 0 ∧ r.reqOut = true ∧
      (s.authority = true → byteAt l 5 = r.reqSeq) ∧ e < (r.reqAt - s.baseTick + 4) * 62500 ∧ age ≤ 2000
    let x : SrAns := ⟨signed 32 (leNat (slice l 1 4)), stamp, byteAt l 5⟩
    let kept : State := { s with pos := { s.pos with sr := { r with pend := some x, newest := some x, lastAt := e } } }
    let shown := (kept.wi posSrRaw x.z).wr posSrInfo (pack [(0, 16, age), (16, 8, x.seq), (24, 8, s.rf_ posSrInfo 24 8)])
    (inUse → ¬ good → exec (.srAnswer l e) s = .next (s.bump posSrInfo 24 8)) ∧
    (inUse → good → (r.st ≠ .lost ∨ r.conflict = true) → exec (.srAnswer l e) s = .next shown) ∧
    (inUse → good → r.st = .lost → r.conflict = false →
      exec (.srAnswer l e) s = .next { shown with pos := { shown.pos with sr := shown.pos.sr.probe e } }) ∧
    (¬ inUse → exec (.srAnswer l e) s = .next s)

/-- SR_TIMEOUT completes: a VALID reader without an accepted telegram for 2 ms is lost, with SRC_LOST and the recorder;
one in probation starts it again; otherwise nothing happens. SOURCE_RETURN completes: a source that has passed its
probation is VALID again with SRC_BACK, an encoder on a re-based arc, the reader with ABS (and, first reference or
large mean offset, with p taken from it); one that has not is left alone. DZ_WIRING_FAULT completes: a wiring fault
marks its channel for Electrum and for POS; a VALID channel is lost by it with SRC_LOST, and one in probation is LOST
too. DZ_WIRING_FAULT_END completes: the marks are cleared and the probation of a channel lost by the fault starts.
Rests on R36, R48, R49, R51, R52. -/
def Obligations.SourcesAreLostAndReturn : Prop :=
  ∀ s : State, s.live = true →
    let silent := s.pos.sr.lastAt + 2000000 ≤ s.ns
    (silent → s.pos.sr.st = .valid →
      let t := (s.setSrc .sr .lost).raise pgPos 2
      exec .srTimeout s = .next (t.fire 2 t.posSrcW).posNote) ∧
    (silent → s.pos.sr.st = .probation →
      exec .srTimeout s = .next { s with pos := { s.pos with sr := s.pos.sr.probe s.ns } }) ∧
    (¬ silent ∨ (s.pos.sr.st ≠ .valid ∧ s.pos.sr.st ≠ .probation) → exec .srTimeout s = .next s) ∧
    (∀ i, s.probationPassed i = false → exec (.sourceReturn i) s = .next s.posNote) ∧
    (s.probationPassed .enc1 = true → exec (.sourceReturn .enc1) s =
      .next (((s.setSrc .enc1 .valid).raise pgPos 3).rebase.posNote).posNote) ∧
    (s.probationPassed .enc2 = true →
      let t := (s.setSrc .enc2 .valid).raise pgPos 3
      exec (.sourceReturn .enc2) s =
        .next (({ t with pos := { t.pos with e2 := t.pos.p + t.pos.s + t.pos.d } } : State).posNote).posNote) ∧
    (s.probationPassed .sr = true →
      let t := ((s.setSrc .sr .valid).raise pgPos 3).posNote
      exec (.sourceReturn .sr) s = .next
        ((if s.srSmall = false ∨ s.pos.abs = false then t.takeReader (!s.srSmall) else t).setAbs).posNote) ∧
    (∀ i, i = .dza ∨ i = .dzb ∨ i = .acc ∨ i = .load → s.probationPassed i = true →
      exec (.sourceReturn i) s = .next (((s.setSrc i .valid).raise pgPos 3).posNote).posNote) ∧
    (∀ c,
      let i : PosSrc := if c = .a then .dza else .dzb
      let marked := (s.elWire c true).setDz c { s.dz c with wiring := true }
      let lost := (marked.setSrc i .lost).raise pgPos 2
      let told := (lost.fire 2 lost.posSrcW).posNote
      ((s.dz c).st = .absent ∨ (s.dz c).st = .lost → exec (.dzWiringFault c) s = .next marked) ∧
      ((s.dz c).st = .probation → exec (.dzWiringFault c) s =
        .next (marked.setDz c { ({ s.dz c with wiring := true } : DzCh).probe with st := .lost, lostByWiring := true })) ∧
      ((s.dz c).st = .valid → exec (.dzWiringFault c) s = .next (told.setDz c { told.dz c with lostByWiring := true }))) ∧
    (∀ c, (s.dz c).st ≠ .lost ∨ (s.dz c).lostByWiring = false →
      exec (.dzWiringFaultEnd c) s = .next ((s.elWire c false).setDz c { s.dz c with wiring := false })) ∧
    (∀ c, (s.dz c).st = .lost → (s.dz c).lostByWiring = true → exec (.dzWiringFaultEnd c) s =
      .next ((s.elWire c false).setDz c ({ s.dz c with wiring := false } : DzCh).probe))

/-- DZ_EDGE completes: a correction run may take it as its capture edge; the channel shows its new level; with POS running
and the channel in use the edge is kept with its stamp for the next Fusion phase, and the first edge of a LOST channel
without a wiring fault starts its probation; a zone seen active at standstill without an absolute reference may
establish it. ENC_DISAGREE: after 10 ms of too great a difference it latches, with its interrupt and record.
ENC_DISAGREE_CLEAR: it clears after 1 s of agreement. TRACTION that is due, by a step or by MOT's time of too fast a
slip under a VALID reader, latches with its interrupt and record, stops a run in a controlled way and takes the
scheduler out of service. Each does nothing where it is not due. Rests on R40, R48, R50, R53, R56, R57, R90. -/
def Obligations.ZoneEdgesAndDisagreements : Prop :=
  ∀ s : State, s.live = true →
    (∀ c rising us,
      let t := s.homeEdge c rising us
      let d : DzCh := { t.dz c with active := rising }
      let k : DzCh := { d with edges := (t.dz c).edges ++ [(rising, us)] }
      let seen := t.setDz c (if (t.dz c).st = .absent ∨ t.posRun = false then d
        else if (t.dz c).st = .lost ∧ (t.dz c).wiring = false then k.probe else k)
      let first := rising = true ∧ seen.pos.band = 0 ∧ seen.posRun = true ∧ seen.pos.abs = false
      (s.mot.phase ≠ .special ∨ s.mot.hstep ≠ .search ∨ s.pos.band = 0 ∨ (s.dz c).capture ≠ none → t = s) ∧
      (first → exec (.dzEdge c rising us) s = .next seen.absFromZone.posNote) ∧
      (¬ first → exec (.dzEdge c rising us) s = .next seen)) ∧
    (160 ≤ s.pos.diffTicks → s.pos.encDisagree = false → exec .encDisagree s =
      .next ((({ s with pos := { s.pos with encDisagree := true } } : State).raise pgPos 8).fire 3 (wordI s.estVel))) ∧
    (s.pos.diffTicks < 160 ∨ s.pos.encDisagree = true → exec .encDisagree s = .next s) ∧
    (16000 ≤ s.pos.agreeTicks → exec .encDisagreeClear s = .next { s with pos := { s.pos with encDisagree := false } }) ∧
    (s.pos.agreeTicks < 16000 → exec .encDisagreeClear s = .next s) ∧
    (let due := s.pos.tractStep = true ∨
       (s.pos.sr.st = .valid ∧ s.rn posTractTimeMs * 16 ≤ s.pos.tractTicks ∧ 0 < s.pos.tractTicks)
     let t := ({ s with pos := { s.pos with traction := true, tractStep := false } } : State).raise pgPos 4
     let held := (t.fire 4 (wordI t.pos.slipRate)).motHoldNow
     (due → s.pos.traction = false →
       exec .traction s = .next (held.oosChange held.sch.oosHost true held.sch.oosSafe)) ∧
     (¬ due ∨ s.pos.traction = true → exec .traction s = .next s))

/-- BIAS_CAL, SR_REACQ, CLR_TRACT, KAPPA_RESET and POS_RUN_CLEAR complete where the register write is accepted. BIAS_CAL
starts an empty calibration; BIAS_CAL_DONE, after 16,000 samples, makes b their mean and raises CAL_DONE. SR_REACQ
clears the rejections, and a conflict (of POS, and of each Electrum channel) with a new probation. CLR_TRACT clears
TRACTION and what led to it. KAPPA_RESET sets κ to POS_KAPPA_INIT. POS_RUN_CLEAR: every source is ABSENT, ABS is clear
and no calibration runs. KAPPA_BIAS_SAVE, every 10 min of operating time with a valid profile, stores κ and b as they
are. Each is whole: nothing else changes; BIAS_CAL_DONE and KAPPA_BIAS_SAVE do nothing before their time. Rests on
R55, R57, R61, R63, R209. -/
def Obligations.PositionCommands : Prop :=
  ∀ s : State, s.up_ = true →
    (∀ src, s.judge src posCmd 1 = none →
      exec (.biasCal src) s = .next { s with pos := { s.pos with cal := some (0, 0) } }) ∧
    (∀ n sum, s.live = true → s.pos.cal = some (n, sum) → 16000 ≤ n → exec .biasCalDone s =
      .next (({ s with pos := { s.pos with cal := none, b := sum.tdiv 16000 } } : State).raise pgPos 9)) ∧
    (∀ n sum, s.pos.cal = some (n, sum) → n < 16000 → exec .biasCalDone s = .next s) ∧
    (s.pos.cal = none → exec .biasCalDone s = .next s) ∧
    (∀ src, s.judge src posCmd 2 = none →
      let t := ({ s with el := { s.el with a := s.el.a.reacq, b := s.el.b.reacq } } : State).wf_ posSrInfo 24 8 0
      (s.pos.sr.conflict = false → exec (.srReacq src) s = .next t) ∧
      (s.pos.sr.conflict = true → exec (.srReacq src) s =
        .next { t with pos := { t.pos with sr := { (t.pos.sr.probe t.ns) with conflict := false } } }) ∧
      (∀ c : ElCh, c.srConflict = false → c.reacq = c) ∧
      (∀ c : ElCh, c.srConflict = true →
        c.reacq = { c with srConflict := false, srSt := .probation, srProb := none })) ∧
    (∀ src, s.judge src posCmd 4 = none → exec (.clrTract src) s =
      .next { s with pos := { s.pos with traction := false, tractTicks := 0, tractStep := false } }) ∧
    (∀ src, s.judge src posCmd 8 = none →
      exec (.kappaReset src) s = .next { s with pos := { s.pos with kap := s.rn posKappaInit } }) ∧
    (∀ src, s.judge src posCtrl (Word.setBits (s.rd posCtrl) 0 1 0) = none → s.posRun = true →
      ∃ t, exec (.posRunClear src) s = .next t ∧ t.pos.abs = false ∧ t.pos.cal = none ∧
        t.pos.enc1.w.st = .absent ∧ t.pos.enc2.w.st = .absent ∧ t.pos.sr.st = .absent ∧ t.pos.dza.st = .absent ∧
        t.pos.dzb.st = .absent ∧ t.pos.acc.st = .absent ∧ t.pos.load = .absent ∧
        Only { rf := true, irqNow := true, pos := true } s t) ∧
    (s.sys.profValid = true → s.since s.sys.kbAt 9600000 = true → exec .kappaBiasSave s =
      .next { s with sys := { s.sys with kbSaved := some (s.pos.kap, s.pos.b), kbAt := s.tick } }) ∧
    (s.sys.profValid = false ∨ s.since s.sys.kbAt 9600000 = false → exec .kappaBiasSave s = .next s)

/-- LWB_CONVERSION completes: with EN set it keeps its raw value and its fault bits, filters the load in kg between 0 and
65,535 (the first taken as it is), counts faulty and good conversions and adds to a calibration in hand; with EN clear
it is ignored. LWB_VALID_CLEAR: VALID clears after 50 faulty conversions or where the channel is not calibrated.
LWB_VALID_SET: it sets after 100 good ones; both with VALID_CHG. LWB_ZERO and LWB_SPAN, accepted, start a calibration
of 2,000 conversions. LWB_CAL_DONE: at its end LWB_ZERO is the mean, and a span whose mean lies above zero is stored
(the quotient where it fits the register, else a value the spec does not give, log entry of Config.outOfRange) and one
that does not is aborted. Before their time the last four do nothing. Rests on R64, R65, R66. -/
def Obligations.LoadWeighingCommands : Prop :=
  ∀ s : State, s.live = true →
    (∀ raw ow exc ol, s.rb lwbCtrl 0 = false → exec (.lwbConversion raw ow exc ol) s = .next s) ∧
    (∀ raw ow exc ol, s.rb lwbCtrl 0 = true →
      let load := min (max ((raw - s.ri lwbZero) * (s.rn lwbSpan : Int) / 16777216) 0) 65535
      let bad := ow || exc || ol
      exec (.lwbConversion raw ow exc ol) s = .next { s with lwb := { s.lwb with
        raw := raw, first := false, openWire := ow, exc := exc, overRange := ol
        y := if s.lwb.first then load else s.lwb.y + (load - s.lwb.y).tdiv (s.rn lwbFiltMs)
        faultConv := if bad then min (s.lwb.faultConv + 1) 50 else 0
        okConv := if bad then 0 else min (s.lwb.okConv + 1) 100
        cal := s.lwb.cal.map (fun x => if x.2.1 < 2000 then (x.1, x.2.1 + 1, x.2.2 + raw) else x) } }) ∧
    (s.lwb.valid = true → (50 ≤ s.lwb.faultConv ∨ s.lwb.uncal = true) → exec .lwbValidClear s =
      .next (({ s with lwb := { s.lwb with valid := false } } : State).raise pgLwb 1)) ∧
    (s.lwb.valid = false ∨ (s.lwb.faultConv < 50 ∧ s.lwb.uncal = false) → exec .lwbValidClear s = .next s) ∧
    (s.lwb.valid = false → s.rb lwbCtrl 0 = true → 100 ≤ s.lwb.okConv → s.lwb.uncal = false → exec .lwbValidSet s =
      .next (({ s with lwb := { s.lwb with valid := true } } : State).raise pgLwb 1)) ∧
    (s.lwb.valid = true ∨ s.rb lwbCtrl 0 = false ∨ s.lwb.okConv < 100 ∨ s.lwb.uncal = true →
      exec .lwbValidSet s = .next s) ∧
    (∀ src, s.judge src lwbCmd 1 = none →
      exec (.lwbZero src) s = .next { s with lwb := { s.lwb with cal := some (false, 0, 0) } }) ∧
    (∀ src, s.judge src lwbCmd 2 = none →
      exec (.lwbSpan src) s = .next { s with lwb := { s.lwb with cal := some (true, 0, 0) } }) ∧
    (∀ sum, s.lwb.cal = some (false, 2000, sum) → exec .lwbCalDone s =
      .next (({ s.wi lwbZero (sum.tdiv 2000) with
        lwb := { s.lwb with cal := none, zeroStored := true } } : State).raise pgLwb 2)) ∧
    (∀ sum, s.lwb.cal = some (true, 2000, sum) → sum.tdiv 2000 ≤ s.ri lwbZero → exec .lwbCalDone s =
      .next (({ s with lwb := { s.lwb with cal := none } } : State).raise pgLwb 3)) ∧
    (∀ sum, s.lwb.cal = some (true, 2000, sum) →
      let v := ((s.rn lwbCalKg : Int) * 16777216).tdiv (sum.tdiv 2000 - s.ri lwbZero)
      s.ri lwbZero < sum.tdiv 2000 → exec .lwbCalDone s =
        .next (({ s.wr lwbSpan (if v < 4294967296 then wordI v else Config.outOfRange v) with
          lwb := { s.lwb with cal := none, spanStored := true } } : State).raise pgLwb 2)) ∧
    ((∀ k sum, s.lwb.cal ≠ some (k, 2000, sum)) → exec .lwbCalDone s = .next s)

/-- MOT_START, MOT_TARGET_WRITE, MOT_HORIZON_WRITE, MOT_APPLY, MOT_TRUN and MOT_RESUME complete where the register write
is accepted. START puts MOT in PREP towards the horizon with no target committed and nothing passed yet, and asks DRV
to magnetise. A write of MOT_TARGET commits that landing and its level with source host, raising COMMIT, and in SPEED
the phase becomes APPROACH; where the register takes no commitment (a write that leaves it at its value) nothing
happens. One of MOT_HORIZON stores the horizon. APPLY makes the seven staged limits the live ones and raises
LIM_APPLIED; where no level governs, or a plan to the level is found, the plan is rebuilt, and otherwise the ramp in
hand goes on. TRUN is answered in the next period. RESUME clears RAMPED and reports RESUMED: away from its target it
prepares the drive with the target kept, or the horizon where none is committed (committed now if the car stands in
its zone); level in the zone the run is complete, and the scheduler answers a normal one. Rests on R71, R73, R74, R75,
R77, R80, R81, R97. -/
def Obligations.RunCommandsStartAndCommit : Prop :=
  ∀ (src : Src) (s : State), s.up_ = true →
    (s.judge src motCmd 1 = none → ∃ t, exec (.motStart src) s = .next t ∧ t.mot.phase = .prep ∧ t.mot.committed = false ∧
      t.mot.runType = .none ∧ t.mot.up = decide (s.spPos < s.level s.horizon) ∧ t.mot.plan = none ∧
      t.mot.ramped = false ∧ t.mot.follow = false ∧ t.sch.passed = [] ∧ t.sch.cand = none ∧
      t.drv.step = .magnetise ∧ t.drv.energise = false ∧ t.drv.stepAt = s.tick ∧
      Only { mot := true, drv := true, sch := true } s t) ∧
    (∀ v, s.judge src motTarget v = none →
      let n := Word.bits v 0 8
      let t := (({ s with mot := { s.mot with
        committed := true, target := n, targetPos := s.level n, csrc := .host } } : State).wn motTarget n).raise pgMot 1
      (s.targetOpen = true → s.mot.phase = .speed → exec (.motTargetWrite src v) s =
        .next { t with mot := { t.mot with phase := .approach } }) ∧
      (s.targetOpen = true → s.mot.phase ≠ .speed → exec (.motTargetWrite src v) s = .next t) ∧
      (s.targetOpen = false → exec (.motTargetWrite src v) s = .next s)) ∧
    (∀ v r, s.judge src motHorizon v = none → regAt motHorizon = some r →
      exec (.motHorizonWrite src v) s = .next (s.storeReg motHorizon r v)) ∧
    (s.judge src motCmd 2 = none →
      let live := each (List.range 7) s (fun t i => t.wr (motVmax + 4 * i) (s.rd (motNewVmax + 4 * i)))
      (s.applyLevel = none → exec (.motApply src) s = .next ((live.motReplan none).raise pgMot 4)) ∧
      ((s.mot.phase = .idle ∨ s.mot.phase = .prep ∨ s.mot.phase = .held ∨ s.mot.phase = .landed) →
        exec (.motApply src) s = .next (live.raise pgMot 4)) ∧
      (∀ l b, s.applyLevel = some l → s.applyPlan s.stagedLims l = some b →
        exec (.motApply src) s = .next ((live.motReplan b).raise pgMot 4)) ∧
      (∀ l, s.applyLevel = some l → s.applyPlan s.stagedLims l = none →
        exec (.motApply src) s = .next (live.raise pgMot 4))) ∧
    (s.judge src motCmd 8 = none →
      exec (.motTrun src) s = .next { s with mot := { s.mot with trunPend := true } }) ∧
    (s.judge src motCmd 4 = none →
      let woken := ({ s with
        mot := { s.mot with ramped := false }, sch := { s.sch with passed := [], cand := none } } : State).rtEvent 6
      let n := s.horizon
      let atLevel (x : Int) : Prop := ((s.estPos - x).natAbs : Int) ≤ s.ri motLevelAcc
      let off (u : State) (x : Int) : State := ({ u with mot := { u.mot with
        phase := .prep, up := decide (s.estPos < x), ramped := false, blend := false, plan := none
        keptHorizon := false, landValid := false } } : State).drvRequest
      (s.mot.committed = true → atLevel s.mot.targetPos → s.inZone s.mot.target = true →
        exec (.motResume src) s = .next (woken.motReached.schReached s)) ∧
      (s.mot.committed = true → ¬ atLevel s.mot.targetPos ∨ s.inZone s.mot.target = false →
        exec (.motResume src) s = .next (off woken s.mot.targetPos)) ∧
      (s.mot.committed = false → s.inZone n = true → atLevel (s.level n) →
        exec (.motResume src) s = .next ((woken.motCommit n .horizon).motReached.schReached s)) ∧
      (s.mot.committed = false → s.inZone n = true → ¬ atLevel (s.level n) →
        exec (.motResume src) s = .next (off (woken.motCommit n .horizon) (s.level n))) ∧
      (s.mot.committed = false → s.inZone n = false →
        exec (.motResume src) s = .next (off woken (s.level n))))

/-- MOT_HOLD completes where the write of MOT_CTRL is accepted: in RUN with HOLD set, a run in SPEED, APPROACH or STOPPING
is in HOLDING on a stop plan, with the target kept where one is committed and the horizon where none is; in PREP it is
HELD with DRV in OFF; a special run makes a controlled stop with nothing kept, or ends in IDLE before it has moved;
other phases go on. FOLLOW_ERROR completes: one that has lasted 16 periods of SPEED, APPROACH or STOPPING latches
FOLLOW, raises and records it and makes such a stop. PLAN_END completes: a plan that has ended at its target lands the
car, with RUN_DONE, LANDING the target and DRV asked to drop the brake; a recovery or correction run with the proof
pending begins its door cycles, and a normal run is then answered by the scheduler. VCAP_CHANGE completes: a changed
cap takes effect with CAP_CHG and the plan is rebuilt, in STOPPING only where the cap is exceeded and a plan is found.
Each does nothing where its condition does not stand. Rests on R72, R79, R82, R83, R94, R98. -/
def Obligations.RunsHoldAndEnd : Prop :=
  ∀ s : State, s.live = true →
    (∀ (src : Src) (r : RegSpec), regAt motCtrl = some r →
      let w := Word.setBits (s.rd motCtrl) 1 1 1
      let t := s.storeReg motCtrl r w
      s.judge src motCtrl w = none → t.rb motCtrl 1 = true → exec (.motHold src) s = .next t.motHoldNow) ∧
    ((s.mot.phase = .speed ∨ s.mot.phase = .approach ∨ s.mot.phase = .stopping) →
      s.motHoldNow = { s with mot := { s.mot with
        phase := .holding, plan := some s.holdPlan, keptHorizon := !s.mot.committed, blend := false } }) ∧
    (s.mot.phase = .prep → s.motHoldNow.mot.phase = .held ∧ s.motHoldNow.drv.step = .off ∧
      s.motHoldNow.mot.committed = s.mot.committed ∧ s.motHoldNow.mot.keptHorizon = !s.mot.committed) ∧
    (s.mot.phase = .special → s.mot.moved = true → s.motHoldNow.mot.phase = .holding ∧
      s.motHoldNow.mot.committed = false ∧ s.motHoldNow.mot.keptHorizon = false) ∧
    (s.mot.phase = .special → s.mot.moved = false → s.motHoldNow.mot.phase = .idle ∧ s.motHoldNow.drv.step = .off) ∧
    (s.mot.phase = .idle ∨ s.mot.phase = .holding ∨ s.mot.phase = .held ∨ s.mot.phase = .landed ∨
      s.mot.phase = .tripped → s.motHoldNow = s) ∧
    (let lasting := 16 ≤ s.mot.followN ∧ (s.mot.phase = .speed ∨ s.mot.phase = .approach ∨ s.mot.phase = .stopping)
     (lasting → exec .followError s = .next (((({ s with mot := { s.mot with follow := true } } : State).raise pgMot 7).fire 5
        (wordI s.mot.followErr)).motHoldNow)) ∧
     (¬ lasting → exec .followError s = .next s)) ∧
    (let ended := ∃ p, s.mot.plan = some p ∧ s.mot.landsAt = true ∧ p.done s.tick = true
     let landed := s.motLanded.raise pgMot 3
     let dropped := if s.drv.step = .follow then
       { landed with drv := { s.drv with step := .drop, stepAt := s.tick, liftReq := false } } else landed
     let proof := s.el.proofPend = true ∧ (s.mot.runType = .recovery ∨ s.mot.runType = .correction)
     let done := if proof then
       { dropped with mot := { dropped.mot with proofDoors := dropped.sidesOf s.mot.target, proofOpen := false } } else dropped
     (done.mot.phase = .landed ∧ done.mot.landing = s.mot.target ∧ done.mot.landValid = true ∧ done.mot.plan = none) ∧
     (ended → s.mot.runType ≠ .none ∨ s.mot.holdRun = true → exec .planEnd s = .next done) ∧
     (ended → s.mot.runType = .none → s.mot.holdRun = false → exec .planEnd s = .next (done.schRunDone s.mot.target)) ∧
     (¬ ended → exec .planEnd s = .next s)) ∧
    (let capped := ({ s with mot := { s.mot with cap := s.el.vlim } } : State).raise pgMot 6
     let v := (s.mot.along s.mot.sp).1
     (s.mot.cap = s.el.vlim → exec .vcapChange s = .next s) ∧
     (s.mot.cap ≠ s.el.vlim → s.mot.phase ≠ .stopping → exec .vcapChange s = .next (capped.motReplan none)) ∧
     (s.mot.cap ≠ s.el.vlim → s.mot.phase = .stopping → v ≤ (capped.vcap : Int) * 65536 →
       exec .vcapChange s = .next capped) ∧
     (s.mot.cap ≠ s.el.vlim → s.mot.phase = .stopping → (capped.vcap : Int) * 65536 < v →
       (capped.applyPlan capped.lims capped.mot.targetPos = none → exec .vcapChange s = .next capped) ∧
       (∀ b, capped.applyPlan capped.lims capped.mot.targetPos = some b →
         exec .vcapChange s = .next (capped.motReplan b))))

/-- MOT_HOME, MOT_RECOVER, MOT_RELEVEL and MOT_ABANDON complete where the register write is accepted. HOME starts a
correction run: MOT in SPECIAL, searching (backing off first where the reference or the limit is active), with no
earlier capture and DRV asked to magnetise. RECOVER starts its run to the committed level of its target, lands at once
where the car is level there, and does nothing where there is no target (log entry 204). RELEVEL starts its run to the
level of LANDING. ABANDON drops target and horizon and leaves MOT in IDLE. AUTO_SPECIAL_START: after a second of its
conditions a correction run starts where the reference is missing and the profile allows it, else a recovery where the
proof is pending and the profile allows it, and otherwise, or with the interface disabled, nothing. AUTO_RELEVEL: a
relevelling that is due is decided on where it is permitted (it starts in the Set-point phase of the next period), and
else reports RELEV_BLOCKED once per stop; where none is due nothing happens. Rests on R85, R86, R87, R88, R89, R92,
R93, R98, R100. -/
def Obligations.SpecialRunsStart : Prop :=
  ∀ s : State, s.up_ = true →
    (∀ src, s.judge src motRtCmd 1 = none → ∃ t, exec (.motHome src) s = .next t ∧ t = s.homeStart ∧
      t.mot.phase = .special ∧ t.mot.runType = .correction ∧ t.mot.committed = false ∧
      t.mot.hstep = (if s.refInput || s.limInput then .backoff else .search) ∧
      t.mot.up = (if s.refInput || s.limInput then !s.homeUp else s.homeUp) ∧ t.mot.homeErr = .none ∧
      t.pos.dza.capture = none ∧ t.pos.dzb.capture = none ∧ t.drv.step = .magnetise ∧
      Only { pos := true, mot := true, drv := true } s t) ∧
    (∀ src, s.judge src motRtCmd 2 = none →
      (exec (.motRecover src) s = .next s.recoverStart) ∧
      (s.recoverTarget = none → s.recoverStart = s) ∧
      (∀ n, s.recoverTarget = some n → s.ri motLevelAcc < ((s.estPos - s.level n).natAbs : Int) →
        let t := s.recoverStart
        t.mot.phase = .special ∧ t.mot.runType = .recovery ∧ t.mot.committed = true ∧ t.mot.target = n ∧
        t.mot.targetPos = s.level n ∧ t.drv.step = .magnetise ∧
        Only { rf := true, irqNow := true, mot := true, drv := true } s t) ∧
      (∀ n, s.recoverTarget = some n → ((s.estPos - s.level n).natAbs : Int) ≤ s.ri motLevelAcc →
        let t := s.recoverStart
        t.mot.phase = .landed ∧ t.mot.runType = .recovery ∧ t.mot.target = n ∧ t.mot.landing = n ∧
        t.mot.landValid = true ∧ t.drv.step = .off ∧ t.mot.proofOpen = false)) ∧
    (∀ src, s.judge src motRtCmd 4 = none → exec (.motRelevel src) s = .next s.relevStart.schRelevFail ∧
      s.relevStart.mot.phase = .special ∧ s.relevStart.mot.runType = .relevelling ∧
      s.relevStart.mot.target = s.mot.landing ∧ s.relevStart.mot.relevCnt = min (s.mot.relevCnt + 1) 15) ∧
    (∀ src, s.judge src motRtCmd 8 = none → ∃ t, exec (.motAbandon src) s = .next t ∧ t.mot.phase = .idle ∧
      t.mot.committed = false ∧ t.mot.keptHorizon = false ∧ t.mot.plan = none ∧ Only { mot := true } s t) ∧
    (s.live = true →
      let due := s.autoCond = true ∧ 16000 ≤ s.mot.autoTicks ∧ s.drvIf ≠ 0
      let correct := s.pos.abs = false ∧ s.rb motRtCfg 0 = true
      let recover := s.pos.abs = true ∧ s.posValid = true ∧ s.el.proofPend = true ∧ s.rb motRtCfg 1 = true
      (due → correct → exec .autoSpecialStart s = .next s.homeStart) ∧
      (due → recover → exec .autoSpecialStart s = .next s.recoverStart) ∧
      (¬ due ∨ (¬ correct ∧ ¬ recover) → exec .autoSpecialStart s = .next s)) ∧
    (s.live = true → s.relevDue = false → exec .autoRelevel s = .next s) ∧
    (s.live = true → s.relevDue = true → s.relevMay = true →
      exec .autoRelevel s = .next { s with mot := { s.mot with relevGo := true } }) ∧
    (∀ t : State, t.mot.relevGo = true → t.mot.phase = .idle → t.relevMay = true → t.relevSettle =
      ({ t with mot := { t.mot with relevGo := false } } : State).relevStart.schRelevFail) ∧
    (s.live = true → s.relevDue = true → s.relevMay = false → ∃ t, exec .autoRelevel s = .next t ∧
      t.rf = (if s.mot.relevBlocked then s.rf else (s.wf_ motRtEvent 3 1 1).rf) ∧ t.mot.relevBlocked = true ∧
      t.mot.relevTicks = 0 ∧ t.mot.relevPend = (s.relevZone && !s.doorsClosed) ∧ Only { rf := true, mot := true } s t)

/-- HOME_LIMIT_INPUT, HOME_MAXDIST and HOME_REF_INPUT complete. With the limit input active in SEARCH or FINAL, or
MOT_HOME_MAXDIST travelled without a capture in a back-off or search, a correction run fails with LIMIT or NOREF; a
reference that drops out during SEARCH is counted, and at MOT_HOME_CHAT the run fails with CHATTER; another change of
the reference is noted. Before the car has moved a failed run leaves MOT in IDLE and DRV in OFF, with HOME_ERR and the
HOME_FAIL event; otherwise the car makes a controlled stop with nothing kept. Where its condition does not stand none
of the three does anything. Rests on R89. -/
def Obligations.CorrectionRunsFail : Prop :=
  ∀ s : State, s.live = true →
    (let limit := s.mot.phase = .special ∧ (s.mot.hstep = .search ∨ s.mot.hstep = .final) ∧ s.limInput = true
     (limit → exec .homeLimitInput s = .next (s.homeFail .limit)) ∧
     (¬ limit → exec .homeLimitInput s = .next s)) ∧
    (let far := s.mot.phase = .special ∧ (s.mot.hstep = .backoff ∨ s.mot.hstep = .search) ∧
       s.ri motHomeMaxdist * 65536 ≤ s.mot.homeTravel
     (far → exec .homeMaxdist s = .next (s.homeFail .noref)) ∧ (¬ far → exec .homeMaxdist s = .next s)) ∧
    (∀ e, s.mot.moved = false → (s.homeFail e).mot.phase = .idle ∧ (s.homeFail e).mot.homeErr = e ∧
      (s.homeFail e).drv.step = .off ∧ (s.homeFail e).mot.committed = false) ∧
    (∀ e, s.mot.moved = true → (s.homeFail e).mot.phase = .holding ∧ (s.homeFail e).mot.homeErr = e ∧
      (s.homeFail e).mot.committed = false ∧ (s.homeFail e).mot.keptHorizon = false) ∧
    (∀ e, s.homeFailed e = (({ s with mot := { s.mot with homeErr := e, hstep := .none } } : State).wf_ motRtEvent 1 1 1).fire 6
      (({ s with mot := { s.mot with homeErr := e, hstep := .none } } : State).wf_ motRtEvent 1 1 1).motRtStatusW) ∧
    (∀ a,
      let changed := s.mot.phase = .special ∧ s.mot.runType = .correction ∧ s.refInput = a ∧ s.mot.refWas ≠ a
      (changed → s.mot.hstep ≠ .search ∨ a = true →
        exec (.homeRefInput a) s = .next { s with mot := { s.mot with refWas := a } }) ∧
      (changed → s.mot.hstep = .search → a = false →
        let t : State := { s with mot := { s.mot with refWas := false, chat := min (s.mot.chat + 1) 15 } }
        exec (.homeRefInput a) s = .next (if s.rn motHomeChat ≤ t.mot.chat then t.homeFail .chatter else t)) ∧
      (¬ changed → exec (.homeRefInput a) s = .next s))

/-- DRV_READY_TIMEOUT, DRV_PRELOAD_DONE, DRV_BRAKE_LIFTED and DRV_BRAKE_APPLIED complete. In MAGNETISE for DRV_READY_TO_MS
without readiness DRV returns to OFF with TIMEOUT raised. After DRV_PRELOAD_MS of PRELOAD it asks for the brake to
lift. With the brakes lifted for DRV_BRK_LIFT_MS in LIFT it follows, and a prepared run starts to move. With the
brakes applied for DRV_BRK_DROP_MS in DROP it is OFF again, a landed run ends in IDLE, and a controlled stop in HELD
where something is kept and in IDLE where nothing is. Outside its step, or before its time, each leaves the state
alone. Rests on R72, R95, R101. -/
def Obligations.DriveSequenceSteps : Prop :=
  ∀ s : State, s.live = true →
    (let elapsed := ∃ t0, s.drv.readyAt = some t0 ∧ s.drv.step = .magnetise ∧
       s.since t0 (msTicks (s.rn drvReadyToMs)) = true
     (elapsed → ∃ t, exec .drvReadyTimeout s = .next t ∧ t.drv.step = .off ∧ t.drv.timeout = true ∧
        t.drv.energise = false ∧ t.drv.liftReq = false ∧ t.el.perm = false ∧
        Only { rf := true, irqNow := true, drv := true, el := true } s t) ∧
     (¬ elapsed → exec .drvReadyTimeout s = .next s)) ∧
    (let elapsed := s.drv.step = .preload ∧ s.since s.drv.stepAt (msTicks (s.rn drvPreloadMs)) = true
     (elapsed → exec .drvPreloadDone s =
       .next { s with drv := { s.drv with step := .lift, stepAt := s.tick, liftReq := true } }) ∧
     (¬ elapsed → exec .drvPreloadDone s = .next s)) ∧
    (let elapsed := s.drv.step = .lift ∧ s.el.brakeLifted = true ∧
       s.since s.drv.stepAt (msTicks (s.rn drvBrkLiftMs)) = true
     (elapsed → ∃ t, exec .drvBrakeLifted s = .next t ∧ t.drv.step = .follow ∧ t.drv.follow = true ∧ t.drv.stepAt = s.tick ∧
        (s.mot.phase = .prep → t.mot.phase = (if s.mot.committed then .approach else .speed)) ∧
        (s.mot.phase = .special → t.mot.phase = .special ∧ t.mot.moved = true) ∧
        Only { mot := true, drv := true } s t) ∧
     (¬ elapsed → exec .drvBrakeLifted s = .next s)) ∧
    (let elapsed := s.drv.step = .drop ∧ s.el.brakeApplied = true ∧
       s.since s.drv.stepAt (msTicks (s.rn drvBrkDropMs)) = true
     (elapsed → ∃ t, exec .drvBrakeApplied s = .next t ∧ t.drv.step = .off ∧ t.el.perm = false ∧
        (s.mot.phase = .landed → t.mot.phase = .idle ∧ t.mot.committed = false) ∧
        (s.mot.phase = .holding → t.mot.phase = (if s.mot.committed || s.mot.keptHorizon then .held else .idle)) ∧
        Only { rf := true, irqNow := true, mot := true, drv := true, el := true } s t) ∧
     (¬ elapsed → exec .drvBrakeApplied s = .next s))

/-- DRV_RESPONSE completes: before the check of the period, a NAK that ends by 56.0 µs is counted; a response's delimiter
within 41.0 µs is noted; one that ends by then with a wrong CRC is counted, one of another sequence is nothing more,
and one of the present sequence gives the drive's position, torque, STO feedback, readiness and fault; with another
interface, or after the check, nothing. CIA_TPDO completes: in the window of the present cycle, or of the one before
until its check, it gives the position and the status; otherwise nothing. CIA_SDO_RESPONSE completes: it counts once
the request has been sent, and the drive's readiness is then looked at. LEGACY_RDY_CHANGE: RDY follows its input.
DRV_FAULT_RST, accepted, clears the fault and asks the drive to reset for 16 periods; DRV_CNT_CLR, accepted, clears
the link counters. Rests on R19, R105, R106, R107, R109, R110, R111, R114, R116. -/
def Obligations.DriveAnswersAndCommands : Prop :=
  ∀ s : State, s.live = true →
    let open_ := s.drvIf = 1 ∧ s.drv.checked = false
    (∀ d e, open_ → e ≤ 56000 → exec (.drvResponse [0xC3] d e) s = .next (s.bump drvLink 24 8)) ∧
    (∀ d e, open_ → 56000 < e → exec (.drvResponse [0xC3] d e) s = .next s) ∧
    (∀ l d e, open_ →
      let t : State := { s with drv := { s.drv with delim := s.drv.delim || decide (d ≤ 41000) } }
      let sound := l.length = 11 ∧ slice l 9 2 = crc16Bytes (slice l 0 9)
      let status := leNat (slice l 1 2)
      let u : State := { t with drv := { t.drv with okResp := true, stoFb := status.testBit 3 } }
      (56000 < e → exec (.drvResponse (0x5C :: l) d e) s = .next t) ∧
      (e ≤ 56000 → ¬ sound → exec (.drvResponse (0x5C :: l) d e) s = .next (t.bump drvLink 16 8)) ∧
      (e ≤ 56000 → sound → byteAt l 0 ≠ s.drv.seq → exec (.drvResponse (0x5C :: l) d e) s = .next t) ∧
      (e ≤ 56000 → sound → byteAt l 0 = s.drv.seq → exec (.drvResponse (0x5C :: l) d e) s =
        .next (((u.wi drvActPos (u.dirInv (signed 32 (leNat (slice l 3 4))))).wn drvActTq
          ((wordI (u.dirInv (signed 16 (leNat (slice l 7 2))))).toNat % 65536)).drvStatusIn status (status.testBit 0)
            (status.testBit 2)))) ∧
    (∀ l d e, ¬ open_ ∨ (l ≠ [0xC3] ∧ l.head? ≠ some 0x5C) → exec (.drvResponse l d e) s = .next s) ∧
    (∀ (sw : BitVec 16) (pos : Word) (sof : Nat),
      let now := s.drv.syncUs < sof ∧ sof ≤ s.drv.syncUs + 1000
      let before := sof ≤ s.drv.syncUs ∧ s.drv.syncUs < sof + 1000 ∧ s.drv.checked = false
      let t : State := { s with drv := { s.drv with
        tpdo := s.drv.tpdo || decide now, tpdoLast := s.drv.tpdoLast || decide before } }
      (s.drvIf = 2 → s.drv.sync ≠ 0 → now ∨ before → exec (.ciaTpdo sw pos sof) s =
        .next ((t.wi drvActPos (t.dirInv (round16 (pos.toInt * s.ri drvCiaScale)))).drvStatusIn sw.toNat
          (sw.toNat &&& 0x6F == 0x27) (sw.toNat.testBit 3))) ∧
      (s.drvIf ≠ 2 ∨ s.drv.sync = 0 ∨ (¬ now ∧ ¬ before) → exec (.ciaTpdo sw pos sof) s = .next s)) ∧
    (s.drvIf = 2 → s.drv.sdoSent = true →
      exec .ciaSdoResponse s = .next ({ s with drv := { s.drv with sdoDone := true } } : State).drvCheckReady) ∧
    ((s.drvIf ≠ 2 ∨ s.drv.sdoSent = false) → exec .ciaSdoResponse s = .next s) ∧
    (∀ a, exec (.legacyRdyChange a) s = .next { s with drv := { s.drv with rdy := a } }) ∧
    (∀ src, s.judge src drvCmd 1 = none →
      exec (.drvFaultRst src) s = .next { s with drv := { s.drv with fault := false, faultRst := 16 } }) ∧
    (∀ src, s.judge src drvCmd 2 = none → exec (.drvCntClr src) s = .next (s.wr drvLink 0))

/-- MOTION_WATCHDOG completes: the response check of the period or cycle runs (once), and where the watchdog's condition
then stands, WDOG latches with its interrupt and record, Electrum trips with cause MODULE where that would latch, DRV
is OFF, and no frame is left to send; when it does not stand, nothing happens. With a link the condition is four
checks in a row without a valid response, with a legacy port four ticks without RDY outside MAGNETISE. Rests on R18,
R107, R111, R114, R190. -/
def Obligations.MotionWatchdogTrips : Prop :=
  ∀ s : State, s.live = true →
    ((s.drvIf = 1 ∨ s.drvIf = 2) →
      (s.watchdogDue = true ↔ s.drv.step ≠ .off ∧ s.drv.wdog = false ∧ 4 ≤ s.drv.miss)) ∧
    (s.drvIf ≠ 1 → s.drvIf ≠ 2 →
      (s.watchdogDue = true ↔ s.drv.step ≠ .off ∧ s.drv.wdog = false ∧ s.drv.step ≠ .magnetise ∧ 4 ≤ s.drv.rdyMiss)) ∧
    (s.drv.checked = true → s.drvCheck = s) ∧
    (s.drv.checked = false → s.drvCheck.drv.checked = true ∧
      s.drvCheck.drv.miss = if (if s.drvIf = 2 then s.drv.tpdoLast else s.drv.okResp) then 0 else min (s.drv.miss + 1) 7) ∧
    (s.drvCheck.watchdogDue = false → exec .motionWatchdog s = .next s) ∧
    (s.drvCheck.watchdogDue = true →
      let w := ({ s.drvCheck with drv := { s.drvCheck.drv with wdog := true } } : State).raise pgDrv 2
      let t := ((w.fire 8 w.drvLinkW).trip 15).drvOff.drvAbandon
      exec .motionWatchdog s = .next t ∧ t.drv.step = .off ∧ t.drv.energise = false ∧ t.drv.framed = false ∧
      t.drv.frame = [] ∧
      (s.Latches 15 → t.el.st = .tripped ∧ 15 ∈ t.el.causes ∧ t.mot.phase = .tripped ∧
        ∀ i < 8, nth t.el.a.outs i false = false ∧ nth t.el.b.outs i false = false) ∧
      Only { rf := true, irqNow := true, pos := true, lwb := true, mot := true, drv := true, doorF := true
             doorR := true, el := true, can := true, part := true, rcd := true } s t)

/-- CALL_SET, CALL_CLR, LANDING_TABLE_WRITE, DEST_ADD, DEST_DEL and CC_CLR_ALL complete where the write is accepted. A SET
word registers the call of each landing it names, in rising order, ending PARK; a CLR word clears each car call it
names and releases each hall call held, and is never refused for its calls; a word of another area is no such command.
A landing-table word is stored; one that clears a call enable clears and releases the calls of that kind, and
Electrum's digest follows. A new destination takes the lowest free slot, which SCH_DEST_LAST then names as valid; one
held already changes nothing but SCH_DEST_LAST. DEST_DEL frees its slot, releasing an entry held by award. CC_CLR_ALL
clears every car call and every riding destination. Rests on R119, R121, R122, R136, R363. -/
def Obligations.CallsAndDestinations : Prop :=
  ∀ (src : Src) (s : State), s.up_ = true →
    let awake := if s.sys.run = .park then s.parkEnd .fieldOrCall else s
    (∀ (a : Addr) (v : Word) (k w : Nat), callArea a.toNat = .set k w → s.judge src a.toNat v = none →
      exec (.callSet src a v) s = .next (each (mapLandings w v) awake (fun t n => match k with
        | 0 => t.carCall n
        | 1 => t.hallCall n true
        | _ => t.hallCall n false))) ∧
    (∀ (a : Addr) (v : Word) (k w : Nat), callArea a.toNat = .clr k w → s.judge src a.toNat v = none →
      exec (.callClr src a v) s = .next (each (mapLandings w v) s (fun t n => match k with
        | 0 => { t with sch := { t.sch with
            cc := setDel t.sch.cc n, hereWait := t.sch.hereWait.filter (fun x => x != (n, 0)) } }
        | 1 => if t.sch.hu.contains n then t.dropHall n true 2 else t
        | _ => if t.sch.hd.contains n then t.dropHall n false 2 else t))) ∧
    (∀ (a : Addr) (v : Word), (∀ k w, callArea a.toNat ≠ .set k w) → exec (.callSet src a v) s = .next s) ∧
    (∀ (a : Addr) (v : Word), (∀ k w, callArea a.toNat ≠ .clr k w) → exec (.callClr src a v) s = .next s) ∧
    (∀ (a : Addr) (v : Word), 0x150000 ≤ a.toNat → s.judge src a.toNat v = none →
      let n := (a.toNat - 0x150000) / 0x40
      let t := s.wr a.toNat v
      let off (i : Nat) : Bool := Word.bit (s.rf.get 0 a.toNat) i && !Word.bit v i
      let s1 := if off 3 then { t with sch := { t.sch with cc := setDel t.sch.cc n } } else t
      let s2 := if off 4 && s1.sch.hu.contains n then s1.dropHall n true 3 else s1
      let s3 := if off 5 && s2.sch.hd.contains n then s2.dropHall n false 3 else s2
      let s4 := if off 6 then each ((s3.sch.dests.filter (fun d => d.2.src == n || d.2.dst == n)).map (·.1)) s3
        (fun u i => u.dropDest i 3) else s3
      ((a.toNat - 0x150000) % 0x40 ≠ 8 → exec (.landingTableWrite src a v) s = .next t.elDigest) ∧
      ((a.toNat - 0x150000) % 0x40 = 8 → exec (.landingTableWrite src a v) s = .next s4.elDigest)) ∧
    (∀ (a : Addr) (v : Word), a.toNat < 0x150000 → exec (.landingTableWrite src a v) s = .next s) ∧
    (∀ v : Word, s.judge src schDestAdd v = none →
      let held := s.sch.dests.find? (fun d => d.2.src == Word.bits v 0 8 && d.2.dst == Word.bits v 8 8 && d.2.seq == Word.bits v 16 16)
      (∀ d, held = some d → exec (.destAdd src v) s = .next (s.wn schDestLast (0x8000 + d.1))) ∧
      (∀ i, held = none → s.freeDest = some i → exec (.destAdd src v) s =
        .next ((s.wn schDestLast (0x8000 + i)).destPlace i (Word.bits v 0 8) (Word.bits v 8 8) (Word.bits v 16 16) none)) ∧
      (held = none → s.freeDest = none → exec (.destAdd src v) s = .next s)) ∧
    (∀ v : Word, s.judge src schDestDel v = none →
      let i := Word.bits v 0 10
      (∀ d, alook s.sch.dests i = some d → d.state ≠ .waiting → exec (.destDel src v) s =
        .next { s with sch := { s.sch with dests := adel s.sch.dests i } }) ∧
      (∀ d, alook s.sch.dests i = some d → d.state = .waiting → exec (.destDel src v) s =
        .next (let t := s.releaseCall (callKey d.src 2) d.seq 2
               { t with sch := { t.sch with dests := adel t.sch.dests i } })) ∧
      (alook s.sch.dests i = none → exec (.destDel src v) s = .next s)) ∧
    (s.judge src schCmd 2 = none → exec (.ccClrAll src) s = .next { s with sch := { s.sch with
      cc := [], dests := s.sch.dests.filter (fun d => d.2.state != .riding)
      hereWait := s.sch.hereWait.filter (fun x => x.2 != 0) } })

/-- SCH_MODE_WRITE, SCH_RUN_SET, SCH_RUN_CLEAR, SCH_OOS_REQUEST and SCH_RESTORE complete where the register write is
accepted. A write of SCH_MODE stores it with MODE_CHG, and a change of mode enters the new one; leaving RECALL at its
landing closes the doors. RUN written 1 is judged on the landing table: with no fault found SCH_LT_FAULT clears and
RUN sets, otherwise the first fault is recorded; a scheduler that runs goes on. RUN written 0 clears it and stops
Bellmetal. OOS sets and clears the host cause: a cause that sets acts as R133 says, the last one to clear raises
OOS_CHG. RESTORE clears the causes TRACTION and SAFE. Rests on R118, R119, R124, R131, R133. -/
def Obligations.SchedulerControl : Prop :=
  ∀ (src : Src) (s : State), s.up_ = true →
    (∀ v, s.judge src schMode v = none →
      let t := (s.wr schMode v).raise pgSch 5
      let m := modeOf (Word.bits v 0 3)
      let u := t.modeEntry m
      (s.mode = m → exec (.schModeWrite src v) s = .next t) ∧
      (s.mode ≠ m → s.mode = .recall → u.sch.recallDone = true → exec (.schModeWrite src v) s =
        .next ({ u with sch := { u.sch with recallDone := false } } : State).schClose) ∧
      (s.mode ≠ m → s.mode ≠ .recall ∨ u.sch.recallDone = false → exec (.schModeWrite src v) s = .next u)) ∧
    (let v := Word.setBits (s.rd schCtrl) 0 1 1
     let t := (s.wf_ schCtrl 1 1 (Word.bits v 1 1)).oosHostNow (Word.bit v 1)
     s.judge src schCtrl v = none →
      (t.rb schCtrl 0 = true → exec (.schRunSet src) s = .next t) ∧
      (t.rb schCtrl 0 = false → t.ltCheck = none →
        exec (.schRunSet src) s = .next ((t.wr schLtFault 0).wf_ schCtrl 0 1 1)) ∧
      (∀ n r, t.rb schCtrl 0 = false → t.ltCheck = some (n, r) →
        exec (.schRunSet src) s = .next (t.wr schLtFault (pack [(0, 8, n), (8, 4, r)])))) ∧
    (let v := Word.setBits (s.rd schCtrl) 0 1 0
     let t := (s.wf_ schCtrl 1 1 (Word.bits v 1 1)).oosHostNow (Word.bit v 1)
     s.judge src schCtrl v = none →
      (s.rb schCtrl 0 = true → exec (.schRunClear src) s = .next (t.wf_ schCtrl 0 1 0).bidStop) ∧
      (s.rb schCtrl 0 = false → exec (.schRunClear src) s = .next t)) ∧
    (∀ on, let v := Word.setBits (s.rd schCtrl) 1 1 (b2n on)
     let t := (s.wf_ schCtrl 1 1 (Word.bits v 1 1)).oosHostNow (Word.bit v 1)
     s.judge src schCtrl v = none → s.rb schCtrl 0 = false ∨ t.rb schCtrl 0 = true →
      exec (.schOosRequest src on) s = .next t) ∧
    (s.judge src schCmd 1 = none → exec (.schRestore src) s = .next (s.oosChange s.sch.oosHost false false)) ∧
    (∀ on,
      let t : State := { s with sch := { s.sch with oosHost := on } }
      let other := s.sch.oosTraction || s.sch.oosSafe
      (on = true → s.sch.oosHost = false → s.oosHostNow on = t.oosSet) ∧
      (on = false → s.sch.oosHost = true → other = false → s.oosHostNow on = t.raise pgSch 6) ∧
      (on = s.sch.oosHost ∨ (on = false ∧ other = true) → s.oosHostNow on = t))

/-- SCHED_RUN_START, SCHED_RESUME, HOLD_TIME_END and BTN_STUCK complete, and END_DWELL where the register write is
accepted. With calls to serve, no dwell, the doors closed, a valid position and authority, MOT idle and a direction to
serve, the scheduler writes the terminal landing of that direction as the horizon and, where it is a horizon that
START takes, starts, with nothing passed yet; with MOT HELD, no HOLD and a kept target or horizon of a normal run it
resumes. Without that neither does anything. A hold that has lasted its time, or a dwell that END_DWELL ends, closes
the doors; INDEPENDENT keeps them open after the time. A button active for SCH_BTN_STUCK_MS is reported once. Where
its condition does not stand none of them does anything. Rests on R97, R128, R129, R132. -/
def Obligations.SchedulerRuns : Prop :=
  ∀ s : State, s.live = true →
    (s.schDue = false ∨ s.mot.phase ≠ .idle ∨ s.runDir = none → exec .schedRunStart s = .next s) ∧
    (∀ up, s.schDue = true → s.mot.phase = .idle → s.runDir = some up →
      (s.terminal up = none → exec .schedRunStart s = .next s) ∧
      (∀ n, s.terminal up = some n → (s.wn motHorizon n).horizonOk = false ∨ s.drvIf = 0 →
        exec .schedRunStart s = .next (s.wn motHorizon n)) ∧
      (∀ n, s.terminal up = some n → (s.wn motHorizon n).horizonOk = true → s.drvIf ≠ 0 →
        ∃ t, exec .schedRunStart s = .next t ∧
        t.rf = (s.wn motHorizon n).rf ∧ t.mot.phase = .prep ∧ t.mot.committed = false ∧ t.drv.step = .magnetise ∧
        t.sch.passed = [] ∧ t.sch.cand = none ∧ Only { rf := true, mot := true, drv := true, sch := true } s t)) ∧
    (let may := s.schDue = true ∧ s.mot.phase = .held ∧ s.rb motCtrl 1 = false ∧ s.mot.keeps = true ∧ s.drvIf ≠ 0
     (may → exec .schedResume s = .next (s.resumeNow.schReached s)) ∧
     (¬ may → exec .schedResume s = .next s)) ∧
    (let elapsed := ∃ a t0, s.sch.ans = some a ∧ a.holdAt = some t0 ∧ s.mode ≠ .independent ∧
       s.since t0 (msTicks a.holdMs) = true
     (elapsed → exec .holdTimeEnd s = .next s.schClose) ∧ (¬ elapsed → exec .holdTimeEnd s = .next s)) ∧
    (∀ src, s.judge src schCmd 4 = none →
      (∀ a, s.sch.ans = some a → a.holdAt ≠ none ∨ (a.opening = [] ∧ a.closing = false ∧
        ¬ (s.mode = .recall ∧ s.sch.recallDone = true)) → exec (.endDwell src) s = .next s.schClose) ∧
      (∀ a, s.sch.ans = some a → a.holdAt = none → a.opening ≠ [] ∨ a.closing = true ∨
        (s.mode = .recall ∧ s.sch.recallDone = true) → exec (.endDwell src) s = .next s) ∧
      (s.sch.ans = none → exec (.endDwell src) s = .next s)) ∧
    (∀ n,
      let stuck := ∃ t0, alook s.sch.btnOn n = some t0 ∧ s.since t0 (msTicks (s.rn schBtnStuckMs)) = true ∧
        s.sch.btnStuck.contains n = false
      (stuck → exec (.btnStuck n) s =
        .next (({ s with sch := { s.sch with btnStuck := setIns s.sch.btnStuck n } } : State).raise pgSch 8)) ∧
      (¬ stuck → exec (.btnStuck n) s = .next s))

/-- HALL_PRESS, ANNOUNCEMENT, BID_FRAME and RELEASE_FRAME complete for every frame of their class on a controller that
runs, which first stores it. A hall press enters a call the list does not hold as a new call in MEMBER, announced
unless ANNOUNCE_EN is 0, is deferred in LISTEN, is taken by an ISLAND car as its own where it may, and changes nothing
of the list for a call already held or in OFF. In every membership state but OFF an announcement that meets the
conditions of R140 opens its round, an own announcement giving way to it; a bid of the open round's call and tag
closes the round and makes its sender the winner, whose award waits to take effect; any other bid is counted as
unmatched unless it repeats the last award's; a release by the holder with the holder's tag and REASON served removes
the call, with another reason frees it, and any other is counted; a frame that does not meet the conditions is
discarded with a protocol count. A frame that is not of the row's class does nothing. Rests on R140, R141, R142, R145,
R146, R147, R152, R235. -/
def Obligations.GroupFramesAreHeard : Prop :=
  ∀ (s : State) (f : CanFrame), s.up_ = true →
    let id := f.id.toNat
    let k := idKey id
    let type := keyType k
    (isPress f = false ∨ s.canRuns 1 = false → exec (.hallPress f) s = .next s) ∧
    (isRitha 1 f = false ∨ s.canRuns 2 = false → exec (.announcement f) s = .next s) ∧
    (isRitha 2 f = false ∨ s.canRuns 2 = false → exec (.bidFrame f) s = .next s) ∧
    (isRitha 3 f = false ∨ s.canRuns 2 = false → exec (.releaseFrame f) s = .next s) ∧
    (isPress f = true → s.canRuns 1 = true →
      let t := s.canReceive 1 f
      let d := if type = 2 then byteAt f.data 0 else 0xFF
      let q := if type = 2 then leNat (slice f.data 1 2) else 0
      (t.bid.member = .member → t.gcall k q = none → exec (.hallPress f) s = .next (t.pressNew k d q)) ∧
      (t.bid.member = .island → t.gcall k q = none → exec (.hallPress f) s = .next (t.pressIsland k d q)) ∧
      (t.bid.member = .off ∨ (t.bid.member ≠ .listen ∧ t.gcall k q ≠ none) → exec (.hallPress f) s = .next t) ∧
      (t.bid.member = .listen → exec (.hallPress f) s =
        .next { t with bid := { t.bid with presses := t.bid.presses ++ [(k, d, q)] } })) ∧
    (∀ (t : State) (k d q : Nat),
      let own := keyType k ≠ 2
      let u : State := if own then { t with bid := { t.bid with counter := (t.bid.counter + 1) % 1024 } } else t
      let new : GCall :=
        { key := k, seq := if own then (t.car * 1024 + t.bid.counter) % 65536 else q, dest := d, up := t.keyUp k d
          holder := none, tag := 0, lastAt := t.tick, annAt := t.tick, closeAt := t.tick, orphAt := 0, firstAt := none
          mine := t.rb bidCfg 8 }
      (t.rb bidCfg 8 = false → t.pressNew k d q = u.gcallPut new) ∧
      (t.rb bidCfg 8 = true → t.pressNew k d q = (u.gcallPut new).announceCall new 0 0xFF) ∧
      (t.rb bidCfg 7 = false → t.pressIsland k d q = t)) ∧
    (s.canRuns 2 = true →
      let t := s.canReceive 2 f
      let key := leNat (slice f.data 0 2)
      let seq := leNat (slice f.data 4 2)
      (t.bid.member = .off → isRitha 1 f = true → exec (.announcement f) s = .next t) ∧
      (t.bid.member = .off → isRitha 2 f = true → exec (.bidFrame f) s = .next t) ∧
      (t.bid.member = .off → isRitha 3 f = true → exec (.releaseFrame f) s = .next t) ∧
      (t.bid.member ≠ .off → isRitha 1 f = true →
        let s1 := t.bidYield k seq
        let s2 : State := { s1 with bid := { s1.bid with
          lastTag := some (idTag id)
          round := some ⟨k, seq, idTag id, idCar id, byteAt f.data 2, byteAt f.data 3, byteAt f.data 6, f.vp⟩ } }
        let s3 := (s2.bump bidCntRnd 0 16).bidLearn k seq (byteAt f.data 2) (byteAt f.data 3) (byteAt f.data 6)
          (byteAt f.data 7) (idCar id)
        (t.rithaBad 1 f = false → exec (.announcement f) s = .next
          (s3.bidArm k seq (byteAt f.data 2) (byteAt f.data 3) (byteAt f.data 6) (idCar id) (idTag id) f.vp)) ∧
        (t.rithaBad 1 f = true → exec (.announcement f) s = .next t.bidProto)) ∧
      (t.bid.member ≠ .off → isRitha 2 f = true →
        let u := t.roundClose
        let w : State := { u with bid := { u.bid with
          award := t.bid.round.map (fun r => (r, idCar id))
          pendAwards := u.bid.pendAwards ++ (t.bid.round.map (fun r => (r, idCar id, t.tick))).toList } }
        let matched := ∃ r, t.bid.round = some r ∧ r.key = key ∧ r.tag = idTag id
        let again := ∃ r c, t.bid.award = some (r, c) ∧ r.key = key ∧ r.tag = idTag id
        (t.rithaBad 2 f = true → exec (.bidFrame f) s = .next t.bidProto) ∧
        (t.rithaBad 2 f = false → matched → exec (.bidFrame f) s = .next
          (w.wr bidCosts (pack [(0, 16, id / 1024 % 65536), (16, 16, t.bid.ownCost)])).bidPump) ∧
        (t.rithaBad 2 f = false → ¬ matched → again → exec (.bidFrame f) s = .next t) ∧
        (t.rithaBad 2 f = false → ¬ matched → ¬ again → exec (.bidFrame f) s = .next (t.bump bidCntErr 0 8))) ∧
      (t.bid.member ≠ .off → isRitha 3 f = true →
        (t.rithaBad 3 f = true → exec (.releaseFrame f) s = .next t.bidProto) ∧
        (t.rithaBad 3 f = false → (∀ c, t.gcall k seq = some c → c.holder ≠ some (idCar id) ∨ c.tag ≠ idTag id) →
          exec (.releaseFrame f) s = .next (t.bump bidCntErr 0 8)) ∧
        (∀ c, t.rithaBad 3 f = false → t.gcall k seq = some c → c.holder = some (idCar id) → c.tag = idTag id →
          let own := idCar id == t.car
          let freed : State := if own then { t with bid := { t.bid with releasing := t.bid.releasing.filter (fun r =>
            !(r.1 == k && (type != 2 || r.2 == seq))) } } else t
          let free : GCall :=
            { c with holder := none, lastAt := t.tick, annAt := t.tick, closeAt := t.tick, mine := own }
          (byteAt f.data 3 = 0 → exec (.releaseFrame f) s = .next (freed.gcallDel k seq)) ∧
          (byteAt f.data 3 ≠ 0 → exec (.releaseFrame f) s = .next
            (if own then (freed.gcallPut free).announceCall free 16 0xFF else freed.gcallPut free)))))

/-- ROUND_NOBID: a round open for 5 ms without a bid closes with NOBID and the count. AWARD_TAKE_EFFECT: the awards heard
before this tick take effect, oldest first. REBID, ANNOUNCE_REPEAT and ORPHAN_DETECT: a held call is announced again
for a re-bid, a call in WAIT by its announcer, and a call gone silent with ORPHAN, each once its time has passed, in
MEMBER only and not while an announcement of it is queued. LISTEN_END ends LISTEN in MEMBER; ISLAND_ENTER makes a
module cut off long enough an island; ISLAND_EXIT lets an island that hears the group again listen. BID_RUN_SET: RUN
sets once SCH runs and the profile is applied, and a bidding car listens. Each does nothing where its condition does
not stand. BID_REJOIN, BID_RELEASE_ALL, BID_CNT_CLR and BID_QUERY complete where the register write is accepted: an
island listens as REJOIN asks, RELEASE_ALL releases every call held by award with REASON HOST, CNT_CLR zeroes the
counters, and a query waits for the next tick. Rests on R148, R151, R152, R153, R154, R156. -/
def Obligations.GroupTimersAndCommands : Prop :=
  ∀ s : State, s.live = true →
    let listening : State := ({ s with bid := { s.bid with listenAt := s.tick, member := .listen } } : State).raise pgBid 4
    (let elapsed := ∃ r, s.bid.round = some r ∧ r.openUs + 5000 < s.us + 63
     (¬ elapsed → exec .roundNobid s = .next s) ∧
     (∀ r, s.bid.round = some r → r.openUs + 5000 < s.us + 63 →
       let t := (s.roundClose.bump bidCntErr 16 8).raise pgBid 3
       (t.gcall r.key r.seq = none → exec .roundNobid s = .next t.bidPump) ∧
       (∀ c, t.gcall r.key r.seq = some c →
         exec .roundNobid s = .next (t.gcallPut { c with closeAt := t.tick }).bidPump))) ∧
    (let due := s.bid.pendAwards.filter (fun x => decide (x.2.2 < s.tick))
     let rest := s.bid.pendAwards.filter (fun x => !decide (x.2.2 < s.tick))
     exec .awardTakeEffect s = .next (each due { s with bid := { s.bid with pendAwards := rest } }
       (fun t x => t.awardNow x.1 x.2.1)).bidPump) ∧
    (∀ (k q : Nat),
      let idle := s.bid.member = .member ∧ s.bidQueued false k q = false
      (s.gcall k q = none ∨ ¬ idle → exec (.rebid k q) s = .next s ∧ exec (.announceRepeat k q) s = .next s ∧
        exec (.orphanDetect k q) s = .next s) ∧
      (∀ c, s.gcall k q = some c → idle →
        let again := c.holder = some s.car ∧ s.isReleasing k q = false ∧ s.since c.lastAt (msTicks (s.rn bidRebidMs)) = true
        let wait := c.holder = none ∧ c.mine = true ∧ s.since c.closeAt (msTicks (s.rn bidRepeatMs)) = true
        let silentWait := c.holder = none ∧ s.since c.annAt (s.rn bidOrphanN * msTicks (s.rn bidRepeatMs)) = true
        let silentHeld := c.holder ≠ none ∧
          s.since (max c.lastAt c.orphAt) (s.rn bidOrphanN * msTicks (s.rn bidRebidMs)) = true
        (again → exec (.rebid k q) s = .next (s.announceCall c 1 s.car)) ∧
        (¬ again → exec (.rebid k q) s = .next s) ∧
        (wait → exec (.announceRepeat k q) s = .next (s.announceCall c 4 0xFF)) ∧
        (¬ wait → exec (.announceRepeat k q) s = .next s) ∧
        (silentWait ∨ silentHeld → exec (.orphanDetect k q) s = .next (s.announceCall c 8 (c.holder.getD 0xFF))) ∧
        (¬ silentWait → ¬ silentHeld → exec (.orphanDetect k q) s = .next s))) ∧
    (let elapsed := s.authority = true ∧ s.bid.member = .listen ∧ (s.cann 2).st = .errorActive ∧
       s.since s.bid.listenAt (msTicks (s.rn bidListenMs)) = true
     (elapsed → exec .listenEnd s = .next s.bidJoin) ∧ (¬ elapsed → exec .listenEnd s = .next s)) ∧
    (let cut := ∃ t, s.bid.cutAt = some t ∧ (s.bid.member = .listen ∨ s.bid.member = .member) ∧
       s.since t (s.rn bidOrphanN * msTicks (s.rn bidRebidMs)) = true
     (cut → exec .islandEnter s = .next (s.bidSilent.bidInto .island)) ∧ (¬ cut → exec .islandEnter s = .next s)) ∧
    (let back := s.bid.member = .island ∧ s.since s.bid.okAt 16000 = true ∧ (s.cann 2).st = .errorActive ∧
       (s.cann 2).alone = false
     (back → exec .islandExit s = .next listening) ∧ (¬ back → exec .islandExit s = .next s)) ∧
    (let may := s.bid.run = false ∧ s.rb schCtrl 0 = true ∧ s.sys.profValid = true
     let run : State := { s with bid := { s.bid with run := true } }
     (may → s.rb bidCfg 6 = false → exec .bidRunSet s = .next run) ∧
     (may → s.rb bidCfg 6 = true → exec .bidRunSet s = .next run.bidListen) ∧
     (¬ may → exec .bidRunSet s = .next s)) ∧
    (∀ src, (s.judge src bidCmd 4 = none →
        (s.bid.member = .island → exec (.bidRejoin src) s = .next listening) ∧
        (s.bid.member ≠ .island → exec (.bidRejoin src) s = .next s)) ∧
      (s.judge src bidCmd 2 = none →
        let s1 := each (s.sch.hu.filter (fun n => s.heldByUs (callKey n 0) 0)) s (fun t n => t.dropHall n true 2)
        let s2 := each (s.sch.hd.filter (fun n => s.heldByUs (callKey n 1) 0)) s1 (fun t n => t.dropHall n false 2)
        exec (.bidReleaseAll src) s = .next
          (each ((s.sch.dests.filter (fun d => d.2.state == .waiting && s.heldByUs (callKey d.2.src 2) d.2.seq)).map
            (fun (d : Nat × Dest) => d.1)) s2 (fun t i => t.dropDest i 2)).bidPump) ∧
      (s.judge src bidCmd 1 = none → exec (.bidCntClr src) s = .next ((s.wr bidCntRnd 0).wr bidCntErr 0)) ∧
      (∀ v, s.judge src bidQuery v = none → exec (.bidQuery src v) s = .next
        (let t := s.wr bidQuery (v &&& 0x00FFFFFF)
         { t with bid := { s.bid with query := some (v &&& 0x00FFFFFF) } })))

/-- DOOR_OPEN, DOOR_CLOSE, DOOR_STOP, DOOR_ARM_ADV, DOOR_HOME, DOOR_LEARN and DOOR_CLR_FAULT complete for every source,
axis and state in which the write of their DOORx_CMD bit is not refused, and change their own axis only; the five that
ask for motion or a stop note the tick and the sender (R170). With the DOOR supply bad an OPEN or CLOSE waits. Else an
OPEN from CLOSED, GEARED or STOPPED plans an opening from the set-point of this tick to the creep point and enters
OPENING, clean for the learned time only from CLOSED; in OPEN it cancels a deferral; in CLOSING it reverses without
REVERSED; in any other state it does nothing more. A CLOSE from OPEN or STOPPED, with authority, plans a closing and
enters CLOSING when the light curtain is clear long enough, and is deferred when it is not; in any other case it does
nothing more. A STOP in OPENING, CLOSING, REVERSING or HOMING decelerates at REV_DEC into STOPPED; in STOPPED it
forgets what would follow; in GEARED and LEARN it ends them with a CLOSE to follow at rest; else it does nothing more.
ARM_ADV arms the axis. HOME with authority enters HOMING at the creep speed, without it the axis stays (log entry
208). LEARN enters LEARN, homing first. CLR_FAULT in FAULT with its cause gone clears the code and enters STOPPED, or
UNREF where the position is or becomes lost; else it does nothing. Rests on R159, R162, R166, R167, R168, R170, R171,
R173, R176, R178. -/
def Obligations.DoorRequests : Prop :=
  ∀ (src : Src) (c : Chan) (s : State), s.up_ = true →
    let d := s.door c
    let ok (v : Word) : Prop := s.judge src (doorCmd (doorPage c)) v = none
    let here (e : Door) : State := (s.setDoor c e).doorHere c
    let opens (e : Door) : Door := ({ (here e).door c with
      plan := some ((here e).doorPlan c true ((s.dr c doorWidthUm : Int) - s.dr c doorCreepUm)), creep := false, fCnt := 0
      fHold := 0, defer := false, obsWait := false, afterStop := none } : Door).entered .opening s.tick
    let closes (e : Door) : Door := ({ (here e).door c with
      plan := some ((here e).doorPlan c false (s.dr c doorCreepUm)), creep := false, fCnt := 0, fHold := 0, defer := false
      obsWait := false, stayOpen := false, afterStop := none, lcBlockAt := none } : Door).entered .closing s.tick
    let stops (e : Door) (st : DoorSt) (after : Option DoorSt) : Door := ({ (here e).door c with
      plan := some ((here e).doorStopPlan c), creep := false, fCnt := 0, afterStop := after, cleanOpen := false
      cleanClose := false, armed := false } : Door).entered st s.tick
    let sends (e : Door) (i : Instr) : Prop :=
      ∃ t, exec i s = .next t ∧ t.door c = { e with hostCmd := some (s.tick, src) } ∧ Only (doorParts c) s t
    let good := d.uv = false ∧ d.ov = false
    (ok 1 → (¬ good → sends { d with waitReq := some true, waitAt := s.tick } (.doorOpen src c)) ∧
      (good → d.st = .closed → sends (opens { d with reqAt := s.tick, cleanOpen := true, obstruct := 0, cleanClose := false })
        (.doorOpen src c)) ∧
      (good → d.st = .geared ∨ d.st = .stopped → sends (opens { d with reqAt := s.tick, cleanOpen := false, obstruct := 0 })
        (.doorOpen src c)) ∧
      (good → d.st = .opened → sends { d with defer := false, lcBlockAt := none } (.doorOpen src c)) ∧
      (good → d.st = .closing → sends (stops d .reversing none) (.doorOpen src c)) ∧
      (good → d.st ≠ .closed → d.st ≠ .geared → d.st ≠ .stopped → d.st ≠ .opened → d.st ≠ .closing →
        sends d (.doorOpen src c))) ∧
    (ok 2 → (¬ good → sends { d with waitReq := some false, waitAt := s.tick } (.doorClose src c)) ∧
      (good → d.st = .opened ∨ d.st = .stopped → s.outputsMay = true → s.lcOk c = true →
        sends (closes { d with reqAt := s.tick, cleanClose := decide (d.st = .opened) }) (.doorClose src c)) ∧
      (good → d.st = .opened ∨ d.st = .stopped → s.outputsMay = true → s.lcOk c = false →
        sends { d with
          defer := true, reqAt := if d.defer then d.reqAt else s.tick, cleanClose := decide (d.st = .opened)
          lcBlockAt := if d.lcBlockAt.isNone then some s.tick else d.lcBlockAt } (.doorClose src c)) ∧
      (good → (d.st ≠ .opened ∧ d.st ≠ .stopped) ∨ s.outputsMay = false → sends d (.doorClose src c))) ∧
    (ok 4 → (d.st = .opening ∨ d.st = .closing ∨ d.st = .reversing ∨ d.st = .homing →
        sends (stops d .stopped none) (.doorStop src c)) ∧
      (d.st = .stopped → sends { d with afterStop := none, obsWait := false } (.doorStop src c)) ∧
      (d.st = .geared → sends (stops { d with gearCause := 6 } .stopped (some .closing)) (.doorStop src c)) ∧
      (d.st = .learn → sends (stops { d with learn := none } .stopped (some .closing)) (.doorStop src c)) ∧
      (d.st = .closed ∨ d.st = .opened ∨ d.st = .unref ∨ d.st = .fault ∨ d.st = .off → sends d (.doorStop src c))) ∧
    (ok 8 → exec (.doorArmAdv src c) s = .next (s.setDoor c { d with hostArmed := true, armed := true })) ∧
    (ok 16 → (s.outputsMay = true → sends (({ (s.doorHere c).door c with
        plan := none, creep := true, homeTravel := 0, fHold := 0, learn := none, afterStop := none, defer := false
        obsWait := false } : Door).entered .homing s.tick) (.doorHome src c)) ∧
      (s.outputsMay = false → sends d (.doorHome src c))) ∧
    (ok 32 → sends (({ d with
        plan := none, creep := true, homeTravel := 0, fCnt := 0, fHold := 0, learn := some ⟨0, 0, 0, 0, 0, 0, [], []⟩
        afterStop := none, defer := false, obsWait := false, waitReq := none } : Door).entered .learn s.tick) (.doorLearn src c)) ∧
    (ok 64 → let gone := d.st = .fault ∧ (if d.fault = 4 then d.temp < 1200 else d.fltNow ≠ d.fault)
      let lost := d.posLost || s.overHalfStep c (d.count - d.refCount).natAbs
      (gone → ∃ t, exec (.doorClrFault src c) s = .next t ∧ Only (doorParts c) s t ∧
        t.door c = ({ d with fault := 0, posLost := lost } : Door).entered (if lost then .unref else .stopped) s.tick) ∧
      (¬ gone → exec (.doorClrFault src c) s = .next s))

/-- In a module that runs, each of DOOR_AUTO_HOME, DOOR_OPEN_END, DOOR_CLOSE_END, DOOR_HOMED, DOOR_HOME_FAIL,
DOOR_OBSTRUCT_RETRY, DOOR_LOCK_TIMEOUT, DOOR_DEFER_END, DOOR_NUDGE and DOOR_REVERSE_END completes for every axis, with
its effect where its conditions hold and with none where they do not, and changes its own axis and the registers and
interrupt bits only; DOOR_OPEN_END then tells the scheduler, which closes the doors where its hold is to end at once.
An enabled axis in UNREF homes by itself at standstill in the zone band 0. An opening ends OPEN when it creeps and OL,
or where OL is not wired the force, says so; a closing ends CLOSED when it creeps and CL is active, with the lock
timer started; a homing ends CLOSED at position 0 with the position no longer lost when CL is active and the force has
held; a homing or a learning's homing that has made the travel allowed without CL ends in FAULT 7. An obstruction's
retry, a reversal at rest and a lock timeout start an opening with PERMIT; a lock timeout counts a retry, and past
DOORx_CLOSE_RETRY the door stays open; a reversal at rest without PERMIT stops (log entry 209). A deferred close
starts when the light curtain has been clear long enough, or nudging when it has been blocked long enough. Rests on
R162, R165, R167, R168, R169, R170. -/
def Obligations.DoorMotionEnds : Prop :=
  ∀ (c : Chan) (s : State), s.live = true →
    let d := s.door c
    let here (e : Door) : State := (s.setDoor c e).doorHere c
    let opens (e : Door) : Door := ({ (here e).door c with
      plan := some ((here e).doorPlan c true ((s.dr c doorWidthUm : Int) - s.dr c doorCreepUm)), creep := false, fCnt := 0
      fHold := 0, defer := false, obsWait := false, afterStop := none } : Door).entered .opening s.tick
    let closes (e : Door) : Door := ({ (here e).door c with
      plan := some ((here e).doorPlan c false (s.dr c doorCreepUm)), creep := false, fCnt := 0, fHold := 0, defer := false
      obsWait := false, stayOpen := false, afterStop := none, lcBlockAt := none } : Door).entered .closing s.tick
    let ends (i : Instr) (e : Door) : Prop := ∃ t, exec i s = .next t ∧ t.door c = e ∧ Only (doorParts c) s t
    let does (i : Instr) (when : Prop) (e : Door) : Prop := (when → ends i e) ∧ (¬ when → exec i s = .next s)
    does (.doorAutoHome c) (s.doorEn c = true ∧ s.doorHeld c = false ∧ d.st = .unref ∧ s.pos.band = 0)
      (({ (s.doorHere c).door c with
        plan := none, creep := true, homeTravel := 0, fHold := 0, learn := none, afterStop := none, defer := false
        obsWait := false } : Door).entered .homing s.tick) ∧
    (let when := d.st = .opening ∧ d.creep = true ∧ (if d.olWired then d.ol = true else 160 ≤ d.fHold)
      let e := ({ d with
          creep := false, plan := none, spPos := s.doorSpNow c, spTick := s.tick, spVel := 0, spAcc := 0, cleanOpen := false
          obstruct := 0 } : Door).entered .opened s.tick
      (when → ∃ u, exec (.doorOpenEnd c) s = .next (u.schDoorOpened c) ∧ u.door c = e ∧ Only (doorParts c) s u) ∧
      (when → s.sch.ans.all (fun a => !a.endNow) = true →
        ∃ t, exec (.doorOpenEnd c) s = .next t ∧ t.door c = e ∧ Only { doorParts c with sch := true } s t) ∧
      (¬ when → exec (.doorOpenEnd c) s = .next s)) ∧
    does (.doorCloseEnd c) (d.st = .closing ∧ d.creep = true ∧ d.cl = true)
      (({ d with
        creep := false, plan := none, spPos := s.doorSpNow c, spTick := s.tick, spVel := 0, spAcc := 0
        lockAt := some s.tick } : Door).entered .closed s.tick) ∧
    does (.doorHomed c) (d.st = .homing ∧ d.cl = true ∧ 400 ≤ d.fHold)
      (({ d with
        cntZero := d.count, actPos := 0, spPos := 0, spVel := 0, spAcc := 0, posLost := false, creep := false, plan := none
        cleanClose := false } : Door).entered .closed s.tick) ∧
    (let when := (d.st = .homing ∨ d.st = .learn ∧ d.learn.any (fun l => l.moves == 0) = true) ∧ d.cl = false ∧
        ((s.dr c doorWidthUm : Int) + 100000) * 65536 ≤ d.homeTravel;
      (when → ∃ t, exec (.doorHomeFail c) s = .next t ∧ (t.door c).st = .fault ∧ (t.door c).fault = 7 ∧
        (t.door c).plan = none ∧ (t.door c).creep = false ∧ Only (doorParts c) s t) ∧
      (¬ when → exec (.doorHomeFail c) s = .next s)) ∧
    does (.doorObstructRetry c)
      (d.st = .stopped ∧ d.obsWait = true ∧ s.since d.stopAt 16000 = true ∧ s.permit c = true ∧ s.doorHeld c = false) (opens d) ∧
    (∀ t0, d.lockAt = some t0 →
      let e := opens { d with retry := d.retry + 1, lockAt := none, cleanOpen := false, cleanClose := false, obstruct := 0 }
      does (.doorLockTimeout c)
        (d.st = .closed ∧ s.locked c = false ∧ s.since t0 (msTicks (s.dr c doorLockToMs)) = true ∧ s.permit c = true ∧
          s.doorHeld c = false)
        (if s.dr c doorCloseRetry < d.retry + 1 then { e with stayOpen := true } else e)) ∧
    (d.lockAt = none → exec (.doorLockTimeout c) s = .next s) ∧
    (let may := d.defer = true ∧ (d.st = .opened ∨ d.st = .stopped) ∧ s.doorHeld c = false ∧ d.posLost = false;
      does (.doorDeferEnd c) (may ∧ s.lcOk c = true) (closes d) ∧
      (∀ t0, d.lcBlockAt = some t0 → does (.doorNudge c)
        (may ∧ s.rb (doorCfg (doorPage c)) 6 = true ∧ s.since t0 (msTicks (s.dr c doorNudgeMs)) = true)
        (closes { d with nudge := true })) ∧
      (d.lcBlockAt = none → exec (.doorNudge c) s = .next s)) ∧
    (let rest : Door := { d with
        plan := none, spPos := (d.plan.map (fun p => (p.at s.tick).x)).getD d.spPos, spTick := s.tick, spVel := 0, spAcc := 0
        obstruct := 0 };
      does (.doorReverseEnd c) (d.st = .reversing ∧ s.doorHeld c = false ∧ d.plan.all (fun p => p.done s.tick) = true)
        (if (s.setDoor c rest).permit c = true then opens rest else rest.entered .stopped s.tick))

/-- In a module that runs, DOOR_EVAL, STEP_LOSS, DOOR_STAGE_FAULT and DOOR_PEAK_EXHAUSTED complete for every axis and
every sample. DOOR_EVAL on an axis not in use does nothing; on one in use it takes the samples, which change that axis
only: the encoder count in the axis' own sense, the position, speed and end switches, the temperature and current
limit, the force against its limit, the counts of the supply's and the encoder's evaluations in a row, and neither
state nor set-point. With the supply bad or without authority nothing more follows. Otherwise force above the limit
for two evaluations, or a broken light curtain, reverses a closing by the stop plan from the set-point of this tick;
force stops an opening into STOPPED with a retry to follow, or at the third time ends it OPEN and tells the scheduler;
force aborts a gearing with cause 5; in a learning's moves force, or in its closings the light curtain, ends the
learning with nothing stored and a CLOSE to follow; where none of these holds and no learning is in hand, nothing more
follows. STEP_LOSS, once four evaluations in a row had the load angle above 90 degrees and the axis is not in FAULT,
loses the position and faults with 6, else does nothing. DOOR_STAGE_FAULT of code 1 to 5 on an axis in use that is
neither in FAULT nor OFF, code 4 only at 135 °C, faults with its code, else does nothing. DOOR_PEAK_EXHAUSTED marks
the allowance as used once 2 s of the last 10 s lay above the continuous limit, else does nothing. Rests on R157,
R158, R159, R161, R163, R167, R168, R173, R176. -/
def Obligations.DoorEvaluation : Prop :=
  ∀ (c : Chan) (i : DoorIn) (s : State), s.live = true →
    let u := s.doorSample c i
    let e := u.door c
    let d := s.door c
    let cfg := doorCfg (doorPage c)
    (s.doorEn c = false → exec (.doorEval c i) s = .next s) ∧
    (Only { doorF := c == .a, doorR := c == .b } s u ∧ e.st = d.st ∧ e.spPos = d.spPos ∧ e.plan = d.plan ∧
      e.learn = d.learn ∧ e.count = s.doorSense c i.count ∧ e.actPos = s.doorActual c e.count ∧
      e.actVel = (e.actPos - d.actPos) * 8000 ∧
      e.cl = (i.cl != s.rb cfg 7) ∧ e.ol = i.ol.any (fun x => x != s.rb cfg 8) ∧ e.olWired = i.ol.isSome ∧ e.temp = i.temp ∧
      e.theta = i.theta ∧ e.fltNow = i.flt ∧ e.iLim = s.doorILim c i.temp ∧ e.current ≤ max e.iLim (d.current + 100) ∧
      e.fLim = decide ((s.dr c doorFmax : Int) < e.force) ∧ e.fCnt = (if e.fLim then d.fCnt + 1 else 0) ∧
      e.lowN = runOf (decide (i.mv < 20000)) d.lowN ∧ e.upN = runOf (decide (21000 < i.mv)) d.upN ∧
      e.highN = runOf (decide (64000 < i.mv)) d.highN ∧ e.downN = runOf (decide (i.mv < 62000)) d.downN ∧
      e.restN = runOf (s.doorSense c i.count == d.count) d.restN ∧
      e.stepCnt = (if s.rb cfg 1 && decide (16384 < i.theta) then d.stepCnt + 1 else 0) ∧ e.evals = d.evals + 1) ∧
    (s.doorEn c = true → u.doorHeld c = true → exec (.doorEval c i) s = .next u) ∧
    (s.doorEn c = true → u.doorHeld c = false →
      let lc := s.rb cfg 5 = true ∧ e.lcClear = false ∧ e.nudge = false
      (d.learn = none → d.st = .closing → 2 ≤ e.fCnt ∨ lc → ∃ t, exec (.doorEval c i) s = .next t ∧
        (t.door c).st = .reversing ∧ (t.door c).plan = some ((u.doorHere c).doorStopPlan c) ∧
        (t.door c).lcBlockAt = (if e.fCnt < 2 ∧ e.lcBlockAt = none then some s.tick else e.lcBlockAt) ∧
        Only (doorParts c) s t) ∧
      (d.learn = none → d.st = .closing → e.fCnt < 2 → ¬ lc → exec (.doorEval c i) s = .next u) ∧
      (d.learn = none → d.st = .opening → 2 ≤ e.fCnt → d.obstruct < 2 → ∃ t, exec (.doorEval c i) s = .next t ∧
        (t.door c).st = .stopped ∧ (t.door c).obsWait = true ∧ (t.door c).obstruct = d.obstruct + 1 ∧ Only (doorParts c) s t) ∧
      (d.learn = none → d.st = .opening → 2 ≤ e.fCnt → 2 ≤ d.obstruct → s.sch.ans.all (fun a => !a.endNow) = true →
        ∃ t, exec (.doorEval c i) s = .next t ∧ (t.door c).st = .opened ∧ (t.door c).obstruct = 0 ∧
          Only { doorParts c with sch := true } s t) ∧
      (d.learn = none → d.st = .geared → 2 ≤ e.fCnt → ∃ t, exec (.doorEval c i) s = .next t ∧ (t.door c).st = .stopped ∧
        (t.door c).gearCause = 5 ∧ (t.door c).afterStop = some .closing ∧ Only (doorParts c) s t) ∧
      (d.learn = none → d.st = .opening ∨ d.st = .geared → e.fCnt < 2 → exec (.doorEval c i) s = .next u) ∧
      (d.learn = none → d.st ≠ .closing → d.st ≠ .opening → d.st ≠ .geared → exec (.doorEval c i) s = .next u) ∧
      (∀ l, d.learn = some l → d.st = .learn →
        2 ≤ e.fCnt ∧ l.moves ≠ 0 ∨ (l.moves = 2 ∨ l.moves = 4 ∨ l.moves = 6) ∧ lc →
        ∃ t, exec (.doorEval c i) s = .next t ∧ (t.door c).st = .stopped ∧ (t.door c).learn = none ∧
          (t.door c).afterStop = some .closing ∧ Only (doorParts c) s t)) ∧
    (4 ≤ d.stepCnt ∧ d.st ≠ .fault → ∃ t, exec (.stepLoss c) s = .next t ∧ (t.door c).st = .fault ∧ (t.door c).fault = 6 ∧
      (t.door c).posLost = true ∧ Only (doorParts c) s t) ∧
    (¬ (4 ≤ d.stepCnt ∧ d.st ≠ .fault) → exec (.stepLoss c) s = .next s) ∧
    (∀ k, let when := s.doorEn c = true ∧ d.st ≠ .fault ∧ d.st ≠ .off ∧ 1 ≤ k ∧ k ≤ 5 ∧ (k = 4 → 1350 ≤ d.temp);
      (when → ∃ t, exec (.doorStageFault c k) s = .next t ∧ (t.door c).st = .fault ∧ (t.door c).fault = k ∧
        (t.door c).plan = none ∧ Only (doorParts c) s t) ∧
      (¬ when → exec (.doorStageFault c k) s = .next s)) ∧
    (16000 ≤ peakUsed d.evals d.peaks → exec (.doorPeakExhausted c) s = .next (s.setDoor c { d with peakOut := true })) ∧
    (peakUsed d.evals d.peaks < 16000 → exec (.doorPeakExhausted c) s = .next s)

/-- DOOR_SUPPLY_FAULT, DOOR_SUPPLY_RECOVER and DOOR_REST_DETECT complete in every module that is up, DOOR_STAGE_POWER_UP
and DOOR_LEARN_DONE in every module that runs, for every operand. Once 16 evaluations in a row of either axis had the
DOOR supply below 20.0 V, or above 64.0 V, a supply fault marks both axes with DOOR_UV or DOOR_OV, notes which moved
and which had its stage off with the encoder count of that moment, and ends their plans at the set-point of this tick;
before that it does nothing. Once 16 in a row had it above 21.0 V, or below 62.0 V, a recovery clears the mark on
both, and where no request waits does nothing more; before that it does nothing. An axis that moved, whose encoder has
stood for 400 evaluations and still stands at the count of the last, drops a learning and its set-point becomes its
actual position; unless it is in FAULT, OFF or UNREF it enters STOPPED, with the position lost if the stage was off
and the encoder has counted more than half a step since; an axis that did not move, or not yet at rest, keeps all. A
stage in OFF of an axis in use powered up with the supply good and authority resumes at the retained angle in the
state it left when what the always-on domain kept is valid, without OVERRUN or a cut, and the encoder agrees to less
than half a step; otherwise it enters UNREF with the position lost; in any other state it does nothing. A learning of
six moves stores mass, width and friction, clears its plan and enters CLOSED; with a mass above the largest allowed
nothing is stored and it stops with a CLOSE to follow; a learning not at its end, or none, keeps all. Rests on R159,
R160, R174, R175, R176. -/
def Obligations.DoorSupplyAndLearning : Prop :=
  ∀ (s : State), s.up_ = true →
    (∀ o, let f (c : Chan) : Door :=
            let d := s.door c
            let off := !o && (d.moving || d.moves)
            { d with
              uv := d.uv || !o, ov := d.ov || o, moving := d.moving || d.moves, wasOff := (d.wasOff && d.moving) || off
              refCount := if off && !(d.wasOff && d.moving) then d.count else d.refCount
              plan := none, creep := false, spPos := s.doorSpNow c, spTick := s.tick, spVel := 0, spAcc := 0, fCnt := 0 };
      let n (d : Door) : Nat := if o then d.highN else d.lowN;
      (16 ≤ max (n s.doorF) (n s.doorR) → exec (.doorSupplyFault o) s = .next { s with doorF := f .a, doorR := f .b }) ∧
      (max (n s.doorF) (n s.doorR) < 16 → exec (.doorSupplyFault o) s = .next s)) ∧
    (∀ o, let n (d : Door) : Nat := if o then d.downN else d.upN;
      (16 ≤ max (n s.doorF) (n s.doorR) → s.doorF.waitReq = none → s.doorR.waitReq = none →
        exec (.doorSupplyRecover o) s = .next { s with
          doorF := { s.doorF with uv := s.doorF.uv && o, ov := s.doorF.ov && !o }
          doorR := { s.doorR with uv := s.doorR.uv && o, ov := s.doorR.ov && !o } }) ∧
      (16 ≤ max (n s.doorF) (n s.doorR) → ∃ t, exec (.doorSupplyRecover o) s = .next t ∧
        Only { rf := true, irqNow := true, doorF := true, doorR := true } s t) ∧
      (max (n s.doorF) (n s.doorR) < 16 → exec (.doorSupplyRecover o) s = .next s)) ∧
    (∀ (c : Chan) (n : Int), let d := s.door c
      let still := s.doorSense c n = d.count
      let lost := d.wasOff && s.overHalfStep c (d.count - d.refCount).natAbs
      let e : Door := { d with
        moving := false, wasOff := false, spPos := d.actPos * 65536, spTick := s.tick, spVel := 0, spAcc := 0
        afterStop := none, learn := none, posLost := d.posLost || lost };
      (d.moving = true → 400 ≤ d.restN → still → d.waitReq = none ∨ d.uv = true ∨ d.ov = true → ∃ t,
        exec (.doorRestDetect c n) s = .next t ∧ Only (doorParts c) s t ∧
        t.door c = if d.st = .fault ∨ d.st = .off ∨ d.st = .unref then e else e.entered .stopped s.tick) ∧
      (d.moving = true → 400 ≤ d.restN → still → ∃ t, exec (.doorRestDetect c n) s = .next t ∧
        Only { rf := true, irqNow := true, doorF := true, doorR := true } s t) ∧
      (d.moving = false ∨ d.restN < 400 ∨ ¬ still → exec (.doorRestDetect c n) s = .next s)) ∧
    (∀ (c : Chan) (n : Int) (o cut : Bool), s.live = true → let d := s.door c
      let count := s.doorSense c n
      let may := s.doorEn c = true ∧ d.st = .off ∧ s.doorHeld c = false
      let good := cut = false ∧ s.rb (doorRetAngle (doorPage c)) 17 = true ∧ o = false ∧ s.sys.aonPowered = true ∧
        s.belowHalfStep c (count - s.ri (doorRetCnt (doorPage c))).natAbs = true;
      (may → good → ∃ t, exec (.doorStagePowerUp c n ⟨o, cut⟩) s = .next t ∧ Only (doorParts c) s t ∧
        t.door c = ({ d with
          count := count, spPos := d.retSp, spTick := s.tick, posLost := false, refCount := count
          cntZero := s.ri (doorRetCnt (doorPage c)) - d.retSp / s.ri (doorEncScale (doorPage c)) } : Door).entered
            (if d.retSt = .closed ∨ d.retSt = .opened then d.retSt else .stopped) s.tick) ∧
      (may → cut = false → ¬ good → ∃ t, exec (.doorStagePowerUp c n ⟨o, cut⟩) s = .next t ∧ Only (doorParts c) s t ∧
        t.door c = ({ d with count := count, posLost := true } : Door).entered .unref s.tick) ∧
      (may → cut = true → s.Canonical → ∃ t, exec (.doorStagePowerUp c n ⟨o, cut⟩) s = .next t ∧ Only (doorParts c) s t ∧
        t.door c = ({ d with count := count, posLost := true } : Door).entered .unref s.tick) ∧
      (¬ may → exec (.doorStagePowerUp c n ⟨o, cut⟩) s = .next s)) ∧
    (∀ (c : Chan), s.live = true → let d := s.door c
      (∀ l, d.learn = some l → d.st = .learn → 7 ≤ l.moves →
        let m := l.mass (s.learnLims c).am
        (m ≤ s.dr c doorMassMax → exec (.doorLearnDone c) s = .next
          (((((s.wi (doorMassG (doorPage c)) m).wi (doorWidthUm (doorPage c)) l.width).wf_ (doorFriction (doorPage c)) 0 16
            (wordI l.fric).toNat).setDoor c { d with
              learn := none, learned := true, plan := none, creep := false, spPos := d.actPos * 65536, spVel := 0
              spAcc := 0 }).doorInto c .closed |>.raise (doorPage c) 12)) ∧
        ((s.dr c doorMassMax : Int) < m → ∃ t, exec (.doorLearnDone c) s = .next t ∧ (t.door c).learn = none ∧
          (t.door c).learned = d.learned ∧ (t.door c).st = .stopped ∧ (t.door c).afterStop = some .closing ∧
          Only (doorParts c) s t)) ∧
      (d.learn.all (fun l => decide (l.moves < 7)) = true ∨ d.st ≠ .learn → exec (.doorLearnDone c) s = .next s))

/-- The data length of an LSF frame is the smallest of the CAN FD lengths from 12 up that holds 10 + N bytes. A received
frame of another length, or with a padding byte that is not 0x00, is rejected; a produced frame, with N = 12, has that
length and zero padding. Formalises R215. -/
def Obligations.LsfDataLength : Prop :=
  (∀ n, n ≤ 64 → fdLen n ∈ [12, 16, 20, 24, 32, 48, 64] ∧ n ≤ fdLen n ∧
      ∀ m ∈ [12, 16, 20, 24, 32, 48, 64], n ≤ m → fdLen n ≤ m) ∧
    (∀ (s : State) (k : Nat) (f : CanFrame),
      f.data.length ≠ fdLen (10 + s.lsfLen k) ∨ (∃ b ∈ f.data.drop (10 + s.lsfLen k), b ≠ 0) → s.lsfJudge k f = .other) ∧
    (∀ (s : State) (k : Nat), s.up_ = true → s.lsfEn k = true → s.lsfProd k = true → (s.lsfn k).st = .run →
      (s.lsfn k).deadline ≤ s.us → ∃ (t : State) (d : List Byte), d.length = fdLen (10 + 12) ∧ (∀ b ∈ d.drop (10 + 12), b = 0) ∧
        exec (.lsfProduce k true) s = .next (t.canSend (Word.bits (s.lsfCfg k) 2 2) (s.lsfTxObj k) true
          (lsfId (s.rf_ lsfNode 0 12) (Word.bits (s.lsfCfg k) 8 4)) true d))

/-- In a module that is up, LSF_FRAME_RX, LSF_TIMEOUT, LSF_CRC_RATE, LSF_CONF_TIMEOUT and LSF_PRODUCE complete for every
operand, LSF_RESTART and LSF_CNT_CLR for every source and value whose write is not refused. A frame on an LSF
identifier is stored by a controller that runs, and Electrum then takes what the slot bound to it holds; a frame on no
LSF identifier does nothing. Taking a slot's new frame gives up its object; a confirmation timer that expired before
the frame's stamp has cleared CONF; a slot in OFF or FAILED ignores the frame. Else a repeated sequence changes
nothing, a wrong one counts with SEQ_ERR, a failed CRC counts with CRC_ERR and is remembered for a second, another
rejection counts; a wrong sequence, a failed CRC and a frame too old clear CONF of a slot in WAIT. In RUN an accepted
frame delivers its data, sequence and deadline unless it comes after the deadline; in WAIT a first sets CONF and its
timer, and a second confirms: RUN with CONN_RUN. LSF_TIMEOUT takes the slot's frame, and then a slot in RUN whose
deadline has passed counts and fails with cause 1, to WAIT with AUTO_RST; LSF_CRC_RATE fails a slot in RUN with
LSF_CRC_MAX failures within 1 s, cause 2; LSF_CONF_TIMEOUT takes the frame, and then clears CONF when its timer has
expired; where these do not hold nothing more follows. A production not identical in both channels is skipped with its
count and PROD_SKIP after any pending frame of the slot is aborted; before its instant nothing is produced. RESTART
puts the slots it names into WAIT with a fresh confirmation, CNT_CLR clears the counters. Starting a slot, as
LSF_CTRL.RUN and a write of its configuration do, makes a consumer wait, lets a producer run at its next instant with
its sequence kept, and leaves a slot not enabled, or before RUN, off. Rests on R219, R220, R221, R222, R223, R224,
R227, R229, Table 11.3, Table 11.4. -/
def Obligations.LsfSlots : Prop :=
  ∀ (s : State) (k : Nat), s.up_ = true →
    (∀ (b : Nat) (f : CanFrame), b < 4 → f.ide = true → idClass f.id.toNat = 5 →
      let t := if s.canRuns b then s.canReceive b f else s
      (t.lsfSlotOf b f = none → exec (.lsfFrameRx b f) s = .next t) ∧
      (t.lsfSlotOf b f = some k → exec (.lsfFrameRx b f) s = .next (t.lsfTake k))) ∧
    (∀ (b : Nat) (f : CanFrame), f.ide = false ∨ idClass f.id.toNat ≠ 5 → exec (.lsfFrameRx b f) s = .next s) ∧
    (∀ (o : RxObj), let cfg := s.lsfCfg k
      let b := Word.bits cfg 2 2
      let f : CanFrame := ⟨true, BitVec.ofNat 29 (lsfId (Word.bits cfg 16 12) (Word.bits cfg 8 4)), false, o.fdf, o.brs, o.esi,
        o.data.take o.len, o.sof, o.vp⟩
      s.lsfEn k = true → s.lsfProd k = false → alook (s.cann b).rx (s.lsfRxObj k) = some o → o.new = true →
      s.lsfSlotOf b f = some k →
      let w := s.canTake b (s.lsfRxObj k)
      let u := if (w.lsfn k).st = .wait ∧ (w.lsfn k).conf = true ∧ (w.lsfn k).confUs < o.vp then
        w.setLsf k { w.lsfn k with conf := false } else w
      let l := u.lsfn k
      let back := if l.st = .wait ∧ l.conf = true then u.setLsf k { l with conf := false } else u
      let late := o.vp + 1000 * u.lsfTime k
      ((l.st = .off ∨ l.st = .failed) → s.lsfTake k = u) ∧
      (l.st = .run ∨ l.st = .wait →
        (u.lsfJudge k f = .duplicate → s.lsfTake k = u) ∧
        (u.lsfJudge k f = .other → s.lsfTake k = u.bump (lsfCnt k) 16 8) ∧
        (u.lsfJudge k f = .aged → s.lsfTake k = back.bump (lsfCnt k) 16 8) ∧
        (u.lsfJudge k f = .seqErr → s.lsfTake k = (back.bump (lsfCnt k) 8 8).raise pgLsf 4) ∧
        (u.lsfJudge k f = .crcErr → s.lsfTake k =
          let v := (back.bump (lsfCnt k) 0 8).raise pgLsf 3
          v.setLsf k { v.lsfn k with
            crcUs := o.vp :: (v.lsfn k).crcUs.filter (fun x => decide (o.vp < x + 1000000)) })) ∧
      (∀ q a d, u.lsfJudge k f = .accept q a d →
        let got : LsfSlot := { l with seq := q, lastAge := a, data := d, n := u.lsfLen k, infoSeq := q % 65536 }
        (l.st = .run → o.vp ≤ l.deadline → s.lsfTake k =
          (u.setLsf k { got with deadline := late - 1000 * a, valid := true }).wn (lsfCnSeq + 0x20 * k) q) ∧
        (l.st = .run → l.deadline < o.vp → s.lsfTake k = u) ∧
        (l.st = .wait → l.conf = false → s.lsfTake k =
          (u.setLsf k { l with seq := q, conf := true, confUs := late, lastAge := a }).wn (lsfCnSeq + 0x20 * k) q) ∧
        (l.st = .wait → l.conf = true → s.lsfTake k =
          ((u.setLsf k { got with st := .run, conf := false, deadline := late - 1000 * a, valid := true }).wn
            (lsfCnSeq + 0x20 * k) q).raise pgLsf 1))) ∧
    (s.lsfEn k = false ∨ s.lsfProd k = true → s.lsfTake k = s) ∧
    (let t := s.lsfTake k
      let l := t.lsfn k
      let fails (c : Nat) (u : State) : State := ((u.setLsf k { u.lsfn k with
        st := if Word.bit (u.lsfCfg k) 4 then .wait else .failed, conf := false, cause := c, valid := false
        crcUs := [] }).raise pgLsf 2).fire 0xA (pack [(0, 5, k), (8, 2, c)])
      (t.lsfRuns k = true → l.deadline < t.us → exec (.lsfTimeout k) s = .next (fails 1 (t.bump (lsfCnt k) 24 8))) ∧
      (t.lsfRuns k = false ∨ t.us ≤ l.deadline → exec (.lsfTimeout k) s = .next t) ∧
      (s.lsfRuns k = true → s.rn lsfCrcMax ≤ (s.lsfn k).crcUs.length → exec (.lsfCrcRate k) s = .next (fails 2 s)) ∧
      (s.lsfRuns k = false ∨ (s.lsfn k).crcUs.length < s.rn lsfCrcMax → exec (.lsfCrcRate k) s = .next s) ∧
      (l.st = .wait ∧ l.conf = true ∧ l.confUs < t.us →
        exec (.lsfConfTimeout k) s = .next (t.setLsf k { l with conf := false })) ∧
      (¬ (l.st = .wait ∧ l.conf = true ∧ l.confUs < t.us) → exec (.lsfConfTimeout k) s = .next t)) ∧
    (let l := s.lsfn k
      let n := Word.bits (s.lsfCfg k) 2 2
      let due := s.lsfEn k = true ∧ s.lsfProd k = true ∧ l.st = .run ∧ l.deadline ≤ s.us
      let q := (l.seq + 1) % 4294967296
      let t := if (s.txo n (s.lsfTxObj k)).res = .pending then (s.canAbort n (s.lsfTxObj k)).bump (lsfCnt k) 8 8 else s;
      (due → exec (.lsfProduce k false) s = .next ((((t.setLsf k { l with
        seq := q, deadline := l.deadline + 1000 * s.lsfTime k }).wn (lsfCnSeq + 0x20 * k) q).bump (lsfCnt k) 0 8).raise pgLsf 5)) ∧
      (∀ i, ¬ due → exec (.lsfProduce k i) s = .next s)) ∧
    (∀ src v, s.judge src lsfRestart v = none →
      exec (.lsfRestart src v) s = .next (each (bitsOf v.toNat 32) s (fun t j => t.setLsf j { t.lsfn j with st := .wait, conf := false }))) ∧
    (∀ t : State, let l := t.lsfn k
      (t.lsfEn k = true → t.el.runUs ≠ none → t.lsfProd k = false →
        t.lsfStart k = t.setLsf k { LsfSlot.reset with st := .wait, cause := l.cause }) ∧
      (t.lsfEn k = true → t.el.runUs ≠ none → t.lsfProd k = true →
        t.lsfStart k = t.setLsf k { LsfSlot.reset with st := .run, seq := l.seq, deadline := t.lsfInstant k }) ∧
      (t.lsfEn k = false ∨ t.el.runUs = none →
        t.lsfStart k = t.setLsf k { LsfSlot.reset with seq := if t.lsfProd k then l.seq else 0 })) ∧
    (∀ src, s.judge src lsfCmd 1 = none →
      exec (.lsfCntClr src) s = .next (each (List.range 32) s (fun t j => t.wr (lsfCnt j) 0)))

/-- In a module that is up, on each of the four controllers, CAN_FRAME_RX, CAN_TX_ATTEMPT_END, CAN_ERROR, CAN_BUS_OFF,
CAN_BUSOFF_RECOVERY, CAN_ALONE, CAN_WAKE and CAN_INTEGRATE complete for every operand, and CAN_TX_REQ, CAN_TX_ABORT,
CAN_SLEEP, CAN_LOCAL_WAKE and CAN_CNT_CLR for every source and value whose write is not refused. A valid frame that a
running controller receives lowers REC, ends ALONE and is stored in the lowest object bound to its identifier, or
counts as unmatched; a remote frame only counts; the controller's engines then see the frame, and CAN0 has none; a
controller that does not run does nothing. A request sets an idle object pending with its time, and aborts it at once
without authority; an abort fails a pending object and leaves any other. An attempt ends only of the object offered,
and never of one with a pending object, surely in time, of a lower rank. A success completes the object and lowers
TEC, an error counts an attempt and the one that reaches SHOTS fails it, lost arbitration changes nothing; Bellmetal
learns of the success of its own objects, and of an error after their validity point, after which what is left of them
is aborted. Errors move the counters, except that acknowledgement errors of an error-passive node leave TEC alone;
past 255 the controller goes bus-off, and recovers with both counters zero. The 32nd acknowledgement error in a row
sets ALONE. SLEEP aborts what is pending; a local wake or, in RUN, a bus wake that the configuration admits wakes a
sleeping controller with its cause, in PARK the module too; integration ends error-active. CNT_CLR zeroes the
counters. Where a condition does not hold, nothing happens. Rests on R235, R236, R237, R238, R239, R242, R243, R244,
R246, R364. -/
def Obligations.CanControllers : Prop :=
  ∀ (s : State) (n : Nat), s.up_ = true → n < 4 →
    let c := s.cann n
    let pg := canPage n
    (∀ f, s.canRuns n = false → exec (.canFrameRx n f) s = .next s) ∧
    (∀ f, s.canRuns n = true →
      let u := (s.setCan n { c with
        recE := if 127 < c.recE then 119 else c.recE - 1, alone := false, ackRun := if c.alone then 0 else c.ackRun
        lastVp := some f.vp }).canErrState n
      let bound := (List.range 128).find? (fun i => u.rxBound n i == some f.key)
      (f.remote = true → exec (.canFrameRx n f) s = .next ((u.bump (canCntErr pg) 24 8).engineFrame n f)) ∧
      (∀ i, f.remote = false → bound = some i → exec (.canFrameRx n f) s = .next ((u.canStore n i f).engineFrame n f)) ∧
      (f.remote = false → bound = none →
        exec (.canFrameRx n f) s = .next ((u.bump (canCntErr pg) 8 8).engineFrame n f))) ∧
    (∀ f (t : State), t.engineFrame 0 f = t) ∧
    (∀ src v, s.judge src (canTxReq pg) v = none →
      exec (.canTxReq src n v) s = .next (each (bitsOf v.toNat 32) s (fun t j => t.canRequest n j))) ∧
    (∀ src v, s.judge src (canTxAbort pg) v = none →
      exec (.canTxAbort src n v) s = .next (each (bitsOf v.toNat 32) s (fun t j => t.canAbort n j))) ∧
    (∀ (t : State) (j : Nat), let o := t.txo n j
      let asked := t.setTxo n j { o with
        res := .pending, aborted := false, attempts := 0, reqUs := t.us, reqLate := t.us + 62 };
      (o.res ≠ .pending → t.authority = true → t.canRequest n j = asked) ∧
      (o.res ≠ .pending → t.authority = false → t.canRequest n j = asked.canAbort n j) ∧
      (o.res = .pending → t.canRequest n j = t) ∧
      (o.res = .pending → t.canAbort n j = t.txResult n j false { o with res := .failed, aborted := true, abortUs := t.us }) ∧
      (o.res ≠ .pending → t.canAbort n j = t)) ∧
    (∀ j m out, let o := s.txo n j
      let may := j ≤ 32 ∧ s.attemptMay n out = true ∧ s.txOffered n j m = true
      let bell := n = 2 ∧ s.rb bidCfg 6 = true ∧ (j = 31 ∨ j = 32) ∧ s.live = true
      let errs := out ≠ .success ∧ out ≠ .lostArbitration
      let a := min (o.attempts + 1) 255
      let shots := s.rf_ (txoAddr n j + 4) 8 8
      let done := (((s.setCan n { c with
        tec := c.tec - 1, ackRun := 0, alone := false, lastVp := some (max m s.us) }).canErrState n).bump
          (canCntFrm pg) 16 16).txResult n j true { o with res := .done, aborted := false, sof := m }
      let erred := if o.res ≠ .pending then s
        else if shots ≠ 0 ∧ shots ≤ a then s.txResult n j false { o with res := .failed, attempts := a }
        else s.setTxo n j { o with attempts := a };
      (¬ may → exec (.canTxAttemptEnd n j out m) s = .next s) ∧
      (may → out = .lostArbitration → exec (.canTxAttemptEnd n j out m) s = .next s) ∧
      (may → ¬ bell → out = .success → exec (.canTxAttemptEnd n j out m) s = .next done) ∧
      (may → ¬ bell → errs → exec (.canTxAttemptEnd n j out m) s = .next erred) ∧
      (may → bell → out = .success → (done.txo n j).res = .done → o.res ≠ .done →
        exec (.canTxAttemptEnd n j out m) s = .next (done.bidSent j m)) ∧
      (∀ lec, may → bell → out = .error lec → exec (.canTxAttemptEnd n j out m) s = .next erred) ∧
      (∀ lec, may → bell → out = .errorAfterVp lec → o.res = .pending →
        exec (.canTxAttemptEnd n j out m) s = .next ((erred.canAbort n j).bidSent j m))) ∧
    (∀ i j m out (x : TxObj), (i, x) ∈ c.tx → x.res = .pending → x.reqLate ≤ s.txLimit n m → s.txRank n i < s.txRank n j →
      exec (.canTxAttemptEnd n j out m) s = .next s) ∧
    (∀ lec tx inc, let may := s.canRuns n = true ∧ 1 ≤ lec ∧ lec ≤ 6;
      (may → tx = false → exec (.canError n lec tx inc) s =
        .next ((s.setCan n { c with lec := lec, recE := min (c.recE + inc) 255 }).canErrState n)) ∧
      (may → tx = true → lec ≠ 3 → exec (.canError n lec tx inc) s =
        .next ((s.setCan n { c with lec := lec, tec := min (c.tec + inc) 256, ackRun := 0 }).canErrState n)) ∧
      (may → tx = true → lec = 3 → exec (.canError n lec tx inc) s = .next ((s.setCan n { c with
        lec := 3, tec := if c.st = .errorPassive then c.tec else min (c.tec + inc) 256
        ackRun := min (c.ackRun + 1) 63 }).canErrState n)) ∧
      (¬ may → exec (.canError n lec tx inc) s = .next s)) ∧
    (s.canRuns n = true → 256 ≤ c.tec → ∃ t, exec (.canBusOff n) s = .next t ∧ t.can = (s.canInto n .busOff).can ∧
      Only { rf := true, irqNow := true, can := true, rcd := true } s t) ∧
    (s.canRuns n = false ∨ c.tec < 256 → exec (.canBusOff n) s = .next s) ∧
    (c.st = .busOff → exec (.canBusoffRecovery n) s = .next ((s.setCan n { c with tec := 0, recE := 0 }).canInto n .errorActive)) ∧
    (c.st ≠ .busOff → exec (.canBusoffRecovery n) s = .next s) ∧
    (32 ≤ c.ackRun → c.alone = false → exec (.canAlone n) s = .next ((s.setCan n { c with alone := true }).raise pg 2)) ∧
    (c.ackRun < 32 ∨ c.alone = true → exec (.canAlone n) s = .next s) ∧
    (∀ src, let w := Word.setBits (s.rd (canCtrl pg)) 1 1 1;
      s.judge src (canCtrl pg) w = none →
      (c.st ≠ .off → c.st ≠ .sleep → exec (.canSleep src n) s =
        .next (((s.canAbortAll n).wf_ (canCtrl pg) 1 1 1).canInto n .sleep)) ∧
      (c.st = .off ∨ c.st = .sleep → exec (.canSleep src n) s = .next s)) ∧
    (let wakes (k : Nat) : State := ((s.setCan n { c with wake := k, integrating := true }).wf_ (canCtrl pg) 1 1 0).raise pg 8
      let cfg := canCfg pg
      (∀ src, s.judge src (canCtrl pg) (Word.setBits (s.rd (canCtrl pg)) 1 1 0) = none →
        (c.st = .sleep → exec (.canLocalWake src n) s = .next (wakes 4)) ∧
        (c.st ≠ .sleep → exec (.canLocalWake src n) s = .next s)) ∧
      (∀ w f, let code : Option Nat :=
          if s.rb cfg 4 = false then none
          else if s.rb cfg 3 = false then (if w = .pattern then some 1 else none)
          else if w = .frame ∧ f.any (fun g => s.wakeMatch n g) = true then some 2 else if w = .frameErr then some 3 else none;
        (∀ k, code = some k → c.st = .sleep → s.sys.run = .run → exec (.canWake n w f) s = .next (wakes k)) ∧
        (∀ k, code = some k → c.st = .sleep → s.sys.run = .park →
          exec (.canWake n w f) s = .next ((wakes k).parkEnd (.can (BitVec.ofNat 4 (2 ^ n))))) ∧
        (code = none ∨ c.st ≠ .sleep → exec (.canWake n w f) s = .next s))) ∧
    (c.integrating = true → exec (.canIntegrate n) s =
      .next ((s.setCan n { c with integrating := false }).canInto n .errorActive)) ∧
    (c.integrating = false → exec (.canIntegrate n) s = .next s) ∧
    (∀ src, s.judge src (canCmd pg) 1 = none →
      exec (.canCntClr src n) s = .next ((s.wr (canCntFrm pg) 0).wr (canCntErr pg) 0))

/-- FIELD_FILTER_TICK completes in every module that is up, for each of the eight groups and every state of its pins.
While the group's supply is bad a tick only shows the pins. Otherwise each input channel's counter moves by one within
0 and N, its filtered state sets at N, clears at 0 and otherwise stays; a first setting takes the pin at once and is
no change; a channel that is not an input reads 0. The recorded changes are those of input channels whose state
differs; one that a landing's button or an enabled edge makes a wake ends PARK; and then the buttons of the landings
follow: one whose filtered channel is active has its time started and, on a change to active once armed, waits for the
button slot; one inactive is armed, its time and its stuck mark ended. A change notes its channel, edge and time in
COS with its interrupt where its edge is enabled, and nothing where it is not. Rests on R132, R248, R249, R256, R363. -/
def Obligations.FieldInputsAreFiltered : Prop :=
  ∀ (s : State) (g : Nat) (raw : Word), s.up_ = true → 1 ≤ g → g ≤ 8 →
    let n := s.rf_ (fiogFilt (grpPage g)) 8 8
    ((s.grp g).supply.good = false → exec (.fieldFilterTick g raw) s = .next (s.setGrp g { s.grp g with raw := raw })) ∧
    ((s.grp g).supply.good = true →
      let u := (s.btnDisarm g).filterTick g raw
      let w := if s.sys.run = .park ∧ (s.filtChanges g raw).any (fun x => s.fieldWakes g x.1) = true then
        u.parkEnd .fieldOrCall else u
      exec (.fieldFilterTick g raw) s = .next (each w.landings w (fun t l => t.btnTick g (s.filtChanges g raw) l))) ∧
    (∀ i, i < 32 → s.chField g i 0 2 = 1 →
      (s.firstSetting g i = true → nth (s.filtQs g raw) i 0 = (if Word.bit raw i then n else 0) ∧
        nth (s.filtStates g raw) i false = Word.bit raw i ∧ ∀ x, (i, x) ∉ s.filtChanges g raw) ∧
      (s.firstSetting g i = false →
        let q := nth (s.filtQs g raw) i 0
        q = (if Word.bit raw i then min (nth (s.grp g).q i 0 + 1) n else min (nth (s.grp g).q i 0) n - 1) ∧
        nth (s.filtStates g raw) i false = (if q = n then true else if q = 0 then false else Word.bit (s.grp g).filt i) ∧
        ∀ x, (i, x) ∈ s.filtChanges g raw ↔
          (x = nth (s.filtStates g raw) i false ∧ x ≠ Word.bit (s.grp g).filt i))) ∧
    (∀ i, i < 32 → s.chField g i 0 2 ≠ 1 → nth (s.filtQs g raw) i 0 = 0 ∧ nth (s.filtStates g raw) i false = false ∧
      ∀ x, (i, x) ∉ s.filtChanges g raw) ∧
    (∀ l c ch, s.buttonCh l = some c → chGroup c = g → s.chField g (c % 32) 0 2 = 1 →
      let b := s.sch
      let changed := ch.contains (c % 32, true)
      (Word.bit (s.grp g).filt (c % 32) = true → changed = true ∨ alook b.btnOn l = none →
        s.btnTick g ch l = { s with sch := { b with
          btnOn := aput b.btnOn l s.tick
          btnPend := if changed && b.btnArmed.contains l then b.btnPend ++ [l] else b.btnPend } }) ∧
      (Word.bit (s.grp g).filt (c % 32) = true → changed = false → alook b.btnOn l ≠ none → s.btnTick g ch l = s) ∧
      (Word.bit (s.grp g).filt (c % 32) = false → b.btnArmed.contains l = true → alook b.btnOn l = none →
        s.btnTick g ch l = s) ∧
      (Word.bit (s.grp g).filt (c % 32) = false → b.btnArmed.contains l = false ∨ alook b.btnOn l ≠ none →
        s.btnTick g ch l = { s with sch := { b with
          btnOn := adel b.btnOn l, btnArmed := setIns b.btnArmed l, btnStuck := setDel b.btnStuck l } })) ∧
    (∀ l c ch, s.buttonCh l = none ∨ s.buttonCh l = some c ∧ (chGroup c ≠ g ∨ s.chField g (c % 32) 0 2 ≠ 1) →
      s.btnTick g ch l = s) ∧
    (∀ i up, let pg := grpPage g;
      (s.rb (if up then fiogCosRise pg else fiogCosFall pg) i = false → s.cosNote g i up = s) ∧
      (s.rb (if up then fiogCosRise pg else fiogCosFall pg) i = true → s.cosNote g i up =
        ((((s.setGrp g { s.grp g with cosNow := Word.setBits (s.grp g).cosNow i 1 1 }).wf_ (fiogCos pg) i 1 1).wr
          (fiogCosLast pg) (pack [(0, 5, i), (5, 1, b2n up), (8, 24, s.us)])).raise pg 1)))

/-- In a module that is up, FIO_TSD, FIO_TSD_RECOVER, FIO_DIAG_CHANGE, GRP_OC, FIELD_SUPPLY_CHANGE and SILENCE_TIMEOUT
complete for every channel, group and operand, and FIO_OUT_SET, FIO_OUT_CLR, FIO_TSD_CLR, FIO_GRP_CLR, FIO_CHANNEL_CFG
and SIL_ACK for every source and value whose write is not refused. OUT_SET and OUT_CLR set and clear the named
commands of a group; those written without authority are remembered for its gain. A thermal shutdown latches on an
output channel, raises TSD and fires; cooling releases it where the latch is not asked for or its clear waits; TSD_CLR
clears what has cooled and marks the rest. A group over-current latches once, raises GRP_OC and fires until GRP_CLR. A
diagnostics bit of an output sets with its interrupt where it was 0 unless it is suspended, and clears without one. A
supply level that changes raises SUPPLY_CHG, the first measurement and an unchanged level do not. A channel leaving
OUTPUT loses its command, protection and diagnostics bits, one becoming INPUT renews its filter, one that is no input
has its filtered state cleared. A missed silence deadline sets SILENT with SILENCE and its record; SIL_ACK takes the
safe states as commands while SILENT and restarts the timer where SIL_EN is set. Where a condition does not hold,
nothing happens. Rests on R251, R252, R254, R255, R256, R257. -/
def Obligations.FieldOutputsAndProtection : Prop :=
  ∀ (s : State) (g : Nat), s.up_ = true → 1 ≤ g → g ≤ 8 →
    let f := s.grp g
    let pg := grpPage g
    (∀ src v, let noted := if s.authority then f.wrote else f.wrote ||| v;
      (s.judge src (fiogOutSet pg) v = none →
        exec (.fioOutSet src g v) s = .next (s.setGrp g { f with out := f.out ||| v, wrote := noted })) ∧
      (s.judge src (fiogOutClr pg) v = none →
        exec (.fioOutClr src g v) s = .next (s.setGrp g { f with out := f.out &&& ~~~v, wrote := noted })) ∧
      (s.judge src (fiogTsdClr pg) v = none → exec (.fioTsdClr src g v) s =
        .next (s.setGrp g { f with tsd := f.tsd &&& ~~~(v &&& ~~~f.tsdHot), tsdClr := f.tsdClr ||| (v &&& f.tsdHot) }))) ∧
    (∀ c, c < 256 → chGroup c = g →
      (s.chField g (c % 32) 0 2 = 2 → exec (.fioTsd c) s = .next (((s.setGrp g { f with
        tsd := Word.setBits f.tsd (c % 32) 1 1, tsdHot := Word.setBits f.tsdHot (c % 32) 1 1 }).raise pg 5).fire 0xC
          (pack [(0, 8, c)]))) ∧
      (s.chField g (c % 32) 0 2 ≠ 2 → exec (.fioTsd c) s = .next s) ∧
      (Word.bit f.tsdHot (c % 32) = true → exec (.fioTsdRecover c) s = .next (s.setGrp g { f with
        tsdHot := Word.setBits f.tsdHot (c % 32) 1 0, tsdClr := Word.setBits f.tsdClr (c % 32) 1 0
        tsd := if s.chField g (c % 32) 6 1 = 0 ∨ Word.bit f.tsdClr (c % 32) = true then Word.setBits f.tsd (c % 32) 1 0
          else f.tsd })) ∧
      (Word.bit f.tsdHot (c % 32) = false → exec (.fioTsdRecover c) s = .next s) ∧
      (∀ k, let on (b : Bool) : State := s.setGrp g (f.setDiag k (c % 32) b)
        let out := s.chField g (c % 32) 0 2 = 2;
        (out → s.diagSuspended g (c % 32) k = false → f.diag k (c % 32) = false →
          exec (.fioDiagChange c k true) s = .next ((on true).raise pg (diagIrq k))) ∧
        (out → s.diagSuspended g (c % 32) k = false → f.diag k (c % 32) = true →
          exec (.fioDiagChange c k true) s = .next (on true)) ∧
        (out → s.diagSuspended g (c % 32) k = true → exec (.fioDiagChange c k true) s = .next s) ∧
        (out → exec (.fioDiagChange c k false) s = .next (on false)) ∧
        (¬ out → ∀ p, exec (.fioDiagChange c k p) s = .next s))) ∧
    (f.grpOc = false → exec (.grpOc g) s =
      .next (((s.setGrp g { f with grpOc := true }).raise pg 7).fire 0xC (pack [(0, 8, (g - 1) * 32), (8, 1, 1)]))) ∧
    (f.grpOc = true → exec (.grpOc g) s = .next s) ∧
    (∀ src, s.judge src (fiogCmd pg) 1 = none → exec (.fioGrpClr src g) s = .next (s.setGrp g { f with grpOc := false })) ∧
    (∀ mv, let lvl := supplyLevel (if f.seen then f.supply else .ok) mv
      let t := s.setGrp g { f with supply := lvl, mv := mv, seen := true };
      (f.seen = true ∧ lvl ≠ f.supply → exec (.fieldSupplyChange g mv) s = .next (t.raise pg 2)) ∧
      (f.seen = false ∨ lvl = f.supply → exec (.fieldSupplyChange g mv) s = .next t)) ∧
    (∀ src c v, c < 256 → chGroup c = g → let a := fiogChCfg pg + 4 * (c % 32)
      s.judge src a v = none → ∀ r, regAt a = some r →
        let w := v &&& r.keepMask
        let clr (x : Word) : Word := if Word.bits w 0 2 ≠ 2 then Word.setBits x (c % 32) 1 0 else x
        exec (.fioChannelCfg src c v) s = .next ((s.wr a w).setGrp g { f with
          out := if s.chField g (c % 32) 0 2 = 2 then clr f.out else f.out
          renew := if s.chField g (c % 32) 0 2 ≠ 1 ∧ Word.bits w 0 2 = 1 then Word.setBits f.renew (c % 32) 1 1 else f.renew
          filt := if Word.bits w 0 2 ≠ 1 then Word.setBits f.filt (c % 32) 1 0 else f.filt
          tsd := clr f.tsd, dOpen := clr f.dOpen, dSvf := clr f.dSvf, dClim := clr f.dClim, dOvl := clr f.dOvl })) ∧
    (∀ d, s.sil.deadline = some d →
      (s.sil.silent = false ∧ d < s.us →
        exec .silenceTimeout s = .next ((({ s with sil := ⟨none, true⟩ } : State).raise pgFio 1).fire 0xD 0)) ∧
      (s.sil.silent = true ∨ s.us ≤ d → exec .silenceTimeout s = .next s)) ∧
    (s.sil.deadline = none → exec .silenceTimeout s = .next s) ∧
    (∀ src, s.judge src fioCmd 1 = none → exec (.silAck src) s =
      .next { (if s.sil.silent then s.safeOutputs else s) with
        sil := ⟨if s.rb fioCfg 0 then some (s.us + 1000 * s.rn fioSilenceMs) else none, false⟩ })

/-- In a module that is up, BAND_CHANGE, PRESENT_STABLE, PRESENT_OPEN, CLAIM, CLAIM_SETTLE_END, ISOLATED_EXIT, ECHO_WINDOW
and ECHO_STOP complete in every state, for every loop current and time. A current in the band it had, or held for less
than 3.0 ms, only shows; but an LC-2560-S whose latch is set clears it at once when the current leaves 1,000 to 3,000
µA, and is ISOLATED presenting PRESENT. A new band held for 3.0 ms restarts the claim timer and raises BAND_CHG, and
ends PARK. Before the contact is stable nothing more follows. With the latch set, an LC-2560-D passes from SOLO to
ACTIVE on PRESENT, telling its mirror everything, and from ACTIVE to SOLO on ABSENT; a band that claims or shows a
wiring fault clears the latch and presents PRESENT, or on the fault is ISOLATED presenting ECHO; a claim that fails so
within its settle time keeps its role, and otherwise the module is STANDBY. An LC-2560-S clears its latch on every
band but ABSENT and is ISOLATED. With the latch clear, a STANDBY that meets a band that it does not take is ISOLATED,
an ISOLATED module keeps the times since which it has read a band and one it takes, and echoes again on a wiring
fault, and any other role stays. A contact stable for 200 ms makes the module STANDBY on a band it takes and ISOLATED
otherwise, echoing on a wiring fault; the contact opening takes latch, link and role. A claim whose conditions have
held for its time sets the latch, presents CLAIMING and opens the settle time; the end of that time makes the module
SOLO or ACTIVE and takes up the car. ISOLATED ends in STANDBY once a band it takes has stood for 1 s; echoing opens
its window once a second and stops after 10 ms of a valid band. Where a condition does not hold, nothing happens.
Rests on R6, R282, R283, R286, R287, R294, R366, Table 15.3. -/
def Obligations.AuthorityIsClaimedAndLost : Prop :=
  ∀ s : State, s.up_ = true →
    let p := s.part
    let d := s.sys.ordD
    let b (ua : Nat) : Band := bandOf ua
    let shown (ua : Nat) : State := { s with part := { p with loopUa := ua } }
    let fresh := p.mirror.doors.isSome && decide (s.tick ≤ p.goodAt + 80)
    let s1 (ua : Nat) : State := ({ s with part := { p with
      band := b ua, loopUa := ua, bandAt := s.tick, claimAt := none
      doorsOk := if p.band = Band.claiming then fresh else p.doorsOk } } : State).raise pgPart 2
    let isol (t : State) (q : Present) : Prop := t.part.role = .isolated ∧ t.part.pres = q
    let keeps (ua : Nat) (t : State) : Prop := t.part.role = .isolated ∧
      t.part.pres = (if (b ua).wiring && p.readAt.isSome then .echo else p.pres) ∧
      t.part.readAt = (if (b ua).wiring then none else some (p.readAt.getD s.tick)) ∧
      t.part.validAt = (if s.bandGood (b ua) then some (p.validAt.getD s.tick) else none)
    let small : Parts := { rf := true, irqNow := true, part := true, rcd := true }
    (∀ ua held, p.band = b ua ∨ held < 3000 →
      (d = true ∨ p.latch = false ∨ 1000 ≤ ua ∧ ua ≤ 3000 → exec (.bandChange ua held) s = .next (shown ua)) ∧
      (d = false → p.latch = true → ua < 1000 ∨ 3000 < ua → ∃ t, exec (.bandChange ua held) s = .next t ∧
        isol t .present ∧ t.part.latch = false ∧ t.part.settle = none ∧ t.part.validAt = some s.tick)) ∧
    (∀ ua held, p.band ≠ b ua → 3000 ≤ held →
      (p.stable = false → exec (.bandChange ua held) s = .next ((s1 ua).parkEnd .safetyOrBand)) ∧
      (p.stable = true → p.latch = true →
        (d = true → b ua = .present → p.role = .solo → exec (.bandChange ua held) s =
          .next (({ (s1 ua).setRole .active with part := { ((s1 ua).setRole .active).part with told := none } } : State).parkEnd
            .safetyOrBand)) ∧
        (d = true → b ua = .absent → p.role = .active →
          exec (.bandChange ua held) s = .next (((s1 ua).setRole .solo).parkEnd .safetyOrBand)) ∧
        (d = true → b ua = .present ∧ p.role ≠ .solo ∨ b ua = .absent ∧ p.role ≠ .active →
          exec (.bandChange ua held) s = .next ((s1 ua).parkEnd .safetyOrBand)) ∧
        (d = true → b ua = .claiming → ∃ t, exec (.bandChange ua held) s = .next t ∧ t.part.latch = false ∧
          t.part.settle = none ∧ t.part.pres = .present ∧
          t.part.role = (if p.settle.isSome = true then p.role else .standby)) ∧
        (d = true → (b ua).wiring = true → ∃ t, exec (.bandChange ua held) s = .next t ∧ isol t .echo ∧
          t.part.latch = false ∧ t.part.settle = none) ∧
        (d = false → b ua = .absent → p.role ≠ .isolated →
          exec (.bandChange ua held) s = .next ((s1 ua).parkEnd .safetyOrBand)) ∧
        (d = false → b ua = .absent → p.role = .isolated → ∃ t, exec (.bandChange ua held) s = .next t ∧ keeps ua t) ∧
        (d = false → b ua ≠ .absent → ∃ t, exec (.bandChange ua held) s = .next t ∧
          isol t (if (b ua).wiring then .echo else .present) ∧ t.part.latch = false ∧ t.part.settle = none)) ∧
      (p.stable = true → p.latch = false →
        (p.role = .standby → (b ua).wiring = false → d = true ∨ b ua = .absent →
          exec (.bandChange ua held) s = .next ((s1 ua).parkEnd .safetyOrBand)) ∧
        (p.role = .standby → (b ua).wiring = true ∨ d = false ∧ b ua ≠ .absent → ∃ t, exec (.bandChange ua held) s = .next t ∧
          isol t (if (b ua).wiring then .echo else .present) ∧ t.part.latch = false) ∧
        (p.role = .isolated → ∃ t, exec (.bandChange ua held) s = .next t ∧ keeps ua t) ∧
        (p.role ≠ .standby → p.role ≠ .isolated →
          exec (.bandChange ua held) s = .next ((s1 ua).parkEnd .safetyOrBand)))) ∧
    (p.stable = true → exec .presentStable s = .next s) ∧
    (p.stable = false →
      (s.bandGood p.band = true → ∃ t, exec .presentStable s = .next t ∧ t.part.role = .standby ∧ t.part.pres = .present ∧
        t.part.stable = true ∧ t.part.latch = p.latch ∧ Only small s t) ∧
      (s.bandGood p.band = false → ∃ t, exec .presentStable s = .next t ∧
        isol t (if p.band.wiring then .echo else .present) ∧ t.part.stable = true ∧ t.part.echoAt = s.tick ∧
        t.part.readAt = (if p.band.wiring then none else some s.tick) ∧ Only small s t)) ∧
    (∃ t, exec .presentOpen s = .next t ∧ t.part.latch = false ∧ t.part.role = .init ∧ t.part.pres = .noSink ∧
      t.part.stable = false ∧ t.part.linkUp = false ∧ t.part.sync = .none ∧ t.part.claimAt = none) ∧
    (∀ t0, p.claimAt = some t0 → s.claimMay = true → s.since t0 s.claimTicks = true →
      exec .claim s = .next { s with part := { p with
        pres := .claiming, window := none, latch := true, settle := some s.tick, claimAt := none } }) ∧
    (p.claimAt = none ∨ s.claimMay = false ∨ (∃ t0, p.claimAt = some t0 ∧ s.since t0 s.claimTicks = false) →
      exec .claim s = .next s) ∧
    (∀ t0, p.settle = some t0 → p.latch = true → s.since t0 160 = true → ∃ t, exec .claimSettleEnd s = .next t ∧
      t.part.latch = true ∧ t.part.settle = none ∧ t.part.role = (if p.band = .present then .active else .solo) ∧
      t.part.pres = p.pres ∧ t.part.sync = (if p.band = .present then p.sync else .none)) ∧
    (p.settle = none ∨ p.latch = false ∨ (∃ t0, p.settle = some t0 ∧ s.since t0 160 = false) →
      exec .claimSettleEnd s = .next s) ∧
    (∀ t0, p.role = .isolated → p.validAt = some t0 → s.since t0 16000 = true → s.bandGood p.band = true →
      ∃ t, exec .isolatedExit s = .next t ∧ t.part.role = .standby ∧ t.part.pres = .present ∧ t.part.latch = p.latch ∧
        Only small s t) ∧
    (p.role ≠ .isolated ∨ p.validAt = none ∨ s.bandGood p.band = false ∨
      (∃ t0, p.validAt = some t0 ∧ s.since t0 16000 = false) → exec .isolatedExit s = .next s) ∧
    (p.role = .isolated → p.pres = .echo → s.since p.echoAt 16000 = true →
      exec .echoWindow s = .next { s with part := { p with pres := .present, window := some s.tick, echoAt := s.tick } }) ∧
    (p.role ≠ .isolated ∨ p.pres ≠ .echo ∨ s.since p.echoAt 16000 = false → exec .echoWindow s = .next s) ∧
    (∀ t0, p.role = .isolated → p.readAt = some t0 → s.since t0 160 = true →
      exec .echoStop s = .next { s with part := { p with pres := .present, window := none } }) ∧
    (p.role ≠ .isolated ∨ p.readAt = none ∨ (∃ t0, p.readAt = some t0 ∧ s.since t0 160 = false) →
      exec .echoStop s = .next s)

/-- In a module that is up, MIRROR_EPOCH_RX, MIRROR_EPOCH_APPLY, MIRROR_STALE, PARTNER_LINK_DOWN, PARTNER_LINK_UP,
RESYNC_COMPLETE, ROLE_EXCHANGE and XCH_HOLD_END complete in every state and for every epoch, and XCH_NOW, PART_RESYNC
and PART_CNT_CLR for every source whose write is not refused. A holder of authority takes only the configuration of a
sound epoch. A standby first applies an epoch still waiting; it keeps a sound epoch that follows on, or any after a
rejoin, for the next tick; another is discarded and counted with its interrupt and, outside a resynchronisation, makes
it STALE and asks for an image. An epoch applied leaves its number and time, the slip and calibration of its POSN, the
larger of the counters, its configuration and the mark of a final segment; outside a resynchronisation its classes
join the mirror and the module is SYNCED, within one they join the shadow copy. An epoch more than 2.0 ms old makes a
SYNCED mirror STALE. The link's loss ends what waits; a standby is then STALE and its calls are those of the lit lamps
and of the riding entries, its hall calls and waiting entries those of the group list that name its car. The link's
return starts an image for a standby; the final segment swaps the shadow in. An exchange, due or commanded, sends a
final epoch, clears the latch, makes the module STANDBY and starts XCH_HOLD and the next due time; XCH_HOLD ends after
500 ms, with XCH_FAIL and its record unless the partner's claim has stood for 10 ms. RESYNC and CNT_CLR act at once.
Where a condition does not hold, nothing happens. Rests on R290, R291, R293, R295, R296, R299. -/
def Obligations.MirrorLinkAndExchange : Prop :=
  ∀ s : State, s.up_ = true →
    let p := s.part
    let hands (t : State) : Prop := t.part.latch = false ∧ t.part.role = .standby ∧ t.part.pres = .present ∧
      t.part.xchHold = some s.tick ∧ t.part.xchDueMs = 1000 * s.rn partXchPeriodS ∧
      t.part.txEpoch = (p.txEpoch + 1) % 4294967296 ∧ t.part.sent = s.mirrorSend.part.sent ∧
      Only { rf := true, irqNow := true, drv := true, doorF := true, doorR := true, el := true, can := true, part := true, rcd := true } s t
    let mine := s.bid.calls.filter (fun c => c.holder == some s.car)
    let lampOn (n : Nat) : Bool := Word.bit (s.lt n 0x10) 17 &&
      Word.bit (s.grp (Word.bits (s.lt n 0x10) 8 8 / 32 + 1)).raw (Word.bits (s.lt n 0x10) 8 8 % 32)
    (∀ e, p.linkUp = false ∨ s.sys.ordD = false ∨ s.authority = false ∧ p.role ≠ .standby → exec (.mirrorEpochRx e) s = .next s) ∧
    (∀ e, p.linkUp = true → s.sys.ordD = true → s.authority = true → exec (.mirrorEpochRx e) s =
      .next (match e.config with
        | some c => if e.crcOk = true then s.takeConfig c else s
        | none => s)) ∧
    (∀ e, p.linkUp = true → s.sys.ordD = true → s.authority = false → p.role = .standby →
      let u := s.epochApply
      let follows := u.part.rejoin = true ∨ e.number = (u.part.rxEpoch + 1) % 4294967296
      (p.pendEpoch = none → u = s) ∧
      (e.crcOk = true → follows → exec (.mirrorEpochRx e) s = .next { u with part := { u.part with pendEpoch := some e } }) ∧
      (e.crcOk = false ∨ ¬follows →
        (u.part.resyncing = true → exec (.mirrorEpochRx e) s = .next ((u.bump partCnt 24 8).raise pgPart 7)) ∧
        (u.part.resyncing = false → exec (.mirrorEpochRx e) s =
          .next (((u.bump partCnt 24 8).raise pgPart 7).setSync .stale).resyncNow))) ∧
    (p.pendEpoch = none → exec .mirrorEpochApply s = .next s) ∧
    (∀ e, p.pendEpoch = some e → ∃ t, exec .mirrorEpochApply s = .next t ∧
      t.part.pendEpoch = none ∧ t.part.rxEpoch = e.number ∧ t.part.rxAt = s.tick ∧ t.part.gotRx = true ∧ t.part.rejoin = false ∧
      t.part.segFinal = (p.segFinal || (e.finalSegment && p.resyncing)) ∧ t.part.resyncing = p.resyncing ∧
      t.pos.s = e.posn.s ∧ t.pos.kap = e.posn.kap ∧ t.pos.b = e.posn.b ∧
      (t.rcd.seqNext, t.rcd.pcycle, t.rcd.optime) = (match e.counters with
        | none => (s.rcd.seqNext, s.rcd.pcycle, s.rcd.optime)
        | some c => (max s.rcd.seqNext c.1, max s.rcd.pcycle c.2.1, max s.rcd.optime c.2.2)) ∧
      t.part.peerDigest = (if e.config.isSome then e.config else p.peerDigest) ∧
      (p.resyncing = true → t.part.shadow = some ((p.shadow.getD p.mirror).with e) ∧ t.part.mirror = p.mirror ∧
        t.part.sync = p.sync) ∧
      (p.resyncing = false → t.part.sync = .synced ∧ t.part.goodAt = s.tick ∧ t.part.mirror = p.mirror.with e)) ∧
    (p.sync = .synced → p.rxAt + 32 < s.tick →
      exec .mirrorStale s = .next (({ s with part := { p with sync := .stale } } : State).raise pgPart 3)) ∧
    (p.sync ≠ .synced ∨ s.tick ≤ p.rxAt + 32 → exec .mirrorStale s = .next s) ∧
    (p.linkUp = true → p.role ≠ .standby → exec .partnerLinkDown s =
      .next { s with part := { p with linkUp := false, resyncing := false, pendEpoch := none } }) ∧
    (p.linkUp = true → p.role = .standby → ∃ t, exec .partnerLinkDown s = .next t ∧
      t.part.linkUp = false ∧ t.part.resyncing = false ∧ t.part.pendEpoch = none ∧ t.part.sync = .stale ∧
      (∀ n, n ∈ t.sch.cc ↔ n ∈ s.landings ∧ lampOn n = true ∨ ∃ x ∈ s.sch.dests, x.2.state = .riding ∧ x.2.dst = n) ∧
      (∀ n, (n ∈ t.sch.hu ↔ ∃ c ∈ mine, keyType c.key = 0 ∧ keyLanding c.key = n) ∧
        (n ∈ t.sch.hd ↔ ∃ c ∈ mine, keyType c.key = 1 ∧ keyLanding c.key = n)) ∧
      t.sch.dests = (mine.filter (fun c => keyType c.key == 2)).mapIdx (fun i c =>
        (i, (⟨keyLanding c.key, c.dest, .waiting, c.seq, s.rcd.optime % 4294967296, some c.tag⟩ : Dest))) ∧
      Only { rf := true, irqNow := true, sch := true, part := true } s t) ∧
    (p.linkUp = false → exec .partnerLinkDown s = .next s) ∧
    (p.linkUp = false → s.sys.ordD = true →
      (p.role ≠ .standby → exec .partnerLinkUp s =
        .next { s with part := { p with linkUp := true, linkAt := s.tick, told := none } }) ∧
      (p.role = .standby → exec .partnerLinkUp s = .next { s with part := { p with
        linkUp := true, linkAt := s.tick, told := none, resyncing := true, rejoin := true, segFinal := false
        shadow := some p.mirror } })) ∧
    (p.linkUp = true ∨ s.sys.ordD = false → exec .partnerLinkUp s = .next s) ∧
    (p.resyncing = true → p.segFinal = true → exec .resyncComplete s =
      .next ((({ s with part := { p with
        resyncing := false, segFinal := false, shadow := none, goodAt := s.tick } } : State).takeMirror
          (p.shadow.getD p.mirror)).setSync .synced)) ∧
    (p.resyncing = false ∨ p.segFinal = false → exec .resyncComplete s = .next s) ∧
    (s.live = true → s.rb partCfg 0 = true → p.xchDueMs = 0 → s.xchMay = true →
      ∃ t, exec .roleExchange s = .next t ∧ hands t) ∧
    (s.live = false ∨ s.rb partCfg 0 = false ∨ p.xchDueMs ≠ 0 ∨ s.xchMay = false → exec .roleExchange s = .next s) ∧
    (∀ src, s.judge src partCmd 1 = none → ∃ t, exec (.xchNow src) s = .next t ∧ hands t) ∧
    (p.xchHold = none → exec .xchHoldEnd s = .next s) ∧
    (∀ t0, p.xchHold = some t0 →
      (s.since t0 8000 = false → exec .xchHoldEnd s = .next s) ∧
      (s.since t0 8000 = true → p.band = .claiming → s.since p.bandAt 160 = true →
        exec .xchHoldEnd s = .next { s with part := { p with xchHold := none } }) ∧
      (s.since t0 8000 = true → p.band ≠ .claiming ∨ s.since p.bandAt 160 = false →
        exec .xchHoldEnd s = .next
          (((({ s with part := { p with xchHold := none } } : State).raise pgPart 6)).fire 0xE
            ({ s with part := { p with xchHold := none } } : State).partStatusW))) ∧
    (∀ src, (s.judge src partCmd 2 = none → exec (.partResync src) s = .next { s with part := { p with
        resyncing := true, rejoin := true, segFinal := false, shadow := some p.mirror } }) ∧
      (s.judge src partCmd 4 = none → exec (.partCntClr src) s = .next (s.wr partCnt 0)))

/-- In a module that is up, RECORDS_LOST_STAGE, FLUSH_START, COUNTER_SAVE and FINAL_SAVE complete in every state, and
REC_WALL_SET, REC_FIRE, REC_FLUSH, REC_CNT_CLR and REC_READ for every source, slot and sequence number whose write is
not refused. Setting the wall clock stores the wall time less OPTIME as the offset and marks it valid; its CLOCK_SET
record holds the new offset and the one before, or the mark of none. A record that is staged takes the next SEQ and
carries the number of records lost since the one before it; while 63 places hold unwritten records it is lost and
counted; after the final save nothing is staged. A fired slot stages a HOST record with the slot's snapshot still to
read. The kept place takes the RECORDS_LOST record with the count and the first source lost. A flush starts with every
record staged now when one is due and none runs. FLUSH is remembered, a read waits for the next tick, CNT_CLR zeroes
REC_LOST. The counters are saved every 10 minutes of operating time. The final save comes 30 ms after the warning:
counters are stored, the estimate too where the profile is valid, and staging has ended unless LOGIC has recovered.
Where a condition does not hold, nothing happens. Rests on R55, R301, R304, R305, R307, R308, R309, R310, R311. -/
def Obligations.RecorderStagesAndKeeps : Prop :=
  ∀ s : State, s.up_ = true →
    let r := s.rcd
    let room := r.stopped = false ∧ r.unwritten.length < 63
    let few : Parts := { rf := true, irqNow := true, rcd := true }
    let staged (t : State) : Prop := t.rcd.seqNext = r.seqNext + 1 ∧ t.rcd.unwritten = r.unwritten ++ [r.seqNext] ∧ t.rcd.lostNew = 0
    let lost (t : State) : Prop := t.rcd.seqNext = r.seqNext ∧ t.rcd.unwritten = r.unwritten ∧ t.rcd.places = r.places ∧
      t.rcd.lostCnt = r.lostCnt + 1 ∧ t.rcd.lostNew = r.lostNew + 1 ∧
      t.rcd.lostSrc = (if r.lostCnt = 0 then 0 else r.lostSrc)
    let wallOfs : Int := ((s.rn recWallLo + 4294967296 * s.rn recWallHi : Nat) : Int) - r.optime
    (∀ src, s.judge src recCmd 2 = none → ∃ t, exec (.recWallSet src) s = .next t ∧ t.rcd.wallValid = true ∧
      t.rcd.wallOfs = wallOfs ∧ t.rcd.prevOfs = some wallOfs ∧ Only few s t ∧
      (room → staged t ∧ (alook t.rcd.places (r.seqNext % 64)).map (fun x => (x.typ, x.seq, x.lost, x.snap, x.todo)) =
        some (.clockSet, r.seqNext, r.lostNew, word64 wallOfs ++ (match r.prevOfs with
          | some o => word64 o
          | none => [0, 0x80000000]), [])) ∧
      (r.stopped = false → 63 ≤ r.unwritten.length → lost t) ∧
      (r.stopped = true → t.rcd = { r with wallValid := true, wallOfs := wallOfs, prevOfs := some wallOfs })) ∧
    (∀ src slot, s.judge src recCmd (pack [(2, 1, 1), (8, 6, slot)]) = none →
      (room → ∃ t, exec (.recFire src slot) s = .next t ∧ staged t ∧
        (alook t.rcd.places (r.seqNext % 64)).map (fun x => (x.typ, x.slot, x.seq, x.lost, x.todo)) =
          some (.host, slot % 64, r.seqNext, r.lostNew, s.snapList (slot % 64)) ∧ Only few s t) ∧
      (r.stopped = false → 63 ≤ r.unwritten.length → ∃ t, exec (.recFire src slot) s = .next t ∧ lost t ∧ Only few s t) ∧
      (r.stopped = true → exec (.recFire src slot) s = .next s)) ∧
    (r.lostCnt = 0 ∨ r.stopped = true ∨ 64 ≤ r.unwritten.length → exec .recordsLostStage s = .next s) ∧
    (r.lostCnt ≠ 0 → r.stopped = false → r.unwritten.length < 64 → ∃ t, exec .recordsLostStage s = .next t ∧
      t.rcd.lostCnt = 0 ∧ staged t ∧
      (alook t.rcd.places (r.seqNext % 64)).map (fun x => (x.typ, x.source, x.seq, x.lost)) =
        some (.recordsLost, r.lostSrc, r.seqNext, r.lostCnt) ∧ Only few s t) ∧
    (r.flushing = [] → s.flushDue = true → exec .flushStart s =
      .next { s with rcd := { r with flushing := r.unwritten, tries := 0, flushReq := false } }) ∧
    (r.flushing ≠ [] ∨ s.flushDue = false → exec .flushStart s = .next s) ∧
    (∀ src, s.judge src recCmd 1 = none →
      exec (.recFlush src) s = .next { s with rcd := { r with flushReq := true } }) ∧
    (∀ src, s.judge src recCmd 8 = none → exec (.recCntClr src) s = .next (s.wr recLost 0)) ∧
    (∀ src q, s.judge src recRdSeq q = none → exec (.recRead src q) s =
      .next { (s.wr recRdSeq q) with rcd := { r with rdPend := true } }) ∧
    (r.savedAt + 600000 ≤ r.optime → exec .counterSave s = .next { s with rcd := { r with
      savedOp := r.optime, savedAt := r.optime, savedSeq := r.seqNext } }) ∧
    (r.optime < r.savedAt + 600000 → exec .counterSave s = .next s) ∧
    (s.finalDue = true → ∃ t, exec .finalSave s = .next t ∧ t.rcd.stopped = s.sys.pfw.isSome ∧ t.rcd.finalAt = none ∧
      t.rcd.savedOp = t.rcd.optime ∧ t.rcd.savedSeq = t.rcd.seqNext ∧
      t.sys.posSaved = (if s.sys.profValid then some (s.pos.p, s.pos.s, s.pos.kap, s.pos.b) else s.sys.posSaved) ∧
      Only { rf := true, irqNow := true, rcd := true, sys := true } s t) ∧
    (s.finalDue = false → exec .finalSave s = .next s)

/-- In a module that is up, KEY_LOAD, KEY_UNLOAD, KEY_REPLACE, KEY_GENERATE, KEY_IMPORT, KEY_DERIVE, KEY_STORE_RES,
KEY_ERASE_RES, ATTEST_KEY, ATTEST_DEV, ID_PUB, NONCE, LC_TRANSITION, LC_RETURN, VERIFY and KEYMGMT complete for every
source and every command word whose write is not refused: where the word's OP is the row's, and for the life-cycle
commands its ARG, the command runs from the next tick with nothing else changed, and where it is not, nothing happens.
KEY_COMMAND_DONE completes in every state: with no command running, or one not ready, nothing happens, and one that is
ready ends with its code, slot and length in KEY_RESULT and DONE. At its end LOAD puts a sound blob into the lowest
free slot from 16, and fails with B_KEY where it does not unwrap, E_RANGE where its KEY_ID is loaded and E_FULL with
no free slot; UNLOAD clears a loaded slot and fails with B_KEY on another; STORE_RES and ERASE_RES write and erase a
resident blob; ID_PUB gives the identity's public key; NONCE leaves a new nonce; VERIFY gives the object's code; an
attestation that committed no index fails with its code. Rests on R315, R319, R321, R323, R329, Table 17.6. -/
def Obligations.KeyCommandsRunAndEnd : Prop :=
  ∀ s : State, s.up_ = true →
    (∀ src cmd, s.judge src keyCmd cmd = none →
      let op := Word.bits cmd 0 8
      let arg := Word.bits cmd 24 8
      let runs (k : Nat) (o : Host.Outcome State Fault Refusal) : Prop :=
        (op = k → o = .next { s with key := { s.key with job := some ⟨cmd, src, s.tick, none, none⟩ } }) ∧
        (op ≠ k → o = .next s)
      runs 1 (exec (.keyLoad src cmd) s) ∧ runs 2 (exec (.keyUnload src cmd) s) ∧ runs 3 (exec (.keyReplace src cmd) s) ∧
      runs 4 (exec (.keyGenerate src cmd) s) ∧ runs 5 (exec (.keyImport src cmd) s) ∧ runs 6 (exec (.keyDerive src cmd) s) ∧
      runs 7 (exec (.keyStoreRes src cmd) s) ∧ runs 8 (exec (.keyEraseRes src cmd) s) ∧ runs 9 (exec (.attestKey src cmd) s) ∧
      runs 10 (exec (.attestDev src cmd) s) ∧ runs 11 (exec (.idPub src cmd) s) ∧ runs 12 (exec (.nonce src cmd) s) ∧
      (arg ≠ 0x10 → runs 13 (exec (.lcTransition src cmd) s)) ∧ (arg = 0x10 → exec (.lcTransition src cmd) s = .next s) ∧
      (arg = 0x10 → runs 13 (exec (.lcReturn src cmd) s)) ∧ (arg ≠ 0x10 → exec (.lcReturn src cmd) s = .next s) ∧
      runs 14 (exec (.verify src cmd) s) ∧ runs 15 (exec (.keymgmt src cmd) s)) ∧
    (s.key.job = none → exec .keyCommandDone s = .next s) ∧
    (∀ j, s.key.job = some j →
      let op := Word.bits j.cmd 0 8
      let slot := Word.bits j.cmd 8 6
      let n := Word.bits j.cmd 16 4
      let blob := s.keyBuf 80
      let out := s.keyRun j
      (s.keyReady j = false → exec .keyCommandDone s = .next s) ∧
      (s.keyReady j = true → ∃ t, exec .keyCommandDone s = .next t ∧ t.key.job = none ∧
        t.key.result = pack [(0, 8, out.code), (8, 6, out.slot), (16, 16, ((out.out.map List.length).getD 0))] ∧
        (op = 12 → t.key.nonce = s.randBytes 16 ∧ t.key.slots = s.key.slots ∧ out.code = 0)) ∧
      (op = 1 → (s.unwrap j.src.port blob = none → out = ⟨s, 0xB, 0, none⟩) ∧
        (∀ k p, s.unwrap j.src.port blob = some (k, p) →
          ((s.slotOfId (leNat (slice blob 0 2))).isSome = true → out = ⟨s, 2, 0, none⟩) ∧
          (s.slotOfId (leNat (slice blob 0 2)) = none → (∀ i, i < 48 → (alook s.key.slots (16 + i)).isSome = true) →
            out = ⟨s, 0xD, 0, none⟩) ∧
          (∀ i, i < 48 → s.slotOfId (leNat (slice blob 0 2)) = none → alook s.key.slots (16 + i) = none →
            (∀ m, m < i → (alook s.key.slots (16 + m)).isSome = true) →
            out = ⟨s.putSlot (16 + i) (blob.take 16) k false p, 0, 16 + i, none⟩))) ∧
      (op = 2 → (s.slotKey slot = none → out = ⟨s, 0xB, 0, none⟩) ∧
        ((s.slotKey slot).isSome = true → out = ⟨s.dropSlot slot, 0, slot, none⟩)) ∧
      (op = 7 → (blobOk blob = false → out = ⟨s, 1, 0, none⟩) ∧
        (blobOk blob = true → out = ⟨{ s with key := { s.key with resident := aput s.key.resident n blob } }, 0, 0, none⟩)) ∧
      (op = 8 → out = ⟨{ s with key := { s.key with resident := adel s.key.resident n } }, 0, 0, none⟩) ∧
      (op = 9 ∨ op = 10 → j.idx = none → out = ⟨s, j.code.getD 0xB, 0, none⟩) ∧
      (op = 11 → s.key.secOff = false → s.idxLost = false → (lcName s.lc).isSome = true →
        out = ⟨s, 0, 0, some (padData (Config.hssPublic s.key.idSeed s.key.idI) 60)⟩) ∧
      (op = 14 → out.code = s.objectCode s.bufObject 8192))

/-- In a module that is up, KEY_SWAP, KEY_REMASK, ID_READY, LOWER_TREE_BUILD, SERVICE_EXPIRY and ENROLMENT complete in
every state and for every operand, and TAMPER_RELEASE for every source whose write is not refused. A verified
replacement is swapped in when no operation uses its slot. Masks are renewed when their time has come. The identity
becomes ready, and again after a lower tree is built. SERVICE ends when its operating time is over, for the state
before it. Enrolment in BLANK makes the state VENDOR with the helper data and two root keys given; elsewhere it does
nothing. TAMPER_EVENT completes in every state for every set of sources: in a module that is powered a new active
enabled source sets TAMPERED, zeroises every volatile key, ends the running command with E_TAMPER and latches its
cause, and a module in DEEP starts with that kept; a source already active or not enabled only shows; in one that is
not powered nothing happens. A release with a failing object gives its code and leaves the latch; a sound one clears
it and derives the roots again. Where a condition does not hold, nothing happens. Rests on R313, R315, R316, R324,
R325, R328, R331, R332, R333. -/
def Obligations.KeyEventsAndTamper : Prop :=
  ∀ s : State,
    (s.up_ = true →
      (∀ n k h x, alook s.key.slots n = some k → k.shadow = some (h, x) →
        (s.jobUses n = false → exec (.keySwap n) s =
          .next (((s.sessEndSlot n).orphanChildren 64 n).putSlot n h x k.resident k.parent)) ∧
        (s.jobUses n = true → exec (.keySwap n) s = .next s)) ∧
      (∀ n, (alook s.key.slots n).bind KeySlot.shadow = none → exec (.keySwap n) s = .next s) ∧
      (s.key.remaskAt + msTicks (s.rn keyRemaskMs) ≤ s.tick → ∃ t, exec .keyRemask s = .next t ∧ t.key.remaskAt = s.tick ∧
        Only { fresh := true, key := true } s t) ∧
      (s.tick < s.key.remaskAt + msTicks (s.rn keyRemaskMs) → exec .keyRemask s = .next s) ∧
      (s.key.rootOk = true → (lcName s.lc).isSome = true → s.idxLost = false → s.key.lowerBuild = none →
        exec .idReady s = .next { s with key := { s.key with idReady := true } }) ∧
      (s.key.rootOk = false ∨ lcName s.lc = none ∨ s.idxLost = true ∨ s.key.lowerBuild.isSome = true →
        exec .idReady s = .next s) ∧
      (s.key.lowerBuild.isSome = true → exec .lowerTreeBuild s = .next { s with key := { s.key with
        lowerBuild := none, idReady := s.key.rootOk && (lcName s.lc).isSome && !s.idxLost } }) ∧
      (s.key.lowerBuild = none → exec .lowerTreeBuild s = .next s) ∧
      (∀ t0, s.key.service = some t0 → (t0 ≤ s.rcd.optime → ∃ t, exec .serviceExpiry s = .next t ∧ t.key.service = none ∧
          t.key.lcOtp = s.key.lcOtp ∧ Only { rf := true, irqNow := true, fresh := true, key := true, host := true } s t) ∧
        (s.rcd.optime < t0 → exec .serviceExpiry s = .next s)) ∧
      (s.key.service = none → exec .serviceExpiry s = .next s) ∧
      (∀ helper roots, (s.key.lcOtp = .blank → ∃ t, exec (.enrolment helper roots) s = .next t ∧ t.key.lcOtp = .vendor ∧
          t.key.helper = helper ∧ t.key.service = none ∧
          t.key.vendorKeys = (List.range 2).map (fun i => match roots[i]? with
            | some k => (⟨true, false, k⟩ : PubKey)
            | none => ⟨false, false, []⟩) ∧
          Only { rf := true, irqNow := true, fresh := true, key := true, host := true } s t) ∧
        (s.key.lcOtp ≠ .blank → exec (.enrolment helper roots) s = .next s)) ∧
      (∀ src, s.judge src tampCmd 1 = none →
        let o := s.bufObject
        let code := if byteAt o 4 ≠ 4 then 1 else s.objectCode o 8192
        (code ≠ 0 ∨ s.tamp.tampered = false → exec (.tamperRelease src) s =
          .next { s with key := { s.key with result := pack [(0, 8, code)] } }) ∧
        (code = 0 → s.tamp.tampered = true → exec (.tamperRelease src) s =
          .next ((({ s with
            key := { s.key with result := pack [(0, 8, 0)] }, tamp := { s.tamp with tampered := false } } : State).raise pgTamp
              2).deriveRoot)))) ∧
    (∀ m : BitVec 4,
      let act := m.toNat &&& s.tampEnabled
      let new := act &&& ((15 : Nat) ^^^ (s.tamp.active.toNat &&& s.tampEnabled))
      (s.sys.run = .unpowered → exec (.tamperEvent m) s = .next s) ∧
      (s.sys.run ≠ .unpowered → new = 0 → exec (.tamperEvent m) s = .next { s with tamp := { s.tamp with active := m } }) ∧
      (s.sys.run ≠ .unpowered → s.sys.run ≠ .deep → new ≠ 0 → ∃ t, exec (.tamperEvent m) s = .next t ∧
        t.tamp.tampered = true ∧ t.tamp.active = m ∧ t.tamp.cause = BitVec.ofNat 4 act ∧ t.key.root = [] ∧ t.key.wrap = [] ∧
        t.key.slots = [] ∧ t.key.rootOk = false ∧ t.key.nonce = [] ∧ t.key.job = none ∧
        (s.key.job.isSome = true → t.key.result = pack [(0, 8, 0xF)])) ∧
      (s.sys.run = .deep → new ≠ 0 → ∃ t, exec (.tamperEvent m) s = .next t ∧
        t.tamp.tampered = true ∧ t.tamp.cause = BitVec.ofNat 4 act ∧ t.sys.run = State.reset.sys.run))

/-- START_ATTEMPT completes in every state and for every measurement, CLOCK_HOLD_END and GATE_DRAIN_END in every state,
INVAR_WINDOW, XO_STOP, PLL_LOSS_OF_LOCK, IRC_TRIM, IRC_FAIL, FALLBACK_ACC_1PCT and CLKOUT_RECONFIG in every module
that is up, and CLK_GATE_WRITE for every source and value whose write is not refused. The XO fails by amplitude, by a
stop or by its frequency, in that order; with XO good a start needs IRC-A in its window, the backup PLL and the root
PLL in time, and reaches RUN; an XO failure that comes after IRC-A's qualification, with IRC-A in its window and the
backup PLL locked, reaches RUN in fallback (which failures come after it is the model's reading, log entry 233); every
other attempt fails with its cause. A failure adds one to the boot-failure word, at most to 9, with its cause, and
ends in CLOCK_HOLD, or in CLK_DEAD with DEAD set when eight retries are made. CLOCK_HOLD ends in a new attempt. A
window of the monitor counts; the second bad one in a row, an XO stop and a loss of the root's lock enter fallback, or
issue a CLK reset where IRC-A has failed; the backup's loss only shows, and in fallback resets. Fallback records its
cause and freezes the trim code. A trim step moves the code by one and fails IRC-A at an end; IRC-A's own failure
raises its interrupt once, and in fallback resets. The accuracy bit of fallback sets once after 600,000 ms. An
accepted gate write that stops no gate is made, one that stops a gate waits for its drain, which makes it or changes
nothing but the error. A CLKOUT setting is taken over at the end of a period. Where a condition does not hold, nothing
happens. Rests on R338, R339, R340, R341, R342, R343, R345, R346, R348. -/
def Obligations.ClocksStartMonitorAndGates : Prop :=
  (∀ i : StartIn,
      let irc := 19141 ≤ i.ircCycles ∧ i.ircCycles ≤ 19922
      let amp := ∃ t, i.xoAmpUs = some t ∧ t ≤ 20000
      let backup := ∃ t, i.backupLockUs = some t ∧ t ≤ 200
      let root := ∃ t, i.rootLockUs = some t ∧ t ≤ 200
      let xo := 51380 ≤ i.xoIrcCycles ∧ i.xoIrcCycles ≤ 53477
      (¬amp → xoCause i = some .xoNoAmp) ∧ (amp → i.xoStopped = true → xoCause i = some .xoStop) ∧
      (amp → i.xoStopped = false → ¬xo → xoCause i = some .xoFreq) ∧ (amp → i.xoStopped = false → xo → xoCause i = none) ∧
      (xoCause i = none → (¬irc → startOutcome i = (some .ircQual, false)) ∧
        (irc → ¬backup ∨ ¬root → startOutcome i = (some .pllLock, false)) ∧
        (irc → backup → root → startOutcome i = (none, false))) ∧
      (∀ c, xoCause i = some c →
        let late := (c = .xoFreq ∨ i.xoFailedAfterIrc = true) ∧ 32 < i.xoFailLpo
        (¬late → startOutcome i = (some c, false)) ∧ (late → ¬irc → startOutcome i = (some .ircQual, false)) ∧
        (late → irc → ¬backup → startOutcome i = (some .pllLock, false)) ∧
        (late → irc → backup → startOutcome i = (none, true)))) ∧
  ∀ s : State,
    (s.sys.run ≠ .attempt → ∀ i, exec (.startAttempt i) s = .next s) ∧
    (s.sys.run = .attempt → ∀ i,
      (∀ c fb, startOutcome i = (some c, fb) → ∃ t, exec (.startAttempt i) s = .next t ∧
        t.sys.run = (if 8 ≤ s.clk.retries then .clkDead else .clockHold) ∧
        Word.bits t.clk.bootWord 0 4 = min (Word.bits s.clk.bootWord 0 4 + 1) 9 ∧
        Word.bits t.clk.bootWord 4 4 = bootCode c ∧
        Word.bit t.clk.bootWord 8 = (decide (8 ≤ s.clk.retries) || Word.bit s.clk.bootWord 8) ∧
        Only { clk := true, sys := true } s t) ∧
      (∀ fb, startOutcome i = (none, fb) → ∃ t, exec (.startAttempt i) s = .next t ∧
        t.sys.run = .run ∧ t.clk.fallback = (fb || s.clk.fallback) ∧ t.clk.bootWord = 0 ∧
        (fb = true → s.clk.fallback = false → t.clk.cause = .xoStart))) ∧
    (s.sys.run = .clockHold → exec .clockHoldEnd s = .next { s with
      clk := { s.clk with retries := s.clk.retries + 1 }, sys := { s.sys with run := .attempt } }) ∧
    (s.sys.run ≠ .clockHold → exec .clockHoldEnd s = .next s) ∧
    (s.clk.fallback = false → ∀ c, ∃ t, s.fallback c = t ∧ t.clk.fallback = true ∧ t.clk.cause = c ∧ t.clk.frozen = true ∧
      t.clk.rootLock = false ∧ t.clk.bootWord = s.clk.bootWord ∧ t.sys = s.sys ∧ t.pos = s.pos) ∧
    (s.up_ = true → s.clk.fallback = false →
      (∀ n,
        let bad := if s.clk.ircFail then decide (n < 725 ∨ 801 < n) else decide (n < 1255 ∨ 1305 < n)
        let t : State := { s with clk := { s.clk with
          invarCount := n, invarFails := s.clk.invarFails + b2n bad, badWin := if bad then s.clk.badWin + 1 else 0 } }
        (bad = false ∨ s.clk.badWin = 0 → exec (.invarWindow n) s = .next t) ∧
        (bad = true → s.clk.badWin ≠ 0 → exec (.invarWindow n) s =
          .next (if s.clk.ircFail then t.resetBy .clk else t.fallback .freq))) ∧
      exec .xoStop s = .next (if s.clk.ircFail then s.resetBy .clk else s.fallback .stop) ∧
      exec (.pllLossOfLock false) s = .next (if s.clk.ircFail then s.resetBy .clk else s.fallback .pll) ∧
      exec (.pllLossOfLock true) s = .next { s with clk := { s.clk with backupLock := false } } ∧
      (s.clk.ircFail = false → ∀ b,
        let d := if b then min (s.rf_ clkTrim 0 10 + 1) 1023 else s.rf_ clkTrim 0 10 - 1
        (d ≠ 0 → d ≠ 1023 → exec (.ircTrim b) s = .next (s.wf_ clkTrim 0 10 d)) ∧
        (d = 0 ∨ d = 1023 → exec (.ircTrim b) s = .next (({ s.wf_ clkTrim 0 10 d with
          clk := { s.clk with ircFail := true, badWin := 0 } } : State).raise pgClk 2))) ∧
      (s.clk.ircFail = true → (∀ b, exec (.ircTrim b) s = .next s) ∧ exec .ircFail s = .next s) ∧
      (s.clk.ircFail = false → exec .ircFail s =
        .next (({ s with clk := { s.clk with ircFail := true, ircOk := false, badWin := 0 } } : State).raise pgClk 2)) ∧
      exec .fallbackAcc1pct s = .next s) ∧
    (s.up_ = true → s.clk.fallback = true → exec .ircFail s = .next (s.resetBy .clk) ∧ exec .xoStop s = .next s ∧
      (∀ n, exec (.invarWindow n) s = .next s) ∧ (∀ b, exec (.ircTrim b) s = .next s) ∧
      exec (.pllLossOfLock false) s = .next s ∧
      exec (.pllLossOfLock true) s = .next (({ s with clk := { s.clk with backupLock := false } } : State).resetBy .clk) ∧
      (s.clk.acc1 = false → 9600000 ≤ s.clk.fbTicks →
        exec .fallbackAcc1pct s = .next (({ s with clk := { s.clk with acc1 := true } } : State).raise pgClk 3)) ∧
      (s.clk.acc1 = true ∨ s.clk.fbTicks < 9600000 → exec .fallbackAcc1pct s = .next s)) ∧
    (s.up_ = true → ∀ src v, s.judge src clkGate v = none →
      (s.rd clkGate &&& ~~~v = 0 → exec (.clkGateWrite src v) s = .next (s.wr clkGate v)) ∧
      (s.rd clkGate &&& ~~~v ≠ 0 → exec (.clkGateWrite src v) s =
        .next { s with clk := { s.clk with drain := some (src.port, v) } })) ∧
    (s.up_ = true → ∀ port v, s.clk.drain = some (port, v) →
      exec (.gateDrainEnd true) s = .next (({ s with clk := { s.clk with drain := none } } : State).wr clkGate v) ∧
      ∃ t, exec (.gateDrainEnd false) s = .next t ∧ t.clk = { s.clk with drain := none } ∧
        (s.Canonical → t.rd clkGate = s.rd clkGate) ∧ Only { rf := true, irqNow := true, clk := true } s t) ∧
    (s.clk.drain = none ∨ s.up_ = false → ∀ b, exec (.gateDrainEnd b) s = .next s) ∧
    (s.up_ = true → ∀ w, s.clk.outPend = some w →
      exec .clkoutReconfig s = .next { s with clk := { s.clk with outCfg := w, outPend := none } }) ∧
    (s.clk.outPend = none ∨ s.up_ = false → exec .clkoutReconfig s = .next s)

/-- POWER_ON_RESET, WATCHDOG_RESET, CLK_RESET, SAFE_RESET, PART_RESET, PIN_RESET, BROWN_OUT_RESET, RESET_BUTTON_RELEASE,
RESET_BUTTON_STUCK, RESET_BUTTON_REARM, DEFERRED_PIN_RESET, POWER_FAIL_WARNING, POWER_RECOVERY, HOLDUP_READY,
AON_POWER_LOSS and BOR_START complete in every state and for every operand, and SOFT_RESET, in a module that is up,
for every source and command word whose write is not refused. A reset of the running module leaves the start attempt:
Electrum in START, no authority, no session, no call, no run, the stored calibration, an empty key store; a reset
requested in a running sequence is merged, the highest kind kept, and POR and BOR start it again; a module that is
dead, in DEEP or unpowered takes only POR and BOR. POR, WDOG, CLK and SAFE act at once, PART only in STANDBY or
ISOLATED, SOFT where its bit is set, PIN at standstill or with the strap, BOR fifty milliseconds after the warning, at
once without a hold-up, and in a module that is already down. The release of a press samples the strap; a press of 50
ms to 10 s resets at its release at a standstill or with the strap, else it is deferred with PIN_DEFER until
standstill, or for 30 s; a longer press sets STUCK and disarms the button until it is seen released. A supply below
16.0 V gives the warning once, ending the running key command, and 17.0 V ends it. The hold-up becomes ready. After a
brown-out a start follows while the always-on domain keeps its power. Where a condition does not hold, nothing
happens. Rests on R350, R351, R352, R353, R355, R356, R357, Table 19.1, Table 19.2. -/
def Obligations.ResetsAndSupply : Prop :=
  (∀ (s : State) (k : ResetKind) (ks : List ResetKind),
      let t := s.resetWith k ks
      t.sys.run = .attempt ∧ t.sys.kind = k ∧ t.sys.kinds = ks ∧ t.el.st = .start ∧ t.part.role = .init ∧ t.part.latch = false ∧
      t.host = HostP.reset ∧ t.key.slots = [] ∧ t.key.job = none ∧ t.key.service = none ∧
      t.mot = Mot.reset ∧ t.sch = Sch.reset ∧ t.pos = { Pos.reset with kap := t.pos.kap, b := t.pos.b } ∧
      (resetSaves k = false → (t.pos.kap, t.pos.b) = s.sys.kbSaved.getD (Pos.reset.kap, Pos.reset.b)) ∧
      t.bid = Bid.reset ∧ t.can = State.reset.can ∧
      t.key.lcOtp = s.key.lcOtp ∧ t.clk.bootWord = s.clk.bootWord ∧ t.sys.banks = s.sys.banks ∧
      t.tamp.tampered = s.tamp.tampered ∧ t.pending = s.pending) ∧
  ∀ s : State,
    (∀ k, let again := k = .por ∨ k = .bor
      let ks := k :: s.sys.kinds.filter (fun x => x != k)
      (s.up_ = true → s.resetBy k = s.resetWith k [k]) ∧
      (s.sys.run = .attempt ∨ s.sys.run = .clockHold → (again → s.resetBy k = s.resetWith k ks) ∧
        (¬again → s.resetBy k = { s with sys := { s.sys with
          kinds := ks, kind := if resetRank k < resetRank s.sys.kind then k else s.sys.kind } })) ∧
      (s.sys.run = .clkDead ∨ s.sys.run = .deep ∨ s.sys.run = .unpowered → (again → s.resetBy k = s.resetWith k [k]) ∧
        (¬again → s.resetBy k = s))) ∧
    exec .powerOnReset s = .next (s.resetBy .por) ∧ exec .watchdogReset s = .next (s.resetBy .wdog) ∧
    exec .clkReset s = .next (s.resetBy .clk) ∧
    (s.up_ = true → exec .safeReset s = .next ((s.trip 15).resetBy .safe)) ∧
    (s.up_ = false → exec .safeReset s = .next (s.resetBy .safe)) ∧
    (s.part.role = .standby ∨ s.part.role = .isolated → exec .partReset s = .next (s.resetBy .part)) ∧
    (s.part.role ≠ .standby → s.part.role ≠ .isolated → exec .partReset s = .next s) ∧
    (s.up_ = true → ∀ src v, s.judge src sysCmd v = none → Word.bit v 0 = true → exec (.softReset src v) s =
      .next ((if Word.bit v 1 then s.profStoreNow (Word.bits v 2 2) else s).resetBy .soft)) ∧
    (∀ src v, Word.bit v 0 = false → exec (.softReset src v) s = .next s) ∧
    (s.up_ = false ∨ s.standstill = true ∨ s.sys.immediate = true → exec .pinReset s = .next (s.resetBy .pin)) ∧
    (s.up_ = true → s.standstill = false → s.sys.immediate = false → exec .pinReset s = .next s) ∧
    (∀ w, s.sys.pfw = some w →
      (s.since w 800 = true ∨ s.sys.holdup = false → exec .brownOutReset s = .next s.brownOut) ∧
      (s.since w 800 = false → s.sys.holdup = true → exec .brownOutReset s = .next s)) ∧
    (s.sys.pfw = none → (s.up_ = true → exec .brownOutReset s = .next s) ∧
      (s.up_ = false → exec .brownOutReset s = .next s.brownOut)) ∧
    (s.sys.run ≠ .unpowered →
      s.brownOut = { s.resetBy .bor with sys := { (s.resetBy .bor).sys with run := .unpowered } }) ∧
    (s.sys.run = .unpowered → s.brownOut = s) ∧
    (∀ ms imm, let u : State := { s with sys := { s.sys with immediate := imm } }
      (s.up_ = false → exec (.resetButtonRelease ms imm) s = .next s) ∧
      (s.up_ = true → s.sys.btnArmed = true → s.sys.pinDefer = none → 50 ≤ ms → ms ≤ 10000 →
        (imm = true ∨ s.standstill = true → exec (.resetButtonRelease ms imm) s = .next (u.resetBy .pin)) ∧
        (imm = false → s.standstill = false → exec (.resetButtonRelease ms imm) s =
          .next (({ u with sys := { u.sys with pinDefer := some s.tick } } : State).raise pgSys 3))) ∧
      (s.up_ = true → s.sys.btnArmed = false ∨ s.sys.pinDefer.isSome = true ∨ ms < 50 ∨ 10000 < ms →
        exec (.resetButtonRelease ms imm) s = .next u)) ∧
    (s.up_ = true → s.sys.btnArmed = true → s.sys.pinDefer = none → exec .resetButtonStuck s =
      .next (({ s with sys := { s.sys with stuck := true, btnArmed := false } } : State).raise pgSys 4)) ∧
    (s.up_ = false ∨ s.sys.btnArmed = false ∨ s.sys.pinDefer.isSome = true → exec .resetButtonStuck s = .next s) ∧
    (s.up_ = true → s.sys.btnArmed = false →
      exec .resetButtonRearm s = .next { s with sys := { s.sys with stuck := false, btnArmed := true } }) ∧
    (s.up_ = false ∨ s.sys.btnArmed = true → exec .resetButtonRearm s = .next s) ∧
    (s.up_ = true → ∀ w, s.sys.pinDefer = some w →
      (s.standstill = true → exec .deferredPinReset s = .next (s.resetBy .pin)) ∧
      (s.standstill = false → s.since w 480000 = true →
        exec .deferredPinReset s = .next ((s.motTrip.drvOff.spFollow).resetBy .pin)) ∧
      (s.standstill = false → s.since w 480000 = false → exec .deferredPinReset s = .next s)) ∧
    (s.sys.pinDefer = none ∨ s.up_ = false → exec .deferredPinReset s = .next s) ∧
    (s.up_ = true → s.sys.pfw = none → ∀ mv,
      (mv < 16000 → ∃ t, exec (.powerFailWarning mv) s = .next t ∧ t.sys = { s.sys with pfw := some s.tick, logicMv := mv } ∧
        t.rcd.finalAt = some s.tick ∧ t.key = { s.key with job := none } ∧
        Only { rf := true, irqNow := true, doorF := true, doorR := true, rcd := true, key := true, sys := true } s t) ∧
      (16000 ≤ mv → exec (.powerFailWarning mv) s = .next s)) ∧
    (∀ mv, (s.sys.pfw.isSome = true ∨ s.up_ = false → exec (.powerFailWarning mv) s = .next s) ∧
      (s.sys.pfw = none ∨ s.up_ = false → exec (.powerRecovery mv) s = .next s)) ∧
    (s.up_ = true → s.sys.pfw.isSome = true → ∀ mv,
      (17000 ≤ mv → ∃ t, exec (.powerRecovery mv) s = .next t ∧ t.sys = { s.sys with pfw := none, logicMv := mv } ∧
        t.rcd = { s.rcd with stopped := false } ∧ Only { rf := true, rcd := true, sys := true } s t) ∧
      (mv < 17000 → exec (.powerRecovery mv) s = .next s)) ∧
    (s.sys.run ≠ .unpowered → exec .holdupReady s = .next { s with sys := { s.sys with holdup := true } }) ∧
    (s.sys.run = .unpowered → exec .holdupReady s = .next s) ∧
    (s.sys.run ≠ .unpowered ∨ s.sys.aonPowered = false → exec .aonPowerLoss s = .next s ∧ exec .borStart s = .next s) ∧
    (s.sys.run = .unpowered → s.sys.aonPowered = true →
      exec .borStart s = .next { s with sys := { s.sys with run := .attempt } } ∧
      exec .aonPowerLoss s = .next { s with
        rf := s.rf.filter (fun e => regClass e.1 == .n), sys := { s.sys with aonPowered := false } })

/-- In a module that is up, PROF_DATA_WRITE, PROF_STORE, PROFILE_OVR_WRITE, PARK, PWR_RUN and DEEP complete for every
source and operand whose write is not refused, PROF_STORE_DONE and IMAGE_UPDATE in every state and for every operand;
AUTO_PARK, PARK_WAKE and DEEP_WAKE complete in every state. An accepted word for SYS_PROF_DATA goes to the staging
buffer at PTR, which advances by one. An accepted PROF_STORE is BUSY until its end, which writes the result, makes the
profile current where its checks and its write were good, reports the fault of the store otherwise (which one is
free), and raises PROF_DONE. SYS_PROFILE_OVR with EN arms and keeps ADOPTED, without EN it disarms and clears it.
PARK, commanded or by itself when its conditions have held, stops Bellmetal and puts the wakeable controllers to
sleep; its end returns to RUN with the cause. DEEP ends authority and the Sterling sink, and keeps the estimate of a
valid profile; a wake that its enables admit is a start with code 8. An image update ends with the code of its first
failing check, or 0; an accepted image is kept for the next start, and a refused one leaves the image held. Where a
condition does not hold, nothing happens. Rests on R3, R359, R360, R362, R363, R364, Table 14.4. -/
def Obligations.ProfilesAndPowerStates : Prop :=
  ∀ s : State,
    (s.up_ = true → ∀ src,
      (∀ v, s.judge src sysProfData v = none →
        (s.rn sysProfPtr < 5120 → exec (.profDataWrite src v) s =
          .next (({ s with sys := { s.sys with staging := s.sys.staging.put 0 (s.rn sysProfPtr) v } } : State).wn sysProfPtr
            (s.rn sysProfPtr + 1))) ∧
        (5120 ≤ s.rn sysProfPtr → exec (.profDataWrite src v) s = .next s)) ∧
      (∀ slot : BitVec 2, s.judge src sysCmd (pack [(1, 1, 1), (2, 2, slot.toNat)]) = none → ∃ b,
        exec (.profStore src slot) s = .next (({ s with sys := { s.sys with store := some (slot.toNat,
          (match s.storeFailure s.stagingBytes with
          | none => 0
          | some (i, c) => pack [(0, 8, c), (16, 16, i)]), b) } } : State).wr sysProfResult 0x100)) ∧
      (∀ v, s.judge src sysProfileOvr v = none → exec (.profileOvrWrite src v) s = .next { s.wr sysProfileOvr
          (pack [(0, 2, Word.bits v 0 2), (8, 1, b2n (Word.bit v 8)), (9, 1, if Word.bit v 8 then s.rf_ sysProfileOvr 9 1 else 0)]) with
        sys := if Word.bit v 8 then s.sys else { s.sys with slotOvr := false } }) ∧
      (s.judge src pwrCmd 1 = none → ∃ t, exec (.park src) s = .next t ∧ t.sys = { s.sys with run := .park, parkIdle := 0 } ∧
        t.mot = s.mot ∧ t.pos = s.pos ∧ t.sch = s.sch ∧ t.el = s.el ∧ t.host = s.host ∧ t.part = s.part) ∧
      (s.judge src pwrCmd 2 = none → s.sys.run = .park → ∃ t, exec (.pwrRun src) s = .next t ∧
        t.sys = { s.sys with run := .run, wake := .host, parkIdle := 0 } ∧
        t.mot = s.mot ∧ t.pos = s.pos ∧ t.sch = s.sch ∧ t.el = s.el) ∧
      (s.judge src pwrCmd 2 = none → s.sys.run = .run → exec (.pwrRun src) s = .next s) ∧
      (s.judge src pwrCmd 4 = none → ∃ t, exec (.deep src) s = .next t ∧ t.sys.run = .deep ∧ t.part.pres = .noSink ∧
        t.part.latch = false ∧ t.sys.posSaved = (if s.sys.profValid then some (s.pos.p, s.pos.s, s.pos.kap, s.pos.b) else
          s.sys.posSaved) ∧ t.key = s.key ∧ t.host = s.host)) ∧
    (s.up_ = true → ∀ slot res b, s.sys.store = some (slot, res, b) →
      let t : State := { s with sys := { s.sys with store := none } }
      (res ≠ 0 → ∀ ok, exec (.profStoreDone ok) s = .next ((t.wr sysProfResult res).raise pgSys 2)) ∧
      (res = 0 → exec (.profStoreDone true) s = .next
        ((({ t with sys := { t.sys with banks := aput s.sys.banks slot b } } : State).wr sysProfResult 0).raise pgSys 2)) ∧
      (res = 0 → exec (.profStoreDone false) s =
        .next ((t.wr sysProfResult (pack [(0, 8, reportable Config.storeFault)])).raise pgSys 2))) ∧
    (s.sys.store = none ∨ s.up_ = false → ∀ ok, exec (.profStoreDone ok) s = .next s) ∧
    (s.live = true → s.rb pwrCfg 1 = true → s.parkOk = true →
      (s.rn pwrParkIdleS * 16000 ≤ s.sys.parkIdle → exec .autoPark s = .next s.parkNow) ∧
      (s.sys.parkIdle < s.rn pwrParkIdleS * 16000 → exec .autoPark s = .next s)) ∧
    (s.live = false ∨ s.rb pwrCfg 1 = false ∨ s.parkOk = false → exec .autoPark s = .next s) ∧
    (∀ w, (s.sys.run = .park → s.parkWakes w = true → ∃ t, exec (.parkWake w) s = .next t ∧
        t.sys = { s.sys with run := .run, wake := w, parkIdle := 0 } ∧ t.mot = s.mot ∧ t.pos = s.pos ∧ t.el = s.el) ∧
      (s.sys.run ≠ .park ∨ s.parkWakes w = false → exec (.parkWake w) s = .next s)) ∧
    (∀ w, (s.sys.run = .deep → s.deepWakes w = true → ∃ t, exec (.deepWake w) s = .next t ∧
        t.sys.run = .attempt ∧ t.sys.kind = .deep ∧ t.sys.wake = w ∧ t.el.st = .start ∧ t.key.lcOtp = s.key.lcOtp) ∧
      (s.sys.run ≠ .deep ∨ s.deepWakes w = false → exec (.deepWake w) s = .next s)) ∧
    (∀ src o,
      let code := if s.tamp.tampered = true then 0xF else if src.world.rank < World.service.rank then 5
        else if byteAt o 4 ≠ 1 then 1 else s.objectCode o o.length
      (s.up_ = true → (code = 0 → exec (.imageUpdate src o) s =
          .next { s with sys := { s.sys with imgCode := 0, image := o, imgNew := true } }) ∧
        (code ≠ 0 → exec (.imageUpdate src o) s = .next { s with sys := { s.sys with imgCode := code } })) ∧
      (s.up_ = false → exec (.imageUpdate src o) s = .next s))
end

