-- ==== Sys2Proof/Laws/Command.lean ====
section
/-! SUPPORT. What a command that is a register write does: made where nothing refuses it, recorded where something does. -/

namespace Sys2Proof.Machine

/-- Nothing without a host port. -/
theorem State.command_down {s : State} {src : Src} {a : Nat} {v : Word} (hu : s.up_ = false) : s.command src a v = s := by
  unfold State.command
  rw [if_neg (by simp [hu])]

/-- An accepted write is made. -/
theorem State.command_accepted {s : State} {src : Src} {a : Nat} {v : Word} (hu : s.up_ = true)
    (hj : s.judge src a v = none) : s.command src a v = s.applyWrite src a v := by
  unfold State.command State.hostWrite
  rw [if_pos hu, hj]

/-- A refused write is recorded. -/
theorem State.command_refused {s : State} {src : Src} {a c : Nat} {v : Word} (hu : s.up_ = true)
    (hj : s.judge src a v = some c) : s.command src a v = s.refuse src a v c := by
  unfold State.command State.hostWrite
  rw [if_pos hu, hj]

/-- An accepted write to a block register acts by its page. -/
theorem State.applyWrite_page {s : State} {src : Src} {a : Nat} {v : Word} {r : RegSpec} (ha : a < 0x100000)
    (hh : s.applyHead (a / 4096) (a % 4096) v = none) (hr : regAt a = some r) :
    s.applyWrite src a v = s.applyPage src (a / 4096) (a % 4096) r v := by
  unfold State.applyWrite
  rw [if_pos ha, hh, hr]

/-- The command of an accepted write to a block register. -/
theorem State.command_page {s : State} {src : Src} {a : Nat} {v : Word} {r : RegSpec} (hu : s.up_ = true)
    (hj : s.judge src a v = none) (ha : a < 0x100000) (hh : s.applyHead (a / 4096) (a % 4096) v = none)
    (hr : regAt a = some r) : s.command src a v = s.applyPage src (a / 4096) (a % 4096) r v := by
  rw [State.command_accepted hu hj, State.applyWrite_page ha hh hr]

/-- Where a code is reported, it is one of those found, and none of the others goes before it. -/
theorem firstCode_spec {l : List Nat} {c : Nat} (h : firstCode l = some c) :
    c ∈ l ∧ ∀ d ∈ l, errRank c ≤ errRank d := by
  induction l generalizing c with
  | nil => simp [firstCode] at h
  | cons x r ih =>
    unfold firstCode at h
    cases hr : firstCode r with
    | none =>
      have hn : r = [] := by
        cases r with
        | nil => rfl
        | cons y q =>
          exfalso
          unfold firstCode at hr
          split at hr
          · simp at hr
          · split at hr <;> simp at hr
      rw [hr] at h
      simp only [Option.some.injEq] at h
      subst h; subst hn
      simp
    | some d =>
      obtain ⟨hm, hl⟩ := ih hr
      rw [hr] at h
      simp only at h
      split at h <;> rename_i hlt <;> simp only [Option.some.injEq] at h <;> subst h
      · exact ⟨List.mem_cons_of_mem _ hm, fun e he => by
          rcases List.mem_cons.1 he with rfl | he
          · omega
          · exact hl e he⟩
      · exact ⟨List.mem_cons_self, fun e he => by
          rcases List.mem_cons.1 he with rfl | he
          · omega
          · have := hl e he; omega⟩

end Sys2Proof.Machine
end

