-- ==== Sys2Proof/Laws/Keeps.lean ====
section
/-! SUPPORT. Laws of the word store (a write reads back, leaves every other word alone and keeps the canonical form), and
`Keeps s t`: what every operation of the model keeps on the way from `s` to `t`. -/

namespace Sys2Proof.Machine

/-- Canonical form, entry by entry: the first address lies below every other. -/
theorem Cells.wf_cons {d : Nat → Word} {a : Nat} {w : Word} {c : Cells} :
    Cells.wf d ((a, w) :: c) = true ↔ w ≠ d a ∧ (∀ p ∈ c, a < p.1) ∧ Cells.wf d c = true := by
  induction c generalizing a w with
  | nil => simp [Cells.wf]
  | cons p r ih =>
    obtain ⟨b, v⟩ := p
    have hr := ih (a := b) (w := v)
    simp only [Cells.wf, Bool.and_eq_true, decide_eq_true_eq, bne_iff_ne, ne_eq]
    constructor
    · rintro ⟨⟨h1, h2⟩, h3⟩
      refine ⟨h2, ?_, h3⟩
      intro p hp
      rcases List.mem_cons.1 hp with rfl | hp
      · exact h1
      · exact h1.trans ((hr.1 h3).2.1 p hp)
    · rintro ⟨h1, h2, h3⟩
      exact ⟨⟨h2 _ (List.mem_cons_self), h1⟩, h3⟩

/-- What a write lists: entries of before, or the entry written. -/
theorem Cells.mem_put {e : Word} {c : Cells} {a : Nat} {w : Word} {p : Nat × Word} (h : p ∈ c.put e a w) :
    p ∈ c ∨ p = (a, w) := by
  induction c with
  | nil => simp only [Cells.put] at h; split at h <;> simp_all
  | cons q r ih =>
    obtain ⟨b, v⟩ := q
    simp only [Cells.put] at h
    split at h
    · split at h <;> simp_all <;> tauto
    · split at h
      · split at h <;> simp_all <;> tauto
      · rcases List.mem_cons.1 h with h | h
        · simp [h]
        · rcases ih h with h | h <;> simp [h]

/-- A write keeps the canonical form. -/
theorem Cells.wf_put {d : Nat → Word} {c : Cells} {a : Nat} {w : Word} (h : Cells.wf d c = true) :
    Cells.wf d (c.put (d a) a w) = true := by
  induction c with
  | nil => simp only [Cells.put]; split <;> simp_all [Cells.wf]
  | cons q r ih =>
    obtain ⟨b, v⟩ := q
    obtain ⟨h1, h2, h3⟩ := Cells.wf_cons.1 h
    simp only [Cells.put]
    split
    · split
      · exact h
      · rename_i hab hw
        refine Cells.wf_cons.2 ⟨hw, ?_, h⟩
        intro p hp
        rcases List.mem_cons.1 hp with rfl | hp
        · exact hab
        · exact hab.trans (h2 p hp)
    · split
      · split
        · exact h3
        · rename_i hab hw
          subst hab
          exact Cells.wf_cons.2 ⟨hw, h2, h3⟩
      · rename_i h4 h5
        refine Cells.wf_cons.2 ⟨h1, ?_, ih h3⟩
        intro p hp
        rcases Cells.mem_put hp with hp | rfl
        · exact h2 p hp
        · exact (Nat.lt_of_le_of_ne (Nat.le_of_not_lt h4) (Ne.symm h5))

/-- Keeping some entries keeps the canonical form. -/
theorem Cells.wf_filter {d : Nat → Word} {c : Cells} (f : Nat × Word → Bool) (h : Cells.wf d c = true) :
    Cells.wf d (c.filter f) = true := by
  induction c with
  | nil => rfl
  | cons q r ih =>
    obtain ⟨a, w⟩ := q
    obtain ⟨h1, h2, h3⟩ := Cells.wf_cons.1 h
    simp only [List.filter_cons]
    split
    · exact Cells.wf_cons.2 ⟨h1, fun p hp => h2 p (List.mem_of_mem_filter hp), ih h3⟩
    · exact ih h3

/-- Every listed address of a canonical store lies above `a`: `a` is not listed. -/
theorem Cells.find_above {c : Cells} {a : Nat} (h : ∀ p ∈ c, a < p.1) : c.find a = none := by
  cases c with
  | nil => rfl
  | cons q r =>
    obtain ⟨b, v⟩ := q
    simp [Cells.find, h (b, v) List.mem_cons_self]

/-- A write reads back. -/
theorem Cells.get_put_same {d : Nat → Word} {c : Cells} {a : Nat} {w : Word} (h : Cells.wf d c = true) :
    (c.put (d a) a w).get (d a) a = w := by
  induction c with
  | nil => simp only [Cells.put]; split <;> simp_all [Cells.get, Cells.find]
  | cons q r ih =>
    obtain ⟨b, v⟩ := q
    obtain ⟨-, h2, h3⟩ := Cells.wf_cons.1 h
    simp only [Cells.put]
    split
    · rename_i hab
      split
      · rename_i hw; simp [Cells.get, Cells.find, hab, hw]
      · simp [Cells.get, Cells.find]
    · split
      · rename_i hab
        subst hab
        split
        · rename_i hw
          simp [Cells.get, Cells.find_above h2, hw]
        · simp [Cells.get, Cells.find]
      · rename_i h4 h5
        have := ih h3
        simpa [Cells.get, Cells.find, h4, h5] using this

/-- A write leaves every other word alone. -/
theorem Cells.get_put_other {d : Nat → Word} {e : Word} {c : Cells} {a b : Nat} {w : Word} (h : Cells.wf d c = true)
    (hb : b ≠ a) : (c.put (d a) a w).get e b = c.get e b := by
  induction c with
  | nil =>
    simp only [Cells.put]
    split
    · rfl
    · simp [Cells.get, Cells.find, hb]
  | cons q r ih =>
    obtain ⟨x, v⟩ := q
    obtain ⟨-, h2, h3⟩ := Cells.wf_cons.1 h
    simp only [Cells.put]
    split
    · rename_i hax
      split
      · rfl
      · simp only [Cells.get, Cells.find]
        split
        · rename_i hba
          simp [show b < x by omega]
        · simp [hb]
    · split
      · rename_i hnx hax
        subst hax
        split
        · simp only [Cells.get, Cells.find]
          split
          · rename_i hlt
            rw [Cells.find_above (fun p hp => hlt.trans (h2 p hp))]
          · simp [hb]
        · simp only [Cells.get, Cells.find, hb, if_false]
      · have := ih h3
        simp only [Cells.get, Cells.find] at this ⊢
        split
        · rfl
        · split
          · rfl
          · exact this

/-- Both switches of an output of Electrum are off. -/
def El.IsOff (e : El) (i : Nat) : Prop := nth e.a.outs i false = false ∧ nth e.b.outs i false = false

/-- Whether an output is off rests on the two channels alone. -/
theorem El.IsOff.of_eq {e f : El} {i : Nat} (ha : f.a.outs = e.a.outs) (hb : f.b.outs = e.b.outs) (h : e.IsOff i) :
    f.IsOff i := by
  unfold El.IsOff at *; rw [ha, hb]; exact h

/-- A switch stays off where another is commanded, or it is commanded off. -/
theorem nth_set_off {l : List Bool} {k i : Nat} {b : Bool} (hb : i = k → b = false) (h : i ≠ k → nth l i false = false) :
    nth (l.set k b) i false = false := by
  by_cases e : i = k
  · subst e
    rw [hb rfl]
    simp only [nth, List.getElem?_set_self']
    cases l[i]? <;> rfl
  · have : (l.set k b)[i]? = l[i]? := List.getElem?_set_ne (Ne.symm e)
    have := h e
    simp_all [nth]

/-- What commanding two switches does to the commands. -/
theorem El.setSw_outs (e : El) (k : Nat) (x y : Bool) (c : Nat) :
    (e.setSw k x y c).a.outs = e.a.outs.set k x ∧ (e.setSw k x y c).b.outs = e.b.outs.set k y := by
  unfold El.setSw; dsimp only; split <;> exact ⟨rfl, rfl⟩

/-- An output stays off where another is commanded, or both its switches are commanded off. -/
theorem El.setSw_off {e : El} {k i : Nat} {x y : Bool} (c : Nat) (hb : i = k → x = false ∧ y = false)
    (h : i ≠ k → e.IsOff i) : (e.setSw k x y c).IsOff i := by
  have g := El.setSw_outs e k x y c
  unfold El.IsOff
  rw [g.1, g.2]
  exact ⟨nth_set_off (fun a => (hb a).1) (fun a => (h a).1), nth_set_off (fun a => (hb a).2) (fun a => (h a).2)⟩

/-- Commanding switches changes what is latched nowhere. -/
theorem El.setSw_same (e : El) (k : Nat) (x y : Bool) (c : Nat) :
    (e.setSw k x y c).causes = e.causes ∧ (e.setSw k x y c).st = e.st ∧ (e.setSw k x y c).perm = e.perm ∧
      (e.setSw k x y c).bypOn = e.bypOn ∧ (e.setSw k x y c).relevGrant = e.relevGrant := by
  unfold El.setSw; dsimp only; split <;> exact ⟨rfl, rfl, rfl, rfl, rfl⟩

/-- What `Keeps` says, over the parts of the state it speaks of: the store, the queue, the OEM keys of OTP, IMG_SVN, the
index records, and what Electrum latches and energises. -/
structure KeepsOf (s : State) (rf : Cells) (q : List Instr) (oem : List PubKey) (svn : Nat) (idx : List (Lc × IdxPair))
    (causes : List Nat) (st : ElState) (perm byp grant : Bool) (outsA outsB : List Bool) : Prop where
  store : Cells.wf regReset s.rf = true → Cells.wf regReset rf = true
  queue : q = s.pending
  otp : OtpKeeps s.key.oemKeys oem
  svn : s.key.imgSvn ≤ svn
  idx : IdxRises s.key.idx idx
  el : s.ElectrumSafe → ElSafe causes st perm byp grant outsA outsB

/-- From `s` to `t` the register store stays canonical, the queue stays as it is, OTP and the index records only move
forward, and Electrum stays safe. -/
@[reducible] def Keeps (s t : State) : Prop :=
  KeepsOf s t.rf t.pending t.key.oemKeys t.key.imgSvn t.key.idx t.el.causes t.el.st t.el.perm t.el.bypOn t.el.relevGrant
    t.el.a.outs t.el.b.outs

/-- Nothing is taken back where nothing changes. -/
theorem OtpKeeps.refl (l : List PubKey) : OtpKeeps l l := fun _ k h => ⟨k, h, fun p => ⟨p, rfl⟩, id⟩

/-- No index falls where nothing changes. -/
theorem IdxRises.refl (l : List (Lc × IdxPair)) : IdxRises l l := fun _ n h => ⟨n, h, le_refl n⟩

theorem OtpKeeps.trans {l m n : List PubKey} (h : OtpKeeps l m) (k : OtpKeeps m n) : OtpKeeps l n := by
  intro i x hx
  obtain ⟨y, hy, p, r⟩ := h i x hx
  obtain ⟨z, hz, p', r'⟩ := k i y hy
  exact ⟨z, hz, fun a => ⟨(p' (p a).1).1, (p' (p a).1).2.trans (p a).2⟩, fun a => r' (r a)⟩

theorem IdxRises.trans {l m n : List (Lc × IdxPair)} (h : IdxRises l m) (k : IdxRises m n) : IdxRises l n := by
  intro c x hx
  obtain ⟨y, hy, a⟩ := h c x hx
  obtain ⟨z, hz, b⟩ := k c y hy
  exact ⟨z, hz, a.trans b⟩

theorem Keeps.refl (s : State) : Keeps s s := ⟨id, rfl, OtpKeeps.refl _, le_refl _, IdxRises.refl _, id⟩

section
variable {s : State} {rf : Cells} {q : List Instr} {oem oem' : List PubKey} {svn : Nat} {idx idx' : List (Lc × IdxPair)}
  {causes : List Nat} {st : ElState} {perm byp grant : Bool} {outsA outsA' outsB outsB' : List Bool}

/-- Storing a word where an unlisted address reads `d`, which is that address's reset value. -/
theorem KeepsOf.put {a : Nat} {w d : Word} (hd : regReset a = d)
    (h : KeepsOf s rf q oem svn idx causes st perm byp grant outsA outsB) :
    KeepsOf s (rf.put d a w) q oem svn idx causes st perm byp grant outsA outsB := by
  subst hd; exact { h with store := fun k => Cells.wf_put (h.store k) }

/-- Keeping some entries of the store. -/
theorem KeepsOf.filter (f : Nat × Word → Bool) (h : KeepsOf s rf q oem svn idx causes st perm byp grant outsA outsB) :
    KeepsOf s (rf.filter f) q oem svn idx causes st perm byp grant outsA outsB :=
  { h with store := fun k => Cells.wf_filter f (h.store k) }

/-- A change of the OEM keys that takes nothing back. -/
theorem KeepsOf.setOtp (ho : OtpKeeps oem oem') (h : KeepsOf s rf q oem svn idx causes st perm byp grant outsA outsB) :
    KeepsOf s rf q oem' svn idx causes st perm byp grant outsA outsB :=
  { h with otp := h.otp.trans ho }

/-- A change of the index records that lets none fall. -/
theorem KeepsOf.setIdx (hi : IdxRises idx idx') (h : KeepsOf s rf q oem svn idx causes st perm byp grant outsA outsB) :
    KeepsOf s rf q oem svn idx' causes st perm byp grant outsA outsB :=
  { h with idx := h.idx.trans hi }

/-- Bridging ends. -/
theorem KeepsOf.bypOff (h : KeepsOf s rf q oem svn idx causes st perm byp grant outsA outsB) :
    KeepsOf s rf q oem svn idx causes st perm false false outsA outsB :=
  { h with el := fun e => ⟨(h.el e).tripped, fun n => ⟨((h.el e).off n).1, rfl, rfl, ((h.el e).off n).2.2.2⟩⟩ }

/-- Permission ends. -/
theorem KeepsOf.permOff (h : KeepsOf s rf q oem svn idx causes st perm byp grant outsA outsB) :
    KeepsOf s rf q oem svn idx causes st false byp grant outsA outsB :=
  { h with el := fun e => ⟨(h.el e).tripped, fun n => ⟨rfl, ((h.el e).off n).2⟩⟩ }

/-- What may be energised where Electrum is NORMAL. -/
theorem KeepsOf.inNormal {perm' byp' grant' : Bool} (hn : st = .normal)
    (h : KeepsOf s rf q oem svn idx causes st perm byp grant outsA outsB) :
    KeepsOf s rf q oem svn idx causes st perm' byp' grant' outsA' outsB' :=
  { h with el := fun e => ⟨(h.el e).tripped, fun n => absurd hn n⟩ }

/-- Everything off is safe outside NORMAL, whatever is latched. -/
theorem KeepsOf.allOff (ho : ∀ i < 8, nth outsA' i false = false ∧ nth outsB' i false = false) {causes' : List Nat} {st' : ElState} (hs : st' ≠ .normal)
    (h : KeepsOf s rf q oem svn idx causes st perm byp grant outsA outsB) :
    KeepsOf s rf q oem svn idx causes' st' false false false outsA' outsB' :=
  { h with el := fun _ => ⟨fun _ => hs, fun _ => ⟨rfl, rfl, rfl, ho⟩⟩ }

/-- A state of Electrum entered with nothing latched, or one that is not NORMAL. -/
theorem KeepsOf.setSt {st' : ElState} (hs : st ≠ .normal) (h0 : st' = .normal → causes = [])
    (h : KeepsOf s rf q oem svn idx causes st perm byp grant outsA outsB) :
    KeepsOf s rf q oem svn idx causes st' perm byp grant outsA outsB :=
  { h with el := fun e => ⟨fun c n => c (h0 n), fun _ => (h.el e).off hs⟩ }

end

/-- A fold of a kept change is kept. -/
theorem each_keeps {α : Type} {s₀ : State} (f : State → α → State) (hf : ∀ t x, Keeps s₀ t → Keeps s₀ (f t x)) (l : List α)
    {s : State} (h : Keeps s₀ s) : Keeps s₀ (each l s f) := by
  induction l generalizing s with
  | nil => exact h
  | cons x r ih => exact ih (hf _ _ h)

/-- The same of a plain fold. -/
theorem foldl_keeps {α : Type} {s₀ : State} (f : State → α → State) (hf : ∀ t x, Keeps s₀ t → Keeps s₀ (f t x)) (l : List α)
    {s : State} (h : Keeps s₀ s) : Keeps s₀ (l.foldl f s) := each_keeps f hf l h

theorem State.wr_keeps {s₀ s : State} (h : Keeps s₀ s) (a : Nat) (w : Word) : Keeps s₀ (s.wr a w) := KeepsOf.put rfl h

/-- The first component of a pair that is known. -/
theorem Keeps.of_fst {α : Type} {s₀ u : State} {p : State × α} {v : α} (h : Keeps s₀ p.1) (e : p = (u, v)) : Keeps s₀ u := by
  rw [e] at h; exact h

/-- A meaning answers a next state, and `Keeps` holds from `s` to it. -/
@[reducible] def Answers (s : State) (o : Host.Outcome State Fault Refusal) : Prop := ∃ t, o = .next t ∧ Keeps s t

/-- A stored word reads back. -/
theorem State.rd_wr_same {s : State} (h : Cells.wf regReset s.rf = true) (a : Nat) (w : Word) : (s.wr a w).rd a = w :=
  Cells.get_put_same h

/-- A stored word changes no other. -/
theorem State.rd_wr_other {s : State} (h : Cells.wf regReset s.rf = true) {a b : Nat} (w : Word) (hb : b ≠ a) :
    (s.wr a w).rd b = s.rd b := Cells.get_put_other h hb

end Sys2Proof.Machine
end

