-- ==== Sys2Proof/Laws/KeepsOps.lean ====
section
/-! SUPPORT. The operations of Machine/Ops.lean keep the store canonical and the queue as it is. -/

set_option linter.unusedTactic false
set_option linter.unreachableTactic false

namespace Sys2Proof.Machine

theorem State.wn_keeps {s₀ s : State} (h : Keeps s₀ s) (a : Nat) (n : Nat) : Keeps s₀ (State.wn s a n) := by
  unfold State.wn
  try dsimp only [Keeps]
  repeat' first | (with_reducible first | assumption | apply State.wr_keeps) | (with_reducible first | apply each_keeps | apply foldl_keeps) | intro _ _ _ | split | (with_reducible first | apply KeepsOf.put rfl | apply KeepsOf.filter) | dsimp only [Keeps]

theorem State.wi_keeps {s₀ s : State} (h : Keeps s₀ s) (a : Nat) (i : Int) : Keeps s₀ (State.wi s a i) := by
  unfold State.wi
  try dsimp only [Keeps]
  repeat' first | (with_reducible first | assumption | apply State.wr_keeps) | (with_reducible first | apply each_keeps | apply foldl_keeps) | intro _ _ _ | split | (with_reducible first | apply KeepsOf.put rfl | apply KeepsOf.filter) | dsimp only [Keeps]

theorem State.wf__keeps {s₀ s : State} (h : Keeps s₀ s) (a : Nat) (lo : Nat) (width : Nat) (v : Nat) : Keeps s₀ (State.wf_ s a lo width v) := by
  unfold State.wf_
  try dsimp only [Keeps]
  repeat' first | (with_reducible first | assumption | apply State.wr_keeps) | (with_reducible first | apply each_keeps | apply foldl_keeps) | intro _ _ _ | split | (with_reducible first | apply KeepsOf.put rfl | apply KeepsOf.filter) | dsimp only [Keeps]

theorem State.bump_keeps {s₀ s : State} (h : Keeps s₀ s) (a : Nat) (lo : Nat) (width : Nat) : Keeps s₀ (State.bump s a lo width) := by
  unfold State.bump
  try dsimp only [Keeps]
  repeat' first | (with_reducible first | assumption | apply State.wf__keeps) | (with_reducible first | apply each_keeps | apply foldl_keeps) | intro _ _ _ | split | (with_reducible first | apply KeepsOf.put rfl | apply KeepsOf.filter) | dsimp only [Keeps]

theorem State.raise_keeps {s₀ s : State} (h : Keeps s₀ s) (pg : Nat) (i : Nat) : Keeps s₀ (State.raise s pg i) := by
  unfold State.raise
  try dsimp only [Keeps]
  repeat' first | (with_reducible first | assumption | apply State.wf__keeps) | (with_reducible first | apply each_keeps | apply foldl_keeps) | intro _ _ _ | split | (with_reducible first | apply KeepsOf.put rfl | apply KeepsOf.filter) | dsimp only [Keeps]

theorem State.draw_keeps {s₀ s : State} (h : Keeps s₀ s) : Keeps s₀ (State.draw s) := by
  unfold State.draw
  try dsimp only [Keeps]
  repeat' first | (with_reducible first | assumption ) | (with_reducible first | apply each_keeps | apply foldl_keeps) | intro _ _ _ | split | (with_reducible first | apply KeepsOf.put rfl | apply KeepsOf.filter) | dsimp only [Keeps]

end Sys2Proof.Machine
end

