-- ==== Sys2Proof/Laws/KeepsOperands.lean ====
section
/-! SUPPORT. The operations of Machine/Operands.lean keep the store canonical and the queue as it is. -/

set_option linter.unusedTactic false
set_option linter.unreachableTactic false

namespace Sys2Proof.Machine

theorem State.setGrp_keeps {s₀ s : State} (h : Keeps s₀ s) (g : Nat) (f : Fiog) : Keeps s₀ (State.setGrp s g f) := by
  unfold State.setGrp
  try dsimp only [Keeps]
  repeat' first | (with_reducible first | assumption ) | (with_reducible first | apply each_keeps | apply foldl_keeps) | intro _ _ _ | split | (with_reducible first | apply KeepsOf.put rfl | apply KeepsOf.filter) | dsimp only [Keeps]

theorem State.chCmd_keeps {s₀ s : State} (h : Keeps s₀ s) (c : Nat) (on : Bool) : Keeps s₀ (State.chCmd s c on) := by
  unfold State.chCmd
  try dsimp only [Keeps]
  repeat' first | (with_reducible first | assumption | apply State.setGrp_keeps) | (with_reducible first | apply each_keeps | apply foldl_keeps) | intro _ _ _ | split | (with_reducible first | apply KeepsOf.put rfl | apply KeepsOf.filter) | dsimp only [Keeps]

theorem State.setCan_keeps {s₀ s : State} (h : Keeps s₀ s) (n : Nat) (c : Can) : Keeps s₀ (State.setCan s n c) := by
  unfold State.setCan
  try dsimp only [Keeps]
  repeat' first | (with_reducible first | assumption ) | (with_reducible first | apply each_keeps | apply foldl_keeps) | intro _ _ _ | split | (with_reducible first | apply KeepsOf.put rfl | apply KeepsOf.filter) | dsimp only [Keeps]

theorem State.setLsf_keeps {s₀ s : State} (h : Keeps s₀ s) (n : Nat) (c : LsfSlot) : Keeps s₀ (State.setLsf s n c) := by
  unfold State.setLsf
  try dsimp only [Keeps]
  repeat' first | (with_reducible first | assumption ) | (with_reducible first | apply each_keeps | apply foldl_keeps) | intro _ _ _ | split | (with_reducible first | apply KeepsOf.put rfl | apply KeepsOf.filter) | dsimp only [Keeps]

theorem State.setDoor_keeps {s₀ s : State} (h : Keeps s₀ s) (c : Chan) (d : Door) : Keeps s₀ (State.setDoor s c d) := by
  unfold State.setDoor
  try dsimp only [Keeps]
  repeat' first | (with_reducible first | assumption ) | (with_reducible first | apply each_keeps | apply foldl_keeps) | intro _ _ _ | split | (with_reducible first | apply KeepsOf.put rfl | apply KeepsOf.filter) | dsimp only [Keeps]

theorem State.elTake_keeps {s₀ s : State} (h : Keeps s₀ s) : Keeps s₀ (State.elTake s) := by
  unfold State.elTake
  try dsimp only [Keeps]
  repeat' first | (with_reducible first | assumption ) | (with_reducible first | apply each_keeps | apply foldl_keeps) | intro _ _ _ | split | (with_reducible first | apply KeepsOf.put rfl | apply KeepsOf.filter) | dsimp only [Keeps]

end Sys2Proof.Machine
end

