-- ==== Sys2Proof/Laws/KeepsRecOps.lean ====
section
/-! SUPPORT. The operations of Machine/RecOps.lean keep the store canonical and the queue as it is. -/

set_option linter.unusedTactic false
set_option linter.unreachableTactic false

namespace Sys2Proof.Machine

theorem State.putRcd_keeps {s₀ s : State} (h : Keeps s₀ s) (r : Rcd) : Keeps s₀ (State.putRcd s r) := by
  unfold State.putRcd
  try dsimp only [Keeps]
  repeat' first | (with_reducible first | assumption | apply State.raise_keeps) | (with_reducible first | apply each_keeps | apply foldl_keeps) | intro _ _ _ | split | (with_reducible first | apply KeepsOf.put rfl | apply KeepsOf.filter) | dsimp only [Keeps]

theorem State.stage_keeps {s₀ s : State} (h : Keeps s₀ s) (typ : RecType) (source : Nat) (slot : Option Nat) (detail : Word) (snap : List Word) (flush : Bool) : Keeps s₀ (State.stage s typ source slot detail snap flush) := by
  unfold State.stage
  try dsimp only [Keeps]
  repeat' first | (with_reducible first | assumption | apply State.bump_keeps | apply State.raise_keeps | apply State.putRcd_keeps) | (with_reducible first | apply each_keeps | apply foldl_keeps) | intro _ _ _ | split | (with_reducible first | apply KeepsOf.put rfl | apply KeepsOf.filter) | dsimp only [Keeps]

theorem State.fire_keeps {s₀ s : State} (h : Keeps s₀ s) (src : Nat) (detail : Word) : Keeps s₀ (State.fire s src detail) := by
  unfold State.fire
  try dsimp only [Keeps]
  repeat' first | (with_reducible first | assumption | apply State.stage_keeps) | (with_reducible first | apply each_keeps | apply foldl_keeps) | intro _ _ _ | split | (with_reducible first | apply KeepsOf.put rfl | apply KeepsOf.filter) | dsimp only [Keeps]

theorem State.setRole_keeps {s₀ s : State} (h : Keeps s₀ s) (r : Role) : Keeps s₀ (State.setRole s r) := by
  unfold State.setRole
  try dsimp only [Keeps]
  repeat' first | (with_reducible first | assumption | apply State.raise_keeps | apply State.fire_keeps) | (with_reducible first | apply each_keeps | apply foldl_keeps) | intro _ _ _ | split | (with_reducible first | apply KeepsOf.put rfl | apply KeepsOf.filter) | dsimp only [Keeps]

end Sys2Proof.Machine
end

