-- ==== Sys2Proof/Laws/KeepsDoorOps.lean ====
section
/-! SUPPORT. The operations of Machine/DoorOps.lean keep the store canonical and the queue as it is. -/

set_option linter.unusedTactic false
set_option linter.unreachableTactic false

namespace Sys2Proof.Machine

theorem State.errNote_keeps {s₀ s : State} (h : Keeps s₀ s) (pg : Nat) (off : Nat) (src : Src) (code : Nat) : Keeps s₀ (State.errNote s pg off src code) := by
  unfold State.errNote
  try dsimp only [Keeps]
  repeat' first | (with_reducible first | assumption | apply State.wr_keeps | apply State.raise_keeps) | (with_reducible first | apply each_keeps | apply foldl_keeps) | intro _ _ _ | split | (with_reducible first | apply KeepsOf.put rfl | apply KeepsOf.filter) | dsimp only [Keeps]

theorem State.doorHere_keeps {s₀ s : State} (h : Keeps s₀ s) (c : Chan) : Keeps s₀ (State.doorHere s c) := by
  unfold State.doorHere
  try dsimp only [Keeps]
  repeat' first | (with_reducible first | assumption | apply State.setDoor_keeps) | (with_reducible first | apply each_keeps | apply foldl_keeps) | intro _ _ _ | split | (with_reducible first | apply KeepsOf.put rfl | apply KeepsOf.filter) | dsimp only [Keeps]

theorem State.doorInto_keeps {s₀ s : State} (h : Keeps s₀ s) (c : Chan) (st : DoorSt) : Keeps s₀ (State.doorInto s c st) := by
  unfold State.doorInto
  try dsimp only [Keeps]
  repeat' first | (with_reducible first | assumption | apply State.setDoor_keeps | apply State.raise_keeps) | (with_reducible first | apply each_keeps | apply foldl_keeps) | intro _ _ _ | split | (with_reducible first | apply KeepsOf.put rfl | apply KeepsOf.filter) | dsimp only [Keeps]

theorem State.doorLosePos_keeps {s₀ s : State} (h : Keeps s₀ s) (c : Chan) : Keeps s₀ (State.doorLosePos s c) := by
  unfold State.doorLosePos
  try dsimp only [Keeps]
  repeat' first | (with_reducible first | assumption | apply State.setDoor_keeps | apply State.raise_keeps) | (with_reducible first | apply each_keeps | apply foldl_keeps) | intro _ _ _ | split | (with_reducible first | apply KeepsOf.put rfl | apply KeepsOf.filter) | dsimp only [Keeps]

theorem State.doorStartOpen_keeps {s₀ s0 : State} (h : Keeps s₀ s0) (c : Chan) : Keeps s₀ (State.doorStartOpen s0 c) := by
  unfold State.doorStartOpen
  try dsimp only [Keeps]
  repeat' first | (with_reducible first | assumption | apply State.doorHere_keeps | apply State.setDoor_keeps | apply State.doorInto_keeps) | (with_reducible first | apply each_keeps | apply foldl_keeps) | intro _ _ _ | split | (with_reducible first | apply KeepsOf.put rfl | apply KeepsOf.filter) | dsimp only [Keeps]

theorem State.doorStartClose_keeps {s₀ s0 : State} (h : Keeps s₀ s0) (c : Chan) : Keeps s₀ (State.doorStartClose s0 c) := by
  unfold State.doorStartClose
  try dsimp only [Keeps]
  repeat' first | (with_reducible first | assumption | apply State.doorHere_keeps | apply State.setDoor_keeps | apply State.doorInto_keeps) | (with_reducible first | apply each_keeps | apply foldl_keeps) | intro _ _ _ | split | (with_reducible first | apply KeepsOf.put rfl | apply KeepsOf.filter) | dsimp only [Keeps]

theorem State.doorStopInto_keeps {s₀ s0 : State} (h : Keeps s₀ s0) (c : Chan) (st : DoorSt) (after : Option DoorSt) : Keeps s₀ (State.doorStopInto s0 c st after) := by
  unfold State.doorStopInto
  try dsimp only [Keeps]
  repeat' first | (with_reducible first | assumption | apply State.doorHere_keeps | apply State.setDoor_keeps | apply State.doorInto_keeps) | (with_reducible first | apply each_keeps | apply foldl_keeps) | intro _ _ _ | split | (with_reducible first | apply KeepsOf.put rfl | apply KeepsOf.filter) | dsimp only [Keeps]

theorem State.doorReverse_keeps {s₀ s : State} (h : Keeps s₀ s) (c : Chan) (raised : Bool) (byLc : Bool) : Keeps s₀ (State.doorReverse s c raised byLc) := by
  unfold State.doorReverse
  try dsimp only [Keeps]
  repeat' first | (with_reducible first | assumption | apply State.setDoor_keeps | apply State.doorStopInto_keeps | apply State.raise_keeps) | (with_reducible first | apply each_keeps | apply foldl_keeps) | intro _ _ _ | split | (with_reducible first | apply KeepsOf.put rfl | apply KeepsOf.filter) | dsimp only [Keeps]

theorem State.doorLearnAbort_keeps {s₀ s : State} (h : Keeps s₀ s) (c : Chan) : Keeps s₀ (State.doorLearnAbort s c) := by
  unfold State.doorLearnAbort
  try dsimp only [Keeps]
  repeat' first | (with_reducible first | assumption | apply State.setDoor_keeps | apply State.doorStopInto_keeps | apply State.raise_keeps) | (with_reducible first | apply each_keeps | apply foldl_keeps) | intro _ _ _ | split | (with_reducible first | apply KeepsOf.put rfl | apply KeepsOf.filter) | dsimp only [Keeps]

theorem State.doorGearAbort_keeps {s₀ s : State} (h : Keeps s₀ s) (c : Chan) (cause : Nat) : Keeps s₀ (State.doorGearAbort s c cause) := by
  unfold State.doorGearAbort
  try dsimp only [Keeps]
  repeat' first | (with_reducible first | assumption | apply State.setDoor_keeps | apply State.doorStopInto_keeps | apply State.raise_keeps) | (with_reducible first | apply each_keeps | apply foldl_keeps) | intro _ _ _ | split | (with_reducible first | apply KeepsOf.put rfl | apply KeepsOf.filter) | dsimp only [Keeps]

theorem State.doorOpenAct_keeps {s₀ s : State} (h : Keeps s₀ s) (c : Chan) : Keeps s₀ (State.doorOpenAct s c) := by
  unfold State.doorOpenAct
  try dsimp only [Keeps]
  repeat' first | (with_reducible first | assumption | apply State.setDoor_keeps | apply State.doorStartOpen_keeps | apply State.doorReverse_keeps) | (with_reducible first | apply each_keeps | apply foldl_keeps) | intro _ _ _ | split | (with_reducible first | apply KeepsOf.put rfl | apply KeepsOf.filter) | dsimp only [Keeps]

theorem State.doorCloseAct_keeps {s₀ s : State} (h : Keeps s₀ s) (c : Chan) : Keeps s₀ (State.doorCloseAct s c) := by
  unfold State.doorCloseAct
  try dsimp only [Keeps]
  repeat' first | (with_reducible first | assumption | apply State.setDoor_keeps | apply State.doorStartClose_keeps) | (with_reducible first | apply each_keeps | apply foldl_keeps) | intro _ _ _ | split | (with_reducible first | apply KeepsOf.put rfl | apply KeepsOf.filter) | dsimp only [Keeps]

theorem State.doorStopAct_keeps {s₀ s : State} (h : Keeps s₀ s) (c : Chan) : Keeps s₀ (State.doorStopAct s c) := by
  unfold State.doorStopAct
  try dsimp only [Keeps]
  repeat' first | (with_reducible first | assumption | apply State.doorGearAbort_keeps | apply State.doorLearnAbort_keeps | apply State.doorStopInto_keeps | apply State.setDoor_keeps) | (with_reducible first | apply each_keeps | apply foldl_keeps) | intro _ _ _ | split | (with_reducible first | apply KeepsOf.put rfl | apply KeepsOf.filter) | dsimp only [Keeps]

theorem State.doorStartHome_keeps {s₀ s0 : State} (h : Keeps s₀ s0) (c : Chan) : Keeps s₀ (State.doorStartHome s0 c) := by
  unfold State.doorStartHome
  try dsimp only [Keeps]
  repeat' first | (with_reducible first | assumption | apply State.doorHere_keeps | apply State.setDoor_keeps | apply State.doorInto_keeps) | (with_reducible first | apply each_keeps | apply foldl_keeps) | intro _ _ _ | split | (with_reducible first | apply KeepsOf.put rfl | apply KeepsOf.filter) | dsimp only [Keeps]

theorem State.doorDiscard_keeps {s₀ s : State} (h : Keeps s₀ s) (c : Chan) : Keeps s₀ (State.doorDiscard s c) := by
  unfold State.doorDiscard
  try dsimp only [Keeps]
  repeat' first | (with_reducible first | assumption | apply State.setDoor_keeps | apply State.errNote_keeps) | (with_reducible first | apply each_keeps | apply foldl_keeps) | intro _ _ _ | split | (with_reducible first | apply KeepsOf.put rfl | apply KeepsOf.filter) | dsimp only [Keeps]

theorem State.doorFaulted_keeps {s₀ s0 : State} (h : Keeps s₀ s0) (c : Chan) (code : Nat) : Keeps s₀ (State.doorFaulted s0 c code) := by
  unfold State.doorFaulted
  try dsimp only [Keeps]
  repeat' first | (with_reducible first | assumption | apply State.doorDiscard_keeps | apply State.setDoor_keeps | apply State.raise_keeps | apply State.doorInto_keeps) | (with_reducible first | apply each_keeps | apply foldl_keeps) | intro _ _ _ | split | (with_reducible first | apply KeepsOf.put rfl | apply KeepsOf.filter) | dsimp only [Keeps]

theorem State.doorAuthLost_keeps {s₀ s0 : State} (h : Keeps s₀ s0) (c : Chan) : Keeps s₀ (State.doorAuthLost s0 c) := by
  unfold State.doorAuthLost
  try dsimp only [Keeps]
  repeat' first | (with_reducible first | assumption | apply State.doorDiscard_keeps | apply State.setDoor_keeps | apply State.raise_keeps | apply State.doorInto_keeps) | (with_reducible first | apply each_keeps | apply foldl_keeps) | intro _ _ _ | split | (with_reducible first | apply KeepsOf.put rfl | apply KeepsOf.filter) | dsimp only [Keeps]

theorem State.doorRetain_keeps {s₀ s : State} (h : Keeps s₀ s) (c : Chan) : Keeps s₀ (State.doorRetain s c) := by
  unfold State.doorRetain
  try dsimp only [Keeps]
  repeat' first | (with_reducible first | assumption | apply State.wr_keeps | apply State.wi_keeps | apply State.setDoor_keeps) | (with_reducible first | apply each_keeps | apply foldl_keeps) | intro _ _ _ | split | (with_reducible first | apply KeepsOf.put rfl | apply KeepsOf.filter) | dsimp only [Keeps]

theorem State.doorPowerDown_keeps {s₀ s : State} (h : Keeps s₀ s) (c : Chan) : Keeps s₀ (State.doorPowerDown s c) := by
  unfold State.doorPowerDown
  try dsimp only [Keeps]
  repeat' first | (with_reducible first | assumption | apply State.doorRetain_keeps | apply State.doorInto_keeps) | (with_reducible first | apply each_keeps | apply foldl_keeps) | intro _ _ _ | split | (with_reducible first | apply KeepsOf.put rfl | apply KeepsOf.filter) | dsimp only [Keeps]

theorem State.doorPowerUp_keeps {s₀ s0 : State} (h : Keeps s₀ s0) (c : Chan) (raw : Int) (overrun : Bool) (cut : Bool) : Keeps s₀ (State.doorPowerUp s0 c raw overrun cut) := by
  unfold State.doorPowerUp
  try dsimp only [Keeps]
  repeat' first | (with_reducible first | assumption | apply State.wf__keeps | apply State.setDoor_keeps | apply State.doorInto_keeps | apply State.doorLosePos_keeps) | (with_reducible first | apply each_keeps | apply foldl_keeps) | intro _ _ _ | split | (with_reducible first | apply KeepsOf.put rfl | apply KeepsOf.filter) | dsimp only [Keeps]

theorem State.doorEngage_keeps {s₀ s : State} (h : Keeps s₀ s) (c : Chan) : Keeps s₀ (State.doorEngage s c) := by
  unfold State.doorEngage
  try dsimp only [Keeps]
  repeat' first | (with_reducible first | assumption | apply State.setDoor_keeps | apply State.doorInto_keeps | apply State.raise_keeps) | (with_reducible first | apply each_keeps | apply foldl_keeps) | intro _ _ _ | split | (with_reducible first | apply KeepsOf.put rfl | apply KeepsOf.filter) | dsimp only [Keeps]

theorem State.doorGearStep_keeps {s₀ s : State} (h : Keeps s₀ s) (c : Chan) : Keeps s₀ (State.doorGearStep s c) := by
  unfold State.doorGearStep
  try dsimp only [Keeps]
  repeat' first | (with_reducible first | assumption | apply State.setDoor_keeps) | (with_reducible first | apply each_keeps | apply foldl_keeps) | intro _ _ _ | split | (with_reducible first | apply KeepsOf.put rfl | apply KeepsOf.filter) | dsimp only [Keeps]

theorem State.doorGearCheck_keeps {s₀ s : State} (h : Keeps s₀ s) (c : Chan) : Keeps s₀ (State.doorGearCheck s c) := by
  unfold State.doorGearCheck
  try dsimp only [Keeps]
  repeat' first | (with_reducible first | assumption | apply State.doorGearAbort_keeps | apply State.raise_keeps | apply State.doorStartClose_keeps) | (with_reducible first | apply each_keeps | apply foldl_keeps) | intro _ _ _ | split | (with_reducible first | apply KeepsOf.put rfl | apply KeepsOf.filter) | dsimp only [Keeps]

theorem State.doorArm_keeps {s₀ s : State} (h : Keeps s₀ s) (c : Chan) : Keeps s₀ (State.doorArm s c) := by
  unfold State.doorArm
  try dsimp only [Keeps]
  repeat' first | (with_reducible first | assumption | apply State.setDoor_keeps) | (with_reducible first | apply each_keeps | apply foldl_keeps) | intro _ _ _ | split | (with_reducible first | apply KeepsOf.put rfl | apply KeepsOf.filter) | dsimp only [Keeps]

theorem State.doorMaster_keeps {s₀ s : State} (h : Keeps s₀ s) (c : Chan) : Keeps s₀ (State.doorMaster s c) := by
  unfold State.doorMaster
  try dsimp only [Keeps]
  repeat' first | (with_reducible first | assumption | apply State.doorArm_keeps | apply State.doorGearCheck_keeps | apply State.doorEngage_keeps | apply State.doorGearStep_keeps | apply State.doorLearnAbort_keeps) | (with_reducible first | apply each_keeps | apply foldl_keeps) | intro _ _ _ | split | (with_reducible first | apply KeepsOf.put rfl | apply KeepsOf.filter) | dsimp only [Keeps]

theorem State.doorProfile_keeps {s₀ s : State} (h : Keeps s₀ s) (c : Chan) : Keeps s₀ (State.doorProfile s c) := by
  unfold State.doorProfile
  try dsimp only [Keeps]
  repeat' first | (with_reducible first | assumption | apply State.setDoor_keeps | apply State.doorCloseAct_keeps) | (with_reducible first | apply each_keeps | apply foldl_keeps) | intro _ _ _ | split | (with_reducible first | apply KeepsOf.put rfl | apply KeepsOf.filter) | dsimp only [Keeps]

theorem State.doorOpened_keeps {s₀ s : State} (h : Keeps s₀ s) (c : Chan) : Keeps s₀ (State.doorOpened s c) := by
  unfold State.doorOpened
  try dsimp only [Keeps]
  repeat' first | (with_reducible first | assumption | apply State.wi_keeps | apply State.setDoor_keeps | apply State.doorInto_keeps | apply State.raise_keeps) | (with_reducible first | apply each_keeps | apply foldl_keeps) | intro _ _ _ | split | (with_reducible first | apply KeepsOf.put rfl | apply KeepsOf.filter) | dsimp only [Keeps]

theorem State.doorLocked_keeps {s₀ s : State} (h : Keeps s₀ s) (c : Chan) : Keeps s₀ (State.doorLocked s c) := by
  unfold State.doorLocked
  try dsimp only [Keeps]
  repeat' first | (with_reducible first | assumption | apply State.wi_keeps | apply State.setDoor_keeps) | (with_reducible first | apply each_keeps | apply foldl_keeps) | intro _ _ _ | split | (with_reducible first | apply KeepsOf.put rfl | apply KeepsOf.filter) | dsimp only [Keeps]

theorem State.lockNote_keeps {s₀ s : State} (h : Keeps s₀ s) (c : Chan) : Keeps s₀ (State.lockNote s c) := by
  unfold State.lockNote
  try dsimp only [Keeps]
  repeat' first | (with_reducible first | assumption | apply State.doorLocked_keeps) | (with_reducible first | apply each_keeps | apply foldl_keeps) | intro _ _ _ | split | (with_reducible first | apply KeepsOf.put rfl | apply KeepsOf.filter) | dsimp only [Keeps]

theorem State.doorObstructed_keeps {s₀ s : State} (h : Keeps s₀ s) (c : Chan) : Keeps s₀ (State.doorObstructed s c) := by
  unfold State.doorObstructed
  try dsimp only [Keeps]
  repeat' first | (with_reducible first | assumption | apply State.setDoor_keeps | apply State.raise_keeps | apply State.doorStopInto_keeps) | (with_reducible first | apply each_keeps | apply foldl_keeps) | intro _ _ _ | split | (with_reducible first | apply KeepsOf.put rfl | apply KeepsOf.filter) | dsimp only [Keeps]

end Sys2Proof.Machine
end

