-- ==== Sys2Proof/Laws/KeepsCanOps.lean ====
section
/-! SUPPORT. The operations of Machine/CanOps.lean keep the store canonical and the queue as it is. -/

set_option linter.unusedTactic false
set_option linter.unreachableTactic false

namespace Sys2Proof.Machine

theorem State.setTxo_keeps {s₀ s : State} (h : Keeps s₀ s) (n : Nat) (j : Nat) (o : TxObj) : Keeps s₀ (State.setTxo s n j o) := by
  unfold State.setTxo
  try dsimp only [Keeps]
  repeat' first | (with_reducible first | assumption | apply State.setCan_keeps) | (with_reducible first | apply each_keeps | apply foldl_keeps) | intro _ _ _ | split | (with_reducible first | apply KeepsOf.put rfl | apply KeepsOf.filter) | dsimp only [Keeps]

theorem State.canInto_keeps {s₀ s : State} (h : Keeps s₀ s) (n : Nat) (st : CanSt) : Keeps s₀ (State.canInto s n st) := by
  unfold State.canInto
  try dsimp only [Keeps]
  repeat' first | (with_reducible first | assumption | apply State.setCan_keeps | apply State.raise_keeps) | (with_reducible first | apply each_keeps | apply foldl_keeps) | intro _ _ _ | split | (with_reducible first | apply KeepsOf.put rfl | apply KeepsOf.filter) | dsimp only [Keeps]

theorem State.canErrState_keeps {s₀ s : State} (h : Keeps s₀ s) (n : Nat) : Keeps s₀ (State.canErrState s n) := by
  unfold State.canErrState
  try dsimp only [Keeps]
  repeat' first | (with_reducible first | assumption | apply State.canInto_keeps) | (with_reducible first | apply each_keeps | apply foldl_keeps) | intro _ _ _ | split | (with_reducible first | apply KeepsOf.put rfl | apply KeepsOf.filter) | dsimp only [Keeps]

theorem State.txResult_keeps {s₀ s : State} (h : Keeps s₀ s) (n : Nat) (j : Nat) (done : Bool) (o : TxObj) : Keeps s₀ (State.txResult s n j done o) := by
  unfold State.txResult
  try dsimp only [Keeps]
  repeat' first | (with_reducible first | assumption | apply State.setTxo_keeps | apply State.wf__keeps | apply State.raise_keeps) | (with_reducible first | apply each_keeps | apply foldl_keeps) | intro _ _ _ | split | (with_reducible first | apply KeepsOf.put rfl | apply KeepsOf.filter) | dsimp only [Keeps]

theorem State.canAbort_keeps {s₀ s : State} (h : Keeps s₀ s) (n : Nat) (j : Nat) : Keeps s₀ (State.canAbort s n j) := by
  unfold State.canAbort
  try dsimp only [Keeps]
  repeat' first | (with_reducible first | assumption | apply State.txResult_keeps) | (with_reducible first | apply each_keeps | apply foldl_keeps) | intro _ _ _ | split | (with_reducible first | apply KeepsOf.put rfl | apply KeepsOf.filter) | dsimp only [Keeps]

theorem State.canAbortAll_keeps {s₀ s : State} (h : Keeps s₀ s) (n : Nat) : Keeps s₀ (State.canAbortAll s n) := by
  unfold State.canAbortAll
  try dsimp only [Keeps]
  repeat' first | (with_reducible first | assumption | apply each_keeps | apply State.canAbort_keeps) | (with_reducible first | apply each_keeps | apply foldl_keeps) | intro _ _ _ | split | (with_reducible first | apply KeepsOf.put rfl | apply KeepsOf.filter) | dsimp only [Keeps]

theorem State.canRequestIn_keeps {s₀ s : State} (h : Keeps s₀ s) (n : Nat) (j : Nat) (lo : Nat) (hi : Nat) : Keeps s₀ (State.canRequestIn s n j lo hi) := by
  unfold State.canRequestIn
  try dsimp only [Keeps]
  repeat' first | (with_reducible first | assumption | apply State.setTxo_keeps | apply State.canAbort_keeps) | (with_reducible first | apply each_keeps | apply foldl_keeps) | intro _ _ _ | split | (with_reducible first | apply KeepsOf.put rfl | apply KeepsOf.filter) | dsimp only [Keeps]

theorem State.canRequest_keeps {s₀ s : State} (h : Keeps s₀ s) (n : Nat) (j : Nat) : Keeps s₀ (State.canRequest s n j) := by
  unfold State.canRequest
  try dsimp only [Keeps]
  repeat' first | (with_reducible first | assumption | apply State.canRequestIn_keeps) | (with_reducible first | apply each_keeps | apply foldl_keeps) | intro _ _ _ | split | (with_reducible first | apply KeepsOf.put rfl | apply KeepsOf.filter) | dsimp only [Keeps]

theorem State.canFill_keeps {s₀ s : State} (h : Keeps s₀ s) (n : Nat) (j : Nat) (ide : Bool) (id : Nat) (fd : Bool) (data : List Byte) : Keeps s₀ (State.canFill s n j ide id fd data) := by
  unfold State.canFill
  try dsimp only [Keeps]
  repeat' first | (with_reducible first | assumption | apply State.fallback_keeps | apply State.wr_keeps | apply State.setTxo_keeps) | (with_reducible first | apply each_keeps | apply foldl_keeps) | intro _ _ _ | split | (with_reducible first | apply KeepsOf.put rfl | apply KeepsOf.filter) | dsimp only [Keeps]

theorem State.canSend_keeps {s₀ s : State} (h : Keeps s₀ s) (n : Nat) (j : Nat) (ide : Bool) (id : Nat) (fd : Bool) (data : List Byte) : Keeps s₀ (State.canSend s n j ide id fd data) := by
  unfold State.canSend
  try dsimp only [Keeps]
  repeat' first | (with_reducible first | assumption | apply State.canFill_keeps | apply State.canRequest_keeps) | (with_reducible first | apply each_keeps | apply foldl_keeps) | intro _ _ _ | split | (with_reducible first | apply KeepsOf.put rfl | apply KeepsOf.filter) | dsimp only [Keeps]

theorem State.canStore_keeps {s₀ s : State} (h : Keeps s₀ s) (n : Nat) (i : Nat) (f : CanFrame) : Keeps s₀ (State.canStore s n i f) := by
  unfold State.canStore
  try dsimp only [Keeps]
  repeat' first | (with_reducible first | assumption | apply State.setCan_keeps | apply State.bump_keeps | apply State.raise_keeps) | (with_reducible first | apply each_keeps | apply foldl_keeps) | intro _ _ _ | split | (with_reducible first | apply KeepsOf.put rfl | apply KeepsOf.filter) | dsimp only [Keeps]

theorem State.canTake_keeps {s₀ s : State} (h : Keeps s₀ s) (n : Nat) (i : Nat) : Keeps s₀ (State.canTake s n i) := by
  unfold State.canTake
  try dsimp only [Keeps]
  repeat' first | (with_reducible first | assumption | apply State.setCan_keeps) | (with_reducible first | apply each_keeps | apply foldl_keeps) | intro _ _ _ | split | (with_reducible first | apply KeepsOf.put rfl | apply KeepsOf.filter) | dsimp only [Keeps]

theorem State.canClrNew_keeps {s₀ s : State} (h : Keeps s₀ s) (n : Nat) (i : Nat) : Keeps s₀ (State.canClrNew s n i) := by
  unfold State.canClrNew
  try dsimp only [Keeps]
  repeat' first | (with_reducible first | assumption | apply State.setCan_keeps) | (with_reducible first | apply each_keeps | apply foldl_keeps) | intro _ _ _ | split | (with_reducible first | apply KeepsOf.put rfl | apply KeepsOf.filter) | dsimp only [Keeps]

theorem State.canClrLost_keeps {s₀ s : State} (h : Keeps s₀ s) (n : Nat) (i : Nat) : Keeps s₀ (State.canClrLost s n i) := by
  unfold State.canClrLost
  try dsimp only [Keeps]
  repeat' first | (with_reducible first | assumption | apply State.setCan_keeps) | (with_reducible first | apply each_keeps | apply foldl_keeps) | intro _ _ _ | split | (with_reducible first | apply KeepsOf.put rfl | apply KeepsOf.filter) | dsimp only [Keeps]

theorem State.canReceive_keeps {s₀ s : State} (h : Keeps s₀ s) (n : Nat) (f : CanFrame) : Keeps s₀ (State.canReceive s n f) := by
  unfold State.canReceive
  try dsimp only [Keeps]
  repeat' first | (with_reducible first | assumption | apply State.setCan_keeps | apply State.canErrState_keeps | apply State.bump_keeps | apply State.canStore_keeps) | (with_reducible first | apply each_keeps | apply foldl_keeps) | intro _ _ _ | split | (with_reducible first | apply KeepsOf.put rfl | apply KeepsOf.filter) | dsimp only [Keeps]

theorem State.canFailed_keeps {s₀ s : State} (h : Keeps s₀ s) (n : Nat) (j : Nat) : Keeps s₀ (State.canFailed s n j) := by
  unfold State.canFailed
  try dsimp only [Keeps]
  repeat' first | (with_reducible first | assumption | apply State.txResult_keeps | apply State.setTxo_keeps) | (with_reducible first | apply each_keeps | apply foldl_keeps) | intro _ _ _ | split | (with_reducible first | apply KeepsOf.put rfl | apply KeepsOf.filter) | dsimp only [Keeps]

theorem State.canAttempt_keeps {s₀ s : State} (h : Keeps s₀ s) (n : Nat) (j : Nat) (out : AttemptEnd) (sof : Nat) : Keeps s₀ (State.canAttempt s n j out sof) := by
  unfold State.canAttempt
  try dsimp only [Keeps]
  repeat' first | (with_reducible first | assumption | apply State.setCan_keeps | apply State.canErrState_keeps | apply State.bump_keeps | apply State.txResult_keeps | apply State.canFailed_keeps) | (with_reducible first | apply each_keeps | apply foldl_keeps) | intro _ _ _ | split | (with_reducible first | apply KeepsOf.put rfl | apply KeepsOf.filter) | dsimp only [Keeps]

theorem State.canSleepNow_keeps {s₀ s : State} (h : Keeps s₀ s) (n : Nat) : Keeps s₀ (State.canSleepNow s n) := by
  unfold State.canSleepNow
  try dsimp only [Keeps]
  repeat' first | (with_reducible first | assumption | apply State.canAbortAll_keeps | apply State.wf__keeps | apply State.canInto_keeps) | (with_reducible first | apply each_keeps | apply foldl_keeps) | intro _ _ _ | split | (with_reducible first | apply KeepsOf.put rfl | apply KeepsOf.filter) | dsimp only [Keeps]

theorem State.canWakeNow_keeps {s₀ s : State} (h : Keeps s₀ s) (n : Nat) (cause : Nat) : Keeps s₀ (State.canWakeNow s n cause) := by
  unfold State.canWakeNow
  try dsimp only [Keeps]
  repeat' first | (with_reducible first | assumption | apply State.setCan_keeps | apply State.wf__keeps | apply State.raise_keeps) | (with_reducible first | apply each_keeps | apply foldl_keeps) | intro _ _ _ | split | (with_reducible first | apply KeepsOf.put rfl | apply KeepsOf.filter) | dsimp only [Keeps]

theorem State.lsfStart_keeps {s₀ s : State} (h : Keeps s₀ s) (k : Nat) : Keeps s₀ (State.lsfStart s k) := by
  unfold State.lsfStart
  try dsimp only [Keeps]
  repeat' first | (with_reducible first | assumption | apply State.setLsf_keeps) | (with_reducible first | apply each_keeps | apply foldl_keeps) | intro _ _ _ | split | (with_reducible first | apply KeepsOf.put rfl | apply KeepsOf.filter) | dsimp only [Keeps]

theorem State.lsfRunNow_keeps {s₀ s : State} (h : Keeps s₀ s) : Keeps s₀ (State.lsfRunNow s) := by
  unfold State.lsfRunNow
  try dsimp only [Keeps]
  repeat' first | (with_reducible first | assumption | apply each_keeps | apply State.lsfStart_keeps) | (with_reducible first | apply each_keeps | apply foldl_keeps) | intro _ _ _ | split | (with_reducible first | apply KeepsOf.put rfl | apply KeepsOf.filter) | dsimp only [Keeps]

theorem State.lsfFail_keeps {s₀ s : State} (h : Keeps s₀ s) (k : Nat) (cause : Nat) : Keeps s₀ (State.lsfFail s k cause) := by
  unfold State.lsfFail
  try dsimp only [Keeps]
  repeat' first | (with_reducible first | assumption | apply State.setLsf_keeps | apply State.raise_keeps | apply State.fire_keeps) | (with_reducible first | apply each_keeps | apply foldl_keeps) | intro _ _ _ | split | (with_reducible first | apply KeepsOf.put rfl | apply KeepsOf.filter) | dsimp only [Keeps]

theorem State.lsfReceive_keeps {s₀ s0 : State} (h : Keeps s₀ s0) (n : Nat) (f : CanFrame) : Keeps s₀ (State.lsfReceive s0 n f) := by
  unfold State.lsfReceive
  try dsimp only [Keeps]
  repeat' first | (with_reducible first | assumption | apply State.canTake_keeps | apply State.setLsf_keeps | apply State.bump_keeps | apply State.raise_keeps | apply State.wn_keeps) | (with_reducible first | apply each_keeps | apply foldl_keeps) | intro _ _ _ | split | (with_reducible first | apply KeepsOf.put rfl | apply KeepsOf.filter) | dsimp only [Keeps]

theorem State.lsfTake_keeps {s₀ s : State} (h : Keeps s₀ s) (k : Nat) : Keeps s₀ (State.lsfTake s k) := by
  unfold State.lsfTake
  try dsimp only [Keeps]
  repeat' first | (with_reducible first | assumption | apply State.lsfReceive_keeps) | (with_reducible first | apply each_keeps | apply foldl_keeps) | intro _ _ _ | split | (with_reducible first | apply KeepsOf.put rfl | apply KeepsOf.filter) | dsimp only [Keeps]

theorem State.lsfTakeAll_keeps {s₀ s : State} (h : Keeps s₀ s) : Keeps s₀ (State.lsfTakeAll s) := by
  unfold State.lsfTakeAll
  try dsimp only [Keeps]
  repeat' first | (with_reducible first | assumption | apply each_keeps | apply State.lsfTake_keeps) | (with_reducible first | apply each_keeps | apply foldl_keeps) | intro _ _ _ | split | (with_reducible first | apply KeepsOf.put rfl | apply KeepsOf.filter) | dsimp only [Keeps]

theorem State.lsfProduceNow_keeps {s₀ s : State} (h : Keeps s₀ s) (k : Nat) (identical : Bool) : Keeps s₀ (State.lsfProduceNow s k identical) := by
  unfold State.lsfProduceNow
  try dsimp only [Keeps]
  repeat' first | (with_reducible first | assumption | apply State.canAbort_keeps | apply State.bump_keeps | apply State.own_keeps | apply State.setLsf_keeps | apply State.wn_keeps | apply State.canSend_keeps | apply State.raise_keeps) | (with_reducible first | apply each_keeps | apply foldl_keeps) | intro _ _ _ | split | (with_reducible first | apply KeepsOf.put rfl | apply KeepsOf.filter) | dsimp only [Keeps]

end Sys2Proof.Machine
end

