-- ==== Sys2Proof/Laws/KeepsTrip.lean ====
section
/-! SUPPORT. The operations of Machine/Trip.lean keep the store canonical and the queue as it is. -/

set_option linter.unusedTactic false
set_option linter.unreachableTactic false

namespace Sys2Proof.Machine

theorem State.rtEvent_keeps {s₀ s : State} (h : Keeps s₀ s) (i : Nat) : Keeps s₀ (State.rtEvent s i) := by
  unfold State.rtEvent
  try dsimp only [Keeps]
  repeat' first | (with_reducible first | assumption | apply State.wf__keeps) | (with_reducible first | apply each_keeps | apply foldl_keeps) | intro _ _ _ | split | (with_reducible first | apply KeepsOf.put rfl | apply KeepsOf.filter) | dsimp only [Keeps]

theorem State.homeFailed_keeps {s₀ s : State} (h : Keeps s₀ s) (e : HomeErr) : Keeps s₀ (State.homeFailed s e) := by
  unfold State.homeFailed
  try dsimp only [Keeps]
  repeat' first | (with_reducible first | assumption | apply State.rtEvent_keeps | apply State.fire_keeps) | (with_reducible first | apply each_keeps | apply foldl_keeps) | intro _ _ _ | split | (with_reducible first | apply KeepsOf.put rfl | apply KeepsOf.filter) | dsimp only [Keeps]

theorem State.permEnd_keeps {s₀ s : State} (h : Keeps s₀ s) : Keeps s₀ (State.permEnd s) := by
  unfold State.permEnd
  split
  · exact State.raise_keeps (s := { s with el := { s.el with perm := false } }) h.permOff _ _
  · exact h

theorem State.drvOff_keeps {s₀ s : State} (h : Keeps s₀ s) : Keeps s₀ (State.drvOff s) := by
  unfold State.drvOff
  try dsimp only [Keeps]
  repeat' first | (with_reducible first | assumption | apply State.wn_keeps | apply State.permEnd_keeps) | (with_reducible first | apply each_keeps | apply foldl_keeps) | intro _ _ _ | split | (with_reducible first | apply KeepsOf.put rfl | apply KeepsOf.filter) | dsimp only [Keeps]

theorem State.spFollow_keeps {s₀ s : State} (h : Keeps s₀ s) : Keeps s₀ (State.spFollow s) := by
  unfold State.spFollow
  try dsimp only [Keeps]
  repeat' first | (with_reducible first | assumption ) | (with_reducible first | apply each_keeps | apply foldl_keeps) | intro _ _ _ | split | (with_reducible first | apply KeepsOf.put rfl | apply KeepsOf.filter) | dsimp only [Keeps]

theorem State.motTrip_keeps {s₀ s : State} (h : Keeps s₀ s) : Keeps s₀ (State.motTrip s) := by
  unfold State.motTrip
  try dsimp only [Keeps]
  repeat' first | (with_reducible first | assumption | apply State.homeFailed_keeps | apply State.trip_keeps) | (with_reducible first | apply each_keeps | apply foldl_keeps) | intro _ _ _ | split | (with_reducible first | apply KeepsOf.put rfl | apply KeepsOf.filter) | dsimp only [Keeps]

theorem State.abandonCals_keeps {s₀ s : State} (h : Keeps s₀ s) : Keeps s₀ (State.abandonCals s) := by
  unfold State.abandonCals
  try dsimp only [Keeps]
  repeat' first | (with_reducible first | assumption | apply State.raise_keeps | apply each_keeps | apply State.doorLearnAbort_keeps | apply State.setDoor_keeps | apply State.doorInto_keeps) | (with_reducible first | apply each_keeps | apply foldl_keeps) | intro _ _ _ | split | (with_reducible first | apply KeepsOf.put rfl | apply KeepsOf.filter) | dsimp only [Keeps]

/-- Switching an output off leaves it off, and turns no other on. -/
theorem El.setOut_off (e : El) (k : Nat) (cyc i : Nat) (h : i = k ∨ e.IsOff i) : (e.setOut k false cyc).IsOff i :=
  El.setSw_off cyc (fun _ => ⟨rfl, rfl⟩) (fun n => h.resolve_left n)

/-- What is off stays off while outputs switch off, and each listed one is off. -/
theorem El.setOuts_off (l : List Nat) (i : Nat) (c : Nat) : ∀ e : El, i ∈ l ∨ e.IsOff i →
    (l.foldl (fun x k => x.setOut k false c) e).IsOff i := by
  induction l with
  | nil => intro e h; exact h.resolve_left (by simp)
  | cons k r ih =>
    intro e h
    refine ih (e.setOut k false c) ?_
    rcases h with h | h
    · rcases List.mem_cons.1 h with h | h
      · exact .inr (El.setOut_off e k c i (.inl h))
      · exact .inl h
    · exact .inr (El.setOut_off e k c i (.inr h))

/-- Everything but GOV off. -/
theorem El.allOff_off (e : El) : ∀ i < 8, e.allOff.IsOff i :=
  fun i hi => El.setOuts_off (List.range 8) i e.cyc e (.inl (List.mem_range.2 hi))

theorem El.allOffGov_off (e : El) (c : Nat) : ∀ i < 8, (e.allOff.setOut 8 false c).IsOff i :=
  fun i hi => El.setOut_off _ _ _ _ (.inr (El.allOff_off e i hi))

/-- Switching outputs changes what is latched nowhere. -/
theorem El.setOut_same (e : El) (k : Nat) (b : Bool) (c : Nat) :
    (e.setOut k b c).causes = e.causes ∧ (e.setOut k b c).st = e.st ∧ (e.setOut k b c).perm = e.perm ∧
      (e.setOut k b c).bypOn = e.bypOn ∧ (e.setOut k b c).relevGrant = e.relevGrant := by
  exact El.setSw_same e k b b c

theorem El.setOuts_same (l : List Nat) (c : Nat) : ∀ e : El,
    (l.foldl (fun x k => x.setOut k false c) e).causes = e.causes ∧ (l.foldl (fun x k => x.setOut k false c) e).st = e.st := by
  induction l with
  | nil => intro e; exact ⟨rfl, rfl⟩
  | cons k r ih =>
    intro e
    have h := ih (e.setOut k false c)
    have g := El.setOut_same e k false c
    exact ⟨h.1.trans g.1, h.2.trans g.2.1⟩

theorem El.allOffGov_same (e : El) (c : Nat) :
    (e.allOff.setOut 8 false c).causes = e.causes ∧ (e.allOff.setOut 8 false c).st = e.st := by
  have h := El.setOuts_same (List.range 8) e.cyc e
  have g := El.setOut_same e.allOff 8 false c
  exact ⟨g.1.trans h.1, g.2.1.trans h.2⟩

theorem State.loseAuthority_keeps {s₀ s : State} (h : Keeps s₀ s) : Keeps s₀ (State.loseAuthority s) := by
  unfold State.loseAuthority
  extract_lets c1 s1 s2 c2 c3 e s3
  have h2 : Keeps s₀ s2 := each_keeps _ (fun t c ht => State.doorAuthLost_keeps ht _) _ (s := s1) h
  have h3 : Keeps s₀ s3 := by
    have g : e.causes = s2.el.causes ∧ e.st = s2.el.st := El.allOffGov_same s2.el s2.el.cyc
    have o : ∀ i < 8, e.IsOff i := El.allOffGov_off s2.el s2.el.cyc
    clear_value e
    refine { (State.wn_keeps h2 drvAnOut 0) with el := fun k => ⟨fun hc => ?_, fun _ => ⟨rfl, rfl, rfl, o⟩⟩ }
    show e.st ≠ .normal
    rw [g.2]
    exact (h2.el k).tripped (g.1 ▸ hc)
  exact each_keeps _ (fun t n ht => State.canAbortAll_keeps ht _) _ h3

theorem State.handover_keeps {s₀ s : State} (h : Keeps s₀ s) : Keeps s₀ (State.handover s) := by
  unfold State.handover
  try dsimp only [Keeps]
  repeat' first | (with_reducible first | assumption | apply State.loseAuthority_keeps | apply State.setRole_keeps) | (with_reducible first | apply each_keeps | apply foldl_keeps) | intro _ _ _ | split | (with_reducible first | apply KeepsOf.put rfl | apply KeepsOf.filter) | dsimp only [Keeps]

/-- Latching leaves Electrum tripped with everything off. -/
theorem El.latched_safe (e : El) (new : List Nat) :
    (e.latched new).st = .tripped ∧ (e.latched new).perm = false ∧ (e.latched new).bypOn = false ∧
      (e.latched new).relevGrant = false ∧ ∀ i < 8, (e.latched new).IsOff i := by
  have o : ∀ i < 8, (e.tripped new).IsOff i := by
    intro i hi
    have g := El.allOff_off e i hi
    rw [El.tripped]
    generalize e.allOff = x at g ⊢
    exact g.of_eq rfl rfl
  have h1 : (e.tripped new).st = .tripped := rfl
  have h2 : (e.tripped new).perm = false := rfl
  have h3 : (e.tripped new).bypOn = false := rfl
  have h4 : (e.tripped new).relevGrant = false := rfl
  rw [El.latched]
  generalize e.tripped new = off at *
  split
  · have g := El.setOut_same off 8 false e.cyc
    exact ⟨g.2.1.trans h1, g.2.2.1.trans h2, g.2.2.2.1.trans h3, g.2.2.2.2.trans h4,
      fun i hi => El.setOut_off _ _ _ _ (.inr (o i hi))⟩
  · exact ⟨h1, h2, h3, h4, o⟩

theorem State.tripAll_keeps {s₀ s : State} (h : Keeps s₀ s) (asked : List Nat) : Keeps s₀ (State.tripAll s asked) := by
  unfold State.tripAll
  extract_lets causes may new fresh perm byp s1 s2 s3 s4 s5 s6
  split
  · exact h
  · have h1 : Keeps s₀ s1 := by
      obtain ⟨a, b, c, d, e⟩ := El.latched_safe s.el new
      refine { h with el := fun _ => ⟨fun _ => ?_, fun _ => ⟨b, c, d, e⟩⟩ }
      show (s.el.latched new).st ≠ .normal
      rw [a]; decide
    clear_value s1
    have h2 : Keeps s₀ s2 := by
      dsimp only [s2]
      split
      · exact State.raise_keeps h1 _ _
      · exact h1
    clear_value s2
    have h3 : Keeps s₀ s3 := by
      dsimp only [s3]
      split
      · exact State.raise_keeps h2 _ _
      · exact h2
    clear_value s3
    have h4 : Keeps s₀ s4 := by
      refine State.abandonCals_keeps (each_keeps _ (fun t c ht => ?_) _ h3)
      exact State.setDoor_keeps (State.doorGearAbort_keeps ht _ _) _ _
    clear_value s4
    have h5 : Keeps s₀ s5 := State.spFollow_keeps (State.drvOff_keeps (State.motTrip_keeps h4))
    clear_value s5
    have h6 : Keeps s₀ s6 := by
      dsimp only [s6]
      split
      · exact State.fire_keeps (State.wf__keeps (State.raise_keeps h5 _ _) _ _ _ _) _ _
      · exact h5
    clear_value s6
    split
    · exact State.handover_keeps h6
    · exact h6

theorem State.trip_keeps {s₀ s : State} (h : Keeps s₀ s) (cause : Nat) : Keeps s₀ (State.trip s cause) := by
  unfold State.trip
  try dsimp only [Keeps]
  repeat' first | (with_reducible first | assumption | apply State.tripAll_keeps) | (with_reducible first | apply each_keeps | apply foldl_keeps) | intro _ _ _ | split | (with_reducible first | apply KeepsOf.put rfl | apply KeepsOf.filter) | dsimp only [Keeps]

theorem State.tripModule_keeps {s₀ s : State} (h : Keeps s₀ s) : Keeps s₀ (State.tripModule s) := by
  unfold State.tripModule
  try dsimp only [Keeps]
  repeat' first | (with_reducible first | assumption | apply State.trip_keeps) | (with_reducible first | apply each_keeps | apply foldl_keeps) | intro _ _ _ | split | (with_reducible first | apply KeepsOf.put rfl | apply KeepsOf.filter) | dsimp only [Keeps]

end Sys2Proof.Machine
end

