-- ==== Sys2Proof/Laws/KeepsFioOps.lean ====
section
/-! SUPPORT. The operations of Machine/FioOps.lean keep the store canonical and the queue as it is. -/

set_option linter.unusedTactic false
set_option linter.unreachableTactic false

namespace Sys2Proof.Machine

theorem State.cosNote_keeps {s₀ s : State} (h : Keeps s₀ s) (g : Nat) (i : Nat) (up : Bool) : Keeps s₀ (State.cosNote s g i up) := by
  unfold State.cosNote
  try dsimp only [Keeps]
  repeat' first | (with_reducible first | assumption | apply State.setGrp_keeps | apply State.wf__keeps | apply State.wr_keeps | apply State.raise_keeps) | (with_reducible first | apply each_keeps | apply foldl_keeps) | intro _ _ _ | split | (with_reducible first | apply KeepsOf.put rfl | apply KeepsOf.filter) | dsimp only [Keeps]

theorem State.filterTick_keeps {s₀ s : State} (h : Keeps s₀ s) (g : Nat) (raw : Word) : Keeps s₀ (State.filterTick s g raw) := by
  unfold State.filterTick
  try dsimp only [Keeps]
  repeat' first | (with_reducible first | assumption | apply State.setGrp_keeps | apply each_keeps | apply State.cosNote_keeps) | (with_reducible first | apply each_keeps | apply foldl_keeps) | intro _ _ _ | split | (with_reducible first | apply KeepsOf.put rfl | apply KeepsOf.filter) | dsimp only [Keeps]

theorem State.supplySet_keeps {s₀ s : State} (h : Keeps s₀ s) (g : Nat) (mv : Nat) : Keeps s₀ (State.supplySet s g mv) := by
  unfold State.supplySet
  try dsimp only [Keeps]
  repeat' first | (with_reducible first | assumption | apply State.setGrp_keeps | apply State.raise_keeps) | (with_reducible first | apply each_keeps | apply foldl_keeps) | intro _ _ _ | split | (with_reducible first | apply KeepsOf.put rfl | apply KeepsOf.filter) | dsimp only [Keeps]

theorem State.tsdSet_keeps {s₀ s : State} (h : Keeps s₀ s) (c : Nat) : Keeps s₀ (State.tsdSet s c) := by
  unfold State.tsdSet
  try dsimp only [Keeps]
  repeat' first | (with_reducible first | assumption | apply State.setGrp_keeps | apply State.raise_keeps | apply State.fire_keeps) | (with_reducible first | apply each_keeps | apply foldl_keeps) | intro _ _ _ | split | (with_reducible first | apply KeepsOf.put rfl | apply KeepsOf.filter) | dsimp only [Keeps]

theorem State.tsdCool_keeps {s₀ s : State} (h : Keeps s₀ s) (c : Nat) : Keeps s₀ (State.tsdCool s c) := by
  unfold State.tsdCool
  try dsimp only [Keeps]
  repeat' first | (with_reducible first | assumption | apply State.setGrp_keeps) | (with_reducible first | apply each_keeps | apply foldl_keeps) | intro _ _ _ | split | (with_reducible first | apply KeepsOf.put rfl | apply KeepsOf.filter) | dsimp only [Keeps]

theorem State.tsdClear_keeps {s₀ s : State} (h : Keeps s₀ s) (g : Nat) (val : Word) : Keeps s₀ (State.tsdClear s g val) := by
  unfold State.tsdClear
  try dsimp only [Keeps]
  repeat' first | (with_reducible first | assumption | apply State.setGrp_keeps) | (with_reducible first | apply each_keeps | apply foldl_keeps) | intro _ _ _ | split | (with_reducible first | apply KeepsOf.put rfl | apply KeepsOf.filter) | dsimp only [Keeps]

theorem State.diagSet_keeps {s₀ s : State} (h : Keeps s₀ s) (c : Nat) (k : Diag) (present : Bool) : Keeps s₀ (State.diagSet s c k present) := by
  unfold State.diagSet
  try dsimp only [Keeps]
  repeat' first | (with_reducible first | assumption | apply State.setGrp_keeps | apply State.raise_keeps) | (with_reducible first | apply each_keeps | apply foldl_keeps) | intro _ _ _ | split | (with_reducible first | apply KeepsOf.put rfl | apply KeepsOf.filter) | dsimp only [Keeps]

theorem State.hostOutputs_keeps {s₀ s : State} (h : Keeps s₀ s) (f : Nat → Nat → Bool → Bool) : Keeps s₀ (State.hostOutputs s f) := by
  unfold State.hostOutputs
  try dsimp only [Keeps]
  repeat' first | (with_reducible first | assumption ) | (with_reducible first | apply each_keeps | apply foldl_keeps) | intro _ _ _ | split | (with_reducible first | apply KeepsOf.put rfl | apply KeepsOf.filter) | dsimp only [Keeps]

theorem State.safeOutputs_keeps {s₀ s : State} (h : Keeps s₀ s) : Keeps s₀ (State.safeOutputs s) := by
  unfold State.safeOutputs
  try dsimp only [Keeps]
  repeat' first | (with_reducible first | assumption | apply State.hostOutputs_keeps) | (with_reducible first | apply each_keeps | apply foldl_keeps) | intro _ _ _ | split | (with_reducible first | apply KeepsOf.put rfl | apply KeepsOf.filter) | dsimp only [Keeps]

theorem State.gainOutputs_keeps {s₀ s : State} (h : Keeps s₀ s) : Keeps s₀ (State.gainOutputs s) := by
  unfold State.gainOutputs
  try dsimp only [Keeps]
  repeat' first | (with_reducible first | assumption | apply State.hostOutputs_keeps) | (with_reducible first | apply each_keeps | apply foldl_keeps) | intro _ _ _ | split | (with_reducible first | apply KeepsOf.put rfl | apply KeepsOf.filter) | dsimp only [Keeps]

theorem State.silRestart_keeps {s₀ s : State} (h : Keeps s₀ s) (stamp : Nat) : Keeps s₀ (State.silRestart s stamp) := by
  unfold State.silRestart
  try dsimp only [Keeps]
  repeat' first | (with_reducible first | assumption ) | (with_reducible first | apply each_keeps | apply foldl_keeps) | intro _ _ _ | split | (with_reducible first | apply KeepsOf.put rfl | apply KeepsOf.filter) | dsimp only [Keeps]

theorem State.silEnable_keeps {s₀ s : State} (h : Keeps s₀ s) (was : Bool) : Keeps s₀ (State.silEnable s was) := by
  unfold State.silEnable
  try dsimp only [Keeps]
  repeat' first | (with_reducible first | assumption | apply State.silRestart_keeps) | (with_reducible first | apply each_keeps | apply foldl_keeps) | intro _ _ _ | split | (with_reducible first | apply KeepsOf.put rfl | apply KeepsOf.filter) | dsimp only [Keeps]

theorem State.silFrame_keeps {s₀ s : State} (h : Keeps s₀ s) : Keeps s₀ (State.silFrame s) := by
  unfold State.silFrame
  try dsimp only [Keeps]
  repeat' first | (with_reducible first | assumption | apply State.silRestart_keeps) | (with_reducible first | apply each_keeps | apply foldl_keeps) | intro _ _ _ | split | (with_reducible first | apply KeepsOf.put rfl | apply KeepsOf.filter) | dsimp only [Keeps]

theorem State.silExpire_keeps {s₀ s : State} (h : Keeps s₀ s) : Keeps s₀ (State.silExpire s) := by
  unfold State.silExpire
  try dsimp only [Keeps]
  repeat' first | (with_reducible first | assumption | apply State.raise_keeps | apply State.fire_keeps) | (with_reducible first | apply each_keeps | apply foldl_keeps) | intro _ _ _ | split | (with_reducible first | apply KeepsOf.put rfl | apply KeepsOf.filter) | dsimp only [Keeps]

theorem State.silAckNow_keeps {s₀ s : State} (h : Keeps s₀ s) : Keeps s₀ (State.silAckNow s) := by
  unfold State.silAckNow
  try dsimp only [Keeps]
  repeat' first | (with_reducible first | assumption | apply State.safeOutputs_keeps | apply State.silRestart_keeps) | (with_reducible first | apply each_keeps | apply foldl_keeps) | intro _ _ _ | split | (with_reducible first | apply KeepsOf.put rfl | apply KeepsOf.filter) | dsimp only [Keeps]

theorem State.outWrite_keeps {s₀ s : State} (h : Keeps s₀ s) (g : Nat) (val : Word) (on : Bool) : Keeps s₀ (State.outWrite s g val on) := by
  unfold State.outWrite
  try dsimp only [Keeps]
  repeat' first | (with_reducible first | assumption | apply State.setGrp_keeps) | (with_reducible first | apply each_keeps | apply foldl_keeps) | intro _ _ _ | split | (with_reducible first | apply KeepsOf.put rfl | apply KeepsOf.filter) | dsimp only [Keeps]

theorem State.chCfgApply_keeps {s₀ s : State} (h : Keeps s₀ s) (g : Nat) (i : Nat) (val : Word) : Keeps s₀ (State.chCfgApply s g i val) := by
  unfold State.chCfgApply
  try dsimp only [Keeps]
  repeat' first | (with_reducible first | assumption | apply State.wr_keeps | apply State.setGrp_keeps) | (with_reducible first | apply each_keeps | apply foldl_keeps) | intro _ _ _ | split | (with_reducible first | apply KeepsOf.put rfl | apply KeepsOf.filter) | dsimp only [Keeps]

end Sys2Proof.Machine
end

