-- ==== Sys2Proof/Laws/KeepsPosOps.lean ====
section
/-! SUPPORT. The operations of Machine/PosOps.lean keep the store canonical and the queue as it is. -/

set_option linter.unusedTactic false
set_option linter.unreachableTactic false

namespace Sys2Proof.Machine

theorem State.setDz_keeps {s₀ s : State} (h : Keeps s₀ s) (c : Chan) (d : DzCh) : Keeps s₀ (State.setDz s c d) := by
  unfold State.setDz
  try dsimp only [Keeps]
  repeat' first | (with_reducible first | assumption ) | (with_reducible first | apply each_keeps | apply foldl_keeps) | intro _ _ _ | split | (with_reducible first | apply KeepsOf.put rfl | apply KeepsOf.filter) | dsimp only [Keeps]

theorem State.setSrc_keeps {s₀ s : State} (h : Keeps s₀ s) (i : PosSrc) (st : SrcState) : Keeps s₀ (State.setSrc s i st) := by
  unfold State.setSrc
  try dsimp only [Keeps]
  repeat' first | (with_reducible first | assumption ) | (with_reducible first | apply each_keeps | apply foldl_keeps) | intro _ _ _ | split | (with_reducible first | apply KeepsOf.put rfl | apply KeepsOf.filter) | dsimp only [Keeps]

theorem State.posNote_keeps {s₀ s : State} (h : Keeps s₀ s) : Keeps s₀ (State.posNote s) := by
  unfold State.posNote
  try dsimp only [Keeps]
  repeat' first | (with_reducible first | assumption | apply State.raise_keeps) | (with_reducible first | apply each_keeps | apply foldl_keeps) | intro _ _ _ | split | (with_reducible first | apply KeepsOf.put rfl | apply KeepsOf.filter) | dsimp only [Keeps]

theorem State.sourceLost_keeps {s₀ s : State} (h : Keeps s₀ s) (i : PosSrc) : Keeps s₀ (State.sourceLost s i) := by
  unfold State.sourceLost
  try dsimp only [Keeps]
  repeat' first | (with_reducible first | assumption | apply State.setSrc_keeps | apply State.raise_keeps | apply State.fire_keeps | apply State.posNote_keeps | apply State.tripModule_keeps) | (with_reducible first | apply each_keeps | apply foldl_keeps) | intro _ _ _ | split | (with_reducible first | apply KeepsOf.put rfl | apply KeepsOf.filter) | dsimp only [Keeps]

theorem State.rebase_keeps {s₀ s : State} (h : Keeps s₀ s) : Keeps s₀ (State.rebase s) := by
  unfold State.rebase
  try dsimp only [Keeps]
  repeat' first | (with_reducible first | assumption ) | (with_reducible first | apply each_keeps | apply foldl_keeps) | intro _ _ _ | split | (with_reducible first | apply KeepsOf.put rfl | apply KeepsOf.filter) | dsimp only [Keeps]

theorem State.sourceBack_keeps {s₀ s : State} (h : Keeps s₀ s) (i : PosSrc) : Keeps s₀ (State.sourceBack s i) := by
  unfold State.sourceBack
  try dsimp only [Keeps]
  repeat' first | (with_reducible first | assumption | apply State.setSrc_keeps | apply State.raise_keeps | apply State.rebase_keeps | apply State.posNote_keeps) | (with_reducible first | apply each_keeps | apply foldl_keeps) | intro _ _ _ | split | (with_reducible first | apply KeepsOf.put rfl | apply KeepsOf.filter) | dsimp only [Keeps]

theorem State.absLanding_keeps {s₀ s : State} (h : Keeps s₀ s) : Keeps s₀ (State.absLanding s) := by
  unfold State.absLanding
  try dsimp only [Keeps]
  repeat' first | (with_reducible first | assumption ) | (with_reducible first | apply each_keeps | apply foldl_keeps) | intro _ _ _ | split | (with_reducible first | apply KeepsOf.put rfl | apply KeepsOf.filter) | dsimp only [Keeps]

theorem State.setAbs_keeps {s₀ s : State} (h : Keeps s₀ s) : Keeps s₀ (State.setAbs s) := by
  unfold State.setAbs
  try dsimp only [Keeps]
  repeat' first | (with_reducible first | assumption | apply State.absLanding_keeps | apply State.posNote_keeps) | (with_reducible first | apply each_keeps | apply foldl_keeps) | intro _ _ _ | split | (with_reducible first | apply KeepsOf.put rfl | apply KeepsOf.filter) | dsimp only [Keeps]

theorem State.watchSrc_keeps {s₀ s : State} (h : Keeps s₀ s) (i : PosSrc) (bad : Bool) (counts : Bool) : Keeps s₀ (State.watchSrc s i bad counts) := by
  unfold State.watchSrc
  try dsimp only [Keeps]
  repeat' first | (with_reducible first | assumption | apply State.sourceLost_keeps) | (with_reducible first | apply each_keeps | apply foldl_keeps) | intro _ _ _ | split | (with_reducible first | apply KeepsOf.put rfl | apply KeepsOf.filter) | dsimp only [Keeps]

theorem State.takeLoad_keeps {s₀ s : State} (h : Keeps s₀ s) : Keeps s₀ (State.takeLoad s) := by
  unfold State.takeLoad
  try dsimp only [Keeps]
  repeat' first | (with_reducible first | assumption | apply State.sourceLost_keeps) | (with_reducible first | apply each_keeps | apply foldl_keeps) | intro _ _ _ | split | (with_reducible first | apply KeepsOf.put rfl | apply KeepsOf.filter) | dsimp only [Keeps]

theorem State.fuseEnc_keeps {s₀ s : State} (h : Keeps s₀ s) (step : Int) : Keeps s₀ (State.fuseEnc s step) := by
  unfold State.fuseEnc
  try dsimp only [Keeps]
  repeat' first | (with_reducible first | assumption ) | (with_reducible first | apply each_keeps | apply foldl_keeps) | intro _ _ _ | split | (with_reducible first | apply KeepsOf.put rfl | apply KeepsOf.filter) | dsimp only [Keeps]

theorem State.fuseAcc_keeps {s₀ s : State} (h : Keeps s₀ s) (f : Int) : Keeps s₀ (State.fuseAcc s f) := by
  unfold State.fuseAcc
  try dsimp only [Keeps]
  repeat' first | (with_reducible first | assumption ) | (with_reducible first | apply each_keeps | apply foldl_keeps) | intro _ _ _ | split | (with_reducible first | apply KeepsOf.put rfl | apply KeepsOf.filter) | dsimp only [Keeps]

theorem State.fuseSr_keeps {s₀ s : State} (h : Keeps s₀ s) (lmm : Nat) : Keeps s₀ (State.fuseSr s lmm) := by
  unfold State.fuseSr
  try dsimp only [Keeps]
  repeat' first | (with_reducible first | assumption | apply State.raise_keeps | apply State.sourceLost_keeps) | (with_reducible first | apply each_keeps | apply foldl_keeps) | intro _ _ _ | split | (with_reducible first | apply KeepsOf.put rfl | apply KeepsOf.filter) | dsimp only [Keeps]

theorem State.dzShown_keeps {s₀ s : State} (h : Keeps s₀ s) (c : Chan) (rising : Bool) (stampUs : Nat) : Keeps s₀ (State.dzShown s c rising stampUs) := by
  unfold State.dzShown
  try dsimp only [Keeps]
  repeat' first | (with_reducible first | assumption | apply State.setDz_keeps) | (with_reducible first | apply each_keeps | apply foldl_keeps) | intro _ _ _ | split | (with_reducible first | apply KeepsOf.put rfl | apply KeepsOf.filter) | dsimp only [Keeps]

theorem State.fuseEdge_keeps {s₀ s : State} (h : Keeps s₀ s) (c : Chan) (rising : Bool) (stampUs : Nat) : Keeps s₀ (State.fuseEdge s c rising stampUs) := by
  unfold State.fuseEdge
  try dsimp only [Keeps]
  repeat' first | (with_reducible first | assumption | apply State.raise_keeps) | (with_reducible first | apply each_keeps | apply foldl_keeps) | intro _ _ _ | split | (with_reducible first | apply KeepsOf.put rfl | apply KeepsOf.filter) | dsimp only [Keeps]

theorem State.fuseDz_keeps {s₀ s : State} (h : Keeps s₀ s) (c : Chan) : Keeps s₀ (State.fuseDz s c) := by
  unfold State.fuseDz
  try dsimp only [Keeps]
  repeat' first | (with_reducible first | assumption | apply State.dzShown_keeps | apply State.setDz_keeps | apply State.fuseEdge_keeps | apply State.raise_keeps) | (with_reducible first | apply each_keeps | apply foldl_keeps) | intro _ _ _ | split | (with_reducible first | apply KeepsOf.put rfl | apply KeepsOf.filter) | dsimp only [Keeps]

theorem State.dzTrack_keeps {s₀ s : State} (h : Keeps s₀ s) (c : Chan) (p0 : Int) : Keeps s₀ (State.dzTrack s c p0) := by
  unfold State.dzTrack
  try dsimp only [Keeps]
  repeat' first | (with_reducible first | assumption | apply State.setDz_keeps) | (with_reducible first | apply each_keeps | apply foldl_keeps) | intro _ _ _ | split | (with_reducible first | apply KeepsOf.put rfl | apply KeepsOf.filter) | dsimp only [Keeps]

theorem State.passEnd_keeps {s₀ s : State} (h : Keeps s₀ s) (c : Chan) (x : DzPass) : Keeps s₀ (State.passEnd s c x) := by
  unfold State.passEnd
  try dsimp only [Keeps]
  repeat' first | (with_reducible first | assumption | apply State.setDz_keeps | apply State.sourceLost_keeps) | (with_reducible first | apply each_keeps | apply foldl_keeps) | intro _ _ _ | split | (with_reducible first | apply KeepsOf.put rfl | apply KeepsOf.filter) | dsimp only [Keeps]

theorem State.dzEndCrossing_keeps {s₀ s : State} (h : Keeps s₀ s) (c : Chan) (p0 : Int) : Keeps s₀ (State.dzEndCrossing s c p0) := by
  unfold State.dzEndCrossing
  try dsimp only [Keeps]
  repeat' first | (with_reducible first | assumption | apply State.setDz_keeps | apply each_keeps | apply State.passEnd_keeps) | (with_reducible first | apply each_keeps | apply foldl_keeps) | intro _ _ _ | split | (with_reducible first | apply KeepsOf.put rfl | apply KeepsOf.filter) | dsimp only [Keeps]

theorem State.encCompare_keeps {s₀ s : State} (h : Keeps s₀ s) : Keeps s₀ (State.encCompare s) := by
  unfold State.encCompare
  try dsimp only [Keeps]
  repeat' first | (with_reducible first | assumption ) | (with_reducible first | apply each_keeps | apply foldl_keeps) | intro _ _ _ | split | (with_reducible first | apply KeepsOf.put rfl | apply KeepsOf.filter) | dsimp only [Keeps]

theorem State.slipNote_keeps {s₀ s : State} (h : Keeps s₀ s) : Keeps s₀ (State.slipNote s) := by
  unfold State.slipNote
  try dsimp only [Keeps]
  repeat' first | (with_reducible first | assumption ) | (with_reducible first | apply each_keeps | apply foldl_keeps) | intro _ _ _ | split | (with_reducible first | apply KeepsOf.put rfl | apply KeepsOf.filter) | dsimp only [Keeps]

theorem State.biasCalStep_keeps {s₀ s : State} (h : Keeps s₀ s) (f : Int) : Keeps s₀ (State.biasCalStep s f) := by
  unfold State.biasCalStep
  try dsimp only [Keeps]
  repeat' first | (with_reducible first | assumption | apply State.raise_keeps) | (with_reducible first | apply each_keeps | apply foldl_keeps) | intro _ _ _ | split | (with_reducible first | apply KeepsOf.put rfl | apply KeepsOf.filter) | dsimp only [Keeps]

theorem State.lwbCalWatch_keeps {s₀ s : State} (h : Keeps s₀ s) : Keeps s₀ (State.lwbCalWatch s) := by
  unfold State.lwbCalWatch
  try dsimp only [Keeps]
  repeat' first | (with_reducible first | assumption | apply State.raise_keeps) | (with_reducible first | apply each_keeps | apply foldl_keeps) | intro _ _ _ | split | (with_reducible first | apply KeepsOf.put rfl | apply KeepsOf.filter) | dsimp only [Keeps]

theorem State.srRequest_keeps {s₀ s : State} (h : Keeps s₀ s) : Keeps s₀ (State.srRequest s) := by
  unfold State.srRequest
  try dsimp only [Keeps]
  repeat' first | (with_reducible first | assumption ) | (with_reducible first | apply each_keeps | apply foldl_keeps) | intro _ _ _ | split | (with_reducible first | apply KeepsOf.put rfl | apply KeepsOf.filter) | dsimp only [Keeps]

theorem State.fuseStretch_keeps {s₀ t : State} (h : Keeps s₀ t) : Keeps s₀ (State.fuseStretch t) := by
  unfold State.fuseStretch
  try dsimp only [Keeps]
  repeat' first | (with_reducible first | assumption ) | (with_reducible first | apply each_keeps | apply foldl_keeps) | intro _ _ _ | split | (with_reducible first | apply KeepsOf.put rfl | apply KeepsOf.filter) | dsimp only [Keeps]

theorem State.encStore_keeps {s₀ s : State} (h : Keeps s₀ s) (i : TickIn) (st1 : Int) (st2 : Int) : Keeps s₀ (State.encStore s i st1 st2) := by
  unfold State.encStore
  try dsimp only [Keeps]
  repeat' first | (with_reducible first | assumption ) | (with_reducible first | apply each_keeps | apply foldl_keeps) | intro _ _ _ | split | (with_reducible first | apply KeepsOf.put rfl | apply KeepsOf.filter) | dsimp only [Keeps]

theorem State.watchAll_keeps {s₀ s : State} (h : Keeps s₀ s) (i : TickIn) : Keeps s₀ (State.watchAll s i) := by
  unfold State.watchAll
  try dsimp only [Keeps]
  repeat' first | (with_reducible first | assumption | apply State.watchSrc_keeps | apply State.takeLoad_keeps) | (with_reducible first | apply each_keeps | apply foldl_keeps) | intro _ _ _ | split | (with_reducible first | apply KeepsOf.put rfl | apply KeepsOf.filter) | dsimp only [Keeps]

theorem State.fusion_keeps {s₀ s : State} (h : Keeps s₀ s) (i : TickIn) : Keeps s₀ (State.fusion s i) := by
  unfold State.fusion
  try dsimp only [Keeps]
  repeat' first | (with_reducible first | assumption | apply State.watchAll_keeps | apply State.fuseStretch_keeps | apply State.fuseEnc_keeps | apply State.fuseAcc_keeps | apply State.fuseSr_keeps | apply State.dzTrack_keeps | apply State.fuseDz_keeps | apply State.dzEndCrossing_keeps | apply State.encStore_keeps | apply State.slipNote_keeps | apply State.biasCalStep_keeps | apply State.encCompare_keeps | apply State.srRequest_keeps | apply State.lwbCalWatch_keeps | apply State.posNote_keeps) | (with_reducible first | apply each_keeps | apply foldl_keeps) | intro _ _ _ | split | (with_reducible first | apply KeepsOf.put rfl | apply KeepsOf.filter) | dsimp only [Keeps]

theorem State.takeReader_keeps {s₀ s : State} (h : Keeps s₀ s) (rest : Bool) : Keeps s₀ (State.takeReader s rest) := by
  unfold State.takeReader
  try dsimp only [Keeps]
  repeat' first | (with_reducible first | assumption | apply State.rebase_keeps) | (with_reducible first | apply each_keeps | apply foldl_keeps) | intro _ _ _ | split | (with_reducible first | apply KeepsOf.put rfl | apply KeepsOf.filter) | dsimp only [Keeps]

theorem State.sourceReturn_keeps {s₀ s : State} (h : Keeps s₀ s) (i : PosSrc) : Keeps s₀ (State.sourceReturn s i) := by
  unfold State.sourceReturn
  try dsimp only [Keeps]
  repeat' first | (with_reducible first | assumption | apply State.sourceBack_keeps | apply State.takeReader_keeps | apply State.setAbs_keeps) | (with_reducible first | apply each_keeps | apply foldl_keeps) | intro _ _ _ | split | (with_reducible first | apply KeepsOf.put rfl | apply KeepsOf.filter) | dsimp only [Keeps]

theorem State.srAnswer_keeps {s₀ s : State} (h : Keeps s₀ s) (l : List Byte) (endNs : Nat) : Keeps s₀ (State.srAnswer s l endNs) := by
  unfold State.srAnswer
  try dsimp only [Keeps]
  repeat' first | (with_reducible first | assumption | apply State.wi_keeps | apply State.wr_keeps | apply State.bump_keeps) | (with_reducible first | apply each_keeps | apply foldl_keeps) | intro _ _ _ | split | (with_reducible first | apply KeepsOf.put rfl | apply KeepsOf.filter) | dsimp only [Keeps]

theorem State.srTimeout_keeps {s₀ s : State} (h : Keeps s₀ s) : Keeps s₀ (State.srTimeout s) := by
  unfold State.srTimeout
  try dsimp only [Keeps]
  repeat' first | (with_reducible first | assumption | apply State.sourceLost_keeps) | (with_reducible first | apply each_keeps | apply foldl_keeps) | intro _ _ _ | split | (with_reducible first | apply KeepsOf.put rfl | apply KeepsOf.filter) | dsimp only [Keeps]

theorem ElCh.reacq_outs (c : ElCh) : c.reacq.outs = c.outs := by
  unfold ElCh.reacq; split <;> rfl

theorem State.srReacq_keeps {s₀ s : State} (h : Keeps s₀ s) : Keeps s₀ (State.srReacq s) := by
  unfold State.srReacq
  have h0 : Keeps s₀ { s with el := { s.el with a := s.el.a.reacq, b := s.el.b.reacq } } := by
    refine { h with el := ?_ }
    show _ → ElSafe s.el.causes s.el.st s.el.perm s.el.bypOn s.el.relevGrant s.el.a.reacq.outs s.el.b.reacq.outs
    rw [ElCh.reacq_outs, ElCh.reacq_outs]; exact h.el
  have ht := State.wf__keeps h0 posSrInfo 24 8 0
  dsimp only at ht ⊢
  split
  · exact ht
  · exact ht

theorem State.dzEdgeSeen_keeps {s₀ s : State} (h : Keeps s₀ s) (c : Chan) (rising : Bool) (stampUs : Nat) : Keeps s₀ (State.dzEdgeSeen s c rising stampUs) := by
  unfold State.dzEdgeSeen
  try dsimp only [Keeps]
  repeat' first | (with_reducible first | assumption | apply State.setDz_keeps) | (with_reducible first | apply each_keeps | apply foldl_keeps) | intro _ _ _ | split | (with_reducible first | apply KeepsOf.put rfl | apply KeepsOf.filter) | dsimp only [Keeps]

theorem State.dzFault_keeps {s₀ s : State} (h : Keeps s₀ s) (c : Chan) : Keeps s₀ (State.dzFault s c) := by
  unfold State.dzFault
  try dsimp only [Keeps]
  repeat' first | (with_reducible first | assumption | apply State.setDz_keeps | apply State.sourceLost_keeps) | (with_reducible first | apply each_keeps | apply foldl_keeps) | intro _ _ _ | split | (with_reducible first | apply KeepsOf.put rfl | apply KeepsOf.filter) | dsimp only [Keeps]

theorem State.elWire_keeps {s₀ s : State} (h : Keeps s₀ s) (c : Chan) (on : Bool) : Keeps s₀ (State.elWire s c on) := by
  unfold State.elWire
  cases c <;> exact h

theorem State.dzFaultEnd_keeps {s₀ s : State} (h : Keeps s₀ s) (c : Chan) : Keeps s₀ (State.dzFaultEnd s c) := by
  unfold State.dzFaultEnd
  try dsimp only [Keeps]
  repeat' first | (with_reducible first | assumption | apply State.setDz_keeps) | (with_reducible first | apply each_keeps | apply foldl_keeps) | intro _ _ _ | split | (with_reducible first | apply KeepsOf.put rfl | apply KeepsOf.filter) | dsimp only [Keeps]

theorem State.posObserve_keeps {s₀ s : State} (h : Keeps s₀ s) : Keeps s₀ (State.posObserve s) := by
  unfold State.posObserve
  try dsimp only [Keeps]
  repeat' first | (with_reducible first | assumption | apply State.setSrc_keeps | apply each_keeps) | (with_reducible first | apply each_keeps | apply foldl_keeps) | intro _ _ _ | split | (with_reducible first | apply KeepsOf.put rfl | apply KeepsOf.filter) | dsimp only [Keeps]

theorem State.posStop_keeps {s₀ s : State} (h : Keeps s₀ s) : Keeps s₀ (State.posStop s) := by
  unfold State.posStop
  try dsimp only [Keeps]
  repeat' first | (with_reducible first | assumption | apply State.wf__keeps | apply each_keeps | apply State.setSrc_keeps | apply State.posNote_keeps) | (with_reducible first | apply each_keeps | apply foldl_keeps) | intro _ _ _ | split | (with_reducible first | apply KeepsOf.put rfl | apply KeepsOf.filter) | dsimp only [Keeps]

theorem State.absFromZone_keeps {s₀ s : State} (h : Keeps s₀ s) : Keeps s₀ (State.absFromZone s) := by
  unfold State.absFromZone
  try dsimp only [Keeps]
  repeat' first | (with_reducible first | assumption | apply State.setAbs_keeps | apply State.rebase_keeps) | (with_reducible first | apply each_keeps | apply foldl_keeps) | intro _ _ _ | split | (with_reducible first | apply KeepsOf.put rfl | apply KeepsOf.filter) | dsimp only [Keeps]

theorem State.posStart_keeps {s₀ s : State} (h : Keeps s₀ s) (saved : Option (Int × Int × Nat × Int)) (kb : Option (Nat × Int)) : Keeps s₀ (State.posStart s saved kb) := by
  unfold State.posStart
  try dsimp only [Keeps]
  repeat' first | (with_reducible first | assumption | apply State.wf__keeps | apply State.absFromZone_keeps | apply State.posObserve_keeps) | (with_reducible first | apply each_keeps | apply foldl_keeps) | intro _ _ _ | split | (with_reducible first | apply KeepsOf.put rfl | apply KeepsOf.filter) | dsimp only [Keeps]

theorem State.lwbConvert_keeps {s₀ s : State} (h : Keeps s₀ s) (raw : Int) (openWire : Bool) (exc : Bool) (overRange : Bool) : Keeps s₀ (State.lwbConvert s raw openWire exc overRange) := by
  unfold State.lwbConvert
  try dsimp only [Keeps]
  repeat' first | (with_reducible first | assumption ) | (with_reducible first | apply each_keeps | apply foldl_keeps) | intro _ _ _ | split | (with_reducible first | apply KeepsOf.put rfl | apply KeepsOf.filter) | dsimp only [Keeps]

theorem State.lwbSetValid_keeps {s₀ s : State} (h : Keeps s₀ s) (v : Bool) : Keeps s₀ (State.lwbSetValid s v) := by
  unfold State.lwbSetValid
  try dsimp only [Keeps]
  repeat' first | (with_reducible first | assumption | apply State.raise_keeps) | (with_reducible first | apply each_keeps | apply foldl_keeps) | intro _ _ _ | split | (with_reducible first | apply KeepsOf.put rfl | apply KeepsOf.filter) | dsimp only [Keeps]

theorem State.lwbEnable_keeps {s₀ s : State} (h : Keeps s₀ s) (on : Bool) : Keeps s₀ (State.lwbEnable s on) := by
  unfold State.lwbEnable
  try dsimp only [Keeps]
  repeat' first | (with_reducible first | assumption | apply State.lwbSetValid_keeps) | (with_reducible first | apply each_keeps | apply foldl_keeps) | intro _ _ _ | split | (with_reducible first | apply KeepsOf.put rfl | apply KeepsOf.filter) | dsimp only [Keeps]

theorem State.lwbCalEnd_keeps {s₀ s : State} (h : Keeps s₀ s) : Keeps s₀ (State.lwbCalEnd s) := by
  unfold State.lwbCalEnd
  try dsimp only [Keeps]
  repeat' first | (with_reducible first | assumption | apply State.wi_keeps | apply State.raise_keeps | apply State.wr_keeps) | (with_reducible first | apply each_keeps | apply foldl_keeps) | intro _ _ _ | split | (with_reducible first | apply KeepsOf.put rfl | apply KeepsOf.filter) | dsimp only [Keeps]

end Sys2Proof.Machine
end

