-- ==== Sys2Proof/Laws/KeepsMotOps.lean ====
section
/-! SUPPORT. The operations of Machine/MotOps.lean keep the store canonical and the queue as it is. -/

set_option linter.unusedTactic false
set_option linter.unreachableTactic false

namespace Sys2Proof.Machine

theorem State.motSpeed_keeps {s₀ s : State} (h : Keeps s₀ s) : Keeps s₀ (State.motSpeed s) := by
  unfold State.motSpeed
  try dsimp only [Keeps]
  repeat' first | (with_reducible first | assumption ) | (with_reducible first | apply each_keeps | apply foldl_keeps) | intro _ _ _ | split | (with_reducible first | apply KeepsOf.put rfl | apply KeepsOf.filter) | dsimp only [Keeps]

theorem State.motStopRamp_keeps {s₀ s : State} (h : Keeps s₀ s) : Keeps s₀ (State.motStopRamp s) := by
  unfold State.motStopRamp
  try dsimp only [Keeps]
  repeat' first | (with_reducible first | assumption | apply State.raise_keeps) | (with_reducible first | apply each_keeps | apply foldl_keeps) | intro _ _ _ | split | (with_reducible first | apply KeepsOf.put rfl | apply KeepsOf.filter) | dsimp only [Keeps]

theorem State.motCommit_keeps {s₀ s : State} (h : Keeps s₀ s) (n : Nat) (src : CommitSrc) : Keeps s₀ (State.motCommit s n src) := by
  unfold State.motCommit
  try dsimp only [Keeps]
  repeat' first | (with_reducible first | assumption | apply State.wn_keeps | apply State.raise_keeps) | (with_reducible first | apply each_keeps | apply foldl_keeps) | intro _ _ _ | split | (with_reducible first | apply KeepsOf.put rfl | apply KeepsOf.filter) | dsimp only [Keeps]

theorem State.hostCommit_keeps {s₀ s : State} (h : Keeps s₀ s) (n : Nat) : Keeps s₀ (State.hostCommit s n) := by
  unfold State.hostCommit
  try dsimp only [Keeps]
  repeat' first | (with_reducible first | assumption | apply State.motCommit_keeps) | (with_reducible first | apply each_keeps | apply foldl_keeps) | intro _ _ _ | split | (with_reducible first | apply KeepsOf.put rfl | apply KeepsOf.filter) | dsimp only [Keeps]

theorem State.commitStop_keeps {s₀ s : State} (h : Keeps s₀ s) (n : Nat) (src : CommitSrc) : Keeps s₀ (State.commitStop s n src) := by
  unfold State.commitStop
  try dsimp only [Keeps]
  repeat' first | (with_reducible first | assumption | apply State.motCommit_keeps | apply State.motStopRamp_keeps) | (with_reducible first | apply each_keeps | apply foldl_keeps) | intro _ _ _ | split | (with_reducible first | apply KeepsOf.put rfl | apply KeepsOf.filter) | dsimp only [Keeps]

theorem State.drvRequest_keeps {s₀ s : State} (h : Keeps s₀ s) : Keeps s₀ (State.drvRequest s) := by
  unfold State.drvRequest
  try dsimp only [Keeps]
  repeat' first | (with_reducible first | assumption ) | (with_reducible first | apply each_keeps | apply foldl_keeps) | intro _ _ _ | split | (with_reducible first | apply KeepsOf.put rfl | apply KeepsOf.filter) | dsimp only [Keeps]

theorem State.motStartNow_keeps {s₀ s : State} (h : Keeps s₀ s) : Keeps s₀ (State.motStartNow s) := by
  unfold State.motStartNow
  try dsimp only [Keeps]
  repeat' first | (with_reducible first | assumption | apply State.drvRequest_keeps) | (with_reducible first | apply each_keeps | apply foldl_keeps) | intro _ _ _ | split | (with_reducible first | apply KeepsOf.put rfl | apply KeepsOf.filter) | dsimp only [Keeps]

theorem State.motLanded_keeps {s₀ s : State} (h : Keeps s₀ s) : Keeps s₀ (State.motLanded s) := by
  unfold State.motLanded
  try dsimp only [Keeps]
  repeat' first | (with_reducible first | assumption ) | (with_reducible first | apply each_keeps | apply foldl_keeps) | intro _ _ _ | split | (with_reducible first | apply KeepsOf.put rfl | apply KeepsOf.filter) | dsimp only [Keeps]

theorem State.motIdleNow_keeps {s₀ s : State} (h : Keeps s₀ s) : Keeps s₀ (State.motIdleNow s) := by
  unfold State.motIdleNow
  try dsimp only [Keeps]
  repeat' first | (with_reducible first | assumption | apply State.spFollow_keeps) | (with_reducible first | apply each_keeps | apply foldl_keeps) | intro _ _ _ | split | (with_reducible first | apply KeepsOf.put rfl | apply KeepsOf.filter) | dsimp only [Keeps]

theorem State.motHoldNow_keeps {s₀ s : State} (h : Keeps s₀ s) : Keeps s₀ (State.motHoldNow s) := by
  unfold State.motHoldNow
  try dsimp only [Keeps]
  repeat' first | (with_reducible first | assumption | apply State.drvOff_keeps | apply State.spFollow_keeps | apply State.homeFailed_keeps | apply State.motIdleNow_keeps) | (with_reducible first | apply each_keeps | apply foldl_keeps) | intro _ _ _ | split | (with_reducible first | apply KeepsOf.put rfl | apply KeepsOf.filter) | dsimp only [Keeps]

theorem State.homeFail_keeps {s₀ s : State} (h : Keeps s₀ s) (e : HomeErr) : Keeps s₀ (State.homeFail s e) := by
  unfold State.homeFail
  try dsimp only [Keeps]
  repeat' first | (with_reducible first | assumption | apply State.homeFailed_keeps | apply State.motIdleNow_keeps | apply State.drvOff_keeps) | (with_reducible first | apply each_keeps | apply foldl_keeps) | intro _ _ _ | split | (with_reducible first | apply KeepsOf.put rfl | apply KeepsOf.filter) | dsimp only [Keeps]

theorem State.specialStart_keeps {s₀ s : State} (h : Keeps s₀ s) (t : RunType) (up : Bool) (vel : Nat) : Keeps s₀ (State.specialStart s t up vel) := by
  unfold State.specialStart
  try dsimp only [Keeps]
  repeat' first | (with_reducible first | assumption | apply State.drvRequest_keeps | apply State.spFollow_keeps) | (with_reducible first | apply each_keeps | apply foldl_keeps) | intro _ _ _ | split | (with_reducible first | apply KeepsOf.put rfl | apply KeepsOf.filter) | dsimp only [Keeps]

theorem State.homeStart_keeps {s₀ s : State} (h : Keeps s₀ s) : Keeps s₀ (State.homeStart s) := by
  unfold State.homeStart
  try dsimp only [Keeps]
  repeat' first | (with_reducible first | assumption | apply State.specialStart_keeps) | (with_reducible first | apply each_keeps | apply foldl_keeps) | intro _ _ _ | split | (with_reducible first | apply KeepsOf.put rfl | apply KeepsOf.filter) | dsimp only [Keeps]

theorem State.proofCycle_keeps {s₀ s : State} (h : Keeps s₀ s) (n : Nat) : Keeps s₀ (State.proofCycle s n) := by
  unfold State.proofCycle
  try dsimp only [Keeps]
  repeat' first | (with_reducible first | assumption ) | (with_reducible first | apply each_keeps | apply foldl_keeps) | intro _ _ _ | split | (with_reducible first | apply KeepsOf.put rfl | apply KeepsOf.filter) | dsimp only [Keeps]

theorem State.specialTo_keeps {s₀ s : State} (h : Keeps s₀ s) (t : RunType) (n : Nat) (vel : Nat) : Keeps s₀ (State.specialTo s t n vel) := by
  unfold State.specialTo
  try dsimp only [Keeps]
  repeat' first | (with_reducible first | assumption | apply State.specialStart_keeps | apply State.motCommit_keeps) | (with_reducible first | apply each_keeps | apply foldl_keeps) | intro _ _ _ | split | (with_reducible first | apply KeepsOf.put rfl | apply KeepsOf.filter) | dsimp only [Keeps]

theorem State.recoverStart_keeps {s₀ s : State} (h : Keeps s₀ s) : Keeps s₀ (State.recoverStart s) := by
  unfold State.recoverStart
  try dsimp only [Keeps]
  repeat' first | (with_reducible first | assumption | apply State.specialTo_keeps | apply State.drvOff_keeps | apply State.raise_keeps | apply State.motLanded_keeps | apply State.proofCycle_keeps) | (with_reducible first | apply each_keeps | apply foldl_keeps) | intro _ _ _ | split | (with_reducible first | apply KeepsOf.put rfl | apply KeepsOf.filter) | dsimp only [Keeps]

theorem State.relevStart_keeps {s₀ s : State} (h : Keeps s₀ s) : Keeps s₀ (State.relevStart s) := by
  unfold State.relevStart
  try dsimp only [Keeps]
  repeat' first | (with_reducible first | assumption | apply State.specialTo_keeps | apply State.rtEvent_keeps | apply State.fire_keeps) | (with_reducible first | apply each_keeps | apply foldl_keeps) | intro _ _ _ | split | (with_reducible first | apply KeepsOf.put rfl | apply KeepsOf.filter) | dsimp only [Keeps]

theorem State.relevDecide_keeps {s₀ s : State} (h : Keeps s₀ s) : Keeps s₀ (State.relevDecide s) := by
  unfold State.relevDecide
  try dsimp only [Keeps]
  repeat' first | (with_reducible first | assumption ) | (with_reducible first | apply each_keeps | apply foldl_keeps) | intro _ _ _ | split | (with_reducible first | apply KeepsOf.put rfl | apply KeepsOf.filter) | dsimp only [Keeps]

theorem State.relevBlock_keeps {s₀ s : State} (h : Keeps s₀ s) : Keeps s₀ (State.relevBlock s) := by
  unfold State.relevBlock
  try dsimp only [Keeps]
  repeat' first | (with_reducible first | assumption | apply State.rtEvent_keeps) | (with_reducible first | apply each_keeps | apply foldl_keeps) | intro _ _ _ | split | (with_reducible first | apply KeepsOf.put rfl | apply KeepsOf.filter) | dsimp only [Keeps]

theorem State.motReady_keeps {s₀ s : State} (h : Keeps s₀ s) : Keeps s₀ (State.motReady s) := by
  unfold State.motReady
  try dsimp only [Keeps]
  repeat' first | (with_reducible first | assumption | apply State.motSpeed_keeps) | (with_reducible first | apply each_keeps | apply foldl_keeps) | intro _ _ _ | split | (with_reducible first | apply KeepsOf.put rfl | apply KeepsOf.filter) | dsimp only [Keeps]

theorem State.motReached_keeps {s₀ s : State} (h : Keeps s₀ s) : Keeps s₀ (State.motReached s) := by
  unfold State.motReached
  try dsimp only [Keeps]
  repeat' first | (with_reducible first | assumption | apply State.raise_keeps | apply State.motLanded_keeps | apply State.proofCycle_keeps) | (with_reducible first | apply each_keeps | apply foldl_keeps) | intro _ _ _ | split | (with_reducible first | apply KeepsOf.put rfl | apply KeepsOf.filter) | dsimp only [Keeps]

theorem State.motResolve_keeps {s₀ s : State} (h : Keeps s₀ s) : Keeps s₀ (State.motResolve s) := by
  unfold State.motResolve
  try dsimp only [Keeps]
  repeat' first | (with_reducible first | assumption | apply State.rtEvent_keeps | apply State.motIdleNow_keeps | apply State.motReached_keeps | apply State.spFollow_keeps) | (with_reducible first | apply each_keeps | apply foldl_keeps) | intro _ _ _ | split | (with_reducible first | apply KeepsOf.put rfl | apply KeepsOf.filter) | dsimp only [Keeps]

theorem State.motBrakeApplied_keeps {s₀ s : State} (h : Keeps s₀ s) : Keeps s₀ (State.motBrakeApplied s) := by
  unfold State.motBrakeApplied
  try dsimp only [Keeps]
  repeat' first | (with_reducible first | assumption | apply State.motIdleNow_keeps | apply State.spFollow_keeps) | (with_reducible first | apply each_keeps | apply foldl_keeps) | intro _ _ _ | split | (with_reducible first | apply KeepsOf.put rfl | apply KeepsOf.filter) | dsimp only [Keeps]

theorem State.drvDrop_keeps {s₀ s : State} (h : Keeps s₀ s) : Keeps s₀ (State.drvDrop s) := by
  unfold State.drvDrop
  try dsimp only [Keeps]
  repeat' first | (with_reducible first | assumption ) | (with_reducible first | apply each_keeps | apply foldl_keeps) | intro _ _ _ | split | (with_reducible first | apply KeepsOf.put rfl | apply KeepsOf.filter) | dsimp only [Keeps]

theorem State.motRunDone_keeps {s₀ s : State} (h : Keeps s₀ s) : Keeps s₀ (State.motRunDone s) := by
  unfold State.motRunDone
  try dsimp only [Keeps]
  repeat' first | (with_reducible first | assumption | apply State.drvDrop_keeps | apply State.motReached_keeps) | (with_reducible first | apply each_keeps | apply foldl_keeps) | intro _ _ _ | split | (with_reducible first | apply KeepsOf.put rfl | apply KeepsOf.filter) | dsimp only [Keeps]

theorem State.spAdvance_keeps {s₀ s : State} (h : Keeps s₀ s) : Keeps s₀ (State.spAdvance s) := by
  unfold State.spAdvance
  try dsimp only [Keeps]
  repeat' first | (with_reducible first | assumption ) | (with_reducible first | apply each_keeps | apply foldl_keeps) | intro _ _ _ | split | (with_reducible first | apply KeepsOf.put rfl | apply KeepsOf.filter) | dsimp only [Keeps]

theorem State.homeTravelled_keeps {s₀ s : State} (h : Keeps s₀ s) (x0 : Int) : Keeps s₀ (State.homeTravelled s x0) := by
  unfold State.homeTravelled
  try dsimp only [Keeps]
  repeat' first | (with_reducible first | assumption ) | (with_reducible first | apply each_keeps | apply foldl_keeps) | intro _ _ _ | split | (with_reducible first | apply KeepsOf.put rfl | apply KeepsOf.filter) | dsimp only [Keeps]

theorem State.spSpecial_keeps {s₀ s : State} (h : Keeps s₀ s) : Keeps s₀ (State.spSpecial s) := by
  unfold State.spSpecial
  try dsimp only [Keeps]
  repeat' first | (with_reducible first | assumption | apply State.motSpeed_keeps | apply State.spAdvance_keeps | apply State.motStopRamp_keeps) | (with_reducible first | apply each_keeps | apply foldl_keeps) | intro _ _ _ | split | (with_reducible first | apply KeepsOf.put rfl | apply KeepsOf.filter) | dsimp only [Keeps]

theorem State.motSetPoint_keeps {s₀ s : State} (h : Keeps s₀ s) : Keeps s₀ (State.motSetPoint s) := by
  unfold State.motSetPoint
  try dsimp only [Keeps]
  repeat' first | (with_reducible first | assumption | apply State.spFollow_keeps | apply State.commitStop_keeps | apply State.spAdvance_keeps | apply State.motStopRamp_keeps | apply State.spSpecial_keeps | apply State.homeTravelled_keeps) | (with_reducible first | apply each_keeps | apply foldl_keeps) | intro _ _ _ | split | (with_reducible first | apply KeepsOf.put rfl | apply KeepsOf.filter) | dsimp only [Keeps]

theorem State.followNote_keeps {s₀ s : State} (h : Keeps s₀ s) : Keeps s₀ (State.followNote s) := by
  unfold State.followNote
  try dsimp only [Keeps]
  repeat' first | (with_reducible first | assumption ) | (with_reducible first | apply each_keeps | apply foldl_keeps) | intro _ _ _ | split | (with_reducible first | apply KeepsOf.put rfl | apply KeepsOf.filter) | dsimp only [Keeps]

theorem State.captureEdges_keeps {s₀ s : State} (h : Keeps s₀ s) : Keeps s₀ (State.captureEdges s) := by
  unfold State.captureEdges
  try dsimp only [Keeps]
  repeat' first | (with_reducible first | assumption ) | (with_reducible first | apply each_keeps | apply foldl_keeps) | intro _ _ _ | split | (with_reducible first | apply KeepsOf.put rfl | apply KeepsOf.filter) | dsimp only [Keeps]

theorem State.homeCapture_keeps {s₀ s0 : State} (h : Keeps s₀ s0) : Keeps s₀ (State.homeCapture s0) := by
  unfold State.homeCapture
  try dsimp only [Keeps]
  repeat' first | (with_reducible first | assumption | apply State.captureEdges_keeps | apply State.homeFail_keeps | apply State.rebase_keeps | apply State.rtEvent_keeps | apply State.setAbs_keeps | apply State.motCommit_keeps) | (with_reducible first | apply each_keeps | apply foldl_keeps) | intro _ _ _ | split | (with_reducible first | apply KeepsOf.put rfl | apply KeepsOf.filter) | dsimp only [Keeps]

theorem State.homeEdge_keeps {s₀ s : State} (h : Keeps s₀ s) (c : Chan) (rising : Bool) (stampUs : Nat) : Keeps s₀ (State.homeEdge s c rising stampUs) := by
  unfold State.homeEdge
  try dsimp only [Keeps]
  repeat' first | (with_reducible first | assumption | apply State.setDz_keeps) | (with_reducible first | apply each_keeps | apply foldl_keeps) | intro _ _ _ | split | (with_reducible first | apply KeepsOf.put rfl | apply KeepsOf.filter) | dsimp only [Keeps]

theorem State.homeChatter_keeps {s₀ s : State} (h : Keeps s₀ s) : Keeps s₀ (State.homeChatter s) := by
  unfold State.homeChatter
  try dsimp only [Keeps]
  repeat' first | (with_reducible first | assumption | apply State.homeFail_keeps) | (with_reducible first | apply each_keeps | apply foldl_keeps) | intro _ _ _ | split | (with_reducible first | apply KeepsOf.put rfl | apply KeepsOf.filter) | dsimp only [Keeps]

theorem State.motWaits_keeps {s₀ s : State} (h : Keeps s₀ s) : Keeps s₀ (State.motWaits s) := by
  unfold State.motWaits
  try dsimp only [Keeps]
  repeat' first | (with_reducible first | assumption ) | (with_reducible first | apply each_keeps | apply foldl_keeps) | intro _ _ _ | split | (with_reducible first | apply KeepsOf.put rfl | apply KeepsOf.filter) | dsimp only [Keeps]

theorem State.landedTick_keeps {s₀ s : State} (h : Keeps s₀ s) : Keeps s₀ (State.landedTick s) := by
  unfold State.landedTick
  try dsimp only [Keeps]
  repeat' first | (with_reducible first | assumption | apply State.motIdleNow_keeps) | (with_reducible first | apply each_keeps | apply foldl_keeps) | intro _ _ _ | split | (with_reducible first | apply KeepsOf.put rfl | apply KeepsOf.filter) | dsimp only [Keeps]

theorem State.holdingEnd_keeps {s₀ s : State} (h : Keeps s₀ s) : Keeps s₀ (State.holdingEnd s) := by
  unfold State.holdingEnd
  try dsimp only [Keeps]
  repeat' first | (with_reducible first | assumption | apply State.drvDrop_keeps) | (with_reducible first | apply each_keeps | apply foldl_keeps) | intro _ _ _ | split | (with_reducible first | apply KeepsOf.put rfl | apply KeepsOf.filter) | dsimp only [Keeps]

theorem State.proofStep_keeps {s₀ s : State} (h : Keeps s₀ s) : Keeps s₀ (State.proofStep s) := by
  unfold State.proofStep
  try dsimp only [Keeps]
  repeat' first | (with_reducible first | assumption | apply State.doorOpenAct_keeps | apply State.doorCloseAct_keeps) | (with_reducible first | apply each_keeps | apply foldl_keeps) | intro _ _ _ | split | (with_reducible first | apply KeepsOf.put rfl | apply KeepsOf.filter) | dsimp only [Keeps]

theorem State.motReplan_keeps {s₀ s : State} (h : Keeps s₀ s) (b : Option (List Seg)) : Keeps s₀ (State.motReplan s b) := by
  unfold State.motReplan
  try dsimp only [Keeps]
  repeat' first | (with_reducible first | assumption | apply State.motSpeed_keeps) | (with_reducible first | apply each_keeps | apply foldl_keeps) | intro _ _ _ | split | (with_reducible first | apply KeepsOf.put rfl | apply KeepsOf.filter) | dsimp only [Keeps]

theorem State.copyStaged_keeps {s₀ s : State} (h : Keeps s₀ s) : Keeps s₀ (State.copyStaged s) := by
  unfold State.copyStaged
  try dsimp only [Keeps]
  repeat' first | (with_reducible first | assumption | apply each_keeps | apply State.wr_keeps) | (with_reducible first | apply each_keeps | apply foldl_keeps) | intro _ _ _ | split | (with_reducible first | apply KeepsOf.put rfl | apply KeepsOf.filter) | dsimp only [Keeps]

theorem State.applyNow_keeps {s₀ s : State} (h : Keeps s₀ s) : Keeps s₀ (State.applyNow s) := by
  unfold State.applyNow
  try dsimp only [Keeps]
  repeat' first | (with_reducible first | assumption | apply State.motReplan_keeps | apply State.copyStaged_keeps | apply State.raise_keeps) | (with_reducible first | apply each_keeps | apply foldl_keeps) | intro _ _ _ | split | (with_reducible first | apply KeepsOf.put rfl | apply KeepsOf.filter) | dsimp only [Keeps]

theorem State.capChange_keeps {s₀ s : State} (h : Keeps s₀ s) : Keeps s₀ (State.capChange s) := by
  unfold State.capChange
  try dsimp only [Keeps]
  repeat' first | (with_reducible first | assumption | apply State.raise_keeps | apply State.motReplan_keeps) | (with_reducible first | apply each_keeps | apply foldl_keeps) | intro _ _ _ | split | (with_reducible first | apply KeepsOf.put rfl | apply KeepsOf.filter) | dsimp only [Keeps]

theorem State.trunNow_keeps {s₀ s : State} (h : Keeps s₀ s) : Keeps s₀ (State.trunNow s) := by
  unfold State.trunNow
  try dsimp only [Keeps]
  repeat' first | (with_reducible first | assumption | apply State.wr_keeps | apply State.raise_keeps) | (with_reducible first | apply each_keeps | apply foldl_keeps) | intro _ _ _ | split | (with_reducible first | apply KeepsOf.put rfl | apply KeepsOf.filter) | dsimp only [Keeps]

theorem State.resumeNow_keeps {s₀ s : State} (h : Keeps s₀ s) : Keeps s₀ (State.resumeNow s) := by
  unfold State.resumeNow
  try dsimp only [Keeps]
  repeat' first | (with_reducible first | assumption | apply State.rtEvent_keeps | apply State.drvRequest_keeps | apply State.motReached_keeps | apply State.motCommit_keeps) | (with_reducible first | apply each_keeps | apply foldl_keeps) | intro _ _ _ | split | (with_reducible first | apply KeepsOf.put rfl | apply KeepsOf.filter) | dsimp only [Keeps]

theorem State.abandonNow_keeps {s₀ s : State} (h : Keeps s₀ s) : Keeps s₀ (State.abandonNow s) := by
  unfold State.abandonNow
  try dsimp only [Keeps]
  repeat' first | (with_reducible first | assumption | apply State.motIdleNow_keeps) | (with_reducible first | apply each_keeps | apply foldl_keeps) | intro _ _ _ | split | (with_reducible first | apply KeepsOf.put rfl | apply KeepsOf.filter) | dsimp only [Keeps]

end Sys2Proof.Machine
end

