-- ==== Sys2Proof/Laws/KeepsDrvOps.lean ====
section
/-! SUPPORT. The operations of Machine/DrvOps.lean keep the store canonical and the queue as it is. -/

set_option linter.unusedTactic false
set_option linter.unreachableTactic false

namespace Sys2Proof.Machine

theorem State.drvSetReady_keeps {s₀ s : State} (h : Keeps s₀ s) (r : Bool) : Keeps s₀ (State.drvSetReady s r) := by
  unfold State.drvSetReady
  try dsimp only [Keeps]
  repeat' first | (with_reducible first | assumption | apply State.raise_keeps) | (with_reducible first | apply each_keeps | apply foldl_keeps) | intro _ _ _ | split | (with_reducible first | apply KeepsOf.put rfl | apply KeepsOf.filter) | dsimp only [Keeps]

theorem State.drvSetLink_keeps {s₀ s : State} (h : Keeps s₀ s) (u : Bool) : Keeps s₀ (State.drvSetLink s u) := by
  unfold State.drvSetLink
  try dsimp only [Keeps]
  repeat' first | (with_reducible first | assumption | apply State.raise_keeps) | (with_reducible first | apply each_keeps | apply foldl_keeps) | intro _ _ _ | split | (with_reducible first | apply KeepsOf.put rfl | apply KeepsOf.filter) | dsimp only [Keeps]

theorem State.drvEnergise_keeps {s₀ s : State} (h : Keeps s₀ s) : Keeps s₀ (State.drvEnergise s) := by
  unfold State.drvEnergise
  try dsimp only [Keeps]
  repeat' first | (with_reducible first | assumption ) | (with_reducible first | apply each_keeps | apply foldl_keeps) | intro _ _ _ | split | (with_reducible first | apply KeepsOf.put rfl | apply KeepsOf.filter) | dsimp only [Keeps]

theorem State.drvCheckReady_keeps {s₀ s : State} (h : Keeps s₀ s) : Keeps s₀ (State.drvCheckReady s) := by
  unfold State.drvCheckReady
  try dsimp only [Keeps]
  repeat' first | (with_reducible first | assumption | apply State.drvEnergise_keeps | apply State.wr_keeps) | (with_reducible first | apply each_keeps | apply foldl_keeps) | intro _ _ _ | split | (with_reducible first | apply KeepsOf.put rfl | apply KeepsOf.filter) | dsimp only [Keeps]

theorem State.drvFault_keeps {s₀ s : State} (h : Keeps s₀ s) (status : Nat) : Keeps s₀ (State.drvFault s status) := by
  unfold State.drvFault
  try dsimp only [Keeps]
  repeat' first | (with_reducible first | assumption | apply State.wn_keeps | apply State.raise_keeps | apply State.fire_keeps | apply State.tripModule_keeps) | (with_reducible first | apply each_keeps | apply foldl_keeps) | intro _ _ _ | split | (with_reducible first | apply KeepsOf.put rfl | apply KeepsOf.filter) | dsimp only [Keeps]

theorem State.drvStatusIn_keeps {s₀ s : State} (h : Keeps s₀ s) (status : Nat) (ready : Bool) (fault : Bool) : Keeps s₀ (State.drvStatusIn s status ready fault) := by
  unfold State.drvStatusIn
  try dsimp only [Keeps]
  repeat' first | (with_reducible first | assumption | apply State.wn_keeps | apply State.drvSetReady_keeps | apply State.drvFault_keeps | apply State.drvCheckReady_keeps) | (with_reducible first | apply each_keeps | apply foldl_keeps) | intro _ _ _ | split | (with_reducible first | apply KeepsOf.put rfl | apply KeepsOf.filter) | dsimp only [Keeps]

theorem State.linkSend_keeps {s₀ s : State} (h : Keeps s₀ s) : Keeps s₀ (State.linkSend s) := by
  unfold State.linkSend
  try dsimp only [Keeps]
  repeat' first | (with_reducible first | assumption ) | (with_reducible first | apply each_keeps | apply foldl_keeps) | intro _ _ _ | split | (with_reducible first | apply KeepsOf.put rfl | apply KeepsOf.filter) | dsimp only [Keeps]

theorem State.linkCheck_keeps {s₀ s : State} (h : Keeps s₀ s) (ok : Bool) : Keeps s₀ (State.linkCheck s ok) := by
  unfold State.linkCheck
  try dsimp only [Keeps]
  repeat' first | (with_reducible first | assumption | apply State.drvSetLink_keeps) | (with_reducible first | apply each_keeps | apply foldl_keeps) | intro _ _ _ | split | (with_reducible first | apply KeepsOf.put rfl | apply KeepsOf.filter) | dsimp only [Keeps]

theorem State.linkResponse_keeps {s₀ s : State} (h : Keeps s₀ s) (l : List Byte) (delimNs : Nat) (endNs : Nat) : Keeps s₀ (State.linkResponse s l delimNs endNs) := by
  unfold State.linkResponse
  try dsimp only [Keeps]
  repeat' first | (with_reducible first | assumption | apply State.bump_keeps | apply State.wi_keeps | apply State.wn_keeps | apply State.drvStatusIn_keeps) | (with_reducible first | apply each_keeps | apply foldl_keeps) | intro _ _ _ | split | (with_reducible first | apply KeepsOf.put rfl | apply KeepsOf.filter) | dsimp only [Keeps]

theorem State.drvAbandon_keeps {s₀ s : State} (h : Keeps s₀ s) : Keeps s₀ (State.drvAbandon s) := by
  unfold State.drvAbandon
  try dsimp only [Keeps]
  repeat' first | (with_reducible first | assumption | apply State.canAbort_keeps) | (with_reducible first | apply each_keeps | apply foldl_keeps) | intro _ _ _ | split | (with_reducible first | apply KeepsOf.put rfl | apply KeepsOf.filter) | dsimp only [Keeps]

theorem State.watchdogNow_keeps {s₀ s : State} (h : Keeps s₀ s) : Keeps s₀ (State.watchdogNow s) := by
  unfold State.watchdogNow
  try dsimp only [Keeps]
  repeat' first | (with_reducible first | assumption | apply State.raise_keeps | apply State.fire_keeps | apply State.tripModule_keeps | apply State.drvAbandon_keeps | apply State.drvOff_keeps) | (with_reducible first | apply each_keeps | apply foldl_keeps) | intro _ _ _ | split | (with_reducible first | apply KeepsOf.put rfl | apply KeepsOf.filter) | dsimp only [Keeps]

theorem State.drvCheck_keeps {s₀ s : State} (h : Keeps s₀ s) : Keeps s₀ (State.drvCheck s) := by
  unfold State.drvCheck
  try dsimp only [Keeps]
  repeat' first | (with_reducible first | assumption | apply State.bump_keeps | apply State.linkCheck_keeps | apply State.drvSetReady_keeps) | (with_reducible first | apply each_keeps | apply foldl_keeps) | intro _ _ _ | split | (with_reducible first | apply KeepsOf.put rfl | apply KeepsOf.filter) | dsimp only [Keeps]

theorem State.drvWatch_keeps {s₀ s : State} (h : Keeps s₀ s) : Keeps s₀ (State.drvWatch s) := by
  unfold State.drvWatch
  try dsimp only [Keeps]
  repeat' first | (with_reducible first | assumption | apply State.drvCheck_keeps | apply State.watchdogNow_keeps) | (with_reducible first | apply each_keeps | apply foldl_keeps) | intro _ _ _ | split | (with_reducible first | apply KeepsOf.put rfl | apply KeepsOf.filter) | dsimp only [Keeps]

theorem State.rdyCount_keeps {s₀ s : State} (h : Keeps s₀ s) : Keeps s₀ (State.rdyCount s) := by
  unfold State.rdyCount
  try dsimp only [Keeps]
  repeat' first | (with_reducible first | assumption ) | (with_reducible first | apply each_keeps | apply foldl_keeps) | intro _ _ _ | split | (with_reducible first | apply KeepsOf.put rfl | apply KeepsOf.filter) | dsimp only [Keeps]

theorem State.linkFinish_keeps {s₀ s : State} (h : Keeps s₀ s) : Keeps s₀ (State.linkFinish s) := by
  unfold State.linkFinish
  try dsimp only [Keeps]
  repeat' first | (with_reducible first | assumption | apply State.rdyCount_keeps | apply State.drvWatch_keeps) | (with_reducible first | apply each_keeps | apply foldl_keeps) | intro _ _ _ | split | (with_reducible first | apply KeepsOf.put rfl | apply KeepsOf.filter) | dsimp only [Keeps]

theorem State.ciaSync_keeps {s₀ s : State} (h : Keeps s₀ s) : Keeps s₀ (State.ciaSync s) := by
  unfold State.ciaSync
  try dsimp only [Keeps]
  repeat' first | (with_reducible first | assumption | apply State.canAbort_keeps | apply State.canSend_keeps) | (with_reducible first | apply each_keeps | apply foldl_keeps) | intro _ _ _ | split | (with_reducible first | apply KeepsOf.put rfl | apply KeepsOf.filter) | dsimp only [Keeps]

theorem State.ciaTpdoIn_keeps {s₀ s : State} (h : Keeps s₀ s) (sw : Nat) (pos : Word) (sofUs : Nat) : Keeps s₀ (State.ciaTpdoIn s sw pos sofUs) := by
  unfold State.ciaTpdoIn
  try dsimp only [Keeps]
  repeat' first | (with_reducible first | assumption | apply State.wi_keeps | apply State.drvStatusIn_keeps) | (with_reducible first | apply each_keeps | apply foldl_keeps) | intro _ _ _ | split | (with_reducible first | apply KeepsOf.put rfl | apply KeepsOf.filter) | dsimp only [Keeps]

theorem State.analogOut_keeps {s₀ s : State} (h : Keeps s₀ s) : Keeps s₀ (State.analogOut s) := by
  unfold State.analogOut
  try dsimp only [Keeps]
  repeat' first | (with_reducible first | assumption | apply State.wi_keeps) | (with_reducible first | apply each_keeps | apply foldl_keeps) | intro _ _ _ | split | (with_reducible first | apply KeepsOf.put rfl | apply KeepsOf.filter) | dsimp only [Keeps]

theorem State.analogStep_keeps {s₀ s : State} (h : Keeps s₀ s) : Keeps s₀ (State.analogStep s) := by
  unfold State.analogStep
  try dsimp only [Keeps]
  repeat' first | (with_reducible first | assumption ) | (with_reducible first | apply each_keeps | apply foldl_keeps) | intro _ _ _ | split | (with_reducible first | apply KeepsOf.put rfl | apply KeepsOf.filter) | dsimp only [Keeps]

theorem State.stepStep_keeps {s₀ s : State} (h : Keeps s₀ s) : Keeps s₀ (State.stepStep s) := by
  unfold State.stepStep
  try dsimp only [Keeps]
  repeat' first | (with_reducible first | assumption ) | (with_reducible first | apply each_keeps | apply foldl_keeps) | intro _ _ _ | split | (with_reducible first | apply KeepsOf.put rfl | apply KeepsOf.filter) | dsimp only [Keeps]

theorem State.legacyTick_keeps {s₀ s : State} (h : Keeps s₀ s) : Keeps s₀ (State.legacyTick s) := by
  unfold State.legacyTick
  try dsimp only [Keeps]
  repeat' first | (with_reducible first | assumption | apply State.drvSetLink_keeps | apply State.drvSetReady_keeps) | (with_reducible first | apply each_keeps | apply foldl_keeps) | intro _ _ _ | split | (with_reducible first | apply KeepsOf.put rfl | apply KeepsOf.filter) | dsimp only [Keeps]

theorem State.drvPeriod_keeps {s₀ s : State} (h : Keeps s₀ s) : Keeps s₀ (State.drvPeriod s) := by
  unfold State.drvPeriod
  try dsimp only [Keeps]
  repeat' first | (with_reducible first | assumption | apply State.linkSend_keeps | apply State.analogStep_keeps | apply State.stepStep_keeps | apply State.legacyTick_keeps | apply State.drvCheckReady_keeps) | (with_reducible first | apply each_keeps | apply foldl_keeps) | intro _ _ _ | split | (with_reducible first | apply KeepsOf.put rfl | apply KeepsOf.filter) | dsimp only [Keeps]

theorem State.readyTimeout_keeps {s₀ s : State} (h : Keeps s₀ s) : Keeps s₀ (State.readyTimeout s) := by
  unfold State.readyTimeout
  try dsimp only [Keeps]
  repeat' first | (with_reducible first | assumption | apply State.drvOff_keeps | apply State.raise_keeps) | (with_reducible first | apply each_keeps | apply foldl_keeps) | intro _ _ _ | split | (with_reducible first | apply KeepsOf.put rfl | apply KeepsOf.filter) | dsimp only [Keeps]

theorem State.preloadDone_keeps {s₀ s : State} (h : Keeps s₀ s) : Keeps s₀ (State.preloadDone s) := by
  unfold State.preloadDone
  try dsimp only [Keeps]
  repeat' first | (with_reducible first | assumption ) | (with_reducible first | apply each_keeps | apply foldl_keeps) | intro _ _ _ | split | (with_reducible first | apply KeepsOf.put rfl | apply KeepsOf.filter) | dsimp only [Keeps]

theorem State.brakeLifted_keeps {s₀ s : State} (h : Keeps s₀ s) : Keeps s₀ (State.brakeLifted s) := by
  unfold State.brakeLifted
  try dsimp only [Keeps]
  repeat' first | (with_reducible first | assumption | apply State.motReady_keeps) | (with_reducible first | apply each_keeps | apply foldl_keeps) | intro _ _ _ | split | (with_reducible first | apply KeepsOf.put rfl | apply KeepsOf.filter) | dsimp only [Keeps]

theorem State.brakeDropped_keeps {s₀ s : State} (h : Keeps s₀ s) : Keeps s₀ (State.brakeDropped s) := by
  unfold State.brakeDropped
  try dsimp only [Keeps]
  repeat' first | (with_reducible first | assumption | apply State.motBrakeApplied_keeps | apply State.drvOff_keeps) | (with_reducible first | apply each_keeps | apply foldl_keeps) | intro _ _ _ | split | (with_reducible first | apply KeepsOf.put rfl | apply KeepsOf.filter) | dsimp only [Keeps]

theorem State.faultReset_keeps {s₀ s : State} (h : Keeps s₀ s) : Keeps s₀ (State.faultReset s) := by
  unfold State.faultReset
  try dsimp only [Keeps]
  repeat' first | (with_reducible first | assumption ) | (with_reducible first | apply each_keeps | apply foldl_keeps) | intro _ _ _ | split | (with_reducible first | apply KeepsOf.put rfl | apply KeepsOf.filter) | dsimp only [Keeps]

theorem State.relevGrantEnds_keeps {s₀ s : State} (h : Keeps s₀ s) : Keeps s₀ (State.relevGrantEnds s) := by
  unfold State.relevGrantEnds
  try dsimp only [Keeps]
  repeat' first | (with_reducible first | assumption | apply State.drvOff_keeps) | (with_reducible first | apply each_keeps | apply foldl_keeps) | intro _ _ _ | split | (with_reducible first | apply KeepsOf.put rfl | apply KeepsOf.filter) | dsimp only [Keeps]

end Sys2Proof.Machine
end

