-- ==== Sys2Proof/Laws/KeepsSchOps.lean ====
section
/-! SUPPORT. The operations of Machine/SchOps.lean keep the store canonical and the queue as it is. -/

set_option linter.unusedTactic false
set_option linter.unreachableTactic false

namespace Sys2Proof.Machine

theorem State.passedNote_keeps {s₀ s : State} (h : Keeps s₀ s) (n : Nat) (kinds : Nat) : Keeps s₀ (State.passedNote s n kinds) := by
  unfold State.passedNote
  try dsimp only [Keeps]
  repeat' first | (with_reducible first | assumption | apply State.wr_keeps | apply State.raise_keeps) | (with_reducible first | apply each_keeps | apply foldl_keeps) | intro _ _ _ | split | (with_reducible first | apply KeepsOf.put rfl | apply KeepsOf.filter) | dsimp only [Keeps]

theorem State.evalWalk_keeps {s₀ : State} (f : Nat) (l : List Nat) : ∀ {s : State}, Keeps s₀ s → Keeps s₀ (State.evalWalk s f l).1 := by
  induction l with
  | nil => intro s h; exact h
  | cons n r ih =>
    intro s h
    unfold State.evalWalk
    dsimp only
    split
    · split
      · exact h
      · exact ih h
    · split
      · exact h
      · have ht : Keeps s₀ (if s.sch.passed.contains n then s
            else (({ s with sch := { s.sch with passed := setIns s.sch.passed n } }).passedNote n (kindsOf (s.callsAt n s.mot.up (n == f))))) := by
          split
          · exact h
          · exact State.passedNote_keeps h _ _
        split
        · exact ht
        · exact ih ht

theorem State.stopEval_keeps {s₀ s : State} (h : Keeps s₀ s) : Keeps s₀ (State.stopEval s) := by
  unfold State.stopEval
  split
  · exact h
  · extract_lets p ahead q t nocall cand c0 u v
    have hq : Keeps s₀ t := by
      show Keeps s₀ (match s.farCall p s.mot.up [] with
        | none => (s, none)
        | some f => s.evalWalk f ahead).1
      split
      · exact h
      · exact State.evalWalk_keeps _ _ h
    have hv : Keeps s₀ v := by
      show Keeps s₀ (if s.sch.cand = cand then u else u.raise pgSch 1)
      split
      · exact hq
      · exact State.raise_keeps (s := u) hq _ _
    clear_value v cand
    cases cand with
    | none => exact hv
    | some n =>
      dsimp only
      split
      · exact State.commitStop_keeps hv _ _
      · exact hv

theorem State.nocallNote_keeps {s₀ s : State} (h : Keeps s₀ s) : Keeps s₀ (State.nocallNote s) := by
  unfold State.nocallNote
  try dsimp only [Keeps]
  repeat' first | (with_reducible first | assumption ) | (with_reducible first | apply each_keeps | apply foldl_keeps) | intro _ _ _ | split | (with_reducible first | apply KeepsOf.put rfl | apply KeepsOf.filter) | dsimp only [Keeps]

theorem State.bidPush_keeps {s₀ s : State} (h : Keeps s₀ s) (r : BidReq) : Keeps s₀ (State.bidPush s r) := by
  unfold State.bidPush
  try dsimp only [Keeps]
  repeat' first | (with_reducible first | assumption | apply State.bump_keeps | apply State.raise_keeps) | (with_reducible first | apply each_keeps | apply foldl_keeps) | intro _ _ _ | split | (with_reducible first | apply KeepsOf.put rfl | apply KeepsOf.filter) | dsimp only [Keeps]

theorem State.releaseCall_keeps {s₀ s : State} (h : Keeps s₀ s) (key : Nat) (seq : Nat) (reason : Nat) : Keeps s₀ (State.releaseCall s key seq reason) := by
  unfold State.releaseCall
  try dsimp only [Keeps]
  repeat' first | (with_reducible first | assumption | apply State.bidPush_keeps) | (with_reducible first | apply each_keeps | apply foldl_keeps) | intro _ _ _ | split | (with_reducible first | apply KeepsOf.put rfl | apply KeepsOf.filter) | dsimp only [Keeps]

theorem State.dropHall_keeps {s₀ s : State} (h : Keeps s₀ s) (n : Nat) (up : Bool) (reason : Nat) : Keeps s₀ (State.dropHall s n up reason) := by
  unfold State.dropHall
  try dsimp only [Keeps]
  repeat' first | (with_reducible first | assumption | apply State.releaseCall_keeps) | (with_reducible first | apply each_keeps | apply foldl_keeps) | intro _ _ _ | split | (with_reducible first | apply KeepsOf.put rfl | apply KeepsOf.filter) | dsimp only [Keeps]

theorem State.dropDest_keeps {s₀ s : State} (h : Keeps s₀ s) (i : Nat) (reason : Nat) : Keeps s₀ (State.dropDest s i reason) := by
  unfold State.dropDest
  try dsimp only [Keeps]
  repeat' first | (with_reducible first | assumption | apply State.releaseCall_keeps) | (with_reducible first | apply each_keeps | apply foldl_keeps) | intro _ _ _ | split | (with_reducible first | apply KeepsOf.put rfl | apply KeepsOf.filter) | dsimp only [Keeps]

theorem State.dropHalls_keeps {s₀ s : State} (h : Keeps s₀ s) (reason : Nat) : Keeps s₀ (State.dropHalls s reason) := by
  unfold State.dropHalls
  try dsimp only [Keeps]
  repeat' first | (with_reducible first | assumption | apply each_keeps | apply State.dropHall_keeps) | (with_reducible first | apply each_keeps | apply foldl_keeps) | intro _ _ _ | split | (with_reducible first | apply KeepsOf.put rfl | apply KeepsOf.filter) | dsimp only [Keeps]

theorem State.dropWaiting_keeps {s₀ s : State} (h : Keeps s₀ s) (reason : Nat) : Keeps s₀ (State.dropWaiting s reason) := by
  unfold State.dropWaiting
  try dsimp only [Keeps]
  repeat' first | (with_reducible first | assumption | apply each_keeps | apply State.dropDest_keeps) | (with_reducible first | apply each_keeps | apply foldl_keeps) | intro _ _ _ | split | (with_reducible first | apply KeepsOf.put rfl | apply KeepsOf.filter) | dsimp only [Keeps]

theorem State.ridersToCalls_keeps {s₀ s : State} (h : Keeps s₀ s) : Keeps s₀ (State.ridersToCalls s) := by
  unfold State.ridersToCalls
  try dsimp only [Keeps]
  repeat' first | (with_reducible first | assumption | apply each_keeps) | (with_reducible first | apply each_keeps | apply foldl_keeps) | intro _ _ _ | split | (with_reducible first | apply KeepsOf.put rfl | apply KeepsOf.filter) | dsimp only [Keeps]

theorem State.schOpenAxis_keeps {s₀ s : State} (h : Keeps s₀ s) (c : Chan) : Keeps s₀ (State.schOpenAxis s c) := by
  unfold State.schOpenAxis
  try dsimp only [Keeps]
  repeat' first | (with_reducible first | assumption | apply State.doorOpenAct_keeps | apply State.raise_keeps) | (with_reducible first | apply each_keeps | apply foldl_keeps) | intro _ _ _ | split | (with_reducible first | apply KeepsOf.put rfl | apply KeepsOf.filter) | dsimp only [Keeps]

theorem State.schCloseAxis_keeps {s₀ s : State} (h : Keeps s₀ s) (c : Chan) : Keeps s₀ (State.schCloseAxis s c) := by
  unfold State.schCloseAxis
  try dsimp only [Keeps]
  repeat' first | (with_reducible first | assumption | apply State.doorCloseAct_keeps | apply State.raise_keeps) | (with_reducible first | apply each_keeps | apply foldl_keeps) | intro _ _ _ | split | (with_reducible first | apply KeepsOf.put rfl | apply KeepsOf.filter) | dsimp only [Keeps]

theorem State.schClose_keeps {s₀ s : State} (h : Keeps s₀ s) : Keeps s₀ (State.schClose s) := by
  unfold State.schClose
  try dsimp only [Keeps]
  repeat' first | (with_reducible first | assumption | apply each_keeps | apply State.schCloseAxis_keeps) | (with_reducible first | apply each_keeps | apply foldl_keeps) | intro _ _ _ | split | (with_reducible first | apply KeepsOf.put rfl | apply KeepsOf.filter) | dsimp only [Keeps]

theorem State.dwellStart_keeps {s₀ s : State} (h : Keeps s₀ s) (a : Answer) : Keeps s₀ (State.dwellStart s a) := by
  unfold State.dwellStart
  try dsimp only [Keeps]
  repeat' first | (with_reducible first | assumption | apply each_keeps | apply State.schOpenAxis_keeps) | (with_reducible first | apply each_keeps | apply foldl_keeps) | intro _ _ _ | split | (with_reducible first | apply KeepsOf.put rfl | apply KeepsOf.filter) | dsimp only [Keeps]

theorem State.recallReached_keeps {s₀ s : State} (h : Keeps s₀ s) (n : Nat) : Keeps s₀ (State.recallReached s n) := by
  unfold State.recallReached
  try dsimp only [Keeps]
  repeat' first | (with_reducible first | assumption | apply State.raise_keeps | apply State.dwellStart_keeps) | (with_reducible first | apply each_keeps | apply foldl_keeps) | intro _ _ _ | split | (with_reducible first | apply KeepsOf.put rfl | apply KeepsOf.filter) | dsimp only [Keeps]

theorem State.schRunDone_keeps {s₀ s : State} (h : Keeps s₀ s) (n : Nat) : Keeps s₀ (State.schRunDone s n) := by
  unfold State.schRunDone
  try dsimp only [Keeps]
  repeat' first | (with_reducible first | assumption | apply State.recallReached_keeps | apply State.raise_keeps | apply State.dwellStart_keeps) | (with_reducible first | apply each_keeps | apply foldl_keeps) | intro _ _ _ | split | (with_reducible first | apply KeepsOf.put rfl | apply KeepsOf.filter) | dsimp only [Keeps]

theorem State.schReached_keeps {s₀ t : State} (h : Keeps s₀ t) (before : State) : Keeps s₀ (State.schReached t before) := by
  unfold State.schReached
  try dsimp only [Keeps]
  repeat' first | (with_reducible first | assumption | apply State.schRunDone_keeps) | (with_reducible first | apply each_keeps | apply foldl_keeps) | intro _ _ _ | split | (with_reducible first | apply KeepsOf.put rfl | apply KeepsOf.filter) | dsimp only [Keeps]

theorem State.schServed_keeps {s₀ s : State} (h : Keeps s₀ s) : Keeps s₀ (State.schServed s) := by
  unfold State.schServed
  try dsimp only [Keeps]
  repeat' first | (with_reducible first | assumption | apply State.dropHall_keeps | apply each_keeps | apply State.releaseCall_keeps | apply State.raise_keeps) | (with_reducible first | apply each_keeps | apply foldl_keeps) | intro _ _ _ | split | (with_reducible first | apply KeepsOf.put rfl | apply KeepsOf.filter) | dsimp only [Keeps]

theorem State.hereJoin_keeps {s₀ s : State} (h : Keeps s₀ s) (a : Answer) (c : Nat) : Keeps s₀ (State.hereJoin s a c) := by
  unfold State.hereJoin
  try dsimp only [Keeps]
  repeat' first | (with_reducible first | assumption | apply each_keeps | apply State.schOpenAxis_keeps) | (with_reducible first | apply each_keeps | apply foldl_keeps) | intro _ _ _ | split | (with_reducible first | apply KeepsOf.put rfl | apply KeepsOf.filter) | dsimp only [Keeps]

theorem State.hereAnswer_keeps {s₀ s : State} (h : Keeps s₀ s) (n : Nat) (c : Nat) : Keeps s₀ (State.hereAnswer s n c) := by
  unfold State.hereAnswer
  try dsimp only [Keeps]
  repeat' first | (with_reducible first | assumption | apply State.raise_keeps | apply State.dwellStart_keeps) | (with_reducible first | apply each_keeps | apply foldl_keeps) | intro _ _ _ | split | (with_reducible first | apply KeepsOf.put rfl | apply KeepsOf.filter) | dsimp only [Keeps]

theorem State.hereOpen_keeps {s₀ s : State} (h : Keeps s₀ s) (a : Answer) (c : Nat) : Keeps s₀ (State.hereOpen s a c) := by
  unfold State.hereOpen
  try dsimp only [Keeps]
  repeat' first | (with_reducible first | assumption | apply State.hereJoin_keeps) | (with_reducible first | apply each_keeps | apply foldl_keeps) | intro _ _ _ | split | (with_reducible first | apply KeepsOf.put rfl | apply KeepsOf.filter) | dsimp only [Keeps]

theorem State.hereHandle_keeps {s₀ s0 : State} (h : Keeps s₀ s0) (n : Nat) (c : Nat) : Keeps s₀ (State.hereHandle s0 n c) := by
  unfold State.hereHandle
  try dsimp only [Keeps]
  repeat' first | (with_reducible first | assumption | apply State.schServed_keeps | apply State.hereOpen_keeps | apply State.hereAnswer_keeps) | (with_reducible first | apply each_keeps | apply foldl_keeps) | intro _ _ _ | split | (with_reducible first | apply KeepsOf.put rfl | apply KeepsOf.filter) | dsimp only [Keeps]

theorem State.hereCall_keeps {s₀ s : State} (h : Keeps s₀ s) (n : Nat) (c : Nat) : Keeps s₀ (State.hereCall s n c) := by
  unfold State.hereCall
  try dsimp only [Keeps]
  repeat' first | (with_reducible first | assumption | apply State.raise_keeps | apply State.hereHandle_keeps) | (with_reducible first | apply each_keeps | apply foldl_keeps) | intro _ _ _ | split | (with_reducible first | apply KeepsOf.put rfl | apply KeepsOf.filter) | dsimp only [Keeps]

theorem State.callArrived_keeps {s₀ s : State} (h : Keeps s₀ s) (n : Nat) (c : Nat) : Keeps s₀ (State.callArrived s n c) := by
  unfold State.callArrived
  try dsimp only [Keeps]
  repeat' first | (with_reducible first | assumption | apply State.hereCall_keeps | apply State.schClose_keeps | apply State.passedNote_keeps) | (with_reducible first | apply each_keeps | apply foldl_keeps) | intro _ _ _ | split | (with_reducible first | apply KeepsOf.put rfl | apply KeepsOf.filter) | dsimp only [Keeps]

theorem State.carCall_keeps {s₀ s : State} (h : Keeps s₀ s) (n : Nat) : Keeps s₀ (State.carCall s n) := by
  unfold State.carCall
  try dsimp only [Keeps]
  repeat' first | (with_reducible first | assumption | apply State.hereCall_keeps | apply State.callArrived_keeps) | (with_reducible first | apply each_keeps | apply foldl_keeps) | intro _ _ _ | split | (with_reducible first | apply KeepsOf.put rfl | apply KeepsOf.filter) | dsimp only [Keeps]

theorem State.hereSettle_keeps {s₀ s : State} (h : Keeps s₀ s) : Keeps s₀ (State.hereSettle s) := by
  unfold State.hereSettle
  try dsimp only [Keeps]
  repeat' first | (with_reducible first | assumption | apply each_keeps | apply State.hereHandle_keeps | apply State.callArrived_keeps) | (with_reducible first | apply each_keeps | apply foldl_keeps) | intro _ _ _ | split | (with_reducible first | apply KeepsOf.put rfl | apply KeepsOf.filter) | dsimp only [Keeps]

theorem State.recallHere_keeps {s₀ s : State} (h : Keeps s₀ s) : Keeps s₀ (State.recallHere s) := by
  unfold State.recallHere
  try dsimp only [Keeps]
  repeat' first | (with_reducible first | assumption | apply State.recallReached_keeps) | (with_reducible first | apply each_keeps | apply foldl_keeps) | intro _ _ _ | split | (with_reducible first | apply KeepsOf.put rfl | apply KeepsOf.filter) | dsimp only [Keeps]

theorem State.hallCall_keeps {s₀ s : State} (h : Keeps s₀ s) (n : Nat) (up : Bool) : Keeps s₀ (State.hallCall s n up) := by
  unfold State.hallCall
  try dsimp only [Keeps]
  repeat' first | (with_reducible first | assumption | apply State.callArrived_keeps) | (with_reducible first | apply each_keeps | apply foldl_keeps) | intro _ _ _ | split | (with_reducible first | apply KeepsOf.put rfl | apply KeepsOf.filter) | dsimp only [Keeps]

theorem State.destPlace_keeps {s₀ s : State} (h : Keeps s₀ s) (i : Nat) (src : Nat) (dst : Nat) (seq : Nat) (tag : Option Nat) : Keeps s₀ (State.destPlace s i src dst seq tag) := by
  unfold State.destPlace
  try dsimp only [Keeps]
  repeat' first | (with_reducible first | assumption | apply State.callArrived_keeps) | (with_reducible first | apply each_keeps | apply foldl_keeps) | intro _ _ _ | split | (with_reducible first | apply KeepsOf.put rfl | apply KeepsOf.filter) | dsimp only [Keeps]

theorem State.callSetNow_keeps {s₀ s : State} (h : Keeps s₀ s) (kind : Nat) (w : Nat) (val : Word) : Keeps s₀ (State.callSetNow s kind w val) := by
  unfold State.callSetNow
  try dsimp only [Keeps]
  repeat' first | (with_reducible first | assumption | apply each_keeps | apply State.carCall_keeps | apply State.hallCall_keeps) | (with_reducible first | apply each_keeps | apply foldl_keeps) | intro _ _ _ | split | (with_reducible first | apply KeepsOf.put rfl | apply KeepsOf.filter) | dsimp only [Keeps]

theorem State.callClrNow_keeps {s₀ s : State} (h : Keeps s₀ s) (kind : Nat) (w : Nat) (val : Word) : Keeps s₀ (State.callClrNow s kind w val) := by
  unfold State.callClrNow
  try dsimp only [Keeps]
  repeat' first | (with_reducible first | assumption | apply each_keeps | apply State.dropHall_keeps) | (with_reducible first | apply each_keeps | apply foldl_keeps) | intro _ _ _ | split | (with_reducible first | apply KeepsOf.put rfl | apply KeepsOf.filter) | dsimp only [Keeps]

theorem State.schDoorOpened_keeps {s₀ s : State} (h : Keeps s₀ s) (c : Chan) : Keeps s₀ (State.schDoorOpened s c) := by
  unfold State.schDoorOpened
  try dsimp only [Keeps]
  repeat' first | (with_reducible first | assumption | apply State.schClose_keeps) | (with_reducible first | apply each_keeps | apply foldl_keeps) | intro _ _ _ | split | (with_reducible first | apply KeepsOf.put rfl | apply KeepsOf.filter) | dsimp only [Keeps]

theorem State.schHoldEnd_keeps {s₀ s : State} (h : Keeps s₀ s) : Keeps s₀ (State.schHoldEnd s) := by
  unfold State.schHoldEnd
  try dsimp only [Keeps]
  repeat' first | (with_reducible first | assumption | apply State.schClose_keeps) | (with_reducible first | apply each_keeps | apply foldl_keeps) | intro _ _ _ | split | (with_reducible first | apply KeepsOf.put rfl | apply KeepsOf.filter) | dsimp only [Keeps]

theorem State.schEndHold_keeps {s₀ s : State} (h : Keeps s₀ s) : Keeps s₀ (State.schEndHold s) := by
  unfold State.schEndHold
  try dsimp only [Keeps]
  repeat' first | (with_reducible first | assumption | apply State.schClose_keeps) | (with_reducible first | apply each_keeps | apply foldl_keeps) | intro _ _ _ | split | (with_reducible first | apply KeepsOf.put rfl | apply KeepsOf.filter) | dsimp only [Keeps]

theorem State.schEndAnyhow_keeps {s₀ s : State} (h : Keeps s₀ s) : Keeps s₀ (State.schEndAnyhow s) := by
  unfold State.schEndAnyhow
  try dsimp only [Keeps]
  repeat' first | (with_reducible first | assumption | apply State.schClose_keeps) | (with_reducible first | apply each_keeps | apply foldl_keeps) | intro _ _ _ | split | (with_reducible first | apply KeepsOf.put rfl | apply KeepsOf.filter) | dsimp only [Keeps]

theorem State.schRelevFail_keeps {s₀ s : State} (h : Keeps s₀ s) : Keeps s₀ (State.schRelevFail s) := by
  unfold State.schRelevFail
  try dsimp only [Keeps]
  repeat' first | (with_reducible first | assumption | apply State.schEndAnyhow_keeps | apply each_keeps | apply State.schCloseAxis_keeps) | (with_reducible first | apply each_keeps | apply foldl_keeps) | intro _ _ _ | split | (with_reducible first | apply KeepsOf.put rfl | apply KeepsOf.filter) | dsimp only [Keeps]

theorem State.oosSet_keeps {s₀ s : State} (h : Keeps s₀ s) : Keeps s₀ (State.oosSet s) := by
  unfold State.oosSet
  try dsimp only [Keeps]
  repeat' first | (with_reducible first | assumption | apply State.dropHalls_keeps | apply State.dropWaiting_keeps | apply State.raise_keeps | apply State.dwellStart_keeps) | (with_reducible first | apply each_keeps | apply foldl_keeps) | intro _ _ _ | split | (with_reducible first | apply KeepsOf.put rfl | apply KeepsOf.filter) | dsimp only [Keeps]

theorem State.oosChange_keeps {s₀ s : State} (h : Keeps s₀ s) (host : Bool) (traction : Bool) (safe : Bool) : Keeps s₀ (State.oosChange s host traction safe) := by
  unfold State.oosChange
  try dsimp only [Keeps]
  repeat' first | (with_reducible first | assumption | apply State.oosSet_keeps | apply State.raise_keeps) | (with_reducible first | apply each_keeps | apply foldl_keeps) | intro _ _ _ | split | (with_reducible first | apply KeepsOf.put rfl | apply KeepsOf.filter) | dsimp only [Keeps]

theorem State.oosHostNow_keeps {s₀ s : State} (h : Keeps s₀ s) (on : Bool) : Keeps s₀ (State.oosHostNow s on) := by
  unfold State.oosHostNow
  try dsimp only [Keeps]
  repeat' first | (with_reducible first | assumption | apply State.oosChange_keeps) | (with_reducible first | apply each_keeps | apply foldl_keeps) | intro _ _ _ | split | (with_reducible first | apply KeepsOf.put rfl | apply KeepsOf.filter) | dsimp only [Keeps]

theorem State.oosSafeCheck_keeps {s₀ s : State} (h : Keeps s₀ s) : Keeps s₀ (State.oosSafeCheck s) := by
  unfold State.oosSafeCheck
  try dsimp only [Keeps]
  repeat' first | (with_reducible first | assumption | apply State.oosChange_keeps) | (with_reducible first | apply each_keeps | apply foldl_keeps) | intro _ _ _ | split | (with_reducible first | apply KeepsOf.put rfl | apply KeepsOf.filter) | dsimp only [Keeps]

theorem State.tractionLatch_keeps {s₀ s : State} (h : Keeps s₀ s) : Keeps s₀ (State.tractionLatch s) := by
  unfold State.tractionLatch
  try dsimp only [Keeps]
  repeat' first | (with_reducible first | assumption | apply State.raise_keeps | apply State.fire_keeps | apply State.motHoldNow_keeps | apply State.oosChange_keeps) | (with_reducible first | apply each_keeps | apply foldl_keeps) | intro _ _ _ | split | (with_reducible first | apply KeepsOf.put rfl | apply KeepsOf.filter) | dsimp only [Keeps]

theorem State.bypassNote_keeps {s₀ s : State} (h : Keeps s₀ s) : Keeps s₀ (State.bypassNote s) := by
  unfold State.bypassNote
  try dsimp only [Keeps]
  repeat' first | (with_reducible first | assumption | apply State.dropHalls_keeps | apply State.dropWaiting_keeps) | (with_reducible first | apply each_keeps | apply foldl_keeps) | intro _ _ _ | split | (with_reducible first | apply KeepsOf.put rfl | apply KeepsOf.filter) | dsimp only [Keeps]

theorem State.modeEntry_keeps {s₀ s : State} (h : Keeps s₀ s) (m : SchMode) : Keeps s₀ (State.modeEntry s m) := by
  unfold State.modeEntry
  try dsimp only [Keeps]
  repeat' first | (with_reducible first | assumption | apply State.ridersToCalls_keeps | apply State.dropWaiting_keeps | apply each_keeps | apply State.dropHall_keeps | apply State.dropHalls_keeps | apply State.schEndAnyhow_keeps) | (with_reducible first | apply each_keeps | apply foldl_keeps) | intro _ _ _ | split | (with_reducible first | apply KeepsOf.put rfl | apply KeepsOf.filter) | dsimp only [Keeps]

theorem State.modeWrite_keeps {s₀ s : State} (h : Keeps s₀ s) (val : Word) : Keeps s₀ (State.modeWrite s val) := by
  unfold State.modeWrite
  try dsimp only [Keeps]
  repeat' first | (with_reducible first | assumption | apply State.wr_keeps | apply State.raise_keeps | apply State.modeEntry_keeps | apply State.schClose_keeps) | (with_reducible first | apply each_keeps | apply foldl_keeps) | intro _ _ _ | split | (with_reducible first | apply KeepsOf.put rfl | apply KeepsOf.filter) | dsimp only [Keeps]

theorem State.ltFaultNote_keeps {s₀ s : State} (h : Keeps s₀ s) (t : State) : Keeps s₀ (State.ltFaultNote s t) := by
  unfold State.ltFaultNote
  try dsimp only [Keeps]
  repeat' first | (with_reducible first | assumption | apply State.wr_keeps) | (with_reducible first | apply each_keeps | apply foldl_keeps) | intro _ _ _ | split | (with_reducible first | apply KeepsOf.put rfl | apply KeepsOf.filter) | dsimp only [Keeps]

theorem State.schRunNow_keeps {s₀ s : State} (h : Keeps s₀ s) : Keeps s₀ (State.schRunNow s) := by
  unfold State.schRunNow
  try dsimp only [Keeps]
  repeat' first | (with_reducible first | assumption | apply State.ltFaultNote_keeps | apply State.wr_keeps | apply State.wf__keeps) | (with_reducible first | apply each_keeps | apply foldl_keeps) | intro _ _ _ | split | (with_reducible first | apply KeepsOf.put rfl | apply KeepsOf.filter) | dsimp only [Keeps]

theorem State.schStart_keeps {s₀ s : State} (h : Keeps s₀ s) (up : Bool) : Keeps s₀ (State.schStart s up) := by
  unfold State.schStart
  try dsimp only [Keeps]
  repeat' first | (with_reducible first | assumption | apply State.wn_keeps | apply State.motStartNow_keeps) | (with_reducible first | apply each_keeps | apply foldl_keeps) | intro _ _ _ | split | (with_reducible first | apply KeepsOf.put rfl | apply KeepsOf.filter) | dsimp only [Keeps]

theorem State.ltWrite_keeps {s₀ s : State} (h : Keeps s₀ s) (addr : Nat) (val : Word) : Keeps s₀ (State.ltWrite s addr val) := by
  unfold State.ltWrite
  extract_lets old n t off c0 s1 s2 s3
  have ht : Keeps s₀ t := State.wr_keeps h _ _
  have h1 : Keeps s₀ s1 := by
    show Keeps s₀ (if off 3 = true then _ else _)
    split <;> exact ht
  have h2 : Keeps s₀ s2 := by
    show Keeps s₀ (if _ then s1.dropHall n true 3 else s1)
    split
    · exact State.dropHall_keeps h1 _ _ _
    · exact h1
  have h3 : Keeps s₀ s3 := by
    show Keeps s₀ (if _ then s2.dropHall n false 3 else s2)
    split
    · exact State.dropHall_keeps h2 _ _ _
    · exact h2
  split
  · exact ht
  · split
    · exact each_keeps _ (fun u i hu => State.dropDest_keeps hu _ _) _ h3
    · exact h3

theorem State.buttonOn_keeps {s₀ s : State} (h : Keeps s₀ s) (n : Nat) (press : Bool) : Keeps s₀ (State.buttonOn s n press) := by
  unfold State.buttonOn
  try dsimp only [Keeps]
  repeat' first | (with_reducible first | assumption | apply State.press_keeps) | (with_reducible first | apply each_keeps | apply foldl_keeps) | intro _ _ _ | split | (with_reducible first | apply KeepsOf.put rfl | apply KeepsOf.filter) | dsimp only [Keeps]

theorem State.buttonOff_keeps {s₀ s : State} (h : Keeps s₀ s) (n : Nat) : Keeps s₀ (State.buttonOff s n) := by
  unfold State.buttonOff
  try dsimp only [Keeps]
  repeat' first | (with_reducible first | assumption ) | (with_reducible first | apply each_keeps | apply foldl_keeps) | intro _ _ _ | split | (with_reducible first | apply KeepsOf.put rfl | apply KeepsOf.filter) | dsimp only [Keeps]

end Sys2Proof.Machine
end

