-- ==== Sys2Proof/Laws/KeepsBidOps.lean ====
section
/-! SUPPORT. The operations of Machine/BidOps.lean keep the store canonical and the queue as it is. -/

set_option linter.unusedTactic false
set_option linter.unreachableTactic false

namespace Sys2Proof.Machine

theorem State.gcallDel_keeps {s₀ s : State} (h : Keeps s₀ s) (key : Nat) (seq : Nat) : Keeps s₀ (State.gcallDel s key seq) := by
  unfold State.gcallDel
  try dsimp only [Keeps]
  repeat' first | (with_reducible first | assumption ) | (with_reducible first | apply each_keeps | apply foldl_keeps) | intro _ _ _ | split | (with_reducible first | apply KeepsOf.put rfl | apply KeepsOf.filter) | dsimp only [Keeps]

theorem State.gcallPut_keeps {s₀ s : State} (h : Keeps s₀ s) (c : GCall) : Keeps s₀ (State.gcallPut s c) := by
  unfold State.gcallPut
  try dsimp only [Keeps]
  repeat' first | (with_reducible first | assumption ) | (with_reducible first | apply each_keeps | apply foldl_keeps) | intro _ _ _ | split | (with_reducible first | apply KeepsOf.put rfl | apply KeepsOf.filter) | dsimp only [Keeps]

theorem State.costRefresh_keeps {s₀ s : State} (h : Keeps s₀ s) : Keeps s₀ (State.costRefresh s) := by
  unfold State.costRefresh
  try dsimp only [Keeps]
  repeat' first | (with_reducible first | assumption ) | (with_reducible first | apply each_keeps | apply foldl_keeps) | intro _ _ _ | split | (with_reducible first | apply KeepsOf.put rfl | apply KeepsOf.filter) | dsimp only [Keeps]

theorem State.bidRecall_keeps {s₀ s : State} (h : Keeps s₀ s) : Keeps s₀ (State.bidRecall s) := by
  unfold State.bidRecall
  try dsimp only [Keeps]
  repeat' first | (with_reducible first | assumption ) | (with_reducible first | apply each_keeps | apply foldl_keeps) | intro _ _ _ | split | (with_reducible first | apply KeepsOf.put rfl | apply KeepsOf.filter) | dsimp only [Keeps]

theorem State.bidPump_keeps {s₀ s0 : State} (h : Keeps s₀ s0) : Keeps s₀ (State.bidPump s0) := by
  unfold State.bidPump
  try dsimp only [Keeps]
  repeat' first | (with_reducible first | assumption | apply State.bidRecall_keeps | apply State.canSend_keeps) | (with_reducible first | apply each_keeps | apply foldl_keeps) | intro _ _ _ | split | (with_reducible first | apply KeepsOf.put rfl | apply KeepsOf.filter) | dsimp only [Keeps]

theorem State.announceCall_keeps {s₀ s : State} (h : Keeps s₀ s) (c : GCall) (flags : Nat) (holder : Nat) : Keeps s₀ (State.announceCall s c flags holder) := by
  unfold State.announceCall
  try dsimp only [Keeps]
  repeat' first | (with_reducible first | assumption | apply State.bidPush_keeps | apply State.bidPump_keeps) | (with_reducible first | apply each_keeps | apply foldl_keeps) | intro _ _ _ | split | (with_reducible first | apply KeepsOf.put rfl | apply KeepsOf.filter) | dsimp only [Keeps]

theorem State.bidProto_keeps {s₀ s : State} (h : Keeps s₀ s) : Keeps s₀ (State.bidProto s) := by
  unfold State.bidProto
  try dsimp only [Keeps]
  repeat' first | (with_reducible first | assumption | apply State.bump_keeps | apply State.raise_keeps) | (with_reducible first | apply each_keeps | apply foldl_keeps) | intro _ _ _ | split | (with_reducible first | apply KeepsOf.put rfl | apply KeepsOf.filter) | dsimp only [Keeps]

theorem State.bidYield_keeps {s₀ s : State} (h : Keeps s₀ s) (key : Nat) (seq : Nat) : Keeps s₀ (State.bidYield s key seq) := by
  unfold State.bidYield
  try dsimp only [Keeps]
  repeat' first | (with_reducible first | assumption | apply State.canAbort_keeps) | (with_reducible first | apply each_keeps | apply foldl_keeps) | intro _ _ _ | split | (with_reducible first | apply KeepsOf.put rfl | apply KeepsOf.filter) | dsimp only [Keeps]

theorem State.bidLearn_keeps {s₀ s : State} (h : Keeps s₀ s) (key : Nat) (seq : Nat) (dest : Nat) (flags : Nat) (holder : Nat) (age : Nat) (slot : Nat) : Keeps s₀ (State.bidLearn s key seq dest flags holder age slot) := by
  unfold State.bidLearn
  try dsimp only [Keeps]
  repeat' first | (with_reducible first | assumption | apply State.gcallPut_keeps) | (with_reducible first | apply each_keeps | apply foldl_keeps) | intro _ _ _ | split | (with_reducible first | apply KeepsOf.put rfl | apply KeepsOf.filter) | dsimp only [Keeps]

theorem State.bidArm_keeps {s₀ s : State} (h : Keeps s₀ s) (key : Nat) (seq : Nat) (dest : Nat) (flags : Nat) (holder : Nat) (slot : Nat) (tag : Nat) (vpUs : Nat) : Keeps s₀ (State.bidArm s key seq dest flags holder slot tag vpUs) := by
  unfold State.bidArm
  try dsimp only [Keeps]
  repeat' first | (with_reducible first | assumption | apply State.canFill_keeps | apply State.canRequestIn_keeps) | (with_reducible first | apply each_keeps | apply foldl_keeps) | intro _ _ _ | split | (with_reducible first | apply KeepsOf.put rfl | apply KeepsOf.filter) | dsimp only [Keeps]

theorem State.announceHeard_keeps {s₀ s : State} (h : Keeps s₀ s) (id : Nat) (d : List Byte) (vpUs : Nat) : Keeps s₀ (State.announceHeard s id d vpUs) := by
  unfold State.announceHeard
  try dsimp only [Keeps]
  repeat' first | (with_reducible first | assumption | apply State.bidYield_keeps | apply State.bump_keeps | apply State.bidLearn_keeps | apply State.bidArm_keeps) | (with_reducible first | apply each_keeps | apply foldl_keeps) | intro _ _ _ | split | (with_reducible first | apply KeepsOf.put rfl | apply KeepsOf.filter) | dsimp only [Keeps]

theorem State.announcementRx_keeps {s₀ s : State} (h : Keeps s₀ s) (f : CanFrame) : Keeps s₀ (State.announcementRx s f) := by
  unfold State.announcementRx
  try dsimp only [Keeps]
  repeat' first | (with_reducible first | assumption | apply State.bidProto_keeps | apply State.announceHeard_keeps) | (with_reducible first | apply each_keeps | apply foldl_keeps) | intro _ _ _ | split | (with_reducible first | apply KeepsOf.put rfl | apply KeepsOf.filter) | dsimp only [Keeps]

theorem State.roundClose_keeps {s₀ s : State} (h : Keeps s₀ s) : Keeps s₀ (State.roundClose s) := by
  unfold State.roundClose
  try dsimp only [Keeps]
  repeat' first | (with_reducible first | assumption | apply State.canAbort_keeps) | (with_reducible first | apply each_keeps | apply foldl_keeps) | intro _ _ _ | split | (with_reducible first | apply KeepsOf.put rfl | apply KeepsOf.filter) | dsimp only [Keeps]

theorem State.bidStale_keeps {s₀ s : State} (h : Keeps s₀ s) (key : Nat) (tag : Nat) : Keeps s₀ (State.bidStale s key tag) := by
  unfold State.bidStale
  try dsimp only [Keeps]
  repeat' first | (with_reducible first | assumption | apply State.bump_keeps) | (with_reducible first | apply each_keeps | apply foldl_keeps) | intro _ _ _ | split | (with_reducible first | apply KeepsOf.put rfl | apply KeepsOf.filter) | dsimp only [Keeps]

theorem State.bidHeard_keeps {s₀ s : State} (h : Keeps s₀ s) (id : Nat) (d : List Byte) : Keeps s₀ (State.bidHeard s id d) := by
  unfold State.bidHeard
  try dsimp only [Keeps]
  repeat' first | (with_reducible first | assumption | apply State.roundClose_keeps | apply State.wr_keeps | apply State.bidPump_keeps | apply State.bidStale_keeps) | (with_reducible first | apply each_keeps | apply foldl_keeps) | intro _ _ _ | split | (with_reducible first | apply KeepsOf.put rfl | apply KeepsOf.filter) | dsimp only [Keeps]

theorem State.bidFrameRx_keeps {s₀ s : State} (h : Keeps s₀ s) (f : CanFrame) : Keeps s₀ (State.bidFrameRx s f) := by
  unfold State.bidFrameRx
  try dsimp only [Keeps]
  repeat' first | (with_reducible first | assumption | apply State.bidProto_keeps | apply State.bidHeard_keeps) | (with_reducible first | apply each_keeps | apply foldl_keeps) | intro _ _ _ | split | (with_reducible first | apply KeepsOf.put rfl | apply KeepsOf.filter) | dsimp only [Keeps]

theorem State.roundNobid_keeps {s₀ s : State} (h : Keeps s₀ s) : Keeps s₀ (State.roundNobid s) := by
  unfold State.roundNobid
  try dsimp only [Keeps]
  repeat' first | (with_reducible first | assumption | apply State.bump_keeps | apply State.roundClose_keeps | apply State.raise_keeps | apply State.gcallPut_keeps | apply State.bidPump_keeps) | (with_reducible first | apply each_keeps | apply foldl_keeps) | intro _ _ _ | split | (with_reducible first | apply KeepsOf.put rfl | apply KeepsOf.filter) | dsimp only [Keeps]

theorem State.releaseHeard_keeps {s₀ s : State} (h : Keeps s₀ s) (id : Nat) (d : List Byte) : Keeps s₀ (State.releaseHeard s id d) := by
  unfold State.releaseHeard
  try dsimp only [Keeps]
  repeat' first | (with_reducible first | assumption | apply State.bump_keeps | apply State.own_keeps | apply State.gcallDel_keeps | apply State.gcallPut_keeps | apply State.announceCall_keeps) | (with_reducible first | apply each_keeps | apply foldl_keeps) | intro _ _ _ | split | (with_reducible first | apply KeepsOf.put rfl | apply KeepsOf.filter) | dsimp only [Keeps]

theorem State.releaseRx_keeps {s₀ s : State} (h : Keeps s₀ s) (f : CanFrame) : Keeps s₀ (State.releaseRx s f) := by
  unfold State.releaseRx
  try dsimp only [Keeps]
  repeat' first | (with_reducible first | assumption | apply State.bidProto_keeps | apply State.releaseHeard_keeps) | (with_reducible first | apply each_keeps | apply foldl_keeps) | intro _ _ _ | split | (with_reducible first | apply KeepsOf.put rfl | apply KeepsOf.filter) | dsimp only [Keeps]

theorem State.bidSent_keeps {s₀ s : State} (h : Keeps s₀ s) (j : Nat) (sofUs : Nat) : Keeps s₀ (State.bidSent s j sofUs) := by
  unfold State.bidSent
  try dsimp only [Keeps]
  repeat' first | (with_reducible first | assumption | apply State.bidHeard_keeps | apply State.releaseHeard_keeps | apply State.bidPump_keeps | apply State.announceHeard_keeps) | (with_reducible first | apply each_keeps | apply foldl_keeps) | intro _ _ _ | split | (with_reducible first | apply KeepsOf.put rfl | apply KeepsOf.filter) | dsimp only [Keeps]

theorem State.awardLost_keeps {s₀ s : State} (h : Keeps s₀ s) (key : Nat) (seq : Nat) : Keeps s₀ (State.awardLost s key seq) := by
  unfold State.awardLost
  try dsimp only [Keeps]
  repeat' first | (with_reducible first | assumption | apply State.raise_keeps) | (with_reducible first | apply each_keeps | apply foldl_keeps) | intro _ _ _ | split | (with_reducible first | apply KeepsOf.put rfl | apply KeepsOf.filter) | dsimp only [Keeps]

theorem State.awardWon_keeps {s₀ s : State} (h : Keeps s₀ s) (r : Round) : Keeps s₀ (State.awardWon s r) := by
  unfold State.awardWon
  try dsimp only [Keeps]
  repeat' first | (with_reducible first | assumption | apply State.bump_keeps | apply State.raise_keeps | apply State.destPlace_keeps | apply State.releaseCall_keeps | apply State.dropHall_keeps | apply State.hallCall_keeps) | (with_reducible first | apply each_keeps | apply foldl_keeps) | intro _ _ _ | split | (with_reducible first | apply KeepsOf.put rfl | apply KeepsOf.filter) | dsimp only [Keeps]

theorem State.awardNow_keeps {s₀ s : State} (h : Keeps s₀ s) (r : Round) (car : Nat) : Keeps s₀ (State.awardNow s r car) := by
  unfold State.awardNow
  try dsimp only [Keeps]
  repeat' first | (with_reducible first | assumption | apply State.awardLost_keeps | apply State.gcallPut_keeps | apply State.awardWon_keeps) | (with_reducible first | apply each_keeps | apply foldl_keeps) | intro _ _ _ | split | (with_reducible first | apply KeepsOf.put rfl | apply KeepsOf.filter) | dsimp only [Keeps]

theorem State.awardsBy_keeps {s₀ s : State} (h : Keeps s₀ s) (k : Nat) : Keeps s₀ (State.awardsBy s k) := by
  unfold State.awardsBy
  try dsimp only [Keeps]
  repeat' first | (with_reducible first | assumption | apply each_keeps | apply State.awardNow_keeps | apply State.bidPump_keeps) | (with_reducible first | apply each_keeps | apply foldl_keeps) | intro _ _ _ | split | (with_reducible first | apply KeepsOf.put rfl | apply KeepsOf.filter) | dsimp only [Keeps]

theorem State.awardsNow_keeps {s₀ s : State} (h : Keeps s₀ s) : Keeps s₀ (State.awardsNow s) := by
  unfold State.awardsNow
  try dsimp only [Keeps]
  repeat' first | (with_reducible first | assumption | apply State.awardsBy_keeps) | (with_reducible first | apply each_keeps | apply foldl_keeps) | intro _ _ _ | split | (with_reducible first | apply KeepsOf.put rfl | apply KeepsOf.filter) | dsimp only [Keeps]

theorem State.buttonSlot_keeps {s₀ s : State} (h : Keeps s₀ s) : Keeps s₀ (State.buttonSlot s) := by
  unfold State.buttonSlot
  try dsimp only [Keeps]
  repeat' first | (with_reducible first | assumption | apply State.awardsNow_keeps | apply each_keeps | apply State.carCall_keeps) | (with_reducible first | apply each_keeps | apply foldl_keeps) | intro _ _ _ | split | (with_reducible first | apply KeepsOf.put rfl | apply KeepsOf.filter) | dsimp only [Keeps]

theorem State.schSlot_keeps {s₀ s : State} (h : Keeps s₀ s) : Keeps s₀ (State.schSlot s) := by
  unfold State.schSlot
  try dsimp only [Keeps]
  repeat' first | (with_reducible first | assumption | apply State.recallHere_keeps | apply State.buttonSlot_keeps | apply State.hereSettle_keeps) | (with_reducible first | apply each_keeps | apply foldl_keeps) | intro _ _ _ | split | (with_reducible first | apply KeepsOf.put rfl | apply KeepsOf.filter) | dsimp only [Keeps]

theorem State.pressNew_keeps {s₀ s : State} (h : Keeps s₀ s) (key : Nat) (dest : Nat) (seq : Nat) : Keeps s₀ (State.pressNew s key dest seq) := by
  unfold State.pressNew
  try dsimp only [Keeps]
  repeat' first | (with_reducible first | assumption | apply State.own_keeps | apply State.gcallPut_keeps | apply State.announceCall_keeps) | (with_reducible first | apply each_keeps | apply foldl_keeps) | intro _ _ _ | split | (with_reducible first | apply KeepsOf.put rfl | apply KeepsOf.filter) | dsimp only [Keeps]

theorem State.pressIsland_keeps {s₀ s : State} (h : Keeps s₀ s) (key : Nat) (dest : Nat) (seq : Nat) : Keeps s₀ (State.pressIsland s key dest seq) := by
  unfold State.pressIsland
  try dsimp only [Keeps]
  repeat' first | (with_reducible first | assumption | apply State.gcallPut_keeps | apply State.destPlace_keeps | apply State.hallCall_keeps) | (with_reducible first | apply each_keeps | apply foldl_keeps) | intro _ _ _ | split | (with_reducible first | apply KeepsOf.put rfl | apply KeepsOf.filter) | dsimp only [Keeps]

theorem State.press_keeps {s₀ s : State} (h : Keeps s₀ s) (key : Nat) (dest : Nat) (seq : Nat) : Keeps s₀ (State.press s key dest seq) := by
  unfold State.press
  try dsimp only [Keeps]
  repeat' first | (with_reducible first | assumption | apply State.pressNew_keeps | apply State.pressIsland_keeps) | (with_reducible first | apply each_keeps | apply foldl_keeps) | intro _ _ _ | split | (with_reducible first | apply KeepsOf.put rfl | apply KeepsOf.filter) | dsimp only [Keeps]

theorem State.pressRx_keeps {s₀ s : State} (h : Keeps s₀ s) (f : CanFrame) : Keeps s₀ (State.pressRx s f) := by
  unfold State.pressRx
  try dsimp only [Keeps]
  repeat' first | (with_reducible first | assumption | apply State.press_keeps) | (with_reducible first | apply each_keeps | apply foldl_keeps) | intro _ _ _ | split | (with_reducible first | apply KeepsOf.put rfl | apply KeepsOf.filter) | dsimp only [Keeps]

theorem State.bidInto_keeps {s₀ s : State} (h : Keeps s₀ s) (m : Member) : Keeps s₀ (State.bidInto s m) := by
  unfold State.bidInto
  try dsimp only [Keeps]
  repeat' first | (with_reducible first | assumption | apply State.raise_keeps) | (with_reducible first | apply each_keeps | apply foldl_keeps) | intro _ _ _ | split | (with_reducible first | apply KeepsOf.put rfl | apply KeepsOf.filter) | dsimp only [Keeps]

theorem State.bidSilent_keeps {s₀ s : State} (h : Keeps s₀ s) : Keeps s₀ (State.bidSilent s) := by
  unfold State.bidSilent
  try dsimp only [Keeps]
  repeat' first | (with_reducible first | assumption | apply State.canAbort_keeps | apply State.bidRecall_keeps) | (with_reducible first | apply each_keeps | apply foldl_keeps) | intro _ _ _ | split | (with_reducible first | apply KeepsOf.put rfl | apply KeepsOf.filter) | dsimp only [Keeps]

theorem State.bidListen_keeps {s₀ s : State} (h : Keeps s₀ s) : Keeps s₀ (State.bidListen s) := by
  unfold State.bidListen
  try dsimp only [Keeps]
  repeat' first | (with_reducible first | assumption | apply State.bidInto_keeps) | (with_reducible first | apply each_keeps | apply foldl_keeps) | intro _ _ _ | split | (with_reducible first | apply KeepsOf.put rfl | apply KeepsOf.filter) | dsimp only [Keeps]

theorem State.adoptCalls_keeps {s₀ s : State} (h : Keeps s₀ s) : Keeps s₀ (State.adoptCalls s) := by
  unfold State.adoptCalls
  try dsimp only [Keeps]
  repeat' first | (with_reducible first | assumption | apply State.gcallPut_keeps | apply each_keeps) | (with_reducible first | apply each_keeps | apply foldl_keeps) | intro _ _ _ | split | (with_reducible first | apply KeepsOf.put rfl | apply KeepsOf.filter) | dsimp only [Keeps]

theorem State.bidJoin_keeps {s₀ s : State} (h : Keeps s₀ s) : Keeps s₀ (State.bidJoin s) := by
  unfold State.bidJoin
  try dsimp only [Keeps]
  repeat' first | (with_reducible first | assumption | apply State.adoptCalls_keeps | apply State.bidInto_keeps | apply each_keeps | apply State.press_keeps | apply State.announceCall_keeps) | (with_reducible first | apply each_keeps | apply foldl_keeps) | intro _ _ _ | split | (with_reducible first | apply KeepsOf.put rfl | apply KeepsOf.filter) | dsimp only [Keeps]

theorem State.listenEnd_keeps {s₀ s : State} (h : Keeps s₀ s) : Keeps s₀ (State.listenEnd s) := by
  unfold State.listenEnd
  try dsimp only [Keeps]
  repeat' first | (with_reducible first | assumption | apply State.bidJoin_keeps) | (with_reducible first | apply each_keeps | apply foldl_keeps) | intro _ _ _ | split | (with_reducible first | apply KeepsOf.put rfl | apply KeepsOf.filter) | dsimp only [Keeps]

theorem State.bidWatch_keeps {s₀ s : State} (h : Keeps s₀ s) : Keeps s₀ (State.bidWatch s) := by
  unfold State.bidWatch
  try dsimp only [Keeps]
  repeat' first | (with_reducible first | assumption ) | (with_reducible first | apply each_keeps | apply foldl_keeps) | intro _ _ _ | split | (with_reducible first | apply KeepsOf.put rfl | apply KeepsOf.filter) | dsimp only [Keeps]

theorem State.islandEnter_keeps {s₀ s : State} (h : Keeps s₀ s) : Keeps s₀ (State.islandEnter s) := by
  unfold State.islandEnter
  try dsimp only [Keeps]
  repeat' first | (with_reducible first | assumption | apply State.bidSilent_keeps | apply State.bidInto_keeps) | (with_reducible first | apply each_keeps | apply foldl_keeps) | intro _ _ _ | split | (with_reducible first | apply KeepsOf.put rfl | apply KeepsOf.filter) | dsimp only [Keeps]

theorem State.islandExit_keeps {s₀ s : State} (h : Keeps s₀ s) : Keeps s₀ (State.islandExit s) := by
  unfold State.islandExit
  try dsimp only [Keeps]
  repeat' first | (with_reducible first | assumption | apply State.bidListen_keeps) | (with_reducible first | apply each_keeps | apply foldl_keeps) | intro _ _ _ | split | (with_reducible first | apply KeepsOf.put rfl | apply KeepsOf.filter) | dsimp only [Keeps]

theorem State.bidRunSet_keeps {s₀ s : State} (h : Keeps s₀ s) : Keeps s₀ (State.bidRunSet s) := by
  unfold State.bidRunSet
  try dsimp only [Keeps]
  repeat' first | (with_reducible first | assumption | apply State.bidListen_keeps) | (with_reducible first | apply each_keeps | apply foldl_keeps) | intro _ _ _ | split | (with_reducible first | apply KeepsOf.put rfl | apply KeepsOf.filter) | dsimp only [Keeps]

theorem State.bidStop_keeps {s₀ s : State} (h : Keeps s₀ s) : Keeps s₀ (State.bidStop s) := by
  unfold State.bidStop
  try dsimp only [Keeps]
  repeat' first | (with_reducible first | assumption | apply State.bidSilent_keeps | apply State.bidInto_keeps) | (with_reducible first | apply each_keeps | apply foldl_keeps) | intro _ _ _ | split | (with_reducible first | apply KeepsOf.put rfl | apply KeepsOf.filter) | dsimp only [Keeps]

theorem State.rebidNow_keeps {s₀ s : State} (h : Keeps s₀ s) (key : Nat) (seq : Nat) : Keeps s₀ (State.rebidNow s key seq) := by
  unfold State.rebidNow
  try dsimp only [Keeps]
  repeat' first | (with_reducible first | assumption | apply State.announceCall_keeps) | (with_reducible first | apply each_keeps | apply foldl_keeps) | intro _ _ _ | split | (with_reducible first | apply KeepsOf.put rfl | apply KeepsOf.filter) | dsimp only [Keeps]

theorem State.repeatNow_keeps {s₀ s : State} (h : Keeps s₀ s) (key : Nat) (seq : Nat) : Keeps s₀ (State.repeatNow s key seq) := by
  unfold State.repeatNow
  try dsimp only [Keeps]
  repeat' first | (with_reducible first | assumption | apply State.announceCall_keeps) | (with_reducible first | apply each_keeps | apply foldl_keeps) | intro _ _ _ | split | (with_reducible first | apply KeepsOf.put rfl | apply KeepsOf.filter) | dsimp only [Keeps]

theorem State.orphanNow_keeps {s₀ s : State} (h : Keeps s₀ s) (key : Nat) (seq : Nat) : Keeps s₀ (State.orphanNow s key seq) := by
  unfold State.orphanNow
  try dsimp only [Keeps]
  repeat' first | (with_reducible first | assumption | apply State.announceCall_keeps) | (with_reducible first | apply each_keeps | apply foldl_keeps) | intro _ _ _ | split | (with_reducible first | apply KeepsOf.put rfl | apply KeepsOf.filter) | dsimp only [Keeps]

theorem State.releaseAll_keeps {s₀ s : State} (h : Keeps s₀ s) : Keeps s₀ (State.releaseAll s) := by
  unfold State.releaseAll
  try dsimp only [Keeps]
  repeat' first | (with_reducible first | assumption | apply each_keeps | apply State.dropHall_keeps | apply State.dropDest_keeps | apply State.bidPump_keeps) | (with_reducible first | apply each_keeps | apply foldl_keeps) | intro _ _ _ | split | (with_reducible first | apply KeepsOf.put rfl | apply KeepsOf.filter) | dsimp only [Keeps]

theorem State.queryTick_keeps {s₀ s : State} (h : Keeps s₀ s) : Keeps s₀ (State.queryTick s) := by
  unfold State.queryTick
  try dsimp only [Keeps]
  repeat' first | (with_reducible first | assumption | apply State.wr_keeps) | (with_reducible first | apply each_keeps | apply foldl_keeps) | intro _ _ _ | split | (with_reducible first | apply KeepsOf.put rfl | apply KeepsOf.filter) | dsimp only [Keeps]

theorem State.bidTick_keeps {s₀ s : State} (h : Keeps s₀ s) : Keeps s₀ (State.bidTick s) := by
  unfold State.bidTick
  try dsimp only [Keeps]
  repeat' first | (with_reducible first | assumption | apply State.bidWatch_keeps | apply State.costRefresh_keeps | apply State.bidPump_keeps) | (with_reducible first | apply each_keeps | apply foldl_keeps) | intro _ _ _ | split | (with_reducible first | apply KeepsOf.put rfl | apply KeepsOf.filter) | dsimp only [Keeps]

end Sys2Proof.Machine
end

