-- ==== Sys2Proof/Laws/KeepsElOps.lean ====
section
/-! SUPPORT. The operations of Machine/ElOps.lean keep the store canonical and the queue as it is. -/

set_option linter.unusedTactic false
set_option linter.unreachableTactic false

namespace Sys2Proof.Machine

theorem State.modeInto_keeps {s₀ s : State} (h : Keeps s₀ s) (m : ElMode) : Keeps s₀ (State.modeInto s m) := by
  unfold State.modeInto
  try dsimp only [Keeps]
  repeat' first | (with_reducible first | assumption | apply State.raise_keeps) | (with_reducible first | apply each_keeps | apply foldl_keeps) | intro _ _ _ | split | (with_reducible first | apply KeepsOf.put rfl | apply KeepsOf.filter) | dsimp only [Keeps]

theorem State.elMode_keeps {s₀ s : State} (h : Keeps s₀ s) : Keeps s₀ (State.elMode s) := by
  unfold State.elMode
  try dsimp only [Keeps]
  repeat' first | (with_reducible first | assumption | apply State.modeInto_keeps) | (with_reducible first | apply each_keeps | apply foldl_keeps) | intro _ _ _ | split | (with_reducible first | apply KeepsOf.put rfl | apply KeepsOf.filter) | dsimp only [Keeps]

theorem State.elLimit_keeps {s₀ s : State} (h : Keeps s₀ s) : Keeps s₀ (State.elLimit s) := by
  unfold State.elLimit
  try dsimp only [Keeps]
  repeat' first | (with_reducible first | assumption ) | (with_reducible first | apply each_keeps | apply foldl_keeps) | intro _ _ _ | split | (with_reducible first | apply KeepsOf.put rfl | apply KeepsOf.filter) | dsimp only [Keeps]

/-- The timers of a degraded mode change nothing that is latched or energised. -/
theorem El.degFold_same (now : List DegMode) (l : List DegMode) : ∀ e : El,
    let f := l.foldl (fun (e : El) m =>
      if now.contains m then { e with degCyc := degSet e.degCyc m (degGet e.degCyc m + 1), degOk := degSet e.degOk m 0 }
      else { e with degOk := degSet e.degOk m (min (degGet e.degOk m + 1) 2400000) }) e
    f.causes = e.causes ∧ f.st = e.st ∧ f.perm = e.perm ∧ f.bypOn = e.bypOn ∧ f.relevGrant = e.relevGrant ∧ f.a = e.a ∧ f.b = e.b := by
  induction l with
  | nil => intro e; exact ⟨rfl, rfl, rfl, rfl, rfl, rfl, rfl⟩
  | cons m r ih =>
    intro e
    rw [List.foldl_cons]
    cases now.contains m
    · exact ih _
    · exact ih _

theorem State.elDegrade_keeps {s₀ s : State} (h : Keeps s₀ s) : Keeps s₀ (State.elDegrade s) := by
  unfold State.elDegrade
  extract_lets now e t w c u
  have ht : Keeps s₀ t := by
    have g := El.degFold_same now [DegMode.sr, .enc2, .dz, .load] s.el
    dsimp only [t]
    dsimp only at g
    change e.causes = _ ∧ e.st = _ ∧ e.perm = _ ∧ e.bypOn = _ ∧ e.relevGrant = _ ∧ e.a = _ ∧ e.b = _ at g
    obtain ⟨g1, g2, g3, g4, g5, g6, g7⟩ := g
    rw [g1, g2, g3, g4, g5, g6, g7]
    exact h
  clear_value t
  split
  · exact ht
  · exact State.raise_keeps (s := u) ht _ _

theorem State.elPersist_keeps {s₀ s : State} (h : Keeps s₀ s) : Keeps s₀ (State.elPersist s) := by
  unfold State.elPersist
  exact h

theorem State.elArm_keeps {s₀ s : State} (h : Keeps s₀ s) : Keeps s₀ (State.elArm s) := h

theorem State.elLatches_keeps {s₀ s : State} (h : Keeps s₀ s) : Keeps s₀ (State.elLatches s) := by
  unfold State.elLatches
  try dsimp only [Keeps]
  repeat' first | (with_reducible first | assumption ) | (with_reducible first | apply each_keeps | apply foldl_keeps) | intro _ _ _ | split | (with_reducible first | apply KeepsOf.put rfl | apply KeepsOf.filter) | dsimp only [Keeps]

theorem State.elBypass_keeps {s₀ s : State} (h : Keeps s₀ s) : Keeps s₀ (State.elBypass s) := by
  unfold State.elBypass
  extract_lets was r ok c1 t u
  have ht : Keeps s₀ t := by
    dsimp only [t, ok]
    cases hr : r with
    | none => exact h.bypOff
    | some x =>
      dsimp only
      cases hok : s.bypOk x
      · rw [Bool.false_and]
        exact h.bypOff
      · have hn : s.el.st = .normal := by
          have := hok
          simp only [State.bypOk, Bool.and_eq_true, beq_iff_eq] at this
          tauto
        exact KeepsOf.inNormal hn h
  clear_value t
  have hu : Keeps s₀ u := by
    dsimp only [u]
    split
    · exact ht
    · exact State.raise_keeps ht _ _
  split
  · exact State.trip_keeps hu _
  · exact hu

theorem State.elPermit_keeps {s₀ s : State} (h : Keeps s₀ s) : Keeps s₀ (State.elPermit s) := by
  unfold State.elPermit
  split
  · rename_i c
    have hn : s.el.st = .normal := by
      have := c.2.2
      simp only [State.permOk, Bool.and_eq_true, beq_iff_eq] at this
      tauto
    exact State.raise_keeps (s := { s with el := { s.el with perm := true } }) (KeepsOf.inNormal hn h) _ _
  · exact h

/-- Commanding switches one after another latches nothing. -/
theorem El.outputs_same (auth : Bool) (a b : List Bool) (l : List Nat) : ∀ e : El,
    let f := l.foldl (fun x i => x.setSw i (auth && nth a i false) (auth && nth b i false) x.cyc) e
    f.causes = e.causes ∧ f.st = e.st ∧ f.perm = e.perm ∧ f.bypOn = e.bypOn ∧ f.relevGrant = e.relevGrant := by
  induction l with
  | nil => intro e; exact ⟨rfl, rfl, rfl, rfl, rfl⟩
  | cons w r ih =>
    intro e
    have h := ih (e.setSw w (auth && nth a w false) (auth && nth b w false) e.cyc)
    have g := El.setSw_same e w (auth && nth a w false) (auth && nth b w false) e.cyc
    exact ⟨h.1.trans g.1, h.2.1.trans g.2.1, h.2.2.1.trans g.2.2.1, h.2.2.2.1.trans g.2.2.2.1, h.2.2.2.2.trans g.2.2.2.2⟩

/-- An output that is off and wanted off by both channels stays off. -/
theorem El.outputs_off (auth : Bool) (a b : List Bool) (i : Nat) (ha : nth a i false = false) (hb : nth b i false = false)
    (l : List Nat) : ∀ e : El, e.IsOff i →
    (l.foldl (fun x k => x.setSw k (auth && nth a k false) (auth && nth b k false) x.cyc) e).IsOff i := by
  induction l with
  | nil => intro e h; exact h
  | cons w r ih =>
    intro e h
    refine ih _ (El.setSw_off _ (fun q => ?_) (fun _ => h))
    subst q
    rw [ha, hb, Bool.and_false]
    exact ⟨rfl, rfl⟩

/-- Outside NORMAL, without permission and bridging, a channel wants everything but GOV off. -/
theorem State.elWants_off {s : State} (hn : s.el.st ≠ .normal) (hb : s.el.bypOn = false) (hp : s.el.perm = false) (c : ElCh) :
    ∀ i < 8, nth (s.elWants c) i false = false := by
  intro i hi
  have q : ((s.own c).el.st == ElState.normal) = false := by simpa [State.own] using hn
  have b : (s.own c).el.bypOn = false := hb
  have p : (s.own c).el.perm = false := hp
  unfold State.elWants
  simp only [q, b, p, Bool.false_and]
  match i, hi with
  | 0, _ | 1, _ | 2, _ | 3, _ | 4, _ | 5, _ | 6, _ | 7, _ => rfl
  | n + 8, h => omega

theorem State.elOutputs_keeps {s₀ s : State} (h : Keeps s₀ s) : Keeps s₀ (State.elOutputs s) := by
  unfold State.elOutputs
  extract_lets auth a b
  have g := El.outputs_same auth a b (List.range 9) s.el
  have o : s.el.st ≠ .normal → s.el.bypOn = false → s.el.perm = false → ∀ i < 8, s.el.IsOff i →
      ((List.range 9).foldl (fun x k => x.setSw k (auth && nth a k false) (auth && nth b k false) x.cyc) s.el).IsOff i :=
    fun hn hb hp i hi => El.outputs_off auth a b i (State.elWants_off hn hb hp _ i hi) (State.elWants_off hn hb hp _ i hi) _ s.el
  dsimp only at g
  clear_value auth a b
  generalize (List.range 9).foldl (fun x k => x.setSw k (auth && nth a k false) (auth && nth b k false) x.cyc) s.el = f at g o ⊢
  obtain ⟨g1, g2, g3, g4, g5⟩ := g
  refine { h with el := fun k => ⟨?_, ?_⟩ }
  · dsimp only
    rw [g1, g2]; exact (h.el k).tripped
  · dsimp only
    rw [g2, g3, g4, g5]
    intro hn
    have x := (h.el k).off hn
    exact ⟨x.1, x.2.1, x.2.2.1, fun i hi => o hn x.2.1 x.1 i hi (x.2.2.2 i hi)⟩

theorem State.elProof_keeps {s₀ s : State} (h : Keeps s₀ s) : Keeps s₀ (State.elProof s) := by
  unfold State.elProof
  try dsimp only [Keeps]
  repeat' first | (with_reducible first | assumption | apply State.raise_keeps | apply State.rtEvent_keeps) | (with_reducible first | apply each_keeps | apply foldl_keeps) | intro _ _ _ | split | (with_reducible first | apply KeepsOf.put rfl | apply KeepsOf.filter) | dsimp only [Keeps]

theorem State.elHoldRun_keeps {s₀ s : State} (h : Keeps s₀ s) : Keeps s₀ (State.elHoldRun s) := by
  unfold State.elHoldRun
  try dsimp only [Keeps]
  repeat' first | (with_reducible first | assumption | apply State.motHoldNow_keeps | apply State.motIdleNow_keeps | apply State.wn_keeps | apply State.motStartNow_keeps) | (with_reducible first | apply each_keeps | apply foldl_keeps) | intro _ _ _ | split | (with_reducible first | apply KeepsOf.put rfl | apply KeepsOf.filter) | dsimp only [Keeps]

/-- A cycle's samples command no switch. -/
theorem State.elReader_outs (s : State) (c : ElCh) (y : Option Int) : (s.elReader c y).outs = c.outs := by
  unfold State.elReader
  repeat' first | rfl | split | dsimp only

theorem State.elCorrect_outs (s : State) (second : Bool) (c : ElCh) (tel : Option (Int × Nat)) (x : ElSample) :
    (s.elCorrect second c tel x).outs = c.outs := by
  unfold State.elCorrect
  repeat' first | rfl | split | dsimp only

theorem State.elHeard_outs (s : State) (c : ElCh) (tel : Option (Int × Nat)) : (s.elHeard c tel).outs = c.outs := by
  unfold State.elHeard; split <;> rfl

theorem State.elChan_outs (s : State) (second : Bool) (c : ElCh) (x : ElSample) : (s.elChan second c x).outs = c.outs := by
  unfold State.elChan
  extract_lets w c1 tel q c2 br v w2 c3 c4 c5 c6
  have h2 : c2.outs = c.outs := State.elHeard_outs _ _ _
  have h3 : c3.outs = c2.outs := by dsimp only [c3]; split <;> rfl
  have h5 : c5.outs = c4.outs := State.elReader_outs _ _ _
  have h6 : c6.outs = c5.outs := State.elCorrect_outs _ _ _ _ _
  exact h6.trans (h5.trans (h3.trans h2))

theorem State.elSample_keeps {s₀ s : State} (h : Keeps s₀ s) (i : ElIn) : Keeps s₀ (State.elSample s i) := by
  unfold State.elSample
  extract_lets c1 e t c2 u
  have ht : Keeps s₀ t := by
    refine { h with el := ?_ }
    show _ → ElSafe s.el.causes s.el.st s.el.perm s.el.bypOn s.el.relevGrant (s.elChan false s.el.a i.a).outs (s.elChan true s.el.b i.b).outs
    rw [State.elChan_outs, State.elChan_outs]
    exact h.el
  clear_value t
  exact State.elMode_keeps (s := u) ht

theorem State.elDecide_keeps {s₀ s : State} (h : Keeps s₀ s) : Keeps s₀ (State.elDecide s) := by
  unfold State.elDecide
  try dsimp only [Keeps]
  repeat' first | (with_reducible first | assumption | apply State.elDegrade_keeps | apply State.elArm_keeps | apply State.elPersist_keeps | apply State.elLimit_keeps | apply State.raise_keeps | apply State.tripAll_keeps | apply State.elLatches_keeps) | (with_reducible first | apply each_keeps | apply foldl_keeps) | intro _ _ _ | split | (with_reducible first | apply KeepsOf.put rfl | apply KeepsOf.filter) | dsimp only [Keeps]

theorem State.elCycle_keeps {s₀ s : State} (h : Keeps s₀ s) (i : ElIn) : Keeps s₀ (State.elCycle s i) := by
  unfold State.elCycle
  try dsimp only [Keeps]
  repeat' first | (with_reducible first | assumption | apply State.lsfRunNow_keeps | apply State.elSample_keeps | apply State.lsfTakeAll_keeps | apply State.elDecide_keeps | apply State.elBypass_keeps | apply State.elPermit_keeps | apply State.elHoldRun_keeps | apply State.elProof_keeps | apply State.elOutputs_keeps | apply State.relevGrantEnds_keeps | apply State.drvCheckReady_keeps | apply State.lockNote_keeps | apply State.schServed_keeps) | (with_reducible first | apply each_keeps | apply foldl_keeps) | intro _ _ _ | split | (with_reducible first | apply KeepsOf.put rfl | apply KeepsOf.filter) | dsimp only [Keeps]

theorem State.elResolve_keeps {s₀ s : State} (h : Keeps s₀ s) : Keeps s₀ (State.elResolve s) := by
  unfold State.elResolve
  split
  · rename_i c
    refine State.raise_keeps (s := { s with el := { s.el with st := .normal } }) (KeepsOf.setSt ?_ ?_ h) _ _
    · rw [c.1]; decide
    · intro _; exact List.isEmpty_iff.1 c.2
  · exact h

theorem State.elClear_keeps {s₀ s : State} (h : Keeps s₀ s) (l : List Nat) : Keeps s₀ (State.elClear s l) := by
  unfold State.elClear
  extract_lets c t
  have ht : Keeps s₀ t := by
    refine { h with el := fun k => ⟨fun hc => (h.el k).tripped (fun e => hc ?_), (h.el k).off⟩ }
    show s.el.causes.filter _ = []
    rw [e]; rfl
  exact State.elResolve_keeps (State.elOutputs_keeps ht)

theorem State.testPulseNow_keeps {s₀ s : State} (h : Keeps s₀ s) (slot : Nat) (nodeLow : Bool) (demand : PulseDemand) : Keeps s₀ (State.testPulseNow s slot nodeLow demand) := by
  unfold State.testPulseNow
  try dsimp only [Keeps]
  repeat' first | (with_reducible first | assumption | apply State.wf__keeps | apply State.raise_keeps | apply State.trip_keeps) | (with_reducible first | apply each_keeps | apply foldl_keeps) | intro _ _ _ | split | (with_reducible first | apply KeepsOf.put rfl | apply KeepsOf.filter) | dsimp only [Keeps]

theorem State.degExpire_keeps {s₀ s : State} (h : Keeps s₀ s) (m : DegMode) : Keeps s₀ (State.degExpire s m) := by
  unfold State.degExpire
  try dsimp only [Keeps]
  repeat' first | (with_reducible first | assumption | apply State.raise_keeps) | (with_reducible first | apply each_keeps | apply foldl_keeps) | intro _ _ _ | split | (with_reducible first | apply KeepsOf.put rfl | apply KeepsOf.filter) | dsimp only [Keeps]

theorem State.degClear_keeps {s₀ s : State} (h : Keeps s₀ s) (m : DegMode) : Keeps s₀ (State.degClear s m) := by
  unfold State.degClear
  try dsimp only [Keeps]
  repeat' first | (with_reducible first | assumption ) | (with_reducible first | apply each_keeps | apply foldl_keeps) | intro _ _ _ | split | (with_reducible first | apply KeepsOf.put rfl | apply KeepsOf.filter) | dsimp only [Keeps]

theorem State.nearestStart_keeps {s₀ s : State} (h : Keeps s₀ s) : Keeps s₀ (State.nearestStart s) := by
  unfold State.nearestStart
  try dsimp only [Keeps]
  repeat' first | (with_reducible first | assumption | apply State.wn_keeps | apply State.motStartNow_keeps) | (with_reducible first | apply each_keeps | apply foldl_keeps) | intro _ _ _ | split | (with_reducible first | apply KeepsOf.put rfl | apply KeepsOf.filter) | dsimp only [Keeps]

theorem State.elDigest_keeps {s₀ s : State} (h : Keeps s₀ s) : Keeps s₀ (State.elDigest s) := by
  unfold State.elDigest
  try dsimp only [Keeps]
  repeat' first | (with_reducible first | assumption | apply State.elTake_keeps) | (with_reducible first | apply each_keeps | apply foldl_keeps) | intro _ _ _ | split | (with_reducible first | apply KeepsOf.put rfl | apply KeepsOf.filter) | dsimp only [Keeps]

theorem State.elStart_keeps {s₀ s : State} (h : Keeps s₀ s) (pass : Bool) (da db : Word) : Keeps s₀ (State.elStart s pass da db) := by
  unfold State.elStart
  split
  · exact h
  · rename_i hs
    have hs' : s.el.st ≠ .normal := by
      intro e; apply hs; rw [e]; decide
    extract_lets c1 c2 c3 t c4
    have ht : Keeps s₀ t := h
    split
    · refine State.lsfRunNow_keeps (State.elOutputs_keeps ?_)
      refine KeepsOf.setSt (st := s.el.st) hs' (fun e => ?_) h
      split at e
      · exact List.isEmpty_iff.1 ‹_›
      · cases e
    · refine State.lsfRunNow_keeps ?_
      split
      · exact KeepsOf.setSt (st := s.el.st) hs' (fun e => by cases e) h
      · exact State.trip_keeps ht _

end Sys2Proof.Machine
end

