-- ==== Sys2Proof/Laws/KeepsRecRun.lean ====
section
/-! SUPPORT. The operations of Machine/RecRun.lean keep the store canonical and the queue as it is. -/

set_option linter.unusedTactic false
set_option linter.unreachableTactic false

namespace Sys2Proof.Machine

theorem State.setRcd_keeps {s₀ s : State} (h : Keeps s₀ s) (r : Rcd) : Keeps s₀ (State.setRcd s r) := by
  unfold State.setRcd
  try dsimp only [Keeps]
  repeat' first | (with_reducible first | assumption ) | (with_reducible first | apply each_keeps | apply foldl_keeps) | intro _ _ _ | split | (with_reducible first | apply KeepsOf.put rfl | apply KeepsOf.filter) | dsimp only [Keeps]

theorem State.snapOne_keeps {s₀ s : State} (h : Keeps s₀ s) (left : Nat) (r : Rcd) : Keeps s₀ (State.snapOne s left r).1 := by
  unfold State.snapOne
  try dsimp only [Keeps]
  repeat' first | (with_reducible first | assumption | apply State.setRcd_keeps) | (with_reducible first | apply each_keeps | apply foldl_keeps) | intro _ _ _ | split | (with_reducible first | apply KeepsOf.put rfl | apply KeepsOf.filter) | dsimp only [Keeps]

theorem State.snapshots_keeps {s₀ s : State} (h : Keeps s₀ s) : Keeps s₀ (State.snapshots s) := by
  unfold State.snapshots
  dsimp only
  generalize s.rf_ _ _ _ - _ = c
  generalize c / 4 = n
  generalize s.rcd.unwritten = l
  induction l generalizing s n with
  | nil => exact h
  | cons q r ih =>
    rw [List.foldl_cons]
    rcases hq : (match s.staged q with | none => (s, n) | some r => s.snapOne n r) with ⟨t, m⟩
    have ht : Keeps s₀ t := by
      have e : t = (match s.staged q with | none => (s, n) | some r => s.snapOne n r).1 := by rw [hq]
      rw [e]
      split
      · exact h
      · exact State.snapOne_keeps h _ _
    have k := ih ht m
    rw [← hq] at k
    exact k

theorem State.flushNext_keeps {s₀ s : State} (h : Keeps s₀ s) (cell : RingCell) (q : Nat) : Keeps s₀ (State.flushNext s cell q) := by
  unfold State.flushNext
  try dsimp only [Keeps]
  repeat' first | (with_reducible first | assumption | apply State.raise_keeps) | (with_reducible first | apply each_keeps | apply foldl_keeps) | intro _ _ _ | split | (with_reducible first | apply KeepsOf.put rfl | apply KeepsOf.filter) | dsimp only [Keeps]

theorem State.flushWrite_keeps {s₀ s : State} (h : Keeps s₀ s) : Keeps s₀ (State.flushWrite s) := by
  unfold State.flushWrite
  try dsimp only [Keeps]
  repeat' first | (with_reducible first | assumption | apply State.flushNext_keeps | apply State.bump_keeps | apply State.raise_keeps) | (with_reducible first | apply each_keeps | apply foldl_keeps) | intro _ _ _ | split | (with_reducible first | apply KeepsOf.put rfl | apply KeepsOf.filter) | dsimp only [Keeps]

theorem State.flushStart_keeps {s₀ s : State} (h : Keeps s₀ s) : Keeps s₀ (State.flushStart s) := by
  unfold State.flushStart
  try dsimp only [Keeps]
  repeat' first | (with_reducible first | assumption ) | (with_reducible first | apply each_keeps | apply foldl_keeps) | intro _ _ _ | split | (with_reducible first | apply KeepsOf.put rfl | apply KeepsOf.filter) | dsimp only [Keeps]

theorem State.stageLost_keeps {s₀ s : State} (h : Keeps s₀ s) : Keeps s₀ (State.stageLost s) := by
  unfold State.stageLost
  try dsimp only [Keeps]
  repeat' first | (with_reducible first | assumption | apply State.putRcd_keeps) | (with_reducible first | apply each_keeps | apply foldl_keeps) | intro _ _ _ | split | (with_reducible first | apply KeepsOf.put rfl | apply KeepsOf.filter) | dsimp only [Keeps]

theorem State.wallSet_keeps {s₀ s : State} (h : Keeps s₀ s) : Keeps s₀ (State.wallSet s) := by
  unfold State.wallSet
  try dsimp only [Keeps]
  repeat' first | (with_reducible first | assumption | apply State.stage_keeps) | (with_reducible first | apply each_keeps | apply foldl_keeps) | intro _ _ _ | split | (with_reducible first | apply KeepsOf.put rfl | apply KeepsOf.filter) | dsimp only [Keeps]

theorem State.hostFire_keeps {s₀ s : State} (h : Keeps s₀ s) (slot : Nat) : Keeps s₀ (State.hostFire s slot) := by
  unfold State.hostFire
  try dsimp only [Keeps]
  repeat' first | (with_reducible first | assumption | apply State.stage_keeps) | (with_reducible first | apply each_keeps | apply foldl_keeps) | intro _ _ _ | split | (with_reducible first | apply KeepsOf.put rfl | apply KeepsOf.filter) | dsimp only [Keeps]

theorem State.readLoad_keeps {s₀ s : State} (h : Keeps s₀ s) : Keeps s₀ (State.readLoad s) := by
  unfold State.readLoad
  try dsimp only [Keeps]
  repeat' first | (with_reducible first | assumption | apply State.raise_keeps) | (with_reducible first | apply each_keeps | apply foldl_keeps) | intro _ _ _ | split | (with_reducible first | apply KeepsOf.put rfl | apply KeepsOf.filter) | dsimp only [Keeps]

theorem State.counterSave_keeps {s₀ s : State} (h : Keeps s₀ s) : Keeps s₀ (State.counterSave s) := by
  unfold State.counterSave
  try dsimp only [Keeps]
  repeat' first | (with_reducible first | assumption ) | (with_reducible first | apply each_keeps | apply foldl_keeps) | intro _ _ _ | split | (with_reducible first | apply KeepsOf.put rfl | apply KeepsOf.filter) | dsimp only [Keeps]

theorem State.opTick_keeps {s₀ s : State} (h : Keeps s₀ s) : Keeps s₀ (State.opTick s) := by
  unfold State.opTick
  try dsimp only [Keeps]
  repeat' first | (with_reducible first | assumption ) | (with_reducible first | apply each_keeps | apply foldl_keeps) | intro _ _ _ | split | (with_reducible first | apply KeepsOf.put rfl | apply KeepsOf.filter) | dsimp only [Keeps]

theorem State.recTick_keeps {s₀ s : State} (h : Keeps s₀ s) : Keeps s₀ (State.recTick s) := by
  unfold State.recTick
  try dsimp only [Keeps]
  repeat' first | (with_reducible first | assumption | apply State.snapshots_keeps | apply State.readLoad_keeps | apply State.flushWrite_keeps) | (with_reducible first | apply each_keeps | apply foldl_keeps) | intro _ _ _ | split | (with_reducible first | apply KeepsOf.put rfl | apply KeepsOf.filter) | dsimp only [Keeps]

theorem State.flushAll_keeps {s₀ s : State} (h : Keeps s₀ s) : Keeps s₀ (State.flushAll s) := by
  unfold State.flushAll
  try dsimp only [Keeps]
  repeat' first | (with_reducible first | assumption | apply each_keeps | apply State.bump_keeps | apply State.raise_keeps) | (with_reducible first | apply each_keeps | apply foldl_keeps) | intro _ _ _ | split | (with_reducible first | apply KeepsOf.put rfl | apply KeepsOf.filter) | dsimp only [Keeps]

theorem State.kbSave_keeps {s₀ s : State} (h : Keeps s₀ s) : Keeps s₀ (State.kbSave s) := by
  unfold State.kbSave
  try dsimp only [Keeps]
  repeat' first | (with_reducible first | assumption ) | (with_reducible first | apply each_keeps | apply foldl_keeps) | intro _ _ _ | split | (with_reducible first | apply KeepsOf.put rfl | apply KeepsOf.filter) | dsimp only [Keeps]

theorem State.posSave_keeps {s₀ s : State} (h : Keeps s₀ s) : Keeps s₀ (State.posSave s) := by
  unfold State.posSave
  try dsimp only [Keeps]
  repeat' first | (with_reducible first | assumption | apply State.kbSave_keeps) | (with_reducible first | apply each_keeps | apply foldl_keeps) | intro _ _ _ | split | (with_reducible first | apply KeepsOf.put rfl | apply KeepsOf.filter) | dsimp only [Keeps]

theorem State.finalSave_keeps {s₀ s : State} (h : Keeps s₀ s) : Keeps s₀ (State.finalSave s) := by
  unfold State.finalSave
  try dsimp only [Keeps]
  repeat' first | (with_reducible first | assumption | apply State.posSave_keeps | apply State.counterSave_keeps | apply State.flushAll_keeps) | (with_reducible first | apply each_keeps | apply foldl_keeps) | intro _ _ _ | split | (with_reducible first | apply KeepsOf.put rfl | apply KeepsOf.filter) | dsimp only [Keeps]

end Sys2Proof.Machine
end

