-- ==== Sys2Proof/Laws/KeepsKeyOps.lean ====
section
/-! SUPPORT. The operations of Machine/KeyOps.lean keep the store canonical and the queue as it is. -/

set_option linter.unusedTactic false
set_option linter.unreachableTactic false

namespace Sys2Proof.Machine

theorem State.sessEnd_keeps {s₀ s : State} (h : Keeps s₀ s) (i : Nat) : Keeps s₀ (State.sessEnd s i) := by
  unfold State.sessEnd
  try dsimp only [Keeps]
  repeat' first | (with_reducible first | assumption | apply State.raise_keeps) | (with_reducible first | apply each_keeps | apply foldl_keeps) | intro _ _ _ | split | (with_reducible first | apply KeepsOf.put rfl | apply KeepsOf.filter) | dsimp only [Keeps]

theorem State.sessEndAll_keeps {s₀ s : State} (h : Keeps s₀ s) : Keeps s₀ (State.sessEndAll s) := by
  unfold State.sessEndAll
  try dsimp only [Keeps]
  repeat' first | (with_reducible first | assumption | apply each_keeps | apply State.sessEnd_keeps) | (with_reducible first | apply each_keeps | apply foldl_keeps) | intro _ _ _ | split | (with_reducible first | apply KeepsOf.put rfl | apply KeepsOf.filter) | dsimp only [Keeps]

theorem State.sessEndSlot_keeps {s₀ s : State} (h : Keeps s₀ s) (n : Nat) : Keeps s₀ (State.sessEndSlot s n) := by
  unfold State.sessEndSlot
  try dsimp only [Keeps]
  repeat' first | (with_reducible first | assumption | apply each_keeps | apply State.sessEnd_keeps) | (with_reducible first | apply each_keeps | apply foldl_keeps) | intro _ _ _ | split | (with_reducible first | apply KeepsOf.put rfl | apply KeepsOf.filter) | dsimp only [Keeps]

theorem State.putSlot_keeps {s₀ s : State} (h : Keeps s₀ s) (n : Nat) (head key : List Byte) (resident : Bool) (parent : Option Nat) :
    Keeps s₀ (State.putSlot s n head key resident parent) := by
  unfold State.putSlot State.draw
  exact h

theorem State.orphanSlot_keeps {s₀ s : State} (h : Keeps s₀ s) (n : Nat) : Keeps s₀ (State.orphanSlot s n) := by
  unfold State.orphanSlot
  try dsimp only [Keeps]
  repeat' first | (with_reducible first | assumption | apply State.raise_keeps | apply State.sessEndSlot_keeps) | (with_reducible first | apply each_keeps | apply foldl_keeps) | intro _ _ _ | split | (with_reducible first | apply KeepsOf.put rfl | apply KeepsOf.filter) | dsimp only [Keeps]

theorem State.orphanChildren_keeps {s₀ : State} (f : Nat) : ∀ {s : State}, Keeps s₀ s → ∀ n : Nat, Keeps s₀ (State.orphanChildren f s n) := by
  induction f with
  | zero => intro s h n; exact h
  | succ f ih =>
    intro s h n
    unfold State.orphanChildren
    refine foldl_keeps _ (fun t c ht => ih ?_ _) _ h
    split
    · exact ht
    · exact State.orphanSlot_keeps ht _

theorem State.dropSlot_keeps {s₀ s : State} (h : Keeps s₀ s) (n : Nat) : Keeps s₀ (State.dropSlot s n) := by
  unfold State.dropSlot
  try dsimp only [Keeps]
  repeat' first | (with_reducible first | assumption | apply State.sessEndSlot_keeps | apply State.orphanChildren_keeps) | (with_reducible first | apply each_keeps | apply foldl_keeps) | intro _ _ _ | split | (with_reducible first | apply KeepsOf.put rfl | apply KeepsOf.filter) | dsimp only [Keeps]

theorem State.loadResident_keeps {s₀ s : State} (h : Keeps s₀ s) (n : Nat) : Keeps s₀ (State.loadResident s n) := by
  unfold State.loadResident
  try dsimp only [Keeps]
  repeat' first | (with_reducible first | assumption | apply State.putSlot_keeps) | (with_reducible first | apply each_keeps | apply foldl_keeps) | intro _ _ _ | split | (with_reducible first | apply KeepsOf.put rfl | apply KeepsOf.filter) | dsimp only [Keeps]

theorem State.loadResidents_keeps {s₀ s : State} (h : Keeps s₀ s) : Keeps s₀ (State.loadResidents s) := by
  unfold State.loadResidents
  try dsimp only [Keeps]
  repeat' first | (with_reducible first | assumption | apply each_keeps | apply State.loadResident_keeps) | (with_reducible first | apply each_keeps | apply foldl_keeps) | intro _ _ _ | split | (with_reducible first | apply KeepsOf.put rfl | apply KeepsOf.filter) | dsimp only [Keeps]

theorem State.deriveState_keeps {s₀ s : State} (h : Keeps s₀ s) : Keeps s₀ (State.deriveState s) := by
  unfold State.deriveState
  try dsimp only [Keeps]
  repeat' first | (with_reducible first | assumption ) | (with_reducible first | apply each_keeps | apply foldl_keeps) | intro _ _ _ | split | (with_reducible first | apply KeepsOf.put rfl | apply KeepsOf.filter) | dsimp only [Keeps]

theorem State.deriveRoot_keeps {s₀ s : State} (h : Keeps s₀ s) : Keeps s₀ (State.deriveRoot s) := by
  unfold State.deriveRoot
  try dsimp only [Keeps]
  repeat' first | (with_reducible first | assumption | apply State.deriveState_keeps | apply State.loadResidents_keeps) | (with_reducible first | apply each_keeps | apply foldl_keeps) | intro _ _ _ | split | (with_reducible first | apply KeepsOf.put rfl | apply KeepsOf.filter) | dsimp only [Keeps]

theorem State.lcEnter_keeps {s₀ s : State} (h : Keeps s₀ s) (otp : Lc) (service : Option Nat) : Keeps s₀ (State.lcEnter s otp service) := by
  unfold State.lcEnter
  try dsimp only [Keeps]
  repeat' first | (with_reducible first | assumption | apply State.sessEndAll_keeps | apply State.deriveState_keeps | apply State.loadResidents_keeps | apply State.raise_keeps) | (with_reducible first | apply each_keeps | apply foldl_keeps) | intro _ _ _ | split | (with_reducible first | apply KeepsOf.put rfl | apply KeepsOf.filter) | dsimp only [Keeps]

theorem State.serviceEnd_keeps {s₀ s : State} (h : Keeps s₀ s) : Keeps s₀ (State.serviceEnd s) := by
  unfold State.serviceEnd
  try dsimp only [Keeps]
  repeat' first | (with_reducible first | assumption | apply State.lcEnter_keeps) | (with_reducible first | apply each_keeps | apply foldl_keeps) | intro _ _ _ | split | (with_reducible first | apply KeepsOf.put rfl | apply KeepsOf.filter) | dsimp only [Keeps]

theorem State.useNonce_keeps {s₀ s : State} (h : Keeps s₀ s) (o : List Byte) (room : Nat) : Keeps s₀ (State.useNonce s o room) := by
  unfold State.useNonce
  try dsimp only [Keeps]
  repeat' first | (with_reducible first | assumption ) | (with_reducible first | apply each_keeps | apply foldl_keeps) | intro _ _ _ | split | (with_reducible first | apply KeepsOf.put rfl | apply KeepsOf.filter) | dsimp only [Keeps]

theorem State.keyAccept_keeps {s₀ s : State} (h : Keeps s₀ s) (src : Src) (cmd : Word) : Keeps s₀ (State.keyAccept s src cmd) := by
  unfold State.keyAccept
  try dsimp only [Keeps]
  repeat' first | (with_reducible first | assumption ) | (with_reducible first | apply each_keeps | apply foldl_keeps) | intro _ _ _ | split | (with_reducible first | apply KeepsOf.put rfl | apply KeepsOf.filter) | dsimp only [Keeps]

theorem State.setBuf_keeps {s₀ s : State} (h : Keeps s₀ s) (l : List Byte) : Keeps s₀ (State.setBuf s l) := by
  unfold State.setBuf
  try dsimp only [Keeps]
  repeat' first | (with_reducible first | assumption | apply State.wr_keeps) | (with_reducible first | apply each_keeps | apply foldl_keeps) | intro _ _ _ | split | (with_reducible first | apply KeepsOf.put rfl | apply KeepsOf.filter) | dsimp only [Keeps]

theorem KeyOut.fail_keeps {s₀ s : State} (h : Keeps s₀ s) (code : Nat) : Keeps s₀ (KeyOut.fail s code).st := by
  unfold KeyOut.fail
  try dsimp only [Keeps]
  repeat' first | (with_reducible first | assumption ) | (with_reducible first | apply each_keeps | apply foldl_keeps) | intro _ _ _ | split | (with_reducible first | apply KeepsOf.put rfl | apply KeepsOf.filter) | dsimp only [Keeps]

theorem State.keyLoad_keeps {s₀ s : State} (h : Keeps s₀ s) (port : Nat) (b : List Byte) : Keeps s₀ (State.keyLoad s port b).st := by
  unfold State.keyLoad
  try dsimp only [Keeps]
  repeat' first | (with_reducible first | assumption | apply KeyOut.fail_keeps | apply State.putSlot_keeps) | (with_reducible first | apply each_keeps | apply foldl_keeps) | intro _ _ _ | split | (with_reducible first | apply KeepsOf.put rfl | apply KeepsOf.filter) | dsimp only [Keeps]

theorem State.keyUnload_keeps {s₀ s : State} (h : Keeps s₀ s) (n : Nat) : Keeps s₀ (State.keyUnload s n).st := by
  unfold State.keyUnload
  try dsimp only [Keeps]
  repeat' first | (with_reducible first | assumption | apply KeyOut.fail_keeps | apply State.dropSlot_keeps) | (with_reducible first | apply each_keeps | apply foldl_keeps) | intro _ _ _ | split | (with_reducible first | apply KeepsOf.put rfl | apply KeepsOf.filter) | dsimp only [Keeps]

theorem State.keyReplace_keeps {s₀ s : State} (h : Keeps s₀ s) (port : Nat) (n : Nat) (b : List Byte) : Keeps s₀ (State.keyReplace s port n b).st := by
  unfold State.keyReplace
  try dsimp only [Keeps]
  repeat' first | (with_reducible first | assumption | apply KeyOut.fail_keeps) | (with_reducible first | apply each_keeps | apply foldl_keeps) | intro _ _ _ | split | (with_reducible first | apply KeepsOf.put rfl | apply KeepsOf.filter) | dsimp only [Keeps]

theorem State.keySwap_keeps {s₀ s : State} (h : Keeps s₀ s) (n : Nat) : Keeps s₀ (State.keySwap s n) := by
  unfold State.keySwap
  try dsimp only [Keeps]
  repeat' first | (with_reducible first | assumption | apply State.sessEndSlot_keeps | apply State.orphanChildren_keeps | apply State.putSlot_keeps) | (with_reducible first | apply each_keeps | apply foldl_keeps) | intro _ _ _ | split | (with_reducible first | apply KeepsOf.put rfl | apply KeepsOf.filter) | dsimp only [Keeps]

theorem State.keyMade_keeps {s₀ s0 : State} (h : Keeps s₀ s0) (src : Src) (cmd : Word) (origin : Nat) (parent : Option KeySlot) (key : List Byte) : Keeps s₀ (State.keyMade s0 src cmd origin parent key).st := by
  unfold State.keyMade
  try dsimp only [Keeps]
  repeat' first | (with_reducible first | assumption | apply State.draw_keeps | apply State.keyLoad_keeps | apply KeyOut.fail_keeps) | (with_reducible first | apply each_keeps | apply foldl_keeps) | intro _ _ _ | split | (with_reducible first | apply KeepsOf.put rfl | apply KeepsOf.filter) | dsimp only [Keeps]

theorem State.keyMake_keeps {s₀ s : State} (h : Keeps s₀ s) (src : Src) (cmd : Word) : Keeps s₀ (State.keyMake s src cmd).st := by
  unfold State.keyMake
  try dsimp only [Keeps]
  repeat' first | (with_reducible first | assumption | apply KeyOut.fail_keeps | apply State.keyMade_keeps) | (with_reducible first | apply each_keeps | apply foldl_keeps) | intro _ _ _ | split | (with_reducible first | apply KeepsOf.put rfl | apply KeepsOf.filter) | dsimp only [Keeps]

theorem State.keyResident_keeps {s₀ s : State} (h : Keeps s₀ s) (cmd : Word) : Keeps s₀ (State.keyResident s cmd).st := by
  unfold State.keyResident
  try dsimp only [Keeps]
  repeat' first | (with_reducible first | assumption | apply KeyOut.fail_keeps) | (with_reducible first | apply each_keeps | apply foldl_keeps) | intro _ _ _ | split | (with_reducible first | apply KeepsOf.put rfl | apply KeepsOf.filter) | dsimp only [Keeps]

/-- The record pair after a commit of its next index. -/
theorem IdxPair.next_commit (p : IdxPair) (n : Nat) (h : p.next = some n) :
    (if p.a = some n then ({ p with b := some (n + 1) } : IdxPair) else { p with a := some (n + 1) }).next = some (n + 1) := by
  obtain ⟨a, b, l⟩ := p
  cases a with
  | none => cases b with
    | none => cases h
    | some y => simp only [IdxPair.next, Option.some.injEq] at h; subst h; simp [IdxPair.next]
  | some x => cases b with
    | none => simp only [IdxPair.next, Option.some.injEq] at h; subst h; simp [IdxPair.next]
    | some y =>
      simp only [IdxPair.next, Option.some.injEq] at h
      by_cases hx : x = n
      · subst hx; simp [IdxPair.next]
      · have : y ≤ n := by omega
        simp [IdxPair.next, hx, this, Nat.le_succ_of_le this]

theorem find_filter_ne (l : List (Lc × IdxPair)) (a c : Lc) (h : ¬a = c) :
    (l.filter (fun x => x.1 != a)).find? (fun x => x.1 == c) = l.find? (fun x => x.1 == c) := by
  induction l with
  | nil => rfl
  | cons x r ih =>
    by_cases hx : x.1 = c
    · have hca : ¬c = a := fun e => h e.symm
      simp [List.filter_cons, List.find?_cons, hx, hca]
    · by_cases hy : x.1 = a
      · simp [List.filter_cons, hy, List.find?_cons, hx, ih, h]
      · simp [List.filter_cons, hy, List.find?_cons, hx, ih]

/-- Committing the index that is next lets no index fall. -/
theorem idxCommit_rises {s : State} {n : Nat} (hn : s.idxOf.next = some n) : IdxRises s.key.idx (State.idxCommit s n).key.idx := by
  have e : (State.idxCommit s n).key.idx = (s.lc, if s.idxOf.a = some n then ({ s.idxOf with b := some (n + 1) } : IdxPair)
      else { s.idxOf with a := some (n + 1) }) :: s.key.idx.filter (fun x => x.1 != s.lc) := by
    unfold State.idxCommit; dsimp only; split <;> rfl
  have k := IdxPair.next_commit _ _ hn
  rw [e]
  generalize (if s.idxOf.a = some n then ({ s.idxOf with b := some (n + 1) } : IdxPair)
      else { s.idxOf with a := some (n + 1) }) = q at k
  intro c m hm
  by_cases hc : s.lc = c
  · subst hc
    have hm' : s.idxOf.next = some m := hm
    rw [hn] at hm'; cases hm'
    exact ⟨n + 1, by simp [idxFor, k], by omega⟩
  · refine ⟨m, ?_, le_refl m⟩
    have hf : (s.lc == c) = false := by simpa using hc
    simp only [idxFor, List.find?_cons, hf, find_filter_ne _ _ _ hc]
    exact hm

theorem State.idxCommit_keeps {s₀ s : State} {n : Nat} (hn : s.idxOf.next = some n) (h : Keeps s₀ s) : Keeps s₀ (State.idxCommit s n) := by
  have hr := idxCommit_rises hn
  unfold State.idxCommit at hr ⊢
  dsimp only at hr ⊢
  split
  · split at hr
    · exact State.raise_keeps (s := { s with key := { s.key with idx := _ } }) (h.setIdx hr) _ _
    · contradiction
  · split at hr
    · contradiction
    · exact h.setIdx hr

theorem State.keyStep_keeps {s₀ s : State} (h : Keeps s₀ s) : Keeps s₀ (State.keyStep s) := by
  unfold State.keyStep
  try dsimp only [Keeps]
  repeat' first | (with_reducible first | assumption | apply State.idxCommit_keeps | apply State.useNonce_keeps) | (with_reducible first | apply each_keeps | apply foldl_keeps) | intro _ _ _ | split | (with_reducible first | apply KeepsOf.put rfl | apply KeepsOf.filter) | dsimp only [Keeps]

/-- Revoking keys takes nothing back. -/
theorem otpKeeps_revoke (l : List PubKey) (i : Nat) :
    OtpKeeps l (l.mapIdx (fun j k => if j = i then { k with revoked := true } else k)) := by
  intro j k hk
  refine ⟨if j = i then { k with revoked := true } else k, by simp [hk], fun hp => ?_, fun hr => ?_⟩
  · split <;> exact ⟨hp, rfl⟩
  · split
    · rfl
    · exact hr

/-- Enrolling where nothing is enrolled takes nothing back. -/
theorem otpKeeps_enrol (l : List PubKey) (i : Nat) (b : List Byte) (h : ¬(nth l i ⟨true, false, []⟩).present = true) :
    OtpKeeps l (l.set i ⟨true, (nth l i ⟨true, false, []⟩).revoked, b⟩) := by
  intro j k hk
  by_cases hj : i = j
  · subst hj
    have hl : i < l.length := (List.getElem?_eq_some_iff.1 hk).1
    have hn : nth l i ⟨true, false, []⟩ = k := by simp [nth, hk]
    rw [hn] at h ⊢
    refine ⟨⟨true, k.revoked, b⟩, ?_, fun hp => absurd hp h, id⟩
    simp [List.getElem?_set, hl]
  · exact ⟨k, by simp [List.getElem?_set, hj, hk], fun hp => ⟨hp, rfl⟩, id⟩

theorem State.keyManage_keeps {s₀ s : State} (h : Keeps s₀ s) : Keeps s₀ (State.keyManage s).st := by
  unfold State.keyManage
  extract_lets o arg code s1 i live revoke l was l2
  have h1 : Keeps s₀ s1 := State.useNonce_keeps h _ _
  clear_value s1
  split
  · exact h1
  · split
    · split
      · exact h1
      · rename_i hp
        exact h1.setOtp (otpKeeps_enrol _ _ _ hp)
    · split
      · exact h1
      · exact h1.setOtp (otpKeeps_revoke _ _)
    · split
      · exact h1
      · exact h1

theorem State.keyLifecycle_keeps {s₀ s : State} (h : Keeps s₀ s) (j : KeyJob) : Keeps s₀ (State.keyLifecycle s j).st := by
  unfold State.keyLifecycle
  try dsimp only [Keeps]
  repeat' first | (with_reducible first | assumption | apply State.serviceEnd_keeps | apply KeyOut.fail_keeps | apply State.lcEnter_keeps) | (with_reducible first | apply each_keeps | apply foldl_keeps) | intro _ _ _ | split | (with_reducible first | apply KeepsOf.put rfl | apply KeepsOf.filter) | dsimp only [Keeps]

theorem State.keyRun_keeps {s₀ s : State} (h : Keeps s₀ s) (j : KeyJob) : Keeps s₀ (State.keyRun s j).st := by
  unfold State.keyRun State.draw
  try dsimp only [Keeps]
  repeat' first | (with_reducible first | assumption | apply State.keyLoad_keeps | apply State.keyUnload_keeps | apply State.keyReplace_keeps | apply State.keyMake_keeps | apply State.keyResident_keeps | apply KeyOut.fail_keeps | apply State.draw_keeps | apply State.keyLifecycle_keeps | apply State.useNonce_keeps | apply State.keyManage_keeps) | (with_reducible first | apply each_keeps | apply foldl_keeps) | intro _ _ _ | split | (with_reducible first | apply KeepsOf.put rfl | apply KeepsOf.filter) | dsimp only [Keeps]

theorem State.remaskSlot_keeps {s₀ s : State} (h : Keeps s₀ s) (n : Nat) : Keeps s₀ (State.remaskSlot s n) := by
  unfold State.remaskSlot State.draw
  split
  · exact h
  · exact h

theorem State.keyDone_keeps {s₀ s : State} (h : Keeps s₀ s) : Keeps s₀ (State.keyDone s) := by
  unfold State.keyDone
  try dsimp only [Keeps]
  repeat' first | (with_reducible first | assumption | apply State.keyRun_keeps | apply State.setBuf_keeps | apply State.orphanSlot_keeps | apply State.remaskSlot_keeps | apply State.raise_keeps) | (with_reducible first | apply each_keeps | apply foldl_keeps) | intro _ _ _ | split | (with_reducible first | apply KeepsOf.put rfl | apply KeepsOf.filter) | dsimp only [Keeps]

theorem State.keyAbandon_keeps {s₀ s : State} (h : Keeps s₀ s) (code : Option Nat) : Keeps s₀ (State.keyAbandon s code) := by
  unfold State.keyAbandon
  try dsimp only [Keeps]
  repeat' first | (with_reducible first | assumption | apply State.setBuf_keeps | apply State.raise_keeps) | (with_reducible first | apply each_keeps | apply foldl_keeps) | intro _ _ _ | split | (with_reducible first | apply KeepsOf.put rfl | apply KeepsOf.filter) | dsimp only [Keeps]

theorem State.zeroise_keeps {s₀ s : State} (h : Keeps s₀ s) : Keeps s₀ (State.zeroise s) := by
  unfold State.zeroise
  try dsimp only [Keeps]
  repeat' first | (with_reducible first | assumption ) | (with_reducible first | apply each_keeps | apply foldl_keeps) | intro _ _ _ | split | (with_reducible first | apply KeepsOf.put rfl | apply KeepsOf.filter) | dsimp only [Keeps]

theorem State.tampered_keeps {s₀ s : State} (h : Keeps s₀ s) (sources : Nat) : Keeps s₀ (State.tampered s sources) := by
  unfold State.tampered
  try dsimp only [Keeps]
  repeat' first | (with_reducible first | assumption | apply State.zeroise_keeps | apply State.keyAbandon_keeps | apply State.sessEndAll_keeps | apply State.bump_keeps | apply State.wn_keeps | apply State.raise_keeps | apply State.wf__keeps | apply State.fire_keeps) | (with_reducible first | apply each_keeps | apply foldl_keeps) | intro _ _ _ | split | (with_reducible first | apply KeepsOf.put rfl | apply KeepsOf.filter) | dsimp only [Keeps]

theorem State.tampRelease_keeps {s₀ s : State} (h : Keeps s₀ s) : Keeps s₀ (State.tampRelease s) := by
  unfold State.tampRelease
  try dsimp only [Keeps]
  repeat' first | (with_reducible first | assumption | apply State.tampered_keeps | apply State.raise_keeps | apply State.deriveRoot_keeps) | (with_reducible first | apply each_keeps | apply foldl_keeps) | intro _ _ _ | split | (with_reducible first | apply KeepsOf.put rfl | apply KeepsOf.filter) | dsimp only [Keeps]

end Sys2Proof.Machine
end

