-- ==== Sys2Proof/Laws/KeepsSysOps.lean ====
section
/-! SUPPORT. The operations of Machine/SysOps.lean keep the store canonical and the queue as it is. -/

set_option linter.unusedTactic false
set_option linter.unreachableTactic false

namespace Sys2Proof.Machine

theorem State.entryApply_keeps {s₀ s : State} (h : Keeps s₀ s) (e : Nat × Word) : Keeps s₀ (State.entryApply s e) := by
  unfold State.entryApply
  try dsimp only [Keeps]
  repeat' first | (with_reducible first | assumption | apply State.wr_keeps) | (with_reducible first | apply each_keeps | apply foldl_keeps) | intro _ _ _ | split | (with_reducible first | apply KeepsOf.put rfl | apply KeepsOf.filter) | dsimp only [Keeps]

theorem State.copyWords_keeps {s₀ s : State} (h : Keeps s₀ s) (src : Nat) (dst : Nat) (n : Nat) : Keeps s₀ (State.copyWords s src dst n) := by
  unfold State.copyWords
  try dsimp only [Keeps]
  repeat' first | (with_reducible first | assumption | apply State.wr_keeps) | (with_reducible first | apply each_keeps | apply foldl_keeps) | intro _ _ _ | split | (with_reducible first | apply KeepsOf.put rfl | apply KeepsOf.filter) | dsimp only [Keeps]

theorem State.applyEntries_keeps {s₀ s : State} (h : Keeps s₀ s) (l : List (Nat × Word)) : Keeps s₀ (State.applyEntries s l) := by
  unfold State.applyEntries
  try dsimp only [Keeps]
  repeat' first | (with_reducible first | assumption | apply State.entryApply_keeps | apply State.copyWords_keeps | apply State.wr_keeps) | (with_reducible first | apply each_keeps | apply foldl_keeps) | intro _ _ _ | split | (with_reducible first | apply KeepsOf.put rfl | apply KeepsOf.filter) | dsimp only [Keeps]

theorem State.keepWords_keeps {s₀ s : State} (h : Keeps s₀ s) (keep : Cls → Bool) : Keeps s₀ (State.keepWords s keep) := by
  unfold State.keepWords
  try dsimp only [Keeps]
  repeat' first | (with_reducible first | assumption ) | (with_reducible first | apply each_keeps | apply foldl_keeps) | intro _ _ _ | split | (with_reducible first | apply KeepsOf.put rfl | apply KeepsOf.filter) | dsimp only [Keeps]

theorem State.orderlySave_keeps {s₀ s : State} (h : Keeps s₀ s) : Keeps s₀ (State.orderlySave s) := by
  unfold State.orderlySave
  try dsimp only [Keeps]
  repeat' first | (with_reducible first | assumption | apply each_keeps | apply State.flushAll_keeps | apply State.posSave_keeps | apply State.counterSave_keeps | apply State.doorRetain_keeps) | (with_reducible first | apply each_keeps | apply foldl_keeps) | intro _ _ _ | split | (with_reducible first | apply KeepsOf.put rfl | apply KeepsOf.filter) | dsimp only [Keeps]

/-- A reset leaves Electrum in START with everything off. -/
theorem El.afterReset_safe (e : El) (k : ResetKind) :
    (e.afterReset k).st = .start ∧ (e.afterReset k).perm = false ∧ (e.afterReset k).bypOn = false ∧
      (e.afterReset k).relevGrant = false ∧ (e.afterReset k).a.outs = List.replicate 9 false ∧
      (e.afterReset k).b.outs = List.replicate 9 false := by
  unfold El.afterReset
  dsimp only
  split
  · split <;> exact ⟨rfl, rfl, rfl, rfl, rfl, rfl⟩
  · split <;> exact ⟨rfl, rfl, rfl, rfl, rfl, rfl⟩

theorem State.resetWith_keeps {s₀ s0 : State} (h : Keeps s₀ s0) (k : ResetKind) (kinds : List ResetKind) :
    Keeps s₀ (State.resetWith s0 k kinds) := by
  unfold State.resetWith
  extract_lets fresh s1 s words cnt lost t
  have h1 : Keeps s₀ s1 := by
    show Keeps s₀ (if _ then s0.handover else s0)
    split
    · exact State.handover_keeps h
    · exact h
  have hs : Keeps s₀ s := by
    show Keeps s₀ (if _ then s1.orderlySave else s1)
    split
    · exact State.orderlySave_keeps h1
    · exact h1
  have hw : Keeps s₀ words := State.keepWords_keeps hs _
  have hc : Keeps s₀ cnt := by
    show Keeps s₀ (if _ then (words.wr sysProfileOvr 0).wr sysRstCnt 0 else if k == ResetKind.deep then words else words.bump sysRstCnt 0 16)
    split
    · exact State.wr_keeps (State.wr_keeps hw _ _) _ _
    · split
      · exact hw
      · exact State.bump_keeps hw _ _ _
  have ht : Keeps s₀ t := by
    show Keeps s₀ (if _ then (cnt.wr (doorRetAngle 0xD) 0).wr (doorRetAngle 0xE) 0 else cnt)
    split
    · exact State.wr_keeps (State.wr_keeps hc _ _) _ _
    · exact hc
  obtain ⟨a, b, c, d, e, f⟩ := El.afterReset_safe s.el k
  refine ⟨ht.store, hs.queue, hs.otp, hs.svn, hs.idx, fun _ => ⟨fun _ => ?_, fun _ => ⟨b, c, d, fun i hi => ?_⟩⟩⟩
  · show (s.el.afterReset k).st ≠ .normal
    rw [a]; decide
  · have off : nth (List.replicate 9 false) i false = false := by
      unfold nth; rw [List.getElem?_replicate]; split <;> rfl
    show nth (s.el.afterReset k).a.outs i false = false ∧ nth (s.el.afterReset k).b.outs i false = false
    rw [e, f]; exact ⟨off, off⟩

theorem State.resetBy_keeps {s₀ s : State} (h : Keeps s₀ s) (k : ResetKind) : Keeps s₀ (State.resetBy s k) := by
  unfold State.resetBy
  try dsimp only [Keeps]
  repeat' first | (with_reducible first | assumption | apply State.resetWith_keeps) | (with_reducible first | apply each_keeps | apply foldl_keeps) | intro _ _ _ | split | (with_reducible first | apply KeepsOf.put rfl | apply KeepsOf.filter) | dsimp only [Keeps]

theorem State.startFailed_keeps {s₀ s : State} (h : Keeps s₀ s) (c : BootCause) : Keeps s₀ (State.startFailed s c) := by
  unfold State.startFailed
  try dsimp only [Keeps]
  repeat' first | (with_reducible first | assumption ) | (with_reducible first | apply each_keeps | apply foldl_keeps) | intro _ _ _ | split | (with_reducible first | apply KeepsOf.put rfl | apply KeepsOf.filter) | dsimp only [Keeps]

theorem State.fallback_keeps {s₀ s0 : State} (h : Keeps s₀ s0) (c : ClkCause) : Keeps s₀ (State.fallback s0 c) := by
  unfold State.fallback
  try dsimp only [Keeps]
  repeat' first | (with_reducible first | assumption | apply State.motHoldNow_keeps | apply each_keeps | apply State.wr_keeps | apply State.raise_keeps | apply State.sessEnd_keeps | apply State.wf__keeps | apply State.fire_keeps) | (with_reducible first | apply each_keeps | apply foldl_keeps) | intro _ _ _ | split | (with_reducible first | apply KeepsOf.put rfl | apply KeepsOf.filter) | dsimp only [Keeps]

theorem State.selectSlot_keeps {s₀ s : State} (h : Keeps s₀ s) : Keeps s₀ (State.selectSlot s) := by
  unfold State.selectSlot
  try dsimp only [Keeps]
  repeat' first | (with_reducible first | assumption | apply State.wf__keeps) | (with_reducible first | apply each_keeps | apply foldl_keeps) | intro _ _ _ | split | (with_reducible first | apply KeepsOf.put rfl | apply KeepsOf.filter) | dsimp only [Keeps]

theorem State.enginesStart_keeps {s₀ s : State} (h : Keeps s₀ s) : Keeps s₀ (State.enginesStart s) := by
  unfold State.enginesStart
  try dsimp only [Keeps]
  repeat' first | (with_reducible first | assumption | apply State.posStart_keeps | apply State.schRunNow_keeps | apply State.silRestart_keeps | apply each_keeps | apply State.setCan_keeps) | (with_reducible first | apply each_keeps | apply foldl_keeps) | intro _ _ _ | split | (with_reducible first | apply KeepsOf.put rfl | apply KeepsOf.filter) | dsimp only [Keeps]

theorem State.startFields_keeps {s₀ s : State} (h : Keeps s₀ s) (i : StartIn) (fb : Bool) : Keeps s₀ (State.startFields s i fb) := by
  unfold State.startFields
  exact { h with svn := h.svn.trans (le_max_left _ _) }

theorem State.startMesh_keeps {s₀ s : State} (h : Keeps s₀ s) (active : Bool) : Keeps s₀ (State.startMesh s active) := by
  unfold State.startMesh
  try dsimp only [Keeps]
  repeat' first | (with_reducible first | assumption | apply State.tampered_keeps) | (with_reducible first | apply each_keeps | apply foldl_keeps) | intro _ _ _ | split | (with_reducible first | apply KeepsOf.put rfl | apply KeepsOf.filter) | dsimp only [Keeps]

theorem State.startProfile_keeps {s₀ s : State} (h : Keeps s₀ s) : Keeps s₀ (State.startProfile s) := by
  unfold State.startProfile
  try dsimp only [Keeps]
  repeat' first | (with_reducible first | assumption | apply State.selectSlot_keeps | apply State.applyEntries_keeps) | (with_reducible first | apply each_keeps | apply foldl_keeps) | intro _ _ _ | split | (with_reducible first | apply KeepsOf.put rfl | apply KeepsOf.filter) | dsimp only [Keeps]

theorem State.startKeys_keeps {s₀ s : State} (h : Keeps s₀ s) : Keeps s₀ (State.startKeys s) := by
  unfold State.startKeys
  try dsimp only [Keeps]
  repeat' first | (with_reducible first | assumption | apply State.tampered_keeps | apply State.deriveRoot_keeps) | (with_reducible first | apply each_keeps | apply foldl_keeps) | intro _ _ _ | split | (with_reducible first | apply KeepsOf.put rfl | apply KeepsOf.filter) | dsimp only [Keeps]

theorem State.startRecord_keeps {s₀ s : State} (h : Keeps s₀ s) (bootWord : Word) : Keeps s₀ (State.startRecord s bootWord) := by
  unfold State.startRecord
  try dsimp only [Keeps]
  repeat' first | (with_reducible first | assumption | apply State.wr_keeps | apply State.stage_keeps) | (with_reducible first | apply each_keeps | apply foldl_keeps) | intro _ _ _ | split | (with_reducible first | apply KeepsOf.put rfl | apply KeepsOf.filter) | dsimp only [Keeps]

theorem State.startRun_keeps {s₀ s : State} (h : Keeps s₀ s) (i : StartIn) (fb : Bool) : Keeps s₀ (State.startRun s i fb) := by
  unfold State.startRun
  try dsimp only [Keeps]
  repeat' first | (with_reducible first | assumption | apply State.startFields_keeps | apply State.startMesh_keeps | apply State.startProfile_keeps | apply State.startKeys_keeps | apply State.startRecord_keeps | apply State.enginesStart_keeps | apply State.elTake_keeps | apply State.fallback_keeps) | (with_reducible first | apply each_keeps | apply foldl_keeps) | intro _ _ _ | split | (with_reducible first | apply KeepsOf.put rfl | apply KeepsOf.filter) | dsimp only [Keeps]

theorem State.startAttempt_keeps {s₀ s : State} (h : Keeps s₀ s) (i : StartIn) : Keeps s₀ (State.startAttempt s i) := by
  unfold State.startAttempt
  try dsimp only [Keeps]
  repeat' first | (with_reducible first | assumption | apply State.startFailed_keeps | apply State.startRun_keeps) | (with_reducible first | apply each_keeps | apply foldl_keeps) | intro _ _ _ | split | (with_reducible first | apply KeepsOf.put rfl | apply KeepsOf.filter) | dsimp only [Keeps]

theorem State.holdEnd_keeps {s₀ s : State} (h : Keeps s₀ s) : Keeps s₀ (State.holdEnd s) := by
  unfold State.holdEnd
  try dsimp only [Keeps]
  repeat' first | (with_reducible first | assumption ) | (with_reducible first | apply each_keeps | apply foldl_keeps) | intro _ _ _ | split | (with_reducible first | apply KeepsOf.put rfl | apply KeepsOf.filter) | dsimp only [Keeps]

theorem State.invar_keeps {s₀ s : State} (h : Keeps s₀ s) (count : Nat) : Keeps s₀ (State.invar s count) := by
  unfold State.invar
  try dsimp only [Keeps]
  repeat' first | (with_reducible first | assumption | apply State.fallback_keeps | apply State.resetBy_keeps) | (with_reducible first | apply each_keeps | apply foldl_keeps) | intro _ _ _ | split | (with_reducible first | apply KeepsOf.put rfl | apply KeepsOf.filter) | dsimp only [Keeps]

theorem State.trimStep_keeps {s₀ s : State} (h : Keeps s₀ s) (up : Bool) : Keeps s₀ (State.trimStep s up) := by
  unfold State.trimStep
  try dsimp only [Keeps]
  repeat' first | (with_reducible first | assumption | apply State.fallback_keeps | apply State.wf__keeps | apply State.raise_keeps) | (with_reducible first | apply each_keeps | apply foldl_keeps) | intro _ _ _ | split | (with_reducible first | apply KeepsOf.put rfl | apply KeepsOf.filter) | dsimp only [Keeps]

theorem State.ircStop_keeps {s₀ s : State} (h : Keeps s₀ s) : Keeps s₀ (State.ircStop s) := by
  unfold State.ircStop
  try dsimp only [Keeps]
  repeat' first | (with_reducible first | assumption | apply State.fallback_keeps | apply State.resetBy_keeps | apply State.raise_keeps) | (with_reducible first | apply each_keeps | apply foldl_keeps) | intro _ _ _ | split | (with_reducible first | apply KeepsOf.put rfl | apply KeepsOf.filter) | dsimp only [Keeps]

theorem State.xoStopped_keeps {s₀ s : State} (h : Keeps s₀ s) : Keeps s₀ (State.xoStopped s) := by
  unfold State.xoStopped
  try dsimp only [Keeps]
  repeat' first | (with_reducible first | assumption | apply State.fallback_keeps | apply State.resetBy_keeps) | (with_reducible first | apply each_keeps | apply foldl_keeps) | intro _ _ _ | split | (with_reducible first | apply KeepsOf.put rfl | apply KeepsOf.filter) | dsimp only [Keeps]

theorem State.pllLost_keeps {s₀ s : State} (h : Keeps s₀ s) (backup : Bool) : Keeps s₀ (State.pllLost s backup) := by
  unfold State.pllLost
  try dsimp only [Keeps]
  repeat' first | (with_reducible first | assumption | apply State.fallback_keeps | apply State.resetBy_keeps) | (with_reducible first | apply each_keeps | apply foldl_keeps) | intro _ _ _ | split | (with_reducible first | apply KeepsOf.put rfl | apply KeepsOf.filter) | dsimp only [Keeps]

theorem State.buttonRelease_keeps {s₀ s0 : State} (h : Keeps s₀ s0) (pressMs : Nat) (immediate : Bool) : Keeps s₀ (State.buttonRelease s0 pressMs immediate) := by
  unfold State.buttonRelease
  try dsimp only [Keeps]
  repeat' first | (with_reducible first | assumption | apply State.resetBy_keeps | apply State.raise_keeps) | (with_reducible first | apply each_keeps | apply foldl_keeps) | intro _ _ _ | split | (with_reducible first | apply KeepsOf.put rfl | apply KeepsOf.filter) | dsimp only [Keeps]

theorem State.pinDeferred_keeps {s₀ s : State} (h : Keeps s₀ s) : Keeps s₀ (State.pinDeferred s) := by
  unfold State.pinDeferred
  try dsimp only [Keeps]
  repeat' first | (with_reducible first | assumption | apply State.resetBy_keeps | apply State.spFollow_keeps | apply State.drvOff_keeps | apply State.motTrip_keeps) | (with_reducible first | apply each_keeps | apply foldl_keeps) | intro _ _ _ | split | (with_reducible first | apply KeepsOf.put rfl | apply KeepsOf.filter) | dsimp only [Keeps]

theorem State.parkNow_keeps {s₀ s : State} (h : Keeps s₀ s) : Keeps s₀ (State.parkNow s) := by
  unfold State.parkNow
  try dsimp only [Keeps]
  repeat' first | (with_reducible first | assumption | apply State.bidStop_keeps | apply each_keeps | apply State.doorPowerDown_keeps | apply State.canSleepNow_keeps | apply State.raise_keeps) | (with_reducible first | apply each_keeps | apply foldl_keeps) | intro _ _ _ | split | (with_reducible first | apply KeepsOf.put rfl | apply KeepsOf.filter) | dsimp only [Keeps]

theorem State.parkEnd_keeps {s₀ s : State} (h : Keeps s₀ s) (w : WakeCause) : Keeps s₀ (State.parkEnd s w) := by
  unfold State.parkEnd
  try dsimp only [Keeps]
  repeat' first | (with_reducible first | assumption | apply State.raise_keeps | apply each_keeps | apply State.canWakeNow_keeps | apply State.bidRunSet_keeps) | (with_reducible first | apply each_keeps | apply foldl_keeps) | intro _ _ _ | split | (with_reducible first | apply KeepsOf.put rfl | apply KeepsOf.filter) | dsimp only [Keeps]

theorem State.deepNow_keeps {s₀ s : State} (h : Keeps s₀ s) : Keeps s₀ (State.deepNow s) := by
  unfold State.deepNow
  try dsimp only [Keeps]
  repeat' first | (with_reducible first | assumption | apply State.oosHostNow_keeps | apply State.orderlySave_keeps | apply State.loseAuthority_keeps) | (with_reducible first | apply each_keeps | apply foldl_keeps) | intro _ _ _ | split | (with_reducible first | apply KeepsOf.put rfl | apply KeepsOf.filter) | dsimp only [Keeps]

theorem State.deepEnd_keeps {s₀ s : State} (h : Keeps s₀ s) (w : WakeCause) : Keeps s₀ (State.deepEnd s w) := by
  unfold State.deepEnd
  try dsimp only [Keeps]
  repeat' first | (with_reducible first | assumption | apply State.resetWith_keeps) | (with_reducible first | apply each_keeps | apply foldl_keeps) | intro _ _ _ | split | (with_reducible first | apply KeepsOf.put rfl | apply KeepsOf.filter) | dsimp only [Keeps]

theorem State.warnNow_keeps {s₀ s : State} (h : Keeps s₀ s) (mv : Nat) : Keeps s₀ (State.warnNow s mv) := by
  unfold State.warnNow
  try dsimp only [Keeps]
  repeat' first | (with_reducible first | assumption | apply State.raise_keeps | apply each_keeps | apply State.bump_keeps | apply State.doorRetain_keeps | apply State.keyAbandon_keeps | apply State.stage_keeps) | (with_reducible first | apply each_keeps | apply foldl_keeps) | intro _ _ _ | split | (with_reducible first | apply KeepsOf.put rfl | apply KeepsOf.filter) | dsimp only [Keeps]

theorem State.powerWarn_keeps {s₀ s : State} (h : Keeps s₀ s) (mv : Nat) : Keeps s₀ (State.powerWarn s mv) := by
  unfold State.powerWarn
  try dsimp only [Keeps]
  repeat' first | (with_reducible first | assumption | apply State.warnNow_keeps) | (with_reducible first | apply each_keeps | apply foldl_keeps) | intro _ _ _ | split | (with_reducible first | apply KeepsOf.put rfl | apply KeepsOf.filter) | dsimp only [Keeps]

theorem State.powerBack_keeps {s₀ s : State} (h : Keeps s₀ s) (mv : Nat) : Keeps s₀ (State.powerBack s mv) := by
  unfold State.powerBack
  try dsimp only [Keeps]
  repeat' first | (with_reducible first | assumption | apply State.bump_keeps) | (with_reducible first | apply each_keeps | apply foldl_keeps) | intro _ _ _ | split | (with_reducible first | apply KeepsOf.put rfl | apply KeepsOf.filter) | dsimp only [Keeps]

theorem State.brownOut_keeps {s₀ s : State} (h : Keeps s₀ s) : Keeps s₀ (State.brownOut s) := by
  unfold State.brownOut
  try dsimp only [Keeps]
  repeat' first | (with_reducible first | assumption | apply State.resetBy_keeps) | (with_reducible first | apply each_keeps | apply foldl_keeps) | intro _ _ _ | split | (with_reducible first | apply KeepsOf.put rfl | apply KeepsOf.filter) | dsimp only [Keeps]

theorem State.borStart_keeps {s₀ s : State} (h : Keeps s₀ s) : Keeps s₀ (State.borStart s) := by
  unfold State.borStart
  try dsimp only [Keeps]
  repeat' first | (with_reducible first | assumption ) | (with_reducible first | apply each_keeps | apply foldl_keeps) | intro _ _ _ | split | (with_reducible first | apply KeepsOf.put rfl | apply KeepsOf.filter) | dsimp only [Keeps]

theorem State.aonLost_keeps {s₀ s : State} (h : Keeps s₀ s) : Keeps s₀ (State.aonLost s) := by
  unfold State.aonLost
  try dsimp only [Keeps]
  repeat' first | (with_reducible first | assumption | apply State.keepWords_keeps) | (with_reducible first | apply each_keeps | apply foldl_keeps) | intro _ _ _ | split | (with_reducible first | apply KeepsOf.put rfl | apply KeepsOf.filter) | dsimp only [Keeps]

end Sys2Proof.Machine
end

