-- ==== Sys2Proof/Laws/KeepsPartOps.lean ====
section
/-! SUPPORT. The operations of Machine/PartOps.lean keep the store canonical and the queue as it is. -/

set_option linter.unusedTactic false
set_option linter.unreachableTactic false

namespace Sys2Proof.Machine

theorem State.show_keeps {s₀ s : State} (h : Keeps s₀ s) (p : Present) : Keeps s₀ (State.show s p) := by
  unfold State.show
  try dsimp only [Keeps]
  repeat' first | (with_reducible first | assumption ) | (with_reducible first | apply each_keeps | apply foldl_keeps) | intro _ _ _ | split | (with_reducible first | apply KeepsOf.put rfl | apply KeepsOf.filter) | dsimp only [Keeps]

theorem State.standbyNow_keeps {s₀ s : State} (h : Keeps s₀ s) : Keeps s₀ (State.standbyNow s) := by
  unfold State.standbyNow
  try dsimp only [Keeps]
  repeat' first | (with_reducible first | assumption | apply State.show_keeps | apply State.setRole_keeps) | (with_reducible first | apply each_keeps | apply foldl_keeps) | intro _ _ _ | split | (with_reducible first | apply KeepsOf.put rfl | apply KeepsOf.filter) | dsimp only [Keeps]

theorem State.isolateNow_keeps {s₀ s : State} (h : Keeps s₀ s) (echo : Bool) : Keeps s₀ (State.isolateNow s echo) := by
  unfold State.isolateNow
  try dsimp only [Keeps]
  repeat' first | (with_reducible first | assumption | apply State.show_keeps | apply State.setRole_keeps) | (with_reducible first | apply each_keeps | apply foldl_keeps) | intro _ _ _ | split | (with_reducible first | apply KeepsOf.put rfl | apply KeepsOf.filter) | dsimp only [Keeps]

theorem State.hwLose_keeps {s₀ s : State} (h : Keeps s₀ s) : Keeps s₀ (State.hwLose s) := by
  unfold State.hwLose
  try dsimp only [Keeps]
  repeat' first | (with_reducible first | assumption | apply State.trip_keeps | apply State.loseAuthority_keeps | apply State.show_keeps) | (with_reducible first | apply each_keeps | apply foldl_keeps) | intro _ _ _ | split | (with_reducible first | apply KeepsOf.put rfl | apply KeepsOf.filter) | dsimp only [Keeps]

theorem State.collided_keeps {s₀ s : State} (h : Keeps s₀ s) : Keeps s₀ (State.collided s) := by
  unfold State.collided
  try dsimp only [Keeps]
  repeat' first | (with_reducible first | assumption | apply State.bump_keeps | apply State.raise_keeps) | (with_reducible first | apply each_keeps | apply foldl_keeps) | intro _ _ _ | split | (with_reducible first | apply KeepsOf.put rfl | apply KeepsOf.filter) | dsimp only [Keeps]

theorem State.bandClears_keeps {s₀ s : State} (h : Keeps s₀ s) (b : Band) : Keeps s₀ (State.bandClears s b) := by
  unfold State.bandClears
  try dsimp only [Keeps]
  repeat' first | (with_reducible first | assumption | apply State.show_keeps | apply State.loseAuthority_keeps | apply State.hwLose_keeps | apply State.collided_keeps | apply State.isolateNow_keeps | apply State.standbyNow_keeps) | (with_reducible first | apply each_keeps | apply foldl_keeps) | intro _ _ _ | split | (with_reducible first | apply KeepsOf.put rfl | apply KeepsOf.filter) | dsimp only [Keeps]

theorem State.bandIsolated_keeps {s₀ s : State} (h : Keeps s₀ s) (b : Band) : Keeps s₀ (State.bandIsolated s b) := by
  unfold State.bandIsolated
  try dsimp only [Keeps]
  repeat' first | (with_reducible first | assumption | apply State.show_keeps) | (with_reducible first | apply each_keeps | apply foldl_keeps) | intro _ _ _ | split | (with_reducible first | apply KeepsOf.put rfl | apply KeepsOf.filter) | dsimp only [Keeps]

theorem State.bandD_keeps {s₀ s : State} (h : Keeps s₀ s) (b : Band) : Keeps s₀ (State.bandD s b) := by
  unfold State.bandD
  try dsimp only [Keeps]
  repeat' first | (with_reducible first | assumption | apply State.bandClears_keeps | apply State.setRole_keeps | apply State.isolateNow_keeps | apply State.bandIsolated_keeps) | (with_reducible first | apply each_keeps | apply foldl_keeps) | intro _ _ _ | split | (with_reducible first | apply KeepsOf.put rfl | apply KeepsOf.filter) | dsimp only [Keeps]

theorem State.bandS_keeps {s₀ s : State} (h : Keeps s₀ s) (b : Band) : Keeps s₀ (State.bandS s b) := by
  unfold State.bandS
  try dsimp only [Keeps]
  repeat' first | (with_reducible first | assumption | apply State.show_keeps | apply State.loseAuthority_keeps | apply State.collided_keeps | apply State.hwLose_keeps | apply State.isolateNow_keeps | apply State.bandIsolated_keeps) | (with_reducible first | apply each_keeps | apply foldl_keeps) | intro _ _ _ | split | (with_reducible first | apply KeepsOf.put rfl | apply KeepsOf.filter) | dsimp only [Keeps]

theorem State.bandRaw_keeps {s₀ s : State} (h : Keeps s₀ s) (ua : Nat) : Keeps s₀ (State.bandRaw s ua) := by
  unfold State.bandRaw
  try dsimp only [Keeps]
  repeat' first | (with_reducible first | assumption | apply State.show_keeps | apply State.loseAuthority_keeps | apply State.collided_keeps | apply State.hwLose_keeps | apply State.isolateNow_keeps) | (with_reducible first | apply each_keeps | apply foldl_keeps) | intro _ _ _ | split | (with_reducible first | apply KeepsOf.put rfl | apply KeepsOf.filter) | dsimp only [Keeps]

theorem State.bandInto_keeps {s₀ s : State} (h : Keeps s₀ s) (ua : Nat) (heldUs : Nat) : Keeps s₀ (State.bandInto s ua heldUs) := by
  unfold State.bandInto
  try dsimp only [Keeps]
  repeat' first | (with_reducible first | assumption | apply State.bandRaw_keeps | apply State.raise_keeps | apply State.bandD_keeps | apply State.bandS_keeps | apply State.parkEnd_keeps) | (with_reducible first | apply each_keeps | apply foldl_keeps) | intro _ _ _ | split | (with_reducible first | apply KeepsOf.put rfl | apply KeepsOf.filter) | dsimp only [Keeps]

theorem State.presentNow_keeps {s₀ s : State} (h : Keeps s₀ s) : Keeps s₀ (State.presentNow s) := by
  unfold State.presentNow
  try dsimp only [Keeps]
  repeat' first | (with_reducible first | assumption | apply State.standbyNow_keeps | apply State.isolateNow_keeps) | (with_reducible first | apply each_keeps | apply foldl_keeps) | intro _ _ _ | split | (with_reducible first | apply KeepsOf.put rfl | apply KeepsOf.filter) | dsimp only [Keeps]

theorem State.presentLost_keeps {s₀ s : State} (h : Keeps s₀ s) : Keeps s₀ (State.presentLost s) := by
  unfold State.presentLost
  try dsimp only [Keeps]
  repeat' first | (with_reducible first | assumption | apply State.show_keeps | apply State.loseAuthority_keeps | apply State.setRole_keeps | apply State.warnNow_keeps) | (with_reducible first | apply each_keeps | apply foldl_keeps) | intro _ _ _ | split | (with_reducible first | apply KeepsOf.put rfl | apply KeepsOf.filter) | dsimp only [Keeps]

theorem State.claimNow_keeps {s₀ s : State} (h : Keeps s₀ s) : Keeps s₀ (State.claimNow s) := by
  unfold State.claimNow
  try dsimp only [Keeps]
  repeat' first | (with_reducible first | assumption | apply State.show_keeps) | (with_reducible first | apply each_keeps | apply foldl_keeps) | intro _ _ _ | split | (with_reducible first | apply KeepsOf.put rfl | apply KeepsOf.filter) | dsimp only [Keeps]

theorem State.takeMot_keeps {s₀ s : State} (h : Keeps s₀ s) : Keeps s₀ (State.takeMot s) := by
  unfold State.takeMot
  try dsimp only [Keeps]
  repeat' first | (with_reducible first | assumption | apply State.motIdleNow_keeps | apply State.spFollow_keeps | apply State.motLanded_keeps | apply State.raise_keeps | apply State.wn_keeps) | (with_reducible first | apply each_keeps | apply foldl_keeps) | intro _ _ _ | split | (with_reducible first | apply KeepsOf.put rfl | apply KeepsOf.filter) | dsimp only [Keeps]

theorem State.takeDoor_keeps {s₀ s : State} (h : Keeps s₀ s) (c : Chan) : Keeps s₀ (State.takeDoor s c) := by
  unfold State.takeDoor
  try dsimp only [Keeps]
  repeat' first | (with_reducible first | assumption | apply State.setDoor_keeps | apply State.doorInto_keeps | apply State.doorLosePos_keeps) | (with_reducible first | apply each_keeps | apply foldl_keeps) | intro _ _ _ | split | (with_reducible first | apply KeepsOf.put rfl | apply KeepsOf.filter) | dsimp only [Keeps]

theorem State.takeUp_keeps {s₀ s : State} (h : Keeps s₀ s) : Keeps s₀ (State.takeUp s) := by
  unfold State.takeUp
  try dsimp only [Keeps]
  repeat' first | (with_reducible first | assumption | apply State.takeMot_keeps | apply State.drvOff_keeps | apply each_keeps | apply State.gainOutputs_keeps | apply State.takeDoor_keeps | apply State.schReached_keeps | apply State.bidJoin_keeps) | (with_reducible first | apply each_keeps | apply foldl_keeps) | intro _ _ _ | split | (with_reducible first | apply KeepsOf.put rfl | apply KeepsOf.filter) | dsimp only [Keeps]

theorem State.claimDone_keeps {s₀ s : State} (h : Keeps s₀ s) : Keeps s₀ (State.claimDone s) := by
  unfold State.claimDone
  try dsimp only [Keeps]
  repeat' first | (with_reducible first | assumption | apply State.setRole_keeps | apply State.bump_keeps | apply State.takeUp_keeps) | (with_reducible first | apply each_keeps | apply foldl_keeps) | intro _ _ _ | split | (with_reducible first | apply KeepsOf.put rfl | apply KeepsOf.filter) | dsimp only [Keeps]

theorem State.isolatedEnd_keeps {s₀ s : State} (h : Keeps s₀ s) : Keeps s₀ (State.isolatedEnd s) := by
  unfold State.isolatedEnd
  try dsimp only [Keeps]
  repeat' first | (with_reducible first | assumption | apply State.standbyNow_keeps) | (with_reducible first | apply each_keeps | apply foldl_keeps) | intro _ _ _ | split | (with_reducible first | apply KeepsOf.put rfl | apply KeepsOf.filter) | dsimp only [Keeps]

theorem State.echoOpen_keeps {s₀ s : State} (h : Keeps s₀ s) : Keeps s₀ (State.echoOpen s) := by
  unfold State.echoOpen
  try dsimp only [Keeps]
  repeat' first | (with_reducible first | assumption ) | (with_reducible first | apply each_keeps | apply foldl_keeps) | intro _ _ _ | split | (with_reducible first | apply KeepsOf.put rfl | apply KeepsOf.filter) | dsimp only [Keeps]

theorem State.echoClose_keeps {s₀ s : State} (h : Keeps s₀ s) : Keeps s₀ (State.echoClose s) := by
  unfold State.echoClose
  try dsimp only [Keeps]
  repeat' first | (with_reducible first | assumption | apply State.show_keeps) | (with_reducible first | apply each_keeps | apply foldl_keeps) | intro _ _ _ | split | (with_reducible first | apply KeepsOf.put rfl | apply KeepsOf.filter) | dsimp only [Keeps]

theorem State.echoEnd_keeps {s₀ s : State} (h : Keeps s₀ s) : Keeps s₀ (State.echoEnd s) := by
  unfold State.echoEnd
  try dsimp only [Keeps]
  repeat' first | (with_reducible first | assumption | apply State.show_keeps) | (with_reducible first | apply each_keeps | apply foldl_keeps) | intro _ _ _ | split | (with_reducible first | apply KeepsOf.put rfl | apply KeepsOf.filter) | dsimp only [Keeps]

theorem State.setSync_keeps {s₀ s : State} (h : Keeps s₀ s) (y : Sync) : Keeps s₀ (State.setSync s y) := by
  unfold State.setSync
  try dsimp only [Keeps]
  repeat' first | (with_reducible first | assumption | apply State.raise_keeps) | (with_reducible first | apply each_keeps | apply foldl_keeps) | intro _ _ _ | split | (with_reducible first | apply KeepsOf.put rfl | apply KeepsOf.filter) | dsimp only [Keeps]

theorem State.resyncNow_keeps {s₀ s : State} (h : Keeps s₀ s) : Keeps s₀ (State.resyncNow s) := by
  unfold State.resyncNow
  try dsimp only [Keeps]
  repeat' first | (with_reducible first | assumption ) | (with_reducible first | apply each_keeps | apply foldl_keeps) | intro _ _ _ | split | (with_reducible first | apply KeepsOf.put rfl | apply KeepsOf.filter) | dsimp only [Keeps]

theorem State.takeCalls_keeps {s₀ s : State} (h : Keeps s₀ s) (c : MirrorCalls) : Keeps s₀ (State.takeCalls s c) := by
  unfold State.takeCalls
  try dsimp only [Keeps]
  repeat' first | (with_reducible first | assumption ) | (with_reducible first | apply each_keeps | apply foldl_keeps) | intro _ _ _ | split | (with_reducible first | apply KeepsOf.put rfl | apply KeepsOf.filter) | dsimp only [Keeps]

theorem State.mirrorDoor_keeps {s₀ s : State} (h : Keeps s₀ s) (c : Chan) (m : MirrorDoor) : Keeps s₀ (State.mirrorDoor s c m) := by
  unfold State.mirrorDoor
  try dsimp only [Keeps]
  repeat' first | (with_reducible first | assumption | apply State.wn_keeps | apply State.wi_keeps | apply State.setDoor_keeps) | (with_reducible first | apply each_keeps | apply foldl_keeps) | intro _ _ _ | split | (with_reducible first | apply KeepsOf.put rfl | apply KeepsOf.filter) | dsimp only [Keeps]

theorem State.takeDoors_keeps {s₀ s : State} (h : Keeps s₀ s) (ds : MirrorDoor × MirrorDoor) : Keeps s₀ (State.takeDoors s ds) := by
  unfold State.takeDoors
  try dsimp only [Keeps]
  repeat' first | (with_reducible first | assumption | apply State.mirrorDoor_keeps) | (with_reducible first | apply each_keeps | apply foldl_keeps) | intro _ _ _ | split | (with_reducible first | apply KeepsOf.put rfl | apply KeepsOf.filter) | dsimp only [Keeps]

theorem State.takePosn_keeps {s₀ s : State} (h : Keeps s₀ s) (m : MirrorPosn) : Keeps s₀ (State.takePosn s m) := by
  unfold State.takePosn
  try dsimp only [Keeps]
  repeat' first | (with_reducible first | assumption | apply State.setAbs_keeps | apply State.rebase_keeps) | (with_reducible first | apply each_keeps | apply foldl_keeps) | intro _ _ _ | split | (with_reducible first | apply KeepsOf.put rfl | apply KeepsOf.filter) | dsimp only [Keeps]

theorem State.takeConfig_keeps {s₀ s : State} (h : Keeps s₀ s) (c : List Byte × BitVec 2) : Keeps s₀ (State.takeConfig s c) := by
  unfold State.takeConfig
  try dsimp only [Keeps]
  repeat' first | (with_reducible first | assumption ) | (with_reducible first | apply each_keeps | apply foldl_keeps) | intro _ _ _ | split | (with_reducible first | apply KeepsOf.put rfl | apply KeepsOf.filter) | dsimp only [Keeps]

theorem State.takeCounters_keeps {s₀ s : State} (h : Keeps s₀ s) (c : Nat × Nat × Nat) : Keeps s₀ (State.takeCounters s c) := by
  unfold State.takeCounters
  try dsimp only [Keeps]
  repeat' first | (with_reducible first | assumption ) | (with_reducible first | apply each_keeps | apply foldl_keeps) | intro _ _ _ | split | (with_reducible first | apply KeepsOf.put rfl | apply KeepsOf.filter) | dsimp only [Keeps]

theorem State.takeMirror_keeps {s₀ s : State} (h : Keeps s₀ s) (m : Mirror) : Keeps s₀ (State.takeMirror s m) := by
  unfold State.takeMirror
  try dsimp only [Keeps]
  repeat' first | (with_reducible first | assumption | apply State.takeCalls_keeps | apply State.takeDoors_keeps) | (with_reducible first | apply each_keeps | apply foldl_keeps) | intro _ _ _ | split | (with_reducible first | apply KeepsOf.put rfl | apply KeepsOf.filter) | dsimp only [Keeps]

theorem State.epochApply_keeps {s₀ s : State} (h : Keeps s₀ s) : Keeps s₀ (State.epochApply s) := by
  unfold State.epochApply
  try dsimp only [Keeps]
  repeat' first | (with_reducible first | assumption | apply State.takePosn_keeps | apply State.takeCounters_keeps | apply State.takeConfig_keeps | apply State.takeMirror_keeps | apply State.setSync_keeps) | (with_reducible first | apply each_keeps | apply foldl_keeps) | intro _ _ _ | split | (with_reducible first | apply KeepsOf.put rfl | apply KeepsOf.filter) | dsimp only [Keeps]

theorem State.epochDiscard_keeps {s₀ s : State} (h : Keeps s₀ s) : Keeps s₀ (State.epochDiscard s) := by
  unfold State.epochDiscard
  try dsimp only [Keeps]
  repeat' first | (with_reducible first | assumption | apply State.bump_keeps | apply State.raise_keeps | apply State.setSync_keeps | apply State.resyncNow_keeps) | (with_reducible first | apply each_keeps | apply foldl_keeps) | intro _ _ _ | split | (with_reducible first | apply KeepsOf.put rfl | apply KeepsOf.filter) | dsimp only [Keeps]

theorem State.epochRx_keeps {s₀ s0 : State} (h : Keeps s₀ s0) (e : Epoch) : Keeps s₀ (State.epochRx s0 e) := by
  unfold State.epochRx
  try dsimp only [Keeps]
  repeat' first | (with_reducible first | assumption | apply State.takeConfig_keeps | apply State.epochApply_keeps | apply State.epochDiscard_keeps) | (with_reducible first | apply each_keeps | apply foldl_keeps) | intro _ _ _ | split | (with_reducible first | apply KeepsOf.put rfl | apply KeepsOf.filter) | dsimp only [Keeps]

theorem State.epochAged_keeps {s₀ s : State} (h : Keeps s₀ s) : Keeps s₀ (State.epochAged s) := by
  unfold State.epochAged
  try dsimp only [Keeps]
  repeat' first | (with_reducible first | assumption | apply State.setSync_keeps) | (with_reducible first | apply each_keeps | apply foldl_keeps) | intro _ _ _ | split | (with_reducible first | apply KeepsOf.put rfl | apply KeepsOf.filter) | dsimp only [Keeps]

theorem State.linkLost_keeps {s₀ s : State} (h : Keeps s₀ s) : Keeps s₀ (State.linkLost s) := by
  unfold State.linkLost
  try dsimp only [Keeps]
  repeat' first | (with_reducible first | assumption | apply State.setSync_keeps) | (with_reducible first | apply each_keeps | apply foldl_keeps) | intro _ _ _ | split | (with_reducible first | apply KeepsOf.put rfl | apply KeepsOf.filter) | dsimp only [Keeps]

theorem State.linkBack_keeps {s₀ s : State} (h : Keeps s₀ s) : Keeps s₀ (State.linkBack s) := by
  unfold State.linkBack
  try dsimp only [Keeps]
  repeat' first | (with_reducible first | assumption | apply State.resyncNow_keeps) | (with_reducible first | apply each_keeps | apply foldl_keeps) | intro _ _ _ | split | (with_reducible first | apply KeepsOf.put rfl | apply KeepsOf.filter) | dsimp only [Keeps]

theorem State.resyncDone_keeps {s₀ s : State} (h : Keeps s₀ s) : Keeps s₀ (State.resyncDone s) := by
  unfold State.resyncDone
  try dsimp only [Keeps]
  repeat' first | (with_reducible first | assumption | apply State.takeMirror_keeps | apply State.setSync_keeps) | (with_reducible first | apply each_keeps | apply foldl_keeps) | intro _ _ _ | split | (with_reducible first | apply KeepsOf.put rfl | apply KeepsOf.filter) | dsimp only [Keeps]

theorem State.mirrorSend_keeps {s₀ s : State} (h : Keeps s₀ s) : Keeps s₀ (State.mirrorSend s) := by
  unfold State.mirrorSend
  try dsimp only [Keeps]
  repeat' first | (with_reducible first | assumption ) | (with_reducible first | apply each_keeps | apply foldl_keeps) | intro _ _ _ | split | (with_reducible first | apply KeepsOf.put rfl | apply KeepsOf.filter) | dsimp only [Keeps]

theorem State.xchNow_keeps {s₀ s : State} (h : Keeps s₀ s) : Keeps s₀ (State.xchNow s) := by
  unfold State.xchNow
  try dsimp only [Keeps]
  repeat' first | (with_reducible first | assumption | apply State.mirrorSend_keeps | apply State.loseAuthority_keeps | apply State.standbyNow_keeps) | (with_reducible first | apply each_keeps | apply foldl_keeps) | intro _ _ _ | split | (with_reducible first | apply KeepsOf.put rfl | apply KeepsOf.filter) | dsimp only [Keeps]

theorem State.xchHoldEnd_keeps {s₀ s : State} (h : Keeps s₀ s) : Keeps s₀ (State.xchHoldEnd s) := by
  unfold State.xchHoldEnd
  try dsimp only [Keeps]
  repeat' first | (with_reducible first | assumption | apply State.raise_keeps | apply State.fire_keeps) | (with_reducible first | apply each_keeps | apply foldl_keeps) | intro _ _ _ | split | (with_reducible first | apply KeepsOf.put rfl | apply KeepsOf.filter) | dsimp only [Keeps]

theorem State.xchWatch_keeps {s₀ s : State} (h : Keeps s₀ s) : Keeps s₀ (State.xchWatch s) := by
  unfold State.xchWatch
  try dsimp only [Keeps]
  repeat' first | (with_reducible first | assumption | apply State.bump_keeps | apply State.raise_keeps) | (with_reducible first | apply each_keeps | apply foldl_keeps) | intro _ _ _ | split | (with_reducible first | apply KeepsOf.put rfl | apply KeepsOf.filter) | dsimp only [Keeps]

theorem State.claimWatch_keeps {s₀ s : State} (h : Keeps s₀ s) : Keeps s₀ (State.claimWatch s) := by
  unfold State.claimWatch
  try dsimp only [Keeps]
  repeat' first | (with_reducible first | assumption | apply State.raise_keeps) | (with_reducible first | apply each_keeps | apply foldl_keeps) | intro _ _ _ | split | (with_reducible first | apply KeepsOf.put rfl | apply KeepsOf.filter) | dsimp only [Keeps]

theorem State.handOverWatch_keeps {s₀ s : State} (h : Keeps s₀ s) : Keeps s₀ (State.handOverWatch s) := by
  unfold State.handOverWatch
  try dsimp only [Keeps]
  repeat' first | (with_reducible first | assumption | apply State.handover_keeps) | (with_reducible first | apply each_keeps | apply foldl_keeps) | intro _ _ _ | split | (with_reducible first | apply KeepsOf.put rfl | apply KeepsOf.filter) | dsimp only [Keeps]

theorem State.bidYieldRole_keeps {s₀ s : State} (h : Keeps s₀ s) : Keeps s₀ (State.bidYieldRole s) := by
  unfold State.bidYieldRole
  try dsimp only [Keeps]
  repeat' first | (with_reducible first | assumption | apply State.bidListen_keeps | apply State.bidSilent_keeps) | (with_reducible first | apply each_keeps | apply foldl_keeps) | intro _ _ _ | split | (with_reducible first | apply KeepsOf.put rfl | apply KeepsOf.filter) | dsimp only [Keeps]

theorem State.partTick_keeps {s₀ s : State} (h : Keeps s₀ s) : Keeps s₀ (State.partTick s) := by
  unfold State.partTick
  try dsimp only [Keeps]
  repeat' first | (with_reducible first | assumption | apply State.echoClose_keeps | apply State.xchWatch_keeps | apply State.bidYieldRole_keeps | apply State.handOverWatch_keeps | apply State.claimWatch_keeps | apply State.mirrorSend_keeps) | (with_reducible first | apply each_keeps | apply foldl_keeps) | intro _ _ _ | split | (with_reducible first | apply KeepsOf.put rfl | apply KeepsOf.filter) | dsimp only [Keeps]

end Sys2Proof.Machine
end

