-- ==== Sys2Proof/Laws/KeepsJudge.lean ====
section
/-! SUPPORT. The operations of Machine/Judge.lean keep the store canonical and the queue as it is. -/

set_option linter.unusedTactic false
set_option linter.unreachableTactic false

namespace Sys2Proof.Machine

theorem State.reject_keeps {s₀ s : State} (h : Keeps s₀ s) (src : Src) (a : Nat) (code : Nat) : Keeps s₀ (State.reject s src a code) := by
  unfold State.reject
  try dsimp only [Keeps]
  repeat' first | (with_reducible first | assumption | apply State.errNote_keeps) | (with_reducible first | apply each_keeps | apply foldl_keeps) | intro _ _ _ | split | (with_reducible first | apply KeepsOf.put rfl | apply KeepsOf.filter) | dsimp only [Keeps]

end Sys2Proof.Machine
end

