-- ==== Sys2Proof/Laws/KeepsProfOps.lean ====
section
/-! SUPPORT. The operations of Machine/ProfOps.lean keep the store canonical and the queue as it is. -/

set_option linter.unusedTactic false
set_option linter.unreachableTactic false

namespace Sys2Proof.Machine

theorem State.profStoreNow_keeps {s₀ s : State} (h : Keeps s₀ s) (slot : Nat) : Keeps s₀ (State.profStoreNow s slot) := by
  unfold State.profStoreNow
  try dsimp only [Keeps]
  repeat' first | (with_reducible first | assumption | apply State.wr_keeps) | (with_reducible first | apply each_keeps | apply foldl_keeps) | intro _ _ _ | split | (with_reducible first | apply KeepsOf.put rfl | apply KeepsOf.filter) | dsimp only [Keeps]

theorem State.profStoreEnd_keeps {s₀ s : State} (h : Keeps s₀ s) (writeOk : Bool) : Keeps s₀ (State.profStoreEnd s writeOk) := by
  unfold State.profStoreEnd
  try dsimp only [Keeps]
  repeat' first | (with_reducible first | assumption | apply State.wr_keeps | apply State.raise_keeps) | (with_reducible first | apply each_keeps | apply foldl_keeps) | intro _ _ _ | split | (with_reducible first | apply KeepsOf.put rfl | apply KeepsOf.filter) | dsimp only [Keeps]

end Sys2Proof.Machine
end

