-- ==== Sys2Proof/Laws/KeepsApply.lean ====
section
/-! SUPPORT. The operations of Machine/Apply.lean keep the store canonical and the queue as it is. -/

set_option linter.unusedTactic false
set_option linter.unreachableTactic false

namespace Sys2Proof.Machine

theorem State.storeReg_keeps {s₀ s : State} (h : Keeps s₀ s) (a : Nat) (r : RegSpec) (val : Word) : Keeps s₀ (State.storeReg s a r val) := by
  unfold State.storeReg
  try dsimp only [Keeps]
  repeat' first | (with_reducible first | assumption | apply State.wr_keeps) | (with_reducible first | apply each_keeps | apply foldl_keeps) | intro _ _ _ | split | (with_reducible first | apply KeepsOf.put rfl | apply KeepsOf.filter) | dsimp only [Keeps]

theorem State.irqClear_keeps {s₀ s : State} (h : Keeps s₀ s) (pg : Nat) (val : Word) : Keeps s₀ (State.irqClear s pg val) := by
  unfold State.irqClear
  try dsimp only [Keeps]
  repeat' first | (with_reducible first | assumption | apply State.wr_keeps) | (with_reducible first | apply each_keeps | apply foldl_keeps) | intro _ _ _ | split | (with_reducible first | apply KeepsOf.put rfl | apply KeepsOf.filter) | dsimp only [Keeps]

theorem State.lockWrite_keeps {s₀ s : State} (h : Keeps s₀ s) (pg : Nat) (val : Word) : Keeps s₀ (State.lockWrite s pg val) := by
  unfold State.lockWrite
  try dsimp only [Keeps]
  repeat' first | (with_reducible first | assumption | apply State.wn_keeps) | (with_reducible first | apply each_keeps | apply foldl_keeps) | intro _ _ _ | split | (with_reducible first | apply KeepsOf.put rfl | apply KeepsOf.filter) | dsimp only [Keeps]

theorem State.applyHead_keeps {s₀ s : State} (h : Keeps s₀ s) (pg o : Nat) (val : Word) {t : State}
    (e : State.applyHead s pg o val = some t) : Keeps s₀ t := by
  unfold State.applyHead at e
  split at e
  · cases e; exact State.wr_keeps h _ _
  · cases e; exact State.wr_keeps h _ _
  · cases e; exact State.irqClear_keeps h _ _
  · cases e; exact State.lockWrite_keeps h _ _
  · cases e

theorem State.biasCalStart_keeps {s₀ s : State} (h : Keeps s₀ s) : Keeps s₀ (State.biasCalStart s) := by
  unfold State.biasCalStart
  try dsimp only [Keeps]
  repeat' first | (with_reducible first | assumption ) | (with_reducible first | apply each_keeps | apply foldl_keeps) | intro _ _ _ | split | (with_reducible first | apply KeepsOf.put rfl | apply KeepsOf.filter) | dsimp only [Keeps]

theorem State.clrTract_keeps {s₀ s : State} (h : Keeps s₀ s) : Keeps s₀ (State.clrTract s) := by
  unfold State.clrTract
  try dsimp only [Keeps]
  repeat' first | (with_reducible first | assumption ) | (with_reducible first | apply each_keeps | apply foldl_keeps) | intro _ _ _ | split | (with_reducible first | apply KeepsOf.put rfl | apply KeepsOf.filter) | dsimp only [Keeps]

theorem State.kappaReset_keeps {s₀ s : State} (h : Keeps s₀ s) : Keeps s₀ (State.kappaReset s) := by
  unfold State.kappaReset
  try dsimp only [Keeps]
  repeat' first | (with_reducible first | assumption ) | (with_reducible first | apply each_keeps | apply foldl_keeps) | intro _ _ _ | split | (with_reducible first | apply KeepsOf.put rfl | apply KeepsOf.filter) | dsimp only [Keeps]

theorem State.applyPos_keeps {s₀ s : State} (h : Keeps s₀ s) (o : Nat) (r : RegSpec) (val : Word) : Keeps s₀ (State.applyPos s o r val) := by
  unfold State.applyPos
  try dsimp only [Keeps]
  repeat' first | (with_reducible first | assumption | apply State.storeReg_keeps | apply State.posStop_keeps | apply State.posObserve_keeps | apply State.biasCalStart_keeps | apply State.srReacq_keeps | apply State.clrTract_keeps | apply State.kappaReset_keeps) | (with_reducible first | apply each_keeps | apply foldl_keeps) | intro _ _ _ | split | (with_reducible first | apply KeepsOf.put rfl | apply KeepsOf.filter) | dsimp only [Keeps]

theorem State.lwbCalStart_keeps {s₀ s : State} (h : Keeps s₀ s) (span : Bool) : Keeps s₀ (State.lwbCalStart s span) := by
  unfold State.lwbCalStart
  try dsimp only [Keeps]
  repeat' first | (with_reducible first | assumption ) | (with_reducible first | apply each_keeps | apply foldl_keeps) | intro _ _ _ | split | (with_reducible first | apply KeepsOf.put rfl | apply KeepsOf.filter) | dsimp only [Keeps]

theorem State.applyLwb_keeps {s₀ s : State} (h : Keeps s₀ s) (o : Nat) (r : RegSpec) (val : Word) : Keeps s₀ (State.applyLwb s o r val) := by
  unfold State.applyLwb
  try dsimp only [Keeps]
  repeat' first | (with_reducible first | assumption | apply State.storeReg_keeps | apply State.lwbEnable_keeps | apply State.lwbCalStart_keeps) | (with_reducible first | apply each_keeps | apply foldl_keeps) | intro _ _ _ | split | (with_reducible first | apply KeepsOf.put rfl | apply KeepsOf.filter) | dsimp only [Keeps]

theorem State.motCmd_keeps {s₀ s : State} (h : Keeps s₀ s) (val : Word) : Keeps s₀ (State.motCmd s val) := by
  unfold State.motCmd
  try dsimp only [Keeps]
  repeat' first | (with_reducible first | assumption | apply State.motStartNow_keeps | apply State.applyNow_keeps | apply State.schReached_keeps | apply State.resumeNow_keeps) | (with_reducible first | apply each_keeps | apply foldl_keeps) | intro _ _ _ | split | (with_reducible first | apply KeepsOf.put rfl | apply KeepsOf.filter) | dsimp only [Keeps]

theorem State.rtCmd_keeps {s₀ s : State} (h : Keeps s₀ s) (val : Word) : Keeps s₀ (State.rtCmd s val) := by
  unfold State.rtCmd
  try dsimp only [Keeps]
  repeat' first | (with_reducible first | assumption | apply State.homeStart_keeps | apply State.recoverStart_keeps | apply State.relevStart_keeps | apply State.schRelevFail_keeps | apply State.abandonNow_keeps) | (with_reducible first | apply each_keeps | apply foldl_keeps) | intro _ _ _ | split | (with_reducible first | apply KeepsOf.put rfl | apply KeepsOf.filter) | dsimp only [Keeps]

theorem State.applyMot_keeps {s₀ s : State} (h : Keeps s₀ s) (o : Nat) (r : RegSpec) (val : Word) : Keeps s₀ (State.applyMot s o r val) := by
  unfold State.applyMot
  try dsimp only [Keeps]
  repeat' first | (with_reducible first | assumption | apply State.hostCommit_keeps | apply State.motCmd_keeps | apply State.rtCmd_keeps | apply State.storeReg_keeps) | (with_reducible first | apply each_keeps | apply foldl_keeps) | intro _ _ _ | split | (with_reducible first | apply KeepsOf.put rfl | apply KeepsOf.filter) | dsimp only [Keeps]

theorem State.drvCntClr_keeps {s₀ s : State} (h : Keeps s₀ s) : Keeps s₀ (State.drvCntClr s) := by
  unfold State.drvCntClr
  try dsimp only [Keeps]
  repeat' first | (with_reducible first | assumption | apply State.wr_keeps) | (with_reducible first | apply each_keeps | apply foldl_keeps) | intro _ _ _ | split | (with_reducible first | apply KeepsOf.put rfl | apply KeepsOf.filter) | dsimp only [Keeps]

theorem State.applyDrv_keeps {s₀ s : State} (h : Keeps s₀ s) (o : Nat) (r : RegSpec) (val : Word) : Keeps s₀ (State.applyDrv s o r val) := by
  unfold State.applyDrv
  try dsimp only [Keeps]
  repeat' first | (with_reducible first | assumption | apply State.faultReset_keeps | apply State.drvCntClr_keeps | apply State.storeReg_keeps) | (with_reducible first | apply each_keeps | apply foldl_keeps) | intro _ _ _ | split | (with_reducible first | apply KeepsOf.put rfl | apply KeepsOf.filter) | dsimp only [Keeps]

theorem State.schStop_keeps {s₀ s : State} (h : Keeps s₀ s) : Keeps s₀ (State.schStop s) := by
  unfold State.schStop
  try dsimp only [Keeps]
  repeat' first | (with_reducible first | assumption | apply State.wf__keeps | apply State.bidStop_keeps) | (with_reducible first | apply each_keeps | apply foldl_keeps) | intro _ _ _ | split | (with_reducible first | apply KeepsOf.put rfl | apply KeepsOf.filter) | dsimp only [Keeps]

theorem State.schRunSet_keeps {s₀ s : State} (h : Keeps s₀ s) : Keeps s₀ (State.schRunSet s) := by
  unfold State.schRunSet
  try dsimp only [Keeps]
  repeat' first | (with_reducible first | assumption | apply State.schRunNow_keeps) | (with_reducible first | apply each_keeps | apply foldl_keeps) | intro _ _ _ | split | (with_reducible first | apply KeepsOf.put rfl | apply KeepsOf.filter) | dsimp only [Keeps]

theorem State.destAdd_keeps {s₀ s : State} (h : Keeps s₀ s) (val : Word) : Keeps s₀ (State.destAdd s val) := by
  unfold State.destAdd
  try dsimp only [Keeps]
  repeat' first | (with_reducible first | assumption | apply State.wn_keeps | apply State.destPlace_keeps) | (with_reducible first | apply each_keeps | apply foldl_keeps) | intro _ _ _ | split | (with_reducible first | apply KeepsOf.put rfl | apply KeepsOf.filter) | dsimp only [Keeps]

theorem State.destDel_keeps {s₀ s : State} (h : Keeps s₀ s) (i : Nat) : Keeps s₀ (State.destDel s i) := by
  unfold State.destDel
  try dsimp only [Keeps]
  repeat' first | (with_reducible first | assumption | apply State.dropDest_keeps) | (with_reducible first | apply each_keeps | apply foldl_keeps) | intro _ _ _ | split | (with_reducible first | apply KeepsOf.put rfl | apply KeepsOf.filter) | dsimp only [Keeps]

theorem State.schRestore_keeps {s₀ s : State} (h : Keeps s₀ s) : Keeps s₀ (State.schRestore s) := by
  unfold State.schRestore
  try dsimp only [Keeps]
  repeat' first | (with_reducible first | assumption | apply State.oosChange_keeps) | (with_reducible first | apply each_keeps | apply foldl_keeps) | intro _ _ _ | split | (with_reducible first | apply KeepsOf.put rfl | apply KeepsOf.filter) | dsimp only [Keeps]

theorem State.ccClrAll_keeps {s₀ s : State} (h : Keeps s₀ s) : Keeps s₀ (State.ccClrAll s) := by
  unfold State.ccClrAll
  try dsimp only [Keeps]
  repeat' first | (with_reducible first | assumption ) | (with_reducible first | apply each_keeps | apply foldl_keeps) | intro _ _ _ | split | (with_reducible first | apply KeepsOf.put rfl | apply KeepsOf.filter) | dsimp only [Keeps]

theorem State.applySch_keeps {s₀ s : State} (h : Keeps s₀ s) (o : Nat) (r : RegSpec) (val : Word) : Keeps s₀ (State.applySch s o r val) := by
  unfold State.applySch
  try dsimp only [Keeps]
  repeat' first | (with_reducible first | assumption | apply State.wf__keeps | apply State.oosHostNow_keeps | apply State.schStop_keeps | apply State.schRunSet_keeps | apply State.modeWrite_keeps | apply State.destAdd_keeps | apply State.destDel_keeps | apply State.schRestore_keeps | apply State.ccClrAll_keeps | apply State.schEndHold_keeps | apply State.storeReg_keeps) | (with_reducible first | apply each_keeps | apply foldl_keeps) | intro _ _ _ | split | (with_reducible first | apply KeepsOf.put rfl | apply KeepsOf.filter) | dsimp only [Keeps]

theorem State.bidCntClr_keeps {s₀ s : State} (h : Keeps s₀ s) : Keeps s₀ (State.bidCntClr s) := by
  unfold State.bidCntClr
  try dsimp only [Keeps]
  repeat' first | (with_reducible first | assumption | apply State.wr_keeps) | (with_reducible first | apply each_keeps | apply foldl_keeps) | intro _ _ _ | split | (with_reducible first | apply KeepsOf.put rfl | apply KeepsOf.filter) | dsimp only [Keeps]

theorem State.bidRejoin_keeps {s₀ s : State} (h : Keeps s₀ s) : Keeps s₀ (State.bidRejoin s) := by
  unfold State.bidRejoin
  try dsimp only [Keeps]
  repeat' first | (with_reducible first | assumption | apply State.bidListen_keeps) | (with_reducible first | apply each_keeps | apply foldl_keeps) | intro _ _ _ | split | (with_reducible first | apply KeepsOf.put rfl | apply KeepsOf.filter) | dsimp only [Keeps]

theorem State.bidQuery_keeps {s₀ s : State} (h : Keeps s₀ s) (val : Word) : Keeps s₀ (State.bidQuery s val) := by
  unfold State.bidQuery
  try dsimp only [Keeps]
  repeat' first | (with_reducible first | assumption | apply State.wr_keeps) | (with_reducible first | apply each_keeps | apply foldl_keeps) | intro _ _ _ | split | (with_reducible first | apply KeepsOf.put rfl | apply KeepsOf.filter) | dsimp only [Keeps]

theorem State.applyBid_keeps {s₀ s : State} (h : Keeps s₀ s) (o : Nat) (r : RegSpec) (val : Word) : Keeps s₀ (State.applyBid s o r val) := by
  unfold State.applyBid
  try dsimp only [Keeps]
  repeat' first | (with_reducible first | assumption | apply State.bidQuery_keeps | apply State.bidCntClr_keeps | apply State.releaseAll_keeps | apply State.bidRejoin_keeps | apply State.storeReg_keeps) | (with_reducible first | apply each_keeps | apply foldl_keeps) | intro _ _ _ | split | (with_reducible first | apply KeepsOf.put rfl | apply KeepsOf.filter) | dsimp only [Keeps]

theorem State.doorArmHost_keeps {s₀ s : State} (h : Keeps s₀ s) (c : Chan) : Keeps s₀ (State.doorArmHost s c) := by
  unfold State.doorArmHost
  try dsimp only [Keeps]
  repeat' first | (with_reducible first | assumption | apply State.setDoor_keeps) | (with_reducible first | apply each_keeps | apply foldl_keeps) | intro _ _ _ | split | (with_reducible first | apply KeepsOf.put rfl | apply KeepsOf.filter) | dsimp only [Keeps]

theorem State.doorLearnStart_keeps {s₀ s : State} (h : Keeps s₀ s) (c : Chan) : Keeps s₀ (State.doorLearnStart s c) := by
  unfold State.doorLearnStart
  try dsimp only [Keeps]
  repeat' first | (with_reducible first | assumption | apply State.setDoor_keeps | apply State.doorInto_keeps) | (with_reducible first | apply each_keeps | apply foldl_keeps) | intro _ _ _ | split | (with_reducible first | apply KeepsOf.put rfl | apply KeepsOf.filter) | dsimp only [Keeps]

theorem State.doorClrFault_keeps {s₀ s : State} (h : Keeps s₀ s) (c : Chan) : Keeps s₀ (State.doorClrFault s c) := by
  unfold State.doorClrFault
  try dsimp only [Keeps]
  repeat' first | (with_reducible first | assumption | apply State.doorLosePos_keeps | apply State.setDoor_keeps | apply State.doorInto_keeps) | (with_reducible first | apply each_keeps | apply foldl_keeps) | intro _ _ _ | split | (with_reducible first | apply KeepsOf.put rfl | apply KeepsOf.filter) | dsimp only [Keeps]

theorem State.doorNoted_keeps {s₀ s : State} (h : Keeps s₀ s) (c : Chan) (src : Src) (val : Word) : Keeps s₀ (State.doorNoted s c src val) := by
  unfold State.doorNoted
  try dsimp only [Keeps]
  repeat' first | (with_reducible first | assumption | apply State.setDoor_keeps) | (with_reducible first | apply each_keeps | apply foldl_keeps) | intro _ _ _ | split | (with_reducible first | apply KeepsOf.put rfl | apply KeepsOf.filter) | dsimp only [Keeps]

theorem State.doorCmd_keeps {s₀ s : State} (h : Keeps s₀ s) (c : Chan) (val : Word) : Keeps s₀ (State.doorCmd s c val) := by
  unfold State.doorCmd
  try dsimp only [Keeps]
  repeat' first | (with_reducible first | assumption | apply State.doorOpenAct_keeps | apply State.doorCloseAct_keeps | apply State.doorStopAct_keeps | apply State.doorArmHost_keeps | apply State.doorStartHome_keeps | apply State.doorLearnStart_keeps | apply State.doorClrFault_keeps) | (with_reducible first | apply each_keeps | apply foldl_keeps) | intro _ _ _ | split | (with_reducible first | apply KeepsOf.put rfl | apply KeepsOf.filter) | dsimp only [Keeps]

theorem State.applyDoor_keeps {s₀ s : State} (h : Keeps s₀ s) (src : Src) (c : Chan) (o : Nat) (r : RegSpec) (val : Word) : Keeps s₀ (State.applyDoor s src c o r val) := by
  unfold State.applyDoor
  try dsimp only [Keeps]
  repeat' first | (with_reducible first | assumption | apply State.doorCmd_keeps | apply State.doorNoted_keeps | apply State.storeReg_keeps | apply State.doorPowerDown_keeps) | (with_reducible first | apply each_keeps | apply foldl_keeps) | intro _ _ _ | split | (with_reducible first | apply KeepsOf.put rfl | apply KeepsOf.filter) | dsimp only [Keeps]

theorem State.safeReset_keeps {s₀ s : State} (h : Keeps s₀ s) (src : Src) : Keeps s₀ (State.safeReset s src) := by
  unfold State.safeReset
  try dsimp only [Keeps]
  repeat' first | (with_reducible first | assumption | apply State.elClear_keeps) | (with_reducible first | apply each_keeps | apply foldl_keeps) | intro _ _ _ | split | (with_reducible first | apply KeepsOf.put rfl | apply KeepsOf.filter) | dsimp only [Keeps]

theorem State.applySafe_keeps {s₀ s : State} (h : Keeps s₀ s) (src : Src) (o : Nat) (r : RegSpec) (val : Word) : Keeps s₀ (State.applySafe s src o r val) := by
  unfold State.applySafe
  try dsimp only [Keeps]
  repeat' first | (with_reducible first | assumption | apply State.safeReset_keeps | apply State.storeReg_keeps | apply State.elDigest_keeps) | (with_reducible first | apply each_keeps | apply foldl_keeps) | intro _ _ _ | split | (with_reducible first | apply KeepsOf.put rfl | apply KeepsOf.filter) | dsimp only [Keeps]

theorem State.lsfRestartNow_keeps {s₀ s : State} (h : Keeps s₀ s) (val : Word) : Keeps s₀ (State.lsfRestartNow s val) := by
  unfold State.lsfRestartNow
  try dsimp only [Keeps]
  repeat' first | (with_reducible first | assumption | apply each_keeps | apply State.setLsf_keeps) | (with_reducible first | apply each_keeps | apply foldl_keeps) | intro _ _ _ | split | (with_reducible first | apply KeepsOf.put rfl | apply KeepsOf.filter) | dsimp only [Keeps]

theorem State.lsfCntClr_keeps {s₀ s : State} (h : Keeps s₀ s) : Keeps s₀ (State.lsfCntClr s) := by
  unfold State.lsfCntClr
  try dsimp only [Keeps]
  repeat' first | (with_reducible first | assumption | apply each_keeps | apply State.wr_keeps) | (with_reducible first | apply each_keeps | apply foldl_keeps) | intro _ _ _ | split | (with_reducible first | apply KeepsOf.put rfl | apply KeepsOf.filter) | dsimp only [Keeps]

theorem State.applyLsf_keeps {s₀ s : State} (h : Keeps s₀ s) (o : Nat) (r : RegSpec) (val : Word) : Keeps s₀ (State.applyLsf s o r val) := by
  unfold State.applyLsf
  try dsimp only [Keeps]
  repeat' first | (with_reducible first | assumption | apply State.lsfRestartNow_keeps | apply State.lsfCntClr_keeps | apply State.storeReg_keeps | apply State.lsfStart_keeps) | (with_reducible first | apply each_keeps | apply foldl_keeps) | intro _ _ _ | split | (with_reducible first | apply KeepsOf.put rfl | apply KeepsOf.filter) | dsimp only [Keeps]

theorem State.canOff_keeps {s₀ s : State} (h : Keeps s₀ s) (n : Nat) : Keeps s₀ (State.canOff s n) := by
  unfold State.canOff
  try dsimp only [Keeps]
  repeat' first | (with_reducible first | assumption | apply State.canAbortAll_keeps | apply State.setCan_keeps | apply State.canInto_keeps) | (with_reducible first | apply each_keeps | apply foldl_keeps) | intro _ _ _ | split | (with_reducible first | apply KeepsOf.put rfl | apply KeepsOf.filter) | dsimp only [Keeps]

theorem State.canStart_keeps {s₀ s : State} (h : Keeps s₀ s) (n : Nat) : Keeps s₀ (State.canStart s n) := by
  unfold State.canStart
  try dsimp only [Keeps]
  repeat' first | (with_reducible first | assumption | apply State.setCan_keeps) | (with_reducible first | apply each_keeps | apply foldl_keeps) | intro _ _ _ | split | (with_reducible first | apply KeepsOf.put rfl | apply KeepsOf.filter) | dsimp only [Keeps]

theorem State.canAbortMask_keeps {s₀ s : State} (h : Keeps s₀ s) (n : Nat) (val : Word) : Keeps s₀ (State.canAbortMask s n val) := by
  unfold State.canAbortMask
  try dsimp only [Keeps]
  repeat' first | (with_reducible first | assumption | apply each_keeps | apply State.canAbort_keeps) | (with_reducible first | apply each_keeps | apply foldl_keeps) | intro _ _ _ | split | (with_reducible first | apply KeepsOf.put rfl | apply KeepsOf.filter) | dsimp only [Keeps]

theorem State.canRequestMask_keeps {s₀ s : State} (h : Keeps s₀ s) (n : Nat) (val : Word) : Keeps s₀ (State.canRequestMask s n val) := by
  unfold State.canRequestMask
  try dsimp only [Keeps]
  repeat' first | (with_reducible first | assumption | apply each_keeps | apply State.canRequest_keeps) | (with_reducible first | apply each_keeps | apply foldl_keeps) | intro _ _ _ | split | (with_reducible first | apply KeepsOf.put rfl | apply KeepsOf.filter) | dsimp only [Keeps]

theorem State.canCntClr_keeps {s₀ s : State} (h : Keeps s₀ s) (n : Nat) : Keeps s₀ (State.canCntClr s n) := by
  unfold State.canCntClr
  try dsimp only [Keeps]
  repeat' first | (with_reducible first | assumption | apply State.wr_keeps) | (with_reducible first | apply each_keeps | apply foldl_keeps) | intro _ _ _ | split | (with_reducible first | apply KeepsOf.put rfl | apply KeepsOf.filter) | dsimp only [Keeps]

theorem State.canSleepBit_keeps {s₀ s : State} (h : Keeps s₀ s) (n : Nat) (on : Bool) : Keeps s₀ (State.canSleepBit s n on) := by
  unfold State.canSleepBit
  try dsimp only [Keeps]
  repeat' first | (with_reducible first | assumption | apply State.canSleepNow_keeps | apply State.canWakeNow_keeps) | (with_reducible first | apply each_keeps | apply foldl_keeps) | intro _ _ _ | split | (with_reducible first | apply KeepsOf.put rfl | apply KeepsOf.filter) | dsimp only [Keeps]

theorem State.applyCan_keeps {s₀ s : State} (h : Keeps s₀ s) (n : Nat) (o : Nat) (r : RegSpec) (val : Word) : Keeps s₀ (State.applyCan s n o r val) := by
  unfold State.applyCan
  try dsimp only [Keeps]
  repeat' first | (with_reducible first | assumption | apply State.canSleepBit_keeps | apply State.storeReg_keeps | apply State.canOff_keeps | apply State.canStart_keeps | apply State.canRequestMask_keeps | apply State.canAbortMask_keeps | apply State.canCntClr_keeps | apply each_keeps | apply State.canClrNew_keeps | apply State.canClrLost_keeps) | (with_reducible first | apply each_keeps | apply foldl_keeps) | intro _ _ _ | split | (with_reducible first | apply KeepsOf.put rfl | apply KeepsOf.filter) | dsimp only [Keeps]

theorem State.applyFio_keeps {s₀ s : State} (h : Keeps s₀ s) (o : Nat) (r : RegSpec) (val : Word) : Keeps s₀ (State.applyFio s o r val) := by
  unfold State.applyFio
  try dsimp only [Keeps]
  repeat' first | (with_reducible first | assumption | apply State.silAckNow_keeps | apply State.storeReg_keeps | apply State.silEnable_keeps) | (with_reducible first | apply each_keeps | apply foldl_keeps) | intro _ _ _ | split | (with_reducible first | apply KeepsOf.put rfl | apply KeepsOf.filter) | dsimp only [Keeps]

theorem State.grpClr_keeps {s₀ s : State} (h : Keeps s₀ s) (g : Nat) : Keeps s₀ (State.grpClr s g) := by
  unfold State.grpClr
  try dsimp only [Keeps]
  repeat' first | (with_reducible first | assumption | apply State.setGrp_keeps) | (with_reducible first | apply each_keeps | apply foldl_keeps) | intro _ _ _ | split | (with_reducible first | apply KeepsOf.put rfl | apply KeepsOf.filter) | dsimp only [Keeps]

theorem State.cosClear_keeps {s₀ s : State} (h : Keeps s₀ s) (g : Nat) (val : Word) : Keeps s₀ (State.cosClear s g val) := by
  unfold State.cosClear
  try dsimp only [Keeps]
  repeat' first | (with_reducible first | assumption | apply State.wr_keeps) | (with_reducible first | apply each_keeps | apply foldl_keeps) | intro _ _ _ | split | (with_reducible first | apply KeepsOf.put rfl | apply KeepsOf.filter) | dsimp only [Keeps]

theorem State.applyFiog_keeps {s₀ s : State} (h : Keeps s₀ s) (g : Nat) (o : Nat) (r : RegSpec) (val : Word) : Keeps s₀ (State.applyFiog s g o r val) := by
  unfold State.applyFiog
  try dsimp only [Keeps]
  repeat' first | (with_reducible first | assumption | apply State.outWrite_keeps | apply State.cosClear_keeps | apply State.tsdClear_keeps | apply State.grpClr_keeps | apply State.chCfgApply_keeps | apply State.storeReg_keeps) | (with_reducible first | apply each_keeps | apply foldl_keeps) | intro _ _ _ | split | (with_reducible first | apply KeepsOf.put rfl | apply KeepsOf.filter) | dsimp only [Keeps]

theorem State.sealOpen_keeps {s₀ s : State} (h : Keeps s₀ s) (src : Src) : Keeps s₀ (State.sealOpen s src) := by
  unfold State.sealOpen
  try dsimp only [Keeps]
  repeat' first | (with_reducible first | assumption ) | (with_reducible first | apply each_keeps | apply foldl_keeps) | intro _ _ _ | split | (with_reducible first | apply KeepsOf.put rfl | apply KeepsOf.filter) | dsimp only [Keeps]

theorem State.closeOthers_keeps {s₀ s : State} (h : Keeps s₀ s) (src : Src) : Keeps s₀ (State.closeOthers s src) := by
  unfold State.closeOthers
  try dsimp only [Keeps]
  repeat' first | (with_reducible first | assumption | apply each_keeps | apply State.sessEnd_keeps) | (with_reducible first | apply each_keeps | apply foldl_keeps) | intro _ _ _ | split | (with_reducible first | apply KeepsOf.put rfl | apply KeepsOf.filter) | dsimp only [Keeps]

theorem State.applyHost_keeps {s₀ s : State} (h : Keeps s₀ s) (src : Src) (o : Nat) (r : RegSpec) (val : Word) : Keeps s₀ (State.applyHost s src o r val) := by
  unfold State.applyHost
  try dsimp only [Keeps]
  repeat' first | (with_reducible first | assumption | apply State.wr_keeps | apply State.sealOpen_keeps | apply State.closeOthers_keeps | apply State.storeReg_keeps) | (with_reducible first | apply each_keeps | apply foldl_keeps) | intro _ _ _ | split | (with_reducible first | apply KeepsOf.put rfl | apply KeepsOf.filter) | dsimp only [Keeps]

theorem State.ethLink_keeps {s₀ s : State} (h : Keeps s₀ s) (n : Nat) (up : Bool) (amp24 : Bool) (sqi : Nat) : Keeps s₀ (State.ethLink s n up amp24 sqi) := by
  unfold State.ethLink
  try dsimp only [Keeps]
  repeat' first | (with_reducible first | assumption | apply State.wr_keeps | apply State.raise_keeps | apply each_keeps | apply State.sessEnd_keeps) | (with_reducible first | apply each_keeps | apply foldl_keeps) | intro _ _ _ | split | (with_reducible first | apply KeepsOf.put rfl | apply KeepsOf.filter) | dsimp only [Keeps]

theorem State.ethReneg_keeps {s₀ s : State} (h : Keeps s₀ s) (n : Nat) : Keeps s₀ (State.ethReneg s n) := by
  unfold State.ethReneg
  try dsimp only [Keeps]
  repeat' first | (with_reducible first | assumption | apply State.ethLink_keeps) | (with_reducible first | apply each_keeps | apply foldl_keeps) | intro _ _ _ | split | (with_reducible first | apply KeepsOf.put rfl | apply KeepsOf.filter) | dsimp only [Keeps]

theorem State.ethCntClr_keeps {s₀ s : State} (h : Keeps s₀ s) (n : Nat) : Keeps s₀ (State.ethCntClr s n) := by
  unfold State.ethCntClr
  try dsimp only [Keeps]
  repeat' first | (with_reducible first | assumption | apply State.wr_keeps) | (with_reducible first | apply each_keeps | apply foldl_keeps) | intro _ _ _ | split | (with_reducible first | apply KeepsOf.put rfl | apply KeepsOf.filter) | dsimp only [Keeps]

theorem State.applyEth_keeps {s₀ s : State} (h : Keeps s₀ s) (n : Nat) (o : Nat) (r : RegSpec) (val : Word) : Keeps s₀ (State.applyEth s n o r val) := by
  unfold State.applyEth
  try dsimp only [Keeps]
  repeat' first | (with_reducible first | assumption | apply State.ethCntClr_keeps | apply State.ethReneg_keeps | apply State.storeReg_keeps) | (with_reducible first | apply each_keeps | apply foldl_keeps) | intro _ _ _ | split | (with_reducible first | apply KeepsOf.put rfl | apply KeepsOf.filter) | dsimp only [Keeps]

theorem State.clrPeak_keeps {s₀ s : State} (h : Keeps s₀ s) : Keeps s₀ (State.clrPeak s) := by
  unfold State.clrPeak
  try dsimp only [Keeps]
  repeat' first | (with_reducible first | assumption ) | (with_reducible first | apply each_keeps | apply foldl_keeps) | intro _ _ _ | split | (with_reducible first | apply KeepsOf.put rfl | apply KeepsOf.filter) | dsimp only [Keeps]

theorem State.clrFlt_keeps {s₀ s : State} (h : Keeps s₀ s) : Keeps s₀ (State.clrFlt s) := by
  unfold State.clrFlt
  try dsimp only [Keeps]
  repeat' first | (with_reducible first | assumption | apply each_keeps | apply State.wr_keeps) | (with_reducible first | apply each_keeps | apply foldl_keeps) | intro _ _ _ | split | (with_reducible first | apply KeepsOf.put rfl | apply KeepsOf.filter) | dsimp only [Keeps]

theorem State.applyXbar_keeps {s₀ s : State} (h : Keeps s₀ s) (o : Nat) (r : RegSpec) (val : Word) : Keeps s₀ (State.applyXbar s o r val) := by
  unfold State.applyXbar
  try dsimp only [Keeps]
  repeat' first | (with_reducible first | assumption | apply State.clrPeak_keeps | apply State.clrFlt_keeps | apply State.storeReg_keeps) | (with_reducible first | apply each_keeps | apply foldl_keeps) | intro _ _ _ | split | (with_reducible first | apply KeepsOf.put rfl | apply KeepsOf.filter) | dsimp only [Keeps]

theorem State.applyPart_keeps {s₀ s : State} (h : Keeps s₀ s) (o : Nat) (r : RegSpec) (val : Word) : Keeps s₀ (State.applyPart s o r val) := by
  unfold State.applyPart
  try dsimp only [Keeps]
  repeat' first | (with_reducible first | assumption | apply State.wr_keeps | apply State.resyncNow_keeps | apply State.xchNow_keeps | apply State.storeReg_keeps) | (with_reducible first | apply each_keeps | apply foldl_keeps) | intro _ _ _ | split | (with_reducible first | apply KeepsOf.put rfl | apply KeepsOf.filter) | dsimp only [Keeps]

theorem State.flushAsk_keeps {s₀ s : State} (h : Keeps s₀ s) : Keeps s₀ (State.flushAsk s) := by
  unfold State.flushAsk
  try dsimp only [Keeps]
  repeat' first | (with_reducible first | assumption ) | (with_reducible first | apply each_keeps | apply foldl_keeps) | intro _ _ _ | split | (with_reducible first | apply KeepsOf.put rfl | apply KeepsOf.filter) | dsimp only [Keeps]

theorem State.readAsk_keeps {s₀ s : State} (h : Keeps s₀ s) (val : Word) : Keeps s₀ (State.readAsk s val) := by
  unfold State.readAsk
  try dsimp only [Keeps]
  repeat' first | (with_reducible first | assumption | apply State.wr_keeps) | (with_reducible first | apply each_keeps | apply foldl_keeps) | intro _ _ _ | split | (with_reducible first | apply KeepsOf.put rfl | apply KeepsOf.filter) | dsimp only [Keeps]

theorem State.recCntClr_keeps {s₀ s : State} (h : Keeps s₀ s) : Keeps s₀ (State.recCntClr s) := by
  unfold State.recCntClr
  try dsimp only [Keeps]
  repeat' first | (with_reducible first | assumption | apply State.wr_keeps) | (with_reducible first | apply each_keeps | apply foldl_keeps) | intro _ _ _ | split | (with_reducible first | apply KeepsOf.put rfl | apply KeepsOf.filter) | dsimp only [Keeps]

theorem State.applyRec_keeps {s₀ s : State} (h : Keeps s₀ s) (o : Nat) (r : RegSpec) (val : Word) : Keeps s₀ (State.applyRec s o r val) := by
  unfold State.applyRec
  try dsimp only [Keeps]
  repeat' first | (with_reducible first | assumption | apply State.readAsk_keeps | apply State.wallSet_keeps | apply State.hostFire_keeps | apply State.recCntClr_keeps | apply State.flushAsk_keeps | apply State.storeReg_keeps) | (with_reducible first | apply each_keeps | apply foldl_keeps) | intro _ _ _ | split | (with_reducible first | apply KeepsOf.put rfl | apply KeepsOf.filter) | dsimp only [Keeps]

theorem State.applyKey_keeps {s₀ s : State} (h : Keeps s₀ s) (src : Src) (o : Nat) (r : RegSpec) (val : Word) : Keeps s₀ (State.applyKey s src o r val) := by
  unfold State.applyKey
  try dsimp only [Keeps]
  repeat' first | (with_reducible first | assumption | apply State.keyAccept_keeps | apply State.wr_keeps | apply State.storeReg_keeps) | (with_reducible first | apply each_keeps | apply foldl_keeps) | intro _ _ _ | split | (with_reducible first | apply KeepsOf.put rfl | apply KeepsOf.filter) | dsimp only [Keeps]

theorem State.applyTamp_keeps {s₀ s : State} (h : Keeps s₀ s) (o : Nat) (r : RegSpec) (val : Word) : Keeps s₀ (State.applyTamp s o r val) := by
  unfold State.applyTamp
  try dsimp only [Keeps]
  repeat' first | (with_reducible first | assumption | apply State.tampRelease_keeps | apply State.storeReg_keeps | apply State.tampered_keeps) | (with_reducible first | apply each_keeps | apply foldl_keeps) | intro _ _ _ | split | (with_reducible first | apply KeepsOf.put rfl | apply KeepsOf.filter) | dsimp only [Keeps]

theorem State.gateWrite_keeps {s₀ s : State} (h : Keeps s₀ s) (port : Nat) (val : Word) : Keeps s₀ (State.gateWrite s port val) := by
  unfold State.gateWrite
  try dsimp only [Keeps]
  repeat' first | (with_reducible first | assumption | apply State.wr_keeps) | (with_reducible first | apply each_keeps | apply foldl_keeps) | intro _ _ _ | split | (with_reducible first | apply KeepsOf.put rfl | apply KeepsOf.filter) | dsimp only [Keeps]

theorem State.applyClk_keeps {s₀ s : State} (h : Keeps s₀ s) (src : Src) (o : Nat) (r : RegSpec) (val : Word) : Keeps s₀ (State.applyClk s src o r val) := by
  unfold State.applyClk
  try dsimp only [Keeps]
  repeat' first | (with_reducible first | assumption | apply State.gateWrite_keeps | apply State.storeReg_keeps) | (with_reducible first | apply each_keeps | apply foldl_keeps) | intro _ _ _ | split | (with_reducible first | apply KeepsOf.put rfl | apply KeepsOf.filter) | dsimp only [Keeps]

theorem State.ovrWrite_keeps {s₀ s : State} (h : Keeps s₀ s) (val : Word) : Keeps s₀ (State.ovrWrite s val) := by
  unfold State.ovrWrite
  try dsimp only [Keeps]
  repeat' first | (with_reducible first | assumption | apply State.wr_keeps) | (with_reducible first | apply each_keeps | apply foldl_keeps) | intro _ _ _ | split | (with_reducible first | apply KeepsOf.put rfl | apply KeepsOf.filter) | dsimp only [Keeps]

theorem State.profData_keeps {s₀ s : State} (h : Keeps s₀ s) (val : Word) : Keeps s₀ (State.profData s val) := by
  unfold State.profData
  try dsimp only [Keeps]
  repeat' first | (with_reducible first | assumption | apply State.wn_keeps) | (with_reducible first | apply each_keeps | apply foldl_keeps) | intro _ _ _ | split | (with_reducible first | apply KeepsOf.put rfl | apply KeepsOf.filter) | dsimp only [Keeps]

theorem State.softReset_keeps {s₀ s : State} (h : Keeps s₀ s) : Keeps s₀ (State.softReset s) := by
  unfold State.softReset
  try dsimp only [Keeps]
  repeat' first | (with_reducible first | assumption | apply State.resetBy_keeps) | (with_reducible first | apply each_keeps | apply foldl_keeps) | intro _ _ _ | split | (with_reducible first | apply KeepsOf.put rfl | apply KeepsOf.filter) | dsimp only [Keeps]

theorem State.pwrCmd_keeps {s₀ s : State} (h : Keeps s₀ s) (val : Word) : Keeps s₀ (State.pwrCmd s val) := by
  unfold State.pwrCmd
  try dsimp only [Keeps]
  repeat' first | (with_reducible first | assumption | apply State.parkNow_keeps | apply State.parkEnd_keeps | apply State.deepNow_keeps) | (with_reducible first | apply each_keeps | apply foldl_keeps) | intro _ _ _ | split | (with_reducible first | apply KeepsOf.put rfl | apply KeepsOf.filter) | dsimp only [Keeps]

theorem State.applySys_keeps {s₀ s : State} (h : Keeps s₀ s) (o : Nat) (r : RegSpec) (val : Word) : Keeps s₀ (State.applySys s o r val) := by
  unfold State.applySys
  try dsimp only [Keeps]
  repeat' first | (with_reducible first | assumption | apply State.ovrWrite_keeps | apply State.profData_keeps | apply State.profStoreNow_keeps | apply State.softReset_keeps | apply State.storeReg_keeps) | (with_reducible first | apply each_keeps | apply foldl_keeps) | intro _ _ _ | split | (with_reducible first | apply KeepsOf.put rfl | apply KeepsOf.filter) | dsimp only [Keeps]

theorem State.applyPwr_keeps {s₀ s : State} (h : Keeps s₀ s) (o : Nat) (r : RegSpec) (val : Word) : Keeps s₀ (State.applyPwr s o r val) := by
  unfold State.applyPwr
  try dsimp only [Keeps]
  repeat' first | (with_reducible first | assumption | apply State.pwrCmd_keeps | apply State.storeReg_keeps) | (with_reducible first | apply each_keeps | apply foldl_keeps) | intro _ _ _ | split | (with_reducible first | apply KeepsOf.put rfl | apply KeepsOf.filter) | dsimp only [Keeps]

theorem State.applyCanWin_keeps {s₀ s : State} (h : Keeps s₀ s) (a : Nat) (val : Word) : Keeps s₀ (State.applyCanWin s a val) := by
  unfold State.applyCanWin
  try dsimp only [Keeps]
  repeat' first | (with_reducible first | assumption | apply State.wr_keeps | apply State.canClrNew_keeps | apply State.canClrLost_keeps) | (with_reducible first | apply each_keeps | apply foldl_keeps) | intro _ _ _ | split | (with_reducible first | apply KeepsOf.put rfl | apply KeepsOf.filter) | dsimp only [Keeps]

theorem State.applyCallAt_keeps {s₀ s : State} (h : Keeps s₀ s) (c : CallArea) (val : Word) : Keeps s₀ (State.applyCallAt s c val) := by
  unfold State.applyCallAt
  try dsimp only [Keeps]
  repeat' first | (with_reducible first | assumption | apply State.parkEnd_keeps | apply State.callSetNow_keeps | apply State.callClrNow_keeps) | (with_reducible first | apply each_keeps | apply foldl_keeps) | intro _ _ _ | split | (with_reducible first | apply KeepsOf.put rfl | apply KeepsOf.filter) | dsimp only [Keeps]

theorem State.applyCall_keeps {s₀ s : State} (h : Keeps s₀ s) (a : Nat) (val : Word) : Keeps s₀ (State.applyCall s a val) := by
  unfold State.applyCall
  try dsimp only [Keeps]
  repeat' first | (with_reducible first | assumption | apply State.applyCallAt_keeps) | (with_reducible first | apply each_keeps | apply foldl_keeps) | intro _ _ _ | split | (with_reducible first | apply KeepsOf.put rfl | apply KeepsOf.filter) | dsimp only [Keeps]

theorem State.applyLt_keeps {s₀ s : State} (h : Keeps s₀ s) (a : Nat) (val : Word) : Keeps s₀ (State.applyLt s a val) := by
  unfold State.applyLt
  try dsimp only [Keeps]
  repeat' first | (with_reducible first | assumption | apply State.ltWrite_keeps | apply State.elDigest_keeps) | (with_reducible first | apply each_keeps | apply foldl_keeps) | intro _ _ _ | split | (with_reducible first | apply KeepsOf.put rfl | apply KeepsOf.filter) | dsimp only [Keeps]

theorem State.applyPage_keeps {s₀ s : State} (h : Keeps s₀ s) (src : Src) (pg : Nat) (o : Nat) (r : RegSpec) (val : Word) : Keeps s₀ (State.applyPage s src pg o r val) := by
  unfold State.applyPage
  try dsimp only [Keeps]
  repeat' first | (with_reducible first | assumption | apply State.applySys_keeps | apply State.applyClk_keeps | apply State.applyPwr_keeps | apply State.applyXbar_keeps | apply State.applyHost_keeps | apply State.applyPos_keeps | apply State.applyMot_keeps | apply State.applyDrv_keeps | apply State.applySch_keeps | apply State.applyBid_keeps | apply State.applyDoor_keeps | apply State.applySafe_keeps | apply State.applyLsf_keeps | apply State.applyFio_keeps | apply State.applyPart_keeps | apply State.applyRec_keeps | apply State.applyKey_keeps | apply State.applyTamp_keeps | apply State.applyLwb_keeps | apply State.applyCan_keeps | apply State.applyEth_keeps | apply State.applyFiog_keeps) | (with_reducible first | apply each_keeps | apply foldl_keeps) | intro _ _ _ | split | (with_reducible first | apply KeepsOf.put rfl | apply KeepsOf.filter) | dsimp only [Keeps]

theorem State.applyWrite_keeps {s₀ s : State} (h : Keeps s₀ s) (src : Src) (a : Nat) (val : Word) :
    Keeps s₀ (State.applyWrite s src a val) := by
  unfold State.applyWrite
  split
  · split
    · exact State.applyHead_keeps h _ _ _ ‹_›
    · split
      · exact h
      · exact State.applyPage_keeps h _ _ _ _ _
  · split
    · exact State.applyCanWin_keeps h _ _
    · split
      · exact State.applyCall_keeps h _ _
      · exact State.applyLt_keeps h _ _

theorem State.refuse_keeps {s₀ s : State} (h : Keeps s₀ s) (src : Src) (a : Nat) (val : Word) (code : Nat) : Keeps s₀ (State.refuse s src a val code) := by
  unfold State.refuse
  try dsimp only [Keeps]
  repeat' first | (with_reducible first | assumption | apply State.reject_keeps | apply State.motCmd_keeps | apply State.raise_keeps | apply State.ltFaultNote_keeps | apply State.relevBlock_keeps) | (with_reducible first | apply each_keeps | apply foldl_keeps) | intro _ _ _ | split | (with_reducible first | apply KeepsOf.put rfl | apply KeepsOf.filter) | dsimp only [Keeps]

theorem State.hostWrite_keeps {s₀ s : State} (h : Keeps s₀ s) (src : Src) (a : Nat) (val : Word) : Keeps s₀ (State.hostWrite s src a val).1 := by
  unfold State.hostWrite
  try dsimp only [Keeps]
  repeat' first | (with_reducible first | assumption | apply State.applyWrite_keeps | apply State.refuse_keeps) | (with_reducible first | apply each_keeps | apply foldl_keeps) | intro _ _ _ | split | (with_reducible first | apply KeepsOf.put rfl | apply KeepsOf.filter) | dsimp only [Keeps]

theorem State.command_keeps {s₀ s : State} (h : Keeps s₀ s) (src : Src) (a : Nat) (val : Word) : Keeps s₀ (State.command s src a val) := by
  unfold State.command
  try dsimp only [Keeps]
  repeat' first | (with_reducible first | assumption | apply State.hostWrite_keeps) | (with_reducible first | apply each_keeps | apply foldl_keeps) | intro _ _ _ | split | (with_reducible first | apply KeepsOf.put rfl | apply KeepsOf.filter) | dsimp only [Keeps]

end Sys2Proof.Machine
end

