-- ==== Sys2Proof/Laws/KeepsHostOps.lean ====
section
/-! SUPPORT. The operations of Machine/HostOps.lean keep the store canonical and the queue as it is. -/

set_option linter.unusedTactic false
set_option linter.unreachableTactic false

namespace Sys2Proof.Machine

theorem State.preview_keeps {s₀ s : State} (h : Keeps s₀ s) : Keeps s₀ (State.preview s) := by
  unfold State.preview
  try dsimp only [Keeps]
  repeat' first | (with_reducible first | assumption | apply State.applyWrite_keeps) | (with_reducible first | apply each_keeps | apply foldl_keeps) | intro _ _ _ | split | (with_reducible first | apply KeepsOf.put rfl | apply KeepsOf.filter) | dsimp only [Keeps]

theorem State.defer__keeps {s₀ s : State} (h : Keeps s₀ s) (d : Deferred) : Keeps s₀ (State.defer_ s d) := by
  unfold State.defer_
  try dsimp only [Keeps]
  repeat' first | (with_reducible first | assumption ) | (with_reducible first | apply each_keeps | apply foldl_keeps) | intro _ _ _ | split | (with_reducible first | apply KeepsOf.put rfl | apply KeepsOf.filter) | dsimp only [Keeps]

theorem State.refuseLater_keeps {s₀ s : State} (h : Keeps s₀ s) (src : Src) (a : Nat) (val : Word) (c : Nat) : Keeps s₀ (State.refuseLater s src a val c) := by
  unfold State.refuseLater
  try dsimp only [Keeps]
  repeat' first | (with_reducible first | assumption | apply State.defer__keeps | apply State.refuse_keeps) | (with_reducible first | apply each_keeps | apply foldl_keeps) | intro _ _ _ | split | (with_reducible first | apply KeepsOf.put rfl | apply KeepsOf.filter) | dsimp only [Keeps]

theorem State.hostExec_keeps {s₀ s : State} (h : Keeps s₀ s) (src : Src) (a : Nat) (val : Word) : Keeps s₀ (State.hostExec s src a val).1 := by
  unfold State.hostExec
  try dsimp only [Keeps]
  repeat' first | (with_reducible first | assumption | apply State.preview_keeps | apply State.defer__keeps | apply State.refuseLater_keeps | apply State.ltFaultNote_keeps | apply State.hostWrite_keeps) | (with_reducible first | apply each_keeps | apply foldl_keeps) | intro _ _ _ | split | (with_reducible first | apply KeepsOf.put rfl | apply KeepsOf.filter) | dsimp only [Keeps]

theorem State.registerWrite_keeps {s₀ s : State} (h : Keeps s₀ s) (src : Src) (a : Nat) (val : Word) (narrow : Bool) : Keeps s₀ (State.registerWrite s src a val narrow) := by
  unfold State.registerWrite
  try dsimp only [Keeps]
  repeat' first | (with_reducible first | assumption | apply State.refuseLater_keeps | apply State.defer__keeps | apply State.hostExec_keeps) | (with_reducible first | apply each_keeps | apply foldl_keeps) | intro _ _ _ | split | (with_reducible first | apply KeepsOf.put rfl | apply KeepsOf.filter) | dsimp only [Keeps]

theorem State.writeWords_keeps {s₀ : State} (via : Via) (req : List Byte) (src : Src) (l : List Word) :
    ∀ {s : State}, Keeps s₀ s → ∀ a n : Nat, Keeps s₀ (State.writeWords s via req src a l n).1 := by
  induction l with
  | nil => intro s h a n; exact h
  | cons w r ih =>
    intro s h a n
    unfold State.writeWords
    have k := State.hostExec_keeps h src a w
    split
    · exact h
    · split
      · exact State.defer__keeps h _
      · split
        · exact k.of_fst ‹_›
        · exact ih (k.of_fst ‹_›) _ _

theorem State.dmaFault_keeps {s₀ s : State} (h : Keeps s₀ s) (m : Nat) (a : Nat) (code : Nat) (bytes : Nat) : Keeps s₀ (State.dmaFault s m a code bytes) := by
  unfold State.dmaFault
  try dsimp only [Keeps]
  repeat' first | (with_reducible first | assumption | apply State.wn_keeps | apply State.wr_keeps | apply State.raise_keeps) | (with_reducible first | apply each_keeps | apply foldl_keeps) | intro _ _ _ | split | (with_reducible first | apply KeepsOf.put rfl | apply KeepsOf.filter) | dsimp only [Keeps]

theorem State.burstStop_keeps {s₀ s : State} (h : Keeps s₀ s) (src : Src) (a : Nat) (done : Nat) (words : Nat) (status : Nat) (write : Bool) : Keeps s₀ (State.burstStop s src a done words status write) := by
  unfold State.burstStop
  try dsimp only [Keeps]
  repeat' first | (with_reducible first | assumption | apply State.dmaFault_keeps) | (with_reducible first | apply each_keeps | apply foldl_keeps) | intro _ _ _ | split | (with_reducible first | apply KeepsOf.put rfl | apply KeepsOf.filter) | dsimp only [Keeps]

theorem State.charge_keeps {s₀ s : State} (h : Keeps s₀ s) (n : Nat) : Keeps s₀ (State.charge s n) := by
  unfold State.charge
  try dsimp only [Keeps]
  repeat' first | (with_reducible first | assumption ) | (with_reducible first | apply each_keeps | apply foldl_keeps) | intro _ _ _ | split | (with_reducible first | apply KeepsOf.put rfl | apply KeepsOf.filter) | dsimp only [Keeps]

theorem State.setSess_keeps {s₀ s : State} (h : Keeps s₀ s) (i : Nat) (x : Session) : Keeps s₀ (State.setSess s i x) := by
  unfold State.setSess
  try dsimp only [Keeps]
  repeat' first | (with_reducible first | assumption ) | (with_reducible first | apply each_keeps | apply foldl_keeps) | intro _ _ _ | split | (with_reducible first | apply KeepsOf.put rfl | apply KeepsOf.filter) | dsimp only [Keeps]

theorem State.ethSend_keeps {s₀ s : State} (h : Keeps s₀ s) (n : Nat) (kind : Nat) (peer : List Byte) (payload : List Byte) : Keeps s₀ (State.ethSend s n kind peer payload) := by
  unfold State.ethSend
  try dsimp only [Keeps]
  repeat' first | (with_reducible first | assumption | apply State.bump_keeps) | (with_reducible first | apply each_keeps | apply foldl_keeps) | intro _ _ _ | split | (with_reducible first | apply KeepsOf.put rfl | apply KeepsOf.filter) | dsimp only [Keeps]

theorem State.lrpSend_keeps {s₀ s : State} (h : Keeps s₀ s) (via : Via) (resp : List Byte) : Keeps s₀ (State.lrpSend s via resp) := by
  unfold State.lrpSend
  try dsimp only [Keeps]
  repeat' first | (with_reducible first | assumption | apply State.spi_keeps | apply State.ethSend_keeps | apply State.setSess_keeps | apply State.sessEnd_keeps) | (with_reducible first | apply each_keeps | apply foldl_keeps) | intro _ _ _ | split | (with_reducible first | apply KeepsOf.put rfl | apply KeepsOf.filter) | dsimp only [Keeps]

theorem State.keepLast_keeps {s₀ s : State} (h : Keeps s₀ s) (via : Via) (q : List Byte) (resp : List Byte) : Keeps s₀ (State.keepLast s via q resp) := by
  unfold State.keepLast
  try dsimp only [Keeps]
  repeat' first | (with_reducible first | assumption | apply State.spi_keeps | apply State.setSess_keeps) | (with_reducible first | apply each_keeps | apply foldl_keeps) | intro _ _ _ | split | (with_reducible first | apply KeepsOf.put rfl | apply KeepsOf.filter) | dsimp only [Keeps]

theorem State.lrpRespond_keeps {s₀ s : State} (h : Keeps s₀ s) (via : Via) (q : List Byte) (resp : List Byte) : Keeps s₀ (State.lrpRespond s via q resp) := by
  unfold State.lrpRespond
  try dsimp only [Keeps]
  repeat' first | (with_reducible first | assumption | apply State.keepLast_keeps | apply State.lrpSend_keeps) | (with_reducible first | apply each_keeps | apply foldl_keeps) | intro _ _ _ | split | (with_reducible first | apply KeepsOf.put rfl | apply KeepsOf.filter) | dsimp only [Keeps]

theorem State.writeEnded_keeps {s₀ s : State} (h : Keeps s₀ s) (via : Via) (q : List Byte) (src : Src) (done : Nat) (status : Nat) : Keeps s₀ (State.writeEnded s via q src done status) := by
  unfold State.writeEnded
  try dsimp only [Keeps]
  repeat' first | (with_reducible first | assumption | apply State.burstStop_keeps | apply State.lrpRespond_keeps) | (with_reducible first | apply each_keeps | apply foldl_keeps) | intro _ _ _ | split | (with_reducible first | apply KeepsOf.put rfl | apply KeepsOf.filter) | dsimp only [Keeps]

theorem State.openSession_keeps {s₀ s : State} (h : Keeps s₀ s) (port : Nat) (peer : List Byte) (q : List Byte) : Keeps s₀ (State.openSession s port peer q).1 := by
  unfold State.openSession
  try dsimp only [Keeps]
  repeat' first | (with_reducible first | assumption | apply State.draw_keeps | apply State.setSess_keeps) | (with_reducible first | apply each_keeps | apply foldl_keeps) | intro _ _ _ | split | (with_reducible first | apply KeepsOf.put rfl | apply KeepsOf.filter) | dsimp only [Keeps]

theorem State.openNow_keeps {s₀ s : State} (h : Keeps s₀ s) (via : Via) (q : List Byte) : Keeps s₀ (State.openNow s via q) := by
  unfold State.openNow
  try dsimp only [Keeps]
  repeat' first | (with_reducible first | assumption | apply State.charge_keeps | apply State.openSession_keeps | apply State.lrpRespond_keeps) | (with_reducible first | apply each_keeps | apply foldl_keeps) | intro _ _ _ | split | (with_reducible first | apply KeepsOf.put rfl | apply KeepsOf.filter) | dsimp only [Keeps]

theorem State.lrpExecute_keeps {s₀ s : State} (h : Keeps s₀ s) (via : Via) (q : List Byte) : Keeps s₀ (State.lrpExecute s via q) := by
  unfold State.lrpExecute
  split
  · split
    · split
      · exact State.openNow_keeps h _ _
      · exact h
    · exact h
  · have ht : Keeps s₀ (s.charge (lrpCharge q)) := State.charge_keeps h _
    generalize s.charge (lrpCharge q) = t at ht
    dsimp only
    split
    · exact State.lrpRespond_keeps (State.burstStop_keeps ht _ _ _ _ _ _) _ _ _
    · have k := State.writeWords_keeps via q ‹_› (lrpWords q) ht (lrpAddr q) 0
      split
      · exact k.of_fst ‹_›
      · exact State.writeEnded_keeps (k.of_fst ‹_›) _ _ _ _ _
    · exact State.openNow_keeps h _ _
    · split
      · exact State.sessEnd_keeps (State.lrpRespond_keeps ht _ _ _) _
      · exact State.lrpRespond_keeps ht _ _ _
    · exact State.lrpRespond_keeps ht _ _ _

theorem State.overrun8_keeps {s₀ s : State} (h : Keeps s₀ s) : Keeps s₀ (State.overrun8 s) := by
  unfold State.overrun8
  try dsimp only [Keeps]
  repeat' first | (with_reducible first | assumption | apply State.wf__keeps | apply State.raise_keeps) | (with_reducible first | apply each_keeps | apply foldl_keeps) | intro _ _ _ | split | (with_reducible first | apply KeepsOf.put rfl | apply KeepsOf.filter) | dsimp only [Keeps]

theorem State.lrpAdmit_keeps {s₀ s : State} (h : Keeps s₀ s) (via : Via) (q : List Byte) : Keeps s₀ (State.lrpAdmit s via q) := by
  unfold State.lrpAdmit
  try dsimp only [Keeps]
  repeat' first | (with_reducible first | assumption | apply State.lrpSend_keeps | apply State.lrpExecute_keeps | apply State.overrun8_keeps) | (with_reducible first | apply each_keeps | apply foldl_keeps) | intro _ _ _ | split | (with_reducible first | apply KeepsOf.put rfl | apply KeepsOf.filter) | dsimp only [Keeps]

theorem State.lrpFault_keeps {s₀ s : State} (h : Keeps s₀ s) (via : Via) (q : List Byte) (op : Bool) : Keeps s₀ (State.lrpFault s via q op) := by
  unfold State.lrpFault
  try dsimp only [Keeps]
  repeat' first | (with_reducible first | assumption | apply State.bump_keeps | apply State.lrpSend_keeps | apply State.raise_keeps) | (with_reducible first | apply each_keeps | apply foldl_keeps) | intro _ _ _ | split | (with_reducible first | apply KeepsOf.put rfl | apply KeepsOf.filter) | dsimp only [Keeps]

theorem State.authFail_keeps {s₀ s : State} (h : Keeps s₀ s) : Keeps s₀ (State.authFail s) := by
  unfold State.authFail
  try dsimp only [Keeps]
  repeat' first | (with_reducible first | assumption | apply State.bump_keeps | apply State.raise_keeps) | (with_reducible first | apply each_keeps | apply foldl_keeps) | intro _ _ _ | split | (with_reducible first | apply KeepsOf.put rfl | apply KeepsOf.filter) | dsimp only [Keeps]

theorem State.lrpRequest_keeps {s₀ s : State} (h : Keeps s₀ s) (via : Via) (q0 : List Byte) : Keeps s₀ (State.lrpRequest s via q0) := by
  unfold State.lrpRequest
  try dsimp only [Keeps]
  repeat' first | (with_reducible first | assumption | apply State.spi_keeps | apply State.lrpFault_keeps | apply State.lrpSend_keeps | apply State.authFail_keeps | apply State.silFrame_keeps | apply State.lrpAdmit_keeps) | (with_reducible first | apply each_keeps | apply foldl_keeps) | intro _ _ _ | split | (with_reducible first | apply KeepsOf.put rfl | apply KeepsOf.filter) | dsimp only [Keeps]

theorem State.runWaiting_keeps {s₀ s : State} (h : Keeps s₀ s) : Keeps s₀ (State.runWaiting s) := by
  unfold State.runWaiting
  try dsimp only [Keeps]
  repeat' first | (with_reducible first | assumption | apply State.lrpAdmit_keeps) | (with_reducible first | apply each_keeps | apply foldl_keeps) | intro _ _ _ | split | (with_reducible first | apply KeepsOf.put rfl | apply KeepsOf.filter) | dsimp only [Keeps]

theorem State.envelope_keeps {s₀ s : State} (h : Keeps s₀ s) (port : Nat) (peer : List Byte) (l : List Byte) : Keeps s₀ (State.envelope s port peer l) := by
  unfold State.envelope
  try dsimp only [Keeps]
  repeat' first | (with_reducible first | assumption | apply State.authFail_keeps | apply State.bump_keeps | apply State.setSess_keeps | apply State.raise_keeps | apply State.lrpRequest_keeps | apply State.sessEnd_keeps) | (with_reducible first | apply each_keeps | apply foldl_keeps) | intro _ _ _ | split | (with_reducible first | apply KeepsOf.put rfl | apply KeepsOf.filter) | dsimp only [Keeps]

theorem State.spi_keeps {s₀ s : State} (h : Keeps s₀ s) (mosi : List Byte) : Keeps s₀ (State.spi s mosi) := by
  unfold State.spi
  try dsimp only [Keeps]
  repeat' first | (with_reducible first | assumption | apply State.envelope_keeps | apply State.lrpRequest_keeps) | (with_reducible first | apply each_keeps | apply foldl_keeps) | intro _ _ _ | split | (with_reducible first | apply KeepsOf.put rfl | apply KeepsOf.filter) | dsimp only [Keeps]

theorem State.ethOpen_keeps {s₀ s : State} (h : Keeps s₀ s) (n : Nat) (peer : List Byte) (q : List Byte) : Keeps s₀ (State.ethOpen s n peer q) := by
  unfold State.ethOpen
  try dsimp only [Keeps]
  repeat' first | (with_reducible first | assumption | apply State.lrpFault_keeps | apply State.lrpAdmit_keeps) | (with_reducible first | apply each_keeps | apply foldl_keeps) | intro _ _ _ | split | (with_reducible first | apply KeepsOf.put rfl | apply KeepsOf.filter) | dsimp only [Keeps]

theorem State.ethUnknown_keeps {s₀ s : State} (h : Keeps s₀ s) (n : Nat) : Keeps s₀ (State.ethUnknown s n) := by
  unfold State.ethUnknown
  try dsimp only [Keeps]
  repeat' first | (with_reducible first | assumption | apply State.bump_keeps) | (with_reducible first | apply each_keeps | apply foldl_keeps) | intro _ _ _ | split | (with_reducible first | apply KeepsOf.put rfl | apply KeepsOf.filter) | dsimp only [Keeps]

theorem State.datagram_keeps {s₀ s : State} (h : Keeps s₀ s) (n : Nat) (peer : List Byte) (payload : List Byte) : Keeps s₀ (State.datagram s n peer payload) := by
  unfold State.datagram
  try dsimp only [Keeps]
  repeat' first | (with_reducible first | assumption | apply State.ethOpen_keeps | apply State.envelope_keeps) | (with_reducible first | apply each_keeps | apply foldl_keeps) | intro _ _ _ | split | (with_reducible first | apply KeepsOf.put rfl | apply KeepsOf.filter) | dsimp only [Keeps]

theorem State.ethTake_keeps {s₀ s : State} (h : Keeps s₀ s) (n : Nat) (f : List Byte) : Keeps s₀ (State.ethTake s n f) := by
  unfold State.ethTake
  try dsimp only [Keeps]
  repeat' first | (with_reducible first | assumption | apply State.ethUnknown_keeps | apply State.ethSend_keeps | apply State.datagram_keeps) | (with_reducible first | apply each_keeps | apply foldl_keeps) | intro _ _ _ | split | (with_reducible first | apply KeepsOf.put rfl | apply KeepsOf.filter) | dsimp only [Keeps]

theorem State.ethRx_keeps {s₀ s : State} (h : Keeps s₀ s) (n : Nat) (fcsOk : Bool) (f : List Byte) : Keeps s₀ (State.ethRx s n fcsOk f) := by
  unfold State.ethRx
  try dsimp only [Keeps]
  repeat' first | (with_reducible first | assumption | apply State.fallback_keeps | apply State.bump_keeps | apply State.ethTake_keeps) | (with_reducible first | apply each_keeps | apply foldl_keeps) | intro _ _ _ | split | (with_reducible first | apply KeepsOf.put rfl | apply KeepsOf.filter) | dsimp only [Keeps]

theorem State.ethDrain_keeps {s₀ s : State} (h : Keeps s₀ s) : Keeps s₀ (State.ethDrain s) := by
  unfold State.ethDrain
  try dsimp only [Keeps]
  repeat' first | (with_reducible first | assumption | apply State.ethTake_keeps) | (with_reducible first | apply each_keeps | apply foldl_keeps) | intro _ _ _ | split | (with_reducible first | apply KeepsOf.put rfl | apply KeepsOf.filter) | dsimp only [Keeps]

theorem State.deferredDo_keeps {s₀ s : State} (h : Keeps s₀ s) (d : Deferred) : Keeps s₀ (State.deferredDo s d) := by
  unfold State.deferredDo
  try dsimp only [Keeps]
  repeat' first | (with_reducible first | assumption | apply State.applyWrite_keeps | apply State.refuse_keeps) | (with_reducible first | apply each_keeps | apply foldl_keeps) | intro _ _ _ | split | (with_reducible first | apply KeepsOf.put rfl | apply KeepsOf.filter) | dsimp only [Keeps]

theorem State.checkedNow_keeps {s₀ s : State} (h : Keeps s₀ s) (d : Deferred) : Keeps s₀ (State.checkedNow s d) := by
  unfold State.checkedNow
  have ht : Keeps s₀ (if d.burst.isSome then s.charge 4 else s) := by
    split
    · exact State.charge_keeps h _
    · exact h
  generalize (if d.burst.isSome then s.charge 4 else s) = t at ht
  have k := State.hostWrite_keeps ht d.src d.addr d.val
  dsimp only
  split
  · exact k.of_fst ‹_›
  · exact State.writeEnded_keeps (k.of_fst ‹_›) _ _ _ _ _
  · rename_i u b e _
    have hu := k.of_fst e
    have kw := State.writeWords_keeps b.via b.req b.src b.words
      (State.charge_keeps hu (4 * wordsBefore b.words.length b.addr)) b.addr (b.done + 1)
    split
    · exact kw.of_fst ‹_›
    · exact State.writeEnded_keeps (kw.of_fst ‹_›) _ _ _ _ _

theorem State.deferredNow_keeps {s₀ s : State} (h : Keeps s₀ s) : Keeps s₀ (State.deferredNow s).1 := by
  unfold State.deferredNow
  try dsimp only [Keeps]
  repeat' first | (with_reducible first | assumption | apply State.deferredDo_keeps) | (with_reducible first | apply each_keeps | apply foldl_keeps) | intro _ _ _ | split | (with_reducible first | apply KeepsOf.put rfl | apply KeepsOf.filter) | dsimp only [Keeps]

theorem State.checkedDrop_keeps {s₀ s : State} (h : Keeps s₀ s) (d : Deferred) : Keeps s₀ (State.checkedDrop s d) := by
  unfold State.checkedDrop
  try dsimp only [Keeps]
  repeat' first | (with_reducible first | assumption | apply State.refuse_keeps | apply State.writeEnded_keeps) | (with_reducible first | apply each_keeps | apply foldl_keeps) | intro _ _ _ | split | (with_reducible first | apply KeepsOf.put rfl | apply KeepsOf.filter) | dsimp only [Keeps]

theorem State.checkedAll_keeps {s₀ s : State} (h : Keeps s₀ s) (l : List Deferred) (tripped : Bool) : Keeps s₀ (State.checkedAll s l tripped) := by
  unfold State.checkedAll
  try dsimp only [Keeps]
  repeat' first | (with_reducible first | assumption | apply State.deferredDo_keeps | apply State.checkedDrop_keeps | apply State.checkedNow_keeps) | (with_reducible first | apply each_keeps | apply foldl_keeps) | intro _ _ _ | split | (with_reducible first | apply KeepsOf.put rfl | apply KeepsOf.filter) | dsimp only [Keeps]

end Sys2Proof.Machine
end

