-- ==== Sys2Proof/Laws/KeepsTickOps.lean ====
section
/-! SUPPORT. The operations of Machine/TickOps.lean keep the store canonical and the queue as it is. -/

set_option linter.unusedTactic false
set_option linter.unreachableTactic false

namespace Sys2Proof.Machine

theorem State.tickBegin_keeps {s₀ s : State} (h : Keeps s₀ s) : Keeps s₀ (State.tickBegin s) := by
  unfold State.tickBegin
  try dsimp only [Keeps]
  repeat' first | (with_reducible first | assumption | apply State.fallback_keeps) | (with_reducible first | apply each_keeps | apply foldl_keeps) | intro _ _ _ | split | (with_reducible first | apply KeepsOf.put rfl | apply KeepsOf.filter) | dsimp only [Keeps]

theorem State.holdLevel_keeps {s₀ s : State} (h : Keeps s₀ s) : Keeps s₀ (State.holdLevel s) := by
  unfold State.holdLevel
  try dsimp only [Keeps]
  repeat' first | (with_reducible first | assumption | apply State.motHoldNow_keeps) | (with_reducible first | apply each_keeps | apply foldl_keeps) | intro _ _ _ | split | (with_reducible first | apply KeepsOf.put rfl | apply KeepsOf.filter) | dsimp only [Keeps]

theorem State.trunDue_keeps {s₀ s : State} (h : Keeps s₀ s) : Keeps s₀ (State.trunDue s) := by
  unfold State.trunDue
  try dsimp only [Keeps]
  repeat' first | (with_reducible first | assumption | apply State.trunNow_keeps) | (with_reducible first | apply each_keeps | apply foldl_keeps) | intro _ _ _ | split | (with_reducible first | apply KeepsOf.put rfl | apply KeepsOf.filter) | dsimp only [Keeps]

theorem State.phaseFusion_keeps {s₀ s : State} (h : Keeps s₀ s) (i : TickIn) : Keeps s₀ (State.phaseFusion s i) := by
  unfold State.phaseFusion
  try dsimp only [Keeps]
  repeat' first | (with_reducible first | assumption | apply State.homeCapture_keeps | apply State.homeChatter_keeps | apply State.fusion_keeps | apply State.followNote_keeps | apply State.motWaits_keeps) | (with_reducible first | apply each_keeps | apply foldl_keeps) | intro _ _ _ | split | (with_reducible first | apply KeepsOf.put rfl | apply KeepsOf.filter) | dsimp only [Keeps]

theorem State.stopEvalHeld_keeps {s₀ s : State} (h : Keeps s₀ s) (before : Mot) : Keeps s₀ (State.stopEvalHeld s before) := by
  unfold State.stopEvalHeld
  try dsimp only [Keeps]
  repeat' first | (with_reducible first | assumption | apply State.spFollow_keeps | apply State.stopEval_keeps | apply State.motTrip_keeps) | (with_reducible first | apply each_keeps | apply foldl_keeps) | intro _ _ _ | split | (with_reducible first | apply KeepsOf.put rfl | apply KeepsOf.filter) | dsimp only [Keeps]

theorem State.phaseStop_keeps {s₀ s : State} (h : Keeps s₀ s) (before : Mot) : Keeps s₀ (State.phaseStop s before) := by
  unfold State.phaseStop
  try dsimp only [Keeps]
  repeat' first | (with_reducible first | assumption | apply State.stopEvalHeld_keeps | apply State.bypassNote_keeps | apply State.oosSafeCheck_keeps | apply State.nocallNote_keeps) | (with_reducible first | apply each_keeps | apply foldl_keeps) | intro _ _ _ | split | (with_reducible first | apply KeepsOf.put rfl | apply KeepsOf.filter) | dsimp only [Keeps]

theorem State.relevSettle_keeps {s₀ s : State} (h : Keeps s₀ s) : Keeps s₀ (State.relevSettle s) := by
  unfold State.relevSettle
  try dsimp only [Keeps]
  repeat' first | (with_reducible first | assumption | apply State.relevStart_keeps | apply State.schRelevFail_keeps) | (with_reducible first | apply each_keeps | apply foldl_keeps) | intro _ _ _ | split | (with_reducible first | apply KeepsOf.put rfl | apply KeepsOf.filter) | dsimp only [Keeps]

theorem State.tripResolve_keeps {s₀ s : State} (h : Keeps s₀ s) : Keeps s₀ (State.tripResolve s) := by
  unfold State.tripResolve
  try dsimp only [Keeps]
  repeat' first | (with_reducible first | assumption | apply State.motResolve_keeps | apply State.schReached_keeps) | (with_reducible first | apply each_keeps | apply foldl_keeps) | intro _ _ _ | split | (with_reducible first | apply KeepsOf.put rfl | apply KeepsOf.filter) | dsimp only [Keeps]

theorem State.phaseSet_keeps {s₀ s : State} (h : Keeps s₀ s) : Keeps s₀ (State.phaseSet s) := by
  unfold State.phaseSet
  try dsimp only [Keeps]
  repeat' first | (with_reducible first | assumption | apply State.trunDue_keeps | apply State.holdLevel_keeps | apply State.tripResolve_keeps | apply State.holdingEnd_keeps | apply State.relevSettle_keeps | apply State.motSetPoint_keeps | apply State.drvPeriod_keeps | apply State.tractionLatch_keeps) | (with_reducible first | apply each_keeps | apply foldl_keeps) | intro _ _ _ | split | (with_reducible first | apply KeepsOf.put rfl | apply KeepsOf.filter) | dsimp only [Keeps]

theorem State.phaseDoors_keeps {s₀ s : State} (h : Keeps s₀ s) : Keeps s₀ (State.phaseDoors s) := by
  unfold State.phaseDoors
  try dsimp only [Keeps]
  repeat' first | (with_reducible first | assumption | apply State.doorMaster_keeps | apply State.doorProfile_keeps | apply State.proofStep_keeps) | (with_reducible first | apply each_keeps | apply foldl_keeps) | intro _ _ _ | split | (with_reducible first | apply KeepsOf.put rfl | apply KeepsOf.filter) | dsimp only [Keeps]

theorem State.tickRun_keeps {s₀ s : State} (h : Keeps s₀ s) (i : TickIn) (tripped : Bool) : Keeps s₀ (State.tickRun s i tripped) := by
  unfold State.tickRun
  try dsimp only [Keeps]
  repeat' first | (with_reducible first | assumption | apply State.awardsBy_keeps | apply State.ciaSync_keeps | apply State.analogOut_keeps | apply State.linkFinish_keeps | apply State.queryTick_keeps | apply State.landedTick_keeps | apply State.deferredNow_keeps | apply State.schSlot_keeps | apply State.recTick_keeps | apply State.phaseFusion_keeps | apply State.phaseStop_keeps | apply State.checkedAll_keeps | apply State.keyStep_keeps | apply State.phaseDoors_keeps | apply State.bidTick_keeps | apply State.partTick_keeps | apply State.phaseSet_keeps) | (with_reducible first | apply each_keeps | apply foldl_keeps) | intro _ _ _ | split | (with_reducible first | apply KeepsOf.put rfl | apply KeepsOf.filter) | dsimp only [Keeps]

theorem State.tickPark_keeps {s₀ s : State} (h : Keeps s₀ s) : Keeps s₀ (State.tickPark s) := by
  unfold State.tickPark
  try dsimp only [Keeps]
  repeat' first | (with_reducible first | assumption | apply State.deferredNow_keeps | apply State.recTick_keeps | apply State.checkedAll_keeps | apply State.keyStep_keeps | apply State.partTick_keeps) | (with_reducible first | apply each_keeps | apply foldl_keeps) | intro _ _ _ | split | (with_reducible first | apply KeepsOf.put rfl | apply KeepsOf.filter) | dsimp only [Keeps]

theorem State.servoTick_keeps {s₀ s : State} (h : Keeps s₀ s) (i : TickIn) : Keeps s₀ (State.servoTick s i) := by
  unfold State.servoTick
  try dsimp only [Keeps]
  repeat' first | (with_reducible first | assumption | apply State.opTick_keeps | apply State.tickBegin_keeps | apply State.tickRun_keeps | apply State.tickPark_keeps | apply State.ethDrain_keeps | apply State.runWaiting_keeps) | (with_reducible first | apply each_keeps | apply foldl_keeps) | intro _ _ _ | split | (with_reducible first | apply KeepsOf.put rfl | apply KeepsOf.filter) | dsimp only [Keeps]

end Sys2Proof.Machine
end

