-- ==== Sys2Proof/Laws/KeepsElectrum.lean ====
section
/-! SUPPORT. The operations of Machine/Electrum.lean keep the store canonical and the queue as it is. -/

set_option linter.unusedTactic false
set_option linter.unreachableTactic false

namespace Sys2Proof.Machine

theorem execServoTick_keeps (i : TickIn) (s : State) : Answers s (execServoTick i s) := by
  have h := Keeps.refl s
  unfold execServoTick
  refine ⟨_, rfl, ?_⟩
  try dsimp only [Keeps]
  repeat' first | (with_reducible first | assumption | apply State.servoTick_keeps) | (with_reducible first | apply each_keeps | apply foldl_keeps) | intro _ _ _ | split | (with_reducible first | apply KeepsOf.put rfl | apply KeepsOf.filter) | dsimp only [Keeps]

theorem State.deadlineMiss_keeps {s₀ s : State} (h : Keeps s₀ s) : Keeps s₀ (State.deadlineMiss s) := by
  unfold State.deadlineMiss
  try dsimp only [Keeps]
  repeat' first | (with_reducible first | assumption | apply State.raise_keeps | apply State.tripModule_keeps) | (with_reducible first | apply each_keeps | apply foldl_keeps) | intro _ _ _ | split | (with_reducible first | apply KeepsOf.put rfl | apply KeepsOf.filter) | dsimp only [Keeps]

theorem execPhaseDeadlineMiss_keeps (master : Nat) (s : State) : Answers s (execPhaseDeadlineMiss master s) := by
  have h := Keeps.refl s
  unfold execPhaseDeadlineMiss
  refine ⟨_, rfl, ?_⟩
  try dsimp only [Keeps]
  repeat' first | (with_reducible first | assumption | apply State.deadlineMiss_keeps) | (with_reducible first | apply each_keeps | apply foldl_keeps) | intro _ _ _ | split | (with_reducible first | apply KeepsOf.put rfl | apply KeepsOf.filter) | dsimp only [Keeps]

theorem execElectrumCycle_keeps (i : ElIn) (s : State) : Answers s (execElectrumCycle i s) := by
  have h := Keeps.refl s
  unfold execElectrumCycle
  refine ⟨_, rfl, ?_⟩
  try dsimp only [Keeps]
  repeat' first | (with_reducible first | assumption | apply State.elCycle_keeps) | (with_reducible first | apply each_keeps | apply foldl_keeps) | intro _ _ _ | split | (with_reducible first | apply KeepsOf.put rfl | apply KeepsOf.filter) | dsimp only [Keeps]

theorem execStrobeTimeout_keeps (_early : Bool) (s : State) : Answers s (execStrobeTimeout _early s) := by
  have h := Keeps.refl s
  unfold execStrobeTimeout
  refine ⟨_, rfl, ?_⟩
  try dsimp only [Keeps]
  repeat' first | (with_reducible first | assumption | apply State.trip_keeps) | (with_reducible first | apply each_keeps | apply foldl_keeps) | intro _ _ _ | split | (with_reducible first | apply KeepsOf.put rfl | apply KeepsOf.filter) | dsimp only [Keeps]

theorem execElectrumStartComplete_keeps (selfTestsPass : Bool) (digestA : Word) (digestB : Word) (s : State) : Answers s (execElectrumStartComplete selfTestsPass digestA digestB s) := by
  have h := Keeps.refl s
  unfold execElectrumStartComplete
  refine ⟨_, rfl, ?_⟩
  try dsimp only [Keeps]
  repeat' first | (with_reducible first | assumption | apply State.elStart_keeps) | (with_reducible first | apply each_keeps | apply foldl_keeps) | intro _ _ _ | split | (with_reducible first | apply KeepsOf.put rfl | apply KeepsOf.filter) | dsimp only [Keeps]

theorem execSafeResetCmd_keeps (src : Src) (s : State) : Answers s (execSafeResetCmd src s) := by
  have h := Keeps.refl s
  unfold execSafeResetCmd
  refine ⟨_, rfl, ?_⟩
  try dsimp only [Keeps]
  repeat' first | (with_reducible first | assumption | apply State.command_keeps) | (with_reducible first | apply each_keeps | apply foldl_keeps) | intro _ _ _ | split | (with_reducible first | apply KeepsOf.put rfl | apply KeepsOf.filter) | dsimp only [Keeps]

theorem execAutoReset_keeps  (s : State) : Answers s (execAutoReset s) := by
  have h := Keeps.refl s
  unfold execAutoReset
  refine ⟨_, rfl, ?_⟩
  try dsimp only [Keeps]
  repeat' first | (with_reducible first | assumption | apply State.elClear_keeps) | (with_reducible first | apply each_keeps | apply foldl_keeps) | intro _ _ _ | split | (with_reducible first | apply KeepsOf.put rfl | apply KeepsOf.filter) | dsimp only [Keeps]

theorem execKeyRstInput_keeps (heldMs : Nat) (s : State) : Answers s (execKeyRstInput heldMs s) := by
  have h := Keeps.refl s
  unfold execKeyRstInput
  refine ⟨_, rfl, ?_⟩
  try dsimp only [Keeps]
  repeat' first | (with_reducible first | assumption | apply State.elClear_keeps) | (with_reducible first | apply each_keeps | apply foldl_keeps) | intro _ _ _ | split | (with_reducible first | apply KeepsOf.put rfl | apply KeepsOf.filter) | dsimp only [Keeps]

theorem State.pitResetNow_keeps {s₀ s : State} (h : Keeps s₀ s) : Keeps s₀ (State.pitResetNow s) := by
  unfold State.pitResetNow
  try dsimp only [Keeps]
  repeat' first | (with_reducible first | assumption | apply State.elClear_keeps) | (with_reducible first | apply each_keeps | apply foldl_keeps) | intro _ _ _ | split | (with_reducible first | apply KeepsOf.put rfl | apply KeepsOf.filter) | dsimp only [Keeps]

theorem execPitReset_keeps  (s : State) : Answers s (execPitReset s) := by
  have h := Keeps.refl s
  unfold execPitReset
  refine ⟨_, rfl, ?_⟩
  try dsimp only [Keeps]
  repeat' first | (with_reducible first | assumption | apply State.pitResetNow_keeps) | (with_reducible first | apply each_keeps | apply foldl_keeps) | intro _ _ _ | split | (with_reducible first | apply KeepsOf.put rfl | apply KeepsOf.filter) | dsimp only [Keeps]

theorem execTestPulse_keeps (slot : Nat) (nodeLow : Bool) (demand : PulseDemand) (s : State) : Answers s (execTestPulse slot nodeLow demand s) := by
  have h := Keeps.refl s
  unfold execTestPulse
  refine ⟨_, rfl, ?_⟩
  try dsimp only [Keeps]
  repeat' first | (with_reducible first | assumption | apply State.testPulseNow_keeps) | (with_reducible first | apply each_keeps | apply foldl_keeps) | intro _ _ _ | split | (with_reducible first | apply KeepsOf.put rfl | apply KeepsOf.filter) | dsimp only [Keeps]

theorem execModeNormalReturn_keeps  (s : State) : Answers s (execModeNormalReturn s) := by
  have h := Keeps.refl s
  unfold execModeNormalReturn
  refine ⟨_, rfl, ?_⟩
  try dsimp only [Keeps]
  repeat' first | (with_reducible first | assumption | apply State.modeInto_keeps) | (with_reducible first | apply each_keeps | apply foldl_keeps) | intro _ _ _ | split | (with_reducible first | apply KeepsOf.put rfl | apply KeepsOf.filter) | dsimp only [Keeps]

theorem execDegradedExpired_keeps (mode : DegMode) (s : State) : Answers s (execDegradedExpired mode s) := by
  have h := Keeps.refl s
  unfold execDegradedExpired
  refine ⟨_, rfl, ?_⟩
  try dsimp only [Keeps]
  repeat' first | (with_reducible first | assumption | apply State.degExpire_keeps) | (with_reducible first | apply each_keeps | apply foldl_keeps) | intro _ _ _ | split | (with_reducible first | apply KeepsOf.put rfl | apply KeepsOf.filter) | dsimp only [Keeps]

theorem execDegradedTimerClear_keeps (mode : DegMode) (s : State) : Answers s (execDegradedTimerClear mode s) := by
  have h := Keeps.refl s
  unfold execDegradedTimerClear
  refine ⟨_, rfl, ?_⟩
  try dsimp only [Keeps]
  repeat' first | (with_reducible first | assumption | apply State.degClear_keeps) | (with_reducible first | apply each_keeps | apply foldl_keeps) | intro _ _ _ | split | (with_reducible first | apply KeepsOf.put rfl | apply KeepsOf.filter) | dsimp only [Keeps]

theorem execNearestLandingRun_keeps  (s : State) : Answers s (execNearestLandingRun s) := by
  have h := Keeps.refl s
  unfold execNearestLandingRun
  refine ⟨_, rfl, ?_⟩
  try dsimp only [Keeps]
  repeat' first | (with_reducible first | assumption | apply State.nearestStart_keeps) | (with_reducible first | apply each_keeps | apply foldl_keeps) | intro _ _ _ | split | (with_reducible first | apply KeepsOf.put rfl | apply KeepsOf.filter) | dsimp only [Keeps]

theorem execPairMismatch_keeps (pair : Nat) (s : State) : Answers s (execPairMismatch pair s) := by
  have h := Keeps.refl s
  unfold execPairMismatch
  refine ⟨_, rfl, ?_⟩
  try dsimp only [Keeps]
  repeat' first | (with_reducible first | assumption | apply State.trip_keeps) | (with_reducible first | apply each_keeps | apply foldl_keeps) | intro _ _ _ | split | (with_reducible first | apply KeepsOf.put rfl | apply KeepsOf.filter) | dsimp only [Keeps]

theorem execChannelDisagree_keeps  (s : State) : Answers s (execChannelDisagree s) := by
  have h := Keeps.refl s
  unfold execChannelDisagree
  refine ⟨_, rfl, ?_⟩
  try dsimp only [Keeps]
  repeat' first | (with_reducible first | assumption | apply State.trip_keeps) | (with_reducible first | apply each_keeps | apply foldl_keeps) | intro _ _ _ | split | (with_reducible first | apply KeepsOf.put rfl | apply KeepsOf.filter) | dsimp only [Keeps]

theorem State.absLost_keeps {s₀ s : State} (h : Keeps s₀ s) (c : Chan) : Keeps s₀ (State.absLost s c) := by
  unfold State.absLost
  try dsimp only [Keeps]
  repeat' first | (with_reducible first | assumption ) | (with_reducible first | apply each_keeps | apply foldl_keeps) | intro _ _ _ | split | (with_reducible first | apply KeepsOf.put rfl | apply KeepsOf.filter) | dsimp only [Keeps]

theorem execAbsTimeout_keeps (ch : Chan) (s : State) : Answers s (execAbsTimeout ch s) := by
  have h := Keeps.refl s
  unfold execAbsTimeout
  refine ⟨_, rfl, ?_⟩
  try dsimp only [Keeps]
  repeat' first | (with_reducible first | assumption | apply State.absLost_keeps) | (with_reducible first | apply each_keeps | apply foldl_keeps) | intro _ _ _ | split | (with_reducible first | apply KeepsOf.put rfl | apply KeepsOf.filter) | dsimp only [Keeps]

theorem execMirrorTimeout_keeps (output : Nat) (s : State) : Answers s (execMirrorTimeout output s) := by
  have h := Keeps.refl s
  unfold execMirrorTimeout
  refine ⟨_, rfl, ?_⟩
  try dsimp only [Keeps]
  repeat' first | (with_reducible first | assumption | apply State.trip_keeps) | (with_reducible first | apply each_keeps | apply foldl_keeps) | intro _ _ _ | split | (with_reducible first | apply KeepsOf.put rfl | apply KeepsOf.filter) | dsimp only [Keeps]

theorem execStoFbTimeout_keeps  (s : State) : Answers s (execStoFbTimeout s) := by
  have h := Keeps.refl s
  unfold execStoFbTimeout
  refine ⟨_, rfl, ?_⟩
  try dsimp only [Keeps]
  repeat' first | (with_reducible first | assumption | apply State.trip_keeps) | (with_reducible first | apply each_keeps | apply foldl_keeps) | intro _ _ _ | split | (with_reducible first | apply KeepsOf.put rfl | apply KeepsOf.filter) | dsimp only [Keeps]

theorem execDcmPlaus_keeps (side : Chan) (s : State) : Answers s (execDcmPlaus side s) := by
  have h := Keeps.refl s
  unfold execDcmPlaus
  refine ⟨_, rfl, ?_⟩
  try dsimp only [Keeps]
  repeat' first | (with_reducible first | assumption | apply State.trip_keeps) | (with_reducible first | apply each_keeps | apply foldl_keeps) | intro _ _ _ | split | (with_reducible first | apply KeepsOf.put rfl | apply KeepsOf.filter) | dsimp only [Keeps]

theorem execSafeConfigWrite_keeps (src : Src) (offset : BitVec 12) (val : Word) (s : State) : Answers s (execSafeConfigWrite src offset val s) := by
  have h := Keeps.refl s
  unfold execSafeConfigWrite
  refine ⟨_, rfl, ?_⟩
  try dsimp only [Keeps]
  repeat' first | (with_reducible first | assumption | apply State.command_keeps) | (with_reducible first | apply each_keeps | apply foldl_keeps) | intro _ _ _ | split | (with_reducible first | apply KeepsOf.put rfl | apply KeepsOf.filter) | dsimp only [Keeps]

end Sys2Proof.Machine
end

