-- ==== Sys2Proof/Laws/KeepsHostPort.lean ====
section
/-! SUPPORT. The operations of Machine/HostPort.lean keep the store canonical and the queue as it is. -/

set_option linter.unusedTactic false
set_option linter.unreachableTactic false

namespace Sys2Proof.Machine

theorem execHostRegisterWrite_keeps (src : Src) (addr : Addr) (val : BusWord) (s : State) : Answers s (execHostRegisterWrite src addr val s) := by
  have h := Keeps.refl s
  unfold execHostRegisterWrite
  refine ⟨_, rfl, ?_⟩
  try dsimp only [Keeps]
  repeat' first | (with_reducible first | assumption | apply State.registerWrite_keeps) | (with_reducible first | apply each_keeps | apply foldl_keeps) | intro _ _ _ | split | (with_reducible first | apply KeepsOf.put rfl | apply KeepsOf.filter) | dsimp only [Keeps]

theorem execErrClear_keeps (src : Src) (page : BitVec 8) (val : Word) (s : State) : Answers s (execErrClear src page val s) := by
  have h := Keeps.refl s
  unfold execErrClear
  refine ⟨_, rfl, ?_⟩
  try dsimp only [Keeps]
  repeat' first | (with_reducible first | assumption | apply State.command_keeps) | (with_reducible first | apply each_keeps | apply foldl_keeps) | intro _ _ _ | split | (with_reducible first | apply KeepsOf.put rfl | apply KeepsOf.filter) | dsimp only [Keeps]

theorem execHlockSet_keeps (src : Src) (page : BitVec 8) (s : State) : Answers s (execHlockSet src page s) := by
  have h := Keeps.refl s
  unfold execHlockSet
  refine ⟨_, rfl, ?_⟩
  try dsimp only [Keeps]
  repeat' first | (with_reducible first | assumption | apply State.command_keeps) | (with_reducible first | apply each_keeps | apply foldl_keeps) | intro _ _ _ | split | (with_reducible first | apply KeepsOf.put rfl | apply KeepsOf.filter) | dsimp only [Keeps]

theorem execHlockUnlock_keeps (src : Src) (page : BitVec 8) (key : BitVec 16) (s : State) : Answers s (execHlockUnlock src page key s) := by
  have h := Keeps.refl s
  unfold execHlockUnlock
  refine ⟨_, rfl, ?_⟩
  try dsimp only [Keeps]
  repeat' first | (with_reducible first | assumption | apply State.command_keeps) | (with_reducible first | apply each_keeps | apply foldl_keeps) | intro _ _ _ | split | (with_reducible first | apply KeepsOf.put rfl | apply KeepsOf.filter) | dsimp only [Keeps]

theorem execLrpRead_keeps (via : Via) (req : List Byte) (s : State) : Answers s (execLrpRead via req s) := by
  have h := Keeps.refl s
  unfold execLrpRead
  refine ⟨_, rfl, ?_⟩
  try dsimp only [Keeps]
  repeat' first | (with_reducible first | assumption | apply State.lrpRequest_keeps) | (with_reducible first | apply each_keeps | apply foldl_keeps) | intro _ _ _ | split | (with_reducible first | apply KeepsOf.put rfl | apply KeepsOf.filter) | dsimp only [Keeps]

theorem execLrpWrite_keeps (via : Via) (req : List Byte) (s : State) : Answers s (execLrpWrite via req s) := by
  have h := Keeps.refl s
  unfold execLrpWrite
  refine ⟨_, rfl, ?_⟩
  try dsimp only [Keeps]
  repeat' first | (with_reducible first | assumption | apply State.lrpRequest_keeps) | (with_reducible first | apply each_keeps | apply foldl_keeps) | intro _ _ _ | split | (with_reducible first | apply KeepsOf.put rfl | apply KeepsOf.filter) | dsimp only [Keeps]

theorem execLrpOpen_keeps (port : Nat) (req : List Byte) (s : State) : Answers s (execLrpOpen port req s) := by
  have h := Keeps.refl s
  unfold execLrpOpen
  refine ⟨_, rfl, ?_⟩
  try dsimp only [Keeps]
  repeat' first | (with_reducible first | assumption | apply State.lrpRequest_keeps | apply State.spi_keeps | apply State.ethOpen_keeps) | (with_reducible first | apply each_keeps | apply foldl_keeps) | intro _ _ _ | split | (with_reducible first | apply KeepsOf.put rfl | apply KeepsOf.filter) | dsimp only [Keeps]

theorem execLrpClose_keeps (via : Via) (req : List Byte) (s : State) : Answers s (execLrpClose via req s) := by
  have h := Keeps.refl s
  unfold execLrpClose
  refine ⟨_, rfl, ?_⟩
  try dsimp only [Keeps]
  repeat' first | (with_reducible first | assumption | apply State.lrpRequest_keeps) | (with_reducible first | apply each_keeps | apply foldl_keeps) | intro _ _ _ | split | (with_reducible first | apply KeepsOf.put rfl | apply KeepsOf.filter) | dsimp only [Keeps]

theorem execLrpNop_keeps (via : Via) (req : List Byte) (s : State) : Answers s (execLrpNop via req s) := by
  have h := Keeps.refl s
  unfold execLrpNop
  refine ⟨_, rfl, ?_⟩
  try dsimp only [Keeps]
  repeat' first | (with_reducible first | assumption | apply State.lrpRequest_keeps) | (with_reducible first | apply each_keeps | apply foldl_keeps) | intro _ _ _ | split | (with_reducible first | apply KeepsOf.put rfl | apply KeepsOf.filter) | dsimp only [Keeps]

theorem execLrpInvalidOp_keeps (via : Via) (req : List Byte) (s : State) : Answers s (execLrpInvalidOp via req s) := by
  have h := Keeps.refl s
  unfold execLrpInvalidOp
  refine ⟨_, rfl, ?_⟩
  try dsimp only [Keeps]
  repeat' first | (with_reducible first | assumption | apply State.lrpRequest_keeps) | (with_reducible first | apply each_keeps | apply foldl_keeps) | intro _ _ _ | split | (with_reducible first | apply KeepsOf.put rfl | apply KeepsOf.filter) | dsimp only [Keeps]

theorem execSpiTransaction_keeps (mosi : List Byte) (s : State) : Answers s (execSpiTransaction mosi s) := by
  have h := Keeps.refl s
  unfold execSpiTransaction
  refine ⟨_, rfl, ?_⟩
  try dsimp only [Keeps]
  repeat' first | (with_reducible first | assumption | apply State.spi_keeps) | (with_reducible first | apply each_keeps | apply foldl_keeps) | intro _ _ _ | split | (with_reducible first | apply KeepsOf.put rfl | apply KeepsOf.filter) | dsimp only [Keeps]

theorem execSessionEnvelope_keeps (port : Nat) (bytes : List Byte) (s : State) : Answers s (execSessionEnvelope port bytes s) := by
  have h := Keeps.refl s
  unfold execSessionEnvelope
  refine ⟨_, rfl, ?_⟩
  try dsimp only [Keeps]
  repeat' first | (with_reducible first | assumption | apply State.envelope_keeps) | (with_reducible first | apply each_keeps | apply foldl_keeps) | intro _ _ _ | split | (with_reducible first | apply KeepsOf.put rfl | apply KeepsOf.filter) | dsimp only [Keeps]

theorem execEthFrameRx_keeps (port : Nat) (fcsOk : Bool) (bytes : List Byte) (s : State) : Answers s (execEthFrameRx port fcsOk bytes s) := by
  have h := Keeps.refl s
  unfold execEthFrameRx
  refine ⟨_, rfl, ?_⟩
  try dsimp only [Keeps]
  repeat' first | (with_reducible first | assumption | apply State.ethRx_keeps) | (with_reducible first | apply each_keeps | apply foldl_keeps) | intro _ _ _ | split | (with_reducible first | apply KeepsOf.put rfl | apply KeepsOf.filter) | dsimp only [Keeps]

theorem execEthLinkChange_keeps (port : Nat) (up : Bool) (amp24 : Bool) (sqi : BitVec 3) (s : State) : Answers s (execEthLinkChange port up amp24 sqi s) := by
  have h := Keeps.refl s
  unfold execEthLinkChange
  refine ⟨_, rfl, ?_⟩
  try dsimp only [Keeps]
  repeat' first | (with_reducible first | assumption | apply State.ethLink_keeps) | (with_reducible first | apply each_keeps | apply foldl_keeps) | intro _ _ _ | split | (with_reducible first | apply KeepsOf.put rfl | apply KeepsOf.filter) | dsimp only [Keeps]

theorem execEthFarFault_keeps (on : Bool) (s : State) : Answers s (execEthFarFault on s) := by
  have h := Keeps.refl s
  unfold execEthFarFault
  refine ⟨_, rfl, ?_⟩
  try dsimp only [Keeps]
  repeat' first | (with_reducible first | assumption | apply State.wf__keeps | apply State.raise_keeps) | (with_reducible first | apply each_keeps | apply foldl_keeps) | intro _ _ _ | split | (with_reducible first | apply KeepsOf.put rfl | apply KeepsOf.filter) | dsimp only [Keeps]

theorem execSessionPendingTimeout_keeps (i : Nat) (s : State) : Answers s (execSessionPendingTimeout i s) := by
  have h := Keeps.refl s
  unfold execSessionPendingTimeout
  refine ⟨_, rfl, ?_⟩
  try dsimp only [Keeps]
  repeat' first | (with_reducible first | assumption | apply State.sessEnd_keeps) | (with_reducible first | apply each_keeps | apply foldl_keeps) | intro _ _ _ | split | (with_reducible first | apply KeepsOf.put rfl | apply KeepsOf.filter) | dsimp only [Keeps]

theorem execSessionTimeout_keeps (i : Nat) (s : State) : Answers s (execSessionTimeout i s) := by
  have h := Keeps.refl s
  unfold execSessionTimeout
  refine ⟨_, rfl, ?_⟩
  try dsimp only [Keeps]
  repeat' first | (with_reducible first | assumption | apply State.sessEnd_keeps) | (with_reducible first | apply each_keeps | apply foldl_keeps) | intro _ _ _ | split | (with_reducible first | apply KeepsOf.put rfl | apply KeepsOf.filter) | dsimp only [Keeps]

theorem execHostSealOpen_keeps (src : Src) (s : State) : Answers s (execHostSealOpen src s) := by
  have h := Keeps.refl s
  unfold execHostSealOpen
  refine ⟨_, rfl, ?_⟩
  try dsimp only [Keeps]
  repeat' first | (with_reducible first | assumption | apply State.command_keeps) | (with_reducible first | apply each_keeps | apply foldl_keeps) | intro _ _ _ | split | (with_reducible first | apply KeepsOf.put rfl | apply KeepsOf.filter) | dsimp only [Keeps]

theorem execHostCloseOthers_keeps (src : Src) (s : State) : Answers s (execHostCloseOthers src s) := by
  have h := Keeps.refl s
  unfold execHostCloseOthers
  refine ⟨_, rfl, ?_⟩
  try dsimp only [Keeps]
  repeat' first | (with_reducible first | assumption | apply State.command_keeps) | (with_reducible first | apply each_keeps | apply foldl_keeps) | intro _ _ _ | split | (with_reducible first | apply KeepsOf.put rfl | apply KeepsOf.filter) | dsimp only [Keeps]

theorem execHostCntClr_keeps (src : Src) (s : State) : Answers s (execHostCntClr src s) := by
  have h := Keeps.refl s
  unfold execHostCntClr
  refine ⟨_, rfl, ?_⟩
  try dsimp only [Keeps]
  repeat' first | (with_reducible first | assumption | apply State.command_keeps) | (with_reducible first | apply each_keeps | apply foldl_keeps) | intro _ _ _ | split | (with_reducible first | apply KeepsOf.put rfl | apply KeepsOf.filter) | dsimp only [Keeps]

theorem execEthCntClr_keeps (src : Src) (port : Nat) (s : State) : Answers s (execEthCntClr src port s) := by
  have h := Keeps.refl s
  unfold execEthCntClr
  refine ⟨_, rfl, ?_⟩
  try dsimp only [Keeps]
  repeat' first | (with_reducible first | assumption | apply State.command_keeps) | (with_reducible first | apply each_keeps | apply foldl_keeps) | intro _ _ _ | split | (with_reducible first | apply KeepsOf.put rfl | apply KeepsOf.filter) | dsimp only [Keeps]

theorem execEthReneg_keeps (src : Src) (port : Nat) (s : State) : Answers s (execEthReneg src port s) := by
  have h := Keeps.refl s
  unfold execEthReneg
  refine ⟨_, rfl, ?_⟩
  try dsimp only [Keeps]
  repeat' first | (with_reducible first | assumption | apply State.command_keeps) | (with_reducible first | apply each_keeps | apply foldl_keeps) | intro _ _ _ | split | (with_reducible first | apply KeepsOf.put rfl | apply KeepsOf.filter) | dsimp only [Keeps]

theorem execXbarClrPeak_keeps (src : Src) (s : State) : Answers s (execXbarClrPeak src s) := by
  have h := Keeps.refl s
  unfold execXbarClrPeak
  refine ⟨_, rfl, ?_⟩
  try dsimp only [Keeps]
  repeat' first | (with_reducible first | assumption | apply State.command_keeps) | (with_reducible first | apply each_keeps | apply foldl_keeps) | intro _ _ _ | split | (with_reducible first | apply KeepsOf.put rfl | apply KeepsOf.filter) | dsimp only [Keeps]

theorem execXbarClrFlt_keeps (src : Src) (s : State) : Answers s (execXbarClrFlt src s) := by
  have h := Keeps.refl s
  unfold execXbarClrFlt
  refine ⟨_, rfl, ?_⟩
  try dsimp only [Keeps]
  repeat' first | (with_reducible first | assumption | apply State.command_keeps) | (with_reducible first | apply each_keeps | apply foldl_keeps) | intro _ _ _ | split | (with_reducible first | apply KeepsOf.put rfl | apply KeepsOf.filter) | dsimp only [Keeps]

theorem State.exhausted_keeps {s₀ s : State} (h : Keeps s₀ s) (m : Nat) : Keeps s₀ (State.exhausted s m) := by
  unfold State.exhausted
  try dsimp only [Keeps]
  repeat' first | (with_reducible first | assumption | apply State.wf__keeps | apply State.raise_keeps | apply State.deadlineMiss_keeps) | (with_reducible first | apply each_keeps | apply foldl_keeps) | intro _ _ _ | split | (with_reducible first | apply KeepsOf.put rfl | apply KeepsOf.filter) | dsimp only [Keeps]

theorem execBudgetExhausted_keeps (master : Nat) (s : State) : Answers s (execBudgetExhausted master s) := by
  have h := Keeps.refl s
  unfold execBudgetExhausted
  refine ⟨_, rfl, ?_⟩
  try dsimp only [Keeps]
  repeat' first | (with_reducible first | assumption | apply State.exhausted_keeps) | (with_reducible first | apply each_keeps | apply foldl_keeps) | intro _ _ _ | split | (with_reducible first | apply KeepsOf.put rfl | apply KeepsOf.filter) | dsimp only [Keeps]

end Sys2Proof.Machine
end

