-- ==== Sys2Proof/Laws/KeepsPosition.lean ====
section
/-! SUPPORT. The operations of Machine/Position.lean keep the store canonical and the queue as it is. -/

set_option linter.unusedTactic false
set_option linter.unreachableTactic false

namespace Sys2Proof.Machine

theorem execSrAnswer_keeps (bytes : List Byte) (endNs : Nat) (s : State) : Answers s (execSrAnswer bytes endNs s) := by
  have h := Keeps.refl s
  unfold execSrAnswer
  refine ⟨_, rfl, ?_⟩
  try dsimp only [Keeps]
  repeat' first | (with_reducible first | assumption | apply State.srAnswer_keeps) | (with_reducible first | apply each_keeps | apply foldl_keeps) | intro _ _ _ | split | (with_reducible first | apply KeepsOf.put rfl | apply KeepsOf.filter) | dsimp only [Keeps]

theorem execSrTimeout_keeps  (s : State) : Answers s (execSrTimeout s) := by
  have h := Keeps.refl s
  unfold execSrTimeout
  refine ⟨_, rfl, ?_⟩
  try dsimp only [Keeps]
  repeat' first | (with_reducible first | assumption | apply State.srTimeout_keeps) | (with_reducible first | apply each_keeps | apply foldl_keeps) | intro _ _ _ | split | (with_reducible first | apply KeepsOf.put rfl | apply KeepsOf.filter) | dsimp only [Keeps]

theorem execSourceReturn_keeps (source : PosSrc) (s : State) : Answers s (execSourceReturn source s) := by
  have h := Keeps.refl s
  unfold execSourceReturn
  refine ⟨_, rfl, ?_⟩
  try dsimp only [Keeps]
  repeat' first | (with_reducible first | assumption | apply State.sourceReturn_keeps | apply State.posNote_keeps) | (with_reducible first | apply each_keeps | apply foldl_keeps) | intro _ _ _ | split | (with_reducible first | apply KeepsOf.put rfl | apply KeepsOf.filter) | dsimp only [Keeps]

theorem State.dzEdgeNow_keeps {s₀ s : State} (h : Keeps s₀ s) (c : Chan) (rising : Bool) (stampUs : Nat) : Keeps s₀ (State.dzEdgeNow s c rising stampUs) := by
  unfold State.dzEdgeNow
  try dsimp only [Keeps]
  repeat' first | (with_reducible first | assumption | apply State.homeEdge_keeps | apply State.dzEdgeSeen_keeps | apply State.posNote_keeps | apply State.absFromZone_keeps) | (with_reducible first | apply each_keeps | apply foldl_keeps) | intro _ _ _ | split | (with_reducible first | apply KeepsOf.put rfl | apply KeepsOf.filter) | dsimp only [Keeps]

theorem execDzEdge_keeps (ch : Chan) (rising : Bool) (stampUs : Nat) (s : State) : Answers s (execDzEdge ch rising stampUs s) := by
  have h := Keeps.refl s
  unfold execDzEdge
  refine ⟨_, rfl, ?_⟩
  try dsimp only [Keeps]
  repeat' first | (with_reducible first | assumption | apply State.dzEdgeNow_keeps) | (with_reducible first | apply each_keeps | apply foldl_keeps) | intro _ _ _ | split | (with_reducible first | apply KeepsOf.put rfl | apply KeepsOf.filter) | dsimp only [Keeps]

theorem execDzWiringFault_keeps (ch : Chan) (s : State) : Answers s (execDzWiringFault ch s) := by
  have h := Keeps.refl s
  unfold execDzWiringFault
  refine ⟨_, rfl, ?_⟩
  try dsimp only [Keeps]
  repeat' first | (with_reducible first | assumption | apply State.elWire_keeps | apply State.dzFault_keeps) | (with_reducible first | apply each_keeps | apply foldl_keeps) | intro _ _ _ | split | (with_reducible first | apply KeepsOf.put rfl | apply KeepsOf.filter) | dsimp only [Keeps]

theorem execDzWiringFaultEnd_keeps (ch : Chan) (s : State) : Answers s (execDzWiringFaultEnd ch s) := by
  have h := Keeps.refl s
  unfold execDzWiringFaultEnd
  refine ⟨_, rfl, ?_⟩
  try dsimp only [Keeps]
  repeat' first | (with_reducible first | assumption | apply State.elWire_keeps | apply State.dzFaultEnd_keeps) | (with_reducible first | apply each_keeps | apply foldl_keeps) | intro _ _ _ | split | (with_reducible first | apply KeepsOf.put rfl | apply KeepsOf.filter) | dsimp only [Keeps]

theorem State.encDisagreeNow_keeps {s₀ s : State} (h : Keeps s₀ s) : Keeps s₀ (State.encDisagreeNow s) := by
  unfold State.encDisagreeNow
  try dsimp only [Keeps]
  repeat' first | (with_reducible first | assumption | apply State.raise_keeps | apply State.fire_keeps) | (with_reducible first | apply each_keeps | apply foldl_keeps) | intro _ _ _ | split | (with_reducible first | apply KeepsOf.put rfl | apply KeepsOf.filter) | dsimp only [Keeps]

theorem execEncDisagree_keeps  (s : State) : Answers s (execEncDisagree s) := by
  have h := Keeps.refl s
  unfold execEncDisagree
  refine ⟨_, rfl, ?_⟩
  try dsimp only [Keeps]
  repeat' first | (with_reducible first | assumption | apply State.encDisagreeNow_keeps) | (with_reducible first | apply each_keeps | apply foldl_keeps) | intro _ _ _ | split | (with_reducible first | apply KeepsOf.put rfl | apply KeepsOf.filter) | dsimp only [Keeps]

theorem execEncDisagreeClear_keeps  (s : State) : Answers s (execEncDisagreeClear s) := by
  have h := Keeps.refl s
  unfold execEncDisagreeClear
  refine ⟨_, rfl, ?_⟩
  try dsimp only [Keeps]
  repeat' first | (with_reducible first | assumption ) | (with_reducible first | apply each_keeps | apply foldl_keeps) | intro _ _ _ | split | (with_reducible first | apply KeepsOf.put rfl | apply KeepsOf.filter) | dsimp only [Keeps]

theorem execTraction_keeps  (s : State) : Answers s (execTraction s) := by
  have h := Keeps.refl s
  unfold execTraction
  refine ⟨_, rfl, ?_⟩
  try dsimp only [Keeps]
  repeat' first | (with_reducible first | assumption | apply State.tractionLatch_keeps) | (with_reducible first | apply each_keeps | apply foldl_keeps) | intro _ _ _ | split | (with_reducible first | apply KeepsOf.put rfl | apply KeepsOf.filter) | dsimp only [Keeps]

theorem execBiasCal_keeps (src : Src) (s : State) : Answers s (execBiasCal src s) := by
  have h := Keeps.refl s
  unfold execBiasCal
  refine ⟨_, rfl, ?_⟩
  try dsimp only [Keeps]
  repeat' first | (with_reducible first | assumption | apply State.command_keeps) | (with_reducible first | apply each_keeps | apply foldl_keeps) | intro _ _ _ | split | (with_reducible first | apply KeepsOf.put rfl | apply KeepsOf.filter) | dsimp only [Keeps]

theorem State.biasCalEnd_keeps {s₀ s : State} (h : Keeps s₀ s) (sum : Int) : Keeps s₀ (State.biasCalEnd s sum) := by
  unfold State.biasCalEnd
  try dsimp only [Keeps]
  repeat' first | (with_reducible first | assumption | apply State.raise_keeps) | (with_reducible first | apply each_keeps | apply foldl_keeps) | intro _ _ _ | split | (with_reducible first | apply KeepsOf.put rfl | apply KeepsOf.filter) | dsimp only [Keeps]

theorem execBiasCalDone_keeps  (s : State) : Answers s (execBiasCalDone s) := by
  have h := Keeps.refl s
  unfold execBiasCalDone
  refine ⟨_, rfl, ?_⟩
  try dsimp only [Keeps]
  repeat' first | (with_reducible first | assumption | apply State.biasCalEnd_keeps) | (with_reducible first | apply each_keeps | apply foldl_keeps) | intro _ _ _ | split | (with_reducible first | apply KeepsOf.put rfl | apply KeepsOf.filter) | dsimp only [Keeps]

theorem execSrReacq_keeps (src : Src) (s : State) : Answers s (execSrReacq src s) := by
  have h := Keeps.refl s
  unfold execSrReacq
  refine ⟨_, rfl, ?_⟩
  try dsimp only [Keeps]
  repeat' first | (with_reducible first | assumption | apply State.command_keeps) | (with_reducible first | apply each_keeps | apply foldl_keeps) | intro _ _ _ | split | (with_reducible first | apply KeepsOf.put rfl | apply KeepsOf.filter) | dsimp only [Keeps]

theorem execClrTract_keeps (src : Src) (s : State) : Answers s (execClrTract src s) := by
  have h := Keeps.refl s
  unfold execClrTract
  refine ⟨_, rfl, ?_⟩
  try dsimp only [Keeps]
  repeat' first | (with_reducible first | assumption | apply State.command_keeps) | (with_reducible first | apply each_keeps | apply foldl_keeps) | intro _ _ _ | split | (with_reducible first | apply KeepsOf.put rfl | apply KeepsOf.filter) | dsimp only [Keeps]

theorem execKappaReset_keeps (src : Src) (s : State) : Answers s (execKappaReset src s) := by
  have h := Keeps.refl s
  unfold execKappaReset
  refine ⟨_, rfl, ?_⟩
  try dsimp only [Keeps]
  repeat' first | (with_reducible first | assumption | apply State.command_keeps) | (with_reducible first | apply each_keeps | apply foldl_keeps) | intro _ _ _ | split | (with_reducible first | apply KeepsOf.put rfl | apply KeepsOf.filter) | dsimp only [Keeps]

theorem execPosRunClear_keeps (src : Src) (s : State) : Answers s (execPosRunClear src s) := by
  have h := Keeps.refl s
  unfold execPosRunClear
  refine ⟨_, rfl, ?_⟩
  try dsimp only [Keeps]
  repeat' first | (with_reducible first | assumption | apply State.command_keeps) | (with_reducible first | apply each_keeps | apply foldl_keeps) | intro _ _ _ | split | (with_reducible first | apply KeepsOf.put rfl | apply KeepsOf.filter) | dsimp only [Keeps]

theorem execKappaBiasSave_keeps  (s : State) : Answers s (execKappaBiasSave s) := by
  have h := Keeps.refl s
  unfold execKappaBiasSave
  refine ⟨_, rfl, ?_⟩
  try dsimp only [Keeps]
  repeat' first | (with_reducible first | assumption | apply State.kbSave_keeps) | (with_reducible first | apply each_keeps | apply foldl_keeps) | intro _ _ _ | split | (with_reducible first | apply KeepsOf.put rfl | apply KeepsOf.filter) | dsimp only [Keeps]

theorem execLwbConversion_keeps (raw : Int) (openWire : Bool) (exc : Bool) (overLimit : Bool) (s : State) : Answers s (execLwbConversion raw openWire exc overLimit s) := by
  have h := Keeps.refl s
  unfold execLwbConversion
  refine ⟨_, rfl, ?_⟩
  try dsimp only [Keeps]
  repeat' first | (with_reducible first | assumption | apply State.lwbConvert_keeps) | (with_reducible first | apply each_keeps | apply foldl_keeps) | intro _ _ _ | split | (with_reducible first | apply KeepsOf.put rfl | apply KeepsOf.filter) | dsimp only [Keeps]

theorem execLwbValidClear_keeps  (s : State) : Answers s (execLwbValidClear s) := by
  have h := Keeps.refl s
  unfold execLwbValidClear
  refine ⟨_, rfl, ?_⟩
  try dsimp only [Keeps]
  repeat' first | (with_reducible first | assumption | apply State.lwbSetValid_keeps) | (with_reducible first | apply each_keeps | apply foldl_keeps) | intro _ _ _ | split | (with_reducible first | apply KeepsOf.put rfl | apply KeepsOf.filter) | dsimp only [Keeps]

theorem execLwbValidSet_keeps  (s : State) : Answers s (execLwbValidSet s) := by
  have h := Keeps.refl s
  unfold execLwbValidSet
  refine ⟨_, rfl, ?_⟩
  try dsimp only [Keeps]
  repeat' first | (with_reducible first | assumption | apply State.lwbSetValid_keeps) | (with_reducible first | apply each_keeps | apply foldl_keeps) | intro _ _ _ | split | (with_reducible first | apply KeepsOf.put rfl | apply KeepsOf.filter) | dsimp only [Keeps]

theorem execLwbZero_keeps (src : Src) (s : State) : Answers s (execLwbZero src s) := by
  have h := Keeps.refl s
  unfold execLwbZero
  refine ⟨_, rfl, ?_⟩
  try dsimp only [Keeps]
  repeat' first | (with_reducible first | assumption | apply State.command_keeps) | (with_reducible first | apply each_keeps | apply foldl_keeps) | intro _ _ _ | split | (with_reducible first | apply KeepsOf.put rfl | apply KeepsOf.filter) | dsimp only [Keeps]

theorem execLwbSpan_keeps (src : Src) (s : State) : Answers s (execLwbSpan src s) := by
  have h := Keeps.refl s
  unfold execLwbSpan
  refine ⟨_, rfl, ?_⟩
  try dsimp only [Keeps]
  repeat' first | (with_reducible first | assumption | apply State.command_keeps) | (with_reducible first | apply each_keeps | apply foldl_keeps) | intro _ _ _ | split | (with_reducible first | apply KeepsOf.put rfl | apply KeepsOf.filter) | dsimp only [Keeps]

theorem execLwbCalDone_keeps  (s : State) : Answers s (execLwbCalDone s) := by
  have h := Keeps.refl s
  unfold execLwbCalDone
  refine ⟨_, rfl, ?_⟩
  try dsimp only [Keeps]
  repeat' first | (with_reducible first | assumption | apply State.lwbCalEnd_keeps) | (with_reducible first | apply each_keeps | apply foldl_keeps) | intro _ _ _ | split | (with_reducible first | apply KeepsOf.put rfl | apply KeepsOf.filter) | dsimp only [Keeps]

end Sys2Proof.Machine
end

