-- ==== Sys2Proof/Laws/KeepsMotion.lean ====
section
/-! SUPPORT. The operations of Machine/Motion.lean keep the store canonical and the queue as it is. -/

set_option linter.unusedTactic false
set_option linter.unreachableTactic false

namespace Sys2Proof.Machine

theorem execMotStart_keeps (src : Src) (s : State) : Answers s (execMotStart src s) := by
  have h := Keeps.refl s
  unfold execMotStart
  refine ⟨_, rfl, ?_⟩
  try dsimp only [Keeps]
  repeat' first | (with_reducible first | assumption | apply State.command_keeps | apply State.motCmd_keeps) | (with_reducible first | apply each_keeps | apply foldl_keeps) | intro _ _ _ | split | (with_reducible first | apply KeepsOf.put rfl | apply KeepsOf.filter) | dsimp only [Keeps]

theorem execMotApply_keeps (src : Src) (s : State) : Answers s (execMotApply src s) := by
  have h := Keeps.refl s
  unfold execMotApply
  refine ⟨_, rfl, ?_⟩
  try dsimp only [Keeps]
  repeat' first | (with_reducible first | assumption | apply State.command_keeps | apply State.motCmd_keeps) | (with_reducible first | apply each_keeps | apply foldl_keeps) | intro _ _ _ | split | (with_reducible first | apply KeepsOf.put rfl | apply KeepsOf.filter) | dsimp only [Keeps]

theorem execMotResume_keeps (src : Src) (s : State) : Answers s (execMotResume src s) := by
  have h := Keeps.refl s
  unfold execMotResume
  refine ⟨_, rfl, ?_⟩
  try dsimp only [Keeps]
  repeat' first | (with_reducible first | assumption | apply State.command_keeps | apply State.motCmd_keeps) | (with_reducible first | apply each_keeps | apply foldl_keeps) | intro _ _ _ | split | (with_reducible first | apply KeepsOf.put rfl | apply KeepsOf.filter) | dsimp only [Keeps]

theorem execMotTrun_keeps (src : Src) (s : State) : Answers s (execMotTrun src s) := by
  have h := Keeps.refl s
  unfold execMotTrun
  refine ⟨_, rfl, ?_⟩
  try dsimp only [Keeps]
  repeat' first | (with_reducible first | assumption | apply State.command_keeps | apply State.motCmd_keeps) | (with_reducible first | apply each_keeps | apply foldl_keeps) | intro _ _ _ | split | (with_reducible first | apply KeepsOf.put rfl | apply KeepsOf.filter) | dsimp only [Keeps]

theorem execMotTargetWrite_keeps (src : Src) (val : Word) (s : State) : Answers s (execMotTargetWrite src val s) := by
  have h := Keeps.refl s
  unfold execMotTargetWrite
  refine ⟨_, rfl, ?_⟩
  try dsimp only [Keeps]
  repeat' first | (with_reducible first | assumption | apply State.command_keeps) | (with_reducible first | apply each_keeps | apply foldl_keeps) | intro _ _ _ | split | (with_reducible first | apply KeepsOf.put rfl | apply KeepsOf.filter) | dsimp only [Keeps]

theorem execMotHorizonWrite_keeps (src : Src) (val : Word) (s : State) : Answers s (execMotHorizonWrite src val s) := by
  have h := Keeps.refl s
  unfold execMotHorizonWrite
  refine ⟨_, rfl, ?_⟩
  try dsimp only [Keeps]
  repeat' first | (with_reducible first | assumption | apply State.command_keeps) | (with_reducible first | apply each_keeps | apply foldl_keeps) | intro _ _ _ | split | (with_reducible first | apply KeepsOf.put rfl | apply KeepsOf.filter) | dsimp only [Keeps]

theorem State.holdCommand_keeps {s₀ s : State} (h : Keeps s₀ s) (src : Src) : Keeps s₀ (State.holdCommand s src) := by
  unfold State.holdCommand
  try dsimp only [Keeps]
  repeat' first | (with_reducible first | assumption | apply State.command_keeps | apply State.holdLevel_keeps) | (with_reducible first | apply each_keeps | apply foldl_keeps) | intro _ _ _ | split | (with_reducible first | apply KeepsOf.put rfl | apply KeepsOf.filter) | dsimp only [Keeps]

theorem execMotHold_keeps (src : Src) (s : State) : Answers s (execMotHold src s) := by
  have h := Keeps.refl s
  unfold execMotHold
  refine ⟨_, rfl, ?_⟩
  try dsimp only [Keeps]
  repeat' first | (with_reducible first | assumption | apply State.holdCommand_keeps) | (with_reducible first | apply each_keeps | apply foldl_keeps) | intro _ _ _ | split | (with_reducible first | apply KeepsOf.put rfl | apply KeepsOf.filter) | dsimp only [Keeps]

theorem State.planEndNow_keeps {s₀ s : State} (h : Keeps s₀ s) : Keeps s₀ (State.planEndNow s) := by
  unfold State.planEndNow
  try dsimp only [Keeps]
  repeat' first | (with_reducible first | assumption | apply State.motRunDone_keeps | apply State.schRunDone_keeps) | (with_reducible first | apply each_keeps | apply foldl_keeps) | intro _ _ _ | split | (with_reducible first | apply KeepsOf.put rfl | apply KeepsOf.filter) | dsimp only [Keeps]

theorem execPlanEnd_keeps  (s : State) : Answers s (execPlanEnd s) := by
  have h := Keeps.refl s
  unfold execPlanEnd
  refine ⟨_, rfl, ?_⟩
  try dsimp only [Keeps]
  repeat' first | (with_reducible first | assumption | apply State.planEndNow_keeps) | (with_reducible first | apply each_keeps | apply foldl_keeps) | intro _ _ _ | split | (with_reducible first | apply KeepsOf.put rfl | apply KeepsOf.filter) | dsimp only [Keeps]

theorem State.followNow_keeps {s₀ s : State} (h : Keeps s₀ s) : Keeps s₀ (State.followNow s) := by
  unfold State.followNow
  try dsimp only [Keeps]
  repeat' first | (with_reducible first | assumption | apply State.raise_keeps | apply State.fire_keeps | apply State.motHoldNow_keeps) | (with_reducible first | apply each_keeps | apply foldl_keeps) | intro _ _ _ | split | (with_reducible first | apply KeepsOf.put rfl | apply KeepsOf.filter) | dsimp only [Keeps]

theorem execFollowError_keeps  (s : State) : Answers s (execFollowError s) := by
  have h := Keeps.refl s
  unfold execFollowError
  refine ⟨_, rfl, ?_⟩
  try dsimp only [Keeps]
  repeat' first | (with_reducible first | assumption | apply State.followNow_keeps) | (with_reducible first | apply each_keeps | apply foldl_keeps) | intro _ _ _ | split | (with_reducible first | apply KeepsOf.put rfl | apply KeepsOf.filter) | dsimp only [Keeps]

theorem execVcapChange_keeps  (s : State) : Answers s (execVcapChange s) := by
  have h := Keeps.refl s
  unfold execVcapChange
  refine ⟨_, rfl, ?_⟩
  try dsimp only [Keeps]
  repeat' first | (with_reducible first | assumption | apply State.capChange_keeps) | (with_reducible first | apply each_keeps | apply foldl_keeps) | intro _ _ _ | split | (with_reducible first | apply KeepsOf.put rfl | apply KeepsOf.filter) | dsimp only [Keeps]

theorem execMotHome_keeps (src : Src) (s : State) : Answers s (execMotHome src s) := by
  have h := Keeps.refl s
  unfold execMotHome
  refine ⟨_, rfl, ?_⟩
  try dsimp only [Keeps]
  repeat' first | (with_reducible first | assumption | apply State.command_keeps) | (with_reducible first | apply each_keeps | apply foldl_keeps) | intro _ _ _ | split | (with_reducible first | apply KeepsOf.put rfl | apply KeepsOf.filter) | dsimp only [Keeps]

theorem execMotRecover_keeps (src : Src) (s : State) : Answers s (execMotRecover src s) := by
  have h := Keeps.refl s
  unfold execMotRecover
  refine ⟨_, rfl, ?_⟩
  try dsimp only [Keeps]
  repeat' first | (with_reducible first | assumption | apply State.command_keeps) | (with_reducible first | apply each_keeps | apply foldl_keeps) | intro _ _ _ | split | (with_reducible first | apply KeepsOf.put rfl | apply KeepsOf.filter) | dsimp only [Keeps]

theorem execMotRelevel_keeps (src : Src) (s : State) : Answers s (execMotRelevel src s) := by
  have h := Keeps.refl s
  unfold execMotRelevel
  refine ⟨_, rfl, ?_⟩
  try dsimp only [Keeps]
  repeat' first | (with_reducible first | assumption | apply State.command_keeps) | (with_reducible first | apply each_keeps | apply foldl_keeps) | intro _ _ _ | split | (with_reducible first | apply KeepsOf.put rfl | apply KeepsOf.filter) | dsimp only [Keeps]

theorem execMotAbandon_keeps (src : Src) (s : State) : Answers s (execMotAbandon src s) := by
  have h := Keeps.refl s
  unfold execMotAbandon
  refine ⟨_, rfl, ?_⟩
  try dsimp only [Keeps]
  repeat' first | (with_reducible first | assumption | apply State.command_keeps) | (with_reducible first | apply each_keeps | apply foldl_keeps) | intro _ _ _ | split | (with_reducible first | apply KeepsOf.put rfl | apply KeepsOf.filter) | dsimp only [Keeps]

theorem State.autoSpecial_keeps {s₀ s : State} (h : Keeps s₀ s) : Keeps s₀ (State.autoSpecial s) := by
  unfold State.autoSpecial
  try dsimp only [Keeps]
  repeat' first | (with_reducible first | assumption | apply State.homeStart_keeps | apply State.recoverStart_keeps) | (with_reducible first | apply each_keeps | apply foldl_keeps) | intro _ _ _ | split | (with_reducible first | apply KeepsOf.put rfl | apply KeepsOf.filter) | dsimp only [Keeps]

theorem execAutoSpecialStart_keeps  (s : State) : Answers s (execAutoSpecialStart s) := by
  have h := Keeps.refl s
  unfold execAutoSpecialStart
  refine ⟨_, rfl, ?_⟩
  try dsimp only [Keeps]
  repeat' first | (with_reducible first | assumption | apply State.autoSpecial_keeps) | (with_reducible first | apply each_keeps | apply foldl_keeps) | intro _ _ _ | split | (with_reducible first | apply KeepsOf.put rfl | apply KeepsOf.filter) | dsimp only [Keeps]

theorem execAutoRelevel_keeps  (s : State) : Answers s (execAutoRelevel s) := by
  have h := Keeps.refl s
  unfold execAutoRelevel
  refine ⟨_, rfl, ?_⟩
  try dsimp only [Keeps]
  repeat' first | (with_reducible first | assumption | apply State.relevDecide_keeps | apply State.relevBlock_keeps) | (with_reducible first | apply each_keeps | apply foldl_keeps) | intro _ _ _ | split | (with_reducible first | apply KeepsOf.put rfl | apply KeepsOf.filter) | dsimp only [Keeps]

theorem State.homeRef_keeps {s₀ s : State} (h : Keeps s₀ s) (active : Bool) : Keeps s₀ (State.homeRef s active) := by
  unfold State.homeRef
  try dsimp only [Keeps]
  repeat' first | (with_reducible first | assumption | apply State.homeFail_keeps) | (with_reducible first | apply each_keeps | apply foldl_keeps) | intro _ _ _ | split | (with_reducible first | apply KeepsOf.put rfl | apply KeepsOf.filter) | dsimp only [Keeps]

theorem execHomeRefInput_keeps (active : Bool) (s : State) : Answers s (execHomeRefInput active s) := by
  have h := Keeps.refl s
  unfold execHomeRefInput
  refine ⟨_, rfl, ?_⟩
  try dsimp only [Keeps]
  repeat' first | (with_reducible first | assumption | apply State.homeRef_keeps) | (with_reducible first | apply each_keeps | apply foldl_keeps) | intro _ _ _ | split | (with_reducible first | apply KeepsOf.put rfl | apply KeepsOf.filter) | dsimp only [Keeps]

theorem execHomeLimitInput_keeps  (s : State) : Answers s (execHomeLimitInput s) := by
  have h := Keeps.refl s
  unfold execHomeLimitInput
  refine ⟨_, rfl, ?_⟩
  try dsimp only [Keeps]
  repeat' first | (with_reducible first | assumption | apply State.homeFail_keeps) | (with_reducible first | apply each_keeps | apply foldl_keeps) | intro _ _ _ | split | (with_reducible first | apply KeepsOf.put rfl | apply KeepsOf.filter) | dsimp only [Keeps]

theorem execHomeMaxdist_keeps  (s : State) : Answers s (execHomeMaxdist s) := by
  have h := Keeps.refl s
  unfold execHomeMaxdist
  refine ⟨_, rfl, ?_⟩
  try dsimp only [Keeps]
  repeat' first | (with_reducible first | assumption | apply State.homeFail_keeps) | (with_reducible first | apply each_keeps | apply foldl_keeps) | intro _ _ _ | split | (with_reducible first | apply KeepsOf.put rfl | apply KeepsOf.filter) | dsimp only [Keeps]

theorem execDrvReadyTimeout_keeps  (s : State) : Answers s (execDrvReadyTimeout s) := by
  have h := Keeps.refl s
  unfold execDrvReadyTimeout
  refine ⟨_, rfl, ?_⟩
  try dsimp only [Keeps]
  repeat' first | (with_reducible first | assumption | apply State.readyTimeout_keeps) | (with_reducible first | apply each_keeps | apply foldl_keeps) | intro _ _ _ | split | (with_reducible first | apply KeepsOf.put rfl | apply KeepsOf.filter) | dsimp only [Keeps]

theorem execDrvPreloadDone_keeps  (s : State) : Answers s (execDrvPreloadDone s) := by
  have h := Keeps.refl s
  unfold execDrvPreloadDone
  refine ⟨_, rfl, ?_⟩
  try dsimp only [Keeps]
  repeat' first | (with_reducible first | assumption | apply State.preloadDone_keeps) | (with_reducible first | apply each_keeps | apply foldl_keeps) | intro _ _ _ | split | (with_reducible first | apply KeepsOf.put rfl | apply KeepsOf.filter) | dsimp only [Keeps]

theorem execDrvBrakeLifted_keeps  (s : State) : Answers s (execDrvBrakeLifted s) := by
  have h := Keeps.refl s
  unfold execDrvBrakeLifted
  refine ⟨_, rfl, ?_⟩
  try dsimp only [Keeps]
  repeat' first | (with_reducible first | assumption | apply State.brakeLifted_keeps) | (with_reducible first | apply each_keeps | apply foldl_keeps) | intro _ _ _ | split | (with_reducible first | apply KeepsOf.put rfl | apply KeepsOf.filter) | dsimp only [Keeps]

theorem execDrvBrakeApplied_keeps  (s : State) : Answers s (execDrvBrakeApplied s) := by
  have h := Keeps.refl s
  unfold execDrvBrakeApplied
  refine ⟨_, rfl, ?_⟩
  try dsimp only [Keeps]
  repeat' first | (with_reducible first | assumption | apply State.brakeDropped_keeps) | (with_reducible first | apply each_keeps | apply foldl_keeps) | intro _ _ _ | split | (with_reducible first | apply KeepsOf.put rfl | apply KeepsOf.filter) | dsimp only [Keeps]

theorem execDrvResponse_keeps (bytes : List Byte) (delimNs : Nat) (endNs : Nat) (s : State) : Answers s (execDrvResponse bytes delimNs endNs s) := by
  have h := Keeps.refl s
  unfold execDrvResponse
  refine ⟨_, rfl, ?_⟩
  try dsimp only [Keeps]
  repeat' first | (with_reducible first | assumption | apply State.linkResponse_keeps) | (with_reducible first | apply each_keeps | apply foldl_keeps) | intro _ _ _ | split | (with_reducible first | apply KeepsOf.put rfl | apply KeepsOf.filter) | dsimp only [Keeps]

theorem execMotionWatchdog_keeps  (s : State) : Answers s (execMotionWatchdog s) := by
  have h := Keeps.refl s
  unfold execMotionWatchdog
  refine ⟨_, rfl, ?_⟩
  try dsimp only [Keeps]
  repeat' first | (with_reducible first | assumption | apply State.drvCheck_keeps | apply State.drvWatch_keeps) | (with_reducible first | apply each_keeps | apply foldl_keeps) | intro _ _ _ | split | (with_reducible first | apply KeepsOf.put rfl | apply KeepsOf.filter) | dsimp only [Keeps]

theorem execDrvFaultRst_keeps (src : Src) (s : State) : Answers s (execDrvFaultRst src s) := by
  have h := Keeps.refl s
  unfold execDrvFaultRst
  refine ⟨_, rfl, ?_⟩
  try dsimp only [Keeps]
  repeat' first | (with_reducible first | assumption | apply State.command_keeps) | (with_reducible first | apply each_keeps | apply foldl_keeps) | intro _ _ _ | split | (with_reducible first | apply KeepsOf.put rfl | apply KeepsOf.filter) | dsimp only [Keeps]

theorem execDrvCntClr_keeps (src : Src) (s : State) : Answers s (execDrvCntClr src s) := by
  have h := Keeps.refl s
  unfold execDrvCntClr
  refine ⟨_, rfl, ?_⟩
  try dsimp only [Keeps]
  repeat' first | (with_reducible first | assumption | apply State.command_keeps) | (with_reducible first | apply each_keeps | apply foldl_keeps) | intro _ _ _ | split | (with_reducible first | apply KeepsOf.put rfl | apply KeepsOf.filter) | dsimp only [Keeps]

theorem execCiaTpdo_keeps (statusword : BitVec 16) (position : Word) (sofUs : Nat) (s : State) : Answers s (execCiaTpdo statusword position sofUs s) := by
  have h := Keeps.refl s
  unfold execCiaTpdo
  refine ⟨_, rfl, ?_⟩
  try dsimp only [Keeps]
  repeat' first | (with_reducible first | assumption | apply State.ciaTpdoIn_keeps) | (with_reducible first | apply each_keeps | apply foldl_keeps) | intro _ _ _ | split | (with_reducible first | apply KeepsOf.put rfl | apply KeepsOf.filter) | dsimp only [Keeps]

theorem State.sdoConfirm_keeps {s₀ s : State} (h : Keeps s₀ s) : Keeps s₀ (State.sdoConfirm s) := by
  unfold State.sdoConfirm
  try dsimp only [Keeps]
  repeat' first | (with_reducible first | assumption | apply State.drvCheckReady_keeps) | (with_reducible first | apply each_keeps | apply foldl_keeps) | intro _ _ _ | split | (with_reducible first | apply KeepsOf.put rfl | apply KeepsOf.filter) | dsimp only [Keeps]

theorem execCiaSdoResponse_keeps  (s : State) : Answers s (execCiaSdoResponse s) := by
  have h := Keeps.refl s
  unfold execCiaSdoResponse
  refine ⟨_, rfl, ?_⟩
  try dsimp only [Keeps]
  repeat' first | (with_reducible first | assumption | apply State.sdoConfirm_keeps) | (with_reducible first | apply each_keeps | apply foldl_keeps) | intro _ _ _ | split | (with_reducible first | apply KeepsOf.put rfl | apply KeepsOf.filter) | dsimp only [Keeps]

theorem execLegacyRdyChange_keeps (active : Bool) (s : State) : Answers s (execLegacyRdyChange active s) := by
  have h := Keeps.refl s
  unfold execLegacyRdyChange
  refine ⟨_, rfl, ?_⟩
  try dsimp only [Keeps]
  repeat' first | (with_reducible first | assumption ) | (with_reducible first | apply each_keeps | apply foldl_keeps) | intro _ _ _ | split | (with_reducible first | apply KeepsOf.put rfl | apply KeepsOf.filter) | dsimp only [Keeps]

end Sys2Proof.Machine
end

