-- ==== Sys2Proof/Laws/KeepsCalls.lean ====
section
/-! SUPPORT. The operations of Machine/Calls.lean keep the store canonical and the queue as it is. -/

set_option linter.unusedTactic false
set_option linter.unreachableTactic false

namespace Sys2Proof.Machine

theorem execLandingTableWrite_keeps (src : Src) (addr : Addr) (val : Word) (s : State) : Answers s (execLandingTableWrite src addr val s) := by
  have h := Keeps.refl s
  unfold execLandingTableWrite
  refine ⟨_, rfl, ?_⟩
  try dsimp only [Keeps]
  repeat' first | (with_reducible first | assumption | apply State.command_keeps) | (with_reducible first | apply each_keeps | apply foldl_keeps) | intro _ _ _ | split | (with_reducible first | apply KeepsOf.put rfl | apply KeepsOf.filter) | dsimp only [Keeps]

theorem execCallSet_keeps (src : Src) (addr : Addr) (val : Word) (s : State) : Answers s (execCallSet src addr val s) := by
  have h := Keeps.refl s
  unfold execCallSet
  refine ⟨_, rfl, ?_⟩
  try dsimp only [Keeps]
  repeat' first | (with_reducible first | assumption | apply State.command_keeps) | (with_reducible first | apply each_keeps | apply foldl_keeps) | intro _ _ _ | split | (with_reducible first | apply KeepsOf.put rfl | apply KeepsOf.filter) | dsimp only [Keeps]

theorem execCallClr_keeps (src : Src) (addr : Addr) (val : Word) (s : State) : Answers s (execCallClr src addr val s) := by
  have h := Keeps.refl s
  unfold execCallClr
  refine ⟨_, rfl, ?_⟩
  try dsimp only [Keeps]
  repeat' first | (with_reducible first | assumption | apply State.command_keeps) | (with_reducible first | apply each_keeps | apply foldl_keeps) | intro _ _ _ | split | (with_reducible first | apply KeepsOf.put rfl | apply KeepsOf.filter) | dsimp only [Keeps]

theorem execDestAdd_keeps (src : Src) (val : Word) (s : State) : Answers s (execDestAdd src val s) := by
  have h := Keeps.refl s
  unfold execDestAdd
  refine ⟨_, rfl, ?_⟩
  try dsimp only [Keeps]
  repeat' first | (with_reducible first | assumption | apply State.command_keeps) | (with_reducible first | apply each_keeps | apply foldl_keeps) | intro _ _ _ | split | (with_reducible first | apply KeepsOf.put rfl | apply KeepsOf.filter) | dsimp only [Keeps]

theorem execDestDel_keeps (src : Src) (val : Word) (s : State) : Answers s (execDestDel src val s) := by
  have h := Keeps.refl s
  unfold execDestDel
  refine ⟨_, rfl, ?_⟩
  try dsimp only [Keeps]
  repeat' first | (with_reducible first | assumption | apply State.command_keeps) | (with_reducible first | apply each_keeps | apply foldl_keeps) | intro _ _ _ | split | (with_reducible first | apply KeepsOf.put rfl | apply KeepsOf.filter) | dsimp only [Keeps]

theorem execSchModeWrite_keeps (src : Src) (val : Word) (s : State) : Answers s (execSchModeWrite src val s) := by
  have h := Keeps.refl s
  unfold execSchModeWrite
  refine ⟨_, rfl, ?_⟩
  try dsimp only [Keeps]
  repeat' first | (with_reducible first | assumption | apply State.command_keeps) | (with_reducible first | apply each_keeps | apply foldl_keeps) | intro _ _ _ | split | (with_reducible first | apply KeepsOf.put rfl | apply KeepsOf.filter) | dsimp only [Keeps]

theorem execSchRunSet_keeps (src : Src) (s : State) : Answers s (execSchRunSet src s) := by
  have h := Keeps.refl s
  unfold execSchRunSet
  refine ⟨_, rfl, ?_⟩
  try dsimp only [Keeps]
  repeat' first | (with_reducible first | assumption | apply State.command_keeps) | (with_reducible first | apply each_keeps | apply foldl_keeps) | intro _ _ _ | split | (with_reducible first | apply KeepsOf.put rfl | apply KeepsOf.filter) | dsimp only [Keeps]

theorem execSchRunClear_keeps (src : Src) (s : State) : Answers s (execSchRunClear src s) := by
  have h := Keeps.refl s
  unfold execSchRunClear
  refine ⟨_, rfl, ?_⟩
  try dsimp only [Keeps]
  repeat' first | (with_reducible first | assumption | apply State.command_keeps) | (with_reducible first | apply each_keeps | apply foldl_keeps) | intro _ _ _ | split | (with_reducible first | apply KeepsOf.put rfl | apply KeepsOf.filter) | dsimp only [Keeps]

theorem execSchOosRequest_keeps (src : Src) (on : Bool) (s : State) : Answers s (execSchOosRequest src on s) := by
  have h := Keeps.refl s
  unfold execSchOosRequest
  refine ⟨_, rfl, ?_⟩
  try dsimp only [Keeps]
  repeat' first | (with_reducible first | assumption | apply State.command_keeps) | (with_reducible first | apply each_keeps | apply foldl_keeps) | intro _ _ _ | split | (with_reducible first | apply KeepsOf.put rfl | apply KeepsOf.filter) | dsimp only [Keeps]

theorem execSchedRunStart_keeps  (s : State) : Answers s (execSchedRunStart s) := by
  have h := Keeps.refl s
  unfold execSchedRunStart
  refine ⟨_, rfl, ?_⟩
  try dsimp only [Keeps]
  repeat' first | (with_reducible first | assumption | apply State.schStart_keeps) | (with_reducible first | apply each_keeps | apply foldl_keeps) | intro _ _ _ | split | (with_reducible first | apply KeepsOf.put rfl | apply KeepsOf.filter) | dsimp only [Keeps]

theorem State.schResume_keeps {s₀ s : State} (h : Keeps s₀ s) : Keeps s₀ (State.schResume s) := by
  unfold State.schResume
  try dsimp only [Keeps]
  repeat' first | (with_reducible first | assumption | apply State.resumeNow_keeps | apply State.schReached_keeps) | (with_reducible first | apply each_keeps | apply foldl_keeps) | intro _ _ _ | split | (with_reducible first | apply KeepsOf.put rfl | apply KeepsOf.filter) | dsimp only [Keeps]

theorem execSchedResume_keeps  (s : State) : Answers s (execSchedResume s) := by
  have h := Keeps.refl s
  unfold execSchedResume
  refine ⟨_, rfl, ?_⟩
  try dsimp only [Keeps]
  repeat' first | (with_reducible first | assumption | apply State.schResume_keeps) | (with_reducible first | apply each_keeps | apply foldl_keeps) | intro _ _ _ | split | (with_reducible first | apply KeepsOf.put rfl | apply KeepsOf.filter) | dsimp only [Keeps]

theorem execHoldTimeEnd_keeps  (s : State) : Answers s (execHoldTimeEnd s) := by
  have h := Keeps.refl s
  unfold execHoldTimeEnd
  refine ⟨_, rfl, ?_⟩
  try dsimp only [Keeps]
  repeat' first | (with_reducible first | assumption | apply State.schHoldEnd_keeps) | (with_reducible first | apply each_keeps | apply foldl_keeps) | intro _ _ _ | split | (with_reducible first | apply KeepsOf.put rfl | apply KeepsOf.filter) | dsimp only [Keeps]

theorem execSchRestore_keeps (src : Src) (s : State) : Answers s (execSchRestore src s) := by
  have h := Keeps.refl s
  unfold execSchRestore
  refine ⟨_, rfl, ?_⟩
  try dsimp only [Keeps]
  repeat' first | (with_reducible first | assumption | apply State.command_keeps) | (with_reducible first | apply each_keeps | apply foldl_keeps) | intro _ _ _ | split | (with_reducible first | apply KeepsOf.put rfl | apply KeepsOf.filter) | dsimp only [Keeps]

theorem execCcClrAll_keeps (src : Src) (s : State) : Answers s (execCcClrAll src s) := by
  have h := Keeps.refl s
  unfold execCcClrAll
  refine ⟨_, rfl, ?_⟩
  try dsimp only [Keeps]
  repeat' first | (with_reducible first | assumption | apply State.command_keeps) | (with_reducible first | apply each_keeps | apply foldl_keeps) | intro _ _ _ | split | (with_reducible first | apply KeepsOf.put rfl | apply KeepsOf.filter) | dsimp only [Keeps]

theorem execEndDwell_keeps (src : Src) (s : State) : Answers s (execEndDwell src s) := by
  have h := Keeps.refl s
  unfold execEndDwell
  refine ⟨_, rfl, ?_⟩
  try dsimp only [Keeps]
  repeat' first | (with_reducible first | assumption | apply State.command_keeps) | (with_reducible first | apply each_keeps | apply foldl_keeps) | intro _ _ _ | split | (with_reducible first | apply KeepsOf.put rfl | apply KeepsOf.filter) | dsimp only [Keeps]

theorem State.btnStuckNow_keeps {s₀ s : State} (h : Keeps s₀ s) (n : Nat) : Keeps s₀ (State.btnStuckNow s n) := by
  unfold State.btnStuckNow
  try dsimp only [Keeps]
  repeat' first | (with_reducible first | assumption | apply State.raise_keeps) | (with_reducible first | apply each_keeps | apply foldl_keeps) | intro _ _ _ | split | (with_reducible first | apply KeepsOf.put rfl | apply KeepsOf.filter) | dsimp only [Keeps]

theorem execBtnStuck_keeps (landing : Nat) (s : State) : Answers s (execBtnStuck landing s) := by
  have h := Keeps.refl s
  unfold execBtnStuck
  refine ⟨_, rfl, ?_⟩
  try dsimp only [Keeps]
  repeat' first | (with_reducible first | assumption | apply State.btnStuckNow_keeps) | (with_reducible first | apply each_keeps | apply foldl_keeps) | intro _ _ _ | split | (with_reducible first | apply KeepsOf.put rfl | apply KeepsOf.filter) | dsimp only [Keeps]

end Sys2Proof.Machine
end

