-- ==== Sys2Proof/Laws/KeepsGroup.lean ====
section
/-! SUPPORT. The operations of Machine/Group.lean keep the store canonical and the queue as it is. -/

set_option linter.unusedTactic false
set_option linter.unreachableTactic false

namespace Sys2Proof.Machine

theorem State.drvFrame_keeps {s₀ s : State} (h : Keeps s₀ s) (f : CanFrame) : Keeps s₀ (State.drvFrame s f) := by
  unfold State.drvFrame
  try dsimp only [Keeps]
  repeat' first | (with_reducible first | assumption | apply State.canTake_keeps | apply State.ciaTpdoIn_keeps | apply State.sdoConfirm_keeps) | (with_reducible first | apply each_keeps | apply foldl_keeps) | intro _ _ _ | split | (with_reducible first | apply KeepsOf.put rfl | apply KeepsOf.filter) | dsimp only [Keeps]

theorem State.engineFrame_keeps {s₀ s : State} (h : Keeps s₀ s) (n : Nat) (f : CanFrame) : Keeps s₀ (State.engineFrame s n f) := by
  unfold State.engineFrame
  try dsimp only [Keeps]
  repeat' first | (with_reducible first | assumption | apply State.pressRx_keeps | apply State.announcementRx_keeps | apply State.bidFrameRx_keeps | apply State.releaseRx_keeps | apply State.drvFrame_keeps) | (with_reducible first | apply each_keeps | apply foldl_keeps) | intro _ _ _ | split | (with_reducible first | apply KeepsOf.put rfl | apply KeepsOf.filter) | dsimp only [Keeps]

theorem State.canIncoming_keeps {s₀ s : State} (h : Keeps s₀ s) (n : Nat) (f : CanFrame) : Keeps s₀ (State.canIncoming s n f) := by
  unfold State.canIncoming
  try dsimp only [Keeps]
  repeat' first | (with_reducible first | assumption | apply State.canReceive_keeps | apply State.engineFrame_keeps) | (with_reducible first | apply each_keeps | apply foldl_keeps) | intro _ _ _ | split | (with_reducible first | apply KeepsOf.put rfl | apply KeepsOf.filter) | dsimp only [Keeps]

theorem execHallPress_keeps (frame : CanFrame) (s : State) : Answers s (execHallPress frame s) := by
  have h := Keeps.refl s
  unfold execHallPress
  refine ⟨_, rfl, ?_⟩
  try dsimp only [Keeps]
  repeat' first | (with_reducible first | assumption | apply State.canIncoming_keeps) | (with_reducible first | apply each_keeps | apply foldl_keeps) | intro _ _ _ | split | (with_reducible first | apply KeepsOf.put rfl | apply KeepsOf.filter) | dsimp only [Keeps]

theorem execAnnouncement_keeps (frame : CanFrame) (s : State) : Answers s (execAnnouncement frame s) := by
  have h := Keeps.refl s
  unfold execAnnouncement
  refine ⟨_, rfl, ?_⟩
  try dsimp only [Keeps]
  repeat' first | (with_reducible first | assumption | apply State.canIncoming_keeps) | (with_reducible first | apply each_keeps | apply foldl_keeps) | intro _ _ _ | split | (with_reducible first | apply KeepsOf.put rfl | apply KeepsOf.filter) | dsimp only [Keeps]

theorem execBidFrame_keeps (frame : CanFrame) (s : State) : Answers s (execBidFrame frame s) := by
  have h := Keeps.refl s
  unfold execBidFrame
  refine ⟨_, rfl, ?_⟩
  try dsimp only [Keeps]
  repeat' first | (with_reducible first | assumption | apply State.canIncoming_keeps) | (with_reducible first | apply each_keeps | apply foldl_keeps) | intro _ _ _ | split | (with_reducible first | apply KeepsOf.put rfl | apply KeepsOf.filter) | dsimp only [Keeps]

theorem execRoundNobid_keeps  (s : State) : Answers s (execRoundNobid s) := by
  have h := Keeps.refl s
  unfold execRoundNobid
  refine ⟨_, rfl, ?_⟩
  try dsimp only [Keeps]
  repeat' first | (with_reducible first | assumption | apply State.roundNobid_keeps) | (with_reducible first | apply each_keeps | apply foldl_keeps) | intro _ _ _ | split | (with_reducible first | apply KeepsOf.put rfl | apply KeepsOf.filter) | dsimp only [Keeps]

theorem execReleaseFrame_keeps (frame : CanFrame) (s : State) : Answers s (execReleaseFrame frame s) := by
  have h := Keeps.refl s
  unfold execReleaseFrame
  refine ⟨_, rfl, ?_⟩
  try dsimp only [Keeps]
  repeat' first | (with_reducible first | assumption | apply State.canIncoming_keeps) | (with_reducible first | apply each_keeps | apply foldl_keeps) | intro _ _ _ | split | (with_reducible first | apply KeepsOf.put rfl | apply KeepsOf.filter) | dsimp only [Keeps]

theorem execAwardTakeEffect_keeps  (s : State) : Answers s (execAwardTakeEffect s) := by
  have h := Keeps.refl s
  unfold execAwardTakeEffect
  refine ⟨_, rfl, ?_⟩
  try dsimp only [Keeps]
  repeat' first | (with_reducible first | assumption | apply State.awardsNow_keeps) | (with_reducible first | apply each_keeps | apply foldl_keeps) | intro _ _ _ | split | (with_reducible first | apply KeepsOf.put rfl | apply KeepsOf.filter) | dsimp only [Keeps]

theorem execAnnounceRepeat_keeps (key : Nat) (seq : Nat) (s : State) : Answers s (execAnnounceRepeat key seq s) := by
  have h := Keeps.refl s
  unfold execAnnounceRepeat
  refine ⟨_, rfl, ?_⟩
  try dsimp only [Keeps]
  repeat' first | (with_reducible first | assumption | apply State.repeatNow_keeps) | (with_reducible first | apply each_keeps | apply foldl_keeps) | intro _ _ _ | split | (with_reducible first | apply KeepsOf.put rfl | apply KeepsOf.filter) | dsimp only [Keeps]

theorem execRebid_keeps (key : Nat) (seq : Nat) (s : State) : Answers s (execRebid key seq s) := by
  have h := Keeps.refl s
  unfold execRebid
  refine ⟨_, rfl, ?_⟩
  try dsimp only [Keeps]
  repeat' first | (with_reducible first | assumption | apply State.rebidNow_keeps) | (with_reducible first | apply each_keeps | apply foldl_keeps) | intro _ _ _ | split | (with_reducible first | apply KeepsOf.put rfl | apply KeepsOf.filter) | dsimp only [Keeps]

theorem execOrphanDetect_keeps (key : Nat) (seq : Nat) (s : State) : Answers s (execOrphanDetect key seq s) := by
  have h := Keeps.refl s
  unfold execOrphanDetect
  refine ⟨_, rfl, ?_⟩
  try dsimp only [Keeps]
  repeat' first | (with_reducible first | assumption | apply State.orphanNow_keeps) | (with_reducible first | apply each_keeps | apply foldl_keeps) | intro _ _ _ | split | (with_reducible first | apply KeepsOf.put rfl | apply KeepsOf.filter) | dsimp only [Keeps]

theorem execListenEnd_keeps  (s : State) : Answers s (execListenEnd s) := by
  have h := Keeps.refl s
  unfold execListenEnd
  refine ⟨_, rfl, ?_⟩
  try dsimp only [Keeps]
  repeat' first | (with_reducible first | assumption | apply State.listenEnd_keeps) | (with_reducible first | apply each_keeps | apply foldl_keeps) | intro _ _ _ | split | (with_reducible first | apply KeepsOf.put rfl | apply KeepsOf.filter) | dsimp only [Keeps]

theorem execIslandEnter_keeps  (s : State) : Answers s (execIslandEnter s) := by
  have h := Keeps.refl s
  unfold execIslandEnter
  refine ⟨_, rfl, ?_⟩
  try dsimp only [Keeps]
  repeat' first | (with_reducible first | assumption | apply State.islandEnter_keeps) | (with_reducible first | apply each_keeps | apply foldl_keeps) | intro _ _ _ | split | (with_reducible first | apply KeepsOf.put rfl | apply KeepsOf.filter) | dsimp only [Keeps]

theorem execIslandExit_keeps  (s : State) : Answers s (execIslandExit s) := by
  have h := Keeps.refl s
  unfold execIslandExit
  refine ⟨_, rfl, ?_⟩
  try dsimp only [Keeps]
  repeat' first | (with_reducible first | assumption | apply State.islandExit_keeps) | (with_reducible first | apply each_keeps | apply foldl_keeps) | intro _ _ _ | split | (with_reducible first | apply KeepsOf.put rfl | apply KeepsOf.filter) | dsimp only [Keeps]

theorem execBidRunSet_keeps  (s : State) : Answers s (execBidRunSet s) := by
  have h := Keeps.refl s
  unfold execBidRunSet
  refine ⟨_, rfl, ?_⟩
  try dsimp only [Keeps]
  repeat' first | (with_reducible first | assumption | apply State.bidRunSet_keeps) | (with_reducible first | apply each_keeps | apply foldl_keeps) | intro _ _ _ | split | (with_reducible first | apply KeepsOf.put rfl | apply KeepsOf.filter) | dsimp only [Keeps]

theorem execBidRejoin_keeps (src : Src) (s : State) : Answers s (execBidRejoin src s) := by
  have h := Keeps.refl s
  unfold execBidRejoin
  refine ⟨_, rfl, ?_⟩
  try dsimp only [Keeps]
  repeat' first | (with_reducible first | assumption | apply State.command_keeps) | (with_reducible first | apply each_keeps | apply foldl_keeps) | intro _ _ _ | split | (with_reducible first | apply KeepsOf.put rfl | apply KeepsOf.filter) | dsimp only [Keeps]

theorem execBidReleaseAll_keeps (src : Src) (s : State) : Answers s (execBidReleaseAll src s) := by
  have h := Keeps.refl s
  unfold execBidReleaseAll
  refine ⟨_, rfl, ?_⟩
  try dsimp only [Keeps]
  repeat' first | (with_reducible first | assumption | apply State.command_keeps) | (with_reducible first | apply each_keeps | apply foldl_keeps) | intro _ _ _ | split | (with_reducible first | apply KeepsOf.put rfl | apply KeepsOf.filter) | dsimp only [Keeps]

theorem execBidCntClr_keeps (src : Src) (s : State) : Answers s (execBidCntClr src s) := by
  have h := Keeps.refl s
  unfold execBidCntClr
  refine ⟨_, rfl, ?_⟩
  try dsimp only [Keeps]
  repeat' first | (with_reducible first | assumption | apply State.command_keeps) | (with_reducible first | apply each_keeps | apply foldl_keeps) | intro _ _ _ | split | (with_reducible first | apply KeepsOf.put rfl | apply KeepsOf.filter) | dsimp only [Keeps]

theorem execBidQuery_keeps (src : Src) (val : Word) (s : State) : Answers s (execBidQuery src val s) := by
  have h := Keeps.refl s
  unfold execBidQuery
  refine ⟨_, rfl, ?_⟩
  try dsimp only [Keeps]
  repeat' first | (with_reducible first | assumption | apply State.command_keeps | apply State.bidQuery_keeps) | (with_reducible first | apply each_keeps | apply foldl_keeps) | intro _ _ _ | split | (with_reducible first | apply KeepsOf.put rfl | apply KeepsOf.filter) | dsimp only [Keeps]

end Sys2Proof.Machine
end

