-- ==== Sys2Proof/Laws/KeepsDoors.lean ====
section
/-! SUPPORT. The operations of Machine/Doors.lean keep the store canonical and the queue as it is. -/

set_option linter.unusedTactic false
set_option linter.unreachableTactic false

namespace Sys2Proof.Machine

theorem execDoorOpen_keeps (src : Src) (axis : Chan) (s : State) : Answers s (execDoorOpen src axis s) := by
  have h := Keeps.refl s
  unfold execDoorOpen
  refine ⟨_, rfl, ?_⟩
  try dsimp only [Keeps]
  repeat' first | (with_reducible first | assumption | apply State.command_keeps | apply State.doorCmd_keeps) | (with_reducible first | apply each_keeps | apply foldl_keeps) | intro _ _ _ | split | (with_reducible first | apply KeepsOf.put rfl | apply KeepsOf.filter) | dsimp only [Keeps]

theorem execDoorClose_keeps (src : Src) (axis : Chan) (s : State) : Answers s (execDoorClose src axis s) := by
  have h := Keeps.refl s
  unfold execDoorClose
  refine ⟨_, rfl, ?_⟩
  try dsimp only [Keeps]
  repeat' first | (with_reducible first | assumption | apply State.command_keeps | apply State.doorCmd_keeps) | (with_reducible first | apply each_keeps | apply foldl_keeps) | intro _ _ _ | split | (with_reducible first | apply KeepsOf.put rfl | apply KeepsOf.filter) | dsimp only [Keeps]

theorem execDoorStop_keeps (src : Src) (axis : Chan) (s : State) : Answers s (execDoorStop src axis s) := by
  have h := Keeps.refl s
  unfold execDoorStop
  refine ⟨_, rfl, ?_⟩
  try dsimp only [Keeps]
  repeat' first | (with_reducible first | assumption | apply State.command_keeps | apply State.doorCmd_keeps) | (with_reducible first | apply each_keeps | apply foldl_keeps) | intro _ _ _ | split | (with_reducible first | apply KeepsOf.put rfl | apply KeepsOf.filter) | dsimp only [Keeps]

theorem execDoorArmAdv_keeps (src : Src) (axis : Chan) (s : State) : Answers s (execDoorArmAdv src axis s) := by
  have h := Keeps.refl s
  unfold execDoorArmAdv
  refine ⟨_, rfl, ?_⟩
  try dsimp only [Keeps]
  repeat' first | (with_reducible first | assumption | apply State.command_keeps | apply State.doorCmd_keeps) | (with_reducible first | apply each_keeps | apply foldl_keeps) | intro _ _ _ | split | (with_reducible first | apply KeepsOf.put rfl | apply KeepsOf.filter) | dsimp only [Keeps]

theorem execDoorHome_keeps (src : Src) (axis : Chan) (s : State) : Answers s (execDoorHome src axis s) := by
  have h := Keeps.refl s
  unfold execDoorHome
  refine ⟨_, rfl, ?_⟩
  try dsimp only [Keeps]
  repeat' first | (with_reducible first | assumption | apply State.command_keeps | apply State.doorCmd_keeps) | (with_reducible first | apply each_keeps | apply foldl_keeps) | intro _ _ _ | split | (with_reducible first | apply KeepsOf.put rfl | apply KeepsOf.filter) | dsimp only [Keeps]

theorem execDoorLearn_keeps (src : Src) (axis : Chan) (s : State) : Answers s (execDoorLearn src axis s) := by
  have h := Keeps.refl s
  unfold execDoorLearn
  refine ⟨_, rfl, ?_⟩
  try dsimp only [Keeps]
  repeat' first | (with_reducible first | assumption | apply State.command_keeps | apply State.doorCmd_keeps) | (with_reducible first | apply each_keeps | apply foldl_keeps) | intro _ _ _ | split | (with_reducible first | apply KeepsOf.put rfl | apply KeepsOf.filter) | dsimp only [Keeps]

theorem execDoorClrFault_keeps (src : Src) (axis : Chan) (s : State) : Answers s (execDoorClrFault src axis s) := by
  have h := Keeps.refl s
  unfold execDoorClrFault
  refine ⟨_, rfl, ?_⟩
  try dsimp only [Keeps]
  repeat' first | (with_reducible first | assumption | apply State.command_keeps | apply State.doorCmd_keeps) | (with_reducible first | apply each_keeps | apply foldl_keeps) | intro _ _ _ | split | (with_reducible first | apply KeepsOf.put rfl | apply KeepsOf.filter) | dsimp only [Keeps]

theorem State.doorSample_keeps {s₀ s : State} (h : Keeps s₀ s) (c : Chan) (i : DoorIn) : Keeps s₀ (State.doorSample s c i) := by
  unfold State.doorSample
  try dsimp only [Keeps]
  repeat' first | (with_reducible first | assumption | apply State.setDoor_keeps) | (with_reducible first | apply each_keeps | apply foldl_keeps) | intro _ _ _ | split | (with_reducible first | apply KeepsOf.put rfl | apply KeepsOf.filter) | dsimp only [Keeps]

theorem State.learnMove_keeps {s₀ s : State} (h : Keeps s₀ s) (c : Chan) (l : Learn) : Keeps s₀ (State.learnMove s c l) := by
  unfold State.learnMove
  try dsimp only [Keeps]
  repeat' first | (with_reducible first | assumption | apply State.setDoor_keeps) | (with_reducible first | apply each_keeps | apply foldl_keeps) | intro _ _ _ | split | (with_reducible first | apply KeepsOf.put rfl | apply KeepsOf.filter) | dsimp only [Keeps]

theorem State.learnEval_keeps {s₀ s : State} (h : Keeps s₀ s) (c : Chan) (i : DoorIn) : Keeps s₀ (State.learnEval s c i) := by
  unfold State.learnEval
  try dsimp only [Keeps]
  repeat' first | (with_reducible first | assumption | apply State.setDoor_keeps | apply State.learnMove_keeps) | (with_reducible first | apply each_keeps | apply foldl_keeps) | intro _ _ _ | split | (with_reducible first | apply KeepsOf.put rfl | apply KeepsOf.filter) | dsimp only [Keeps]

theorem State.doorGuard_keeps {s₀ s : State} (h : Keeps s₀ s) (c : Chan) : Keeps s₀ (State.doorGuard s c) := by
  unfold State.doorGuard
  try dsimp only [Keeps]
  repeat' first | (with_reducible first | assumption | apply State.doorReverse_keeps | apply State.doorObstructed_keeps | apply State.schDoorOpened_keeps | apply State.doorGearAbort_keeps | apply State.doorLearnAbort_keeps) | (with_reducible first | apply each_keeps | apply foldl_keeps) | intro _ _ _ | split | (with_reducible first | apply KeepsOf.put rfl | apply KeepsOf.filter) | dsimp only [Keeps]

theorem execDoorEval_keeps (axis : Chan) (i : DoorIn) (s : State) : Answers s (execDoorEval axis i s) := by
  have h := Keeps.refl s
  unfold execDoorEval
  refine ⟨_, rfl, ?_⟩
  try dsimp only [Keeps]
  repeat' first | (with_reducible first | assumption | apply State.doorSample_keeps | apply State.doorGuard_keeps | apply State.learnEval_keeps) | (with_reducible first | apply each_keeps | apply foldl_keeps) | intro _ _ _ | split | (with_reducible first | apply KeepsOf.put rfl | apply KeepsOf.filter) | dsimp only [Keeps]

theorem execStepLoss_keeps (axis : Chan) (s : State) : Answers s (execStepLoss axis s) := by
  have h := Keeps.refl s
  unfold execStepLoss
  refine ⟨_, rfl, ?_⟩
  try dsimp only [Keeps]
  repeat' first | (with_reducible first | assumption | apply State.doorLosePos_keeps | apply State.doorFaulted_keeps) | (with_reducible first | apply each_keeps | apply foldl_keeps) | intro _ _ _ | split | (with_reducible first | apply KeepsOf.put rfl | apply KeepsOf.filter) | dsimp only [Keeps]

theorem execDoorAutoHome_keeps (axis : Chan) (s : State) : Answers s (execDoorAutoHome axis s) := by
  have h := Keeps.refl s
  unfold execDoorAutoHome
  refine ⟨_, rfl, ?_⟩
  try dsimp only [Keeps]
  repeat' first | (with_reducible first | assumption | apply State.doorStartHome_keeps) | (with_reducible first | apply each_keeps | apply foldl_keeps) | intro _ _ _ | split | (with_reducible first | apply KeepsOf.put rfl | apply KeepsOf.filter) | dsimp only [Keeps]

theorem execDoorOpenEnd_keeps (axis : Chan) (s : State) : Answers s (execDoorOpenEnd axis s) := by
  have h := Keeps.refl s
  unfold execDoorOpenEnd
  refine ⟨_, rfl, ?_⟩
  try dsimp only [Keeps]
  repeat' first | (with_reducible first | assumption | apply State.doorOpened_keeps | apply State.schDoorOpened_keeps) | (with_reducible first | apply each_keeps | apply foldl_keeps) | intro _ _ _ | split | (with_reducible first | apply KeepsOf.put rfl | apply KeepsOf.filter) | dsimp only [Keeps]

theorem State.doorClosedNow_keeps {s₀ s : State} (h : Keeps s₀ s) (c : Chan) : Keeps s₀ (State.doorClosedNow s c) := by
  unfold State.doorClosedNow
  try dsimp only [Keeps]
  repeat' first | (with_reducible first | assumption | apply State.setDoor_keeps | apply State.doorInto_keeps) | (with_reducible first | apply each_keeps | apply foldl_keeps) | intro _ _ _ | split | (with_reducible first | apply KeepsOf.put rfl | apply KeepsOf.filter) | dsimp only [Keeps]

theorem execDoorCloseEnd_keeps (axis : Chan) (s : State) : Answers s (execDoorCloseEnd axis s) := by
  have h := Keeps.refl s
  unfold execDoorCloseEnd
  refine ⟨_, rfl, ?_⟩
  try dsimp only [Keeps]
  repeat' first | (with_reducible first | assumption | apply State.doorClosedNow_keeps) | (with_reducible first | apply each_keeps | apply foldl_keeps) | intro _ _ _ | split | (with_reducible first | apply KeepsOf.put rfl | apply KeepsOf.filter) | dsimp only [Keeps]

theorem State.doorHomedNow_keeps {s₀ s : State} (h : Keeps s₀ s) (c : Chan) : Keeps s₀ (State.doorHomedNow s c) := by
  unfold State.doorHomedNow
  try dsimp only [Keeps]
  repeat' first | (with_reducible first | assumption | apply State.setDoor_keeps | apply State.doorInto_keeps | apply State.raise_keeps) | (with_reducible first | apply each_keeps | apply foldl_keeps) | intro _ _ _ | split | (with_reducible first | apply KeepsOf.put rfl | apply KeepsOf.filter) | dsimp only [Keeps]

theorem execDoorHomed_keeps (axis : Chan) (s : State) : Answers s (execDoorHomed axis s) := by
  have h := Keeps.refl s
  unfold execDoorHomed
  refine ⟨_, rfl, ?_⟩
  try dsimp only [Keeps]
  repeat' first | (with_reducible first | assumption | apply State.doorHomedNow_keeps) | (with_reducible first | apply each_keeps | apply foldl_keeps) | intro _ _ _ | split | (with_reducible first | apply KeepsOf.put rfl | apply KeepsOf.filter) | dsimp only [Keeps]

theorem execDoorHomeFail_keeps (axis : Chan) (s : State) : Answers s (execDoorHomeFail axis s) := by
  have h := Keeps.refl s
  unfold execDoorHomeFail
  refine ⟨_, rfl, ?_⟩
  try dsimp only [Keeps]
  repeat' first | (with_reducible first | assumption | apply State.raise_keeps | apply State.doorFaulted_keeps) | (with_reducible first | apply each_keeps | apply foldl_keeps) | intro _ _ _ | split | (with_reducible first | apply KeepsOf.put rfl | apply KeepsOf.filter) | dsimp only [Keeps]

theorem execDoorObstructRetry_keeps (axis : Chan) (s : State) : Answers s (execDoorObstructRetry axis s) := by
  have h := Keeps.refl s
  unfold execDoorObstructRetry
  refine ⟨_, rfl, ?_⟩
  try dsimp only [Keeps]
  repeat' first | (with_reducible first | assumption | apply State.doorStartOpen_keeps) | (with_reducible first | apply each_keeps | apply foldl_keeps) | intro _ _ _ | split | (with_reducible first | apply KeepsOf.put rfl | apply KeepsOf.filter) | dsimp only [Keeps]

theorem State.doorLockFail_keeps {s₀ s : State} (h : Keeps s₀ s) (c : Chan) : Keeps s₀ (State.doorLockFail s c) := by
  unfold State.doorLockFail
  try dsimp only [Keeps]
  repeat' first | (with_reducible first | assumption | apply KeyOut.fail_keeps | apply State.setDoor_keeps | apply State.doorStartOpen_keeps | apply State.raise_keeps) | (with_reducible first | apply each_keeps | apply foldl_keeps) | intro _ _ _ | split | (with_reducible first | apply KeepsOf.put rfl | apply KeepsOf.filter) | dsimp only [Keeps]

theorem execDoorLockTimeout_keeps (axis : Chan) (s : State) : Answers s (execDoorLockTimeout axis s) := by
  have h := Keeps.refl s
  unfold execDoorLockTimeout
  refine ⟨_, rfl, ?_⟩
  try dsimp only [Keeps]
  repeat' first | (with_reducible first | assumption | apply State.doorLockFail_keeps) | (with_reducible first | apply each_keeps | apply foldl_keeps) | intro _ _ _ | split | (with_reducible first | apply KeepsOf.put rfl | apply KeepsOf.filter) | dsimp only [Keeps]

theorem execDoorDeferEnd_keeps (axis : Chan) (s : State) : Answers s (execDoorDeferEnd axis s) := by
  have h := Keeps.refl s
  unfold execDoorDeferEnd
  refine ⟨_, rfl, ?_⟩
  try dsimp only [Keeps]
  repeat' first | (with_reducible first | assumption | apply State.doorStartClose_keeps) | (with_reducible first | apply each_keeps | apply foldl_keeps) | intro _ _ _ | split | (with_reducible first | apply KeepsOf.put rfl | apply KeepsOf.filter) | dsimp only [Keeps]

theorem State.nudgeNow_keeps {s₀ s : State} (h : Keeps s₀ s) (c : Chan) : Keeps s₀ (State.nudgeNow s c) := by
  unfold State.nudgeNow
  try dsimp only [Keeps]
  repeat' first | (with_reducible first | assumption | apply State.setDoor_keeps | apply State.doorStartClose_keeps) | (with_reducible first | apply each_keeps | apply foldl_keeps) | intro _ _ _ | split | (with_reducible first | apply KeepsOf.put rfl | apply KeepsOf.filter) | dsimp only [Keeps]

theorem execDoorNudge_keeps (axis : Chan) (s : State) : Answers s (execDoorNudge axis s) := by
  have h := Keeps.refl s
  unfold execDoorNudge
  refine ⟨_, rfl, ?_⟩
  try dsimp only [Keeps]
  repeat' first | (with_reducible first | assumption | apply State.nudgeNow_keeps) | (with_reducible first | apply each_keeps | apply foldl_keeps) | intro _ _ _ | split | (with_reducible first | apply KeepsOf.put rfl | apply KeepsOf.filter) | dsimp only [Keeps]

theorem execDoorReverseEnd_keeps (axis : Chan) (s : State) : Answers s (execDoorReverseEnd axis s) := by
  have h := Keeps.refl s
  unfold execDoorReverseEnd
  refine ⟨_, rfl, ?_⟩
  try dsimp only [Keeps]
  repeat' first | (with_reducible first | assumption | apply State.setDoor_keeps | apply State.doorStartOpen_keeps | apply State.doorInto_keeps) | (with_reducible first | apply each_keeps | apply foldl_keeps) | intro _ _ _ | split | (with_reducible first | apply KeepsOf.put rfl | apply KeepsOf.filter) | dsimp only [Keeps]

theorem State.learnDone_keeps {s₀ s : State} (h : Keeps s₀ s) (c : Chan) (l : Learn) : Keeps s₀ (State.learnDone s c l) := by
  unfold State.learnDone
  try dsimp only [Keeps]
  repeat' first | (with_reducible first | assumption | apply State.doorLearnAbort_keeps | apply State.wi_keeps | apply State.wf__keeps | apply State.setDoor_keeps | apply State.doorInto_keeps | apply State.raise_keeps) | (with_reducible first | apply each_keeps | apply foldl_keeps) | intro _ _ _ | split | (with_reducible first | apply KeepsOf.put rfl | apply KeepsOf.filter) | dsimp only [Keeps]

theorem execDoorLearnDone_keeps (axis : Chan) (s : State) : Answers s (execDoorLearnDone axis s) := by
  have h := Keeps.refl s
  unfold execDoorLearnDone
  refine ⟨_, rfl, ?_⟩
  try dsimp only [Keeps]
  repeat' first | (with_reducible first | assumption | apply State.learnDone_keeps) | (with_reducible first | apply each_keeps | apply foldl_keeps) | intro _ _ _ | split | (with_reducible first | apply KeepsOf.put rfl | apply KeepsOf.filter) | dsimp only [Keeps]

theorem execDoorStageFault_keeps (axis : Chan) (code : Nat) (s : State) : Answers s (execDoorStageFault axis code s) := by
  have h := Keeps.refl s
  unfold execDoorStageFault
  refine ⟨_, rfl, ?_⟩
  try dsimp only [Keeps]
  repeat' first | (with_reducible first | assumption | apply State.setDoor_keeps | apply State.doorFaulted_keeps) | (with_reducible first | apply each_keeps | apply foldl_keeps) | intro _ _ _ | split | (with_reducible first | apply KeepsOf.put rfl | apply KeepsOf.filter) | dsimp only [Keeps]

theorem State.supplyBad_keeps {s₀ s : State} (h : Keeps s₀ s) (c : Chan) (overLimit : Bool) : Keeps s₀ (State.supplyBad s c overLimit) := by
  unfold State.supplyBad
  try dsimp only [Keeps]
  repeat' first | (with_reducible first | assumption | apply State.setDoor_keeps) | (with_reducible first | apply each_keeps | apply foldl_keeps) | intro _ _ _ | split | (with_reducible first | apply KeepsOf.put rfl | apply KeepsOf.filter) | dsimp only [Keeps]

theorem execDoorSupplyFault_keeps (overLimit : Bool) (s : State) : Answers s (execDoorSupplyFault overLimit s) := by
  have h := Keeps.refl s
  unfold execDoorSupplyFault
  refine ⟨_, rfl, ?_⟩
  try dsimp only [Keeps]
  repeat' first | (with_reducible first | assumption | apply State.supplyBad_keeps) | (with_reducible first | apply each_keeps | apply foldl_keeps) | intro _ _ _ | split | (with_reducible first | apply KeepsOf.put rfl | apply KeepsOf.filter) | dsimp only [Keeps]

theorem State.doorWaited_keeps {s₀ s : State} (h : Keeps s₀ s) (c : Chan) : Keeps s₀ (State.doorWaited s c) := by
  unfold State.doorWaited
  try dsimp only [Keeps]
  repeat' first | (with_reducible first | assumption | apply State.setDoor_keeps | apply State.doorOpenAct_keeps | apply State.doorCloseAct_keeps) | (with_reducible first | apply each_keeps | apply foldl_keeps) | intro _ _ _ | split | (with_reducible first | apply KeepsOf.put rfl | apply KeepsOf.filter) | dsimp only [Keeps]

theorem State.supplyGood_keeps {s₀ s : State} (h : Keeps s₀ s) (c : Chan) (overLimit : Bool) : Keeps s₀ (State.supplyGood s c overLimit) := by
  unfold State.supplyGood
  try dsimp only [Keeps]
  repeat' first | (with_reducible first | assumption | apply State.setDoor_keeps | apply State.doorWaited_keeps) | (with_reducible first | apply each_keeps | apply foldl_keeps) | intro _ _ _ | split | (with_reducible first | apply KeepsOf.put rfl | apply KeepsOf.filter) | dsimp only [Keeps]

theorem execDoorSupplyRecover_keeps (overLimit : Bool) (s : State) : Answers s (execDoorSupplyRecover overLimit s) := by
  have h := Keeps.refl s
  unfold execDoorSupplyRecover
  refine ⟨_, rfl, ?_⟩
  try dsimp only [Keeps]
  repeat' first | (with_reducible first | assumption | apply State.supplyGood_keeps) | (with_reducible first | apply each_keeps | apply foldl_keeps) | intro _ _ _ | split | (with_reducible first | apply KeepsOf.put rfl | apply KeepsOf.filter) | dsimp only [Keeps]

theorem State.doorRest_keeps {s₀ s : State} (h : Keeps s₀ s) (c : Chan) : Keeps s₀ (State.doorRest s c) := by
  unfold State.doorRest
  try dsimp only [Keeps]
  repeat' first | (with_reducible first | assumption | apply State.setDoor_keeps | apply State.raise_keeps | apply State.doorLosePos_keeps | apply State.doorInto_keeps | apply State.doorWaited_keeps) | (with_reducible first | apply each_keeps | apply foldl_keeps) | intro _ _ _ | split | (with_reducible first | apply KeepsOf.put rfl | apply KeepsOf.filter) | dsimp only [Keeps]

theorem execDoorRestDetect_keeps (axis : Chan) (count : Int) (s : State) : Answers s (execDoorRestDetect axis count s) := by
  have h := Keeps.refl s
  unfold execDoorRestDetect
  refine ⟨_, rfl, ?_⟩
  try dsimp only [Keeps]
  repeat' first | (with_reducible first | assumption | apply State.doorRest_keeps) | (with_reducible first | apply each_keeps | apply foldl_keeps) | intro _ _ _ | split | (with_reducible first | apply KeepsOf.put rfl | apply KeepsOf.filter) | dsimp only [Keeps]

theorem execDoorPeakExhausted_keeps (axis : Chan) (s : State) : Answers s (execDoorPeakExhausted axis s) := by
  have h := Keeps.refl s
  unfold execDoorPeakExhausted
  refine ⟨_, rfl, ?_⟩
  try dsimp only [Keeps]
  repeat' first | (with_reducible first | assumption | apply State.setDoor_keeps) | (with_reducible first | apply each_keeps | apply foldl_keeps) | intro _ _ _ | split | (with_reducible first | apply KeepsOf.put rfl | apply KeepsOf.filter) | dsimp only [Keeps]

theorem execDoorStagePowerUp_keeps (axis : Chan) (count : Int) (down : DownTime) (s : State) : Answers s (execDoorStagePowerUp axis count down s) := by
  have h := Keeps.refl s
  unfold execDoorStagePowerUp
  refine ⟨_, rfl, ?_⟩
  try dsimp only [Keeps]
  repeat' first | (with_reducible first | assumption | apply State.doorPowerUp_keeps) | (with_reducible first | apply each_keeps | apply foldl_keeps) | intro _ _ _ | split | (with_reducible first | apply KeepsOf.put rfl | apply KeepsOf.filter) | dsimp only [Keeps]

end Sys2Proof.Machine
end

