-- ==== Sys2Proof/Laws/KeepsFrames.lean ====
section
/-! SUPPORT. The operations of Machine/Frames.lean keep the store canonical and the queue as it is. -/

set_option linter.unusedTactic false
set_option linter.unreachableTactic false

namespace Sys2Proof.Machine

theorem State.lsfFrame_keeps {s₀ s : State} (h : Keeps s₀ s) (bus : Nat) (f : CanFrame) : Keeps s₀ (State.lsfFrame s bus f) := by
  unfold State.lsfFrame
  try dsimp only [Keeps]
  repeat' first | (with_reducible first | assumption | apply State.canIncoming_keeps | apply State.lsfTake_keeps) | (with_reducible first | apply each_keeps | apply foldl_keeps) | intro _ _ _ | split | (with_reducible first | apply KeepsOf.put rfl | apply KeepsOf.filter) | dsimp only [Keeps]

theorem execLsfFrameRx_keeps (bus : Nat) (frame : CanFrame) (s : State) : Answers s (execLsfFrameRx bus frame s) := by
  have h := Keeps.refl s
  unfold execLsfFrameRx
  refine ⟨_, rfl, ?_⟩
  try dsimp only [Keeps]
  repeat' first | (with_reducible first | assumption | apply State.lsfFrame_keeps) | (with_reducible first | apply each_keeps | apply foldl_keeps) | intro _ _ _ | split | (with_reducible first | apply KeepsOf.put rfl | apply KeepsOf.filter) | dsimp only [Keeps]

theorem State.lsfLate_keeps {s₀ s : State} (h : Keeps s₀ s) (slot : Nat) : Keeps s₀ (State.lsfLate s slot) := by
  unfold State.lsfLate
  try dsimp only [Keeps]
  repeat' first | (with_reducible first | assumption | apply State.bump_keeps | apply State.lsfFail_keeps) | (with_reducible first | apply each_keeps | apply foldl_keeps) | intro _ _ _ | split | (with_reducible first | apply KeepsOf.put rfl | apply KeepsOf.filter) | dsimp only [Keeps]

theorem execLsfTimeout_keeps (slot : Nat) (s : State) : Answers s (execLsfTimeout slot s) := by
  have h := Keeps.refl s
  unfold execLsfTimeout
  refine ⟨_, rfl, ?_⟩
  try dsimp only [Keeps]
  repeat' first | (with_reducible first | assumption | apply State.lsfTake_keeps | apply State.lsfLate_keeps) | (with_reducible first | apply each_keeps | apply foldl_keeps) | intro _ _ _ | split | (with_reducible first | apply KeepsOf.put rfl | apply KeepsOf.filter) | dsimp only [Keeps]

theorem execLsfCrcRate_keeps (slot : Nat) (s : State) : Answers s (execLsfCrcRate slot s) := by
  have h := Keeps.refl s
  unfold execLsfCrcRate
  refine ⟨_, rfl, ?_⟩
  try dsimp only [Keeps]
  repeat' first | (with_reducible first | assumption | apply State.lsfFail_keeps) | (with_reducible first | apply each_keeps | apply foldl_keeps) | intro _ _ _ | split | (with_reducible first | apply KeepsOf.put rfl | apply KeepsOf.filter) | dsimp only [Keeps]

theorem State.lsfUnconf_keeps {s₀ s : State} (h : Keeps s₀ s) (slot : Nat) : Keeps s₀ (State.lsfUnconf s slot) := by
  unfold State.lsfUnconf
  try dsimp only [Keeps]
  repeat' first | (with_reducible first | assumption | apply State.setLsf_keeps) | (with_reducible first | apply each_keeps | apply foldl_keeps) | intro _ _ _ | split | (with_reducible first | apply KeepsOf.put rfl | apply KeepsOf.filter) | dsimp only [Keeps]

theorem execLsfConfTimeout_keeps (slot : Nat) (s : State) : Answers s (execLsfConfTimeout slot s) := by
  have h := Keeps.refl s
  unfold execLsfConfTimeout
  refine ⟨_, rfl, ?_⟩
  try dsimp only [Keeps]
  repeat' first | (with_reducible first | assumption | apply State.lsfTake_keeps | apply State.lsfUnconf_keeps) | (with_reducible first | apply each_keeps | apply foldl_keeps) | intro _ _ _ | split | (with_reducible first | apply KeepsOf.put rfl | apply KeepsOf.filter) | dsimp only [Keeps]

theorem execLsfProduce_keeps (slot : Nat) (identical : Bool) (s : State) : Answers s (execLsfProduce slot identical s) := by
  have h := Keeps.refl s
  unfold execLsfProduce
  refine ⟨_, rfl, ?_⟩
  try dsimp only [Keeps]
  repeat' first | (with_reducible first | assumption | apply State.lsfProduceNow_keeps) | (with_reducible first | apply each_keeps | apply foldl_keeps) | intro _ _ _ | split | (with_reducible first | apply KeepsOf.put rfl | apply KeepsOf.filter) | dsimp only [Keeps]

theorem execLsfRestart_keeps (src : Src) (val : Word) (s : State) : Answers s (execLsfRestart src val s) := by
  have h := Keeps.refl s
  unfold execLsfRestart
  refine ⟨_, rfl, ?_⟩
  try dsimp only [Keeps]
  repeat' first | (with_reducible first | assumption | apply State.command_keeps) | (with_reducible first | apply each_keeps | apply foldl_keeps) | intro _ _ _ | split | (with_reducible first | apply KeepsOf.put rfl | apply KeepsOf.filter) | dsimp only [Keeps]

theorem execLsfCntClr_keeps (src : Src) (s : State) : Answers s (execLsfCntClr src s) := by
  have h := Keeps.refl s
  unfold execLsfCntClr
  refine ⟨_, rfl, ?_⟩
  try dsimp only [Keeps]
  repeat' first | (with_reducible first | assumption | apply State.command_keeps) | (with_reducible first | apply each_keeps | apply foldl_keeps) | intro _ _ _ | split | (with_reducible first | apply KeepsOf.put rfl | apply KeepsOf.filter) | dsimp only [Keeps]

theorem execCanFrameRx_keeps (n : Nat) (frame : CanFrame) (s : State) : Answers s (execCanFrameRx n frame s) := by
  have h := Keeps.refl s
  unfold execCanFrameRx
  refine ⟨_, rfl, ?_⟩
  try dsimp only [Keeps]
  repeat' first | (with_reducible first | assumption | apply State.canIncoming_keeps) | (with_reducible first | apply each_keeps | apply foldl_keeps) | intro _ _ _ | split | (with_reducible first | apply KeepsOf.put rfl | apply KeepsOf.filter) | dsimp only [Keeps]

theorem execCanTxReq_keeps (src : Src) (n : Nat) (val : Word) (s : State) : Answers s (execCanTxReq src n val s) := by
  have h := Keeps.refl s
  unfold execCanTxReq
  refine ⟨_, rfl, ?_⟩
  try dsimp only [Keeps]
  repeat' first | (with_reducible first | assumption | apply State.command_keeps) | (with_reducible first | apply each_keeps | apply foldl_keeps) | intro _ _ _ | split | (with_reducible first | apply KeepsOf.put rfl | apply KeepsOf.filter) | dsimp only [Keeps]

theorem execCanTxAbort_keeps (src : Src) (n : Nat) (val : Word) (s : State) : Answers s (execCanTxAbort src n val s) := by
  have h := Keeps.refl s
  unfold execCanTxAbort
  refine ⟨_, rfl, ?_⟩
  try dsimp only [Keeps]
  repeat' first | (with_reducible first | assumption | apply State.command_keeps) | (with_reducible first | apply each_keeps | apply foldl_keeps) | intro _ _ _ | split | (with_reducible first | apply KeepsOf.put rfl | apply KeepsOf.filter) | dsimp only [Keeps]

theorem State.attemptEnd_keeps {s₀ s : State} (h : Keeps s₀ s) (n : Nat) (obj : Nat) (out : AttemptEnd) (sofUs : Nat) : Keeps s₀ (State.attemptEnd s n obj out sofUs) := by
  unfold State.attemptEnd
  try dsimp only [Keeps]
  repeat' first | (with_reducible first | assumption | apply State.canAttempt_keeps | apply State.bidSent_keeps | apply State.canAbort_keeps) | (with_reducible first | apply each_keeps | apply foldl_keeps) | intro _ _ _ | split | (with_reducible first | apply KeepsOf.put rfl | apply KeepsOf.filter) | dsimp only [Keeps]

theorem execCanTxAttemptEnd_keeps (n : Nat) (obj : Nat) (outcome : AttemptEnd) (sofUs : Nat) (s : State) : Answers s (execCanTxAttemptEnd n obj outcome sofUs s) := by
  have h := Keeps.refl s
  unfold execCanTxAttemptEnd
  refine ⟨_, rfl, ?_⟩
  try dsimp only [Keeps]
  repeat' first | (with_reducible first | assumption | apply State.attemptEnd_keeps) | (with_reducible first | apply each_keeps | apply foldl_keeps) | intro _ _ _ | split | (with_reducible first | apply KeepsOf.put rfl | apply KeepsOf.filter) | dsimp only [Keeps]

theorem State.canErrorNow_keeps {s₀ s : State} (h : Keeps s₀ s) (n : Nat) (lec : Nat) (transmitting : Bool) (increment : Nat) : Keeps s₀ (State.canErrorNow s n lec transmitting increment) := by
  unfold State.canErrorNow
  try dsimp only [Keeps]
  repeat' first | (with_reducible first | assumption | apply State.setCan_keeps | apply State.canErrState_keeps) | (with_reducible first | apply each_keeps | apply foldl_keeps) | intro _ _ _ | split | (with_reducible first | apply KeepsOf.put rfl | apply KeepsOf.filter) | dsimp only [Keeps]

theorem execCanError_keeps (n : Nat) (lec : Nat) (transmitting : Bool) (increment : Nat) (s : State) : Answers s (execCanError n lec transmitting increment s) := by
  have h := Keeps.refl s
  unfold execCanError
  refine ⟨_, rfl, ?_⟩
  try dsimp only [Keeps]
  repeat' first | (with_reducible first | assumption | apply State.canErrorNow_keeps) | (with_reducible first | apply each_keeps | apply foldl_keeps) | intro _ _ _ | split | (with_reducible first | apply KeepsOf.put rfl | apply KeepsOf.filter) | dsimp only [Keeps]

theorem State.busOffNow_keeps {s₀ s : State} (h : Keeps s₀ s) (n : Nat) : Keeps s₀ (State.busOffNow s n) := by
  unfold State.busOffNow
  try dsimp only [Keeps]
  repeat' first | (with_reducible first | assumption | apply State.canInto_keeps | apply State.raise_keeps | apply State.bump_keeps | apply State.fire_keeps) | (with_reducible first | apply each_keeps | apply foldl_keeps) | intro _ _ _ | split | (with_reducible first | apply KeepsOf.put rfl | apply KeepsOf.filter) | dsimp only [Keeps]

theorem execCanBusOff_keeps (n : Nat) (s : State) : Answers s (execCanBusOff n s) := by
  have h := Keeps.refl s
  unfold execCanBusOff
  refine ⟨_, rfl, ?_⟩
  try dsimp only [Keeps]
  repeat' first | (with_reducible first | assumption | apply State.busOffNow_keeps) | (with_reducible first | apply each_keeps | apply foldl_keeps) | intro _ _ _ | split | (with_reducible first | apply KeepsOf.put rfl | apply KeepsOf.filter) | dsimp only [Keeps]

theorem execCanBusoffRecovery_keeps (n : Nat) (s : State) : Answers s (execCanBusoffRecovery n s) := by
  have h := Keeps.refl s
  unfold execCanBusoffRecovery
  refine ⟨_, rfl, ?_⟩
  try dsimp only [Keeps]
  repeat' first | (with_reducible first | assumption | apply State.setCan_keeps | apply State.canInto_keeps) | (with_reducible first | apply each_keeps | apply foldl_keeps) | intro _ _ _ | split | (with_reducible first | apply KeepsOf.put rfl | apply KeepsOf.filter) | dsimp only [Keeps]

theorem execCanAlone_keeps (n : Nat) (s : State) : Answers s (execCanAlone n s) := by
  have h := Keeps.refl s
  unfold execCanAlone
  refine ⟨_, rfl, ?_⟩
  try dsimp only [Keeps]
  repeat' first | (with_reducible first | assumption | apply State.setCan_keeps | apply State.raise_keeps) | (with_reducible first | apply each_keeps | apply foldl_keeps) | intro _ _ _ | split | (with_reducible first | apply KeepsOf.put rfl | apply KeepsOf.filter) | dsimp only [Keeps]

theorem execCanSleep_keeps (src : Src) (n : Nat) (s : State) : Answers s (execCanSleep src n s) := by
  have h := Keeps.refl s
  unfold execCanSleep
  refine ⟨_, rfl, ?_⟩
  try dsimp only [Keeps]
  repeat' first | (with_reducible first | assumption | apply State.command_keeps) | (with_reducible first | apply each_keeps | apply foldl_keeps) | intro _ _ _ | split | (with_reducible first | apply KeepsOf.put rfl | apply KeepsOf.filter) | dsimp only [Keeps]

theorem execCanLocalWake_keeps (src : Src) (n : Nat) (s : State) : Answers s (execCanLocalWake src n s) := by
  have h := Keeps.refl s
  unfold execCanLocalWake
  refine ⟨_, rfl, ?_⟩
  try dsimp only [Keeps]
  repeat' first | (with_reducible first | assumption | apply State.command_keeps) | (with_reducible first | apply each_keeps | apply foldl_keeps) | intro _ _ _ | split | (with_reducible first | apply KeepsOf.put rfl | apply KeepsOf.filter) | dsimp only [Keeps]

theorem State.canWoken_keeps {s₀ s : State} (h : Keeps s₀ s) (n : Nat) (code : Nat) : Keeps s₀ (State.canWoken s n code) := by
  unfold State.canWoken
  try dsimp only [Keeps]
  repeat' first | (with_reducible first | assumption | apply State.deepEnd_keeps | apply State.canWakeNow_keeps | apply State.parkEnd_keeps) | (with_reducible first | apply each_keeps | apply foldl_keeps) | intro _ _ _ | split | (with_reducible first | apply KeepsOf.put rfl | apply KeepsOf.filter) | dsimp only [Keeps]

theorem execCanWake_keeps (n : Nat) (cause : CanWake) (frame : Option CanFrame) (s : State) : Answers s (execCanWake n cause frame s) := by
  have h := Keeps.refl s
  unfold execCanWake
  refine ⟨_, rfl, ?_⟩
  try dsimp only [Keeps]
  repeat' first | (with_reducible first | assumption | apply State.canWoken_keeps) | (with_reducible first | apply each_keeps | apply foldl_keeps) | intro _ _ _ | split | (with_reducible first | apply KeepsOf.put rfl | apply KeepsOf.filter) | dsimp only [Keeps]

theorem execCanIntegrate_keeps (n : Nat) (s : State) : Answers s (execCanIntegrate n s) := by
  have h := Keeps.refl s
  unfold execCanIntegrate
  refine ⟨_, rfl, ?_⟩
  try dsimp only [Keeps]
  repeat' first | (with_reducible first | assumption | apply State.setCan_keeps | apply State.canInto_keeps) | (with_reducible first | apply each_keeps | apply foldl_keeps) | intro _ _ _ | split | (with_reducible first | apply KeepsOf.put rfl | apply KeepsOf.filter) | dsimp only [Keeps]

theorem execCanCntClr_keeps (src : Src) (n : Nat) (s : State) : Answers s (execCanCntClr src n s) := by
  have h := Keeps.refl s
  unfold execCanCntClr
  refine ⟨_, rfl, ?_⟩
  try dsimp only [Keeps]
  repeat' first | (with_reducible first | assumption | apply State.command_keeps) | (with_reducible first | apply each_keeps | apply foldl_keeps) | intro _ _ _ | split | (with_reducible first | apply KeepsOf.put rfl | apply KeepsOf.filter) | dsimp only [Keeps]

end Sys2Proof.Machine
end

