-- ==== Sys2Proof/Laws/KeepsField.lean ====
section
/-! SUPPORT. The operations of Machine/Field.lean keep the store canonical and the queue as it is. -/

set_option linter.unusedTactic false
set_option linter.unreachableTactic false

namespace Sys2Proof.Machine

theorem State.btnDisarm_keeps {s₀ s : State} (h : Keeps s₀ s) (g : Nat) : Keeps s₀ (State.btnDisarm s g) := by
  unfold State.btnDisarm
  try dsimp only [Keeps]
  repeat' first | (with_reducible first | assumption ) | (with_reducible first | apply each_keeps | apply foldl_keeps) | intro _ _ _ | split | (with_reducible first | apply KeepsOf.put rfl | apply KeepsOf.filter) | dsimp only [Keeps]

theorem State.btnTick_keeps {s₀ s : State} (h : Keeps s₀ s) (g : Nat) (ch : List (Nat × Bool)) (n : Nat) : Keeps s₀ (State.btnTick s g ch n) := by
  unfold State.btnTick
  try dsimp only [Keeps]
  repeat' first | (with_reducible first | assumption | apply State.buttonOn_keeps | apply State.buttonOff_keeps) | (with_reducible first | apply each_keeps | apply foldl_keeps) | intro _ _ _ | split | (with_reducible first | apply KeepsOf.put rfl | apply KeepsOf.filter) | dsimp only [Keeps]

theorem State.fieldTick_keeps {s₀ s : State} (h : Keeps s₀ s) (g : Nat) (raw : Word) : Keeps s₀ (State.fieldTick s g raw) := by
  unfold State.fieldTick
  try dsimp only [Keeps]
  repeat' first | (with_reducible first | assumption | apply State.filterTick_keeps | apply State.btnDisarm_keeps | apply State.parkEnd_keeps | apply each_keeps | apply State.btnTick_keeps) | (with_reducible first | apply each_keeps | apply foldl_keeps) | intro _ _ _ | split | (with_reducible first | apply KeepsOf.put rfl | apply KeepsOf.filter) | dsimp only [Keeps]

theorem execFieldFilterTick_keeps (group : Nat) (raw : Word) (s : State) : Answers s (execFieldFilterTick group raw s) := by
  have h := Keeps.refl s
  unfold execFieldFilterTick
  refine ⟨_, rfl, ?_⟩
  try dsimp only [Keeps]
  repeat' first | (with_reducible first | assumption | apply State.fieldTick_keeps) | (with_reducible first | apply each_keeps | apply foldl_keeps) | intro _ _ _ | split | (with_reducible first | apply KeepsOf.put rfl | apply KeepsOf.filter) | dsimp only [Keeps]

theorem execFioOutSet_keeps (src : Src) (group : Nat) (val : Word) (s : State) : Answers s (execFioOutSet src group val s) := by
  have h := Keeps.refl s
  unfold execFioOutSet
  refine ⟨_, rfl, ?_⟩
  try dsimp only [Keeps]
  repeat' first | (with_reducible first | assumption | apply State.command_keeps) | (with_reducible first | apply each_keeps | apply foldl_keeps) | intro _ _ _ | split | (with_reducible first | apply KeepsOf.put rfl | apply KeepsOf.filter) | dsimp only [Keeps]

theorem execFioOutClr_keeps (src : Src) (group : Nat) (val : Word) (s : State) : Answers s (execFioOutClr src group val s) := by
  have h := Keeps.refl s
  unfold execFioOutClr
  refine ⟨_, rfl, ?_⟩
  try dsimp only [Keeps]
  repeat' first | (with_reducible first | assumption | apply State.command_keeps) | (with_reducible first | apply each_keeps | apply foldl_keeps) | intro _ _ _ | split | (with_reducible first | apply KeepsOf.put rfl | apply KeepsOf.filter) | dsimp only [Keeps]

theorem execFioTsd_keeps (channel : Nat) (s : State) : Answers s (execFioTsd channel s) := by
  have h := Keeps.refl s
  unfold execFioTsd
  refine ⟨_, rfl, ?_⟩
  try dsimp only [Keeps]
  repeat' first | (with_reducible first | assumption | apply State.tsdSet_keeps) | (with_reducible first | apply each_keeps | apply foldl_keeps) | intro _ _ _ | split | (with_reducible first | apply KeepsOf.put rfl | apply KeepsOf.filter) | dsimp only [Keeps]

theorem execFioTsdRecover_keeps (channel : Nat) (s : State) : Answers s (execFioTsdRecover channel s) := by
  have h := Keeps.refl s
  unfold execFioTsdRecover
  refine ⟨_, rfl, ?_⟩
  try dsimp only [Keeps]
  repeat' first | (with_reducible first | assumption | apply State.tsdCool_keeps) | (with_reducible first | apply each_keeps | apply foldl_keeps) | intro _ _ _ | split | (with_reducible first | apply KeepsOf.put rfl | apply KeepsOf.filter) | dsimp only [Keeps]

theorem execFioTsdClr_keeps (src : Src) (group : Nat) (val : Word) (s : State) : Answers s (execFioTsdClr src group val s) := by
  have h := Keeps.refl s
  unfold execFioTsdClr
  refine ⟨_, rfl, ?_⟩
  try dsimp only [Keeps]
  repeat' first | (with_reducible first | assumption | apply State.command_keeps) | (with_reducible first | apply each_keeps | apply foldl_keeps) | intro _ _ _ | split | (with_reducible first | apply KeepsOf.put rfl | apply KeepsOf.filter) | dsimp only [Keeps]

theorem State.grpOcNow_keeps {s₀ s : State} (h : Keeps s₀ s) (g : Nat) : Keeps s₀ (State.grpOcNow s g) := by
  unfold State.grpOcNow
  try dsimp only [Keeps]
  repeat' first | (with_reducible first | assumption | apply State.setGrp_keeps | apply State.raise_keeps | apply State.fire_keeps) | (with_reducible first | apply each_keeps | apply foldl_keeps) | intro _ _ _ | split | (with_reducible first | apply KeepsOf.put rfl | apply KeepsOf.filter) | dsimp only [Keeps]

theorem execGrpOc_keeps (group : Nat) (s : State) : Answers s (execGrpOc group s) := by
  have h := Keeps.refl s
  unfold execGrpOc
  refine ⟨_, rfl, ?_⟩
  try dsimp only [Keeps]
  repeat' first | (with_reducible first | assumption | apply State.grpOcNow_keeps) | (with_reducible first | apply each_keeps | apply foldl_keeps) | intro _ _ _ | split | (with_reducible first | apply KeepsOf.put rfl | apply KeepsOf.filter) | dsimp only [Keeps]

theorem execFioGrpClr_keeps (src : Src) (group : Nat) (s : State) : Answers s (execFioGrpClr src group s) := by
  have h := Keeps.refl s
  unfold execFioGrpClr
  refine ⟨_, rfl, ?_⟩
  try dsimp only [Keeps]
  repeat' first | (with_reducible first | assumption | apply State.command_keeps) | (with_reducible first | apply each_keeps | apply foldl_keeps) | intro _ _ _ | split | (with_reducible first | apply KeepsOf.put rfl | apply KeepsOf.filter) | dsimp only [Keeps]

theorem execFioDiagChange_keeps (channel : Nat) (kind : Diag) (present : Bool) (s : State) : Answers s (execFioDiagChange channel kind present s) := by
  have h := Keeps.refl s
  unfold execFioDiagChange
  refine ⟨_, rfl, ?_⟩
  try dsimp only [Keeps]
  repeat' first | (with_reducible first | assumption | apply State.diagSet_keeps) | (with_reducible first | apply each_keeps | apply foldl_keeps) | intro _ _ _ | split | (with_reducible first | apply KeepsOf.put rfl | apply KeepsOf.filter) | dsimp only [Keeps]

theorem execFieldSupplyChange_keeps (group : Nat) (mv : Nat) (s : State) : Answers s (execFieldSupplyChange group mv s) := by
  have h := Keeps.refl s
  unfold execFieldSupplyChange
  refine ⟨_, rfl, ?_⟩
  try dsimp only [Keeps]
  repeat' first | (with_reducible first | assumption | apply State.supplySet_keeps) | (with_reducible first | apply each_keeps | apply foldl_keeps) | intro _ _ _ | split | (with_reducible first | apply KeepsOf.put rfl | apply KeepsOf.filter) | dsimp only [Keeps]

theorem execFioChannelCfg_keeps (src : Src) (channel : Nat) (val : Word) (s : State) : Answers s (execFioChannelCfg src channel val s) := by
  have h := Keeps.refl s
  unfold execFioChannelCfg
  refine ⟨_, rfl, ?_⟩
  try dsimp only [Keeps]
  repeat' first | (with_reducible first | assumption | apply State.command_keeps) | (with_reducible first | apply each_keeps | apply foldl_keeps) | intro _ _ _ | split | (with_reducible first | apply KeepsOf.put rfl | apply KeepsOf.filter) | dsimp only [Keeps]

theorem execSilenceTimeout_keeps  (s : State) : Answers s (execSilenceTimeout s) := by
  have h := Keeps.refl s
  unfold execSilenceTimeout
  refine ⟨_, rfl, ?_⟩
  try dsimp only [Keeps]
  repeat' first | (with_reducible first | assumption | apply State.silExpire_keeps) | (with_reducible first | apply each_keeps | apply foldl_keeps) | intro _ _ _ | split | (with_reducible first | apply KeepsOf.put rfl | apply KeepsOf.filter) | dsimp only [Keeps]

theorem execSilAck_keeps (src : Src) (s : State) : Answers s (execSilAck src s) := by
  have h := Keeps.refl s
  unfold execSilAck
  refine ⟨_, rfl, ?_⟩
  try dsimp only [Keeps]
  repeat' first | (with_reducible first | assumption | apply State.command_keeps) | (with_reducible first | apply each_keeps | apply foldl_keeps) | intro _ _ _ | split | (with_reducible first | apply KeepsOf.put rfl | apply KeepsOf.filter) | dsimp only [Keeps]

end Sys2Proof.Machine
end

