-- ==== Sys2Proof/Laws/KeepsKeys.lean ====
section
/-! SUPPORT. The operations of Machine/Keys.lean keep the store canonical and the queue as it is. -/

set_option linter.unusedTactic false
set_option linter.unreachableTactic false

namespace Sys2Proof.Machine

theorem State.keyWrite_keeps {s₀ s : State} (h : Keeps s₀ s) (op : Nat) (src : Src) (cmd : Word) : Keeps s₀ (State.keyWrite s op src cmd) := by
  unfold State.keyWrite
  try dsimp only [Keeps]
  repeat' first | (with_reducible first | assumption | apply State.command_keeps) | (with_reducible first | apply each_keeps | apply foldl_keeps) | intro _ _ _ | split | (with_reducible first | apply KeepsOf.put rfl | apply KeepsOf.filter) | dsimp only [Keeps]

theorem execKeyLoad_keeps (src : Src) (cmd : Word) (s : State) : Answers s (execKeyLoad src cmd s) := by
  have h := Keeps.refl s
  unfold execKeyLoad
  refine ⟨_, rfl, ?_⟩
  try dsimp only [Keeps]
  repeat' first | (with_reducible first | assumption | apply State.keyWrite_keeps) | (with_reducible first | apply each_keeps | apply foldl_keeps) | intro _ _ _ | split | (with_reducible first | apply KeepsOf.put rfl | apply KeepsOf.filter) | dsimp only [Keeps]

theorem execKeyUnload_keeps (src : Src) (cmd : Word) (s : State) : Answers s (execKeyUnload src cmd s) := by
  have h := Keeps.refl s
  unfold execKeyUnload
  refine ⟨_, rfl, ?_⟩
  try dsimp only [Keeps]
  repeat' first | (with_reducible first | assumption | apply State.keyWrite_keeps) | (with_reducible first | apply each_keeps | apply foldl_keeps) | intro _ _ _ | split | (with_reducible first | apply KeepsOf.put rfl | apply KeepsOf.filter) | dsimp only [Keeps]

theorem execKeyReplace_keeps (src : Src) (cmd : Word) (s : State) : Answers s (execKeyReplace src cmd s) := by
  have h := Keeps.refl s
  unfold execKeyReplace
  refine ⟨_, rfl, ?_⟩
  try dsimp only [Keeps]
  repeat' first | (with_reducible first | assumption | apply State.keyWrite_keeps) | (with_reducible first | apply each_keeps | apply foldl_keeps) | intro _ _ _ | split | (with_reducible first | apply KeepsOf.put rfl | apply KeepsOf.filter) | dsimp only [Keeps]

theorem execKeyGenerate_keeps (src : Src) (cmd : Word) (s : State) : Answers s (execKeyGenerate src cmd s) := by
  have h := Keeps.refl s
  unfold execKeyGenerate
  refine ⟨_, rfl, ?_⟩
  try dsimp only [Keeps]
  repeat' first | (with_reducible first | assumption | apply State.keyWrite_keeps) | (with_reducible first | apply each_keeps | apply foldl_keeps) | intro _ _ _ | split | (with_reducible first | apply KeepsOf.put rfl | apply KeepsOf.filter) | dsimp only [Keeps]

theorem execKeyImport_keeps (src : Src) (cmd : Word) (s : State) : Answers s (execKeyImport src cmd s) := by
  have h := Keeps.refl s
  unfold execKeyImport
  refine ⟨_, rfl, ?_⟩
  try dsimp only [Keeps]
  repeat' first | (with_reducible first | assumption | apply State.keyWrite_keeps) | (with_reducible first | apply each_keeps | apply foldl_keeps) | intro _ _ _ | split | (with_reducible first | apply KeepsOf.put rfl | apply KeepsOf.filter) | dsimp only [Keeps]

theorem execKeyDerive_keeps (src : Src) (cmd : Word) (s : State) : Answers s (execKeyDerive src cmd s) := by
  have h := Keeps.refl s
  unfold execKeyDerive
  refine ⟨_, rfl, ?_⟩
  try dsimp only [Keeps]
  repeat' first | (with_reducible first | assumption | apply State.keyWrite_keeps) | (with_reducible first | apply each_keeps | apply foldl_keeps) | intro _ _ _ | split | (with_reducible first | apply KeepsOf.put rfl | apply KeepsOf.filter) | dsimp only [Keeps]

theorem execKeyStoreRes_keeps (src : Src) (cmd : Word) (s : State) : Answers s (execKeyStoreRes src cmd s) := by
  have h := Keeps.refl s
  unfold execKeyStoreRes
  refine ⟨_, rfl, ?_⟩
  try dsimp only [Keeps]
  repeat' first | (with_reducible first | assumption | apply State.keyWrite_keeps) | (with_reducible first | apply each_keeps | apply foldl_keeps) | intro _ _ _ | split | (with_reducible first | apply KeepsOf.put rfl | apply KeepsOf.filter) | dsimp only [Keeps]

theorem execKeyEraseRes_keeps (src : Src) (cmd : Word) (s : State) : Answers s (execKeyEraseRes src cmd s) := by
  have h := Keeps.refl s
  unfold execKeyEraseRes
  refine ⟨_, rfl, ?_⟩
  try dsimp only [Keeps]
  repeat' first | (with_reducible first | assumption | apply State.keyWrite_keeps) | (with_reducible first | apply each_keeps | apply foldl_keeps) | intro _ _ _ | split | (with_reducible first | apply KeepsOf.put rfl | apply KeepsOf.filter) | dsimp only [Keeps]

theorem execAttestKey_keeps (src : Src) (cmd : Word) (s : State) : Answers s (execAttestKey src cmd s) := by
  have h := Keeps.refl s
  unfold execAttestKey
  refine ⟨_, rfl, ?_⟩
  try dsimp only [Keeps]
  repeat' first | (with_reducible first | assumption | apply State.keyWrite_keeps) | (with_reducible first | apply each_keeps | apply foldl_keeps) | intro _ _ _ | split | (with_reducible first | apply KeepsOf.put rfl | apply KeepsOf.filter) | dsimp only [Keeps]

theorem execAttestDev_keeps (src : Src) (cmd : Word) (s : State) : Answers s (execAttestDev src cmd s) := by
  have h := Keeps.refl s
  unfold execAttestDev
  refine ⟨_, rfl, ?_⟩
  try dsimp only [Keeps]
  repeat' first | (with_reducible first | assumption | apply State.keyWrite_keeps) | (with_reducible first | apply each_keeps | apply foldl_keeps) | intro _ _ _ | split | (with_reducible first | apply KeepsOf.put rfl | apply KeepsOf.filter) | dsimp only [Keeps]

theorem execIdPub_keeps (src : Src) (cmd : Word) (s : State) : Answers s (execIdPub src cmd s) := by
  have h := Keeps.refl s
  unfold execIdPub
  refine ⟨_, rfl, ?_⟩
  try dsimp only [Keeps]
  repeat' first | (with_reducible first | assumption | apply State.keyWrite_keeps) | (with_reducible first | apply each_keeps | apply foldl_keeps) | intro _ _ _ | split | (with_reducible first | apply KeepsOf.put rfl | apply KeepsOf.filter) | dsimp only [Keeps]

theorem execNonce_keeps (src : Src) (cmd : Word) (s : State) : Answers s (execNonce src cmd s) := by
  have h := Keeps.refl s
  unfold execNonce
  refine ⟨_, rfl, ?_⟩
  try dsimp only [Keeps]
  repeat' first | (with_reducible first | assumption | apply State.keyWrite_keeps) | (with_reducible first | apply each_keeps | apply foldl_keeps) | intro _ _ _ | split | (with_reducible first | apply KeepsOf.put rfl | apply KeepsOf.filter) | dsimp only [Keeps]

theorem execLcTransition_keeps (src : Src) (cmd : Word) (s : State) : Answers s (execLcTransition src cmd s) := by
  have h := Keeps.refl s
  unfold execLcTransition
  refine ⟨_, rfl, ?_⟩
  try dsimp only [Keeps]
  repeat' first | (with_reducible first | assumption | apply State.keyWrite_keeps) | (with_reducible first | apply each_keeps | apply foldl_keeps) | intro _ _ _ | split | (with_reducible first | apply KeepsOf.put rfl | apply KeepsOf.filter) | dsimp only [Keeps]

theorem execLcReturn_keeps (src : Src) (cmd : Word) (s : State) : Answers s (execLcReturn src cmd s) := by
  have h := Keeps.refl s
  unfold execLcReturn
  refine ⟨_, rfl, ?_⟩
  try dsimp only [Keeps]
  repeat' first | (with_reducible first | assumption | apply State.keyWrite_keeps) | (with_reducible first | apply each_keeps | apply foldl_keeps) | intro _ _ _ | split | (with_reducible first | apply KeepsOf.put rfl | apply KeepsOf.filter) | dsimp only [Keeps]

theorem execVerify_keeps (src : Src) (cmd : Word) (s : State) : Answers s (execVerify src cmd s) := by
  have h := Keeps.refl s
  unfold execVerify
  refine ⟨_, rfl, ?_⟩
  try dsimp only [Keeps]
  repeat' first | (with_reducible first | assumption | apply State.keyWrite_keeps) | (with_reducible first | apply each_keeps | apply foldl_keeps) | intro _ _ _ | split | (with_reducible first | apply KeepsOf.put rfl | apply KeepsOf.filter) | dsimp only [Keeps]

theorem execKeymgmt_keeps (src : Src) (cmd : Word) (s : State) : Answers s (execKeymgmt src cmd s) := by
  have h := Keeps.refl s
  unfold execKeymgmt
  refine ⟨_, rfl, ?_⟩
  try dsimp only [Keeps]
  repeat' first | (with_reducible first | assumption | apply State.keyWrite_keeps) | (with_reducible first | apply each_keeps | apply foldl_keeps) | intro _ _ _ | split | (with_reducible first | apply KeepsOf.put rfl | apply KeepsOf.filter) | dsimp only [Keeps]

theorem execKeyCommandDone_keeps  (s : State) : Answers s (execKeyCommandDone s) := by
  have h := Keeps.refl s
  unfold execKeyCommandDone
  refine ⟨_, rfl, ?_⟩
  try dsimp only [Keeps]
  repeat' first | (with_reducible first | assumption | apply State.keyDone_keeps) | (with_reducible first | apply each_keeps | apply foldl_keeps) | intro _ _ _ | split | (with_reducible first | apply KeepsOf.put rfl | apply KeepsOf.filter) | dsimp only [Keeps]

theorem execKeySwap_keeps (slot : Nat) (s : State) : Answers s (execKeySwap slot s) := by
  have h := Keeps.refl s
  unfold execKeySwap
  refine ⟨_, rfl, ?_⟩
  try dsimp only [Keeps]
  repeat' first | (with_reducible first | assumption | apply State.keySwap_keeps) | (with_reducible first | apply each_keeps | apply foldl_keeps) | intro _ _ _ | split | (with_reducible first | apply KeepsOf.put rfl | apply KeepsOf.filter) | dsimp only [Keeps]

theorem State.remaskAll_keeps {s₀ s : State} (h : Keeps s₀ s) : Keeps s₀ (State.remaskAll s) := by
  unfold State.remaskAll
  try dsimp only [Keeps]
  repeat' first | (with_reducible first | assumption | apply each_keeps | apply State.remaskSlot_keeps) | (with_reducible first | apply each_keeps | apply foldl_keeps) | intro _ _ _ | split | (with_reducible first | apply KeepsOf.put rfl | apply KeepsOf.filter) | dsimp only [Keeps]

theorem execKeyRemask_keeps  (s : State) : Answers s (execKeyRemask s) := by
  have h := Keeps.refl s
  unfold execKeyRemask
  refine ⟨_, rfl, ?_⟩
  try dsimp only [Keeps]
  repeat' first | (with_reducible first | assumption | apply State.remaskAll_keeps) | (with_reducible first | apply each_keeps | apply foldl_keeps) | intro _ _ _ | split | (with_reducible first | apply KeepsOf.put rfl | apply KeepsOf.filter) | dsimp only [Keeps]

theorem execIdReady_keeps  (s : State) : Answers s (execIdReady s) := by
  have h := Keeps.refl s
  unfold execIdReady
  refine ⟨_, rfl, ?_⟩
  try dsimp only [Keeps]
  repeat' first | (with_reducible first | assumption ) | (with_reducible first | apply each_keeps | apply foldl_keeps) | intro _ _ _ | split | (with_reducible first | apply KeepsOf.put rfl | apply KeepsOf.filter) | dsimp only [Keeps]

theorem execLowerTreeBuild_keeps  (s : State) : Answers s (execLowerTreeBuild s) := by
  have h := Keeps.refl s
  unfold execLowerTreeBuild
  refine ⟨_, rfl, ?_⟩
  try dsimp only [Keeps]
  repeat' first | (with_reducible first | assumption ) | (with_reducible first | apply each_keeps | apply foldl_keeps) | intro _ _ _ | split | (with_reducible first | apply KeepsOf.put rfl | apply KeepsOf.filter) | dsimp only [Keeps]

theorem execServiceExpiry_keeps  (s : State) : Answers s (execServiceExpiry s) := by
  have h := Keeps.refl s
  unfold execServiceExpiry
  refine ⟨_, rfl, ?_⟩
  try dsimp only [Keeps]
  repeat' first | (with_reducible first | assumption | apply State.serviceEnd_keeps) | (with_reducible first | apply each_keeps | apply foldl_keeps) | intro _ _ _ | split | (with_reducible first | apply KeepsOf.put rfl | apply KeepsOf.filter) | dsimp only [Keeps]

theorem State.tamperWake_keeps {s₀ s : State} (h : Keeps s₀ s) : Keeps s₀ (State.tamperWake s) := by
  unfold State.tamperWake
  try dsimp only [Keeps]
  repeat' first | (with_reducible first | assumption | apply State.parkEnd_keeps | apply State.deepEnd_keeps) | (with_reducible first | apply each_keeps | apply foldl_keeps) | intro _ _ _ | split | (with_reducible first | apply KeepsOf.put rfl | apply KeepsOf.filter) | dsimp only [Keeps]

theorem execTamperEvent_keeps (sources : BitVec 4) (s : State) : Answers s (execTamperEvent sources s) := by
  have h := Keeps.refl s
  unfold execTamperEvent
  refine ⟨_, rfl, ?_⟩
  try dsimp only [Keeps]
  repeat' first | (with_reducible first | assumption | apply State.tampered_keeps | apply State.tamperWake_keeps) | (with_reducible first | apply each_keeps | apply foldl_keeps) | intro _ _ _ | split | (with_reducible first | apply KeepsOf.put rfl | apply KeepsOf.filter) | dsimp only [Keeps]

theorem execTamperRelease_keeps (src : Src) (s : State) : Answers s (execTamperRelease src s) := by
  have h := Keeps.refl s
  unfold execTamperRelease
  refine ⟨_, rfl, ?_⟩
  try dsimp only [Keeps]
  repeat' first | (with_reducible first | assumption | apply State.command_keeps) | (with_reducible first | apply each_keeps | apply foldl_keeps) | intro _ _ _ | split | (with_reducible first | apply KeepsOf.put rfl | apply KeepsOf.filter) | dsimp only [Keeps]

theorem State.enrolNow_keeps {s₀ s : State} (h : Keeps s₀ s) (helper : List Byte) (roots : List (List Byte)) : Keeps s₀ (State.enrolNow s helper roots) := by
  unfold State.enrolNow
  try dsimp only [Keeps]
  repeat' first | (with_reducible first | assumption | apply State.lcEnter_keeps) | (with_reducible first | apply each_keeps | apply foldl_keeps) | intro _ _ _ | split | (with_reducible first | apply KeepsOf.put rfl | apply KeepsOf.filter) | dsimp only [Keeps]

theorem execEnrolment_keeps (helper : List Byte) (vendorRoots : List (List Byte)) (s : State) : Answers s (execEnrolment helper vendorRoots s) := by
  have h := Keeps.refl s
  unfold execEnrolment
  refine ⟨_, rfl, ?_⟩
  try dsimp only [Keeps]
  repeat' first | (with_reducible first | assumption | apply State.enrolNow_keeps) | (with_reducible first | apply each_keeps | apply foldl_keeps) | intro _ _ _ | split | (with_reducible first | apply KeepsOf.put rfl | apply KeepsOf.filter) | dsimp only [Keeps]

end Sys2Proof.Machine
end

