-- ==== Sys2Proof/Laws/KeepsClocks.lean ====
section
/-! SUPPORT. The operations of Machine/Clocks.lean keep the store canonical and the queue as it is. -/

set_option linter.unusedTactic false
set_option linter.unreachableTactic false

namespace Sys2Proof.Machine

theorem execStartAttempt_keeps (i : StartIn) (s : State) : Answers s (execStartAttempt i s) := by
  have h := Keeps.refl s
  unfold execStartAttempt
  refine ⟨_, rfl, ?_⟩
  try dsimp only [Keeps]
  repeat' first | (with_reducible first | assumption | apply State.startAttempt_keeps) | (with_reducible first | apply each_keeps | apply foldl_keeps) | intro _ _ _ | split | (with_reducible first | apply KeepsOf.put rfl | apply KeepsOf.filter) | dsimp only [Keeps]

theorem execClockHoldEnd_keeps  (s : State) : Answers s (execClockHoldEnd s) := by
  have h := Keeps.refl s
  unfold execClockHoldEnd
  refine ⟨_, rfl, ?_⟩
  try dsimp only [Keeps]
  repeat' first | (with_reducible first | assumption | apply State.holdEnd_keeps) | (with_reducible first | apply each_keeps | apply foldl_keeps) | intro _ _ _ | split | (with_reducible first | apply KeepsOf.put rfl | apply KeepsOf.filter) | dsimp only [Keeps]

theorem execInvarWindow_keeps (count : Nat) (s : State) : Answers s (execInvarWindow count s) := by
  have h := Keeps.refl s
  unfold execInvarWindow
  refine ⟨_, rfl, ?_⟩
  try dsimp only [Keeps]
  repeat' first | (with_reducible first | assumption | apply State.invar_keeps) | (with_reducible first | apply each_keeps | apply foldl_keeps) | intro _ _ _ | split | (with_reducible first | apply KeepsOf.put rfl | apply KeepsOf.filter) | dsimp only [Keeps]

theorem execXoStop_keeps  (s : State) : Answers s (execXoStop s) := by
  have h := Keeps.refl s
  unfold execXoStop
  refine ⟨_, rfl, ?_⟩
  try dsimp only [Keeps]
  repeat' first | (with_reducible first | assumption | apply State.xoStopped_keeps) | (with_reducible first | apply each_keeps | apply foldl_keeps) | intro _ _ _ | split | (with_reducible first | apply KeepsOf.put rfl | apply KeepsOf.filter) | dsimp only [Keeps]

theorem execPllLossOfLock_keeps (backup : Bool) (s : State) : Answers s (execPllLossOfLock backup s) := by
  have h := Keeps.refl s
  unfold execPllLossOfLock
  refine ⟨_, rfl, ?_⟩
  try dsimp only [Keeps]
  repeat' first | (with_reducible first | assumption | apply State.pllLost_keeps) | (with_reducible first | apply each_keeps | apply foldl_keeps) | intro _ _ _ | split | (with_reducible first | apply KeepsOf.put rfl | apply KeepsOf.filter) | dsimp only [Keeps]

theorem execIrcTrim_keeps (up : Bool) (s : State) : Answers s (execIrcTrim up s) := by
  have h := Keeps.refl s
  unfold execIrcTrim
  refine ⟨_, rfl, ?_⟩
  try dsimp only [Keeps]
  repeat' first | (with_reducible first | assumption | apply State.trimStep_keeps) | (with_reducible first | apply each_keeps | apply foldl_keeps) | intro _ _ _ | split | (with_reducible first | apply KeepsOf.put rfl | apply KeepsOf.filter) | dsimp only [Keeps]

theorem execIrcFail_keeps  (s : State) : Answers s (execIrcFail s) := by
  have h := Keeps.refl s
  unfold execIrcFail
  refine ⟨_, rfl, ?_⟩
  try dsimp only [Keeps]
  repeat' first | (with_reducible first | assumption | apply State.ircStop_keeps) | (with_reducible first | apply each_keeps | apply foldl_keeps) | intro _ _ _ | split | (with_reducible first | apply KeepsOf.put rfl | apply KeepsOf.filter) | dsimp only [Keeps]

theorem execFallbackAcc1pct_keeps  (s : State) : Answers s (execFallbackAcc1pct s) := by
  have h := Keeps.refl s
  unfold execFallbackAcc1pct
  refine ⟨_, rfl, ?_⟩
  try dsimp only [Keeps]
  repeat' first | (with_reducible first | assumption | apply State.fallback_keeps | apply State.raise_keeps) | (with_reducible first | apply each_keeps | apply foldl_keeps) | intro _ _ _ | split | (with_reducible first | apply KeepsOf.put rfl | apply KeepsOf.filter) | dsimp only [Keeps]

theorem execClkGateWrite_keeps (src : Src) (val : Word) (s : State) : Answers s (execClkGateWrite src val s) := by
  have h := Keeps.refl s
  unfold execClkGateWrite
  refine ⟨_, rfl, ?_⟩
  try dsimp only [Keeps]
  repeat' first | (with_reducible first | assumption | apply State.command_keeps) | (with_reducible first | apply each_keeps | apply foldl_keeps) | intro _ _ _ | split | (with_reducible first | apply KeepsOf.put rfl | apply KeepsOf.filter) | dsimp only [Keeps]

theorem State.drainEnd_keeps {s₀ s : State} (h : Keeps s₀ s) (ended : Bool) : Keeps s₀ (State.drainEnd s ended) := by
  unfold State.drainEnd
  try dsimp only [Keeps]
  repeat' first | (with_reducible first | assumption | apply State.wr_keeps | apply State.reject_keeps) | (with_reducible first | apply each_keeps | apply foldl_keeps) | intro _ _ _ | split | (with_reducible first | apply KeepsOf.put rfl | apply KeepsOf.filter) | dsimp only [Keeps]

theorem execGateDrainEnd_keeps (ended : Bool) (s : State) : Answers s (execGateDrainEnd ended s) := by
  have h := Keeps.refl s
  unfold execGateDrainEnd
  refine ⟨_, rfl, ?_⟩
  try dsimp only [Keeps]
  repeat' first | (with_reducible first | assumption | apply State.drainEnd_keeps) | (with_reducible first | apply each_keeps | apply foldl_keeps) | intro _ _ _ | split | (with_reducible first | apply KeepsOf.put rfl | apply KeepsOf.filter) | dsimp only [Keeps]

theorem execClkoutReconfig_keeps  (s : State) : Answers s (execClkoutReconfig s) := by
  have h := Keeps.refl s
  unfold execClkoutReconfig
  refine ⟨_, rfl, ?_⟩
  try dsimp only [Keeps]
  repeat' first | (with_reducible first | assumption ) | (with_reducible first | apply each_keeps | apply foldl_keeps) | intro _ _ _ | split | (with_reducible first | apply KeepsOf.put rfl | apply KeepsOf.filter) | dsimp only [Keeps]

theorem execPowerOnReset_keeps  (s : State) : Answers s (execPowerOnReset s) := by
  have h := Keeps.refl s
  unfold execPowerOnReset
  refine ⟨_, rfl, ?_⟩
  try dsimp only [Keeps]
  repeat' first | (with_reducible first | assumption | apply State.resetBy_keeps) | (with_reducible first | apply each_keeps | apply foldl_keeps) | intro _ _ _ | split | (with_reducible first | apply KeepsOf.put rfl | apply KeepsOf.filter) | dsimp only [Keeps]

theorem execBrownOutReset_keeps  (s : State) : Answers s (execBrownOutReset s) := by
  have h := Keeps.refl s
  unfold execBrownOutReset
  refine ⟨_, rfl, ?_⟩
  try dsimp only [Keeps]
  repeat' first | (with_reducible first | assumption | apply State.brownOut_keeps) | (with_reducible first | apply each_keeps | apply foldl_keeps) | intro _ _ _ | split | (with_reducible first | apply KeepsOf.put rfl | apply KeepsOf.filter) | dsimp only [Keeps]

theorem execPinReset_keeps  (s : State) : Answers s (execPinReset s) := by
  have h := Keeps.refl s
  unfold execPinReset
  refine ⟨_, rfl, ?_⟩
  try dsimp only [Keeps]
  repeat' first | (with_reducible first | assumption | apply State.resetBy_keeps) | (with_reducible first | apply each_keeps | apply foldl_keeps) | intro _ _ _ | split | (with_reducible first | apply KeepsOf.put rfl | apply KeepsOf.filter) | dsimp only [Keeps]

theorem execWatchdogReset_keeps  (s : State) : Answers s (execWatchdogReset s) := by
  have h := Keeps.refl s
  unfold execWatchdogReset
  refine ⟨_, rfl, ?_⟩
  try dsimp only [Keeps]
  repeat' first | (with_reducible first | assumption | apply State.resetBy_keeps) | (with_reducible first | apply each_keeps | apply foldl_keeps) | intro _ _ _ | split | (with_reducible first | apply KeepsOf.put rfl | apply KeepsOf.filter) | dsimp only [Keeps]

theorem execSoftReset_keeps (src : Src) (cmd : Word) (s : State) : Answers s (execSoftReset src cmd s) := by
  have h := Keeps.refl s
  unfold execSoftReset
  refine ⟨_, rfl, ?_⟩
  try dsimp only [Keeps]
  repeat' first | (with_reducible first | assumption | apply State.command_keeps) | (with_reducible first | apply each_keeps | apply foldl_keeps) | intro _ _ _ | split | (with_reducible first | apply KeepsOf.put rfl | apply KeepsOf.filter) | dsimp only [Keeps]

theorem execSafeReset_keeps  (s : State) : Answers s (execSafeReset s) := by
  have h := Keeps.refl s
  unfold execSafeReset
  refine ⟨_, rfl, ?_⟩
  try dsimp only [Keeps]
  repeat' first | (with_reducible first | assumption | apply State.trip_keeps | apply State.resetBy_keeps) | (with_reducible first | apply each_keeps | apply foldl_keeps) | intro _ _ _ | split | (with_reducible first | apply KeepsOf.put rfl | apply KeepsOf.filter) | dsimp only [Keeps]

theorem execPartReset_keeps  (s : State) : Answers s (execPartReset s) := by
  have h := Keeps.refl s
  unfold execPartReset
  refine ⟨_, rfl, ?_⟩
  try dsimp only [Keeps]
  repeat' first | (with_reducible first | assumption | apply State.resetBy_keeps) | (with_reducible first | apply each_keeps | apply foldl_keeps) | intro _ _ _ | split | (with_reducible first | apply KeepsOf.put rfl | apply KeepsOf.filter) | dsimp only [Keeps]

theorem execClkReset_keeps  (s : State) : Answers s (execClkReset s) := by
  have h := Keeps.refl s
  unfold execClkReset
  refine ⟨_, rfl, ?_⟩
  try dsimp only [Keeps]
  repeat' first | (with_reducible first | assumption | apply State.resetBy_keeps) | (with_reducible first | apply each_keeps | apply foldl_keeps) | intro _ _ _ | split | (with_reducible first | apply KeepsOf.put rfl | apply KeepsOf.filter) | dsimp only [Keeps]

theorem execResetButtonRelease_keeps (pressMs : Nat) (immediate : Bool) (s : State) : Answers s (execResetButtonRelease pressMs immediate s) := by
  have h := Keeps.refl s
  unfold execResetButtonRelease
  refine ⟨_, rfl, ?_⟩
  try dsimp only [Keeps]
  repeat' first | (with_reducible first | assumption | apply State.buttonRelease_keeps) | (with_reducible first | apply each_keeps | apply foldl_keeps) | intro _ _ _ | split | (with_reducible first | apply KeepsOf.put rfl | apply KeepsOf.filter) | dsimp only [Keeps]

theorem execResetButtonStuck_keeps  (s : State) : Answers s (execResetButtonStuck s) := by
  have h := Keeps.refl s
  unfold execResetButtonStuck
  refine ⟨_, rfl, ?_⟩
  try dsimp only [Keeps]
  repeat' first | (with_reducible first | assumption | apply State.raise_keeps) | (with_reducible first | apply each_keeps | apply foldl_keeps) | intro _ _ _ | split | (with_reducible first | apply KeepsOf.put rfl | apply KeepsOf.filter) | dsimp only [Keeps]

theorem execResetButtonRearm_keeps  (s : State) : Answers s (execResetButtonRearm s) := by
  have h := Keeps.refl s
  unfold execResetButtonRearm
  refine ⟨_, rfl, ?_⟩
  try dsimp only [Keeps]
  repeat' first | (with_reducible first | assumption ) | (with_reducible first | apply each_keeps | apply foldl_keeps) | intro _ _ _ | split | (with_reducible first | apply KeepsOf.put rfl | apply KeepsOf.filter) | dsimp only [Keeps]

theorem execDeferredPinReset_keeps  (s : State) : Answers s (execDeferredPinReset s) := by
  have h := Keeps.refl s
  unfold execDeferredPinReset
  refine ⟨_, rfl, ?_⟩
  try dsimp only [Keeps]
  repeat' first | (with_reducible first | assumption | apply State.pinDeferred_keeps) | (with_reducible first | apply each_keeps | apply foldl_keeps) | intro _ _ _ | split | (with_reducible first | apply KeepsOf.put rfl | apply KeepsOf.filter) | dsimp only [Keeps]

theorem execPowerFailWarning_keeps (mv : Nat) (s : State) : Answers s (execPowerFailWarning mv s) := by
  have h := Keeps.refl s
  unfold execPowerFailWarning
  refine ⟨_, rfl, ?_⟩
  try dsimp only [Keeps]
  repeat' first | (with_reducible first | assumption | apply State.powerWarn_keeps) | (with_reducible first | apply each_keeps | apply foldl_keeps) | intro _ _ _ | split | (with_reducible first | apply KeepsOf.put rfl | apply KeepsOf.filter) | dsimp only [Keeps]

theorem execPowerRecovery_keeps (mv : Nat) (s : State) : Answers s (execPowerRecovery mv s) := by
  have h := Keeps.refl s
  unfold execPowerRecovery
  refine ⟨_, rfl, ?_⟩
  try dsimp only [Keeps]
  repeat' first | (with_reducible first | assumption | apply State.powerBack_keeps) | (with_reducible first | apply each_keeps | apply foldl_keeps) | intro _ _ _ | split | (with_reducible first | apply KeepsOf.put rfl | apply KeepsOf.filter) | dsimp only [Keeps]

theorem execHoldupReady_keeps  (s : State) : Answers s (execHoldupReady s) := by
  have h := Keeps.refl s
  unfold execHoldupReady
  refine ⟨_, rfl, ?_⟩
  try dsimp only [Keeps]
  repeat' first | (with_reducible first | assumption ) | (with_reducible first | apply each_keeps | apply foldl_keeps) | intro _ _ _ | split | (with_reducible first | apply KeepsOf.put rfl | apply KeepsOf.filter) | dsimp only [Keeps]

theorem execProfDataWrite_keeps (src : Src) (val : Word) (s : State) : Answers s (execProfDataWrite src val s) := by
  have h := Keeps.refl s
  unfold execProfDataWrite
  refine ⟨_, rfl, ?_⟩
  try dsimp only [Keeps]
  repeat' first | (with_reducible first | assumption | apply State.command_keeps) | (with_reducible first | apply each_keeps | apply foldl_keeps) | intro _ _ _ | split | (with_reducible first | apply KeepsOf.put rfl | apply KeepsOf.filter) | dsimp only [Keeps]

theorem execProfStore_keeps (src : Src) (slot : BitVec 2) (s : State) : Answers s (execProfStore src slot s) := by
  have h := Keeps.refl s
  unfold execProfStore
  refine ⟨_, rfl, ?_⟩
  try dsimp only [Keeps]
  repeat' first | (with_reducible first | assumption | apply State.command_keeps) | (with_reducible first | apply each_keeps | apply foldl_keeps) | intro _ _ _ | split | (with_reducible first | apply KeepsOf.put rfl | apply KeepsOf.filter) | dsimp only [Keeps]

theorem execProfStoreDone_keeps (writeOk : Bool) (s : State) : Answers s (execProfStoreDone writeOk s) := by
  have h := Keeps.refl s
  unfold execProfStoreDone
  refine ⟨_, rfl, ?_⟩
  try dsimp only [Keeps]
  repeat' first | (with_reducible first | assumption | apply State.profStoreEnd_keeps) | (with_reducible first | apply each_keeps | apply foldl_keeps) | intro _ _ _ | split | (with_reducible first | apply KeepsOf.put rfl | apply KeepsOf.filter) | dsimp only [Keeps]

theorem execProfileOvrWrite_keeps (src : Src) (val : Word) (s : State) : Answers s (execProfileOvrWrite src val s) := by
  have h := Keeps.refl s
  unfold execProfileOvrWrite
  refine ⟨_, rfl, ?_⟩
  try dsimp only [Keeps]
  repeat' first | (with_reducible first | assumption | apply State.command_keeps) | (with_reducible first | apply each_keeps | apply foldl_keeps) | intro _ _ _ | split | (with_reducible first | apply KeepsOf.put rfl | apply KeepsOf.filter) | dsimp only [Keeps]

theorem execPark_keeps (src : Src) (s : State) : Answers s (execPark src s) := by
  have h := Keeps.refl s
  unfold execPark
  refine ⟨_, rfl, ?_⟩
  try dsimp only [Keeps]
  repeat' first | (with_reducible first | assumption | apply State.command_keeps | apply State.pwrCmd_keeps) | (with_reducible first | apply each_keeps | apply foldl_keeps) | intro _ _ _ | split | (with_reducible first | apply KeepsOf.put rfl | apply KeepsOf.filter) | dsimp only [Keeps]

theorem execAutoPark_keeps  (s : State) : Answers s (execAutoPark s) := by
  have h := Keeps.refl s
  unfold execAutoPark
  refine ⟨_, rfl, ?_⟩
  try dsimp only [Keeps]
  repeat' first | (with_reducible first | assumption | apply State.parkNow_keeps) | (with_reducible first | apply each_keeps | apply foldl_keeps) | intro _ _ _ | split | (with_reducible first | apply KeepsOf.put rfl | apply KeepsOf.filter) | dsimp only [Keeps]

theorem execParkWake_keeps (cause : WakeCause) (s : State) : Answers s (execParkWake cause s) := by
  have h := Keeps.refl s
  unfold execParkWake
  refine ⟨_, rfl, ?_⟩
  try dsimp only [Keeps]
  repeat' first | (with_reducible first | assumption | apply State.parkEnd_keeps) | (with_reducible first | apply each_keeps | apply foldl_keeps) | intro _ _ _ | split | (with_reducible first | apply KeepsOf.put rfl | apply KeepsOf.filter) | dsimp only [Keeps]

theorem execPwrRun_keeps (src : Src) (s : State) : Answers s (execPwrRun src s) := by
  have h := Keeps.refl s
  unfold execPwrRun
  refine ⟨_, rfl, ?_⟩
  try dsimp only [Keeps]
  repeat' first | (with_reducible first | assumption | apply State.command_keeps | apply State.pwrCmd_keeps) | (with_reducible first | apply each_keeps | apply foldl_keeps) | intro _ _ _ | split | (with_reducible first | apply KeepsOf.put rfl | apply KeepsOf.filter) | dsimp only [Keeps]

theorem execDeep_keeps (src : Src) (s : State) : Answers s (execDeep src s) := by
  have h := Keeps.refl s
  unfold execDeep
  refine ⟨_, rfl, ?_⟩
  try dsimp only [Keeps]
  repeat' first | (with_reducible first | assumption | apply State.command_keeps | apply State.pwrCmd_keeps) | (with_reducible first | apply each_keeps | apply foldl_keeps) | intro _ _ _ | split | (with_reducible first | apply KeepsOf.put rfl | apply KeepsOf.filter) | dsimp only [Keeps]

theorem execDeepWake_keeps (cause : WakeCause) (s : State) : Answers s (execDeepWake cause s) := by
  have h := Keeps.refl s
  unfold execDeepWake
  refine ⟨_, rfl, ?_⟩
  try dsimp only [Keeps]
  repeat' first | (with_reducible first | assumption | apply State.deepEnd_keeps) | (with_reducible first | apply each_keeps | apply foldl_keeps) | intro _ _ _ | split | (with_reducible first | apply KeepsOf.put rfl | apply KeepsOf.filter) | dsimp only [Keeps]

theorem State.imageTake_keeps {s₀ s : State} (h : Keeps s₀ s) (src : Src) (o : List Byte) : Keeps s₀ (State.imageTake s src o) := by
  unfold State.imageTake
  try dsimp only [Keeps]
  repeat' first | (with_reducible first | assumption ) | (with_reducible first | apply each_keeps | apply foldl_keeps) | intro _ _ _ | split | (with_reducible first | apply KeepsOf.put rfl | apply KeepsOf.filter) | dsimp only [Keeps]

theorem execImageUpdate_keeps (src : Src) (object : List Byte) (s : State) : Answers s (execImageUpdate src object s) := by
  have h := Keeps.refl s
  unfold execImageUpdate
  refine ⟨_, rfl, ?_⟩
  try dsimp only [Keeps]
  repeat' first | (with_reducible first | assumption | apply State.imageTake_keeps) | (with_reducible first | apply each_keeps | apply foldl_keeps) | intro _ _ _ | split | (with_reducible first | apply KeepsOf.put rfl | apply KeepsOf.filter) | dsimp only [Keeps]

theorem execAonPowerLoss_keeps  (s : State) : Answers s (execAonPowerLoss s) := by
  have h := Keeps.refl s
  unfold execAonPowerLoss
  refine ⟨_, rfl, ?_⟩
  try dsimp only [Keeps]
  repeat' first | (with_reducible first | assumption | apply State.aonLost_keeps) | (with_reducible first | apply each_keeps | apply foldl_keeps) | intro _ _ _ | split | (with_reducible first | apply KeepsOf.put rfl | apply KeepsOf.filter) | dsimp only [Keeps]

theorem execBorStart_keeps  (s : State) : Answers s (execBorStart s) := by
  have h := Keeps.refl s
  unfold execBorStart
  refine ⟨_, rfl, ?_⟩
  try dsimp only [Keeps]
  repeat' first | (with_reducible first | assumption | apply State.borStart_keeps) | (with_reducible first | apply each_keeps | apply foldl_keeps) | intro _ _ _ | split | (with_reducible first | apply KeepsOf.put rfl | apply KeepsOf.filter) | dsimp only [Keeps]

end Sys2Proof.Machine
end

