-- ==== Sys2Proof/Laws/Only.lean ====
section
/-! SUPPORT. `Only m s t` through one update, folds, and what it says of two steps in a row. -/

namespace Sys2Proof.Machine

theorem Only.refl (m : Parts) (s : State) : Only m s s := ⟨rfl, .inr rfl, .inr rfl, .inr rfl, .inr rfl, .inr rfl, .inr rfl, .inr rfl, .inr rfl, .inr rfl, .inr rfl, .inr rfl, .inr rfl, .inr rfl, .inr rfl, .inr rfl, .inr rfl, .inr rfl, .inr rfl, .inr rfl, .inr rfl, .inr rfl, .inr rfl, .inr rfl, .inr rfl, .inr rfl, .inr rfl⟩

/-- An update of chosen parts of a state already reached. -/
theorem Only.upd {m : Parts} {s u : State} {v_tick : Nat} {v_baseTick : Nat} {v_fresh : Nat} {v_rf : Cells} {v_irqNow : Cells} {v_pos : Pos} {v_lwb : Lwb} {v_mot : Mot} {v_drv : Drv} {v_sch : Sch} {v_bid : Bid} {v_doorF : Door} {v_doorR : Door} {v_el : El} {v_lsf : List LsfSlot} {v_can : List Can} {v_fiog : List Fiog} {v_host : HostP} {v_sil : Sil} {v_part : Part} {v_rcd : Rec} {v_key : Key} {v_tamp : Tamp} {v_clk : Clk} {v_sys : Sys} {v_xbar : Xbar}
    (h : Only m s u) (tick : m.tick = true ∨ v_tick = u.tick) (baseTick : m.baseTick = true ∨ v_baseTick = u.baseTick) (fresh : m.fresh = true ∨ v_fresh = u.fresh) (rf : m.rf = true ∨ v_rf = u.rf) (irqNow : m.irqNow = true ∨ v_irqNow = u.irqNow) (pos : m.pos = true ∨ v_pos = u.pos) (lwb : m.lwb = true ∨ v_lwb = u.lwb) (mot : m.mot = true ∨ v_mot = u.mot) (drv : m.drv = true ∨ v_drv = u.drv) (sch : m.sch = true ∨ v_sch = u.sch) (bid : m.bid = true ∨ v_bid = u.bid) (doorF : m.doorF = true ∨ v_doorF = u.doorF) (doorR : m.doorR = true ∨ v_doorR = u.doorR) (el : m.el = true ∨ v_el = u.el) (lsf : m.lsf = true ∨ v_lsf = u.lsf) (can : m.can = true ∨ v_can = u.can) (fiog : m.fiog = true ∨ v_fiog = u.fiog) (host : m.host = true ∨ v_host = u.host) (sil : m.sil = true ∨ v_sil = u.sil) (part : m.part = true ∨ v_part = u.part) (rcd : m.rcd = true ∨ v_rcd = u.rcd) (key : m.key = true ∨ v_key = u.key) (tamp : m.tamp = true ∨ v_tamp = u.tamp) (clk : m.clk = true ∨ v_clk = u.clk) (sys : m.sys = true ∨ v_sys = u.sys) (xbar : m.xbar = true ∨ v_xbar = u.xbar) :
    Only m s ⟨u.pending, v_tick, v_baseTick, v_fresh, v_rf, v_irqNow, v_pos, v_lwb, v_mot, v_drv, v_sch, v_bid, v_doorF, v_doorR, v_el, v_lsf, v_can, v_fiog, v_host, v_sil, v_part, v_rcd, v_key, v_tamp, v_clk, v_sys, v_xbar⟩ :=
  ⟨h.pending, tick.elim .inl (fun e => h.tick.imp id e.trans), baseTick.elim .inl (fun e => h.baseTick.imp id e.trans), fresh.elim .inl (fun e => h.fresh.imp id e.trans), rf.elim .inl (fun e => h.rf.imp id e.trans), irqNow.elim .inl (fun e => h.irqNow.imp id e.trans), pos.elim .inl (fun e => h.pos.imp id e.trans), lwb.elim .inl (fun e => h.lwb.imp id e.trans), mot.elim .inl (fun e => h.mot.imp id e.trans), drv.elim .inl (fun e => h.drv.imp id e.trans), sch.elim .inl (fun e => h.sch.imp id e.trans), bid.elim .inl (fun e => h.bid.imp id e.trans), doorF.elim .inl (fun e => h.doorF.imp id e.trans), doorR.elim .inl (fun e => h.doorR.imp id e.trans), el.elim .inl (fun e => h.el.imp id e.trans), lsf.elim .inl (fun e => h.lsf.imp id e.trans), can.elim .inl (fun e => h.can.imp id e.trans), fiog.elim .inl (fun e => h.fiog.imp id e.trans), host.elim .inl (fun e => h.host.imp id e.trans), sil.elim .inl (fun e => h.sil.imp id e.trans), part.elim .inl (fun e => h.part.imp id e.trans), rcd.elim .inl (fun e => h.rcd.imp id e.trans), key.elim .inl (fun e => h.key.imp id e.trans), tamp.elim .inl (fun e => h.tamp.imp id e.trans), clk.elim .inl (fun e => h.clk.imp id e.trans), sys.elim .inl (fun e => h.sys.imp id e.trans), xbar.elim .inl (fun e => h.xbar.imp id e.trans)⟩

/-- A fold of changes of the chosen parts. -/
theorem each_only {α : Type} {m : Parts} {s₀ : State} (f : State → α → State) (hf : ∀ t x, Only m s₀ t → Only m s₀ (f t x))
    (l : List α) {s : State} (h : Only m s₀ s) : Only m s₀ (each l s f) := by
  induction l generalizing s with
  | nil => exact h
  | cons x r ih => exact ih (hf _ _ h)

/-- The same of a plain fold. -/
theorem foldl_only {α : Type} {m : Parts} {s₀ : State} (f : State → α → State) (hf : ∀ t x, Only m s₀ t → Only m s₀ (f t x))
    (l : List α) {s : State} (h : Only m s₀ s) : Only m s₀ (l.foldl f s) := each_only f hf l h

/-- The first component of a pair that is known. -/
theorem Only.of_fst {α : Type} {m : Parts} {s₀ u : State} {p : State × α} {v : α} (h : Only m s₀ p.1) (e : p = (u, v)) :
    Only m s₀ u := by
  rw [e] at h; exact h

/-- Two steps in a row. -/
theorem Only.trans {m : Parts} {s t u : State} (h : Only m s t) (g : Only m t u) : Only m s u :=
  ⟨g.pending.trans h.pending, g.tick.elim .inl (fun e => h.tick.imp id e.trans), g.baseTick.elim .inl (fun e => h.baseTick.imp id e.trans), g.fresh.elim .inl (fun e => h.fresh.imp id e.trans), g.rf.elim .inl (fun e => h.rf.imp id e.trans), g.irqNow.elim .inl (fun e => h.irqNow.imp id e.trans), g.pos.elim .inl (fun e => h.pos.imp id e.trans), g.lwb.elim .inl (fun e => h.lwb.imp id e.trans), g.mot.elim .inl (fun e => h.mot.imp id e.trans), g.drv.elim .inl (fun e => h.drv.imp id e.trans), g.sch.elim .inl (fun e => h.sch.imp id e.trans), g.bid.elim .inl (fun e => h.bid.imp id e.trans), g.doorF.elim .inl (fun e => h.doorF.imp id e.trans), g.doorR.elim .inl (fun e => h.doorR.imp id e.trans), g.el.elim .inl (fun e => h.el.imp id e.trans), g.lsf.elim .inl (fun e => h.lsf.imp id e.trans), g.can.elim .inl (fun e => h.can.imp id e.trans), g.fiog.elim .inl (fun e => h.fiog.imp id e.trans), g.host.elim .inl (fun e => h.host.imp id e.trans), g.sil.elim .inl (fun e => h.sil.imp id e.trans), g.part.elim .inl (fun e => h.part.imp id e.trans), g.rcd.elim .inl (fun e => h.rcd.imp id e.trans), g.key.elim .inl (fun e => h.key.imp id e.trans), g.tamp.elim .inl (fun e => h.tamp.imp id e.trans), g.clk.elim .inl (fun e => h.clk.imp id e.trans), g.sys.elim .inl (fun e => h.sys.imp id e.trans), g.xbar.elim .inl (fun e => h.xbar.imp id e.trans)⟩

end Sys2Proof.Machine
end

