-- ==== Sys2Proof/Laws/OnlyOps.lean ====
section
/-! SUPPORT. Which parts of the state the operations of Machine/Ops.lean leave the same. -/

set_option linter.unusedTactic false
set_option linter.unreachableTactic false

namespace Sys2Proof.Machine

theorem State.wr_only {pt : Parts} (h_rf : pt.rf = true) {s₀ s : State} (h : Only pt s₀ s) (a : Nat) (w : Word) : Only pt s₀ (State.wr s a w) := by
  unfold State.wr
  try dsimp only
  repeat' first | (with_reducible first | assumption  | apply each_only | apply foldl_only) | intro _ _ _ | split | (refine Only.upd ?_ (.inr rfl) (.inr rfl) (.inr rfl) (.inl h_rf) (.inr rfl) (.inr rfl) (.inr rfl) (.inr rfl) (.inr rfl) (.inr rfl) (.inr rfl) (.inr rfl) (.inr rfl) (.inr rfl) (.inr rfl) (.inr rfl) (.inr rfl) (.inr rfl) (.inr rfl) (.inr rfl) (.inr rfl) (.inr rfl) (.inr rfl) (.inr rfl) (.inr rfl) (.inr rfl); try dsimp only)

theorem State.wn_only {pt : Parts} (h_rf : pt.rf = true) {s₀ s : State} (h : Only pt s₀ s) (a : Nat) (n : Nat) : Only pt s₀ (State.wn s a n) := by
  unfold State.wn
  try dsimp only
  repeat' first | (with_reducible first | assumption | apply State.wr_only h_rf | apply each_only | apply foldl_only) | intro _ _ _ | split | dsimp only

theorem State.wi_only {pt : Parts} (h_rf : pt.rf = true) {s₀ s : State} (h : Only pt s₀ s) (a : Nat) (i : Int) : Only pt s₀ (State.wi s a i) := by
  unfold State.wi
  try dsimp only
  repeat' first | (with_reducible first | assumption | apply State.wr_only h_rf | apply each_only | apply foldl_only) | intro _ _ _ | split | dsimp only

theorem State.wf__only {pt : Parts} (h_rf : pt.rf = true) {s₀ s : State} (h : Only pt s₀ s) (a : Nat) (lo : Nat) (width : Nat) (v : Nat) : Only pt s₀ (State.wf_ s a lo width v) := by
  unfold State.wf_
  try dsimp only
  repeat' first | (with_reducible first | assumption | apply State.wr_only h_rf | apply each_only | apply foldl_only) | intro _ _ _ | split | dsimp only

theorem State.bump_only {pt : Parts} (h_rf : pt.rf = true) {s₀ s : State} (h : Only pt s₀ s) (a : Nat) (lo : Nat) (width : Nat) : Only pt s₀ (State.bump s a lo width) := by
  unfold State.bump
  try dsimp only
  repeat' first | (with_reducible first | assumption | apply State.wf__only h_rf | apply each_only | apply foldl_only) | intro _ _ _ | split | dsimp only

theorem State.raise_only {pt : Parts} (h_rf : pt.rf = true) (h_irqNow : pt.irqNow = true) {s₀ s : State} (h : Only pt s₀ s) (pg : Nat) (i : Nat) : Only pt s₀ (State.raise s pg i) := by
  unfold State.raise
  try dsimp only
  repeat' first | (with_reducible first | assumption | apply State.wf__only h_rf | apply each_only | apply foldl_only) | intro _ _ _ | split | (refine Only.upd ?_ (.inr rfl) (.inr rfl) (.inr rfl) (.inl h_rf) (.inl h_irqNow) (.inr rfl) (.inr rfl) (.inr rfl) (.inr rfl) (.inr rfl) (.inr rfl) (.inr rfl) (.inr rfl) (.inr rfl) (.inr rfl) (.inr rfl) (.inr rfl) (.inr rfl) (.inr rfl) (.inr rfl) (.inr rfl) (.inr rfl) (.inr rfl) (.inr rfl) (.inr rfl) (.inr rfl); try dsimp only)

theorem State.draw_only {pt : Parts} (h_fresh : pt.fresh = true) {s₀ s : State} (h : Only pt s₀ s) : Only pt s₀ (State.draw s) := by
  unfold State.draw
  try dsimp only
  repeat' first | (with_reducible first | assumption  | apply each_only | apply foldl_only) | intro _ _ _ | split | (refine Only.upd ?_ (.inr rfl) (.inr rfl) (.inl h_fresh) (.inr rfl) (.inr rfl) (.inr rfl) (.inr rfl) (.inr rfl) (.inr rfl) (.inr rfl) (.inr rfl) (.inr rfl) (.inr rfl) (.inr rfl) (.inr rfl) (.inr rfl) (.inr rfl) (.inr rfl) (.inr rfl) (.inr rfl) (.inr rfl) (.inr rfl) (.inr rfl) (.inr rfl) (.inr rfl) (.inr rfl); try dsimp only)

end Sys2Proof.Machine
end

