-- ==== Sys2Proof/Laws/OnlyOperands.lean ====
section
/-! SUPPORT. Which parts of the state the operations of Machine/Operands.lean leave the same. -/

set_option linter.unusedTactic false
set_option linter.unreachableTactic false

namespace Sys2Proof.Machine

theorem State.setGrp_only {pt : Parts} (h_fiog : pt.fiog = true) {s₀ s : State} (h : Only pt s₀ s) (g : Nat) (f : Fiog) : Only pt s₀ (State.setGrp s g f) := by
  unfold State.setGrp
  try dsimp only
  repeat' first | (with_reducible first | assumption  | apply each_only | apply foldl_only) | intro _ _ _ | split | (refine Only.upd ?_ (.inr rfl) (.inr rfl) (.inr rfl) (.inr rfl) (.inr rfl) (.inr rfl) (.inr rfl) (.inr rfl) (.inr rfl) (.inr rfl) (.inr rfl) (.inr rfl) (.inr rfl) (.inr rfl) (.inr rfl) (.inr rfl) (.inl h_fiog) (.inr rfl) (.inr rfl) (.inr rfl) (.inr rfl) (.inr rfl) (.inr rfl) (.inr rfl) (.inr rfl) (.inr rfl); try dsimp only)

theorem State.chCmd_only {pt : Parts} (h_fiog : pt.fiog = true) {s₀ s : State} (h : Only pt s₀ s) (c : Nat) (on : Bool) : Only pt s₀ (State.chCmd s c on) := by
  unfold State.chCmd
  try dsimp only
  repeat' first | (with_reducible first | assumption | apply State.setGrp_only h_fiog | apply each_only | apply foldl_only) | intro _ _ _ | split | (refine Only.upd ?_ (.inr rfl) (.inr rfl) (.inr rfl) (.inr rfl) (.inr rfl) (.inr rfl) (.inr rfl) (.inr rfl) (.inr rfl) (.inr rfl) (.inr rfl) (.inr rfl) (.inr rfl) (.inr rfl) (.inr rfl) (.inr rfl) (.inl h_fiog) (.inr rfl) (.inr rfl) (.inr rfl) (.inr rfl) (.inr rfl) (.inr rfl) (.inr rfl) (.inr rfl) (.inr rfl); try dsimp only)

theorem State.setCan_only {pt : Parts} (h_can : pt.can = true) {s₀ s : State} (h : Only pt s₀ s) (n : Nat) (c : Can) : Only pt s₀ (State.setCan s n c) := by
  unfold State.setCan
  try dsimp only
  repeat' first | (with_reducible first | assumption  | apply each_only | apply foldl_only) | intro _ _ _ | split | (refine Only.upd ?_ (.inr rfl) (.inr rfl) (.inr rfl) (.inr rfl) (.inr rfl) (.inr rfl) (.inr rfl) (.inr rfl) (.inr rfl) (.inr rfl) (.inr rfl) (.inr rfl) (.inr rfl) (.inr rfl) (.inr rfl) (.inl h_can) (.inr rfl) (.inr rfl) (.inr rfl) (.inr rfl) (.inr rfl) (.inr rfl) (.inr rfl) (.inr rfl) (.inr rfl) (.inr rfl); try dsimp only)

theorem State.setLsf_only {pt : Parts} (h_lsf : pt.lsf = true) {s₀ s : State} (h : Only pt s₀ s) (n : Nat) (c : LsfSlot) : Only pt s₀ (State.setLsf s n c) := by
  unfold State.setLsf
  try dsimp only
  repeat' first | (with_reducible first | assumption  | apply each_only | apply foldl_only) | intro _ _ _ | split | (refine Only.upd ?_ (.inr rfl) (.inr rfl) (.inr rfl) (.inr rfl) (.inr rfl) (.inr rfl) (.inr rfl) (.inr rfl) (.inr rfl) (.inr rfl) (.inr rfl) (.inr rfl) (.inr rfl) (.inr rfl) (.inl h_lsf) (.inr rfl) (.inr rfl) (.inr rfl) (.inr rfl) (.inr rfl) (.inr rfl) (.inr rfl) (.inr rfl) (.inr rfl) (.inr rfl) (.inr rfl); try dsimp only)

theorem State.setDoor_only {pt : Parts} (h_doorF : pt.doorF = true) (h_doorR : pt.doorR = true) {s₀ s : State} (h : Only pt s₀ s) (c : Chan) (d : Door) : Only pt s₀ (State.setDoor s c d) := by
  unfold State.setDoor
  try dsimp only
  repeat' first | (with_reducible first | assumption  | apply each_only | apply foldl_only) | intro _ _ _ | split | (refine Only.upd ?_ (.inr rfl) (.inr rfl) (.inr rfl) (.inr rfl) (.inr rfl) (.inr rfl) (.inr rfl) (.inr rfl) (.inr rfl) (.inr rfl) (.inr rfl) (.inl h_doorF) (.inl h_doorR) (.inr rfl) (.inr rfl) (.inr rfl) (.inr rfl) (.inr rfl) (.inr rfl) (.inr rfl) (.inr rfl) (.inr rfl) (.inr rfl) (.inr rfl) (.inr rfl) (.inr rfl); try dsimp only)

theorem State.elTake_only {pt : Parts} (h_el : pt.el = true) {s₀ s : State} (h : Only pt s₀ s) : Only pt s₀ (State.elTake s) := by
  unfold State.elTake
  try dsimp only
  repeat' first | (with_reducible first | assumption  | apply each_only | apply foldl_only) | intro _ _ _ | split | (refine Only.upd ?_ (.inr rfl) (.inr rfl) (.inr rfl) (.inr rfl) (.inr rfl) (.inr rfl) (.inr rfl) (.inr rfl) (.inr rfl) (.inr rfl) (.inr rfl) (.inr rfl) (.inr rfl) (.inl h_el) (.inr rfl) (.inr rfl) (.inr rfl) (.inr rfl) (.inr rfl) (.inr rfl) (.inr rfl) (.inr rfl) (.inr rfl) (.inr rfl) (.inr rfl) (.inr rfl); try dsimp only)

end Sys2Proof.Machine
end

