-- ==== Sys2Proof/Laws/OnlyRecOps.lean ====
section
/-! SUPPORT. Which parts of the state the operations of Machine/RecOps.lean leave the same. -/

set_option linter.unusedTactic false
set_option linter.unreachableTactic false

namespace Sys2Proof.Machine

theorem State.putRcd_only {pt : Parts} (h_rf : pt.rf = true) (h_irqNow : pt.irqNow = true) (h_rcd : pt.rcd = true) {s₀ s : State} (h : Only pt s₀ s) (r : Rcd) : Only pt s₀ (State.putRcd s r) := by
  unfold State.putRcd
  try dsimp only
  repeat' first | (with_reducible first | assumption | apply State.raise_only h_rf h_irqNow | apply each_only | apply foldl_only) | intro _ _ _ | split | (refine Only.upd ?_ (.inr rfl) (.inr rfl) (.inr rfl) (.inl h_rf) (.inl h_irqNow) (.inr rfl) (.inr rfl) (.inr rfl) (.inr rfl) (.inr rfl) (.inr rfl) (.inr rfl) (.inr rfl) (.inr rfl) (.inr rfl) (.inr rfl) (.inr rfl) (.inr rfl) (.inr rfl) (.inr rfl) (.inl h_rcd) (.inr rfl) (.inr rfl) (.inr rfl) (.inr rfl) (.inr rfl); try dsimp only)

theorem State.stage_only {pt : Parts} (h_rf : pt.rf = true) (h_irqNow : pt.irqNow = true) (h_rcd : pt.rcd = true) {s₀ s : State} (h : Only pt s₀ s) (typ : RecType) (source : Nat) (slot : Option Nat) (detail : Word) (snap : List Word) (flush : Bool) : Only pt s₀ (State.stage s typ source slot detail snap flush) := by
  unfold State.stage
  try dsimp only
  repeat' first | (with_reducible first | assumption | apply State.bump_only h_rf | apply State.raise_only h_rf h_irqNow | apply State.putRcd_only h_rf h_irqNow h_rcd | apply each_only | apply foldl_only) | intro _ _ _ | split | (refine Only.upd ?_ (.inr rfl) (.inr rfl) (.inr rfl) (.inl h_rf) (.inl h_irqNow) (.inr rfl) (.inr rfl) (.inr rfl) (.inr rfl) (.inr rfl) (.inr rfl) (.inr rfl) (.inr rfl) (.inr rfl) (.inr rfl) (.inr rfl) (.inr rfl) (.inr rfl) (.inr rfl) (.inr rfl) (.inl h_rcd) (.inr rfl) (.inr rfl) (.inr rfl) (.inr rfl) (.inr rfl); try dsimp only)

theorem State.fire_only {pt : Parts} (h_rf : pt.rf = true) (h_irqNow : pt.irqNow = true) (h_rcd : pt.rcd = true) {s₀ s : State} (h : Only pt s₀ s) (src : Nat) (detail : Word) : Only pt s₀ (State.fire s src detail) := by
  unfold State.fire
  try dsimp only
  repeat' first | (with_reducible first | assumption | apply State.stage_only h_rf h_irqNow h_rcd | apply each_only | apply foldl_only) | intro _ _ _ | split | dsimp only

theorem State.setRole_only {pt : Parts} (h_rf : pt.rf = true) (h_irqNow : pt.irqNow = true) (h_part : pt.part = true) (h_rcd : pt.rcd = true) {s₀ s : State} (h : Only pt s₀ s) (r : Role) : Only pt s₀ (State.setRole s r) := by
  unfold State.setRole
  try dsimp only
  repeat' first | (with_reducible first | assumption | apply State.raise_only h_rf h_irqNow | apply State.fire_only h_rf h_irqNow h_rcd | apply each_only | apply foldl_only) | intro _ _ _ | split | (refine Only.upd ?_ (.inr rfl) (.inr rfl) (.inr rfl) (.inl h_rf) (.inl h_irqNow) (.inr rfl) (.inr rfl) (.inr rfl) (.inr rfl) (.inr rfl) (.inr rfl) (.inr rfl) (.inr rfl) (.inr rfl) (.inr rfl) (.inr rfl) (.inr rfl) (.inr rfl) (.inr rfl) (.inl h_part) (.inl h_rcd) (.inr rfl) (.inr rfl) (.inr rfl) (.inr rfl) (.inr rfl); try dsimp only)

end Sys2Proof.Machine
end

