-- ==== Sys2Proof/Laws/OnlyDoorOps.lean ====
section
/-! SUPPORT. Which parts of the state the operations of Machine/DoorOps.lean leave the same. -/

set_option linter.unusedTactic false
set_option linter.unreachableTactic false

namespace Sys2Proof.Machine

theorem State.errNote_only {pt : Parts} (h_rf : pt.rf = true) (h_irqNow : pt.irqNow = true) {s₀ s : State} (h : Only pt s₀ s) (pg : Nat) (off : Nat) (src : Src) (code : Nat) : Only pt s₀ (State.errNote s pg off src code) := by
  unfold State.errNote
  try dsimp only
  repeat' first | (with_reducible first | assumption | apply State.wr_only h_rf | apply State.raise_only h_rf h_irqNow | apply each_only | apply foldl_only) | intro _ _ _ | split | dsimp only

theorem State.doorHere_only {pt : Parts} (h_doorF : pt.doorF = true) (h_doorR : pt.doorR = true) {s₀ s : State} (h : Only pt s₀ s) (c : Chan) : Only pt s₀ (State.doorHere s c) := by
  unfold State.doorHere
  try dsimp only
  repeat' first | (with_reducible first | assumption | apply State.setDoor_only h_doorF h_doorR | apply each_only | apply foldl_only) | intro _ _ _ | split | (refine Only.upd ?_ (.inr rfl) (.inr rfl) (.inr rfl) (.inr rfl) (.inr rfl) (.inr rfl) (.inr rfl) (.inr rfl) (.inr rfl) (.inr rfl) (.inr rfl) (.inl h_doorF) (.inl h_doorR) (.inr rfl) (.inr rfl) (.inr rfl) (.inr rfl) (.inr rfl) (.inr rfl) (.inr rfl) (.inr rfl) (.inr rfl) (.inr rfl) (.inr rfl) (.inr rfl) (.inr rfl); try dsimp only)

theorem State.doorInto_only {pt : Parts} (h_rf : pt.rf = true) (h_irqNow : pt.irqNow = true) (h_doorF : pt.doorF = true) (h_doorR : pt.doorR = true) {s₀ s : State} (h : Only pt s₀ s) (c : Chan) (st : DoorSt) : Only pt s₀ (State.doorInto s c st) := by
  unfold State.doorInto
  try dsimp only
  repeat' first | (with_reducible first | assumption | apply State.setDoor_only h_doorF h_doorR | apply State.raise_only h_rf h_irqNow | apply each_only | apply foldl_only) | intro _ _ _ | split | (refine Only.upd ?_ (.inr rfl) (.inr rfl) (.inr rfl) (.inl h_rf) (.inl h_irqNow) (.inr rfl) (.inr rfl) (.inr rfl) (.inr rfl) (.inr rfl) (.inr rfl) (.inl h_doorF) (.inl h_doorR) (.inr rfl) (.inr rfl) (.inr rfl) (.inr rfl) (.inr rfl) (.inr rfl) (.inr rfl) (.inr rfl) (.inr rfl) (.inr rfl) (.inr rfl) (.inr rfl) (.inr rfl); try dsimp only)

theorem State.doorLosePos_only {pt : Parts} (h_rf : pt.rf = true) (h_irqNow : pt.irqNow = true) (h_doorF : pt.doorF = true) (h_doorR : pt.doorR = true) {s₀ s : State} (h : Only pt s₀ s) (c : Chan) : Only pt s₀ (State.doorLosePos s c) := by
  unfold State.doorLosePos
  try dsimp only
  repeat' first | (with_reducible first | assumption | apply State.setDoor_only h_doorF h_doorR | apply State.raise_only h_rf h_irqNow | apply each_only | apply foldl_only) | intro _ _ _ | split | (refine Only.upd ?_ (.inr rfl) (.inr rfl) (.inr rfl) (.inl h_rf) (.inl h_irqNow) (.inr rfl) (.inr rfl) (.inr rfl) (.inr rfl) (.inr rfl) (.inr rfl) (.inl h_doorF) (.inl h_doorR) (.inr rfl) (.inr rfl) (.inr rfl) (.inr rfl) (.inr rfl) (.inr rfl) (.inr rfl) (.inr rfl) (.inr rfl) (.inr rfl) (.inr rfl) (.inr rfl) (.inr rfl); try dsimp only)

theorem State.doorStartOpen_only {pt : Parts} (h_rf : pt.rf = true) (h_irqNow : pt.irqNow = true) (h_doorF : pt.doorF = true) (h_doorR : pt.doorR = true) {s₀ s0 : State} (h : Only pt s₀ s0) (c : Chan) : Only pt s₀ (State.doorStartOpen s0 c) := by
  unfold State.doorStartOpen
  try dsimp only
  repeat' first | (with_reducible first | assumption | apply State.doorHere_only h_doorF h_doorR | apply State.setDoor_only h_doorF h_doorR | apply State.doorInto_only h_rf h_irqNow h_doorF h_doorR | apply each_only | apply foldl_only) | intro _ _ _ | split | (refine Only.upd ?_ (.inr rfl) (.inr rfl) (.inr rfl) (.inl h_rf) (.inl h_irqNow) (.inr rfl) (.inr rfl) (.inr rfl) (.inr rfl) (.inr rfl) (.inr rfl) (.inl h_doorF) (.inl h_doorR) (.inr rfl) (.inr rfl) (.inr rfl) (.inr rfl) (.inr rfl) (.inr rfl) (.inr rfl) (.inr rfl) (.inr rfl) (.inr rfl) (.inr rfl) (.inr rfl) (.inr rfl); try dsimp only)

theorem State.doorStartClose_only {pt : Parts} (h_rf : pt.rf = true) (h_irqNow : pt.irqNow = true) (h_doorF : pt.doorF = true) (h_doorR : pt.doorR = true) {s₀ s0 : State} (h : Only pt s₀ s0) (c : Chan) : Only pt s₀ (State.doorStartClose s0 c) := by
  unfold State.doorStartClose
  try dsimp only
  repeat' first | (with_reducible first | assumption | apply State.doorHere_only h_doorF h_doorR | apply State.setDoor_only h_doorF h_doorR | apply State.doorInto_only h_rf h_irqNow h_doorF h_doorR | apply each_only | apply foldl_only) | intro _ _ _ | split | (refine Only.upd ?_ (.inr rfl) (.inr rfl) (.inr rfl) (.inl h_rf) (.inl h_irqNow) (.inr rfl) (.inr rfl) (.inr rfl) (.inr rfl) (.inr rfl) (.inr rfl) (.inl h_doorF) (.inl h_doorR) (.inr rfl) (.inr rfl) (.inr rfl) (.inr rfl) (.inr rfl) (.inr rfl) (.inr rfl) (.inr rfl) (.inr rfl) (.inr rfl) (.inr rfl) (.inr rfl) (.inr rfl); try dsimp only)

theorem State.doorStopInto_only {pt : Parts} (h_rf : pt.rf = true) (h_irqNow : pt.irqNow = true) (h_doorF : pt.doorF = true) (h_doorR : pt.doorR = true) {s₀ s0 : State} (h : Only pt s₀ s0) (c : Chan) (st : DoorSt) (after : Option DoorSt) : Only pt s₀ (State.doorStopInto s0 c st after) := by
  unfold State.doorStopInto
  try dsimp only
  repeat' first | (with_reducible first | assumption | apply State.doorHere_only h_doorF h_doorR | apply State.setDoor_only h_doorF h_doorR | apply State.doorInto_only h_rf h_irqNow h_doorF h_doorR | apply each_only | apply foldl_only) | intro _ _ _ | split | (refine Only.upd ?_ (.inr rfl) (.inr rfl) (.inr rfl) (.inl h_rf) (.inl h_irqNow) (.inr rfl) (.inr rfl) (.inr rfl) (.inr rfl) (.inr rfl) (.inr rfl) (.inl h_doorF) (.inl h_doorR) (.inr rfl) (.inr rfl) (.inr rfl) (.inr rfl) (.inr rfl) (.inr rfl) (.inr rfl) (.inr rfl) (.inr rfl) (.inr rfl) (.inr rfl) (.inr rfl) (.inr rfl); try dsimp only)

theorem State.doorReverse_only {pt : Parts} (h_rf : pt.rf = true) (h_irqNow : pt.irqNow = true) (h_doorF : pt.doorF = true) (h_doorR : pt.doorR = true) {s₀ s : State} (h : Only pt s₀ s) (c : Chan) (raised : Bool) (byLc : Bool) : Only pt s₀ (State.doorReverse s c raised byLc) := by
  unfold State.doorReverse
  try dsimp only
  repeat' first | (with_reducible first | assumption | apply State.setDoor_only h_doorF h_doorR | apply State.doorStopInto_only h_rf h_irqNow h_doorF h_doorR | apply State.raise_only h_rf h_irqNow | apply each_only | apply foldl_only) | intro _ _ _ | split | (refine Only.upd ?_ (.inr rfl) (.inr rfl) (.inr rfl) (.inl h_rf) (.inl h_irqNow) (.inr rfl) (.inr rfl) (.inr rfl) (.inr rfl) (.inr rfl) (.inr rfl) (.inl h_doorF) (.inl h_doorR) (.inr rfl) (.inr rfl) (.inr rfl) (.inr rfl) (.inr rfl) (.inr rfl) (.inr rfl) (.inr rfl) (.inr rfl) (.inr rfl) (.inr rfl) (.inr rfl) (.inr rfl); try dsimp only)

theorem State.doorLearnAbort_only {pt : Parts} (h_rf : pt.rf = true) (h_irqNow : pt.irqNow = true) (h_doorF : pt.doorF = true) (h_doorR : pt.doorR = true) {s₀ s : State} (h : Only pt s₀ s) (c : Chan) : Only pt s₀ (State.doorLearnAbort s c) := by
  unfold State.doorLearnAbort
  try dsimp only
  repeat' first | (with_reducible first | assumption | apply State.setDoor_only h_doorF h_doorR | apply State.doorStopInto_only h_rf h_irqNow h_doorF h_doorR | apply State.raise_only h_rf h_irqNow | apply each_only | apply foldl_only) | intro _ _ _ | split | (refine Only.upd ?_ (.inr rfl) (.inr rfl) (.inr rfl) (.inl h_rf) (.inl h_irqNow) (.inr rfl) (.inr rfl) (.inr rfl) (.inr rfl) (.inr rfl) (.inr rfl) (.inl h_doorF) (.inl h_doorR) (.inr rfl) (.inr rfl) (.inr rfl) (.inr rfl) (.inr rfl) (.inr rfl) (.inr rfl) (.inr rfl) (.inr rfl) (.inr rfl) (.inr rfl) (.inr rfl) (.inr rfl); try dsimp only)

theorem State.doorGearAbort_only {pt : Parts} (h_rf : pt.rf = true) (h_irqNow : pt.irqNow = true) (h_doorF : pt.doorF = true) (h_doorR : pt.doorR = true) {s₀ s : State} (h : Only pt s₀ s) (c : Chan) (cause : Nat) : Only pt s₀ (State.doorGearAbort s c cause) := by
  unfold State.doorGearAbort
  try dsimp only
  repeat' first | (with_reducible first | assumption | apply State.setDoor_only h_doorF h_doorR | apply State.doorStopInto_only h_rf h_irqNow h_doorF h_doorR | apply State.raise_only h_rf h_irqNow | apply each_only | apply foldl_only) | intro _ _ _ | split | (refine Only.upd ?_ (.inr rfl) (.inr rfl) (.inr rfl) (.inl h_rf) (.inl h_irqNow) (.inr rfl) (.inr rfl) (.inr rfl) (.inr rfl) (.inr rfl) (.inr rfl) (.inl h_doorF) (.inl h_doorR) (.inr rfl) (.inr rfl) (.inr rfl) (.inr rfl) (.inr rfl) (.inr rfl) (.inr rfl) (.inr rfl) (.inr rfl) (.inr rfl) (.inr rfl) (.inr rfl) (.inr rfl); try dsimp only)

theorem State.doorOpenAct_only {pt : Parts} (h_rf : pt.rf = true) (h_irqNow : pt.irqNow = true) (h_doorF : pt.doorF = true) (h_doorR : pt.doorR = true) {s₀ s : State} (h : Only pt s₀ s) (c : Chan) : Only pt s₀ (State.doorOpenAct s c) := by
  unfold State.doorOpenAct
  try dsimp only
  repeat' first | (with_reducible first | assumption | apply State.setDoor_only h_doorF h_doorR | apply State.doorStartOpen_only h_rf h_irqNow h_doorF h_doorR | apply State.doorReverse_only h_rf h_irqNow h_doorF h_doorR | apply each_only | apply foldl_only) | intro _ _ _ | split | (refine Only.upd ?_ (.inr rfl) (.inr rfl) (.inr rfl) (.inl h_rf) (.inl h_irqNow) (.inr rfl) (.inr rfl) (.inr rfl) (.inr rfl) (.inr rfl) (.inr rfl) (.inl h_doorF) (.inl h_doorR) (.inr rfl) (.inr rfl) (.inr rfl) (.inr rfl) (.inr rfl) (.inr rfl) (.inr rfl) (.inr rfl) (.inr rfl) (.inr rfl) (.inr rfl) (.inr rfl) (.inr rfl); try dsimp only)

theorem State.doorCloseAct_only {pt : Parts} (h_rf : pt.rf = true) (h_irqNow : pt.irqNow = true) (h_doorF : pt.doorF = true) (h_doorR : pt.doorR = true) {s₀ s : State} (h : Only pt s₀ s) (c : Chan) : Only pt s₀ (State.doorCloseAct s c) := by
  unfold State.doorCloseAct
  try dsimp only
  repeat' first | (with_reducible first | assumption | apply State.setDoor_only h_doorF h_doorR | apply State.doorStartClose_only h_rf h_irqNow h_doorF h_doorR | apply each_only | apply foldl_only) | intro _ _ _ | split | (refine Only.upd ?_ (.inr rfl) (.inr rfl) (.inr rfl) (.inl h_rf) (.inl h_irqNow) (.inr rfl) (.inr rfl) (.inr rfl) (.inr rfl) (.inr rfl) (.inr rfl) (.inl h_doorF) (.inl h_doorR) (.inr rfl) (.inr rfl) (.inr rfl) (.inr rfl) (.inr rfl) (.inr rfl) (.inr rfl) (.inr rfl) (.inr rfl) (.inr rfl) (.inr rfl) (.inr rfl) (.inr rfl); try dsimp only)

theorem State.doorStopAct_only {pt : Parts} (h_rf : pt.rf = true) (h_irqNow : pt.irqNow = true) (h_doorF : pt.doorF = true) (h_doorR : pt.doorR = true) {s₀ s : State} (h : Only pt s₀ s) (c : Chan) : Only pt s₀ (State.doorStopAct s c) := by
  unfold State.doorStopAct
  try dsimp only
  repeat' first | (with_reducible first | assumption | apply State.doorGearAbort_only h_rf h_irqNow h_doorF h_doorR | apply State.doorLearnAbort_only h_rf h_irqNow h_doorF h_doorR | apply State.doorStopInto_only h_rf h_irqNow h_doorF h_doorR | apply State.setDoor_only h_doorF h_doorR | apply each_only | apply foldl_only) | intro _ _ _ | split | (refine Only.upd ?_ (.inr rfl) (.inr rfl) (.inr rfl) (.inl h_rf) (.inl h_irqNow) (.inr rfl) (.inr rfl) (.inr rfl) (.inr rfl) (.inr rfl) (.inr rfl) (.inl h_doorF) (.inl h_doorR) (.inr rfl) (.inr rfl) (.inr rfl) (.inr rfl) (.inr rfl) (.inr rfl) (.inr rfl) (.inr rfl) (.inr rfl) (.inr rfl) (.inr rfl) (.inr rfl) (.inr rfl); try dsimp only)

theorem State.doorStartHome_only {pt : Parts} (h_rf : pt.rf = true) (h_irqNow : pt.irqNow = true) (h_doorF : pt.doorF = true) (h_doorR : pt.doorR = true) {s₀ s0 : State} (h : Only pt s₀ s0) (c : Chan) : Only pt s₀ (State.doorStartHome s0 c) := by
  unfold State.doorStartHome
  try dsimp only
  repeat' first | (with_reducible first | assumption | apply State.doorHere_only h_doorF h_doorR | apply State.setDoor_only h_doorF h_doorR | apply State.doorInto_only h_rf h_irqNow h_doorF h_doorR | apply each_only | apply foldl_only) | intro _ _ _ | split | (refine Only.upd ?_ (.inr rfl) (.inr rfl) (.inr rfl) (.inl h_rf) (.inl h_irqNow) (.inr rfl) (.inr rfl) (.inr rfl) (.inr rfl) (.inr rfl) (.inr rfl) (.inl h_doorF) (.inl h_doorR) (.inr rfl) (.inr rfl) (.inr rfl) (.inr rfl) (.inr rfl) (.inr rfl) (.inr rfl) (.inr rfl) (.inr rfl) (.inr rfl) (.inr rfl) (.inr rfl) (.inr rfl); try dsimp only)

theorem State.doorDiscard_only {pt : Parts} (h_rf : pt.rf = true) (h_irqNow : pt.irqNow = true) (h_doorF : pt.doorF = true) (h_doorR : pt.doorR = true) {s₀ s : State} (h : Only pt s₀ s) (c : Chan) : Only pt s₀ (State.doorDiscard s c) := by
  unfold State.doorDiscard
  try dsimp only
  repeat' first | (with_reducible first | assumption | apply State.setDoor_only h_doorF h_doorR | apply State.errNote_only h_rf h_irqNow | apply each_only | apply foldl_only) | intro _ _ _ | split | (refine Only.upd ?_ (.inr rfl) (.inr rfl) (.inr rfl) (.inl h_rf) (.inl h_irqNow) (.inr rfl) (.inr rfl) (.inr rfl) (.inr rfl) (.inr rfl) (.inr rfl) (.inl h_doorF) (.inl h_doorR) (.inr rfl) (.inr rfl) (.inr rfl) (.inr rfl) (.inr rfl) (.inr rfl) (.inr rfl) (.inr rfl) (.inr rfl) (.inr rfl) (.inr rfl) (.inr rfl) (.inr rfl); try dsimp only)

theorem State.doorFaulted_only {pt : Parts} (h_rf : pt.rf = true) (h_irqNow : pt.irqNow = true) (h_doorF : pt.doorF = true) (h_doorR : pt.doorR = true) {s₀ s0 : State} (h : Only pt s₀ s0) (c : Chan) (code : Nat) : Only pt s₀ (State.doorFaulted s0 c code) := by
  unfold State.doorFaulted
  try dsimp only
  repeat' first | (with_reducible first | assumption | apply State.doorDiscard_only h_rf h_irqNow h_doorF h_doorR | apply State.setDoor_only h_doorF h_doorR | apply State.raise_only h_rf h_irqNow | apply State.doorInto_only h_rf h_irqNow h_doorF h_doorR | apply each_only | apply foldl_only) | intro _ _ _ | split | (refine Only.upd ?_ (.inr rfl) (.inr rfl) (.inr rfl) (.inl h_rf) (.inl h_irqNow) (.inr rfl) (.inr rfl) (.inr rfl) (.inr rfl) (.inr rfl) (.inr rfl) (.inl h_doorF) (.inl h_doorR) (.inr rfl) (.inr rfl) (.inr rfl) (.inr rfl) (.inr rfl) (.inr rfl) (.inr rfl) (.inr rfl) (.inr rfl) (.inr rfl) (.inr rfl) (.inr rfl) (.inr rfl); try dsimp only)

theorem State.doorAuthLost_only {pt : Parts} (h_rf : pt.rf = true) (h_irqNow : pt.irqNow = true) (h_doorF : pt.doorF = true) (h_doorR : pt.doorR = true) {s₀ s0 : State} (h : Only pt s₀ s0) (c : Chan) : Only pt s₀ (State.doorAuthLost s0 c) := by
  unfold State.doorAuthLost
  try dsimp only
  repeat' first | (with_reducible first | assumption | apply State.doorDiscard_only h_rf h_irqNow h_doorF h_doorR | apply State.setDoor_only h_doorF h_doorR | apply State.raise_only h_rf h_irqNow | apply State.doorInto_only h_rf h_irqNow h_doorF h_doorR | apply each_only | apply foldl_only) | intro _ _ _ | split | (refine Only.upd ?_ (.inr rfl) (.inr rfl) (.inr rfl) (.inl h_rf) (.inl h_irqNow) (.inr rfl) (.inr rfl) (.inr rfl) (.inr rfl) (.inr rfl) (.inr rfl) (.inl h_doorF) (.inl h_doorR) (.inr rfl) (.inr rfl) (.inr rfl) (.inr rfl) (.inr rfl) (.inr rfl) (.inr rfl) (.inr rfl) (.inr rfl) (.inr rfl) (.inr rfl) (.inr rfl) (.inr rfl); try dsimp only)

theorem State.doorRetain_only {pt : Parts} (h_rf : pt.rf = true) (h_doorF : pt.doorF = true) (h_doorR : pt.doorR = true) {s₀ s : State} (h : Only pt s₀ s) (c : Chan) : Only pt s₀ (State.doorRetain s c) := by
  unfold State.doorRetain
  try dsimp only
  repeat' first | (with_reducible first | assumption | apply State.wr_only h_rf | apply State.wi_only h_rf | apply State.setDoor_only h_doorF h_doorR | apply each_only | apply foldl_only) | intro _ _ _ | split | (refine Only.upd ?_ (.inr rfl) (.inr rfl) (.inr rfl) (.inl h_rf) (.inr rfl) (.inr rfl) (.inr rfl) (.inr rfl) (.inr rfl) (.inr rfl) (.inr rfl) (.inl h_doorF) (.inl h_doorR) (.inr rfl) (.inr rfl) (.inr rfl) (.inr rfl) (.inr rfl) (.inr rfl) (.inr rfl) (.inr rfl) (.inr rfl) (.inr rfl) (.inr rfl) (.inr rfl) (.inr rfl); try dsimp only)

theorem State.doorPowerDown_only {pt : Parts} (h_rf : pt.rf = true) (h_irqNow : pt.irqNow = true) (h_doorF : pt.doorF = true) (h_doorR : pt.doorR = true) {s₀ s : State} (h : Only pt s₀ s) (c : Chan) : Only pt s₀ (State.doorPowerDown s c) := by
  unfold State.doorPowerDown
  try dsimp only
  repeat' first | (with_reducible first | assumption | apply State.doorRetain_only h_rf h_doorF h_doorR | apply State.doorInto_only h_rf h_irqNow h_doorF h_doorR | apply each_only | apply foldl_only) | intro _ _ _ | split | dsimp only

theorem State.doorPowerUp_only {pt : Parts} (h_rf : pt.rf = true) (h_irqNow : pt.irqNow = true) (h_doorF : pt.doorF = true) (h_doorR : pt.doorR = true) {s₀ s0 : State} (h : Only pt s₀ s0) (c : Chan) (raw : Int) (overrun : Bool) (cut : Bool) : Only pt s₀ (State.doorPowerUp s0 c raw overrun cut) := by
  unfold State.doorPowerUp
  try dsimp only
  repeat' first | (with_reducible first | assumption | apply State.wf__only h_rf | apply State.setDoor_only h_doorF h_doorR | apply State.doorInto_only h_rf h_irqNow h_doorF h_doorR | apply State.doorLosePos_only h_rf h_irqNow h_doorF h_doorR | apply each_only | apply foldl_only) | intro _ _ _ | split | (refine Only.upd ?_ (.inr rfl) (.inr rfl) (.inr rfl) (.inl h_rf) (.inl h_irqNow) (.inr rfl) (.inr rfl) (.inr rfl) (.inr rfl) (.inr rfl) (.inr rfl) (.inl h_doorF) (.inl h_doorR) (.inr rfl) (.inr rfl) (.inr rfl) (.inr rfl) (.inr rfl) (.inr rfl) (.inr rfl) (.inr rfl) (.inr rfl) (.inr rfl) (.inr rfl) (.inr rfl) (.inr rfl); try dsimp only)

theorem State.doorEngage_only {pt : Parts} (h_rf : pt.rf = true) (h_irqNow : pt.irqNow = true) (h_doorF : pt.doorF = true) (h_doorR : pt.doorR = true) {s₀ s : State} (h : Only pt s₀ s) (c : Chan) : Only pt s₀ (State.doorEngage s c) := by
  unfold State.doorEngage
  try dsimp only
  repeat' first | (with_reducible first | assumption | apply State.setDoor_only h_doorF h_doorR | apply State.doorInto_only h_rf h_irqNow h_doorF h_doorR | apply State.raise_only h_rf h_irqNow | apply each_only | apply foldl_only) | intro _ _ _ | split | (refine Only.upd ?_ (.inr rfl) (.inr rfl) (.inr rfl) (.inl h_rf) (.inl h_irqNow) (.inr rfl) (.inr rfl) (.inr rfl) (.inr rfl) (.inr rfl) (.inr rfl) (.inl h_doorF) (.inl h_doorR) (.inr rfl) (.inr rfl) (.inr rfl) (.inr rfl) (.inr rfl) (.inr rfl) (.inr rfl) (.inr rfl) (.inr rfl) (.inr rfl) (.inr rfl) (.inr rfl) (.inr rfl); try dsimp only)

theorem State.doorGearStep_only {pt : Parts} (h_doorF : pt.doorF = true) (h_doorR : pt.doorR = true) {s₀ s : State} (h : Only pt s₀ s) (c : Chan) : Only pt s₀ (State.doorGearStep s c) := by
  unfold State.doorGearStep
  try dsimp only
  repeat' first | (with_reducible first | assumption | apply State.setDoor_only h_doorF h_doorR | apply each_only | apply foldl_only) | intro _ _ _ | split | (refine Only.upd ?_ (.inr rfl) (.inr rfl) (.inr rfl) (.inr rfl) (.inr rfl) (.inr rfl) (.inr rfl) (.inr rfl) (.inr rfl) (.inr rfl) (.inr rfl) (.inl h_doorF) (.inl h_doorR) (.inr rfl) (.inr rfl) (.inr rfl) (.inr rfl) (.inr rfl) (.inr rfl) (.inr rfl) (.inr rfl) (.inr rfl) (.inr rfl) (.inr rfl) (.inr rfl) (.inr rfl); try dsimp only)

theorem State.doorGearCheck_only {pt : Parts} (h_rf : pt.rf = true) (h_irqNow : pt.irqNow = true) (h_doorF : pt.doorF = true) (h_doorR : pt.doorR = true) {s₀ s : State} (h : Only pt s₀ s) (c : Chan) : Only pt s₀ (State.doorGearCheck s c) := by
  unfold State.doorGearCheck
  try dsimp only
  repeat' first | (with_reducible first | assumption | apply State.doorGearAbort_only h_rf h_irqNow h_doorF h_doorR | apply State.raise_only h_rf h_irqNow | apply State.doorStartClose_only h_rf h_irqNow h_doorF h_doorR | apply each_only | apply foldl_only) | intro _ _ _ | split | (refine Only.upd ?_ (.inr rfl) (.inr rfl) (.inr rfl) (.inl h_rf) (.inl h_irqNow) (.inr rfl) (.inr rfl) (.inr rfl) (.inr rfl) (.inr rfl) (.inr rfl) (.inl h_doorF) (.inl h_doorR) (.inr rfl) (.inr rfl) (.inr rfl) (.inr rfl) (.inr rfl) (.inr rfl) (.inr rfl) (.inr rfl) (.inr rfl) (.inr rfl) (.inr rfl) (.inr rfl) (.inr rfl); try dsimp only)

theorem State.doorArm_only {pt : Parts} (h_doorF : pt.doorF = true) (h_doorR : pt.doorR = true) {s₀ s : State} (h : Only pt s₀ s) (c : Chan) : Only pt s₀ (State.doorArm s c) := by
  unfold State.doorArm
  try dsimp only
  repeat' first | (with_reducible first | assumption | apply State.setDoor_only h_doorF h_doorR | apply each_only | apply foldl_only) | intro _ _ _ | split | (refine Only.upd ?_ (.inr rfl) (.inr rfl) (.inr rfl) (.inr rfl) (.inr rfl) (.inr rfl) (.inr rfl) (.inr rfl) (.inr rfl) (.inr rfl) (.inr rfl) (.inl h_doorF) (.inl h_doorR) (.inr rfl) (.inr rfl) (.inr rfl) (.inr rfl) (.inr rfl) (.inr rfl) (.inr rfl) (.inr rfl) (.inr rfl) (.inr rfl) (.inr rfl) (.inr rfl) (.inr rfl); try dsimp only)

theorem State.doorMaster_only {pt : Parts} (h_rf : pt.rf = true) (h_irqNow : pt.irqNow = true) (h_doorF : pt.doorF = true) (h_doorR : pt.doorR = true) {s₀ s : State} (h : Only pt s₀ s) (c : Chan) : Only pt s₀ (State.doorMaster s c) := by
  unfold State.doorMaster
  try dsimp only
  repeat' first | (with_reducible first | assumption | apply State.doorArm_only h_doorF h_doorR | apply State.doorGearCheck_only h_rf h_irqNow h_doorF h_doorR | apply State.doorEngage_only h_rf h_irqNow h_doorF h_doorR | apply State.doorGearStep_only h_doorF h_doorR | apply State.doorLearnAbort_only h_rf h_irqNow h_doorF h_doorR | apply each_only | apply foldl_only) | intro _ _ _ | split | dsimp only

theorem State.doorProfile_only {pt : Parts} (h_rf : pt.rf = true) (h_irqNow : pt.irqNow = true) (h_doorF : pt.doorF = true) (h_doorR : pt.doorR = true) {s₀ s : State} (h : Only pt s₀ s) (c : Chan) : Only pt s₀ (State.doorProfile s c) := by
  unfold State.doorProfile
  try dsimp only
  repeat' first | (with_reducible first | assumption | apply State.setDoor_only h_doorF h_doorR | apply State.doorCloseAct_only h_rf h_irqNow h_doorF h_doorR | apply each_only | apply foldl_only) | intro _ _ _ | split | (refine Only.upd ?_ (.inr rfl) (.inr rfl) (.inr rfl) (.inl h_rf) (.inl h_irqNow) (.inr rfl) (.inr rfl) (.inr rfl) (.inr rfl) (.inr rfl) (.inr rfl) (.inl h_doorF) (.inl h_doorR) (.inr rfl) (.inr rfl) (.inr rfl) (.inr rfl) (.inr rfl) (.inr rfl) (.inr rfl) (.inr rfl) (.inr rfl) (.inr rfl) (.inr rfl) (.inr rfl) (.inr rfl); try dsimp only)

theorem State.doorOpened_only {pt : Parts} (h_rf : pt.rf = true) (h_irqNow : pt.irqNow = true) (h_doorF : pt.doorF = true) (h_doorR : pt.doorR = true) {s₀ s : State} (h : Only pt s₀ s) (c : Chan) : Only pt s₀ (State.doorOpened s c) := by
  unfold State.doorOpened
  try dsimp only
  repeat' first | (with_reducible first | assumption | apply State.wi_only h_rf | apply State.setDoor_only h_doorF h_doorR | apply State.doorInto_only h_rf h_irqNow h_doorF h_doorR | apply State.raise_only h_rf h_irqNow | apply each_only | apply foldl_only) | intro _ _ _ | split | (refine Only.upd ?_ (.inr rfl) (.inr rfl) (.inr rfl) (.inl h_rf) (.inl h_irqNow) (.inr rfl) (.inr rfl) (.inr rfl) (.inr rfl) (.inr rfl) (.inr rfl) (.inl h_doorF) (.inl h_doorR) (.inr rfl) (.inr rfl) (.inr rfl) (.inr rfl) (.inr rfl) (.inr rfl) (.inr rfl) (.inr rfl) (.inr rfl) (.inr rfl) (.inr rfl) (.inr rfl) (.inr rfl); try dsimp only)

theorem State.doorLocked_only {pt : Parts} (h_rf : pt.rf = true) (h_doorF : pt.doorF = true) (h_doorR : pt.doorR = true) {s₀ s : State} (h : Only pt s₀ s) (c : Chan) : Only pt s₀ (State.doorLocked s c) := by
  unfold State.doorLocked
  try dsimp only
  repeat' first | (with_reducible first | assumption | apply State.wi_only h_rf | apply State.setDoor_only h_doorF h_doorR | apply each_only | apply foldl_only) | intro _ _ _ | split | (refine Only.upd ?_ (.inr rfl) (.inr rfl) (.inr rfl) (.inl h_rf) (.inr rfl) (.inr rfl) (.inr rfl) (.inr rfl) (.inr rfl) (.inr rfl) (.inr rfl) (.inl h_doorF) (.inl h_doorR) (.inr rfl) (.inr rfl) (.inr rfl) (.inr rfl) (.inr rfl) (.inr rfl) (.inr rfl) (.inr rfl) (.inr rfl) (.inr rfl) (.inr rfl) (.inr rfl) (.inr rfl); try dsimp only)

theorem State.lockNote_only {pt : Parts} (h_rf : pt.rf = true) (h_doorF : pt.doorF = true) (h_doorR : pt.doorR = true) {s₀ s : State} (h : Only pt s₀ s) (c : Chan) : Only pt s₀ (State.lockNote s c) := by
  unfold State.lockNote
  try dsimp only
  repeat' first | (with_reducible first | assumption | apply State.doorLocked_only h_rf h_doorF h_doorR | apply each_only | apply foldl_only) | intro _ _ _ | split | dsimp only

theorem State.doorObstructed_only {pt : Parts} (h_rf : pt.rf = true) (h_irqNow : pt.irqNow = true) (h_doorF : pt.doorF = true) (h_doorR : pt.doorR = true) {s₀ s : State} (h : Only pt s₀ s) (c : Chan) : Only pt s₀ (State.doorObstructed s c) := by
  unfold State.doorObstructed
  try dsimp only
  repeat' first | (with_reducible first | assumption | apply State.setDoor_only h_doorF h_doorR | apply State.raise_only h_rf h_irqNow | apply State.doorStopInto_only h_rf h_irqNow h_doorF h_doorR | apply each_only | apply foldl_only) | intro _ _ _ | split | (refine Only.upd ?_ (.inr rfl) (.inr rfl) (.inr rfl) (.inl h_rf) (.inl h_irqNow) (.inr rfl) (.inr rfl) (.inr rfl) (.inr rfl) (.inr rfl) (.inr rfl) (.inl h_doorF) (.inl h_doorR) (.inr rfl) (.inr rfl) (.inr rfl) (.inr rfl) (.inr rfl) (.inr rfl) (.inr rfl) (.inr rfl) (.inr rfl) (.inr rfl) (.inr rfl) (.inr rfl) (.inr rfl); try dsimp only)

end Sys2Proof.Machine
end

