-- ==== Sys2Proof/Laws/OnlyCanOps.lean ====
section
/-! SUPPORT. Which parts of the state the operations of Machine/CanOps.lean leave the same. -/

set_option linter.unusedTactic false
set_option linter.unreachableTactic false

namespace Sys2Proof.Machine

theorem State.setTxo_only {pt : Parts} (h_can : pt.can = true) {s₀ s : State} (h : Only pt s₀ s) (n : Nat) (j : Nat) (o : TxObj) : Only pt s₀ (State.setTxo s n j o) := by
  unfold State.setTxo
  try dsimp only
  repeat' first | (with_reducible first | assumption | apply State.setCan_only h_can | apply each_only | apply foldl_only) | intro _ _ _ | split | (refine Only.upd ?_ (.inr rfl) (.inr rfl) (.inr rfl) (.inr rfl) (.inr rfl) (.inr rfl) (.inr rfl) (.inr rfl) (.inr rfl) (.inr rfl) (.inr rfl) (.inr rfl) (.inr rfl) (.inr rfl) (.inr rfl) (.inl h_can) (.inr rfl) (.inr rfl) (.inr rfl) (.inr rfl) (.inr rfl) (.inr rfl) (.inr rfl) (.inr rfl) (.inr rfl) (.inr rfl); try dsimp only)

theorem State.canInto_only {pt : Parts} (h_rf : pt.rf = true) (h_irqNow : pt.irqNow = true) (h_can : pt.can = true) {s₀ s : State} (h : Only pt s₀ s) (n : Nat) (st : CanSt) : Only pt s₀ (State.canInto s n st) := by
  unfold State.canInto
  try dsimp only
  repeat' first | (with_reducible first | assumption | apply State.setCan_only h_can | apply State.raise_only h_rf h_irqNow | apply each_only | apply foldl_only) | intro _ _ _ | split | (refine Only.upd ?_ (.inr rfl) (.inr rfl) (.inr rfl) (.inl h_rf) (.inl h_irqNow) (.inr rfl) (.inr rfl) (.inr rfl) (.inr rfl) (.inr rfl) (.inr rfl) (.inr rfl) (.inr rfl) (.inr rfl) (.inr rfl) (.inl h_can) (.inr rfl) (.inr rfl) (.inr rfl) (.inr rfl) (.inr rfl) (.inr rfl) (.inr rfl) (.inr rfl) (.inr rfl) (.inr rfl); try dsimp only)

theorem State.canErrState_only {pt : Parts} (h_rf : pt.rf = true) (h_irqNow : pt.irqNow = true) (h_can : pt.can = true) {s₀ s : State} (h : Only pt s₀ s) (n : Nat) : Only pt s₀ (State.canErrState s n) := by
  unfold State.canErrState
  try dsimp only
  repeat' first | (with_reducible first | assumption | apply State.canInto_only h_rf h_irqNow h_can | apply each_only | apply foldl_only) | intro _ _ _ | split | dsimp only

theorem State.txResult_only {pt : Parts} (h_rf : pt.rf = true) (h_irqNow : pt.irqNow = true) (h_can : pt.can = true) {s₀ s : State} (h : Only pt s₀ s) (n : Nat) (j : Nat) (done : Bool) (o : TxObj) : Only pt s₀ (State.txResult s n j done o) := by
  unfold State.txResult
  try dsimp only
  repeat' first | (with_reducible first | assumption | apply State.setTxo_only h_can | apply State.wf__only h_rf | apply State.raise_only h_rf h_irqNow | apply each_only | apply foldl_only) | intro _ _ _ | split | dsimp only

theorem State.canAbort_only {pt : Parts} (h_rf : pt.rf = true) (h_irqNow : pt.irqNow = true) (h_can : pt.can = true) {s₀ s : State} (h : Only pt s₀ s) (n : Nat) (j : Nat) : Only pt s₀ (State.canAbort s n j) := by
  unfold State.canAbort
  try dsimp only
  repeat' first | (with_reducible first | assumption | apply State.txResult_only h_rf h_irqNow h_can | apply each_only | apply foldl_only) | intro _ _ _ | split | (refine Only.upd ?_ (.inr rfl) (.inr rfl) (.inr rfl) (.inl h_rf) (.inl h_irqNow) (.inr rfl) (.inr rfl) (.inr rfl) (.inr rfl) (.inr rfl) (.inr rfl) (.inr rfl) (.inr rfl) (.inr rfl) (.inr rfl) (.inl h_can) (.inr rfl) (.inr rfl) (.inr rfl) (.inr rfl) (.inr rfl) (.inr rfl) (.inr rfl) (.inr rfl) (.inr rfl) (.inr rfl); try dsimp only)

theorem State.canAbortAll_only {pt : Parts} (h_rf : pt.rf = true) (h_irqNow : pt.irqNow = true) (h_can : pt.can = true) {s₀ s : State} (h : Only pt s₀ s) (n : Nat) : Only pt s₀ (State.canAbortAll s n) := by
  unfold State.canAbortAll
  try dsimp only
  repeat' first | (with_reducible first | assumption | apply State.canAbort_only h_rf h_irqNow h_can | apply each_only | apply foldl_only) | intro _ _ _ | split | dsimp only

theorem State.canRequestIn_only {pt : Parts} (h_rf : pt.rf = true) (h_irqNow : pt.irqNow = true) (h_can : pt.can = true) {s₀ s : State} (h : Only pt s₀ s) (n : Nat) (j : Nat) (lo : Nat) (hi : Nat) : Only pt s₀ (State.canRequestIn s n j lo hi) := by
  unfold State.canRequestIn
  try dsimp only
  repeat' first | (with_reducible first | assumption | apply State.setTxo_only h_can | apply State.canAbort_only h_rf h_irqNow h_can | apply each_only | apply foldl_only) | intro _ _ _ | split | (refine Only.upd ?_ (.inr rfl) (.inr rfl) (.inr rfl) (.inl h_rf) (.inl h_irqNow) (.inr rfl) (.inr rfl) (.inr rfl) (.inr rfl) (.inr rfl) (.inr rfl) (.inr rfl) (.inr rfl) (.inr rfl) (.inr rfl) (.inl h_can) (.inr rfl) (.inr rfl) (.inr rfl) (.inr rfl) (.inr rfl) (.inr rfl) (.inr rfl) (.inr rfl) (.inr rfl) (.inr rfl); try dsimp only)

theorem State.canRequest_only {pt : Parts} (h_rf : pt.rf = true) (h_irqNow : pt.irqNow = true) (h_can : pt.can = true) {s₀ s : State} (h : Only pt s₀ s) (n : Nat) (j : Nat) : Only pt s₀ (State.canRequest s n j) := by
  unfold State.canRequest
  try dsimp only
  repeat' first | (with_reducible first | assumption | apply State.canRequestIn_only h_rf h_irqNow h_can | apply each_only | apply foldl_only) | intro _ _ _ | split | dsimp only

theorem State.canFill_only {pt : Parts} (h_rf : pt.rf = true) (h_can : pt.can = true) {s₀ s : State} (h : Only pt s₀ s) (n : Nat) (j : Nat) (ide : Bool) (id : Nat) (fd : Bool) (data : List Byte) : Only pt s₀ (State.canFill s n j ide id fd data) := by
  unfold State.canFill
  try dsimp only
  repeat' first | (with_reducible first | assumption | apply State.wr_only h_rf | apply State.setTxo_only h_can | apply each_only | apply foldl_only) | intro _ _ _ | split | (refine Only.upd ?_ (.inr rfl) (.inr rfl) (.inr rfl) (.inl h_rf) (.inr rfl) (.inr rfl) (.inr rfl) (.inr rfl) (.inr rfl) (.inr rfl) (.inr rfl) (.inr rfl) (.inr rfl) (.inr rfl) (.inr rfl) (.inl h_can) (.inr rfl) (.inr rfl) (.inr rfl) (.inr rfl) (.inr rfl) (.inr rfl) (.inr rfl) (.inr rfl) (.inr rfl) (.inr rfl); try dsimp only)

theorem State.canSend_only {pt : Parts} (h_rf : pt.rf = true) (h_irqNow : pt.irqNow = true) (h_can : pt.can = true) {s₀ s : State} (h : Only pt s₀ s) (n : Nat) (j : Nat) (ide : Bool) (id : Nat) (fd : Bool) (data : List Byte) : Only pt s₀ (State.canSend s n j ide id fd data) := by
  unfold State.canSend
  try dsimp only
  repeat' first | (with_reducible first | assumption | apply State.canFill_only h_rf h_can | apply State.canRequest_only h_rf h_irqNow h_can | apply each_only | apply foldl_only) | intro _ _ _ | split | dsimp only

theorem State.canStore_only {pt : Parts} (h_rf : pt.rf = true) (h_irqNow : pt.irqNow = true) (h_can : pt.can = true) {s₀ s : State} (h : Only pt s₀ s) (n : Nat) (i : Nat) (f : CanFrame) : Only pt s₀ (State.canStore s n i f) := by
  unfold State.canStore
  try dsimp only
  repeat' first | (with_reducible first | assumption | apply State.setCan_only h_can | apply State.bump_only h_rf | apply State.raise_only h_rf h_irqNow | apply each_only | apply foldl_only) | intro _ _ _ | split | (refine Only.upd ?_ (.inr rfl) (.inr rfl) (.inr rfl) (.inl h_rf) (.inl h_irqNow) (.inr rfl) (.inr rfl) (.inr rfl) (.inr rfl) (.inr rfl) (.inr rfl) (.inr rfl) (.inr rfl) (.inr rfl) (.inr rfl) (.inl h_can) (.inr rfl) (.inr rfl) (.inr rfl) (.inr rfl) (.inr rfl) (.inr rfl) (.inr rfl) (.inr rfl) (.inr rfl) (.inr rfl); try dsimp only)

theorem State.canTake_only {pt : Parts} (h_can : pt.can = true) {s₀ s : State} (h : Only pt s₀ s) (n : Nat) (i : Nat) : Only pt s₀ (State.canTake s n i) := by
  unfold State.canTake
  try dsimp only
  repeat' first | (with_reducible first | assumption | apply State.setCan_only h_can | apply each_only | apply foldl_only) | intro _ _ _ | split | (refine Only.upd ?_ (.inr rfl) (.inr rfl) (.inr rfl) (.inr rfl) (.inr rfl) (.inr rfl) (.inr rfl) (.inr rfl) (.inr rfl) (.inr rfl) (.inr rfl) (.inr rfl) (.inr rfl) (.inr rfl) (.inr rfl) (.inl h_can) (.inr rfl) (.inr rfl) (.inr rfl) (.inr rfl) (.inr rfl) (.inr rfl) (.inr rfl) (.inr rfl) (.inr rfl) (.inr rfl); try dsimp only)

theorem State.canClrNew_only {pt : Parts} (h_can : pt.can = true) {s₀ s : State} (h : Only pt s₀ s) (n : Nat) (i : Nat) : Only pt s₀ (State.canClrNew s n i) := by
  unfold State.canClrNew
  try dsimp only
  repeat' first | (with_reducible first | assumption | apply State.setCan_only h_can | apply each_only | apply foldl_only) | intro _ _ _ | split | (refine Only.upd ?_ (.inr rfl) (.inr rfl) (.inr rfl) (.inr rfl) (.inr rfl) (.inr rfl) (.inr rfl) (.inr rfl) (.inr rfl) (.inr rfl) (.inr rfl) (.inr rfl) (.inr rfl) (.inr rfl) (.inr rfl) (.inl h_can) (.inr rfl) (.inr rfl) (.inr rfl) (.inr rfl) (.inr rfl) (.inr rfl) (.inr rfl) (.inr rfl) (.inr rfl) (.inr rfl); try dsimp only)

theorem State.canClrLost_only {pt : Parts} (h_can : pt.can = true) {s₀ s : State} (h : Only pt s₀ s) (n : Nat) (i : Nat) : Only pt s₀ (State.canClrLost s n i) := by
  unfold State.canClrLost
  try dsimp only
  repeat' first | (with_reducible first | assumption | apply State.setCan_only h_can | apply each_only | apply foldl_only) | intro _ _ _ | split | (refine Only.upd ?_ (.inr rfl) (.inr rfl) (.inr rfl) (.inr rfl) (.inr rfl) (.inr rfl) (.inr rfl) (.inr rfl) (.inr rfl) (.inr rfl) (.inr rfl) (.inr rfl) (.inr rfl) (.inr rfl) (.inr rfl) (.inl h_can) (.inr rfl) (.inr rfl) (.inr rfl) (.inr rfl) (.inr rfl) (.inr rfl) (.inr rfl) (.inr rfl) (.inr rfl) (.inr rfl); try dsimp only)

theorem State.canReceive_only {pt : Parts} (h_rf : pt.rf = true) (h_irqNow : pt.irqNow = true) (h_can : pt.can = true) {s₀ s : State} (h : Only pt s₀ s) (n : Nat) (f : CanFrame) : Only pt s₀ (State.canReceive s n f) := by
  unfold State.canReceive
  try dsimp only
  repeat' first | (with_reducible first | assumption | apply State.setCan_only h_can | apply State.canErrState_only h_rf h_irqNow h_can | apply State.bump_only h_rf | apply State.canStore_only h_rf h_irqNow h_can | apply each_only | apply foldl_only) | intro _ _ _ | split | (refine Only.upd ?_ (.inr rfl) (.inr rfl) (.inr rfl) (.inl h_rf) (.inl h_irqNow) (.inr rfl) (.inr rfl) (.inr rfl) (.inr rfl) (.inr rfl) (.inr rfl) (.inr rfl) (.inr rfl) (.inr rfl) (.inr rfl) (.inl h_can) (.inr rfl) (.inr rfl) (.inr rfl) (.inr rfl) (.inr rfl) (.inr rfl) (.inr rfl) (.inr rfl) (.inr rfl) (.inr rfl); try dsimp only)

theorem State.canFailed_only {pt : Parts} (h_rf : pt.rf = true) (h_irqNow : pt.irqNow = true) (h_can : pt.can = true) {s₀ s : State} (h : Only pt s₀ s) (n : Nat) (j : Nat) : Only pt s₀ (State.canFailed s n j) := by
  unfold State.canFailed
  try dsimp only
  repeat' first | (with_reducible first | assumption | apply State.txResult_only h_rf h_irqNow h_can | apply State.setTxo_only h_can | apply each_only | apply foldl_only) | intro _ _ _ | split | (refine Only.upd ?_ (.inr rfl) (.inr rfl) (.inr rfl) (.inl h_rf) (.inl h_irqNow) (.inr rfl) (.inr rfl) (.inr rfl) (.inr rfl) (.inr rfl) (.inr rfl) (.inr rfl) (.inr rfl) (.inr rfl) (.inr rfl) (.inl h_can) (.inr rfl) (.inr rfl) (.inr rfl) (.inr rfl) (.inr rfl) (.inr rfl) (.inr rfl) (.inr rfl) (.inr rfl) (.inr rfl); try dsimp only)

theorem State.canAttempt_only {pt : Parts} (h_rf : pt.rf = true) (h_irqNow : pt.irqNow = true) (h_can : pt.can = true) {s₀ s : State} (h : Only pt s₀ s) (n : Nat) (j : Nat) (out : AttemptEnd) (sof : Nat) : Only pt s₀ (State.canAttempt s n j out sof) := by
  unfold State.canAttempt
  try dsimp only
  repeat' first | (with_reducible first | assumption | apply State.setCan_only h_can | apply State.canErrState_only h_rf h_irqNow h_can | apply State.bump_only h_rf | apply State.txResult_only h_rf h_irqNow h_can | apply State.canFailed_only h_rf h_irqNow h_can | apply each_only | apply foldl_only) | intro _ _ _ | split | (refine Only.upd ?_ (.inr rfl) (.inr rfl) (.inr rfl) (.inl h_rf) (.inl h_irqNow) (.inr rfl) (.inr rfl) (.inr rfl) (.inr rfl) (.inr rfl) (.inr rfl) (.inr rfl) (.inr rfl) (.inr rfl) (.inr rfl) (.inl h_can) (.inr rfl) (.inr rfl) (.inr rfl) (.inr rfl) (.inr rfl) (.inr rfl) (.inr rfl) (.inr rfl) (.inr rfl) (.inr rfl); try dsimp only)

theorem State.canSleepNow_only {pt : Parts} (h_rf : pt.rf = true) (h_irqNow : pt.irqNow = true) (h_can : pt.can = true) {s₀ s : State} (h : Only pt s₀ s) (n : Nat) : Only pt s₀ (State.canSleepNow s n) := by
  unfold State.canSleepNow
  try dsimp only
  repeat' first | (with_reducible first | assumption | apply State.canAbortAll_only h_rf h_irqNow h_can | apply State.wf__only h_rf | apply State.canInto_only h_rf h_irqNow h_can | apply each_only | apply foldl_only) | intro _ _ _ | split | dsimp only

theorem State.canWakeNow_only {pt : Parts} (h_rf : pt.rf = true) (h_irqNow : pt.irqNow = true) (h_can : pt.can = true) {s₀ s : State} (h : Only pt s₀ s) (n : Nat) (cause : Nat) : Only pt s₀ (State.canWakeNow s n cause) := by
  unfold State.canWakeNow
  try dsimp only
  repeat' first | (with_reducible first | assumption | apply State.setCan_only h_can | apply State.wf__only h_rf | apply State.raise_only h_rf h_irqNow | apply each_only | apply foldl_only) | intro _ _ _ | split | (refine Only.upd ?_ (.inr rfl) (.inr rfl) (.inr rfl) (.inl h_rf) (.inl h_irqNow) (.inr rfl) (.inr rfl) (.inr rfl) (.inr rfl) (.inr rfl) (.inr rfl) (.inr rfl) (.inr rfl) (.inr rfl) (.inr rfl) (.inl h_can) (.inr rfl) (.inr rfl) (.inr rfl) (.inr rfl) (.inr rfl) (.inr rfl) (.inr rfl) (.inr rfl) (.inr rfl) (.inr rfl); try dsimp only)

theorem State.lsfStart_only {pt : Parts} (h_lsf : pt.lsf = true) {s₀ s : State} (h : Only pt s₀ s) (k : Nat) : Only pt s₀ (State.lsfStart s k) := by
  unfold State.lsfStart
  try dsimp only
  repeat' first | (with_reducible first | assumption | apply State.setLsf_only h_lsf | apply each_only | apply foldl_only) | intro _ _ _ | split | (refine Only.upd ?_ (.inr rfl) (.inr rfl) (.inr rfl) (.inr rfl) (.inr rfl) (.inr rfl) (.inr rfl) (.inr rfl) (.inr rfl) (.inr rfl) (.inr rfl) (.inr rfl) (.inr rfl) (.inr rfl) (.inl h_lsf) (.inr rfl) (.inr rfl) (.inr rfl) (.inr rfl) (.inr rfl) (.inr rfl) (.inr rfl) (.inr rfl) (.inr rfl) (.inr rfl) (.inr rfl); try dsimp only)

theorem State.lsfRunNow_only {pt : Parts} (h_el : pt.el = true) (h_lsf : pt.lsf = true) {s₀ s : State} (h : Only pt s₀ s) : Only pt s₀ (State.lsfRunNow s) := by
  unfold State.lsfRunNow
  try dsimp only
  repeat' first | (with_reducible first | assumption | apply State.lsfStart_only h_lsf | apply each_only | apply foldl_only) | intro _ _ _ | split | (refine Only.upd ?_ (.inr rfl) (.inr rfl) (.inr rfl) (.inr rfl) (.inr rfl) (.inr rfl) (.inr rfl) (.inr rfl) (.inr rfl) (.inr rfl) (.inr rfl) (.inr rfl) (.inr rfl) (.inl h_el) (.inl h_lsf) (.inr rfl) (.inr rfl) (.inr rfl) (.inr rfl) (.inr rfl) (.inr rfl) (.inr rfl) (.inr rfl) (.inr rfl) (.inr rfl) (.inr rfl); try dsimp only)

theorem State.lsfFail_only {pt : Parts} (h_rf : pt.rf = true) (h_irqNow : pt.irqNow = true) (h_lsf : pt.lsf = true) (h_rcd : pt.rcd = true) {s₀ s : State} (h : Only pt s₀ s) (k : Nat) (cause : Nat) : Only pt s₀ (State.lsfFail s k cause) := by
  unfold State.lsfFail
  try dsimp only
  repeat' first | (with_reducible first | assumption | apply State.setLsf_only h_lsf | apply State.raise_only h_rf h_irqNow | apply State.fire_only h_rf h_irqNow h_rcd | apply each_only | apply foldl_only) | intro _ _ _ | split | (refine Only.upd ?_ (.inr rfl) (.inr rfl) (.inr rfl) (.inl h_rf) (.inl h_irqNow) (.inr rfl) (.inr rfl) (.inr rfl) (.inr rfl) (.inr rfl) (.inr rfl) (.inr rfl) (.inr rfl) (.inr rfl) (.inl h_lsf) (.inr rfl) (.inr rfl) (.inr rfl) (.inr rfl) (.inr rfl) (.inl h_rcd) (.inr rfl) (.inr rfl) (.inr rfl) (.inr rfl) (.inr rfl); try dsimp only)

theorem State.lsfReceive_only {pt : Parts} (h_rf : pt.rf = true) (h_irqNow : pt.irqNow = true) (h_lsf : pt.lsf = true) (h_can : pt.can = true) {s₀ s0 : State} (h : Only pt s₀ s0) (n : Nat) (f : CanFrame) : Only pt s₀ (State.lsfReceive s0 n f) := by
  unfold State.lsfReceive
  try dsimp only
  repeat' first | (with_reducible first | assumption | apply State.canTake_only h_can | apply State.setLsf_only h_lsf | apply State.bump_only h_rf | apply State.raise_only h_rf h_irqNow | apply State.wn_only h_rf | apply each_only | apply foldl_only) | intro _ _ _ | split | (refine Only.upd ?_ (.inr rfl) (.inr rfl) (.inr rfl) (.inl h_rf) (.inl h_irqNow) (.inr rfl) (.inr rfl) (.inr rfl) (.inr rfl) (.inr rfl) (.inr rfl) (.inr rfl) (.inr rfl) (.inr rfl) (.inl h_lsf) (.inl h_can) (.inr rfl) (.inr rfl) (.inr rfl) (.inr rfl) (.inr rfl) (.inr rfl) (.inr rfl) (.inr rfl) (.inr rfl) (.inr rfl); try dsimp only)

theorem State.lsfTake_only {pt : Parts} (h_rf : pt.rf = true) (h_irqNow : pt.irqNow = true) (h_lsf : pt.lsf = true) (h_can : pt.can = true) {s₀ s : State} (h : Only pt s₀ s) (k : Nat) : Only pt s₀ (State.lsfTake s k) := by
  unfold State.lsfTake
  try dsimp only
  repeat' first | (with_reducible first | assumption | apply State.lsfReceive_only h_rf h_irqNow h_lsf h_can | apply each_only | apply foldl_only) | intro _ _ _ | split | (refine Only.upd ?_ (.inr rfl) (.inr rfl) (.inr rfl) (.inl h_rf) (.inl h_irqNow) (.inr rfl) (.inr rfl) (.inr rfl) (.inr rfl) (.inr rfl) (.inr rfl) (.inr rfl) (.inr rfl) (.inr rfl) (.inl h_lsf) (.inl h_can) (.inr rfl) (.inr rfl) (.inr rfl) (.inr rfl) (.inr rfl) (.inr rfl) (.inr rfl) (.inr rfl) (.inr rfl) (.inr rfl); try dsimp only)

theorem State.lsfTakeAll_only {pt : Parts} (h_rf : pt.rf = true) (h_irqNow : pt.irqNow = true) (h_lsf : pt.lsf = true) (h_can : pt.can = true) {s₀ s : State} (h : Only pt s₀ s) : Only pt s₀ (State.lsfTakeAll s) := by
  unfold State.lsfTakeAll
  try dsimp only
  repeat' first | (with_reducible first | assumption | apply State.lsfTake_only h_rf h_irqNow h_lsf h_can | apply each_only | apply foldl_only) | intro _ _ _ | split | dsimp only

theorem State.lsfProduceNow_only {pt : Parts} (h_rf : pt.rf = true) (h_irqNow : pt.irqNow = true) (h_lsf : pt.lsf = true) (h_can : pt.can = true) {s₀ s : State} (h : Only pt s₀ s) (k : Nat) (identical : Bool) : Only pt s₀ (State.lsfProduceNow s k identical) := by
  unfold State.lsfProduceNow
  try dsimp only
  repeat' first | (with_reducible first | assumption | apply State.canAbort_only h_rf h_irqNow h_can | apply State.bump_only h_rf | apply State.setLsf_only h_lsf | apply State.wn_only h_rf | apply State.canSend_only h_rf h_irqNow h_can | apply State.raise_only h_rf h_irqNow | apply each_only | apply foldl_only) | intro _ _ _ | split | (refine Only.upd ?_ (.inr rfl) (.inr rfl) (.inr rfl) (.inl h_rf) (.inl h_irqNow) (.inr rfl) (.inr rfl) (.inr rfl) (.inr rfl) (.inr rfl) (.inr rfl) (.inr rfl) (.inr rfl) (.inr rfl) (.inl h_lsf) (.inl h_can) (.inr rfl) (.inr rfl) (.inr rfl) (.inr rfl) (.inr rfl) (.inr rfl) (.inr rfl) (.inr rfl) (.inr rfl) (.inr rfl); try dsimp only)

end Sys2Proof.Machine
end

