-- ==== Sys2Proof/Laws/OnlyTrip.lean ====
section
/-! SUPPORT. Which parts of the state the operations of Machine/Trip.lean leave the same. -/

set_option linter.unusedTactic false
set_option linter.unreachableTactic false

namespace Sys2Proof.Machine

theorem State.rtEvent_only {pt : Parts} (h_rf : pt.rf = true) {s₀ s : State} (h : Only pt s₀ s) (i : Nat) : Only pt s₀ (State.rtEvent s i) := by
  unfold State.rtEvent
  try dsimp only
  repeat' first | (with_reducible first | assumption | apply State.wf__only h_rf | apply each_only | apply foldl_only) | intro _ _ _ | split | dsimp only

theorem State.homeFailed_only {pt : Parts} (h_rf : pt.rf = true) (h_irqNow : pt.irqNow = true) (h_mot : pt.mot = true) (h_rcd : pt.rcd = true) {s₀ s : State} (h : Only pt s₀ s) (e : HomeErr) : Only pt s₀ (State.homeFailed s e) := by
  unfold State.homeFailed
  try dsimp only
  repeat' first | (with_reducible first | assumption | apply State.rtEvent_only h_rf | apply State.fire_only h_rf h_irqNow h_rcd | apply each_only | apply foldl_only) | intro _ _ _ | split | (refine Only.upd ?_ (.inr rfl) (.inr rfl) (.inr rfl) (.inl h_rf) (.inl h_irqNow) (.inr rfl) (.inr rfl) (.inl h_mot) (.inr rfl) (.inr rfl) (.inr rfl) (.inr rfl) (.inr rfl) (.inr rfl) (.inr rfl) (.inr rfl) (.inr rfl) (.inr rfl) (.inr rfl) (.inr rfl) (.inl h_rcd) (.inr rfl) (.inr rfl) (.inr rfl) (.inr rfl) (.inr rfl); try dsimp only)

theorem State.permEnd_only {pt : Parts} (h_rf : pt.rf = true) (h_irqNow : pt.irqNow = true) (h_el : pt.el = true) {s₀ s : State} (h : Only pt s₀ s) : Only pt s₀ (State.permEnd s) := by
  unfold State.permEnd
  try dsimp only
  repeat' first | (with_reducible first | assumption | apply State.raise_only h_rf h_irqNow | apply each_only | apply foldl_only) | intro _ _ _ | split | (refine Only.upd ?_ (.inr rfl) (.inr rfl) (.inr rfl) (.inl h_rf) (.inl h_irqNow) (.inr rfl) (.inr rfl) (.inr rfl) (.inr rfl) (.inr rfl) (.inr rfl) (.inr rfl) (.inr rfl) (.inl h_el) (.inr rfl) (.inr rfl) (.inr rfl) (.inr rfl) (.inr rfl) (.inr rfl) (.inr rfl) (.inr rfl) (.inr rfl) (.inr rfl) (.inr rfl) (.inr rfl); try dsimp only)

theorem State.drvOff_only {pt : Parts} (h_rf : pt.rf = true) (h_irqNow : pt.irqNow = true) (h_drv : pt.drv = true) (h_el : pt.el = true) {s₀ s : State} (h : Only pt s₀ s) : Only pt s₀ (State.drvOff s) := by
  unfold State.drvOff
  try dsimp only
  repeat' first | (with_reducible first | assumption | apply State.wn_only h_rf | apply State.permEnd_only h_rf h_irqNow h_el | apply each_only | apply foldl_only) | intro _ _ _ | split | (refine Only.upd ?_ (.inr rfl) (.inr rfl) (.inr rfl) (.inl h_rf) (.inl h_irqNow) (.inr rfl) (.inr rfl) (.inr rfl) (.inl h_drv) (.inr rfl) (.inr rfl) (.inr rfl) (.inr rfl) (.inl h_el) (.inr rfl) (.inr rfl) (.inr rfl) (.inr rfl) (.inr rfl) (.inr rfl) (.inr rfl) (.inr rfl) (.inr rfl) (.inr rfl) (.inr rfl) (.inr rfl); try dsimp only)

theorem State.spFollow_only {pt : Parts} (h_mot : pt.mot = true) {s₀ s : State} (h : Only pt s₀ s) : Only pt s₀ (State.spFollow s) := by
  unfold State.spFollow
  try dsimp only
  repeat' first | (with_reducible first | assumption  | apply each_only | apply foldl_only) | intro _ _ _ | split | (refine Only.upd ?_ (.inr rfl) (.inr rfl) (.inr rfl) (.inr rfl) (.inr rfl) (.inr rfl) (.inr rfl) (.inl h_mot) (.inr rfl) (.inr rfl) (.inr rfl) (.inr rfl) (.inr rfl) (.inr rfl) (.inr rfl) (.inr rfl) (.inr rfl) (.inr rfl) (.inr rfl) (.inr rfl) (.inr rfl) (.inr rfl) (.inr rfl) (.inr rfl) (.inr rfl) (.inr rfl); try dsimp only)

theorem State.motTrip_only {pt : Parts} (h_rf : pt.rf = true) (h_irqNow : pt.irqNow = true) (h_mot : pt.mot = true) (h_rcd : pt.rcd = true) {s₀ s : State} (h : Only pt s₀ s) : Only pt s₀ (State.motTrip s) := by
  unfold State.motTrip
  try dsimp only
  repeat' first | (with_reducible first | assumption | apply State.homeFailed_only h_rf h_irqNow h_mot h_rcd | apply each_only | apply foldl_only) | intro _ _ _ | split | (refine Only.upd ?_ (.inr rfl) (.inr rfl) (.inr rfl) (.inl h_rf) (.inl h_irqNow) (.inr rfl) (.inr rfl) (.inl h_mot) (.inr rfl) (.inr rfl) (.inr rfl) (.inr rfl) (.inr rfl) (.inr rfl) (.inr rfl) (.inr rfl) (.inr rfl) (.inr rfl) (.inr rfl) (.inr rfl) (.inl h_rcd) (.inr rfl) (.inr rfl) (.inr rfl) (.inr rfl) (.inr rfl); try dsimp only)

theorem State.abandonCals_only {pt : Parts} (h_rf : pt.rf = true) (h_irqNow : pt.irqNow = true) (h_pos : pt.pos = true) (h_lwb : pt.lwb = true) (h_doorF : pt.doorF = true) (h_doorR : pt.doorR = true) {s₀ s : State} (h : Only pt s₀ s) : Only pt s₀ (State.abandonCals s) := by
  unfold State.abandonCals
  try dsimp only
  repeat' first | (with_reducible first | assumption | apply State.raise_only h_rf h_irqNow | apply State.doorLearnAbort_only h_rf h_irqNow h_doorF h_doorR | apply State.setDoor_only h_doorF h_doorR | apply State.doorInto_only h_rf h_irqNow h_doorF h_doorR | apply each_only | apply foldl_only) | intro _ _ _ | split | (refine Only.upd ?_ (.inr rfl) (.inr rfl) (.inr rfl) (.inl h_rf) (.inl h_irqNow) (.inl h_pos) (.inl h_lwb) (.inr rfl) (.inr rfl) (.inr rfl) (.inr rfl) (.inl h_doorF) (.inl h_doorR) (.inr rfl) (.inr rfl) (.inr rfl) (.inr rfl) (.inr rfl) (.inr rfl) (.inr rfl) (.inr rfl) (.inr rfl) (.inr rfl) (.inr rfl) (.inr rfl) (.inr rfl); try dsimp only)

theorem State.loseAuthority_only {pt : Parts} (h_rf : pt.rf = true) (h_irqNow : pt.irqNow = true) (h_drv : pt.drv = true) (h_doorF : pt.doorF = true) (h_doorR : pt.doorR = true) (h_el : pt.el = true) (h_can : pt.can = true) (h_part : pt.part = true) {s₀ s : State} (h : Only pt s₀ s) : Only pt s₀ (State.loseAuthority s) := by
  unfold State.loseAuthority
  try dsimp only
  repeat' first | (with_reducible first | assumption | apply State.doorAuthLost_only h_rf h_irqNow h_doorF h_doorR | apply State.wn_only h_rf | apply State.canAbortAll_only h_rf h_irqNow h_can | apply each_only | apply foldl_only) | intro _ _ _ | split | (refine Only.upd ?_ (.inr rfl) (.inr rfl) (.inr rfl) (.inl h_rf) (.inl h_irqNow) (.inr rfl) (.inr rfl) (.inr rfl) (.inl h_drv) (.inr rfl) (.inr rfl) (.inl h_doorF) (.inl h_doorR) (.inl h_el) (.inr rfl) (.inl h_can) (.inr rfl) (.inr rfl) (.inr rfl) (.inl h_part) (.inr rfl) (.inr rfl) (.inr rfl) (.inr rfl) (.inr rfl) (.inr rfl); try dsimp only)

theorem State.handover_only {pt : Parts} (h_rf : pt.rf = true) (h_irqNow : pt.irqNow = true) (h_drv : pt.drv = true) (h_doorF : pt.doorF = true) (h_doorR : pt.doorR = true) (h_el : pt.el = true) (h_can : pt.can = true) (h_part : pt.part = true) (h_rcd : pt.rcd = true) {s₀ s : State} (h : Only pt s₀ s) : Only pt s₀ (State.handover s) := by
  unfold State.handover
  try dsimp only
  repeat' first | (with_reducible first | assumption | apply State.loseAuthority_only h_rf h_irqNow h_drv h_doorF h_doorR h_el h_can h_part | apply State.setRole_only h_rf h_irqNow h_part h_rcd | apply each_only | apply foldl_only) | intro _ _ _ | split | (refine Only.upd ?_ (.inr rfl) (.inr rfl) (.inr rfl) (.inl h_rf) (.inl h_irqNow) (.inr rfl) (.inr rfl) (.inr rfl) (.inl h_drv) (.inr rfl) (.inr rfl) (.inl h_doorF) (.inl h_doorR) (.inl h_el) (.inr rfl) (.inl h_can) (.inr rfl) (.inr rfl) (.inr rfl) (.inl h_part) (.inl h_rcd) (.inr rfl) (.inr rfl) (.inr rfl) (.inr rfl) (.inr rfl); try dsimp only)

theorem State.tripAll_only {pt : Parts} (h_rf : pt.rf = true) (h_irqNow : pt.irqNow = true) (h_pos : pt.pos = true) (h_lwb : pt.lwb = true) (h_mot : pt.mot = true) (h_drv : pt.drv = true) (h_doorF : pt.doorF = true) (h_doorR : pt.doorR = true) (h_el : pt.el = true) (h_can : pt.can = true) (h_part : pt.part = true) (h_rcd : pt.rcd = true) {s₀ s : State} (h : Only pt s₀ s) (asked : List Nat) : Only pt s₀ (State.tripAll s asked) := by
  unfold State.tripAll
  try dsimp only
  repeat' first | (with_reducible first | assumption | apply State.raise_only h_rf h_irqNow | apply State.doorGearAbort_only h_rf h_irqNow h_doorF h_doorR | apply State.setDoor_only h_doorF h_doorR | apply State.abandonCals_only h_rf h_irqNow h_pos h_lwb h_doorF h_doorR | apply State.motTrip_only h_rf h_irqNow h_mot h_rcd | apply State.drvOff_only h_rf h_irqNow h_drv h_el | apply State.spFollow_only h_mot | apply State.wf__only h_rf | apply State.fire_only h_rf h_irqNow h_rcd | apply State.handover_only h_rf h_irqNow h_drv h_doorF h_doorR h_el h_can h_part h_rcd | apply each_only | apply foldl_only) | intro _ _ _ | split | (refine Only.upd ?_ (.inr rfl) (.inr rfl) (.inr rfl) (.inl h_rf) (.inl h_irqNow) (.inl h_pos) (.inl h_lwb) (.inl h_mot) (.inl h_drv) (.inr rfl) (.inr rfl) (.inl h_doorF) (.inl h_doorR) (.inl h_el) (.inr rfl) (.inl h_can) (.inr rfl) (.inr rfl) (.inr rfl) (.inl h_part) (.inl h_rcd) (.inr rfl) (.inr rfl) (.inr rfl) (.inr rfl) (.inr rfl); try dsimp only)

theorem State.trip_only {pt : Parts} (h_rf : pt.rf = true) (h_irqNow : pt.irqNow = true) (h_pos : pt.pos = true) (h_lwb : pt.lwb = true) (h_mot : pt.mot = true) (h_drv : pt.drv = true) (h_doorF : pt.doorF = true) (h_doorR : pt.doorR = true) (h_el : pt.el = true) (h_can : pt.can = true) (h_part : pt.part = true) (h_rcd : pt.rcd = true) {s₀ s : State} (h : Only pt s₀ s) (cause : Nat) : Only pt s₀ (State.trip s cause) := by
  unfold State.trip
  try dsimp only
  repeat' first | (with_reducible first | assumption | apply State.tripAll_only h_rf h_irqNow h_pos h_lwb h_mot h_drv h_doorF h_doorR h_el h_can h_part h_rcd | apply each_only | apply foldl_only) | intro _ _ _ | split | dsimp only

theorem State.tripModule_only {pt : Parts} (h_rf : pt.rf = true) (h_irqNow : pt.irqNow = true) (h_pos : pt.pos = true) (h_lwb : pt.lwb = true) (h_mot : pt.mot = true) (h_drv : pt.drv = true) (h_doorF : pt.doorF = true) (h_doorR : pt.doorR = true) (h_el : pt.el = true) (h_can : pt.can = true) (h_part : pt.part = true) (h_rcd : pt.rcd = true) {s₀ s : State} (h : Only pt s₀ s) : Only pt s₀ (State.tripModule s) := by
  unfold State.tripModule
  try dsimp only
  repeat' first | (with_reducible first | assumption | apply State.trip_only h_rf h_irqNow h_pos h_lwb h_mot h_drv h_doorF h_doorR h_el h_can h_part h_rcd | apply each_only | apply foldl_only) | intro _ _ _ | split | dsimp only

end Sys2Proof.Machine
end

