-- ==== Sys2Proof/Laws/OnlyFioOps.lean ====
section
/-! SUPPORT. Which parts of the state the operations of Machine/FioOps.lean leave the same. -/

set_option linter.unusedTactic false
set_option linter.unreachableTactic false

namespace Sys2Proof.Machine

theorem State.cosNote_only {pt : Parts} (h_rf : pt.rf = true) (h_irqNow : pt.irqNow = true) (h_fiog : pt.fiog = true) {s₀ s : State} (h : Only pt s₀ s) (g : Nat) (i : Nat) (up : Bool) : Only pt s₀ (State.cosNote s g i up) := by
  unfold State.cosNote
  try dsimp only
  repeat' first | (with_reducible first | assumption | apply State.setGrp_only h_fiog | apply State.wf__only h_rf | apply State.wr_only h_rf | apply State.raise_only h_rf h_irqNow | apply each_only | apply foldl_only) | intro _ _ _ | split | (refine Only.upd ?_ (.inr rfl) (.inr rfl) (.inr rfl) (.inl h_rf) (.inl h_irqNow) (.inr rfl) (.inr rfl) (.inr rfl) (.inr rfl) (.inr rfl) (.inr rfl) (.inr rfl) (.inr rfl) (.inr rfl) (.inr rfl) (.inr rfl) (.inl h_fiog) (.inr rfl) (.inr rfl) (.inr rfl) (.inr rfl) (.inr rfl) (.inr rfl) (.inr rfl) (.inr rfl) (.inr rfl); try dsimp only)

theorem State.filterTick_only {pt : Parts} (h_rf : pt.rf = true) (h_irqNow : pt.irqNow = true) (h_fiog : pt.fiog = true) {s₀ s : State} (h : Only pt s₀ s) (g : Nat) (raw : Word) : Only pt s₀ (State.filterTick s g raw) := by
  unfold State.filterTick
  try dsimp only
  repeat' first | (with_reducible first | assumption | apply State.setGrp_only h_fiog | apply State.cosNote_only h_rf h_irqNow h_fiog | apply each_only | apply foldl_only) | intro _ _ _ | split | (refine Only.upd ?_ (.inr rfl) (.inr rfl) (.inr rfl) (.inl h_rf) (.inl h_irqNow) (.inr rfl) (.inr rfl) (.inr rfl) (.inr rfl) (.inr rfl) (.inr rfl) (.inr rfl) (.inr rfl) (.inr rfl) (.inr rfl) (.inr rfl) (.inl h_fiog) (.inr rfl) (.inr rfl) (.inr rfl) (.inr rfl) (.inr rfl) (.inr rfl) (.inr rfl) (.inr rfl) (.inr rfl); try dsimp only)

theorem State.supplySet_only {pt : Parts} (h_rf : pt.rf = true) (h_irqNow : pt.irqNow = true) (h_fiog : pt.fiog = true) {s₀ s : State} (h : Only pt s₀ s) (g : Nat) (mv : Nat) : Only pt s₀ (State.supplySet s g mv) := by
  unfold State.supplySet
  try dsimp only
  repeat' first | (with_reducible first | assumption | apply State.setGrp_only h_fiog | apply State.raise_only h_rf h_irqNow | apply each_only | apply foldl_only) | intro _ _ _ | split | (refine Only.upd ?_ (.inr rfl) (.inr rfl) (.inr rfl) (.inl h_rf) (.inl h_irqNow) (.inr rfl) (.inr rfl) (.inr rfl) (.inr rfl) (.inr rfl) (.inr rfl) (.inr rfl) (.inr rfl) (.inr rfl) (.inr rfl) (.inr rfl) (.inl h_fiog) (.inr rfl) (.inr rfl) (.inr rfl) (.inr rfl) (.inr rfl) (.inr rfl) (.inr rfl) (.inr rfl) (.inr rfl); try dsimp only)

theorem State.tsdSet_only {pt : Parts} (h_rf : pt.rf = true) (h_irqNow : pt.irqNow = true) (h_fiog : pt.fiog = true) (h_rcd : pt.rcd = true) {s₀ s : State} (h : Only pt s₀ s) (c : Nat) : Only pt s₀ (State.tsdSet s c) := by
  unfold State.tsdSet
  try dsimp only
  repeat' first | (with_reducible first | assumption | apply State.setGrp_only h_fiog | apply State.raise_only h_rf h_irqNow | apply State.fire_only h_rf h_irqNow h_rcd | apply each_only | apply foldl_only) | intro _ _ _ | split | (refine Only.upd ?_ (.inr rfl) (.inr rfl) (.inr rfl) (.inl h_rf) (.inl h_irqNow) (.inr rfl) (.inr rfl) (.inr rfl) (.inr rfl) (.inr rfl) (.inr rfl) (.inr rfl) (.inr rfl) (.inr rfl) (.inr rfl) (.inr rfl) (.inl h_fiog) (.inr rfl) (.inr rfl) (.inr rfl) (.inl h_rcd) (.inr rfl) (.inr rfl) (.inr rfl) (.inr rfl) (.inr rfl); try dsimp only)

theorem State.tsdCool_only {pt : Parts} (h_fiog : pt.fiog = true) {s₀ s : State} (h : Only pt s₀ s) (c : Nat) : Only pt s₀ (State.tsdCool s c) := by
  unfold State.tsdCool
  try dsimp only
  repeat' first | (with_reducible first | assumption | apply State.setGrp_only h_fiog | apply each_only | apply foldl_only) | intro _ _ _ | split | (refine Only.upd ?_ (.inr rfl) (.inr rfl) (.inr rfl) (.inr rfl) (.inr rfl) (.inr rfl) (.inr rfl) (.inr rfl) (.inr rfl) (.inr rfl) (.inr rfl) (.inr rfl) (.inr rfl) (.inr rfl) (.inr rfl) (.inr rfl) (.inl h_fiog) (.inr rfl) (.inr rfl) (.inr rfl) (.inr rfl) (.inr rfl) (.inr rfl) (.inr rfl) (.inr rfl) (.inr rfl); try dsimp only)

theorem State.tsdClear_only {pt : Parts} (h_fiog : pt.fiog = true) {s₀ s : State} (h : Only pt s₀ s) (g : Nat) (val : Word) : Only pt s₀ (State.tsdClear s g val) := by
  unfold State.tsdClear
  try dsimp only
  repeat' first | (with_reducible first | assumption | apply State.setGrp_only h_fiog | apply each_only | apply foldl_only) | intro _ _ _ | split | (refine Only.upd ?_ (.inr rfl) (.inr rfl) (.inr rfl) (.inr rfl) (.inr rfl) (.inr rfl) (.inr rfl) (.inr rfl) (.inr rfl) (.inr rfl) (.inr rfl) (.inr rfl) (.inr rfl) (.inr rfl) (.inr rfl) (.inr rfl) (.inl h_fiog) (.inr rfl) (.inr rfl) (.inr rfl) (.inr rfl) (.inr rfl) (.inr rfl) (.inr rfl) (.inr rfl) (.inr rfl); try dsimp only)

theorem State.diagSet_only {pt : Parts} (h_rf : pt.rf = true) (h_irqNow : pt.irqNow = true) (h_fiog : pt.fiog = true) {s₀ s : State} (h : Only pt s₀ s) (c : Nat) (k : Diag) (present : Bool) : Only pt s₀ (State.diagSet s c k present) := by
  unfold State.diagSet
  try dsimp only
  repeat' first | (with_reducible first | assumption | apply State.setGrp_only h_fiog | apply State.raise_only h_rf h_irqNow | apply each_only | apply foldl_only) | intro _ _ _ | split | dsimp only

theorem State.hostOutputs_only {pt : Parts} (h_fiog : pt.fiog = true) {s₀ s : State} (h : Only pt s₀ s) (f : Nat → Nat → Bool → Bool) : Only pt s₀ (State.hostOutputs s f) := by
  unfold State.hostOutputs
  try dsimp only
  repeat' first | (with_reducible first | assumption  | apply each_only | apply foldl_only) | intro _ _ _ | split | (refine Only.upd ?_ (.inr rfl) (.inr rfl) (.inr rfl) (.inr rfl) (.inr rfl) (.inr rfl) (.inr rfl) (.inr rfl) (.inr rfl) (.inr rfl) (.inr rfl) (.inr rfl) (.inr rfl) (.inr rfl) (.inr rfl) (.inr rfl) (.inl h_fiog) (.inr rfl) (.inr rfl) (.inr rfl) (.inr rfl) (.inr rfl) (.inr rfl) (.inr rfl) (.inr rfl) (.inr rfl); try dsimp only)

theorem State.safeOutputs_only {pt : Parts} (h_fiog : pt.fiog = true) {s₀ s : State} (h : Only pt s₀ s) : Only pt s₀ (State.safeOutputs s) := by
  unfold State.safeOutputs
  try dsimp only
  repeat' first | (with_reducible first | assumption | apply State.hostOutputs_only h_fiog | apply each_only | apply foldl_only) | intro _ _ _ | split | (refine Only.upd ?_ (.inr rfl) (.inr rfl) (.inr rfl) (.inr rfl) (.inr rfl) (.inr rfl) (.inr rfl) (.inr rfl) (.inr rfl) (.inr rfl) (.inr rfl) (.inr rfl) (.inr rfl) (.inr rfl) (.inr rfl) (.inr rfl) (.inl h_fiog) (.inr rfl) (.inr rfl) (.inr rfl) (.inr rfl) (.inr rfl) (.inr rfl) (.inr rfl) (.inr rfl) (.inr rfl); try dsimp only)

theorem State.gainOutputs_only {pt : Parts} (h_fiog : pt.fiog = true) {s₀ s : State} (h : Only pt s₀ s) : Only pt s₀ (State.gainOutputs s) := by
  unfold State.gainOutputs
  try dsimp only
  repeat' first | (with_reducible first | assumption | apply State.hostOutputs_only h_fiog | apply each_only | apply foldl_only) | intro _ _ _ | split | (refine Only.upd ?_ (.inr rfl) (.inr rfl) (.inr rfl) (.inr rfl) (.inr rfl) (.inr rfl) (.inr rfl) (.inr rfl) (.inr rfl) (.inr rfl) (.inr rfl) (.inr rfl) (.inr rfl) (.inr rfl) (.inr rfl) (.inr rfl) (.inl h_fiog) (.inr rfl) (.inr rfl) (.inr rfl) (.inr rfl) (.inr rfl) (.inr rfl) (.inr rfl) (.inr rfl) (.inr rfl); try dsimp only)

theorem State.silRestart_only {pt : Parts} (h_sil : pt.sil = true) {s₀ s : State} (h : Only pt s₀ s) (stamp : Nat) : Only pt s₀ (State.silRestart s stamp) := by
  unfold State.silRestart
  try dsimp only
  repeat' first | (with_reducible first | assumption  | apply each_only | apply foldl_only) | intro _ _ _ | split | (refine Only.upd ?_ (.inr rfl) (.inr rfl) (.inr rfl) (.inr rfl) (.inr rfl) (.inr rfl) (.inr rfl) (.inr rfl) (.inr rfl) (.inr rfl) (.inr rfl) (.inr rfl) (.inr rfl) (.inr rfl) (.inr rfl) (.inr rfl) (.inr rfl) (.inr rfl) (.inl h_sil) (.inr rfl) (.inr rfl) (.inr rfl) (.inr rfl) (.inr rfl) (.inr rfl) (.inr rfl); try dsimp only)

theorem State.silEnable_only {pt : Parts} (h_sil : pt.sil = true) {s₀ s : State} (h : Only pt s₀ s) (was : Bool) : Only pt s₀ (State.silEnable s was) := by
  unfold State.silEnable
  try dsimp only
  repeat' first | (with_reducible first | assumption | apply State.silRestart_only h_sil | apply each_only | apply foldl_only) | intro _ _ _ | split | (refine Only.upd ?_ (.inr rfl) (.inr rfl) (.inr rfl) (.inr rfl) (.inr rfl) (.inr rfl) (.inr rfl) (.inr rfl) (.inr rfl) (.inr rfl) (.inr rfl) (.inr rfl) (.inr rfl) (.inr rfl) (.inr rfl) (.inr rfl) (.inr rfl) (.inr rfl) (.inl h_sil) (.inr rfl) (.inr rfl) (.inr rfl) (.inr rfl) (.inr rfl) (.inr rfl) (.inr rfl); try dsimp only)

theorem State.silFrame_only {pt : Parts} (h_sil : pt.sil = true) {s₀ s : State} (h : Only pt s₀ s) : Only pt s₀ (State.silFrame s) := by
  unfold State.silFrame
  try dsimp only
  repeat' first | (with_reducible first | assumption | apply State.silRestart_only h_sil | apply each_only | apply foldl_only) | intro _ _ _ | split | (refine Only.upd ?_ (.inr rfl) (.inr rfl) (.inr rfl) (.inr rfl) (.inr rfl) (.inr rfl) (.inr rfl) (.inr rfl) (.inr rfl) (.inr rfl) (.inr rfl) (.inr rfl) (.inr rfl) (.inr rfl) (.inr rfl) (.inr rfl) (.inr rfl) (.inr rfl) (.inl h_sil) (.inr rfl) (.inr rfl) (.inr rfl) (.inr rfl) (.inr rfl) (.inr rfl) (.inr rfl); try dsimp only)

theorem State.silExpire_only {pt : Parts} (h_rf : pt.rf = true) (h_irqNow : pt.irqNow = true) (h_sil : pt.sil = true) (h_rcd : pt.rcd = true) {s₀ s : State} (h : Only pt s₀ s) : Only pt s₀ (State.silExpire s) := by
  unfold State.silExpire
  try dsimp only
  repeat' first | (with_reducible first | assumption | apply State.raise_only h_rf h_irqNow | apply State.fire_only h_rf h_irqNow h_rcd | apply each_only | apply foldl_only) | intro _ _ _ | split | (refine Only.upd ?_ (.inr rfl) (.inr rfl) (.inr rfl) (.inl h_rf) (.inl h_irqNow) (.inr rfl) (.inr rfl) (.inr rfl) (.inr rfl) (.inr rfl) (.inr rfl) (.inr rfl) (.inr rfl) (.inr rfl) (.inr rfl) (.inr rfl) (.inr rfl) (.inr rfl) (.inl h_sil) (.inr rfl) (.inl h_rcd) (.inr rfl) (.inr rfl) (.inr rfl) (.inr rfl) (.inr rfl); try dsimp only)

theorem State.silAckNow_only {pt : Parts} (h_fiog : pt.fiog = true) (h_sil : pt.sil = true) {s₀ s : State} (h : Only pt s₀ s) : Only pt s₀ (State.silAckNow s) := by
  unfold State.silAckNow
  try dsimp only
  repeat' first | (with_reducible first | assumption | apply State.safeOutputs_only h_fiog | apply State.silRestart_only h_sil | apply each_only | apply foldl_only) | intro _ _ _ | split | (refine Only.upd ?_ (.inr rfl) (.inr rfl) (.inr rfl) (.inr rfl) (.inr rfl) (.inr rfl) (.inr rfl) (.inr rfl) (.inr rfl) (.inr rfl) (.inr rfl) (.inr rfl) (.inr rfl) (.inr rfl) (.inr rfl) (.inr rfl) (.inl h_fiog) (.inr rfl) (.inl h_sil) (.inr rfl) (.inr rfl) (.inr rfl) (.inr rfl) (.inr rfl) (.inr rfl) (.inr rfl); try dsimp only)

theorem State.outWrite_only {pt : Parts} (h_fiog : pt.fiog = true) {s₀ s : State} (h : Only pt s₀ s) (g : Nat) (val : Word) (on : Bool) : Only pt s₀ (State.outWrite s g val on) := by
  unfold State.outWrite
  try dsimp only
  repeat' first | (with_reducible first | assumption | apply State.setGrp_only h_fiog | apply each_only | apply foldl_only) | intro _ _ _ | split | (refine Only.upd ?_ (.inr rfl) (.inr rfl) (.inr rfl) (.inr rfl) (.inr rfl) (.inr rfl) (.inr rfl) (.inr rfl) (.inr rfl) (.inr rfl) (.inr rfl) (.inr rfl) (.inr rfl) (.inr rfl) (.inr rfl) (.inr rfl) (.inl h_fiog) (.inr rfl) (.inr rfl) (.inr rfl) (.inr rfl) (.inr rfl) (.inr rfl) (.inr rfl) (.inr rfl) (.inr rfl); try dsimp only)

theorem State.chCfgApply_only {pt : Parts} (h_rf : pt.rf = true) (h_fiog : pt.fiog = true) {s₀ s : State} (h : Only pt s₀ s) (g : Nat) (i : Nat) (val : Word) : Only pt s₀ (State.chCfgApply s g i val) := by
  unfold State.chCfgApply
  try dsimp only
  repeat' first | (with_reducible first | assumption | apply State.wr_only h_rf | apply State.setGrp_only h_fiog | apply each_only | apply foldl_only) | intro _ _ _ | split | (refine Only.upd ?_ (.inr rfl) (.inr rfl) (.inr rfl) (.inl h_rf) (.inr rfl) (.inr rfl) (.inr rfl) (.inr rfl) (.inr rfl) (.inr rfl) (.inr rfl) (.inr rfl) (.inr rfl) (.inr rfl) (.inr rfl) (.inr rfl) (.inl h_fiog) (.inr rfl) (.inr rfl) (.inr rfl) (.inr rfl) (.inr rfl) (.inr rfl) (.inr rfl) (.inr rfl) (.inr rfl); try dsimp only)

end Sys2Proof.Machine
end

