-- ==== Sys2Proof/Laws/OnlyPosOps.lean ====
section
/-! SUPPORT. Which parts of the state the operations of Machine/PosOps.lean leave the same. -/

set_option linter.unusedTactic false
set_option linter.unreachableTactic false

namespace Sys2Proof.Machine

theorem State.setDz_only {pt : Parts} (h_pos : pt.pos = true) {s₀ s : State} (h : Only pt s₀ s) (c : Chan) (d : DzCh) : Only pt s₀ (State.setDz s c d) := by
  unfold State.setDz
  try dsimp only
  repeat' first | (with_reducible first | assumption  | apply each_only | apply foldl_only) | intro _ _ _ | split | (refine Only.upd ?_ (.inr rfl) (.inr rfl) (.inr rfl) (.inr rfl) (.inr rfl) (.inl h_pos) (.inr rfl) (.inr rfl) (.inr rfl) (.inr rfl) (.inr rfl) (.inr rfl) (.inr rfl) (.inr rfl) (.inr rfl) (.inr rfl) (.inr rfl) (.inr rfl) (.inr rfl) (.inr rfl) (.inr rfl) (.inr rfl) (.inr rfl) (.inr rfl) (.inr rfl) (.inr rfl); try dsimp only)

theorem State.setSrc_only {pt : Parts} (h_pos : pt.pos = true) {s₀ s : State} (h : Only pt s₀ s) (i : PosSrc) (st : SrcState) : Only pt s₀ (State.setSrc s i st) := by
  unfold State.setSrc
  try dsimp only
  repeat' first | (with_reducible first | assumption  | apply each_only | apply foldl_only) | intro _ _ _ | split | (refine Only.upd ?_ (.inr rfl) (.inr rfl) (.inr rfl) (.inr rfl) (.inr rfl) (.inl h_pos) (.inr rfl) (.inr rfl) (.inr rfl) (.inr rfl) (.inr rfl) (.inr rfl) (.inr rfl) (.inr rfl) (.inr rfl) (.inr rfl) (.inr rfl) (.inr rfl) (.inr rfl) (.inr rfl) (.inr rfl) (.inr rfl) (.inr rfl) (.inr rfl) (.inr rfl) (.inr rfl); try dsimp only)

theorem State.posNote_only {pt : Parts} (h_rf : pt.rf = true) (h_irqNow : pt.irqNow = true) (h_pos : pt.pos = true) {s₀ s : State} (h : Only pt s₀ s) : Only pt s₀ (State.posNote s) := by
  unfold State.posNote
  try dsimp only
  repeat' first | (with_reducible first | assumption | apply State.raise_only h_rf h_irqNow | apply each_only | apply foldl_only) | intro _ _ _ | split | (refine Only.upd ?_ (.inr rfl) (.inr rfl) (.inr rfl) (.inl h_rf) (.inl h_irqNow) (.inl h_pos) (.inr rfl) (.inr rfl) (.inr rfl) (.inr rfl) (.inr rfl) (.inr rfl) (.inr rfl) (.inr rfl) (.inr rfl) (.inr rfl) (.inr rfl) (.inr rfl) (.inr rfl) (.inr rfl) (.inr rfl) (.inr rfl) (.inr rfl) (.inr rfl) (.inr rfl) (.inr rfl); try dsimp only)

theorem State.sourceLost_only {pt : Parts} (h_rf : pt.rf = true) (h_irqNow : pt.irqNow = true) (h_pos : pt.pos = true) (h_lwb : pt.lwb = true) (h_mot : pt.mot = true) (h_drv : pt.drv = true) (h_doorF : pt.doorF = true) (h_doorR : pt.doorR = true) (h_el : pt.el = true) (h_can : pt.can = true) (h_part : pt.part = true) (h_rcd : pt.rcd = true) {s₀ s : State} (h : Only pt s₀ s) (i : PosSrc) : Only pt s₀ (State.sourceLost s i) := by
  unfold State.sourceLost
  try dsimp only
  repeat' first | (with_reducible first | assumption | apply State.setSrc_only h_pos | apply State.raise_only h_rf h_irqNow | apply State.fire_only h_rf h_irqNow h_rcd | apply State.posNote_only h_rf h_irqNow h_pos | apply State.tripModule_only h_rf h_irqNow h_pos h_lwb h_mot h_drv h_doorF h_doorR h_el h_can h_part h_rcd | apply each_only | apply foldl_only) | intro _ _ _ | split | dsimp only

theorem State.rebase_only {pt : Parts} (h_pos : pt.pos = true) {s₀ s : State} (h : Only pt s₀ s) : Only pt s₀ (State.rebase s) := by
  unfold State.rebase
  try dsimp only
  repeat' first | (with_reducible first | assumption  | apply each_only | apply foldl_only) | intro _ _ _ | split | (refine Only.upd ?_ (.inr rfl) (.inr rfl) (.inr rfl) (.inr rfl) (.inr rfl) (.inl h_pos) (.inr rfl) (.inr rfl) (.inr rfl) (.inr rfl) (.inr rfl) (.inr rfl) (.inr rfl) (.inr rfl) (.inr rfl) (.inr rfl) (.inr rfl) (.inr rfl) (.inr rfl) (.inr rfl) (.inr rfl) (.inr rfl) (.inr rfl) (.inr rfl) (.inr rfl) (.inr rfl); try dsimp only)

theorem State.sourceBack_only {pt : Parts} (h_rf : pt.rf = true) (h_irqNow : pt.irqNow = true) (h_pos : pt.pos = true) {s₀ s : State} (h : Only pt s₀ s) (i : PosSrc) : Only pt s₀ (State.sourceBack s i) := by
  unfold State.sourceBack
  try dsimp only
  repeat' first | (with_reducible first | assumption | apply State.setSrc_only h_pos | apply State.raise_only h_rf h_irqNow | apply State.rebase_only h_pos | apply State.posNote_only h_rf h_irqNow h_pos | apply each_only | apply foldl_only) | intro _ _ _ | split | (refine Only.upd ?_ (.inr rfl) (.inr rfl) (.inr rfl) (.inl h_rf) (.inl h_irqNow) (.inl h_pos) (.inr rfl) (.inr rfl) (.inr rfl) (.inr rfl) (.inr rfl) (.inr rfl) (.inr rfl) (.inr rfl) (.inr rfl) (.inr rfl) (.inr rfl) (.inr rfl) (.inr rfl) (.inr rfl) (.inr rfl) (.inr rfl) (.inr rfl) (.inr rfl) (.inr rfl) (.inr rfl); try dsimp only)

theorem State.absLanding_only {pt : Parts} (h_mot : pt.mot = true) {s₀ s : State} (h : Only pt s₀ s) : Only pt s₀ (State.absLanding s) := by
  unfold State.absLanding
  try dsimp only
  repeat' first | (with_reducible first | assumption  | apply each_only | apply foldl_only) | intro _ _ _ | split | (refine Only.upd ?_ (.inr rfl) (.inr rfl) (.inr rfl) (.inr rfl) (.inr rfl) (.inr rfl) (.inr rfl) (.inl h_mot) (.inr rfl) (.inr rfl) (.inr rfl) (.inr rfl) (.inr rfl) (.inr rfl) (.inr rfl) (.inr rfl) (.inr rfl) (.inr rfl) (.inr rfl) (.inr rfl) (.inr rfl) (.inr rfl) (.inr rfl) (.inr rfl) (.inr rfl) (.inr rfl); try dsimp only)

theorem State.setAbs_only {pt : Parts} (h_rf : pt.rf = true) (h_irqNow : pt.irqNow = true) (h_pos : pt.pos = true) (h_mot : pt.mot = true) {s₀ s : State} (h : Only pt s₀ s) : Only pt s₀ (State.setAbs s) := by
  unfold State.setAbs
  try dsimp only
  repeat' first | (with_reducible first | assumption | apply State.absLanding_only h_mot | apply State.posNote_only h_rf h_irqNow h_pos | apply each_only | apply foldl_only) | intro _ _ _ | split | (refine Only.upd ?_ (.inr rfl) (.inr rfl) (.inr rfl) (.inl h_rf) (.inl h_irqNow) (.inl h_pos) (.inr rfl) (.inl h_mot) (.inr rfl) (.inr rfl) (.inr rfl) (.inr rfl) (.inr rfl) (.inr rfl) (.inr rfl) (.inr rfl) (.inr rfl) (.inr rfl) (.inr rfl) (.inr rfl) (.inr rfl) (.inr rfl) (.inr rfl) (.inr rfl) (.inr rfl) (.inr rfl); try dsimp only)

theorem State.watchSrc_only {pt : Parts} (h_rf : pt.rf = true) (h_irqNow : pt.irqNow = true) (h_pos : pt.pos = true) (h_lwb : pt.lwb = true) (h_mot : pt.mot = true) (h_drv : pt.drv = true) (h_doorF : pt.doorF = true) (h_doorR : pt.doorR = true) (h_el : pt.el = true) (h_can : pt.can = true) (h_part : pt.part = true) (h_rcd : pt.rcd = true) {s₀ s : State} (h : Only pt s₀ s) (i : PosSrc) (bad : Bool) (counts : Bool) : Only pt s₀ (State.watchSrc s i bad counts) := by
  unfold State.watchSrc
  try dsimp only
  repeat' first | (with_reducible first | assumption | apply State.sourceLost_only h_rf h_irqNow h_pos h_lwb h_mot h_drv h_doorF h_doorR h_el h_can h_part h_rcd | apply each_only | apply foldl_only) | intro _ _ _ | split | (refine Only.upd ?_ (.inr rfl) (.inr rfl) (.inr rfl) (.inl h_rf) (.inl h_irqNow) (.inl h_pos) (.inl h_lwb) (.inl h_mot) (.inl h_drv) (.inr rfl) (.inr rfl) (.inl h_doorF) (.inl h_doorR) (.inl h_el) (.inr rfl) (.inl h_can) (.inr rfl) (.inr rfl) (.inr rfl) (.inl h_part) (.inl h_rcd) (.inr rfl) (.inr rfl) (.inr rfl) (.inr rfl) (.inr rfl); try dsimp only)

theorem State.takeLoad_only {pt : Parts} (h_rf : pt.rf = true) (h_irqNow : pt.irqNow = true) (h_pos : pt.pos = true) (h_lwb : pt.lwb = true) (h_mot : pt.mot = true) (h_drv : pt.drv = true) (h_doorF : pt.doorF = true) (h_doorR : pt.doorR = true) (h_el : pt.el = true) (h_can : pt.can = true) (h_part : pt.part = true) (h_rcd : pt.rcd = true) {s₀ s : State} (h : Only pt s₀ s) : Only pt s₀ (State.takeLoad s) := by
  unfold State.takeLoad
  try dsimp only
  repeat' first | (with_reducible first | assumption | apply State.sourceLost_only h_rf h_irqNow h_pos h_lwb h_mot h_drv h_doorF h_doorR h_el h_can h_part h_rcd | apply each_only | apply foldl_only) | intro _ _ _ | split | (refine Only.upd ?_ (.inr rfl) (.inr rfl) (.inr rfl) (.inl h_rf) (.inl h_irqNow) (.inl h_pos) (.inl h_lwb) (.inl h_mot) (.inl h_drv) (.inr rfl) (.inr rfl) (.inl h_doorF) (.inl h_doorR) (.inl h_el) (.inr rfl) (.inl h_can) (.inr rfl) (.inr rfl) (.inr rfl) (.inl h_part) (.inl h_rcd) (.inr rfl) (.inr rfl) (.inr rfl) (.inr rfl) (.inr rfl); try dsimp only)

theorem State.fuseEnc_only {pt : Parts} (h_pos : pt.pos = true) {s₀ s : State} (h : Only pt s₀ s) (step : Int) : Only pt s₀ (State.fuseEnc s step) := by
  unfold State.fuseEnc
  try dsimp only
  repeat' first | (with_reducible first | assumption  | apply each_only | apply foldl_only) | intro _ _ _ | split | (refine Only.upd ?_ (.inr rfl) (.inr rfl) (.inr rfl) (.inr rfl) (.inr rfl) (.inl h_pos) (.inr rfl) (.inr rfl) (.inr rfl) (.inr rfl) (.inr rfl) (.inr rfl) (.inr rfl) (.inr rfl) (.inr rfl) (.inr rfl) (.inr rfl) (.inr rfl) (.inr rfl) (.inr rfl) (.inr rfl) (.inr rfl) (.inr rfl) (.inr rfl) (.inr rfl) (.inr rfl); try dsimp only)

theorem State.fuseAcc_only {pt : Parts} (h_pos : pt.pos = true) {s₀ s : State} (h : Only pt s₀ s) (f : Int) : Only pt s₀ (State.fuseAcc s f) := by
  unfold State.fuseAcc
  try dsimp only
  repeat' first | (with_reducible first | assumption  | apply each_only | apply foldl_only) | intro _ _ _ | split | (refine Only.upd ?_ (.inr rfl) (.inr rfl) (.inr rfl) (.inr rfl) (.inr rfl) (.inl h_pos) (.inr rfl) (.inr rfl) (.inr rfl) (.inr rfl) (.inr rfl) (.inr rfl) (.inr rfl) (.inr rfl) (.inr rfl) (.inr rfl) (.inr rfl) (.inr rfl) (.inr rfl) (.inr rfl) (.inr rfl) (.inr rfl) (.inr rfl) (.inr rfl) (.inr rfl) (.inr rfl); try dsimp only)

theorem State.fuseSr_only {pt : Parts} (h_rf : pt.rf = true) (h_irqNow : pt.irqNow = true) (h_pos : pt.pos = true) (h_lwb : pt.lwb = true) (h_mot : pt.mot = true) (h_drv : pt.drv = true) (h_doorF : pt.doorF = true) (h_doorR : pt.doorR = true) (h_el : pt.el = true) (h_can : pt.can = true) (h_part : pt.part = true) (h_rcd : pt.rcd = true) {s₀ s : State} (h : Only pt s₀ s) (lmm : Nat) : Only pt s₀ (State.fuseSr s lmm) := by
  unfold State.fuseSr
  try dsimp only
  repeat' first | (with_reducible first | assumption | apply State.raise_only h_rf h_irqNow | apply State.sourceLost_only h_rf h_irqNow h_pos h_lwb h_mot h_drv h_doorF h_doorR h_el h_can h_part h_rcd | apply each_only | apply foldl_only) | intro _ _ _ | split | (refine Only.upd ?_ (.inr rfl) (.inr rfl) (.inr rfl) (.inl h_rf) (.inl h_irqNow) (.inl h_pos) (.inl h_lwb) (.inl h_mot) (.inl h_drv) (.inr rfl) (.inr rfl) (.inl h_doorF) (.inl h_doorR) (.inl h_el) (.inr rfl) (.inl h_can) (.inr rfl) (.inr rfl) (.inr rfl) (.inl h_part) (.inl h_rcd) (.inr rfl) (.inr rfl) (.inr rfl) (.inr rfl) (.inr rfl); try dsimp only)

theorem State.dzShown_only {pt : Parts} (h_pos : pt.pos = true) {s₀ s : State} (h : Only pt s₀ s) (c : Chan) (rising : Bool) (stampUs : Nat) : Only pt s₀ (State.dzShown s c rising stampUs) := by
  unfold State.dzShown
  try dsimp only
  repeat' first | (with_reducible first | assumption | apply State.setDz_only h_pos | apply each_only | apply foldl_only) | intro _ _ _ | split | (refine Only.upd ?_ (.inr rfl) (.inr rfl) (.inr rfl) (.inr rfl) (.inr rfl) (.inl h_pos) (.inr rfl) (.inr rfl) (.inr rfl) (.inr rfl) (.inr rfl) (.inr rfl) (.inr rfl) (.inr rfl) (.inr rfl) (.inr rfl) (.inr rfl) (.inr rfl) (.inr rfl) (.inr rfl) (.inr rfl) (.inr rfl) (.inr rfl) (.inr rfl) (.inr rfl) (.inr rfl); try dsimp only)

theorem State.fuseEdge_only {pt : Parts} (h_rf : pt.rf = true) (h_irqNow : pt.irqNow = true) (h_pos : pt.pos = true) {s₀ s : State} (h : Only pt s₀ s) (c : Chan) (rising : Bool) (stampUs : Nat) : Only pt s₀ (State.fuseEdge s c rising stampUs) := by
  unfold State.fuseEdge
  try dsimp only
  repeat' first | (with_reducible first | assumption | apply State.raise_only h_rf h_irqNow | apply each_only | apply foldl_only) | intro _ _ _ | split | (refine Only.upd ?_ (.inr rfl) (.inr rfl) (.inr rfl) (.inl h_rf) (.inl h_irqNow) (.inl h_pos) (.inr rfl) (.inr rfl) (.inr rfl) (.inr rfl) (.inr rfl) (.inr rfl) (.inr rfl) (.inr rfl) (.inr rfl) (.inr rfl) (.inr rfl) (.inr rfl) (.inr rfl) (.inr rfl) (.inr rfl) (.inr rfl) (.inr rfl) (.inr rfl) (.inr rfl) (.inr rfl); try dsimp only)

theorem State.fuseDz_only {pt : Parts} (h_rf : pt.rf = true) (h_irqNow : pt.irqNow = true) (h_pos : pt.pos = true) {s₀ s : State} (h : Only pt s₀ s) (c : Chan) : Only pt s₀ (State.fuseDz s c) := by
  unfold State.fuseDz
  try dsimp only
  repeat' first | (with_reducible first | assumption | apply State.dzShown_only h_pos | apply State.setDz_only h_pos | apply State.fuseEdge_only h_rf h_irqNow h_pos | apply State.raise_only h_rf h_irqNow | apply each_only | apply foldl_only) | intro _ _ _ | split | (refine Only.upd ?_ (.inr rfl) (.inr rfl) (.inr rfl) (.inl h_rf) (.inl h_irqNow) (.inl h_pos) (.inr rfl) (.inr rfl) (.inr rfl) (.inr rfl) (.inr rfl) (.inr rfl) (.inr rfl) (.inr rfl) (.inr rfl) (.inr rfl) (.inr rfl) (.inr rfl) (.inr rfl) (.inr rfl) (.inr rfl) (.inr rfl) (.inr rfl) (.inr rfl) (.inr rfl) (.inr rfl); try dsimp only)

theorem State.dzTrack_only {pt : Parts} (h_pos : pt.pos = true) {s₀ s : State} (h : Only pt s₀ s) (c : Chan) (p0 : Int) : Only pt s₀ (State.dzTrack s c p0) := by
  unfold State.dzTrack
  try dsimp only
  repeat' first | (with_reducible first | assumption | apply State.setDz_only h_pos | apply each_only | apply foldl_only) | intro _ _ _ | split | (refine Only.upd ?_ (.inr rfl) (.inr rfl) (.inr rfl) (.inr rfl) (.inr rfl) (.inl h_pos) (.inr rfl) (.inr rfl) (.inr rfl) (.inr rfl) (.inr rfl) (.inr rfl) (.inr rfl) (.inr rfl) (.inr rfl) (.inr rfl) (.inr rfl) (.inr rfl) (.inr rfl) (.inr rfl) (.inr rfl) (.inr rfl) (.inr rfl) (.inr rfl) (.inr rfl) (.inr rfl); try dsimp only)

theorem State.passEnd_only {pt : Parts} (h_rf : pt.rf = true) (h_irqNow : pt.irqNow = true) (h_pos : pt.pos = true) (h_lwb : pt.lwb = true) (h_mot : pt.mot = true) (h_drv : pt.drv = true) (h_doorF : pt.doorF = true) (h_doorR : pt.doorR = true) (h_el : pt.el = true) (h_can : pt.can = true) (h_part : pt.part = true) (h_rcd : pt.rcd = true) {s₀ s : State} (h : Only pt s₀ s) (c : Chan) (x : DzPass) : Only pt s₀ (State.passEnd s c x) := by
  unfold State.passEnd
  try dsimp only
  repeat' first | (with_reducible first | assumption | apply State.setDz_only h_pos | apply State.sourceLost_only h_rf h_irqNow h_pos h_lwb h_mot h_drv h_doorF h_doorR h_el h_can h_part h_rcd | apply each_only | apply foldl_only) | intro _ _ _ | split | (refine Only.upd ?_ (.inr rfl) (.inr rfl) (.inr rfl) (.inl h_rf) (.inl h_irqNow) (.inl h_pos) (.inl h_lwb) (.inl h_mot) (.inl h_drv) (.inr rfl) (.inr rfl) (.inl h_doorF) (.inl h_doorR) (.inl h_el) (.inr rfl) (.inl h_can) (.inr rfl) (.inr rfl) (.inr rfl) (.inl h_part) (.inl h_rcd) (.inr rfl) (.inr rfl) (.inr rfl) (.inr rfl) (.inr rfl); try dsimp only)

theorem State.dzEndCrossing_only {pt : Parts} (h_rf : pt.rf = true) (h_irqNow : pt.irqNow = true) (h_pos : pt.pos = true) (h_lwb : pt.lwb = true) (h_mot : pt.mot = true) (h_drv : pt.drv = true) (h_doorF : pt.doorF = true) (h_doorR : pt.doorR = true) (h_el : pt.el = true) (h_can : pt.can = true) (h_part : pt.part = true) (h_rcd : pt.rcd = true) {s₀ s : State} (h : Only pt s₀ s) (c : Chan) (p0 : Int) : Only pt s₀ (State.dzEndCrossing s c p0) := by
  unfold State.dzEndCrossing
  try dsimp only
  repeat' first | (with_reducible first | assumption | apply State.setDz_only h_pos | apply State.passEnd_only h_rf h_irqNow h_pos h_lwb h_mot h_drv h_doorF h_doorR h_el h_can h_part h_rcd | apply each_only | apply foldl_only) | intro _ _ _ | split | (refine Only.upd ?_ (.inr rfl) (.inr rfl) (.inr rfl) (.inl h_rf) (.inl h_irqNow) (.inl h_pos) (.inl h_lwb) (.inl h_mot) (.inl h_drv) (.inr rfl) (.inr rfl) (.inl h_doorF) (.inl h_doorR) (.inl h_el) (.inr rfl) (.inl h_can) (.inr rfl) (.inr rfl) (.inr rfl) (.inl h_part) (.inl h_rcd) (.inr rfl) (.inr rfl) (.inr rfl) (.inr rfl) (.inr rfl); try dsimp only)

theorem State.encCompare_only {pt : Parts} (h_pos : pt.pos = true) {s₀ s : State} (h : Only pt s₀ s) : Only pt s₀ (State.encCompare s) := by
  unfold State.encCompare
  try dsimp only
  repeat' first | (with_reducible first | assumption  | apply each_only | apply foldl_only) | intro _ _ _ | split | (refine Only.upd ?_ (.inr rfl) (.inr rfl) (.inr rfl) (.inr rfl) (.inr rfl) (.inl h_pos) (.inr rfl) (.inr rfl) (.inr rfl) (.inr rfl) (.inr rfl) (.inr rfl) (.inr rfl) (.inr rfl) (.inr rfl) (.inr rfl) (.inr rfl) (.inr rfl) (.inr rfl) (.inr rfl) (.inr rfl) (.inr rfl) (.inr rfl) (.inr rfl) (.inr rfl) (.inr rfl); try dsimp only)

theorem State.slipNote_only {pt : Parts} (h_pos : pt.pos = true) {s₀ s : State} (h : Only pt s₀ s) : Only pt s₀ (State.slipNote s) := by
  unfold State.slipNote
  try dsimp only
  repeat' first | (with_reducible first | assumption  | apply each_only | apply foldl_only) | intro _ _ _ | split | (refine Only.upd ?_ (.inr rfl) (.inr rfl) (.inr rfl) (.inr rfl) (.inr rfl) (.inl h_pos) (.inr rfl) (.inr rfl) (.inr rfl) (.inr rfl) (.inr rfl) (.inr rfl) (.inr rfl) (.inr rfl) (.inr rfl) (.inr rfl) (.inr rfl) (.inr rfl) (.inr rfl) (.inr rfl) (.inr rfl) (.inr rfl) (.inr rfl) (.inr rfl) (.inr rfl) (.inr rfl); try dsimp only)

theorem State.biasCalStep_only {pt : Parts} (h_rf : pt.rf = true) (h_irqNow : pt.irqNow = true) (h_pos : pt.pos = true) {s₀ s : State} (h : Only pt s₀ s) (f : Int) : Only pt s₀ (State.biasCalStep s f) := by
  unfold State.biasCalStep
  try dsimp only
  repeat' first | (with_reducible first | assumption | apply State.raise_only h_rf h_irqNow | apply each_only | apply foldl_only) | intro _ _ _ | split | (refine Only.upd ?_ (.inr rfl) (.inr rfl) (.inr rfl) (.inl h_rf) (.inl h_irqNow) (.inl h_pos) (.inr rfl) (.inr rfl) (.inr rfl) (.inr rfl) (.inr rfl) (.inr rfl) (.inr rfl) (.inr rfl) (.inr rfl) (.inr rfl) (.inr rfl) (.inr rfl) (.inr rfl) (.inr rfl) (.inr rfl) (.inr rfl) (.inr rfl) (.inr rfl) (.inr rfl) (.inr rfl); try dsimp only)

theorem State.lwbCalWatch_only {pt : Parts} (h_rf : pt.rf = true) (h_irqNow : pt.irqNow = true) (h_lwb : pt.lwb = true) {s₀ s : State} (h : Only pt s₀ s) : Only pt s₀ (State.lwbCalWatch s) := by
  unfold State.lwbCalWatch
  try dsimp only
  repeat' first | (with_reducible first | assumption | apply State.raise_only h_rf h_irqNow | apply each_only | apply foldl_only) | intro _ _ _ | split | (refine Only.upd ?_ (.inr rfl) (.inr rfl) (.inr rfl) (.inl h_rf) (.inl h_irqNow) (.inr rfl) (.inl h_lwb) (.inr rfl) (.inr rfl) (.inr rfl) (.inr rfl) (.inr rfl) (.inr rfl) (.inr rfl) (.inr rfl) (.inr rfl) (.inr rfl) (.inr rfl) (.inr rfl) (.inr rfl) (.inr rfl) (.inr rfl) (.inr rfl) (.inr rfl) (.inr rfl) (.inr rfl); try dsimp only)

theorem State.srRequest_only {pt : Parts} (h_pos : pt.pos = true) {s₀ s : State} (h : Only pt s₀ s) : Only pt s₀ (State.srRequest s) := by
  unfold State.srRequest
  try dsimp only
  repeat' first | (with_reducible first | assumption  | apply each_only | apply foldl_only) | intro _ _ _ | split | (refine Only.upd ?_ (.inr rfl) (.inr rfl) (.inr rfl) (.inr rfl) (.inr rfl) (.inl h_pos) (.inr rfl) (.inr rfl) (.inr rfl) (.inr rfl) (.inr rfl) (.inr rfl) (.inr rfl) (.inr rfl) (.inr rfl) (.inr rfl) (.inr rfl) (.inr rfl) (.inr rfl) (.inr rfl) (.inr rfl) (.inr rfl) (.inr rfl) (.inr rfl) (.inr rfl) (.inr rfl); try dsimp only)

theorem State.fuseStretch_only {pt : Parts} (h_pos : pt.pos = true) {s₀ t : State} (h : Only pt s₀ t) : Only pt s₀ (State.fuseStretch t) := by
  unfold State.fuseStretch
  try dsimp only
  repeat' first | (with_reducible first | assumption  | apply each_only | apply foldl_only) | intro _ _ _ | split | (refine Only.upd ?_ (.inr rfl) (.inr rfl) (.inr rfl) (.inr rfl) (.inr rfl) (.inl h_pos) (.inr rfl) (.inr rfl) (.inr rfl) (.inr rfl) (.inr rfl) (.inr rfl) (.inr rfl) (.inr rfl) (.inr rfl) (.inr rfl) (.inr rfl) (.inr rfl) (.inr rfl) (.inr rfl) (.inr rfl) (.inr rfl) (.inr rfl) (.inr rfl) (.inr rfl) (.inr rfl); try dsimp only)

theorem State.encStore_only {pt : Parts} (h_pos : pt.pos = true) {s₀ s : State} (h : Only pt s₀ s) (i : TickIn) (st1 : Int) (st2 : Int) : Only pt s₀ (State.encStore s i st1 st2) := by
  unfold State.encStore
  try dsimp only
  repeat' first | (with_reducible first | assumption  | apply each_only | apply foldl_only) | intro _ _ _ | split | (refine Only.upd ?_ (.inr rfl) (.inr rfl) (.inr rfl) (.inr rfl) (.inr rfl) (.inl h_pos) (.inr rfl) (.inr rfl) (.inr rfl) (.inr rfl) (.inr rfl) (.inr rfl) (.inr rfl) (.inr rfl) (.inr rfl) (.inr rfl) (.inr rfl) (.inr rfl) (.inr rfl) (.inr rfl) (.inr rfl) (.inr rfl) (.inr rfl) (.inr rfl) (.inr rfl) (.inr rfl); try dsimp only)

theorem State.watchAll_only {pt : Parts} (h_rf : pt.rf = true) (h_irqNow : pt.irqNow = true) (h_pos : pt.pos = true) (h_lwb : pt.lwb = true) (h_mot : pt.mot = true) (h_drv : pt.drv = true) (h_doorF : pt.doorF = true) (h_doorR : pt.doorR = true) (h_el : pt.el = true) (h_can : pt.can = true) (h_part : pt.part = true) (h_rcd : pt.rcd = true) {s₀ s : State} (h : Only pt s₀ s) (i : TickIn) : Only pt s₀ (State.watchAll s i) := by
  unfold State.watchAll
  try dsimp only
  repeat' first | (with_reducible first | assumption | apply State.watchSrc_only h_rf h_irqNow h_pos h_lwb h_mot h_drv h_doorF h_doorR h_el h_can h_part h_rcd | apply State.takeLoad_only h_rf h_irqNow h_pos h_lwb h_mot h_drv h_doorF h_doorR h_el h_can h_part h_rcd | apply each_only | apply foldl_only) | intro _ _ _ | split | dsimp only

theorem State.fusion_only {pt : Parts} (h_rf : pt.rf = true) (h_irqNow : pt.irqNow = true) (h_pos : pt.pos = true) (h_lwb : pt.lwb = true) (h_mot : pt.mot = true) (h_drv : pt.drv = true) (h_doorF : pt.doorF = true) (h_doorR : pt.doorR = true) (h_el : pt.el = true) (h_can : pt.can = true) (h_part : pt.part = true) (h_rcd : pt.rcd = true) {s₀ s : State} (h : Only pt s₀ s) (i : TickIn) : Only pt s₀ (State.fusion s i) := by
  unfold State.fusion
  try dsimp only
  repeat' first | (with_reducible first | assumption | apply State.watchAll_only h_rf h_irqNow h_pos h_lwb h_mot h_drv h_doorF h_doorR h_el h_can h_part h_rcd | apply State.fuseStretch_only h_pos | apply State.fuseEnc_only h_pos | apply State.fuseAcc_only h_pos | apply State.fuseSr_only h_rf h_irqNow h_pos h_lwb h_mot h_drv h_doorF h_doorR h_el h_can h_part h_rcd | apply State.dzTrack_only h_pos | apply State.fuseDz_only h_rf h_irqNow h_pos | apply State.dzEndCrossing_only h_rf h_irqNow h_pos h_lwb h_mot h_drv h_doorF h_doorR h_el h_can h_part h_rcd | apply State.encStore_only h_pos | apply State.encCompare_only h_pos | apply State.slipNote_only h_pos | apply State.biasCalStep_only h_rf h_irqNow h_pos | apply State.lwbCalWatch_only h_rf h_irqNow h_lwb | apply State.srRequest_only h_pos | apply State.posNote_only h_rf h_irqNow h_pos | apply each_only | apply foldl_only) | intro _ _ _ | split | (refine Only.upd ?_ (.inr rfl) (.inr rfl) (.inr rfl) (.inl h_rf) (.inl h_irqNow) (.inl h_pos) (.inl h_lwb) (.inl h_mot) (.inl h_drv) (.inr rfl) (.inr rfl) (.inl h_doorF) (.inl h_doorR) (.inl h_el) (.inr rfl) (.inl h_can) (.inr rfl) (.inr rfl) (.inr rfl) (.inl h_part) (.inl h_rcd) (.inr rfl) (.inr rfl) (.inr rfl) (.inr rfl) (.inr rfl); try dsimp only)

theorem State.takeReader_only {pt : Parts} (h_pos : pt.pos = true) {s₀ s : State} (h : Only pt s₀ s) (rest : Bool) : Only pt s₀ (State.takeReader s rest) := by
  unfold State.takeReader
  try dsimp only
  repeat' first | (with_reducible first | assumption | apply State.rebase_only h_pos | apply each_only | apply foldl_only) | intro _ _ _ | split | (refine Only.upd ?_ (.inr rfl) (.inr rfl) (.inr rfl) (.inr rfl) (.inr rfl) (.inl h_pos) (.inr rfl) (.inr rfl) (.inr rfl) (.inr rfl) (.inr rfl) (.inr rfl) (.inr rfl) (.inr rfl) (.inr rfl) (.inr rfl) (.inr rfl) (.inr rfl) (.inr rfl) (.inr rfl) (.inr rfl) (.inr rfl) (.inr rfl) (.inr rfl) (.inr rfl) (.inr rfl); try dsimp only)

theorem State.sourceReturn_only {pt : Parts} (h_rf : pt.rf = true) (h_irqNow : pt.irqNow = true) (h_pos : pt.pos = true) (h_mot : pt.mot = true) {s₀ s : State} (h : Only pt s₀ s) (i : PosSrc) : Only pt s₀ (State.sourceReturn s i) := by
  unfold State.sourceReturn
  try dsimp only
  repeat' first | (with_reducible first | assumption | apply State.sourceBack_only h_rf h_irqNow h_pos | apply State.takeReader_only h_pos | apply State.setAbs_only h_rf h_irqNow h_pos h_mot | apply each_only | apply foldl_only) | intro _ _ _ | split | (refine Only.upd ?_ (.inr rfl) (.inr rfl) (.inr rfl) (.inl h_rf) (.inl h_irqNow) (.inl h_pos) (.inr rfl) (.inl h_mot) (.inr rfl) (.inr rfl) (.inr rfl) (.inr rfl) (.inr rfl) (.inr rfl) (.inr rfl) (.inr rfl) (.inr rfl) (.inr rfl) (.inr rfl) (.inr rfl) (.inr rfl) (.inr rfl) (.inr rfl) (.inr rfl) (.inr rfl) (.inr rfl); try dsimp only)

theorem State.srAnswer_only {pt : Parts} (h_rf : pt.rf = true) (h_pos : pt.pos = true) {s₀ s : State} (h : Only pt s₀ s) (l : List Byte) (endNs : Nat) : Only pt s₀ (State.srAnswer s l endNs) := by
  unfold State.srAnswer
  try dsimp only
  repeat' first | (with_reducible first | assumption | apply State.wi_only h_rf | apply State.wr_only h_rf | apply State.bump_only h_rf | apply each_only | apply foldl_only) | intro _ _ _ | split | (refine Only.upd ?_ (.inr rfl) (.inr rfl) (.inr rfl) (.inl h_rf) (.inr rfl) (.inl h_pos) (.inr rfl) (.inr rfl) (.inr rfl) (.inr rfl) (.inr rfl) (.inr rfl) (.inr rfl) (.inr rfl) (.inr rfl) (.inr rfl) (.inr rfl) (.inr rfl) (.inr rfl) (.inr rfl) (.inr rfl) (.inr rfl) (.inr rfl) (.inr rfl) (.inr rfl) (.inr rfl); try dsimp only)

theorem State.srTimeout_only {pt : Parts} (h_rf : pt.rf = true) (h_irqNow : pt.irqNow = true) (h_pos : pt.pos = true) (h_lwb : pt.lwb = true) (h_mot : pt.mot = true) (h_drv : pt.drv = true) (h_doorF : pt.doorF = true) (h_doorR : pt.doorR = true) (h_el : pt.el = true) (h_can : pt.can = true) (h_part : pt.part = true) (h_rcd : pt.rcd = true) {s₀ s : State} (h : Only pt s₀ s) : Only pt s₀ (State.srTimeout s) := by
  unfold State.srTimeout
  try dsimp only
  repeat' first | (with_reducible first | assumption | apply State.sourceLost_only h_rf h_irqNow h_pos h_lwb h_mot h_drv h_doorF h_doorR h_el h_can h_part h_rcd | apply each_only | apply foldl_only) | intro _ _ _ | split | (refine Only.upd ?_ (.inr rfl) (.inr rfl) (.inr rfl) (.inl h_rf) (.inl h_irqNow) (.inl h_pos) (.inl h_lwb) (.inl h_mot) (.inl h_drv) (.inr rfl) (.inr rfl) (.inl h_doorF) (.inl h_doorR) (.inl h_el) (.inr rfl) (.inl h_can) (.inr rfl) (.inr rfl) (.inr rfl) (.inl h_part) (.inl h_rcd) (.inr rfl) (.inr rfl) (.inr rfl) (.inr rfl) (.inr rfl); try dsimp only)

theorem State.srReacq_only {pt : Parts} (h_rf : pt.rf = true) (h_pos : pt.pos = true) (h_el : pt.el = true) {s₀ s : State} (h : Only pt s₀ s) : Only pt s₀ (State.srReacq s) := by
  unfold State.srReacq
  try dsimp only
  repeat' first | (with_reducible first | assumption | apply State.wf__only h_rf | apply each_only | apply foldl_only) | intro _ _ _ | split | (refine Only.upd ?_ (.inr rfl) (.inr rfl) (.inr rfl) (.inl h_rf) (.inr rfl) (.inl h_pos) (.inr rfl) (.inr rfl) (.inr rfl) (.inr rfl) (.inr rfl) (.inr rfl) (.inr rfl) (.inl h_el) (.inr rfl) (.inr rfl) (.inr rfl) (.inr rfl) (.inr rfl) (.inr rfl) (.inr rfl) (.inr rfl) (.inr rfl) (.inr rfl) (.inr rfl) (.inr rfl); try dsimp only)

theorem State.dzEdgeSeen_only {pt : Parts} (h_pos : pt.pos = true) {s₀ s : State} (h : Only pt s₀ s) (c : Chan) (rising : Bool) (stampUs : Nat) : Only pt s₀ (State.dzEdgeSeen s c rising stampUs) := by
  unfold State.dzEdgeSeen
  try dsimp only
  repeat' first | (with_reducible first | assumption | apply State.setDz_only h_pos | apply each_only | apply foldl_only) | intro _ _ _ | split | (refine Only.upd ?_ (.inr rfl) (.inr rfl) (.inr rfl) (.inr rfl) (.inr rfl) (.inl h_pos) (.inr rfl) (.inr rfl) (.inr rfl) (.inr rfl) (.inr rfl) (.inr rfl) (.inr rfl) (.inr rfl) (.inr rfl) (.inr rfl) (.inr rfl) (.inr rfl) (.inr rfl) (.inr rfl) (.inr rfl) (.inr rfl) (.inr rfl) (.inr rfl) (.inr rfl) (.inr rfl); try dsimp only)

theorem State.dzFault_only {pt : Parts} (h_rf : pt.rf = true) (h_irqNow : pt.irqNow = true) (h_pos : pt.pos = true) (h_lwb : pt.lwb = true) (h_mot : pt.mot = true) (h_drv : pt.drv = true) (h_doorF : pt.doorF = true) (h_doorR : pt.doorR = true) (h_el : pt.el = true) (h_can : pt.can = true) (h_part : pt.part = true) (h_rcd : pt.rcd = true) {s₀ s : State} (h : Only pt s₀ s) (c : Chan) : Only pt s₀ (State.dzFault s c) := by
  unfold State.dzFault
  try dsimp only
  repeat' first | (with_reducible first | assumption | apply State.setDz_only h_pos | apply State.sourceLost_only h_rf h_irqNow h_pos h_lwb h_mot h_drv h_doorF h_doorR h_el h_can h_part h_rcd | apply each_only | apply foldl_only) | intro _ _ _ | split | (refine Only.upd ?_ (.inr rfl) (.inr rfl) (.inr rfl) (.inl h_rf) (.inl h_irqNow) (.inl h_pos) (.inl h_lwb) (.inl h_mot) (.inl h_drv) (.inr rfl) (.inr rfl) (.inl h_doorF) (.inl h_doorR) (.inl h_el) (.inr rfl) (.inl h_can) (.inr rfl) (.inr rfl) (.inr rfl) (.inl h_part) (.inl h_rcd) (.inr rfl) (.inr rfl) (.inr rfl) (.inr rfl) (.inr rfl); try dsimp only)

theorem State.elWire_only {pt : Parts} (h_el : pt.el = true) {s₀ s : State} (h : Only pt s₀ s) (c : Chan) (on : Bool) : Only pt s₀ (State.elWire s c on) := by
  unfold State.elWire
  try dsimp only
  repeat' first | (with_reducible first | assumption  | apply each_only | apply foldl_only) | intro _ _ _ | split | (refine Only.upd ?_ (.inr rfl) (.inr rfl) (.inr rfl) (.inr rfl) (.inr rfl) (.inr rfl) (.inr rfl) (.inr rfl) (.inr rfl) (.inr rfl) (.inr rfl) (.inr rfl) (.inr rfl) (.inl h_el) (.inr rfl) (.inr rfl) (.inr rfl) (.inr rfl) (.inr rfl) (.inr rfl) (.inr rfl) (.inr rfl) (.inr rfl) (.inr rfl) (.inr rfl) (.inr rfl); try dsimp only)

theorem State.dzFaultEnd_only {pt : Parts} (h_pos : pt.pos = true) {s₀ s : State} (h : Only pt s₀ s) (c : Chan) : Only pt s₀ (State.dzFaultEnd s c) := by
  unfold State.dzFaultEnd
  try dsimp only
  repeat' first | (with_reducible first | assumption | apply State.setDz_only h_pos | apply each_only | apply foldl_only) | intro _ _ _ | split | (refine Only.upd ?_ (.inr rfl) (.inr rfl) (.inr rfl) (.inr rfl) (.inr rfl) (.inl h_pos) (.inr rfl) (.inr rfl) (.inr rfl) (.inr rfl) (.inr rfl) (.inr rfl) (.inr rfl) (.inr rfl) (.inr rfl) (.inr rfl) (.inr rfl) (.inr rfl) (.inr rfl) (.inr rfl) (.inr rfl) (.inr rfl) (.inr rfl) (.inr rfl) (.inr rfl) (.inr rfl); try dsimp only)

theorem State.posObserve_only {pt : Parts} (h_pos : pt.pos = true) {s₀ s : State} (h : Only pt s₀ s) : Only pt s₀ (State.posObserve s) := by
  unfold State.posObserve
  try dsimp only
  repeat' first | (with_reducible first | assumption | apply State.setSrc_only h_pos | apply each_only | apply foldl_only) | intro _ _ _ | split | (refine Only.upd ?_ (.inr rfl) (.inr rfl) (.inr rfl) (.inr rfl) (.inr rfl) (.inl h_pos) (.inr rfl) (.inr rfl) (.inr rfl) (.inr rfl) (.inr rfl) (.inr rfl) (.inr rfl) (.inr rfl) (.inr rfl) (.inr rfl) (.inr rfl) (.inr rfl) (.inr rfl) (.inr rfl) (.inr rfl) (.inr rfl) (.inr rfl) (.inr rfl) (.inr rfl) (.inr rfl); try dsimp only)

theorem State.posStop_only {pt : Parts} (h_rf : pt.rf = true) (h_irqNow : pt.irqNow = true) (h_pos : pt.pos = true) {s₀ s : State} (h : Only pt s₀ s) : Only pt s₀ (State.posStop s) := by
  unfold State.posStop
  try dsimp only
  repeat' first | (with_reducible first | assumption | apply State.wf__only h_rf | apply State.setSrc_only h_pos | apply State.posNote_only h_rf h_irqNow h_pos | apply each_only | apply foldl_only) | intro _ _ _ | split | (refine Only.upd ?_ (.inr rfl) (.inr rfl) (.inr rfl) (.inl h_rf) (.inl h_irqNow) (.inl h_pos) (.inr rfl) (.inr rfl) (.inr rfl) (.inr rfl) (.inr rfl) (.inr rfl) (.inr rfl) (.inr rfl) (.inr rfl) (.inr rfl) (.inr rfl) (.inr rfl) (.inr rfl) (.inr rfl) (.inr rfl) (.inr rfl) (.inr rfl) (.inr rfl) (.inr rfl) (.inr rfl); try dsimp only)

theorem State.absFromZone_only {pt : Parts} (h_rf : pt.rf = true) (h_irqNow : pt.irqNow = true) (h_pos : pt.pos = true) (h_mot : pt.mot = true) {s₀ s : State} (h : Only pt s₀ s) : Only pt s₀ (State.absFromZone s) := by
  unfold State.absFromZone
  try dsimp only
  repeat' first | (with_reducible first | assumption | apply State.rebase_only h_pos | apply State.setAbs_only h_rf h_irqNow h_pos h_mot | apply each_only | apply foldl_only) | intro _ _ _ | split | (refine Only.upd ?_ (.inr rfl) (.inr rfl) (.inr rfl) (.inl h_rf) (.inl h_irqNow) (.inl h_pos) (.inr rfl) (.inl h_mot) (.inr rfl) (.inr rfl) (.inr rfl) (.inr rfl) (.inr rfl) (.inr rfl) (.inr rfl) (.inr rfl) (.inr rfl) (.inr rfl) (.inr rfl) (.inr rfl) (.inr rfl) (.inr rfl) (.inr rfl) (.inr rfl) (.inr rfl) (.inr rfl); try dsimp only)

theorem State.posStart_only {pt : Parts} (h_rf : pt.rf = true) (h_irqNow : pt.irqNow = true) (h_pos : pt.pos = true) (h_mot : pt.mot = true) {s₀ s : State} (h : Only pt s₀ s) (saved : Option (Int × Int × Nat × Int)) (kb : Option (Nat × Int)) : Only pt s₀ (State.posStart s saved kb) := by
  unfold State.posStart
  try dsimp only
  repeat' first | (with_reducible first | assumption | apply State.wf__only h_rf | apply State.posObserve_only h_pos | apply State.absFromZone_only h_rf h_irqNow h_pos h_mot | apply each_only | apply foldl_only) | intro _ _ _ | split | (refine Only.upd ?_ (.inr rfl) (.inr rfl) (.inr rfl) (.inl h_rf) (.inl h_irqNow) (.inl h_pos) (.inr rfl) (.inl h_mot) (.inr rfl) (.inr rfl) (.inr rfl) (.inr rfl) (.inr rfl) (.inr rfl) (.inr rfl) (.inr rfl) (.inr rfl) (.inr rfl) (.inr rfl) (.inr rfl) (.inr rfl) (.inr rfl) (.inr rfl) (.inr rfl) (.inr rfl) (.inr rfl); try dsimp only)

theorem State.lwbConvert_only {pt : Parts} (h_lwb : pt.lwb = true) {s₀ s : State} (h : Only pt s₀ s) (raw : Int) (openWire : Bool) (exc : Bool) (overRange : Bool) : Only pt s₀ (State.lwbConvert s raw openWire exc overRange) := by
  unfold State.lwbConvert
  try dsimp only
  repeat' first | (with_reducible first | assumption  | apply each_only | apply foldl_only) | intro _ _ _ | split | (refine Only.upd ?_ (.inr rfl) (.inr rfl) (.inr rfl) (.inr rfl) (.inr rfl) (.inr rfl) (.inl h_lwb) (.inr rfl) (.inr rfl) (.inr rfl) (.inr rfl) (.inr rfl) (.inr rfl) (.inr rfl) (.inr rfl) (.inr rfl) (.inr rfl) (.inr rfl) (.inr rfl) (.inr rfl) (.inr rfl) (.inr rfl) (.inr rfl) (.inr rfl) (.inr rfl) (.inr rfl); try dsimp only)

theorem State.lwbSetValid_only {pt : Parts} (h_rf : pt.rf = true) (h_irqNow : pt.irqNow = true) (h_lwb : pt.lwb = true) {s₀ s : State} (h : Only pt s₀ s) (v : Bool) : Only pt s₀ (State.lwbSetValid s v) := by
  unfold State.lwbSetValid
  try dsimp only
  repeat' first | (with_reducible first | assumption | apply State.raise_only h_rf h_irqNow | apply each_only | apply foldl_only) | intro _ _ _ | split | (refine Only.upd ?_ (.inr rfl) (.inr rfl) (.inr rfl) (.inl h_rf) (.inl h_irqNow) (.inr rfl) (.inl h_lwb) (.inr rfl) (.inr rfl) (.inr rfl) (.inr rfl) (.inr rfl) (.inr rfl) (.inr rfl) (.inr rfl) (.inr rfl) (.inr rfl) (.inr rfl) (.inr rfl) (.inr rfl) (.inr rfl) (.inr rfl) (.inr rfl) (.inr rfl) (.inr rfl) (.inr rfl); try dsimp only)

theorem State.lwbEnable_only {pt : Parts} (h_rf : pt.rf = true) (h_irqNow : pt.irqNow = true) (h_lwb : pt.lwb = true) {s₀ s : State} (h : Only pt s₀ s) (on : Bool) : Only pt s₀ (State.lwbEnable s on) := by
  unfold State.lwbEnable
  try dsimp only
  repeat' first | (with_reducible first | assumption | apply State.lwbSetValid_only h_rf h_irqNow h_lwb | apply each_only | apply foldl_only) | intro _ _ _ | split | (refine Only.upd ?_ (.inr rfl) (.inr rfl) (.inr rfl) (.inl h_rf) (.inl h_irqNow) (.inr rfl) (.inl h_lwb) (.inr rfl) (.inr rfl) (.inr rfl) (.inr rfl) (.inr rfl) (.inr rfl) (.inr rfl) (.inr rfl) (.inr rfl) (.inr rfl) (.inr rfl) (.inr rfl) (.inr rfl) (.inr rfl) (.inr rfl) (.inr rfl) (.inr rfl) (.inr rfl) (.inr rfl); try dsimp only)

theorem State.lwbCalEnd_only {pt : Parts} (h_rf : pt.rf = true) (h_irqNow : pt.irqNow = true) (h_lwb : pt.lwb = true) {s₀ s : State} (h : Only pt s₀ s) : Only pt s₀ (State.lwbCalEnd s) := by
  unfold State.lwbCalEnd
  try dsimp only
  repeat' first | (with_reducible first | assumption | apply State.wi_only h_rf | apply State.raise_only h_rf h_irqNow | apply State.wr_only h_rf | apply each_only | apply foldl_only) | intro _ _ _ | split | (refine Only.upd ?_ (.inr rfl) (.inr rfl) (.inr rfl) (.inl h_rf) (.inl h_irqNow) (.inr rfl) (.inl h_lwb) (.inr rfl) (.inr rfl) (.inr rfl) (.inr rfl) (.inr rfl) (.inr rfl) (.inr rfl) (.inr rfl) (.inr rfl) (.inr rfl) (.inr rfl) (.inr rfl) (.inr rfl) (.inr rfl) (.inr rfl) (.inr rfl) (.inr rfl) (.inr rfl) (.inr rfl); try dsimp only)

end Sys2Proof.Machine
end

