-- ==== Sys2Proof/Laws/OnlyMotOps.lean ====
section
/-! SUPPORT. Which parts of the state the operations of Machine/MotOps.lean leave the same. -/

set_option linter.unusedTactic false
set_option linter.unreachableTactic false

namespace Sys2Proof.Machine

theorem State.motSpeed_only {pt : Parts} (h_mot : pt.mot = true) {s₀ s : State} (h : Only pt s₀ s) : Only pt s₀ (State.motSpeed s) := by
  unfold State.motSpeed
  try dsimp only
  repeat' first | (with_reducible first | assumption  | apply each_only | apply foldl_only) | intro _ _ _ | split | (refine Only.upd ?_ (.inr rfl) (.inr rfl) (.inr rfl) (.inr rfl) (.inr rfl) (.inr rfl) (.inr rfl) (.inl h_mot) (.inr rfl) (.inr rfl) (.inr rfl) (.inr rfl) (.inr rfl) (.inr rfl) (.inr rfl) (.inr rfl) (.inr rfl) (.inr rfl) (.inr rfl) (.inr rfl) (.inr rfl) (.inr rfl) (.inr rfl) (.inr rfl) (.inr rfl) (.inr rfl); try dsimp only)

theorem State.motStopRamp_only {pt : Parts} (h_rf : pt.rf = true) (h_irqNow : pt.irqNow = true) (h_mot : pt.mot = true) {s₀ s : State} (h : Only pt s₀ s) : Only pt s₀ (State.motStopRamp s) := by
  unfold State.motStopRamp
  try dsimp only
  repeat' first | (with_reducible first | assumption | apply State.raise_only h_rf h_irqNow | apply each_only | apply foldl_only) | intro _ _ _ | split | (refine Only.upd ?_ (.inr rfl) (.inr rfl) (.inr rfl) (.inl h_rf) (.inl h_irqNow) (.inr rfl) (.inr rfl) (.inl h_mot) (.inr rfl) (.inr rfl) (.inr rfl) (.inr rfl) (.inr rfl) (.inr rfl) (.inr rfl) (.inr rfl) (.inr rfl) (.inr rfl) (.inr rfl) (.inr rfl) (.inr rfl) (.inr rfl) (.inr rfl) (.inr rfl) (.inr rfl) (.inr rfl); try dsimp only)

theorem State.motCommit_only {pt : Parts} (h_rf : pt.rf = true) (h_irqNow : pt.irqNow = true) (h_mot : pt.mot = true) {s₀ s : State} (h : Only pt s₀ s) (n : Nat) (src : CommitSrc) : Only pt s₀ (State.motCommit s n src) := by
  unfold State.motCommit
  try dsimp only
  repeat' first | (with_reducible first | assumption | apply State.wn_only h_rf | apply State.raise_only h_rf h_irqNow | apply each_only | apply foldl_only) | intro _ _ _ | split | (refine Only.upd ?_ (.inr rfl) (.inr rfl) (.inr rfl) (.inl h_rf) (.inl h_irqNow) (.inr rfl) (.inr rfl) (.inl h_mot) (.inr rfl) (.inr rfl) (.inr rfl) (.inr rfl) (.inr rfl) (.inr rfl) (.inr rfl) (.inr rfl) (.inr rfl) (.inr rfl) (.inr rfl) (.inr rfl) (.inr rfl) (.inr rfl) (.inr rfl) (.inr rfl) (.inr rfl) (.inr rfl); try dsimp only)

theorem State.hostCommit_only {pt : Parts} (h_rf : pt.rf = true) (h_irqNow : pt.irqNow = true) (h_mot : pt.mot = true) {s₀ s : State} (h : Only pt s₀ s) (n : Nat) : Only pt s₀ (State.hostCommit s n) := by
  unfold State.hostCommit
  try dsimp only
  repeat' first | (with_reducible first | assumption | apply State.motCommit_only h_rf h_irqNow h_mot | apply each_only | apply foldl_only) | intro _ _ _ | split | (refine Only.upd ?_ (.inr rfl) (.inr rfl) (.inr rfl) (.inl h_rf) (.inl h_irqNow) (.inr rfl) (.inr rfl) (.inl h_mot) (.inr rfl) (.inr rfl) (.inr rfl) (.inr rfl) (.inr rfl) (.inr rfl) (.inr rfl) (.inr rfl) (.inr rfl) (.inr rfl) (.inr rfl) (.inr rfl) (.inr rfl) (.inr rfl) (.inr rfl) (.inr rfl) (.inr rfl) (.inr rfl); try dsimp only)

theorem State.commitStop_only {pt : Parts} (h_rf : pt.rf = true) (h_irqNow : pt.irqNow = true) (h_mot : pt.mot = true) {s₀ s : State} (h : Only pt s₀ s) (n : Nat) (src : CommitSrc) : Only pt s₀ (State.commitStop s n src) := by
  unfold State.commitStop
  try dsimp only
  repeat' first | (with_reducible first | assumption | apply State.motCommit_only h_rf h_irqNow h_mot | apply State.motStopRamp_only h_rf h_irqNow h_mot | apply each_only | apply foldl_only) | intro _ _ _ | split | dsimp only

theorem State.drvRequest_only {pt : Parts} (h_drv : pt.drv = true) {s₀ s : State} (h : Only pt s₀ s) : Only pt s₀ (State.drvRequest s) := by
  unfold State.drvRequest
  try dsimp only
  repeat' first | (with_reducible first | assumption  | apply each_only | apply foldl_only) | intro _ _ _ | split | (refine Only.upd ?_ (.inr rfl) (.inr rfl) (.inr rfl) (.inr rfl) (.inr rfl) (.inr rfl) (.inr rfl) (.inr rfl) (.inl h_drv) (.inr rfl) (.inr rfl) (.inr rfl) (.inr rfl) (.inr rfl) (.inr rfl) (.inr rfl) (.inr rfl) (.inr rfl) (.inr rfl) (.inr rfl) (.inr rfl) (.inr rfl) (.inr rfl) (.inr rfl) (.inr rfl) (.inr rfl); try dsimp only)

theorem State.motStartNow_only {pt : Parts} (h_mot : pt.mot = true) (h_drv : pt.drv = true) (h_sch : pt.sch = true) {s₀ s : State} (h : Only pt s₀ s) : Only pt s₀ (State.motStartNow s) := by
  unfold State.motStartNow
  try dsimp only
  repeat' first | (with_reducible first | assumption | apply State.drvRequest_only h_drv | apply each_only | apply foldl_only) | intro _ _ _ | split | (refine Only.upd ?_ (.inr rfl) (.inr rfl) (.inr rfl) (.inr rfl) (.inr rfl) (.inr rfl) (.inr rfl) (.inl h_mot) (.inl h_drv) (.inl h_sch) (.inr rfl) (.inr rfl) (.inr rfl) (.inr rfl) (.inr rfl) (.inr rfl) (.inr rfl) (.inr rfl) (.inr rfl) (.inr rfl) (.inr rfl) (.inr rfl) (.inr rfl) (.inr rfl) (.inr rfl) (.inr rfl); try dsimp only)

theorem State.motLanded_only {pt : Parts} (h_mot : pt.mot = true) {s₀ s : State} (h : Only pt s₀ s) : Only pt s₀ (State.motLanded s) := by
  unfold State.motLanded
  try dsimp only
  repeat' first | (with_reducible first | assumption  | apply each_only | apply foldl_only) | intro _ _ _ | split | (refine Only.upd ?_ (.inr rfl) (.inr rfl) (.inr rfl) (.inr rfl) (.inr rfl) (.inr rfl) (.inr rfl) (.inl h_mot) (.inr rfl) (.inr rfl) (.inr rfl) (.inr rfl) (.inr rfl) (.inr rfl) (.inr rfl) (.inr rfl) (.inr rfl) (.inr rfl) (.inr rfl) (.inr rfl) (.inr rfl) (.inr rfl) (.inr rfl) (.inr rfl) (.inr rfl) (.inr rfl); try dsimp only)

theorem State.motIdleNow_only {pt : Parts} (h_mot : pt.mot = true) {s₀ s : State} (h : Only pt s₀ s) : Only pt s₀ (State.motIdleNow s) := by
  unfold State.motIdleNow
  try dsimp only
  repeat' first | (with_reducible first | assumption | apply State.spFollow_only h_mot | apply each_only | apply foldl_only) | intro _ _ _ | split | (refine Only.upd ?_ (.inr rfl) (.inr rfl) (.inr rfl) (.inr rfl) (.inr rfl) (.inr rfl) (.inr rfl) (.inl h_mot) (.inr rfl) (.inr rfl) (.inr rfl) (.inr rfl) (.inr rfl) (.inr rfl) (.inr rfl) (.inr rfl) (.inr rfl) (.inr rfl) (.inr rfl) (.inr rfl) (.inr rfl) (.inr rfl) (.inr rfl) (.inr rfl) (.inr rfl) (.inr rfl); try dsimp only)

theorem State.motHoldNow_only {pt : Parts} (h_rf : pt.rf = true) (h_irqNow : pt.irqNow = true) (h_mot : pt.mot = true) (h_drv : pt.drv = true) (h_el : pt.el = true) (h_rcd : pt.rcd = true) {s₀ s : State} (h : Only pt s₀ s) : Only pt s₀ (State.motHoldNow s) := by
  unfold State.motHoldNow
  try dsimp only
  repeat' first | (with_reducible first | assumption | apply State.drvOff_only h_rf h_irqNow h_drv h_el | apply State.spFollow_only h_mot | apply State.homeFailed_only h_rf h_irqNow h_mot h_rcd | apply State.motIdleNow_only h_mot | apply each_only | apply foldl_only) | intro _ _ _ | split | (refine Only.upd ?_ (.inr rfl) (.inr rfl) (.inr rfl) (.inl h_rf) (.inl h_irqNow) (.inr rfl) (.inr rfl) (.inl h_mot) (.inl h_drv) (.inr rfl) (.inr rfl) (.inr rfl) (.inr rfl) (.inl h_el) (.inr rfl) (.inr rfl) (.inr rfl) (.inr rfl) (.inr rfl) (.inr rfl) (.inl h_rcd) (.inr rfl) (.inr rfl) (.inr rfl) (.inr rfl) (.inr rfl); try dsimp only)

theorem State.homeFail_only {pt : Parts} (h_rf : pt.rf = true) (h_irqNow : pt.irqNow = true) (h_mot : pt.mot = true) (h_drv : pt.drv = true) (h_el : pt.el = true) (h_rcd : pt.rcd = true) {s₀ s : State} (h : Only pt s₀ s) (e : HomeErr) : Only pt s₀ (State.homeFail s e) := by
  unfold State.homeFail
  try dsimp only
  repeat' first | (with_reducible first | assumption | apply State.homeFailed_only h_rf h_irqNow h_mot h_rcd | apply State.drvOff_only h_rf h_irqNow h_drv h_el | apply State.motIdleNow_only h_mot | apply each_only | apply foldl_only) | intro _ _ _ | split | (refine Only.upd ?_ (.inr rfl) (.inr rfl) (.inr rfl) (.inl h_rf) (.inl h_irqNow) (.inr rfl) (.inr rfl) (.inl h_mot) (.inl h_drv) (.inr rfl) (.inr rfl) (.inr rfl) (.inr rfl) (.inl h_el) (.inr rfl) (.inr rfl) (.inr rfl) (.inr rfl) (.inr rfl) (.inr rfl) (.inl h_rcd) (.inr rfl) (.inr rfl) (.inr rfl) (.inr rfl) (.inr rfl); try dsimp only)

theorem State.specialStart_only {pt : Parts} (h_mot : pt.mot = true) (h_drv : pt.drv = true) {s₀ s : State} (h : Only pt s₀ s) (t : RunType) (up : Bool) (vel : Nat) : Only pt s₀ (State.specialStart s t up vel) := by
  unfold State.specialStart
  try dsimp only
  repeat' first | (with_reducible first | assumption | apply State.spFollow_only h_mot | apply State.drvRequest_only h_drv | apply each_only | apply foldl_only) | intro _ _ _ | split | (refine Only.upd ?_ (.inr rfl) (.inr rfl) (.inr rfl) (.inr rfl) (.inr rfl) (.inr rfl) (.inr rfl) (.inl h_mot) (.inl h_drv) (.inr rfl) (.inr rfl) (.inr rfl) (.inr rfl) (.inr rfl) (.inr rfl) (.inr rfl) (.inr rfl) (.inr rfl) (.inr rfl) (.inr rfl) (.inr rfl) (.inr rfl) (.inr rfl) (.inr rfl) (.inr rfl) (.inr rfl); try dsimp only)

theorem State.homeStart_only {pt : Parts} (h_pos : pt.pos = true) (h_mot : pt.mot = true) (h_drv : pt.drv = true) {s₀ s : State} (h : Only pt s₀ s) : Only pt s₀ (State.homeStart s) := by
  unfold State.homeStart
  try dsimp only
  repeat' first | (with_reducible first | assumption | apply State.specialStart_only h_mot h_drv | apply each_only | apply foldl_only) | intro _ _ _ | split | (refine Only.upd ?_ (.inr rfl) (.inr rfl) (.inr rfl) (.inr rfl) (.inr rfl) (.inl h_pos) (.inr rfl) (.inl h_mot) (.inl h_drv) (.inr rfl) (.inr rfl) (.inr rfl) (.inr rfl) (.inr rfl) (.inr rfl) (.inr rfl) (.inr rfl) (.inr rfl) (.inr rfl) (.inr rfl) (.inr rfl) (.inr rfl) (.inr rfl) (.inr rfl) (.inr rfl) (.inr rfl); try dsimp only)

theorem State.proofCycle_only {pt : Parts} (h_mot : pt.mot = true) {s₀ s : State} (h : Only pt s₀ s) (n : Nat) : Only pt s₀ (State.proofCycle s n) := by
  unfold State.proofCycle
  try dsimp only
  repeat' first | (with_reducible first | assumption  | apply each_only | apply foldl_only) | intro _ _ _ | split | (refine Only.upd ?_ (.inr rfl) (.inr rfl) (.inr rfl) (.inr rfl) (.inr rfl) (.inr rfl) (.inr rfl) (.inl h_mot) (.inr rfl) (.inr rfl) (.inr rfl) (.inr rfl) (.inr rfl) (.inr rfl) (.inr rfl) (.inr rfl) (.inr rfl) (.inr rfl) (.inr rfl) (.inr rfl) (.inr rfl) (.inr rfl) (.inr rfl) (.inr rfl) (.inr rfl) (.inr rfl); try dsimp only)

theorem State.specialTo_only {pt : Parts} (h_rf : pt.rf = true) (h_irqNow : pt.irqNow = true) (h_mot : pt.mot = true) (h_drv : pt.drv = true) {s₀ s : State} (h : Only pt s₀ s) (t : RunType) (n : Nat) (vel : Nat) : Only pt s₀ (State.specialTo s t n vel) := by
  unfold State.specialTo
  try dsimp only
  repeat' first | (with_reducible first | assumption | apply State.specialStart_only h_mot h_drv | apply State.motCommit_only h_rf h_irqNow h_mot | apply each_only | apply foldl_only) | intro _ _ _ | split | dsimp only

theorem State.recoverStart_only {pt : Parts} (h_rf : pt.rf = true) (h_irqNow : pt.irqNow = true) (h_mot : pt.mot = true) (h_drv : pt.drv = true) (h_el : pt.el = true) {s₀ s : State} (h : Only pt s₀ s) : Only pt s₀ (State.recoverStart s) := by
  unfold State.recoverStart
  try dsimp only
  repeat' first | (with_reducible first | assumption | apply State.specialTo_only h_rf h_irqNow h_mot h_drv | apply State.drvOff_only h_rf h_irqNow h_drv h_el | apply State.motLanded_only h_mot | apply State.raise_only h_rf h_irqNow | apply State.proofCycle_only h_mot | apply each_only | apply foldl_only) | intro _ _ _ | split | (refine Only.upd ?_ (.inr rfl) (.inr rfl) (.inr rfl) (.inl h_rf) (.inl h_irqNow) (.inr rfl) (.inr rfl) (.inl h_mot) (.inl h_drv) (.inr rfl) (.inr rfl) (.inr rfl) (.inr rfl) (.inl h_el) (.inr rfl) (.inr rfl) (.inr rfl) (.inr rfl) (.inr rfl) (.inr rfl) (.inr rfl) (.inr rfl) (.inr rfl) (.inr rfl) (.inr rfl) (.inr rfl); try dsimp only)

theorem State.relevStart_only {pt : Parts} (h_rf : pt.rf = true) (h_irqNow : pt.irqNow = true) (h_mot : pt.mot = true) (h_drv : pt.drv = true) (h_rcd : pt.rcd = true) {s₀ s : State} (h : Only pt s₀ s) : Only pt s₀ (State.relevStart s) := by
  unfold State.relevStart
  try dsimp only
  repeat' first | (with_reducible first | assumption | apply State.specialTo_only h_rf h_irqNow h_mot h_drv | apply State.rtEvent_only h_rf | apply State.fire_only h_rf h_irqNow h_rcd | apply each_only | apply foldl_only) | intro _ _ _ | split | (refine Only.upd ?_ (.inr rfl) (.inr rfl) (.inr rfl) (.inl h_rf) (.inl h_irqNow) (.inr rfl) (.inr rfl) (.inl h_mot) (.inl h_drv) (.inr rfl) (.inr rfl) (.inr rfl) (.inr rfl) (.inr rfl) (.inr rfl) (.inr rfl) (.inr rfl) (.inr rfl) (.inr rfl) (.inr rfl) (.inl h_rcd) (.inr rfl) (.inr rfl) (.inr rfl) (.inr rfl) (.inr rfl); try dsimp only)

theorem State.relevDecide_only {pt : Parts} (h_mot : pt.mot = true) {s₀ s : State} (h : Only pt s₀ s) : Only pt s₀ (State.relevDecide s) := by
  unfold State.relevDecide
  try dsimp only
  repeat' first | (with_reducible first | assumption  | apply each_only | apply foldl_only) | intro _ _ _ | split | (refine Only.upd ?_ (.inr rfl) (.inr rfl) (.inr rfl) (.inr rfl) (.inr rfl) (.inr rfl) (.inr rfl) (.inl h_mot) (.inr rfl) (.inr rfl) (.inr rfl) (.inr rfl) (.inr rfl) (.inr rfl) (.inr rfl) (.inr rfl) (.inr rfl) (.inr rfl) (.inr rfl) (.inr rfl) (.inr rfl) (.inr rfl) (.inr rfl) (.inr rfl) (.inr rfl) (.inr rfl); try dsimp only)

theorem State.relevBlock_only {pt : Parts} (h_rf : pt.rf = true) (h_mot : pt.mot = true) {s₀ s : State} (h : Only pt s₀ s) : Only pt s₀ (State.relevBlock s) := by
  unfold State.relevBlock
  try dsimp only
  repeat' first | (with_reducible first | assumption | apply State.rtEvent_only h_rf | apply each_only | apply foldl_only) | intro _ _ _ | split | (refine Only.upd ?_ (.inr rfl) (.inr rfl) (.inr rfl) (.inl h_rf) (.inr rfl) (.inr rfl) (.inr rfl) (.inl h_mot) (.inr rfl) (.inr rfl) (.inr rfl) (.inr rfl) (.inr rfl) (.inr rfl) (.inr rfl) (.inr rfl) (.inr rfl) (.inr rfl) (.inr rfl) (.inr rfl) (.inr rfl) (.inr rfl) (.inr rfl) (.inr rfl) (.inr rfl) (.inr rfl); try dsimp only)

theorem State.motReady_only {pt : Parts} (h_mot : pt.mot = true) {s₀ s : State} (h : Only pt s₀ s) : Only pt s₀ (State.motReady s) := by
  unfold State.motReady
  try dsimp only
  repeat' first | (with_reducible first | assumption | apply State.motSpeed_only h_mot | apply each_only | apply foldl_only) | intro _ _ _ | split | (refine Only.upd ?_ (.inr rfl) (.inr rfl) (.inr rfl) (.inr rfl) (.inr rfl) (.inr rfl) (.inr rfl) (.inl h_mot) (.inr rfl) (.inr rfl) (.inr rfl) (.inr rfl) (.inr rfl) (.inr rfl) (.inr rfl) (.inr rfl) (.inr rfl) (.inr rfl) (.inr rfl) (.inr rfl) (.inr rfl) (.inr rfl) (.inr rfl) (.inr rfl) (.inr rfl) (.inr rfl); try dsimp only)

theorem State.motReached_only {pt : Parts} (h_rf : pt.rf = true) (h_irqNow : pt.irqNow = true) (h_mot : pt.mot = true) {s₀ s : State} (h : Only pt s₀ s) : Only pt s₀ (State.motReached s) := by
  unfold State.motReached
  try dsimp only
  repeat' first | (with_reducible first | assumption | apply State.motLanded_only h_mot | apply State.raise_only h_rf h_irqNow | apply State.proofCycle_only h_mot | apply each_only | apply foldl_only) | intro _ _ _ | split | dsimp only

theorem State.motResolve_only {pt : Parts} (h_rf : pt.rf = true) (h_irqNow : pt.irqNow = true) (h_mot : pt.mot = true) {s₀ s : State} (h : Only pt s₀ s) : Only pt s₀ (State.motResolve s) := by
  unfold State.motResolve
  try dsimp only
  repeat' first | (with_reducible first | assumption | apply State.rtEvent_only h_rf | apply State.motIdleNow_only h_mot | apply State.motReached_only h_rf h_irqNow h_mot | apply State.spFollow_only h_mot | apply each_only | apply foldl_only) | intro _ _ _ | split | (refine Only.upd ?_ (.inr rfl) (.inr rfl) (.inr rfl) (.inl h_rf) (.inl h_irqNow) (.inr rfl) (.inr rfl) (.inl h_mot) (.inr rfl) (.inr rfl) (.inr rfl) (.inr rfl) (.inr rfl) (.inr rfl) (.inr rfl) (.inr rfl) (.inr rfl) (.inr rfl) (.inr rfl) (.inr rfl) (.inr rfl) (.inr rfl) (.inr rfl) (.inr rfl) (.inr rfl) (.inr rfl); try dsimp only)

theorem State.motBrakeApplied_only {pt : Parts} (h_mot : pt.mot = true) {s₀ s : State} (h : Only pt s₀ s) : Only pt s₀ (State.motBrakeApplied s) := by
  unfold State.motBrakeApplied
  try dsimp only
  repeat' first | (with_reducible first | assumption | apply State.motIdleNow_only h_mot | apply State.spFollow_only h_mot | apply each_only | apply foldl_only) | intro _ _ _ | split | (refine Only.upd ?_ (.inr rfl) (.inr rfl) (.inr rfl) (.inr rfl) (.inr rfl) (.inr rfl) (.inr rfl) (.inl h_mot) (.inr rfl) (.inr rfl) (.inr rfl) (.inr rfl) (.inr rfl) (.inr rfl) (.inr rfl) (.inr rfl) (.inr rfl) (.inr rfl) (.inr rfl) (.inr rfl) (.inr rfl) (.inr rfl) (.inr rfl) (.inr rfl) (.inr rfl) (.inr rfl); try dsimp only)

theorem State.drvDrop_only {pt : Parts} (h_drv : pt.drv = true) {s₀ s : State} (h : Only pt s₀ s) : Only pt s₀ (State.drvDrop s) := by
  unfold State.drvDrop
  try dsimp only
  repeat' first | (with_reducible first | assumption  | apply each_only | apply foldl_only) | intro _ _ _ | split | (refine Only.upd ?_ (.inr rfl) (.inr rfl) (.inr rfl) (.inr rfl) (.inr rfl) (.inr rfl) (.inr rfl) (.inr rfl) (.inl h_drv) (.inr rfl) (.inr rfl) (.inr rfl) (.inr rfl) (.inr rfl) (.inr rfl) (.inr rfl) (.inr rfl) (.inr rfl) (.inr rfl) (.inr rfl) (.inr rfl) (.inr rfl) (.inr rfl) (.inr rfl) (.inr rfl) (.inr rfl); try dsimp only)

theorem State.motRunDone_only {pt : Parts} (h_rf : pt.rf = true) (h_irqNow : pt.irqNow = true) (h_mot : pt.mot = true) (h_drv : pt.drv = true) {s₀ s : State} (h : Only pt s₀ s) : Only pt s₀ (State.motRunDone s) := by
  unfold State.motRunDone
  try dsimp only
  repeat' first | (with_reducible first | assumption | apply State.motReached_only h_rf h_irqNow h_mot | apply State.drvDrop_only h_drv | apply each_only | apply foldl_only) | intro _ _ _ | split | dsimp only

theorem State.spAdvance_only {pt : Parts} (h_mot : pt.mot = true) {s₀ s : State} (h : Only pt s₀ s) : Only pt s₀ (State.spAdvance s) := by
  unfold State.spAdvance
  try dsimp only
  repeat' first | (with_reducible first | assumption  | apply each_only | apply foldl_only) | intro _ _ _ | split | (refine Only.upd ?_ (.inr rfl) (.inr rfl) (.inr rfl) (.inr rfl) (.inr rfl) (.inr rfl) (.inr rfl) (.inl h_mot) (.inr rfl) (.inr rfl) (.inr rfl) (.inr rfl) (.inr rfl) (.inr rfl) (.inr rfl) (.inr rfl) (.inr rfl) (.inr rfl) (.inr rfl) (.inr rfl) (.inr rfl) (.inr rfl) (.inr rfl) (.inr rfl) (.inr rfl) (.inr rfl); try dsimp only)

theorem State.homeTravelled_only {pt : Parts} (h_mot : pt.mot = true) {s₀ s : State} (h : Only pt s₀ s) (x0 : Int) : Only pt s₀ (State.homeTravelled s x0) := by
  unfold State.homeTravelled
  try dsimp only
  repeat' first | (with_reducible first | assumption  | apply each_only | apply foldl_only) | intro _ _ _ | split | (refine Only.upd ?_ (.inr rfl) (.inr rfl) (.inr rfl) (.inr rfl) (.inr rfl) (.inr rfl) (.inr rfl) (.inl h_mot) (.inr rfl) (.inr rfl) (.inr rfl) (.inr rfl) (.inr rfl) (.inr rfl) (.inr rfl) (.inr rfl) (.inr rfl) (.inr rfl) (.inr rfl) (.inr rfl) (.inr rfl) (.inr rfl) (.inr rfl) (.inr rfl) (.inr rfl) (.inr rfl); try dsimp only)

theorem State.spSpecial_only {pt : Parts} (h_rf : pt.rf = true) (h_irqNow : pt.irqNow = true) (h_mot : pt.mot = true) {s₀ s : State} (h : Only pt s₀ s) : Only pt s₀ (State.spSpecial s) := by
  unfold State.spSpecial
  try dsimp only
  repeat' first | (with_reducible first | assumption | apply State.motSpeed_only h_mot | apply State.spAdvance_only h_mot | apply State.motStopRamp_only h_rf h_irqNow h_mot | apply each_only | apply foldl_only) | intro _ _ _ | split | (refine Only.upd ?_ (.inr rfl) (.inr rfl) (.inr rfl) (.inl h_rf) (.inl h_irqNow) (.inr rfl) (.inr rfl) (.inl h_mot) (.inr rfl) (.inr rfl) (.inr rfl) (.inr rfl) (.inr rfl) (.inr rfl) (.inr rfl) (.inr rfl) (.inr rfl) (.inr rfl) (.inr rfl) (.inr rfl) (.inr rfl) (.inr rfl) (.inr rfl) (.inr rfl) (.inr rfl) (.inr rfl); try dsimp only)

theorem State.motSetPoint_only {pt : Parts} (h_rf : pt.rf = true) (h_irqNow : pt.irqNow = true) (h_mot : pt.mot = true) {s₀ s : State} (h : Only pt s₀ s) : Only pt s₀ (State.motSetPoint s) := by
  unfold State.motSetPoint
  try dsimp only
  repeat' first | (with_reducible first | assumption | apply State.spFollow_only h_mot | apply State.commitStop_only h_rf h_irqNow h_mot | apply State.spAdvance_only h_mot | apply State.motStopRamp_only h_rf h_irqNow h_mot | apply State.spSpecial_only h_rf h_irqNow h_mot | apply State.homeTravelled_only h_mot | apply each_only | apply foldl_only) | intro _ _ _ | split | (refine Only.upd ?_ (.inr rfl) (.inr rfl) (.inr rfl) (.inl h_rf) (.inl h_irqNow) (.inr rfl) (.inr rfl) (.inl h_mot) (.inr rfl) (.inr rfl) (.inr rfl) (.inr rfl) (.inr rfl) (.inr rfl) (.inr rfl) (.inr rfl) (.inr rfl) (.inr rfl) (.inr rfl) (.inr rfl) (.inr rfl) (.inr rfl) (.inr rfl) (.inr rfl) (.inr rfl) (.inr rfl); try dsimp only)

theorem State.followNote_only {pt : Parts} (h_mot : pt.mot = true) {s₀ s : State} (h : Only pt s₀ s) : Only pt s₀ (State.followNote s) := by
  unfold State.followNote
  try dsimp only
  repeat' first | (with_reducible first | assumption  | apply each_only | apply foldl_only) | intro _ _ _ | split | (refine Only.upd ?_ (.inr rfl) (.inr rfl) (.inr rfl) (.inr rfl) (.inr rfl) (.inr rfl) (.inr rfl) (.inl h_mot) (.inr rfl) (.inr rfl) (.inr rfl) (.inr rfl) (.inr rfl) (.inr rfl) (.inr rfl) (.inr rfl) (.inr rfl) (.inr rfl) (.inr rfl) (.inr rfl) (.inr rfl) (.inr rfl) (.inr rfl) (.inr rfl) (.inr rfl) (.inr rfl); try dsimp only)

theorem State.captureEdges_only {pt : Parts} (h_pos : pt.pos = true) {s₀ s : State} (h : Only pt s₀ s) : Only pt s₀ (State.captureEdges s) := by
  unfold State.captureEdges
  try dsimp only
  repeat' first | (with_reducible first | assumption  | apply each_only | apply foldl_only) | intro _ _ _ | split | (refine Only.upd ?_ (.inr rfl) (.inr rfl) (.inr rfl) (.inr rfl) (.inr rfl) (.inl h_pos) (.inr rfl) (.inr rfl) (.inr rfl) (.inr rfl) (.inr rfl) (.inr rfl) (.inr rfl) (.inr rfl) (.inr rfl) (.inr rfl) (.inr rfl) (.inr rfl) (.inr rfl) (.inr rfl) (.inr rfl) (.inr rfl) (.inr rfl) (.inr rfl) (.inr rfl) (.inr rfl); try dsimp only)

theorem State.homeCapture_only {pt : Parts} (h_rf : pt.rf = true) (h_irqNow : pt.irqNow = true) (h_pos : pt.pos = true) (h_mot : pt.mot = true) (h_drv : pt.drv = true) (h_el : pt.el = true) (h_rcd : pt.rcd = true) {s₀ s0 : State} (h : Only pt s₀ s0) : Only pt s₀ (State.homeCapture s0) := by
  unfold State.homeCapture
  try dsimp only
  repeat' first | (with_reducible first | assumption | apply State.captureEdges_only h_pos | apply State.homeFail_only h_rf h_irqNow h_mot h_drv h_el h_rcd | apply State.rebase_only h_pos | apply State.setAbs_only h_rf h_irqNow h_pos h_mot | apply State.rtEvent_only h_rf | apply State.motCommit_only h_rf h_irqNow h_mot | apply each_only | apply foldl_only) | intro _ _ _ | split | (refine Only.upd ?_ (.inr rfl) (.inr rfl) (.inr rfl) (.inl h_rf) (.inl h_irqNow) (.inl h_pos) (.inr rfl) (.inl h_mot) (.inl h_drv) (.inr rfl) (.inr rfl) (.inr rfl) (.inr rfl) (.inl h_el) (.inr rfl) (.inr rfl) (.inr rfl) (.inr rfl) (.inr rfl) (.inr rfl) (.inl h_rcd) (.inr rfl) (.inr rfl) (.inr rfl) (.inr rfl) (.inr rfl); try dsimp only)

theorem State.homeEdge_only {pt : Parts} (h_pos : pt.pos = true) {s₀ s : State} (h : Only pt s₀ s) (c : Chan) (rising : Bool) (stampUs : Nat) : Only pt s₀ (State.homeEdge s c rising stampUs) := by
  unfold State.homeEdge
  try dsimp only
  repeat' first | (with_reducible first | assumption | apply State.setDz_only h_pos | apply each_only | apply foldl_only) | intro _ _ _ | split | (refine Only.upd ?_ (.inr rfl) (.inr rfl) (.inr rfl) (.inr rfl) (.inr rfl) (.inl h_pos) (.inr rfl) (.inr rfl) (.inr rfl) (.inr rfl) (.inr rfl) (.inr rfl) (.inr rfl) (.inr rfl) (.inr rfl) (.inr rfl) (.inr rfl) (.inr rfl) (.inr rfl) (.inr rfl) (.inr rfl) (.inr rfl) (.inr rfl) (.inr rfl) (.inr rfl) (.inr rfl); try dsimp only)

theorem State.homeChatter_only {pt : Parts} (h_rf : pt.rf = true) (h_irqNow : pt.irqNow = true) (h_mot : pt.mot = true) (h_drv : pt.drv = true) (h_el : pt.el = true) (h_rcd : pt.rcd = true) {s₀ s : State} (h : Only pt s₀ s) : Only pt s₀ (State.homeChatter s) := by
  unfold State.homeChatter
  try dsimp only
  repeat' first | (with_reducible first | assumption | apply State.homeFail_only h_rf h_irqNow h_mot h_drv h_el h_rcd | apply each_only | apply foldl_only) | intro _ _ _ | split | dsimp only

theorem State.motWaits_only {pt : Parts} (h_mot : pt.mot = true) {s₀ s : State} (h : Only pt s₀ s) : Only pt s₀ (State.motWaits s) := by
  unfold State.motWaits
  try dsimp only
  repeat' first | (with_reducible first | assumption  | apply each_only | apply foldl_only) | intro _ _ _ | split | (refine Only.upd ?_ (.inr rfl) (.inr rfl) (.inr rfl) (.inr rfl) (.inr rfl) (.inr rfl) (.inr rfl) (.inl h_mot) (.inr rfl) (.inr rfl) (.inr rfl) (.inr rfl) (.inr rfl) (.inr rfl) (.inr rfl) (.inr rfl) (.inr rfl) (.inr rfl) (.inr rfl) (.inr rfl) (.inr rfl) (.inr rfl) (.inr rfl) (.inr rfl) (.inr rfl) (.inr rfl); try dsimp only)

theorem State.landedTick_only {pt : Parts} (h_mot : pt.mot = true) {s₀ s : State} (h : Only pt s₀ s) : Only pt s₀ (State.landedTick s) := by
  unfold State.landedTick
  try dsimp only
  repeat' first | (with_reducible first | assumption | apply State.motIdleNow_only h_mot | apply each_only | apply foldl_only) | intro _ _ _ | split | dsimp only

theorem State.holdingEnd_only {pt : Parts} (h_drv : pt.drv = true) {s₀ s : State} (h : Only pt s₀ s) : Only pt s₀ (State.holdingEnd s) := by
  unfold State.holdingEnd
  try dsimp only
  repeat' first | (with_reducible first | assumption | apply State.drvDrop_only h_drv | apply each_only | apply foldl_only) | intro _ _ _ | split | (refine Only.upd ?_ (.inr rfl) (.inr rfl) (.inr rfl) (.inr rfl) (.inr rfl) (.inr rfl) (.inr rfl) (.inr rfl) (.inl h_drv) (.inr rfl) (.inr rfl) (.inr rfl) (.inr rfl) (.inr rfl) (.inr rfl) (.inr rfl) (.inr rfl) (.inr rfl) (.inr rfl) (.inr rfl) (.inr rfl) (.inr rfl) (.inr rfl) (.inr rfl) (.inr rfl) (.inr rfl); try dsimp only)

theorem State.proofStep_only {pt : Parts} (h_rf : pt.rf = true) (h_irqNow : pt.irqNow = true) (h_mot : pt.mot = true) (h_doorF : pt.doorF = true) (h_doorR : pt.doorR = true) {s₀ s : State} (h : Only pt s₀ s) : Only pt s₀ (State.proofStep s) := by
  unfold State.proofStep
  try dsimp only
  repeat' first | (with_reducible first | assumption | apply State.doorOpenAct_only h_rf h_irqNow h_doorF h_doorR | apply State.doorCloseAct_only h_rf h_irqNow h_doorF h_doorR | apply each_only | apply foldl_only) | intro _ _ _ | split | (refine Only.upd ?_ (.inr rfl) (.inr rfl) (.inr rfl) (.inl h_rf) (.inl h_irqNow) (.inr rfl) (.inr rfl) (.inl h_mot) (.inr rfl) (.inr rfl) (.inr rfl) (.inl h_doorF) (.inl h_doorR) (.inr rfl) (.inr rfl) (.inr rfl) (.inr rfl) (.inr rfl) (.inr rfl) (.inr rfl) (.inr rfl) (.inr rfl) (.inr rfl) (.inr rfl) (.inr rfl) (.inr rfl); try dsimp only)

theorem State.motReplan_only {pt : Parts} (h_mot : pt.mot = true) {s₀ s : State} (h : Only pt s₀ s) (b : Option (List Seg)) : Only pt s₀ (State.motReplan s b) := by
  unfold State.motReplan
  try dsimp only
  repeat' first | (with_reducible first | assumption | apply State.motSpeed_only h_mot | apply each_only | apply foldl_only) | intro _ _ _ | split | (refine Only.upd ?_ (.inr rfl) (.inr rfl) (.inr rfl) (.inr rfl) (.inr rfl) (.inr rfl) (.inr rfl) (.inl h_mot) (.inr rfl) (.inr rfl) (.inr rfl) (.inr rfl) (.inr rfl) (.inr rfl) (.inr rfl) (.inr rfl) (.inr rfl) (.inr rfl) (.inr rfl) (.inr rfl) (.inr rfl) (.inr rfl) (.inr rfl) (.inr rfl) (.inr rfl) (.inr rfl); try dsimp only)

theorem State.copyStaged_only {pt : Parts} (h_rf : pt.rf = true) {s₀ s : State} (h : Only pt s₀ s) : Only pt s₀ (State.copyStaged s) := by
  unfold State.copyStaged
  try dsimp only
  repeat' first | (with_reducible first | assumption | apply State.wr_only h_rf | apply each_only | apply foldl_only) | intro _ _ _ | split | dsimp only

theorem State.applyNow_only {pt : Parts} (h_rf : pt.rf = true) (h_irqNow : pt.irqNow = true) (h_mot : pt.mot = true) {s₀ s : State} (h : Only pt s₀ s) : Only pt s₀ (State.applyNow s) := by
  unfold State.applyNow
  try dsimp only
  repeat' first | (with_reducible first | assumption | apply State.copyStaged_only h_rf | apply State.motReplan_only h_mot | apply State.raise_only h_rf h_irqNow | apply each_only | apply foldl_only) | intro _ _ _ | split | (refine Only.upd ?_ (.inr rfl) (.inr rfl) (.inr rfl) (.inl h_rf) (.inl h_irqNow) (.inr rfl) (.inr rfl) (.inl h_mot) (.inr rfl) (.inr rfl) (.inr rfl) (.inr rfl) (.inr rfl) (.inr rfl) (.inr rfl) (.inr rfl) (.inr rfl) (.inr rfl) (.inr rfl) (.inr rfl) (.inr rfl) (.inr rfl) (.inr rfl) (.inr rfl) (.inr rfl) (.inr rfl); try dsimp only)

theorem State.capChange_only {pt : Parts} (h_rf : pt.rf = true) (h_irqNow : pt.irqNow = true) (h_mot : pt.mot = true) {s₀ s : State} (h : Only pt s₀ s) : Only pt s₀ (State.capChange s) := by
  unfold State.capChange
  try dsimp only
  repeat' first | (with_reducible first | assumption | apply State.raise_only h_rf h_irqNow | apply State.motReplan_only h_mot | apply each_only | apply foldl_only) | intro _ _ _ | split | (refine Only.upd ?_ (.inr rfl) (.inr rfl) (.inr rfl) (.inl h_rf) (.inl h_irqNow) (.inr rfl) (.inr rfl) (.inl h_mot) (.inr rfl) (.inr rfl) (.inr rfl) (.inr rfl) (.inr rfl) (.inr rfl) (.inr rfl) (.inr rfl) (.inr rfl) (.inr rfl) (.inr rfl) (.inr rfl) (.inr rfl) (.inr rfl) (.inr rfl) (.inr rfl) (.inr rfl) (.inr rfl); try dsimp only)

theorem State.trunNow_only {pt : Parts} (h_rf : pt.rf = true) (h_irqNow : pt.irqNow = true) (h_mot : pt.mot = true) {s₀ s : State} (h : Only pt s₀ s) : Only pt s₀ (State.trunNow s) := by
  unfold State.trunNow
  try dsimp only
  repeat' first | (with_reducible first | assumption | apply State.wr_only h_rf | apply State.raise_only h_rf h_irqNow | apply each_only | apply foldl_only) | intro _ _ _ | split | (refine Only.upd ?_ (.inr rfl) (.inr rfl) (.inr rfl) (.inl h_rf) (.inl h_irqNow) (.inr rfl) (.inr rfl) (.inl h_mot) (.inr rfl) (.inr rfl) (.inr rfl) (.inr rfl) (.inr rfl) (.inr rfl) (.inr rfl) (.inr rfl) (.inr rfl) (.inr rfl) (.inr rfl) (.inr rfl) (.inr rfl) (.inr rfl) (.inr rfl) (.inr rfl) (.inr rfl) (.inr rfl); try dsimp only)

theorem State.resumeNow_only {pt : Parts} (h_rf : pt.rf = true) (h_irqNow : pt.irqNow = true) (h_mot : pt.mot = true) (h_drv : pt.drv = true) (h_sch : pt.sch = true) {s₀ s : State} (h : Only pt s₀ s) : Only pt s₀ (State.resumeNow s) := by
  unfold State.resumeNow
  try dsimp only
  repeat' first | (with_reducible first | assumption | apply State.rtEvent_only h_rf | apply State.drvRequest_only h_drv | apply State.motReached_only h_rf h_irqNow h_mot | apply State.motCommit_only h_rf h_irqNow h_mot | apply each_only | apply foldl_only) | intro _ _ _ | split | (refine Only.upd ?_ (.inr rfl) (.inr rfl) (.inr rfl) (.inl h_rf) (.inl h_irqNow) (.inr rfl) (.inr rfl) (.inl h_mot) (.inl h_drv) (.inl h_sch) (.inr rfl) (.inr rfl) (.inr rfl) (.inr rfl) (.inr rfl) (.inr rfl) (.inr rfl) (.inr rfl) (.inr rfl) (.inr rfl) (.inr rfl) (.inr rfl) (.inr rfl) (.inr rfl) (.inr rfl) (.inr rfl); try dsimp only)

theorem State.abandonNow_only {pt : Parts} (h_mot : pt.mot = true) {s₀ s : State} (h : Only pt s₀ s) : Only pt s₀ (State.abandonNow s) := by
  unfold State.abandonNow
  try dsimp only
  repeat' first | (with_reducible first | assumption | apply State.motIdleNow_only h_mot | apply each_only | apply foldl_only) | intro _ _ _ | split | dsimp only

end Sys2Proof.Machine
end

