-- ==== Sys2Proof/Laws/OnlyDrvOps.lean ====
section
/-! SUPPORT. Which parts of the state the operations of Machine/DrvOps.lean leave the same. -/

set_option linter.unusedTactic false
set_option linter.unreachableTactic false

namespace Sys2Proof.Machine

theorem State.drvSetReady_only {pt : Parts} (h_rf : pt.rf = true) (h_irqNow : pt.irqNow = true) (h_drv : pt.drv = true) {s₀ s : State} (h : Only pt s₀ s) (r : Bool) : Only pt s₀ (State.drvSetReady s r) := by
  unfold State.drvSetReady
  try dsimp only
  repeat' first | (with_reducible first | assumption | apply State.raise_only h_rf h_irqNow | apply each_only | apply foldl_only) | intro _ _ _ | split | (refine Only.upd ?_ (.inr rfl) (.inr rfl) (.inr rfl) (.inl h_rf) (.inl h_irqNow) (.inr rfl) (.inr rfl) (.inr rfl) (.inl h_drv) (.inr rfl) (.inr rfl) (.inr rfl) (.inr rfl) (.inr rfl) (.inr rfl) (.inr rfl) (.inr rfl) (.inr rfl) (.inr rfl) (.inr rfl) (.inr rfl) (.inr rfl) (.inr rfl) (.inr rfl) (.inr rfl) (.inr rfl); try dsimp only)

theorem State.drvSetLink_only {pt : Parts} (h_rf : pt.rf = true) (h_irqNow : pt.irqNow = true) (h_drv : pt.drv = true) {s₀ s : State} (h : Only pt s₀ s) (u : Bool) : Only pt s₀ (State.drvSetLink s u) := by
  unfold State.drvSetLink
  try dsimp only
  repeat' first | (with_reducible first | assumption | apply State.raise_only h_rf h_irqNow | apply each_only | apply foldl_only) | intro _ _ _ | split | (refine Only.upd ?_ (.inr rfl) (.inr rfl) (.inr rfl) (.inl h_rf) (.inl h_irqNow) (.inr rfl) (.inr rfl) (.inr rfl) (.inl h_drv) (.inr rfl) (.inr rfl) (.inr rfl) (.inr rfl) (.inr rfl) (.inr rfl) (.inr rfl) (.inr rfl) (.inr rfl) (.inr rfl) (.inr rfl) (.inr rfl) (.inr rfl) (.inr rfl) (.inr rfl) (.inr rfl) (.inr rfl); try dsimp only)

theorem State.drvEnergise_only {pt : Parts} (h_drv : pt.drv = true) {s₀ s : State} (h : Only pt s₀ s) : Only pt s₀ (State.drvEnergise s) := by
  unfold State.drvEnergise
  try dsimp only
  repeat' first | (with_reducible first | assumption  | apply each_only | apply foldl_only) | intro _ _ _ | split | (refine Only.upd ?_ (.inr rfl) (.inr rfl) (.inr rfl) (.inr rfl) (.inr rfl) (.inr rfl) (.inr rfl) (.inr rfl) (.inl h_drv) (.inr rfl) (.inr rfl) (.inr rfl) (.inr rfl) (.inr rfl) (.inr rfl) (.inr rfl) (.inr rfl) (.inr rfl) (.inr rfl) (.inr rfl) (.inr rfl) (.inr rfl) (.inr rfl) (.inr rfl) (.inr rfl) (.inr rfl); try dsimp only)

theorem State.drvCheckReady_only {pt : Parts} (h_rf : pt.rf = true) (h_drv : pt.drv = true) {s₀ s : State} (h : Only pt s₀ s) : Only pt s₀ (State.drvCheckReady s) := by
  unfold State.drvCheckReady
  try dsimp only
  repeat' first | (with_reducible first | assumption | apply State.drvEnergise_only h_drv | apply State.wr_only h_rf | apply each_only | apply foldl_only) | intro _ _ _ | split | (refine Only.upd ?_ (.inr rfl) (.inr rfl) (.inr rfl) (.inl h_rf) (.inr rfl) (.inr rfl) (.inr rfl) (.inr rfl) (.inl h_drv) (.inr rfl) (.inr rfl) (.inr rfl) (.inr rfl) (.inr rfl) (.inr rfl) (.inr rfl) (.inr rfl) (.inr rfl) (.inr rfl) (.inr rfl) (.inr rfl) (.inr rfl) (.inr rfl) (.inr rfl) (.inr rfl) (.inr rfl); try dsimp only)

theorem State.drvFault_only {pt : Parts} (h_rf : pt.rf = true) (h_irqNow : pt.irqNow = true) (h_pos : pt.pos = true) (h_lwb : pt.lwb = true) (h_mot : pt.mot = true) (h_drv : pt.drv = true) (h_doorF : pt.doorF = true) (h_doorR : pt.doorR = true) (h_el : pt.el = true) (h_can : pt.can = true) (h_part : pt.part = true) (h_rcd : pt.rcd = true) {s₀ s : State} (h : Only pt s₀ s) (status : Nat) : Only pt s₀ (State.drvFault s status) := by
  unfold State.drvFault
  try dsimp only
  repeat' first | (with_reducible first | assumption | apply State.wn_only h_rf | apply State.raise_only h_rf h_irqNow | apply State.fire_only h_rf h_irqNow h_rcd | apply State.tripModule_only h_rf h_irqNow h_pos h_lwb h_mot h_drv h_doorF h_doorR h_el h_can h_part h_rcd | apply each_only | apply foldl_only) | intro _ _ _ | split | (refine Only.upd ?_ (.inr rfl) (.inr rfl) (.inr rfl) (.inl h_rf) (.inl h_irqNow) (.inl h_pos) (.inl h_lwb) (.inl h_mot) (.inl h_drv) (.inr rfl) (.inr rfl) (.inl h_doorF) (.inl h_doorR) (.inl h_el) (.inr rfl) (.inl h_can) (.inr rfl) (.inr rfl) (.inr rfl) (.inl h_part) (.inl h_rcd) (.inr rfl) (.inr rfl) (.inr rfl) (.inr rfl) (.inr rfl); try dsimp only)

theorem State.drvStatusIn_only {pt : Parts} (h_rf : pt.rf = true) (h_irqNow : pt.irqNow = true) (h_pos : pt.pos = true) (h_lwb : pt.lwb = true) (h_mot : pt.mot = true) (h_drv : pt.drv = true) (h_doorF : pt.doorF = true) (h_doorR : pt.doorR = true) (h_el : pt.el = true) (h_can : pt.can = true) (h_part : pt.part = true) (h_rcd : pt.rcd = true) {s₀ s : State} (h : Only pt s₀ s) (status : Nat) (ready : Bool) (fault : Bool) : Only pt s₀ (State.drvStatusIn s status ready fault) := by
  unfold State.drvStatusIn
  try dsimp only
  repeat' first | (with_reducible first | assumption | apply State.wn_only h_rf | apply State.drvSetReady_only h_rf h_irqNow h_drv | apply State.drvFault_only h_rf h_irqNow h_pos h_lwb h_mot h_drv h_doorF h_doorR h_el h_can h_part h_rcd | apply State.drvCheckReady_only h_rf h_drv | apply each_only | apply foldl_only) | intro _ _ _ | split | dsimp only

theorem State.linkSend_only {pt : Parts} (h_drv : pt.drv = true) {s₀ s : State} (h : Only pt s₀ s) : Only pt s₀ (State.linkSend s) := by
  unfold State.linkSend
  try dsimp only
  repeat' first | (with_reducible first | assumption  | apply each_only | apply foldl_only) | intro _ _ _ | split | (refine Only.upd ?_ (.inr rfl) (.inr rfl) (.inr rfl) (.inr rfl) (.inr rfl) (.inr rfl) (.inr rfl) (.inr rfl) (.inl h_drv) (.inr rfl) (.inr rfl) (.inr rfl) (.inr rfl) (.inr rfl) (.inr rfl) (.inr rfl) (.inr rfl) (.inr rfl) (.inr rfl) (.inr rfl) (.inr rfl) (.inr rfl) (.inr rfl) (.inr rfl) (.inr rfl) (.inr rfl); try dsimp only)

theorem State.linkCheck_only {pt : Parts} (h_rf : pt.rf = true) (h_irqNow : pt.irqNow = true) (h_drv : pt.drv = true) {s₀ s : State} (h : Only pt s₀ s) (ok : Bool) : Only pt s₀ (State.linkCheck s ok) := by
  unfold State.linkCheck
  try dsimp only
  repeat' first | (with_reducible first | assumption | apply State.drvSetLink_only h_rf h_irqNow h_drv | apply each_only | apply foldl_only) | intro _ _ _ | split | (refine Only.upd ?_ (.inr rfl) (.inr rfl) (.inr rfl) (.inl h_rf) (.inl h_irqNow) (.inr rfl) (.inr rfl) (.inr rfl) (.inl h_drv) (.inr rfl) (.inr rfl) (.inr rfl) (.inr rfl) (.inr rfl) (.inr rfl) (.inr rfl) (.inr rfl) (.inr rfl) (.inr rfl) (.inr rfl) (.inr rfl) (.inr rfl) (.inr rfl) (.inr rfl) (.inr rfl) (.inr rfl); try dsimp only)

theorem State.linkResponse_only {pt : Parts} (h_rf : pt.rf = true) (h_irqNow : pt.irqNow = true) (h_pos : pt.pos = true) (h_lwb : pt.lwb = true) (h_mot : pt.mot = true) (h_drv : pt.drv = true) (h_doorF : pt.doorF = true) (h_doorR : pt.doorR = true) (h_el : pt.el = true) (h_can : pt.can = true) (h_part : pt.part = true) (h_rcd : pt.rcd = true) {s₀ s : State} (h : Only pt s₀ s) (l : List Byte) (delimNs : Nat) (endNs : Nat) : Only pt s₀ (State.linkResponse s l delimNs endNs) := by
  unfold State.linkResponse
  try dsimp only
  repeat' first | (with_reducible first | assumption | apply State.bump_only h_rf | apply State.wi_only h_rf | apply State.wn_only h_rf | apply State.drvStatusIn_only h_rf h_irqNow h_pos h_lwb h_mot h_drv h_doorF h_doorR h_el h_can h_part h_rcd | apply each_only | apply foldl_only) | intro _ _ _ | split | (refine Only.upd ?_ (.inr rfl) (.inr rfl) (.inr rfl) (.inl h_rf) (.inl h_irqNow) (.inl h_pos) (.inl h_lwb) (.inl h_mot) (.inl h_drv) (.inr rfl) (.inr rfl) (.inl h_doorF) (.inl h_doorR) (.inl h_el) (.inr rfl) (.inl h_can) (.inr rfl) (.inr rfl) (.inr rfl) (.inl h_part) (.inl h_rcd) (.inr rfl) (.inr rfl) (.inr rfl) (.inr rfl) (.inr rfl); try dsimp only)

theorem State.drvAbandon_only {pt : Parts} (h_rf : pt.rf = true) (h_irqNow : pt.irqNow = true) (h_drv : pt.drv = true) (h_can : pt.can = true) {s₀ s : State} (h : Only pt s₀ s) : Only pt s₀ (State.drvAbandon s) := by
  unfold State.drvAbandon
  try dsimp only
  repeat' first | (with_reducible first | assumption | apply State.canAbort_only h_rf h_irqNow h_can | apply each_only | apply foldl_only) | intro _ _ _ | split | (refine Only.upd ?_ (.inr rfl) (.inr rfl) (.inr rfl) (.inl h_rf) (.inl h_irqNow) (.inr rfl) (.inr rfl) (.inr rfl) (.inl h_drv) (.inr rfl) (.inr rfl) (.inr rfl) (.inr rfl) (.inr rfl) (.inr rfl) (.inl h_can) (.inr rfl) (.inr rfl) (.inr rfl) (.inr rfl) (.inr rfl) (.inr rfl) (.inr rfl) (.inr rfl) (.inr rfl) (.inr rfl); try dsimp only)

theorem State.watchdogNow_only {pt : Parts} (h_rf : pt.rf = true) (h_irqNow : pt.irqNow = true) (h_pos : pt.pos = true) (h_lwb : pt.lwb = true) (h_mot : pt.mot = true) (h_drv : pt.drv = true) (h_doorF : pt.doorF = true) (h_doorR : pt.doorR = true) (h_el : pt.el = true) (h_can : pt.can = true) (h_part : pt.part = true) (h_rcd : pt.rcd = true) {s₀ s : State} (h : Only pt s₀ s) : Only pt s₀ (State.watchdogNow s) := by
  unfold State.watchdogNow
  try dsimp only
  repeat' first | (with_reducible first | assumption | apply State.raise_only h_rf h_irqNow | apply State.fire_only h_rf h_irqNow h_rcd | apply State.tripModule_only h_rf h_irqNow h_pos h_lwb h_mot h_drv h_doorF h_doorR h_el h_can h_part h_rcd | apply State.drvOff_only h_rf h_irqNow h_drv h_el | apply State.drvAbandon_only h_rf h_irqNow h_drv h_can | apply each_only | apply foldl_only) | intro _ _ _ | split | (refine Only.upd ?_ (.inr rfl) (.inr rfl) (.inr rfl) (.inl h_rf) (.inl h_irqNow) (.inl h_pos) (.inl h_lwb) (.inl h_mot) (.inl h_drv) (.inr rfl) (.inr rfl) (.inl h_doorF) (.inl h_doorR) (.inl h_el) (.inr rfl) (.inl h_can) (.inr rfl) (.inr rfl) (.inr rfl) (.inl h_part) (.inl h_rcd) (.inr rfl) (.inr rfl) (.inr rfl) (.inr rfl) (.inr rfl); try dsimp only)

theorem State.drvCheck_only {pt : Parts} (h_rf : pt.rf = true) (h_irqNow : pt.irqNow = true) (h_drv : pt.drv = true) {s₀ s : State} (h : Only pt s₀ s) : Only pt s₀ (State.drvCheck s) := by
  unfold State.drvCheck
  try dsimp only
  repeat' first | (with_reducible first | assumption | apply State.bump_only h_rf | apply State.linkCheck_only h_rf h_irqNow h_drv | apply State.drvSetReady_only h_rf h_irqNow h_drv | apply each_only | apply foldl_only) | intro _ _ _ | split | (refine Only.upd ?_ (.inr rfl) (.inr rfl) (.inr rfl) (.inl h_rf) (.inl h_irqNow) (.inr rfl) (.inr rfl) (.inr rfl) (.inl h_drv) (.inr rfl) (.inr rfl) (.inr rfl) (.inr rfl) (.inr rfl) (.inr rfl) (.inr rfl) (.inr rfl) (.inr rfl) (.inr rfl) (.inr rfl) (.inr rfl) (.inr rfl) (.inr rfl) (.inr rfl) (.inr rfl) (.inr rfl); try dsimp only)

theorem State.drvWatch_only {pt : Parts} (h_rf : pt.rf = true) (h_irqNow : pt.irqNow = true) (h_pos : pt.pos = true) (h_lwb : pt.lwb = true) (h_mot : pt.mot = true) (h_drv : pt.drv = true) (h_doorF : pt.doorF = true) (h_doorR : pt.doorR = true) (h_el : pt.el = true) (h_can : pt.can = true) (h_part : pt.part = true) (h_rcd : pt.rcd = true) {s₀ s : State} (h : Only pt s₀ s) : Only pt s₀ (State.drvWatch s) := by
  unfold State.drvWatch
  try dsimp only
  repeat' first | (with_reducible first | assumption | apply State.drvCheck_only h_rf h_irqNow h_drv | apply State.watchdogNow_only h_rf h_irqNow h_pos h_lwb h_mot h_drv h_doorF h_doorR h_el h_can h_part h_rcd | apply each_only | apply foldl_only) | intro _ _ _ | split | dsimp only

theorem State.rdyCount_only {pt : Parts} (h_drv : pt.drv = true) {s₀ s : State} (h : Only pt s₀ s) : Only pt s₀ (State.rdyCount s) := by
  unfold State.rdyCount
  try dsimp only
  repeat' first | (with_reducible first | assumption  | apply each_only | apply foldl_only) | intro _ _ _ | split | (refine Only.upd ?_ (.inr rfl) (.inr rfl) (.inr rfl) (.inr rfl) (.inr rfl) (.inr rfl) (.inr rfl) (.inr rfl) (.inl h_drv) (.inr rfl) (.inr rfl) (.inr rfl) (.inr rfl) (.inr rfl) (.inr rfl) (.inr rfl) (.inr rfl) (.inr rfl) (.inr rfl) (.inr rfl) (.inr rfl) (.inr rfl) (.inr rfl) (.inr rfl) (.inr rfl) (.inr rfl); try dsimp only)

theorem State.linkFinish_only {pt : Parts} (h_rf : pt.rf = true) (h_irqNow : pt.irqNow = true) (h_pos : pt.pos = true) (h_lwb : pt.lwb = true) (h_mot : pt.mot = true) (h_drv : pt.drv = true) (h_doorF : pt.doorF = true) (h_doorR : pt.doorR = true) (h_el : pt.el = true) (h_can : pt.can = true) (h_part : pt.part = true) (h_rcd : pt.rcd = true) {s₀ s : State} (h : Only pt s₀ s) : Only pt s₀ (State.linkFinish s) := by
  unfold State.linkFinish
  try dsimp only
  repeat' first | (with_reducible first | assumption | apply State.rdyCount_only h_drv | apply State.drvWatch_only h_rf h_irqNow h_pos h_lwb h_mot h_drv h_doorF h_doorR h_el h_can h_part h_rcd | apply each_only | apply foldl_only) | intro _ _ _ | split | dsimp only

theorem State.ciaSync_only {pt : Parts} (h_rf : pt.rf = true) (h_irqNow : pt.irqNow = true) (h_drv : pt.drv = true) (h_can : pt.can = true) {s₀ s : State} (h : Only pt s₀ s) : Only pt s₀ (State.ciaSync s) := by
  unfold State.ciaSync
  try dsimp only
  repeat' first | (with_reducible first | assumption | apply State.canAbort_only h_rf h_irqNow h_can | apply State.canSend_only h_rf h_irqNow h_can | apply each_only | apply foldl_only) | intro _ _ _ | split | (refine Only.upd ?_ (.inr rfl) (.inr rfl) (.inr rfl) (.inl h_rf) (.inl h_irqNow) (.inr rfl) (.inr rfl) (.inr rfl) (.inl h_drv) (.inr rfl) (.inr rfl) (.inr rfl) (.inr rfl) (.inr rfl) (.inr rfl) (.inl h_can) (.inr rfl) (.inr rfl) (.inr rfl) (.inr rfl) (.inr rfl) (.inr rfl) (.inr rfl) (.inr rfl) (.inr rfl) (.inr rfl); try dsimp only)

theorem State.ciaTpdoIn_only {pt : Parts} (h_rf : pt.rf = true) (h_irqNow : pt.irqNow = true) (h_pos : pt.pos = true) (h_lwb : pt.lwb = true) (h_mot : pt.mot = true) (h_drv : pt.drv = true) (h_doorF : pt.doorF = true) (h_doorR : pt.doorR = true) (h_el : pt.el = true) (h_can : pt.can = true) (h_part : pt.part = true) (h_rcd : pt.rcd = true) {s₀ s : State} (h : Only pt s₀ s) (sw : Nat) (pos : Word) (sofUs : Nat) : Only pt s₀ (State.ciaTpdoIn s sw pos sofUs) := by
  unfold State.ciaTpdoIn
  try dsimp only
  repeat' first | (with_reducible first | assumption | apply State.wi_only h_rf | apply State.drvStatusIn_only h_rf h_irqNow h_pos h_lwb h_mot h_drv h_doorF h_doorR h_el h_can h_part h_rcd | apply each_only | apply foldl_only) | intro _ _ _ | split | (refine Only.upd ?_ (.inr rfl) (.inr rfl) (.inr rfl) (.inl h_rf) (.inl h_irqNow) (.inl h_pos) (.inl h_lwb) (.inl h_mot) (.inl h_drv) (.inr rfl) (.inr rfl) (.inl h_doorF) (.inl h_doorR) (.inl h_el) (.inr rfl) (.inl h_can) (.inr rfl) (.inr rfl) (.inr rfl) (.inl h_part) (.inl h_rcd) (.inr rfl) (.inr rfl) (.inr rfl) (.inr rfl) (.inr rfl); try dsimp only)

theorem State.analogOut_only {pt : Parts} (h_rf : pt.rf = true) {s₀ s : State} (h : Only pt s₀ s) : Only pt s₀ (State.analogOut s) := by
  unfold State.analogOut
  try dsimp only
  repeat' first | (with_reducible first | assumption | apply State.wi_only h_rf | apply each_only | apply foldl_only) | intro _ _ _ | split | dsimp only

theorem State.analogStep_only {pt : Parts} (h_drv : pt.drv = true) {s₀ s : State} (h : Only pt s₀ s) : Only pt s₀ (State.analogStep s) := by
  unfold State.analogStep
  try dsimp only
  repeat' first | (with_reducible first | assumption  | apply each_only | apply foldl_only) | intro _ _ _ | split | (refine Only.upd ?_ (.inr rfl) (.inr rfl) (.inr rfl) (.inr rfl) (.inr rfl) (.inr rfl) (.inr rfl) (.inr rfl) (.inl h_drv) (.inr rfl) (.inr rfl) (.inr rfl) (.inr rfl) (.inr rfl) (.inr rfl) (.inr rfl) (.inr rfl) (.inr rfl) (.inr rfl) (.inr rfl) (.inr rfl) (.inr rfl) (.inr rfl) (.inr rfl) (.inr rfl) (.inr rfl); try dsimp only)

theorem State.stepStep_only {pt : Parts} (h_drv : pt.drv = true) {s₀ s : State} (h : Only pt s₀ s) : Only pt s₀ (State.stepStep s) := by
  unfold State.stepStep
  try dsimp only
  repeat' first | (with_reducible first | assumption  | apply each_only | apply foldl_only) | intro _ _ _ | split | (refine Only.upd ?_ (.inr rfl) (.inr rfl) (.inr rfl) (.inr rfl) (.inr rfl) (.inr rfl) (.inr rfl) (.inr rfl) (.inl h_drv) (.inr rfl) (.inr rfl) (.inr rfl) (.inr rfl) (.inr rfl) (.inr rfl) (.inr rfl) (.inr rfl) (.inr rfl) (.inr rfl) (.inr rfl) (.inr rfl) (.inr rfl) (.inr rfl) (.inr rfl) (.inr rfl) (.inr rfl); try dsimp only)

theorem State.legacyTick_only {pt : Parts} (h_rf : pt.rf = true) (h_irqNow : pt.irqNow = true) (h_drv : pt.drv = true) {s₀ s : State} (h : Only pt s₀ s) : Only pt s₀ (State.legacyTick s) := by
  unfold State.legacyTick
  try dsimp only
  repeat' first | (with_reducible first | assumption | apply State.drvSetLink_only h_rf h_irqNow h_drv | apply State.drvSetReady_only h_rf h_irqNow h_drv | apply each_only | apply foldl_only) | intro _ _ _ | split | dsimp only

theorem State.drvPeriod_only {pt : Parts} (h_rf : pt.rf = true) (h_irqNow : pt.irqNow = true) (h_drv : pt.drv = true) {s₀ s : State} (h : Only pt s₀ s) : Only pt s₀ (State.drvPeriod s) := by
  unfold State.drvPeriod
  try dsimp only
  repeat' first | (with_reducible first | assumption | apply State.linkSend_only h_drv | apply State.analogStep_only h_drv | apply State.stepStep_only h_drv | apply State.legacyTick_only h_rf h_irqNow h_drv | apply State.drvCheckReady_only h_rf h_drv | apply each_only | apply foldl_only) | intro _ _ _ | split | (refine Only.upd ?_ (.inr rfl) (.inr rfl) (.inr rfl) (.inl h_rf) (.inl h_irqNow) (.inr rfl) (.inr rfl) (.inr rfl) (.inl h_drv) (.inr rfl) (.inr rfl) (.inr rfl) (.inr rfl) (.inr rfl) (.inr rfl) (.inr rfl) (.inr rfl) (.inr rfl) (.inr rfl) (.inr rfl) (.inr rfl) (.inr rfl) (.inr rfl) (.inr rfl) (.inr rfl) (.inr rfl); try dsimp only)

theorem State.readyTimeout_only {pt : Parts} (h_rf : pt.rf = true) (h_irqNow : pt.irqNow = true) (h_drv : pt.drv = true) (h_el : pt.el = true) {s₀ s : State} (h : Only pt s₀ s) : Only pt s₀ (State.readyTimeout s) := by
  unfold State.readyTimeout
  try dsimp only
  repeat' first | (with_reducible first | assumption | apply State.drvOff_only h_rf h_irqNow h_drv h_el | apply State.raise_only h_rf h_irqNow | apply each_only | apply foldl_only) | intro _ _ _ | split | (refine Only.upd ?_ (.inr rfl) (.inr rfl) (.inr rfl) (.inl h_rf) (.inl h_irqNow) (.inr rfl) (.inr rfl) (.inr rfl) (.inl h_drv) (.inr rfl) (.inr rfl) (.inr rfl) (.inr rfl) (.inl h_el) (.inr rfl) (.inr rfl) (.inr rfl) (.inr rfl) (.inr rfl) (.inr rfl) (.inr rfl) (.inr rfl) (.inr rfl) (.inr rfl) (.inr rfl) (.inr rfl); try dsimp only)

theorem State.preloadDone_only {pt : Parts} (h_drv : pt.drv = true) {s₀ s : State} (h : Only pt s₀ s) : Only pt s₀ (State.preloadDone s) := by
  unfold State.preloadDone
  try dsimp only
  repeat' first | (with_reducible first | assumption  | apply each_only | apply foldl_only) | intro _ _ _ | split | (refine Only.upd ?_ (.inr rfl) (.inr rfl) (.inr rfl) (.inr rfl) (.inr rfl) (.inr rfl) (.inr rfl) (.inr rfl) (.inl h_drv) (.inr rfl) (.inr rfl) (.inr rfl) (.inr rfl) (.inr rfl) (.inr rfl) (.inr rfl) (.inr rfl) (.inr rfl) (.inr rfl) (.inr rfl) (.inr rfl) (.inr rfl) (.inr rfl) (.inr rfl) (.inr rfl) (.inr rfl); try dsimp only)

theorem State.brakeLifted_only {pt : Parts} (h_mot : pt.mot = true) (h_drv : pt.drv = true) {s₀ s : State} (h : Only pt s₀ s) : Only pt s₀ (State.brakeLifted s) := by
  unfold State.brakeLifted
  try dsimp only
  repeat' first | (with_reducible first | assumption | apply State.motReady_only h_mot | apply each_only | apply foldl_only) | intro _ _ _ | split | (refine Only.upd ?_ (.inr rfl) (.inr rfl) (.inr rfl) (.inr rfl) (.inr rfl) (.inr rfl) (.inr rfl) (.inl h_mot) (.inl h_drv) (.inr rfl) (.inr rfl) (.inr rfl) (.inr rfl) (.inr rfl) (.inr rfl) (.inr rfl) (.inr rfl) (.inr rfl) (.inr rfl) (.inr rfl) (.inr rfl) (.inr rfl) (.inr rfl) (.inr rfl) (.inr rfl) (.inr rfl); try dsimp only)

theorem State.brakeDropped_only {pt : Parts} (h_rf : pt.rf = true) (h_irqNow : pt.irqNow = true) (h_mot : pt.mot = true) (h_drv : pt.drv = true) (h_el : pt.el = true) {s₀ s : State} (h : Only pt s₀ s) : Only pt s₀ (State.brakeDropped s) := by
  unfold State.brakeDropped
  try dsimp only
  repeat' first | (with_reducible first | assumption | apply State.drvOff_only h_rf h_irqNow h_drv h_el | apply State.motBrakeApplied_only h_mot | apply each_only | apply foldl_only) | intro _ _ _ | split | dsimp only

theorem State.faultReset_only {pt : Parts} (h_drv : pt.drv = true) {s₀ s : State} (h : Only pt s₀ s) : Only pt s₀ (State.faultReset s) := by
  unfold State.faultReset
  try dsimp only
  repeat' first | (with_reducible first | assumption  | apply each_only | apply foldl_only) | intro _ _ _ | split | (refine Only.upd ?_ (.inr rfl) (.inr rfl) (.inr rfl) (.inr rfl) (.inr rfl) (.inr rfl) (.inr rfl) (.inr rfl) (.inl h_drv) (.inr rfl) (.inr rfl) (.inr rfl) (.inr rfl) (.inr rfl) (.inr rfl) (.inr rfl) (.inr rfl) (.inr rfl) (.inr rfl) (.inr rfl) (.inr rfl) (.inr rfl) (.inr rfl) (.inr rfl) (.inr rfl) (.inr rfl); try dsimp only)

theorem State.relevGrantEnds_only {pt : Parts} (h_rf : pt.rf = true) (h_irqNow : pt.irqNow = true) (h_drv : pt.drv = true) (h_el : pt.el = true) {s₀ s : State} (h : Only pt s₀ s) : Only pt s₀ (State.relevGrantEnds s) := by
  unfold State.relevGrantEnds
  try dsimp only
  repeat' first | (with_reducible first | assumption | apply State.drvOff_only h_rf h_irqNow h_drv h_el | apply each_only | apply foldl_only) | intro _ _ _ | split | dsimp only

end Sys2Proof.Machine
end

