-- ==== Sys2Proof/Laws/OnlySchOps.lean ====
section
/-! SUPPORT. Which parts of the state the operations of Machine/SchOps.lean leave the same. -/

set_option linter.unusedTactic false
set_option linter.unreachableTactic false

namespace Sys2Proof.Machine

theorem State.passedNote_only {pt : Parts} (h_rf : pt.rf = true) (h_irqNow : pt.irqNow = true) {s₀ s : State} (h : Only pt s₀ s) (n : Nat) (kinds : Nat) : Only pt s₀ (State.passedNote s n kinds) := by
  unfold State.passedNote
  try dsimp only
  repeat' first | (with_reducible first | assumption | apply State.wr_only h_rf | apply State.raise_only h_rf h_irqNow | apply each_only | apply foldl_only) | intro _ _ _ | split | dsimp only

theorem State.evalWalk_only {pt : Parts} (h_rf : pt.rf = true) (h_irqNow : pt.irqNow = true) (h_sch : pt.sch = true) {s₀ : State} (f : Nat) (l : List Nat) :
    ∀ {s : State}, Only pt s₀ s → Only pt s₀ (State.evalWalk s f l).1 := by
  induction l with
  | nil => intro s h; exact h
  | cons n r ih =>
    intro s h
    unfold State.evalWalk
    dsimp only
    split
    · split
      · exact h
      · exact ih h
    · split
      · exact h
      · have ht : Only pt s₀ (if s.sch.passed.contains n then s
            else (({ s with sch := { s.sch with passed := setIns s.sch.passed n } }).passedNote n (kindsOf (s.callsAt n s.mot.up (n == f))))) := by
          split
          · exact h
          · apply State.passedNote_only h_rf h_irqNow 
            refine Only.upd ?_ (.inr rfl) (.inr rfl) (.inr rfl) (.inl h_rf) (.inl h_irqNow) (.inr rfl) (.inr rfl) (.inr rfl) (.inr rfl) (.inl h_sch) (.inr rfl) (.inr rfl) (.inr rfl) (.inr rfl) (.inr rfl) (.inr rfl) (.inr rfl) (.inr rfl) (.inr rfl) (.inr rfl) (.inr rfl) (.inr rfl) (.inr rfl) (.inr rfl) (.inr rfl) (.inr rfl)
            exact h
        split
        · exact ht
        · exact ih ht

theorem State.stopEval_only {pt : Parts} (h_rf : pt.rf = true) (h_irqNow : pt.irqNow = true) (h_mot : pt.mot = true) (h_sch : pt.sch = true) {s₀ : State} {s : State} (h : Only pt s₀ s) : Only pt s₀ (State.stopEval s) := by
  unfold State.stopEval
  split
  · exact h
  · extract_lets p ahead q t nocall cand c0 u v
    have hq : Only pt s₀ t := by
      show Only pt s₀ (match s.farCall p s.mot.up [] with
        | none => (s, none)
        | some f => s.evalWalk f ahead).1
      split
      · exact h
      · exact State.evalWalk_only h_rf h_irqNow h_sch _ _ h
    have hu : Only pt s₀ u := by
      refine Only.upd ?_ (.inr rfl) (.inr rfl) (.inr rfl) (.inl h_rf) (.inl h_irqNow) (.inr rfl) (.inr rfl) (.inl h_mot) (.inr rfl) (.inl h_sch) (.inr rfl) (.inr rfl) (.inr rfl) (.inr rfl) (.inr rfl) (.inr rfl) (.inr rfl) (.inr rfl) (.inr rfl) (.inr rfl) (.inr rfl) (.inr rfl) (.inr rfl) (.inr rfl) (.inr rfl) (.inr rfl)
      exact hq
    have hv : Only pt s₀ v := by
      show Only pt s₀ (if s.sch.cand = cand then u else u.raise pgSch 1)
      split
      · exact hu
      · exact State.raise_only h_rf h_irqNow hu _ _
    clear_value v cand
    cases cand with
    | none => exact hv
    | some n =>
      dsimp only
      split
      · exact State.commitStop_only h_rf h_irqNow h_mot hv _ _
      · exact hv

theorem State.nocallNote_only {pt : Parts} (h_sch : pt.sch = true) {s₀ s : State} (h : Only pt s₀ s) : Only pt s₀ (State.nocallNote s) := by
  unfold State.nocallNote
  try dsimp only
  repeat' first | (with_reducible first | assumption  | apply each_only | apply foldl_only) | intro _ _ _ | split | (refine Only.upd ?_ (.inr rfl) (.inr rfl) (.inr rfl) (.inr rfl) (.inr rfl) (.inr rfl) (.inr rfl) (.inr rfl) (.inr rfl) (.inl h_sch) (.inr rfl) (.inr rfl) (.inr rfl) (.inr rfl) (.inr rfl) (.inr rfl) (.inr rfl) (.inr rfl) (.inr rfl) (.inr rfl) (.inr rfl) (.inr rfl) (.inr rfl) (.inr rfl) (.inr rfl) (.inr rfl); try dsimp only)

theorem State.bidPush_only {pt : Parts} (h_rf : pt.rf = true) (h_irqNow : pt.irqNow = true) (h_bid : pt.bid = true) {s₀ s : State} (h : Only pt s₀ s) (r : BidReq) : Only pt s₀ (State.bidPush s r) := by
  unfold State.bidPush
  try dsimp only
  repeat' first | (with_reducible first | assumption | apply State.bump_only h_rf | apply State.raise_only h_rf h_irqNow | apply each_only | apply foldl_only) | intro _ _ _ | split | (refine Only.upd ?_ (.inr rfl) (.inr rfl) (.inr rfl) (.inl h_rf) (.inl h_irqNow) (.inr rfl) (.inr rfl) (.inr rfl) (.inr rfl) (.inr rfl) (.inl h_bid) (.inr rfl) (.inr rfl) (.inr rfl) (.inr rfl) (.inr rfl) (.inr rfl) (.inr rfl) (.inr rfl) (.inr rfl) (.inr rfl) (.inr rfl) (.inr rfl) (.inr rfl) (.inr rfl) (.inr rfl); try dsimp only)

theorem State.releaseCall_only {pt : Parts} (h_rf : pt.rf = true) (h_irqNow : pt.irqNow = true) (h_bid : pt.bid = true) {s₀ s : State} (h : Only pt s₀ s) (key : Nat) (seq : Nat) (reason : Nat) : Only pt s₀ (State.releaseCall s key seq reason) := by
  unfold State.releaseCall
  try dsimp only
  repeat' first | (with_reducible first | assumption | apply State.bidPush_only h_rf h_irqNow h_bid | apply each_only | apply foldl_only) | intro _ _ _ | split | (refine Only.upd ?_ (.inr rfl) (.inr rfl) (.inr rfl) (.inl h_rf) (.inl h_irqNow) (.inr rfl) (.inr rfl) (.inr rfl) (.inr rfl) (.inr rfl) (.inl h_bid) (.inr rfl) (.inr rfl) (.inr rfl) (.inr rfl) (.inr rfl) (.inr rfl) (.inr rfl) (.inr rfl) (.inr rfl) (.inr rfl) (.inr rfl) (.inr rfl) (.inr rfl) (.inr rfl) (.inr rfl); try dsimp only)

theorem State.dropHall_only {pt : Parts} (h_rf : pt.rf = true) (h_irqNow : pt.irqNow = true) (h_sch : pt.sch = true) (h_bid : pt.bid = true) {s₀ s : State} (h : Only pt s₀ s) (n : Nat) (up : Bool) (reason : Nat) : Only pt s₀ (State.dropHall s n up reason) := by
  unfold State.dropHall
  try dsimp only
  repeat' first | (with_reducible first | assumption | apply State.releaseCall_only h_rf h_irqNow h_bid | apply each_only | apply foldl_only) | intro _ _ _ | split | (refine Only.upd ?_ (.inr rfl) (.inr rfl) (.inr rfl) (.inl h_rf) (.inl h_irqNow) (.inr rfl) (.inr rfl) (.inr rfl) (.inr rfl) (.inl h_sch) (.inl h_bid) (.inr rfl) (.inr rfl) (.inr rfl) (.inr rfl) (.inr rfl) (.inr rfl) (.inr rfl) (.inr rfl) (.inr rfl) (.inr rfl) (.inr rfl) (.inr rfl) (.inr rfl) (.inr rfl) (.inr rfl); try dsimp only)

theorem State.dropDest_only {pt : Parts} (h_rf : pt.rf = true) (h_irqNow : pt.irqNow = true) (h_sch : pt.sch = true) (h_bid : pt.bid = true) {s₀ s : State} (h : Only pt s₀ s) (i : Nat) (reason : Nat) : Only pt s₀ (State.dropDest s i reason) := by
  unfold State.dropDest
  try dsimp only
  repeat' first | (with_reducible first | assumption | apply State.releaseCall_only h_rf h_irqNow h_bid | apply each_only | apply foldl_only) | intro _ _ _ | split | (refine Only.upd ?_ (.inr rfl) (.inr rfl) (.inr rfl) (.inl h_rf) (.inl h_irqNow) (.inr rfl) (.inr rfl) (.inr rfl) (.inr rfl) (.inl h_sch) (.inl h_bid) (.inr rfl) (.inr rfl) (.inr rfl) (.inr rfl) (.inr rfl) (.inr rfl) (.inr rfl) (.inr rfl) (.inr rfl) (.inr rfl) (.inr rfl) (.inr rfl) (.inr rfl) (.inr rfl) (.inr rfl); try dsimp only)

theorem State.dropHalls_only {pt : Parts} (h_rf : pt.rf = true) (h_irqNow : pt.irqNow = true) (h_sch : pt.sch = true) (h_bid : pt.bid = true) {s₀ s : State} (h : Only pt s₀ s) (reason : Nat) : Only pt s₀ (State.dropHalls s reason) := by
  unfold State.dropHalls
  try dsimp only
  repeat' first | (with_reducible first | assumption | apply State.dropHall_only h_rf h_irqNow h_sch h_bid | apply each_only | apply foldl_only) | intro _ _ _ | split | dsimp only

theorem State.dropWaiting_only {pt : Parts} (h_rf : pt.rf = true) (h_irqNow : pt.irqNow = true) (h_sch : pt.sch = true) (h_bid : pt.bid = true) {s₀ s : State} (h : Only pt s₀ s) (reason : Nat) : Only pt s₀ (State.dropWaiting s reason) := by
  unfold State.dropWaiting
  try dsimp only
  repeat' first | (with_reducible first | assumption | apply State.dropDest_only h_rf h_irqNow h_sch h_bid | apply each_only | apply foldl_only) | intro _ _ _ | split | dsimp only

theorem State.ridersToCalls_only {pt : Parts} (h_sch : pt.sch = true) {s₀ s : State} (h : Only pt s₀ s) : Only pt s₀ (State.ridersToCalls s) := by
  unfold State.ridersToCalls
  try dsimp only
  repeat' first | (with_reducible first | assumption  | apply each_only | apply foldl_only) | intro _ _ _ | split | (refine Only.upd ?_ (.inr rfl) (.inr rfl) (.inr rfl) (.inr rfl) (.inr rfl) (.inr rfl) (.inr rfl) (.inr rfl) (.inr rfl) (.inl h_sch) (.inr rfl) (.inr rfl) (.inr rfl) (.inr rfl) (.inr rfl) (.inr rfl) (.inr rfl) (.inr rfl) (.inr rfl) (.inr rfl) (.inr rfl) (.inr rfl) (.inr rfl) (.inr rfl) (.inr rfl) (.inr rfl); try dsimp only)

theorem State.schOpenAxis_only {pt : Parts} (h_rf : pt.rf = true) (h_irqNow : pt.irqNow = true) (h_doorF : pt.doorF = true) (h_doorR : pt.doorR = true) {s₀ s : State} (h : Only pt s₀ s) (c : Chan) : Only pt s₀ (State.schOpenAxis s c) := by
  unfold State.schOpenAxis
  try dsimp only
  repeat' first | (with_reducible first | assumption | apply State.doorOpenAct_only h_rf h_irqNow h_doorF h_doorR | apply State.raise_only h_rf h_irqNow | apply each_only | apply foldl_only) | intro _ _ _ | split | (refine Only.upd ?_ (.inr rfl) (.inr rfl) (.inr rfl) (.inl h_rf) (.inl h_irqNow) (.inr rfl) (.inr rfl) (.inr rfl) (.inr rfl) (.inr rfl) (.inr rfl) (.inl h_doorF) (.inl h_doorR) (.inr rfl) (.inr rfl) (.inr rfl) (.inr rfl) (.inr rfl) (.inr rfl) (.inr rfl) (.inr rfl) (.inr rfl) (.inr rfl) (.inr rfl) (.inr rfl) (.inr rfl); try dsimp only)

theorem State.schCloseAxis_only {pt : Parts} (h_rf : pt.rf = true) (h_irqNow : pt.irqNow = true) (h_doorF : pt.doorF = true) (h_doorR : pt.doorR = true) {s₀ s : State} (h : Only pt s₀ s) (c : Chan) : Only pt s₀ (State.schCloseAxis s c) := by
  unfold State.schCloseAxis
  try dsimp only
  repeat' first | (with_reducible first | assumption | apply State.doorCloseAct_only h_rf h_irqNow h_doorF h_doorR | apply State.raise_only h_rf h_irqNow | apply each_only | apply foldl_only) | intro _ _ _ | split | (refine Only.upd ?_ (.inr rfl) (.inr rfl) (.inr rfl) (.inl h_rf) (.inl h_irqNow) (.inr rfl) (.inr rfl) (.inr rfl) (.inr rfl) (.inr rfl) (.inr rfl) (.inl h_doorF) (.inl h_doorR) (.inr rfl) (.inr rfl) (.inr rfl) (.inr rfl) (.inr rfl) (.inr rfl) (.inr rfl) (.inr rfl) (.inr rfl) (.inr rfl) (.inr rfl) (.inr rfl) (.inr rfl); try dsimp only)

theorem State.schClose_only {pt : Parts} (h_rf : pt.rf = true) (h_irqNow : pt.irqNow = true) (h_sch : pt.sch = true) (h_doorF : pt.doorF = true) (h_doorR : pt.doorR = true) {s₀ s : State} (h : Only pt s₀ s) : Only pt s₀ (State.schClose s) := by
  unfold State.schClose
  try dsimp only
  repeat' first | (with_reducible first | assumption | apply State.schCloseAxis_only h_rf h_irqNow h_doorF h_doorR | apply each_only | apply foldl_only) | intro _ _ _ | split | (refine Only.upd ?_ (.inr rfl) (.inr rfl) (.inr rfl) (.inl h_rf) (.inl h_irqNow) (.inr rfl) (.inr rfl) (.inr rfl) (.inr rfl) (.inl h_sch) (.inr rfl) (.inl h_doorF) (.inl h_doorR) (.inr rfl) (.inr rfl) (.inr rfl) (.inr rfl) (.inr rfl) (.inr rfl) (.inr rfl) (.inr rfl) (.inr rfl) (.inr rfl) (.inr rfl) (.inr rfl) (.inr rfl); try dsimp only)

theorem State.dwellStart_only {pt : Parts} (h_rf : pt.rf = true) (h_irqNow : pt.irqNow = true) (h_sch : pt.sch = true) (h_doorF : pt.doorF = true) (h_doorR : pt.doorR = true) {s₀ s : State} (h : Only pt s₀ s) (a : Answer) : Only pt s₀ (State.dwellStart s a) := by
  unfold State.dwellStart
  try dsimp only
  repeat' first | (with_reducible first | assumption | apply State.schOpenAxis_only h_rf h_irqNow h_doorF h_doorR | apply each_only | apply foldl_only) | intro _ _ _ | split | (refine Only.upd ?_ (.inr rfl) (.inr rfl) (.inr rfl) (.inl h_rf) (.inl h_irqNow) (.inr rfl) (.inr rfl) (.inr rfl) (.inr rfl) (.inl h_sch) (.inr rfl) (.inl h_doorF) (.inl h_doorR) (.inr rfl) (.inr rfl) (.inr rfl) (.inr rfl) (.inr rfl) (.inr rfl) (.inr rfl) (.inr rfl) (.inr rfl) (.inr rfl) (.inr rfl) (.inr rfl) (.inr rfl); try dsimp only)

theorem State.recallReached_only {pt : Parts} (h_rf : pt.rf = true) (h_irqNow : pt.irqNow = true) (h_sch : pt.sch = true) (h_doorF : pt.doorF = true) (h_doorR : pt.doorR = true) {s₀ s : State} (h : Only pt s₀ s) (n : Nat) : Only pt s₀ (State.recallReached s n) := by
  unfold State.recallReached
  try dsimp only
  repeat' first | (with_reducible first | assumption | apply State.raise_only h_rf h_irqNow | apply State.dwellStart_only h_rf h_irqNow h_sch h_doorF h_doorR | apply each_only | apply foldl_only) | intro _ _ _ | split | (refine Only.upd ?_ (.inr rfl) (.inr rfl) (.inr rfl) (.inl h_rf) (.inl h_irqNow) (.inr rfl) (.inr rfl) (.inr rfl) (.inr rfl) (.inl h_sch) (.inr rfl) (.inl h_doorF) (.inl h_doorR) (.inr rfl) (.inr rfl) (.inr rfl) (.inr rfl) (.inr rfl) (.inr rfl) (.inr rfl) (.inr rfl) (.inr rfl) (.inr rfl) (.inr rfl) (.inr rfl) (.inr rfl); try dsimp only)

theorem State.schRunDone_only {pt : Parts} (h_rf : pt.rf = true) (h_irqNow : pt.irqNow = true) (h_sch : pt.sch = true) (h_doorF : pt.doorF = true) (h_doorR : pt.doorR = true) {s₀ s : State} (h : Only pt s₀ s) (n : Nat) : Only pt s₀ (State.schRunDone s n) := by
  unfold State.schRunDone
  try dsimp only
  repeat' first | (with_reducible first | assumption | apply State.recallReached_only h_rf h_irqNow h_sch h_doorF h_doorR | apply State.raise_only h_rf h_irqNow | apply State.dwellStart_only h_rf h_irqNow h_sch h_doorF h_doorR | apply each_only | apply foldl_only) | intro _ _ _ | split | (refine Only.upd ?_ (.inr rfl) (.inr rfl) (.inr rfl) (.inl h_rf) (.inl h_irqNow) (.inr rfl) (.inr rfl) (.inr rfl) (.inr rfl) (.inl h_sch) (.inr rfl) (.inl h_doorF) (.inl h_doorR) (.inr rfl) (.inr rfl) (.inr rfl) (.inr rfl) (.inr rfl) (.inr rfl) (.inr rfl) (.inr rfl) (.inr rfl) (.inr rfl) (.inr rfl) (.inr rfl) (.inr rfl); try dsimp only)

theorem State.schReached_only {pt : Parts} (h_rf : pt.rf = true) (h_irqNow : pt.irqNow = true) (h_sch : pt.sch = true) (h_doorF : pt.doorF = true) (h_doorR : pt.doorR = true) {s₀ t : State} (h : Only pt s₀ t) (before : State) : Only pt s₀ (State.schReached t before) := by
  unfold State.schReached
  try dsimp only
  repeat' first | (with_reducible first | assumption | apply State.schRunDone_only h_rf h_irqNow h_sch h_doorF h_doorR | apply each_only | apply foldl_only) | intro _ _ _ | split | dsimp only

theorem State.schServed_only {pt : Parts} (h_rf : pt.rf = true) (h_irqNow : pt.irqNow = true) (h_sch : pt.sch = true) (h_bid : pt.bid = true) {s₀ s : State} (h : Only pt s₀ s) : Only pt s₀ (State.schServed s) := by
  unfold State.schServed
  try dsimp only
  repeat' first | (with_reducible first | assumption | apply State.dropHall_only h_rf h_irqNow h_sch h_bid | apply State.releaseCall_only h_rf h_irqNow h_bid | apply State.raise_only h_rf h_irqNow | apply each_only | apply foldl_only) | intro _ _ _ | split | (refine Only.upd ?_ (.inr rfl) (.inr rfl) (.inr rfl) (.inl h_rf) (.inl h_irqNow) (.inr rfl) (.inr rfl) (.inr rfl) (.inr rfl) (.inl h_sch) (.inl h_bid) (.inr rfl) (.inr rfl) (.inr rfl) (.inr rfl) (.inr rfl) (.inr rfl) (.inr rfl) (.inr rfl) (.inr rfl) (.inr rfl) (.inr rfl) (.inr rfl) (.inr rfl) (.inr rfl) (.inr rfl); try dsimp only)

theorem State.hereJoin_only {pt : Parts} (h_rf : pt.rf = true) (h_irqNow : pt.irqNow = true) (h_sch : pt.sch = true) (h_doorF : pt.doorF = true) (h_doorR : pt.doorR = true) {s₀ s : State} (h : Only pt s₀ s) (a : Answer) (c : Nat) : Only pt s₀ (State.hereJoin s a c) := by
  unfold State.hereJoin
  try dsimp only
  repeat' first | (with_reducible first | assumption | apply State.schOpenAxis_only h_rf h_irqNow h_doorF h_doorR | apply each_only | apply foldl_only) | intro _ _ _ | split | (refine Only.upd ?_ (.inr rfl) (.inr rfl) (.inr rfl) (.inl h_rf) (.inl h_irqNow) (.inr rfl) (.inr rfl) (.inr rfl) (.inr rfl) (.inl h_sch) (.inr rfl) (.inl h_doorF) (.inl h_doorR) (.inr rfl) (.inr rfl) (.inr rfl) (.inr rfl) (.inr rfl) (.inr rfl) (.inr rfl) (.inr rfl) (.inr rfl) (.inr rfl) (.inr rfl) (.inr rfl) (.inr rfl); try dsimp only)

theorem State.hereAnswer_only {pt : Parts} (h_rf : pt.rf = true) (h_irqNow : pt.irqNow = true) (h_sch : pt.sch = true) (h_doorF : pt.doorF = true) (h_doorR : pt.doorR = true) {s₀ s : State} (h : Only pt s₀ s) (n : Nat) (c : Nat) : Only pt s₀ (State.hereAnswer s n c) := by
  unfold State.hereAnswer
  try dsimp only
  repeat' first | (with_reducible first | assumption | apply State.raise_only h_rf h_irqNow | apply State.dwellStart_only h_rf h_irqNow h_sch h_doorF h_doorR | apply each_only | apply foldl_only) | intro _ _ _ | split | (refine Only.upd ?_ (.inr rfl) (.inr rfl) (.inr rfl) (.inl h_rf) (.inl h_irqNow) (.inr rfl) (.inr rfl) (.inr rfl) (.inr rfl) (.inl h_sch) (.inr rfl) (.inl h_doorF) (.inl h_doorR) (.inr rfl) (.inr rfl) (.inr rfl) (.inr rfl) (.inr rfl) (.inr rfl) (.inr rfl) (.inr rfl) (.inr rfl) (.inr rfl) (.inr rfl) (.inr rfl) (.inr rfl); try dsimp only)

theorem State.hereOpen_only {pt : Parts} (h_rf : pt.rf = true) (h_irqNow : pt.irqNow = true) (h_sch : pt.sch = true) (h_doorF : pt.doorF = true) (h_doorR : pt.doorR = true) {s₀ s : State} (h : Only pt s₀ s) (a : Answer) (c : Nat) : Only pt s₀ (State.hereOpen s a c) := by
  unfold State.hereOpen
  try dsimp only
  repeat' first | (with_reducible first | assumption | apply State.hereJoin_only h_rf h_irqNow h_sch h_doorF h_doorR | apply each_only | apply foldl_only) | intro _ _ _ | split | (refine Only.upd ?_ (.inr rfl) (.inr rfl) (.inr rfl) (.inl h_rf) (.inl h_irqNow) (.inr rfl) (.inr rfl) (.inr rfl) (.inr rfl) (.inl h_sch) (.inr rfl) (.inl h_doorF) (.inl h_doorR) (.inr rfl) (.inr rfl) (.inr rfl) (.inr rfl) (.inr rfl) (.inr rfl) (.inr rfl) (.inr rfl) (.inr rfl) (.inr rfl) (.inr rfl) (.inr rfl) (.inr rfl); try dsimp only)

theorem State.hereHandle_only {pt : Parts} (h_rf : pt.rf = true) (h_irqNow : pt.irqNow = true) (h_sch : pt.sch = true) (h_bid : pt.bid = true) (h_doorF : pt.doorF = true) (h_doorR : pt.doorR = true) {s₀ s0 : State} (h : Only pt s₀ s0) (n : Nat) (c : Nat) : Only pt s₀ (State.hereHandle s0 n c) := by
  unfold State.hereHandle
  try dsimp only
  repeat' first | (with_reducible first | assumption | apply State.schServed_only h_rf h_irqNow h_sch h_bid | apply State.hereOpen_only h_rf h_irqNow h_sch h_doorF h_doorR | apply State.hereAnswer_only h_rf h_irqNow h_sch h_doorF h_doorR | apply each_only | apply foldl_only) | intro _ _ _ | split | (refine Only.upd ?_ (.inr rfl) (.inr rfl) (.inr rfl) (.inl h_rf) (.inl h_irqNow) (.inr rfl) (.inr rfl) (.inr rfl) (.inr rfl) (.inl h_sch) (.inl h_bid) (.inl h_doorF) (.inl h_doorR) (.inr rfl) (.inr rfl) (.inr rfl) (.inr rfl) (.inr rfl) (.inr rfl) (.inr rfl) (.inr rfl) (.inr rfl) (.inr rfl) (.inr rfl) (.inr rfl) (.inr rfl); try dsimp only)

theorem State.hereCall_only {pt : Parts} (h_rf : pt.rf = true) (h_irqNow : pt.irqNow = true) (h_sch : pt.sch = true) (h_bid : pt.bid = true) (h_doorF : pt.doorF = true) (h_doorR : pt.doorR = true) {s₀ s : State} (h : Only pt s₀ s) (n : Nat) (c : Nat) : Only pt s₀ (State.hereCall s n c) := by
  unfold State.hereCall
  try dsimp only
  repeat' first | (with_reducible first | assumption | apply State.raise_only h_rf h_irqNow | apply State.hereHandle_only h_rf h_irqNow h_sch h_bid h_doorF h_doorR | apply each_only | apply foldl_only) | intro _ _ _ | split | dsimp only

theorem State.callArrived_only {pt : Parts} (h_rf : pt.rf = true) (h_irqNow : pt.irqNow = true) (h_sch : pt.sch = true) (h_bid : pt.bid = true) (h_doorF : pt.doorF = true) (h_doorR : pt.doorR = true) {s₀ s : State} (h : Only pt s₀ s) (n : Nat) (c : Nat) : Only pt s₀ (State.callArrived s n c) := by
  unfold State.callArrived
  try dsimp only
  repeat' first | (with_reducible first | assumption | apply State.hereCall_only h_rf h_irqNow h_sch h_bid h_doorF h_doorR | apply State.schClose_only h_rf h_irqNow h_sch h_doorF h_doorR | apply State.passedNote_only h_rf h_irqNow | apply each_only | apply foldl_only) | intro _ _ _ | split | (refine Only.upd ?_ (.inr rfl) (.inr rfl) (.inr rfl) (.inl h_rf) (.inl h_irqNow) (.inr rfl) (.inr rfl) (.inr rfl) (.inr rfl) (.inl h_sch) (.inl h_bid) (.inl h_doorF) (.inl h_doorR) (.inr rfl) (.inr rfl) (.inr rfl) (.inr rfl) (.inr rfl) (.inr rfl) (.inr rfl) (.inr rfl) (.inr rfl) (.inr rfl) (.inr rfl) (.inr rfl) (.inr rfl); try dsimp only)

theorem State.carCall_only {pt : Parts} (h_rf : pt.rf = true) (h_irqNow : pt.irqNow = true) (h_sch : pt.sch = true) (h_bid : pt.bid = true) (h_doorF : pt.doorF = true) (h_doorR : pt.doorR = true) {s₀ s : State} (h : Only pt s₀ s) (n : Nat) : Only pt s₀ (State.carCall s n) := by
  unfold State.carCall
  try dsimp only
  repeat' first | (with_reducible first | assumption | apply State.hereCall_only h_rf h_irqNow h_sch h_bid h_doorF h_doorR | apply State.callArrived_only h_rf h_irqNow h_sch h_bid h_doorF h_doorR | apply each_only | apply foldl_only) | intro _ _ _ | split | (refine Only.upd ?_ (.inr rfl) (.inr rfl) (.inr rfl) (.inl h_rf) (.inl h_irqNow) (.inr rfl) (.inr rfl) (.inr rfl) (.inr rfl) (.inl h_sch) (.inl h_bid) (.inl h_doorF) (.inl h_doorR) (.inr rfl) (.inr rfl) (.inr rfl) (.inr rfl) (.inr rfl) (.inr rfl) (.inr rfl) (.inr rfl) (.inr rfl) (.inr rfl) (.inr rfl) (.inr rfl) (.inr rfl); try dsimp only)

theorem State.hereSettle_only {pt : Parts} (h_rf : pt.rf = true) (h_irqNow : pt.irqNow = true) (h_sch : pt.sch = true) (h_bid : pt.bid = true) (h_doorF : pt.doorF = true) (h_doorR : pt.doorR = true) {s₀ s : State} (h : Only pt s₀ s) : Only pt s₀ (State.hereSettle s) := by
  unfold State.hereSettle
  try dsimp only
  repeat' first | (with_reducible first | assumption | apply State.hereHandle_only h_rf h_irqNow h_sch h_bid h_doorF h_doorR | apply State.callArrived_only h_rf h_irqNow h_sch h_bid h_doorF h_doorR | apply each_only | apply foldl_only) | intro _ _ _ | split | (refine Only.upd ?_ (.inr rfl) (.inr rfl) (.inr rfl) (.inl h_rf) (.inl h_irqNow) (.inr rfl) (.inr rfl) (.inr rfl) (.inr rfl) (.inl h_sch) (.inl h_bid) (.inl h_doorF) (.inl h_doorR) (.inr rfl) (.inr rfl) (.inr rfl) (.inr rfl) (.inr rfl) (.inr rfl) (.inr rfl) (.inr rfl) (.inr rfl) (.inr rfl) (.inr rfl) (.inr rfl) (.inr rfl); try dsimp only)

theorem State.recallHere_only {pt : Parts} (h_rf : pt.rf = true) (h_irqNow : pt.irqNow = true) (h_sch : pt.sch = true) (h_doorF : pt.doorF = true) (h_doorR : pt.doorR = true) {s₀ s : State} (h : Only pt s₀ s) : Only pt s₀ (State.recallHere s) := by
  unfold State.recallHere
  try dsimp only
  repeat' first | (with_reducible first | assumption | apply State.recallReached_only h_rf h_irqNow h_sch h_doorF h_doorR | apply each_only | apply foldl_only) | intro _ _ _ | split | dsimp only

theorem State.hallCall_only {pt : Parts} (h_rf : pt.rf = true) (h_irqNow : pt.irqNow = true) (h_sch : pt.sch = true) (h_bid : pt.bid = true) (h_doorF : pt.doorF = true) (h_doorR : pt.doorR = true) {s₀ s : State} (h : Only pt s₀ s) (n : Nat) (up : Bool) : Only pt s₀ (State.hallCall s n up) := by
  unfold State.hallCall
  try dsimp only
  repeat' first | (with_reducible first | assumption | apply State.callArrived_only h_rf h_irqNow h_sch h_bid h_doorF h_doorR | apply each_only | apply foldl_only) | intro _ _ _ | split | (refine Only.upd ?_ (.inr rfl) (.inr rfl) (.inr rfl) (.inl h_rf) (.inl h_irqNow) (.inr rfl) (.inr rfl) (.inr rfl) (.inr rfl) (.inl h_sch) (.inl h_bid) (.inl h_doorF) (.inl h_doorR) (.inr rfl) (.inr rfl) (.inr rfl) (.inr rfl) (.inr rfl) (.inr rfl) (.inr rfl) (.inr rfl) (.inr rfl) (.inr rfl) (.inr rfl) (.inr rfl) (.inr rfl); try dsimp only)

theorem State.destPlace_only {pt : Parts} (h_rf : pt.rf = true) (h_irqNow : pt.irqNow = true) (h_sch : pt.sch = true) (h_bid : pt.bid = true) (h_doorF : pt.doorF = true) (h_doorR : pt.doorR = true) {s₀ s : State} (h : Only pt s₀ s) (i : Nat) (src : Nat) (dst : Nat) (seq : Nat) (tag : Option Nat) : Only pt s₀ (State.destPlace s i src dst seq tag) := by
  unfold State.destPlace
  try dsimp only
  repeat' first | (with_reducible first | assumption | apply State.callArrived_only h_rf h_irqNow h_sch h_bid h_doorF h_doorR | apply each_only | apply foldl_only) | intro _ _ _ | split | (refine Only.upd ?_ (.inr rfl) (.inr rfl) (.inr rfl) (.inl h_rf) (.inl h_irqNow) (.inr rfl) (.inr rfl) (.inr rfl) (.inr rfl) (.inl h_sch) (.inl h_bid) (.inl h_doorF) (.inl h_doorR) (.inr rfl) (.inr rfl) (.inr rfl) (.inr rfl) (.inr rfl) (.inr rfl) (.inr rfl) (.inr rfl) (.inr rfl) (.inr rfl) (.inr rfl) (.inr rfl) (.inr rfl); try dsimp only)

theorem State.callSetNow_only {pt : Parts} (h_rf : pt.rf = true) (h_irqNow : pt.irqNow = true) (h_sch : pt.sch = true) (h_bid : pt.bid = true) (h_doorF : pt.doorF = true) (h_doorR : pt.doorR = true) {s₀ s : State} (h : Only pt s₀ s) (kind : Nat) (w : Nat) (val : Word) : Only pt s₀ (State.callSetNow s kind w val) := by
  unfold State.callSetNow
  try dsimp only
  repeat' first | (with_reducible first | assumption | apply State.carCall_only h_rf h_irqNow h_sch h_bid h_doorF h_doorR | apply State.hallCall_only h_rf h_irqNow h_sch h_bid h_doorF h_doorR | apply each_only | apply foldl_only) | intro _ _ _ | split | (refine Only.upd ?_ (.inr rfl) (.inr rfl) (.inr rfl) (.inl h_rf) (.inl h_irqNow) (.inr rfl) (.inr rfl) (.inr rfl) (.inr rfl) (.inl h_sch) (.inl h_bid) (.inl h_doorF) (.inl h_doorR) (.inr rfl) (.inr rfl) (.inr rfl) (.inr rfl) (.inr rfl) (.inr rfl) (.inr rfl) (.inr rfl) (.inr rfl) (.inr rfl) (.inr rfl) (.inr rfl) (.inr rfl); try dsimp only)

theorem State.callClrNow_only {pt : Parts} (h_rf : pt.rf = true) (h_irqNow : pt.irqNow = true) (h_sch : pt.sch = true) (h_bid : pt.bid = true) {s₀ s : State} (h : Only pt s₀ s) (kind : Nat) (w : Nat) (val : Word) : Only pt s₀ (State.callClrNow s kind w val) := by
  unfold State.callClrNow
  try dsimp only
  repeat' first | (with_reducible first | assumption | apply State.dropHall_only h_rf h_irqNow h_sch h_bid | apply each_only | apply foldl_only) | intro _ _ _ | split | (refine Only.upd ?_ (.inr rfl) (.inr rfl) (.inr rfl) (.inl h_rf) (.inl h_irqNow) (.inr rfl) (.inr rfl) (.inr rfl) (.inr rfl) (.inl h_sch) (.inl h_bid) (.inr rfl) (.inr rfl) (.inr rfl) (.inr rfl) (.inr rfl) (.inr rfl) (.inr rfl) (.inr rfl) (.inr rfl) (.inr rfl) (.inr rfl) (.inr rfl) (.inr rfl) (.inr rfl) (.inr rfl); try dsimp only)

theorem State.schDoorOpened_only {pt : Parts} (h_rf : pt.rf = true) (h_irqNow : pt.irqNow = true) (h_sch : pt.sch = true) (h_doorF : pt.doorF = true) (h_doorR : pt.doorR = true) {s₀ s : State} (h : Only pt s₀ s) (c : Chan) : Only pt s₀ (State.schDoorOpened s c) := by
  unfold State.schDoorOpened
  try dsimp only
  repeat' first | (with_reducible first | assumption | apply State.schClose_only h_rf h_irqNow h_sch h_doorF h_doorR | apply each_only | apply foldl_only) | intro _ _ _ | split | (refine Only.upd ?_ (.inr rfl) (.inr rfl) (.inr rfl) (.inl h_rf) (.inl h_irqNow) (.inr rfl) (.inr rfl) (.inr rfl) (.inr rfl) (.inl h_sch) (.inr rfl) (.inl h_doorF) (.inl h_doorR) (.inr rfl) (.inr rfl) (.inr rfl) (.inr rfl) (.inr rfl) (.inr rfl) (.inr rfl) (.inr rfl) (.inr rfl) (.inr rfl) (.inr rfl) (.inr rfl) (.inr rfl); try dsimp only)

theorem State.schHoldEnd_only {pt : Parts} (h_rf : pt.rf = true) (h_irqNow : pt.irqNow = true) (h_sch : pt.sch = true) (h_doorF : pt.doorF = true) (h_doorR : pt.doorR = true) {s₀ s : State} (h : Only pt s₀ s) : Only pt s₀ (State.schHoldEnd s) := by
  unfold State.schHoldEnd
  try dsimp only
  repeat' first | (with_reducible first | assumption | apply State.schClose_only h_rf h_irqNow h_sch h_doorF h_doorR | apply each_only | apply foldl_only) | intro _ _ _ | split | (refine Only.upd ?_ (.inr rfl) (.inr rfl) (.inr rfl) (.inl h_rf) (.inl h_irqNow) (.inr rfl) (.inr rfl) (.inr rfl) (.inr rfl) (.inl h_sch) (.inr rfl) (.inl h_doorF) (.inl h_doorR) (.inr rfl) (.inr rfl) (.inr rfl) (.inr rfl) (.inr rfl) (.inr rfl) (.inr rfl) (.inr rfl) (.inr rfl) (.inr rfl) (.inr rfl) (.inr rfl) (.inr rfl); try dsimp only)

theorem State.schEndHold_only {pt : Parts} (h_rf : pt.rf = true) (h_irqNow : pt.irqNow = true) (h_sch : pt.sch = true) (h_doorF : pt.doorF = true) (h_doorR : pt.doorR = true) {s₀ s : State} (h : Only pt s₀ s) : Only pt s₀ (State.schEndHold s) := by
  unfold State.schEndHold
  try dsimp only
  repeat' first | (with_reducible first | assumption | apply State.schClose_only h_rf h_irqNow h_sch h_doorF h_doorR | apply each_only | apply foldl_only) | intro _ _ _ | split | (refine Only.upd ?_ (.inr rfl) (.inr rfl) (.inr rfl) (.inl h_rf) (.inl h_irqNow) (.inr rfl) (.inr rfl) (.inr rfl) (.inr rfl) (.inl h_sch) (.inr rfl) (.inl h_doorF) (.inl h_doorR) (.inr rfl) (.inr rfl) (.inr rfl) (.inr rfl) (.inr rfl) (.inr rfl) (.inr rfl) (.inr rfl) (.inr rfl) (.inr rfl) (.inr rfl) (.inr rfl) (.inr rfl); try dsimp only)

theorem State.schEndAnyhow_only {pt : Parts} (h_rf : pt.rf = true) (h_irqNow : pt.irqNow = true) (h_sch : pt.sch = true) (h_doorF : pt.doorF = true) (h_doorR : pt.doorR = true) {s₀ s : State} (h : Only pt s₀ s) : Only pt s₀ (State.schEndAnyhow s) := by
  unfold State.schEndAnyhow
  try dsimp only
  repeat' first | (with_reducible first | assumption | apply State.schClose_only h_rf h_irqNow h_sch h_doorF h_doorR | apply each_only | apply foldl_only) | intro _ _ _ | split | (refine Only.upd ?_ (.inr rfl) (.inr rfl) (.inr rfl) (.inl h_rf) (.inl h_irqNow) (.inr rfl) (.inr rfl) (.inr rfl) (.inr rfl) (.inl h_sch) (.inr rfl) (.inl h_doorF) (.inl h_doorR) (.inr rfl) (.inr rfl) (.inr rfl) (.inr rfl) (.inr rfl) (.inr rfl) (.inr rfl) (.inr rfl) (.inr rfl) (.inr rfl) (.inr rfl) (.inr rfl) (.inr rfl); try dsimp only)

theorem State.schRelevFail_only {pt : Parts} (h_rf : pt.rf = true) (h_irqNow : pt.irqNow = true) (h_sch : pt.sch = true) (h_doorF : pt.doorF = true) (h_doorR : pt.doorR = true) {s₀ s : State} (h : Only pt s₀ s) : Only pt s₀ (State.schRelevFail s) := by
  unfold State.schRelevFail
  try dsimp only
  repeat' first | (with_reducible first | assumption | apply State.schEndAnyhow_only h_rf h_irqNow h_sch h_doorF h_doorR | apply State.schCloseAxis_only h_rf h_irqNow h_doorF h_doorR | apply each_only | apply foldl_only) | intro _ _ _ | split | (refine Only.upd ?_ (.inr rfl) (.inr rfl) (.inr rfl) (.inl h_rf) (.inl h_irqNow) (.inr rfl) (.inr rfl) (.inr rfl) (.inr rfl) (.inl h_sch) (.inr rfl) (.inl h_doorF) (.inl h_doorR) (.inr rfl) (.inr rfl) (.inr rfl) (.inr rfl) (.inr rfl) (.inr rfl) (.inr rfl) (.inr rfl) (.inr rfl) (.inr rfl) (.inr rfl) (.inr rfl) (.inr rfl); try dsimp only)

theorem State.oosSet_only {pt : Parts} (h_rf : pt.rf = true) (h_irqNow : pt.irqNow = true) (h_sch : pt.sch = true) (h_bid : pt.bid = true) (h_doorF : pt.doorF = true) (h_doorR : pt.doorR = true) {s₀ s : State} (h : Only pt s₀ s) : Only pt s₀ (State.oosSet s) := by
  unfold State.oosSet
  try dsimp only
  repeat' first | (with_reducible first | assumption | apply State.dropHalls_only h_rf h_irqNow h_sch h_bid | apply State.dropWaiting_only h_rf h_irqNow h_sch h_bid | apply State.raise_only h_rf h_irqNow | apply State.dwellStart_only h_rf h_irqNow h_sch h_doorF h_doorR | apply each_only | apply foldl_only) | intro _ _ _ | split | (refine Only.upd ?_ (.inr rfl) (.inr rfl) (.inr rfl) (.inl h_rf) (.inl h_irqNow) (.inr rfl) (.inr rfl) (.inr rfl) (.inr rfl) (.inl h_sch) (.inl h_bid) (.inl h_doorF) (.inl h_doorR) (.inr rfl) (.inr rfl) (.inr rfl) (.inr rfl) (.inr rfl) (.inr rfl) (.inr rfl) (.inr rfl) (.inr rfl) (.inr rfl) (.inr rfl) (.inr rfl) (.inr rfl); try dsimp only)

theorem State.oosChange_only {pt : Parts} (h_rf : pt.rf = true) (h_irqNow : pt.irqNow = true) (h_sch : pt.sch = true) (h_bid : pt.bid = true) (h_doorF : pt.doorF = true) (h_doorR : pt.doorR = true) {s₀ s : State} (h : Only pt s₀ s) (host : Bool) (traction : Bool) (safe : Bool) : Only pt s₀ (State.oosChange s host traction safe) := by
  unfold State.oosChange
  try dsimp only
  repeat' first | (with_reducible first | assumption | apply State.oosSet_only h_rf h_irqNow h_sch h_bid h_doorF h_doorR | apply State.raise_only h_rf h_irqNow | apply each_only | apply foldl_only) | intro _ _ _ | split | (refine Only.upd ?_ (.inr rfl) (.inr rfl) (.inr rfl) (.inl h_rf) (.inl h_irqNow) (.inr rfl) (.inr rfl) (.inr rfl) (.inr rfl) (.inl h_sch) (.inl h_bid) (.inl h_doorF) (.inl h_doorR) (.inr rfl) (.inr rfl) (.inr rfl) (.inr rfl) (.inr rfl) (.inr rfl) (.inr rfl) (.inr rfl) (.inr rfl) (.inr rfl) (.inr rfl) (.inr rfl) (.inr rfl); try dsimp only)

theorem State.oosHostNow_only {pt : Parts} (h_rf : pt.rf = true) (h_irqNow : pt.irqNow = true) (h_sch : pt.sch = true) (h_bid : pt.bid = true) (h_doorF : pt.doorF = true) (h_doorR : pt.doorR = true) {s₀ s : State} (h : Only pt s₀ s) (on : Bool) : Only pt s₀ (State.oosHostNow s on) := by
  unfold State.oosHostNow
  try dsimp only
  repeat' first | (with_reducible first | assumption | apply State.oosChange_only h_rf h_irqNow h_sch h_bid h_doorF h_doorR | apply each_only | apply foldl_only) | intro _ _ _ | split | dsimp only

theorem State.oosSafeCheck_only {pt : Parts} (h_rf : pt.rf = true) (h_irqNow : pt.irqNow = true) (h_sch : pt.sch = true) (h_bid : pt.bid = true) (h_doorF : pt.doorF = true) (h_doorR : pt.doorR = true) {s₀ s : State} (h : Only pt s₀ s) : Only pt s₀ (State.oosSafeCheck s) := by
  unfold State.oosSafeCheck
  try dsimp only
  repeat' first | (with_reducible first | assumption | apply State.oosChange_only h_rf h_irqNow h_sch h_bid h_doorF h_doorR | apply each_only | apply foldl_only) | intro _ _ _ | split | dsimp only

theorem State.tractionLatch_only {pt : Parts} (h_rf : pt.rf = true) (h_irqNow : pt.irqNow = true) (h_pos : pt.pos = true) (h_mot : pt.mot = true) (h_drv : pt.drv = true) (h_sch : pt.sch = true) (h_bid : pt.bid = true) (h_doorF : pt.doorF = true) (h_doorR : pt.doorR = true) (h_el : pt.el = true) (h_rcd : pt.rcd = true) {s₀ s : State} (h : Only pt s₀ s) : Only pt s₀ (State.tractionLatch s) := by
  unfold State.tractionLatch
  try dsimp only
  repeat' first | (with_reducible first | assumption | apply State.raise_only h_rf h_irqNow | apply State.fire_only h_rf h_irqNow h_rcd | apply State.motHoldNow_only h_rf h_irqNow h_mot h_drv h_el h_rcd | apply State.oosChange_only h_rf h_irqNow h_sch h_bid h_doorF h_doorR | apply each_only | apply foldl_only) | intro _ _ _ | split | (refine Only.upd ?_ (.inr rfl) (.inr rfl) (.inr rfl) (.inl h_rf) (.inl h_irqNow) (.inl h_pos) (.inr rfl) (.inl h_mot) (.inl h_drv) (.inl h_sch) (.inl h_bid) (.inl h_doorF) (.inl h_doorR) (.inl h_el) (.inr rfl) (.inr rfl) (.inr rfl) (.inr rfl) (.inr rfl) (.inr rfl) (.inl h_rcd) (.inr rfl) (.inr rfl) (.inr rfl) (.inr rfl) (.inr rfl); try dsimp only)

theorem State.bypassNote_only {pt : Parts} (h_rf : pt.rf = true) (h_irqNow : pt.irqNow = true) (h_sch : pt.sch = true) (h_bid : pt.bid = true) {s₀ s : State} (h : Only pt s₀ s) : Only pt s₀ (State.bypassNote s) := by
  unfold State.bypassNote
  try dsimp only
  repeat' first | (with_reducible first | assumption | apply State.dropHalls_only h_rf h_irqNow h_sch h_bid | apply State.dropWaiting_only h_rf h_irqNow h_sch h_bid | apply each_only | apply foldl_only) | intro _ _ _ | split | (refine Only.upd ?_ (.inr rfl) (.inr rfl) (.inr rfl) (.inl h_rf) (.inl h_irqNow) (.inr rfl) (.inr rfl) (.inr rfl) (.inr rfl) (.inl h_sch) (.inl h_bid) (.inr rfl) (.inr rfl) (.inr rfl) (.inr rfl) (.inr rfl) (.inr rfl) (.inr rfl) (.inr rfl) (.inr rfl) (.inr rfl) (.inr rfl) (.inr rfl) (.inr rfl) (.inr rfl) (.inr rfl); try dsimp only)

theorem State.modeEntry_only {pt : Parts} (h_rf : pt.rf = true) (h_irqNow : pt.irqNow = true) (h_sch : pt.sch = true) (h_bid : pt.bid = true) (h_doorF : pt.doorF = true) (h_doorR : pt.doorR = true) {s₀ s : State} (h : Only pt s₀ s) (m : SchMode) : Only pt s₀ (State.modeEntry s m) := by
  unfold State.modeEntry
  try dsimp only
  repeat' first | (with_reducible first | assumption | apply State.ridersToCalls_only h_sch | apply State.dropWaiting_only h_rf h_irqNow h_sch h_bid | apply State.dropHall_only h_rf h_irqNow h_sch h_bid | apply State.dropHalls_only h_rf h_irqNow h_sch h_bid | apply State.schEndAnyhow_only h_rf h_irqNow h_sch h_doorF h_doorR | apply each_only | apply foldl_only) | intro _ _ _ | split | (refine Only.upd ?_ (.inr rfl) (.inr rfl) (.inr rfl) (.inl h_rf) (.inl h_irqNow) (.inr rfl) (.inr rfl) (.inr rfl) (.inr rfl) (.inl h_sch) (.inl h_bid) (.inl h_doorF) (.inl h_doorR) (.inr rfl) (.inr rfl) (.inr rfl) (.inr rfl) (.inr rfl) (.inr rfl) (.inr rfl) (.inr rfl) (.inr rfl) (.inr rfl) (.inr rfl) (.inr rfl) (.inr rfl); try dsimp only)

theorem State.modeWrite_only {pt : Parts} (h_rf : pt.rf = true) (h_irqNow : pt.irqNow = true) (h_sch : pt.sch = true) (h_bid : pt.bid = true) (h_doorF : pt.doorF = true) (h_doorR : pt.doorR = true) {s₀ s : State} (h : Only pt s₀ s) (val : Word) : Only pt s₀ (State.modeWrite s val) := by
  unfold State.modeWrite
  try dsimp only
  repeat' first | (with_reducible first | assumption | apply State.wr_only h_rf | apply State.raise_only h_rf h_irqNow | apply State.modeEntry_only h_rf h_irqNow h_sch h_bid h_doorF h_doorR | apply State.schClose_only h_rf h_irqNow h_sch h_doorF h_doorR | apply each_only | apply foldl_only) | intro _ _ _ | split | (refine Only.upd ?_ (.inr rfl) (.inr rfl) (.inr rfl) (.inl h_rf) (.inl h_irqNow) (.inr rfl) (.inr rfl) (.inr rfl) (.inr rfl) (.inl h_sch) (.inl h_bid) (.inl h_doorF) (.inl h_doorR) (.inr rfl) (.inr rfl) (.inr rfl) (.inr rfl) (.inr rfl) (.inr rfl) (.inr rfl) (.inr rfl) (.inr rfl) (.inr rfl) (.inr rfl) (.inr rfl) (.inr rfl); try dsimp only)

theorem State.ltFaultNote_only {pt : Parts} (h_rf : pt.rf = true) {s₀ s : State} (h : Only pt s₀ s) (t : State) : Only pt s₀ (State.ltFaultNote s t) := by
  unfold State.ltFaultNote
  try dsimp only
  repeat' first | (with_reducible first | assumption | apply State.wr_only h_rf | apply each_only | apply foldl_only) | intro _ _ _ | split | (refine Only.upd ?_ (.inr rfl) (.inr rfl) (.inr rfl) (.inl h_rf) (.inr rfl) (.inr rfl) (.inr rfl) (.inr rfl) (.inr rfl) (.inr rfl) (.inr rfl) (.inr rfl) (.inr rfl) (.inr rfl) (.inr rfl) (.inr rfl) (.inr rfl) (.inr rfl) (.inr rfl) (.inr rfl) (.inr rfl) (.inr rfl) (.inr rfl) (.inr rfl) (.inr rfl) (.inr rfl); try dsimp only)

theorem State.schRunNow_only {pt : Parts} (h_rf : pt.rf = true) {s₀ s : State} (h : Only pt s₀ s) : Only pt s₀ (State.schRunNow s) := by
  unfold State.schRunNow
  try dsimp only
  repeat' first | (with_reducible first | assumption | apply State.ltFaultNote_only h_rf | apply State.wr_only h_rf | apply State.wf__only h_rf | apply each_only | apply foldl_only) | intro _ _ _ | split | (refine Only.upd ?_ (.inr rfl) (.inr rfl) (.inr rfl) (.inl h_rf) (.inr rfl) (.inr rfl) (.inr rfl) (.inr rfl) (.inr rfl) (.inr rfl) (.inr rfl) (.inr rfl) (.inr rfl) (.inr rfl) (.inr rfl) (.inr rfl) (.inr rfl) (.inr rfl) (.inr rfl) (.inr rfl) (.inr rfl) (.inr rfl) (.inr rfl) (.inr rfl) (.inr rfl) (.inr rfl); try dsimp only)

theorem State.schStart_only {pt : Parts} (h_rf : pt.rf = true) (h_mot : pt.mot = true) (h_drv : pt.drv = true) (h_sch : pt.sch = true) {s₀ s : State} (h : Only pt s₀ s) (up : Bool) : Only pt s₀ (State.schStart s up) := by
  unfold State.schStart
  try dsimp only
  repeat' first | (with_reducible first | assumption | apply State.wn_only h_rf | apply State.motStartNow_only h_mot h_drv h_sch | apply each_only | apply foldl_only) | intro _ _ _ | split | (refine Only.upd ?_ (.inr rfl) (.inr rfl) (.inr rfl) (.inl h_rf) (.inr rfl) (.inr rfl) (.inr rfl) (.inl h_mot) (.inl h_drv) (.inl h_sch) (.inr rfl) (.inr rfl) (.inr rfl) (.inr rfl) (.inr rfl) (.inr rfl) (.inr rfl) (.inr rfl) (.inr rfl) (.inr rfl) (.inr rfl) (.inr rfl) (.inr rfl) (.inr rfl) (.inr rfl) (.inr rfl); try dsimp only)

theorem State.ltWrite_only {pt : Parts} (h_rf : pt.rf = true) (h_irqNow : pt.irqNow = true) (h_sch : pt.sch = true) (h_bid : pt.bid = true) {s₀ s : State} (h : Only pt s₀ s) (addr : Nat) (val : Word) : Only pt s₀ (State.ltWrite s addr val) := by
  unfold State.ltWrite
  try dsimp only
  repeat' first | (with_reducible first | assumption | apply State.wr_only h_rf | apply State.dropHall_only h_rf h_irqNow h_sch h_bid | apply State.dropDest_only h_rf h_irqNow h_sch h_bid | apply each_only | apply foldl_only) | intro _ _ _ | split | (refine Only.upd ?_ (.inr rfl) (.inr rfl) (.inr rfl) (.inl h_rf) (.inl h_irqNow) (.inr rfl) (.inr rfl) (.inr rfl) (.inr rfl) (.inl h_sch) (.inl h_bid) (.inr rfl) (.inr rfl) (.inr rfl) (.inr rfl) (.inr rfl) (.inr rfl) (.inr rfl) (.inr rfl) (.inr rfl) (.inr rfl) (.inr rfl) (.inr rfl) (.inr rfl) (.inr rfl) (.inr rfl); try dsimp only)

theorem State.buttonOn_only {pt : Parts} (h_rf : pt.rf = true) (h_irqNow : pt.irqNow = true) (h_sch : pt.sch = true) (h_bid : pt.bid = true) (h_doorF : pt.doorF = true) (h_doorR : pt.doorR = true) (h_can : pt.can = true) {s₀ s : State} (h : Only pt s₀ s) (n : Nat) (press : Bool) : Only pt s₀ (State.buttonOn s n press) := by
  unfold State.buttonOn
  try dsimp only
  repeat' first | (with_reducible first | assumption  | apply each_only | apply foldl_only) | intro _ _ _ | split | (refine Only.upd ?_ (.inr rfl) (.inr rfl) (.inr rfl) (.inl h_rf) (.inl h_irqNow) (.inr rfl) (.inr rfl) (.inr rfl) (.inr rfl) (.inl h_sch) (.inl h_bid) (.inl h_doorF) (.inl h_doorR) (.inr rfl) (.inr rfl) (.inl h_can) (.inr rfl) (.inr rfl) (.inr rfl) (.inr rfl) (.inr rfl) (.inr rfl) (.inr rfl) (.inr rfl) (.inr rfl) (.inr rfl); try dsimp only)

theorem State.buttonOff_only {pt : Parts} (h_sch : pt.sch = true) {s₀ s : State} (h : Only pt s₀ s) (n : Nat) : Only pt s₀ (State.buttonOff s n) := by
  unfold State.buttonOff
  try dsimp only
  repeat' first | (with_reducible first | assumption  | apply each_only | apply foldl_only) | intro _ _ _ | split | (refine Only.upd ?_ (.inr rfl) (.inr rfl) (.inr rfl) (.inr rfl) (.inr rfl) (.inr rfl) (.inr rfl) (.inr rfl) (.inr rfl) (.inl h_sch) (.inr rfl) (.inr rfl) (.inr rfl) (.inr rfl) (.inr rfl) (.inr rfl) (.inr rfl) (.inr rfl) (.inr rfl) (.inr rfl) (.inr rfl) (.inr rfl) (.inr rfl) (.inr rfl) (.inr rfl) (.inr rfl); try dsimp only)

end Sys2Proof.Machine
end

