-- ==== Sys2Proof/Laws/OnlyBidOps.lean ====
section
/-! SUPPORT. Which parts of the state the operations of Machine/BidOps.lean leave the same. -/

set_option linter.unusedTactic false
set_option linter.unreachableTactic false

namespace Sys2Proof.Machine

theorem State.gcallDel_only {pt : Parts} (h_bid : pt.bid = true) {s₀ s : State} (h : Only pt s₀ s) (key : Nat) (seq : Nat) : Only pt s₀ (State.gcallDel s key seq) := by
  unfold State.gcallDel
  try dsimp only
  repeat' first | (with_reducible first | assumption  | apply each_only | apply foldl_only) | intro _ _ _ | split | (refine Only.upd ?_ (.inr rfl) (.inr rfl) (.inr rfl) (.inr rfl) (.inr rfl) (.inr rfl) (.inr rfl) (.inr rfl) (.inr rfl) (.inr rfl) (.inl h_bid) (.inr rfl) (.inr rfl) (.inr rfl) (.inr rfl) (.inr rfl) (.inr rfl) (.inr rfl) (.inr rfl) (.inr rfl) (.inr rfl) (.inr rfl) (.inr rfl) (.inr rfl) (.inr rfl) (.inr rfl); try dsimp only)

theorem State.gcallPut_only {pt : Parts} (h_bid : pt.bid = true) {s₀ s : State} (h : Only pt s₀ s) (c : GCall) : Only pt s₀ (State.gcallPut s c) := by
  unfold State.gcallPut
  try dsimp only
  repeat' first | (with_reducible first | assumption  | apply each_only | apply foldl_only) | intro _ _ _ | split | (refine Only.upd ?_ (.inr rfl) (.inr rfl) (.inr rfl) (.inr rfl) (.inr rfl) (.inr rfl) (.inr rfl) (.inr rfl) (.inr rfl) (.inr rfl) (.inl h_bid) (.inr rfl) (.inr rfl) (.inr rfl) (.inr rfl) (.inr rfl) (.inr rfl) (.inr rfl) (.inr rfl) (.inr rfl) (.inr rfl) (.inr rfl) (.inr rfl) (.inr rfl) (.inr rfl) (.inr rfl); try dsimp only)

theorem State.costRefresh_only {pt : Parts} (h_bid : pt.bid = true) {s₀ s : State} (h : Only pt s₀ s) : Only pt s₀ (State.costRefresh s) := by
  unfold State.costRefresh
  try dsimp only
  repeat' first | (with_reducible first | assumption  | apply each_only | apply foldl_only) | intro _ _ _ | split | (refine Only.upd ?_ (.inr rfl) (.inr rfl) (.inr rfl) (.inr rfl) (.inr rfl) (.inr rfl) (.inr rfl) (.inr rfl) (.inr rfl) (.inr rfl) (.inl h_bid) (.inr rfl) (.inr rfl) (.inr rfl) (.inr rfl) (.inr rfl) (.inr rfl) (.inr rfl) (.inr rfl) (.inr rfl) (.inr rfl) (.inr rfl) (.inr rfl) (.inr rfl) (.inr rfl) (.inr rfl); try dsimp only)

theorem State.bidRecall_only {pt : Parts} (h_bid : pt.bid = true) {s₀ s : State} (h : Only pt s₀ s) : Only pt s₀ (State.bidRecall s) := by
  unfold State.bidRecall
  try dsimp only
  repeat' first | (with_reducible first | assumption  | apply each_only | apply foldl_only) | intro _ _ _ | split | (refine Only.upd ?_ (.inr rfl) (.inr rfl) (.inr rfl) (.inr rfl) (.inr rfl) (.inr rfl) (.inr rfl) (.inr rfl) (.inr rfl) (.inr rfl) (.inl h_bid) (.inr rfl) (.inr rfl) (.inr rfl) (.inr rfl) (.inr rfl) (.inr rfl) (.inr rfl) (.inr rfl) (.inr rfl) (.inr rfl) (.inr rfl) (.inr rfl) (.inr rfl) (.inr rfl) (.inr rfl); try dsimp only)

theorem State.bidPump_only {pt : Parts} (h_rf : pt.rf = true) (h_irqNow : pt.irqNow = true) (h_bid : pt.bid = true) (h_can : pt.can = true) {s₀ s0 : State} (h : Only pt s₀ s0) : Only pt s₀ (State.bidPump s0) := by
  unfold State.bidPump
  try dsimp only
  repeat' first | (with_reducible first | assumption | apply State.bidRecall_only h_bid | apply State.canSend_only h_rf h_irqNow h_can | apply each_only | apply foldl_only) | intro _ _ _ | split | (refine Only.upd ?_ (.inr rfl) (.inr rfl) (.inr rfl) (.inl h_rf) (.inl h_irqNow) (.inr rfl) (.inr rfl) (.inr rfl) (.inr rfl) (.inr rfl) (.inl h_bid) (.inr rfl) (.inr rfl) (.inr rfl) (.inr rfl) (.inl h_can) (.inr rfl) (.inr rfl) (.inr rfl) (.inr rfl) (.inr rfl) (.inr rfl) (.inr rfl) (.inr rfl) (.inr rfl) (.inr rfl); try dsimp only)

theorem State.announceCall_only {pt : Parts} (h_rf : pt.rf = true) (h_irqNow : pt.irqNow = true) (h_bid : pt.bid = true) (h_can : pt.can = true) {s₀ s : State} (h : Only pt s₀ s) (c : GCall) (flags : Nat) (holder : Nat) : Only pt s₀ (State.announceCall s c flags holder) := by
  unfold State.announceCall
  try dsimp only
  repeat' first | (with_reducible first | assumption | apply State.bidPush_only h_rf h_irqNow h_bid | apply State.bidPump_only h_rf h_irqNow h_bid h_can | apply each_only | apply foldl_only) | intro _ _ _ | split | dsimp only

theorem State.bidProto_only {pt : Parts} (h_rf : pt.rf = true) (h_irqNow : pt.irqNow = true) {s₀ s : State} (h : Only pt s₀ s) : Only pt s₀ (State.bidProto s) := by
  unfold State.bidProto
  try dsimp only
  repeat' first | (with_reducible first | assumption | apply State.bump_only h_rf | apply State.raise_only h_rf h_irqNow | apply each_only | apply foldl_only) | intro _ _ _ | split | dsimp only

theorem State.bidYield_only {pt : Parts} (h_rf : pt.rf = true) (h_irqNow : pt.irqNow = true) (h_bid : pt.bid = true) (h_can : pt.can = true) {s₀ s : State} (h : Only pt s₀ s) (key : Nat) (seq : Nat) : Only pt s₀ (State.bidYield s key seq) := by
  unfold State.bidYield
  try dsimp only
  repeat' first | (with_reducible first | assumption | apply State.canAbort_only h_rf h_irqNow h_can | apply each_only | apply foldl_only) | intro _ _ _ | split | (refine Only.upd ?_ (.inr rfl) (.inr rfl) (.inr rfl) (.inl h_rf) (.inl h_irqNow) (.inr rfl) (.inr rfl) (.inr rfl) (.inr rfl) (.inr rfl) (.inl h_bid) (.inr rfl) (.inr rfl) (.inr rfl) (.inr rfl) (.inl h_can) (.inr rfl) (.inr rfl) (.inr rfl) (.inr rfl) (.inr rfl) (.inr rfl) (.inr rfl) (.inr rfl) (.inr rfl) (.inr rfl); try dsimp only)

theorem State.bidLearn_only {pt : Parts} (h_bid : pt.bid = true) {s₀ s : State} (h : Only pt s₀ s) (key : Nat) (seq : Nat) (dest : Nat) (flags : Nat) (holder : Nat) (age : Nat) (slot : Nat) : Only pt s₀ (State.bidLearn s key seq dest flags holder age slot) := by
  unfold State.bidLearn
  try dsimp only
  repeat' first | (with_reducible first | assumption | apply State.gcallPut_only h_bid | apply each_only | apply foldl_only) | intro _ _ _ | split | dsimp only

theorem State.bidArm_only {pt : Parts} (h_rf : pt.rf = true) (h_irqNow : pt.irqNow = true) (h_bid : pt.bid = true) (h_can : pt.can = true) {s₀ s : State} (h : Only pt s₀ s) (key : Nat) (seq : Nat) (dest : Nat) (flags : Nat) (holder : Nat) (slot : Nat) (tag : Nat) (vpUs : Nat) : Only pt s₀ (State.bidArm s key seq dest flags holder slot tag vpUs) := by
  unfold State.bidArm
  try dsimp only
  repeat' first | (with_reducible first | assumption | apply State.canFill_only h_rf h_can | apply State.canRequestIn_only h_rf h_irqNow h_can | apply each_only | apply foldl_only) | intro _ _ _ | split | (refine Only.upd ?_ (.inr rfl) (.inr rfl) (.inr rfl) (.inl h_rf) (.inl h_irqNow) (.inr rfl) (.inr rfl) (.inr rfl) (.inr rfl) (.inr rfl) (.inl h_bid) (.inr rfl) (.inr rfl) (.inr rfl) (.inr rfl) (.inl h_can) (.inr rfl) (.inr rfl) (.inr rfl) (.inr rfl) (.inr rfl) (.inr rfl) (.inr rfl) (.inr rfl) (.inr rfl) (.inr rfl); try dsimp only)

theorem State.announceHeard_only {pt : Parts} (h_rf : pt.rf = true) (h_irqNow : pt.irqNow = true) (h_bid : pt.bid = true) (h_can : pt.can = true) {s₀ s : State} (h : Only pt s₀ s) (id : Nat) (d : List Byte) (vpUs : Nat) : Only pt s₀ (State.announceHeard s id d vpUs) := by
  unfold State.announceHeard
  try dsimp only
  repeat' first | (with_reducible first | assumption | apply State.bidYield_only h_rf h_irqNow h_bid h_can | apply State.bump_only h_rf | apply State.bidLearn_only h_bid | apply State.bidArm_only h_rf h_irqNow h_bid h_can | apply each_only | apply foldl_only) | intro _ _ _ | split | (refine Only.upd ?_ (.inr rfl) (.inr rfl) (.inr rfl) (.inl h_rf) (.inl h_irqNow) (.inr rfl) (.inr rfl) (.inr rfl) (.inr rfl) (.inr rfl) (.inl h_bid) (.inr rfl) (.inr rfl) (.inr rfl) (.inr rfl) (.inl h_can) (.inr rfl) (.inr rfl) (.inr rfl) (.inr rfl) (.inr rfl) (.inr rfl) (.inr rfl) (.inr rfl) (.inr rfl) (.inr rfl); try dsimp only)

theorem State.announcementRx_only {pt : Parts} (h_rf : pt.rf = true) (h_irqNow : pt.irqNow = true) (h_bid : pt.bid = true) (h_can : pt.can = true) {s₀ s : State} (h : Only pt s₀ s) (f : CanFrame) : Only pt s₀ (State.announcementRx s f) := by
  unfold State.announcementRx
  try dsimp only
  repeat' first | (with_reducible first | assumption | apply State.bidProto_only h_rf h_irqNow | apply State.announceHeard_only h_rf h_irqNow h_bid h_can | apply each_only | apply foldl_only) | intro _ _ _ | split | dsimp only

theorem State.roundClose_only {pt : Parts} (h_rf : pt.rf = true) (h_irqNow : pt.irqNow = true) (h_bid : pt.bid = true) (h_can : pt.can = true) {s₀ s : State} (h : Only pt s₀ s) : Only pt s₀ (State.roundClose s) := by
  unfold State.roundClose
  try dsimp only
  repeat' first | (with_reducible first | assumption | apply State.canAbort_only h_rf h_irqNow h_can | apply each_only | apply foldl_only) | intro _ _ _ | split | (refine Only.upd ?_ (.inr rfl) (.inr rfl) (.inr rfl) (.inl h_rf) (.inl h_irqNow) (.inr rfl) (.inr rfl) (.inr rfl) (.inr rfl) (.inr rfl) (.inl h_bid) (.inr rfl) (.inr rfl) (.inr rfl) (.inr rfl) (.inl h_can) (.inr rfl) (.inr rfl) (.inr rfl) (.inr rfl) (.inr rfl) (.inr rfl) (.inr rfl) (.inr rfl) (.inr rfl) (.inr rfl); try dsimp only)

theorem State.bidStale_only {pt : Parts} (h_rf : pt.rf = true) {s₀ s : State} (h : Only pt s₀ s) (key : Nat) (tag : Nat) : Only pt s₀ (State.bidStale s key tag) := by
  unfold State.bidStale
  try dsimp only
  repeat' first | (with_reducible first | assumption | apply State.bump_only h_rf | apply each_only | apply foldl_only) | intro _ _ _ | split | (refine Only.upd ?_ (.inr rfl) (.inr rfl) (.inr rfl) (.inl h_rf) (.inr rfl) (.inr rfl) (.inr rfl) (.inr rfl) (.inr rfl) (.inr rfl) (.inr rfl) (.inr rfl) (.inr rfl) (.inr rfl) (.inr rfl) (.inr rfl) (.inr rfl) (.inr rfl) (.inr rfl) (.inr rfl) (.inr rfl) (.inr rfl) (.inr rfl) (.inr rfl) (.inr rfl) (.inr rfl); try dsimp only)

theorem State.bidHeard_only {pt : Parts} (h_rf : pt.rf = true) (h_irqNow : pt.irqNow = true) (h_bid : pt.bid = true) (h_can : pt.can = true) {s₀ s : State} (h : Only pt s₀ s) (id : Nat) (d : List Byte) : Only pt s₀ (State.bidHeard s id d) := by
  unfold State.bidHeard
  try dsimp only
  repeat' first | (with_reducible first | assumption | apply State.roundClose_only h_rf h_irqNow h_bid h_can | apply State.wr_only h_rf | apply State.bidPump_only h_rf h_irqNow h_bid h_can | apply State.bidStale_only h_rf | apply each_only | apply foldl_only) | intro _ _ _ | split | (refine Only.upd ?_ (.inr rfl) (.inr rfl) (.inr rfl) (.inl h_rf) (.inl h_irqNow) (.inr rfl) (.inr rfl) (.inr rfl) (.inr rfl) (.inr rfl) (.inl h_bid) (.inr rfl) (.inr rfl) (.inr rfl) (.inr rfl) (.inl h_can) (.inr rfl) (.inr rfl) (.inr rfl) (.inr rfl) (.inr rfl) (.inr rfl) (.inr rfl) (.inr rfl) (.inr rfl) (.inr rfl); try dsimp only)

theorem State.bidFrameRx_only {pt : Parts} (h_rf : pt.rf = true) (h_irqNow : pt.irqNow = true) (h_bid : pt.bid = true) (h_can : pt.can = true) {s₀ s : State} (h : Only pt s₀ s) (f : CanFrame) : Only pt s₀ (State.bidFrameRx s f) := by
  unfold State.bidFrameRx
  try dsimp only
  repeat' first | (with_reducible first | assumption | apply State.bidProto_only h_rf h_irqNow | apply State.bidHeard_only h_rf h_irqNow h_bid h_can | apply each_only | apply foldl_only) | intro _ _ _ | split | dsimp only

theorem State.roundNobid_only {pt : Parts} (h_rf : pt.rf = true) (h_irqNow : pt.irqNow = true) (h_bid : pt.bid = true) (h_can : pt.can = true) {s₀ s : State} (h : Only pt s₀ s) : Only pt s₀ (State.roundNobid s) := by
  unfold State.roundNobid
  try dsimp only
  repeat' first | (with_reducible first | assumption | apply State.roundClose_only h_rf h_irqNow h_bid h_can | apply State.bump_only h_rf | apply State.raise_only h_rf h_irqNow | apply State.gcallPut_only h_bid | apply State.bidPump_only h_rf h_irqNow h_bid h_can | apply each_only | apply foldl_only) | intro _ _ _ | split | (refine Only.upd ?_ (.inr rfl) (.inr rfl) (.inr rfl) (.inl h_rf) (.inl h_irqNow) (.inr rfl) (.inr rfl) (.inr rfl) (.inr rfl) (.inr rfl) (.inl h_bid) (.inr rfl) (.inr rfl) (.inr rfl) (.inr rfl) (.inl h_can) (.inr rfl) (.inr rfl) (.inr rfl) (.inr rfl) (.inr rfl) (.inr rfl) (.inr rfl) (.inr rfl) (.inr rfl) (.inr rfl); try dsimp only)

theorem State.releaseHeard_only {pt : Parts} (h_rf : pt.rf = true) (h_irqNow : pt.irqNow = true) (h_bid : pt.bid = true) (h_can : pt.can = true) {s₀ s : State} (h : Only pt s₀ s) (id : Nat) (d : List Byte) : Only pt s₀ (State.releaseHeard s id d) := by
  unfold State.releaseHeard
  try dsimp only
  repeat' first | (with_reducible first | assumption | apply State.bump_only h_rf | apply State.gcallDel_only h_bid | apply State.gcallPut_only h_bid | apply State.announceCall_only h_rf h_irqNow h_bid h_can | apply each_only | apply foldl_only) | intro _ _ _ | split | (refine Only.upd ?_ (.inr rfl) (.inr rfl) (.inr rfl) (.inl h_rf) (.inl h_irqNow) (.inr rfl) (.inr rfl) (.inr rfl) (.inr rfl) (.inr rfl) (.inl h_bid) (.inr rfl) (.inr rfl) (.inr rfl) (.inr rfl) (.inl h_can) (.inr rfl) (.inr rfl) (.inr rfl) (.inr rfl) (.inr rfl) (.inr rfl) (.inr rfl) (.inr rfl) (.inr rfl) (.inr rfl); try dsimp only)

theorem State.releaseRx_only {pt : Parts} (h_rf : pt.rf = true) (h_irqNow : pt.irqNow = true) (h_bid : pt.bid = true) (h_can : pt.can = true) {s₀ s : State} (h : Only pt s₀ s) (f : CanFrame) : Only pt s₀ (State.releaseRx s f) := by
  unfold State.releaseRx
  try dsimp only
  repeat' first | (with_reducible first | assumption | apply State.bidProto_only h_rf h_irqNow | apply State.releaseHeard_only h_rf h_irqNow h_bid h_can | apply each_only | apply foldl_only) | intro _ _ _ | split | dsimp only

theorem State.bidSent_only {pt : Parts} (h_rf : pt.rf = true) (h_irqNow : pt.irqNow = true) (h_bid : pt.bid = true) (h_can : pt.can = true) {s₀ s : State} (h : Only pt s₀ s) (j : Nat) (sofUs : Nat) : Only pt s₀ (State.bidSent s j sofUs) := by
  unfold State.bidSent
  try dsimp only
  repeat' first | (with_reducible first | assumption | apply State.bidHeard_only h_rf h_irqNow h_bid h_can | apply State.releaseHeard_only h_rf h_irqNow h_bid h_can | apply State.bidPump_only h_rf h_irqNow h_bid h_can | apply State.announceHeard_only h_rf h_irqNow h_bid h_can | apply each_only | apply foldl_only) | intro _ _ _ | split | (refine Only.upd ?_ (.inr rfl) (.inr rfl) (.inr rfl) (.inl h_rf) (.inl h_irqNow) (.inr rfl) (.inr rfl) (.inr rfl) (.inr rfl) (.inr rfl) (.inl h_bid) (.inr rfl) (.inr rfl) (.inr rfl) (.inr rfl) (.inl h_can) (.inr rfl) (.inr rfl) (.inr rfl) (.inr rfl) (.inr rfl) (.inr rfl) (.inr rfl) (.inr rfl) (.inr rfl) (.inr rfl); try dsimp only)

theorem State.awardLost_only {pt : Parts} (h_rf : pt.rf = true) (h_irqNow : pt.irqNow = true) (h_sch : pt.sch = true) (h_bid : pt.bid = true) {s₀ s : State} (h : Only pt s₀ s) (key : Nat) (seq : Nat) : Only pt s₀ (State.awardLost s key seq) := by
  unfold State.awardLost
  try dsimp only
  repeat' first | (with_reducible first | assumption | apply State.raise_only h_rf h_irqNow | apply each_only | apply foldl_only) | intro _ _ _ | split | (refine Only.upd ?_ (.inr rfl) (.inr rfl) (.inr rfl) (.inl h_rf) (.inl h_irqNow) (.inr rfl) (.inr rfl) (.inr rfl) (.inr rfl) (.inl h_sch) (.inl h_bid) (.inr rfl) (.inr rfl) (.inr rfl) (.inr rfl) (.inr rfl) (.inr rfl) (.inr rfl) (.inr rfl) (.inr rfl) (.inr rfl) (.inr rfl) (.inr rfl) (.inr rfl) (.inr rfl) (.inr rfl); try dsimp only)

theorem State.awardWon_only {pt : Parts} (h_rf : pt.rf = true) (h_irqNow : pt.irqNow = true) (h_sch : pt.sch = true) (h_bid : pt.bid = true) (h_doorF : pt.doorF = true) (h_doorR : pt.doorR = true) {s₀ s : State} (h : Only pt s₀ s) (r : Round) : Only pt s₀ (State.awardWon s r) := by
  unfold State.awardWon
  try dsimp only
  repeat' first | (with_reducible first | assumption | apply State.bump_only h_rf | apply State.raise_only h_rf h_irqNow | apply State.destPlace_only h_rf h_irqNow h_sch h_bid h_doorF h_doorR | apply State.releaseCall_only h_rf h_irqNow h_bid | apply State.dropHall_only h_rf h_irqNow h_sch h_bid | apply State.hallCall_only h_rf h_irqNow h_sch h_bid h_doorF h_doorR | apply each_only | apply foldl_only) | intro _ _ _ | split | (refine Only.upd ?_ (.inr rfl) (.inr rfl) (.inr rfl) (.inl h_rf) (.inl h_irqNow) (.inr rfl) (.inr rfl) (.inr rfl) (.inr rfl) (.inl h_sch) (.inl h_bid) (.inl h_doorF) (.inl h_doorR) (.inr rfl) (.inr rfl) (.inr rfl) (.inr rfl) (.inr rfl) (.inr rfl) (.inr rfl) (.inr rfl) (.inr rfl) (.inr rfl) (.inr rfl) (.inr rfl) (.inr rfl); try dsimp only)

theorem State.awardNow_only {pt : Parts} (h_rf : pt.rf = true) (h_irqNow : pt.irqNow = true) (h_sch : pt.sch = true) (h_bid : pt.bid = true) (h_doorF : pt.doorF = true) (h_doorR : pt.doorR = true) {s₀ s : State} (h : Only pt s₀ s) (r : Round) (car : Nat) : Only pt s₀ (State.awardNow s r car) := by
  unfold State.awardNow
  try dsimp only
  repeat' first | (with_reducible first | assumption | apply State.awardLost_only h_rf h_irqNow h_sch h_bid | apply State.gcallPut_only h_bid | apply State.awardWon_only h_rf h_irqNow h_sch h_bid h_doorF h_doorR | apply each_only | apply foldl_only) | intro _ _ _ | split | dsimp only

theorem State.awardsBy_only {pt : Parts} (h_rf : pt.rf = true) (h_irqNow : pt.irqNow = true) (h_sch : pt.sch = true) (h_bid : pt.bid = true) (h_doorF : pt.doorF = true) (h_doorR : pt.doorR = true) (h_can : pt.can = true) {s₀ s : State} (h : Only pt s₀ s) (k : Nat) : Only pt s₀ (State.awardsBy s k) := by
  unfold State.awardsBy
  try dsimp only
  repeat' first | (with_reducible first | assumption | apply State.awardNow_only h_rf h_irqNow h_sch h_bid h_doorF h_doorR | apply State.bidPump_only h_rf h_irqNow h_bid h_can | apply each_only | apply foldl_only) | intro _ _ _ | split | (refine Only.upd ?_ (.inr rfl) (.inr rfl) (.inr rfl) (.inl h_rf) (.inl h_irqNow) (.inr rfl) (.inr rfl) (.inr rfl) (.inr rfl) (.inl h_sch) (.inl h_bid) (.inl h_doorF) (.inl h_doorR) (.inr rfl) (.inr rfl) (.inl h_can) (.inr rfl) (.inr rfl) (.inr rfl) (.inr rfl) (.inr rfl) (.inr rfl) (.inr rfl) (.inr rfl) (.inr rfl) (.inr rfl); try dsimp only)

theorem State.awardsNow_only {pt : Parts} (h_rf : pt.rf = true) (h_irqNow : pt.irqNow = true) (h_sch : pt.sch = true) (h_bid : pt.bid = true) (h_doorF : pt.doorF = true) (h_doorR : pt.doorR = true) (h_can : pt.can = true) {s₀ s : State} (h : Only pt s₀ s) : Only pt s₀ (State.awardsNow s) := by
  unfold State.awardsNow
  try dsimp only
  repeat' first | (with_reducible first | assumption | apply State.awardsBy_only h_rf h_irqNow h_sch h_bid h_doorF h_doorR h_can | apply each_only | apply foldl_only) | intro _ _ _ | split | dsimp only

theorem State.buttonSlot_only {pt : Parts} (h_rf : pt.rf = true) (h_irqNow : pt.irqNow = true) (h_sch : pt.sch = true) (h_bid : pt.bid = true) (h_doorF : pt.doorF = true) (h_doorR : pt.doorR = true) (h_can : pt.can = true) {s₀ s : State} (h : Only pt s₀ s) : Only pt s₀ (State.buttonSlot s) := by
  unfold State.buttonSlot
  try dsimp only
  repeat' first | (with_reducible first | assumption | apply State.awardsNow_only h_rf h_irqNow h_sch h_bid h_doorF h_doorR h_can | apply State.carCall_only h_rf h_irqNow h_sch h_bid h_doorF h_doorR | apply each_only | apply foldl_only) | intro _ _ _ | split | (refine Only.upd ?_ (.inr rfl) (.inr rfl) (.inr rfl) (.inl h_rf) (.inl h_irqNow) (.inr rfl) (.inr rfl) (.inr rfl) (.inr rfl) (.inl h_sch) (.inl h_bid) (.inl h_doorF) (.inl h_doorR) (.inr rfl) (.inr rfl) (.inl h_can) (.inr rfl) (.inr rfl) (.inr rfl) (.inr rfl) (.inr rfl) (.inr rfl) (.inr rfl) (.inr rfl) (.inr rfl) (.inr rfl); try dsimp only)

theorem State.schSlot_only {pt : Parts} (h_rf : pt.rf = true) (h_irqNow : pt.irqNow = true) (h_sch : pt.sch = true) (h_bid : pt.bid = true) (h_doorF : pt.doorF = true) (h_doorR : pt.doorR = true) (h_can : pt.can = true) {s₀ s : State} (h : Only pt s₀ s) : Only pt s₀ (State.schSlot s) := by
  unfold State.schSlot
  try dsimp only
  repeat' first | (with_reducible first | assumption | apply State.buttonSlot_only h_rf h_irqNow h_sch h_bid h_doorF h_doorR h_can | apply State.hereSettle_only h_rf h_irqNow h_sch h_bid h_doorF h_doorR | apply State.recallHere_only h_rf h_irqNow h_sch h_doorF h_doorR | apply each_only | apply foldl_only) | intro _ _ _ | split | dsimp only

theorem State.pressNew_only {pt : Parts} (h_rf : pt.rf = true) (h_irqNow : pt.irqNow = true) (h_bid : pt.bid = true) (h_can : pt.can = true) {s₀ s : State} (h : Only pt s₀ s) (key : Nat) (dest : Nat) (seq : Nat) : Only pt s₀ (State.pressNew s key dest seq) := by
  unfold State.pressNew
  try dsimp only
  repeat' first | (with_reducible first | assumption | apply State.gcallPut_only h_bid | apply State.announceCall_only h_rf h_irqNow h_bid h_can | apply each_only | apply foldl_only) | intro _ _ _ | split | (refine Only.upd ?_ (.inr rfl) (.inr rfl) (.inr rfl) (.inl h_rf) (.inl h_irqNow) (.inr rfl) (.inr rfl) (.inr rfl) (.inr rfl) (.inr rfl) (.inl h_bid) (.inr rfl) (.inr rfl) (.inr rfl) (.inr rfl) (.inl h_can) (.inr rfl) (.inr rfl) (.inr rfl) (.inr rfl) (.inr rfl) (.inr rfl) (.inr rfl) (.inr rfl) (.inr rfl) (.inr rfl); try dsimp only)

theorem State.pressIsland_only {pt : Parts} (h_rf : pt.rf = true) (h_irqNow : pt.irqNow = true) (h_sch : pt.sch = true) (h_bid : pt.bid = true) (h_doorF : pt.doorF = true) (h_doorR : pt.doorR = true) {s₀ s : State} (h : Only pt s₀ s) (key : Nat) (dest : Nat) (seq : Nat) : Only pt s₀ (State.pressIsland s key dest seq) := by
  unfold State.pressIsland
  try dsimp only
  repeat' first | (with_reducible first | assumption | apply State.gcallPut_only h_bid | apply State.destPlace_only h_rf h_irqNow h_sch h_bid h_doorF h_doorR | apply State.hallCall_only h_rf h_irqNow h_sch h_bid h_doorF h_doorR | apply each_only | apply foldl_only) | intro _ _ _ | split | (refine Only.upd ?_ (.inr rfl) (.inr rfl) (.inr rfl) (.inl h_rf) (.inl h_irqNow) (.inr rfl) (.inr rfl) (.inr rfl) (.inr rfl) (.inl h_sch) (.inl h_bid) (.inl h_doorF) (.inl h_doorR) (.inr rfl) (.inr rfl) (.inr rfl) (.inr rfl) (.inr rfl) (.inr rfl) (.inr rfl) (.inr rfl) (.inr rfl) (.inr rfl) (.inr rfl) (.inr rfl) (.inr rfl); try dsimp only)

theorem State.press_only {pt : Parts} (h_rf : pt.rf = true) (h_irqNow : pt.irqNow = true) (h_sch : pt.sch = true) (h_bid : pt.bid = true) (h_doorF : pt.doorF = true) (h_doorR : pt.doorR = true) (h_can : pt.can = true) {s₀ s : State} (h : Only pt s₀ s) (key : Nat) (dest : Nat) (seq : Nat) : Only pt s₀ (State.press s key dest seq) := by
  unfold State.press
  try dsimp only
  repeat' first | (with_reducible first | assumption | apply State.pressNew_only h_rf h_irqNow h_bid h_can | apply State.pressIsland_only h_rf h_irqNow h_sch h_bid h_doorF h_doorR | apply each_only | apply foldl_only) | intro _ _ _ | split | (refine Only.upd ?_ (.inr rfl) (.inr rfl) (.inr rfl) (.inl h_rf) (.inl h_irqNow) (.inr rfl) (.inr rfl) (.inr rfl) (.inr rfl) (.inl h_sch) (.inl h_bid) (.inl h_doorF) (.inl h_doorR) (.inr rfl) (.inr rfl) (.inl h_can) (.inr rfl) (.inr rfl) (.inr rfl) (.inr rfl) (.inr rfl) (.inr rfl) (.inr rfl) (.inr rfl) (.inr rfl) (.inr rfl); try dsimp only)

theorem State.pressRx_only {pt : Parts} (h_rf : pt.rf = true) (h_irqNow : pt.irqNow = true) (h_sch : pt.sch = true) (h_bid : pt.bid = true) (h_doorF : pt.doorF = true) (h_doorR : pt.doorR = true) (h_can : pt.can = true) {s₀ s : State} (h : Only pt s₀ s) (f : CanFrame) : Only pt s₀ (State.pressRx s f) := by
  unfold State.pressRx
  try dsimp only
  repeat' first | (with_reducible first | assumption | apply State.press_only h_rf h_irqNow h_sch h_bid h_doorF h_doorR h_can | apply each_only | apply foldl_only) | intro _ _ _ | split | dsimp only

theorem State.bidInto_only {pt : Parts} (h_rf : pt.rf = true) (h_irqNow : pt.irqNow = true) (h_bid : pt.bid = true) {s₀ s : State} (h : Only pt s₀ s) (m : Member) : Only pt s₀ (State.bidInto s m) := by
  unfold State.bidInto
  try dsimp only
  repeat' first | (with_reducible first | assumption | apply State.raise_only h_rf h_irqNow | apply each_only | apply foldl_only) | intro _ _ _ | split | (refine Only.upd ?_ (.inr rfl) (.inr rfl) (.inr rfl) (.inl h_rf) (.inl h_irqNow) (.inr rfl) (.inr rfl) (.inr rfl) (.inr rfl) (.inr rfl) (.inl h_bid) (.inr rfl) (.inr rfl) (.inr rfl) (.inr rfl) (.inr rfl) (.inr rfl) (.inr rfl) (.inr rfl) (.inr rfl) (.inr rfl) (.inr rfl) (.inr rfl) (.inr rfl) (.inr rfl) (.inr rfl); try dsimp only)

theorem State.bidSilent_only {pt : Parts} (h_rf : pt.rf = true) (h_irqNow : pt.irqNow = true) (h_bid : pt.bid = true) (h_can : pt.can = true) {s₀ s : State} (h : Only pt s₀ s) : Only pt s₀ (State.bidSilent s) := by
  unfold State.bidSilent
  try dsimp only
  repeat' first | (with_reducible first | assumption | apply State.canAbort_only h_rf h_irqNow h_can | apply State.bidRecall_only h_bid | apply each_only | apply foldl_only) | intro _ _ _ | split | (refine Only.upd ?_ (.inr rfl) (.inr rfl) (.inr rfl) (.inl h_rf) (.inl h_irqNow) (.inr rfl) (.inr rfl) (.inr rfl) (.inr rfl) (.inr rfl) (.inl h_bid) (.inr rfl) (.inr rfl) (.inr rfl) (.inr rfl) (.inl h_can) (.inr rfl) (.inr rfl) (.inr rfl) (.inr rfl) (.inr rfl) (.inr rfl) (.inr rfl) (.inr rfl) (.inr rfl) (.inr rfl); try dsimp only)

theorem State.bidListen_only {pt : Parts} (h_rf : pt.rf = true) (h_irqNow : pt.irqNow = true) (h_bid : pt.bid = true) {s₀ s : State} (h : Only pt s₀ s) : Only pt s₀ (State.bidListen s) := by
  unfold State.bidListen
  try dsimp only
  repeat' first | (with_reducible first | assumption | apply State.bidInto_only h_rf h_irqNow h_bid | apply each_only | apply foldl_only) | intro _ _ _ | split | (refine Only.upd ?_ (.inr rfl) (.inr rfl) (.inr rfl) (.inl h_rf) (.inl h_irqNow) (.inr rfl) (.inr rfl) (.inr rfl) (.inr rfl) (.inr rfl) (.inl h_bid) (.inr rfl) (.inr rfl) (.inr rfl) (.inr rfl) (.inr rfl) (.inr rfl) (.inr rfl) (.inr rfl) (.inr rfl) (.inr rfl) (.inr rfl) (.inr rfl) (.inr rfl) (.inr rfl) (.inr rfl); try dsimp only)

theorem State.adoptCalls_only {pt : Parts} (h_bid : pt.bid = true) {s₀ s : State} (h : Only pt s₀ s) : Only pt s₀ (State.adoptCalls s) := by
  unfold State.adoptCalls
  try dsimp only
  repeat' first | (with_reducible first | assumption | apply State.gcallPut_only h_bid | apply each_only | apply foldl_only) | intro _ _ _ | split | (refine Only.upd ?_ (.inr rfl) (.inr rfl) (.inr rfl) (.inr rfl) (.inr rfl) (.inr rfl) (.inr rfl) (.inr rfl) (.inr rfl) (.inr rfl) (.inl h_bid) (.inr rfl) (.inr rfl) (.inr rfl) (.inr rfl) (.inr rfl) (.inr rfl) (.inr rfl) (.inr rfl) (.inr rfl) (.inr rfl) (.inr rfl) (.inr rfl) (.inr rfl) (.inr rfl) (.inr rfl); try dsimp only)

theorem State.bidJoin_only {pt : Parts} (h_rf : pt.rf = true) (h_irqNow : pt.irqNow = true) (h_sch : pt.sch = true) (h_bid : pt.bid = true) (h_doorF : pt.doorF = true) (h_doorR : pt.doorR = true) (h_can : pt.can = true) {s₀ s : State} (h : Only pt s₀ s) : Only pt s₀ (State.bidJoin s) := by
  unfold State.bidJoin
  try dsimp only
  repeat' first | (with_reducible first | assumption | apply State.adoptCalls_only h_bid | apply State.bidInto_only h_rf h_irqNow h_bid | apply State.press_only h_rf h_irqNow h_sch h_bid h_doorF h_doorR h_can | apply State.announceCall_only h_rf h_irqNow h_bid h_can | apply each_only | apply foldl_only) | intro _ _ _ | split | (refine Only.upd ?_ (.inr rfl) (.inr rfl) (.inr rfl) (.inl h_rf) (.inl h_irqNow) (.inr rfl) (.inr rfl) (.inr rfl) (.inr rfl) (.inl h_sch) (.inl h_bid) (.inl h_doorF) (.inl h_doorR) (.inr rfl) (.inr rfl) (.inl h_can) (.inr rfl) (.inr rfl) (.inr rfl) (.inr rfl) (.inr rfl) (.inr rfl) (.inr rfl) (.inr rfl) (.inr rfl) (.inr rfl); try dsimp only)

theorem State.listenEnd_only {pt : Parts} (h_rf : pt.rf = true) (h_irqNow : pt.irqNow = true) (h_sch : pt.sch = true) (h_bid : pt.bid = true) (h_doorF : pt.doorF = true) (h_doorR : pt.doorR = true) (h_can : pt.can = true) {s₀ s : State} (h : Only pt s₀ s) : Only pt s₀ (State.listenEnd s) := by
  unfold State.listenEnd
  try dsimp only
  repeat' first | (with_reducible first | assumption | apply State.bidJoin_only h_rf h_irqNow h_sch h_bid h_doorF h_doorR h_can | apply each_only | apply foldl_only) | intro _ _ _ | split | dsimp only

theorem State.bidWatch_only {pt : Parts} (h_bid : pt.bid = true) {s₀ s : State} (h : Only pt s₀ s) : Only pt s₀ (State.bidWatch s) := by
  unfold State.bidWatch
  try dsimp only
  repeat' first | (with_reducible first | assumption  | apply each_only | apply foldl_only) | intro _ _ _ | split | (refine Only.upd ?_ (.inr rfl) (.inr rfl) (.inr rfl) (.inr rfl) (.inr rfl) (.inr rfl) (.inr rfl) (.inr rfl) (.inr rfl) (.inr rfl) (.inl h_bid) (.inr rfl) (.inr rfl) (.inr rfl) (.inr rfl) (.inr rfl) (.inr rfl) (.inr rfl) (.inr rfl) (.inr rfl) (.inr rfl) (.inr rfl) (.inr rfl) (.inr rfl) (.inr rfl) (.inr rfl); try dsimp only)

theorem State.islandEnter_only {pt : Parts} (h_rf : pt.rf = true) (h_irqNow : pt.irqNow = true) (h_bid : pt.bid = true) (h_can : pt.can = true) {s₀ s : State} (h : Only pt s₀ s) : Only pt s₀ (State.islandEnter s) := by
  unfold State.islandEnter
  try dsimp only
  repeat' first | (with_reducible first | assumption | apply State.bidSilent_only h_rf h_irqNow h_bid h_can | apply State.bidInto_only h_rf h_irqNow h_bid | apply each_only | apply foldl_only) | intro _ _ _ | split | (refine Only.upd ?_ (.inr rfl) (.inr rfl) (.inr rfl) (.inl h_rf) (.inl h_irqNow) (.inr rfl) (.inr rfl) (.inr rfl) (.inr rfl) (.inr rfl) (.inl h_bid) (.inr rfl) (.inr rfl) (.inr rfl) (.inr rfl) (.inl h_can) (.inr rfl) (.inr rfl) (.inr rfl) (.inr rfl) (.inr rfl) (.inr rfl) (.inr rfl) (.inr rfl) (.inr rfl) (.inr rfl); try dsimp only)

theorem State.islandExit_only {pt : Parts} (h_rf : pt.rf = true) (h_irqNow : pt.irqNow = true) (h_bid : pt.bid = true) {s₀ s : State} (h : Only pt s₀ s) : Only pt s₀ (State.islandExit s) := by
  unfold State.islandExit
  try dsimp only
  repeat' first | (with_reducible first | assumption | apply State.bidListen_only h_rf h_irqNow h_bid | apply each_only | apply foldl_only) | intro _ _ _ | split | dsimp only

theorem State.bidRunSet_only {pt : Parts} (h_rf : pt.rf = true) (h_irqNow : pt.irqNow = true) (h_bid : pt.bid = true) {s₀ s : State} (h : Only pt s₀ s) : Only pt s₀ (State.bidRunSet s) := by
  unfold State.bidRunSet
  try dsimp only
  repeat' first | (with_reducible first | assumption | apply State.bidListen_only h_rf h_irqNow h_bid | apply each_only | apply foldl_only) | intro _ _ _ | split | (refine Only.upd ?_ (.inr rfl) (.inr rfl) (.inr rfl) (.inl h_rf) (.inl h_irqNow) (.inr rfl) (.inr rfl) (.inr rfl) (.inr rfl) (.inr rfl) (.inl h_bid) (.inr rfl) (.inr rfl) (.inr rfl) (.inr rfl) (.inr rfl) (.inr rfl) (.inr rfl) (.inr rfl) (.inr rfl) (.inr rfl) (.inr rfl) (.inr rfl) (.inr rfl) (.inr rfl) (.inr rfl); try dsimp only)

theorem State.bidStop_only {pt : Parts} (h_rf : pt.rf = true) (h_irqNow : pt.irqNow = true) (h_bid : pt.bid = true) (h_can : pt.can = true) {s₀ s : State} (h : Only pt s₀ s) : Only pt s₀ (State.bidStop s) := by
  unfold State.bidStop
  try dsimp only
  repeat' first | (with_reducible first | assumption | apply State.bidSilent_only h_rf h_irqNow h_bid h_can | apply State.bidInto_only h_rf h_irqNow h_bid | apply each_only | apply foldl_only) | intro _ _ _ | split | (refine Only.upd ?_ (.inr rfl) (.inr rfl) (.inr rfl) (.inl h_rf) (.inl h_irqNow) (.inr rfl) (.inr rfl) (.inr rfl) (.inr rfl) (.inr rfl) (.inl h_bid) (.inr rfl) (.inr rfl) (.inr rfl) (.inr rfl) (.inl h_can) (.inr rfl) (.inr rfl) (.inr rfl) (.inr rfl) (.inr rfl) (.inr rfl) (.inr rfl) (.inr rfl) (.inr rfl) (.inr rfl); try dsimp only)

theorem State.rebidNow_only {pt : Parts} (h_rf : pt.rf = true) (h_irqNow : pt.irqNow = true) (h_bid : pt.bid = true) (h_can : pt.can = true) {s₀ s : State} (h : Only pt s₀ s) (key : Nat) (seq : Nat) : Only pt s₀ (State.rebidNow s key seq) := by
  unfold State.rebidNow
  try dsimp only
  repeat' first | (with_reducible first | assumption | apply State.announceCall_only h_rf h_irqNow h_bid h_can | apply each_only | apply foldl_only) | intro _ _ _ | split | (refine Only.upd ?_ (.inr rfl) (.inr rfl) (.inr rfl) (.inl h_rf) (.inl h_irqNow) (.inr rfl) (.inr rfl) (.inr rfl) (.inr rfl) (.inr rfl) (.inl h_bid) (.inr rfl) (.inr rfl) (.inr rfl) (.inr rfl) (.inl h_can) (.inr rfl) (.inr rfl) (.inr rfl) (.inr rfl) (.inr rfl) (.inr rfl) (.inr rfl) (.inr rfl) (.inr rfl) (.inr rfl); try dsimp only)

theorem State.repeatNow_only {pt : Parts} (h_rf : pt.rf = true) (h_irqNow : pt.irqNow = true) (h_bid : pt.bid = true) (h_can : pt.can = true) {s₀ s : State} (h : Only pt s₀ s) (key : Nat) (seq : Nat) : Only pt s₀ (State.repeatNow s key seq) := by
  unfold State.repeatNow
  try dsimp only
  repeat' first | (with_reducible first | assumption | apply State.announceCall_only h_rf h_irqNow h_bid h_can | apply each_only | apply foldl_only) | intro _ _ _ | split | (refine Only.upd ?_ (.inr rfl) (.inr rfl) (.inr rfl) (.inl h_rf) (.inl h_irqNow) (.inr rfl) (.inr rfl) (.inr rfl) (.inr rfl) (.inr rfl) (.inl h_bid) (.inr rfl) (.inr rfl) (.inr rfl) (.inr rfl) (.inl h_can) (.inr rfl) (.inr rfl) (.inr rfl) (.inr rfl) (.inr rfl) (.inr rfl) (.inr rfl) (.inr rfl) (.inr rfl) (.inr rfl); try dsimp only)

theorem State.orphanNow_only {pt : Parts} (h_rf : pt.rf = true) (h_irqNow : pt.irqNow = true) (h_bid : pt.bid = true) (h_can : pt.can = true) {s₀ s : State} (h : Only pt s₀ s) (key : Nat) (seq : Nat) : Only pt s₀ (State.orphanNow s key seq) := by
  unfold State.orphanNow
  try dsimp only
  repeat' first | (with_reducible first | assumption | apply State.announceCall_only h_rf h_irqNow h_bid h_can | apply each_only | apply foldl_only) | intro _ _ _ | split | (refine Only.upd ?_ (.inr rfl) (.inr rfl) (.inr rfl) (.inl h_rf) (.inl h_irqNow) (.inr rfl) (.inr rfl) (.inr rfl) (.inr rfl) (.inr rfl) (.inl h_bid) (.inr rfl) (.inr rfl) (.inr rfl) (.inr rfl) (.inl h_can) (.inr rfl) (.inr rfl) (.inr rfl) (.inr rfl) (.inr rfl) (.inr rfl) (.inr rfl) (.inr rfl) (.inr rfl) (.inr rfl); try dsimp only)

theorem State.releaseAll_only {pt : Parts} (h_rf : pt.rf = true) (h_irqNow : pt.irqNow = true) (h_sch : pt.sch = true) (h_bid : pt.bid = true) (h_can : pt.can = true) {s₀ s : State} (h : Only pt s₀ s) : Only pt s₀ (State.releaseAll s) := by
  unfold State.releaseAll
  try dsimp only
  repeat' first | (with_reducible first | assumption | apply State.dropHall_only h_rf h_irqNow h_sch h_bid | apply State.dropDest_only h_rf h_irqNow h_sch h_bid | apply State.bidPump_only h_rf h_irqNow h_bid h_can | apply each_only | apply foldl_only) | intro _ _ _ | split | dsimp only

theorem State.queryTick_only {pt : Parts} (h_rf : pt.rf = true) (h_bid : pt.bid = true) {s₀ s : State} (h : Only pt s₀ s) : Only pt s₀ (State.queryTick s) := by
  unfold State.queryTick
  try dsimp only
  repeat' first | (with_reducible first | assumption | apply State.wr_only h_rf | apply each_only | apply foldl_only) | intro _ _ _ | split | (refine Only.upd ?_ (.inr rfl) (.inr rfl) (.inr rfl) (.inl h_rf) (.inr rfl) (.inr rfl) (.inr rfl) (.inr rfl) (.inr rfl) (.inr rfl) (.inl h_bid) (.inr rfl) (.inr rfl) (.inr rfl) (.inr rfl) (.inr rfl) (.inr rfl) (.inr rfl) (.inr rfl) (.inr rfl) (.inr rfl) (.inr rfl) (.inr rfl) (.inr rfl) (.inr rfl) (.inr rfl); try dsimp only)

theorem State.bidTick_only {pt : Parts} (h_rf : pt.rf = true) (h_irqNow : pt.irqNow = true) (h_bid : pt.bid = true) (h_can : pt.can = true) {s₀ s : State} (h : Only pt s₀ s) : Only pt s₀ (State.bidTick s) := by
  unfold State.bidTick
  try dsimp only
  repeat' first | (with_reducible first | assumption | apply State.bidWatch_only h_bid | apply State.costRefresh_only h_bid | apply State.bidPump_only h_rf h_irqNow h_bid h_can | apply each_only | apply foldl_only) | intro _ _ _ | split | dsimp only

end Sys2Proof.Machine
end

