-- ==== Sys2Proof/Laws/OnlyElOps.lean ====
section
/-! SUPPORT. Which parts of the state the operations of Machine/ElOps.lean leave the same. -/

set_option linter.unusedTactic false
set_option linter.unreachableTactic false

namespace Sys2Proof.Machine

theorem State.modeInto_only {pt : Parts} (h_rf : pt.rf = true) (h_irqNow : pt.irqNow = true) (h_el : pt.el = true) {s₀ s : State} (h : Only pt s₀ s) (m : ElMode) : Only pt s₀ (State.modeInto s m) := by
  unfold State.modeInto
  try dsimp only
  repeat' first | (with_reducible first | assumption | apply State.raise_only h_rf h_irqNow | apply each_only | apply foldl_only) | intro _ _ _ | split | (refine Only.upd ?_ (.inr rfl) (.inr rfl) (.inr rfl) (.inl h_rf) (.inl h_irqNow) (.inr rfl) (.inr rfl) (.inr rfl) (.inr rfl) (.inr rfl) (.inr rfl) (.inr rfl) (.inr rfl) (.inl h_el) (.inr rfl) (.inr rfl) (.inr rfl) (.inr rfl) (.inr rfl) (.inr rfl) (.inr rfl) (.inr rfl) (.inr rfl) (.inr rfl) (.inr rfl) (.inr rfl); try dsimp only)

theorem State.elMode_only {pt : Parts} (h_rf : pt.rf = true) (h_irqNow : pt.irqNow = true) (h_el : pt.el = true) {s₀ s : State} (h : Only pt s₀ s) : Only pt s₀ (State.elMode s) := by
  unfold State.elMode
  try dsimp only
  repeat' first | (with_reducible first | assumption | apply State.modeInto_only h_rf h_irqNow h_el | apply each_only | apply foldl_only) | intro _ _ _ | split | (refine Only.upd ?_ (.inr rfl) (.inr rfl) (.inr rfl) (.inl h_rf) (.inl h_irqNow) (.inr rfl) (.inr rfl) (.inr rfl) (.inr rfl) (.inr rfl) (.inr rfl) (.inr rfl) (.inr rfl) (.inl h_el) (.inr rfl) (.inr rfl) (.inr rfl) (.inr rfl) (.inr rfl) (.inr rfl) (.inr rfl) (.inr rfl) (.inr rfl) (.inr rfl) (.inr rfl) (.inr rfl); try dsimp only)

theorem State.elLimit_only {pt : Parts} (h_el : pt.el = true) {s₀ s : State} (h : Only pt s₀ s) : Only pt s₀ (State.elLimit s) := by
  unfold State.elLimit
  try dsimp only
  repeat' first | (with_reducible first | assumption  | apply each_only | apply foldl_only) | intro _ _ _ | split | (refine Only.upd ?_ (.inr rfl) (.inr rfl) (.inr rfl) (.inr rfl) (.inr rfl) (.inr rfl) (.inr rfl) (.inr rfl) (.inr rfl) (.inr rfl) (.inr rfl) (.inr rfl) (.inr rfl) (.inl h_el) (.inr rfl) (.inr rfl) (.inr rfl) (.inr rfl) (.inr rfl) (.inr rfl) (.inr rfl) (.inr rfl) (.inr rfl) (.inr rfl) (.inr rfl) (.inr rfl); try dsimp only)

theorem State.elDegrade_only {pt : Parts} (h_rf : pt.rf = true) (h_irqNow : pt.irqNow = true) (h_el : pt.el = true) {s₀ s : State} (h : Only pt s₀ s) : Only pt s₀ (State.elDegrade s) := by
  unfold State.elDegrade
  try dsimp only
  repeat' first | (with_reducible first | assumption | apply State.raise_only h_rf h_irqNow | apply each_only | apply foldl_only) | intro _ _ _ | split | (refine Only.upd ?_ (.inr rfl) (.inr rfl) (.inr rfl) (.inl h_rf) (.inl h_irqNow) (.inr rfl) (.inr rfl) (.inr rfl) (.inr rfl) (.inr rfl) (.inr rfl) (.inr rfl) (.inr rfl) (.inl h_el) (.inr rfl) (.inr rfl) (.inr rfl) (.inr rfl) (.inr rfl) (.inr rfl) (.inr rfl) (.inr rfl) (.inr rfl) (.inr rfl) (.inr rfl) (.inr rfl); try dsimp only)

theorem State.elPersist_only {pt : Parts} (h_rf : pt.rf = true) (h_el : pt.el = true) {s₀ s : State} (h : Only pt s₀ s) : Only pt s₀ (State.elPersist s) := by
  unfold State.elPersist
  try dsimp only
  repeat' first | (with_reducible first | assumption | apply State.bump_only h_rf | apply each_only | apply foldl_only) | intro _ _ _ | split | (refine Only.upd ?_ (.inr rfl) (.inr rfl) (.inr rfl) (.inl h_rf) (.inr rfl) (.inr rfl) (.inr rfl) (.inr rfl) (.inr rfl) (.inr rfl) (.inr rfl) (.inr rfl) (.inr rfl) (.inl h_el) (.inr rfl) (.inr rfl) (.inr rfl) (.inr rfl) (.inr rfl) (.inr rfl) (.inr rfl) (.inr rfl) (.inr rfl) (.inr rfl) (.inr rfl) (.inr rfl); try dsimp only)

theorem State.elArm_only {pt : Parts} (h_el : pt.el = true) {s₀ s : State} (h : Only pt s₀ s) : Only pt s₀ (State.elArm s) := by
  unfold State.elArm
  try dsimp only
  repeat' first | (with_reducible first | assumption  | apply each_only | apply foldl_only) | intro _ _ _ | split | (refine Only.upd ?_ (.inr rfl) (.inr rfl) (.inr rfl) (.inr rfl) (.inr rfl) (.inr rfl) (.inr rfl) (.inr rfl) (.inr rfl) (.inr rfl) (.inr rfl) (.inr rfl) (.inr rfl) (.inl h_el) (.inr rfl) (.inr rfl) (.inr rfl) (.inr rfl) (.inr rfl) (.inr rfl) (.inr rfl) (.inr rfl) (.inr rfl) (.inr rfl) (.inr rfl) (.inr rfl); try dsimp only)

theorem State.elLatches_only {pt : Parts} (h_el : pt.el = true) {s₀ s : State} (h : Only pt s₀ s) : Only pt s₀ (State.elLatches s) := by
  unfold State.elLatches
  try dsimp only
  repeat' first | (with_reducible first | assumption  | apply each_only | apply foldl_only) | intro _ _ _ | split | (refine Only.upd ?_ (.inr rfl) (.inr rfl) (.inr rfl) (.inr rfl) (.inr rfl) (.inr rfl) (.inr rfl) (.inr rfl) (.inr rfl) (.inr rfl) (.inr rfl) (.inr rfl) (.inr rfl) (.inl h_el) (.inr rfl) (.inr rfl) (.inr rfl) (.inr rfl) (.inr rfl) (.inr rfl) (.inr rfl) (.inr rfl) (.inr rfl) (.inr rfl) (.inr rfl) (.inr rfl); try dsimp only)

theorem State.elBypass_only {pt : Parts} (h_rf : pt.rf = true) (h_irqNow : pt.irqNow = true) (h_pos : pt.pos = true) (h_lwb : pt.lwb = true) (h_mot : pt.mot = true) (h_drv : pt.drv = true) (h_doorF : pt.doorF = true) (h_doorR : pt.doorR = true) (h_el : pt.el = true) (h_can : pt.can = true) (h_part : pt.part = true) (h_rcd : pt.rcd = true) {s₀ s : State} (h : Only pt s₀ s) : Only pt s₀ (State.elBypass s) := by
  unfold State.elBypass
  try dsimp only
  repeat' first | (with_reducible first | assumption | apply State.raise_only h_rf h_irqNow | apply State.trip_only h_rf h_irqNow h_pos h_lwb h_mot h_drv h_doorF h_doorR h_el h_can h_part h_rcd | apply each_only | apply foldl_only) | intro _ _ _ | split | (refine Only.upd ?_ (.inr rfl) (.inr rfl) (.inr rfl) (.inl h_rf) (.inl h_irqNow) (.inl h_pos) (.inl h_lwb) (.inl h_mot) (.inl h_drv) (.inr rfl) (.inr rfl) (.inl h_doorF) (.inl h_doorR) (.inl h_el) (.inr rfl) (.inl h_can) (.inr rfl) (.inr rfl) (.inr rfl) (.inl h_part) (.inl h_rcd) (.inr rfl) (.inr rfl) (.inr rfl) (.inr rfl) (.inr rfl); try dsimp only)

theorem State.elPermit_only {pt : Parts} (h_rf : pt.rf = true) (h_irqNow : pt.irqNow = true) (h_el : pt.el = true) {s₀ s : State} (h : Only pt s₀ s) : Only pt s₀ (State.elPermit s) := by
  unfold State.elPermit
  try dsimp only
  repeat' first | (with_reducible first | assumption | apply State.raise_only h_rf h_irqNow | apply each_only | apply foldl_only) | intro _ _ _ | split | (refine Only.upd ?_ (.inr rfl) (.inr rfl) (.inr rfl) (.inl h_rf) (.inl h_irqNow) (.inr rfl) (.inr rfl) (.inr rfl) (.inr rfl) (.inr rfl) (.inr rfl) (.inr rfl) (.inr rfl) (.inl h_el) (.inr rfl) (.inr rfl) (.inr rfl) (.inr rfl) (.inr rfl) (.inr rfl) (.inr rfl) (.inr rfl) (.inr rfl) (.inr rfl) (.inr rfl) (.inr rfl); try dsimp only)

theorem State.elOutputs_only {pt : Parts} (h_el : pt.el = true) {s₀ s : State} (h : Only pt s₀ s) : Only pt s₀ (State.elOutputs s) := by
  unfold State.elOutputs
  try dsimp only
  repeat' first | (with_reducible first | assumption  | apply each_only | apply foldl_only) | intro _ _ _ | split | (refine Only.upd ?_ (.inr rfl) (.inr rfl) (.inr rfl) (.inr rfl) (.inr rfl) (.inr rfl) (.inr rfl) (.inr rfl) (.inr rfl) (.inr rfl) (.inr rfl) (.inr rfl) (.inr rfl) (.inl h_el) (.inr rfl) (.inr rfl) (.inr rfl) (.inr rfl) (.inr rfl) (.inr rfl) (.inr rfl) (.inr rfl) (.inr rfl) (.inr rfl) (.inr rfl) (.inr rfl); try dsimp only)

theorem State.elProof_only {pt : Parts} (h_rf : pt.rf = true) (h_irqNow : pt.irqNow = true) (h_el : pt.el = true) {s₀ s : State} (h : Only pt s₀ s) : Only pt s₀ (State.elProof s) := by
  unfold State.elProof
  try dsimp only
  repeat' first | (with_reducible first | assumption | apply State.raise_only h_rf h_irqNow | apply State.rtEvent_only h_rf | apply each_only | apply foldl_only) | intro _ _ _ | split | (refine Only.upd ?_ (.inr rfl) (.inr rfl) (.inr rfl) (.inl h_rf) (.inl h_irqNow) (.inr rfl) (.inr rfl) (.inr rfl) (.inr rfl) (.inr rfl) (.inr rfl) (.inr rfl) (.inr rfl) (.inl h_el) (.inr rfl) (.inr rfl) (.inr rfl) (.inr rfl) (.inr rfl) (.inr rfl) (.inr rfl) (.inr rfl) (.inr rfl) (.inr rfl) (.inr rfl) (.inr rfl); try dsimp only)

theorem State.elHoldRun_only {pt : Parts} (h_rf : pt.rf = true) (h_irqNow : pt.irqNow = true) (h_mot : pt.mot = true) (h_drv : pt.drv = true) (h_sch : pt.sch = true) (h_el : pt.el = true) (h_rcd : pt.rcd = true) {s₀ s : State} (h : Only pt s₀ s) : Only pt s₀ (State.elHoldRun s) := by
  unfold State.elHoldRun
  try dsimp only
  repeat' first | (with_reducible first | assumption | apply State.motHoldNow_only h_rf h_irqNow h_mot h_drv h_el h_rcd | apply State.motIdleNow_only h_mot | apply State.wn_only h_rf | apply State.motStartNow_only h_mot h_drv h_sch | apply each_only | apply foldl_only) | intro _ _ _ | split | (refine Only.upd ?_ (.inr rfl) (.inr rfl) (.inr rfl) (.inl h_rf) (.inl h_irqNow) (.inr rfl) (.inr rfl) (.inl h_mot) (.inl h_drv) (.inl h_sch) (.inr rfl) (.inr rfl) (.inr rfl) (.inl h_el) (.inr rfl) (.inr rfl) (.inr rfl) (.inr rfl) (.inr rfl) (.inr rfl) (.inl h_rcd) (.inr rfl) (.inr rfl) (.inr rfl) (.inr rfl) (.inr rfl); try dsimp only)

theorem State.elSample_only {pt : Parts} (h_rf : pt.rf = true) (h_irqNow : pt.irqNow = true) (h_el : pt.el = true) {s₀ s : State} (h : Only pt s₀ s) (i : ElIn) : Only pt s₀ (State.elSample s i) := by
  unfold State.elSample
  try dsimp only
  repeat' first | (with_reducible first | assumption | apply State.elMode_only h_rf h_irqNow h_el | apply each_only | apply foldl_only) | intro _ _ _ | split | (refine Only.upd ?_ (.inr rfl) (.inr rfl) (.inr rfl) (.inl h_rf) (.inl h_irqNow) (.inr rfl) (.inr rfl) (.inr rfl) (.inr rfl) (.inr rfl) (.inr rfl) (.inr rfl) (.inr rfl) (.inl h_el) (.inr rfl) (.inr rfl) (.inr rfl) (.inr rfl) (.inr rfl) (.inr rfl) (.inr rfl) (.inr rfl) (.inr rfl) (.inr rfl) (.inr rfl) (.inr rfl); try dsimp only)

theorem State.elDecide_only {pt : Parts} (h_rf : pt.rf = true) (h_irqNow : pt.irqNow = true) (h_pos : pt.pos = true) (h_lwb : pt.lwb = true) (h_mot : pt.mot = true) (h_drv : pt.drv = true) (h_doorF : pt.doorF = true) (h_doorR : pt.doorR = true) (h_el : pt.el = true) (h_can : pt.can = true) (h_part : pt.part = true) (h_rcd : pt.rcd = true) {s₀ s : State} (h : Only pt s₀ s) : Only pt s₀ (State.elDecide s) := by
  unfold State.elDecide
  try dsimp only
  repeat' first | (with_reducible first | assumption | apply State.elDegrade_only h_rf h_irqNow h_el | apply State.elArm_only h_el | apply State.elPersist_only h_rf h_el | apply State.elLimit_only h_el | apply State.raise_only h_rf h_irqNow | apply State.tripAll_only h_rf h_irqNow h_pos h_lwb h_mot h_drv h_doorF h_doorR h_el h_can h_part h_rcd | apply State.elLatches_only h_el | apply each_only | apply foldl_only) | intro _ _ _ | split | (refine Only.upd ?_ (.inr rfl) (.inr rfl) (.inr rfl) (.inl h_rf) (.inl h_irqNow) (.inl h_pos) (.inl h_lwb) (.inl h_mot) (.inl h_drv) (.inr rfl) (.inr rfl) (.inl h_doorF) (.inl h_doorR) (.inl h_el) (.inr rfl) (.inl h_can) (.inr rfl) (.inr rfl) (.inr rfl) (.inl h_part) (.inl h_rcd) (.inr rfl) (.inr rfl) (.inr rfl) (.inr rfl) (.inr rfl); try dsimp only)

theorem State.elCycle_only {pt : Parts} (h_rf : pt.rf = true) (h_irqNow : pt.irqNow = true) (h_pos : pt.pos = true) (h_lwb : pt.lwb = true) (h_mot : pt.mot = true) (h_drv : pt.drv = true) (h_sch : pt.sch = true) (h_bid : pt.bid = true) (h_doorF : pt.doorF = true) (h_doorR : pt.doorR = true) (h_el : pt.el = true) (h_lsf : pt.lsf = true) (h_can : pt.can = true) (h_part : pt.part = true) (h_rcd : pt.rcd = true) {s₀ s : State} (h : Only pt s₀ s) (i : ElIn) : Only pt s₀ (State.elCycle s i) := by
  unfold State.elCycle
  try dsimp only
  repeat' first | (with_reducible first | assumption | apply State.lsfRunNow_only h_el h_lsf | apply State.lsfTakeAll_only h_rf h_irqNow h_lsf h_can | apply State.elSample_only h_rf h_irqNow h_el | apply State.elDecide_only h_rf h_irqNow h_pos h_lwb h_mot h_drv h_doorF h_doorR h_el h_can h_part h_rcd | apply State.elHoldRun_only h_rf h_irqNow h_mot h_drv h_sch h_el h_rcd | apply State.elPermit_only h_rf h_irqNow h_el | apply State.elBypass_only h_rf h_irqNow h_pos h_lwb h_mot h_drv h_doorF h_doorR h_el h_can h_part h_rcd | apply State.elProof_only h_rf h_irqNow h_el | apply State.relevGrantEnds_only h_rf h_irqNow h_drv h_el | apply State.elOutputs_only h_el | apply State.drvCheckReady_only h_rf h_drv | apply State.lockNote_only h_rf h_doorF h_doorR | apply State.schServed_only h_rf h_irqNow h_sch h_bid | apply each_only | apply foldl_only) | intro _ _ _ | split | dsimp only

theorem State.elResolve_only {pt : Parts} (h_rf : pt.rf = true) (h_irqNow : pt.irqNow = true) (h_el : pt.el = true) {s₀ s : State} (h : Only pt s₀ s) : Only pt s₀ (State.elResolve s) := by
  unfold State.elResolve
  try dsimp only
  repeat' first | (with_reducible first | assumption | apply State.raise_only h_rf h_irqNow | apply each_only | apply foldl_only) | intro _ _ _ | split | (refine Only.upd ?_ (.inr rfl) (.inr rfl) (.inr rfl) (.inl h_rf) (.inl h_irqNow) (.inr rfl) (.inr rfl) (.inr rfl) (.inr rfl) (.inr rfl) (.inr rfl) (.inr rfl) (.inr rfl) (.inl h_el) (.inr rfl) (.inr rfl) (.inr rfl) (.inr rfl) (.inr rfl) (.inr rfl) (.inr rfl) (.inr rfl) (.inr rfl) (.inr rfl) (.inr rfl) (.inr rfl); try dsimp only)

theorem State.elClear_only {pt : Parts} (h_rf : pt.rf = true) (h_irqNow : pt.irqNow = true) (h_el : pt.el = true) {s₀ s : State} (h : Only pt s₀ s) (l : List Nat) : Only pt s₀ (State.elClear s l) := by
  unfold State.elClear
  try dsimp only
  repeat' first | (with_reducible first | assumption | apply State.elOutputs_only h_el | apply State.elResolve_only h_rf h_irqNow h_el | apply each_only | apply foldl_only) | intro _ _ _ | split | (refine Only.upd ?_ (.inr rfl) (.inr rfl) (.inr rfl) (.inl h_rf) (.inl h_irqNow) (.inr rfl) (.inr rfl) (.inr rfl) (.inr rfl) (.inr rfl) (.inr rfl) (.inr rfl) (.inr rfl) (.inl h_el) (.inr rfl) (.inr rfl) (.inr rfl) (.inr rfl) (.inr rfl) (.inr rfl) (.inr rfl) (.inr rfl) (.inr rfl) (.inr rfl) (.inr rfl) (.inr rfl); try dsimp only)

theorem State.testPulseNow_only {pt : Parts} (h_rf : pt.rf = true) (h_irqNow : pt.irqNow = true) (h_pos : pt.pos = true) (h_lwb : pt.lwb = true) (h_mot : pt.mot = true) (h_drv : pt.drv = true) (h_doorF : pt.doorF = true) (h_doorR : pt.doorR = true) (h_el : pt.el = true) (h_can : pt.can = true) (h_part : pt.part = true) (h_rcd : pt.rcd = true) {s₀ s : State} (h : Only pt s₀ s) (slot : Nat) (nodeLow : Bool) (demand : PulseDemand) : Only pt s₀ (State.testPulseNow s slot nodeLow demand) := by
  unfold State.testPulseNow
  try dsimp only
  repeat' first | (with_reducible first | assumption | apply State.wf__only h_rf | apply State.raise_only h_rf h_irqNow | apply State.trip_only h_rf h_irqNow h_pos h_lwb h_mot h_drv h_doorF h_doorR h_el h_can h_part h_rcd | apply each_only | apply foldl_only) | intro _ _ _ | split | (refine Only.upd ?_ (.inr rfl) (.inr rfl) (.inr rfl) (.inl h_rf) (.inl h_irqNow) (.inl h_pos) (.inl h_lwb) (.inl h_mot) (.inl h_drv) (.inr rfl) (.inr rfl) (.inl h_doorF) (.inl h_doorR) (.inl h_el) (.inr rfl) (.inl h_can) (.inr rfl) (.inr rfl) (.inr rfl) (.inl h_part) (.inl h_rcd) (.inr rfl) (.inr rfl) (.inr rfl) (.inr rfl) (.inr rfl); try dsimp only)

theorem State.degExpire_only {pt : Parts} (h_rf : pt.rf = true) (h_irqNow : pt.irqNow = true) (h_el : pt.el = true) {s₀ s : State} (h : Only pt s₀ s) (m : DegMode) : Only pt s₀ (State.degExpire s m) := by
  unfold State.degExpire
  try dsimp only
  repeat' first | (with_reducible first | assumption | apply State.raise_only h_rf h_irqNow | apply each_only | apply foldl_only) | intro _ _ _ | split | (refine Only.upd ?_ (.inr rfl) (.inr rfl) (.inr rfl) (.inl h_rf) (.inl h_irqNow) (.inr rfl) (.inr rfl) (.inr rfl) (.inr rfl) (.inr rfl) (.inr rfl) (.inr rfl) (.inr rfl) (.inl h_el) (.inr rfl) (.inr rfl) (.inr rfl) (.inr rfl) (.inr rfl) (.inr rfl) (.inr rfl) (.inr rfl) (.inr rfl) (.inr rfl) (.inr rfl) (.inr rfl); try dsimp only)

theorem State.degClear_only {pt : Parts} (h_el : pt.el = true) {s₀ s : State} (h : Only pt s₀ s) (m : DegMode) : Only pt s₀ (State.degClear s m) := by
  unfold State.degClear
  try dsimp only
  repeat' first | (with_reducible first | assumption  | apply each_only | apply foldl_only) | intro _ _ _ | split | (refine Only.upd ?_ (.inr rfl) (.inr rfl) (.inr rfl) (.inr rfl) (.inr rfl) (.inr rfl) (.inr rfl) (.inr rfl) (.inr rfl) (.inr rfl) (.inr rfl) (.inr rfl) (.inr rfl) (.inl h_el) (.inr rfl) (.inr rfl) (.inr rfl) (.inr rfl) (.inr rfl) (.inr rfl) (.inr rfl) (.inr rfl) (.inr rfl) (.inr rfl) (.inr rfl) (.inr rfl); try dsimp only)

theorem State.nearestStart_only {pt : Parts} (h_rf : pt.rf = true) (h_mot : pt.mot = true) (h_drv : pt.drv = true) (h_sch : pt.sch = true) {s₀ s : State} (h : Only pt s₀ s) : Only pt s₀ (State.nearestStart s) := by
  unfold State.nearestStart
  try dsimp only
  repeat' first | (with_reducible first | assumption | apply State.wn_only h_rf | apply State.motStartNow_only h_mot h_drv h_sch | apply each_only | apply foldl_only) | intro _ _ _ | split | (refine Only.upd ?_ (.inr rfl) (.inr rfl) (.inr rfl) (.inl h_rf) (.inr rfl) (.inr rfl) (.inr rfl) (.inl h_mot) (.inl h_drv) (.inl h_sch) (.inr rfl) (.inr rfl) (.inr rfl) (.inr rfl) (.inr rfl) (.inr rfl) (.inr rfl) (.inr rfl) (.inr rfl) (.inr rfl) (.inr rfl) (.inr rfl) (.inr rfl) (.inr rfl) (.inr rfl) (.inr rfl); try dsimp only)

theorem State.elDigest_only {pt : Parts} (h_el : pt.el = true) {s₀ s : State} (h : Only pt s₀ s) : Only pt s₀ (State.elDigest s) := by
  unfold State.elDigest
  try dsimp only
  repeat' first | (with_reducible first | assumption | apply State.elTake_only h_el | apply each_only | apply foldl_only) | intro _ _ _ | split | (refine Only.upd ?_ (.inr rfl) (.inr rfl) (.inr rfl) (.inr rfl) (.inr rfl) (.inr rfl) (.inr rfl) (.inr rfl) (.inr rfl) (.inr rfl) (.inr rfl) (.inr rfl) (.inr rfl) (.inl h_el) (.inr rfl) (.inr rfl) (.inr rfl) (.inr rfl) (.inr rfl) (.inr rfl) (.inr rfl) (.inr rfl) (.inr rfl) (.inr rfl) (.inr rfl) (.inr rfl); try dsimp only)

theorem State.elStart_only {pt : Parts} (h_rf : pt.rf = true) (h_irqNow : pt.irqNow = true) (h_pos : pt.pos = true) (h_lwb : pt.lwb = true) (h_mot : pt.mot = true) (h_drv : pt.drv = true) (h_doorF : pt.doorF = true) (h_doorR : pt.doorR = true) (h_el : pt.el = true) (h_lsf : pt.lsf = true) (h_can : pt.can = true) (h_part : pt.part = true) (h_rcd : pt.rcd = true) {s₀ s : State} (h : Only pt s₀ s) (pass : Bool) (da : Word) (db : Word) : Only pt s₀ (State.elStart s pass da db) := by
  unfold State.elStart
  try dsimp only
  repeat' first | (with_reducible first | assumption | apply State.elOutputs_only h_el | apply State.lsfRunNow_only h_el h_lsf | apply State.trip_only h_rf h_irqNow h_pos h_lwb h_mot h_drv h_doorF h_doorR h_el h_can h_part h_rcd | apply each_only | apply foldl_only) | intro _ _ _ | split | (refine Only.upd ?_ (.inr rfl) (.inr rfl) (.inr rfl) (.inl h_rf) (.inl h_irqNow) (.inl h_pos) (.inl h_lwb) (.inl h_mot) (.inl h_drv) (.inr rfl) (.inr rfl) (.inl h_doorF) (.inl h_doorR) (.inl h_el) (.inl h_lsf) (.inl h_can) (.inr rfl) (.inr rfl) (.inr rfl) (.inl h_part) (.inl h_rcd) (.inr rfl) (.inr rfl) (.inr rfl) (.inr rfl) (.inr rfl); try dsimp only)

end Sys2Proof.Machine
end

