-- ==== Sys2Proof/Laws/OnlyKeyOps.lean ====
section
/-! SUPPORT. Which parts of the state the operations of Machine/KeyOps.lean leave the same. -/

set_option linter.unusedTactic false
set_option linter.unreachableTactic false

namespace Sys2Proof.Machine

theorem State.sessEnd_only {pt : Parts} (h_rf : pt.rf = true) (h_irqNow : pt.irqNow = true) (h_host : pt.host = true) {s₀ s : State} (h : Only pt s₀ s) (i : Nat) : Only pt s₀ (State.sessEnd s i) := by
  unfold State.sessEnd
  try dsimp only
  repeat' first | (with_reducible first | assumption | apply State.raise_only h_rf h_irqNow | apply each_only | apply foldl_only) | intro _ _ _ | split | (refine Only.upd ?_ (.inr rfl) (.inr rfl) (.inr rfl) (.inl h_rf) (.inl h_irqNow) (.inr rfl) (.inr rfl) (.inr rfl) (.inr rfl) (.inr rfl) (.inr rfl) (.inr rfl) (.inr rfl) (.inr rfl) (.inr rfl) (.inr rfl) (.inr rfl) (.inl h_host) (.inr rfl) (.inr rfl) (.inr rfl) (.inr rfl) (.inr rfl) (.inr rfl) (.inr rfl) (.inr rfl); try dsimp only)

theorem State.sessEndAll_only {pt : Parts} (h_rf : pt.rf = true) (h_irqNow : pt.irqNow = true) (h_host : pt.host = true) {s₀ s : State} (h : Only pt s₀ s) : Only pt s₀ (State.sessEndAll s) := by
  unfold State.sessEndAll
  try dsimp only
  repeat' first | (with_reducible first | assumption | apply State.sessEnd_only h_rf h_irqNow h_host | apply each_only | apply foldl_only) | intro _ _ _ | split | dsimp only

theorem State.sessEndSlot_only {pt : Parts} (h_rf : pt.rf = true) (h_irqNow : pt.irqNow = true) (h_host : pt.host = true) {s₀ s : State} (h : Only pt s₀ s) (n : Nat) : Only pt s₀ (State.sessEndSlot s n) := by
  unfold State.sessEndSlot
  try dsimp only
  repeat' first | (with_reducible first | assumption | apply State.sessEnd_only h_rf h_irqNow h_host | apply each_only | apply foldl_only) | intro _ _ _ | split | dsimp only

theorem State.putSlot_only {pt : Parts} (h_fresh : pt.fresh = true) (h_key : pt.key = true) {s₀ : State} {s : State} (h : Only pt s₀ s) (n : Nat) (head key : List Byte) (resident : Bool) (parent : Option Nat) :
    Only pt s₀ (State.putSlot s n head key resident parent) := by
  unfold State.putSlot State.draw
  dsimp only
  refine Only.upd ?_ (.inr rfl) (.inr rfl) (.inl h_fresh) (.inr rfl) (.inr rfl) (.inr rfl) (.inr rfl) (.inr rfl) (.inr rfl) (.inr rfl) (.inr rfl) (.inr rfl) (.inr rfl) (.inr rfl) (.inr rfl) (.inr rfl) (.inr rfl) (.inr rfl) (.inr rfl) (.inr rfl) (.inr rfl) (.inl h_key) (.inr rfl) (.inr rfl) (.inr rfl) (.inr rfl)
  exact h

theorem State.orphanSlot_only {pt : Parts} (h_rf : pt.rf = true) (h_irqNow : pt.irqNow = true) (h_host : pt.host = true) (h_key : pt.key = true) {s₀ s : State} (h : Only pt s₀ s) (n : Nat) : Only pt s₀ (State.orphanSlot s n) := by
  unfold State.orphanSlot
  try dsimp only
  repeat' first | (with_reducible first | assumption | apply State.raise_only h_rf h_irqNow | apply State.sessEndSlot_only h_rf h_irqNow h_host | apply each_only | apply foldl_only) | intro _ _ _ | split | (refine Only.upd ?_ (.inr rfl) (.inr rfl) (.inr rfl) (.inl h_rf) (.inl h_irqNow) (.inr rfl) (.inr rfl) (.inr rfl) (.inr rfl) (.inr rfl) (.inr rfl) (.inr rfl) (.inr rfl) (.inr rfl) (.inr rfl) (.inr rfl) (.inr rfl) (.inl h_host) (.inr rfl) (.inr rfl) (.inr rfl) (.inl h_key) (.inr rfl) (.inr rfl) (.inr rfl) (.inr rfl); try dsimp only)

theorem State.orphanChildren_only {pt : Parts} (h_rf : pt.rf = true) (h_irqNow : pt.irqNow = true) (h_host : pt.host = true) (h_key : pt.key = true) {s₀ : State} (f : Nat) : ∀ {s : State}, Only pt s₀ s → ∀ n : Nat, Only pt s₀ (State.orphanChildren f s n) := by
  induction f with
  | zero => intro s h n; exact h
  | succ f ih =>
    intro s h n
    unfold State.orphanChildren
    refine foldl_only _ (fun t c ht => ih ?_ _) _ h
    split
    · refine Only.upd ?_ (.inr rfl) (.inr rfl) (.inr rfl) (.inl h_rf) (.inl h_irqNow) (.inr rfl) (.inr rfl) (.inr rfl) (.inr rfl) (.inr rfl) (.inr rfl) (.inr rfl) (.inr rfl) (.inr rfl) (.inr rfl) (.inr rfl) (.inr rfl) (.inl h_host) (.inr rfl) (.inr rfl) (.inr rfl) (.inl h_key) (.inr rfl) (.inr rfl) (.inr rfl) (.inr rfl)
      exact ht
    · exact State.orphanSlot_only h_rf h_irqNow h_host h_key ht _

theorem State.dropSlot_only {pt : Parts} (h_rf : pt.rf = true) (h_irqNow : pt.irqNow = true) (h_host : pt.host = true) (h_key : pt.key = true) {s₀ s : State} (h : Only pt s₀ s) (n : Nat) : Only pt s₀ (State.dropSlot s n) := by
  unfold State.dropSlot
  try dsimp only
  repeat' first | (with_reducible first | assumption | apply State.sessEndSlot_only h_rf h_irqNow h_host | apply State.orphanChildren_only h_rf h_irqNow h_host h_key | apply each_only | apply foldl_only) | intro _ _ _ | split | (refine Only.upd ?_ (.inr rfl) (.inr rfl) (.inr rfl) (.inl h_rf) (.inl h_irqNow) (.inr rfl) (.inr rfl) (.inr rfl) (.inr rfl) (.inr rfl) (.inr rfl) (.inr rfl) (.inr rfl) (.inr rfl) (.inr rfl) (.inr rfl) (.inr rfl) (.inl h_host) (.inr rfl) (.inr rfl) (.inr rfl) (.inl h_key) (.inr rfl) (.inr rfl) (.inr rfl) (.inr rfl); try dsimp only)

theorem State.loadResident_only {pt : Parts} (h_fresh : pt.fresh = true) (h_key : pt.key = true) {s₀ s : State} (h : Only pt s₀ s) (n : Nat) : Only pt s₀ (State.loadResident s n) := by
  unfold State.loadResident
  try dsimp only
  repeat' first | (with_reducible first | assumption | apply State.putSlot_only h_fresh h_key | apply each_only | apply foldl_only) | intro _ _ _ | split | (refine Only.upd ?_ (.inr rfl) (.inr rfl) (.inl h_fresh) (.inr rfl) (.inr rfl) (.inr rfl) (.inr rfl) (.inr rfl) (.inr rfl) (.inr rfl) (.inr rfl) (.inr rfl) (.inr rfl) (.inr rfl) (.inr rfl) (.inr rfl) (.inr rfl) (.inr rfl) (.inr rfl) (.inr rfl) (.inr rfl) (.inl h_key) (.inr rfl) (.inr rfl) (.inr rfl) (.inr rfl); try dsimp only)

theorem State.loadResidents_only {pt : Parts} (h_fresh : pt.fresh = true) (h_key : pt.key = true) {s₀ s : State} (h : Only pt s₀ s) : Only pt s₀ (State.loadResidents s) := by
  unfold State.loadResidents
  try dsimp only
  repeat' first | (with_reducible first | assumption | apply State.loadResident_only h_fresh h_key | apply each_only | apply foldl_only) | intro _ _ _ | split | dsimp only

theorem State.deriveState_only {pt : Parts} (h_key : pt.key = true) {s₀ s : State} (h : Only pt s₀ s) : Only pt s₀ (State.deriveState s) := by
  unfold State.deriveState
  try dsimp only
  repeat' first | (with_reducible first | assumption  | apply each_only | apply foldl_only) | intro _ _ _ | split | (refine Only.upd ?_ (.inr rfl) (.inr rfl) (.inr rfl) (.inr rfl) (.inr rfl) (.inr rfl) (.inr rfl) (.inr rfl) (.inr rfl) (.inr rfl) (.inr rfl) (.inr rfl) (.inr rfl) (.inr rfl) (.inr rfl) (.inr rfl) (.inr rfl) (.inr rfl) (.inr rfl) (.inr rfl) (.inr rfl) (.inl h_key) (.inr rfl) (.inr rfl) (.inr rfl) (.inr rfl); try dsimp only)

theorem State.deriveRoot_only {pt : Parts} (h_fresh : pt.fresh = true) (h_key : pt.key = true) {s₀ s : State} (h : Only pt s₀ s) : Only pt s₀ (State.deriveRoot s) := by
  unfold State.deriveRoot
  try dsimp only
  repeat' first | (with_reducible first | assumption | apply State.deriveState_only h_key | apply State.loadResidents_only h_fresh h_key | apply each_only | apply foldl_only) | intro _ _ _ | split | (refine Only.upd ?_ (.inr rfl) (.inr rfl) (.inl h_fresh) (.inr rfl) (.inr rfl) (.inr rfl) (.inr rfl) (.inr rfl) (.inr rfl) (.inr rfl) (.inr rfl) (.inr rfl) (.inr rfl) (.inr rfl) (.inr rfl) (.inr rfl) (.inr rfl) (.inr rfl) (.inr rfl) (.inr rfl) (.inr rfl) (.inl h_key) (.inr rfl) (.inr rfl) (.inr rfl) (.inr rfl); try dsimp only)

theorem State.lcEnter_only {pt : Parts} (h_fresh : pt.fresh = true) (h_rf : pt.rf = true) (h_irqNow : pt.irqNow = true) (h_host : pt.host = true) (h_key : pt.key = true) {s₀ s : State} (h : Only pt s₀ s) (otp : Lc) (service : Option Nat) : Only pt s₀ (State.lcEnter s otp service) := by
  unfold State.lcEnter
  try dsimp only
  repeat' first | (with_reducible first | assumption | apply State.sessEndAll_only h_rf h_irqNow h_host | apply State.deriveState_only h_key | apply State.loadResidents_only h_fresh h_key | apply State.raise_only h_rf h_irqNow | apply each_only | apply foldl_only) | intro _ _ _ | split | (refine Only.upd ?_ (.inr rfl) (.inr rfl) (.inl h_fresh) (.inl h_rf) (.inl h_irqNow) (.inr rfl) (.inr rfl) (.inr rfl) (.inr rfl) (.inr rfl) (.inr rfl) (.inr rfl) (.inr rfl) (.inr rfl) (.inr rfl) (.inr rfl) (.inr rfl) (.inl h_host) (.inr rfl) (.inr rfl) (.inr rfl) (.inl h_key) (.inr rfl) (.inr rfl) (.inr rfl) (.inr rfl); try dsimp only)

theorem State.serviceEnd_only {pt : Parts} (h_fresh : pt.fresh = true) (h_rf : pt.rf = true) (h_irqNow : pt.irqNow = true) (h_host : pt.host = true) (h_key : pt.key = true) {s₀ s : State} (h : Only pt s₀ s) : Only pt s₀ (State.serviceEnd s) := by
  unfold State.serviceEnd
  try dsimp only
  repeat' first | (with_reducible first | assumption | apply State.lcEnter_only h_fresh h_rf h_irqNow h_host h_key | apply each_only | apply foldl_only) | intro _ _ _ | split | dsimp only

theorem State.useNonce_only {pt : Parts} (h_key : pt.key = true) {s₀ s : State} (h : Only pt s₀ s) (o : List Byte) (room : Nat) : Only pt s₀ (State.useNonce s o room) := by
  unfold State.useNonce
  try dsimp only
  repeat' first | (with_reducible first | assumption  | apply each_only | apply foldl_only) | intro _ _ _ | split | (refine Only.upd ?_ (.inr rfl) (.inr rfl) (.inr rfl) (.inr rfl) (.inr rfl) (.inr rfl) (.inr rfl) (.inr rfl) (.inr rfl) (.inr rfl) (.inr rfl) (.inr rfl) (.inr rfl) (.inr rfl) (.inr rfl) (.inr rfl) (.inr rfl) (.inr rfl) (.inr rfl) (.inr rfl) (.inr rfl) (.inl h_key) (.inr rfl) (.inr rfl) (.inr rfl) (.inr rfl); try dsimp only)

theorem State.keyAccept_only {pt : Parts} (h_key : pt.key = true) {s₀ s : State} (h : Only pt s₀ s) (src : Src) (cmd : Word) : Only pt s₀ (State.keyAccept s src cmd) := by
  unfold State.keyAccept
  try dsimp only
  repeat' first | (with_reducible first | assumption  | apply each_only | apply foldl_only) | intro _ _ _ | split | (refine Only.upd ?_ (.inr rfl) (.inr rfl) (.inr rfl) (.inr rfl) (.inr rfl) (.inr rfl) (.inr rfl) (.inr rfl) (.inr rfl) (.inr rfl) (.inr rfl) (.inr rfl) (.inr rfl) (.inr rfl) (.inr rfl) (.inr rfl) (.inr rfl) (.inr rfl) (.inr rfl) (.inr rfl) (.inr rfl) (.inl h_key) (.inr rfl) (.inr rfl) (.inr rfl) (.inr rfl); try dsimp only)

theorem State.setBuf_only {pt : Parts} (h_rf : pt.rf = true) {s₀ s : State} (h : Only pt s₀ s) (l : List Byte) : Only pt s₀ (State.setBuf s l) := by
  unfold State.setBuf
  try dsimp only
  repeat' first | (with_reducible first | assumption | apply State.wr_only h_rf | apply each_only | apply foldl_only) | intro _ _ _ | split | (refine Only.upd ?_ (.inr rfl) (.inr rfl) (.inr rfl) (.inl h_rf) (.inr rfl) (.inr rfl) (.inr rfl) (.inr rfl) (.inr rfl) (.inr rfl) (.inr rfl) (.inr rfl) (.inr rfl) (.inr rfl) (.inr rfl) (.inr rfl) (.inr rfl) (.inr rfl) (.inr rfl) (.inr rfl) (.inr rfl) (.inr rfl) (.inr rfl) (.inr rfl) (.inr rfl) (.inr rfl); try dsimp only)

theorem KeyOut.fail_only {pt : Parts} {s₀ s : State} (h : Only pt s₀ s) (code : Nat) : Only pt s₀ (KeyOut.fail s code).st := by
  unfold KeyOut.fail
  try dsimp only
  repeat' first | (with_reducible first | assumption  | apply each_only | apply foldl_only) | intro _ _ _ | split | dsimp only

theorem State.keyLoad_only {pt : Parts} (h_fresh : pt.fresh = true) (h_key : pt.key = true) {s₀ s : State} (h : Only pt s₀ s) (port : Nat) (b : List Byte) : Only pt s₀ (State.keyLoad s port b).st := by
  unfold State.keyLoad
  try dsimp only
  repeat' first | (with_reducible first | assumption | apply KeyOut.fail_only  | apply State.putSlot_only h_fresh h_key | apply each_only | apply foldl_only) | intro _ _ _ | split | (refine Only.upd ?_ (.inr rfl) (.inr rfl) (.inl h_fresh) (.inr rfl) (.inr rfl) (.inr rfl) (.inr rfl) (.inr rfl) (.inr rfl) (.inr rfl) (.inr rfl) (.inr rfl) (.inr rfl) (.inr rfl) (.inr rfl) (.inr rfl) (.inr rfl) (.inr rfl) (.inr rfl) (.inr rfl) (.inr rfl) (.inl h_key) (.inr rfl) (.inr rfl) (.inr rfl) (.inr rfl); try dsimp only)

theorem State.keyUnload_only {pt : Parts} (h_rf : pt.rf = true) (h_irqNow : pt.irqNow = true) (h_host : pt.host = true) (h_key : pt.key = true) {s₀ s : State} (h : Only pt s₀ s) (n : Nat) : Only pt s₀ (State.keyUnload s n).st := by
  unfold State.keyUnload
  try dsimp only
  repeat' first | (with_reducible first | assumption | apply KeyOut.fail_only  | apply State.dropSlot_only h_rf h_irqNow h_host h_key | apply each_only | apply foldl_only) | intro _ _ _ | split | dsimp only

theorem State.keyReplace_only {pt : Parts} (h_key : pt.key = true) {s₀ s : State} (h : Only pt s₀ s) (port : Nat) (n : Nat) (b : List Byte) : Only pt s₀ (State.keyReplace s port n b).st := by
  unfold State.keyReplace
  try dsimp only
  repeat' first | (with_reducible first | assumption | apply KeyOut.fail_only  | apply each_only | apply foldl_only) | intro _ _ _ | split | (refine Only.upd ?_ (.inr rfl) (.inr rfl) (.inr rfl) (.inr rfl) (.inr rfl) (.inr rfl) (.inr rfl) (.inr rfl) (.inr rfl) (.inr rfl) (.inr rfl) (.inr rfl) (.inr rfl) (.inr rfl) (.inr rfl) (.inr rfl) (.inr rfl) (.inr rfl) (.inr rfl) (.inr rfl) (.inr rfl) (.inl h_key) (.inr rfl) (.inr rfl) (.inr rfl) (.inr rfl); try dsimp only)

theorem State.keySwap_only {pt : Parts} (h_fresh : pt.fresh = true) (h_rf : pt.rf = true) (h_irqNow : pt.irqNow = true) (h_host : pt.host = true) (h_key : pt.key = true) {s₀ s : State} (h : Only pt s₀ s) (n : Nat) : Only pt s₀ (State.keySwap s n) := by
  unfold State.keySwap
  try dsimp only
  repeat' first | (with_reducible first | assumption | apply State.sessEndSlot_only h_rf h_irqNow h_host | apply State.orphanChildren_only h_rf h_irqNow h_host h_key | apply State.putSlot_only h_fresh h_key | apply each_only | apply foldl_only) | intro _ _ _ | split | (refine Only.upd ?_ (.inr rfl) (.inr rfl) (.inl h_fresh) (.inl h_rf) (.inl h_irqNow) (.inr rfl) (.inr rfl) (.inr rfl) (.inr rfl) (.inr rfl) (.inr rfl) (.inr rfl) (.inr rfl) (.inr rfl) (.inr rfl) (.inr rfl) (.inr rfl) (.inl h_host) (.inr rfl) (.inr rfl) (.inr rfl) (.inl h_key) (.inr rfl) (.inr rfl) (.inr rfl) (.inr rfl); try dsimp only)

theorem State.keyMade_only {pt : Parts} (h_fresh : pt.fresh = true) (h_key : pt.key = true) {s₀ s0 : State} (h : Only pt s₀ s0) (src : Src) (cmd : Word) (origin : Nat) (parent : Option KeySlot) (key : List Byte) : Only pt s₀ (State.keyMade s0 src cmd origin parent key).st := by
  unfold State.keyMade
  try dsimp only
  repeat' first | (with_reducible first | assumption | apply State.draw_only h_fresh | apply State.keyLoad_only h_fresh h_key | apply KeyOut.fail_only  | apply each_only | apply foldl_only) | intro _ _ _ | split | (refine Only.upd ?_ (.inr rfl) (.inr rfl) (.inl h_fresh) (.inr rfl) (.inr rfl) (.inr rfl) (.inr rfl) (.inr rfl) (.inr rfl) (.inr rfl) (.inr rfl) (.inr rfl) (.inr rfl) (.inr rfl) (.inr rfl) (.inr rfl) (.inr rfl) (.inr rfl) (.inr rfl) (.inr rfl) (.inr rfl) (.inl h_key) (.inr rfl) (.inr rfl) (.inr rfl) (.inr rfl); try dsimp only)

theorem State.keyMake_only {pt : Parts} (h_fresh : pt.fresh = true) (h_key : pt.key = true) {s₀ s : State} (h : Only pt s₀ s) (src : Src) (cmd : Word) : Only pt s₀ (State.keyMake s src cmd).st := by
  unfold State.keyMake
  try dsimp only
  repeat' first | (with_reducible first | assumption | apply KeyOut.fail_only  | apply State.keyMade_only h_fresh h_key | apply each_only | apply foldl_only) | intro _ _ _ | split | (refine Only.upd ?_ (.inr rfl) (.inr rfl) (.inl h_fresh) (.inr rfl) (.inr rfl) (.inr rfl) (.inr rfl) (.inr rfl) (.inr rfl) (.inr rfl) (.inr rfl) (.inr rfl) (.inr rfl) (.inr rfl) (.inr rfl) (.inr rfl) (.inr rfl) (.inr rfl) (.inr rfl) (.inr rfl) (.inr rfl) (.inl h_key) (.inr rfl) (.inr rfl) (.inr rfl) (.inr rfl); try dsimp only)

theorem State.keyResident_only {pt : Parts} (h_key : pt.key = true) {s₀ s : State} (h : Only pt s₀ s) (cmd : Word) : Only pt s₀ (State.keyResident s cmd).st := by
  unfold State.keyResident
  try dsimp only
  repeat' first | (with_reducible first | assumption | apply KeyOut.fail_only  | apply each_only | apply foldl_only) | intro _ _ _ | split | (refine Only.upd ?_ (.inr rfl) (.inr rfl) (.inr rfl) (.inr rfl) (.inr rfl) (.inr rfl) (.inr rfl) (.inr rfl) (.inr rfl) (.inr rfl) (.inr rfl) (.inr rfl) (.inr rfl) (.inr rfl) (.inr rfl) (.inr rfl) (.inr rfl) (.inr rfl) (.inr rfl) (.inr rfl) (.inr rfl) (.inl h_key) (.inr rfl) (.inr rfl) (.inr rfl) (.inr rfl); try dsimp only)

theorem State.idxCommit_only {pt : Parts} (h_rf : pt.rf = true) (h_irqNow : pt.irqNow = true) (h_key : pt.key = true) {s₀ s : State} (h : Only pt s₀ s) (n : Nat) : Only pt s₀ (State.idxCommit s n) := by
  unfold State.idxCommit
  try dsimp only
  repeat' first | (with_reducible first | assumption | apply State.raise_only h_rf h_irqNow | apply each_only | apply foldl_only) | intro _ _ _ | split | (refine Only.upd ?_ (.inr rfl) (.inr rfl) (.inr rfl) (.inl h_rf) (.inl h_irqNow) (.inr rfl) (.inr rfl) (.inr rfl) (.inr rfl) (.inr rfl) (.inr rfl) (.inr rfl) (.inr rfl) (.inr rfl) (.inr rfl) (.inr rfl) (.inr rfl) (.inr rfl) (.inr rfl) (.inr rfl) (.inr rfl) (.inl h_key) (.inr rfl) (.inr rfl) (.inr rfl) (.inr rfl); try dsimp only)

theorem State.keyStep_only {pt : Parts} (h_rf : pt.rf = true) (h_irqNow : pt.irqNow = true) (h_key : pt.key = true) {s₀ s : State} (h : Only pt s₀ s) : Only pt s₀ (State.keyStep s) := by
  unfold State.keyStep
  try dsimp only
  repeat' first | (with_reducible first | assumption | apply State.idxCommit_only h_rf h_irqNow h_key | apply State.useNonce_only h_key | apply each_only | apply foldl_only) | intro _ _ _ | split | (refine Only.upd ?_ (.inr rfl) (.inr rfl) (.inr rfl) (.inl h_rf) (.inl h_irqNow) (.inr rfl) (.inr rfl) (.inr rfl) (.inr rfl) (.inr rfl) (.inr rfl) (.inr rfl) (.inr rfl) (.inr rfl) (.inr rfl) (.inr rfl) (.inr rfl) (.inr rfl) (.inr rfl) (.inr rfl) (.inr rfl) (.inl h_key) (.inr rfl) (.inr rfl) (.inr rfl) (.inr rfl); try dsimp only)

theorem State.keyManage_only {pt : Parts} (h_key : pt.key = true) {s₀ s0 : State} (h : Only pt s₀ s0) : Only pt s₀ (State.keyManage s0).st := by
  unfold State.keyManage
  try dsimp only
  repeat' first | (with_reducible first | assumption | apply State.useNonce_only h_key | apply KeyOut.fail_only  | apply each_only | apply foldl_only) | intro _ _ _ | split | (refine Only.upd ?_ (.inr rfl) (.inr rfl) (.inr rfl) (.inr rfl) (.inr rfl) (.inr rfl) (.inr rfl) (.inr rfl) (.inr rfl) (.inr rfl) (.inr rfl) (.inr rfl) (.inr rfl) (.inr rfl) (.inr rfl) (.inr rfl) (.inr rfl) (.inr rfl) (.inr rfl) (.inr rfl) (.inr rfl) (.inl h_key) (.inr rfl) (.inr rfl) (.inr rfl) (.inr rfl); try dsimp only)

theorem State.keyLifecycle_only {pt : Parts} (h_fresh : pt.fresh = true) (h_rf : pt.rf = true) (h_irqNow : pt.irqNow = true) (h_host : pt.host = true) (h_key : pt.key = true) {s₀ s : State} (h : Only pt s₀ s) (j : KeyJob) : Only pt s₀ (State.keyLifecycle s j).st := by
  unfold State.keyLifecycle
  try dsimp only
  repeat' first | (with_reducible first | assumption | apply State.serviceEnd_only h_fresh h_rf h_irqNow h_host h_key | apply KeyOut.fail_only  | apply State.lcEnter_only h_fresh h_rf h_irqNow h_host h_key | apply each_only | apply foldl_only) | intro _ _ _ | split | (refine Only.upd ?_ (.inr rfl) (.inr rfl) (.inl h_fresh) (.inl h_rf) (.inl h_irqNow) (.inr rfl) (.inr rfl) (.inr rfl) (.inr rfl) (.inr rfl) (.inr rfl) (.inr rfl) (.inr rfl) (.inr rfl) (.inr rfl) (.inr rfl) (.inr rfl) (.inl h_host) (.inr rfl) (.inr rfl) (.inr rfl) (.inl h_key) (.inr rfl) (.inr rfl) (.inr rfl) (.inr rfl); try dsimp only)

theorem State.keyRun_only {pt : Parts} (h_fresh : pt.fresh = true) (h_rf : pt.rf = true) (h_irqNow : pt.irqNow = true) (h_host : pt.host = true) (h_key : pt.key = true) {s₀ s : State} (h : Only pt s₀ s) (j : KeyJob) : Only pt s₀ (State.keyRun s j).st := by
  unfold State.keyRun
  try dsimp only
  repeat' first | (with_reducible first | assumption | apply State.keyLoad_only h_fresh h_key | apply State.keyUnload_only h_rf h_irqNow h_host h_key | apply State.keyReplace_only h_key | apply State.keyMake_only h_fresh h_key | apply State.keyResident_only h_key | apply KeyOut.fail_only  | apply State.draw_only h_fresh | apply State.keyLifecycle_only h_fresh h_rf h_irqNow h_host h_key | apply State.useNonce_only h_key | apply State.keyManage_only h_key | apply each_only | apply foldl_only) | intro _ _ _ | split | (refine Only.upd ?_ (.inr rfl) (.inr rfl) (.inl h_fresh) (.inl h_rf) (.inl h_irqNow) (.inr rfl) (.inr rfl) (.inr rfl) (.inr rfl) (.inr rfl) (.inr rfl) (.inr rfl) (.inr rfl) (.inr rfl) (.inr rfl) (.inr rfl) (.inr rfl) (.inl h_host) (.inr rfl) (.inr rfl) (.inr rfl) (.inl h_key) (.inr rfl) (.inr rfl) (.inr rfl) (.inr rfl); try dsimp only)

theorem State.remaskSlot_only {pt : Parts} (h_fresh : pt.fresh = true) (h_key : pt.key = true) {s₀ : State} {s : State} (h : Only pt s₀ s) (n : Nat) : Only pt s₀ (State.remaskSlot s n) := by
  unfold State.remaskSlot State.draw
  split
  · exact h
  · dsimp only
    refine Only.upd ?_ (.inr rfl) (.inr rfl) (.inl h_fresh) (.inr rfl) (.inr rfl) (.inr rfl) (.inr rfl) (.inr rfl) (.inr rfl) (.inr rfl) (.inr rfl) (.inr rfl) (.inr rfl) (.inr rfl) (.inr rfl) (.inr rfl) (.inr rfl) (.inr rfl) (.inr rfl) (.inr rfl) (.inr rfl) (.inl h_key) (.inr rfl) (.inr rfl) (.inr rfl) (.inr rfl)
    exact h

theorem State.keyDone_only {pt : Parts} (h_fresh : pt.fresh = true) (h_rf : pt.rf = true) (h_irqNow : pt.irqNow = true) (h_host : pt.host = true) (h_key : pt.key = true) {s₀ s : State} (h : Only pt s₀ s) : Only pt s₀ (State.keyDone s) := by
  unfold State.keyDone
  try dsimp only
  repeat' first | (with_reducible first | assumption | apply State.keyRun_only h_fresh h_rf h_irqNow h_host h_key | apply State.setBuf_only h_rf | apply State.orphanSlot_only h_rf h_irqNow h_host h_key | apply State.remaskSlot_only h_fresh h_key | apply State.raise_only h_rf h_irqNow | apply each_only | apply foldl_only) | intro _ _ _ | split | (refine Only.upd ?_ (.inr rfl) (.inr rfl) (.inl h_fresh) (.inl h_rf) (.inl h_irqNow) (.inr rfl) (.inr rfl) (.inr rfl) (.inr rfl) (.inr rfl) (.inr rfl) (.inr rfl) (.inr rfl) (.inr rfl) (.inr rfl) (.inr rfl) (.inr rfl) (.inl h_host) (.inr rfl) (.inr rfl) (.inr rfl) (.inl h_key) (.inr rfl) (.inr rfl) (.inr rfl) (.inr rfl); try dsimp only)

theorem State.keyAbandon_only {pt : Parts} (h_rf : pt.rf = true) (h_irqNow : pt.irqNow = true) (h_key : pt.key = true) {s₀ s : State} (h : Only pt s₀ s) (code : Option Nat) : Only pt s₀ (State.keyAbandon s code) := by
  unfold State.keyAbandon
  try dsimp only
  repeat' first | (with_reducible first | assumption | apply State.setBuf_only h_rf | apply State.raise_only h_rf h_irqNow | apply each_only | apply foldl_only) | intro _ _ _ | split | (refine Only.upd ?_ (.inr rfl) (.inr rfl) (.inr rfl) (.inl h_rf) (.inl h_irqNow) (.inr rfl) (.inr rfl) (.inr rfl) (.inr rfl) (.inr rfl) (.inr rfl) (.inr rfl) (.inr rfl) (.inr rfl) (.inr rfl) (.inr rfl) (.inr rfl) (.inr rfl) (.inr rfl) (.inr rfl) (.inr rfl) (.inl h_key) (.inr rfl) (.inr rfl) (.inr rfl) (.inr rfl); try dsimp only)

theorem State.zeroise_only {pt : Parts} (h_key : pt.key = true) {s₀ s : State} (h : Only pt s₀ s) : Only pt s₀ (State.zeroise s) := by
  unfold State.zeroise
  try dsimp only
  repeat' first | (with_reducible first | assumption  | apply each_only | apply foldl_only) | intro _ _ _ | split | (refine Only.upd ?_ (.inr rfl) (.inr rfl) (.inr rfl) (.inr rfl) (.inr rfl) (.inr rfl) (.inr rfl) (.inr rfl) (.inr rfl) (.inr rfl) (.inr rfl) (.inr rfl) (.inr rfl) (.inr rfl) (.inr rfl) (.inr rfl) (.inr rfl) (.inr rfl) (.inr rfl) (.inr rfl) (.inr rfl) (.inl h_key) (.inr rfl) (.inr rfl) (.inr rfl) (.inr rfl); try dsimp only)

theorem State.tampered_only {pt : Parts} (h_rf : pt.rf = true) (h_irqNow : pt.irqNow = true) (h_host : pt.host = true) (h_rcd : pt.rcd = true) (h_key : pt.key = true) (h_tamp : pt.tamp = true) {s₀ s : State} (h : Only pt s₀ s) (sources : Nat) : Only pt s₀ (State.tampered s sources) := by
  unfold State.tampered
  try dsimp only
  repeat' first | (with_reducible first | assumption | apply State.zeroise_only h_key | apply State.keyAbandon_only h_rf h_irqNow h_key | apply State.sessEndAll_only h_rf h_irqNow h_host | apply State.bump_only h_rf | apply State.wn_only h_rf | apply State.raise_only h_rf h_irqNow | apply State.wf__only h_rf | apply State.fire_only h_rf h_irqNow h_rcd | apply each_only | apply foldl_only) | intro _ _ _ | split | (refine Only.upd ?_ (.inr rfl) (.inr rfl) (.inr rfl) (.inl h_rf) (.inl h_irqNow) (.inr rfl) (.inr rfl) (.inr rfl) (.inr rfl) (.inr rfl) (.inr rfl) (.inr rfl) (.inr rfl) (.inr rfl) (.inr rfl) (.inr rfl) (.inr rfl) (.inl h_host) (.inr rfl) (.inr rfl) (.inl h_rcd) (.inl h_key) (.inl h_tamp) (.inr rfl) (.inr rfl) (.inr rfl); try dsimp only)

theorem State.tampRelease_only {pt : Parts} (h_fresh : pt.fresh = true) (h_rf : pt.rf = true) (h_irqNow : pt.irqNow = true) (h_host : pt.host = true) (h_rcd : pt.rcd = true) (h_key : pt.key = true) (h_tamp : pt.tamp = true) {s₀ s : State} (h : Only pt s₀ s) : Only pt s₀ (State.tampRelease s) := by
  unfold State.tampRelease
  try dsimp only
  repeat' first | (with_reducible first | assumption | apply State.tampered_only h_rf h_irqNow h_host h_rcd h_key h_tamp | apply State.raise_only h_rf h_irqNow | apply State.deriveRoot_only h_fresh h_key | apply each_only | apply foldl_only) | intro _ _ _ | split | (refine Only.upd ?_ (.inr rfl) (.inr rfl) (.inl h_fresh) (.inl h_rf) (.inl h_irqNow) (.inr rfl) (.inr rfl) (.inr rfl) (.inr rfl) (.inr rfl) (.inr rfl) (.inr rfl) (.inr rfl) (.inr rfl) (.inr rfl) (.inr rfl) (.inr rfl) (.inl h_host) (.inr rfl) (.inr rfl) (.inl h_rcd) (.inl h_key) (.inl h_tamp) (.inr rfl) (.inr rfl) (.inr rfl); try dsimp only)

end Sys2Proof.Machine
end

