-- ==== Sys2Proof/Laws/OnlySysOps.lean ====
section
/-! SUPPORT. Which parts of the state the operations of Machine/SysOps.lean leave the same. -/

set_option linter.unusedTactic false
set_option linter.unreachableTactic false

namespace Sys2Proof.Machine

theorem State.entryApply_only {pt : Parts} (h_rf : pt.rf = true) {s₀ s : State} (h : Only pt s₀ s) (e : Nat × Word) : Only pt s₀ (State.entryApply s e) := by
  unfold State.entryApply
  try dsimp only
  repeat' first | (with_reducible first | assumption | apply State.wr_only h_rf | apply each_only | apply foldl_only) | intro _ _ _ | split | (refine Only.upd ?_ (.inr rfl) (.inr rfl) (.inr rfl) (.inl h_rf) (.inr rfl) (.inr rfl) (.inr rfl) (.inr rfl) (.inr rfl) (.inr rfl) (.inr rfl) (.inr rfl) (.inr rfl) (.inr rfl) (.inr rfl) (.inr rfl) (.inr rfl) (.inr rfl) (.inr rfl) (.inr rfl) (.inr rfl) (.inr rfl) (.inr rfl) (.inr rfl) (.inr rfl) (.inr rfl); try dsimp only)

theorem State.copyWords_only {pt : Parts} (h_rf : pt.rf = true) {s₀ s : State} (h : Only pt s₀ s) (src : Nat) (dst : Nat) (n : Nat) : Only pt s₀ (State.copyWords s src dst n) := by
  unfold State.copyWords
  try dsimp only
  repeat' first | (with_reducible first | assumption | apply State.wr_only h_rf | apply each_only | apply foldl_only) | intro _ _ _ | split | dsimp only

theorem State.applyEntries_only {pt : Parts} (h_rf : pt.rf = true) (h_drv : pt.drv = true) {s₀ s : State} (h : Only pt s₀ s) (l : List (Nat × Word)) : Only pt s₀ (State.applyEntries s l) := by
  unfold State.applyEntries
  try dsimp only
  repeat' first | (with_reducible first | assumption | apply State.entryApply_only h_rf | apply State.copyWords_only h_rf | apply State.wr_only h_rf | apply each_only | apply foldl_only) | intro _ _ _ | split | (refine Only.upd ?_ (.inr rfl) (.inr rfl) (.inr rfl) (.inl h_rf) (.inr rfl) (.inr rfl) (.inr rfl) (.inr rfl) (.inl h_drv) (.inr rfl) (.inr rfl) (.inr rfl) (.inr rfl) (.inr rfl) (.inr rfl) (.inr rfl) (.inr rfl) (.inr rfl) (.inr rfl) (.inr rfl) (.inr rfl) (.inr rfl) (.inr rfl) (.inr rfl) (.inr rfl) (.inr rfl); try dsimp only)

theorem State.keepWords_only {pt : Parts} (h_rf : pt.rf = true) {s₀ s : State} (h : Only pt s₀ s) (keep : Cls → Bool) : Only pt s₀ (State.keepWords s keep) := by
  unfold State.keepWords
  try dsimp only
  repeat' first | (with_reducible first | assumption  | apply each_only | apply foldl_only) | intro _ _ _ | split | (refine Only.upd ?_ (.inr rfl) (.inr rfl) (.inr rfl) (.inl h_rf) (.inr rfl) (.inr rfl) (.inr rfl) (.inr rfl) (.inr rfl) (.inr rfl) (.inr rfl) (.inr rfl) (.inr rfl) (.inr rfl) (.inr rfl) (.inr rfl) (.inr rfl) (.inr rfl) (.inr rfl) (.inr rfl) (.inr rfl) (.inr rfl) (.inr rfl) (.inr rfl) (.inr rfl) (.inr rfl); try dsimp only)

theorem State.orderlySave_only {pt : Parts} (h_rf : pt.rf = true) (h_irqNow : pt.irqNow = true) (h_doorF : pt.doorF = true) (h_doorR : pt.doorR = true) (h_rcd : pt.rcd = true) (h_sys : pt.sys = true) {s₀ s : State} (h : Only pt s₀ s) : Only pt s₀ (State.orderlySave s) := by
  unfold State.orderlySave
  try dsimp only
  repeat' first | (with_reducible first | assumption | apply State.flushAll_only h_rf h_irqNow h_rcd | apply State.counterSave_only h_rcd | apply State.posSave_only h_sys | apply State.doorRetain_only h_rf h_doorF h_doorR | apply each_only | apply foldl_only) | intro _ _ _ | split | dsimp only

theorem State.startFailed_only {pt : Parts} (h_clk : pt.clk = true) (h_sys : pt.sys = true) {s₀ s : State} (h : Only pt s₀ s) (c : BootCause) : Only pt s₀ (State.startFailed s c) := by
  unfold State.startFailed
  try dsimp only
  repeat' first | (with_reducible first | assumption  | apply each_only | apply foldl_only) | intro _ _ _ | split | (refine Only.upd ?_ (.inr rfl) (.inr rfl) (.inr rfl) (.inr rfl) (.inr rfl) (.inr rfl) (.inr rfl) (.inr rfl) (.inr rfl) (.inr rfl) (.inr rfl) (.inr rfl) (.inr rfl) (.inr rfl) (.inr rfl) (.inr rfl) (.inr rfl) (.inr rfl) (.inr rfl) (.inr rfl) (.inr rfl) (.inr rfl) (.inr rfl) (.inl h_clk) (.inl h_sys) (.inr rfl); try dsimp only)

theorem State.fallback_only {pt : Parts} (h_rf : pt.rf = true) (h_irqNow : pt.irqNow = true) (h_mot : pt.mot = true) (h_drv : pt.drv = true) (h_el : pt.el = true) (h_host : pt.host = true) (h_part : pt.part = true) (h_rcd : pt.rcd = true) (h_clk : pt.clk = true) {s₀ s0 : State} (h : Only pt s₀ s0) (c : ClkCause) : Only pt s₀ (State.fallback s0 c) := by
  unfold State.fallback
  try dsimp only
  repeat' first | (with_reducible first | assumption | apply State.motHoldNow_only h_rf h_irqNow h_mot h_drv h_el h_rcd | apply State.wr_only h_rf | apply State.raise_only h_rf h_irqNow | apply State.sessEnd_only h_rf h_irqNow h_host | apply State.wf__only h_rf | apply State.fire_only h_rf h_irqNow h_rcd | apply each_only | apply foldl_only) | intro _ _ _ | split | (refine Only.upd ?_ (.inr rfl) (.inr rfl) (.inr rfl) (.inl h_rf) (.inl h_irqNow) (.inr rfl) (.inr rfl) (.inl h_mot) (.inl h_drv) (.inr rfl) (.inr rfl) (.inr rfl) (.inr rfl) (.inl h_el) (.inr rfl) (.inr rfl) (.inr rfl) (.inl h_host) (.inr rfl) (.inl h_part) (.inl h_rcd) (.inr rfl) (.inr rfl) (.inl h_clk) (.inr rfl) (.inr rfl); try dsimp only)

theorem State.selectSlot_only {pt : Parts} (h_rf : pt.rf = true) (h_sys : pt.sys = true) {s₀ s : State} (h : Only pt s₀ s) : Only pt s₀ (State.selectSlot s) := by
  unfold State.selectSlot
  try dsimp only
  repeat' first | (with_reducible first | assumption | apply State.wf__only h_rf | apply each_only | apply foldl_only) | intro _ _ _ | split | (refine Only.upd ?_ (.inr rfl) (.inr rfl) (.inr rfl) (.inl h_rf) (.inr rfl) (.inr rfl) (.inr rfl) (.inr rfl) (.inr rfl) (.inr rfl) (.inr rfl) (.inr rfl) (.inr rfl) (.inr rfl) (.inr rfl) (.inr rfl) (.inr rfl) (.inr rfl) (.inr rfl) (.inr rfl) (.inr rfl) (.inr rfl) (.inr rfl) (.inr rfl) (.inl h_sys) (.inr rfl); try dsimp only)

theorem State.enginesStart_only {pt : Parts} (h_rf : pt.rf = true) (h_irqNow : pt.irqNow = true) (h_pos : pt.pos = true) (h_mot : pt.mot = true) (h_can : pt.can = true) (h_sil : pt.sil = true) {s₀ s : State} (h : Only pt s₀ s) : Only pt s₀ (State.enginesStart s) := by
  unfold State.enginesStart
  try dsimp only
  repeat' first | (with_reducible first | assumption | apply State.posStart_only h_rf h_irqNow h_pos h_mot | apply State.schRunNow_only h_rf | apply State.silRestart_only h_sil | apply State.setCan_only h_can | apply each_only | apply foldl_only) | intro _ _ _ | split | (refine Only.upd ?_ (.inr rfl) (.inr rfl) (.inr rfl) (.inl h_rf) (.inl h_irqNow) (.inl h_pos) (.inr rfl) (.inl h_mot) (.inr rfl) (.inr rfl) (.inr rfl) (.inr rfl) (.inr rfl) (.inr rfl) (.inr rfl) (.inl h_can) (.inr rfl) (.inr rfl) (.inl h_sil) (.inr rfl) (.inr rfl) (.inr rfl) (.inr rfl) (.inr rfl) (.inr rfl) (.inr rfl); try dsimp only)

theorem State.startFields_only {pt : Parts} (h_part : pt.part = true) (h_key : pt.key = true) (h_clk : pt.clk = true) (h_sys : pt.sys = true) {s₀ s : State} (h : Only pt s₀ s) (i : StartIn) (fb : Bool) : Only pt s₀ (State.startFields s i fb) := by
  unfold State.startFields
  try dsimp only
  repeat' first | (with_reducible first | assumption  | apply each_only | apply foldl_only) | intro _ _ _ | split | (refine Only.upd ?_ (.inr rfl) (.inr rfl) (.inr rfl) (.inr rfl) (.inr rfl) (.inr rfl) (.inr rfl) (.inr rfl) (.inr rfl) (.inr rfl) (.inr rfl) (.inr rfl) (.inr rfl) (.inr rfl) (.inr rfl) (.inr rfl) (.inr rfl) (.inr rfl) (.inr rfl) (.inl h_part) (.inr rfl) (.inl h_key) (.inr rfl) (.inl h_clk) (.inl h_sys) (.inr rfl); try dsimp only)

theorem State.startMesh_only {pt : Parts} (h_rf : pt.rf = true) (h_irqNow : pt.irqNow = true) (h_host : pt.host = true) (h_rcd : pt.rcd = true) (h_key : pt.key = true) (h_tamp : pt.tamp = true) (h_sys : pt.sys = true) {s₀ s : State} (h : Only pt s₀ s) (active : Bool) : Only pt s₀ (State.startMesh s active) := by
  unfold State.startMesh
  try dsimp only
  repeat' first | (with_reducible first | assumption | apply State.tampered_only h_rf h_irqNow h_host h_rcd h_key h_tamp | apply each_only | apply foldl_only) | intro _ _ _ | split | (refine Only.upd ?_ (.inr rfl) (.inr rfl) (.inr rfl) (.inl h_rf) (.inl h_irqNow) (.inr rfl) (.inr rfl) (.inr rfl) (.inr rfl) (.inr rfl) (.inr rfl) (.inr rfl) (.inr rfl) (.inr rfl) (.inr rfl) (.inr rfl) (.inr rfl) (.inl h_host) (.inr rfl) (.inr rfl) (.inl h_rcd) (.inl h_key) (.inl h_tamp) (.inr rfl) (.inl h_sys) (.inr rfl); try dsimp only)

theorem State.startProfile_only {pt : Parts} (h_rf : pt.rf = true) (h_drv : pt.drv = true) (h_sys : pt.sys = true) {s₀ s : State} (h : Only pt s₀ s) : Only pt s₀ (State.startProfile s) := by
  unfold State.startProfile
  try dsimp only
  repeat' first | (with_reducible first | assumption | apply State.selectSlot_only h_rf h_sys | apply State.applyEntries_only h_rf h_drv | apply each_only | apply foldl_only) | intro _ _ _ | split | (refine Only.upd ?_ (.inr rfl) (.inr rfl) (.inr rfl) (.inl h_rf) (.inr rfl) (.inr rfl) (.inr rfl) (.inr rfl) (.inl h_drv) (.inr rfl) (.inr rfl) (.inr rfl) (.inr rfl) (.inr rfl) (.inr rfl) (.inr rfl) (.inr rfl) (.inr rfl) (.inr rfl) (.inr rfl) (.inr rfl) (.inr rfl) (.inr rfl) (.inr rfl) (.inl h_sys) (.inr rfl); try dsimp only)

theorem State.startKeys_only {pt : Parts} (h_fresh : pt.fresh = true) (h_key : pt.key = true) {s₀ s : State} (h : Only pt s₀ s) : Only pt s₀ (State.startKeys s) := by
  unfold State.startKeys
  try dsimp only
  repeat' first | (with_reducible first | assumption | apply State.deriveRoot_only h_fresh h_key | apply each_only | apply foldl_only) | intro _ _ _ | split | (refine Only.upd ?_ (.inr rfl) (.inr rfl) (.inl h_fresh) (.inr rfl) (.inr rfl) (.inr rfl) (.inr rfl) (.inr rfl) (.inr rfl) (.inr rfl) (.inr rfl) (.inr rfl) (.inr rfl) (.inr rfl) (.inr rfl) (.inr rfl) (.inr rfl) (.inr rfl) (.inr rfl) (.inr rfl) (.inr rfl) (.inl h_key) (.inr rfl) (.inr rfl) (.inr rfl) (.inr rfl); try dsimp only)

theorem State.startRecord_only {pt : Parts} (h_rf : pt.rf = true) (h_irqNow : pt.irqNow = true) (h_host : pt.host = true) (h_part : pt.part = true) (h_rcd : pt.rcd = true) (h_clk : pt.clk = true) {s₀ s : State} (h : Only pt s₀ s) (bootWord : Word) : Only pt s₀ (State.startRecord s bootWord) := by
  unfold State.startRecord
  try dsimp only
  repeat' first | (with_reducible first | assumption | apply State.wr_only h_rf | apply State.stage_only h_rf h_irqNow h_rcd | apply each_only | apply foldl_only) | intro _ _ _ | split | (refine Only.upd ?_ (.inr rfl) (.inr rfl) (.inr rfl) (.inl h_rf) (.inl h_irqNow) (.inr rfl) (.inr rfl) (.inr rfl) (.inr rfl) (.inr rfl) (.inr rfl) (.inr rfl) (.inr rfl) (.inr rfl) (.inr rfl) (.inr rfl) (.inr rfl) (.inl h_host) (.inr rfl) (.inl h_part) (.inl h_rcd) (.inr rfl) (.inr rfl) (.inl h_clk) (.inr rfl) (.inr rfl); try dsimp only)

theorem State.startRun_only {pt : Parts} (h_fresh : pt.fresh = true) (h_rf : pt.rf = true) (h_irqNow : pt.irqNow = true) (h_pos : pt.pos = true) (h_mot : pt.mot = true) (h_drv : pt.drv = true) (h_el : pt.el = true) (h_can : pt.can = true) (h_host : pt.host = true) (h_sil : pt.sil = true) (h_part : pt.part = true) (h_rcd : pt.rcd = true) (h_key : pt.key = true) (h_tamp : pt.tamp = true) (h_clk : pt.clk = true) (h_sys : pt.sys = true) {s₀ s : State} (h : Only pt s₀ s) (i : StartIn) (fb : Bool) : Only pt s₀ (State.startRun s i fb) := by
  unfold State.startRun
  try dsimp only
  repeat' first | (with_reducible first | assumption | apply State.startFields_only h_part h_key h_clk h_sys | apply State.startMesh_only h_rf h_irqNow h_host h_rcd h_key h_tamp h_sys | apply State.startProfile_only h_rf h_drv h_sys | apply State.startKeys_only h_fresh h_key | apply State.startRecord_only h_rf h_irqNow h_host h_part h_rcd h_clk | apply State.enginesStart_only h_rf h_irqNow h_pos h_mot h_can h_sil | apply State.elTake_only h_el | apply State.fallback_only h_rf h_irqNow h_mot h_drv h_el h_host h_part h_rcd h_clk | apply each_only | apply foldl_only) | intro _ _ _ | split | dsimp only

theorem State.startAttempt_only {pt : Parts} (h_fresh : pt.fresh = true) (h_rf : pt.rf = true) (h_irqNow : pt.irqNow = true) (h_pos : pt.pos = true) (h_mot : pt.mot = true) (h_drv : pt.drv = true) (h_el : pt.el = true) (h_can : pt.can = true) (h_host : pt.host = true) (h_sil : pt.sil = true) (h_part : pt.part = true) (h_rcd : pt.rcd = true) (h_key : pt.key = true) (h_tamp : pt.tamp = true) (h_clk : pt.clk = true) (h_sys : pt.sys = true) {s₀ s : State} (h : Only pt s₀ s) (i : StartIn) : Only pt s₀ (State.startAttempt s i) := by
  unfold State.startAttempt
  try dsimp only
  repeat' first | (with_reducible first | assumption | apply State.startFailed_only h_clk h_sys | apply State.startRun_only h_fresh h_rf h_irqNow h_pos h_mot h_drv h_el h_can h_host h_sil h_part h_rcd h_key h_tamp h_clk h_sys | apply each_only | apply foldl_only) | intro _ _ _ | split | (refine Only.upd ?_ (.inr rfl) (.inr rfl) (.inl h_fresh) (.inl h_rf) (.inl h_irqNow) (.inl h_pos) (.inr rfl) (.inl h_mot) (.inl h_drv) (.inr rfl) (.inr rfl) (.inr rfl) (.inr rfl) (.inl h_el) (.inr rfl) (.inl h_can) (.inr rfl) (.inl h_host) (.inl h_sil) (.inl h_part) (.inl h_rcd) (.inl h_key) (.inl h_tamp) (.inl h_clk) (.inl h_sys) (.inr rfl); try dsimp only)

theorem State.holdEnd_only {pt : Parts} (h_clk : pt.clk = true) (h_sys : pt.sys = true) {s₀ s : State} (h : Only pt s₀ s) : Only pt s₀ (State.holdEnd s) := by
  unfold State.holdEnd
  try dsimp only
  repeat' first | (with_reducible first | assumption  | apply each_only | apply foldl_only) | intro _ _ _ | split | (refine Only.upd ?_ (.inr rfl) (.inr rfl) (.inr rfl) (.inr rfl) (.inr rfl) (.inr rfl) (.inr rfl) (.inr rfl) (.inr rfl) (.inr rfl) (.inr rfl) (.inr rfl) (.inr rfl) (.inr rfl) (.inr rfl) (.inr rfl) (.inr rfl) (.inr rfl) (.inr rfl) (.inr rfl) (.inr rfl) (.inr rfl) (.inr rfl) (.inl h_clk) (.inl h_sys) (.inr rfl); try dsimp only)

theorem State.trimStep_only {pt : Parts} (h_rf : pt.rf = true) (h_irqNow : pt.irqNow = true) (h_clk : pt.clk = true) {s₀ s : State} (h : Only pt s₀ s) (up : Bool) : Only pt s₀ (State.trimStep s up) := by
  unfold State.trimStep
  try dsimp only
  repeat' first | (with_reducible first | assumption | apply State.wf__only h_rf | apply State.raise_only h_rf h_irqNow | apply each_only | apply foldl_only) | intro _ _ _ | split | (refine Only.upd ?_ (.inr rfl) (.inr rfl) (.inr rfl) (.inl h_rf) (.inl h_irqNow) (.inr rfl) (.inr rfl) (.inr rfl) (.inr rfl) (.inr rfl) (.inr rfl) (.inr rfl) (.inr rfl) (.inr rfl) (.inr rfl) (.inr rfl) (.inr rfl) (.inr rfl) (.inr rfl) (.inr rfl) (.inr rfl) (.inr rfl) (.inr rfl) (.inl h_clk) (.inr rfl) (.inr rfl); try dsimp only)

theorem State.parkNow_only {pt : Parts} (h_rf : pt.rf = true) (h_irqNow : pt.irqNow = true) (h_bid : pt.bid = true) (h_doorF : pt.doorF = true) (h_doorR : pt.doorR = true) (h_can : pt.can = true) (h_sys : pt.sys = true) {s₀ s : State} (h : Only pt s₀ s) : Only pt s₀ (State.parkNow s) := by
  unfold State.parkNow
  try dsimp only
  repeat' first | (with_reducible first | assumption | apply State.bidStop_only h_rf h_irqNow h_bid h_can | apply State.doorPowerDown_only h_rf h_irqNow h_doorF h_doorR | apply State.canSleepNow_only h_rf h_irqNow h_can | apply State.raise_only h_rf h_irqNow | apply each_only | apply foldl_only) | intro _ _ _ | split | (refine Only.upd ?_ (.inr rfl) (.inr rfl) (.inr rfl) (.inl h_rf) (.inl h_irqNow) (.inr rfl) (.inr rfl) (.inr rfl) (.inr rfl) (.inr rfl) (.inl h_bid) (.inl h_doorF) (.inl h_doorR) (.inr rfl) (.inr rfl) (.inl h_can) (.inr rfl) (.inr rfl) (.inr rfl) (.inr rfl) (.inr rfl) (.inr rfl) (.inr rfl) (.inr rfl) (.inl h_sys) (.inr rfl); try dsimp only)

theorem State.parkEnd_only {pt : Parts} (h_rf : pt.rf = true) (h_irqNow : pt.irqNow = true) (h_bid : pt.bid = true) (h_can : pt.can = true) (h_sys : pt.sys = true) {s₀ s : State} (h : Only pt s₀ s) (w : WakeCause) : Only pt s₀ (State.parkEnd s w) := by
  unfold State.parkEnd
  try dsimp only
  repeat' first | (with_reducible first | assumption | apply State.raise_only h_rf h_irqNow | apply State.canWakeNow_only h_rf h_irqNow h_can | apply State.bidRunSet_only h_rf h_irqNow h_bid | apply each_only | apply foldl_only) | intro _ _ _ | split | (refine Only.upd ?_ (.inr rfl) (.inr rfl) (.inr rfl) (.inl h_rf) (.inl h_irqNow) (.inr rfl) (.inr rfl) (.inr rfl) (.inr rfl) (.inr rfl) (.inl h_bid) (.inr rfl) (.inr rfl) (.inr rfl) (.inr rfl) (.inl h_can) (.inr rfl) (.inr rfl) (.inr rfl) (.inr rfl) (.inr rfl) (.inr rfl) (.inr rfl) (.inr rfl) (.inl h_sys) (.inr rfl); try dsimp only)

theorem State.deepNow_only {pt : Parts} (h_rf : pt.rf = true) (h_irqNow : pt.irqNow = true) (h_drv : pt.drv = true) (h_sch : pt.sch = true) (h_bid : pt.bid = true) (h_doorF : pt.doorF = true) (h_doorR : pt.doorR = true) (h_el : pt.el = true) (h_can : pt.can = true) (h_part : pt.part = true) (h_rcd : pt.rcd = true) (h_sys : pt.sys = true) {s₀ s : State} (h : Only pt s₀ s) : Only pt s₀ (State.deepNow s) := by
  unfold State.deepNow
  try dsimp only
  repeat' first | (with_reducible first | assumption | apply State.oosHostNow_only h_rf h_irqNow h_sch h_bid h_doorF h_doorR | apply State.orderlySave_only h_rf h_irqNow h_doorF h_doorR h_rcd h_sys | apply State.loseAuthority_only h_rf h_irqNow h_drv h_doorF h_doorR h_el h_can h_part | apply each_only | apply foldl_only) | intro _ _ _ | split | (refine Only.upd ?_ (.inr rfl) (.inr rfl) (.inr rfl) (.inl h_rf) (.inl h_irqNow) (.inr rfl) (.inr rfl) (.inr rfl) (.inl h_drv) (.inl h_sch) (.inl h_bid) (.inl h_doorF) (.inl h_doorR) (.inl h_el) (.inr rfl) (.inl h_can) (.inr rfl) (.inr rfl) (.inr rfl) (.inl h_part) (.inl h_rcd) (.inr rfl) (.inr rfl) (.inr rfl) (.inl h_sys) (.inr rfl); try dsimp only)

theorem State.warnNow_only {pt : Parts} (h_rf : pt.rf = true) (h_irqNow : pt.irqNow = true) (h_doorF : pt.doorF = true) (h_doorR : pt.doorR = true) (h_rcd : pt.rcd = true) (h_key : pt.key = true) (h_sys : pt.sys = true) {s₀ s : State} (h : Only pt s₀ s) (mv : Nat) : Only pt s₀ (State.warnNow s mv) := by
  unfold State.warnNow
  try dsimp only
  repeat' first | (with_reducible first | assumption | apply State.raise_only h_rf h_irqNow | apply State.bump_only h_rf | apply State.doorRetain_only h_rf h_doorF h_doorR | apply State.keyAbandon_only h_rf h_irqNow h_key | apply State.stage_only h_rf h_irqNow h_rcd | apply each_only | apply foldl_only) | intro _ _ _ | split | (refine Only.upd ?_ (.inr rfl) (.inr rfl) (.inr rfl) (.inl h_rf) (.inl h_irqNow) (.inr rfl) (.inr rfl) (.inr rfl) (.inr rfl) (.inr rfl) (.inr rfl) (.inl h_doorF) (.inl h_doorR) (.inr rfl) (.inr rfl) (.inr rfl) (.inr rfl) (.inr rfl) (.inr rfl) (.inr rfl) (.inl h_rcd) (.inl h_key) (.inr rfl) (.inr rfl) (.inl h_sys) (.inr rfl); try dsimp only)

theorem State.powerWarn_only {pt : Parts} (h_rf : pt.rf = true) (h_irqNow : pt.irqNow = true) (h_doorF : pt.doorF = true) (h_doorR : pt.doorR = true) (h_rcd : pt.rcd = true) (h_key : pt.key = true) (h_sys : pt.sys = true) {s₀ s : State} (h : Only pt s₀ s) (mv : Nat) : Only pt s₀ (State.powerWarn s mv) := by
  unfold State.powerWarn
  try dsimp only
  repeat' first | (with_reducible first | assumption | apply State.warnNow_only h_rf h_irqNow h_doorF h_doorR h_rcd h_key h_sys | apply each_only | apply foldl_only) | intro _ _ _ | split | dsimp only

theorem State.powerBack_only {pt : Parts} (h_rf : pt.rf = true) (h_rcd : pt.rcd = true) (h_sys : pt.sys = true) {s₀ s : State} (h : Only pt s₀ s) (mv : Nat) : Only pt s₀ (State.powerBack s mv) := by
  unfold State.powerBack
  try dsimp only
  repeat' first | (with_reducible first | assumption | apply State.bump_only h_rf | apply each_only | apply foldl_only) | intro _ _ _ | split | (refine Only.upd ?_ (.inr rfl) (.inr rfl) (.inr rfl) (.inl h_rf) (.inr rfl) (.inr rfl) (.inr rfl) (.inr rfl) (.inr rfl) (.inr rfl) (.inr rfl) (.inr rfl) (.inr rfl) (.inr rfl) (.inr rfl) (.inr rfl) (.inr rfl) (.inr rfl) (.inr rfl) (.inr rfl) (.inl h_rcd) (.inr rfl) (.inr rfl) (.inr rfl) (.inl h_sys) (.inr rfl); try dsimp only)

theorem State.borStart_only {pt : Parts} (h_sys : pt.sys = true) {s₀ s : State} (h : Only pt s₀ s) : Only pt s₀ (State.borStart s) := by
  unfold State.borStart
  try dsimp only
  repeat' first | (with_reducible first | assumption  | apply each_only | apply foldl_only) | intro _ _ _ | split | (refine Only.upd ?_ (.inr rfl) (.inr rfl) (.inr rfl) (.inr rfl) (.inr rfl) (.inr rfl) (.inr rfl) (.inr rfl) (.inr rfl) (.inr rfl) (.inr rfl) (.inr rfl) (.inr rfl) (.inr rfl) (.inr rfl) (.inr rfl) (.inr rfl) (.inr rfl) (.inr rfl) (.inr rfl) (.inr rfl) (.inr rfl) (.inr rfl) (.inr rfl) (.inl h_sys) (.inr rfl); try dsimp only)

theorem State.aonLost_only {pt : Parts} (h_rf : pt.rf = true) (h_sys : pt.sys = true) {s₀ s : State} (h : Only pt s₀ s) : Only pt s₀ (State.aonLost s) := by
  unfold State.aonLost
  try dsimp only
  repeat' first | (with_reducible first | assumption | apply State.keepWords_only h_rf | apply each_only | apply foldl_only) | intro _ _ _ | split | (refine Only.upd ?_ (.inr rfl) (.inr rfl) (.inr rfl) (.inl h_rf) (.inr rfl) (.inr rfl) (.inr rfl) (.inr rfl) (.inr rfl) (.inr rfl) (.inr rfl) (.inr rfl) (.inr rfl) (.inr rfl) (.inr rfl) (.inr rfl) (.inr rfl) (.inr rfl) (.inr rfl) (.inr rfl) (.inr rfl) (.inr rfl) (.inr rfl) (.inr rfl) (.inl h_sys) (.inr rfl); try dsimp only)

end Sys2Proof.Machine
end

