-- ==== Sys2Proof/Laws/OnlyPartOps.lean ====
section
/-! SUPPORT. Which parts of the state the operations of Machine/PartOps.lean leave the same. -/

set_option linter.unusedTactic false
set_option linter.unreachableTactic false

namespace Sys2Proof.Machine

theorem State.show_only {pt : Parts} (h_part : pt.part = true) {s₀ s : State} (h : Only pt s₀ s) (p : Present) : Only pt s₀ (State.show s p) := by
  unfold State.show
  try dsimp only
  repeat' first | (with_reducible first | assumption  | apply each_only | apply foldl_only) | intro _ _ _ | split | (refine Only.upd ?_ (.inr rfl) (.inr rfl) (.inr rfl) (.inr rfl) (.inr rfl) (.inr rfl) (.inr rfl) (.inr rfl) (.inr rfl) (.inr rfl) (.inr rfl) (.inr rfl) (.inr rfl) (.inr rfl) (.inr rfl) (.inr rfl) (.inr rfl) (.inr rfl) (.inr rfl) (.inl h_part) (.inr rfl) (.inr rfl) (.inr rfl) (.inr rfl) (.inr rfl) (.inr rfl); try dsimp only)

theorem State.standbyNow_only {pt : Parts} (h_rf : pt.rf = true) (h_irqNow : pt.irqNow = true) (h_part : pt.part = true) (h_rcd : pt.rcd = true) {s₀ s : State} (h : Only pt s₀ s) : Only pt s₀ (State.standbyNow s) := by
  unfold State.standbyNow
  try dsimp only
  repeat' first | (with_reducible first | assumption | apply State.show_only h_part | apply State.setRole_only h_rf h_irqNow h_part h_rcd | apply each_only | apply foldl_only) | intro _ _ _ | split | (refine Only.upd ?_ (.inr rfl) (.inr rfl) (.inr rfl) (.inl h_rf) (.inl h_irqNow) (.inr rfl) (.inr rfl) (.inr rfl) (.inr rfl) (.inr rfl) (.inr rfl) (.inr rfl) (.inr rfl) (.inr rfl) (.inr rfl) (.inr rfl) (.inr rfl) (.inr rfl) (.inr rfl) (.inl h_part) (.inl h_rcd) (.inr rfl) (.inr rfl) (.inr rfl) (.inr rfl) (.inr rfl); try dsimp only)

theorem State.isolateNow_only {pt : Parts} (h_rf : pt.rf = true) (h_irqNow : pt.irqNow = true) (h_part : pt.part = true) (h_rcd : pt.rcd = true) {s₀ s : State} (h : Only pt s₀ s) (echo : Bool) : Only pt s₀ (State.isolateNow s echo) := by
  unfold State.isolateNow
  try dsimp only
  repeat' first | (with_reducible first | assumption | apply State.show_only h_part | apply State.setRole_only h_rf h_irqNow h_part h_rcd | apply each_only | apply foldl_only) | intro _ _ _ | split | (refine Only.upd ?_ (.inr rfl) (.inr rfl) (.inr rfl) (.inl h_rf) (.inl h_irqNow) (.inr rfl) (.inr rfl) (.inr rfl) (.inr rfl) (.inr rfl) (.inr rfl) (.inr rfl) (.inr rfl) (.inr rfl) (.inr rfl) (.inr rfl) (.inr rfl) (.inr rfl) (.inr rfl) (.inl h_part) (.inl h_rcd) (.inr rfl) (.inr rfl) (.inr rfl) (.inr rfl) (.inr rfl); try dsimp only)

theorem State.hwLose_only {pt : Parts} (h_rf : pt.rf = true) (h_irqNow : pt.irqNow = true) (h_pos : pt.pos = true) (h_lwb : pt.lwb = true) (h_mot : pt.mot = true) (h_drv : pt.drv = true) (h_doorF : pt.doorF = true) (h_doorR : pt.doorR = true) (h_el : pt.el = true) (h_can : pt.can = true) (h_part : pt.part = true) (h_rcd : pt.rcd = true) {s₀ s : State} (h : Only pt s₀ s) : Only pt s₀ (State.hwLose s) := by
  unfold State.hwLose
  try dsimp only
  repeat' first | (with_reducible first | assumption | apply State.trip_only h_rf h_irqNow h_pos h_lwb h_mot h_drv h_doorF h_doorR h_el h_can h_part h_rcd | apply State.loseAuthority_only h_rf h_irqNow h_drv h_doorF h_doorR h_el h_can h_part | apply State.show_only h_part | apply each_only | apply foldl_only) | intro _ _ _ | split | dsimp only

theorem State.collided_only {pt : Parts} (h_rf : pt.rf = true) (h_irqNow : pt.irqNow = true) {s₀ s : State} (h : Only pt s₀ s) : Only pt s₀ (State.collided s) := by
  unfold State.collided
  try dsimp only
  repeat' first | (with_reducible first | assumption | apply State.bump_only h_rf | apply State.raise_only h_rf h_irqNow | apply each_only | apply foldl_only) | intro _ _ _ | split | dsimp only

theorem State.bandClears_only {pt : Parts} (h_rf : pt.rf = true) (h_irqNow : pt.irqNow = true) (h_pos : pt.pos = true) (h_lwb : pt.lwb = true) (h_mot : pt.mot = true) (h_drv : pt.drv = true) (h_doorF : pt.doorF = true) (h_doorR : pt.doorR = true) (h_el : pt.el = true) (h_can : pt.can = true) (h_part : pt.part = true) (h_rcd : pt.rcd = true) {s₀ s : State} (h : Only pt s₀ s) (b : Band) : Only pt s₀ (State.bandClears s b) := by
  unfold State.bandClears
  try dsimp only
  repeat' first | (with_reducible first | assumption | apply State.loseAuthority_only h_rf h_irqNow h_drv h_doorF h_doorR h_el h_can h_part | apply State.show_only h_part | apply State.hwLose_only h_rf h_irqNow h_pos h_lwb h_mot h_drv h_doorF h_doorR h_el h_can h_part h_rcd | apply State.collided_only h_rf h_irqNow | apply State.isolateNow_only h_rf h_irqNow h_part h_rcd | apply State.standbyNow_only h_rf h_irqNow h_part h_rcd | apply each_only | apply foldl_only) | intro _ _ _ | split | dsimp only

theorem State.bandIsolated_only {pt : Parts} (h_part : pt.part = true) {s₀ s : State} (h : Only pt s₀ s) (b : Band) : Only pt s₀ (State.bandIsolated s b) := by
  unfold State.bandIsolated
  try dsimp only
  repeat' first | (with_reducible first | assumption | apply State.show_only h_part | apply each_only | apply foldl_only) | intro _ _ _ | split | (refine Only.upd ?_ (.inr rfl) (.inr rfl) (.inr rfl) (.inr rfl) (.inr rfl) (.inr rfl) (.inr rfl) (.inr rfl) (.inr rfl) (.inr rfl) (.inr rfl) (.inr rfl) (.inr rfl) (.inr rfl) (.inr rfl) (.inr rfl) (.inr rfl) (.inr rfl) (.inr rfl) (.inl h_part) (.inr rfl) (.inr rfl) (.inr rfl) (.inr rfl) (.inr rfl) (.inr rfl); try dsimp only)

theorem State.bandD_only {pt : Parts} (h_rf : pt.rf = true) (h_irqNow : pt.irqNow = true) (h_pos : pt.pos = true) (h_lwb : pt.lwb = true) (h_mot : pt.mot = true) (h_drv : pt.drv = true) (h_doorF : pt.doorF = true) (h_doorR : pt.doorR = true) (h_el : pt.el = true) (h_can : pt.can = true) (h_part : pt.part = true) (h_rcd : pt.rcd = true) {s₀ s : State} (h : Only pt s₀ s) (b : Band) : Only pt s₀ (State.bandD s b) := by
  unfold State.bandD
  try dsimp only
  repeat' first | (with_reducible first | assumption | apply State.bandClears_only h_rf h_irqNow h_pos h_lwb h_mot h_drv h_doorF h_doorR h_el h_can h_part h_rcd | apply State.setRole_only h_rf h_irqNow h_part h_rcd | apply State.isolateNow_only h_rf h_irqNow h_part h_rcd | apply State.bandIsolated_only h_part | apply each_only | apply foldl_only) | intro _ _ _ | split | (refine Only.upd ?_ (.inr rfl) (.inr rfl) (.inr rfl) (.inl h_rf) (.inl h_irqNow) (.inl h_pos) (.inl h_lwb) (.inl h_mot) (.inl h_drv) (.inr rfl) (.inr rfl) (.inl h_doorF) (.inl h_doorR) (.inl h_el) (.inr rfl) (.inl h_can) (.inr rfl) (.inr rfl) (.inr rfl) (.inl h_part) (.inl h_rcd) (.inr rfl) (.inr rfl) (.inr rfl) (.inr rfl) (.inr rfl); try dsimp only)

theorem State.bandS_only {pt : Parts} (h_rf : pt.rf = true) (h_irqNow : pt.irqNow = true) (h_pos : pt.pos = true) (h_lwb : pt.lwb = true) (h_mot : pt.mot = true) (h_drv : pt.drv = true) (h_doorF : pt.doorF = true) (h_doorR : pt.doorR = true) (h_el : pt.el = true) (h_can : pt.can = true) (h_part : pt.part = true) (h_rcd : pt.rcd = true) {s₀ s : State} (h : Only pt s₀ s) (b : Band) : Only pt s₀ (State.bandS s b) := by
  unfold State.bandS
  try dsimp only
  repeat' first | (with_reducible first | assumption | apply State.loseAuthority_only h_rf h_irqNow h_drv h_doorF h_doorR h_el h_can h_part | apply State.show_only h_part | apply State.collided_only h_rf h_irqNow | apply State.hwLose_only h_rf h_irqNow h_pos h_lwb h_mot h_drv h_doorF h_doorR h_el h_can h_part h_rcd | apply State.isolateNow_only h_rf h_irqNow h_part h_rcd | apply State.bandIsolated_only h_part | apply each_only | apply foldl_only) | intro _ _ _ | split | (refine Only.upd ?_ (.inr rfl) (.inr rfl) (.inr rfl) (.inl h_rf) (.inl h_irqNow) (.inl h_pos) (.inl h_lwb) (.inl h_mot) (.inl h_drv) (.inr rfl) (.inr rfl) (.inl h_doorF) (.inl h_doorR) (.inl h_el) (.inr rfl) (.inl h_can) (.inr rfl) (.inr rfl) (.inr rfl) (.inl h_part) (.inl h_rcd) (.inr rfl) (.inr rfl) (.inr rfl) (.inr rfl) (.inr rfl); try dsimp only)

theorem State.bandRaw_only {pt : Parts} (h_rf : pt.rf = true) (h_irqNow : pt.irqNow = true) (h_pos : pt.pos = true) (h_lwb : pt.lwb = true) (h_mot : pt.mot = true) (h_drv : pt.drv = true) (h_doorF : pt.doorF = true) (h_doorR : pt.doorR = true) (h_el : pt.el = true) (h_can : pt.can = true) (h_part : pt.part = true) (h_rcd : pt.rcd = true) {s₀ s : State} (h : Only pt s₀ s) (ua : Nat) : Only pt s₀ (State.bandRaw s ua) := by
  unfold State.bandRaw
  try dsimp only
  repeat' first | (with_reducible first | assumption | apply State.loseAuthority_only h_rf h_irqNow h_drv h_doorF h_doorR h_el h_can h_part | apply State.show_only h_part | apply State.collided_only h_rf h_irqNow | apply State.hwLose_only h_rf h_irqNow h_pos h_lwb h_mot h_drv h_doorF h_doorR h_el h_can h_part h_rcd | apply State.isolateNow_only h_rf h_irqNow h_part h_rcd | apply each_only | apply foldl_only) | intro _ _ _ | split | (refine Only.upd ?_ (.inr rfl) (.inr rfl) (.inr rfl) (.inl h_rf) (.inl h_irqNow) (.inl h_pos) (.inl h_lwb) (.inl h_mot) (.inl h_drv) (.inr rfl) (.inr rfl) (.inl h_doorF) (.inl h_doorR) (.inl h_el) (.inr rfl) (.inl h_can) (.inr rfl) (.inr rfl) (.inr rfl) (.inl h_part) (.inl h_rcd) (.inr rfl) (.inr rfl) (.inr rfl) (.inr rfl) (.inr rfl); try dsimp only)

theorem State.bandInto_only {pt : Parts} (h_rf : pt.rf = true) (h_irqNow : pt.irqNow = true) (h_pos : pt.pos = true) (h_lwb : pt.lwb = true) (h_mot : pt.mot = true) (h_drv : pt.drv = true) (h_bid : pt.bid = true) (h_doorF : pt.doorF = true) (h_doorR : pt.doorR = true) (h_el : pt.el = true) (h_can : pt.can = true) (h_part : pt.part = true) (h_rcd : pt.rcd = true) (h_sys : pt.sys = true) {s₀ s : State} (h : Only pt s₀ s) (ua : Nat) (heldUs : Nat) : Only pt s₀ (State.bandInto s ua heldUs) := by
  unfold State.bandInto
  try dsimp only
  repeat' first | (with_reducible first | assumption | apply State.bandRaw_only h_rf h_irqNow h_pos h_lwb h_mot h_drv h_doorF h_doorR h_el h_can h_part h_rcd | apply State.raise_only h_rf h_irqNow | apply State.bandD_only h_rf h_irqNow h_pos h_lwb h_mot h_drv h_doorF h_doorR h_el h_can h_part h_rcd | apply State.bandS_only h_rf h_irqNow h_pos h_lwb h_mot h_drv h_doorF h_doorR h_el h_can h_part h_rcd | apply State.parkEnd_only h_rf h_irqNow h_bid h_can h_sys | apply each_only | apply foldl_only) | intro _ _ _ | split | (refine Only.upd ?_ (.inr rfl) (.inr rfl) (.inr rfl) (.inl h_rf) (.inl h_irqNow) (.inl h_pos) (.inl h_lwb) (.inl h_mot) (.inl h_drv) (.inr rfl) (.inl h_bid) (.inl h_doorF) (.inl h_doorR) (.inl h_el) (.inr rfl) (.inl h_can) (.inr rfl) (.inr rfl) (.inr rfl) (.inl h_part) (.inl h_rcd) (.inr rfl) (.inr rfl) (.inr rfl) (.inl h_sys) (.inr rfl); try dsimp only)

theorem State.presentNow_only {pt : Parts} (h_rf : pt.rf = true) (h_irqNow : pt.irqNow = true) (h_part : pt.part = true) (h_rcd : pt.rcd = true) {s₀ s : State} (h : Only pt s₀ s) : Only pt s₀ (State.presentNow s) := by
  unfold State.presentNow
  try dsimp only
  repeat' first | (with_reducible first | assumption | apply State.standbyNow_only h_rf h_irqNow h_part h_rcd | apply State.isolateNow_only h_rf h_irqNow h_part h_rcd | apply each_only | apply foldl_only) | intro _ _ _ | split | (refine Only.upd ?_ (.inr rfl) (.inr rfl) (.inr rfl) (.inl h_rf) (.inl h_irqNow) (.inr rfl) (.inr rfl) (.inr rfl) (.inr rfl) (.inr rfl) (.inr rfl) (.inr rfl) (.inr rfl) (.inr rfl) (.inr rfl) (.inr rfl) (.inr rfl) (.inr rfl) (.inr rfl) (.inl h_part) (.inl h_rcd) (.inr rfl) (.inr rfl) (.inr rfl) (.inr rfl) (.inr rfl); try dsimp only)

theorem State.presentLost_only {pt : Parts} (h_rf : pt.rf = true) (h_irqNow : pt.irqNow = true) (h_drv : pt.drv = true) (h_doorF : pt.doorF = true) (h_doorR : pt.doorR = true) (h_el : pt.el = true) (h_can : pt.can = true) (h_part : pt.part = true) (h_rcd : pt.rcd = true) (h_key : pt.key = true) (h_sys : pt.sys = true) {s₀ s : State} (h : Only pt s₀ s) : Only pt s₀ (State.presentLost s) := by
  unfold State.presentLost
  try dsimp only
  repeat' first | (with_reducible first | assumption | apply State.loseAuthority_only h_rf h_irqNow h_drv h_doorF h_doorR h_el h_can h_part | apply State.show_only h_part | apply State.setRole_only h_rf h_irqNow h_part h_rcd | apply State.warnNow_only h_rf h_irqNow h_doorF h_doorR h_rcd h_key h_sys | apply each_only | apply foldl_only) | intro _ _ _ | split | (refine Only.upd ?_ (.inr rfl) (.inr rfl) (.inr rfl) (.inl h_rf) (.inl h_irqNow) (.inr rfl) (.inr rfl) (.inr rfl) (.inl h_drv) (.inr rfl) (.inr rfl) (.inl h_doorF) (.inl h_doorR) (.inl h_el) (.inr rfl) (.inl h_can) (.inr rfl) (.inr rfl) (.inr rfl) (.inl h_part) (.inl h_rcd) (.inl h_key) (.inr rfl) (.inr rfl) (.inl h_sys) (.inr rfl); try dsimp only)

theorem State.claimNow_only {pt : Parts} (h_part : pt.part = true) {s₀ s : State} (h : Only pt s₀ s) : Only pt s₀ (State.claimNow s) := by
  unfold State.claimNow
  try dsimp only
  repeat' first | (with_reducible first | assumption | apply State.show_only h_part | apply each_only | apply foldl_only) | intro _ _ _ | split | (refine Only.upd ?_ (.inr rfl) (.inr rfl) (.inr rfl) (.inr rfl) (.inr rfl) (.inr rfl) (.inr rfl) (.inr rfl) (.inr rfl) (.inr rfl) (.inr rfl) (.inr rfl) (.inr rfl) (.inr rfl) (.inr rfl) (.inr rfl) (.inr rfl) (.inr rfl) (.inr rfl) (.inl h_part) (.inr rfl) (.inr rfl) (.inr rfl) (.inr rfl) (.inr rfl) (.inr rfl); try dsimp only)

theorem State.takeMot_only {pt : Parts} (h_rf : pt.rf = true) (h_irqNow : pt.irqNow = true) (h_mot : pt.mot = true) {s₀ s : State} (h : Only pt s₀ s) : Only pt s₀ (State.takeMot s) := by
  unfold State.takeMot
  try dsimp only
  repeat' first | (with_reducible first | assumption | apply State.motIdleNow_only h_mot | apply State.spFollow_only h_mot | apply State.motLanded_only h_mot | apply State.raise_only h_rf h_irqNow | apply State.wn_only h_rf | apply each_only | apply foldl_only) | intro _ _ _ | split | (refine Only.upd ?_ (.inr rfl) (.inr rfl) (.inr rfl) (.inl h_rf) (.inl h_irqNow) (.inr rfl) (.inr rfl) (.inl h_mot) (.inr rfl) (.inr rfl) (.inr rfl) (.inr rfl) (.inr rfl) (.inr rfl) (.inr rfl) (.inr rfl) (.inr rfl) (.inr rfl) (.inr rfl) (.inr rfl) (.inr rfl) (.inr rfl) (.inr rfl) (.inr rfl) (.inr rfl) (.inr rfl); try dsimp only)

theorem State.takeDoor_only {pt : Parts} (h_rf : pt.rf = true) (h_irqNow : pt.irqNow = true) (h_doorF : pt.doorF = true) (h_doorR : pt.doorR = true) {s₀ s : State} (h : Only pt s₀ s) (c : Chan) : Only pt s₀ (State.takeDoor s c) := by
  unfold State.takeDoor
  try dsimp only
  repeat' first | (with_reducible first | assumption | apply State.setDoor_only h_doorF h_doorR | apply State.doorInto_only h_rf h_irqNow h_doorF h_doorR | apply State.doorLosePos_only h_rf h_irqNow h_doorF h_doorR | apply each_only | apply foldl_only) | intro _ _ _ | split | (refine Only.upd ?_ (.inr rfl) (.inr rfl) (.inr rfl) (.inl h_rf) (.inl h_irqNow) (.inr rfl) (.inr rfl) (.inr rfl) (.inr rfl) (.inr rfl) (.inr rfl) (.inl h_doorF) (.inl h_doorR) (.inr rfl) (.inr rfl) (.inr rfl) (.inr rfl) (.inr rfl) (.inr rfl) (.inr rfl) (.inr rfl) (.inr rfl) (.inr rfl) (.inr rfl) (.inr rfl) (.inr rfl); try dsimp only)

theorem State.takeUp_only {pt : Parts} (h_rf : pt.rf = true) (h_irqNow : pt.irqNow = true) (h_mot : pt.mot = true) (h_drv : pt.drv = true) (h_sch : pt.sch = true) (h_bid : pt.bid = true) (h_doorF : pt.doorF = true) (h_doorR : pt.doorR = true) (h_el : pt.el = true) (h_can : pt.can = true) (h_fiog : pt.fiog = true) {s₀ s : State} (h : Only pt s₀ s) : Only pt s₀ (State.takeUp s) := by
  unfold State.takeUp
  try dsimp only
  repeat' first | (with_reducible first | assumption | apply State.takeMot_only h_rf h_irqNow h_mot | apply State.drvOff_only h_rf h_irqNow h_drv h_el | apply State.gainOutputs_only h_fiog | apply State.takeDoor_only h_rf h_irqNow h_doorF h_doorR | apply State.schReached_only h_rf h_irqNow h_sch h_doorF h_doorR | apply State.bidJoin_only h_rf h_irqNow h_sch h_bid h_doorF h_doorR h_can | apply each_only | apply foldl_only) | intro _ _ _ | split | (refine Only.upd ?_ (.inr rfl) (.inr rfl) (.inr rfl) (.inl h_rf) (.inl h_irqNow) (.inr rfl) (.inr rfl) (.inl h_mot) (.inl h_drv) (.inl h_sch) (.inl h_bid) (.inl h_doorF) (.inl h_doorR) (.inl h_el) (.inr rfl) (.inl h_can) (.inl h_fiog) (.inr rfl) (.inr rfl) (.inr rfl) (.inr rfl) (.inr rfl) (.inr rfl) (.inr rfl) (.inr rfl) (.inr rfl); try dsimp only)

theorem State.claimDone_only {pt : Parts} (h_rf : pt.rf = true) (h_irqNow : pt.irqNow = true) (h_mot : pt.mot = true) (h_drv : pt.drv = true) (h_sch : pt.sch = true) (h_bid : pt.bid = true) (h_doorF : pt.doorF = true) (h_doorR : pt.doorR = true) (h_el : pt.el = true) (h_can : pt.can = true) (h_fiog : pt.fiog = true) (h_part : pt.part = true) (h_rcd : pt.rcd = true) {s₀ s : State} (h : Only pt s₀ s) : Only pt s₀ (State.claimDone s) := by
  unfold State.claimDone
  try dsimp only
  repeat' first | (with_reducible first | assumption | apply State.setRole_only h_rf h_irqNow h_part h_rcd | apply State.bump_only h_rf | apply State.takeUp_only h_rf h_irqNow h_mot h_drv h_sch h_bid h_doorF h_doorR h_el h_can h_fiog | apply each_only | apply foldl_only) | intro _ _ _ | split | (refine Only.upd ?_ (.inr rfl) (.inr rfl) (.inr rfl) (.inl h_rf) (.inl h_irqNow) (.inr rfl) (.inr rfl) (.inl h_mot) (.inl h_drv) (.inl h_sch) (.inl h_bid) (.inl h_doorF) (.inl h_doorR) (.inl h_el) (.inr rfl) (.inl h_can) (.inl h_fiog) (.inr rfl) (.inr rfl) (.inl h_part) (.inl h_rcd) (.inr rfl) (.inr rfl) (.inr rfl) (.inr rfl) (.inr rfl); try dsimp only)

theorem State.isolatedEnd_only {pt : Parts} (h_rf : pt.rf = true) (h_irqNow : pt.irqNow = true) (h_part : pt.part = true) (h_rcd : pt.rcd = true) {s₀ s : State} (h : Only pt s₀ s) : Only pt s₀ (State.isolatedEnd s) := by
  unfold State.isolatedEnd
  try dsimp only
  repeat' first | (with_reducible first | assumption | apply State.standbyNow_only h_rf h_irqNow h_part h_rcd | apply each_only | apply foldl_only) | intro _ _ _ | split | (refine Only.upd ?_ (.inr rfl) (.inr rfl) (.inr rfl) (.inl h_rf) (.inl h_irqNow) (.inr rfl) (.inr rfl) (.inr rfl) (.inr rfl) (.inr rfl) (.inr rfl) (.inr rfl) (.inr rfl) (.inr rfl) (.inr rfl) (.inr rfl) (.inr rfl) (.inr rfl) (.inr rfl) (.inl h_part) (.inl h_rcd) (.inr rfl) (.inr rfl) (.inr rfl) (.inr rfl) (.inr rfl); try dsimp only)

theorem State.echoOpen_only {pt : Parts} (h_part : pt.part = true) {s₀ s : State} (h : Only pt s₀ s) : Only pt s₀ (State.echoOpen s) := by
  unfold State.echoOpen
  try dsimp only
  repeat' first | (with_reducible first | assumption  | apply each_only | apply foldl_only) | intro _ _ _ | split | (refine Only.upd ?_ (.inr rfl) (.inr rfl) (.inr rfl) (.inr rfl) (.inr rfl) (.inr rfl) (.inr rfl) (.inr rfl) (.inr rfl) (.inr rfl) (.inr rfl) (.inr rfl) (.inr rfl) (.inr rfl) (.inr rfl) (.inr rfl) (.inr rfl) (.inr rfl) (.inr rfl) (.inl h_part) (.inr rfl) (.inr rfl) (.inr rfl) (.inr rfl) (.inr rfl) (.inr rfl); try dsimp only)

theorem State.echoClose_only {pt : Parts} (h_part : pt.part = true) {s₀ s : State} (h : Only pt s₀ s) : Only pt s₀ (State.echoClose s) := by
  unfold State.echoClose
  try dsimp only
  repeat' first | (with_reducible first | assumption | apply State.show_only h_part | apply each_only | apply foldl_only) | intro _ _ _ | split | (refine Only.upd ?_ (.inr rfl) (.inr rfl) (.inr rfl) (.inr rfl) (.inr rfl) (.inr rfl) (.inr rfl) (.inr rfl) (.inr rfl) (.inr rfl) (.inr rfl) (.inr rfl) (.inr rfl) (.inr rfl) (.inr rfl) (.inr rfl) (.inr rfl) (.inr rfl) (.inr rfl) (.inl h_part) (.inr rfl) (.inr rfl) (.inr rfl) (.inr rfl) (.inr rfl) (.inr rfl); try dsimp only)

theorem State.echoEnd_only {pt : Parts} (h_part : pt.part = true) {s₀ s : State} (h : Only pt s₀ s) : Only pt s₀ (State.echoEnd s) := by
  unfold State.echoEnd
  try dsimp only
  repeat' first | (with_reducible first | assumption | apply State.show_only h_part | apply each_only | apply foldl_only) | intro _ _ _ | split | (refine Only.upd ?_ (.inr rfl) (.inr rfl) (.inr rfl) (.inr rfl) (.inr rfl) (.inr rfl) (.inr rfl) (.inr rfl) (.inr rfl) (.inr rfl) (.inr rfl) (.inr rfl) (.inr rfl) (.inr rfl) (.inr rfl) (.inr rfl) (.inr rfl) (.inr rfl) (.inr rfl) (.inl h_part) (.inr rfl) (.inr rfl) (.inr rfl) (.inr rfl) (.inr rfl) (.inr rfl); try dsimp only)

theorem State.setSync_only {pt : Parts} (h_rf : pt.rf = true) (h_irqNow : pt.irqNow = true) (h_part : pt.part = true) {s₀ s : State} (h : Only pt s₀ s) (y : Sync) : Only pt s₀ (State.setSync s y) := by
  unfold State.setSync
  try dsimp only
  repeat' first | (with_reducible first | assumption | apply State.raise_only h_rf h_irqNow | apply each_only | apply foldl_only) | intro _ _ _ | split | (refine Only.upd ?_ (.inr rfl) (.inr rfl) (.inr rfl) (.inl h_rf) (.inl h_irqNow) (.inr rfl) (.inr rfl) (.inr rfl) (.inr rfl) (.inr rfl) (.inr rfl) (.inr rfl) (.inr rfl) (.inr rfl) (.inr rfl) (.inr rfl) (.inr rfl) (.inr rfl) (.inr rfl) (.inl h_part) (.inr rfl) (.inr rfl) (.inr rfl) (.inr rfl) (.inr rfl) (.inr rfl); try dsimp only)

theorem State.resyncNow_only {pt : Parts} (h_part : pt.part = true) {s₀ s : State} (h : Only pt s₀ s) : Only pt s₀ (State.resyncNow s) := by
  unfold State.resyncNow
  try dsimp only
  repeat' first | (with_reducible first | assumption  | apply each_only | apply foldl_only) | intro _ _ _ | split | (refine Only.upd ?_ (.inr rfl) (.inr rfl) (.inr rfl) (.inr rfl) (.inr rfl) (.inr rfl) (.inr rfl) (.inr rfl) (.inr rfl) (.inr rfl) (.inr rfl) (.inr rfl) (.inr rfl) (.inr rfl) (.inr rfl) (.inr rfl) (.inr rfl) (.inr rfl) (.inr rfl) (.inl h_part) (.inr rfl) (.inr rfl) (.inr rfl) (.inr rfl) (.inr rfl) (.inr rfl); try dsimp only)

theorem State.takeCalls_only {pt : Parts} (h_sch : pt.sch = true) {s₀ s : State} (h : Only pt s₀ s) (c : MirrorCalls) : Only pt s₀ (State.takeCalls s c) := by
  unfold State.takeCalls
  try dsimp only
  repeat' first | (with_reducible first | assumption  | apply each_only | apply foldl_only) | intro _ _ _ | split | (refine Only.upd ?_ (.inr rfl) (.inr rfl) (.inr rfl) (.inr rfl) (.inr rfl) (.inr rfl) (.inr rfl) (.inr rfl) (.inr rfl) (.inl h_sch) (.inr rfl) (.inr rfl) (.inr rfl) (.inr rfl) (.inr rfl) (.inr rfl) (.inr rfl) (.inr rfl) (.inr rfl) (.inr rfl) (.inr rfl) (.inr rfl) (.inr rfl) (.inr rfl) (.inr rfl) (.inr rfl); try dsimp only)

theorem State.mirrorDoor_only {pt : Parts} (h_rf : pt.rf = true) (h_doorF : pt.doorF = true) (h_doorR : pt.doorR = true) {s₀ s : State} (h : Only pt s₀ s) (c : Chan) (m : MirrorDoor) : Only pt s₀ (State.mirrorDoor s c m) := by
  unfold State.mirrorDoor
  try dsimp only
  repeat' first | (with_reducible first | assumption | apply State.wn_only h_rf | apply State.wi_only h_rf | apply State.setDoor_only h_doorF h_doorR | apply each_only | apply foldl_only) | intro _ _ _ | split | (refine Only.upd ?_ (.inr rfl) (.inr rfl) (.inr rfl) (.inl h_rf) (.inr rfl) (.inr rfl) (.inr rfl) (.inr rfl) (.inr rfl) (.inr rfl) (.inr rfl) (.inl h_doorF) (.inl h_doorR) (.inr rfl) (.inr rfl) (.inr rfl) (.inr rfl) (.inr rfl) (.inr rfl) (.inr rfl) (.inr rfl) (.inr rfl) (.inr rfl) (.inr rfl) (.inr rfl) (.inr rfl); try dsimp only)

theorem State.takeDoors_only {pt : Parts} (h_rf : pt.rf = true) (h_doorF : pt.doorF = true) (h_doorR : pt.doorR = true) {s₀ s : State} (h : Only pt s₀ s) (ds : MirrorDoor × MirrorDoor) : Only pt s₀ (State.takeDoors s ds) := by
  unfold State.takeDoors
  try dsimp only
  repeat' first | (with_reducible first | assumption | apply State.mirrorDoor_only h_rf h_doorF h_doorR | apply each_only | apply foldl_only) | intro _ _ _ | split | dsimp only

theorem State.takePosn_only {pt : Parts} (h_rf : pt.rf = true) (h_irqNow : pt.irqNow = true) (h_pos : pt.pos = true) (h_mot : pt.mot = true) {s₀ s : State} (h : Only pt s₀ s) (m : MirrorPosn) : Only pt s₀ (State.takePosn s m) := by
  unfold State.takePosn
  try dsimp only
  repeat' first | (with_reducible first | assumption | apply State.rebase_only h_pos | apply State.setAbs_only h_rf h_irqNow h_pos h_mot | apply each_only | apply foldl_only) | intro _ _ _ | split | (refine Only.upd ?_ (.inr rfl) (.inr rfl) (.inr rfl) (.inl h_rf) (.inl h_irqNow) (.inl h_pos) (.inr rfl) (.inl h_mot) (.inr rfl) (.inr rfl) (.inr rfl) (.inr rfl) (.inr rfl) (.inr rfl) (.inr rfl) (.inr rfl) (.inr rfl) (.inr rfl) (.inr rfl) (.inr rfl) (.inr rfl) (.inr rfl) (.inr rfl) (.inr rfl) (.inr rfl) (.inr rfl); try dsimp only)

theorem State.takeConfig_only {pt : Parts} (h_part : pt.part = true) {s₀ s : State} (h : Only pt s₀ s) (c : List Byte × BitVec 2) : Only pt s₀ (State.takeConfig s c) := by
  unfold State.takeConfig
  try dsimp only
  repeat' first | (with_reducible first | assumption  | apply each_only | apply foldl_only) | intro _ _ _ | split | (refine Only.upd ?_ (.inr rfl) (.inr rfl) (.inr rfl) (.inr rfl) (.inr rfl) (.inr rfl) (.inr rfl) (.inr rfl) (.inr rfl) (.inr rfl) (.inr rfl) (.inr rfl) (.inr rfl) (.inr rfl) (.inr rfl) (.inr rfl) (.inr rfl) (.inr rfl) (.inr rfl) (.inl h_part) (.inr rfl) (.inr rfl) (.inr rfl) (.inr rfl) (.inr rfl) (.inr rfl); try dsimp only)

theorem State.takeCounters_only {pt : Parts} (h_rcd : pt.rcd = true) {s₀ s : State} (h : Only pt s₀ s) (c : Nat × Nat × Nat) : Only pt s₀ (State.takeCounters s c) := by
  unfold State.takeCounters
  try dsimp only
  repeat' first | (with_reducible first | assumption  | apply each_only | apply foldl_only) | intro _ _ _ | split | (refine Only.upd ?_ (.inr rfl) (.inr rfl) (.inr rfl) (.inr rfl) (.inr rfl) (.inr rfl) (.inr rfl) (.inr rfl) (.inr rfl) (.inr rfl) (.inr rfl) (.inr rfl) (.inr rfl) (.inr rfl) (.inr rfl) (.inr rfl) (.inr rfl) (.inr rfl) (.inr rfl) (.inr rfl) (.inl h_rcd) (.inr rfl) (.inr rfl) (.inr rfl) (.inr rfl) (.inr rfl); try dsimp only)

theorem State.takeMirror_only {pt : Parts} (h_rf : pt.rf = true) (h_sch : pt.sch = true) (h_doorF : pt.doorF = true) (h_doorR : pt.doorR = true) (h_part : pt.part = true) {s₀ s : State} (h : Only pt s₀ s) (m : Mirror) : Only pt s₀ (State.takeMirror s m) := by
  unfold State.takeMirror
  try dsimp only
  repeat' first | (with_reducible first | assumption | apply State.takeCalls_only h_sch | apply State.takeDoors_only h_rf h_doorF h_doorR | apply each_only | apply foldl_only) | intro _ _ _ | split | (refine Only.upd ?_ (.inr rfl) (.inr rfl) (.inr rfl) (.inl h_rf) (.inr rfl) (.inr rfl) (.inr rfl) (.inr rfl) (.inr rfl) (.inl h_sch) (.inr rfl) (.inl h_doorF) (.inl h_doorR) (.inr rfl) (.inr rfl) (.inr rfl) (.inr rfl) (.inr rfl) (.inr rfl) (.inl h_part) (.inr rfl) (.inr rfl) (.inr rfl) (.inr rfl) (.inr rfl) (.inr rfl); try dsimp only)

theorem State.epochApply_only {pt : Parts} (h_rf : pt.rf = true) (h_irqNow : pt.irqNow = true) (h_pos : pt.pos = true) (h_mot : pt.mot = true) (h_sch : pt.sch = true) (h_doorF : pt.doorF = true) (h_doorR : pt.doorR = true) (h_part : pt.part = true) (h_rcd : pt.rcd = true) {s₀ s : State} (h : Only pt s₀ s) : Only pt s₀ (State.epochApply s) := by
  unfold State.epochApply
  try dsimp only
  repeat' first | (with_reducible first | assumption | apply State.takePosn_only h_rf h_irqNow h_pos h_mot | apply State.takeCounters_only h_rcd | apply State.takeConfig_only h_part | apply State.takeMirror_only h_rf h_sch h_doorF h_doorR h_part | apply State.setSync_only h_rf h_irqNow h_part | apply each_only | apply foldl_only) | intro _ _ _ | split | (refine Only.upd ?_ (.inr rfl) (.inr rfl) (.inr rfl) (.inl h_rf) (.inl h_irqNow) (.inl h_pos) (.inr rfl) (.inl h_mot) (.inr rfl) (.inl h_sch) (.inr rfl) (.inl h_doorF) (.inl h_doorR) (.inr rfl) (.inr rfl) (.inr rfl) (.inr rfl) (.inr rfl) (.inr rfl) (.inl h_part) (.inl h_rcd) (.inr rfl) (.inr rfl) (.inr rfl) (.inr rfl) (.inr rfl); try dsimp only)

theorem State.epochDiscard_only {pt : Parts} (h_rf : pt.rf = true) (h_irqNow : pt.irqNow = true) (h_part : pt.part = true) {s₀ s : State} (h : Only pt s₀ s) : Only pt s₀ (State.epochDiscard s) := by
  unfold State.epochDiscard
  try dsimp only
  repeat' first | (with_reducible first | assumption | apply State.bump_only h_rf | apply State.raise_only h_rf h_irqNow | apply State.setSync_only h_rf h_irqNow h_part | apply State.resyncNow_only h_part | apply each_only | apply foldl_only) | intro _ _ _ | split | dsimp only

theorem State.epochRx_only {pt : Parts} (h_rf : pt.rf = true) (h_irqNow : pt.irqNow = true) (h_pos : pt.pos = true) (h_mot : pt.mot = true) (h_sch : pt.sch = true) (h_doorF : pt.doorF = true) (h_doorR : pt.doorR = true) (h_part : pt.part = true) (h_rcd : pt.rcd = true) {s₀ s0 : State} (h : Only pt s₀ s0) (e : Epoch) : Only pt s₀ (State.epochRx s0 e) := by
  unfold State.epochRx
  try dsimp only
  repeat' first | (with_reducible first | assumption | apply State.takeConfig_only h_part | apply State.epochApply_only h_rf h_irqNow h_pos h_mot h_sch h_doorF h_doorR h_part h_rcd | apply State.epochDiscard_only h_rf h_irqNow h_part | apply each_only | apply foldl_only) | intro _ _ _ | split | (refine Only.upd ?_ (.inr rfl) (.inr rfl) (.inr rfl) (.inl h_rf) (.inl h_irqNow) (.inl h_pos) (.inr rfl) (.inl h_mot) (.inr rfl) (.inl h_sch) (.inr rfl) (.inl h_doorF) (.inl h_doorR) (.inr rfl) (.inr rfl) (.inr rfl) (.inr rfl) (.inr rfl) (.inr rfl) (.inl h_part) (.inl h_rcd) (.inr rfl) (.inr rfl) (.inr rfl) (.inr rfl) (.inr rfl); try dsimp only)

theorem State.epochAged_only {pt : Parts} (h_rf : pt.rf = true) (h_irqNow : pt.irqNow = true) (h_part : pt.part = true) {s₀ s : State} (h : Only pt s₀ s) : Only pt s₀ (State.epochAged s) := by
  unfold State.epochAged
  try dsimp only
  repeat' first | (with_reducible first | assumption | apply State.setSync_only h_rf h_irqNow h_part | apply each_only | apply foldl_only) | intro _ _ _ | split | dsimp only

theorem State.linkLost_only {pt : Parts} (h_rf : pt.rf = true) (h_irqNow : pt.irqNow = true) (h_sch : pt.sch = true) (h_part : pt.part = true) {s₀ s : State} (h : Only pt s₀ s) : Only pt s₀ (State.linkLost s) := by
  unfold State.linkLost
  try dsimp only
  repeat' first | (with_reducible first | assumption | apply State.setSync_only h_rf h_irqNow h_part | apply each_only | apply foldl_only) | intro _ _ _ | split | (refine Only.upd ?_ (.inr rfl) (.inr rfl) (.inr rfl) (.inl h_rf) (.inl h_irqNow) (.inr rfl) (.inr rfl) (.inr rfl) (.inr rfl) (.inl h_sch) (.inr rfl) (.inr rfl) (.inr rfl) (.inr rfl) (.inr rfl) (.inr rfl) (.inr rfl) (.inr rfl) (.inr rfl) (.inl h_part) (.inr rfl) (.inr rfl) (.inr rfl) (.inr rfl) (.inr rfl) (.inr rfl); try dsimp only)

theorem State.linkBack_only {pt : Parts} (h_part : pt.part = true) {s₀ s : State} (h : Only pt s₀ s) : Only pt s₀ (State.linkBack s) := by
  unfold State.linkBack
  try dsimp only
  repeat' first | (with_reducible first | assumption | apply State.resyncNow_only h_part | apply each_only | apply foldl_only) | intro _ _ _ | split | (refine Only.upd ?_ (.inr rfl) (.inr rfl) (.inr rfl) (.inr rfl) (.inr rfl) (.inr rfl) (.inr rfl) (.inr rfl) (.inr rfl) (.inr rfl) (.inr rfl) (.inr rfl) (.inr rfl) (.inr rfl) (.inr rfl) (.inr rfl) (.inr rfl) (.inr rfl) (.inr rfl) (.inl h_part) (.inr rfl) (.inr rfl) (.inr rfl) (.inr rfl) (.inr rfl) (.inr rfl); try dsimp only)

theorem State.resyncDone_only {pt : Parts} (h_rf : pt.rf = true) (h_irqNow : pt.irqNow = true) (h_sch : pt.sch = true) (h_doorF : pt.doorF = true) (h_doorR : pt.doorR = true) (h_part : pt.part = true) {s₀ s : State} (h : Only pt s₀ s) : Only pt s₀ (State.resyncDone s) := by
  unfold State.resyncDone
  try dsimp only
  repeat' first | (with_reducible first | assumption | apply State.takeMirror_only h_rf h_sch h_doorF h_doorR h_part | apply State.setSync_only h_rf h_irqNow h_part | apply each_only | apply foldl_only) | intro _ _ _ | split | (refine Only.upd ?_ (.inr rfl) (.inr rfl) (.inr rfl) (.inl h_rf) (.inl h_irqNow) (.inr rfl) (.inr rfl) (.inr rfl) (.inr rfl) (.inl h_sch) (.inr rfl) (.inl h_doorF) (.inl h_doorR) (.inr rfl) (.inr rfl) (.inr rfl) (.inr rfl) (.inr rfl) (.inr rfl) (.inl h_part) (.inr rfl) (.inr rfl) (.inr rfl) (.inr rfl) (.inr rfl) (.inr rfl); try dsimp only)

theorem State.mirrorSend_only {pt : Parts} (h_part : pt.part = true) {s₀ s : State} (h : Only pt s₀ s) : Only pt s₀ (State.mirrorSend s) := by
  unfold State.mirrorSend
  try dsimp only
  repeat' first | (with_reducible first | assumption  | apply each_only | apply foldl_only) | intro _ _ _ | split | (refine Only.upd ?_ (.inr rfl) (.inr rfl) (.inr rfl) (.inr rfl) (.inr rfl) (.inr rfl) (.inr rfl) (.inr rfl) (.inr rfl) (.inr rfl) (.inr rfl) (.inr rfl) (.inr rfl) (.inr rfl) (.inr rfl) (.inr rfl) (.inr rfl) (.inr rfl) (.inr rfl) (.inl h_part) (.inr rfl) (.inr rfl) (.inr rfl) (.inr rfl) (.inr rfl) (.inr rfl); try dsimp only)

theorem State.xchNow_only {pt : Parts} (h_rf : pt.rf = true) (h_irqNow : pt.irqNow = true) (h_drv : pt.drv = true) (h_doorF : pt.doorF = true) (h_doorR : pt.doorR = true) (h_el : pt.el = true) (h_can : pt.can = true) (h_part : pt.part = true) (h_rcd : pt.rcd = true) {s₀ s : State} (h : Only pt s₀ s) : Only pt s₀ (State.xchNow s) := by
  unfold State.xchNow
  try dsimp only
  repeat' first | (with_reducible first | assumption | apply State.mirrorSend_only h_part | apply State.loseAuthority_only h_rf h_irqNow h_drv h_doorF h_doorR h_el h_can h_part | apply State.standbyNow_only h_rf h_irqNow h_part h_rcd | apply each_only | apply foldl_only) | intro _ _ _ | split | (refine Only.upd ?_ (.inr rfl) (.inr rfl) (.inr rfl) (.inl h_rf) (.inl h_irqNow) (.inr rfl) (.inr rfl) (.inr rfl) (.inl h_drv) (.inr rfl) (.inr rfl) (.inl h_doorF) (.inl h_doorR) (.inl h_el) (.inr rfl) (.inl h_can) (.inr rfl) (.inr rfl) (.inr rfl) (.inl h_part) (.inl h_rcd) (.inr rfl) (.inr rfl) (.inr rfl) (.inr rfl) (.inr rfl); try dsimp only)

theorem State.xchHoldEnd_only {pt : Parts} (h_rf : pt.rf = true) (h_irqNow : pt.irqNow = true) (h_part : pt.part = true) (h_rcd : pt.rcd = true) {s₀ s : State} (h : Only pt s₀ s) : Only pt s₀ (State.xchHoldEnd s) := by
  unfold State.xchHoldEnd
  try dsimp only
  repeat' first | (with_reducible first | assumption | apply State.raise_only h_rf h_irqNow | apply State.fire_only h_rf h_irqNow h_rcd | apply each_only | apply foldl_only) | intro _ _ _ | split | (refine Only.upd ?_ (.inr rfl) (.inr rfl) (.inr rfl) (.inl h_rf) (.inl h_irqNow) (.inr rfl) (.inr rfl) (.inr rfl) (.inr rfl) (.inr rfl) (.inr rfl) (.inr rfl) (.inr rfl) (.inr rfl) (.inr rfl) (.inr rfl) (.inr rfl) (.inr rfl) (.inr rfl) (.inl h_part) (.inl h_rcd) (.inr rfl) (.inr rfl) (.inr rfl) (.inr rfl) (.inr rfl); try dsimp only)

theorem State.xchWatch_only {pt : Parts} (h_rf : pt.rf = true) (h_irqNow : pt.irqNow = true) {s₀ s : State} (h : Only pt s₀ s) : Only pt s₀ (State.xchWatch s) := by
  unfold State.xchWatch
  try dsimp only
  repeat' first | (with_reducible first | assumption | apply State.bump_only h_rf | apply State.raise_only h_rf h_irqNow | apply each_only | apply foldl_only) | intro _ _ _ | split | (refine Only.upd ?_ (.inr rfl) (.inr rfl) (.inr rfl) (.inl h_rf) (.inl h_irqNow) (.inr rfl) (.inr rfl) (.inr rfl) (.inr rfl) (.inr rfl) (.inr rfl) (.inr rfl) (.inr rfl) (.inr rfl) (.inr rfl) (.inr rfl) (.inr rfl) (.inr rfl) (.inr rfl) (.inr rfl) (.inr rfl) (.inr rfl) (.inr rfl) (.inr rfl) (.inr rfl) (.inr rfl); try dsimp only)

theorem State.claimWatch_only {pt : Parts} (h_rf : pt.rf = true) (h_irqNow : pt.irqNow = true) (h_part : pt.part = true) {s₀ s : State} (h : Only pt s₀ s) : Only pt s₀ (State.claimWatch s) := by
  unfold State.claimWatch
  try dsimp only
  repeat' first | (with_reducible first | assumption | apply State.raise_only h_rf h_irqNow | apply each_only | apply foldl_only) | intro _ _ _ | split | (refine Only.upd ?_ (.inr rfl) (.inr rfl) (.inr rfl) (.inl h_rf) (.inl h_irqNow) (.inr rfl) (.inr rfl) (.inr rfl) (.inr rfl) (.inr rfl) (.inr rfl) (.inr rfl) (.inr rfl) (.inr rfl) (.inr rfl) (.inr rfl) (.inr rfl) (.inr rfl) (.inr rfl) (.inl h_part) (.inr rfl) (.inr rfl) (.inr rfl) (.inr rfl) (.inr rfl) (.inr rfl); try dsimp only)

theorem State.handOverWatch_only {pt : Parts} (h_rf : pt.rf = true) (h_irqNow : pt.irqNow = true) (h_drv : pt.drv = true) (h_doorF : pt.doorF = true) (h_doorR : pt.doorR = true) (h_el : pt.el = true) (h_can : pt.can = true) (h_part : pt.part = true) (h_rcd : pt.rcd = true) {s₀ s : State} (h : Only pt s₀ s) : Only pt s₀ (State.handOverWatch s) := by
  unfold State.handOverWatch
  try dsimp only
  repeat' first | (with_reducible first | assumption | apply State.handover_only h_rf h_irqNow h_drv h_doorF h_doorR h_el h_can h_part h_rcd | apply each_only | apply foldl_only) | intro _ _ _ | split | (refine Only.upd ?_ (.inr rfl) (.inr rfl) (.inr rfl) (.inl h_rf) (.inl h_irqNow) (.inr rfl) (.inr rfl) (.inr rfl) (.inl h_drv) (.inr rfl) (.inr rfl) (.inl h_doorF) (.inl h_doorR) (.inl h_el) (.inr rfl) (.inl h_can) (.inr rfl) (.inr rfl) (.inr rfl) (.inl h_part) (.inl h_rcd) (.inr rfl) (.inr rfl) (.inr rfl) (.inr rfl) (.inr rfl); try dsimp only)

theorem State.bidYieldRole_only {pt : Parts} (h_rf : pt.rf = true) (h_irqNow : pt.irqNow = true) (h_bid : pt.bid = true) (h_can : pt.can = true) {s₀ s : State} (h : Only pt s₀ s) : Only pt s₀ (State.bidYieldRole s) := by
  unfold State.bidYieldRole
  try dsimp only
  repeat' first | (with_reducible first | assumption | apply State.bidSilent_only h_rf h_irqNow h_bid h_can | apply State.bidListen_only h_rf h_irqNow h_bid | apply each_only | apply foldl_only) | intro _ _ _ | split | dsimp only

theorem State.partTick_only {pt : Parts} (h_rf : pt.rf = true) (h_irqNow : pt.irqNow = true) (h_drv : pt.drv = true) (h_bid : pt.bid = true) (h_doorF : pt.doorF = true) (h_doorR : pt.doorR = true) (h_el : pt.el = true) (h_can : pt.can = true) (h_part : pt.part = true) (h_rcd : pt.rcd = true) {s₀ s : State} (h : Only pt s₀ s) : Only pt s₀ (State.partTick s) := by
  unfold State.partTick
  try dsimp only
  repeat' first | (with_reducible first | assumption | apply State.claimWatch_only h_rf h_irqNow h_part | apply State.echoClose_only h_part | apply State.xchWatch_only h_rf h_irqNow | apply State.handOverWatch_only h_rf h_irqNow h_drv h_doorF h_doorR h_el h_can h_part h_rcd | apply State.bidYieldRole_only h_rf h_irqNow h_bid h_can | apply State.mirrorSend_only h_part | apply each_only | apply foldl_only) | intro _ _ _ | split | (refine Only.upd ?_ (.inr rfl) (.inr rfl) (.inr rfl) (.inl h_rf) (.inl h_irqNow) (.inr rfl) (.inr rfl) (.inr rfl) (.inl h_drv) (.inr rfl) (.inl h_bid) (.inl h_doorF) (.inl h_doorR) (.inl h_el) (.inr rfl) (.inl h_can) (.inr rfl) (.inr rfl) (.inr rfl) (.inl h_part) (.inl h_rcd) (.inr rfl) (.inr rfl) (.inr rfl) (.inr rfl) (.inr rfl); try dsimp only)

end Sys2Proof.Machine
end

