-- ==== Sys2Proof/Laws/OnlyJudge.lean ====
section
/-! SUPPORT. Which parts of the state the operations of Machine/Judge.lean leave the same. -/

set_option linter.unusedTactic false
set_option linter.unreachableTactic false

namespace Sys2Proof.Machine

theorem State.reject_only {pt : Parts} (h_rf : pt.rf = true) (h_irqNow : pt.irqNow = true) {s₀ s : State} (h : Only pt s₀ s) (src : Src) (a : Nat) (code : Nat) : Only pt s₀ (State.reject s src a code) := by
  unfold State.reject
  try dsimp only
  repeat' first | (with_reducible first | assumption | apply State.errNote_only h_rf h_irqNow | apply each_only | apply foldl_only) | intro _ _ _ | split | dsimp only

end Sys2Proof.Machine
end

