-- ==== Sys2Proof/Laws/OnlyProfOps.lean ====
section
/-! SUPPORT. Which parts of the state the operations of Machine/ProfOps.lean leave the same. -/

set_option linter.unusedTactic false
set_option linter.unreachableTactic false

namespace Sys2Proof.Machine

theorem State.profStoreNow_only {pt : Parts} (h_rf : pt.rf = true) (h_sys : pt.sys = true) {s₀ s : State} (h : Only pt s₀ s) (slot : Nat) : Only pt s₀ (State.profStoreNow s slot) := by
  unfold State.profStoreNow
  try dsimp only
  repeat' first | (with_reducible first | assumption | apply State.wr_only h_rf | apply each_only | apply foldl_only) | intro _ _ _ | split | (refine Only.upd ?_ (.inr rfl) (.inr rfl) (.inr rfl) (.inl h_rf) (.inr rfl) (.inr rfl) (.inr rfl) (.inr rfl) (.inr rfl) (.inr rfl) (.inr rfl) (.inr rfl) (.inr rfl) (.inr rfl) (.inr rfl) (.inr rfl) (.inr rfl) (.inr rfl) (.inr rfl) (.inr rfl) (.inr rfl) (.inr rfl) (.inr rfl) (.inr rfl) (.inl h_sys) (.inr rfl); try dsimp only)

theorem State.profStoreEnd_only {pt : Parts} (h_rf : pt.rf = true) (h_irqNow : pt.irqNow = true) (h_sys : pt.sys = true) {s₀ s : State} (h : Only pt s₀ s) (writeOk : Bool) : Only pt s₀ (State.profStoreEnd s writeOk) := by
  unfold State.profStoreEnd
  try dsimp only
  repeat' first | (with_reducible first | assumption | apply State.wr_only h_rf | apply State.raise_only h_rf h_irqNow | apply each_only | apply foldl_only) | intro _ _ _ | split | (refine Only.upd ?_ (.inr rfl) (.inr rfl) (.inr rfl) (.inl h_rf) (.inl h_irqNow) (.inr rfl) (.inr rfl) (.inr rfl) (.inr rfl) (.inr rfl) (.inr rfl) (.inr rfl) (.inr rfl) (.inr rfl) (.inr rfl) (.inr rfl) (.inr rfl) (.inr rfl) (.inr rfl) (.inr rfl) (.inr rfl) (.inr rfl) (.inr rfl) (.inr rfl) (.inl h_sys) (.inr rfl); try dsimp only)

end Sys2Proof.Machine
end

