-- ==== Sys2Proof/Laws/OnlyApply.lean ====
section
/-! SUPPORT. Which parts of the state the operations of Machine/Apply.lean leave the same. -/

set_option linter.unusedTactic false
set_option linter.unreachableTactic false

namespace Sys2Proof.Machine

theorem State.storeReg_only {pt : Parts} (h_rf : pt.rf = true) {s₀ s : State} (h : Only pt s₀ s) (a : Nat) (r : RegSpec) (val : Word) : Only pt s₀ (State.storeReg s a r val) := by
  unfold State.storeReg
  try dsimp only
  repeat' first | (with_reducible first | assumption | apply State.wr_only h_rf | apply each_only | apply foldl_only) | intro _ _ _ | split | dsimp only

theorem State.irqClear_only {pt : Parts} (h_rf : pt.rf = true) {s₀ s : State} (h : Only pt s₀ s) (pg : Nat) (val : Word) : Only pt s₀ (State.irqClear s pg val) := by
  unfold State.irqClear
  try dsimp only
  repeat' first | (with_reducible first | assumption | apply State.wr_only h_rf | apply each_only | apply foldl_only) | intro _ _ _ | split | dsimp only

theorem State.lockWrite_only {pt : Parts} (h_rf : pt.rf = true) {s₀ s : State} (h : Only pt s₀ s) (pg : Nat) (val : Word) : Only pt s₀ (State.lockWrite s pg val) := by
  unfold State.lockWrite
  try dsimp only
  repeat' first | (with_reducible first | assumption | apply State.wn_only h_rf | apply each_only | apply foldl_only) | intro _ _ _ | split | dsimp only

theorem State.biasCalStart_only {pt : Parts} (h_pos : pt.pos = true) {s₀ s : State} (h : Only pt s₀ s) : Only pt s₀ (State.biasCalStart s) := by
  unfold State.biasCalStart
  try dsimp only
  repeat' first | (with_reducible first | assumption  | apply each_only | apply foldl_only) | intro _ _ _ | split | (refine Only.upd ?_ (.inr rfl) (.inr rfl) (.inr rfl) (.inr rfl) (.inr rfl) (.inl h_pos) (.inr rfl) (.inr rfl) (.inr rfl) (.inr rfl) (.inr rfl) (.inr rfl) (.inr rfl) (.inr rfl) (.inr rfl) (.inr rfl) (.inr rfl) (.inr rfl) (.inr rfl) (.inr rfl) (.inr rfl) (.inr rfl) (.inr rfl) (.inr rfl) (.inr rfl) (.inr rfl); try dsimp only)

theorem State.clrTract_only {pt : Parts} (h_pos : pt.pos = true) {s₀ s : State} (h : Only pt s₀ s) : Only pt s₀ (State.clrTract s) := by
  unfold State.clrTract
  try dsimp only
  repeat' first | (with_reducible first | assumption  | apply each_only | apply foldl_only) | intro _ _ _ | split | (refine Only.upd ?_ (.inr rfl) (.inr rfl) (.inr rfl) (.inr rfl) (.inr rfl) (.inl h_pos) (.inr rfl) (.inr rfl) (.inr rfl) (.inr rfl) (.inr rfl) (.inr rfl) (.inr rfl) (.inr rfl) (.inr rfl) (.inr rfl) (.inr rfl) (.inr rfl) (.inr rfl) (.inr rfl) (.inr rfl) (.inr rfl) (.inr rfl) (.inr rfl) (.inr rfl) (.inr rfl); try dsimp only)

theorem State.kappaReset_only {pt : Parts} (h_pos : pt.pos = true) {s₀ s : State} (h : Only pt s₀ s) : Only pt s₀ (State.kappaReset s) := by
  unfold State.kappaReset
  try dsimp only
  repeat' first | (with_reducible first | assumption  | apply each_only | apply foldl_only) | intro _ _ _ | split | (refine Only.upd ?_ (.inr rfl) (.inr rfl) (.inr rfl) (.inr rfl) (.inr rfl) (.inl h_pos) (.inr rfl) (.inr rfl) (.inr rfl) (.inr rfl) (.inr rfl) (.inr rfl) (.inr rfl) (.inr rfl) (.inr rfl) (.inr rfl) (.inr rfl) (.inr rfl) (.inr rfl) (.inr rfl) (.inr rfl) (.inr rfl) (.inr rfl) (.inr rfl) (.inr rfl) (.inr rfl); try dsimp only)

theorem State.applyPos_only {pt : Parts} (h_rf : pt.rf = true) (h_irqNow : pt.irqNow = true) (h_pos : pt.pos = true) (h_el : pt.el = true) {s₀ s : State} (h : Only pt s₀ s) (o : Nat) (r : RegSpec) (val : Word) : Only pt s₀ (State.applyPos s o r val) := by
  unfold State.applyPos
  try dsimp only
  repeat' first | (with_reducible first | assumption | apply State.storeReg_only h_rf | apply State.posStop_only h_rf h_irqNow h_pos | apply State.posObserve_only h_pos | apply State.biasCalStart_only h_pos | apply State.srReacq_only h_rf h_pos h_el | apply State.clrTract_only h_pos | apply State.kappaReset_only h_pos | apply each_only | apply foldl_only) | intro _ _ _ | split | (refine Only.upd ?_ (.inr rfl) (.inr rfl) (.inr rfl) (.inl h_rf) (.inl h_irqNow) (.inl h_pos) (.inr rfl) (.inr rfl) (.inr rfl) (.inr rfl) (.inr rfl) (.inr rfl) (.inr rfl) (.inl h_el) (.inr rfl) (.inr rfl) (.inr rfl) (.inr rfl) (.inr rfl) (.inr rfl) (.inr rfl) (.inr rfl) (.inr rfl) (.inr rfl) (.inr rfl) (.inr rfl); try dsimp only)

theorem State.lwbCalStart_only {pt : Parts} (h_lwb : pt.lwb = true) {s₀ s : State} (h : Only pt s₀ s) (span : Bool) : Only pt s₀ (State.lwbCalStart s span) := by
  unfold State.lwbCalStart
  try dsimp only
  repeat' first | (with_reducible first | assumption  | apply each_only | apply foldl_only) | intro _ _ _ | split | (refine Only.upd ?_ (.inr rfl) (.inr rfl) (.inr rfl) (.inr rfl) (.inr rfl) (.inr rfl) (.inl h_lwb) (.inr rfl) (.inr rfl) (.inr rfl) (.inr rfl) (.inr rfl) (.inr rfl) (.inr rfl) (.inr rfl) (.inr rfl) (.inr rfl) (.inr rfl) (.inr rfl) (.inr rfl) (.inr rfl) (.inr rfl) (.inr rfl) (.inr rfl) (.inr rfl) (.inr rfl); try dsimp only)

theorem State.applyLwb_only {pt : Parts} (h_rf : pt.rf = true) (h_irqNow : pt.irqNow = true) (h_lwb : pt.lwb = true) {s₀ s : State} (h : Only pt s₀ s) (o : Nat) (r : RegSpec) (val : Word) : Only pt s₀ (State.applyLwb s o r val) := by
  unfold State.applyLwb
  try dsimp only
  repeat' first | (with_reducible first | assumption | apply State.storeReg_only h_rf | apply State.lwbEnable_only h_rf h_irqNow h_lwb | apply State.lwbCalStart_only h_lwb | apply each_only | apply foldl_only) | intro _ _ _ | split | (refine Only.upd ?_ (.inr rfl) (.inr rfl) (.inr rfl) (.inl h_rf) (.inl h_irqNow) (.inr rfl) (.inl h_lwb) (.inr rfl) (.inr rfl) (.inr rfl) (.inr rfl) (.inr rfl) (.inr rfl) (.inr rfl) (.inr rfl) (.inr rfl) (.inr rfl) (.inr rfl) (.inr rfl) (.inr rfl) (.inr rfl) (.inr rfl) (.inr rfl) (.inr rfl) (.inr rfl) (.inr rfl); try dsimp only)

theorem State.motCmd_only {pt : Parts} (h_rf : pt.rf = true) (h_irqNow : pt.irqNow = true) (h_mot : pt.mot = true) (h_drv : pt.drv = true) (h_sch : pt.sch = true) (h_doorF : pt.doorF = true) (h_doorR : pt.doorR = true) {s₀ s : State} (h : Only pt s₀ s) (val : Word) : Only pt s₀ (State.motCmd s val) := by
  unfold State.motCmd
  try dsimp only
  repeat' first | (with_reducible first | assumption | apply State.motStartNow_only h_mot h_drv h_sch | apply State.applyNow_only h_rf h_irqNow h_mot | apply State.resumeNow_only h_rf h_irqNow h_mot h_drv h_sch | apply State.schReached_only h_rf h_irqNow h_sch h_doorF h_doorR | apply each_only | apply foldl_only) | intro _ _ _ | split | (refine Only.upd ?_ (.inr rfl) (.inr rfl) (.inr rfl) (.inl h_rf) (.inl h_irqNow) (.inr rfl) (.inr rfl) (.inl h_mot) (.inl h_drv) (.inl h_sch) (.inr rfl) (.inl h_doorF) (.inl h_doorR) (.inr rfl) (.inr rfl) (.inr rfl) (.inr rfl) (.inr rfl) (.inr rfl) (.inr rfl) (.inr rfl) (.inr rfl) (.inr rfl) (.inr rfl) (.inr rfl) (.inr rfl); try dsimp only)

theorem State.rtCmd_only {pt : Parts} (h_rf : pt.rf = true) (h_irqNow : pt.irqNow = true) (h_pos : pt.pos = true) (h_mot : pt.mot = true) (h_drv : pt.drv = true) (h_sch : pt.sch = true) (h_doorF : pt.doorF = true) (h_doorR : pt.doorR = true) (h_el : pt.el = true) (h_rcd : pt.rcd = true) {s₀ s : State} (h : Only pt s₀ s) (val : Word) : Only pt s₀ (State.rtCmd s val) := by
  unfold State.rtCmd
  try dsimp only
  repeat' first | (with_reducible first | assumption | apply State.homeStart_only h_pos h_mot h_drv | apply State.recoverStart_only h_rf h_irqNow h_mot h_drv h_el | apply State.relevStart_only h_rf h_irqNow h_mot h_drv h_rcd | apply State.schRelevFail_only h_rf h_irqNow h_sch h_doorF h_doorR | apply State.abandonNow_only h_mot | apply each_only | apply foldl_only) | intro _ _ _ | split | dsimp only

theorem State.applyMot_only {pt : Parts} (h_rf : pt.rf = true) (h_irqNow : pt.irqNow = true) (h_pos : pt.pos = true) (h_mot : pt.mot = true) (h_drv : pt.drv = true) (h_sch : pt.sch = true) (h_doorF : pt.doorF = true) (h_doorR : pt.doorR = true) (h_el : pt.el = true) (h_rcd : pt.rcd = true) {s₀ s : State} (h : Only pt s₀ s) (o : Nat) (r : RegSpec) (val : Word) : Only pt s₀ (State.applyMot s o r val) := by
  unfold State.applyMot
  try dsimp only
  repeat' first | (with_reducible first | assumption | apply State.hostCommit_only h_rf h_irqNow h_mot | apply State.motCmd_only h_rf h_irqNow h_mot h_drv h_sch h_doorF h_doorR | apply State.rtCmd_only h_rf h_irqNow h_pos h_mot h_drv h_sch h_doorF h_doorR h_el h_rcd | apply State.storeReg_only h_rf | apply each_only | apply foldl_only) | intro _ _ _ | split | (refine Only.upd ?_ (.inr rfl) (.inr rfl) (.inr rfl) (.inl h_rf) (.inl h_irqNow) (.inl h_pos) (.inr rfl) (.inl h_mot) (.inl h_drv) (.inl h_sch) (.inr rfl) (.inl h_doorF) (.inl h_doorR) (.inl h_el) (.inr rfl) (.inr rfl) (.inr rfl) (.inr rfl) (.inr rfl) (.inr rfl) (.inl h_rcd) (.inr rfl) (.inr rfl) (.inr rfl) (.inr rfl) (.inr rfl); try dsimp only)

theorem State.drvCntClr_only {pt : Parts} (h_rf : pt.rf = true) {s₀ s : State} (h : Only pt s₀ s) : Only pt s₀ (State.drvCntClr s) := by
  unfold State.drvCntClr
  try dsimp only
  repeat' first | (with_reducible first | assumption | apply State.wr_only h_rf | apply each_only | apply foldl_only) | intro _ _ _ | split | dsimp only

theorem State.applyDrv_only {pt : Parts} (h_rf : pt.rf = true) (h_drv : pt.drv = true) {s₀ s : State} (h : Only pt s₀ s) (o : Nat) (r : RegSpec) (val : Word) : Only pt s₀ (State.applyDrv s o r val) := by
  unfold State.applyDrv
  try dsimp only
  repeat' first | (with_reducible first | assumption | apply State.faultReset_only h_drv | apply State.drvCntClr_only h_rf | apply State.storeReg_only h_rf | apply each_only | apply foldl_only) | intro _ _ _ | split | (refine Only.upd ?_ (.inr rfl) (.inr rfl) (.inr rfl) (.inl h_rf) (.inr rfl) (.inr rfl) (.inr rfl) (.inr rfl) (.inl h_drv) (.inr rfl) (.inr rfl) (.inr rfl) (.inr rfl) (.inr rfl) (.inr rfl) (.inr rfl) (.inr rfl) (.inr rfl) (.inr rfl) (.inr rfl) (.inr rfl) (.inr rfl) (.inr rfl) (.inr rfl) (.inr rfl) (.inr rfl); try dsimp only)

theorem State.schStop_only {pt : Parts} (h_rf : pt.rf = true) (h_irqNow : pt.irqNow = true) (h_bid : pt.bid = true) (h_can : pt.can = true) {s₀ s : State} (h : Only pt s₀ s) : Only pt s₀ (State.schStop s) := by
  unfold State.schStop
  try dsimp only
  repeat' first | (with_reducible first | assumption | apply State.wf__only h_rf | apply State.bidStop_only h_rf h_irqNow h_bid h_can | apply each_only | apply foldl_only) | intro _ _ _ | split | dsimp only

theorem State.schRunSet_only {pt : Parts} (h_rf : pt.rf = true) {s₀ s : State} (h : Only pt s₀ s) : Only pt s₀ (State.schRunSet s) := by
  unfold State.schRunSet
  try dsimp only
  repeat' first | (with_reducible first | assumption | apply State.schRunNow_only h_rf | apply each_only | apply foldl_only) | intro _ _ _ | split | dsimp only

theorem State.destAdd_only {pt : Parts} (h_rf : pt.rf = true) (h_irqNow : pt.irqNow = true) (h_sch : pt.sch = true) (h_bid : pt.bid = true) (h_doorF : pt.doorF = true) (h_doorR : pt.doorR = true) {s₀ s : State} (h : Only pt s₀ s) (val : Word) : Only pt s₀ (State.destAdd s val) := by
  unfold State.destAdd
  try dsimp only
  repeat' first | (with_reducible first | assumption | apply State.wn_only h_rf | apply State.destPlace_only h_rf h_irqNow h_sch h_bid h_doorF h_doorR | apply each_only | apply foldl_only) | intro _ _ _ | split | (refine Only.upd ?_ (.inr rfl) (.inr rfl) (.inr rfl) (.inl h_rf) (.inl h_irqNow) (.inr rfl) (.inr rfl) (.inr rfl) (.inr rfl) (.inl h_sch) (.inl h_bid) (.inl h_doorF) (.inl h_doorR) (.inr rfl) (.inr rfl) (.inr rfl) (.inr rfl) (.inr rfl) (.inr rfl) (.inr rfl) (.inr rfl) (.inr rfl) (.inr rfl) (.inr rfl) (.inr rfl) (.inr rfl); try dsimp only)

theorem State.destDel_only {pt : Parts} (h_rf : pt.rf = true) (h_irqNow : pt.irqNow = true) (h_sch : pt.sch = true) (h_bid : pt.bid = true) {s₀ s : State} (h : Only pt s₀ s) (i : Nat) : Only pt s₀ (State.destDel s i) := by
  unfold State.destDel
  try dsimp only
  repeat' first | (with_reducible first | assumption | apply State.dropDest_only h_rf h_irqNow h_sch h_bid | apply each_only | apply foldl_only) | intro _ _ _ | split | (refine Only.upd ?_ (.inr rfl) (.inr rfl) (.inr rfl) (.inl h_rf) (.inl h_irqNow) (.inr rfl) (.inr rfl) (.inr rfl) (.inr rfl) (.inl h_sch) (.inl h_bid) (.inr rfl) (.inr rfl) (.inr rfl) (.inr rfl) (.inr rfl) (.inr rfl) (.inr rfl) (.inr rfl) (.inr rfl) (.inr rfl) (.inr rfl) (.inr rfl) (.inr rfl) (.inr rfl) (.inr rfl); try dsimp only)

theorem State.schRestore_only {pt : Parts} (h_rf : pt.rf = true) (h_irqNow : pt.irqNow = true) (h_sch : pt.sch = true) (h_bid : pt.bid = true) (h_doorF : pt.doorF = true) (h_doorR : pt.doorR = true) {s₀ s : State} (h : Only pt s₀ s) : Only pt s₀ (State.schRestore s) := by
  unfold State.schRestore
  try dsimp only
  repeat' first | (with_reducible first | assumption | apply State.oosChange_only h_rf h_irqNow h_sch h_bid h_doorF h_doorR | apply each_only | apply foldl_only) | intro _ _ _ | split | dsimp only

theorem State.ccClrAll_only {pt : Parts} (h_sch : pt.sch = true) {s₀ s : State} (h : Only pt s₀ s) : Only pt s₀ (State.ccClrAll s) := by
  unfold State.ccClrAll
  try dsimp only
  repeat' first | (with_reducible first | assumption  | apply each_only | apply foldl_only) | intro _ _ _ | split | (refine Only.upd ?_ (.inr rfl) (.inr rfl) (.inr rfl) (.inr rfl) (.inr rfl) (.inr rfl) (.inr rfl) (.inr rfl) (.inr rfl) (.inl h_sch) (.inr rfl) (.inr rfl) (.inr rfl) (.inr rfl) (.inr rfl) (.inr rfl) (.inr rfl) (.inr rfl) (.inr rfl) (.inr rfl) (.inr rfl) (.inr rfl) (.inr rfl) (.inr rfl) (.inr rfl) (.inr rfl); try dsimp only)

theorem State.applySch_only {pt : Parts} (h_rf : pt.rf = true) (h_irqNow : pt.irqNow = true) (h_sch : pt.sch = true) (h_bid : pt.bid = true) (h_doorF : pt.doorF = true) (h_doorR : pt.doorR = true) (h_can : pt.can = true) {s₀ s : State} (h : Only pt s₀ s) (o : Nat) (r : RegSpec) (val : Word) : Only pt s₀ (State.applySch s o r val) := by
  unfold State.applySch
  try dsimp only
  repeat' first | (with_reducible first | assumption | apply State.wf__only h_rf | apply State.oosHostNow_only h_rf h_irqNow h_sch h_bid h_doorF h_doorR | apply State.schStop_only h_rf h_irqNow h_bid h_can | apply State.schRunSet_only h_rf | apply State.modeWrite_only h_rf h_irqNow h_sch h_bid h_doorF h_doorR | apply State.destAdd_only h_rf h_irqNow h_sch h_bid h_doorF h_doorR | apply State.destDel_only h_rf h_irqNow h_sch h_bid | apply State.schRestore_only h_rf h_irqNow h_sch h_bid h_doorF h_doorR | apply State.ccClrAll_only h_sch | apply State.schEndHold_only h_rf h_irqNow h_sch h_doorF h_doorR | apply State.storeReg_only h_rf | apply each_only | apply foldl_only) | intro _ _ _ | split | (refine Only.upd ?_ (.inr rfl) (.inr rfl) (.inr rfl) (.inl h_rf) (.inl h_irqNow) (.inr rfl) (.inr rfl) (.inr rfl) (.inr rfl) (.inl h_sch) (.inl h_bid) (.inl h_doorF) (.inl h_doorR) (.inr rfl) (.inr rfl) (.inl h_can) (.inr rfl) (.inr rfl) (.inr rfl) (.inr rfl) (.inr rfl) (.inr rfl) (.inr rfl) (.inr rfl) (.inr rfl) (.inr rfl); try dsimp only)

theorem State.bidCntClr_only {pt : Parts} (h_rf : pt.rf = true) {s₀ s : State} (h : Only pt s₀ s) : Only pt s₀ (State.bidCntClr s) := by
  unfold State.bidCntClr
  try dsimp only
  repeat' first | (with_reducible first | assumption | apply State.wr_only h_rf | apply each_only | apply foldl_only) | intro _ _ _ | split | dsimp only

theorem State.bidRejoin_only {pt : Parts} (h_rf : pt.rf = true) (h_irqNow : pt.irqNow = true) (h_bid : pt.bid = true) {s₀ s : State} (h : Only pt s₀ s) : Only pt s₀ (State.bidRejoin s) := by
  unfold State.bidRejoin
  try dsimp only
  repeat' first | (with_reducible first | assumption | apply State.bidListen_only h_rf h_irqNow h_bid | apply each_only | apply foldl_only) | intro _ _ _ | split | dsimp only

theorem State.bidQuery_only {pt : Parts} (h_rf : pt.rf = true) (h_bid : pt.bid = true) {s₀ s : State} (h : Only pt s₀ s) (val : Word) : Only pt s₀ (State.bidQuery s val) := by
  unfold State.bidQuery
  try dsimp only
  repeat' first | (with_reducible first | assumption | apply State.wr_only h_rf | apply each_only | apply foldl_only) | intro _ _ _ | split | (refine Only.upd ?_ (.inr rfl) (.inr rfl) (.inr rfl) (.inl h_rf) (.inr rfl) (.inr rfl) (.inr rfl) (.inr rfl) (.inr rfl) (.inr rfl) (.inl h_bid) (.inr rfl) (.inr rfl) (.inr rfl) (.inr rfl) (.inr rfl) (.inr rfl) (.inr rfl) (.inr rfl) (.inr rfl) (.inr rfl) (.inr rfl) (.inr rfl) (.inr rfl) (.inr rfl) (.inr rfl); try dsimp only)

theorem State.applyBid_only {pt : Parts} (h_rf : pt.rf = true) (h_irqNow : pt.irqNow = true) (h_sch : pt.sch = true) (h_bid : pt.bid = true) (h_can : pt.can = true) {s₀ s : State} (h : Only pt s₀ s) (o : Nat) (r : RegSpec) (val : Word) : Only pt s₀ (State.applyBid s o r val) := by
  unfold State.applyBid
  try dsimp only
  repeat' first | (with_reducible first | assumption | apply State.bidQuery_only h_rf h_bid | apply State.bidCntClr_only h_rf | apply State.releaseAll_only h_rf h_irqNow h_sch h_bid h_can | apply State.bidRejoin_only h_rf h_irqNow h_bid | apply State.storeReg_only h_rf | apply each_only | apply foldl_only) | intro _ _ _ | split | (refine Only.upd ?_ (.inr rfl) (.inr rfl) (.inr rfl) (.inl h_rf) (.inl h_irqNow) (.inr rfl) (.inr rfl) (.inr rfl) (.inr rfl) (.inl h_sch) (.inl h_bid) (.inr rfl) (.inr rfl) (.inr rfl) (.inr rfl) (.inl h_can) (.inr rfl) (.inr rfl) (.inr rfl) (.inr rfl) (.inr rfl) (.inr rfl) (.inr rfl) (.inr rfl) (.inr rfl) (.inr rfl); try dsimp only)

theorem State.doorArmHost_only {pt : Parts} (h_doorF : pt.doorF = true) (h_doorR : pt.doorR = true) {s₀ s : State} (h : Only pt s₀ s) (c : Chan) : Only pt s₀ (State.doorArmHost s c) := by
  unfold State.doorArmHost
  try dsimp only
  repeat' first | (with_reducible first | assumption | apply State.setDoor_only h_doorF h_doorR | apply each_only | apply foldl_only) | intro _ _ _ | split | (refine Only.upd ?_ (.inr rfl) (.inr rfl) (.inr rfl) (.inr rfl) (.inr rfl) (.inr rfl) (.inr rfl) (.inr rfl) (.inr rfl) (.inr rfl) (.inr rfl) (.inl h_doorF) (.inl h_doorR) (.inr rfl) (.inr rfl) (.inr rfl) (.inr rfl) (.inr rfl) (.inr rfl) (.inr rfl) (.inr rfl) (.inr rfl) (.inr rfl) (.inr rfl) (.inr rfl) (.inr rfl); try dsimp only)

theorem State.doorLearnStart_only {pt : Parts} (h_rf : pt.rf = true) (h_irqNow : pt.irqNow = true) (h_doorF : pt.doorF = true) (h_doorR : pt.doorR = true) {s₀ s : State} (h : Only pt s₀ s) (c : Chan) : Only pt s₀ (State.doorLearnStart s c) := by
  unfold State.doorLearnStart
  try dsimp only
  repeat' first | (with_reducible first | assumption | apply State.setDoor_only h_doorF h_doorR | apply State.doorInto_only h_rf h_irqNow h_doorF h_doorR | apply each_only | apply foldl_only) | intro _ _ _ | split | (refine Only.upd ?_ (.inr rfl) (.inr rfl) (.inr rfl) (.inl h_rf) (.inl h_irqNow) (.inr rfl) (.inr rfl) (.inr rfl) (.inr rfl) (.inr rfl) (.inr rfl) (.inl h_doorF) (.inl h_doorR) (.inr rfl) (.inr rfl) (.inr rfl) (.inr rfl) (.inr rfl) (.inr rfl) (.inr rfl) (.inr rfl) (.inr rfl) (.inr rfl) (.inr rfl) (.inr rfl) (.inr rfl); try dsimp only)

theorem State.doorClrFault_only {pt : Parts} (h_rf : pt.rf = true) (h_irqNow : pt.irqNow = true) (h_doorF : pt.doorF = true) (h_doorR : pt.doorR = true) {s₀ s : State} (h : Only pt s₀ s) (c : Chan) : Only pt s₀ (State.doorClrFault s c) := by
  unfold State.doorClrFault
  try dsimp only
  repeat' first | (with_reducible first | assumption | apply State.doorLosePos_only h_rf h_irqNow h_doorF h_doorR | apply State.setDoor_only h_doorF h_doorR | apply State.doorInto_only h_rf h_irqNow h_doorF h_doorR | apply each_only | apply foldl_only) | intro _ _ _ | split | (refine Only.upd ?_ (.inr rfl) (.inr rfl) (.inr rfl) (.inl h_rf) (.inl h_irqNow) (.inr rfl) (.inr rfl) (.inr rfl) (.inr rfl) (.inr rfl) (.inr rfl) (.inl h_doorF) (.inl h_doorR) (.inr rfl) (.inr rfl) (.inr rfl) (.inr rfl) (.inr rfl) (.inr rfl) (.inr rfl) (.inr rfl) (.inr rfl) (.inr rfl) (.inr rfl) (.inr rfl) (.inr rfl); try dsimp only)

theorem State.doorNoted_only {pt : Parts} (h_doorF : pt.doorF = true) (h_doorR : pt.doorR = true) {s₀ s : State} (h : Only pt s₀ s) (c : Chan) (src : Src) (val : Word) : Only pt s₀ (State.doorNoted s c src val) := by
  unfold State.doorNoted
  try dsimp only
  repeat' first | (with_reducible first | assumption | apply State.setDoor_only h_doorF h_doorR | apply each_only | apply foldl_only) | intro _ _ _ | split | (refine Only.upd ?_ (.inr rfl) (.inr rfl) (.inr rfl) (.inr rfl) (.inr rfl) (.inr rfl) (.inr rfl) (.inr rfl) (.inr rfl) (.inr rfl) (.inr rfl) (.inl h_doorF) (.inl h_doorR) (.inr rfl) (.inr rfl) (.inr rfl) (.inr rfl) (.inr rfl) (.inr rfl) (.inr rfl) (.inr rfl) (.inr rfl) (.inr rfl) (.inr rfl) (.inr rfl) (.inr rfl); try dsimp only)

theorem State.doorCmd_only {pt : Parts} (h_rf : pt.rf = true) (h_irqNow : pt.irqNow = true) (h_doorF : pt.doorF = true) (h_doorR : pt.doorR = true) {s₀ s : State} (h : Only pt s₀ s) (c : Chan) (val : Word) : Only pt s₀ (State.doorCmd s c val) := by
  unfold State.doorCmd
  try dsimp only
  repeat' first | (with_reducible first | assumption | apply State.doorOpenAct_only h_rf h_irqNow h_doorF h_doorR | apply State.doorCloseAct_only h_rf h_irqNow h_doorF h_doorR | apply State.doorStopAct_only h_rf h_irqNow h_doorF h_doorR | apply State.doorArmHost_only h_doorF h_doorR | apply State.doorStartHome_only h_rf h_irqNow h_doorF h_doorR | apply State.doorLearnStart_only h_rf h_irqNow h_doorF h_doorR | apply State.doorClrFault_only h_rf h_irqNow h_doorF h_doorR | apply each_only | apply foldl_only) | intro _ _ _ | split | dsimp only

theorem State.applyDoor_only {pt : Parts} (h_rf : pt.rf = true) (h_irqNow : pt.irqNow = true) (h_doorF : pt.doorF = true) (h_doorR : pt.doorR = true) {s₀ s : State} (h : Only pt s₀ s) (src : Src) (c : Chan) (o : Nat) (r : RegSpec) (val : Word) : Only pt s₀ (State.applyDoor s src c o r val) := by
  unfold State.applyDoor
  try dsimp only
  repeat' first | (with_reducible first | assumption | apply State.doorCmd_only h_rf h_irqNow h_doorF h_doorR | apply State.doorNoted_only h_doorF h_doorR | apply State.storeReg_only h_rf | apply State.doorPowerDown_only h_rf h_irqNow h_doorF h_doorR | apply each_only | apply foldl_only) | intro _ _ _ | split | (refine Only.upd ?_ (.inr rfl) (.inr rfl) (.inr rfl) (.inl h_rf) (.inl h_irqNow) (.inr rfl) (.inr rfl) (.inr rfl) (.inr rfl) (.inr rfl) (.inr rfl) (.inl h_doorF) (.inl h_doorR) (.inr rfl) (.inr rfl) (.inr rfl) (.inr rfl) (.inr rfl) (.inr rfl) (.inr rfl) (.inr rfl) (.inr rfl) (.inr rfl) (.inr rfl) (.inr rfl) (.inr rfl); try dsimp only)

theorem State.safeReset_only {pt : Parts} (h_rf : pt.rf = true) (h_irqNow : pt.irqNow = true) (h_el : pt.el = true) {s₀ s : State} (h : Only pt s₀ s) (src : Src) : Only pt s₀ (State.safeReset s src) := by
  unfold State.safeReset
  try dsimp only
  repeat' first | (with_reducible first | assumption | apply State.elClear_only h_rf h_irqNow h_el | apply each_only | apply foldl_only) | intro _ _ _ | split | dsimp only

theorem State.applySafe_only {pt : Parts} (h_rf : pt.rf = true) (h_irqNow : pt.irqNow = true) (h_el : pt.el = true) {s₀ s : State} (h : Only pt s₀ s) (src : Src) (o : Nat) (r : RegSpec) (val : Word) : Only pt s₀ (State.applySafe s src o r val) := by
  unfold State.applySafe
  try dsimp only
  repeat' first | (with_reducible first | assumption | apply State.safeReset_only h_rf h_irqNow h_el | apply State.storeReg_only h_rf | apply State.elDigest_only h_el | apply each_only | apply foldl_only) | intro _ _ _ | split | (refine Only.upd ?_ (.inr rfl) (.inr rfl) (.inr rfl) (.inl h_rf) (.inl h_irqNow) (.inr rfl) (.inr rfl) (.inr rfl) (.inr rfl) (.inr rfl) (.inr rfl) (.inr rfl) (.inr rfl) (.inl h_el) (.inr rfl) (.inr rfl) (.inr rfl) (.inr rfl) (.inr rfl) (.inr rfl) (.inr rfl) (.inr rfl) (.inr rfl) (.inr rfl) (.inr rfl) (.inr rfl); try dsimp only)

theorem State.lsfRestartNow_only {pt : Parts} (h_lsf : pt.lsf = true) {s₀ s : State} (h : Only pt s₀ s) (val : Word) : Only pt s₀ (State.lsfRestartNow s val) := by
  unfold State.lsfRestartNow
  try dsimp only
  repeat' first | (with_reducible first | assumption | apply State.setLsf_only h_lsf | apply each_only | apply foldl_only) | intro _ _ _ | split | (refine Only.upd ?_ (.inr rfl) (.inr rfl) (.inr rfl) (.inr rfl) (.inr rfl) (.inr rfl) (.inr rfl) (.inr rfl) (.inr rfl) (.inr rfl) (.inr rfl) (.inr rfl) (.inr rfl) (.inr rfl) (.inl h_lsf) (.inr rfl) (.inr rfl) (.inr rfl) (.inr rfl) (.inr rfl) (.inr rfl) (.inr rfl) (.inr rfl) (.inr rfl) (.inr rfl) (.inr rfl); try dsimp only)

theorem State.lsfCntClr_only {pt : Parts} (h_rf : pt.rf = true) {s₀ s : State} (h : Only pt s₀ s) : Only pt s₀ (State.lsfCntClr s) := by
  unfold State.lsfCntClr
  try dsimp only
  repeat' first | (with_reducible first | assumption | apply State.wr_only h_rf | apply each_only | apply foldl_only) | intro _ _ _ | split | dsimp only

theorem State.applyLsf_only {pt : Parts} (h_rf : pt.rf = true) (h_lsf : pt.lsf = true) {s₀ s : State} (h : Only pt s₀ s) (o : Nat) (r : RegSpec) (val : Word) : Only pt s₀ (State.applyLsf s o r val) := by
  unfold State.applyLsf
  try dsimp only
  repeat' first | (with_reducible first | assumption | apply State.lsfRestartNow_only h_lsf | apply State.lsfCntClr_only h_rf | apply State.storeReg_only h_rf | apply State.lsfStart_only h_lsf | apply each_only | apply foldl_only) | intro _ _ _ | split | (refine Only.upd ?_ (.inr rfl) (.inr rfl) (.inr rfl) (.inl h_rf) (.inr rfl) (.inr rfl) (.inr rfl) (.inr rfl) (.inr rfl) (.inr rfl) (.inr rfl) (.inr rfl) (.inr rfl) (.inr rfl) (.inl h_lsf) (.inr rfl) (.inr rfl) (.inr rfl) (.inr rfl) (.inr rfl) (.inr rfl) (.inr rfl) (.inr rfl) (.inr rfl) (.inr rfl) (.inr rfl); try dsimp only)

theorem State.canOff_only {pt : Parts} (h_rf : pt.rf = true) (h_irqNow : pt.irqNow = true) (h_can : pt.can = true) {s₀ s : State} (h : Only pt s₀ s) (n : Nat) : Only pt s₀ (State.canOff s n) := by
  unfold State.canOff
  try dsimp only
  repeat' first | (with_reducible first | assumption | apply State.canAbortAll_only h_rf h_irqNow h_can | apply State.setCan_only h_can | apply State.canInto_only h_rf h_irqNow h_can | apply each_only | apply foldl_only) | intro _ _ _ | split | (refine Only.upd ?_ (.inr rfl) (.inr rfl) (.inr rfl) (.inl h_rf) (.inl h_irqNow) (.inr rfl) (.inr rfl) (.inr rfl) (.inr rfl) (.inr rfl) (.inr rfl) (.inr rfl) (.inr rfl) (.inr rfl) (.inr rfl) (.inl h_can) (.inr rfl) (.inr rfl) (.inr rfl) (.inr rfl) (.inr rfl) (.inr rfl) (.inr rfl) (.inr rfl) (.inr rfl) (.inr rfl); try dsimp only)

theorem State.canStart_only {pt : Parts} (h_can : pt.can = true) {s₀ s : State} (h : Only pt s₀ s) (n : Nat) : Only pt s₀ (State.canStart s n) := by
  unfold State.canStart
  try dsimp only
  repeat' first | (with_reducible first | assumption | apply State.setCan_only h_can | apply each_only | apply foldl_only) | intro _ _ _ | split | (refine Only.upd ?_ (.inr rfl) (.inr rfl) (.inr rfl) (.inr rfl) (.inr rfl) (.inr rfl) (.inr rfl) (.inr rfl) (.inr rfl) (.inr rfl) (.inr rfl) (.inr rfl) (.inr rfl) (.inr rfl) (.inr rfl) (.inl h_can) (.inr rfl) (.inr rfl) (.inr rfl) (.inr rfl) (.inr rfl) (.inr rfl) (.inr rfl) (.inr rfl) (.inr rfl) (.inr rfl); try dsimp only)

theorem State.canAbortMask_only {pt : Parts} (h_rf : pt.rf = true) (h_irqNow : pt.irqNow = true) (h_can : pt.can = true) {s₀ s : State} (h : Only pt s₀ s) (n : Nat) (val : Word) : Only pt s₀ (State.canAbortMask s n val) := by
  unfold State.canAbortMask
  try dsimp only
  repeat' first | (with_reducible first | assumption | apply State.canAbort_only h_rf h_irqNow h_can | apply each_only | apply foldl_only) | intro _ _ _ | split | dsimp only

theorem State.canRequestMask_only {pt : Parts} (h_rf : pt.rf = true) (h_irqNow : pt.irqNow = true) (h_can : pt.can = true) {s₀ s : State} (h : Only pt s₀ s) (n : Nat) (val : Word) : Only pt s₀ (State.canRequestMask s n val) := by
  unfold State.canRequestMask
  try dsimp only
  repeat' first | (with_reducible first | assumption | apply State.canRequest_only h_rf h_irqNow h_can | apply each_only | apply foldl_only) | intro _ _ _ | split | dsimp only

theorem State.canCntClr_only {pt : Parts} (h_rf : pt.rf = true) {s₀ s : State} (h : Only pt s₀ s) (n : Nat) : Only pt s₀ (State.canCntClr s n) := by
  unfold State.canCntClr
  try dsimp only
  repeat' first | (with_reducible first | assumption | apply State.wr_only h_rf | apply each_only | apply foldl_only) | intro _ _ _ | split | dsimp only

theorem State.canSleepBit_only {pt : Parts} (h_rf : pt.rf = true) (h_irqNow : pt.irqNow = true) (h_can : pt.can = true) {s₀ s : State} (h : Only pt s₀ s) (n : Nat) (on : Bool) : Only pt s₀ (State.canSleepBit s n on) := by
  unfold State.canSleepBit
  try dsimp only
  repeat' first | (with_reducible first | assumption | apply State.canSleepNow_only h_rf h_irqNow h_can | apply State.canWakeNow_only h_rf h_irqNow h_can | apply each_only | apply foldl_only) | intro _ _ _ | split | dsimp only

theorem State.applyCan_only {pt : Parts} (h_rf : pt.rf = true) (h_irqNow : pt.irqNow = true) (h_can : pt.can = true) {s₀ s : State} (h : Only pt s₀ s) (n : Nat) (o : Nat) (r : RegSpec) (val : Word) : Only pt s₀ (State.applyCan s n o r val) := by
  unfold State.applyCan
  try dsimp only
  repeat' first | (with_reducible first | assumption | apply State.canSleepBit_only h_rf h_irqNow h_can | apply State.storeReg_only h_rf | apply State.canOff_only h_rf h_irqNow h_can | apply State.canStart_only h_can | apply State.canRequestMask_only h_rf h_irqNow h_can | apply State.canAbortMask_only h_rf h_irqNow h_can | apply State.canCntClr_only h_rf | apply State.canClrNew_only h_can | apply State.canClrLost_only h_can | apply each_only | apply foldl_only) | intro _ _ _ | split | (refine Only.upd ?_ (.inr rfl) (.inr rfl) (.inr rfl) (.inl h_rf) (.inl h_irqNow) (.inr rfl) (.inr rfl) (.inr rfl) (.inr rfl) (.inr rfl) (.inr rfl) (.inr rfl) (.inr rfl) (.inr rfl) (.inr rfl) (.inl h_can) (.inr rfl) (.inr rfl) (.inr rfl) (.inr rfl) (.inr rfl) (.inr rfl) (.inr rfl) (.inr rfl) (.inr rfl) (.inr rfl); try dsimp only)

theorem State.applyFio_only {pt : Parts} (h_rf : pt.rf = true) (h_fiog : pt.fiog = true) (h_sil : pt.sil = true) {s₀ s : State} (h : Only pt s₀ s) (o : Nat) (r : RegSpec) (val : Word) : Only pt s₀ (State.applyFio s o r val) := by
  unfold State.applyFio
  try dsimp only
  repeat' first | (with_reducible first | assumption | apply State.silAckNow_only h_fiog h_sil | apply State.storeReg_only h_rf | apply State.silEnable_only h_sil | apply each_only | apply foldl_only) | intro _ _ _ | split | (refine Only.upd ?_ (.inr rfl) (.inr rfl) (.inr rfl) (.inl h_rf) (.inr rfl) (.inr rfl) (.inr rfl) (.inr rfl) (.inr rfl) (.inr rfl) (.inr rfl) (.inr rfl) (.inr rfl) (.inr rfl) (.inr rfl) (.inr rfl) (.inl h_fiog) (.inr rfl) (.inl h_sil) (.inr rfl) (.inr rfl) (.inr rfl) (.inr rfl) (.inr rfl) (.inr rfl) (.inr rfl); try dsimp only)

theorem State.grpClr_only {pt : Parts} (h_fiog : pt.fiog = true) {s₀ s : State} (h : Only pt s₀ s) (g : Nat) : Only pt s₀ (State.grpClr s g) := by
  unfold State.grpClr
  try dsimp only
  repeat' first | (with_reducible first | assumption | apply State.setGrp_only h_fiog | apply each_only | apply foldl_only) | intro _ _ _ | split | (refine Only.upd ?_ (.inr rfl) (.inr rfl) (.inr rfl) (.inr rfl) (.inr rfl) (.inr rfl) (.inr rfl) (.inr rfl) (.inr rfl) (.inr rfl) (.inr rfl) (.inr rfl) (.inr rfl) (.inr rfl) (.inr rfl) (.inr rfl) (.inl h_fiog) (.inr rfl) (.inr rfl) (.inr rfl) (.inr rfl) (.inr rfl) (.inr rfl) (.inr rfl) (.inr rfl) (.inr rfl); try dsimp only)

theorem State.cosClear_only {pt : Parts} (h_rf : pt.rf = true) {s₀ s : State} (h : Only pt s₀ s) (g : Nat) (val : Word) : Only pt s₀ (State.cosClear s g val) := by
  unfold State.cosClear
  try dsimp only
  repeat' first | (with_reducible first | assumption | apply State.wr_only h_rf | apply each_only | apply foldl_only) | intro _ _ _ | split | dsimp only

theorem State.applyFiog_only {pt : Parts} (h_rf : pt.rf = true) (h_fiog : pt.fiog = true) {s₀ s : State} (h : Only pt s₀ s) (g : Nat) (o : Nat) (r : RegSpec) (val : Word) : Only pt s₀ (State.applyFiog s g o r val) := by
  unfold State.applyFiog
  try dsimp only
  repeat' first | (with_reducible first | assumption | apply State.outWrite_only h_fiog | apply State.cosClear_only h_rf | apply State.tsdClear_only h_fiog | apply State.grpClr_only h_fiog | apply State.chCfgApply_only h_rf h_fiog | apply State.storeReg_only h_rf | apply each_only | apply foldl_only) | intro _ _ _ | split | (refine Only.upd ?_ (.inr rfl) (.inr rfl) (.inr rfl) (.inl h_rf) (.inr rfl) (.inr rfl) (.inr rfl) (.inr rfl) (.inr rfl) (.inr rfl) (.inr rfl) (.inr rfl) (.inr rfl) (.inr rfl) (.inr rfl) (.inr rfl) (.inl h_fiog) (.inr rfl) (.inr rfl) (.inr rfl) (.inr rfl) (.inr rfl) (.inr rfl) (.inr rfl) (.inr rfl) (.inr rfl); try dsimp only)

theorem State.sealOpen_only {pt : Parts} (h_host : pt.host = true) {s₀ s : State} (h : Only pt s₀ s) (src : Src) : Only pt s₀ (State.sealOpen s src) := by
  unfold State.sealOpen
  try dsimp only
  repeat' first | (with_reducible first | assumption  | apply each_only | apply foldl_only) | intro _ _ _ | split | (refine Only.upd ?_ (.inr rfl) (.inr rfl) (.inr rfl) (.inr rfl) (.inr rfl) (.inr rfl) (.inr rfl) (.inr rfl) (.inr rfl) (.inr rfl) (.inr rfl) (.inr rfl) (.inr rfl) (.inr rfl) (.inr rfl) (.inr rfl) (.inr rfl) (.inl h_host) (.inr rfl) (.inr rfl) (.inr rfl) (.inr rfl) (.inr rfl) (.inr rfl) (.inr rfl) (.inr rfl); try dsimp only)

theorem State.closeOthers_only {pt : Parts} (h_rf : pt.rf = true) (h_irqNow : pt.irqNow = true) (h_host : pt.host = true) {s₀ s : State} (h : Only pt s₀ s) (src : Src) : Only pt s₀ (State.closeOthers s src) := by
  unfold State.closeOthers
  try dsimp only
  repeat' first | (with_reducible first | assumption | apply State.sessEnd_only h_rf h_irqNow h_host | apply each_only | apply foldl_only) | intro _ _ _ | split | dsimp only

theorem State.applyHost_only {pt : Parts} (h_rf : pt.rf = true) (h_irqNow : pt.irqNow = true) (h_host : pt.host = true) {s₀ s : State} (h : Only pt s₀ s) (src : Src) (o : Nat) (r : RegSpec) (val : Word) : Only pt s₀ (State.applyHost s src o r val) := by
  unfold State.applyHost
  try dsimp only
  repeat' first | (with_reducible first | assumption | apply State.wr_only h_rf | apply State.sealOpen_only h_host | apply State.closeOthers_only h_rf h_irqNow h_host | apply State.storeReg_only h_rf | apply each_only | apply foldl_only) | intro _ _ _ | split | (refine Only.upd ?_ (.inr rfl) (.inr rfl) (.inr rfl) (.inl h_rf) (.inl h_irqNow) (.inr rfl) (.inr rfl) (.inr rfl) (.inr rfl) (.inr rfl) (.inr rfl) (.inr rfl) (.inr rfl) (.inr rfl) (.inr rfl) (.inr rfl) (.inr rfl) (.inl h_host) (.inr rfl) (.inr rfl) (.inr rfl) (.inr rfl) (.inr rfl) (.inr rfl) (.inr rfl) (.inr rfl); try dsimp only)

theorem State.ethLink_only {pt : Parts} (h_rf : pt.rf = true) (h_irqNow : pt.irqNow = true) (h_host : pt.host = true) {s₀ s : State} (h : Only pt s₀ s) (n : Nat) (up : Bool) (amp24 : Bool) (sqi : Nat) : Only pt s₀ (State.ethLink s n up amp24 sqi) := by
  unfold State.ethLink
  try dsimp only
  repeat' first | (with_reducible first | assumption | apply State.wr_only h_rf | apply State.raise_only h_rf h_irqNow | apply State.sessEnd_only h_rf h_irqNow h_host | apply each_only | apply foldl_only) | intro _ _ _ | split | dsimp only

theorem State.ethReneg_only {pt : Parts} (h_rf : pt.rf = true) (h_irqNow : pt.irqNow = true) (h_host : pt.host = true) {s₀ s : State} (h : Only pt s₀ s) (n : Nat) : Only pt s₀ (State.ethReneg s n) := by
  unfold State.ethReneg
  try dsimp only
  repeat' first | (with_reducible first | assumption | apply State.ethLink_only h_rf h_irqNow h_host | apply each_only | apply foldl_only) | intro _ _ _ | split | dsimp only

theorem State.ethCntClr_only {pt : Parts} (h_rf : pt.rf = true) {s₀ s : State} (h : Only pt s₀ s) (n : Nat) : Only pt s₀ (State.ethCntClr s n) := by
  unfold State.ethCntClr
  try dsimp only
  repeat' first | (with_reducible first | assumption | apply State.wr_only h_rf | apply each_only | apply foldl_only) | intro _ _ _ | split | dsimp only

theorem State.applyEth_only {pt : Parts} (h_rf : pt.rf = true) (h_irqNow : pt.irqNow = true) (h_host : pt.host = true) {s₀ s : State} (h : Only pt s₀ s) (n : Nat) (o : Nat) (r : RegSpec) (val : Word) : Only pt s₀ (State.applyEth s n o r val) := by
  unfold State.applyEth
  try dsimp only
  repeat' first | (with_reducible first | assumption | apply State.ethCntClr_only h_rf | apply State.ethReneg_only h_rf h_irqNow h_host | apply State.storeReg_only h_rf | apply each_only | apply foldl_only) | intro _ _ _ | split | (refine Only.upd ?_ (.inr rfl) (.inr rfl) (.inr rfl) (.inl h_rf) (.inl h_irqNow) (.inr rfl) (.inr rfl) (.inr rfl) (.inr rfl) (.inr rfl) (.inr rfl) (.inr rfl) (.inr rfl) (.inr rfl) (.inr rfl) (.inr rfl) (.inr rfl) (.inl h_host) (.inr rfl) (.inr rfl) (.inr rfl) (.inr rfl) (.inr rfl) (.inr rfl) (.inr rfl) (.inr rfl); try dsimp only)

theorem State.clrPeak_only {pt : Parts} (h_xbar : pt.xbar = true) {s₀ s : State} (h : Only pt s₀ s) : Only pt s₀ (State.clrPeak s) := by
  unfold State.clrPeak
  try dsimp only
  repeat' first | (with_reducible first | assumption  | apply each_only | apply foldl_only) | intro _ _ _ | split | (refine Only.upd ?_ (.inr rfl) (.inr rfl) (.inr rfl) (.inr rfl) (.inr rfl) (.inr rfl) (.inr rfl) (.inr rfl) (.inr rfl) (.inr rfl) (.inr rfl) (.inr rfl) (.inr rfl) (.inr rfl) (.inr rfl) (.inr rfl) (.inr rfl) (.inr rfl) (.inr rfl) (.inr rfl) (.inr rfl) (.inr rfl) (.inr rfl) (.inr rfl) (.inr rfl) (.inl h_xbar); try dsimp only)

theorem State.clrFlt_only {pt : Parts} (h_rf : pt.rf = true) {s₀ s : State} (h : Only pt s₀ s) : Only pt s₀ (State.clrFlt s) := by
  unfold State.clrFlt
  try dsimp only
  repeat' first | (with_reducible first | assumption | apply State.wr_only h_rf | apply each_only | apply foldl_only) | intro _ _ _ | split | dsimp only

theorem State.applyXbar_only {pt : Parts} (h_rf : pt.rf = true) (h_xbar : pt.xbar = true) {s₀ s : State} (h : Only pt s₀ s) (o : Nat) (r : RegSpec) (val : Word) : Only pt s₀ (State.applyXbar s o r val) := by
  unfold State.applyXbar
  try dsimp only
  repeat' first | (with_reducible first | assumption | apply State.clrPeak_only h_xbar | apply State.clrFlt_only h_rf | apply State.storeReg_only h_rf | apply each_only | apply foldl_only) | intro _ _ _ | split | (refine Only.upd ?_ (.inr rfl) (.inr rfl) (.inr rfl) (.inl h_rf) (.inr rfl) (.inr rfl) (.inr rfl) (.inr rfl) (.inr rfl) (.inr rfl) (.inr rfl) (.inr rfl) (.inr rfl) (.inr rfl) (.inr rfl) (.inr rfl) (.inr rfl) (.inr rfl) (.inr rfl) (.inr rfl) (.inr rfl) (.inr rfl) (.inr rfl) (.inr rfl) (.inr rfl) (.inl h_xbar); try dsimp only)

theorem State.applyPart_only {pt : Parts} (h_rf : pt.rf = true) (h_irqNow : pt.irqNow = true) (h_drv : pt.drv = true) (h_doorF : pt.doorF = true) (h_doorR : pt.doorR = true) (h_el : pt.el = true) (h_can : pt.can = true) (h_part : pt.part = true) (h_rcd : pt.rcd = true) {s₀ s : State} (h : Only pt s₀ s) (o : Nat) (r : RegSpec) (val : Word) : Only pt s₀ (State.applyPart s o r val) := by
  unfold State.applyPart
  try dsimp only
  repeat' first | (with_reducible first | assumption | apply State.wr_only h_rf | apply State.resyncNow_only h_part | apply State.xchNow_only h_rf h_irqNow h_drv h_doorF h_doorR h_el h_can h_part h_rcd | apply State.storeReg_only h_rf | apply each_only | apply foldl_only) | intro _ _ _ | split | (refine Only.upd ?_ (.inr rfl) (.inr rfl) (.inr rfl) (.inl h_rf) (.inl h_irqNow) (.inr rfl) (.inr rfl) (.inr rfl) (.inl h_drv) (.inr rfl) (.inr rfl) (.inl h_doorF) (.inl h_doorR) (.inl h_el) (.inr rfl) (.inl h_can) (.inr rfl) (.inr rfl) (.inr rfl) (.inl h_part) (.inl h_rcd) (.inr rfl) (.inr rfl) (.inr rfl) (.inr rfl) (.inr rfl); try dsimp only)

theorem State.flushAsk_only {pt : Parts} (h_rcd : pt.rcd = true) {s₀ s : State} (h : Only pt s₀ s) : Only pt s₀ (State.flushAsk s) := by
  unfold State.flushAsk
  try dsimp only
  repeat' first | (with_reducible first | assumption  | apply each_only | apply foldl_only) | intro _ _ _ | split | (refine Only.upd ?_ (.inr rfl) (.inr rfl) (.inr rfl) (.inr rfl) (.inr rfl) (.inr rfl) (.inr rfl) (.inr rfl) (.inr rfl) (.inr rfl) (.inr rfl) (.inr rfl) (.inr rfl) (.inr rfl) (.inr rfl) (.inr rfl) (.inr rfl) (.inr rfl) (.inr rfl) (.inr rfl) (.inl h_rcd) (.inr rfl) (.inr rfl) (.inr rfl) (.inr rfl) (.inr rfl); try dsimp only)

theorem State.readAsk_only {pt : Parts} (h_rf : pt.rf = true) (h_rcd : pt.rcd = true) {s₀ s : State} (h : Only pt s₀ s) (val : Word) : Only pt s₀ (State.readAsk s val) := by
  unfold State.readAsk
  try dsimp only
  repeat' first | (with_reducible first | assumption | apply State.wr_only h_rf | apply each_only | apply foldl_only) | intro _ _ _ | split | (refine Only.upd ?_ (.inr rfl) (.inr rfl) (.inr rfl) (.inl h_rf) (.inr rfl) (.inr rfl) (.inr rfl) (.inr rfl) (.inr rfl) (.inr rfl) (.inr rfl) (.inr rfl) (.inr rfl) (.inr rfl) (.inr rfl) (.inr rfl) (.inr rfl) (.inr rfl) (.inr rfl) (.inr rfl) (.inl h_rcd) (.inr rfl) (.inr rfl) (.inr rfl) (.inr rfl) (.inr rfl); try dsimp only)

theorem State.recCntClr_only {pt : Parts} (h_rf : pt.rf = true) {s₀ s : State} (h : Only pt s₀ s) : Only pt s₀ (State.recCntClr s) := by
  unfold State.recCntClr
  try dsimp only
  repeat' first | (with_reducible first | assumption | apply State.wr_only h_rf | apply each_only | apply foldl_only) | intro _ _ _ | split | dsimp only

theorem State.applyRec_only {pt : Parts} (h_rf : pt.rf = true) (h_irqNow : pt.irqNow = true) (h_rcd : pt.rcd = true) {s₀ s : State} (h : Only pt s₀ s) (o : Nat) (r : RegSpec) (val : Word) : Only pt s₀ (State.applyRec s o r val) := by
  unfold State.applyRec
  try dsimp only
  repeat' first | (with_reducible first | assumption | apply State.readAsk_only h_rf h_rcd | apply State.wallSet_only h_rf h_irqNow h_rcd | apply State.hostFire_only h_rf h_irqNow h_rcd | apply State.recCntClr_only h_rf | apply State.flushAsk_only h_rcd | apply State.storeReg_only h_rf | apply each_only | apply foldl_only) | intro _ _ _ | split | (refine Only.upd ?_ (.inr rfl) (.inr rfl) (.inr rfl) (.inl h_rf) (.inl h_irqNow) (.inr rfl) (.inr rfl) (.inr rfl) (.inr rfl) (.inr rfl) (.inr rfl) (.inr rfl) (.inr rfl) (.inr rfl) (.inr rfl) (.inr rfl) (.inr rfl) (.inr rfl) (.inr rfl) (.inr rfl) (.inl h_rcd) (.inr rfl) (.inr rfl) (.inr rfl) (.inr rfl) (.inr rfl); try dsimp only)

theorem State.applyKey_only {pt : Parts} (h_rf : pt.rf = true) (h_key : pt.key = true) {s₀ s : State} (h : Only pt s₀ s) (src : Src) (o : Nat) (r : RegSpec) (val : Word) : Only pt s₀ (State.applyKey s src o r val) := by
  unfold State.applyKey
  try dsimp only
  repeat' first | (with_reducible first | assumption | apply State.keyAccept_only h_key | apply State.wr_only h_rf | apply State.storeReg_only h_rf | apply each_only | apply foldl_only) | intro _ _ _ | split | dsimp only

theorem State.applyTamp_only {pt : Parts} (h_fresh : pt.fresh = true) (h_rf : pt.rf = true) (h_irqNow : pt.irqNow = true) (h_host : pt.host = true) (h_rcd : pt.rcd = true) (h_key : pt.key = true) (h_tamp : pt.tamp = true) {s₀ s : State} (h : Only pt s₀ s) (o : Nat) (r : RegSpec) (val : Word) : Only pt s₀ (State.applyTamp s o r val) := by
  unfold State.applyTamp
  try dsimp only
  repeat' first | (with_reducible first | assumption | apply State.tampRelease_only h_fresh h_rf h_irqNow h_host h_rcd h_key h_tamp | apply State.storeReg_only h_rf | apply State.tampered_only h_rf h_irqNow h_host h_rcd h_key h_tamp | apply each_only | apply foldl_only) | intro _ _ _ | split | (refine Only.upd ?_ (.inr rfl) (.inr rfl) (.inl h_fresh) (.inl h_rf) (.inl h_irqNow) (.inr rfl) (.inr rfl) (.inr rfl) (.inr rfl) (.inr rfl) (.inr rfl) (.inr rfl) (.inr rfl) (.inr rfl) (.inr rfl) (.inr rfl) (.inr rfl) (.inl h_host) (.inr rfl) (.inr rfl) (.inl h_rcd) (.inl h_key) (.inl h_tamp) (.inr rfl) (.inr rfl) (.inr rfl); try dsimp only)

theorem State.gateWrite_only {pt : Parts} (h_rf : pt.rf = true) (h_clk : pt.clk = true) {s₀ s : State} (h : Only pt s₀ s) (port : Nat) (val : Word) : Only pt s₀ (State.gateWrite s port val) := by
  unfold State.gateWrite
  try dsimp only
  repeat' first | (with_reducible first | assumption | apply State.wr_only h_rf | apply each_only | apply foldl_only) | intro _ _ _ | split | (refine Only.upd ?_ (.inr rfl) (.inr rfl) (.inr rfl) (.inl h_rf) (.inr rfl) (.inr rfl) (.inr rfl) (.inr rfl) (.inr rfl) (.inr rfl) (.inr rfl) (.inr rfl) (.inr rfl) (.inr rfl) (.inr rfl) (.inr rfl) (.inr rfl) (.inr rfl) (.inr rfl) (.inr rfl) (.inr rfl) (.inr rfl) (.inr rfl) (.inl h_clk) (.inr rfl) (.inr rfl); try dsimp only)

theorem State.applyClk_only {pt : Parts} (h_rf : pt.rf = true) (h_clk : pt.clk = true) {s₀ s : State} (h : Only pt s₀ s) (src : Src) (o : Nat) (r : RegSpec) (val : Word) : Only pt s₀ (State.applyClk s src o r val) := by
  unfold State.applyClk
  try dsimp only
  repeat' first | (with_reducible first | assumption | apply State.gateWrite_only h_rf h_clk | apply State.storeReg_only h_rf | apply each_only | apply foldl_only) | intro _ _ _ | split | (refine Only.upd ?_ (.inr rfl) (.inr rfl) (.inr rfl) (.inl h_rf) (.inr rfl) (.inr rfl) (.inr rfl) (.inr rfl) (.inr rfl) (.inr rfl) (.inr rfl) (.inr rfl) (.inr rfl) (.inr rfl) (.inr rfl) (.inr rfl) (.inr rfl) (.inr rfl) (.inr rfl) (.inr rfl) (.inr rfl) (.inr rfl) (.inr rfl) (.inl h_clk) (.inr rfl) (.inr rfl); try dsimp only)

theorem State.ovrWrite_only {pt : Parts} (h_rf : pt.rf = true) (h_sys : pt.sys = true) {s₀ s : State} (h : Only pt s₀ s) (val : Word) : Only pt s₀ (State.ovrWrite s val) := by
  unfold State.ovrWrite
  try dsimp only
  repeat' first | (with_reducible first | assumption | apply State.wr_only h_rf | apply each_only | apply foldl_only) | intro _ _ _ | split | (refine Only.upd ?_ (.inr rfl) (.inr rfl) (.inr rfl) (.inl h_rf) (.inr rfl) (.inr rfl) (.inr rfl) (.inr rfl) (.inr rfl) (.inr rfl) (.inr rfl) (.inr rfl) (.inr rfl) (.inr rfl) (.inr rfl) (.inr rfl) (.inr rfl) (.inr rfl) (.inr rfl) (.inr rfl) (.inr rfl) (.inr rfl) (.inr rfl) (.inr rfl) (.inl h_sys) (.inr rfl); try dsimp only)

theorem State.profData_only {pt : Parts} (h_rf : pt.rf = true) (h_sys : pt.sys = true) {s₀ s : State} (h : Only pt s₀ s) (val : Word) : Only pt s₀ (State.profData s val) := by
  unfold State.profData
  try dsimp only
  repeat' first | (with_reducible first | assumption | apply State.wn_only h_rf | apply each_only | apply foldl_only) | intro _ _ _ | split | (refine Only.upd ?_ (.inr rfl) (.inr rfl) (.inr rfl) (.inl h_rf) (.inr rfl) (.inr rfl) (.inr rfl) (.inr rfl) (.inr rfl) (.inr rfl) (.inr rfl) (.inr rfl) (.inr rfl) (.inr rfl) (.inr rfl) (.inr rfl) (.inr rfl) (.inr rfl) (.inr rfl) (.inr rfl) (.inr rfl) (.inr rfl) (.inr rfl) (.inr rfl) (.inl h_sys) (.inr rfl); try dsimp only)

theorem State.pwrCmd_only {pt : Parts} (h_rf : pt.rf = true) (h_irqNow : pt.irqNow = true) (h_drv : pt.drv = true) (h_sch : pt.sch = true) (h_bid : pt.bid = true) (h_doorF : pt.doorF = true) (h_doorR : pt.doorR = true) (h_el : pt.el = true) (h_can : pt.can = true) (h_part : pt.part = true) (h_rcd : pt.rcd = true) (h_sys : pt.sys = true) {s₀ s : State} (h : Only pt s₀ s) (val : Word) : Only pt s₀ (State.pwrCmd s val) := by
  unfold State.pwrCmd
  try dsimp only
  repeat' first | (with_reducible first | assumption | apply State.parkNow_only h_rf h_irqNow h_bid h_doorF h_doorR h_can h_sys | apply State.parkEnd_only h_rf h_irqNow h_bid h_can h_sys | apply State.deepNow_only h_rf h_irqNow h_drv h_sch h_bid h_doorF h_doorR h_el h_can h_part h_rcd h_sys | apply each_only | apply foldl_only) | intro _ _ _ | split | dsimp only

theorem State.applyPwr_only {pt : Parts} (h_rf : pt.rf = true) (h_irqNow : pt.irqNow = true) (h_drv : pt.drv = true) (h_sch : pt.sch = true) (h_bid : pt.bid = true) (h_doorF : pt.doorF = true) (h_doorR : pt.doorR = true) (h_el : pt.el = true) (h_can : pt.can = true) (h_part : pt.part = true) (h_rcd : pt.rcd = true) (h_sys : pt.sys = true) {s₀ s : State} (h : Only pt s₀ s) (o : Nat) (r : RegSpec) (val : Word) : Only pt s₀ (State.applyPwr s o r val) := by
  unfold State.applyPwr
  try dsimp only
  repeat' first | (with_reducible first | assumption | apply State.pwrCmd_only h_rf h_irqNow h_drv h_sch h_bid h_doorF h_doorR h_el h_can h_part h_rcd h_sys | apply State.storeReg_only h_rf | apply each_only | apply foldl_only) | intro _ _ _ | split | (refine Only.upd ?_ (.inr rfl) (.inr rfl) (.inr rfl) (.inl h_rf) (.inl h_irqNow) (.inr rfl) (.inr rfl) (.inr rfl) (.inl h_drv) (.inl h_sch) (.inl h_bid) (.inl h_doorF) (.inl h_doorR) (.inl h_el) (.inr rfl) (.inl h_can) (.inr rfl) (.inr rfl) (.inr rfl) (.inl h_part) (.inl h_rcd) (.inr rfl) (.inr rfl) (.inr rfl) (.inl h_sys) (.inr rfl); try dsimp only)

theorem State.applyCanWin_only {pt : Parts} (h_rf : pt.rf = true) (h_can : pt.can = true) {s₀ s : State} (h : Only pt s₀ s) (a : Nat) (val : Word) : Only pt s₀ (State.applyCanWin s a val) := by
  unfold State.applyCanWin
  try dsimp only
  repeat' first | (with_reducible first | assumption | apply State.wr_only h_rf | apply State.canClrNew_only h_can | apply State.canClrLost_only h_can | apply each_only | apply foldl_only) | intro _ _ _ | split | (refine Only.upd ?_ (.inr rfl) (.inr rfl) (.inr rfl) (.inl h_rf) (.inr rfl) (.inr rfl) (.inr rfl) (.inr rfl) (.inr rfl) (.inr rfl) (.inr rfl) (.inr rfl) (.inr rfl) (.inr rfl) (.inr rfl) (.inl h_can) (.inr rfl) (.inr rfl) (.inr rfl) (.inr rfl) (.inr rfl) (.inr rfl) (.inr rfl) (.inr rfl) (.inr rfl) (.inr rfl); try dsimp only)

theorem State.applyCallAt_only {pt : Parts} (h_rf : pt.rf = true) (h_irqNow : pt.irqNow = true) (h_sch : pt.sch = true) (h_bid : pt.bid = true) (h_doorF : pt.doorF = true) (h_doorR : pt.doorR = true) (h_can : pt.can = true) (h_sys : pt.sys = true) {s₀ s : State} (h : Only pt s₀ s) (c : CallArea) (val : Word) : Only pt s₀ (State.applyCallAt s c val) := by
  unfold State.applyCallAt
  try dsimp only
  repeat' first | (with_reducible first | assumption | apply State.parkEnd_only h_rf h_irqNow h_bid h_can h_sys | apply State.callSetNow_only h_rf h_irqNow h_sch h_bid h_doorF h_doorR | apply State.callClrNow_only h_rf h_irqNow h_sch h_bid | apply each_only | apply foldl_only) | intro _ _ _ | split | (refine Only.upd ?_ (.inr rfl) (.inr rfl) (.inr rfl) (.inl h_rf) (.inl h_irqNow) (.inr rfl) (.inr rfl) (.inr rfl) (.inr rfl) (.inl h_sch) (.inl h_bid) (.inl h_doorF) (.inl h_doorR) (.inr rfl) (.inr rfl) (.inl h_can) (.inr rfl) (.inr rfl) (.inr rfl) (.inr rfl) (.inr rfl) (.inr rfl) (.inr rfl) (.inr rfl) (.inl h_sys) (.inr rfl); try dsimp only)

theorem State.applyCall_only {pt : Parts} (h_rf : pt.rf = true) (h_irqNow : pt.irqNow = true) (h_sch : pt.sch = true) (h_bid : pt.bid = true) (h_doorF : pt.doorF = true) (h_doorR : pt.doorR = true) (h_can : pt.can = true) (h_sys : pt.sys = true) {s₀ s : State} (h : Only pt s₀ s) (a : Nat) (val : Word) : Only pt s₀ (State.applyCall s a val) := by
  unfold State.applyCall
  try dsimp only
  repeat' first | (with_reducible first | assumption | apply State.applyCallAt_only h_rf h_irqNow h_sch h_bid h_doorF h_doorR h_can h_sys | apply each_only | apply foldl_only) | intro _ _ _ | split | dsimp only

theorem State.applyLt_only {pt : Parts} (h_rf : pt.rf = true) (h_irqNow : pt.irqNow = true) (h_sch : pt.sch = true) (h_bid : pt.bid = true) (h_el : pt.el = true) {s₀ s : State} (h : Only pt s₀ s) (a : Nat) (val : Word) : Only pt s₀ (State.applyLt s a val) := by
  unfold State.applyLt
  try dsimp only
  repeat' first | (with_reducible first | assumption | apply State.ltWrite_only h_rf h_irqNow h_sch h_bid | apply State.elDigest_only h_el | apply each_only | apply foldl_only) | intro _ _ _ | split | dsimp only

theorem State.refuse_only {pt : Parts} (h_rf : pt.rf = true) (h_irqNow : pt.irqNow = true) (h_mot : pt.mot = true) (h_drv : pt.drv = true) (h_sch : pt.sch = true) (h_doorF : pt.doorF = true) (h_doorR : pt.doorR = true) {s₀ s : State} (h : Only pt s₀ s) (src : Src) (a : Nat) (val : Word) (code : Nat) : Only pt s₀ (State.refuse s src a val code) := by
  unfold State.refuse
  try dsimp only
  repeat' first | (with_reducible first | assumption | apply State.reject_only h_rf h_irqNow | apply State.motCmd_only h_rf h_irqNow h_mot h_drv h_sch h_doorF h_doorR | apply State.raise_only h_rf h_irqNow | apply State.ltFaultNote_only h_rf | apply State.relevBlock_only h_rf h_mot | apply each_only | apply foldl_only) | intro _ _ _ | split | dsimp only

end Sys2Proof.Machine
end

