-- ==== Sys2Proof/Laws/OnlyHostOps.lean ====
section
/-! SUPPORT. Which parts of the state the operations of Machine/HostOps.lean leave the same. -/

set_option linter.unusedTactic false
set_option linter.unreachableTactic false

namespace Sys2Proof.Machine

theorem State.defer__only {pt : Parts} (h_host : pt.host = true) {s₀ s : State} (h : Only pt s₀ s) (d : Deferred) : Only pt s₀ (State.defer_ s d) := by
  unfold State.defer_
  try dsimp only
  repeat' first | (with_reducible first | assumption  | apply each_only | apply foldl_only) | intro _ _ _ | split | (refine Only.upd ?_ (.inr rfl) (.inr rfl) (.inr rfl) (.inr rfl) (.inr rfl) (.inr rfl) (.inr rfl) (.inr rfl) (.inr rfl) (.inr rfl) (.inr rfl) (.inr rfl) (.inr rfl) (.inr rfl) (.inr rfl) (.inr rfl) (.inr rfl) (.inl h_host) (.inr rfl) (.inr rfl) (.inr rfl) (.inr rfl) (.inr rfl) (.inr rfl) (.inr rfl) (.inr rfl); try dsimp only)

theorem State.refuseLater_only {pt : Parts} (h_rf : pt.rf = true) (h_irqNow : pt.irqNow = true) (h_mot : pt.mot = true) (h_drv : pt.drv = true) (h_sch : pt.sch = true) (h_doorF : pt.doorF = true) (h_doorR : pt.doorR = true) (h_host : pt.host = true) {s₀ s : State} (h : Only pt s₀ s) (src : Src) (a : Nat) (val : Word) (c : Nat) : Only pt s₀ (State.refuseLater s src a val c) := by
  unfold State.refuseLater
  try dsimp only
  repeat' first | (with_reducible first | assumption | apply State.defer__only h_host | apply State.refuse_only h_rf h_irqNow h_mot h_drv h_sch h_doorF h_doorR | apply each_only | apply foldl_only) | intro _ _ _ | split | dsimp only

theorem State.dmaFault_only {pt : Parts} (h_rf : pt.rf = true) (h_irqNow : pt.irqNow = true) {s₀ s : State} (h : Only pt s₀ s) (m : Nat) (a : Nat) (code : Nat) (bytes : Nat) : Only pt s₀ (State.dmaFault s m a code bytes) := by
  unfold State.dmaFault
  try dsimp only
  repeat' first | (with_reducible first | assumption | apply State.wn_only h_rf | apply State.wr_only h_rf | apply State.raise_only h_rf h_irqNow | apply each_only | apply foldl_only) | intro _ _ _ | split | dsimp only

theorem State.burstStop_only {pt : Parts} (h_rf : pt.rf = true) (h_irqNow : pt.irqNow = true) {s₀ s : State} (h : Only pt s₀ s) (src : Src) (a : Nat) (done : Nat) (words : Nat) (status : Nat) (write : Bool) : Only pt s₀ (State.burstStop s src a done words status write) := by
  unfold State.burstStop
  try dsimp only
  repeat' first | (with_reducible first | assumption | apply State.dmaFault_only h_rf h_irqNow | apply each_only | apply foldl_only) | intro _ _ _ | split | dsimp only

theorem State.charge_only {pt : Parts} (h_host : pt.host = true) (h_xbar : pt.xbar = true) {s₀ s : State} (h : Only pt s₀ s) (n : Nat) : Only pt s₀ (State.charge s n) := by
  unfold State.charge
  try dsimp only
  repeat' first | (with_reducible first | assumption  | apply each_only | apply foldl_only) | intro _ _ _ | split | (refine Only.upd ?_ (.inr rfl) (.inr rfl) (.inr rfl) (.inr rfl) (.inr rfl) (.inr rfl) (.inr rfl) (.inr rfl) (.inr rfl) (.inr rfl) (.inr rfl) (.inr rfl) (.inr rfl) (.inr rfl) (.inr rfl) (.inr rfl) (.inr rfl) (.inl h_host) (.inr rfl) (.inr rfl) (.inr rfl) (.inr rfl) (.inr rfl) (.inr rfl) (.inr rfl) (.inl h_xbar); try dsimp only)

theorem State.setSess_only {pt : Parts} (h_host : pt.host = true) {s₀ s : State} (h : Only pt s₀ s) (i : Nat) (x : Session) : Only pt s₀ (State.setSess s i x) := by
  unfold State.setSess
  try dsimp only
  repeat' first | (with_reducible first | assumption  | apply each_only | apply foldl_only) | intro _ _ _ | split | (refine Only.upd ?_ (.inr rfl) (.inr rfl) (.inr rfl) (.inr rfl) (.inr rfl) (.inr rfl) (.inr rfl) (.inr rfl) (.inr rfl) (.inr rfl) (.inr rfl) (.inr rfl) (.inr rfl) (.inr rfl) (.inr rfl) (.inr rfl) (.inr rfl) (.inl h_host) (.inr rfl) (.inr rfl) (.inr rfl) (.inr rfl) (.inr rfl) (.inr rfl) (.inr rfl) (.inr rfl); try dsimp only)

theorem State.ethSend_only {pt : Parts} (h_rf : pt.rf = true) (h_host : pt.host = true) {s₀ s : State} (h : Only pt s₀ s) (n : Nat) (kind : Nat) (peer : List Byte) (payload : List Byte) : Only pt s₀ (State.ethSend s n kind peer payload) := by
  unfold State.ethSend
  try dsimp only
  repeat' first | (with_reducible first | assumption | apply State.bump_only h_rf | apply each_only | apply foldl_only) | intro _ _ _ | split | (refine Only.upd ?_ (.inr rfl) (.inr rfl) (.inr rfl) (.inl h_rf) (.inr rfl) (.inr rfl) (.inr rfl) (.inr rfl) (.inr rfl) (.inr rfl) (.inr rfl) (.inr rfl) (.inr rfl) (.inr rfl) (.inr rfl) (.inr rfl) (.inr rfl) (.inl h_host) (.inr rfl) (.inr rfl) (.inr rfl) (.inr rfl) (.inr rfl) (.inr rfl) (.inr rfl) (.inr rfl); try dsimp only)

theorem State.lrpSend_only {pt : Parts} (h_rf : pt.rf = true) (h_irqNow : pt.irqNow = true) (h_host : pt.host = true) {s₀ s : State} (h : Only pt s₀ s) (via : Via) (resp : List Byte) : Only pt s₀ (State.lrpSend s via resp) := by
  unfold State.lrpSend
  try dsimp only
  repeat' first | (with_reducible first | assumption | apply State.ethSend_only h_rf h_host | apply State.setSess_only h_host | apply State.sessEnd_only h_rf h_irqNow h_host | apply each_only | apply foldl_only) | intro _ _ _ | split | (refine Only.upd ?_ (.inr rfl) (.inr rfl) (.inr rfl) (.inl h_rf) (.inl h_irqNow) (.inr rfl) (.inr rfl) (.inr rfl) (.inr rfl) (.inr rfl) (.inr rfl) (.inr rfl) (.inr rfl) (.inr rfl) (.inr rfl) (.inr rfl) (.inr rfl) (.inl h_host) (.inr rfl) (.inr rfl) (.inr rfl) (.inr rfl) (.inr rfl) (.inr rfl) (.inr rfl) (.inr rfl); try dsimp only)

theorem State.keepLast_only {pt : Parts} (h_host : pt.host = true) {s₀ s : State} (h : Only pt s₀ s) (via : Via) (q : List Byte) (resp : List Byte) : Only pt s₀ (State.keepLast s via q resp) := by
  unfold State.keepLast
  try dsimp only
  repeat' first | (with_reducible first | assumption | apply State.setSess_only h_host | apply each_only | apply foldl_only) | intro _ _ _ | split | (refine Only.upd ?_ (.inr rfl) (.inr rfl) (.inr rfl) (.inr rfl) (.inr rfl) (.inr rfl) (.inr rfl) (.inr rfl) (.inr rfl) (.inr rfl) (.inr rfl) (.inr rfl) (.inr rfl) (.inr rfl) (.inr rfl) (.inr rfl) (.inr rfl) (.inl h_host) (.inr rfl) (.inr rfl) (.inr rfl) (.inr rfl) (.inr rfl) (.inr rfl) (.inr rfl) (.inr rfl); try dsimp only)

theorem State.lrpRespond_only {pt : Parts} (h_rf : pt.rf = true) (h_irqNow : pt.irqNow = true) (h_host : pt.host = true) {s₀ s : State} (h : Only pt s₀ s) (via : Via) (q : List Byte) (resp : List Byte) : Only pt s₀ (State.lrpRespond s via q resp) := by
  unfold State.lrpRespond
  try dsimp only
  repeat' first | (with_reducible first | assumption | apply State.keepLast_only h_host | apply State.lrpSend_only h_rf h_irqNow h_host | apply each_only | apply foldl_only) | intro _ _ _ | split | dsimp only

theorem State.writeEnded_only {pt : Parts} (h_rf : pt.rf = true) (h_irqNow : pt.irqNow = true) (h_host : pt.host = true) {s₀ s : State} (h : Only pt s₀ s) (via : Via) (q : List Byte) (src : Src) (done : Nat) (status : Nat) : Only pt s₀ (State.writeEnded s via q src done status) := by
  unfold State.writeEnded
  try dsimp only
  repeat' first | (with_reducible first | assumption | apply State.burstStop_only h_rf h_irqNow | apply State.lrpRespond_only h_rf h_irqNow h_host | apply each_only | apply foldl_only) | intro _ _ _ | split | dsimp only

theorem State.openSession_only {pt : Parts} (h_fresh : pt.fresh = true) (h_host : pt.host = true) {s₀ s : State} (h : Only pt s₀ s) (port : Nat) (peer : List Byte) (q : List Byte) : Only pt s₀ (State.openSession s port peer q).1 := by
  unfold State.openSession
  try dsimp only
  repeat' first | (with_reducible first | assumption | apply State.draw_only h_fresh | apply State.setSess_only h_host | apply each_only | apply foldl_only) | intro _ _ _ | split | (refine Only.upd ?_ (.inr rfl) (.inr rfl) (.inl h_fresh) (.inr rfl) (.inr rfl) (.inr rfl) (.inr rfl) (.inr rfl) (.inr rfl) (.inr rfl) (.inr rfl) (.inr rfl) (.inr rfl) (.inr rfl) (.inr rfl) (.inr rfl) (.inr rfl) (.inl h_host) (.inr rfl) (.inr rfl) (.inr rfl) (.inr rfl) (.inr rfl) (.inr rfl) (.inr rfl) (.inr rfl); try dsimp only)

theorem State.openNow_only {pt : Parts} (h_fresh : pt.fresh = true) (h_rf : pt.rf = true) (h_irqNow : pt.irqNow = true) (h_host : pt.host = true) (h_xbar : pt.xbar = true) {s₀ s : State} (h : Only pt s₀ s) (via : Via) (q : List Byte) : Only pt s₀ (State.openNow s via q) := by
  unfold State.openNow
  try dsimp only
  repeat' first | (with_reducible first | assumption | apply State.charge_only h_host h_xbar | apply State.openSession_only h_fresh h_host | apply State.lrpRespond_only h_rf h_irqNow h_host | apply each_only | apply foldl_only) | intro _ _ _ | split | dsimp only

theorem State.overrun8_only {pt : Parts} (h_rf : pt.rf = true) (h_irqNow : pt.irqNow = true) {s₀ s : State} (h : Only pt s₀ s) : Only pt s₀ (State.overrun8 s) := by
  unfold State.overrun8
  try dsimp only
  repeat' first | (with_reducible first | assumption | apply State.wf__only h_rf | apply State.raise_only h_rf h_irqNow | apply each_only | apply foldl_only) | intro _ _ _ | split | dsimp only

theorem State.lrpFault_only {pt : Parts} (h_rf : pt.rf = true) (h_irqNow : pt.irqNow = true) (h_host : pt.host = true) {s₀ s : State} (h : Only pt s₀ s) (via : Via) (q : List Byte) (op : Bool) : Only pt s₀ (State.lrpFault s via q op) := by
  unfold State.lrpFault
  try dsimp only
  repeat' first | (with_reducible first | assumption | apply State.bump_only h_rf | apply State.lrpSend_only h_rf h_irqNow h_host | apply State.raise_only h_rf h_irqNow | apply each_only | apply foldl_only) | intro _ _ _ | split | dsimp only

theorem State.authFail_only {pt : Parts} (h_rf : pt.rf = true) (h_irqNow : pt.irqNow = true) {s₀ s : State} (h : Only pt s₀ s) : Only pt s₀ (State.authFail s) := by
  unfold State.authFail
  try dsimp only
  repeat' first | (with_reducible first | assumption | apply State.bump_only h_rf | apply State.raise_only h_rf h_irqNow | apply each_only | apply foldl_only) | intro _ _ _ | split | dsimp only

theorem State.ethUnknown_only {pt : Parts} (h_rf : pt.rf = true) {s₀ s : State} (h : Only pt s₀ s) (n : Nat) : Only pt s₀ (State.ethUnknown s n) := by
  unfold State.ethUnknown
  try dsimp only
  repeat' first | (with_reducible first | assumption | apply State.bump_only h_rf | apply each_only | apply foldl_only) | intro _ _ _ | split | dsimp only

theorem State.checkedDrop_only {pt : Parts} (h_rf : pt.rf = true) (h_irqNow : pt.irqNow = true) (h_mot : pt.mot = true) (h_drv : pt.drv = true) (h_sch : pt.sch = true) (h_doorF : pt.doorF = true) (h_doorR : pt.doorR = true) (h_host : pt.host = true) {s₀ s : State} (h : Only pt s₀ s) (d : Deferred) : Only pt s₀ (State.checkedDrop s d) := by
  unfold State.checkedDrop
  try dsimp only
  repeat' first | (with_reducible first | assumption | apply State.refuse_only h_rf h_irqNow h_mot h_drv h_sch h_doorF h_doorR | apply State.writeEnded_only h_rf h_irqNow h_host | apply each_only | apply foldl_only) | intro _ _ _ | split | (refine Only.upd ?_ (.inr rfl) (.inr rfl) (.inr rfl) (.inl h_rf) (.inl h_irqNow) (.inr rfl) (.inr rfl) (.inl h_mot) (.inl h_drv) (.inl h_sch) (.inr rfl) (.inl h_doorF) (.inl h_doorR) (.inr rfl) (.inr rfl) (.inr rfl) (.inr rfl) (.inl h_host) (.inr rfl) (.inr rfl) (.inr rfl) (.inr rfl) (.inr rfl) (.inr rfl) (.inr rfl) (.inr rfl); try dsimp only)

end Sys2Proof.Machine
end

