-- ==== Sys2Proof/Laws/OnlyTickOps.lean ====
section
/-! SUPPORT. Which parts of the state the operations of Machine/TickOps.lean leave the same. -/

set_option linter.unusedTactic false
set_option linter.unreachableTactic false

namespace Sys2Proof.Machine

theorem State.tickBegin_only {pt : Parts} (h_tick : pt.tick = true) (h_baseTick : pt.baseTick = true) (h_irqNow : pt.irqNow = true) (h_can : pt.can = true) (h_fiog : pt.fiog = true) (h_host : pt.host = true) (h_part : pt.part = true) (h_tamp : pt.tamp = true) (h_clk : pt.clk = true) (h_sys : pt.sys = true) (h_xbar : pt.xbar = true) {s₀ s : State} (h : Only pt s₀ s) : Only pt s₀ (State.tickBegin s) := by
  unfold State.tickBegin
  try dsimp only
  repeat' first | (with_reducible first | assumption  | apply each_only | apply foldl_only) | intro _ _ _ | split | (refine Only.upd ?_ (.inl h_tick) (.inl h_baseTick) (.inr rfl) (.inr rfl) (.inl h_irqNow) (.inr rfl) (.inr rfl) (.inr rfl) (.inr rfl) (.inr rfl) (.inr rfl) (.inr rfl) (.inr rfl) (.inr rfl) (.inr rfl) (.inl h_can) (.inl h_fiog) (.inl h_host) (.inr rfl) (.inl h_part) (.inr rfl) (.inr rfl) (.inl h_tamp) (.inl h_clk) (.inl h_sys) (.inl h_xbar); try dsimp only)

theorem State.holdLevel_only {pt : Parts} (h_rf : pt.rf = true) (h_irqNow : pt.irqNow = true) (h_mot : pt.mot = true) (h_drv : pt.drv = true) (h_el : pt.el = true) (h_rcd : pt.rcd = true) {s₀ s : State} (h : Only pt s₀ s) : Only pt s₀ (State.holdLevel s) := by
  unfold State.holdLevel
  try dsimp only
  repeat' first | (with_reducible first | assumption | apply State.motHoldNow_only h_rf h_irqNow h_mot h_drv h_el h_rcd | apply each_only | apply foldl_only) | intro _ _ _ | split | dsimp only

theorem State.trunDue_only {pt : Parts} (h_rf : pt.rf = true) (h_irqNow : pt.irqNow = true) (h_mot : pt.mot = true) {s₀ s : State} (h : Only pt s₀ s) : Only pt s₀ (State.trunDue s) := by
  unfold State.trunDue
  try dsimp only
  repeat' first | (with_reducible first | assumption | apply State.trunNow_only h_rf h_irqNow h_mot | apply each_only | apply foldl_only) | intro _ _ _ | split | dsimp only

theorem State.phaseFusion_only {pt : Parts} (h_rf : pt.rf = true) (h_irqNow : pt.irqNow = true) (h_pos : pt.pos = true) (h_lwb : pt.lwb = true) (h_mot : pt.mot = true) (h_drv : pt.drv = true) (h_doorF : pt.doorF = true) (h_doorR : pt.doorR = true) (h_el : pt.el = true) (h_can : pt.can = true) (h_part : pt.part = true) (h_rcd : pt.rcd = true) {s₀ s : State} (h : Only pt s₀ s) (i : TickIn) : Only pt s₀ (State.phaseFusion s i) := by
  unfold State.phaseFusion
  try dsimp only
  repeat' first | (with_reducible first | assumption | apply State.homeChatter_only h_rf h_irqNow h_mot h_drv h_el h_rcd | apply State.homeCapture_only h_rf h_irqNow h_pos h_mot h_drv h_el h_rcd | apply State.fusion_only h_rf h_irqNow h_pos h_lwb h_mot h_drv h_doorF h_doorR h_el h_can h_part h_rcd | apply State.followNote_only h_mot | apply State.motWaits_only h_mot | apply each_only | apply foldl_only) | intro _ _ _ | split | dsimp only

theorem State.stopEvalHeld_only {pt : Parts} (h_rf : pt.rf = true) (h_irqNow : pt.irqNow = true) (h_mot : pt.mot = true) (h_sch : pt.sch = true) (h_rcd : pt.rcd = true) {s₀ s : State} (h : Only pt s₀ s) (before : Mot) : Only pt s₀ (State.stopEvalHeld s before) := by
  unfold State.stopEvalHeld
  try dsimp only
  repeat' first | (with_reducible first | assumption | apply State.stopEval_only h_rf h_irqNow h_mot h_sch | apply State.motTrip_only h_rf h_irqNow h_mot h_rcd | apply State.spFollow_only h_mot | apply each_only | apply foldl_only) | intro _ _ _ | split | (refine Only.upd ?_ (.inr rfl) (.inr rfl) (.inr rfl) (.inl h_rf) (.inl h_irqNow) (.inr rfl) (.inr rfl) (.inl h_mot) (.inr rfl) (.inl h_sch) (.inr rfl) (.inr rfl) (.inr rfl) (.inr rfl) (.inr rfl) (.inr rfl) (.inr rfl) (.inr rfl) (.inr rfl) (.inr rfl) (.inl h_rcd) (.inr rfl) (.inr rfl) (.inr rfl) (.inr rfl) (.inr rfl); try dsimp only)

theorem State.phaseStop_only {pt : Parts} (h_rf : pt.rf = true) (h_irqNow : pt.irqNow = true) (h_mot : pt.mot = true) (h_sch : pt.sch = true) (h_bid : pt.bid = true) (h_doorF : pt.doorF = true) (h_doorR : pt.doorR = true) (h_rcd : pt.rcd = true) {s₀ s : State} (h : Only pt s₀ s) (before : Mot) : Only pt s₀ (State.phaseStop s before) := by
  unfold State.phaseStop
  try dsimp only
  repeat' first | (with_reducible first | assumption | apply State.stopEvalHeld_only h_rf h_irqNow h_mot h_sch h_rcd | apply State.nocallNote_only h_sch | apply State.bypassNote_only h_rf h_irqNow h_sch h_bid | apply State.oosSafeCheck_only h_rf h_irqNow h_sch h_bid h_doorF h_doorR | apply each_only | apply foldl_only) | intro _ _ _ | split | dsimp only

theorem State.relevSettle_only {pt : Parts} (h_rf : pt.rf = true) (h_irqNow : pt.irqNow = true) (h_mot : pt.mot = true) (h_drv : pt.drv = true) (h_sch : pt.sch = true) (h_doorF : pt.doorF = true) (h_doorR : pt.doorR = true) (h_rcd : pt.rcd = true) {s₀ s : State} (h : Only pt s₀ s) : Only pt s₀ (State.relevSettle s) := by
  unfold State.relevSettle
  try dsimp only
  repeat' first | (with_reducible first | assumption | apply State.relevStart_only h_rf h_irqNow h_mot h_drv h_rcd | apply State.schRelevFail_only h_rf h_irqNow h_sch h_doorF h_doorR | apply each_only | apply foldl_only) | intro _ _ _ | split | (refine Only.upd ?_ (.inr rfl) (.inr rfl) (.inr rfl) (.inl h_rf) (.inl h_irqNow) (.inr rfl) (.inr rfl) (.inl h_mot) (.inl h_drv) (.inl h_sch) (.inr rfl) (.inl h_doorF) (.inl h_doorR) (.inr rfl) (.inr rfl) (.inr rfl) (.inr rfl) (.inr rfl) (.inr rfl) (.inr rfl) (.inl h_rcd) (.inr rfl) (.inr rfl) (.inr rfl) (.inr rfl) (.inr rfl); try dsimp only)

theorem State.tripResolve_only {pt : Parts} (h_rf : pt.rf = true) (h_irqNow : pt.irqNow = true) (h_mot : pt.mot = true) (h_sch : pt.sch = true) (h_doorF : pt.doorF = true) (h_doorR : pt.doorR = true) {s₀ s : State} (h : Only pt s₀ s) : Only pt s₀ (State.tripResolve s) := by
  unfold State.tripResolve
  try dsimp only
  repeat' first | (with_reducible first | assumption | apply State.motResolve_only h_rf h_irqNow h_mot | apply State.schReached_only h_rf h_irqNow h_sch h_doorF h_doorR | apply each_only | apply foldl_only) | intro _ _ _ | split | dsimp only

theorem State.phaseSet_only {pt : Parts} (h_rf : pt.rf = true) (h_irqNow : pt.irqNow = true) (h_pos : pt.pos = true) (h_mot : pt.mot = true) (h_drv : pt.drv = true) (h_sch : pt.sch = true) (h_bid : pt.bid = true) (h_doorF : pt.doorF = true) (h_doorR : pt.doorR = true) (h_el : pt.el = true) (h_rcd : pt.rcd = true) {s₀ s : State} (h : Only pt s₀ s) : Only pt s₀ (State.phaseSet s) := by
  unfold State.phaseSet
  try dsimp only
  repeat' first | (with_reducible first | assumption | apply State.relevSettle_only h_rf h_irqNow h_mot h_drv h_sch h_doorF h_doorR h_rcd | apply State.tractionLatch_only h_rf h_irqNow h_pos h_mot h_drv h_sch h_bid h_doorF h_doorR h_el h_rcd | apply State.holdLevel_only h_rf h_irqNow h_mot h_drv h_el h_rcd | apply State.motSetPoint_only h_rf h_irqNow h_mot | apply State.trunDue_only h_rf h_irqNow h_mot | apply State.drvPeriod_only h_rf h_irqNow h_drv | apply State.holdingEnd_only h_drv | apply State.tripResolve_only h_rf h_irqNow h_mot h_sch h_doorF h_doorR | apply each_only | apply foldl_only) | intro _ _ _ | split | dsimp only

theorem State.phaseDoors_only {pt : Parts} (h_rf : pt.rf = true) (h_irqNow : pt.irqNow = true) (h_mot : pt.mot = true) (h_doorF : pt.doorF = true) (h_doorR : pt.doorR = true) {s₀ s : State} (h : Only pt s₀ s) : Only pt s₀ (State.phaseDoors s) := by
  unfold State.phaseDoors
  try dsimp only
  repeat' first | (with_reducible first | assumption | apply State.doorMaster_only h_rf h_irqNow h_doorF h_doorR | apply State.doorProfile_only h_rf h_irqNow h_doorF h_doorR | apply State.proofStep_only h_rf h_irqNow h_mot h_doorF h_doorR | apply each_only | apply foldl_only) | intro _ _ _ | split | dsimp only

end Sys2Proof.Machine
end

