-- ==== Sys2Proof/Laws/OnlyElectrum.lean ====
section
/-! SUPPORT. Which parts of the state the operations of Machine/Electrum.lean leave the same. -/

set_option linter.unusedTactic false
set_option linter.unreachableTactic false

namespace Sys2Proof.Machine

theorem State.deadlineMiss_only {pt : Parts} (h_rf : pt.rf = true) (h_irqNow : pt.irqNow = true) (h_pos : pt.pos = true) (h_lwb : pt.lwb = true) (h_mot : pt.mot = true) (h_drv : pt.drv = true) (h_doorF : pt.doorF = true) (h_doorR : pt.doorR = true) (h_el : pt.el = true) (h_can : pt.can = true) (h_part : pt.part = true) (h_rcd : pt.rcd = true) (h_sys : pt.sys = true) {s₀ s : State} (h : Only pt s₀ s) : Only pt s₀ (State.deadlineMiss s) := by
  unfold State.deadlineMiss
  try dsimp only
  repeat' first | (with_reducible first | assumption | apply State.raise_only h_rf h_irqNow | apply State.tripModule_only h_rf h_irqNow h_pos h_lwb h_mot h_drv h_doorF h_doorR h_el h_can h_part h_rcd | apply each_only | apply foldl_only) | intro _ _ _ | split | (refine Only.upd ?_ (.inr rfl) (.inr rfl) (.inr rfl) (.inl h_rf) (.inl h_irqNow) (.inl h_pos) (.inl h_lwb) (.inl h_mot) (.inl h_drv) (.inr rfl) (.inr rfl) (.inl h_doorF) (.inl h_doorR) (.inl h_el) (.inr rfl) (.inl h_can) (.inr rfl) (.inr rfl) (.inr rfl) (.inl h_part) (.inl h_rcd) (.inr rfl) (.inr rfl) (.inr rfl) (.inl h_sys) (.inr rfl); try dsimp only)

theorem execPhaseDeadlineMiss_only (master : Nat) (s : State) : ∃ t, execPhaseDeadlineMiss master s = .next t ∧ Only { rf := true, irqNow := true, pos := true, lwb := true, mot := true, drv := true, doorF := true, doorR := true, el := true, can := true, part := true, rcd := true, sys := true } s t := by
  have h := Only.refl { rf := true, irqNow := true, pos := true, lwb := true, mot := true, drv := true, doorF := true, doorR := true, el := true, can := true, part := true, rcd := true, sys := true } s
  have tt : true = true := rfl
  unfold execPhaseDeadlineMiss
  refine ⟨_, rfl, ?_⟩
  try dsimp only
  repeat' first | (with_reducible first | assumption | apply State.deadlineMiss_only rfl rfl rfl rfl rfl rfl rfl rfl rfl rfl rfl rfl rfl | apply each_only | apply foldl_only) | intro _ _ _ | split | dsimp only

theorem execElectrumCycle_only (i : ElIn) (s : State) : ∃ t, execElectrumCycle i s = .next t ∧ Only { rf := true, irqNow := true, pos := true, lwb := true, mot := true, drv := true, sch := true, bid := true, doorF := true, doorR := true, el := true, lsf := true, can := true, part := true, rcd := true } s t := by
  have h := Only.refl { rf := true, irqNow := true, pos := true, lwb := true, mot := true, drv := true, sch := true, bid := true, doorF := true, doorR := true, el := true, lsf := true, can := true, part := true, rcd := true } s
  have tt : true = true := rfl
  unfold execElectrumCycle
  refine ⟨_, rfl, ?_⟩
  try dsimp only
  repeat' first | (with_reducible first | assumption | apply State.elCycle_only rfl rfl rfl rfl rfl rfl rfl rfl rfl rfl rfl rfl rfl rfl rfl | apply each_only | apply foldl_only) | intro _ _ _ | split | (refine Only.upd ?_ (.inr rfl) (.inr rfl) (.inr rfl) (.inl rfl) (.inl rfl) (.inl rfl) (.inl rfl) (.inl rfl) (.inl rfl) (.inl rfl) (.inl rfl) (.inl rfl) (.inl rfl) (.inl rfl) (.inl rfl) (.inl rfl) (.inr rfl) (.inr rfl) (.inr rfl) (.inl rfl) (.inl rfl) (.inr rfl) (.inr rfl) (.inr rfl) (.inr rfl) (.inr rfl); try dsimp only)

theorem execStrobeTimeout_only (_early : Bool) (s : State) : ∃ t, execStrobeTimeout _early s = .next t ∧ Only { rf := true, irqNow := true, pos := true, lwb := true, mot := true, drv := true, doorF := true, doorR := true, el := true, can := true, part := true, rcd := true } s t := by
  have h := Only.refl { rf := true, irqNow := true, pos := true, lwb := true, mot := true, drv := true, doorF := true, doorR := true, el := true, can := true, part := true, rcd := true } s
  have tt : true = true := rfl
  unfold execStrobeTimeout
  refine ⟨_, rfl, ?_⟩
  try dsimp only
  repeat' first | (with_reducible first | assumption | apply State.trip_only rfl rfl rfl rfl rfl rfl rfl rfl rfl rfl rfl rfl | apply each_only | apply foldl_only) | intro _ _ _ | split | dsimp only

theorem execElectrumStartComplete_only (selfTestsPass : Bool) (digestA : Word) (digestB : Word) (s : State) : ∃ t, execElectrumStartComplete selfTestsPass digestA digestB s = .next t ∧ Only { rf := true, irqNow := true, pos := true, lwb := true, mot := true, drv := true, doorF := true, doorR := true, el := true, lsf := true, can := true, part := true, rcd := true } s t := by
  have h := Only.refl { rf := true, irqNow := true, pos := true, lwb := true, mot := true, drv := true, doorF := true, doorR := true, el := true, lsf := true, can := true, part := true, rcd := true } s
  have tt : true = true := rfl
  unfold execElectrumStartComplete
  refine ⟨_, rfl, ?_⟩
  try dsimp only
  repeat' first | (with_reducible first | assumption | apply State.elStart_only rfl rfl rfl rfl rfl rfl rfl rfl rfl rfl rfl rfl rfl | apply each_only | apply foldl_only) | intro _ _ _ | split | dsimp only

theorem execAutoReset_only  (s : State) : ∃ t, execAutoReset s = .next t ∧ Only { rf := true, irqNow := true, el := true } s t := by
  have h := Only.refl { rf := true, irqNow := true, el := true } s
  have tt : true = true := rfl
  unfold execAutoReset
  refine ⟨_, rfl, ?_⟩
  try dsimp only
  repeat' first | (with_reducible first | assumption | apply State.elClear_only rfl rfl rfl | apply each_only | apply foldl_only) | intro _ _ _ | split | dsimp only

theorem execKeyRstInput_only (heldMs : Nat) (s : State) : ∃ t, execKeyRstInput heldMs s = .next t ∧ Only { rf := true, irqNow := true, el := true } s t := by
  have h := Only.refl { rf := true, irqNow := true, el := true } s
  have tt : true = true := rfl
  unfold execKeyRstInput
  refine ⟨_, rfl, ?_⟩
  try dsimp only
  repeat' first | (with_reducible first | assumption | apply State.elClear_only rfl rfl rfl | apply each_only | apply foldl_only) | intro _ _ _ | split | dsimp only

theorem State.pitResetNow_only {pt : Parts} (h_rf : pt.rf = true) (h_irqNow : pt.irqNow = true) (h_el : pt.el = true) {s₀ s : State} (h : Only pt s₀ s) : Only pt s₀ (State.pitResetNow s) := by
  unfold State.pitResetNow
  try dsimp only
  repeat' first | (with_reducible first | assumption | apply State.elClear_only h_rf h_irqNow h_el | apply each_only | apply foldl_only) | intro _ _ _ | split | (refine Only.upd ?_ (.inr rfl) (.inr rfl) (.inr rfl) (.inl h_rf) (.inl h_irqNow) (.inr rfl) (.inr rfl) (.inr rfl) (.inr rfl) (.inr rfl) (.inr rfl) (.inr rfl) (.inr rfl) (.inl h_el) (.inr rfl) (.inr rfl) (.inr rfl) (.inr rfl) (.inr rfl) (.inr rfl) (.inr rfl) (.inr rfl) (.inr rfl) (.inr rfl) (.inr rfl) (.inr rfl); try dsimp only)

theorem execPitReset_only  (s : State) : ∃ t, execPitReset s = .next t ∧ Only { rf := true, irqNow := true, el := true } s t := by
  have h := Only.refl { rf := true, irqNow := true, el := true } s
  have tt : true = true := rfl
  unfold execPitReset
  refine ⟨_, rfl, ?_⟩
  try dsimp only
  repeat' first | (with_reducible first | assumption | apply State.pitResetNow_only rfl rfl rfl | apply each_only | apply foldl_only) | intro _ _ _ | split | dsimp only

theorem execTestPulse_only (slot : Nat) (nodeLow : Bool) (demand : PulseDemand) (s : State) : ∃ t, execTestPulse slot nodeLow demand s = .next t ∧ Only { rf := true, irqNow := true, pos := true, lwb := true, mot := true, drv := true, doorF := true, doorR := true, el := true, can := true, part := true, rcd := true } s t := by
  have h := Only.refl { rf := true, irqNow := true, pos := true, lwb := true, mot := true, drv := true, doorF := true, doorR := true, el := true, can := true, part := true, rcd := true } s
  have tt : true = true := rfl
  unfold execTestPulse
  refine ⟨_, rfl, ?_⟩
  try dsimp only
  repeat' first | (with_reducible first | assumption | apply State.testPulseNow_only rfl rfl rfl rfl rfl rfl rfl rfl rfl rfl rfl rfl | apply each_only | apply foldl_only) | intro _ _ _ | split | dsimp only

theorem execModeNormalReturn_only  (s : State) : ∃ t, execModeNormalReturn s = .next t ∧ Only { rf := true, irqNow := true, el := true } s t := by
  have h := Only.refl { rf := true, irqNow := true, el := true } s
  have tt : true = true := rfl
  unfold execModeNormalReturn
  refine ⟨_, rfl, ?_⟩
  try dsimp only
  repeat' first | (with_reducible first | assumption | apply State.modeInto_only rfl rfl rfl | apply each_only | apply foldl_only) | intro _ _ _ | split | dsimp only

theorem execDegradedExpired_only (mode : DegMode) (s : State) : ∃ t, execDegradedExpired mode s = .next t ∧ Only { rf := true, irqNow := true, el := true } s t := by
  have h := Only.refl { rf := true, irqNow := true, el := true } s
  have tt : true = true := rfl
  unfold execDegradedExpired
  refine ⟨_, rfl, ?_⟩
  try dsimp only
  repeat' first | (with_reducible first | assumption | apply State.degExpire_only rfl rfl rfl | apply each_only | apply foldl_only) | intro _ _ _ | split | dsimp only

theorem execDegradedTimerClear_only (mode : DegMode) (s : State) : ∃ t, execDegradedTimerClear mode s = .next t ∧ Only { el := true } s t := by
  have h := Only.refl { el := true } s
  have tt : true = true := rfl
  unfold execDegradedTimerClear
  refine ⟨_, rfl, ?_⟩
  try dsimp only
  repeat' first | (with_reducible first | assumption | apply State.degClear_only rfl | apply each_only | apply foldl_only) | intro _ _ _ | split | dsimp only

theorem execNearestLandingRun_only  (s : State) : ∃ t, execNearestLandingRun s = .next t ∧ Only { rf := true, mot := true, drv := true, sch := true } s t := by
  have h := Only.refl { rf := true, mot := true, drv := true, sch := true } s
  have tt : true = true := rfl
  unfold execNearestLandingRun
  refine ⟨_, rfl, ?_⟩
  try dsimp only
  repeat' first | (with_reducible first | assumption | apply State.nearestStart_only rfl rfl rfl rfl | apply each_only | apply foldl_only) | intro _ _ _ | split | dsimp only

theorem execPairMismatch_only (pair : Nat) (s : State) : ∃ t, execPairMismatch pair s = .next t ∧ Only { rf := true, irqNow := true, pos := true, lwb := true, mot := true, drv := true, doorF := true, doorR := true, el := true, can := true, part := true, rcd := true } s t := by
  have h := Only.refl { rf := true, irqNow := true, pos := true, lwb := true, mot := true, drv := true, doorF := true, doorR := true, el := true, can := true, part := true, rcd := true } s
  have tt : true = true := rfl
  unfold execPairMismatch
  refine ⟨_, rfl, ?_⟩
  try dsimp only
  repeat' first | (with_reducible first | assumption | apply State.trip_only rfl rfl rfl rfl rfl rfl rfl rfl rfl rfl rfl rfl | apply each_only | apply foldl_only) | intro _ _ _ | split | dsimp only

theorem execChannelDisagree_only  (s : State) : ∃ t, execChannelDisagree s = .next t ∧ Only { rf := true, irqNow := true, pos := true, lwb := true, mot := true, drv := true, doorF := true, doorR := true, el := true, can := true, part := true, rcd := true } s t := by
  have h := Only.refl { rf := true, irqNow := true, pos := true, lwb := true, mot := true, drv := true, doorF := true, doorR := true, el := true, can := true, part := true, rcd := true } s
  have tt : true = true := rfl
  unfold execChannelDisagree
  refine ⟨_, rfl, ?_⟩
  try dsimp only
  repeat' first | (with_reducible first | assumption | apply State.trip_only rfl rfl rfl rfl rfl rfl rfl rfl rfl rfl rfl rfl | apply each_only | apply foldl_only) | intro _ _ _ | split | dsimp only

theorem State.absLost_only {pt : Parts} (h_el : pt.el = true) {s₀ s : State} (h : Only pt s₀ s) (c : Chan) : Only pt s₀ (State.absLost s c) := by
  unfold State.absLost
  try dsimp only
  repeat' first | (with_reducible first | assumption  | apply each_only | apply foldl_only) | intro _ _ _ | split | (refine Only.upd ?_ (.inr rfl) (.inr rfl) (.inr rfl) (.inr rfl) (.inr rfl) (.inr rfl) (.inr rfl) (.inr rfl) (.inr rfl) (.inr rfl) (.inr rfl) (.inr rfl) (.inr rfl) (.inl h_el) (.inr rfl) (.inr rfl) (.inr rfl) (.inr rfl) (.inr rfl) (.inr rfl) (.inr rfl) (.inr rfl) (.inr rfl) (.inr rfl) (.inr rfl) (.inr rfl); try dsimp only)

theorem execAbsTimeout_only (ch : Chan) (s : State) : ∃ t, execAbsTimeout ch s = .next t ∧ Only { el := true } s t := by
  have h := Only.refl { el := true } s
  have tt : true = true := rfl
  unfold execAbsTimeout
  refine ⟨_, rfl, ?_⟩
  try dsimp only
  repeat' first | (with_reducible first | assumption | apply State.absLost_only rfl | apply each_only | apply foldl_only) | intro _ _ _ | split | dsimp only

theorem execMirrorTimeout_only (output : Nat) (s : State) : ∃ t, execMirrorTimeout output s = .next t ∧ Only { rf := true, irqNow := true, pos := true, lwb := true, mot := true, drv := true, doorF := true, doorR := true, el := true, can := true, part := true, rcd := true } s t := by
  have h := Only.refl { rf := true, irqNow := true, pos := true, lwb := true, mot := true, drv := true, doorF := true, doorR := true, el := true, can := true, part := true, rcd := true } s
  have tt : true = true := rfl
  unfold execMirrorTimeout
  refine ⟨_, rfl, ?_⟩
  try dsimp only
  repeat' first | (with_reducible first | assumption | apply State.trip_only rfl rfl rfl rfl rfl rfl rfl rfl rfl rfl rfl rfl | apply each_only | apply foldl_only) | intro _ _ _ | split | dsimp only

theorem execStoFbTimeout_only  (s : State) : ∃ t, execStoFbTimeout s = .next t ∧ Only { rf := true, irqNow := true, pos := true, lwb := true, mot := true, drv := true, doorF := true, doorR := true, el := true, can := true, part := true, rcd := true } s t := by
  have h := Only.refl { rf := true, irqNow := true, pos := true, lwb := true, mot := true, drv := true, doorF := true, doorR := true, el := true, can := true, part := true, rcd := true } s
  have tt : true = true := rfl
  unfold execStoFbTimeout
  refine ⟨_, rfl, ?_⟩
  try dsimp only
  repeat' first | (with_reducible first | assumption | apply State.trip_only rfl rfl rfl rfl rfl rfl rfl rfl rfl rfl rfl rfl | apply each_only | apply foldl_only) | intro _ _ _ | split | dsimp only

theorem execDcmPlaus_only (side : Chan) (s : State) : ∃ t, execDcmPlaus side s = .next t ∧ Only { rf := true, irqNow := true, pos := true, lwb := true, mot := true, drv := true, doorF := true, doorR := true, el := true, can := true, part := true, rcd := true } s t := by
  have h := Only.refl { rf := true, irqNow := true, pos := true, lwb := true, mot := true, drv := true, doorF := true, doorR := true, el := true, can := true, part := true, rcd := true } s
  have tt : true = true := rfl
  unfold execDcmPlaus
  refine ⟨_, rfl, ?_⟩
  try dsimp only
  repeat' first | (with_reducible first | assumption | apply State.trip_only rfl rfl rfl rfl rfl rfl rfl rfl rfl rfl rfl rfl | apply each_only | apply foldl_only) | intro _ _ _ | split | dsimp only

end Sys2Proof.Machine
end

