-- ==== Sys2Proof/Laws/OnlyHostPort.lean ====
section
/-! SUPPORT. Which parts of the state the operations of Machine/HostPort.lean leave the same. -/

set_option linter.unusedTactic false
set_option linter.unreachableTactic false

namespace Sys2Proof.Machine

theorem execEthLinkChange_only (port : Nat) (up : Bool) (amp24 : Bool) (sqi : BitVec 3) (s : State) : ∃ t, execEthLinkChange port up amp24 sqi s = .next t ∧ Only { rf := true, irqNow := true, host := true } s t := by
  have h := Only.refl { rf := true, irqNow := true, host := true } s
  have tt : true = true := rfl
  unfold execEthLinkChange
  refine ⟨_, rfl, ?_⟩
  try dsimp only
  repeat' first | (with_reducible first | assumption | apply State.ethLink_only rfl rfl rfl | apply each_only | apply foldl_only) | intro _ _ _ | split | dsimp only

theorem execEthFarFault_only (on : Bool) (s : State) : ∃ t, execEthFarFault on s = .next t ∧ Only { rf := true, irqNow := true } s t := by
  have h := Only.refl { rf := true, irqNow := true } s
  have tt : true = true := rfl
  unfold execEthFarFault
  refine ⟨_, rfl, ?_⟩
  try dsimp only
  repeat' first | (with_reducible first | assumption | apply State.wf__only rfl | apply State.raise_only rfl rfl | apply each_only | apply foldl_only) | intro _ _ _ | split | dsimp only

theorem execSessionPendingTimeout_only (i : Nat) (s : State) : ∃ t, execSessionPendingTimeout i s = .next t ∧ Only { rf := true, irqNow := true, host := true } s t := by
  have h := Only.refl { rf := true, irqNow := true, host := true } s
  have tt : true = true := rfl
  unfold execSessionPendingTimeout
  refine ⟨_, rfl, ?_⟩
  try dsimp only
  repeat' first | (with_reducible first | assumption | apply State.sessEnd_only rfl rfl rfl | apply each_only | apply foldl_only) | intro _ _ _ | split | (refine Only.upd ?_ (.inr rfl) (.inr rfl) (.inr rfl) (.inl rfl) (.inl rfl) (.inr rfl) (.inr rfl) (.inr rfl) (.inr rfl) (.inr rfl) (.inr rfl) (.inr rfl) (.inr rfl) (.inr rfl) (.inr rfl) (.inr rfl) (.inr rfl) (.inl rfl) (.inr rfl) (.inr rfl) (.inr rfl) (.inr rfl) (.inr rfl) (.inr rfl) (.inr rfl) (.inr rfl); try dsimp only)

theorem execSessionTimeout_only (i : Nat) (s : State) : ∃ t, execSessionTimeout i s = .next t ∧ Only { rf := true, irqNow := true, host := true } s t := by
  have h := Only.refl { rf := true, irqNow := true, host := true } s
  have tt : true = true := rfl
  unfold execSessionTimeout
  refine ⟨_, rfl, ?_⟩
  try dsimp only
  repeat' first | (with_reducible first | assumption | apply State.sessEnd_only rfl rfl rfl | apply each_only | apply foldl_only) | intro _ _ _ | split | (refine Only.upd ?_ (.inr rfl) (.inr rfl) (.inr rfl) (.inl rfl) (.inl rfl) (.inr rfl) (.inr rfl) (.inr rfl) (.inr rfl) (.inr rfl) (.inr rfl) (.inr rfl) (.inr rfl) (.inr rfl) (.inr rfl) (.inr rfl) (.inr rfl) (.inl rfl) (.inr rfl) (.inr rfl) (.inr rfl) (.inr rfl) (.inr rfl) (.inr rfl) (.inr rfl) (.inr rfl); try dsimp only)

theorem State.exhausted_only {pt : Parts} (h_rf : pt.rf = true) (h_irqNow : pt.irqNow = true) (h_pos : pt.pos = true) (h_lwb : pt.lwb = true) (h_mot : pt.mot = true) (h_drv : pt.drv = true) (h_doorF : pt.doorF = true) (h_doorR : pt.doorR = true) (h_el : pt.el = true) (h_can : pt.can = true) (h_host : pt.host = true) (h_part : pt.part = true) (h_rcd : pt.rcd = true) (h_sys : pt.sys = true) {s₀ s : State} (h : Only pt s₀ s) (m : Nat) : Only pt s₀ (State.exhausted s m) := by
  unfold State.exhausted
  try dsimp only
  repeat' first | (with_reducible first | assumption | apply State.wf__only h_rf | apply State.raise_only h_rf h_irqNow | apply State.deadlineMiss_only h_rf h_irqNow h_pos h_lwb h_mot h_drv h_doorF h_doorR h_el h_can h_part h_rcd h_sys | apply each_only | apply foldl_only) | intro _ _ _ | split | (refine Only.upd ?_ (.inr rfl) (.inr rfl) (.inr rfl) (.inl h_rf) (.inl h_irqNow) (.inl h_pos) (.inl h_lwb) (.inl h_mot) (.inl h_drv) (.inr rfl) (.inr rfl) (.inl h_doorF) (.inl h_doorR) (.inl h_el) (.inr rfl) (.inl h_can) (.inr rfl) (.inl h_host) (.inr rfl) (.inl h_part) (.inl h_rcd) (.inr rfl) (.inr rfl) (.inr rfl) (.inl h_sys) (.inr rfl); try dsimp only)

theorem execBudgetExhausted_only (master : Nat) (s : State) : ∃ t, execBudgetExhausted master s = .next t ∧ Only { rf := true, irqNow := true, pos := true, lwb := true, mot := true, drv := true, doorF := true, doorR := true, el := true, can := true, host := true, part := true, rcd := true, sys := true } s t := by
  have h := Only.refl { rf := true, irqNow := true, pos := true, lwb := true, mot := true, drv := true, doorF := true, doorR := true, el := true, can := true, host := true, part := true, rcd := true, sys := true } s
  have tt : true = true := rfl
  unfold execBudgetExhausted
  refine ⟨_, rfl, ?_⟩
  try dsimp only
  repeat' first | (with_reducible first | assumption | apply State.exhausted_only rfl rfl rfl rfl rfl rfl rfl rfl rfl rfl rfl rfl rfl rfl | apply each_only | apply foldl_only) | intro _ _ _ | split | dsimp only

end Sys2Proof.Machine
end

