-- ==== Sys2Proof/Laws/OnlyPosition.lean ====
section
/-! SUPPORT. Which parts of the state the operations of Machine/Position.lean leave the same. -/

set_option linter.unusedTactic false
set_option linter.unreachableTactic false

namespace Sys2Proof.Machine

theorem execSrAnswer_only (bytes : List Byte) (endNs : Nat) (s : State) : ∃ t, execSrAnswer bytes endNs s = .next t ∧ Only { rf := true, pos := true } s t := by
  have h := Only.refl { rf := true, pos := true } s
  have tt : true = true := rfl
  unfold execSrAnswer
  refine ⟨_, rfl, ?_⟩
  try dsimp only
  repeat' first | (with_reducible first | assumption | apply State.srAnswer_only rfl rfl | apply each_only | apply foldl_only) | intro _ _ _ | split | dsimp only

theorem execSrTimeout_only  (s : State) : ∃ t, execSrTimeout s = .next t ∧ Only { rf := true, irqNow := true, pos := true, lwb := true, mot := true, drv := true, doorF := true, doorR := true, el := true, can := true, part := true, rcd := true } s t := by
  have h := Only.refl { rf := true, irqNow := true, pos := true, lwb := true, mot := true, drv := true, doorF := true, doorR := true, el := true, can := true, part := true, rcd := true } s
  have tt : true = true := rfl
  unfold execSrTimeout
  refine ⟨_, rfl, ?_⟩
  try dsimp only
  repeat' first | (with_reducible first | assumption | apply State.srTimeout_only rfl rfl rfl rfl rfl rfl rfl rfl rfl rfl rfl rfl | apply each_only | apply foldl_only) | intro _ _ _ | split | dsimp only

theorem execSourceReturn_only (source : PosSrc) (s : State) : ∃ t, execSourceReturn source s = .next t ∧ Only { rf := true, irqNow := true, pos := true, mot := true } s t := by
  have h := Only.refl { rf := true, irqNow := true, pos := true, mot := true } s
  have tt : true = true := rfl
  unfold execSourceReturn
  refine ⟨_, rfl, ?_⟩
  try dsimp only
  repeat' first | (with_reducible first | assumption | apply State.sourceReturn_only rfl rfl rfl rfl | apply State.posNote_only rfl rfl rfl | apply each_only | apply foldl_only) | intro _ _ _ | split | dsimp only

theorem State.dzEdgeNow_only {pt : Parts} (h_rf : pt.rf = true) (h_irqNow : pt.irqNow = true) (h_pos : pt.pos = true) (h_mot : pt.mot = true) {s₀ s : State} (h : Only pt s₀ s) (c : Chan) (rising : Bool) (stampUs : Nat) : Only pt s₀ (State.dzEdgeNow s c rising stampUs) := by
  unfold State.dzEdgeNow
  try dsimp only
  repeat' first | (with_reducible first | assumption | apply State.homeEdge_only h_pos | apply State.dzEdgeSeen_only h_pos | apply State.absFromZone_only h_rf h_irqNow h_pos h_mot | apply State.posNote_only h_rf h_irqNow h_pos | apply each_only | apply foldl_only) | intro _ _ _ | split | dsimp only

theorem execDzEdge_only (ch : Chan) (rising : Bool) (stampUs : Nat) (s : State) : ∃ t, execDzEdge ch rising stampUs s = .next t ∧ Only { rf := true, irqNow := true, pos := true, mot := true } s t := by
  have h := Only.refl { rf := true, irqNow := true, pos := true, mot := true } s
  have tt : true = true := rfl
  unfold execDzEdge
  refine ⟨_, rfl, ?_⟩
  try dsimp only
  repeat' first | (with_reducible first | assumption | apply State.dzEdgeNow_only rfl rfl rfl rfl | apply each_only | apply foldl_only) | intro _ _ _ | split | dsimp only

theorem execDzWiringFault_only (ch : Chan) (s : State) : ∃ t, execDzWiringFault ch s = .next t ∧ Only { rf := true, irqNow := true, pos := true, lwb := true, mot := true, drv := true, doorF := true, doorR := true, el := true, can := true, part := true, rcd := true } s t := by
  have h := Only.refl { rf := true, irqNow := true, pos := true, lwb := true, mot := true, drv := true, doorF := true, doorR := true, el := true, can := true, part := true, rcd := true } s
  have tt : true = true := rfl
  unfold execDzWiringFault
  refine ⟨_, rfl, ?_⟩
  try dsimp only
  repeat' first | (with_reducible first | assumption | apply State.elWire_only rfl | apply State.dzFault_only rfl rfl rfl rfl rfl rfl rfl rfl rfl rfl rfl rfl | apply each_only | apply foldl_only) | intro _ _ _ | split | dsimp only

theorem execDzWiringFaultEnd_only (ch : Chan) (s : State) : ∃ t, execDzWiringFaultEnd ch s = .next t ∧ Only { pos := true, el := true } s t := by
  have h := Only.refl { pos := true, el := true } s
  have tt : true = true := rfl
  unfold execDzWiringFaultEnd
  refine ⟨_, rfl, ?_⟩
  try dsimp only
  repeat' first | (with_reducible first | assumption | apply State.elWire_only rfl | apply State.dzFaultEnd_only rfl | apply each_only | apply foldl_only) | intro _ _ _ | split | dsimp only

theorem State.encDisagreeNow_only {pt : Parts} (h_rf : pt.rf = true) (h_irqNow : pt.irqNow = true) (h_pos : pt.pos = true) (h_rcd : pt.rcd = true) {s₀ s : State} (h : Only pt s₀ s) : Only pt s₀ (State.encDisagreeNow s) := by
  unfold State.encDisagreeNow
  try dsimp only
  repeat' first | (with_reducible first | assumption | apply State.raise_only h_rf h_irqNow | apply State.fire_only h_rf h_irqNow h_rcd | apply each_only | apply foldl_only) | intro _ _ _ | split | (refine Only.upd ?_ (.inr rfl) (.inr rfl) (.inr rfl) (.inl h_rf) (.inl h_irqNow) (.inl h_pos) (.inr rfl) (.inr rfl) (.inr rfl) (.inr rfl) (.inr rfl) (.inr rfl) (.inr rfl) (.inr rfl) (.inr rfl) (.inr rfl) (.inr rfl) (.inr rfl) (.inr rfl) (.inr rfl) (.inl h_rcd) (.inr rfl) (.inr rfl) (.inr rfl) (.inr rfl) (.inr rfl); try dsimp only)

theorem execEncDisagree_only  (s : State) : ∃ t, execEncDisagree s = .next t ∧ Only { rf := true, irqNow := true, pos := true, rcd := true } s t := by
  have h := Only.refl { rf := true, irqNow := true, pos := true, rcd := true } s
  have tt : true = true := rfl
  unfold execEncDisagree
  refine ⟨_, rfl, ?_⟩
  try dsimp only
  repeat' first | (with_reducible first | assumption | apply State.encDisagreeNow_only rfl rfl rfl rfl | apply each_only | apply foldl_only) | intro _ _ _ | split | dsimp only

theorem execEncDisagreeClear_only  (s : State) : ∃ t, execEncDisagreeClear s = .next t ∧ Only { pos := true } s t := by
  have h := Only.refl { pos := true } s
  have tt : true = true := rfl
  unfold execEncDisagreeClear
  refine ⟨_, rfl, ?_⟩
  try dsimp only
  repeat' first | (with_reducible first | assumption  | apply each_only | apply foldl_only) | intro _ _ _ | split | (refine Only.upd ?_ (.inr rfl) (.inr rfl) (.inr rfl) (.inr rfl) (.inr rfl) (.inl rfl) (.inr rfl) (.inr rfl) (.inr rfl) (.inr rfl) (.inr rfl) (.inr rfl) (.inr rfl) (.inr rfl) (.inr rfl) (.inr rfl) (.inr rfl) (.inr rfl) (.inr rfl) (.inr rfl) (.inr rfl) (.inr rfl) (.inr rfl) (.inr rfl) (.inr rfl) (.inr rfl); try dsimp only)

theorem execTraction_only  (s : State) : ∃ t, execTraction s = .next t ∧ Only { rf := true, irqNow := true, pos := true, mot := true, drv := true, sch := true, bid := true, doorF := true, doorR := true, el := true, rcd := true } s t := by
  have h := Only.refl { rf := true, irqNow := true, pos := true, mot := true, drv := true, sch := true, bid := true, doorF := true, doorR := true, el := true, rcd := true } s
  have tt : true = true := rfl
  unfold execTraction
  refine ⟨_, rfl, ?_⟩
  try dsimp only
  repeat' first | (with_reducible first | assumption | apply State.tractionLatch_only rfl rfl rfl rfl rfl rfl rfl rfl rfl rfl rfl | apply each_only | apply foldl_only) | intro _ _ _ | split | dsimp only

theorem State.biasCalEnd_only {pt : Parts} (h_rf : pt.rf = true) (h_irqNow : pt.irqNow = true) (h_pos : pt.pos = true) {s₀ s : State} (h : Only pt s₀ s) (sum : Int) : Only pt s₀ (State.biasCalEnd s sum) := by
  unfold State.biasCalEnd
  try dsimp only
  repeat' first | (with_reducible first | assumption | apply State.raise_only h_rf h_irqNow | apply each_only | apply foldl_only) | intro _ _ _ | split | (refine Only.upd ?_ (.inr rfl) (.inr rfl) (.inr rfl) (.inl h_rf) (.inl h_irqNow) (.inl h_pos) (.inr rfl) (.inr rfl) (.inr rfl) (.inr rfl) (.inr rfl) (.inr rfl) (.inr rfl) (.inr rfl) (.inr rfl) (.inr rfl) (.inr rfl) (.inr rfl) (.inr rfl) (.inr rfl) (.inr rfl) (.inr rfl) (.inr rfl) (.inr rfl) (.inr rfl) (.inr rfl); try dsimp only)

theorem execBiasCalDone_only  (s : State) : ∃ t, execBiasCalDone s = .next t ∧ Only { rf := true, irqNow := true, pos := true } s t := by
  have h := Only.refl { rf := true, irqNow := true, pos := true } s
  have tt : true = true := rfl
  unfold execBiasCalDone
  refine ⟨_, rfl, ?_⟩
  try dsimp only
  repeat' first | (with_reducible first | assumption | apply State.biasCalEnd_only rfl rfl rfl | apply each_only | apply foldl_only) | intro _ _ _ | split | (refine Only.upd ?_ (.inr rfl) (.inr rfl) (.inr rfl) (.inl rfl) (.inl rfl) (.inl rfl) (.inr rfl) (.inr rfl) (.inr rfl) (.inr rfl) (.inr rfl) (.inr rfl) (.inr rfl) (.inr rfl) (.inr rfl) (.inr rfl) (.inr rfl) (.inr rfl) (.inr rfl) (.inr rfl) (.inr rfl) (.inr rfl) (.inr rfl) (.inr rfl) (.inr rfl) (.inr rfl); try dsimp only)

theorem execKappaBiasSave_only  (s : State) : ∃ t, execKappaBiasSave s = .next t ∧ Only { sys := true } s t := by
  have h := Only.refl { sys := true } s
  have tt : true = true := rfl
  unfold execKappaBiasSave
  refine ⟨_, rfl, ?_⟩
  try dsimp only
  repeat' first | (with_reducible first | assumption | apply State.kbSave_only rfl | apply each_only | apply foldl_only) | intro _ _ _ | split | dsimp only

theorem execLwbConversion_only (raw : Int) (openWire : Bool) (exc : Bool) (overLimit : Bool) (s : State) : ∃ t, execLwbConversion raw openWire exc overLimit s = .next t ∧ Only { lwb := true } s t := by
  have h := Only.refl { lwb := true } s
  have tt : true = true := rfl
  unfold execLwbConversion
  refine ⟨_, rfl, ?_⟩
  try dsimp only
  repeat' first | (with_reducible first | assumption | apply State.lwbConvert_only rfl | apply each_only | apply foldl_only) | intro _ _ _ | split | dsimp only

theorem execLwbValidClear_only  (s : State) : ∃ t, execLwbValidClear s = .next t ∧ Only { rf := true, irqNow := true, lwb := true } s t := by
  have h := Only.refl { rf := true, irqNow := true, lwb := true } s
  have tt : true = true := rfl
  unfold execLwbValidClear
  refine ⟨_, rfl, ?_⟩
  try dsimp only
  repeat' first | (with_reducible first | assumption | apply State.lwbSetValid_only rfl rfl rfl | apply each_only | apply foldl_only) | intro _ _ _ | split | dsimp only

theorem execLwbValidSet_only  (s : State) : ∃ t, execLwbValidSet s = .next t ∧ Only { rf := true, irqNow := true, lwb := true } s t := by
  have h := Only.refl { rf := true, irqNow := true, lwb := true } s
  have tt : true = true := rfl
  unfold execLwbValidSet
  refine ⟨_, rfl, ?_⟩
  try dsimp only
  repeat' first | (with_reducible first | assumption | apply State.lwbSetValid_only rfl rfl rfl | apply each_only | apply foldl_only) | intro _ _ _ | split | dsimp only

theorem execLwbCalDone_only  (s : State) : ∃ t, execLwbCalDone s = .next t ∧ Only { rf := true, irqNow := true, lwb := true } s t := by
  have h := Only.refl { rf := true, irqNow := true, lwb := true } s
  have tt : true = true := rfl
  unfold execLwbCalDone
  refine ⟨_, rfl, ?_⟩
  try dsimp only
  repeat' first | (with_reducible first | assumption | apply State.lwbCalEnd_only rfl rfl rfl | apply each_only | apply foldl_only) | intro _ _ _ | split | dsimp only

end Sys2Proof.Machine
end

