-- ==== Sys2Proof/Laws/OnlyMotion.lean ====
section
/-! SUPPORT. Which parts of the state the operations of Machine/Motion.lean leave the same. -/

set_option linter.unusedTactic false
set_option linter.unreachableTactic false

namespace Sys2Proof.Machine

theorem State.planEndNow_only {pt : Parts} (h_rf : pt.rf = true) (h_irqNow : pt.irqNow = true) (h_mot : pt.mot = true) (h_drv : pt.drv = true) (h_sch : pt.sch = true) (h_doorF : pt.doorF = true) (h_doorR : pt.doorR = true) {s₀ s : State} (h : Only pt s₀ s) : Only pt s₀ (State.planEndNow s) := by
  unfold State.planEndNow
  try dsimp only
  repeat' first | (with_reducible first | assumption | apply State.motRunDone_only h_rf h_irqNow h_mot h_drv | apply State.schRunDone_only h_rf h_irqNow h_sch h_doorF h_doorR | apply each_only | apply foldl_only) | intro _ _ _ | split | dsimp only

theorem execPlanEnd_only  (s : State) : ∃ t, execPlanEnd s = .next t ∧ Only { rf := true, irqNow := true, mot := true, drv := true, sch := true, doorF := true, doorR := true } s t := by
  have h := Only.refl { rf := true, irqNow := true, mot := true, drv := true, sch := true, doorF := true, doorR := true } s
  have tt : true = true := rfl
  unfold execPlanEnd
  refine ⟨_, rfl, ?_⟩
  try dsimp only
  repeat' first | (with_reducible first | assumption | apply State.planEndNow_only rfl rfl rfl rfl rfl rfl rfl | apply each_only | apply foldl_only) | intro _ _ _ | split | (refine Only.upd ?_ (.inr rfl) (.inr rfl) (.inr rfl) (.inl rfl) (.inl rfl) (.inr rfl) (.inr rfl) (.inl rfl) (.inl rfl) (.inl rfl) (.inr rfl) (.inl rfl) (.inl rfl) (.inr rfl) (.inr rfl) (.inr rfl) (.inr rfl) (.inr rfl) (.inr rfl) (.inr rfl) (.inr rfl) (.inr rfl) (.inr rfl) (.inr rfl) (.inr rfl) (.inr rfl); try dsimp only)

theorem State.followNow_only {pt : Parts} (h_rf : pt.rf = true) (h_irqNow : pt.irqNow = true) (h_mot : pt.mot = true) (h_drv : pt.drv = true) (h_el : pt.el = true) (h_rcd : pt.rcd = true) {s₀ s : State} (h : Only pt s₀ s) : Only pt s₀ (State.followNow s) := by
  unfold State.followNow
  try dsimp only
  repeat' first | (with_reducible first | assumption | apply State.raise_only h_rf h_irqNow | apply State.fire_only h_rf h_irqNow h_rcd | apply State.motHoldNow_only h_rf h_irqNow h_mot h_drv h_el h_rcd | apply each_only | apply foldl_only) | intro _ _ _ | split | (refine Only.upd ?_ (.inr rfl) (.inr rfl) (.inr rfl) (.inl h_rf) (.inl h_irqNow) (.inr rfl) (.inr rfl) (.inl h_mot) (.inl h_drv) (.inr rfl) (.inr rfl) (.inr rfl) (.inr rfl) (.inl h_el) (.inr rfl) (.inr rfl) (.inr rfl) (.inr rfl) (.inr rfl) (.inr rfl) (.inl h_rcd) (.inr rfl) (.inr rfl) (.inr rfl) (.inr rfl) (.inr rfl); try dsimp only)

theorem execFollowError_only  (s : State) : ∃ t, execFollowError s = .next t ∧ Only { rf := true, irqNow := true, mot := true, drv := true, el := true, rcd := true } s t := by
  have h := Only.refl { rf := true, irqNow := true, mot := true, drv := true, el := true, rcd := true } s
  have tt : true = true := rfl
  unfold execFollowError
  refine ⟨_, rfl, ?_⟩
  try dsimp only
  repeat' first | (with_reducible first | assumption | apply State.followNow_only rfl rfl rfl rfl rfl rfl | apply each_only | apply foldl_only) | intro _ _ _ | split | dsimp only

theorem execVcapChange_only  (s : State) : ∃ t, execVcapChange s = .next t ∧ Only { rf := true, irqNow := true, mot := true } s t := by
  have h := Only.refl { rf := true, irqNow := true, mot := true } s
  have tt : true = true := rfl
  unfold execVcapChange
  refine ⟨_, rfl, ?_⟩
  try dsimp only
  repeat' first | (with_reducible first | assumption | apply State.capChange_only rfl rfl rfl | apply each_only | apply foldl_only) | intro _ _ _ | split | dsimp only

theorem State.autoSpecial_only {pt : Parts} (h_rf : pt.rf = true) (h_irqNow : pt.irqNow = true) (h_pos : pt.pos = true) (h_mot : pt.mot = true) (h_drv : pt.drv = true) (h_el : pt.el = true) {s₀ s : State} (h : Only pt s₀ s) : Only pt s₀ (State.autoSpecial s) := by
  unfold State.autoSpecial
  try dsimp only
  repeat' first | (with_reducible first | assumption | apply State.homeStart_only h_pos h_mot h_drv | apply State.recoverStart_only h_rf h_irqNow h_mot h_drv h_el | apply each_only | apply foldl_only) | intro _ _ _ | split | dsimp only

theorem execAutoSpecialStart_only  (s : State) : ∃ t, execAutoSpecialStart s = .next t ∧ Only { rf := true, irqNow := true, pos := true, mot := true, drv := true, el := true } s t := by
  have h := Only.refl { rf := true, irqNow := true, pos := true, mot := true, drv := true, el := true } s
  have tt : true = true := rfl
  unfold execAutoSpecialStart
  refine ⟨_, rfl, ?_⟩
  try dsimp only
  repeat' first | (with_reducible first | assumption | apply State.autoSpecial_only rfl rfl rfl rfl rfl rfl | apply each_only | apply foldl_only) | intro _ _ _ | split | dsimp only

theorem execAutoRelevel_only  (s : State) : ∃ t, execAutoRelevel s = .next t ∧ Only { rf := true, mot := true } s t := by
  have h := Only.refl { rf := true, mot := true } s
  have tt : true = true := rfl
  unfold execAutoRelevel
  refine ⟨_, rfl, ?_⟩
  try dsimp only
  repeat' first | (with_reducible first | assumption | apply State.relevDecide_only rfl | apply State.relevBlock_only rfl rfl | apply each_only | apply foldl_only) | intro _ _ _ | split | dsimp only

theorem State.homeRef_only {pt : Parts} (h_rf : pt.rf = true) (h_irqNow : pt.irqNow = true) (h_mot : pt.mot = true) (h_drv : pt.drv = true) (h_el : pt.el = true) (h_rcd : pt.rcd = true) {s₀ s : State} (h : Only pt s₀ s) (active : Bool) : Only pt s₀ (State.homeRef s active) := by
  unfold State.homeRef
  try dsimp only
  repeat' first | (with_reducible first | assumption | apply State.homeFail_only h_rf h_irqNow h_mot h_drv h_el h_rcd | apply each_only | apply foldl_only) | intro _ _ _ | split | (refine Only.upd ?_ (.inr rfl) (.inr rfl) (.inr rfl) (.inl h_rf) (.inl h_irqNow) (.inr rfl) (.inr rfl) (.inl h_mot) (.inl h_drv) (.inr rfl) (.inr rfl) (.inr rfl) (.inr rfl) (.inl h_el) (.inr rfl) (.inr rfl) (.inr rfl) (.inr rfl) (.inr rfl) (.inr rfl) (.inl h_rcd) (.inr rfl) (.inr rfl) (.inr rfl) (.inr rfl) (.inr rfl); try dsimp only)

theorem execHomeRefInput_only (active : Bool) (s : State) : ∃ t, execHomeRefInput active s = .next t ∧ Only { rf := true, irqNow := true, mot := true, drv := true, el := true, rcd := true } s t := by
  have h := Only.refl { rf := true, irqNow := true, mot := true, drv := true, el := true, rcd := true } s
  have tt : true = true := rfl
  unfold execHomeRefInput
  refine ⟨_, rfl, ?_⟩
  try dsimp only
  repeat' first | (with_reducible first | assumption | apply State.homeRef_only rfl rfl rfl rfl rfl rfl | apply each_only | apply foldl_only) | intro _ _ _ | split | dsimp only

theorem execHomeLimitInput_only  (s : State) : ∃ t, execHomeLimitInput s = .next t ∧ Only { rf := true, irqNow := true, mot := true, drv := true, el := true, rcd := true } s t := by
  have h := Only.refl { rf := true, irqNow := true, mot := true, drv := true, el := true, rcd := true } s
  have tt : true = true := rfl
  unfold execHomeLimitInput
  refine ⟨_, rfl, ?_⟩
  try dsimp only
  repeat' first | (with_reducible first | assumption | apply State.homeFail_only rfl rfl rfl rfl rfl rfl | apply each_only | apply foldl_only) | intro _ _ _ | split | dsimp only

theorem execHomeMaxdist_only  (s : State) : ∃ t, execHomeMaxdist s = .next t ∧ Only { rf := true, irqNow := true, mot := true, drv := true, el := true, rcd := true } s t := by
  have h := Only.refl { rf := true, irqNow := true, mot := true, drv := true, el := true, rcd := true } s
  have tt : true = true := rfl
  unfold execHomeMaxdist
  refine ⟨_, rfl, ?_⟩
  try dsimp only
  repeat' first | (with_reducible first | assumption | apply State.homeFail_only rfl rfl rfl rfl rfl rfl | apply each_only | apply foldl_only) | intro _ _ _ | split | dsimp only

theorem execDrvReadyTimeout_only  (s : State) : ∃ t, execDrvReadyTimeout s = .next t ∧ Only { rf := true, irqNow := true, drv := true, el := true } s t := by
  have h := Only.refl { rf := true, irqNow := true, drv := true, el := true } s
  have tt : true = true := rfl
  unfold execDrvReadyTimeout
  refine ⟨_, rfl, ?_⟩
  try dsimp only
  repeat' first | (with_reducible first | assumption | apply State.readyTimeout_only rfl rfl rfl rfl | apply each_only | apply foldl_only) | intro _ _ _ | split | dsimp only

theorem execDrvPreloadDone_only  (s : State) : ∃ t, execDrvPreloadDone s = .next t ∧ Only { drv := true } s t := by
  have h := Only.refl { drv := true } s
  have tt : true = true := rfl
  unfold execDrvPreloadDone
  refine ⟨_, rfl, ?_⟩
  try dsimp only
  repeat' first | (with_reducible first | assumption | apply State.preloadDone_only rfl | apply each_only | apply foldl_only) | intro _ _ _ | split | dsimp only

theorem execDrvBrakeLifted_only  (s : State) : ∃ t, execDrvBrakeLifted s = .next t ∧ Only { mot := true, drv := true } s t := by
  have h := Only.refl { mot := true, drv := true } s
  have tt : true = true := rfl
  unfold execDrvBrakeLifted
  refine ⟨_, rfl, ?_⟩
  try dsimp only
  repeat' first | (with_reducible first | assumption | apply State.brakeLifted_only rfl rfl | apply each_only | apply foldl_only) | intro _ _ _ | split | dsimp only

theorem execDrvBrakeApplied_only  (s : State) : ∃ t, execDrvBrakeApplied s = .next t ∧ Only { rf := true, irqNow := true, mot := true, drv := true, el := true } s t := by
  have h := Only.refl { rf := true, irqNow := true, mot := true, drv := true, el := true } s
  have tt : true = true := rfl
  unfold execDrvBrakeApplied
  refine ⟨_, rfl, ?_⟩
  try dsimp only
  repeat' first | (with_reducible first | assumption | apply State.brakeDropped_only rfl rfl rfl rfl rfl | apply each_only | apply foldl_only) | intro _ _ _ | split | dsimp only

theorem execDrvResponse_only (bytes : List Byte) (delimNs : Nat) (endNs : Nat) (s : State) : ∃ t, execDrvResponse bytes delimNs endNs s = .next t ∧ Only { rf := true, irqNow := true, pos := true, lwb := true, mot := true, drv := true, doorF := true, doorR := true, el := true, can := true, part := true, rcd := true } s t := by
  have h := Only.refl { rf := true, irqNow := true, pos := true, lwb := true, mot := true, drv := true, doorF := true, doorR := true, el := true, can := true, part := true, rcd := true } s
  have tt : true = true := rfl
  unfold execDrvResponse
  refine ⟨_, rfl, ?_⟩
  try dsimp only
  repeat' first | (with_reducible first | assumption | apply State.linkResponse_only rfl rfl rfl rfl rfl rfl rfl rfl rfl rfl rfl rfl | apply each_only | apply foldl_only) | intro _ _ _ | split | dsimp only

theorem execMotionWatchdog_only  (s : State) : ∃ t, execMotionWatchdog s = .next t ∧ Only { rf := true, irqNow := true, pos := true, lwb := true, mot := true, drv := true, doorF := true, doorR := true, el := true, can := true, part := true, rcd := true } s t := by
  have h := Only.refl { rf := true, irqNow := true, pos := true, lwb := true, mot := true, drv := true, doorF := true, doorR := true, el := true, can := true, part := true, rcd := true } s
  have tt : true = true := rfl
  unfold execMotionWatchdog
  refine ⟨_, rfl, ?_⟩
  try dsimp only
  repeat' first | (with_reducible first | assumption | apply State.drvCheck_only rfl rfl rfl | apply State.drvWatch_only rfl rfl rfl rfl rfl rfl rfl rfl rfl rfl rfl rfl | apply each_only | apply foldl_only) | intro _ _ _ | split | dsimp only

theorem execCiaTpdo_only (statusword : BitVec 16) (position : Word) (sofUs : Nat) (s : State) : ∃ t, execCiaTpdo statusword position sofUs s = .next t ∧ Only { rf := true, irqNow := true, pos := true, lwb := true, mot := true, drv := true, doorF := true, doorR := true, el := true, can := true, part := true, rcd := true } s t := by
  have h := Only.refl { rf := true, irqNow := true, pos := true, lwb := true, mot := true, drv := true, doorF := true, doorR := true, el := true, can := true, part := true, rcd := true } s
  have tt : true = true := rfl
  unfold execCiaTpdo
  refine ⟨_, rfl, ?_⟩
  try dsimp only
  repeat' first | (with_reducible first | assumption | apply State.ciaTpdoIn_only rfl rfl rfl rfl rfl rfl rfl rfl rfl rfl rfl rfl | apply each_only | apply foldl_only) | intro _ _ _ | split | dsimp only

theorem State.sdoConfirm_only {pt : Parts} (h_rf : pt.rf = true) (h_drv : pt.drv = true) {s₀ s : State} (h : Only pt s₀ s) : Only pt s₀ (State.sdoConfirm s) := by
  unfold State.sdoConfirm
  try dsimp only
  repeat' first | (with_reducible first | assumption | apply State.drvCheckReady_only h_rf h_drv | apply each_only | apply foldl_only) | intro _ _ _ | split | (refine Only.upd ?_ (.inr rfl) (.inr rfl) (.inr rfl) (.inl h_rf) (.inr rfl) (.inr rfl) (.inr rfl) (.inr rfl) (.inl h_drv) (.inr rfl) (.inr rfl) (.inr rfl) (.inr rfl) (.inr rfl) (.inr rfl) (.inr rfl) (.inr rfl) (.inr rfl) (.inr rfl) (.inr rfl) (.inr rfl) (.inr rfl) (.inr rfl) (.inr rfl) (.inr rfl) (.inr rfl); try dsimp only)

theorem execCiaSdoResponse_only  (s : State) : ∃ t, execCiaSdoResponse s = .next t ∧ Only { rf := true, drv := true } s t := by
  have h := Only.refl { rf := true, drv := true } s
  have tt : true = true := rfl
  unfold execCiaSdoResponse
  refine ⟨_, rfl, ?_⟩
  try dsimp only
  repeat' first | (with_reducible first | assumption | apply State.sdoConfirm_only rfl rfl | apply each_only | apply foldl_only) | intro _ _ _ | split | dsimp only

theorem execLegacyRdyChange_only (active : Bool) (s : State) : ∃ t, execLegacyRdyChange active s = .next t ∧ Only { drv := true } s t := by
  have h := Only.refl { drv := true } s
  have tt : true = true := rfl
  unfold execLegacyRdyChange
  refine ⟨_, rfl, ?_⟩
  try dsimp only
  repeat' first | (with_reducible first | assumption  | apply each_only | apply foldl_only) | intro _ _ _ | split | (refine Only.upd ?_ (.inr rfl) (.inr rfl) (.inr rfl) (.inr rfl) (.inr rfl) (.inr rfl) (.inr rfl) (.inr rfl) (.inl rfl) (.inr rfl) (.inr rfl) (.inr rfl) (.inr rfl) (.inr rfl) (.inr rfl) (.inr rfl) (.inr rfl) (.inr rfl) (.inr rfl) (.inr rfl) (.inr rfl) (.inr rfl) (.inr rfl) (.inr rfl) (.inr rfl) (.inr rfl); try dsimp only)

end Sys2Proof.Machine
end

