-- ==== Sys2Proof/Laws/OnlyCalls.lean ====
section
/-! SUPPORT. Which parts of the state the operations of Machine/Calls.lean leave the same. -/

set_option linter.unusedTactic false
set_option linter.unreachableTactic false

namespace Sys2Proof.Machine

theorem execSchedRunStart_only  (s : State) : ∃ t, execSchedRunStart s = .next t ∧ Only { rf := true, mot := true, drv := true, sch := true } s t := by
  have h := Only.refl { rf := true, mot := true, drv := true, sch := true } s
  have tt : true = true := rfl
  unfold execSchedRunStart
  refine ⟨_, rfl, ?_⟩
  try dsimp only
  repeat' first | (with_reducible first | assumption | apply State.schStart_only rfl rfl rfl rfl | apply each_only | apply foldl_only) | intro _ _ _ | split | (refine Only.upd ?_ (.inr rfl) (.inr rfl) (.inr rfl) (.inl rfl) (.inr rfl) (.inr rfl) (.inr rfl) (.inl rfl) (.inl rfl) (.inl rfl) (.inr rfl) (.inr rfl) (.inr rfl) (.inr rfl) (.inr rfl) (.inr rfl) (.inr rfl) (.inr rfl) (.inr rfl) (.inr rfl) (.inr rfl) (.inr rfl) (.inr rfl) (.inr rfl) (.inr rfl) (.inr rfl); try dsimp only)

theorem State.schResume_only {pt : Parts} (h_rf : pt.rf = true) (h_irqNow : pt.irqNow = true) (h_mot : pt.mot = true) (h_drv : pt.drv = true) (h_sch : pt.sch = true) (h_doorF : pt.doorF = true) (h_doorR : pt.doorR = true) {s₀ s : State} (h : Only pt s₀ s) : Only pt s₀ (State.schResume s) := by
  unfold State.schResume
  try dsimp only
  repeat' first | (with_reducible first | assumption | apply State.resumeNow_only h_rf h_irqNow h_mot h_drv h_sch | apply State.schReached_only h_rf h_irqNow h_sch h_doorF h_doorR | apply each_only | apply foldl_only) | intro _ _ _ | split | dsimp only

theorem execSchedResume_only  (s : State) : ∃ t, execSchedResume s = .next t ∧ Only { rf := true, irqNow := true, mot := true, drv := true, sch := true, doorF := true, doorR := true } s t := by
  have h := Only.refl { rf := true, irqNow := true, mot := true, drv := true, sch := true, doorF := true, doorR := true } s
  have tt : true = true := rfl
  unfold execSchedResume
  refine ⟨_, rfl, ?_⟩
  try dsimp only
  repeat' first | (with_reducible first | assumption | apply State.schResume_only rfl rfl rfl rfl rfl rfl rfl | apply each_only | apply foldl_only) | intro _ _ _ | split | dsimp only

theorem execHoldTimeEnd_only  (s : State) : ∃ t, execHoldTimeEnd s = .next t ∧ Only { rf := true, irqNow := true, sch := true, doorF := true, doorR := true } s t := by
  have h := Only.refl { rf := true, irqNow := true, sch := true, doorF := true, doorR := true } s
  have tt : true = true := rfl
  unfold execHoldTimeEnd
  refine ⟨_, rfl, ?_⟩
  try dsimp only
  repeat' first | (with_reducible first | assumption | apply State.schHoldEnd_only rfl rfl rfl rfl rfl | apply each_only | apply foldl_only) | intro _ _ _ | split | dsimp only

theorem State.btnStuckNow_only {pt : Parts} (h_rf : pt.rf = true) (h_irqNow : pt.irqNow = true) (h_sch : pt.sch = true) {s₀ s : State} (h : Only pt s₀ s) (n : Nat) : Only pt s₀ (State.btnStuckNow s n) := by
  unfold State.btnStuckNow
  try dsimp only
  repeat' first | (with_reducible first | assumption | apply State.raise_only h_rf h_irqNow | apply each_only | apply foldl_only) | intro _ _ _ | split | (refine Only.upd ?_ (.inr rfl) (.inr rfl) (.inr rfl) (.inl h_rf) (.inl h_irqNow) (.inr rfl) (.inr rfl) (.inr rfl) (.inr rfl) (.inl h_sch) (.inr rfl) (.inr rfl) (.inr rfl) (.inr rfl) (.inr rfl) (.inr rfl) (.inr rfl) (.inr rfl) (.inr rfl) (.inr rfl) (.inr rfl) (.inr rfl) (.inr rfl) (.inr rfl) (.inr rfl) (.inr rfl); try dsimp only)

theorem execBtnStuck_only (landing : Nat) (s : State) : ∃ t, execBtnStuck landing s = .next t ∧ Only { rf := true, irqNow := true, sch := true } s t := by
  have h := Only.refl { rf := true, irqNow := true, sch := true } s
  have tt : true = true := rfl
  unfold execBtnStuck
  refine ⟨_, rfl, ?_⟩
  try dsimp only
  repeat' first | (with_reducible first | assumption | apply State.btnStuckNow_only rfl rfl rfl | apply each_only | apply foldl_only) | intro _ _ _ | split | dsimp only

end Sys2Proof.Machine
end

