-- ==== Sys2Proof/Laws/OnlyGroup.lean ====
section
/-! SUPPORT. Which parts of the state the operations of Machine/Group.lean leave the same. -/

set_option linter.unusedTactic false
set_option linter.unreachableTactic false

namespace Sys2Proof.Machine

theorem State.drvFrame_only {pt : Parts} (h_rf : pt.rf = true) (h_irqNow : pt.irqNow = true) (h_pos : pt.pos = true) (h_lwb : pt.lwb = true) (h_mot : pt.mot = true) (h_drv : pt.drv = true) (h_doorF : pt.doorF = true) (h_doorR : pt.doorR = true) (h_el : pt.el = true) (h_can : pt.can = true) (h_part : pt.part = true) (h_rcd : pt.rcd = true) {s₀ s : State} (h : Only pt s₀ s) (f : CanFrame) : Only pt s₀ (State.drvFrame s f) := by
  unfold State.drvFrame
  try dsimp only
  repeat' first | (with_reducible first | assumption | apply State.canTake_only h_can | apply State.ciaTpdoIn_only h_rf h_irqNow h_pos h_lwb h_mot h_drv h_doorF h_doorR h_el h_can h_part h_rcd | apply State.sdoConfirm_only h_rf h_drv | apply each_only | apply foldl_only) | intro _ _ _ | split | dsimp only

theorem State.engineFrame_only {pt : Parts} (h_rf : pt.rf = true) (h_irqNow : pt.irqNow = true) (h_pos : pt.pos = true) (h_lwb : pt.lwb = true) (h_mot : pt.mot = true) (h_drv : pt.drv = true) (h_sch : pt.sch = true) (h_bid : pt.bid = true) (h_doorF : pt.doorF = true) (h_doorR : pt.doorR = true) (h_el : pt.el = true) (h_can : pt.can = true) (h_part : pt.part = true) (h_rcd : pt.rcd = true) {s₀ s : State} (h : Only pt s₀ s) (n : Nat) (f : CanFrame) : Only pt s₀ (State.engineFrame s n f) := by
  unfold State.engineFrame
  try dsimp only
  repeat' first | (with_reducible first | assumption | apply State.pressRx_only h_rf h_irqNow h_sch h_bid h_doorF h_doorR h_can | apply State.announcementRx_only h_rf h_irqNow h_bid h_can | apply State.bidFrameRx_only h_rf h_irqNow h_bid h_can | apply State.releaseRx_only h_rf h_irqNow h_bid h_can | apply State.drvFrame_only h_rf h_irqNow h_pos h_lwb h_mot h_drv h_doorF h_doorR h_el h_can h_part h_rcd | apply each_only | apply foldl_only) | intro _ _ _ | split | (refine Only.upd ?_ (.inr rfl) (.inr rfl) (.inr rfl) (.inl h_rf) (.inl h_irqNow) (.inl h_pos) (.inl h_lwb) (.inl h_mot) (.inl h_drv) (.inl h_sch) (.inl h_bid) (.inl h_doorF) (.inl h_doorR) (.inl h_el) (.inr rfl) (.inl h_can) (.inr rfl) (.inr rfl) (.inr rfl) (.inl h_part) (.inl h_rcd) (.inr rfl) (.inr rfl) (.inr rfl) (.inr rfl) (.inr rfl); try dsimp only)

theorem State.canIncoming_only {pt : Parts} (h_rf : pt.rf = true) (h_irqNow : pt.irqNow = true) (h_pos : pt.pos = true) (h_lwb : pt.lwb = true) (h_mot : pt.mot = true) (h_drv : pt.drv = true) (h_sch : pt.sch = true) (h_bid : pt.bid = true) (h_doorF : pt.doorF = true) (h_doorR : pt.doorR = true) (h_el : pt.el = true) (h_can : pt.can = true) (h_part : pt.part = true) (h_rcd : pt.rcd = true) {s₀ s : State} (h : Only pt s₀ s) (n : Nat) (f : CanFrame) : Only pt s₀ (State.canIncoming s n f) := by
  unfold State.canIncoming
  try dsimp only
  repeat' first | (with_reducible first | assumption | apply State.canReceive_only h_rf h_irqNow h_can | apply State.engineFrame_only h_rf h_irqNow h_pos h_lwb h_mot h_drv h_sch h_bid h_doorF h_doorR h_el h_can h_part h_rcd | apply each_only | apply foldl_only) | intro _ _ _ | split | dsimp only

theorem execHallPress_only (frame : CanFrame) (s : State) : ∃ t, execHallPress frame s = .next t ∧ Only { rf := true, irqNow := true, pos := true, lwb := true, mot := true, drv := true, sch := true, bid := true, doorF := true, doorR := true, el := true, can := true, part := true, rcd := true } s t := by
  have h := Only.refl { rf := true, irqNow := true, pos := true, lwb := true, mot := true, drv := true, sch := true, bid := true, doorF := true, doorR := true, el := true, can := true, part := true, rcd := true } s
  have tt : true = true := rfl
  unfold execHallPress
  refine ⟨_, rfl, ?_⟩
  try dsimp only
  repeat' first | (with_reducible first | assumption | apply State.canIncoming_only rfl rfl rfl rfl rfl rfl rfl rfl rfl rfl rfl rfl rfl rfl | apply each_only | apply foldl_only) | intro _ _ _ | split | dsimp only

theorem execAnnouncement_only (frame : CanFrame) (s : State) : ∃ t, execAnnouncement frame s = .next t ∧ Only { rf := true, irqNow := true, pos := true, lwb := true, mot := true, drv := true, sch := true, bid := true, doorF := true, doorR := true, el := true, can := true, part := true, rcd := true } s t := by
  have h := Only.refl { rf := true, irqNow := true, pos := true, lwb := true, mot := true, drv := true, sch := true, bid := true, doorF := true, doorR := true, el := true, can := true, part := true, rcd := true } s
  have tt : true = true := rfl
  unfold execAnnouncement
  refine ⟨_, rfl, ?_⟩
  try dsimp only
  repeat' first | (with_reducible first | assumption | apply State.canIncoming_only rfl rfl rfl rfl rfl rfl rfl rfl rfl rfl rfl rfl rfl rfl | apply each_only | apply foldl_only) | intro _ _ _ | split | dsimp only

theorem execBidFrame_only (frame : CanFrame) (s : State) : ∃ t, execBidFrame frame s = .next t ∧ Only { rf := true, irqNow := true, pos := true, lwb := true, mot := true, drv := true, sch := true, bid := true, doorF := true, doorR := true, el := true, can := true, part := true, rcd := true } s t := by
  have h := Only.refl { rf := true, irqNow := true, pos := true, lwb := true, mot := true, drv := true, sch := true, bid := true, doorF := true, doorR := true, el := true, can := true, part := true, rcd := true } s
  have tt : true = true := rfl
  unfold execBidFrame
  refine ⟨_, rfl, ?_⟩
  try dsimp only
  repeat' first | (with_reducible first | assumption | apply State.canIncoming_only rfl rfl rfl rfl rfl rfl rfl rfl rfl rfl rfl rfl rfl rfl | apply each_only | apply foldl_only) | intro _ _ _ | split | dsimp only

theorem execRoundNobid_only  (s : State) : ∃ t, execRoundNobid s = .next t ∧ Only { rf := true, irqNow := true, bid := true, can := true } s t := by
  have h := Only.refl { rf := true, irqNow := true, bid := true, can := true } s
  have tt : true = true := rfl
  unfold execRoundNobid
  refine ⟨_, rfl, ?_⟩
  try dsimp only
  repeat' first | (with_reducible first | assumption | apply State.roundNobid_only rfl rfl rfl rfl | apply each_only | apply foldl_only) | intro _ _ _ | split | dsimp only

theorem execReleaseFrame_only (frame : CanFrame) (s : State) : ∃ t, execReleaseFrame frame s = .next t ∧ Only { rf := true, irqNow := true, pos := true, lwb := true, mot := true, drv := true, sch := true, bid := true, doorF := true, doorR := true, el := true, can := true, part := true, rcd := true } s t := by
  have h := Only.refl { rf := true, irqNow := true, pos := true, lwb := true, mot := true, drv := true, sch := true, bid := true, doorF := true, doorR := true, el := true, can := true, part := true, rcd := true } s
  have tt : true = true := rfl
  unfold execReleaseFrame
  refine ⟨_, rfl, ?_⟩
  try dsimp only
  repeat' first | (with_reducible first | assumption | apply State.canIncoming_only rfl rfl rfl rfl rfl rfl rfl rfl rfl rfl rfl rfl rfl rfl | apply each_only | apply foldl_only) | intro _ _ _ | split | dsimp only

theorem execAwardTakeEffect_only  (s : State) : ∃ t, execAwardTakeEffect s = .next t ∧ Only { rf := true, irqNow := true, sch := true, bid := true, doorF := true, doorR := true, can := true } s t := by
  have h := Only.refl { rf := true, irqNow := true, sch := true, bid := true, doorF := true, doorR := true, can := true } s
  have tt : true = true := rfl
  unfold execAwardTakeEffect
  refine ⟨_, rfl, ?_⟩
  try dsimp only
  repeat' first | (with_reducible first | assumption | apply State.awardsNow_only rfl rfl rfl rfl rfl rfl rfl | apply each_only | apply foldl_only) | intro _ _ _ | split | dsimp only

theorem execAnnounceRepeat_only (key : Nat) (seq : Nat) (s : State) : ∃ t, execAnnounceRepeat key seq s = .next t ∧ Only { rf := true, irqNow := true, bid := true, can := true } s t := by
  have h := Only.refl { rf := true, irqNow := true, bid := true, can := true } s
  have tt : true = true := rfl
  unfold execAnnounceRepeat
  refine ⟨_, rfl, ?_⟩
  try dsimp only
  repeat' first | (with_reducible first | assumption | apply State.repeatNow_only rfl rfl rfl rfl | apply each_only | apply foldl_only) | intro _ _ _ | split | dsimp only

theorem execRebid_only (key : Nat) (seq : Nat) (s : State) : ∃ t, execRebid key seq s = .next t ∧ Only { rf := true, irqNow := true, bid := true, can := true } s t := by
  have h := Only.refl { rf := true, irqNow := true, bid := true, can := true } s
  have tt : true = true := rfl
  unfold execRebid
  refine ⟨_, rfl, ?_⟩
  try dsimp only
  repeat' first | (with_reducible first | assumption | apply State.rebidNow_only rfl rfl rfl rfl | apply each_only | apply foldl_only) | intro _ _ _ | split | dsimp only

theorem execOrphanDetect_only (key : Nat) (seq : Nat) (s : State) : ∃ t, execOrphanDetect key seq s = .next t ∧ Only { rf := true, irqNow := true, bid := true, can := true } s t := by
  have h := Only.refl { rf := true, irqNow := true, bid := true, can := true } s
  have tt : true = true := rfl
  unfold execOrphanDetect
  refine ⟨_, rfl, ?_⟩
  try dsimp only
  repeat' first | (with_reducible first | assumption | apply State.orphanNow_only rfl rfl rfl rfl | apply each_only | apply foldl_only) | intro _ _ _ | split | dsimp only

theorem execListenEnd_only  (s : State) : ∃ t, execListenEnd s = .next t ∧ Only { rf := true, irqNow := true, sch := true, bid := true, doorF := true, doorR := true, can := true } s t := by
  have h := Only.refl { rf := true, irqNow := true, sch := true, bid := true, doorF := true, doorR := true, can := true } s
  have tt : true = true := rfl
  unfold execListenEnd
  refine ⟨_, rfl, ?_⟩
  try dsimp only
  repeat' first | (with_reducible first | assumption | apply State.listenEnd_only rfl rfl rfl rfl rfl rfl rfl | apply each_only | apply foldl_only) | intro _ _ _ | split | dsimp only

theorem execIslandEnter_only  (s : State) : ∃ t, execIslandEnter s = .next t ∧ Only { rf := true, irqNow := true, bid := true, can := true } s t := by
  have h := Only.refl { rf := true, irqNow := true, bid := true, can := true } s
  have tt : true = true := rfl
  unfold execIslandEnter
  refine ⟨_, rfl, ?_⟩
  try dsimp only
  repeat' first | (with_reducible first | assumption | apply State.islandEnter_only rfl rfl rfl rfl | apply each_only | apply foldl_only) | intro _ _ _ | split | dsimp only

theorem execIslandExit_only  (s : State) : ∃ t, execIslandExit s = .next t ∧ Only { rf := true, irqNow := true, bid := true } s t := by
  have h := Only.refl { rf := true, irqNow := true, bid := true } s
  have tt : true = true := rfl
  unfold execIslandExit
  refine ⟨_, rfl, ?_⟩
  try dsimp only
  repeat' first | (with_reducible first | assumption | apply State.islandExit_only rfl rfl rfl | apply each_only | apply foldl_only) | intro _ _ _ | split | dsimp only

theorem execBidRunSet_only  (s : State) : ∃ t, execBidRunSet s = .next t ∧ Only { rf := true, irqNow := true, bid := true } s t := by
  have h := Only.refl { rf := true, irqNow := true, bid := true } s
  have tt : true = true := rfl
  unfold execBidRunSet
  refine ⟨_, rfl, ?_⟩
  try dsimp only
  repeat' first | (with_reducible first | assumption | apply State.bidRunSet_only rfl rfl rfl | apply each_only | apply foldl_only) | intro _ _ _ | split | dsimp only

end Sys2Proof.Machine
end

