-- ==== Sys2Proof/Laws/OnlyDoors.lean ====
section
/-! SUPPORT. Which parts of the state the operations of Machine/Doors.lean leave the same. -/

set_option linter.unusedTactic false
set_option linter.unreachableTactic false

namespace Sys2Proof.Machine

theorem State.doorSample_only {pt : Parts} (h_doorF : pt.doorF = true) (h_doorR : pt.doorR = true) {s₀ s : State} (h : Only pt s₀ s) (c : Chan) (i : DoorIn) : Only pt s₀ (State.doorSample s c i) := by
  unfold State.doorSample
  try dsimp only
  repeat' first | (with_reducible first | assumption | apply State.setDoor_only h_doorF h_doorR | apply each_only | apply foldl_only) | intro _ _ _ | split | (refine Only.upd ?_ (.inr rfl) (.inr rfl) (.inr rfl) (.inr rfl) (.inr rfl) (.inr rfl) (.inr rfl) (.inr rfl) (.inr rfl) (.inr rfl) (.inr rfl) (.inl h_doorF) (.inl h_doorR) (.inr rfl) (.inr rfl) (.inr rfl) (.inr rfl) (.inr rfl) (.inr rfl) (.inr rfl) (.inr rfl) (.inr rfl) (.inr rfl) (.inr rfl) (.inr rfl) (.inr rfl); try dsimp only)

theorem State.learnMove_only {pt : Parts} (h_doorF : pt.doorF = true) (h_doorR : pt.doorR = true) {s₀ s : State} (h : Only pt s₀ s) (c : Chan) (l : Learn) : Only pt s₀ (State.learnMove s c l) := by
  unfold State.learnMove
  try dsimp only
  repeat' first | (with_reducible first | assumption | apply State.setDoor_only h_doorF h_doorR | apply each_only | apply foldl_only) | intro _ _ _ | split | (refine Only.upd ?_ (.inr rfl) (.inr rfl) (.inr rfl) (.inr rfl) (.inr rfl) (.inr rfl) (.inr rfl) (.inr rfl) (.inr rfl) (.inr rfl) (.inr rfl) (.inl h_doorF) (.inl h_doorR) (.inr rfl) (.inr rfl) (.inr rfl) (.inr rfl) (.inr rfl) (.inr rfl) (.inr rfl) (.inr rfl) (.inr rfl) (.inr rfl) (.inr rfl) (.inr rfl) (.inr rfl); try dsimp only)

theorem State.learnEval_only {pt : Parts} (h_doorF : pt.doorF = true) (h_doorR : pt.doorR = true) {s₀ s : State} (h : Only pt s₀ s) (c : Chan) (i : DoorIn) : Only pt s₀ (State.learnEval s c i) := by
  unfold State.learnEval
  try dsimp only
  repeat' first | (with_reducible first | assumption | apply State.setDoor_only h_doorF h_doorR | apply State.learnMove_only h_doorF h_doorR | apply each_only | apply foldl_only) | intro _ _ _ | split | (refine Only.upd ?_ (.inr rfl) (.inr rfl) (.inr rfl) (.inr rfl) (.inr rfl) (.inr rfl) (.inr rfl) (.inr rfl) (.inr rfl) (.inr rfl) (.inr rfl) (.inl h_doorF) (.inl h_doorR) (.inr rfl) (.inr rfl) (.inr rfl) (.inr rfl) (.inr rfl) (.inr rfl) (.inr rfl) (.inr rfl) (.inr rfl) (.inr rfl) (.inr rfl) (.inr rfl) (.inr rfl); try dsimp only)

theorem State.doorGuard_only {pt : Parts} (h_rf : pt.rf = true) (h_irqNow : pt.irqNow = true) (h_sch : pt.sch = true) (h_doorF : pt.doorF = true) (h_doorR : pt.doorR = true) {s₀ s : State} (h : Only pt s₀ s) (c : Chan) : Only pt s₀ (State.doorGuard s c) := by
  unfold State.doorGuard
  try dsimp only
  repeat' first | (with_reducible first | assumption | apply State.doorReverse_only h_rf h_irqNow h_doorF h_doorR | apply State.doorObstructed_only h_rf h_irqNow h_doorF h_doorR | apply State.schDoorOpened_only h_rf h_irqNow h_sch h_doorF h_doorR | apply State.doorGearAbort_only h_rf h_irqNow h_doorF h_doorR | apply State.doorLearnAbort_only h_rf h_irqNow h_doorF h_doorR | apply each_only | apply foldl_only) | intro _ _ _ | split | (refine Only.upd ?_ (.inr rfl) (.inr rfl) (.inr rfl) (.inl h_rf) (.inl h_irqNow) (.inr rfl) (.inr rfl) (.inr rfl) (.inr rfl) (.inl h_sch) (.inr rfl) (.inl h_doorF) (.inl h_doorR) (.inr rfl) (.inr rfl) (.inr rfl) (.inr rfl) (.inr rfl) (.inr rfl) (.inr rfl) (.inr rfl) (.inr rfl) (.inr rfl) (.inr rfl) (.inr rfl) (.inr rfl); try dsimp only)

theorem execDoorEval_only (axis : Chan) (i : DoorIn) (s : State) : ∃ t, execDoorEval axis i s = .next t ∧ Only { rf := true, irqNow := true, sch := true, doorF := true, doorR := true } s t := by
  have h := Only.refl { rf := true, irqNow := true, sch := true, doorF := true, doorR := true } s
  have tt : true = true := rfl
  unfold execDoorEval
  refine ⟨_, rfl, ?_⟩
  try dsimp only
  repeat' first | (with_reducible first | assumption | apply State.doorSample_only rfl rfl | apply State.doorGuard_only rfl rfl rfl rfl rfl | apply State.learnEval_only rfl rfl | apply each_only | apply foldl_only) | intro _ _ _ | split | dsimp only

theorem execStepLoss_only (axis : Chan) (s : State) : ∃ t, execStepLoss axis s = .next t ∧ Only { rf := true, irqNow := true, doorF := true, doorR := true } s t := by
  have h := Only.refl { rf := true, irqNow := true, doorF := true, doorR := true } s
  have tt : true = true := rfl
  unfold execStepLoss
  refine ⟨_, rfl, ?_⟩
  try dsimp only
  repeat' first | (with_reducible first | assumption | apply State.doorLosePos_only rfl rfl rfl rfl | apply State.doorFaulted_only rfl rfl rfl rfl | apply each_only | apply foldl_only) | intro _ _ _ | split | dsimp only

theorem execDoorAutoHome_only (axis : Chan) (s : State) : ∃ t, execDoorAutoHome axis s = .next t ∧ Only { rf := true, irqNow := true, doorF := true, doorR := true } s t := by
  have h := Only.refl { rf := true, irqNow := true, doorF := true, doorR := true } s
  have tt : true = true := rfl
  unfold execDoorAutoHome
  refine ⟨_, rfl, ?_⟩
  try dsimp only
  repeat' first | (with_reducible first | assumption | apply State.doorStartHome_only rfl rfl rfl rfl | apply each_only | apply foldl_only) | intro _ _ _ | split | dsimp only

theorem execDoorOpenEnd_only (axis : Chan) (s : State) : ∃ t, execDoorOpenEnd axis s = .next t ∧ Only { rf := true, irqNow := true, sch := true, doorF := true, doorR := true } s t := by
  have h := Only.refl { rf := true, irqNow := true, sch := true, doorF := true, doorR := true } s
  have tt : true = true := rfl
  unfold execDoorOpenEnd
  refine ⟨_, rfl, ?_⟩
  try dsimp only
  repeat' first | (with_reducible first | assumption | apply State.doorOpened_only rfl rfl rfl rfl | apply State.schDoorOpened_only rfl rfl rfl rfl rfl | apply each_only | apply foldl_only) | intro _ _ _ | split | dsimp only

theorem State.doorClosedNow_only {pt : Parts} (h_rf : pt.rf = true) (h_irqNow : pt.irqNow = true) (h_doorF : pt.doorF = true) (h_doorR : pt.doorR = true) {s₀ s : State} (h : Only pt s₀ s) (c : Chan) : Only pt s₀ (State.doorClosedNow s c) := by
  unfold State.doorClosedNow
  try dsimp only
  repeat' first | (with_reducible first | assumption | apply State.setDoor_only h_doorF h_doorR | apply State.doorInto_only h_rf h_irqNow h_doorF h_doorR | apply each_only | apply foldl_only) | intro _ _ _ | split | (refine Only.upd ?_ (.inr rfl) (.inr rfl) (.inr rfl) (.inl h_rf) (.inl h_irqNow) (.inr rfl) (.inr rfl) (.inr rfl) (.inr rfl) (.inr rfl) (.inr rfl) (.inl h_doorF) (.inl h_doorR) (.inr rfl) (.inr rfl) (.inr rfl) (.inr rfl) (.inr rfl) (.inr rfl) (.inr rfl) (.inr rfl) (.inr rfl) (.inr rfl) (.inr rfl) (.inr rfl) (.inr rfl); try dsimp only)

theorem execDoorCloseEnd_only (axis : Chan) (s : State) : ∃ t, execDoorCloseEnd axis s = .next t ∧ Only { rf := true, irqNow := true, doorF := true, doorR := true } s t := by
  have h := Only.refl { rf := true, irqNow := true, doorF := true, doorR := true } s
  have tt : true = true := rfl
  unfold execDoorCloseEnd
  refine ⟨_, rfl, ?_⟩
  try dsimp only
  repeat' first | (with_reducible first | assumption | apply State.doorClosedNow_only rfl rfl rfl rfl | apply each_only | apply foldl_only) | intro _ _ _ | split | dsimp only

theorem State.doorHomedNow_only {pt : Parts} (h_rf : pt.rf = true) (h_irqNow : pt.irqNow = true) (h_doorF : pt.doorF = true) (h_doorR : pt.doorR = true) {s₀ s : State} (h : Only pt s₀ s) (c : Chan) : Only pt s₀ (State.doorHomedNow s c) := by
  unfold State.doorHomedNow
  try dsimp only
  repeat' first | (with_reducible first | assumption | apply State.setDoor_only h_doorF h_doorR | apply State.doorInto_only h_rf h_irqNow h_doorF h_doorR | apply State.raise_only h_rf h_irqNow | apply each_only | apply foldl_only) | intro _ _ _ | split | (refine Only.upd ?_ (.inr rfl) (.inr rfl) (.inr rfl) (.inl h_rf) (.inl h_irqNow) (.inr rfl) (.inr rfl) (.inr rfl) (.inr rfl) (.inr rfl) (.inr rfl) (.inl h_doorF) (.inl h_doorR) (.inr rfl) (.inr rfl) (.inr rfl) (.inr rfl) (.inr rfl) (.inr rfl) (.inr rfl) (.inr rfl) (.inr rfl) (.inr rfl) (.inr rfl) (.inr rfl) (.inr rfl); try dsimp only)

theorem execDoorHomed_only (axis : Chan) (s : State) : ∃ t, execDoorHomed axis s = .next t ∧ Only { rf := true, irqNow := true, doorF := true, doorR := true } s t := by
  have h := Only.refl { rf := true, irqNow := true, doorF := true, doorR := true } s
  have tt : true = true := rfl
  unfold execDoorHomed
  refine ⟨_, rfl, ?_⟩
  try dsimp only
  repeat' first | (with_reducible first | assumption | apply State.doorHomedNow_only rfl rfl rfl rfl | apply each_only | apply foldl_only) | intro _ _ _ | split | dsimp only

theorem execDoorHomeFail_only (axis : Chan) (s : State) : ∃ t, execDoorHomeFail axis s = .next t ∧ Only { rf := true, irqNow := true, doorF := true, doorR := true } s t := by
  have h := Only.refl { rf := true, irqNow := true, doorF := true, doorR := true } s
  have tt : true = true := rfl
  unfold execDoorHomeFail
  refine ⟨_, rfl, ?_⟩
  try dsimp only
  repeat' first | (with_reducible first | assumption | apply State.raise_only rfl rfl | apply State.doorFaulted_only rfl rfl rfl rfl | apply each_only | apply foldl_only) | intro _ _ _ | split | dsimp only

theorem execDoorObstructRetry_only (axis : Chan) (s : State) : ∃ t, execDoorObstructRetry axis s = .next t ∧ Only { rf := true, irqNow := true, doorF := true, doorR := true } s t := by
  have h := Only.refl { rf := true, irqNow := true, doorF := true, doorR := true } s
  have tt : true = true := rfl
  unfold execDoorObstructRetry
  refine ⟨_, rfl, ?_⟩
  try dsimp only
  repeat' first | (with_reducible first | assumption | apply State.doorStartOpen_only rfl rfl rfl rfl | apply each_only | apply foldl_only) | intro _ _ _ | split | dsimp only

theorem State.doorLockFail_only {pt : Parts} (h_rf : pt.rf = true) (h_irqNow : pt.irqNow = true) (h_doorF : pt.doorF = true) (h_doorR : pt.doorR = true) {s₀ s : State} (h : Only pt s₀ s) (c : Chan) : Only pt s₀ (State.doorLockFail s c) := by
  unfold State.doorLockFail
  try dsimp only
  repeat' first | (with_reducible first | assumption | apply KeyOut.fail_only  | apply State.setDoor_only h_doorF h_doorR | apply State.doorStartOpen_only h_rf h_irqNow h_doorF h_doorR | apply State.raise_only h_rf h_irqNow | apply each_only | apply foldl_only) | intro _ _ _ | split | (refine Only.upd ?_ (.inr rfl) (.inr rfl) (.inr rfl) (.inl h_rf) (.inl h_irqNow) (.inr rfl) (.inr rfl) (.inr rfl) (.inr rfl) (.inr rfl) (.inr rfl) (.inl h_doorF) (.inl h_doorR) (.inr rfl) (.inr rfl) (.inr rfl) (.inr rfl) (.inr rfl) (.inr rfl) (.inr rfl) (.inr rfl) (.inr rfl) (.inr rfl) (.inr rfl) (.inr rfl) (.inr rfl); try dsimp only)

theorem execDoorLockTimeout_only (axis : Chan) (s : State) : ∃ t, execDoorLockTimeout axis s = .next t ∧ Only { rf := true, irqNow := true, doorF := true, doorR := true } s t := by
  have h := Only.refl { rf := true, irqNow := true, doorF := true, doorR := true } s
  have tt : true = true := rfl
  unfold execDoorLockTimeout
  refine ⟨_, rfl, ?_⟩
  try dsimp only
  repeat' first | (with_reducible first | assumption | apply State.doorLockFail_only rfl rfl rfl rfl | apply each_only | apply foldl_only) | intro _ _ _ | split | (refine Only.upd ?_ (.inr rfl) (.inr rfl) (.inr rfl) (.inl rfl) (.inl rfl) (.inr rfl) (.inr rfl) (.inr rfl) (.inr rfl) (.inr rfl) (.inr rfl) (.inl rfl) (.inl rfl) (.inr rfl) (.inr rfl) (.inr rfl) (.inr rfl) (.inr rfl) (.inr rfl) (.inr rfl) (.inr rfl) (.inr rfl) (.inr rfl) (.inr rfl) (.inr rfl) (.inr rfl); try dsimp only)

theorem execDoorDeferEnd_only (axis : Chan) (s : State) : ∃ t, execDoorDeferEnd axis s = .next t ∧ Only { rf := true, irqNow := true, doorF := true, doorR := true } s t := by
  have h := Only.refl { rf := true, irqNow := true, doorF := true, doorR := true } s
  have tt : true = true := rfl
  unfold execDoorDeferEnd
  refine ⟨_, rfl, ?_⟩
  try dsimp only
  repeat' first | (with_reducible first | assumption | apply State.doorStartClose_only rfl rfl rfl rfl | apply each_only | apply foldl_only) | intro _ _ _ | split | dsimp only

theorem State.nudgeNow_only {pt : Parts} (h_rf : pt.rf = true) (h_irqNow : pt.irqNow = true) (h_doorF : pt.doorF = true) (h_doorR : pt.doorR = true) {s₀ s : State} (h : Only pt s₀ s) (c : Chan) : Only pt s₀ (State.nudgeNow s c) := by
  unfold State.nudgeNow
  try dsimp only
  repeat' first | (with_reducible first | assumption | apply State.setDoor_only h_doorF h_doorR | apply State.doorStartClose_only h_rf h_irqNow h_doorF h_doorR | apply each_only | apply foldl_only) | intro _ _ _ | split | (refine Only.upd ?_ (.inr rfl) (.inr rfl) (.inr rfl) (.inl h_rf) (.inl h_irqNow) (.inr rfl) (.inr rfl) (.inr rfl) (.inr rfl) (.inr rfl) (.inr rfl) (.inl h_doorF) (.inl h_doorR) (.inr rfl) (.inr rfl) (.inr rfl) (.inr rfl) (.inr rfl) (.inr rfl) (.inr rfl) (.inr rfl) (.inr rfl) (.inr rfl) (.inr rfl) (.inr rfl) (.inr rfl); try dsimp only)

theorem execDoorNudge_only (axis : Chan) (s : State) : ∃ t, execDoorNudge axis s = .next t ∧ Only { rf := true, irqNow := true, doorF := true, doorR := true } s t := by
  have h := Only.refl { rf := true, irqNow := true, doorF := true, doorR := true } s
  have tt : true = true := rfl
  unfold execDoorNudge
  refine ⟨_, rfl, ?_⟩
  try dsimp only
  repeat' first | (with_reducible first | assumption | apply State.nudgeNow_only rfl rfl rfl rfl | apply each_only | apply foldl_only) | intro _ _ _ | split | (refine Only.upd ?_ (.inr rfl) (.inr rfl) (.inr rfl) (.inl rfl) (.inl rfl) (.inr rfl) (.inr rfl) (.inr rfl) (.inr rfl) (.inr rfl) (.inr rfl) (.inl rfl) (.inl rfl) (.inr rfl) (.inr rfl) (.inr rfl) (.inr rfl) (.inr rfl) (.inr rfl) (.inr rfl) (.inr rfl) (.inr rfl) (.inr rfl) (.inr rfl) (.inr rfl) (.inr rfl); try dsimp only)

theorem execDoorReverseEnd_only (axis : Chan) (s : State) : ∃ t, execDoorReverseEnd axis s = .next t ∧ Only { rf := true, irqNow := true, doorF := true, doorR := true } s t := by
  have h := Only.refl { rf := true, irqNow := true, doorF := true, doorR := true } s
  have tt : true = true := rfl
  unfold execDoorReverseEnd
  refine ⟨_, rfl, ?_⟩
  try dsimp only
  repeat' first | (with_reducible first | assumption | apply State.setDoor_only rfl rfl | apply State.doorStartOpen_only rfl rfl rfl rfl | apply State.doorInto_only rfl rfl rfl rfl | apply each_only | apply foldl_only) | intro _ _ _ | split | (refine Only.upd ?_ (.inr rfl) (.inr rfl) (.inr rfl) (.inl rfl) (.inl rfl) (.inr rfl) (.inr rfl) (.inr rfl) (.inr rfl) (.inr rfl) (.inr rfl) (.inl rfl) (.inl rfl) (.inr rfl) (.inr rfl) (.inr rfl) (.inr rfl) (.inr rfl) (.inr rfl) (.inr rfl) (.inr rfl) (.inr rfl) (.inr rfl) (.inr rfl) (.inr rfl) (.inr rfl); try dsimp only)

theorem State.learnDone_only {pt : Parts} (h_rf : pt.rf = true) (h_irqNow : pt.irqNow = true) (h_doorF : pt.doorF = true) (h_doorR : pt.doorR = true) {s₀ s : State} (h : Only pt s₀ s) (c : Chan) (l : Learn) : Only pt s₀ (State.learnDone s c l) := by
  unfold State.learnDone
  try dsimp only
  repeat' first | (with_reducible first | assumption | apply State.doorLearnAbort_only h_rf h_irqNow h_doorF h_doorR | apply State.wi_only h_rf | apply State.wf__only h_rf | apply State.setDoor_only h_doorF h_doorR | apply State.doorInto_only h_rf h_irqNow h_doorF h_doorR | apply State.raise_only h_rf h_irqNow | apply each_only | apply foldl_only) | intro _ _ _ | split | (refine Only.upd ?_ (.inr rfl) (.inr rfl) (.inr rfl) (.inl h_rf) (.inl h_irqNow) (.inr rfl) (.inr rfl) (.inr rfl) (.inr rfl) (.inr rfl) (.inr rfl) (.inl h_doorF) (.inl h_doorR) (.inr rfl) (.inr rfl) (.inr rfl) (.inr rfl) (.inr rfl) (.inr rfl) (.inr rfl) (.inr rfl) (.inr rfl) (.inr rfl) (.inr rfl) (.inr rfl) (.inr rfl); try dsimp only)

theorem execDoorLearnDone_only (axis : Chan) (s : State) : ∃ t, execDoorLearnDone axis s = .next t ∧ Only { rf := true, irqNow := true, doorF := true, doorR := true } s t := by
  have h := Only.refl { rf := true, irqNow := true, doorF := true, doorR := true } s
  have tt : true = true := rfl
  unfold execDoorLearnDone
  refine ⟨_, rfl, ?_⟩
  try dsimp only
  repeat' first | (with_reducible first | assumption | apply State.learnDone_only rfl rfl rfl rfl | apply each_only | apply foldl_only) | intro _ _ _ | split | (refine Only.upd ?_ (.inr rfl) (.inr rfl) (.inr rfl) (.inl rfl) (.inl rfl) (.inr rfl) (.inr rfl) (.inr rfl) (.inr rfl) (.inr rfl) (.inr rfl) (.inl rfl) (.inl rfl) (.inr rfl) (.inr rfl) (.inr rfl) (.inr rfl) (.inr rfl) (.inr rfl) (.inr rfl) (.inr rfl) (.inr rfl) (.inr rfl) (.inr rfl) (.inr rfl) (.inr rfl); try dsimp only)

theorem execDoorStageFault_only (axis : Chan) (code : Nat) (s : State) : ∃ t, execDoorStageFault axis code s = .next t ∧ Only { rf := true, irqNow := true, doorF := true, doorR := true } s t := by
  have h := Only.refl { rf := true, irqNow := true, doorF := true, doorR := true } s
  have tt : true = true := rfl
  unfold execDoorStageFault
  refine ⟨_, rfl, ?_⟩
  try dsimp only
  repeat' first | (with_reducible first | assumption | apply State.setDoor_only rfl rfl | apply State.doorFaulted_only rfl rfl rfl rfl | apply each_only | apply foldl_only) | intro _ _ _ | split | (refine Only.upd ?_ (.inr rfl) (.inr rfl) (.inr rfl) (.inl rfl) (.inl rfl) (.inr rfl) (.inr rfl) (.inr rfl) (.inr rfl) (.inr rfl) (.inr rfl) (.inl rfl) (.inl rfl) (.inr rfl) (.inr rfl) (.inr rfl) (.inr rfl) (.inr rfl) (.inr rfl) (.inr rfl) (.inr rfl) (.inr rfl) (.inr rfl) (.inr rfl) (.inr rfl) (.inr rfl); try dsimp only)

theorem State.supplyBad_only {pt : Parts} (h_doorF : pt.doorF = true) (h_doorR : pt.doorR = true) {s₀ s : State} (h : Only pt s₀ s) (c : Chan) (overLimit : Bool) : Only pt s₀ (State.supplyBad s c overLimit) := by
  unfold State.supplyBad
  try dsimp only
  repeat' first | (with_reducible first | assumption | apply State.setDoor_only h_doorF h_doorR | apply each_only | apply foldl_only) | intro _ _ _ | split | (refine Only.upd ?_ (.inr rfl) (.inr rfl) (.inr rfl) (.inr rfl) (.inr rfl) (.inr rfl) (.inr rfl) (.inr rfl) (.inr rfl) (.inr rfl) (.inr rfl) (.inl h_doorF) (.inl h_doorR) (.inr rfl) (.inr rfl) (.inr rfl) (.inr rfl) (.inr rfl) (.inr rfl) (.inr rfl) (.inr rfl) (.inr rfl) (.inr rfl) (.inr rfl) (.inr rfl) (.inr rfl); try dsimp only)

theorem execDoorSupplyFault_only (overLimit : Bool) (s : State) : ∃ t, execDoorSupplyFault overLimit s = .next t ∧ Only { doorF := true, doorR := true } s t := by
  have h := Only.refl { doorF := true, doorR := true } s
  have tt : true = true := rfl
  unfold execDoorSupplyFault
  refine ⟨_, rfl, ?_⟩
  try dsimp only
  repeat' first | (with_reducible first | assumption | apply State.supplyBad_only rfl rfl | apply each_only | apply foldl_only) | intro _ _ _ | split | dsimp only

theorem State.doorWaited_only {pt : Parts} (h_rf : pt.rf = true) (h_irqNow : pt.irqNow = true) (h_doorF : pt.doorF = true) (h_doorR : pt.doorR = true) {s₀ s : State} (h : Only pt s₀ s) (c : Chan) : Only pt s₀ (State.doorWaited s c) := by
  unfold State.doorWaited
  try dsimp only
  repeat' first | (with_reducible first | assumption | apply State.setDoor_only h_doorF h_doorR | apply State.doorOpenAct_only h_rf h_irqNow h_doorF h_doorR | apply State.doorCloseAct_only h_rf h_irqNow h_doorF h_doorR | apply each_only | apply foldl_only) | intro _ _ _ | split | (refine Only.upd ?_ (.inr rfl) (.inr rfl) (.inr rfl) (.inl h_rf) (.inl h_irqNow) (.inr rfl) (.inr rfl) (.inr rfl) (.inr rfl) (.inr rfl) (.inr rfl) (.inl h_doorF) (.inl h_doorR) (.inr rfl) (.inr rfl) (.inr rfl) (.inr rfl) (.inr rfl) (.inr rfl) (.inr rfl) (.inr rfl) (.inr rfl) (.inr rfl) (.inr rfl) (.inr rfl) (.inr rfl); try dsimp only)

theorem State.supplyGood_only {pt : Parts} (h_rf : pt.rf = true) (h_irqNow : pt.irqNow = true) (h_doorF : pt.doorF = true) (h_doorR : pt.doorR = true) {s₀ s : State} (h : Only pt s₀ s) (c : Chan) (overLimit : Bool) : Only pt s₀ (State.supplyGood s c overLimit) := by
  unfold State.supplyGood
  try dsimp only
  repeat' first | (with_reducible first | assumption | apply State.setDoor_only h_doorF h_doorR | apply State.doorWaited_only h_rf h_irqNow h_doorF h_doorR | apply each_only | apply foldl_only) | intro _ _ _ | split | (refine Only.upd ?_ (.inr rfl) (.inr rfl) (.inr rfl) (.inl h_rf) (.inl h_irqNow) (.inr rfl) (.inr rfl) (.inr rfl) (.inr rfl) (.inr rfl) (.inr rfl) (.inl h_doorF) (.inl h_doorR) (.inr rfl) (.inr rfl) (.inr rfl) (.inr rfl) (.inr rfl) (.inr rfl) (.inr rfl) (.inr rfl) (.inr rfl) (.inr rfl) (.inr rfl) (.inr rfl) (.inr rfl); try dsimp only)

theorem execDoorSupplyRecover_only (overLimit : Bool) (s : State) : ∃ t, execDoorSupplyRecover overLimit s = .next t ∧ Only { rf := true, irqNow := true, doorF := true, doorR := true } s t := by
  have h := Only.refl { rf := true, irqNow := true, doorF := true, doorR := true } s
  have tt : true = true := rfl
  unfold execDoorSupplyRecover
  refine ⟨_, rfl, ?_⟩
  try dsimp only
  repeat' first | (with_reducible first | assumption | apply State.supplyGood_only rfl rfl rfl rfl | apply each_only | apply foldl_only) | intro _ _ _ | split | dsimp only

theorem State.doorRest_only {pt : Parts} (h_rf : pt.rf = true) (h_irqNow : pt.irqNow = true) (h_doorF : pt.doorF = true) (h_doorR : pt.doorR = true) {s₀ s : State} (h : Only pt s₀ s) (c : Chan) : Only pt s₀ (State.doorRest s c) := by
  unfold State.doorRest
  try dsimp only
  repeat' first | (with_reducible first | assumption | apply State.setDoor_only h_doorF h_doorR | apply State.raise_only h_rf h_irqNow | apply State.doorLosePos_only h_rf h_irqNow h_doorF h_doorR | apply State.doorInto_only h_rf h_irqNow h_doorF h_doorR | apply State.doorWaited_only h_rf h_irqNow h_doorF h_doorR | apply each_only | apply foldl_only) | intro _ _ _ | split | (refine Only.upd ?_ (.inr rfl) (.inr rfl) (.inr rfl) (.inl h_rf) (.inl h_irqNow) (.inr rfl) (.inr rfl) (.inr rfl) (.inr rfl) (.inr rfl) (.inr rfl) (.inl h_doorF) (.inl h_doorR) (.inr rfl) (.inr rfl) (.inr rfl) (.inr rfl) (.inr rfl) (.inr rfl) (.inr rfl) (.inr rfl) (.inr rfl) (.inr rfl) (.inr rfl) (.inr rfl) (.inr rfl); try dsimp only)

theorem execDoorRestDetect_only (axis : Chan) (count : Int) (s : State) : ∃ t, execDoorRestDetect axis count s = .next t ∧ Only { rf := true, irqNow := true, doorF := true, doorR := true } s t := by
  have h := Only.refl { rf := true, irqNow := true, doorF := true, doorR := true } s
  have tt : true = true := rfl
  unfold execDoorRestDetect
  refine ⟨_, rfl, ?_⟩
  try dsimp only
  repeat' first | (with_reducible first | assumption | apply State.doorRest_only rfl rfl rfl rfl | apply each_only | apply foldl_only) | intro _ _ _ | split | dsimp only

theorem execDoorPeakExhausted_only (axis : Chan) (s : State) : ∃ t, execDoorPeakExhausted axis s = .next t ∧ Only { doorF := true, doorR := true } s t := by
  have h := Only.refl { doorF := true, doorR := true } s
  have tt : true = true := rfl
  unfold execDoorPeakExhausted
  refine ⟨_, rfl, ?_⟩
  try dsimp only
  repeat' first | (with_reducible first | assumption | apply State.setDoor_only rfl rfl | apply each_only | apply foldl_only) | intro _ _ _ | split | (refine Only.upd ?_ (.inr rfl) (.inr rfl) (.inr rfl) (.inr rfl) (.inr rfl) (.inr rfl) (.inr rfl) (.inr rfl) (.inr rfl) (.inr rfl) (.inr rfl) (.inl rfl) (.inl rfl) (.inr rfl) (.inr rfl) (.inr rfl) (.inr rfl) (.inr rfl) (.inr rfl) (.inr rfl) (.inr rfl) (.inr rfl) (.inr rfl) (.inr rfl) (.inr rfl) (.inr rfl); try dsimp only)

theorem execDoorStagePowerUp_only (axis : Chan) (count : Int) (down : DownTime) (s : State) : ∃ t, execDoorStagePowerUp axis count down s = .next t ∧ Only { rf := true, irqNow := true, doorF := true, doorR := true } s t := by
  have h := Only.refl { rf := true, irqNow := true, doorF := true, doorR := true } s
  have tt : true = true := rfl
  unfold execDoorStagePowerUp
  refine ⟨_, rfl, ?_⟩
  try dsimp only
  repeat' first | (with_reducible first | assumption | apply State.doorPowerUp_only rfl rfl rfl rfl | apply each_only | apply foldl_only) | intro _ _ _ | split | dsimp only

end Sys2Proof.Machine
end

