-- ==== Sys2Proof/Laws/OnlyFrames.lean ====
section
/-! SUPPORT. Which parts of the state the operations of Machine/Frames.lean leave the same. -/

set_option linter.unusedTactic false
set_option linter.unreachableTactic false

namespace Sys2Proof.Machine

theorem State.lsfFrame_only {pt : Parts} (h_rf : pt.rf = true) (h_irqNow : pt.irqNow = true) (h_pos : pt.pos = true) (h_lwb : pt.lwb = true) (h_mot : pt.mot = true) (h_drv : pt.drv = true) (h_sch : pt.sch = true) (h_bid : pt.bid = true) (h_doorF : pt.doorF = true) (h_doorR : pt.doorR = true) (h_el : pt.el = true) (h_lsf : pt.lsf = true) (h_can : pt.can = true) (h_part : pt.part = true) (h_rcd : pt.rcd = true) {s₀ s : State} (h : Only pt s₀ s) (bus : Nat) (f : CanFrame) : Only pt s₀ (State.lsfFrame s bus f) := by
  unfold State.lsfFrame
  try dsimp only
  repeat' first | (with_reducible first | assumption | apply State.canIncoming_only h_rf h_irqNow h_pos h_lwb h_mot h_drv h_sch h_bid h_doorF h_doorR h_el h_can h_part h_rcd | apply State.lsfTake_only h_rf h_irqNow h_lsf h_can | apply each_only | apply foldl_only) | intro _ _ _ | split | (refine Only.upd ?_ (.inr rfl) (.inr rfl) (.inr rfl) (.inl h_rf) (.inl h_irqNow) (.inl h_pos) (.inl h_lwb) (.inl h_mot) (.inl h_drv) (.inl h_sch) (.inl h_bid) (.inl h_doorF) (.inl h_doorR) (.inl h_el) (.inl h_lsf) (.inl h_can) (.inr rfl) (.inr rfl) (.inr rfl) (.inl h_part) (.inl h_rcd) (.inr rfl) (.inr rfl) (.inr rfl) (.inr rfl) (.inr rfl); try dsimp only)

theorem execLsfFrameRx_only (bus : Nat) (frame : CanFrame) (s : State) : ∃ t, execLsfFrameRx bus frame s = .next t ∧ Only { rf := true, irqNow := true, pos := true, lwb := true, mot := true, drv := true, sch := true, bid := true, doorF := true, doorR := true, el := true, lsf := true, can := true, part := true, rcd := true } s t := by
  have h := Only.refl { rf := true, irqNow := true, pos := true, lwb := true, mot := true, drv := true, sch := true, bid := true, doorF := true, doorR := true, el := true, lsf := true, can := true, part := true, rcd := true } s
  have tt : true = true := rfl
  unfold execLsfFrameRx
  refine ⟨_, rfl, ?_⟩
  try dsimp only
  repeat' first | (with_reducible first | assumption | apply State.lsfFrame_only rfl rfl rfl rfl rfl rfl rfl rfl rfl rfl rfl rfl rfl rfl rfl | apply each_only | apply foldl_only) | intro _ _ _ | split | dsimp only

theorem State.lsfLate_only {pt : Parts} (h_rf : pt.rf = true) (h_irqNow : pt.irqNow = true) (h_lsf : pt.lsf = true) (h_rcd : pt.rcd = true) {s₀ s : State} (h : Only pt s₀ s) (slot : Nat) : Only pt s₀ (State.lsfLate s slot) := by
  unfold State.lsfLate
  try dsimp only
  repeat' first | (with_reducible first | assumption | apply State.bump_only h_rf | apply State.lsfFail_only h_rf h_irqNow h_lsf h_rcd | apply each_only | apply foldl_only) | intro _ _ _ | split | dsimp only

theorem execLsfTimeout_only (slot : Nat) (s : State) : ∃ t, execLsfTimeout slot s = .next t ∧ Only { rf := true, irqNow := true, lsf := true, can := true, rcd := true } s t := by
  have h := Only.refl { rf := true, irqNow := true, lsf := true, can := true, rcd := true } s
  have tt : true = true := rfl
  unfold execLsfTimeout
  refine ⟨_, rfl, ?_⟩
  try dsimp only
  repeat' first | (with_reducible first | assumption | apply State.lsfTake_only rfl rfl rfl rfl | apply State.lsfLate_only rfl rfl rfl rfl | apply each_only | apply foldl_only) | intro _ _ _ | split | dsimp only

theorem execLsfCrcRate_only (slot : Nat) (s : State) : ∃ t, execLsfCrcRate slot s = .next t ∧ Only { rf := true, irqNow := true, lsf := true, rcd := true } s t := by
  have h := Only.refl { rf := true, irqNow := true, lsf := true, rcd := true } s
  have tt : true = true := rfl
  unfold execLsfCrcRate
  refine ⟨_, rfl, ?_⟩
  try dsimp only
  repeat' first | (with_reducible first | assumption | apply State.lsfFail_only rfl rfl rfl rfl | apply each_only | apply foldl_only) | intro _ _ _ | split | dsimp only

theorem State.lsfUnconf_only {pt : Parts} (h_lsf : pt.lsf = true) {s₀ s : State} (h : Only pt s₀ s) (slot : Nat) : Only pt s₀ (State.lsfUnconf s slot) := by
  unfold State.lsfUnconf
  try dsimp only
  repeat' first | (with_reducible first | assumption | apply State.setLsf_only h_lsf | apply each_only | apply foldl_only) | intro _ _ _ | split | (refine Only.upd ?_ (.inr rfl) (.inr rfl) (.inr rfl) (.inr rfl) (.inr rfl) (.inr rfl) (.inr rfl) (.inr rfl) (.inr rfl) (.inr rfl) (.inr rfl) (.inr rfl) (.inr rfl) (.inr rfl) (.inl h_lsf) (.inr rfl) (.inr rfl) (.inr rfl) (.inr rfl) (.inr rfl) (.inr rfl) (.inr rfl) (.inr rfl) (.inr rfl) (.inr rfl) (.inr rfl); try dsimp only)

theorem execLsfConfTimeout_only (slot : Nat) (s : State) : ∃ t, execLsfConfTimeout slot s = .next t ∧ Only { rf := true, irqNow := true, lsf := true, can := true } s t := by
  have h := Only.refl { rf := true, irqNow := true, lsf := true, can := true } s
  have tt : true = true := rfl
  unfold execLsfConfTimeout
  refine ⟨_, rfl, ?_⟩
  try dsimp only
  repeat' first | (with_reducible first | assumption | apply State.lsfTake_only rfl rfl rfl rfl | apply State.lsfUnconf_only rfl | apply each_only | apply foldl_only) | intro _ _ _ | split | dsimp only

theorem execLsfProduce_only (slot : Nat) (identical : Bool) (s : State) : ∃ t, execLsfProduce slot identical s = .next t ∧ Only { rf := true, irqNow := true, lsf := true, can := true } s t := by
  have h := Only.refl { rf := true, irqNow := true, lsf := true, can := true } s
  have tt : true = true := rfl
  unfold execLsfProduce
  refine ⟨_, rfl, ?_⟩
  try dsimp only
  repeat' first | (with_reducible first | assumption | apply State.lsfProduceNow_only rfl rfl rfl rfl | apply each_only | apply foldl_only) | intro _ _ _ | split | dsimp only

theorem execCanFrameRx_only (n : Nat) (frame : CanFrame) (s : State) : ∃ t, execCanFrameRx n frame s = .next t ∧ Only { rf := true, irqNow := true, pos := true, lwb := true, mot := true, drv := true, sch := true, bid := true, doorF := true, doorR := true, el := true, can := true, part := true, rcd := true } s t := by
  have h := Only.refl { rf := true, irqNow := true, pos := true, lwb := true, mot := true, drv := true, sch := true, bid := true, doorF := true, doorR := true, el := true, can := true, part := true, rcd := true } s
  have tt : true = true := rfl
  unfold execCanFrameRx
  refine ⟨_, rfl, ?_⟩
  try dsimp only
  repeat' first | (with_reducible first | assumption | apply State.canIncoming_only rfl rfl rfl rfl rfl rfl rfl rfl rfl rfl rfl rfl rfl rfl | apply each_only | apply foldl_only) | intro _ _ _ | split | dsimp only

theorem State.attemptEnd_only {pt : Parts} (h_rf : pt.rf = true) (h_irqNow : pt.irqNow = true) (h_bid : pt.bid = true) (h_can : pt.can = true) {s₀ s : State} (h : Only pt s₀ s) (n : Nat) (obj : Nat) (out : AttemptEnd) (sofUs : Nat) : Only pt s₀ (State.attemptEnd s n obj out sofUs) := by
  unfold State.attemptEnd
  try dsimp only
  repeat' first | (with_reducible first | assumption | apply State.canAttempt_only h_rf h_irqNow h_can | apply State.bidSent_only h_rf h_irqNow h_bid h_can | apply State.canAbort_only h_rf h_irqNow h_can | apply each_only | apply foldl_only) | intro _ _ _ | split | (refine Only.upd ?_ (.inr rfl) (.inr rfl) (.inr rfl) (.inl h_rf) (.inl h_irqNow) (.inr rfl) (.inr rfl) (.inr rfl) (.inr rfl) (.inr rfl) (.inl h_bid) (.inr rfl) (.inr rfl) (.inr rfl) (.inr rfl) (.inl h_can) (.inr rfl) (.inr rfl) (.inr rfl) (.inr rfl) (.inr rfl) (.inr rfl) (.inr rfl) (.inr rfl) (.inr rfl) (.inr rfl); try dsimp only)

theorem execCanTxAttemptEnd_only (n : Nat) (obj : Nat) (outcome : AttemptEnd) (sofUs : Nat) (s : State) : ∃ t, execCanTxAttemptEnd n obj outcome sofUs s = .next t ∧ Only { rf := true, irqNow := true, bid := true, can := true } s t := by
  have h := Only.refl { rf := true, irqNow := true, bid := true, can := true } s
  have tt : true = true := rfl
  unfold execCanTxAttemptEnd
  refine ⟨_, rfl, ?_⟩
  try dsimp only
  repeat' first | (with_reducible first | assumption | apply State.attemptEnd_only rfl rfl rfl rfl | apply each_only | apply foldl_only) | intro _ _ _ | split | dsimp only

theorem State.canErrorNow_only {pt : Parts} (h_rf : pt.rf = true) (h_irqNow : pt.irqNow = true) (h_can : pt.can = true) {s₀ s : State} (h : Only pt s₀ s) (n : Nat) (lec : Nat) (transmitting : Bool) (increment : Nat) : Only pt s₀ (State.canErrorNow s n lec transmitting increment) := by
  unfold State.canErrorNow
  try dsimp only
  repeat' first | (with_reducible first | assumption | apply State.setCan_only h_can | apply State.canErrState_only h_rf h_irqNow h_can | apply each_only | apply foldl_only) | intro _ _ _ | split | (refine Only.upd ?_ (.inr rfl) (.inr rfl) (.inr rfl) (.inl h_rf) (.inl h_irqNow) (.inr rfl) (.inr rfl) (.inr rfl) (.inr rfl) (.inr rfl) (.inr rfl) (.inr rfl) (.inr rfl) (.inr rfl) (.inr rfl) (.inl h_can) (.inr rfl) (.inr rfl) (.inr rfl) (.inr rfl) (.inr rfl) (.inr rfl) (.inr rfl) (.inr rfl) (.inr rfl) (.inr rfl); try dsimp only)

theorem execCanError_only (n : Nat) (lec : Nat) (transmitting : Bool) (increment : Nat) (s : State) : ∃ t, execCanError n lec transmitting increment s = .next t ∧ Only { rf := true, irqNow := true, can := true } s t := by
  have h := Only.refl { rf := true, irqNow := true, can := true } s
  have tt : true = true := rfl
  unfold execCanError
  refine ⟨_, rfl, ?_⟩
  try dsimp only
  repeat' first | (with_reducible first | assumption | apply State.canErrorNow_only rfl rfl rfl | apply each_only | apply foldl_only) | intro _ _ _ | split | dsimp only

theorem State.busOffNow_only {pt : Parts} (h_rf : pt.rf = true) (h_irqNow : pt.irqNow = true) (h_can : pt.can = true) (h_rcd : pt.rcd = true) {s₀ s : State} (h : Only pt s₀ s) (n : Nat) : Only pt s₀ (State.busOffNow s n) := by
  unfold State.busOffNow
  try dsimp only
  repeat' first | (with_reducible first | assumption | apply State.canInto_only h_rf h_irqNow h_can | apply State.raise_only h_rf h_irqNow | apply State.bump_only h_rf | apply State.fire_only h_rf h_irqNow h_rcd | apply each_only | apply foldl_only) | intro _ _ _ | split | dsimp only

theorem execCanBusOff_only (n : Nat) (s : State) : ∃ t, execCanBusOff n s = .next t ∧ Only { rf := true, irqNow := true, can := true, rcd := true } s t := by
  have h := Only.refl { rf := true, irqNow := true, can := true, rcd := true } s
  have tt : true = true := rfl
  unfold execCanBusOff
  refine ⟨_, rfl, ?_⟩
  try dsimp only
  repeat' first | (with_reducible first | assumption | apply State.busOffNow_only rfl rfl rfl rfl | apply each_only | apply foldl_only) | intro _ _ _ | split | dsimp only

theorem execCanBusoffRecovery_only (n : Nat) (s : State) : ∃ t, execCanBusoffRecovery n s = .next t ∧ Only { rf := true, irqNow := true, can := true } s t := by
  have h := Only.refl { rf := true, irqNow := true, can := true } s
  have tt : true = true := rfl
  unfold execCanBusoffRecovery
  refine ⟨_, rfl, ?_⟩
  try dsimp only
  repeat' first | (with_reducible first | assumption | apply State.setCan_only rfl | apply State.canInto_only rfl rfl rfl | apply each_only | apply foldl_only) | intro _ _ _ | split | (refine Only.upd ?_ (.inr rfl) (.inr rfl) (.inr rfl) (.inl rfl) (.inl rfl) (.inr rfl) (.inr rfl) (.inr rfl) (.inr rfl) (.inr rfl) (.inr rfl) (.inr rfl) (.inr rfl) (.inr rfl) (.inr rfl) (.inl rfl) (.inr rfl) (.inr rfl) (.inr rfl) (.inr rfl) (.inr rfl) (.inr rfl) (.inr rfl) (.inr rfl) (.inr rfl) (.inr rfl); try dsimp only)

theorem execCanAlone_only (n : Nat) (s : State) : ∃ t, execCanAlone n s = .next t ∧ Only { rf := true, irqNow := true, can := true } s t := by
  have h := Only.refl { rf := true, irqNow := true, can := true } s
  have tt : true = true := rfl
  unfold execCanAlone
  refine ⟨_, rfl, ?_⟩
  try dsimp only
  repeat' first | (with_reducible first | assumption | apply State.setCan_only rfl | apply State.raise_only rfl rfl | apply each_only | apply foldl_only) | intro _ _ _ | split | (refine Only.upd ?_ (.inr rfl) (.inr rfl) (.inr rfl) (.inl rfl) (.inl rfl) (.inr rfl) (.inr rfl) (.inr rfl) (.inr rfl) (.inr rfl) (.inr rfl) (.inr rfl) (.inr rfl) (.inr rfl) (.inr rfl) (.inl rfl) (.inr rfl) (.inr rfl) (.inr rfl) (.inr rfl) (.inr rfl) (.inr rfl) (.inr rfl) (.inr rfl) (.inr rfl) (.inr rfl); try dsimp only)

theorem execCanIntegrate_only (n : Nat) (s : State) : ∃ t, execCanIntegrate n s = .next t ∧ Only { rf := true, irqNow := true, can := true } s t := by
  have h := Only.refl { rf := true, irqNow := true, can := true } s
  have tt : true = true := rfl
  unfold execCanIntegrate
  refine ⟨_, rfl, ?_⟩
  try dsimp only
  repeat' first | (with_reducible first | assumption | apply State.setCan_only rfl | apply State.canInto_only rfl rfl rfl | apply each_only | apply foldl_only) | intro _ _ _ | split | (refine Only.upd ?_ (.inr rfl) (.inr rfl) (.inr rfl) (.inl rfl) (.inl rfl) (.inr rfl) (.inr rfl) (.inr rfl) (.inr rfl) (.inr rfl) (.inr rfl) (.inr rfl) (.inr rfl) (.inr rfl) (.inr rfl) (.inl rfl) (.inr rfl) (.inr rfl) (.inr rfl) (.inr rfl) (.inr rfl) (.inr rfl) (.inr rfl) (.inr rfl) (.inr rfl) (.inr rfl); try dsimp only)

end Sys2Proof.Machine
end

