-- ==== Sys2Proof/Laws/OnlyField.lean ====
section
/-! SUPPORT. Which parts of the state the operations of Machine/Field.lean leave the same. -/

set_option linter.unusedTactic false
set_option linter.unreachableTactic false

namespace Sys2Proof.Machine

theorem State.btnDisarm_only {pt : Parts} (h_sch : pt.sch = true) {s₀ s : State} (h : Only pt s₀ s) (g : Nat) : Only pt s₀ (State.btnDisarm s g) := by
  unfold State.btnDisarm
  try dsimp only
  repeat' first | (with_reducible first | assumption  | apply each_only | apply foldl_only) | intro _ _ _ | split | (refine Only.upd ?_ (.inr rfl) (.inr rfl) (.inr rfl) (.inr rfl) (.inr rfl) (.inr rfl) (.inr rfl) (.inr rfl) (.inr rfl) (.inl h_sch) (.inr rfl) (.inr rfl) (.inr rfl) (.inr rfl) (.inr rfl) (.inr rfl) (.inr rfl) (.inr rfl) (.inr rfl) (.inr rfl) (.inr rfl) (.inr rfl) (.inr rfl) (.inr rfl) (.inr rfl) (.inr rfl); try dsimp only)

theorem State.btnTick_only {pt : Parts} (h_rf : pt.rf = true) (h_irqNow : pt.irqNow = true) (h_sch : pt.sch = true) (h_bid : pt.bid = true) (h_doorF : pt.doorF = true) (h_doorR : pt.doorR = true) (h_can : pt.can = true) {s₀ s : State} (h : Only pt s₀ s) (g : Nat) (ch : List (Nat × Bool)) (n : Nat) : Only pt s₀ (State.btnTick s g ch n) := by
  unfold State.btnTick
  try dsimp only
  repeat' first | (with_reducible first | assumption | apply State.buttonOn_only h_rf h_irqNow h_sch h_bid h_doorF h_doorR h_can | apply State.buttonOff_only h_sch | apply each_only | apply foldl_only) | intro _ _ _ | split | (refine Only.upd ?_ (.inr rfl) (.inr rfl) (.inr rfl) (.inl h_rf) (.inl h_irqNow) (.inr rfl) (.inr rfl) (.inr rfl) (.inr rfl) (.inl h_sch) (.inl h_bid) (.inl h_doorF) (.inl h_doorR) (.inr rfl) (.inr rfl) (.inl h_can) (.inr rfl) (.inr rfl) (.inr rfl) (.inr rfl) (.inr rfl) (.inr rfl) (.inr rfl) (.inr rfl) (.inr rfl) (.inr rfl); try dsimp only)

theorem State.fieldTick_only {pt : Parts} (h_rf : pt.rf = true) (h_irqNow : pt.irqNow = true) (h_sch : pt.sch = true) (h_bid : pt.bid = true) (h_doorF : pt.doorF = true) (h_doorR : pt.doorR = true) (h_can : pt.can = true) (h_fiog : pt.fiog = true) (h_sys : pt.sys = true) {s₀ s : State} (h : Only pt s₀ s) (g : Nat) (raw : Word) : Only pt s₀ (State.fieldTick s g raw) := by
  unfold State.fieldTick
  try dsimp only
  repeat' first | (with_reducible first | assumption | apply State.filterTick_only h_rf h_irqNow h_fiog | apply State.btnDisarm_only h_sch | apply State.parkEnd_only h_rf h_irqNow h_bid h_can h_sys | apply State.btnTick_only h_rf h_irqNow h_sch h_bid h_doorF h_doorR h_can | apply each_only | apply foldl_only) | intro _ _ _ | split | dsimp only

theorem execFieldFilterTick_only (group : Nat) (raw : Word) (s : State) : ∃ t, execFieldFilterTick group raw s = .next t ∧ Only { rf := true, irqNow := true, sch := true, bid := true, doorF := true, doorR := true, can := true, fiog := true, sys := true } s t := by
  have h := Only.refl { rf := true, irqNow := true, sch := true, bid := true, doorF := true, doorR := true, can := true, fiog := true, sys := true } s
  have tt : true = true := rfl
  unfold execFieldFilterTick
  refine ⟨_, rfl, ?_⟩
  try dsimp only
  repeat' first | (with_reducible first | assumption | apply State.fieldTick_only rfl rfl rfl rfl rfl rfl rfl rfl rfl | apply each_only | apply foldl_only) | intro _ _ _ | split | dsimp only

theorem execFioTsd_only (channel : Nat) (s : State) : ∃ t, execFioTsd channel s = .next t ∧ Only { rf := true, irqNow := true, fiog := true, rcd := true } s t := by
  have h := Only.refl { rf := true, irqNow := true, fiog := true, rcd := true } s
  have tt : true = true := rfl
  unfold execFioTsd
  refine ⟨_, rfl, ?_⟩
  try dsimp only
  repeat' first | (with_reducible first | assumption | apply State.tsdSet_only rfl rfl rfl rfl | apply each_only | apply foldl_only) | intro _ _ _ | split | dsimp only

theorem execFioTsdRecover_only (channel : Nat) (s : State) : ∃ t, execFioTsdRecover channel s = .next t ∧ Only { fiog := true } s t := by
  have h := Only.refl { fiog := true } s
  have tt : true = true := rfl
  unfold execFioTsdRecover
  refine ⟨_, rfl, ?_⟩
  try dsimp only
  repeat' first | (with_reducible first | assumption | apply State.tsdCool_only rfl | apply each_only | apply foldl_only) | intro _ _ _ | split | dsimp only

theorem State.grpOcNow_only {pt : Parts} (h_rf : pt.rf = true) (h_irqNow : pt.irqNow = true) (h_fiog : pt.fiog = true) (h_rcd : pt.rcd = true) {s₀ s : State} (h : Only pt s₀ s) (g : Nat) : Only pt s₀ (State.grpOcNow s g) := by
  unfold State.grpOcNow
  try dsimp only
  repeat' first | (with_reducible first | assumption | apply State.setGrp_only h_fiog | apply State.raise_only h_rf h_irqNow | apply State.fire_only h_rf h_irqNow h_rcd | apply each_only | apply foldl_only) | intro _ _ _ | split | (refine Only.upd ?_ (.inr rfl) (.inr rfl) (.inr rfl) (.inl h_rf) (.inl h_irqNow) (.inr rfl) (.inr rfl) (.inr rfl) (.inr rfl) (.inr rfl) (.inr rfl) (.inr rfl) (.inr rfl) (.inr rfl) (.inr rfl) (.inr rfl) (.inl h_fiog) (.inr rfl) (.inr rfl) (.inr rfl) (.inl h_rcd) (.inr rfl) (.inr rfl) (.inr rfl) (.inr rfl) (.inr rfl); try dsimp only)

theorem execGrpOc_only (group : Nat) (s : State) : ∃ t, execGrpOc group s = .next t ∧ Only { rf := true, irqNow := true, fiog := true, rcd := true } s t := by
  have h := Only.refl { rf := true, irqNow := true, fiog := true, rcd := true } s
  have tt : true = true := rfl
  unfold execGrpOc
  refine ⟨_, rfl, ?_⟩
  try dsimp only
  repeat' first | (with_reducible first | assumption | apply State.grpOcNow_only rfl rfl rfl rfl | apply each_only | apply foldl_only) | intro _ _ _ | split | dsimp only

theorem execFioDiagChange_only (channel : Nat) (kind : Diag) (present : Bool) (s : State) : ∃ t, execFioDiagChange channel kind present s = .next t ∧ Only { rf := true, irqNow := true, fiog := true } s t := by
  have h := Only.refl { rf := true, irqNow := true, fiog := true } s
  have tt : true = true := rfl
  unfold execFioDiagChange
  refine ⟨_, rfl, ?_⟩
  try dsimp only
  repeat' first | (with_reducible first | assumption | apply State.diagSet_only rfl rfl rfl | apply each_only | apply foldl_only) | intro _ _ _ | split | dsimp only

theorem execFieldSupplyChange_only (group : Nat) (mv : Nat) (s : State) : ∃ t, execFieldSupplyChange group mv s = .next t ∧ Only { rf := true, irqNow := true, fiog := true } s t := by
  have h := Only.refl { rf := true, irqNow := true, fiog := true } s
  have tt : true = true := rfl
  unfold execFieldSupplyChange
  refine ⟨_, rfl, ?_⟩
  try dsimp only
  repeat' first | (with_reducible first | assumption | apply State.supplySet_only rfl rfl rfl | apply each_only | apply foldl_only) | intro _ _ _ | split | dsimp only

theorem execSilenceTimeout_only  (s : State) : ∃ t, execSilenceTimeout s = .next t ∧ Only { rf := true, irqNow := true, sil := true, rcd := true } s t := by
  have h := Only.refl { rf := true, irqNow := true, sil := true, rcd := true } s
  have tt : true = true := rfl
  unfold execSilenceTimeout
  refine ⟨_, rfl, ?_⟩
  try dsimp only
  repeat' first | (with_reducible first | assumption | apply State.silExpire_only rfl rfl rfl rfl | apply each_only | apply foldl_only) | intro _ _ _ | split | (refine Only.upd ?_ (.inr rfl) (.inr rfl) (.inr rfl) (.inl rfl) (.inl rfl) (.inr rfl) (.inr rfl) (.inr rfl) (.inr rfl) (.inr rfl) (.inr rfl) (.inr rfl) (.inr rfl) (.inr rfl) (.inr rfl) (.inr rfl) (.inr rfl) (.inr rfl) (.inl rfl) (.inr rfl) (.inl rfl) (.inr rfl) (.inr rfl) (.inr rfl) (.inr rfl) (.inr rfl); try dsimp only)

end Sys2Proof.Machine
end

