-- ==== Sys2Proof/Laws/OnlyPairing.lean ====
section
/-! SUPPORT. Which parts of the state the operations of Machine/Pairing.lean leave the same. -/

set_option linter.unusedTactic false
set_option linter.unreachableTactic false

namespace Sys2Proof.Machine

theorem execBandChange_only (loopUa : Nat) (heldUs : Nat) (s : State) : ∃ t, execBandChange loopUa heldUs s = .next t ∧ Only { rf := true, irqNow := true, pos := true, lwb := true, mot := true, drv := true, bid := true, doorF := true, doorR := true, el := true, can := true, part := true, rcd := true, sys := true } s t := by
  have h := Only.refl { rf := true, irqNow := true, pos := true, lwb := true, mot := true, drv := true, bid := true, doorF := true, doorR := true, el := true, can := true, part := true, rcd := true, sys := true } s
  have tt : true = true := rfl
  unfold execBandChange
  refine ⟨_, rfl, ?_⟩
  try dsimp only
  repeat' first | (with_reducible first | assumption | apply State.bandInto_only rfl rfl rfl rfl rfl rfl rfl rfl rfl rfl rfl rfl rfl rfl | apply each_only | apply foldl_only) | intro _ _ _ | split | dsimp only

theorem execPresentStable_only  (s : State) : ∃ t, execPresentStable s = .next t ∧ Only { rf := true, irqNow := true, part := true, rcd := true } s t := by
  have h := Only.refl { rf := true, irqNow := true, part := true, rcd := true } s
  have tt : true = true := rfl
  unfold execPresentStable
  refine ⟨_, rfl, ?_⟩
  try dsimp only
  repeat' first | (with_reducible first | assumption | apply State.presentNow_only rfl rfl rfl rfl | apply each_only | apply foldl_only) | intro _ _ _ | split | dsimp only

theorem execPresentOpen_only  (s : State) : ∃ t, execPresentOpen s = .next t ∧ Only { rf := true, irqNow := true, drv := true, doorF := true, doorR := true, el := true, can := true, part := true, rcd := true, key := true, sys := true } s t := by
  have h := Only.refl { rf := true, irqNow := true, drv := true, doorF := true, doorR := true, el := true, can := true, part := true, rcd := true, key := true, sys := true } s
  have tt : true = true := rfl
  unfold execPresentOpen
  refine ⟨_, rfl, ?_⟩
  try dsimp only
  repeat' first | (with_reducible first | assumption | apply State.presentLost_only rfl rfl rfl rfl rfl rfl rfl rfl rfl rfl rfl | apply each_only | apply foldl_only) | intro _ _ _ | split | dsimp only

theorem execClaim_only  (s : State) : ∃ t, execClaim s = .next t ∧ Only { part := true } s t := by
  have h := Only.refl { part := true } s
  have tt : true = true := rfl
  unfold execClaim
  refine ⟨_, rfl, ?_⟩
  try dsimp only
  repeat' first | (with_reducible first | assumption | apply State.claimNow_only rfl | apply each_only | apply foldl_only) | intro _ _ _ | split | dsimp only

theorem execClaimSettleEnd_only  (s : State) : ∃ t, execClaimSettleEnd s = .next t ∧ Only { rf := true, irqNow := true, mot := true, drv := true, sch := true, bid := true, doorF := true, doorR := true, el := true, can := true, fiog := true, part := true, rcd := true } s t := by
  have h := Only.refl { rf := true, irqNow := true, mot := true, drv := true, sch := true, bid := true, doorF := true, doorR := true, el := true, can := true, fiog := true, part := true, rcd := true } s
  have tt : true = true := rfl
  unfold execClaimSettleEnd
  refine ⟨_, rfl, ?_⟩
  try dsimp only
  repeat' first | (with_reducible first | assumption | apply State.claimDone_only rfl rfl rfl rfl rfl rfl rfl rfl rfl rfl rfl rfl rfl | apply each_only | apply foldl_only) | intro _ _ _ | split | dsimp only

theorem execIsolatedExit_only  (s : State) : ∃ t, execIsolatedExit s = .next t ∧ Only { rf := true, irqNow := true, part := true, rcd := true } s t := by
  have h := Only.refl { rf := true, irqNow := true, part := true, rcd := true } s
  have tt : true = true := rfl
  unfold execIsolatedExit
  refine ⟨_, rfl, ?_⟩
  try dsimp only
  repeat' first | (with_reducible first | assumption | apply State.isolatedEnd_only rfl rfl rfl rfl | apply each_only | apply foldl_only) | intro _ _ _ | split | dsimp only

theorem execEchoWindow_only  (s : State) : ∃ t, execEchoWindow s = .next t ∧ Only { part := true } s t := by
  have h := Only.refl { part := true } s
  have tt : true = true := rfl
  unfold execEchoWindow
  refine ⟨_, rfl, ?_⟩
  try dsimp only
  repeat' first | (with_reducible first | assumption | apply State.echoOpen_only rfl | apply each_only | apply foldl_only) | intro _ _ _ | split | dsimp only

theorem execEchoStop_only  (s : State) : ∃ t, execEchoStop s = .next t ∧ Only { part := true } s t := by
  have h := Only.refl { part := true } s
  have tt : true = true := rfl
  unfold execEchoStop
  refine ⟨_, rfl, ?_⟩
  try dsimp only
  repeat' first | (with_reducible first | assumption | apply State.echoEnd_only rfl | apply each_only | apply foldl_only) | intro _ _ _ | split | dsimp only

theorem execMirrorEpochRx_only (e : Epoch) (s : State) : ∃ t, execMirrorEpochRx e s = .next t ∧ Only { rf := true, irqNow := true, pos := true, mot := true, sch := true, doorF := true, doorR := true, part := true, rcd := true } s t := by
  have h := Only.refl { rf := true, irqNow := true, pos := true, mot := true, sch := true, doorF := true, doorR := true, part := true, rcd := true } s
  have tt : true = true := rfl
  unfold execMirrorEpochRx
  refine ⟨_, rfl, ?_⟩
  try dsimp only
  repeat' first | (with_reducible first | assumption | apply State.epochRx_only rfl rfl rfl rfl rfl rfl rfl rfl rfl | apply each_only | apply foldl_only) | intro _ _ _ | split | dsimp only

theorem execMirrorEpochApply_only  (s : State) : ∃ t, execMirrorEpochApply s = .next t ∧ Only { rf := true, irqNow := true, pos := true, mot := true, sch := true, doorF := true, doorR := true, part := true, rcd := true } s t := by
  have h := Only.refl { rf := true, irqNow := true, pos := true, mot := true, sch := true, doorF := true, doorR := true, part := true, rcd := true } s
  have tt : true = true := rfl
  unfold execMirrorEpochApply
  refine ⟨_, rfl, ?_⟩
  try dsimp only
  repeat' first | (with_reducible first | assumption | apply State.epochApply_only rfl rfl rfl rfl rfl rfl rfl rfl rfl | apply each_only | apply foldl_only) | intro _ _ _ | split | dsimp only

theorem execMirrorStale_only  (s : State) : ∃ t, execMirrorStale s = .next t ∧ Only { rf := true, irqNow := true, part := true } s t := by
  have h := Only.refl { rf := true, irqNow := true, part := true } s
  have tt : true = true := rfl
  unfold execMirrorStale
  refine ⟨_, rfl, ?_⟩
  try dsimp only
  repeat' first | (with_reducible first | assumption | apply State.epochAged_only rfl rfl rfl | apply each_only | apply foldl_only) | intro _ _ _ | split | dsimp only

theorem execPartnerLinkDown_only  (s : State) : ∃ t, execPartnerLinkDown s = .next t ∧ Only { rf := true, irqNow := true, sch := true, part := true } s t := by
  have h := Only.refl { rf := true, irqNow := true, sch := true, part := true } s
  have tt : true = true := rfl
  unfold execPartnerLinkDown
  refine ⟨_, rfl, ?_⟩
  try dsimp only
  repeat' first | (with_reducible first | assumption | apply State.linkLost_only rfl rfl rfl rfl | apply each_only | apply foldl_only) | intro _ _ _ | split | dsimp only

theorem execPartnerLinkUp_only  (s : State) : ∃ t, execPartnerLinkUp s = .next t ∧ Only { part := true } s t := by
  have h := Only.refl { part := true } s
  have tt : true = true := rfl
  unfold execPartnerLinkUp
  refine ⟨_, rfl, ?_⟩
  try dsimp only
  repeat' first | (with_reducible first | assumption | apply State.linkBack_only rfl | apply each_only | apply foldl_only) | intro _ _ _ | split | dsimp only

theorem execResyncComplete_only  (s : State) : ∃ t, execResyncComplete s = .next t ∧ Only { rf := true, irqNow := true, sch := true, doorF := true, doorR := true, part := true } s t := by
  have h := Only.refl { rf := true, irqNow := true, sch := true, doorF := true, doorR := true, part := true } s
  have tt : true = true := rfl
  unfold execResyncComplete
  refine ⟨_, rfl, ?_⟩
  try dsimp only
  repeat' first | (with_reducible first | assumption | apply State.resyncDone_only rfl rfl rfl rfl rfl rfl | apply each_only | apply foldl_only) | intro _ _ _ | split | dsimp only

theorem execRoleExchange_only  (s : State) : ∃ t, execRoleExchange s = .next t ∧ Only { rf := true, irqNow := true, drv := true, doorF := true, doorR := true, el := true, can := true, part := true, rcd := true } s t := by
  have h := Only.refl { rf := true, irqNow := true, drv := true, doorF := true, doorR := true, el := true, can := true, part := true, rcd := true } s
  have tt : true = true := rfl
  unfold execRoleExchange
  refine ⟨_, rfl, ?_⟩
  try dsimp only
  repeat' first | (with_reducible first | assumption | apply State.xchNow_only rfl rfl rfl rfl rfl rfl rfl rfl rfl | apply each_only | apply foldl_only) | intro _ _ _ | split | dsimp only

theorem execXchHoldEnd_only  (s : State) : ∃ t, execXchHoldEnd s = .next t ∧ Only { rf := true, irqNow := true, part := true, rcd := true } s t := by
  have h := Only.refl { rf := true, irqNow := true, part := true, rcd := true } s
  have tt : true = true := rfl
  unfold execXchHoldEnd
  refine ⟨_, rfl, ?_⟩
  try dsimp only
  repeat' first | (with_reducible first | assumption | apply State.xchHoldEnd_only rfl rfl rfl rfl | apply each_only | apply foldl_only) | intro _ _ _ | split | dsimp only

end Sys2Proof.Machine
end

