-- ==== Sys2Proof/Laws/OnlyRecorder.lean ====
section
/-! SUPPORT. Which parts of the state the operations of Machine/Recorder.lean leave the same. -/

set_option linter.unusedTactic false
set_option linter.unreachableTactic false

namespace Sys2Proof.Machine

theorem execFlushStart_only  (s : State) : ∃ t, execFlushStart s = .next t ∧ Only { rcd := true } s t := by
  have h := Only.refl { rcd := true } s
  have tt : true = true := rfl
  unfold execFlushStart
  refine ⟨_, rfl, ?_⟩
  try dsimp only
  repeat' first | (with_reducible first | assumption | apply State.flushStart_only rfl | apply each_only | apply foldl_only) | intro _ _ _ | split | dsimp only

theorem execRecordsLostStage_only  (s : State) : ∃ t, execRecordsLostStage s = .next t ∧ Only { rf := true, irqNow := true, rcd := true } s t := by
  have h := Only.refl { rf := true, irqNow := true, rcd := true } s
  have tt : true = true := rfl
  unfold execRecordsLostStage
  refine ⟨_, rfl, ?_⟩
  try dsimp only
  repeat' first | (with_reducible first | assumption | apply State.stageLost_only rfl rfl rfl | apply each_only | apply foldl_only) | intro _ _ _ | split | dsimp only

theorem execCounterSave_only  (s : State) : ∃ t, execCounterSave s = .next t ∧ Only { rcd := true } s t := by
  have h := Only.refl { rcd := true } s
  have tt : true = true := rfl
  unfold execCounterSave
  refine ⟨_, rfl, ?_⟩
  try dsimp only
  repeat' first | (with_reducible first | assumption | apply State.counterSave_only rfl | apply each_only | apply foldl_only) | intro _ _ _ | split | dsimp only

theorem execFinalSave_only  (s : State) : ∃ t, execFinalSave s = .next t ∧ Only { rf := true, irqNow := true, rcd := true, sys := true } s t := by
  have h := Only.refl { rf := true, irqNow := true, rcd := true, sys := true } s
  have tt : true = true := rfl
  unfold execFinalSave
  refine ⟨_, rfl, ?_⟩
  try dsimp only
  repeat' first | (with_reducible first | assumption | apply State.finalSave_only rfl rfl rfl rfl | apply each_only | apply foldl_only) | intro _ _ _ | split | dsimp only

end Sys2Proof.Machine
end

