-- ==== Sys2Proof/Laws/OnlyKeys.lean ====
section
/-! SUPPORT. Which parts of the state the operations of Machine/Keys.lean leave the same. -/

set_option linter.unusedTactic false
set_option linter.unreachableTactic false

namespace Sys2Proof.Machine

theorem execKeyCommandDone_only  (s : State) : ∃ t, execKeyCommandDone s = .next t ∧ Only { fresh := true, rf := true, irqNow := true, host := true, key := true } s t := by
  have h := Only.refl { fresh := true, rf := true, irqNow := true, host := true, key := true } s
  have tt : true = true := rfl
  unfold execKeyCommandDone
  refine ⟨_, rfl, ?_⟩
  try dsimp only
  repeat' first | (with_reducible first | assumption | apply State.keyDone_only rfl rfl rfl rfl rfl | apply each_only | apply foldl_only) | intro _ _ _ | split | dsimp only

theorem execKeySwap_only (slot : Nat) (s : State) : ∃ t, execKeySwap slot s = .next t ∧ Only { fresh := true, rf := true, irqNow := true, host := true, key := true } s t := by
  have h := Only.refl { fresh := true, rf := true, irqNow := true, host := true, key := true } s
  have tt : true = true := rfl
  unfold execKeySwap
  refine ⟨_, rfl, ?_⟩
  try dsimp only
  repeat' first | (with_reducible first | assumption | apply State.keySwap_only rfl rfl rfl rfl rfl | apply each_only | apply foldl_only) | intro _ _ _ | split | dsimp only

theorem State.remaskAll_only {pt : Parts} (h_fresh : pt.fresh = true) (h_key : pt.key = true) {s₀ s : State} (h : Only pt s₀ s) : Only pt s₀ (State.remaskAll s) := by
  unfold State.remaskAll
  try dsimp only
  repeat' first | (with_reducible first | assumption | apply State.remaskSlot_only h_fresh h_key | apply each_only | apply foldl_only) | intro _ _ _ | split | (refine Only.upd ?_ (.inr rfl) (.inr rfl) (.inl h_fresh) (.inr rfl) (.inr rfl) (.inr rfl) (.inr rfl) (.inr rfl) (.inr rfl) (.inr rfl) (.inr rfl) (.inr rfl) (.inr rfl) (.inr rfl) (.inr rfl) (.inr rfl) (.inr rfl) (.inr rfl) (.inr rfl) (.inr rfl) (.inr rfl) (.inl h_key) (.inr rfl) (.inr rfl) (.inr rfl) (.inr rfl); try dsimp only)

theorem execKeyRemask_only  (s : State) : ∃ t, execKeyRemask s = .next t ∧ Only { fresh := true, key := true } s t := by
  have h := Only.refl { fresh := true, key := true } s
  have tt : true = true := rfl
  unfold execKeyRemask
  refine ⟨_, rfl, ?_⟩
  try dsimp only
  repeat' first | (with_reducible first | assumption | apply State.remaskAll_only rfl rfl | apply each_only | apply foldl_only) | intro _ _ _ | split | dsimp only

theorem execIdReady_only  (s : State) : ∃ t, execIdReady s = .next t ∧ Only { key := true } s t := by
  have h := Only.refl { key := true } s
  have tt : true = true := rfl
  unfold execIdReady
  refine ⟨_, rfl, ?_⟩
  try dsimp only
  repeat' first | (with_reducible first | assumption  | apply each_only | apply foldl_only) | intro _ _ _ | split | (refine Only.upd ?_ (.inr rfl) (.inr rfl) (.inr rfl) (.inr rfl) (.inr rfl) (.inr rfl) (.inr rfl) (.inr rfl) (.inr rfl) (.inr rfl) (.inr rfl) (.inr rfl) (.inr rfl) (.inr rfl) (.inr rfl) (.inr rfl) (.inr rfl) (.inr rfl) (.inr rfl) (.inr rfl) (.inr rfl) (.inl rfl) (.inr rfl) (.inr rfl) (.inr rfl) (.inr rfl); try dsimp only)

theorem execLowerTreeBuild_only  (s : State) : ∃ t, execLowerTreeBuild s = .next t ∧ Only { key := true } s t := by
  have h := Only.refl { key := true } s
  have tt : true = true := rfl
  unfold execLowerTreeBuild
  refine ⟨_, rfl, ?_⟩
  try dsimp only
  repeat' first | (with_reducible first | assumption  | apply each_only | apply foldl_only) | intro _ _ _ | split | (refine Only.upd ?_ (.inr rfl) (.inr rfl) (.inr rfl) (.inr rfl) (.inr rfl) (.inr rfl) (.inr rfl) (.inr rfl) (.inr rfl) (.inr rfl) (.inr rfl) (.inr rfl) (.inr rfl) (.inr rfl) (.inr rfl) (.inr rfl) (.inr rfl) (.inr rfl) (.inr rfl) (.inr rfl) (.inr rfl) (.inl rfl) (.inr rfl) (.inr rfl) (.inr rfl) (.inr rfl); try dsimp only)

theorem execServiceExpiry_only  (s : State) : ∃ t, execServiceExpiry s = .next t ∧ Only { fresh := true, rf := true, irqNow := true, host := true, key := true } s t := by
  have h := Only.refl { fresh := true, rf := true, irqNow := true, host := true, key := true } s
  have tt : true = true := rfl
  unfold execServiceExpiry
  refine ⟨_, rfl, ?_⟩
  try dsimp only
  repeat' first | (with_reducible first | assumption | apply State.serviceEnd_only rfl rfl rfl rfl rfl | apply each_only | apply foldl_only) | intro _ _ _ | split | (refine Only.upd ?_ (.inr rfl) (.inr rfl) (.inl rfl) (.inl rfl) (.inl rfl) (.inr rfl) (.inr rfl) (.inr rfl) (.inr rfl) (.inr rfl) (.inr rfl) (.inr rfl) (.inr rfl) (.inr rfl) (.inr rfl) (.inr rfl) (.inr rfl) (.inl rfl) (.inr rfl) (.inr rfl) (.inr rfl) (.inl rfl) (.inr rfl) (.inr rfl) (.inr rfl) (.inr rfl); try dsimp only)

theorem State.enrolNow_only {pt : Parts} (h_fresh : pt.fresh = true) (h_rf : pt.rf = true) (h_irqNow : pt.irqNow = true) (h_host : pt.host = true) (h_key : pt.key = true) {s₀ s : State} (h : Only pt s₀ s) (helper : List Byte) (roots : List (List Byte)) : Only pt s₀ (State.enrolNow s helper roots) := by
  unfold State.enrolNow
  try dsimp only
  repeat' first | (with_reducible first | assumption | apply State.lcEnter_only h_fresh h_rf h_irqNow h_host h_key | apply each_only | apply foldl_only) | intro _ _ _ | split | (refine Only.upd ?_ (.inr rfl) (.inr rfl) (.inl h_fresh) (.inl h_rf) (.inl h_irqNow) (.inr rfl) (.inr rfl) (.inr rfl) (.inr rfl) (.inr rfl) (.inr rfl) (.inr rfl) (.inr rfl) (.inr rfl) (.inr rfl) (.inr rfl) (.inr rfl) (.inl h_host) (.inr rfl) (.inr rfl) (.inr rfl) (.inl h_key) (.inr rfl) (.inr rfl) (.inr rfl) (.inr rfl); try dsimp only)

theorem execEnrolment_only (helper : List Byte) (vendorRoots : List (List Byte)) (s : State) : ∃ t, execEnrolment helper vendorRoots s = .next t ∧ Only { fresh := true, rf := true, irqNow := true, host := true, key := true } s t := by
  have h := Only.refl { fresh := true, rf := true, irqNow := true, host := true, key := true } s
  have tt : true = true := rfl
  unfold execEnrolment
  refine ⟨_, rfl, ?_⟩
  try dsimp only
  repeat' first | (with_reducible first | assumption | apply State.enrolNow_only rfl rfl rfl rfl rfl | apply each_only | apply foldl_only) | intro _ _ _ | split | dsimp only

end Sys2Proof.Machine
end

