-- ==== Sys2Proof/Laws/OnlyClocks.lean ====
section
/-! SUPPORT. Which parts of the state the operations of Machine/Clocks.lean leave the same. -/

set_option linter.unusedTactic false
set_option linter.unreachableTactic false

namespace Sys2Proof.Machine

theorem execStartAttempt_only (i : StartIn) (s : State) : ∃ t, execStartAttempt i s = .next t ∧ Only { fresh := true, rf := true, irqNow := true, pos := true, mot := true, drv := true, el := true, can := true, host := true, sil := true, part := true, rcd := true, key := true, tamp := true, clk := true, sys := true } s t := by
  have h := Only.refl { fresh := true, rf := true, irqNow := true, pos := true, mot := true, drv := true, el := true, can := true, host := true, sil := true, part := true, rcd := true, key := true, tamp := true, clk := true, sys := true } s
  have tt : true = true := rfl
  unfold execStartAttempt
  refine ⟨_, rfl, ?_⟩
  try dsimp only
  repeat' first | (with_reducible first | assumption | apply State.startAttempt_only rfl rfl rfl rfl rfl rfl rfl rfl rfl rfl rfl rfl rfl rfl rfl rfl | apply each_only | apply foldl_only) | intro _ _ _ | split | dsimp only

theorem execClockHoldEnd_only  (s : State) : ∃ t, execClockHoldEnd s = .next t ∧ Only { clk := true, sys := true } s t := by
  have h := Only.refl { clk := true, sys := true } s
  have tt : true = true := rfl
  unfold execClockHoldEnd
  refine ⟨_, rfl, ?_⟩
  try dsimp only
  repeat' first | (with_reducible first | assumption | apply State.holdEnd_only rfl rfl | apply each_only | apply foldl_only) | intro _ _ _ | split | dsimp only

theorem execIrcTrim_only (up : Bool) (s : State) : ∃ t, execIrcTrim up s = .next t ∧ Only { rf := true, irqNow := true, clk := true } s t := by
  have h := Only.refl { rf := true, irqNow := true, clk := true } s
  have tt : true = true := rfl
  unfold execIrcTrim
  refine ⟨_, rfl, ?_⟩
  try dsimp only
  repeat' first | (with_reducible first | assumption | apply State.trimStep_only rfl rfl rfl | apply each_only | apply foldl_only) | intro _ _ _ | split | dsimp only

theorem execFallbackAcc1pct_only  (s : State) : ∃ t, execFallbackAcc1pct s = .next t ∧ Only { rf := true, irqNow := true, clk := true } s t := by
  have h := Only.refl { rf := true, irqNow := true, clk := true } s
  have tt : true = true := rfl
  unfold execFallbackAcc1pct
  refine ⟨_, rfl, ?_⟩
  try dsimp only
  repeat' first | (with_reducible first | assumption | apply State.raise_only rfl rfl | apply each_only | apply foldl_only) | intro _ _ _ | split | (refine Only.upd ?_ (.inr rfl) (.inr rfl) (.inr rfl) (.inl rfl) (.inl rfl) (.inr rfl) (.inr rfl) (.inr rfl) (.inr rfl) (.inr rfl) (.inr rfl) (.inr rfl) (.inr rfl) (.inr rfl) (.inr rfl) (.inr rfl) (.inr rfl) (.inr rfl) (.inr rfl) (.inr rfl) (.inr rfl) (.inr rfl) (.inr rfl) (.inl rfl) (.inr rfl) (.inr rfl); try dsimp only)

theorem State.drainEnd_only {pt : Parts} (h_rf : pt.rf = true) (h_irqNow : pt.irqNow = true) (h_clk : pt.clk = true) {s₀ s : State} (h : Only pt s₀ s) (ended : Bool) : Only pt s₀ (State.drainEnd s ended) := by
  unfold State.drainEnd
  try dsimp only
  repeat' first | (with_reducible first | assumption | apply State.wr_only h_rf | apply State.reject_only h_rf h_irqNow | apply each_only | apply foldl_only) | intro _ _ _ | split | (refine Only.upd ?_ (.inr rfl) (.inr rfl) (.inr rfl) (.inl h_rf) (.inl h_irqNow) (.inr rfl) (.inr rfl) (.inr rfl) (.inr rfl) (.inr rfl) (.inr rfl) (.inr rfl) (.inr rfl) (.inr rfl) (.inr rfl) (.inr rfl) (.inr rfl) (.inr rfl) (.inr rfl) (.inr rfl) (.inr rfl) (.inr rfl) (.inr rfl) (.inl h_clk) (.inr rfl) (.inr rfl); try dsimp only)

theorem execGateDrainEnd_only (ended : Bool) (s : State) : ∃ t, execGateDrainEnd ended s = .next t ∧ Only { rf := true, irqNow := true, clk := true } s t := by
  have h := Only.refl { rf := true, irqNow := true, clk := true } s
  have tt : true = true := rfl
  unfold execGateDrainEnd
  refine ⟨_, rfl, ?_⟩
  try dsimp only
  repeat' first | (with_reducible first | assumption | apply State.drainEnd_only rfl rfl rfl | apply each_only | apply foldl_only) | intro _ _ _ | split | dsimp only

theorem execClkoutReconfig_only  (s : State) : ∃ t, execClkoutReconfig s = .next t ∧ Only { clk := true } s t := by
  have h := Only.refl { clk := true } s
  have tt : true = true := rfl
  unfold execClkoutReconfig
  refine ⟨_, rfl, ?_⟩
  try dsimp only
  repeat' first | (with_reducible first | assumption  | apply each_only | apply foldl_only) | intro _ _ _ | split | (refine Only.upd ?_ (.inr rfl) (.inr rfl) (.inr rfl) (.inr rfl) (.inr rfl) (.inr rfl) (.inr rfl) (.inr rfl) (.inr rfl) (.inr rfl) (.inr rfl) (.inr rfl) (.inr rfl) (.inr rfl) (.inr rfl) (.inr rfl) (.inr rfl) (.inr rfl) (.inr rfl) (.inr rfl) (.inr rfl) (.inr rfl) (.inr rfl) (.inl rfl) (.inr rfl) (.inr rfl); try dsimp only)

theorem execResetButtonStuck_only  (s : State) : ∃ t, execResetButtonStuck s = .next t ∧ Only { rf := true, irqNow := true, sys := true } s t := by
  have h := Only.refl { rf := true, irqNow := true, sys := true } s
  have tt : true = true := rfl
  unfold execResetButtonStuck
  refine ⟨_, rfl, ?_⟩
  try dsimp only
  repeat' first | (with_reducible first | assumption | apply State.raise_only rfl rfl | apply each_only | apply foldl_only) | intro _ _ _ | split | (refine Only.upd ?_ (.inr rfl) (.inr rfl) (.inr rfl) (.inl rfl) (.inl rfl) (.inr rfl) (.inr rfl) (.inr rfl) (.inr rfl) (.inr rfl) (.inr rfl) (.inr rfl) (.inr rfl) (.inr rfl) (.inr rfl) (.inr rfl) (.inr rfl) (.inr rfl) (.inr rfl) (.inr rfl) (.inr rfl) (.inr rfl) (.inr rfl) (.inr rfl) (.inl rfl) (.inr rfl); try dsimp only)

theorem execResetButtonRearm_only  (s : State) : ∃ t, execResetButtonRearm s = .next t ∧ Only { sys := true } s t := by
  have h := Only.refl { sys := true } s
  have tt : true = true := rfl
  unfold execResetButtonRearm
  refine ⟨_, rfl, ?_⟩
  try dsimp only
  repeat' first | (with_reducible first | assumption  | apply each_only | apply foldl_only) | intro _ _ _ | split | (refine Only.upd ?_ (.inr rfl) (.inr rfl) (.inr rfl) (.inr rfl) (.inr rfl) (.inr rfl) (.inr rfl) (.inr rfl) (.inr rfl) (.inr rfl) (.inr rfl) (.inr rfl) (.inr rfl) (.inr rfl) (.inr rfl) (.inr rfl) (.inr rfl) (.inr rfl) (.inr rfl) (.inr rfl) (.inr rfl) (.inr rfl) (.inr rfl) (.inr rfl) (.inl rfl) (.inr rfl); try dsimp only)

theorem execPowerFailWarning_only (mv : Nat) (s : State) : ∃ t, execPowerFailWarning mv s = .next t ∧ Only { rf := true, irqNow := true, doorF := true, doorR := true, rcd := true, key := true, sys := true } s t := by
  have h := Only.refl { rf := true, irqNow := true, doorF := true, doorR := true, rcd := true, key := true, sys := true } s
  have tt : true = true := rfl
  unfold execPowerFailWarning
  refine ⟨_, rfl, ?_⟩
  try dsimp only
  repeat' first | (with_reducible first | assumption | apply State.powerWarn_only rfl rfl rfl rfl rfl rfl rfl | apply each_only | apply foldl_only) | intro _ _ _ | split | dsimp only

theorem execPowerRecovery_only (mv : Nat) (s : State) : ∃ t, execPowerRecovery mv s = .next t ∧ Only { rf := true, rcd := true, sys := true } s t := by
  have h := Only.refl { rf := true, rcd := true, sys := true } s
  have tt : true = true := rfl
  unfold execPowerRecovery
  refine ⟨_, rfl, ?_⟩
  try dsimp only
  repeat' first | (with_reducible first | assumption | apply State.powerBack_only rfl rfl rfl | apply each_only | apply foldl_only) | intro _ _ _ | split | dsimp only

theorem execHoldupReady_only  (s : State) : ∃ t, execHoldupReady s = .next t ∧ Only { sys := true } s t := by
  have h := Only.refl { sys := true } s
  have tt : true = true := rfl
  unfold execHoldupReady
  refine ⟨_, rfl, ?_⟩
  try dsimp only
  repeat' first | (with_reducible first | assumption  | apply each_only | apply foldl_only) | intro _ _ _ | split | (refine Only.upd ?_ (.inr rfl) (.inr rfl) (.inr rfl) (.inr rfl) (.inr rfl) (.inr rfl) (.inr rfl) (.inr rfl) (.inr rfl) (.inr rfl) (.inr rfl) (.inr rfl) (.inr rfl) (.inr rfl) (.inr rfl) (.inr rfl) (.inr rfl) (.inr rfl) (.inr rfl) (.inr rfl) (.inr rfl) (.inr rfl) (.inr rfl) (.inr rfl) (.inl rfl) (.inr rfl); try dsimp only)

theorem execProfStoreDone_only (writeOk : Bool) (s : State) : ∃ t, execProfStoreDone writeOk s = .next t ∧ Only { rf := true, irqNow := true, sys := true } s t := by
  have h := Only.refl { rf := true, irqNow := true, sys := true } s
  have tt : true = true := rfl
  unfold execProfStoreDone
  refine ⟨_, rfl, ?_⟩
  try dsimp only
  repeat' first | (with_reducible first | assumption | apply State.profStoreEnd_only rfl rfl rfl | apply each_only | apply foldl_only) | intro _ _ _ | split | dsimp only

theorem execAutoPark_only  (s : State) : ∃ t, execAutoPark s = .next t ∧ Only { rf := true, irqNow := true, bid := true, doorF := true, doorR := true, can := true, sys := true } s t := by
  have h := Only.refl { rf := true, irqNow := true, bid := true, doorF := true, doorR := true, can := true, sys := true } s
  have tt : true = true := rfl
  unfold execAutoPark
  refine ⟨_, rfl, ?_⟩
  try dsimp only
  repeat' first | (with_reducible first | assumption | apply State.parkNow_only rfl rfl rfl rfl rfl rfl rfl | apply each_only | apply foldl_only) | intro _ _ _ | split | dsimp only

theorem execParkWake_only (cause : WakeCause) (s : State) : ∃ t, execParkWake cause s = .next t ∧ Only { rf := true, irqNow := true, bid := true, can := true, sys := true } s t := by
  have h := Only.refl { rf := true, irqNow := true, bid := true, can := true, sys := true } s
  have tt : true = true := rfl
  unfold execParkWake
  refine ⟨_, rfl, ?_⟩
  try dsimp only
  repeat' first | (with_reducible first | assumption | apply State.parkEnd_only rfl rfl rfl rfl rfl | apply each_only | apply foldl_only) | intro _ _ _ | split | dsimp only

theorem State.imageTake_only {pt : Parts} (h_sys : pt.sys = true) {s₀ s : State} (h : Only pt s₀ s) (src : Src) (o : List Byte) : Only pt s₀ (State.imageTake s src o) := by
  unfold State.imageTake
  try dsimp only
  repeat' first | (with_reducible first | assumption  | apply each_only | apply foldl_only) | intro _ _ _ | split | (refine Only.upd ?_ (.inr rfl) (.inr rfl) (.inr rfl) (.inr rfl) (.inr rfl) (.inr rfl) (.inr rfl) (.inr rfl) (.inr rfl) (.inr rfl) (.inr rfl) (.inr rfl) (.inr rfl) (.inr rfl) (.inr rfl) (.inr rfl) (.inr rfl) (.inr rfl) (.inr rfl) (.inr rfl) (.inr rfl) (.inr rfl) (.inr rfl) (.inr rfl) (.inl h_sys) (.inr rfl); try dsimp only)

theorem execImageUpdate_only (src : Src) (object : List Byte) (s : State) : ∃ t, execImageUpdate src object s = .next t ∧ Only { sys := true } s t := by
  have h := Only.refl { sys := true } s
  have tt : true = true := rfl
  unfold execImageUpdate
  refine ⟨_, rfl, ?_⟩
  try dsimp only
  repeat' first | (with_reducible first | assumption | apply State.imageTake_only rfl | apply each_only | apply foldl_only) | intro _ _ _ | split | dsimp only

theorem execAonPowerLoss_only  (s : State) : ∃ t, execAonPowerLoss s = .next t ∧ Only { rf := true, sys := true } s t := by
  have h := Only.refl { rf := true, sys := true } s
  have tt : true = true := rfl
  unfold execAonPowerLoss
  refine ⟨_, rfl, ?_⟩
  try dsimp only
  repeat' first | (with_reducible first | assumption | apply State.aonLost_only rfl rfl | apply each_only | apply foldl_only) | intro _ _ _ | split | dsimp only

theorem execBorStart_only  (s : State) : ∃ t, execBorStart s = .next t ∧ Only { sys := true } s t := by
  have h := Only.refl { sys := true } s
  have tt : true = true := rfl
  unfold execBorStart
  refine ⟨_, rfl, ?_⟩
  try dsimp only
  repeat' first | (with_reducible first | assumption | apply State.borStart_only rfl | apply each_only | apply foldl_only) | intro _ _ _ | split | dsimp only

end Sys2Proof.Machine
end

