-- ==== Sys2Proof/Laws/State.lean ====
section
/-! SUPPORT. What each update of the state leaves alone, field by field, and what the word operations do to a word. -/

namespace Sys2Proof.Machine

variable (s : State)

/-! `wr`: a stored word. -/

@[simp] theorem State.wr_pending (a : Nat) (w : Word) : (s.wr a w).pending = s.pending := rfl
@[simp] theorem State.wr_tick (a : Nat) (w : Word) : (s.wr a w).tick = s.tick := rfl
@[simp] theorem State.wr_baseTick (a : Nat) (w : Word) : (s.wr a w).baseTick = s.baseTick := rfl
@[simp] theorem State.wr_fresh (a : Nat) (w : Word) : (s.wr a w).fresh = s.fresh := rfl
@[simp] theorem State.wr_irqNow (a : Nat) (w : Word) : (s.wr a w).irqNow = s.irqNow := rfl
@[simp] theorem State.wr_pos (a : Nat) (w : Word) : (s.wr a w).pos = s.pos := rfl
@[simp] theorem State.wr_lwb (a : Nat) (w : Word) : (s.wr a w).lwb = s.lwb := rfl
@[simp] theorem State.wr_mot (a : Nat) (w : Word) : (s.wr a w).mot = s.mot := rfl
@[simp] theorem State.wr_drv (a : Nat) (w : Word) : (s.wr a w).drv = s.drv := rfl
@[simp] theorem State.wr_sch (a : Nat) (w : Word) : (s.wr a w).sch = s.sch := rfl
@[simp] theorem State.wr_bid (a : Nat) (w : Word) : (s.wr a w).bid = s.bid := rfl
@[simp] theorem State.wr_doorF (a : Nat) (w : Word) : (s.wr a w).doorF = s.doorF := rfl
@[simp] theorem State.wr_doorR (a : Nat) (w : Word) : (s.wr a w).doorR = s.doorR := rfl
@[simp] theorem State.wr_el (a : Nat) (w : Word) : (s.wr a w).el = s.el := rfl
@[simp] theorem State.wr_lsf (a : Nat) (w : Word) : (s.wr a w).lsf = s.lsf := rfl
@[simp] theorem State.wr_can (a : Nat) (w : Word) : (s.wr a w).can = s.can := rfl
@[simp] theorem State.wr_fiog (a : Nat) (w : Word) : (s.wr a w).fiog = s.fiog := rfl
@[simp] theorem State.wr_host (a : Nat) (w : Word) : (s.wr a w).host = s.host := rfl
@[simp] theorem State.wr_sil (a : Nat) (w : Word) : (s.wr a w).sil = s.sil := rfl
@[simp] theorem State.wr_part (a : Nat) (w : Word) : (s.wr a w).part = s.part := rfl
@[simp] theorem State.wr_rcd (a : Nat) (w : Word) : (s.wr a w).rcd = s.rcd := rfl
@[simp] theorem State.wr_key (a : Nat) (w : Word) : (s.wr a w).key = s.key := rfl
@[simp] theorem State.wr_tamp (a : Nat) (w : Word) : (s.wr a w).tamp = s.tamp := rfl
@[simp] theorem State.wr_clk (a : Nat) (w : Word) : (s.wr a w).clk = s.clk := rfl
@[simp] theorem State.wr_sys (a : Nat) (w : Word) : (s.wr a w).sys = s.sys := rfl
@[simp] theorem State.wr_xbar (a : Nat) (w : Word) : (s.wr a w).xbar = s.xbar := rfl

/-! `wn`: a stored number. -/

@[simp] theorem State.wn_pending (a n : Nat) : (s.wn a n).pending = s.pending := rfl
@[simp] theorem State.wn_tick (a n : Nat) : (s.wn a n).tick = s.tick := rfl
@[simp] theorem State.wn_baseTick (a n : Nat) : (s.wn a n).baseTick = s.baseTick := rfl
@[simp] theorem State.wn_fresh (a n : Nat) : (s.wn a n).fresh = s.fresh := rfl
@[simp] theorem State.wn_irqNow (a n : Nat) : (s.wn a n).irqNow = s.irqNow := rfl
@[simp] theorem State.wn_pos (a n : Nat) : (s.wn a n).pos = s.pos := rfl
@[simp] theorem State.wn_lwb (a n : Nat) : (s.wn a n).lwb = s.lwb := rfl
@[simp] theorem State.wn_mot (a n : Nat) : (s.wn a n).mot = s.mot := rfl
@[simp] theorem State.wn_drv (a n : Nat) : (s.wn a n).drv = s.drv := rfl
@[simp] theorem State.wn_sch (a n : Nat) : (s.wn a n).sch = s.sch := rfl
@[simp] theorem State.wn_bid (a n : Nat) : (s.wn a n).bid = s.bid := rfl
@[simp] theorem State.wn_doorF (a n : Nat) : (s.wn a n).doorF = s.doorF := rfl
@[simp] theorem State.wn_doorR (a n : Nat) : (s.wn a n).doorR = s.doorR := rfl
@[simp] theorem State.wn_el (a n : Nat) : (s.wn a n).el = s.el := rfl
@[simp] theorem State.wn_lsf (a n : Nat) : (s.wn a n).lsf = s.lsf := rfl
@[simp] theorem State.wn_can (a n : Nat) : (s.wn a n).can = s.can := rfl
@[simp] theorem State.wn_fiog (a n : Nat) : (s.wn a n).fiog = s.fiog := rfl
@[simp] theorem State.wn_host (a n : Nat) : (s.wn a n).host = s.host := rfl
@[simp] theorem State.wn_sil (a n : Nat) : (s.wn a n).sil = s.sil := rfl
@[simp] theorem State.wn_part (a n : Nat) : (s.wn a n).part = s.part := rfl
@[simp] theorem State.wn_rcd (a n : Nat) : (s.wn a n).rcd = s.rcd := rfl
@[simp] theorem State.wn_key (a n : Nat) : (s.wn a n).key = s.key := rfl
@[simp] theorem State.wn_tamp (a n : Nat) : (s.wn a n).tamp = s.tamp := rfl
@[simp] theorem State.wn_clk (a n : Nat) : (s.wn a n).clk = s.clk := rfl
@[simp] theorem State.wn_sys (a n : Nat) : (s.wn a n).sys = s.sys := rfl
@[simp] theorem State.wn_xbar (a n : Nat) : (s.wn a n).xbar = s.xbar := rfl

/-! `wi`: a stored signed number. -/

@[simp] theorem State.wi_pending (a : Nat) (i : Int) : (s.wi a i).pending = s.pending := rfl
@[simp] theorem State.wi_tick (a : Nat) (i : Int) : (s.wi a i).tick = s.tick := rfl
@[simp] theorem State.wi_baseTick (a : Nat) (i : Int) : (s.wi a i).baseTick = s.baseTick := rfl
@[simp] theorem State.wi_fresh (a : Nat) (i : Int) : (s.wi a i).fresh = s.fresh := rfl
@[simp] theorem State.wi_irqNow (a : Nat) (i : Int) : (s.wi a i).irqNow = s.irqNow := rfl
@[simp] theorem State.wi_pos (a : Nat) (i : Int) : (s.wi a i).pos = s.pos := rfl
@[simp] theorem State.wi_lwb (a : Nat) (i : Int) : (s.wi a i).lwb = s.lwb := rfl
@[simp] theorem State.wi_mot (a : Nat) (i : Int) : (s.wi a i).mot = s.mot := rfl
@[simp] theorem State.wi_drv (a : Nat) (i : Int) : (s.wi a i).drv = s.drv := rfl
@[simp] theorem State.wi_sch (a : Nat) (i : Int) : (s.wi a i).sch = s.sch := rfl
@[simp] theorem State.wi_bid (a : Nat) (i : Int) : (s.wi a i).bid = s.bid := rfl
@[simp] theorem State.wi_doorF (a : Nat) (i : Int) : (s.wi a i).doorF = s.doorF := rfl
@[simp] theorem State.wi_doorR (a : Nat) (i : Int) : (s.wi a i).doorR = s.doorR := rfl
@[simp] theorem State.wi_el (a : Nat) (i : Int) : (s.wi a i).el = s.el := rfl
@[simp] theorem State.wi_lsf (a : Nat) (i : Int) : (s.wi a i).lsf = s.lsf := rfl
@[simp] theorem State.wi_can (a : Nat) (i : Int) : (s.wi a i).can = s.can := rfl
@[simp] theorem State.wi_fiog (a : Nat) (i : Int) : (s.wi a i).fiog = s.fiog := rfl
@[simp] theorem State.wi_host (a : Nat) (i : Int) : (s.wi a i).host = s.host := rfl
@[simp] theorem State.wi_sil (a : Nat) (i : Int) : (s.wi a i).sil = s.sil := rfl
@[simp] theorem State.wi_part (a : Nat) (i : Int) : (s.wi a i).part = s.part := rfl
@[simp] theorem State.wi_rcd (a : Nat) (i : Int) : (s.wi a i).rcd = s.rcd := rfl
@[simp] theorem State.wi_key (a : Nat) (i : Int) : (s.wi a i).key = s.key := rfl
@[simp] theorem State.wi_tamp (a : Nat) (i : Int) : (s.wi a i).tamp = s.tamp := rfl
@[simp] theorem State.wi_clk (a : Nat) (i : Int) : (s.wi a i).clk = s.clk := rfl
@[simp] theorem State.wi_sys (a : Nat) (i : Int) : (s.wi a i).sys = s.sys := rfl
@[simp] theorem State.wi_xbar (a : Nat) (i : Int) : (s.wi a i).xbar = s.xbar := rfl

/-! `wf_`: stored bits. -/

@[simp] theorem State.wf__pending (a lo w v : Nat) : (s.wf_ a lo w v).pending = s.pending := rfl
@[simp] theorem State.wf__tick (a lo w v : Nat) : (s.wf_ a lo w v).tick = s.tick := rfl
@[simp] theorem State.wf__baseTick (a lo w v : Nat) : (s.wf_ a lo w v).baseTick = s.baseTick := rfl
@[simp] theorem State.wf__fresh (a lo w v : Nat) : (s.wf_ a lo w v).fresh = s.fresh := rfl
@[simp] theorem State.wf__irqNow (a lo w v : Nat) : (s.wf_ a lo w v).irqNow = s.irqNow := rfl
@[simp] theorem State.wf__pos (a lo w v : Nat) : (s.wf_ a lo w v).pos = s.pos := rfl
@[simp] theorem State.wf__lwb (a lo w v : Nat) : (s.wf_ a lo w v).lwb = s.lwb := rfl
@[simp] theorem State.wf__mot (a lo w v : Nat) : (s.wf_ a lo w v).mot = s.mot := rfl
@[simp] theorem State.wf__drv (a lo w v : Nat) : (s.wf_ a lo w v).drv = s.drv := rfl
@[simp] theorem State.wf__sch (a lo w v : Nat) : (s.wf_ a lo w v).sch = s.sch := rfl
@[simp] theorem State.wf__bid (a lo w v : Nat) : (s.wf_ a lo w v).bid = s.bid := rfl
@[simp] theorem State.wf__doorF (a lo w v : Nat) : (s.wf_ a lo w v).doorF = s.doorF := rfl
@[simp] theorem State.wf__doorR (a lo w v : Nat) : (s.wf_ a lo w v).doorR = s.doorR := rfl
@[simp] theorem State.wf__el (a lo w v : Nat) : (s.wf_ a lo w v).el = s.el := rfl
@[simp] theorem State.wf__lsf (a lo w v : Nat) : (s.wf_ a lo w v).lsf = s.lsf := rfl
@[simp] theorem State.wf__can (a lo w v : Nat) : (s.wf_ a lo w v).can = s.can := rfl
@[simp] theorem State.wf__fiog (a lo w v : Nat) : (s.wf_ a lo w v).fiog = s.fiog := rfl
@[simp] theorem State.wf__host (a lo w v : Nat) : (s.wf_ a lo w v).host = s.host := rfl
@[simp] theorem State.wf__sil (a lo w v : Nat) : (s.wf_ a lo w v).sil = s.sil := rfl
@[simp] theorem State.wf__part (a lo w v : Nat) : (s.wf_ a lo w v).part = s.part := rfl
@[simp] theorem State.wf__rcd (a lo w v : Nat) : (s.wf_ a lo w v).rcd = s.rcd := rfl
@[simp] theorem State.wf__key (a lo w v : Nat) : (s.wf_ a lo w v).key = s.key := rfl
@[simp] theorem State.wf__tamp (a lo w v : Nat) : (s.wf_ a lo w v).tamp = s.tamp := rfl
@[simp] theorem State.wf__clk (a lo w v : Nat) : (s.wf_ a lo w v).clk = s.clk := rfl
@[simp] theorem State.wf__sys (a lo w v : Nat) : (s.wf_ a lo w v).sys = s.sys := rfl
@[simp] theorem State.wf__xbar (a lo w v : Nat) : (s.wf_ a lo w v).xbar = s.xbar := rfl

/-! `bump`: a counter field. -/

@[simp] theorem State.bump_pending (a lo w : Nat) : (s.bump a lo w).pending = s.pending := rfl
@[simp] theorem State.bump_tick (a lo w : Nat) : (s.bump a lo w).tick = s.tick := rfl
@[simp] theorem State.bump_baseTick (a lo w : Nat) : (s.bump a lo w).baseTick = s.baseTick := rfl
@[simp] theorem State.bump_fresh (a lo w : Nat) : (s.bump a lo w).fresh = s.fresh := rfl
@[simp] theorem State.bump_irqNow (a lo w : Nat) : (s.bump a lo w).irqNow = s.irqNow := rfl
@[simp] theorem State.bump_pos (a lo w : Nat) : (s.bump a lo w).pos = s.pos := rfl
@[simp] theorem State.bump_lwb (a lo w : Nat) : (s.bump a lo w).lwb = s.lwb := rfl
@[simp] theorem State.bump_mot (a lo w : Nat) : (s.bump a lo w).mot = s.mot := rfl
@[simp] theorem State.bump_drv (a lo w : Nat) : (s.bump a lo w).drv = s.drv := rfl
@[simp] theorem State.bump_sch (a lo w : Nat) : (s.bump a lo w).sch = s.sch := rfl
@[simp] theorem State.bump_bid (a lo w : Nat) : (s.bump a lo w).bid = s.bid := rfl
@[simp] theorem State.bump_doorF (a lo w : Nat) : (s.bump a lo w).doorF = s.doorF := rfl
@[simp] theorem State.bump_doorR (a lo w : Nat) : (s.bump a lo w).doorR = s.doorR := rfl
@[simp] theorem State.bump_el (a lo w : Nat) : (s.bump a lo w).el = s.el := rfl
@[simp] theorem State.bump_lsf (a lo w : Nat) : (s.bump a lo w).lsf = s.lsf := rfl
@[simp] theorem State.bump_can (a lo w : Nat) : (s.bump a lo w).can = s.can := rfl
@[simp] theorem State.bump_fiog (a lo w : Nat) : (s.bump a lo w).fiog = s.fiog := rfl
@[simp] theorem State.bump_host (a lo w : Nat) : (s.bump a lo w).host = s.host := rfl
@[simp] theorem State.bump_sil (a lo w : Nat) : (s.bump a lo w).sil = s.sil := rfl
@[simp] theorem State.bump_part (a lo w : Nat) : (s.bump a lo w).part = s.part := rfl
@[simp] theorem State.bump_rcd (a lo w : Nat) : (s.bump a lo w).rcd = s.rcd := rfl
@[simp] theorem State.bump_key (a lo w : Nat) : (s.bump a lo w).key = s.key := rfl
@[simp] theorem State.bump_tamp (a lo w : Nat) : (s.bump a lo w).tamp = s.tamp := rfl
@[simp] theorem State.bump_clk (a lo w : Nat) : (s.bump a lo w).clk = s.clk := rfl
@[simp] theorem State.bump_sys (a lo w : Nat) : (s.bump a lo w).sys = s.sys := rfl
@[simp] theorem State.bump_xbar (a lo w : Nat) : (s.bump a lo w).xbar = s.xbar := rfl

/-! `raise`: an interrupt bit. -/

@[simp] theorem State.raise_pending (pg i : Nat) : (s.raise pg i).pending = s.pending := rfl
@[simp] theorem State.raise_tick (pg i : Nat) : (s.raise pg i).tick = s.tick := rfl
@[simp] theorem State.raise_baseTick (pg i : Nat) : (s.raise pg i).baseTick = s.baseTick := rfl
@[simp] theorem State.raise_fresh (pg i : Nat) : (s.raise pg i).fresh = s.fresh := rfl
@[simp] theorem State.raise_pos (pg i : Nat) : (s.raise pg i).pos = s.pos := rfl
@[simp] theorem State.raise_lwb (pg i : Nat) : (s.raise pg i).lwb = s.lwb := rfl
@[simp] theorem State.raise_mot (pg i : Nat) : (s.raise pg i).mot = s.mot := rfl
@[simp] theorem State.raise_drv (pg i : Nat) : (s.raise pg i).drv = s.drv := rfl
@[simp] theorem State.raise_sch (pg i : Nat) : (s.raise pg i).sch = s.sch := rfl
@[simp] theorem State.raise_bid (pg i : Nat) : (s.raise pg i).bid = s.bid := rfl
@[simp] theorem State.raise_doorF (pg i : Nat) : (s.raise pg i).doorF = s.doorF := rfl
@[simp] theorem State.raise_doorR (pg i : Nat) : (s.raise pg i).doorR = s.doorR := rfl
@[simp] theorem State.raise_el (pg i : Nat) : (s.raise pg i).el = s.el := rfl
@[simp] theorem State.raise_lsf (pg i : Nat) : (s.raise pg i).lsf = s.lsf := rfl
@[simp] theorem State.raise_can (pg i : Nat) : (s.raise pg i).can = s.can := rfl
@[simp] theorem State.raise_fiog (pg i : Nat) : (s.raise pg i).fiog = s.fiog := rfl
@[simp] theorem State.raise_host (pg i : Nat) : (s.raise pg i).host = s.host := rfl
@[simp] theorem State.raise_sil (pg i : Nat) : (s.raise pg i).sil = s.sil := rfl
@[simp] theorem State.raise_part (pg i : Nat) : (s.raise pg i).part = s.part := rfl
@[simp] theorem State.raise_rcd (pg i : Nat) : (s.raise pg i).rcd = s.rcd := rfl
@[simp] theorem State.raise_key (pg i : Nat) : (s.raise pg i).key = s.key := rfl
@[simp] theorem State.raise_tamp (pg i : Nat) : (s.raise pg i).tamp = s.tamp := rfl
@[simp] theorem State.raise_clk (pg i : Nat) : (s.raise pg i).clk = s.clk := rfl
@[simp] theorem State.raise_sys (pg i : Nat) : (s.raise pg i).sys = s.sys := rfl
@[simp] theorem State.raise_xbar (pg i : Nat) : (s.raise pg i).xbar = s.xbar := rfl

/-! `draw`: a free value. -/

@[simp] theorem State.draw_pending : s.draw.pending = s.pending := rfl
@[simp] theorem State.draw_tick : s.draw.tick = s.tick := rfl
@[simp] theorem State.draw_baseTick : s.draw.baseTick = s.baseTick := rfl
@[simp] theorem State.draw_rf : s.draw.rf = s.rf := rfl
@[simp] theorem State.draw_irqNow : s.draw.irqNow = s.irqNow := rfl
@[simp] theorem State.draw_pos : s.draw.pos = s.pos := rfl
@[simp] theorem State.draw_lwb : s.draw.lwb = s.lwb := rfl
@[simp] theorem State.draw_mot : s.draw.mot = s.mot := rfl
@[simp] theorem State.draw_drv : s.draw.drv = s.drv := rfl
@[simp] theorem State.draw_sch : s.draw.sch = s.sch := rfl
@[simp] theorem State.draw_bid : s.draw.bid = s.bid := rfl
@[simp] theorem State.draw_doorF : s.draw.doorF = s.doorF := rfl
@[simp] theorem State.draw_doorR : s.draw.doorR = s.doorR := rfl
@[simp] theorem State.draw_el : s.draw.el = s.el := rfl
@[simp] theorem State.draw_lsf : s.draw.lsf = s.lsf := rfl
@[simp] theorem State.draw_can : s.draw.can = s.can := rfl
@[simp] theorem State.draw_fiog : s.draw.fiog = s.fiog := rfl
@[simp] theorem State.draw_host : s.draw.host = s.host := rfl
@[simp] theorem State.draw_sil : s.draw.sil = s.sil := rfl
@[simp] theorem State.draw_part : s.draw.part = s.part := rfl
@[simp] theorem State.draw_rcd : s.draw.rcd = s.rcd := rfl
@[simp] theorem State.draw_key : s.draw.key = s.key := rfl
@[simp] theorem State.draw_tamp : s.draw.tamp = s.tamp := rfl
@[simp] theorem State.draw_clk : s.draw.clk = s.clk := rfl
@[simp] theorem State.draw_sys : s.draw.sys = s.sys := rfl
@[simp] theorem State.draw_xbar : s.draw.xbar = s.xbar := rfl

/-! `putRcd`: a staged record. -/

@[simp] theorem State.putRcd_pending (r : Rcd) : (s.putRcd r).pending = s.pending := rfl
@[simp] theorem State.putRcd_tick (r : Rcd) : (s.putRcd r).tick = s.tick := rfl
@[simp] theorem State.putRcd_baseTick (r : Rcd) : (s.putRcd r).baseTick = s.baseTick := rfl
@[simp] theorem State.putRcd_fresh (r : Rcd) : (s.putRcd r).fresh = s.fresh := rfl
@[simp] theorem State.putRcd_pos (r : Rcd) : (s.putRcd r).pos = s.pos := rfl
@[simp] theorem State.putRcd_lwb (r : Rcd) : (s.putRcd r).lwb = s.lwb := rfl
@[simp] theorem State.putRcd_mot (r : Rcd) : (s.putRcd r).mot = s.mot := rfl
@[simp] theorem State.putRcd_drv (r : Rcd) : (s.putRcd r).drv = s.drv := rfl
@[simp] theorem State.putRcd_sch (r : Rcd) : (s.putRcd r).sch = s.sch := rfl
@[simp] theorem State.putRcd_bid (r : Rcd) : (s.putRcd r).bid = s.bid := rfl
@[simp] theorem State.putRcd_doorF (r : Rcd) : (s.putRcd r).doorF = s.doorF := rfl
@[simp] theorem State.putRcd_doorR (r : Rcd) : (s.putRcd r).doorR = s.doorR := rfl
@[simp] theorem State.putRcd_el (r : Rcd) : (s.putRcd r).el = s.el := rfl
@[simp] theorem State.putRcd_lsf (r : Rcd) : (s.putRcd r).lsf = s.lsf := rfl
@[simp] theorem State.putRcd_can (r : Rcd) : (s.putRcd r).can = s.can := rfl
@[simp] theorem State.putRcd_fiog (r : Rcd) : (s.putRcd r).fiog = s.fiog := rfl
@[simp] theorem State.putRcd_host (r : Rcd) : (s.putRcd r).host = s.host := rfl
@[simp] theorem State.putRcd_sil (r : Rcd) : (s.putRcd r).sil = s.sil := rfl
@[simp] theorem State.putRcd_part (r : Rcd) : (s.putRcd r).part = s.part := rfl
@[simp] theorem State.putRcd_key (r : Rcd) : (s.putRcd r).key = s.key := rfl
@[simp] theorem State.putRcd_tamp (r : Rcd) : (s.putRcd r).tamp = s.tamp := rfl
@[simp] theorem State.putRcd_clk (r : Rcd) : (s.putRcd r).clk = s.clk := rfl
@[simp] theorem State.putRcd_sys (r : Rcd) : (s.putRcd r).sys = s.sys := rfl
@[simp] theorem State.putRcd_xbar (r : Rcd) : (s.putRcd r).xbar = s.xbar := rfl

/-! `stage`: a record. -/

@[simp] theorem State.stage_pending (typ : RecType) (source : Nat) (slot : Option Nat) (detail : Word) (snap : List Word) (flush : Bool) : (s.stage typ source slot detail snap flush).pending = s.pending := by
  unfold State.stage; split
  · rfl
  · split <;> rfl
@[simp] theorem State.stage_tick (typ : RecType) (source : Nat) (slot : Option Nat) (detail : Word) (snap : List Word) (flush : Bool) : (s.stage typ source slot detail snap flush).tick = s.tick := by
  unfold State.stage; split
  · rfl
  · split <;> rfl
@[simp] theorem State.stage_baseTick (typ : RecType) (source : Nat) (slot : Option Nat) (detail : Word) (snap : List Word) (flush : Bool) : (s.stage typ source slot detail snap flush).baseTick = s.baseTick := by
  unfold State.stage; split
  · rfl
  · split <;> rfl
@[simp] theorem State.stage_fresh (typ : RecType) (source : Nat) (slot : Option Nat) (detail : Word) (snap : List Word) (flush : Bool) : (s.stage typ source slot detail snap flush).fresh = s.fresh := by
  unfold State.stage; split
  · rfl
  · split <;> rfl
@[simp] theorem State.stage_pos (typ : RecType) (source : Nat) (slot : Option Nat) (detail : Word) (snap : List Word) (flush : Bool) : (s.stage typ source slot detail snap flush).pos = s.pos := by
  unfold State.stage; split
  · rfl
  · split <;> rfl
@[simp] theorem State.stage_lwb (typ : RecType) (source : Nat) (slot : Option Nat) (detail : Word) (snap : List Word) (flush : Bool) : (s.stage typ source slot detail snap flush).lwb = s.lwb := by
  unfold State.stage; split
  · rfl
  · split <;> rfl
@[simp] theorem State.stage_mot (typ : RecType) (source : Nat) (slot : Option Nat) (detail : Word) (snap : List Word) (flush : Bool) : (s.stage typ source slot detail snap flush).mot = s.mot := by
  unfold State.stage; split
  · rfl
  · split <;> rfl
@[simp] theorem State.stage_drv (typ : RecType) (source : Nat) (slot : Option Nat) (detail : Word) (snap : List Word) (flush : Bool) : (s.stage typ source slot detail snap flush).drv = s.drv := by
  unfold State.stage; split
  · rfl
  · split <;> rfl
@[simp] theorem State.stage_sch (typ : RecType) (source : Nat) (slot : Option Nat) (detail : Word) (snap : List Word) (flush : Bool) : (s.stage typ source slot detail snap flush).sch = s.sch := by
  unfold State.stage; split
  · rfl
  · split <;> rfl
@[simp] theorem State.stage_bid (typ : RecType) (source : Nat) (slot : Option Nat) (detail : Word) (snap : List Word) (flush : Bool) : (s.stage typ source slot detail snap flush).bid = s.bid := by
  unfold State.stage; split
  · rfl
  · split <;> rfl
@[simp] theorem State.stage_doorF (typ : RecType) (source : Nat) (slot : Option Nat) (detail : Word) (snap : List Word) (flush : Bool) : (s.stage typ source slot detail snap flush).doorF = s.doorF := by
  unfold State.stage; split
  · rfl
  · split <;> rfl
@[simp] theorem State.stage_doorR (typ : RecType) (source : Nat) (slot : Option Nat) (detail : Word) (snap : List Word) (flush : Bool) : (s.stage typ source slot detail snap flush).doorR = s.doorR := by
  unfold State.stage; split
  · rfl
  · split <;> rfl
@[simp] theorem State.stage_el (typ : RecType) (source : Nat) (slot : Option Nat) (detail : Word) (snap : List Word) (flush : Bool) : (s.stage typ source slot detail snap flush).el = s.el := by
  unfold State.stage; split
  · rfl
  · split <;> rfl
@[simp] theorem State.stage_lsf (typ : RecType) (source : Nat) (slot : Option Nat) (detail : Word) (snap : List Word) (flush : Bool) : (s.stage typ source slot detail snap flush).lsf = s.lsf := by
  unfold State.stage; split
  · rfl
  · split <;> rfl
@[simp] theorem State.stage_can (typ : RecType) (source : Nat) (slot : Option Nat) (detail : Word) (snap : List Word) (flush : Bool) : (s.stage typ source slot detail snap flush).can = s.can := by
  unfold State.stage; split
  · rfl
  · split <;> rfl
@[simp] theorem State.stage_fiog (typ : RecType) (source : Nat) (slot : Option Nat) (detail : Word) (snap : List Word) (flush : Bool) : (s.stage typ source slot detail snap flush).fiog = s.fiog := by
  unfold State.stage; split
  · rfl
  · split <;> rfl
@[simp] theorem State.stage_host (typ : RecType) (source : Nat) (slot : Option Nat) (detail : Word) (snap : List Word) (flush : Bool) : (s.stage typ source slot detail snap flush).host = s.host := by
  unfold State.stage; split
  · rfl
  · split <;> rfl
@[simp] theorem State.stage_sil (typ : RecType) (source : Nat) (slot : Option Nat) (detail : Word) (snap : List Word) (flush : Bool) : (s.stage typ source slot detail snap flush).sil = s.sil := by
  unfold State.stage; split
  · rfl
  · split <;> rfl
@[simp] theorem State.stage_part (typ : RecType) (source : Nat) (slot : Option Nat) (detail : Word) (snap : List Word) (flush : Bool) : (s.stage typ source slot detail snap flush).part = s.part := by
  unfold State.stage; split
  · rfl
  · split <;> rfl
@[simp] theorem State.stage_key (typ : RecType) (source : Nat) (slot : Option Nat) (detail : Word) (snap : List Word) (flush : Bool) : (s.stage typ source slot detail snap flush).key = s.key := by
  unfold State.stage; split
  · rfl
  · split <;> rfl
@[simp] theorem State.stage_tamp (typ : RecType) (source : Nat) (slot : Option Nat) (detail : Word) (snap : List Word) (flush : Bool) : (s.stage typ source slot detail snap flush).tamp = s.tamp := by
  unfold State.stage; split
  · rfl
  · split <;> rfl
@[simp] theorem State.stage_clk (typ : RecType) (source : Nat) (slot : Option Nat) (detail : Word) (snap : List Word) (flush : Bool) : (s.stage typ source slot detail snap flush).clk = s.clk := by
  unfold State.stage; split
  · rfl
  · split <;> rfl
@[simp] theorem State.stage_sys (typ : RecType) (source : Nat) (slot : Option Nat) (detail : Word) (snap : List Word) (flush : Bool) : (s.stage typ source slot detail snap flush).sys = s.sys := by
  unfold State.stage; split
  · rfl
  · split <;> rfl
@[simp] theorem State.stage_xbar (typ : RecType) (source : Nat) (slot : Option Nat) (detail : Word) (snap : List Word) (flush : Bool) : (s.stage typ source slot detail snap flush).xbar = s.xbar := by
  unfold State.stage; split
  · rfl
  · split <;> rfl

/-! `fire`: a recorder source. -/

@[simp] theorem State.fire_pending (src : Nat) (detail : Word) : (s.fire src detail).pending = s.pending := by
  unfold State.fire; split
  · rfl
  · simp
@[simp] theorem State.fire_tick (src : Nat) (detail : Word) : (s.fire src detail).tick = s.tick := by
  unfold State.fire; split
  · rfl
  · simp
@[simp] theorem State.fire_baseTick (src : Nat) (detail : Word) : (s.fire src detail).baseTick = s.baseTick := by
  unfold State.fire; split
  · rfl
  · simp
@[simp] theorem State.fire_fresh (src : Nat) (detail : Word) : (s.fire src detail).fresh = s.fresh := by
  unfold State.fire; split
  · rfl
  · simp
@[simp] theorem State.fire_pos (src : Nat) (detail : Word) : (s.fire src detail).pos = s.pos := by
  unfold State.fire; split
  · rfl
  · simp
@[simp] theorem State.fire_lwb (src : Nat) (detail : Word) : (s.fire src detail).lwb = s.lwb := by
  unfold State.fire; split
  · rfl
  · simp
@[simp] theorem State.fire_mot (src : Nat) (detail : Word) : (s.fire src detail).mot = s.mot := by
  unfold State.fire; split
  · rfl
  · simp
@[simp] theorem State.fire_drv (src : Nat) (detail : Word) : (s.fire src detail).drv = s.drv := by
  unfold State.fire; split
  · rfl
  · simp
@[simp] theorem State.fire_sch (src : Nat) (detail : Word) : (s.fire src detail).sch = s.sch := by
  unfold State.fire; split
  · rfl
  · simp
@[simp] theorem State.fire_bid (src : Nat) (detail : Word) : (s.fire src detail).bid = s.bid := by
  unfold State.fire; split
  · rfl
  · simp
@[simp] theorem State.fire_doorF (src : Nat) (detail : Word) : (s.fire src detail).doorF = s.doorF := by
  unfold State.fire; split
  · rfl
  · simp
@[simp] theorem State.fire_doorR (src : Nat) (detail : Word) : (s.fire src detail).doorR = s.doorR := by
  unfold State.fire; split
  · rfl
  · simp
@[simp] theorem State.fire_el (src : Nat) (detail : Word) : (s.fire src detail).el = s.el := by
  unfold State.fire; split
  · rfl
  · simp
@[simp] theorem State.fire_lsf (src : Nat) (detail : Word) : (s.fire src detail).lsf = s.lsf := by
  unfold State.fire; split
  · rfl
  · simp
@[simp] theorem State.fire_can (src : Nat) (detail : Word) : (s.fire src detail).can = s.can := by
  unfold State.fire; split
  · rfl
  · simp
@[simp] theorem State.fire_fiog (src : Nat) (detail : Word) : (s.fire src detail).fiog = s.fiog := by
  unfold State.fire; split
  · rfl
  · simp
@[simp] theorem State.fire_host (src : Nat) (detail : Word) : (s.fire src detail).host = s.host := by
  unfold State.fire; split
  · rfl
  · simp
@[simp] theorem State.fire_sil (src : Nat) (detail : Word) : (s.fire src detail).sil = s.sil := by
  unfold State.fire; split
  · rfl
  · simp
@[simp] theorem State.fire_part (src : Nat) (detail : Word) : (s.fire src detail).part = s.part := by
  unfold State.fire; split
  · rfl
  · simp
@[simp] theorem State.fire_key (src : Nat) (detail : Word) : (s.fire src detail).key = s.key := by
  unfold State.fire; split
  · rfl
  · simp
@[simp] theorem State.fire_tamp (src : Nat) (detail : Word) : (s.fire src detail).tamp = s.tamp := by
  unfold State.fire; split
  · rfl
  · simp
@[simp] theorem State.fire_clk (src : Nat) (detail : Word) : (s.fire src detail).clk = s.clk := by
  unfold State.fire; split
  · rfl
  · simp
@[simp] theorem State.fire_sys (src : Nat) (detail : Word) : (s.fire src detail).sys = s.sys := by
  unfold State.fire; split
  · rfl
  · simp
@[simp] theorem State.fire_xbar (src : Nat) (detail : Word) : (s.fire src detail).xbar = s.xbar := by
  unfold State.fire; split
  · rfl
  · simp

/-! `setRole`: the role. -/

@[simp] theorem State.setRole_pending (r : Role) : (s.setRole r).pending = s.pending := by
  unfold State.setRole; split
  · rfl
  · simp
@[simp] theorem State.setRole_tick (r : Role) : (s.setRole r).tick = s.tick := by
  unfold State.setRole; split
  · rfl
  · simp
@[simp] theorem State.setRole_baseTick (r : Role) : (s.setRole r).baseTick = s.baseTick := by
  unfold State.setRole; split
  · rfl
  · simp
@[simp] theorem State.setRole_fresh (r : Role) : (s.setRole r).fresh = s.fresh := by
  unfold State.setRole; split
  · rfl
  · simp
@[simp] theorem State.setRole_pos (r : Role) : (s.setRole r).pos = s.pos := by
  unfold State.setRole; split
  · rfl
  · simp
@[simp] theorem State.setRole_lwb (r : Role) : (s.setRole r).lwb = s.lwb := by
  unfold State.setRole; split
  · rfl
  · simp
@[simp] theorem State.setRole_mot (r : Role) : (s.setRole r).mot = s.mot := by
  unfold State.setRole; split
  · rfl
  · simp
@[simp] theorem State.setRole_drv (r : Role) : (s.setRole r).drv = s.drv := by
  unfold State.setRole; split
  · rfl
  · simp
@[simp] theorem State.setRole_sch (r : Role) : (s.setRole r).sch = s.sch := by
  unfold State.setRole; split
  · rfl
  · simp
@[simp] theorem State.setRole_bid (r : Role) : (s.setRole r).bid = s.bid := by
  unfold State.setRole; split
  · rfl
  · simp
@[simp] theorem State.setRole_doorF (r : Role) : (s.setRole r).doorF = s.doorF := by
  unfold State.setRole; split
  · rfl
  · simp
@[simp] theorem State.setRole_doorR (r : Role) : (s.setRole r).doorR = s.doorR := by
  unfold State.setRole; split
  · rfl
  · simp
@[simp] theorem State.setRole_el (r : Role) : (s.setRole r).el = s.el := by
  unfold State.setRole; split
  · rfl
  · simp
@[simp] theorem State.setRole_lsf (r : Role) : (s.setRole r).lsf = s.lsf := by
  unfold State.setRole; split
  · rfl
  · simp
@[simp] theorem State.setRole_can (r : Role) : (s.setRole r).can = s.can := by
  unfold State.setRole; split
  · rfl
  · simp
@[simp] theorem State.setRole_fiog (r : Role) : (s.setRole r).fiog = s.fiog := by
  unfold State.setRole; split
  · rfl
  · simp
@[simp] theorem State.setRole_host (r : Role) : (s.setRole r).host = s.host := by
  unfold State.setRole; split
  · rfl
  · simp
@[simp] theorem State.setRole_sil (r : Role) : (s.setRole r).sil = s.sil := by
  unfold State.setRole; split
  · rfl
  · simp
@[simp] theorem State.setRole_key (r : Role) : (s.setRole r).key = s.key := by
  unfold State.setRole; split
  · rfl
  · simp
@[simp] theorem State.setRole_tamp (r : Role) : (s.setRole r).tamp = s.tamp := by
  unfold State.setRole; split
  · rfl
  · simp
@[simp] theorem State.setRole_clk (r : Role) : (s.setRole r).clk = s.clk := by
  unfold State.setRole; split
  · rfl
  · simp
@[simp] theorem State.setRole_sys (r : Role) : (s.setRole r).sys = s.sys := by
  unfold State.setRole; split
  · rfl
  · simp
@[simp] theorem State.setRole_xbar (r : Role) : (s.setRole r).xbar = s.xbar := by
  unfold State.setRole; split
  · rfl
  · simp

end Sys2Proof.Machine
end

