-- ==== Sys2Proof/Laws/TripSpec.lean ====
section
/-! SUPPORT. What a trip does (R190), in one lemma: `Tripped`. -/

namespace Sys2Proof.Machine
/-- What a rising list holds after an insertion. -/
theorem setIns_mem (l : List Nat) (n k : Nat) : k ∈ setIns l n ↔ k = n ∨ k ∈ l := by
  induction l with
  | nil => simp [setIns]
  | cons m r ih =>
    unfold setIns
    split
    · simp
    · split
      · rename_i h; subst h; simp
      · simp [ih]; tauto

/-- What a fold of insertions holds. -/
theorem setIns_foldl_mem (l : List Nat) : ∀ (m : List Nat) (k : Nat), k ∈ l.foldl setIns m ↔ k ∈ l ∨ k ∈ m := by
  induction l with
  | nil => intro m k; simp
  | cons x r ih =>
    intro m k
    rw [List.foldl_cons, ih, setIns_mem, List.mem_cons]
    tauto

/-- UCM joins the causes asked for, or none does. -/
theorem State.mem_withUcm {s : State} {l : List Nat} {c : Nat} (h : c ∈ l) : c ∈ s.withUcm l := by
  unfold State.withUcm
  split
  · exact (setIns_mem _ _ _).2 (.inr h)
  · exact h

/-- What the loss of authority leaves of Electrum. -/
theorem State.loseAuthority_el (s : State) : ∃ x, s.loseAuthority.el = x ∧ x.causes = s.el.causes ∧ x.st = s.el.st ∧
    x.perm = false ∧ x.bypOn = false ∧ (∀ i < 8, x.IsOff i) ∧
    s.loseAuthority.drv.step = s.drv.step ∧ s.loseAuthority.drv.energise = s.drv.energise ∧
    s.loseAuthority.drv.framed = s.drv.framed ∧ s.loseAuthority.drv.frame = s.drv.frame := by
  refine ⟨_, rfl, ?_⟩
  unfold State.loseAuthority
  extract_lets c1 t1 t2 c2 c3 e t3
  have ho : Only { rf := true, irqNow := true, can := true } t3 (each [0, 1, 2, 3] t3 (fun t n => t.canAbortAll n)) := by
    refine each_only _ (fun t x ht => ?_) _ (Only.refl _ _)
    apply State.canAbortAll_only <;> first | rfl | exact ht
  have h2 : Only { rf := true, irqNow := true, doorF := true, doorR := true } t1 t2 := by
    refine each_only _ (fun t x ht => ?_) _ (Only.refl _ _)
    apply State.doorAuthLost_only <;> first | rfl | exact ht
  have el2 : t2.el = s.el := h2.el.resolve_left (by decide)
  have drv2 : t2.drv = s.drv := h2.drv.resolve_left (by decide)
  have g : e.causes = t2.el.causes ∧ e.st = t2.el.st := El.allOffGov_same t2.el t2.el.cyc
  have o : ∀ i < 8, e.IsOff i := El.allOffGov_off t2.el t2.el.cyc
  have k : t3.el = { e with perm := false, bypOn := false, relevGrant := false } := rfl
  have d : t3.drv.step = s.drv.step ∧ t3.drv.energise = s.drv.energise ∧ t3.drv.framed = s.drv.framed ∧
      t3.drv.frame = s.drv.frame := by
    show t2.drv.step = _ ∧ t2.drv.energise = _ ∧ t2.drv.framed = _ ∧ t2.drv.frame = _
    rw [drv2]; exact ⟨rfl, rfl, rfl, rfl⟩
  rw [ho.el.resolve_left (by decide), ho.drv.resolve_left (by decide), k]
  clear_value t3 e t2
  exact ⟨g.1.trans (by rw [el2]), g.2.trans (by rw [el2]), rfl, rfl, o, d⟩

/-- A trip for one cause that may latch. -/
theorem State.trip_spec {s : State} {c : Nat} (h : s.Latches c) : Tripped s (s.trip c) c := by
  have hf : Only tripParts s (s.trip c) := by
    apply State.trip_only <;> first | rfl | exact Only.refl _ _
  unfold State.trip at hf ⊢
  suffices hs : (∃ e, (s.tripAll [c]).el = e ∧ e.st = .tripped ∧ c ∈ e.causes ∧ (∀ k ∈ s.el.causes, k ∈ e.causes) ∧ (e.perm = false ∧ e.bypOn = false) ∧ (∀ i < 8, e.IsOff i)) ∧ (s.tripAll [c]).mot.phase = .tripped ∧ (s.tripAll [c]).drv.step = .off ∧ (s.tripAll [c]).drv.energise = false ∧
      (s.tripAll [c]).drv.framed = s.drv.framed ∧ (s.tripAll [c]).drv.frame = s.drv.frame by
    obtain ⟨⟨e, rfl, a, b, c, d, f⟩, g, i, j, k⟩ := hs
    exact ⟨a, b, c, d, f, g, ⟨i, j⟩, k, hf⟩
  unfold State.tripAll
  extract_lets causes may new fresh perm byp s1 s2 s3 s4 s5 s6
  have hnew : c ∈ new := by
    have hc : c ∈ causes := State.mem_withUcm List.mem_cons_self
    have hm : c ∈ may := by
      rcases h.2 with k | k
      · simp only [may, k, if_true]; exact hc
      · simp only [may]
        split
        · exact hc
        · exact List.mem_filter.2 ⟨hc, k⟩
    exact List.mem_filter.2 ⟨hm, by simp [h.1]⟩
  rw [if_neg (by
    intro e
    rw [List.isEmpty_iff] at e
    rw [e] at hnew
    exact absurd hnew List.not_mem_nil)]
  have k1 : s1.el = s.el.latched new := rfl
  have d1 : s1.drv = s.drv := rfl
  obtain ⟨l1, l2, l3, l4, l5⟩ := El.latched_safe s.el new
  have lc : (s.el.latched new).causes = new.foldl setIns s.el.causes := by
    unfold El.latched; split
    · rw [(El.setOut_same _ _ _ _).1]; rfl
    · rfl
  clear_value new
  clear_value s1
  have k2 : s2.el = s1.el := by simp only [s2]; split <;> rfl
  have k3 : s3.el = s2.el := by simp only [s3]; split <;> rfl
  have d2 : s2.drv = s1.drv := by simp only [s2]; split <;> rfl
  have d3 : s3.drv = s2.drv := by simp only [s3]; split <;> rfl
  clear_value s2 s3
  have k4 : s4.el = s3.el ∧ s4.drv = s3.drv := by
    have : Only { rf := true, irqNow := true, pos := true, lwb := true, doorF := true, doorR := true } s3 s4 := by
      apply State.abandonCals_only <;> try rfl
      refine each_only _ (fun t x ht => ?_) _ (Only.refl _ _)
      apply State.setDoor_only <;> try rfl
      apply State.doorGearAbort_only <;> first | rfl | exact ht
    exact ⟨this.el.resolve_left (by decide), this.drv.resolve_left (by decide)⟩
  obtain ⟨k4, d4⟩ := k4
  clear_value s4
  have m5 : s5.mot.phase = .tripped ∧ s5.drv.step = .off ∧ s5.drv.energise = false ∧ s5.el.causes = s4.el.causes ∧ s5.el.st = s4.el.st ∧ s5.el.perm = false ∧ s5.el.bypOn = s4.el.bypOn ∧ s5.el.a = s4.el.a ∧ s5.el.b = s4.el.b ∧
      s5.drv.framed = s4.drv.framed ∧ s5.drv.frame = s4.drv.frame := by
    have hmt : (s4.motTrip).mot.phase = .tripped := by
      unfold State.motTrip; split
      · assumption
      · rfl
    have hme : s4.motTrip.el = s4.el ∧ s4.motTrip.drv = s4.drv := by
      have : Only { rf := true, irqNow := true, mot := true, rcd := true } s4 s4.motTrip := by
        apply State.motTrip_only <;> first | rfl | exact Only.refl _ _
      exact ⟨this.el.resolve_left (by decide), this.drv.resolve_left (by decide)⟩
    simp only [s5]
    unfold State.drvOff State.spFollow State.permEnd
    dsimp only
    split
    · refine ⟨hmt, rfl, rfl, ?_⟩
      simp [hme]
    · refine ⟨hmt, rfl, rfl, ?_⟩
      rename_i hp
      simp at hp
      simp [hme]
      simpa [hme] using hp
  clear_value s5
  have k6 : s6.el = s5.el ∧ s6.mot = s5.mot ∧ s6.drv = s5.drv := by simp only [s6]; split <;> simp
  clear_value s6
  have he : s6.el.st = .tripped ∧ c ∈ s6.el.causes ∧ (∀ k ∈ s.el.causes, k ∈ s6.el.causes) ∧ (s6.el.perm = false ∧ s6.el.bypOn = false) ∧ (∀ i < 8, s6.el.IsOff i) := by
    have hc : s6.el.causes = new.foldl setIns s.el.causes := by rw [k6.1, m5.2.2.2.1, k4, k3, k2, k1, lc]
    refine ⟨?_, ?_, ?_, ⟨?_, ?_⟩, ?_⟩
    · rw [k6.1, m5.2.2.2.2.1, k4, k3, k2, k1, l1]
    · rw [hc, setIns_foldl_mem]; exact .inl hnew
    · intro k hk; rw [hc, setIns_foldl_mem]; exact .inr hk
    · rw [k6.1, m5.2.2.2.2.2.1]
    · rw [k6.1, m5.2.2.2.2.2.2.1, k4, k3, k2, k1, l3]
    · intro i hi
      have x := l5 i hi
      rw [← k1, ← k2, ← k3, ← k4] at x
      exact x.of_eq (by rw [k6.1, m5.2.2.2.2.2.2.2.1]) (by rw [k6.1, m5.2.2.2.2.2.2.2.2.1])
  have hd : s5.drv.framed = s.drv.framed ∧ s5.drv.frame = s.drv.frame := by
    rw [m5.2.2.2.2.2.2.2.2.2.1, m5.2.2.2.2.2.2.2.2.2.2, d4, d3, d2, d1]; exact ⟨rfl, rfl⟩
  split
  · have hl : (s6.handover).el = (s6.loseAuthority).el ∧ s6.handover.mot = s6.loseAuthority.mot ∧ s6.handover.drv = s6.loseAuthority.drv := by
      unfold State.handover; simp
    have hl2 := State.loseAuthority_el s6
    have hmd : s6.loseAuthority.mot = s6.mot := by
      have : Only { rf := true, irqNow := true, drv := true, can := true, doorF := true, doorR := true, el := true, part := true } s6 s6.loseAuthority := by
        apply State.loseAuthority_only <;> first | rfl | exact Only.refl _ _
      exact this.mot.resolve_left (by decide)
    obtain ⟨x, hx, x1, x2, x3, x4, x5, x6⟩ := hl2
    rw [hl.1, hl.2.1, hl.2.2, hmd, x6.1, x6.2.1, x6.2.2.1, x6.2.2.2, hx]
    refine ⟨⟨x, rfl, ?_, ?_, ?_, ⟨x3, x4⟩, x5⟩, ?_⟩
    · rw [x2]; exact he.1
    · rw [x1]; exact he.2.1
    · rw [x1]; exact he.2.2.1
    · rw [k6.2.1, k6.2.2]; exact ⟨m5.1, m5.2.1, m5.2.2.1, hd⟩
  · refine ⟨⟨_, rfl, he⟩, ?_⟩
    rw [k6.2.1, k6.2.2]; exact ⟨m5.1, m5.2.1, m5.2.2.1, hd⟩
end Sys2Proof.Machine
end

