-- ==== Sys2Proof/WellFormed.lean ====
section
/-! DEFINITION. Which commands are well formed: every number that names a part of the block names one it has. The
model gives every command a meaning, an ill-formed one included (it addresses nothing and changes nothing it names). -/

namespace Sys2Proof

/-- Well-formedness of a command, constructor by constructor. -/
def Instr.wf : Instr → Bool
  | .servoTick _ => true
  | .phaseDeadlineMiss master => decide (master < 12)
  | .electrumCycle i => decide (i.a.taps.length = 8) && decide (i.b.taps.length = 8)
  | .strobeTimeout _ => true
  | .electrumStartComplete _ _ _ => true
  | .safeResetCmd _ => true
  | .autoReset => true
  | .keyRstInput _ => true
  | .pitReset => true
  | .testPulse slot _ _ => decide (slot < 9)
  | .modeNormalReturn => true
  | .degradedExpired _ => true
  | .degradedTimerClear _ => true
  | .nearestLandingRun => true
  | .pairMismatch pair => decide (pair < 13)
  | .channelDisagree => true
  | .absTimeout _ => true
  | .mirrorTimeout output => decide (output < 9)
  | .stoFbTimeout => true
  | .dcmPlaus _ => true
  | .safeConfigWrite _ _ _ => true
  | .hostRegisterWrite _ _ _ => true
  | .errClear _ _ _ => true
  | .hlockSet _ _ => true
  | .hlockUnlock _ _ _ => true
  | .lrpRead _ _ => true
  | .lrpWrite _ _ => true
  | .lrpOpen port _ => decide (port < 4)
  | .lrpClose _ _ => true
  | .lrpNop _ _ => true
  | .lrpInvalidOp _ _ => true
  | .spiTransaction _ => true
  | .sessionEnvelope port _ => decide (port < 4)
  | .ethFrameRx port _ _ => decide (port < 3)
  | .ethLinkChange port _ _ _ => decide (port < 3)
  | .sessionPendingTimeout i => decide (i < 4)
  | .sessionTimeout i => decide (i < 4)
  | .hostSealOpen _ => true
  | .hostCloseOthers _ => true
  | .hostCntClr _ => true
  | .ethCntClr _ port => decide (port < 3)
  | .ethReneg _ port => decide (port < 3)
  | .xbarClrPeak _ => true
  | .xbarClrFlt _ => true
  | .budgetExhausted master => decide (master < 12)
  | .srAnswer _ _ => true
  | .srTimeout => true
  | .sourceReturn _ => true
  | .dzEdge _ _ _ => true
  | .dzWiringFault _ => true
  | .dzWiringFaultEnd _ => true
  | .encDisagree => true
  | .encDisagreeClear => true
  | .traction => true
  | .biasCal _ => true
  | .biasCalDone => true
  | .srReacq _ => true
  | .clrTract _ => true
  | .kappaReset _ => true
  | .posRunClear _ => true
  | .kappaBiasSave => true
  | .lwbConversion _ _ _ _ => true
  | .lwbValidClear => true
  | .lwbValidSet => true
  | .lwbZero _ => true
  | .lwbSpan _ => true
  | .lwbCalDone => true
  | .motStart _ => true
  | .motApply _ => true
  | .motResume _ => true
  | .motTrun _ => true
  | .motTargetWrite _ _ => true
  | .motHorizonWrite _ _ => true
  | .motHold _ => true
  | .planEnd => true
  | .followError => true
  | .vcapChange => true
  | .motHome _ => true
  | .motRecover _ => true
  | .motRelevel _ => true
  | .motAbandon _ => true
  | .autoSpecialStart => true
  | .autoRelevel => true
  | .homeRefInput _ => true
  | .homeLimitInput => true
  | .homeMaxdist => true
  | .drvReadyTimeout => true
  | .drvPreloadDone => true
  | .drvBrakeLifted => true
  | .drvBrakeApplied => true
  | .drvResponse _ _ _ => true
  | .motionWatchdog => true
  | .drvFaultRst _ => true
  | .drvCntClr _ => true
  | .ciaTpdo _ _ _ => true
  | .ciaSdoResponse => true
  | .legacyRdyChange _ => true
  | .landingTableWrite _ _ _ => true
  | .callSet _ _ _ => true
  | .callClr _ _ _ => true
  | .destAdd _ _ => true
  | .destDel _ _ => true
  | .schModeWrite _ _ => true
  | .schRunSet _ => true
  | .schRunClear _ => true
  | .schOosRequest _ _ => true
  | .schedRunStart => true
  | .schedResume => true
  | .holdTimeEnd => true
  | .schRestore _ => true
  | .ccClrAll _ => true
  | .endDwell _ => true
  | .btnStuck landing => decide (landing < 256)
  | .hallPress _ => true
  | .announcement _ => true
  | .bidFrame _ => true
  | .roundNobid => true
  | .releaseFrame _ => true
  | .awardTakeEffect => true
  | .announceRepeat key seq => decide (key < 65536) && decide (seq < 65536)
  | .rebid key seq => decide (key < 65536) && decide (seq < 65536)
  | .orphanDetect key seq => decide (key < 65536) && decide (seq < 65536)
  | .listenEnd => true
  | .islandEnter => true
  | .islandExit => true
  | .bidRunSet => true
  | .bidRejoin _ => true
  | .bidReleaseAll _ => true
  | .bidCntClr _ => true
  | .bidQuery _ _ => true
  | .doorOpen _ _ => true
  | .doorClose _ _ => true
  | .doorStop _ _ => true
  | .doorArmAdv _ _ => true
  | .doorHome _ _ => true
  | .doorLearn _ _ => true
  | .doorClrFault _ _ => true
  | .doorEval _ _ => true
  | .stepLoss _ => true
  | .doorAutoHome _ => true
  | .doorOpenEnd _ => true
  | .doorCloseEnd _ => true
  | .doorHomed _ => true
  | .doorHomeFail _ => true
  | .doorObstructRetry _ => true
  | .doorLockTimeout _ => true
  | .doorDeferEnd _ => true
  | .doorNudge _ => true
  | .doorReverseEnd _ => true
  | .doorLearnDone _ => true
  | .doorStageFault _ code => decide (1 ≤ code) && decide (code ≤ 5)
  | .doorSupplyFault _ => true
  | .doorSupplyRecover _ => true
  | .doorRestDetect _ _ => true
  | .doorPeakExhausted _ => true
  | .doorStagePowerUp _ _ _ => true
  | .lsfFrameRx bus _ => decide (bus < 4)
  | .lsfTimeout slot => decide (slot < 32)
  | .lsfCrcRate slot => decide (slot < 32)
  | .lsfConfTimeout slot => decide (slot < 32)
  | .lsfProduce slot _ => decide (slot < 32)
  | .lsfRestart _ _ => true
  | .lsfCntClr _ => true
  | .canFrameRx n _ => decide (n < 4)
  | .canTxReq _ n _ => decide (n < 4)
  | .canTxAbort _ n _ => decide (n < 4)
  | .canTxAttemptEnd n obj _ _ => decide (n < 4) && decide (obj ≤ 32)
  | .canError n lec _ _ => decide (n < 4) && decide (1 ≤ lec) && decide (lec ≤ 6)
  | .canBusOff n => decide (n < 4)
  | .canBusoffRecovery n => decide (n < 4)
  | .canAlone n => decide (n < 4)
  | .canSleep _ n => decide (n < 4)
  | .canLocalWake _ n => decide (n < 4)
  | .canWake n _ _ => decide (n < 4)
  | .canIntegrate n => decide (n < 4)
  | .canCntClr _ n => decide (n < 4)
  | .fieldFilterTick group _ => decide (1 ≤ group) && decide (group ≤ 8)
  | .fioOutSet _ group _ => decide (1 ≤ group) && decide (group ≤ 8)
  | .fioOutClr _ group _ => decide (1 ≤ group) && decide (group ≤ 8)
  | .fioTsd channel => decide (channel < 256)
  | .fioTsdRecover channel => decide (channel < 256)
  | .fioTsdClr _ group _ => decide (1 ≤ group) && decide (group ≤ 8)
  | .grpOc group => decide (1 ≤ group) && decide (group ≤ 8)
  | .fioGrpClr _ group => decide (1 ≤ group) && decide (group ≤ 8)
  | .fioDiagChange channel _ _ => decide (channel < 256)
  | .fieldSupplyChange group _ => decide (1 ≤ group) && decide (group ≤ 8)
  | .fioChannelCfg _ channel _ => decide (channel < 256)
  | .silenceTimeout => true
  | .silAck _ => true
  | .bandChange _ _ => true
  | .presentStable => true
  | .presentOpen => true
  | .claim => true
  | .claimSettleEnd => true
  | .isolatedExit => true
  | .echoWindow => true
  | .echoStop => true
  | .mirrorEpochRx _ => true
  | .mirrorEpochApply => true
  | .mirrorStale => true
  | .partnerLinkDown => true
  | .partnerLinkUp => true
  | .resyncComplete => true
  | .roleExchange => true
  | .xchNow _ => true
  | .xchHoldEnd => true
  | .partResync _ => true
  | .partCntClr _ => true
  | .flushStart => true
  | .recordsLostStage => true
  | .recFlush _ => true
  | .recWallSet _ => true
  | .recFire _ slot => decide (slot < 64)
  | .recCntClr _ => true
  | .recRead _ _ => true
  | .counterSave => true
  | .finalSave => true
  | .keyLoad _ _ => true
  | .keyUnload _ _ => true
  | .keyReplace _ _ => true
  | .keySwap slot => decide (slot < 64)
  | .keyGenerate _ _ => true
  | .keyImport _ _ => true
  | .keyDerive _ _ => true
  | .keyStoreRes _ _ => true
  | .keyEraseRes _ _ => true
  | .attestKey _ _ => true
  | .attestDev _ _ => true
  | .idPub _ _ => true
  | .nonce _ _ => true
  | .lcTransition _ _ => true
  | .lcReturn _ _ => true
  | .verify _ _ => true
  | .keymgmt _ _ => true
  | .keyRemask => true
  | .idReady => true
  | .lowerTreeBuild => true
  | .serviceExpiry => true
  | .tamperEvent _ => true
  | .tamperRelease _ => true
  | .startAttempt _ => true
  | .clockHoldEnd => true
  | .invarWindow _ => true
  | .xoStop => true
  | .pllLossOfLock _ => true
  | .ircTrim _ => true
  | .ircFail => true
  | .fallbackAcc1pct => true
  | .clkGateWrite _ _ => true
  | .gateDrainEnd _ => true
  | .clkoutReconfig => true
  | .powerOnReset => true
  | .brownOutReset => true
  | .pinReset => true
  | .watchdogReset => true
  | .softReset _ _ => true
  | .safeReset => true
  | .partReset => true
  | .clkReset => true
  | .resetButtonRelease _ _ => true
  | .resetButtonStuck => true
  | .resetButtonRearm => true
  | .deferredPinReset => true
  | .powerFailWarning _ => true
  | .powerRecovery _ => true
  | .holdupReady => true
  | .profDataWrite _ _ => true
  | .profStore _ _ => true
  | .profStoreDone _ => true
  | .profileOvrWrite _ _ => true
  | .park _ => true
  | .autoPark => true
  | .parkWake _ => true
  | .pwrRun _ => true
  | .deep _ => true
  | .deepWake _ => true
  | .imageUpdate _ _ => true
  | .enrolment _ _ => true
  | .keyCommandDone => true
  | .aonPowerLoss => true
  | .borStart => true
  | .ethFarFault _ => true

end Sys2Proof
end

