-- ==== Sys2Proof/Tests/Slice0.lean ====
section
/-! SUPPORT. Tests: a command of each ill-formed kind is refused by its check; for each statement a state and operands
that meet its hypotheses; the spec's worked values; one step of a few commands. -/

namespace Sys2Proof.Tests
-- Each test waits for the kernel; one after another, they need one thread, not one each.
set_option Elab.async false

open Sys2Proof Sys2Proof.Machine

/-- The module in RUN right after reset, every gate open. -/
def up : State := { State.reset with sys := { Sys.reset with run := .run } }

/-- A host in VENDOR world in an authenticated session on SPI. -/
def host : Src := ⟨0, .vendor, some 0⟩

/-- The same in SERVICE world. -/
def service : Src := ⟨0, .service, some 0⟩

/-- Landing `n` of the landing table: level, half width 100 mm, enabled, front and rear. -/
def landing (s : State) (n : Nat) (level : Int) : State :=
  ((s.wi (0x150000 + 0x40 * n) level).wn (0x150004 + 0x40 * n) 100000).wn (0x150008 + 0x40 * n) 0x7F

/-- Seven limits stored at `a`. -/
def limits (s : State) (a : Nat) : State := each (List.range 7) s (fun t i => t.wn (a + 4 * i) 1000000)

/-- A car at level 0 with three landings, host runs, a drive link, a valid position and authority. -/
def car : State :=
  let t := landing (landing (landing up 0 0) 1 3000000) 2 6000000
  let u := limits (limits (limits t motVmax) motPVmax) motNewVmax
  let w := (((u.wn motCtrl 1).wn drvCfg 1).wn posCtrl 0x0F).wn motHorizon 2
  { w with
    sys := { w.sys with profValid := true }, drv := { w.drv with iface := 1 }
    pos := { w.pos with abs := true, enc1 := { w.pos.enc1 with w := ⟨.valid, 0⟩ } }
    el := { w.el with st := .normal, chain := true, dzv := some 0, vlim := 2000000 }
    mot := { w.mot with cap := 2000000 }
    part := { w.part with role := .solo, latch := true, stable := true, band := .absent, settle := none } }

/-- Whether a write is accepted. -/
abbrev ok (s : State) (a : Nat) (v : Word) : Prop := s.judge host a v = none

/-- Electrum with a part changed. -/
def withEl (s : State) (f : El → El) : State := { s with el := f s.el }

/-- The same car with SCH running, in service. -/
def served : State := withEl ((car.wn schCtrl 1).wn motCtrl 0) (fun e => { e with proofPend := false })

/-- MOT with a part changed. -/
def withMot (s : State) (f : Mot → Mot) : State := { s with mot := f s.mot }

/-- The front door with a part changed. -/
def withDoor (s : State) (f : Door → Door) : State := { s with doorF := f s.doorF }

/-- Pairing with a part changed. -/
def withPart (s : State) (f : Part → Part) : State := { s with part := f s.part }

/-- The brakes applied and everything quiet. -/
def quiet : State := withEl (up.wn safeCfg 0) (fun e => { e with
  quiet := 4000, nodes := List.replicate 9 false, a := { e.a with mirrors := List.replicate 8 ⟨true, 4⟩ }, b := { e.b with mirrors := List.replicate 8 ⟨true, 4⟩ } })

/-- Requests written out from R263: OP, TAG, COUNT, address, data, CRC. -/
def nop : List Byte := (fun b => b ++ crc16Bytes b) [5, 1, 0, 0, 0, 0]

/-- A read of one word, and a write of one. -/
def rd1 : List Byte := (fun b => b ++ crc16Bytes b) [1, 2, 0x40, 0, 0, 0]
def wr1 : List Byte := (fun b => b ++ crc16Bytes b) [2, 3, 0x74, 0, 0, 0, 5, 0, 0, 0]

/-- A NOP whose CRC is wrong. -/
def badNop : List Byte := [5, 1, 0, 0, 0, 0, 0, 0]

/-- A session of SPI. -/
def inSess : State := { up with host := { up.host with
  sessions := [some ⟨true, 0, .vendor, 0, 0, 1, [], [], [], 0, 0, 0, none, []⟩, none, none, none] } }

/-- An answer of the shaft reader: STATUS 0, position 3,000,000 µm, sequence 7. -/
def answer : List Byte := (fun b => b ++ crc16Bytes b) [0, 0xC0, 0xC6, 0x2D, 0, 7]

/-- The reader with request 7 outstanding. -/
def reader : State := { car with pos := { car.pos with sr := { car.pos.sr with st := .valid, reqSeq := 7, reqOut := true } } }

/-- The reader without an answer for 2 ms. -/
def late : State := { reader with tick := 32 }

/-- Both zone channels in use. -/
def zoned : State := { car with pos := { car.pos with dza := { car.pos.dza with st := .valid }, dzb := { car.pos.dzb with st := .valid } } }

/-- The accelerometer and the reader valid at rest. -/
def acc : State := { reader with pos := { reader.pos with acc := ⟨.valid, 0⟩ } }

/-- The car 1 m above landing 0, outside every zone. -/
def away : State := { car with
  pos := { car.pos with p := 1000000 * 65536 }, mot := { car.mot with sp := { car.mot.sp with x := 1000000 * 65536 } } }

/-- A run upwards towards landing 2. -/
def prep : State := withMot away (fun m => { m with phase := .speed, up := true })

/-- A run held with its target, landing 2, kept. -/
def held : State := withMot away (fun m => { m with phase := .held, committed := true, target := 2, targetPos := 6000000 })

/-- A car whose proof is pending, 300 mm above landing 0, brakes applied: a recovery run is asked for. -/
def special : State := withEl { car with
  pos := { car.pos with p := 300000 * 65536 } } (fun e => { e with proofPend := true })

/-- The car 30 mm above its landing with both zone inputs: relevelling is due. -/
def relevel : State :=
  let t := (((zoned.wn motRtCfg 4).wn motRelevTrig 10).wn motLevelAcc 5).wn motRelevMax 15
  let u := withMot t (fun m => { m with landing := 0, landValid := true, relevTicks := 16000000 })
  withEl { u with pos := { u.pos with
    p := 30000 * 65536, dza := { u.pos.dza with active := true }, dzb := { u.pos.dzb with active := true } } }
    (fun e => { e with relevGrant := true })

/-- A correction run in SEARCH. -/
def homing : State := withMot car (fun m => { m with
  phase := .special, runType := .correction, hstep := .search, refWas := true, homeTravel := 100000000000000 })

/-- DRV in a step since tick 0, at 10 s. -/
def drvAt (st : DrvStep) : State := { car with tick := 160000, drv := { car.drv with step := st, stepAt := 0, readyAt := some 0 } }

/-- DRV magnetising. -/
def magnet : State := drvAt .magnetise

/-- The brakes lifted. -/
def lifted : State := withEl (drvAt .lift) (fun e => { e with
  a := { e.a with mirrors := List.replicate 8 ⟨false, 0⟩ }, b := { e.b with mirrors := List.replicate 8 ⟨false, 0⟩ } })

/-- Four checks without an answer. -/
def wdog : State := { car with drv := { car.drv with step := .follow, miss := 4 } }

/-- SCH in DESTINATION mode. -/
def dest : State := served.wn schMode 2

/-- The same holding one riding destination. -/
def destHeld : State := { dest with sch := { dest.sch with dests := [(0, ⟨0, 1, .riding, 0, 0, none⟩)] } }

/-- Out of service, at rest, with SCH running. -/
def parked : State := { quiet.wn schCtrl 1 with sch := { quiet.sch with oosHost := true } }

/-- A car call at landing 2. -/
def calling : State := { served with sch := { served.sch with cc := [2] } }

/-- A hold of 100 ms since tick 0, at 10 s. -/
def dwell : State := { served with
  tick := 1600000, sch := { served.sch with ans := some ⟨0, true, false, false, [], [], some 0, 100, false, false⟩ } }

/-- A member of the group on running buses. -/
def grp : State := { served with
  can := List.replicate 4 { Can.reset with st := .errorActive }, bid := { served.bid with member := .member, run := true } }

/-- Frames of CAN2 and CAN1: a standard one, an UP press at landing 2, and Ritha frames about that call. -/
def frame (ide : Bool) (id : Nat) (data : List Byte) : CanFrame := ⟨ide, BitVec.ofNat 29 id, false, true, false, false, data, 0, 0⟩
def notFrame : CanFrame := frame false 5 []
def press : CanFrame := frame true (4 * 2 ^ 26 + callKey 2 0 * 1024) []
def ann : CanFrame := frame true (2 ^ 26 + callKey 2 0 * 1024) [0, 0, 0xFF, 0, 0xFF, 0, 0, 0]
def bidF : CanFrame := frame true (2 * 2 ^ 26 + 500 * 1024 + 3 * 16) [0, 2, 0, 0]
def relF : CanFrame := frame true (3 * 2 ^ 26 + callKey 2 0 * 1024 + 3 * 16) [0, 0, 0, 0, 0, 0]

/-- A round of that call open since µs 0, and the call known. -/
def rounded : State := { grp with bid := { grp.bid with round := some ⟨callKey 2 0, 0, 0, 0, 0xFF, 0, 0xFF, 0⟩ } }
def called : State := { grp with bid := { grp.bid with calls := [⟨callKey 1 0, 0, 0xFF, true, some 3, 0, 0, 0, 0, 0, none, true⟩] } }

/-- The car with both door axes in use under the host, closed. -/
def cabled : State :=
  let t := (car.wn (doorCfg (doorPage .a)) 5).wn (doorCfg (doorPage .b)) 5
  { t with
    sys := { t.sys with profValid := true }, doorF := { t.doorF with st := .closed, posLost := false }
    doorR := { t.doorR with st := .closed, posLost := false } }

/-- The front door closing, and open. -/
def closing : State := withDoor cabled (fun d => { d with st := .closing })
def opened : State := withDoor cabled (fun d => { d with st := .opened })

/-- The front door stopped by an obstruction, a second later. -/
def retry : State := { withDoor cabled (fun d => { d with st := .stopped, obsWait := true, stopAt := 0 }) with tick := 1600000 }

/-- An evaluation of a door at rest between its ends. -/
def still : DoorIn := ⟨0, 0, 0, true, false, none, 250, 48000, 0⟩

/-- LSF slot 0 as a producer in RUN, and as a consumer of connection 1 of node 2 in RUN on CAN0. -/
def slotted : State :=
  let t := served.wr (lsfCnCfg + 0x20 * 0) 3
  { t with lsf := { LsfSlot.reset with st := .run } :: List.replicate 31 LsfSlot.reset }
def consumer : State :=
  let t := grp.wr (lsfCnCfg + 0x20 * 0) (pack [(0, 1, 1), (8, 4, 1), (16, 12, 2)])
  { t with lsf := { LsfSlot.reset with st := .run } :: List.replicate 31 LsfSlot.reset }

/-- A frame on that connection's identifier. -/
def lsfF : CanFrame := frame true (5 * 2 ^ 26 + 2 * 16 + 1) [0, 0]

/-- Controller 0 asleep. -/
def asleep : State := { grp.wf_ (canCtrl 0x14) 1 1 1 with
  can := { Can.reset with st := .sleep } :: List.replicate 3 { Can.reset with st := .errorActive } }

/-- Group 1 with an input on channel 0 and an output on channel 1. -/
def fielded : State := ((car.wn (fiogChCfg (grpPage 1)) 1).wn (fiogChCfg (grpPage 1) + 4) 2).wn schCtrl 0

/-- A standby at rest beside no partner, its claim timer run. -/
def claims : State := { withPart up (fun p => { p with
  role := .standby, stable := true, band := .absent, stillAt := some 0, claimAt := some 0 }) with tick := 160000 }

/-- A standby with its link up. -/
def standby : State := withPart up (fun p => { p with role := .standby, stable := true, band := .claiming, linkUp := true })

/-- One second after reset. -/
def late16 : State := { up with tick := 16000 }

/-- A key command accepted at tick 0, a tick later. -/
def busy (op : Nat) : State := { up with tick := 1, key := { up.key with job := some ⟨wordN op, host, 0, none, none⟩ } }

/-- A start attempt in which everything qualifies, and one without IRC-A. -/
def goodStart : StartIn := ⟨19531, some 100, some 5000, false, 52429, some 100, false, 0, [], false, 0, false, false⟩

/-- FUSE gated together with POS, POS not running. -/
def gateVal : Word := wordN (0xFFFFFFF - 2 - 512)
def gateOff : State := up

/-- The car at rest, nothing to do. -/
def rest : State := withEl { served with sch := { served.sch with oosHost := false } } (fun e => { e with st := .normal })

/-- A car that may exchange roles: neither module has a profile, so the digests are equal. -/
def exch : State := { withPart rest (fun p => { p with
  role := .active, band := .present, linkUp := true, linkAt := 0, peerDigest := some (List.replicate 32 0, 0) }) with
  tick := 100000000, mot := { rest.mot with landValid := true } }

/-- The running car with Electrum changed so that its timed checks are due: the contactor and brake nodes on with mirrors that
do not follow, a pair and a channel difference counted out, STO feedback asked for, a contradiction of 500 ms. -/
def checks : State := withEl (served.wf_ safeCfg 3 2 1) (fun e => { e with
  cyc := 40000, pairBad := [(0, 800)], disagree := [(13, 8)], nodes := List.replicate 9 true
  a := { e.a with mirrors := List.replicate 8 ⟨true, 4⟩, outs := List.replicate 9 true, plaus := [2000, 0, 0, 2000, 0, 0], stoFb := ⟨true, 4⟩ }
  b := { e.b with mirrors := List.replicate 8 ⟨true, 4⟩, outs := List.replicate 9 true } })

/-- Electrum at the pulse of a slot, that slot's output on in both channels. -/
def pulsing (slot : Nat) : State := withEl served (fun e => { e with
  cyc := 25 * slot + 1, a := { e.a with outs := List.replicate 9 true }, b := { e.b with outs := List.replicate 9 true } })

/-- A tripped car at rest whose pit reset has been held. -/
def pit (present : List Nat) : State := withEl quiet (fun e => { e with
  pitRst := 4000, pitLatch := true, causes := [11], st := .tripped, present := present })

/-- The car outside every zone with a degraded mode expired. -/
def lostRef : State := withEl { served with
  pos := { served.pos with p := 1000000 * 65536 } } (fun e => { e with expired := [.sr] })

/-- The reader in another state, and one whose probation has passed. -/
def readerIn (st : SrcState) : State := { late with pos := { late.pos with sr := { late.pos.sr with st := st, passed := true } } }

/-- The first encoder at the end of its probation. -/
def back1 : State := { car with pos := { car.pos with enc1 := { car.pos.enc1 with w := ⟨.probation, 16000⟩ } } }

/-- A zone channel in a state, lost by its wiring. -/
def zoneIn (st : SrcState) : State := { zoned with
  pos := { zoned.pos with dza := { zoned.pos.dza with st := st, lostByWiring := true } } }

/-- The reader in conflict. -/
def conflict : State := { acc with pos := { acc.pos with sr := { acc.pos.sr with conflict := true } } }

/-- The load-weighing bridge after a number of faulty and of good conversions, with a calibration in hand. -/
def weigh (valid : Bool) (bad good : Nat) (cal : Option (Bool × Nat × Int)) : State := { up with
  lwb := { up.lwb with valid := valid, faultConv := bad, okConv := good, cal := cal, zeroStored := true, spanStored := true } }

/-- MOT in a phase on its way to landing 2. -/
def phaseIs (p : Phase) : State := withMot away (fun m => { m with phase := p, up := true, target := 2, targetPos := 6000000 })

/-- A run whose plan has ended at its target. -/
def ended : State := withMot (phaseIs .stopping) (fun m => { m with
  committed := true, plan := some ⟨0, true, 0, 0, [], .constJerk, some 0, some 6000000⟩ })

/-- A held run level at landing 0, with and without a committed target. -/
def heldAt (committed : Bool) : State := withMot car (fun m => { m with
  phase := .held, committed := committed, keptHorizon := !committed, target := 0, targetPos := 0 })

/-- A drive sequence with authority and the response check open. -/
def linked : State := { car with drv := { car.drv with step := .follow, checked := false } }

/-- A CiA drive in a SYNC cycle. -/
def cia : State := { car with drv := { car.drv with iface := 2, sync := 1, syncUs := 1000, sdoSent := true } }

/-- An answer of the drive to sequence 0, its CRC right. -/
def drvAnswer : List Byte := (fun b => b ++ crc16Bytes b) [0, 0, 0, 0, 0, 0, 0, 0, 0]

/-- The car answering at its landing, the closing not yet due; a held run whose target the scheduler resumes. -/
def answering : State := { served with sch := { served.sch with
  ans := some ⟨0, true, false, false, [], [.a], none, 100, false, false⟩ } }
def resumable : State := (withMot calling (fun m => { m with phase := .held, committed := true, target := 2, targetPos := 6000000 }))

/-- SCH in RECALL, arrived at its landing. -/
def recalled : State := { served.wn schMode 4 with sch := { served.sch with recallDone := true } }

/-- An entry held by award. -/
def awarded : State := { dest with sch := { dest.sch with dests := [(0, ⟨0, 1, .waiting, 5, 0, some 1⟩)] } }

/-- A button held active since tick 0. -/
def stuck : State := { served with tick := 100000000, sch := { served.sch with btnOn := [(1, 0)] } }

/-- Sound frames of the group: an announcement, a bid and a release. -/
def annG : CanFrame := frame true (2 ^ 26 + callKey 2 0 * 1024 + 3 * 16) [0, 2, 0xFF, 0, 0, 0, 0xFF, 0]
def bidG : CanFrame := frame true (2 * 2 ^ 26 + 500 * 1024 + 3 * 16) [0, 2, 0, 0, 0, 0, 0, 0]
def relG (reason : Byte) : CanFrame := frame true (3 * 2 ^ 26 + callKey 1 0 * 1024 + 3 * 16) [0, 1, 0, reason, 0, 0, 0, 0]

/-- A member in another state. -/
def memberIs (m : Member) : State := { grp with bid := { grp.bid with member := m, cutAt := some 0 }, tick := 100000000 }

/-- A known call of the group, much later: held by this car, waiting, held by another. -/
def knows (holder : Option Nat) : State := { grp with
  tick := 100000000, bid := { grp.bid with calls := [⟨callKey 1 0, 0, 0xFF, true, holder, 0, 0, 0, 0, 0, none, true⟩] } }

/-- A door sampled under great force, the evaluation before it having seen it too. -/
def pushed (d : State) : State := withDoor ((d.wn (doorKf (doorPage .a)) 65536).wn (doorFmax (doorPage .a)) 100)
  (fun d => { d with fCnt := 1, iLim := 1000000 })
def push (iq : Int) : DoorIn := ⟨iq, 0, 0, true, false, none, 250, 48000, 0⟩

/-- A door without an obstruction to come, learning, and one whose stage is down. -/
def learning (moves : Nat) : State := withDoor cabled (fun d => { d with
  st := .learn, learn := some ⟨moves, 0, 0, 0, 0, 0, [(100, 50)], [800000]⟩ })
def stageOff : State := (withDoor cabled (fun d => { d with st := .off, retSt := .opened })).wf_ (doorRetAngle (doorPage .a)) 17 1 1

/-- The DOOR supply seen bad, and seen good again, for 16 evaluations. -/
def supplyLow : State := withDoor cabled (fun d => { d with lowN := 16, highN := 16, upN := 16, downN := 16 })

/-- A consumer that has a frame waiting. -/
def lsfHeard : State := consumer.canReceive 0 lsfF

/-- A transmit object pending since µs 0, in time. -/
def sending (aborted : Bool) : State := grp.setTxo 0 0 { grp.txo 0 0 with
  res := if aborted then .failed else .pending, aborted := aborted, abortUs := 50, reqUs := 0, reqLate := 0 }

/-- Controller 0 with its counters past the limits. -/
def worn : State := grp.setCan 0 { grp.cann 0 with tec := 256, ackRun := 32 }

/-- Field group 1 with an output protected. -/
def hot : State := fielded.setGrp 1 { fielded.grp 1 with tsd := 2, tsdHot := 2, dOpen := 2, seen := true }

/-- An LC-2560-S. -/
def ess (s : State) : State := { s with sys := { s.sys with ordD := false } }

/-- A module with its contact stable, in a role, with or without the latch, reading a band. -/
def paired (r : Role) (latch : Bool) (b : Band) : State := withPart up (fun p => { p with
  role := r, stable := true, latch := latch, band := b, linkUp := true })

/-- An isolated module that echoes, a second after it read a good band. -/
def echoing : State := { withPart (paired .isolated false .present) (fun p => { p with
  pres := .echo, readAt := some 0, validAt := some 0 }) with tick := 32000 }

/-- A sound epoch. -/
def epoch : Epoch := ⟨1, true, ⟨0, 0, 0, 0, 65536, 0, true, 0⟩, none, none, none, none, none, false⟩

/-- The recorder with its places full, and with a record lost. -/
def full : State := { up with rcd := { up.rcd with unwritten := List.range 63 } }
def lossy : State := { up with rcd := { up.rcd with lostCnt := 1 } }

/-- A loaded slot with a replacement waiting. -/
def shadowed : State := { up with key := { up.key with
  slots := [(16, ⟨[], [], 0, false, false, none, some ([], [])⟩)] } }

/-- A module without power, in DEEP, in CLOCK-HOLD. -/
def inRun (r : RunState) : State := { up with sys := { up.sys with run := r } }

/-- Fallback of the clocks. -/
def slow : State := { up with clk := { up.clk with fallback := true, fbTicks := 9600000 } }

/-- The press of a moving car, and a warning in force. -/
def deferring : State := { prep with sys := { prep.sys with pinDefer := some 0 } }
def warned : State := { up with sys := { up.sys with pfw := some 0, holdup := true } }

/-- A channel's samples of one cycle, with a number of taps. -/
def samples (n : Nat) : ElSample := ⟨24000, List.replicate n 24000, 0, 0, 0, false, ⟨0, false⟩, none, false, []⟩

/-! The checks of well-formedness. -/

theorem test_ill_formed_1 :
    (Instr.phaseDeadlineMiss 12).wf = false ∧
    (Instr.electrumCycle ⟨samples 7, samples 8, 0⟩).wf = false ∧
    (Instr.electrumCycle ⟨samples 8, samples 9, 0⟩).wf = false ∧
    (Instr.electrumCycle ⟨samples 8, samples 8, 0⟩).wf = true ∧
    (Instr.testPulse 9 false .none).wf = false ∧
    (Instr.pairMismatch 13).wf = false ∧
    (Instr.mirrorTimeout 9).wf = false ∧
    (Instr.lrpOpen 4 []).wf = false ∧
    (Instr.sessionEnvelope 4 []).wf = false ∧
    (Instr.ethFrameRx 3 false []).wf = false ∧
    (Instr.ethLinkChange 3 false false 0).wf = false ∧
    (Instr.sessionPendingTimeout 4).wf = false := by decide +kernel

theorem test_ill_formed_2 :
    (Instr.sessionTimeout 4).wf = false ∧
    (Instr.ethCntClr host 3).wf = false ∧
    (Instr.ethReneg host 3).wf = false ∧
    (Instr.budgetExhausted 12).wf = false ∧
    (Instr.btnStuck 256).wf = false ∧
    (Instr.announceRepeat 65536 0).wf = false ∧
    (Instr.announceRepeat 0 65536).wf = false ∧
    (Instr.rebid 65536 0).wf = false ∧
    (Instr.rebid 0 65536).wf = false ∧
    (Instr.orphanDetect 65536 0).wf = false ∧
    (Instr.orphanDetect 0 65536).wf = false ∧
    (Instr.doorStageFault .a 0).wf = false := by decide +kernel

theorem test_ill_formed_3 :
    (Instr.doorStageFault .a 6).wf = false ∧
    (Instr.lsfFrameRx 4 notFrame).wf = false ∧
    (Instr.lsfTimeout 32).wf = false ∧
    (Instr.lsfCrcRate 32).wf = false ∧
    (Instr.lsfConfTimeout 32).wf = false ∧
    (Instr.lsfProduce 32 false).wf = false ∧
    (Instr.canFrameRx 4 notFrame).wf = false ∧
    (Instr.canTxReq host 4 0).wf = false ∧
    (Instr.canTxAbort host 4 0).wf = false ∧
    (Instr.canTxAttemptEnd 4 0 .lostArbitration 0).wf = false ∧
    (Instr.canTxAttemptEnd 0 33 .lostArbitration 0).wf = false ∧
    (Instr.canError 4 1 false 0).wf = false := by decide +kernel

theorem test_ill_formed_4 :
    (Instr.canError 0 0 false 0).wf = false ∧
    (Instr.canError 0 7 false 0).wf = false ∧
    (Instr.canBusOff 4).wf = false ∧
    (Instr.canBusoffRecovery 4).wf = false ∧
    (Instr.canAlone 4).wf = false ∧
    (Instr.canSleep host 4).wf = false ∧
    (Instr.canLocalWake host 4).wf = false ∧
    (Instr.canWake 4 .pattern none).wf = false ∧
    (Instr.canIntegrate 4).wf = false ∧
    (Instr.canCntClr host 4).wf = false ∧
    (Instr.fieldFilterTick 0 0).wf = false ∧
    (Instr.fieldFilterTick 9 0).wf = false := by decide +kernel

theorem test_ill_formed_5 :
    (Instr.fioOutSet host 0 0).wf = false ∧
    (Instr.fioOutSet host 9 0).wf = false ∧
    (Instr.fioOutClr host 0 0).wf = false ∧
    (Instr.fioOutClr host 9 0).wf = false ∧
    (Instr.fioTsd 256).wf = false ∧
    (Instr.fioTsdRecover 256).wf = false ∧
    (Instr.fioTsdClr host 0 0).wf = false ∧
    (Instr.fioTsdClr host 9 0).wf = false ∧
    (Instr.grpOc 0).wf = false ∧
    (Instr.grpOc 9).wf = false ∧
    (Instr.fioGrpClr host 0).wf = false ∧
    (Instr.fioGrpClr host 9).wf = false := by decide +kernel

theorem test_ill_formed_6 :
    (Instr.fioDiagChange 256 .openLoad false).wf = false ∧
    (Instr.fieldSupplyChange 0 0).wf = false ∧
    (Instr.fieldSupplyChange 9 0).wf = false ∧
    (Instr.fioChannelCfg host 256 0).wf = false ∧
    (Instr.recFire host 64).wf = false ∧
    (Instr.keySwap 64).wf = false := by decide +kernel

/-! Hypotheses that can be met, statement by statement. -/

theorem test_premises_StepRunsTheFrontCommand :
    up.up_ = true := by decide +kernel

theorem test_premises_StepIdlesOnAnEmptyQueue :
    up.pending = [] := by decide +kernel

theorem test_premises_EveryStepKeepsSoundness :
    Cells.wf regReset State.reset.rf = true ∧
    State.reset.el.causes = [] ∧
    State.reset.el.perm = false := by decide +kernel

theorem test_premises_RefusalsFollowTheOrder :
    up.judge host 1 0 = some 8 ∧
    up.judge host posCmd 1 = some 64 ∧
    ok up posCmd 4 ∧
    isErr 0x8010 = true ∧
    isErr 1 = false ∧
    up.winPass host 0x1000 true = true := by decide +kernel

theorem test_premises_RefusedWriteIsRecorded :
    Cells.wf regReset up.rf = true ∧
    up.up_ = true ∧
    deferredAddr 0x10 = false ∧
    up.judge host 0x1000 0 = some 3 ∧
    deferredAddr 0x1000 = false := by decide +kernel

theorem test_premises_HostWriteTakesEffect :
    checkedAddr motCmd = true ∧
    checkedAddr schMode = false ∧
    deferredAddr schMode = true ∧
    up.preview.judge host schMode 1 = none ∧
    deferredAddr sysProfData = false ∧
    ok up sysProfData 5 := by decide +kernel

theorem test_premises_ErrClearClears :
    Cells.wf regReset up.rf = true ∧
    (pageRegs 8).isSome = true ∧
    up.winPass host 0x8010 true = true := by decide +kernel

theorem test_premises_HostLockSetsAndClears :
    (pageRegs 8).isSome = true ∧
    up.gated 8 = false ∧
    up.winPass host 0x8020 true = true ∧
    (up.wn 0x8020 1).hlock 8 = true := by decide +kernel

theorem test_premises_ServoPeriodRunsItsPhases :
    up.up_ = true ∧
    up.tickBegin.opTick.live = true ∧
    ({ up with sys := { up.sys with run := .park } } : State).tickBegin.opTick.live = false := by decide +kernel

theorem test_premises_ElectrumCycleRunsItsFunctions :
    up.up_ = true ∧
    State.reset.up_ = false := by decide +kernel

theorem test_premises_TimedChecksTrip :
    up.up_ = true ∧
    800 ≤ (alook (withEl up (fun e => { e with pairBad := [(0, 800)] })).el.pairBad 0).getD 0 ∧
    served.el.causes = [] ∧
    served.authority = true ∧
    checks.up_ = true ∧
    18 ∉ checks.el.causes ∧ 13 ∉ checks.el.causes ∧ 8 ∉ checks.el.causes ∧
    checks.authority = true ∧
    800 ≤ (alook checks.el.pairBad 0).getD 0 := by decide +kernel

theorem test_premises_TimedChecksTrip_2 :
    (13, 8) ∈ checks.el.disagree ∧
    checks.mirrorOk 2 = false ∧ nth checks.el.chgAt 2 0 + 400 ≤ checks.el.cyc ∧
    checks.mirrorOk 4 = false ∧ nth checks.el.chgAt 4 0 + checks.rn safeBrkTMs * 4 ≤ checks.el.cyc ∧
    checks.rf_ safeCfg 3 2 ≠ 0 ∧
    checks.stoFbOk = false ∧
    checks.el.stoChgAt + checks.rn safeStoFbMs * 4 ≤ checks.el.cyc ∧
    checks.el.a.plaus[0]? = some 2000 ∧ checks.el.a.plaus[3]? = some 2000 := by decide +kernel

theorem test_premises_MissedDeadlineTrips :
    served.live = true ∧
    15 ∉ served.el.causes ∧
    served.authority = true ∧
    15 ∈ (withEl served (fun e => { e with causes := [15], st := .tripped })).el.causes ∧
    served.el.bypOn = false := by decide +kernel

theorem test_premises_ElectrumStartEnds :
    up.el.st = .start ∧
    19 ∉ up.el.causes ∧
    19 ∈ (withEl up (fun e => { e with causes := [19] })).el.causes ∧
    served.el.st ≠ .start := by decide +kernel

theorem test_premises_ResetsClearTheirCauses :
    quiet.commonOk = true ∧
    ok (withEl quiet (fun e => { e with causes := [9], st := .tripped })) safeCmd 1 ∧
    (withEl quiet (fun e => { e with causes := [0], st := .tripped, commonN := 2000, cyc := 4000 })).autoClear ≠ [] ∧
    (withEl quiet (fun e => { e with causes := [9], st := .tripped })).coveredCauses keyCovers ≠ [] ∧
    4000 ≤ (withEl quiet (fun e => { e with pitRst := 4000, pitLatch := true })).el.pitRst ∧ (withEl quiet (fun e => { e with pitRst := 4000, pitLatch := true })).el.pitLatch = true ∧
    4000 ≤ (pit []).el.pitRst ∧
    (pit []).commonOk = true ∧
    11 ∉ (pit []).el.present ∧
    11 ∈ (pit [11]).el.present ∧
    up.el.pitRst < 4000 ∧
    up.autoClear = [] := by decide +kernel

theorem test_premises_TestPulsesAreScored :
    up.el.out 0 = false ∧
    (pulsing 1).el.out 8 = true ∧
    17 ∉ up.el.causes ∧
    (pulsing 1).el.pulseDue 1 = true ∧
    17 ∉ (pulsing 1).el.causes ∧ (pulsing 1).authority = true ∧
    (pulsing 1).el.pulseDue 2 = false := by decide +kernel

theorem test_premises_ElectrumModesAndTimers :
    4000 ≤ (withEl up (fun e => { e with modeOff := 4000, mode := .ins })).el.modeOff ∧
    (withEl up (fun e => { e with modeOff := 4000, mode := .ins })).el.mode ≠ .normal ∧
    degLimit .sr ≤ degGet (withEl up (fun e => { e with degCyc := [(.sr, degLimit .sr)] })).el.degCyc .sr ∧
    up.el.expired.contains .sr = false ∧
    up.el.deg.contains .sr = false ∧
    2400000 ≤ degGet (withEl up (fun e => { e with degOk := [(.sr, 2400000)] })).el.degOk .sr ∧
    ok quiet (0x10000 + (0x100 : BitVec 12).toNat) (quiet.rd 0x10100) ∧
    (regAt 0x10100).isSome = true ∧
    14400000 ≤ (withEl up (fun e => { e with a := { e.a with absBad := 14400000 } })).el.a.absBad ∧
    up.el.b.absBad < 14400000 := by decide +kernel

theorem test_premises_RunToTheNearestLanding :
    served.live = true ∧
    served.landings = [0, 1, 2] ∧
    served.nearest 1000000 = some 0 ∧
    (withEl served (fun e => { e with expired := [.sr], quiet := 4000 })).el.expired ≠ [] ∧
    served.mot.phase = .idle ∧
    served.pos.band = 0 ∧
    served.rb schCtrl 0 = true ∧
    (served.wn motCtrl 0).hostRuns = false ∧
    served.doorsClosed = true ∧
    served.posValid = true ∧
    served.drvIf ≠ 0 ∧
    served.authority = true ∧
    served.outsideZone 0 1000000 = true ∧ served.outsideZone 1 1000000 = true ∧ served.outsideZone 2 1000000 = true := by decide +kernel

theorem test_premises_RunToTheNearestLanding_2 :
    lostRef.live = true ∧
    lostRef.nearest lostRef.estPos = some 0 ∧
    lostRef.el.expired ≠ [] ∧
    lostRef.mot.phase = .idle ∧
    lostRef.el.still = true ∧
    lostRef.pos.band = 0 ∧
    lostRef.rb schCtrl 0 = true ∧
    lostRef.hostRuns = false ∧
    lostRef.landings.all (fun m => lostRef.outsideZone m lostRef.estPos) = true ∧
    lostRef.doorsClosed = true ∧
    lostRef.posValid = true ∧
    lostRef.drvIf ≠ 0 ∧
    lostRef.authority = true := by decide +kernel

theorem test_premises_LrpRequestsExecute :
    (up.wn hostCfg 3).rb hostCfg 1 = true ∧
    lrpValid nop = true ∧
    nop.length = lrpLength nop ∧
    lrpSound nop = true ∧
    lrpOp nop = 5 ∧
    lrpCharge nop ≤ up.host.budget ∧
    lrpSound rd1 = true ∧
    rd1.length = lrpLength rd1 ∧
    lrpOp rd1 = 1 ∧
    lrpOp wr1 = 2 := by decide +kernel

theorem test_premises_LrpRequestsExecute_2 :
    lrpSound wr1 = true ∧
    wr1.length = lrpLength wr1 ∧
    (up.wn hostCfg 3).viaSrc .spi ≠ none ∧
    up.lastOf .spi = none ∧
    (up.wn hostCfg 0).rb hostCfg 1 = false ∧
    lrpOp ((fun b => b ++ crc16Bytes b) [4, 1, 0, 0, 0, 0]) = 4 ∧
    inSess.viaSrc (.session 0) ≠ none ∧
    (nop, ([] : List Byte)) ∈ ({ up with host := { up.host with spiLast := some (nop, []) } } : State).lastOf .spi ∧
    ({ up with host := { up.host with budget := 0 } } : State).host.budget < lrpCharge nop := by decide +kernel

theorem test_premises_LrpFaultsExecuteNothing :
    lrpValid [9, 0, 0, 0, 0, 0] = false ∧
    lrpOp badNop = 5 ∧
    badNop.length = lrpLength badNop ∧
    lrpSound badNop = false ∧
    (up.wn hostCfg 3).rb hostCfg 0 = true := by decide +kernel

theorem test_premises_EnvelopesAreAuthenticated :
    up.sessOf 0 1 = none ∧
    (inSess.sessOf 0 1).isSome = true ∧
    26 ≤ (List.replicate 26 (0 : Byte)).length := by decide +kernel

theorem test_premises_SessionsEnd :
    (inSess.sess 0).isSome = true ∧
    ((inSess.sess 0).map (fun x => x.isOpen)) = some true ∧
    ok inSess hostCmd 2 ∧
    ok inSess hostCmd 4 ∧
    inSess.lc ≠ .field ∧
    ({ inSess with key := { inSess.key with lcOtp := .field } } : State).lc = .field ∧
    ((inSess.sess 0).map (fun x => x.lastAt + msTicks (inSess.rn hostSessToMs))).all (fun t => decide (t ≤ ({ inSess with tick := 100000000 } : State).tick)) = true := by decide +kernel

theorem test_premises_EthernetPortsTakeFrames :
    (up.wn (ethCfg 0x18) 0).rb (ethCfg 0x18) 0 = false ∧
    up.rb (ethCfg 0x18) 0 = true ∧
    up.gated 0x18 = false ∧
    up.gated 0x1A = false ∧
    up.clk.fallback = false ∧
    up.host.netOut = false ∧
    4 ≤ up.host.budget := by decide +kernel

theorem test_premises_HostCountersAndBudgets :
    ok up hostCmd 1 ∧
    ok up (ethCmd 0x18) 1 ∧
    ok up (ethCmd 0x1A) 2 ∧
    ok up xbarCmd 1 ∧
    ok up xbarCmd 2 := by decide +kernel

theorem test_premises_ReaderAnswersAreJudged :
    reader.live = true ∧
    reader.posRun = true ∧
    reader.pos.sr.st ≠ .absent ∧
    answer.length = 8 ∧
    slice answer 6 2 = crc16Bytes (slice answer 0 6) ∧
    byteAt answer 0 = 0 ∧
    reader.pos.sr.reqOut = true ∧
    byteAt answer 5 = reader.pos.sr.reqSeq ∧
    30000 < (reader.pos.sr.reqAt - reader.baseTick + 4) * 62500 := by decide +kernel

theorem test_premises_SourcesAreLostAndReturn :
    late.pos.sr.lastAt + 2000000 ≤ late.ns ∧
    late.pos.sr.st = .valid ∧
    late.probationPassed .enc1 = false ∧
    (late.dz .a).st = .absent ∧
    (readerIn .probation).pos.sr.lastAt + 2000000 ≤ (readerIn .probation).ns ∧
    (readerIn .probation).pos.sr.st = .probation ∧
    back1.probationPassed .enc1 = true ∧
    (readerIn .probation).probationPassed .sr = true ∧
    ((zoneIn .valid).dz .a).st = .valid ∧
    ((zoneIn .probation).dz .a).st = .probation ∧
    ((zoneIn .lost).dz .a).st = .lost ∧ ((zoneIn .lost).dz .a).lostByWiring = true := by decide +kernel

theorem test_premises_ZoneEdgesAndDisagreements :
    car.mot.phase ≠ .special ∧
    car.posRun = true ∧
    car.pos.abs = true ∧
    (zoned.dz .a).st ≠ .absent ∧
    160 ≤ ({ car with pos := { car.pos with diffTicks := 160 } } : State).pos.diffTicks ∧
    car.pos.encDisagree = false ∧
    car.pos.traction = false ∧
    car.pos.tractStep = false ∧
    car.pos.sr.st ≠ .valid ∧
    16000 ≤ ({ car with pos := { car.pos with agreeTicks := 16000 } } : State).pos.agreeTicks ∧
    ({ car with pos := { car.pos with tractStep := true } } : State).pos.tractStep = true ∧
    up.live = true ∧ up.pos.band = 0 ∧ up.pos.abs = false := by decide +kernel

theorem test_premises_PositionCommands :
    ok acc posCmd 1 ∧
    ok acc posCmd 2 ∧
    ok acc posCmd 4 ∧
    ok acc posCmd 8 ∧
    acc.pos.sr.conflict = false ∧
    ok quiet posCtrl (Word.setBits (quiet.rd posCtrl) 0 1 0) ∧
    (quiet.wn posCtrl 1).posRun = true ∧
    ok (quiet.wn posCtrl 1) posCtrl (Word.setBits ((quiet.wn posCtrl 1).rd posCtrl) 0 1 0) ∧
    ok conflict posCmd 2 ∧
    conflict.pos.sr.conflict = true ∧
    ({ acc with pos := { acc.pos with cal := some (16000, 5) } } : State).pos.cal = some (16000, 5) ∧
    car.sys.profValid = true ∧
    ({ car with tick := 9600000 } : State).since car.sys.kbAt 9600000 = true ∧
    car.since car.sys.kbAt 9600000 = false := by decide +kernel

theorem test_premises_LoadWeighingCommands :
    (up.wn lwbCtrl 0).rb lwbCtrl 0 = false ∧
    up.rb lwbCtrl 0 = true ∧
    ok up lwbCmd 1 ∧
    ok ((up.wn lwbRatedKg 1000).wn lwbCalKg 1000) lwbCmd 2 ∧
    up.lwb.valid = false ∧
    (weigh true 50 0 none).lwb.valid = true ∧
    (weigh false 0 100 none).lwb.uncal = false ∧
    up.rb lwbCtrl 0 = true ∧
    ((10 : Int)).tdiv 2000 ≤ up.ri lwbZero ∧
    (weigh false 0 0 (some (true, 2000, 2000000))).ri lwbZero < (2000000 : Int).tdiv 2000 ∧
    (weigh false 0 0 (some (false, 2000, 5))).lwb.cal = some (false, 2000, 5) := by decide +kernel

theorem test_premises_RunCommandsStartAndCommit :
    ok away motCmd 1 ∧
    ok prep motTarget 1 ∧
    ok away motHorizon 1 ∧
    (regAt motHorizon).isSome = true ∧
    ok away motCmd 2 ∧
    away.mot.phase = .idle ∧
    ok (away.wn motTrunD 1000000) motCmd 8 ∧
    ok held motCmd 4 ∧
    held.mot.committed = true ∧
    held.ri motLevelAcc < ((held.estPos - held.mot.targetPos).natAbs : Int) ∧
    prep.mot.phase = .speed := by decide +kernel

theorem test_premises_RunCommandsStartAndCommit_2 :
    prep.applyLevel = some 6000000 ∧
    (prep.applyPlan prep.stagedLims 6000000).isSome = true ∧
    prep.targetOpen = true ∧
    held.targetOpen = false ∧
    ok held motTarget (held.rd motTarget) ∧
    ok (heldAt true) motCmd 4 ∧
    (heldAt true).inZone 0 = true ∧ (((heldAt true).estPos - (heldAt true).mot.targetPos).natAbs : Int) ≤ (heldAt true).ri motLevelAcc ∧
    ok ((heldAt false).wn motHorizon 0) motCmd 4 ∧
    ((heldAt false).wn motHorizon 0).horizon = 0 ∧
    ok (withMot held (fun m => { m with committed := false, keptHorizon := true })) motCmd 4 ∧
    (withMot held (fun m => { m with committed := false })).inZone 2 = false := by decide +kernel

theorem test_premises_RunsHoldAndEnd :
    (regAt motCtrl).isSome = true ∧
    ok prep motCtrl (Word.setBits (prep.rd motCtrl) 1 1 1) ∧
    (prep.storeReg motCtrl ((regAt motCtrl).get (by decide +kernel)) (Word.setBits (prep.rd motCtrl) 1 1 1)).rb motCtrl 1 = true ∧
    prep.mot.phase = .speed ∧
    car.mot.follow = false ∧
    away.mot.phase = .idle ∧
    (withMot away (fun m => { m with cap := 0 })).mot.cap ≠ away.el.vlim ∧
    (phaseIs .speed).mot.phase = .speed ∧ (phaseIs .prep).mot.phase = .prep ∧
    16 ≤ (withMot (phaseIs .speed) (fun m => { m with followN := 16 })).mot.followN ∧
    ended.mot.landsAt = true ∧
    ended.mot.runType = .none ∧ ended.mot.holdRun = false ∧
    ((ended.mot.plan.map (fun p => p.done ended.tick)) = some true) ∧
    (withMot (phaseIs .stopping) (fun m => { m with cap := 0 })).mot.cap ≠ away.el.vlim ∧
    (withMot homing (fun m => { m with moved := true })).mot.moved = true := by decide +kernel

theorem test_premises_SpecialRunsStart :
    ok car motRtCmd 1 ∧
    ok special motRtCmd 2 ∧
    special.recoverTarget = some 0 ∧
    ok relevel motRtCmd 4 ∧
    ok held motRtCmd 8 ∧
    car.autoCond = true ∧
    16000 ≤ (withMot car (fun m => { m with autoTicks := 16000 })).mot.autoTicks ∧
    car.sys.pinDefer = none ∧
    (car.wn motRtCfg 1).rb motRtCfg 0 = true ∧
    (car.wn motRtCfg 2).rb motRtCfg 1 = true ∧
    car.relevDue = false := by decide +kernel

theorem test_premises_SpecialRunsStart_2 :
    relevel.relevDue = true ∧
    relevel.relevMay = true ∧
    relevel.relevZone = true ∧
    (withMot relevel (fun m => { m with landing := 1, landValid := true })).relevMay = false ∧
    (withMot relevel (fun m => { m with landing := 1, landValid := true })).relevDue = true ∧
    special.ri motLevelAcc < ((special.estPos - special.level 0).natAbs : Int) ∧
    up.recoverTarget = none ∧
    special.ri motLevelAcc < ((special.estPos - special.level 0).natAbs : Int) ∧
    ((car.estPos - car.level 0).natAbs : Int) ≤ car.ri motLevelAcc ∧
    ({ car with pos := { car.pos with abs := false } } : State).autoCond = true ∧
    (withMot (relevel) (fun m => { m with relevGo := true })).relevMay = true ∧ relevel.mot.phase = .idle := by decide +kernel

theorem test_premises_CorrectionRunsFail :
    homing.mot.phase = .special ∧
    homing.mot.hstep = .search ∧
    (homing.wn motHomeCh 0x60000).limInput = true ∧
    homing.ri motHomeMaxdist * 65536 ≤ homing.mot.homeTravel ∧
    homing.mot.moved = false ∧
    homing.mot.runType = .correction ∧
    homing.refInput = false ∧
    homing.mot.refWas ≠ false ∧
    (withMot homing (fun m => { m with moved := true, refWas := true })).mot.moved = true ∧
    homing.live = true := by decide +kernel

theorem test_premises_DriveSequenceSteps :
    magnet.drv.step = .magnetise ∧
    magnet.since 0 (msTicks (magnet.rn drvReadyToMs)) = true ∧
    (drvAt .preload).since (drvAt .preload).drv.stepAt (msTicks ((drvAt .preload).rn drvPreloadMs)) = true ∧
    (drvAt .lift).since 0 (msTicks ((drvAt .lift).rn drvBrkLiftMs)) = true ∧
    lifted.el.brakeLifted = true ∧
    quiet.el.brakeApplied = true ∧
    (drvAt .drop).since 0 (msTicks ((drvAt .drop).rn drvBrkDropMs)) = true ∧
    ({ quiet with drv := { quiet.drv with step := .drop }, tick := 160000 } : State).since 0 (msTicks (quiet.rn drvBrkDropMs)) = true := by decide +kernel

theorem test_premises_DriveAnswersAndCommands :
    car.drvIf = 1 ∧
    slice (List.replicate 11 (1 : Byte)) 9 2 ≠ crc16Bytes (slice (List.replicate 11 (1 : Byte)) 0 9) ∧
    car.drv.sync = 0 ∧
    car.drv.sdoSent = false ∧
    ok car drvCmd 1 ∧
    ok car drvCmd 2 ∧
    linked.drvIf = 1 ∧ linked.drv.checked = false ∧
    drvAnswer.length = 11 ∧ slice drvAnswer 9 2 = crc16Bytes (slice drvAnswer 0 9) ∧ byteAt drvAnswer 0 = linked.drv.seq ∧
    cia.drvIf = 2 ∧ cia.drv.sync ≠ 0 ∧
    cia.drv.syncUs < 1500 ∧ 1500 ≤ cia.drv.syncUs + 1000 ∧
    cia.drv.sdoSent = true ∧
    car.drv.sdoSent = false := by decide +kernel

theorem test_premises_MotionWatchdogTrips :
    wdog.watchdogDue = true ∧
    15 ∉ wdog.el.causes ∧
    wdog.authority = true ∧
    car.watchdogDue = false ∧
    wdog.drvCheck.watchdogDue = true ∧
    linked.drvCheck.watchdogDue = false ∧
    linked.drv.checked = false ∧
    ({ wdog with drv := { wdog.drv with iface := 3, rdyMiss := 4 } } : State).watchdogDue = true := by decide +kernel

theorem test_premises_CallsAndDestinations :
    callArea (0x140080 : Addr).toNat = .set 0 0 ∧
    ok served 0x140080 2 ∧
    callArea (0x140100 : Addr).toNat = .clr 0 0 ∧
    ok served 0x140100 2 ∧
    ok car 0x150000 0 ∧
    0x150000 ≤ (0x150000 : Addr).toNat ∧
    ok dest schDestAdd (pack [(0, 8, 0), (8, 8, 1)]) ∧
    dest.freeDest = some 0 ∧
    ok destHeld schDestAdd (pack [(0, 8, 0), (8, 8, 1)]) := by decide +kernel

theorem test_premises_CallsAndDestinations_2 :
    (destHeld.sch.dests.find? (fun d => d.2.src == 0 && d.2.dst == 1 && d.2.seq == 0)).isSome = true ∧
    ok destHeld schDestDel 0 ∧
    (alook destHeld.sch.dests 0).isSome = true ∧
    ok served schCmd 2 ∧
    dest.sch.dests = [] ∧
    ok car 0x150008 0x47 ∧
    ok awarded schDestDel 0 ∧
    (alook awarded.sch.dests 0).map (fun d => d.state) = some .waiting ∧
    callArea 0x141000 ≠ .set 0 0 := by decide +kernel

theorem test_premises_SchedulerControl :
    ok car schMode 0 ∧
    car.mode = modeOf 0 ∧
    ok car schMode 1 ∧
    car.mode ≠ modeOf 1 ∧
    car.mode ≠ .recall ∧
    ok cabled schCtrl (Word.setBits (cabled.rd schCtrl) 0 1 1) ∧
    ((cabled.wf_ schCtrl 1 1 0).oosHostNow false).ltCheck = none ∧
    ((up.wf_ schCtrl 1 1 0).oosHostNow false).ltCheck ≠ none ∧
    served.rb schCtrl 0 = true := by decide +kernel

theorem test_premises_SchedulerControl_2 :
    ok parked schCtrl (Word.setBits (parked.rd schCtrl) 0 1 0) ∧
    car.rb schCtrl 0 = false ∧
    ok car schCtrl (Word.setBits (car.rd schCtrl) 1 1 1) ∧
    ok quiet schCmd 1 ∧
    ok recalled schMode 0 ∧
    recalled.mode = .recall ∧
    (((recalled.wr schMode 0).raise pgSch 5).modeEntry .collective).sch.recallDone = true ∧
    ok car schCtrl (Word.setBits (car.rd schCtrl) 1 1 0) := by decide +kernel

theorem test_premises_SchedulerRuns :
    served.live = true ∧
    served.schDue = false ∧
    calling.schDue = true ∧
    calling.mot.phase = .idle ∧
    calling.runDir = some true ∧
    calling.terminal true = some 2 ∧
    (calling.wn motHorizon 2).horizonOk = true ∧
    calling.drvIf ≠ 0 ∧
    (withMot calling (fun m => { m with phase := .held, committed := true })).schDue = true ∧
    calling.rb motCtrl 1 = false ∧
    dwell.sch.ans.isSome = true ∧
    dwell.since 0 (msTicks 100) = true ∧
    ok dwell schCmd 4 := by decide +kernel

theorem test_premises_SchedulerRuns_2 :
    dwell.mode ≠ .independent ∧
    (served.wn schMode 3).mode = .independent ∧
    dwell.since 0 (msTicks (dwell.rn schBtnStuckMs)) = true ∧
    resumable.schDue = true ∧
    resumable.mot.phase = .held ∧
    resumable.rb motCtrl 1 = false ∧
    resumable.mot.keeps = true ∧
    resumable.drvIf ≠ 0 ∧
    ok answering schCmd 4 ∧
    (answering.sch.ans.map (fun a => a.opening)) = some [.a] ∧
    ok served schCmd 4 ∧
    (alook stuck.sch.btnOn 1) = some 0 ∧
    stuck.since 0 (msTicks (stuck.rn schBtnStuckMs)) = true := by decide +kernel

theorem test_premises_GroupFramesAreHeard :
    isPress notFrame = false ∧
    isRitha 1 notFrame = false ∧
    isRitha 2 notFrame = false ∧
    isRitha 3 notFrame = false ∧
    isPress press = true ∧
    keyType (idKey press.id.toNat) ≠ 2 ∧
    grp.canRuns 1 = true ∧
    grp.canRuns 2 = true ∧
    (grp.canReceive 1 press).bid.member = .member ∧
    (grp.canReceive 1 press).gcall (idKey press.id.toNat) 0 = none ∧
    isRitha 1 ann = true ∧
    grp.bid.member ≠ .off ∧
    isRitha 2 bidF = true ∧
    isRitha 3 relF = true := by decide +kernel

theorem test_premises_GroupFramesAreHeard_2 :
    (memberIs .island).canRuns 1 = true ∧
    ((memberIs .island).canReceive 1 press).bid.member = .island ∧
    isRitha 1 annG = true ∧
    (grp.canReceive 2 annG).rithaBad 1 annG = false ∧
    (grp.canReceive 2 bidF).rithaBad 2 bidF = true ∧
    isRitha 2 bidG = true ∧
    (rounded.canReceive 2 bidG).rithaBad 2 bidG = false ∧
    ((rounded.canReceive 2 bidG).bid.round.map (fun r => (r.key, r.tag))) = some (leNat (slice bidG.data 0 2), idTag bidG.id.toNat) ∧
    (grp.canReceive 2 bidG).bid.round = none ∧ (grp.canReceive 2 bidG).bid.award = none ∧
    isRitha 3 (relG 0) = true ∧
    (called.canReceive 2 (relG 0)).rithaBad 3 (relG 0) = false ∧
    (called.canReceive 2 (relG 4)).rithaBad 3 (relG 4) = false ∧
    ((called.canReceive 2 (relG 0)).gcall (callKey 1 0) 0).map (fun c => (c.holder, c.tag)) = some (some 3, 0) ∧
    idKey (relG 0).id.toNat = callKey 1 0 := by decide +kernel

theorem test_premises_GroupTimersAndCommands :
    grp.bid.round = none ∧
    (rounded.bid.round).isSome = true ∧
    rounded.us = 0 ∧
    (grp.gcall 5 0) = none ∧
    (called.gcall (callKey 1 0) 0).isSome = true ∧
    called.bid.member = .member ∧
    called.bidQueued false (callKey 1 0) 0 = false ∧
    ({ called with tick := 160000000 } : State).since 0 (msTicks (called.rn bidRebidMs)) = true ∧
    served.bid.run = false ∧
    served.sys.profValid = true ∧
    (grp.wn bidCfg 0).rb bidCfg 6 = false ∧
    ok grp bidCmd 2 ∧
    ok grp bidCmd 1 := by decide +kernel

theorem test_premises_GroupTimersAndCommands_2 :
    ok ({ grp with bid := { grp.bid with member := .island } } : State) bidCmd 4 ∧
    ok grp bidQuery 0 ∧
    (grp.cann 2).st = .errorActive ∧
    (rounded.bid.round.map (fun r => decide (r.openUs + 5000 < ({ rounded with tick := 160 } : State).us + 63))) = some true ∧
    (knows (some up.car)).isReleasing (callKey 1 0) 0 = false ∧
    (knows none).since 0 (msTicks ((knows none).rn bidRepeatMs)) = true ∧
    (knows none).since 0 ((knows none).rn bidOrphanN * msTicks ((knows none).rn bidRebidMs)) = true ∧
    (memberIs .listen).authority = true ∧
    (memberIs .listen).bid.member = .listen ∧
    (memberIs .listen).since 0 (msTicks ((memberIs .listen).rn bidListenMs)) = true ∧
    (memberIs .listen).since 0 ((memberIs .listen).rn bidOrphanN * msTicks ((memberIs .listen).rn bidRebidMs)) = true ∧
    (memberIs .island).since (memberIs .island).bid.okAt 16000 = true ∧
    ((memberIs .island).cann 2).alone = false := by decide +kernel

theorem test_premises_DoorRequests :
    ok cabled (doorCmd (doorPage .a)) 1 ∧
    cabled.doorF.uv = false ∧
    cabled.doorF.ov = false ∧
    cabled.doorF.st = .closed ∧
    ok closing (doorCmd (doorPage .a)) 1 ∧
    closing.doorF.st = .closing ∧
    ok opened (doorCmd (doorPage .a)) 2 ∧
    opened.doorF.st = .opened ∧
    opened.lcOk .a = true ∧
    ((opened.wf_ (doorCfg (doorPage .a)) 5 1 1)).lcOk .a = false ∧
    ok closing (doorCmd (doorPage .a)) 4 ∧
    ok (withMot cabled (fun m => { m with committed := true })) (doorCmd (doorPage .a)) 8 := by decide +kernel

theorem test_premises_DoorRequests_2 :
    ok cabled (doorCmd (doorPage .a)) 16 ∧
    ok cabled (doorCmd (doorPage .a)) 32 ∧
    ok (withDoor cabled (fun d => { d with st := .fault })) (doorCmd (doorPage .a)) 64 ∧
    cabled.overHalfStep .a (cabled.doorF.count - cabled.doorF.refCount).natAbs = false ∧
    (withDoor cabled (fun d => { d with st := .fault, count := 100000000 })).overHalfStep .a 100000000 = true ∧
    ({ cabled with doorF := { cabled.doorF with uv := true } } : State).judge host (doorCmd (doorPage .a)) 1 = none ∧
    ok cabled (doorCmd (doorPage .a)) 2 ∧
    opened.outputsMay = true ∧
    ok (withDoor cabled (fun d => { d with st := .geared })) (doorCmd (doorPage .a)) 4 ∧
    ok (withPart cabled (fun p => { p with latch := false })) (doorCmd (doorPage .a)) 16 ∧
    (withPart cabled (fun p => { p with latch := false })).outputsMay = false ∧
    (withDoor cabled (fun d => { d with st := .fault, fault := 1 })).doorF.fltNow ≠ 1 := by decide +kernel

theorem test_premises_DoorMotionEnds :
    cabled.live = true ∧
    cabled.doorEn .a = true ∧
    cabled.doorHeld .a = false ∧
    cabled.pos.band = 0 ∧
    (withDoor closing (fun d => { d with creep := true, cl := true })).doorF.creep = true ∧
    (withDoor cabled (fun d => { d with st := .homing, cl := true, fHold := 400 })).doorF.fHold = 400 ∧
    retry.since retry.doorF.stopAt 16000 = true ∧
    retry.permit .a = true ∧
    retry.doorHeld .a = false ∧
    retry.doorF.obsWait = true ∧
    (withDoor retry (fun d => { d with st := .closed, obsWait := false, lockAt := some 0 })).permit .a = true ∧
    retry.locked .a = false ∧
    retry.since 0 (msTicks (retry.dr .a doorLockToMs)) = true := by decide +kernel

theorem test_premises_DoorMotionEnds_2 :
    cabled.doorF.lockAt = none ∧
    (withDoor opened (fun d => { d with defer := true })).deferMay .a = true ∧
    (opened.wf_ (doorCfg (doorPage .a)) 6 1 1).rb (doorCfg (doorPage .a)) 6 = true ∧
    ({ opened with tick := 1600000 } : State).since 0 (msTicks (opened.dr .a doorNudgeMs)) = true ∧
    ((⟨0, true, 0, 0, [], .constJerk, some 0, some 0⟩ : Plan).done 5) = true ∧
    (withDoor cabled (fun d => { d with st := .unref })).doorHeld .a = false ∧
    (withDoor cabled (fun d => { d with st := .opening, creep := true, fHold := 160 })).doorF.olWired = false ∧
    ((withDoor cabled (fun d => { d with st := .opening, creep := true, fHold := 160 })).sch.ans.all (fun a => !a.endNow)) = true ∧
    (withDoor cabled (fun d => { d with st := .homing, homeTravel := 100000000000000 })).doorF.cl = false ∧
    ((cabled.dr .a doorWidthUm : Int) + 100000) * 65536 ≤ 100000000000000 ∧
    (withDoor opened (fun d => { d with defer := true })).lcOk .a = true ∧
    (withDoor opened (fun d => { d with defer := true })).doorF.posLost = false ∧
    ((withDoor cabled (fun d => { d with st := .reversing })).doorF.plan.all (fun p => p.done cabled.tick)) = true := by decide +kernel

theorem test_premises_DoorEvaluation :
    cabled.doorEn .b = true ∧
    (up.doorEn .a) = false ∧
    (cabled.doorSample .a still).doorHeld .a = false ∧
    ((closing.doorSample .a still).door .a).st = .closing ∧
    (((withDoor closing (fun d => { d with fCnt := 1 })).doorSample .a still).door .a).fCnt < 2 ∧
    (closing.doorSample .a still).lcBroken .a = false ∧
    closing.doorF.learn = none ∧
    closing.doorF.obstruct < 2 ∧
    closing.doorF.stepCnt < 4 ∧
    closing.doorF.st ≠ .fault := by decide +kernel

theorem test_premises_DoorEvaluation_2 :
    peakUsed closing.doorF.evals closing.doorF.peaks < 16000 ∧
    16000 ≤ peakUsed 0 [(0, 16000)] ∧
    2 ≤ (((pushed closing).doorSample .a (push (-100000))).door .a).fCnt ∧
    ((pushed closing).doorSample .a (push (-100000))).doorHeld .a = false ∧
    2 ≤ (((pushed (withDoor cabled (fun d => { d with st := .opening }))).doorSample .a (push 100000)).door .a).fCnt ∧
    2 ≤ (((pushed (withDoor cabled (fun d => { d with st := .geared }))).doorSample .a (push 100000)).door .a).fCnt ∧
    2 ≤ (((pushed (learning 1)).doorSample .a (push 100000)).door .a).fCnt ∧
    (withDoor closing (fun d => { d with stepCnt := 4 })).doorF.st ≠ .fault ∧
    closing.doorF.st ≠ .off ∧
    ((withPart closing (fun p => { p with latch := false })).doorSample .a still).doorHeld .a = true := by decide +kernel

theorem test_premises_DoorSupplyAndLearning :
    cabled.doorF.waitReq = none ∧
    cabled.doorF.moving = false ∧
    (withDoor cabled (fun d => { d with moving := true })).doorF.moving = true ∧
    cabled.overHalfStep .a 0 = false ∧
    (withDoor cabled (fun d => { d with st := .off })).doorEn .a = true ∧
    (cabled.wf_ (doorRetAngle 0xD) 17 1 1).rb (doorRetAngle (doorPage .a)) 17 = true ∧
    cabled.sys.aonPowered = true ∧
    cabled.rb (doorRetAngle (doorPage .a)) 17 = false ∧
    16 ≤ max supplyLow.doorF.lowN supplyLow.doorR.lowN := by decide +kernel

theorem test_premises_DoorSupplyAndLearning_2 :
    supplyLow.doorF.waitReq = none ∧
    400 ≤ (withDoor cabled (fun d => { d with moving := true, restN := 400 })).doorF.restN ∧
    cabled.doorSense .a cabled.doorF.count = cabled.doorF.count ∧
    stageOff.doorEn .a = true ∧ stageOff.doorHeld .a = false ∧ stageOff.doorF.st = .off ∧
    stageOff.rb (doorRetAngle (doorPage .a)) 17 = true ∧ stageOff.belowHalfStep .a (stageOff.doorSense .a 0 - stageOff.ri (doorRetCnt (doorPage .a))).natAbs = true ∧
    (learning 7).doorF.st = .learn ∧ (learning 7).live = true ∧
    Learn.mass ⟨7, 0, 0, 0, 0, 0, [(100, 50)], []⟩ ((learning 7).learnLims .a).am ≤ (learning 7).dr .a doorMassMax ∧
    ((learning 7).dr .a doorMassMax : Int) < Learn.mass ⟨7, 0, 0, 0, 0, 0, [(100000000, 0)], []⟩ ((learning 7).learnLims .a).am := by decide +kernel

theorem test_premises_LsfDataLength :
    (slotted.lsfEn 0) = true ∧
    slotted.lsfProd 0 = true ∧
    (slotted.lsfn 0).st = .run ∧
    (slotted.lsfn 0).deadline ≤ slotted.us ∧
    [1].length ≠ fdLen (10 + slotted.lsfLen 0) := by decide +kernel

theorem test_premises_LsfSlots :
    consumer.canRuns 0 = true ∧
    lsfF.ide = true ∧
    idClass lsfF.id.toNat = 5 ∧
    ((up.canReceive 0 lsfF).lsfSlotOf 0 lsfF) = none ∧
    ((consumer.canReceive 0 lsfF).lsfSlotOf 0 lsfF) = some 0 ∧
    consumer.lsfRuns 0 = true ∧
    Word.bit (consumer.lsfCfg 0) 4 = false ∧
    (consumer.lsfn 0).deadline < ({ consumer with tick := 1 } : State).us ∧
    consumer.us ≤ (consumer.lsfn 0).deadline ∧
    (consumer.lsfn 0).crcUs.length < consumer.rn lsfCrcMax ∧
    ok up lsfCmd 1 := by decide +kernel

theorem test_premises_LsfSlots_2 :
    ok up lsfRestart 0 ∧
    (consumer.el.st == .start) = false ∧
    consumer.lsfProd 0 = false ∧
    (slotted.txo (Word.bits (slotted.lsfCfg 0) 2 2) (slotted.lsfTxObj 0)).res ≠ .pending ∧
    (alook (lsfHeard.cann 0).rx (lsfHeard.lsfRxObj 0)).map (fun o => o.new) = some true ∧
    lsfHeard.lsfEn 0 = true ∧ lsfHeard.lsfProd 0 = false ∧
    lsfHeard.lsfSlotOf 0 lsfF = some 0 ∧
    lsfHeard.lsfJudge 0 lsfF = .other ∧
    (slotted.lsfEn 0 && slotted.lsfProd 0) = true ∧
    consumer.rn lsfCrcMax ≤ ((consumer.setLsf 0 { consumer.lsfn 0 with crcUs := List.replicate 255 0 }).lsfn 0).crcUs.length := by decide +kernel

theorem test_premises_CanControllers :
    up.canRuns 0 = false ∧
    grp.canRuns 0 = true ∧
    notFrame.ide = false ∧
    ok grp (canTxReq 0x14) 1 ∧
    ok grp (canTxAbort 0x14) 1 ∧
    (grp.txo 0 0).res ≠ .pending ∧
    grp.authority = true ∧
    (grp.cann 0).ackRun < 32 ∧
    ok grp (canCtrl 0x14) (Word.setBits (grp.rd (canCtrl 0x14)) 1 1 1) ∧
    Word.bit (Word.setBits (grp.rd (canCtrl 0x14)) 1 1 1) 1 = true ∧
    (grp.cann 0).st ≠ .off ∧ (grp.cann 0).st ≠ .sleep ∧
    ok asleep (canCtrl 0x14) (Word.setBits (asleep.rd (canCtrl 0x14)) 1 1 0) ∧
    (asleep.cann 0).st = .sleep ∧
    (grp.wf_ (canCfg 0x14) 4 1 1).rb (canCfg 0x14) 4 = true := by decide +kernel

theorem test_premises_CanControllers_2 :
    (grp.wf_ (canCfg 0x14) 4 1 0).rb (canCfg 0x14) 4 = false ∧
    grp.rb (canCfg 0x14) 3 = false ∧
    (grp.cann 0).integrating = false ∧
    ok grp (canCmd 0x14) 1 ∧
    grp.attemptMay 0 .success = true ∧
    (sending false).txOffered 0 0 100 = true ∧
    (sending true).txOffered 0 0 40 = true ∧
    (sending false).attemptMay 0 .success = true ∧
    256 ≤ (worn.cann 0).tec ∧ worn.canRuns 0 = true ∧
    32 ≤ (worn.cann 0).ackRun ∧ (worn.cann 0).alone = false ∧
    (up.cann 0).st = .off ∧
    (grp.setCan 0 { grp.cann 0 with st := .busOff }).up_ = true ∧
    grp.live = true := by decide +kernel

theorem test_premises_FieldInputsAreFiltered :
    (fielded.grp 1).supply.good = true ∧
    fielded.chField 1 0 0 2 = 1 ∧
    fielded.firstSetting 1 0 = true ∧
    ({ fielded with fiog := fielded.fiog.map (fun g => { g with set := true }) } : State).firstSetting 1 0 = false ∧
    fielded.chField 1 1 0 2 ≠ 1 ∧
    fielded.rb (fiogCosRise (grpPage 1)) 0 = false ∧
    (fielded.wr (fiogCosRise (grpPage 1)) 1).rb (fiogCosRise (grpPage 1)) 0 = true ∧
    (fielded.setGrp 1 { fielded.grp 1 with supply := .low }).up_ = true := by decide +kernel

theorem test_premises_FieldOutputsAndProtection :
    ok fielded (fiogOutSet (grpPage 1)) 2 ∧
    ok fielded (fiogOutClr (grpPage 1)) 2 ∧
    ok fielded (fiogTsdClr (grpPage 1)) 2 ∧
    chGroup 1 = 1 ∧
    fielded.chField 1 (1 % 32) 0 2 = 2 ∧
    fielded.chField 1 (0 % 32) 0 2 ≠ 2 ∧
    (fielded.grp 1).grpOc = false ∧
    ok fielded (fiogCmd (grpPage 1)) 1 ∧
    (fielded.grp 1).seen = false ∧
    ok fielded (fiogChCfg (grpPage 1) + 4 * (1 % 32)) 2 ∧
    (regAt (fiogChCfg (grpPage 1) + 4 * (1 % 32))).isSome = true := by decide +kernel

theorem test_premises_FieldOutputsAndProtection_2 :
    fielded.fiog.length = 8 ∧
    fielded.sil.deadline = none ∧
    ok fielded fioCmd 1 ∧
    (fielded.wn fioCfg 1).rb fioCfg 0 = true ∧
    fielded.diagSuspended 1 1 .openLoad = false ∧
    Word.bit (hot.grp 1).tsdHot 1 = true ∧
    hot.chField 1 1 0 2 = 2 ∧
    (hot.grp 1).diag .openLoad 1 = true ∧
    (hot.grp 1).seen = true ∧
    ({ fielded with sil := ⟨some 5, false⟩, tick := 1 } : State).us > 5 := by decide +kernel

theorem test_premises_AuthorityIsClaimedAndLost :
    up.part.band ≠ .present ∧
    up.part.stable = false ∧
    car.part.stable = true ∧
    car.sys.ordD = true ∧
    car.part.latch = true ∧
    car.part.role = .solo ∧
    up.bandGood .present = true ∧
    up.bandGood .short = false ∧
    claims.claimMay = true ∧
    claims.since 0 claims.claimTicks = true ∧
    (withPart car (fun p => { p with settle := some 0 })).part.settle = some 0 ∧
    up.part.settle = none := by decide +kernel

theorem test_premises_AuthorityIsClaimedAndLost_2 :
    up.part.validAt = none ∧
    (late16.since 0 16000) = true ∧
    (paired .solo true .absent).sys.ordD = true ∧
    bandOf 6000 ≠ (paired .solo true .absent).part.band ∧ bandOf 2000 = .absent ∧
    bandOf 6000 ≠ .absent ∧
    (ess (paired .solo true .absent)).sys.ordD = false ∧
    echoing.part.role = .isolated ∧
    echoing.bandGood .present = true ∧
    echoing.since 0 16000 = true ∧
    echoing.since echoing.part.echoAt 16000 = true ∧
    claims.part.claimAt = some 0 ∧
    (withPart car (fun p => { p with settle := some 0 })).part.latch = true := by decide +kernel

theorem test_premises_MirrorLinkAndExchange :
    up.part.linkUp = false ∧
    standby.part.linkUp = true ∧
    standby.authority = false ∧
    standby.part.role = .standby ∧
    standby.part.pendEpoch = none ∧
    standby.part.rejoin = true ∧
    (withPart up (fun p => { p with sync := .synced })).part.rxAt + 32 < ({ up with tick := 33 } : State).tick ∧
    up.part.sync ≠ .synced ∧
    standby.part.resyncing = false ∧
    up.xchMay = false ∧
    ok standby partCmd 2 := by decide +kernel

theorem test_premises_MirrorLinkAndExchange_2 :
    ok up partCmd 4 ∧
    exch.xchMay = true ∧
    exch.judge service partCmd 1 = none ∧
    exch.live = true ∧
    (exch.wn partCfg 1).rb partCfg 0 = true ∧
    epoch.crcOk = true ∧
    (withPart standby (fun p => { p with rejoin := true })).part.rejoin = true ∧
    (withPart standby (fun p => { p with pendEpoch := some epoch })).part.pendEpoch = some epoch ∧
    (withPart standby (fun p => { p with resyncing := true, segFinal := true, shadow := none })).part.segFinal = true ∧
    (withPart exch (fun p => { p with xchDueMs := 0 })).xchMay = true ∧
    ({ withPart exch (fun p => { p with xchHold := some 0 }) with tick := 8000 } : State).since 0 8000 = true := by decide +kernel

theorem test_premises_RecorderStagesAndKeeps :
    ok up recCmd 2 ∧
    ok (up.wn (recTrg + 4 * 8) 0x80000000) recCmd (pack [(2, 1, 1), (8, 6, 8)]) ∧
    up.rcd.stopped = false ∧
    up.rcd.unwritten.length < 63 ∧
    up.rcd.lostCnt = 0 ∧
    up.rcd.flushing = [] ∧
    ({ up with rcd := { up.rcd with flushReq := true, unwritten := [0] } } : State).flushDue = true ∧
    up.flushDue = false ∧
    ok up recCmd 1 ∧
    ok up recCmd 8 := by decide +kernel

theorem test_premises_RecorderStagesAndKeeps_2 :
    ok up recRdSeq 0 ∧
    up.rcd.optime < up.rcd.savedAt + 600000 ∧
    ({ up with tick := 480, sys := { up.sys with pfw := some 0 }, rcd := { up.rcd with finalAt := some 0 } } : State).finalDue = true ∧
    up.finalDue = false ∧
    63 ≤ full.rcd.unwritten.length ∧
    full.rcd.stopped = false ∧
    ok full recCmd 2 ∧
    lossy.rcd.lostCnt ≠ 0 ∧ lossy.rcd.unwritten.length < 64 ∧
    ({ up with rcd := { up.rcd with optime := 600000 } } : State).rcd.savedAt + 600000 ≤ 600000 := by decide +kernel

theorem test_premises_KeyCommandsRunAndEnd :
    ok up keyCmd 1 ∧
    ok up keyCmd 2 ∧
    ok up keyCmd 4 ∧
    ok up keyCmd 12 ∧
    ok up keyCmd 15 ∧
    up.key.job = none ∧
    (busy 12).key.job.isSome = true ∧
    (busy 12).keyReady ⟨12, host, 0, none, none⟩ = true ∧
    up.keyReady ⟨12, host, 0, none, none⟩ = false ∧
    (busy 2).slotKey 0 = none ∧
    (busy 1).keyReady ⟨1, host, 0, none, none⟩ = true ∧
    (busy 1).unwrap 0 ((busy 1).keyBuf 80) = none ∧
    blobOk (up.keyBuf 80) = false ∧
    (busy 9).keyReady ⟨9, host, 0, none, some 0xB⟩ = true := by decide +kernel

theorem test_premises_KeyEventsAndTamper :
    alook up.key.slots 0 = none ∧
    up.tick < up.key.remaskAt + msTicks (up.rn keyRemaskMs) ∧
    (rest.key.remaskAt + msTicks (rest.rn keyRemaskMs) ≤ ({ rest with tick := 100000000 } : State).tick) ∧
    up.key.rootOk = false ∧
    up.key.lowerBuild = none ∧
    up.key.service = none ∧
    up.key.lcOtp = .blank ∧
    2 &&& (up.wr tampCfg 0).tampEnabled = 0 ∧
    (2 &&& ({ up with key := { up.key with lcOtp := .field } } : State).tampEnabled) ≠ 0 := by decide +kernel

theorem test_premises_KeyEventsAndTamper_2 :
    ok up tampCmd 1 ∧
    (alook shadowed.key.slots 16).bind KeySlot.shadow = some ([], []) ∧
    shadowed.jobUses 16 = false ∧
    ({ up with key := { up.key with rootOk := true, lcOtp := .vendor } } : State).idxLost = false ∧
    (lcName ({ up with key := { up.key with rootOk := true, lcOtp := .vendor } } : State).lc).isSome = true ∧
    ({ up with key := { up.key with rootOk := true, lcOtp := .vendor } } : State).key.lowerBuild = none ∧ ({ up with key := { up.key with rootOk := true, lcOtp := .vendor } } : State).up_ = true ∧
    ({ up with key := { up.key with service := some 0 } } : State).key.service = some 0 ∧
    up.tamp.tampered = false ∧
    (inRun .deep).sys.run = .deep := by decide +kernel

theorem test_premises_ClocksStartMonitorAndGates :
    up.up_ = true ∧
    State.reset.sys.run = .attempt ∧
    (startOutcome goodStart) = (none, false) ∧
    (startOutcome { goodStart with ircCycles := 0 }).1 = some .ircQual ∧
    State.reset.clk.fallback = false ∧
    up.clk.ircFail = false ∧
    ok up clkGate (up.rd clkGate) ∧
    up.rd clkGate &&& ~~~(up.rd clkGate) = 0 ∧
    ok gateOff clkGate gateVal ∧
    gateOff.rd clkGate &&& ~~~gateVal ≠ 0 := by decide +kernel

theorem test_premises_ClocksStartMonitorAndGates_2 :
    up.clk.drain = none ∧
    up.clk.outPend = none ∧
    (startOutcome { goodStart with xoStopped := true, xoFailedAfterIrc := true, xoFailLpo := 40 }) = (none, true) ∧
    (startOutcome { goodStart with xoStopped := true }).1 = some .xoStop ∧
    (startOutcome { goodStart with xoAmpUs := none }).1 = some .xoNoAmp ∧
    (startOutcome { goodStart with xoIrcCycles := 0 }).1 = some .xoFreq ∧
    (startOutcome { goodStart with backupLockUs := none }).1 = some .pllLock ∧
    (inRun .clockHold).sys.run = .clockHold ∧
    slow.clk.fallback = true ∧ 9600000 ≤ slow.clk.fbTicks ∧
    ({ up with clk := { up.clk with drain := some (0, 0) } } : State).clk.drain = some (0, 0) := by decide +kernel

theorem test_premises_ResetsAndSupply :
    up.standstill = false ∧
    ok quiet sysCmd 0x53460001 ∧
    Word.bit (0x53460001 : Word) 0 = true ∧
    Word.bit (0x53460001 : Word) 1 = false ∧
    quiet.standstill = true ∧
    ({ up with tick := 800, sys := { up.sys with pfw := some 0 } } : State).since 0 800 = true ∧
    up.sys.holdup = false ∧
    up.sys.btnArmed = true ∧
    up.sys.pinDefer = none ∧
    ({ up with tick := 480000 } : State).since 0 480000 = true ∧
    up.sys.pfw = none := by decide +kernel

theorem test_premises_ResetsAndSupply_2 :
    up.part.role ≠ .standby ∧ up.part.role ≠ .isolated ∧
    (inRun .clkDead).sys.run = .clkDead ∧
    deferring.standstill = false ∧
    deferring.sys.pinDefer = some 0 ∧
    quiet.sys.btnArmed = true ∧
    ({ quiet with sys := { quiet.sys with btnArmed := false } } : State).sys.btnArmed = false ∧
    warned.since 0 800 = false ∧
    (inRun .unpowered).sys.aonPowered = true ∧
    (withPart up (fun p => { p with role := .standby })).part.role = .standby ∧
    resetSaves .wdog = false := by decide +kernel

theorem test_premises_ProfilesAndPowerStates :
    ok up sysProfData 7 ∧
    up.rn sysProfPtr < 5120 ∧
    ok up sysCmd (pack [(1, 1, 1), (2, 2, (1 : BitVec 2).toNat)]) ∧
    ok up sysProfileOvr 0 ∧
    rest.parkOk = true ∧
    ok rest pwrCmd 1 ∧
    ok rest pwrCmd 4 ∧
    ok up pwrCmd 2 ∧
    up.sys.store = none ∧
    (rest.wn pwrCfg 3).rb pwrCfg 1 = true := by decide +kernel

theorem test_premises_ProfilesAndPowerStates_2 :
    up.parkOk = false ∧
    ({ up with sys := { up.sys with run := .park } } : State).parkWakes .wakePin = true ∧
    up.deepWakes .tamper = true ∧
    rest.sys.run = .run ∧
    ({ up with sys := { up.sys with store := some (0, 1, ⟨0, false, 0, [], true⟩) } } : State).sys.store = some (0, 1, ⟨0, false, 0, [], true⟩) ∧
    rest.rn pwrParkIdleS * 16000 ≤ ({ rest with sys := { rest.sys with parkIdle := 1000000000 } } : State).sys.parkIdle ∧
    (inRun .deep).deepWakes .tamper = true ∧
    up.tamp.tampered = false ∧
    host.world.rank ≥ World.service.rank := by decide +kernel

/-! Values that the spec itself works out. -/

/-- R217: the check value of the safety CRC over "123456789". -/
theorem test_safety_crc : safetyCrc [0x31, 0x32, 0x33, 0x34, 0x35, 0x36, 0x37, 0x38, 0x39] = 0x1697D06A := by decide +kernel

/-- Table 18.4: after one attempt that XO_STOP ended, the boot-failure word is 0x0000_0021 and the module is in
CLOCK-HOLD. -/
theorem test_boot_word :
    (State.reset.startFailed .xoStop).clk.bootWord = 0x21 ∧ (State.reset.startFailed .xoStop).sys.run = .clockHold := by
  decide +kernel

/-- Table 18.3, R340: the failure of the eighth retry sets DEAD. -/
theorem test_boot_dead :
    (({ State.reset with clk := { State.reset.clk with retries := 8 } } : State).startFailed .pllLock).sys.run = .clkDead ∧
    Word.bit (({ State.reset with clk := { State.reset.clk with retries := 8 } } : State).startFailed .pllLock).clk.bootWord 8 = true := by
  decide +kernel

/-! One step of a few commands. -/

/-- The state that a step answers. -/
def after (o : Host.Outcome State Fault Refusal) : Option State :=
  match o with
  | .next t => some t
  | _ => none

/-- A step with a command in front. -/
def run (s : State) (c : Instr) : Option State := after (step { s with pending := [c] })

/-- R24: a refused write shows in ERR with its code; a write to ERR clears it. -/
theorem test_err_then_clear :
    ((run up (.hostRegisterWrite host 0x1000 ⟨7, false⟩)).map (fun t => (Word.bits (t.rd 0x1010) 0 8, Word.bits (t.rd 0x1010) 24 8))) = some (3, 1) ∧
    ((run up (.hostRegisterWrite host 0x1000 ⟨7, false⟩)).bind (fun t => (run t (.errClear host 1 0)).map (fun u => u.rd 0x1010))) = some 0 := by
  decide +kernel

/-- R71: START puts MOT in PREP and magnetises the drive. -/
theorem test_start : ((run away (.motStart host)).map (fun t => (t.mot.phase, t.drv.step, t.mot.up))) =
    some (.prep, .magnetise, true) := by decide +kernel

/-- R121: a SET word enters the car calls it names. -/
theorem test_call_set : ((run served (.callSet host 0x140080 6)).map (fun t => t.sch.cc)) = some [1, 2] := by decide +kernel

/-- R251: OUT_SET sets the named commands. -/
theorem test_out_set : ((run fielded (.fioOutSet host 1 2)).map (fun t => (t.grp 1).out)) = some 2 := by decide +kernel

/-- R192, R351: a watchdog reset of the running car leaves Electrum in START without authority. -/
theorem test_watchdog : ((run served .watchdogReset).map (fun t => (t.el.st, t.part.latch, t.sys.kind, t.sys.run))) =
    some (.start, false, .wdog, .attempt) := by decide +kernel

/-- R355: a release after 49 ms resets nothing; after 50 ms with the strap it resets. -/
theorem test_button : ((run up (.resetButtonRelease 49 true)).map (fun t => t.sys.kind)) = some .por ∧
    ((run up (.resetButtonRelease 50 true)).map (fun t => t.sys.kind)) = some .pin := by decide +kernel

/-- R360: a word goes to the staging buffer at PTR. -/
theorem test_prof_data :
    ((run up (.profDataWrite host 7)).map (fun t => (t.sys.staging, t.rd sysProfPtr))) = some ([(0, 7)], 1) := by decide +kernel

/-- R176, R162: a door opens from CLOSED. -/
theorem test_door_open : ((run cabled (.doorOpen host .a)).map (fun t => t.doorF.st)) = some .opening := by decide +kernel

/-- R243: a receive error adds its weight. -/
theorem test_can_error : ((run grp (.canError 0 4 false 8)).map (fun t => ((t.cann 0).recE, (t.cann 0).lec))) = some (8, 4) := by
  decide +kernel

/-- R341: two bad windows in a row enter fallback. -/
theorem test_fallback :
    ((run up (.invarWindow 1254)).map (fun t => t.clk.fallback)) = some false ∧
    ((run up (.invarWindow 1254)).bind (fun t => (run t (.invarWindow 1306)).map (fun u => (u.clk.fallback, u.clk.cause)))) =
      some (true, .freq) := by decide +kernel

/-- The table's rows give no bits. -/
theorem test_no_word_spells_a_command : decodeTableWord 32 0 = none ∧ (up.withFetchWord 32 0) = up := by decide +kernel

/-- A step that answers a next state. -/
theorem test_premises_EveryStepKeepsOneTimeMemory : step State.reset = .next State.reset := rfl

end Sys2Proof.Tests
end

/-! PROOF. How a module gains and loses authority (chapter 15): what the operations of pairing leave in the part `part` of
the state, the row of Table 15.3 that a filtered band picks, and O53 from both. -/

namespace Sys2Proof.Machine

/-! ### The part `part` through the operations of pairing -/

/-- Pairing stays the same where its part is not among those that may change. -/
theorem Only.part_eq {m : Parts} {s t : State} (h : Only m s t) (hm : m.part = false) : t.part = s.part :=
  h.part.resolve_left (by simp [hm])

@[simp] theorem State.setRole_part (s : State) (r : Role) : (s.setRole r).part = { s.part with role := r } := by
  unfold State.setRole
  split
  · next h => rw [← h]
  · simp

@[simp] theorem State.show_part (s : State) (p : Present) :
    (s.show p).part = { s.part with pres := p, window := none } := rfl

@[simp] theorem State.show_tick (s : State) (p : Present) : (s.show p).tick = s.tick := rfl

@[simp] theorem State.collided_part (s : State) : s.collided.part = s.part := by simp [State.collided]

@[simp] theorem State.standbyNow_part (s : State) : s.standbyNow.part = { s.part with
    pres := .present, window := none, role := .standby, resyncing := s.part.linkUp, rejoin := true } := by
  simp [State.standbyNow]

@[simp] theorem State.isolateNow_part (s : State) (echo : Bool) : (s.isolateNow echo).part = { s.part with
    pres := if echo then .echo else .present, window := none, role := .isolated, validAt := none
    readAt := if echo then none else some s.tick, echoAt := s.tick } := by
  simp [State.isolateNow]

/-- The role and the presentation of a module that becomes ISOLATED. -/
theorem State.isolateNow_shows (s : State) (echo : Bool) :
    (s.isolateNow echo).part.role = .isolated ∧ (s.isolateNow echo).part.pres = if echo then .echo else .present := by
  simp

/-- The latch and the settle time end with authority, and the loss is noted; the rest of pairing stays. -/
@[simp] theorem State.loseAuthority_part (s : State) : s.loseAuthority.part =
    { s.part with latch := false, settle := none, lostNow := s.part.lostNow || s.part.latch } := by
  unfold State.loseAuthority
  extract_lets p s1 s2 drv el e s3
  have doors : Only { rf := true, irqNow := true, doorF := true, doorR := true } s1 s2 :=
    each_only _ (fun _ c h => State.doorAuthLost_only rfl rfl rfl rfl h c) _ (Only.refl _ _)
  have frames : Only { rf := true, irqNow := true, can := true } s3 (each [0, 1, 2, 3] s3 fun t n => t.canAbortAll n) :=
    each_only _ (fun _ n h => State.canAbortAll_only rfl rfl rfl h n) _ (Only.refl _ _)
  exact (frames.part_eq rfl).trans (doors.part_eq rfl)

@[simp] theorem State.parkEnd_part (s : State) (w : WakeCause) : (s.parkEnd w).part = s.part :=
  (State.parkEnd_only (pt := { rf := true, irqNow := true, bid := true, can := true, sys := true })
    rfl rfl rfl rfl rfl (Only.refl _ _) w).part_eq rfl

@[simp] theorem State.warnNow_part (s : State) (mv : Nat) : (s.warnNow mv).part = s.part :=
  (State.warnNow_only
    (pt := { rf := true, irqNow := true, doorF := true, doorR := true, rcd := true, key := true, sys := true })
    rfl rfl rfl rfl rfl rfl rfl (Only.refl _ _) mv).part_eq rfl

@[simp] theorem State.takeUp_part (s : State) : s.takeUp.part = s.part :=
  (State.takeUp_only
    (pt := { rf := true, irqNow := true, mot := true, drv := true, sch := true, bid := true, doorF := true, doorR := true,
             el := true, can := true, fiog := true })
    rfl rfl rfl rfl rfl rfl rfl rfl rfl rfl rfl (Only.refl _ _)).part_eq rfl

/-! ### The latch clears -/

/-- No latch is set and no settle time runs, with PRESENT shown (R283, R287). -/
def Part.Cleared (p : Part) : Prop := p.latch = false ∧ p.settle = none ∧ p.pres = .present

/-- The hardware's clearing, whatever its trip does to pairing. -/
theorem State.hwLose_cleared (s : State) : s.hwLose.part.Cleared := by simp [State.hwLose, Part.Cleared]

/-- A latch of an LC-2560-S that fails, within its settle time or after it (R6, R287). -/
theorem State.latchFails_cleared (s : State) :
    (if s.part.settle.isSome then (s.loseAuthority.show .present).collided else s.hwLose).part.Cleared := by
  split
  · simp [Part.Cleared]
  · exact s.hwLose_cleared

/-- ISOLATED presenting `q`, with no latch and no settle time (R6, Table 15.3). -/
def Part.IsolatedClear (p : Part) (q : Present) : Prop :=
  (p.role = .isolated ∧ p.pres = q) ∧ p.latch = false ∧ p.settle = none

theorem State.isolateNow_cleared {s : State} (h : s.part.Cleared) (echo : Bool) :
    (s.isolateNow echo).part.IsolatedClear (if echo then .echo else .present) := by
  obtain ⟨latch, settle, -⟩ := h
  simp [Part.IsolatedClear, latch, settle]

/-- A set latch of an LC-2560-D that meets a wiring fault is ISOLATED in ECHO (R283, Table 15.3). -/
theorem State.bandClears_wiring (s : State) {b : Band} (hb : b.wiring = true) :
    (s.bandClears b).part.IsolatedClear .echo := by
  unfold State.bandClears
  extract_lets settling t u
  have lost : t.part.Cleared := by
    simp only [t]
    split
    · simp [Part.Cleared]
    · exact s.hwLose_cleared
  have counted : u.part = t.part := by
    simp only [u]
    split
    · exact State.collided_part _
    · rfl
  rw [if_pos hb]
  exact State.isolateNow_cleared (counted ▸ lost) true

/-- A set latch of an LC-2560-D that meets a claim: within its settle time the role stays, after it the module is STANDBY
(R283, R287). -/
theorem State.bandClears_claiming (s : State) {b : Band} (hb : b = .claiming) :
    (s.bandClears b).part.latch = false ∧ (s.bandClears b).part.settle = none ∧ (s.bandClears b).part.pres = .present ∧
      (s.bandClears b).part.role = if s.part.settle.isSome = true then s.part.role else .standby := by
  subst hb
  unfold State.bandClears
  cases hs : s.part.settle.isSome with
  | true => simp [Band.wiring]
  | false =>
    obtain ⟨latch, settle, -⟩ := s.hwLose_cleared
    simp [Band.wiring, latch, settle]

/-- What pairing, `p`, holds once an ISOLATED module in `s` has looked at a band (R6, R294, Table 15.3). -/
def State.LooksAt (s : State) (b : Band) (p : Part) : Prop :=
  p.role = s.part.role ∧ p.pres = (if b.wiring && s.part.readAt.isSome then .echo else s.part.pres) ∧
    p.readAt = (if b.wiring then none else some (s.part.readAt.getD s.tick)) ∧
    p.validAt = (if s.bandGood b then some (s.part.validAt.getD s.tick) else none)

theorem State.bandIsolated_looksAt (s : State) (b : Band) : s.LooksAt b (s.bandIsolated b).part := by
  unfold State.bandIsolated
  extract_lets p t
  have shown : t.part.role = p.role ∧ t.part.pres = if b.wiring && p.readAt.isSome then .echo else p.pres := by
    simp only [t]
    split <;> exact ⟨rfl, rfl⟩
  exact ⟨shown.1, shown.2, rfl, rfl⟩

/-! ### BAND_CHANGE: what the filter lets pass -/

/-- The filter has passed the band of a current (R282): the claim timer starts anew, BAND_CHG is raised. -/
def State.bandPassed (s : State) (ua : Nat) : State :=
  ({ s with part := { s.part with
      band := bandOf ua, loopUa := ua, bandAt := s.tick, claimAt := none
      doorsOk := if s.part.band = Band.claiming then s.part.mirror.doors.isSome && decide (s.tick ≤ s.part.goodAt + 80)
        else s.part.doorsOk } } : State).raise pgPart 2

/-- The row of Table 15.3 for a band, by the order code (R6). -/
def State.roleFollows (s : State) (b : Band) : State := if s.sys.ordD then s.bandD b else s.bandS b

/-- A current in the band it had, or for less than 3.0 ms, does not pass the filter. -/
theorem State.bandInto_unfiltered {s : State} {ua held : Nat} (hu : s.up_ = true)
    (h : s.part.band = bandOf ua ∨ held < 3000) :
    s.bandInto ua held = ({ s with part := { s.part with loopUa := ua } } : State).bandRaw ua := by
  unfold State.bandInto
  extract_lets p b
  rw [if_neg (by simp [hu]), if_pos h]

/-- A new band held for 3.0 ms passes the filter, and the role follows once the contact is stable. -/
theorem State.bandInto_filtered {s : State} {ua held : Nat} (hu : s.up_ = true) (hb : s.part.band ≠ bandOf ua)
    (hh : 3000 ≤ held) : s.bandInto ua held =
      (if s.part.stable then (s.bandPassed ua).roleFollows (bandOf ua) else s.bandPassed ua).parkEnd .safetyOrBand := by
  have row : (if !s.part.stable then s.bandPassed ua else (s.bandPassed ua).roleFollows (bandOf ua)) =
      if s.part.stable then (s.bandPassed ua).roleFollows (bandOf ua) else s.bandPassed ua := by
    cases s.part.stable <;> rfl
  unfold State.bandInto
  rw [← row]
  exact (if_neg (by simp [hu])).trans (if_neg (by rintro (h | h); exacts [hb h, by omega]))

/-- A current that an LC-2560-S may hold its latch under, or that no latch of an LC-2560-S meets, clears nothing. -/
theorem State.bandRaw_stays {s : State} {ua : Nat} (h : s.sys.ordD = true ∨ s.part.latch = false ∨ 1000 ≤ ua ∧ ua ≤ 3000) :
    s.bandRaw ua = s := by
  unfold State.bandRaw
  rw [if_pos (by simpa using h)]

/-- An LC-2560-S clears its own latch as soon as the current leaves ABSENT (R6); that the time of a band it takes starts
at this tick is the model's choice (log entry 225). -/
theorem State.bandRaw_clears {s : State} {ua : Nat} (hd : s.sys.ordD = false) (hl : s.part.latch = true)
    (h : ua < 1000 ∨ 3000 < ua) :
    (s.bandRaw ua).part.IsolatedClear .present ∧ (s.bandRaw ua).part.validAt = some s.tick := by
  unfold State.bandRaw
  rw [if_neg (by simp [hd, hl]; omega)]
  exact ⟨State.isolateNow_cleared s.latchFails_cleared false, rfl⟩

/-! ### The rows of Table 15.3 with the latch set -/

section latched
variable {s : State} {b : Band} (hl : s.part.latch = true)
include hl

/-- SOLO meets PRESENT: ACTIVE, and the mirror is told everything. -/
theorem State.roleFollows_solo_present (hd : s.sys.ordD = true) (hb : b = .present) (hr : s.part.role = .solo) :
    s.roleFollows b = { s.setRole .active with part := { (s.setRole .active).part with told := none } } := by
  simp [State.roleFollows, State.bandD, hd, hl, hb, hr, Band.free]

/-- ACTIVE meets ABSENT: SOLO. -/
theorem State.roleFollows_active_absent (hd : s.sys.ordD = true) (hb : b = .absent) (hr : s.part.role = .active) :
    s.roleFollows b = s.setRole .solo := by
  simp [State.roleFollows, State.bandD, hd, hl, hb, hr, Band.free]

/-- Any other role stays on a band under which the latch may stand. -/
theorem State.roleFollows_free_stays (hd : s.sys.ordD = true)
    (h : b = .present ∧ s.part.role ≠ .solo ∨ b = .absent ∧ s.part.role ≠ .active) : s.roleFollows b = s := by
  unfold State.roleFollows State.bandD
  rcases h with ⟨rfl, hr⟩ | ⟨rfl, hr⟩ <;> cases h : s.part.role <;> simp_all [Band.free]

/-- A claim of the partner or a wiring fault clears the latch of an LC-2560-D. -/
theorem State.roleFollows_clears (hd : s.sys.ordD = true) (hb : b = .claiming ∨ b.wiring = true) :
    s.roleFollows b = s.bandClears b := by
  have notFree : b.free = false := by
    cases b <;> simp_all [Band.wiring, Band.free]
  simp [State.roleFollows, State.bandD, hd, hl, notFree]

/-- Any band but ABSENT clears the latch of an LC-2560-S, which is ISOLATED (R6). -/
theorem State.roleFollows_isolates (hd : s.sys.ordD = false) (hb : b ≠ .absent) : s.roleFollows b =
    (if s.part.settle.isSome then (s.loseAuthority.show .present).collided else s.hwLose).isolateNow b.wiring := by
  simp [State.roleFollows, State.bandS, hd, hl, hb]

end latched

/-! ### The other rows: an LC-2560-S under ABSENT, and a latch that is clear -/

/-- An LC-2560-S under ABSENT that is not ISOLATED stays as it is, its latch set or clear. -/
theorem State.roleFollows_absent_stays {s : State} {b : Band} (hd : s.sys.ordD = false) (hb : b = .absent)
    (hr : s.part.role ≠ .isolated) : s.roleFollows b = s := by
  unfold State.roleFollows State.bandS
  cases h : s.part.role <;> simp_all

/-- An ISOLATED LC-2560-S under ABSENT, its latch set or clear. -/
theorem State.roleFollows_absent_isolated {s : State} {b : Band} (hd : s.sys.ordD = false) (hb : b = .absent)
    (hr : s.part.role = .isolated) : s.roleFollows b = s.bandIsolated b := by
  simp [State.roleFollows, State.bandS, hd, hb, hr]

section unlatched
variable {s : State} {b : Band} (hl : s.part.latch = false)
include hl

/-- STANDBY stays on a band it takes. -/
theorem State.roleFollows_standby_stays (hr : s.part.role = .standby) (hw : b.wiring = false)
    (h : s.sys.ordD = true ∨ b = .absent) : s.roleFollows b = s := by
  cases hd : s.sys.ordD with
  | true => simp [State.roleFollows, State.bandD, hd, hl, hr, hw]
  | false =>
    have hb : b = .absent := by simpa [hd] using h
    simp [State.roleFollows, State.bandS, hd, hr, hb]

/-- STANDBY is ISOLATED by a band it does not take. -/
theorem State.roleFollows_standby_isolates (hr : s.part.role = .standby)
    (h : b.wiring = true ∨ s.sys.ordD = false ∧ b ≠ .absent) : s.roleFollows b = s.isolateNow b.wiring := by
  cases hd : s.sys.ordD with
  | true =>
    have hw : b.wiring = true := by simpa [hd] using h
    simp [State.roleFollows, State.bandD, hd, hl, hr, hw]
  | false =>
    have hb : b ≠ .absent := by
      rintro rfl
      simp [Band.wiring] at h
    simp [State.roleFollows, State.bandS, hd, hl, hr, hb]

/-- ISOLATED looks at every band. -/
theorem State.roleFollows_isolated (hr : s.part.role = .isolated) : s.roleFollows b = s.bandIsolated b := by
  simp [State.roleFollows, State.bandD, State.bandS, hl, hr]

/-- Every other role stays. -/
theorem State.roleFollows_stays (hs : s.part.role ≠ .standby) (hi : s.part.role ≠ .isolated) : s.roleFollows b = s := by
  unfold State.roleFollows State.bandD State.bandS
  cases h : s.part.role <;> simp_all

end unlatched

/-! ### BAND_CHANGE as a command -/

/-- A current that does not pass the filter. -/
theorem exec_bandChange_unfiltered {s : State} {ua held : Nat} (hu : s.up_ = true)
    (h : s.part.band = bandOf ua ∨ held < 3000) : exec (.bandChange ua held) s =
      .next (({ s with part := { s.part with loopUa := ua } } : State).bandRaw ua) :=
  congrArg Host.Outcome.next (State.bandInto_unfiltered hu h)

section passed
variable {s : State} {ua held : Nat} (hu : s.up_ = true) (hb : s.part.band ≠ bandOf ua) (hh : 3000 ≤ held)
include hu hb hh

/-- A band that passes the filter before the contact is stable. -/
theorem exec_bandChange_unstable (hst : s.part.stable = false) :
    exec (.bandChange ua held) s = .next ((s.bandPassed ua).parkEnd .safetyOrBand) := by
  refine congrArg Host.Outcome.next ((State.bandInto_filtered hu hb hh).trans ?_)
  simp [hst]

/-- A band that passes the filter with the contact stable: what its row of Table 15.3 answers, with PARK ended. -/
theorem exec_bandChange_row (hst : s.part.stable = true) {t : State} (row : (s.bandPassed ua).roleFollows (bandOf ua) = t) :
    exec (.bandChange ua held) s = .next (t.parkEnd .safetyOrBand) := by
  refine congrArg Host.Outcome.next ((State.bandInto_filtered hu hb hh).trans ?_)
  simp [hst, row]

/-- What the row leaves of pairing, the command leaves. -/
theorem exec_bandChange_part (hst : s.part.stable = true) {t : State} (row : (s.bandPassed ua).roleFollows (bandOf ua) = t)
    {P : Part → Prop} (h : P t.part) : ∃ u, exec (.bandChange ua held) s = .next u ∧ P u.part :=
  ⟨_, exec_bandChange_row hu hb hh hst row, by rwa [State.parkEnd_part]⟩

end passed

/-! ### The contact, and the commands of the claim and of ISOLATED -/

/-- A contact that has been stable stays so. -/
theorem State.presentNow_stays {s : State} (hst : s.part.stable = true) : s.presentNow = s := by
  simp [State.presentNow, hst]

/-- The contact stable for 200 ms on a band that the module takes (R283, Table 15.3). -/
theorem State.presentNow_good {s : State} (hu : s.up_ = true) (hst : s.part.stable = false)
    (hb : s.bandGood s.part.band = true) :
    s.presentNow = ({ s with part := { s.part with stable := true, validAt := none } } : State).standbyNow := by
  simp [State.presentNow, hu, hst, hb]

/-- The contact stable for 200 ms on any other band (R283, R294, Table 15.3). -/
theorem State.presentNow_bad {s : State} (hu : s.up_ = true) (hst : s.part.stable = false)
    (hb : s.bandGood s.part.band = false) : s.presentNow =
      ({ s with part := { s.part with stable := true, validAt := none } } : State).isolateNow s.part.band.wiring := by
  cases hw : s.part.band.wiring <;> simp [State.presentNow, hu, hst, hb, hw]

/-- The contact opens: latch, link and role are lost (R283), whether or not a warning already stands (R366). -/
theorem State.presentLost_part {s : State} (hu : s.up_ = true) : s.presentLost.part = { s.part with
    latch := false, settle := none, lostNow := s.part.lostNow || s.part.latch, pres := .noSink, window := none, role := .init
    stable := false, linkUp := false, sync := .none, resyncing := false, claimAt := none } := by
  unfold State.presentLost
  rw [if_neg (by simp [hu])]
  extract_lets s1 p s2 q
  have warned : (if s2.sys.pfw.isSome then s2 else s2.warnNow s2.sys.logicMv).part = s2.part := by
    split
    · rfl
    · exact State.warnNow_part _ _
  rw [warned]
  simp [s2, p, s1, q]

/-- A claim whose conditions have held for its time (R286, R287). -/
theorem State.claimNow_claims {s : State} {t0 : Nat} (h0 : s.part.claimAt = some t0) (hm : s.claimMay = true)
    (ht : s.since t0 s.claimTicks = true) : s.claimNow = { s with part := { s.part with
      pres := .claiming, window := none, latch := true, settle := some s.tick, claimAt := none } } := by
  simp [State.claimNow, h0, hm, ht, State.show]

theorem State.claimNow_stays {s : State} (h : s.part.claimAt = none ∨ s.claimMay = false ∨
    ∃ t0, s.part.claimAt = some t0 ∧ s.since t0 s.claimTicks = false) : s.claimNow = s := by
  unfold State.claimNow
  rcases h with h | h | ⟨t0, h0, ht⟩
  · simp [h]
  · cases s.part.claimAt <;> simp [h]
  · simp [h0, ht]

/-- The settle time ends (R287): what the claim leaves of pairing. -/
theorem State.claimDone_part {s : State} {t0 : Nat} (h0 : s.part.settle = some t0) (hl : s.part.latch = true)
    (ht : s.since t0 160 = true) : s.claimDone.part = { s.part with
      settle := none, told := none, resyncing := false, role := if s.part.band = .present then .active else .solo
      sync := if s.part.band = .present then s.part.sync else .none } := by
  unfold State.claimDone
  simp only [h0, hl, ht, and_self, if_true, State.takeUp_part, apply_ite State.part, State.bump_part, ite_self,
    State.setRole_part]
  by_cases hb : s.part.band = .present <;> simp [hb]

theorem State.claimDone_stays {s : State} (h : s.part.settle = none ∨ s.part.latch = false ∨
    ∃ t0, s.part.settle = some t0 ∧ s.since t0 160 = false) : s.claimDone = s := by
  unfold State.claimDone
  rcases h with h | h | ⟨t0, h0, ht⟩
  · simp [h]
  · cases s.part.settle <;> simp [h]
  · simp [h0, ht]

/-- ISOLATED ends 1 s after a band that the module takes (R6, Table 15.3). -/
theorem State.isolatedEnd_ends {s : State} {t0 : Nat} (hr : s.part.role = .isolated) (h0 : s.part.validAt = some t0)
    (ht : s.since t0 16000 = true) (hb : s.bandGood s.part.band = true) : s.isolatedEnd = s.standbyNow := by
  simp [State.isolatedEnd, hr, h0, ht, hb]

theorem State.isolatedEnd_stays {s : State} (h : s.part.role ≠ .isolated ∨ s.part.validAt = none ∨
    s.bandGood s.part.band = false ∨ ∃ t0, s.part.validAt = some t0 ∧ s.since t0 16000 = false) : s.isolatedEnd = s := by
  unfold State.isolatedEnd
  split
  · next t hr hv =>
    refine if_neg ?_
    rintro ⟨ht, hb⟩
    simp_all
  · rfl

/-- Once a second while echoing, the window of PRESENT opens (R294). -/
theorem State.echoOpen_opens {s : State} (hr : s.part.role = .isolated) (hp : s.part.pres = .echo)
    (ht : s.since s.part.echoAt 16000 = true) :
    s.echoOpen = { s with part := { s.part with pres := .present, window := some s.tick, echoAt := s.tick } } := by
  simp [State.echoOpen, hr, hp, ht]

theorem State.echoOpen_stays {s : State} (h : s.part.role ≠ .isolated ∨ s.part.pres ≠ .echo ∨
    s.since s.part.echoAt 16000 = false) : s.echoOpen = s := by
  unfold State.echoOpen
  refine if_neg ?_
  rintro ⟨hr, hp, ht⟩
  simp_all

/-- Echoing stops after 10 ms of a valid band (R294). -/
theorem State.echoEnd_stops {s : State} {t0 : Nat} (hr : s.part.role = .isolated) (h0 : s.part.readAt = some t0)
    (ht : s.since t0 160 = true) : s.echoEnd = s.show .present := by
  simp [State.echoEnd, hr, h0, ht]

theorem State.echoEnd_stays {s : State} (h : s.part.role ≠ .isolated ∨ s.part.readAt = none ∨
    ∃ t0, s.part.readAt = some t0 ∧ s.since t0 160 = false) : s.echoEnd = s := by
  unfold State.echoEnd
  split
  · next t hr hv =>
    refine if_neg ?_
    intro ht
    simp_all
  · rfl

section up
variable {s : State} (hu : s.up_ = true)
include hu

theorem exec_claim : exec .claim s = .next s.claimNow := congrArg Host.Outcome.next (if_pos hu)
theorem exec_claimSettleEnd : exec .claimSettleEnd s = .next s.claimDone := congrArg Host.Outcome.next (if_pos hu)
theorem exec_isolatedExit : exec .isolatedExit s = .next s.isolatedEnd := congrArg Host.Outcome.next (if_pos hu)
theorem exec_echoWindow : exec .echoWindow s = .next s.echoOpen := congrArg Host.Outcome.next (if_pos hu)
theorem exec_echoStop : exec .echoStop s = .next s.echoEnd := congrArg Host.Outcome.next (if_pos hu)

end up

/-- Settles O53: a band that passes the filter picks its row of Table 15.3 by the order code, the latch and the role, and
every other command is decided by its own condition. -/
theorem authorityIsClaimedAndLost : Obligations.AuthorityIsClaimedAndLost := by
  intro s hu p d b shown fresh s1 isol keeps small
  refine ⟨?unfiltered, ?filtered, ?stableAlready, ?stable, ?opens, ?claims, ?claimNot, ?settles, ?settlesNot, ?exits, ?exitsNot,
    ?echoes, ?echoesNot, ?stops, ?stopsNot⟩
  case unfiltered =>
    intro ua held hb
    rw [exec_bandChange_unfiltered hu hb]
    refine ⟨fun h => ?_, fun hd hl h => ⟨_, rfl, ?_⟩⟩
    · exact congrArg Host.Outcome.next (State.bandRaw_stays (s := shown ua) h)
    · obtain ⟨⟨isolated, latch, settle⟩, valid⟩ := State.bandRaw_clears (s := shown ua) hd hl h
      exact ⟨isolated, latch, settle, valid⟩
  case filtered =>
    intro ua held hb hh
    refine ⟨exec_bandChange_unstable hu hb hh, fun hst hl => ?latched, fun hst hl => ?unlatched⟩
    all_goals
      have row {t : State} := exec_bandChange_row hu hb hh hst (t := t)
      have part {t : State} {P : Part → Prop} := exec_bandChange_part hu hb hh hst (t := t) (P := P)
      have looks := (s.bandPassed ua).bandIsolated_looksAt
    case latched =>
      refine ⟨fun hd hp hr => ?_, fun hd ha hr => ?_, fun hd h => ?_, fun hd hc => ?_, fun hd hw => ?_, fun hd ha hr => ?_,
        fun hd ha hr => ?_, fun hd ha => ?_⟩
      · exact row (State.roleFollows_solo_present hl hd hp hr)
      · exact row (State.roleFollows_active_absent hl hd ha hr)
      · exact row (State.roleFollows_free_stays hl hd h)
      · exact part (P := fun q => q.latch = false ∧ q.settle = none ∧ q.pres = .present ∧ q.role = _)
          (State.roleFollows_clears hl hd (.inl hc)) (State.bandClears_claiming _ hc)
      · exact part (P := fun q => q.IsolatedClear .echo)
          (State.roleFollows_clears hl hd (.inr hw)) (State.bandClears_wiring _ hw)
      · exact row (State.roleFollows_absent_stays hd ha hr)
      · obtain ⟨t, answers, role, rest⟩ := part (State.roleFollows_absent_isolated hd ha hr) (looks _)
        exact ⟨t, answers, role.trans hr, rest⟩
      · exact part (P := fun q => q.IsolatedClear _)
          (State.roleFollows_isolates hl hd ha) (State.isolateNow_cleared (State.latchFails_cleared _) _)
    case unlatched =>
      refine ⟨fun hr hw h => ?_, fun hr h => ?_, fun hr => ?_, fun hs hi => ?_⟩
      · exact row (State.roleFollows_standby_stays hl hr hw h)
      · refine part (P := fun q => (q.role = .isolated ∧ q.pres = _) ∧ q.latch = false)
          (State.roleFollows_standby_isolates hl hr h) ⟨State.isolateNow_shows _ _, ?_⟩
        exact (congrArg Part.latch (State.isolateNow_part _ _)).trans hl
      · obtain ⟨t, answers, role, rest⟩ := part (State.roleFollows_isolated hl hr) (looks _)
        exact ⟨t, answers, role.trans hr, rest⟩
      · exact row (State.roleFollows_stays hl hs hi)
  case stableAlready =>
    intro hst
    exact congrArg Host.Outcome.next (State.presentNow_stays hst)
  case stable =>
    have only : Only small s s.presentNow := State.presentNow_only rfl rfl rfl rfl (Only.refl _ _)
    refine fun hst => ⟨fun hb => ⟨_, rfl, ?_⟩, fun hb => ⟨_, rfl, ?_⟩⟩
    · rw [State.presentNow_good hu hst hb] at only ⊢
      rw [State.standbyNow_part]
      exact ⟨rfl, rfl, rfl, rfl, only⟩
    · rw [State.presentNow_bad hu hst hb] at only ⊢
      refine ⟨State.isolateNow_shows _ _, ?_⟩
      rw [State.isolateNow_part]
      exact ⟨rfl, rfl, rfl, only⟩
  case opens =>
    refine ⟨_, rfl, ?_⟩
    rw [State.presentLost_part hu]
    exact ⟨rfl, rfl, rfl, rfl, rfl, rfl, rfl⟩
  case claims =>
    intro t0 h0 hm ht
    rw [exec_claim hu, State.claimNow_claims h0 hm ht]
  case claimNot =>
    intro h
    rw [exec_claim hu, State.claimNow_stays h]
  case settles =>
    intro t0 h0 hl ht
    refine ⟨_, exec_claimSettleEnd hu, ?_⟩
    rw [State.claimDone_part h0 hl ht]
    exact ⟨hl, rfl, rfl, rfl, rfl⟩
  case settlesNot =>
    intro h
    rw [exec_claimSettleEnd hu, State.claimDone_stays h]
  case exits =>
    intro t0 hr h0 ht hb
    refine ⟨_, exec_isolatedExit hu, ?_⟩
    rw [State.isolatedEnd_ends hr h0 ht hb, State.standbyNow_part]
    exact ⟨rfl, rfl, rfl, State.standbyNow_only rfl rfl rfl rfl (Only.refl _ _)⟩
  case exitsNot =>
    intro h
    rw [exec_isolatedExit hu, State.isolatedEnd_stays h]
  case echoes =>
    intro hr hp ht
    rw [exec_echoWindow hu, State.echoOpen_opens hr hp ht]
  case echoesNot =>
    intro h
    rw [exec_echoWindow hu, State.echoOpen_stays h]
  case stops =>
    intro t0 hr h0 ht
    rw [exec_echoStop hu, State.echoEnd_stops hr h0 ht]
    rfl
  case stopsNot =>
    intro h
    rw [exec_echoStop hu, State.echoEnd_stays h]

end Sys2Proof.Machine

/-! PROOF. The queue, and how a host write is executed and refused (chapters 1 and 2): O1, O8 and O9. -/

namespace Sys2Proof.Machine

/-- Settles O1: the step takes the command off the queue and leaves it the rest. -/
theorem stepRunsTheFrontCommand : Obligations.StepRunsTheFrontCommand := fun _ _ => rfl

/-! ### What raising an interrupt and recording a refusal leave in the store -/

theorem State.wr_canonical {s : State} (h : s.Canonical) (a : Nat) (w : Word) : (s.wr a w).Canonical := Cells.wf_put h

theorem State.rd_raise_same {s : State} (h : s.Canonical) (pg i : Nat) :
    (s.raise pg i).rd (pg * 4096 + 0x14) = Word.setBits (s.rd (pg * 4096 + 0x14)) i 1 1 := State.rd_wr_same h _ _

theorem State.rd_raise_other {s : State} (h : s.Canonical) {pg a : Nat} (i : Nat) (ha : a ≠ pg * 4096 + 0x14) :
    (s.raise pg i).rd a = s.rd a := State.rd_wr_other h _ ha

section errNote
variable {s : State} (h : s.Canonical) (pg off : Nat) (src : Src) (c : Nat)
include h

/-- ERR holds the code, the offset and the port, and counts this refusal (Table 2.5). -/
theorem State.errNote_err : (s.errNote pg off src c).rd (pg * 4096 + 0x10) =
    pack [(0, 8, c), (8, 12, off), (20, 4, src.port), (24, 8, min (s.rf_ (pg * 4096 + 0x10) 24 8 + 1) 255)] :=
  (State.rd_raise_other (State.wr_canonical h _ _) 0 (by omega)).trans (State.rd_wr_same h _ _)

/-- HOST_ERR joins IRQ_RAW (R31). -/
theorem State.errNote_irq : (s.errNote pg off src c).rd (pg * 4096 + 0x14) =
    Word.setBits (s.rd (pg * 4096 + 0x14)) 0 1 1 := by
  have raw (w : Word) : (s.wr (pg * 4096 + 0x10) w).rd (pg * 4096 + 0x14) = s.rd (pg * 4096 + 0x14) :=
    State.rd_wr_other h w (by omega)
  exact (State.rd_raise_same (State.wr_canonical h _ _) pg 0).trans (by rw [raw])

theorem State.errNote_keeps_words : WordsKept [pg * 4096 + 0x10, pg * 4096 + 0x14] s (s.errNote pg off src c) := by
  intro a ha
  simp only [List.mem_cons, List.not_mem_nil, or_false, not_or] at ha
  obtain ⟨err, irq⟩ := ha
  exact (State.rd_raise_other (State.wr_canonical h _ _) 0 irq).trans (State.rd_wr_other h _ err)

end errNote

/-! ### How a register write is executed (R14, R21, R31) -/

/-- A refused write is only recorded, apart from MOT_CMD, the E_LT of SCH_CTRL and the E_STATE of MOT_RT_CMD. -/
theorem State.refuse_records {s : State} {src : Src} {a c : Nat} {v : Word} (hm : a ≠ Machine.motCmd)
    (hl : a = schCtrl → c ≠ 0x40) (hr : a = motRtCmd → c ≠ 2) : s.refuse src a v c = s.reject src a c := by
  unfold State.refuse
  rw [if_neg (fun h => hm h.1), if_neg (fun h => hl h.1 h.2), if_neg]
  rintro ⟨ha, -, hc, -⟩
  exact hr ha hc

/-- A refusal on a page whose ERR has no clear waiting is recorded at once. -/
theorem State.refuseLater_now {s : State} {src : Src} {a c : Nat} {v : Word}
    (h : ∀ d ∈ s.host.deferred, d.addr ≠ errPage a * 4096 + 0x10) : s.refuseLater src a v c = s.refuse src a v c := by
  unfold State.refuseLater
  refine if_neg fun hw => ?_
  obtain ⟨d, hd, ha⟩ := List.any_eq_true.1 hw
  exact h d hd (beq_iff_eq.1 ha)

/-- The checked registers lie on a page of R14. -/
theorem deferredAddr_of_checkedAddr {a : Nat} (h : checkedAddr a = true) : deferredAddr a = true := by
  simp only [checkedAddr, Bool.or_eq_true, beq_iff_eq] at h
  rcases h with ((rfl | rfl) | rfl) | rfl <;> rfl

section registerWrite
variable {s : State} {src : Src} {a : Nat} {v : Word} (hu : s.up_ = true)
include hu

theorem State.registerWrite_narrow : s.registerWrite src a v true = s.refuseLater src a v 8 := by
  simp [State.registerWrite, hu]

theorem State.registerWrite_checked (hc : checkedAddr a = true) :
    s.registerWrite src a v false = s.defer_ ⟨src, a, v, none, none⟩ := by
  simp [State.registerWrite, hu, hc]

theorem State.registerWrite_unchecked (hc : checkedAddr a = false) :
    s.registerWrite src a v false = (s.hostExec src a v).1 := by
  simp [State.registerWrite, hu, hc]

/-- A whole word is judged as it comes, on the pages of R14 behind the writes that wait; refused, it is recorded. -/
theorem State.registerWrite_refused {c : Nat} (hc : checkedAddr a = false) (hl : a = schCtrl → c ≠ 0x40)
    (hw : ∀ d ∈ s.host.deferred, d.addr ≠ errPage a * 4096 + 0x10)
    (hj : (if deferredAddr a = true then s.preview else s).judge src a v = some c) :
    s.registerWrite src a v false = s.refuse src a v c := by
  rw [State.registerWrite_unchecked hu hc]
  unfold State.hostExec
  by_cases hd : deferredAddr a = true
  · rw [if_pos hd] at hj ⊢
    rw [hj]
    exact (if_neg fun h => hl h.1 h.2).trans (State.refuseLater_now hw)
  · rw [if_neg hd] at hj ⊢
    rw [State.hostWrite, hj]

/-- Accepted on a page of R14, a whole word waits for the next tick. -/
theorem State.registerWrite_waits (hc : checkedAddr a = false) (hd : deferredAddr a = true)
    (hj : s.preview.judge src a v = none) : s.registerWrite src a v false = s.defer_ ⟨src, a, v, none, none⟩ := by
  rw [State.registerWrite_unchecked hu hc, State.hostExec, if_pos hd, hj]

/-- Accepted anywhere else, it is made at once. -/
theorem State.registerWrite_made (hd : deferredAddr a = false) (hj : s.judge src a v = none) :
    s.registerWrite src a v false = s.applyWrite src a v := by
  have hc : checkedAddr a = false := by
    by_contra h
    rw [deferredAddr_of_checkedAddr (by simpa using h)] at hd
    exact Bool.noConfusion hd
  rw [State.registerWrite_unchecked hu hc, State.hostExec, if_neg (by simp [hd]), State.hostWrite, hj]

end registerWrite

/-- Settles O8: wherever the refusal comes from, it is recorded on its page by `errNote` and does nothing else. The page and
the offset of a window word are the model's choice (log entries 32 and 193). -/
theorem refusedWriteIsRecorded : Obligations.RefusedWriteIsRecorded := by
  intro src addr v narrow c s hk hu a pg hw hm hl refused
  have recorded : s.registerWrite src a v narrow = s.errNote pg (a % 4096) src c := by
    rcases refused with ⟨rfl, rfl⟩ | ⟨rfl, hc, hj⟩
    · rw [State.registerWrite_narrow hu, State.refuseLater_now hw]
      exact State.refuse_records hm hl fun _ => by decide
    · have hr : a ≠ motRtCmd := by
        intro h
        rw [h] at hc
        exact Bool.noConfusion hc
      rw [State.registerWrite_refused hu hc hl hw hj]
      exact State.refuse_records hm hl fun h => absurd h hr
  exact ⟨_, congrArg Host.Outcome.next recorded, State.errNote_err hk .., State.errNote_irq hk ..,
    State.errNote_keeps_words hk _ _ _ _, State.errNote_only rfl rfl (Only.refl _ _) ..⟩

/-- Settles O9. That the landing table waits like the pages of R14 and every other page acts at once is the model's choice
(log entry 33). -/
theorem hostWriteTakesEffect : Obligations.HostWriteTakesEffect := by
  intro src addr v s hu a waits
  refine ⟨fun hc => ?checked, fun hc hd hj => ?waiting, fun hd hj => ?atOnce⟩
  case checked => exact congrArg Host.Outcome.next (State.registerWrite_checked hu hc)
  case waiting => exact congrArg Host.Outcome.next (State.registerWrite_waits hu hc hd hj)
  case atOnce => exact congrArg Host.Outcome.next (State.registerWrite_made hu hd hj)

end Sys2Proof.Machine

/-! PROOF. The servo period, the Electrum cycle and the missed deadline (chapter 1): O12, O13 and O15. -/

namespace Sys2Proof.Machine

/-! ### The servo period (R12, R363) -/

theorem State.servoTick_down {s : State} (hu : s.up_ = false) (i : TickIn) : s.servoTick i = s := by
  simp [State.servoTick, hu]

/-- The phases of a period in RUN, in their order (Table 1.1). -/
theorem State.tickRun_phases (s : State) (i : TickIn) (tripped : Bool) : s.tickRun i tripped =
    let waits := ((s.awardsBy (s.tick - 1)).landedTick.linkFinish.analogOut.ciaSync.queryTick).deferredNow
    let slot := waits.1.schSlot
    let fused := slot.recTick.phaseFusion i
    let checked := (fused.phaseStop slot.mot).checkedAll waits.2 (tripped || fused.demanded)
    if checked.live then checked.phaseSet.phaseDoors.partTick.bidTick.keyStep else checked := by
  unfold State.tickRun
  cases ((s.awardsBy (s.tick - 1)).landedTick.linkFinish.analogOut.ciaSync.queryTick).deferredNow
  rfl

/-- What runs in PARK, in its order (R363). -/
theorem State.tickPark_phases (s : State) : s.tickPark =
    ((s.deferredNow.1.recTick).checkedAll s.deferredNow.2 false).partTick.keyStep := by
  unfold State.tickPark
  cases s.deferredNow
  rfl

section servoTick
variable {s t : State} {i : TickIn} (hu : s.up_ = true)
include hu

/-- In RUN the engines' phases run, and then what waited for the host port's budget. -/
theorem State.servoTick_run (hl : s.tickBegin.opTick.live = true) (ht : s.tickBegin.opTick.tickRun i s.demanded = t) :
    s.servoTick i = if t.up_ then t.runWaiting.ethDrain else t := by
  simp [State.servoTick, hu, hl, ht]

/-- In PARK only the host port, the recorder, pairing and the key store run. -/
theorem State.servoTick_park (hl : s.tickBegin.opTick.live = false) (ht : s.tickBegin.opTick.tickPark = t) :
    s.servoTick i = if t.up_ then t.runWaiting.ethDrain else t := by
  simp [State.servoTick, hu, hl, ht]

end servoTick

/-- Settles O12: the phases are those of `tickRun` and `tickPark`. That the response check comes at the tick (log entry 77)
and a press in the next period's button slot (log entry 214) is the model's choice. -/
theorem servoPeriodRunsItsPhases : Obligations.ServoPeriodRunsItsPhases := by
  intro i s begun waits slot fused stops checked run parked
  refine ⟨rfl, rfl, fun hu hl => ?running, fun hu hl => ?parking, fun hu => ?down⟩
  case running => exact congrArg Host.Outcome.next (State.servoTick_run hu hl (State.tickRun_phases begun i s.demanded))
  case parking => exact congrArg Host.Outcome.next (State.servoTick_park hu hl begun.tickPark_phases)
  case down => exact congrArg Host.Outcome.next (State.servoTick_down hu i)

/-! ### The Electrum cycle (R16, R180) -/

/-- Electrum stays the same where its part is not among those that may change. -/
theorem Only.el_eq {m : Parts} {s t : State} (h : Only m s t) (hm : m.el = false) : t.el = s.el :=
  h.el.resolve_left (by simp [hm])

/-- A cycle is due at the tick of every fourth period, once, after the first tick of a start. -/
theorem State.elDue_iff (s : State) :
    s.elDue = true ↔ s.up_ = true ∧ s.sys.firstTick = false ∧ s.period % 4 = 0 ∧ s.el.cycAt ≠ some s.tick := by
  simp [State.elDue, and_assoc]

/-- The start of LSF's slots counts no cycle. -/
theorem State.lsfRunNow_cyc (s : State) : s.lsfRunNow.el.cyc = s.el.cyc := by
  unfold State.lsfRunNow
  split
  · rfl
  · have slots (u : State) : Only { lsf := true } u (each (List.range 32) u fun w k => w.lsfStart k) :=
      each_only _ (fun _ k h => State.lsfStart_only rfl h k) _ (Only.refl _ _)
    rw [(slots _).el_eq rfl]

/-- Taking the received frames leaves Electrum as it is. -/
theorem State.lsfTakeAll_el (s : State) : s.lsfTakeAll.el = s.el :=
  (State.lsfTakeAll_only (pt := { rf := true, irqNow := true, lsf := true, can := true }) rfl rfl rfl rfl
    (Only.refl _ _)).el_eq rfl

/-- Choosing the mode counts no cycle. -/
theorem State.elMode_cyc (s : State) : s.elMode.el.cyc = s.el.cyc := by
  unfold State.elMode
  split
  · unfold State.modeInto
    split <;> rfl
  · rfl

theorem State.elSample_cyc (s : State) (i : ElIn) : (s.elSample i).el.cyc = s.el.cyc + 1 := State.elMode_cyc _

/-- The functions of a cycle that decides `judged`, in their order. -/
theorem State.elCycle_functions {s judged : State} {i : ElIn}
    (hj : (s.lsfRunNow.lsfTakeAll.elSample i).elDecide = judged) : s.elCycle i =
      let granted := if judged.el.st = .normal then judged.elHoldRun.elPermit.elBypass.elProof else judged
      (((granted.relevGrantEnds.elOutputs.drvCheckReady).lockNote .a).lockNote .b).schServed := by
  subst hj
  unfold State.elCycle
  rfl

/-- Settles O13: the functions are those of `elCycle`, and only the sampling counts the cycle. -/
theorem electrumCycleRunsItsFunctions : Obligations.ElectrumCycleRunsItsFunctions := by
  intro i s due sampled judged granted out
  refine ⟨s.elDue_iff, ?counts, fun hd => ?cycle, fun hd => ?idle⟩
  case counts =>
    calc sampled.el.cyc = due.lsfRunNow.lsfTakeAll.el.cyc + 1 := State.elSample_cyc _ i
      _ = due.lsfRunNow.el.cyc + 1 := by rw [State.lsfTakeAll_el]
      _ = s.el.cyc + 1 := by rw [State.lsfRunNow_cyc]
  case cycle => exact congrArg Host.Outcome.next ((if_pos hd).trans (State.elCycle_functions (judged := judged) rfl))
  case idle => exact congrArg Host.Outcome.next (if_neg (by simp [hd]))

/-! ### A missed deadline (R15) -/

/-- A cause that is latched already, with no bridging to end, asks for nothing more. -/
theorem State.trip_latched {s : State} {c : Nat} (hc : c ∈ s.el.causes) (hb : s.el.bypOn = false) : s.trip c = s := by
  have ucm : s.withUcm [c] = [c] := by simp [State.withUcm, hb]
  unfold State.trip State.tripAll
  rw [ucm]
  refine if_pos ?_
  cases s.authority <;> cases ownCause c <;> simp [hc]

/-- Settles O15: the missed deadline latches OVERRUN and takes the frame back, and the trip keeps both. -/
theorem missedDeadlineTrips : Obligations.MissedDeadlineTrips := by
  intro m s late
  refine ⟨fun hl hm => ⟨late.trip 15, ?missed, rfl, fun hc => ?latches, fun hc hb => ?latched⟩, fun h => ?other⟩
  case missed => exact congrArg Host.Outcome.next (if_pos ⟨hl, hm⟩)
  case latches =>
    have tripped : Tripped late (late.trip 15) 15 := State.trip_spec hc
    obtain ⟨framed, frame⟩ := tripped.link
    exact ⟨tripped, congrArg Sys.overrun (tripped.frame.sys.resolve_left (by decide)), framed, frame⟩
  case latched => exact State.trip_latched hc hb
  case other =>
    refine congrArg Host.Outcome.next (if_neg ?_)
    rintro ⟨hl, hm⟩
    rcases h with h | ⟨h0, h1, h3⟩
    · rw [h] at hl
      exact Bool.noConfusion hl
    · rcases hm with hm | hm | hm
      exacts [h0 hm, h1 hm, h3 hm]

end Sys2Proof.Machine

/-! PROOF. The drive's answers and commands, and the motion watchdog (chapter 6): O37 and O38. -/

namespace Sys2Proof.Machine

/-- A module in RUN is up. -/
theorem State.live_up {s : State} (h : s.live = true) : s.up_ = true := by
  unfold State.up_
  rw [show (s.sys.run == .run) = true from h]
  rfl

/-! ### A response or NAK on the link (R105 to R107) -/

/-- Nothing is taken on another interface, or after the check of the period. -/
theorem State.linkResponse_closed {s : State} (h : ¬ (s.drvIf = 1 ∧ s.drv.checked = false)) (l : List Byte) (d e : Nat) :
    s.linkResponse l d e = s := by
  unfold State.linkResponse
  refine if_pos ?_
  cases hc : s.drv.checked <;> simp_all

/-- What begins neither as a response nor as a NAK is nothing. -/
theorem State.linkResponse_other {s : State} {l : List Byte} (hn : l ≠ [0xC3]) (hr : l.head? ≠ some 0x5C) (d e : Nat) :
    s.linkResponse l d e = s := by
  unfold State.linkResponse
  split
  · rfl
  · split
    · exact absurd rfl hn
    · exact absurd rfl hr
    · rfl

section linkOpen
variable {s : State} (ho : s.drvIf = 1 ∧ s.drv.checked = false) (l : List Byte) (d e : Nat)
include ho

theorem State.linkResponse_nak :
    s.linkResponse [0xC3] d e = if 56000 < e then s else s.bump drvLink 24 8 :=
  if_neg (by simp [ho])

/-- A response: its delimiter is seen, and what ends in time is judged by its CRC and then by its sequence. -/
theorem State.linkResponse_answer : s.linkResponse (0x5C :: l) d e =
    let t : State := { s with drv := { s.drv with delim := s.drv.delim || decide (d ≤ 41000) } }
    let status := leNat (slice l 1 2)
    let u : State := { t with drv := { t.drv with okResp := true, stoFb := status.testBit 3 } }
    if 56000 < e then t
    else if l.length ≠ 11 ∨ slice l 9 2 ≠ crc16Bytes (slice l 0 9) then t.bump drvLink 16 8
    else if byteAt l 0 ≠ s.drv.seq then t
    else ((u.wi drvActPos (u.dirInv (signed 32 (leNat (slice l 3 4))))).wn drvActTq
      ((wordI (u.dirInv (signed 16 (leNat (slice l 7 2))))).toNat % 65536)).drvStatusIn status (status.testBit 0)
        (status.testBit 2) :=
  if_neg (by simp [ho])

end linkOpen

/-! ### A TPDO of a CiA 402 cycle (R111), and the commands of DRV_CMD (R109, R116) -/

/-- A TPDO counts in the window of the present cycle, or in that of the one before until its check. -/
theorem State.ciaTpdoIn_window {s : State} {sw sof : Nat} {pos : Word} :
    let now := s.drv.syncUs < sof ∧ sof ≤ s.drv.syncUs + 1000
    let before := sof ≤ s.drv.syncUs ∧ s.drv.syncUs < sof + 1000 ∧ s.drv.checked = false
    let t : State := { s with drv := { s.drv with
      tpdo := s.drv.tpdo || decide now, tpdoLast := s.drv.tpdoLast || decide before } }
    s.ciaTpdoIn sw pos sof = if s.drvIf = 2 ∧ s.drv.sync ≠ 0 ∧ (now ∨ before) then
        (t.wi drvActPos (t.dirInv (round16 (pos.toInt * s.ri drvCiaScale)))).drvStatusIn sw (sw &&& 0x6F == 0x27)
          (sw.testBit 3)
      else s := by
  intro now before t
  have inNow : (decide (s.drv.syncUs < sof) && decide (sof ≤ s.drv.syncUs + 1000)) = decide now :=
    (Bool.decide_and _ _).symm
  have inBefore : (decide (sof ≤ s.drv.syncUs) && decide (s.drv.syncUs < sof + 1000) && !s.drv.checked) =
      decide before := by
    simp [before, Bool.decide_and, Bool.and_assoc]
  unfold State.ciaTpdoIn
  simp only [inNow, inBefore, decide_eq_true_eq]
  rfl

theorem exec_ciaTpdo {s : State} (hl : s.live = true) (sw : BitVec 16) (pos : Word) (sof : Nat) :
    exec (.ciaTpdo sw pos sof) s = .next (s.ciaTpdoIn sw.toNat pos sof) := by
  refine congrArg Host.Outcome.next ?_
  by_cases hi : s.drvIf = 2
  · exact if_pos ⟨hl, hi⟩
  · rw [State.ciaTpdoIn_window, if_neg (fun h => hi h.2), if_neg (fun h => hi h.1)]

/-- An accepted write to DRV_CMD resets the fault with bit 0 and clears the counters with bit 1. -/
theorem State.command_drvCmd {s : State} {src : Src} {v : Word} (hu : s.up_ = true) (hj : s.judge src drvCmd v = none) :
    s.command src drvCmd v =
      let t := if Word.bit v 0 then s.faultReset else s
      if Word.bit v 1 then t.drvCntClr else t := by
  obtain ⟨r, hr⟩ : ∃ r, regAt drvCmd = some r := ⟨_, rfl⟩
  exact State.command_page hu hj (by decide) rfl hr

/-- Settles O37: each row by the lemma of its operation, the commands of DRV_CMD by what an accepted write there does. -/
theorem driveAnswersAndCommands : Obligations.DriveAnswersAndCommands := by
  intro s hl open_
  have hu := State.live_up hl
  have response (l d e) : exec (.drvResponse l d e) s = .next (s.linkResponse l d e) :=
    congrArg Host.Outcome.next (if_pos hl)
  refine ⟨fun d e ho he => ?nak, fun d e ho he => ?lateNak, fun l d e ho => ?answer, fun l d e h => ?nothing,
    fun sw pos sof => ?tpdo, fun hi hs => ?sdo, fun h => ?sdoNot, fun a => ?ready, fun src hj => ?faultRst, fun src hj => ?cntClr⟩
  case nak => rw [response, State.linkResponse_nak ho, if_neg (by omega)]
  case lateNak => rw [response, State.linkResponse_nak ho, if_pos he]
  case answer =>
    intro t sound status u
    have judged := State.linkResponse_answer ho l d e
    rw [response, judged]
    refine ⟨fun he => ?late, fun he hc => ?crc, fun he hc hs => ?sequence, fun he hc hs => ?taken⟩
    case late => exact congrArg _ (if_pos he)
    all_goals refine congrArg _ ((if_neg (by omega)).trans ?_)
    case crc => exact if_pos (not_and_or.1 hc)
    all_goals refine (if_neg (not_or.2 ⟨not_not.2 hc.1, not_not.2 hc.2⟩)).trans ?_
    case sequence => exact if_pos hs
    case taken => exact if_neg (not_not.2 hs)
  case nothing =>
    rw [response]
    rcases h with hc | ⟨hn, hr⟩
    · rw [State.linkResponse_closed hc]
    · rw [State.linkResponse_other hn hr]
  case tpdo =>
    intro now before t
    rw [exec_ciaTpdo hl, State.ciaTpdoIn_window]
    refine ⟨fun hi hs hw => congrArg _ (if_pos ⟨hi, hs, hw⟩), fun h => congrArg _ (if_neg ?_)⟩
    rintro ⟨hi, hs, hw⟩
    rcases h with h | h | ⟨hn, hb⟩
    exacts [h hi, hs h, hw.elim hn hb]
  case sdo => exact congrArg _ ((if_pos ⟨hl, hi⟩).trans (if_pos hs))
  case sdoNot =>
    refine congrArg Host.Outcome.next ?_
    rcases h with hi | hs
    · exact if_neg fun k => hi k.2
    · have unsent : s.sdoConfirm = s := if_neg (by simp [hs])
      rw [unsent, ite_self]
  case ready => exact congrArg _ (if_pos hu)
  case faultRst => exact congrArg _ (State.command_drvCmd hu hj)
  case cntClr => exact congrArg _ (State.command_drvCmd hu hj)

/-! ### The motion watchdog (R107, R111, R114) -/

/-- DRV stays the same where its part is not among those that may change. -/
theorem Only.drv_eq {m : Parts} {s t : State} (h : Only m s t) (hm : m.drv = false) : t.drv = s.drv :=
  h.drv.resolve_left (by simp [hm])

@[simp] theorem State.drvSetReady_drv (s : State) (r : Bool) : (s.drvSetReady r).drv = { s.drv with ready := r } := by
  unfold State.drvSetReady
  split
  · next h => rw [← h]
  · simp

@[simp] theorem State.drvSetLink_drv (s : State) (u : Bool) : (s.drvSetLink u).drv = { s.drv with linkUp := u } := by
  unfold State.drvSetLink
  split
  · next h => rw [← h]
  · simp

@[simp] theorem State.linkCheck_drv (s : State) (ok : Bool) : (s.linkCheck ok).drv = { s.drv with
    miss := if ok then 0 else min (s.drv.miss + 1) 7, hist := pushHist s.drv.hist 16 ok
    linkUp := (pushHist s.drv.hist 16 ok).any id } := by
  simp [State.linkCheck]

theorem State.drvCheck_checked {s : State} (h : s.drv.checked = true) : s.drvCheck = s := if_pos h

/-- The check that runs counts the missed responses in a row and has then run. -/
theorem State.drvCheck_misses {s : State} (h : s.drv.checked = false) : s.drvCheck.drv.checked = true ∧
    s.drvCheck.drv.miss = if (if s.drvIf = 2 then s.drv.tpdoLast else s.drv.okResp) then 0 else min (s.drv.miss + 1) 7 := by
  unfold State.drvCheck
  rw [if_neg (by simp [h])]
  extract_lets ok rep u drv t v
  have counted : v.drv.checked = true ∧ v.drv.miss = if ok then 0 else min (s.drv.miss + 1) 7 := by
    simp [v, t, drv]
  by_cases hok : ok = true
  · rw [if_pos hok]
    exact counted
  · rw [if_neg hok, State.drvSetReady_drv]
    exact counted

/-- The check leaves Electrum and authority alone. -/
theorem State.drvCheck_latches {s : State} {c : Nat} (h : s.Latches c) : s.drvCheck.Latches c := by
  have only : Only { rf := true, irqNow := true, drv := true } s s.drvCheck :=
    State.drvCheck_only rfl rfl rfl (Only.refl _ _)
  unfold State.Latches State.authority at h ⊢
  rwa [only.el_eq rfl, only.part_eq rfl]

/-- With a link four checks in a row have missed. -/
theorem State.watchdogDue_link {s : State} (hi : s.drvIf = 1 ∨ s.drvIf = 2) :
    s.watchdogDue = true ↔ s.drv.step ≠ .off ∧ s.drv.wdog = false ∧ 4 ≤ s.drv.miss := by
  simp [State.watchdogDue, hi, and_assoc]

/-- With a legacy port RDY has been away for four ticks outside MAGNETISE. -/
theorem State.watchdogDue_legacy {s : State} (h1 : s.drvIf ≠ 1) (h2 : s.drvIf ≠ 2) : s.watchdogDue = true ↔
    s.drv.step ≠ .off ∧ s.drv.wdog = false ∧ s.drv.step ≠ .magnetise ∧ 4 ≤ s.drv.rdyMiss := by
  simp [State.watchdogDue, h1, h2, and_assoc]

@[simp] theorem State.permEnd_drv (s : State) : s.permEnd.drv = s.drv := by
  unfold State.permEnd
  split <;> rfl

@[simp] theorem State.permEnd_el (s : State) : s.permEnd.el = { s.el with perm := false } := by
  unfold State.permEnd
  split
  · rfl
  · next h => rw [← Bool.eq_false_iff.2 h]

/-- DRV in OFF. -/
theorem State.drvOff_off (s : State) : s.drvOff.drv.step = .off ∧ s.drvOff.drv.energise = false := by
  simp [State.drvOff]

@[simp] theorem State.drvOff_el (s : State) : s.drvOff.el = { s.el with perm := false } := by simp [State.drvOff]

@[simp] theorem State.drvOff_mot (s : State) : s.drvOff.mot = s.mot :=
  (State.drvOff_only (pt := { rf := true, irqNow := true, drv := true, el := true }) rfl rfl rfl rfl
    (Only.refl _ _)).mot.resolve_left (by decide)

/-- What abandoning the exchange leaves of DRV: no frame to send. -/
@[simp] theorem State.drvAbandon_drv (s : State) : s.drvAbandon.drv = { s.drv with framed := false, frame := [] } := by
  unfold State.drvAbandon
  split
  · exact (State.canAbort_only (pt := { rf := true, irqNow := true, can := true }) rfl rfl rfl
      (Only.refl _ _) 3 30).drv_eq rfl
  · rfl

/-- Abandoning the exchange touches no more than DRV and the frame of CAN3. -/
theorem State.drvAbandon_parts (s : State) :
    Only { rf := true, irqNow := true, drv := true, can := true } s s.drvAbandon :=
  State.drvAbandon_only rfl rfl rfl rfl (Only.refl _ _)

@[simp] theorem State.drvAbandon_el (s : State) : s.drvAbandon.el = s.el := s.drvAbandon_parts.el_eq rfl

@[simp] theorem State.drvAbandon_mot (s : State) : s.drvAbandon.mot = s.mot :=
  s.drvAbandon_parts.mot.resolve_left (by decide)

/-- With the condition standing after the check, the watchdog acts on what the check left. -/
theorem exec_motionWatchdog_due {s : State} (hl : s.live = true) (h : s.drvCheck.watchdogDue = true) :
    exec .motionWatchdog s = .next s.drvCheck.watchdogNow :=
  congrArg Host.Outcome.next ((if_pos ⟨hl, h⟩).trans (if_pos h))

/-- Settles O38. That the check of the period runs with the row, once, is the model's choice (log entry 77). -/
theorem motionWatchdogTrips : Obligations.MotionWatchdogTrips := by
  intro s hl
  refine ⟨State.watchdogDue_link, State.watchdogDue_legacy, State.drvCheck_checked, State.drvCheck_misses,
    fun hd => ?stays, fun hd => ?trips⟩
  case stays => exact congrArg Host.Outcome.next (if_neg (by simp [hd]))
  case trips =>
    intro w t
    have acts : exec .motionWatchdog s = .next t := exec_motionWatchdog_due hl hd
    obtain ⟨off, released⟩ := State.drvOff_off ((w.fire 8 w.drvLinkW).trip 15)
    obtain ⟨u, answers, only⟩ := execMotionWatchdog_only s
    obtain rfl : t = u := Host.Outcome.next.inj (acts.symm.trans answers)
    have drv : t.drv = _ := State.drvAbandon_drv _
    refine ⟨acts, ?_, ?_, ?_, ?_, fun hc => ?_, only⟩
    · rw [drv]; exact off
    · rw [drv]; exact released
    · rw [drv]
    · rw [drv]
    · have latches : (w.fire 8 w.drvLinkW).Latches 15 := by
        have checked := State.drvCheck_latches hc
        unfold State.Latches State.authority at checked ⊢
        simpa [w] using checked
      have tripped := State.trip_spec latches
      have el : t.el = { ((w.fire 8 w.drvLinkW).trip 15).el with perm := false } := by simp [t]
      have mot : t.mot = ((w.fire 8 w.drvLinkW).trip 15).mot := by simp [t]
      rw [el, mot]
      exact ⟨tripped.state, tripped.cause, tripped.motion, tripped.outputs⟩

end Sys2Proof.Machine

/-! PROOF. Register pages and how a write to them is judged (chapter 2), and the state after reset: O4, O7, O10 and O11. -/

namespace Sys2Proof.Machine

/-! ### The state after reset (R28, R192, R284) -/

/-- A list of defaults reads as its default at every place, in the list or past it. -/
theorem nth_replicate {α : Type} (n i : Nat) (d : α) : nth (List.replicate n d) i d = d := by
  unfold nth
  rw [List.getElem?_replicate]
  split <;> rfl

/-- Both switches of every output are off after reset. -/
theorem El.reset_isOff (i : Nat) : El.reset.IsOff i := ⟨nth_replicate 9 i false, nth_replicate 9 i false⟩

/-- Electrum starts in START, nothing latched and nothing energised. -/
theorem State.reset_electrumSafe : State.reset.ElectrumSafe :=
  ⟨fun latched => absurd rfl latched, fun _ => ⟨rfl, rfl, rfl, fun i _ => El.reset_isOff i⟩⟩

/-- Settles O4. The values of the module's own fields are the model's choice (log entry 3). -/
theorem resetIsSound : Obligations.ResetIsSound := by
  refine ⟨⟨rfl, State.reset_electrumSafe⟩, fun _ => rfl, rfl, rfl, rfl, fun i => ?outputs, fun i => ?sessions, rfl, rfl,
    rfl⟩
  case outputs =>
    obtain ⟨offA, offB⟩ := El.reset_isOff i
    exact ⟨by simp [El.out, State.reset, offA], offA, offB⟩
  case sessions => exact nth_replicate 4 i none

/-! ### The judgement of a host write (R24, R31) -/

@[simp] theorem ifC_false (k : Nat) : ifC false k = [] := rfl

@[simp] theorem ifC_true (k : Nat) : ifC true k = [k] := rfl

/-- No code is reported only where none is found. -/
theorem firstCode_eq_none {l : List Nat} : firstCode l = none ↔ l = [] := by
  cases l with
  | nil => simp [firstCode]
  | cons c r =>
    refine iff_of_false ?_ (List.cons_ne_nil c r)
    unfold firstCode
    split
    · exact Option.some_ne_none c
    · split <;> exact Option.some_ne_none _

section judge
variable {s : State} {src : Src} {a : Nat} {v : Word}

/-- ERR takes every write (R24), through whatever window: the model's choice (log entry 191). -/
theorem State.judge_err (he : isErr a = true) : s.judge src a v = none := if_pos he

theorem State.judge_misaligned (he : isErr a = false) (ha : a % 4 ≠ 0) : s.judge src a v = some 8 :=
  (if_neg (by simp [he])).trans (if_pos ha)

theorem State.judge_aligned (he : isErr a = false) (ha : a % 4 = 0) :
    s.judge src a v = firstCode (ifC (!s.winPass src a true) 5 ++ s.wordCodes src a v) :=
  (if_neg (by simp [he])).trans (if_neg (not_not.2 ha))

/-- A window that permits the write leaves the codes of the page or window word. -/
theorem State.judge_permitted (he : isErr a = false) (ha : a % 4 = 0) (hw : s.winPass src a true = true) :
    s.judge src a v = firstCode (s.wordCodes src a v) := by
  rw [State.judge_aligned he ha, hw]
  rfl

theorem State.judge_eq_none (he : isErr a = false) (ha : a % 4 = 0) :
    s.judge src a v = none ↔ s.winPass src a true = true ∧ s.wordCodes src a v = [] := by
  rw [State.judge_aligned he ha, firstCode_eq_none, List.append_eq_nil_iff]
  cases s.winPass src a true <;> simp

end judge

/-- Settles O7. The places of the codes that no rule places (log entry 31), and that no window refuses a write to ERR
(log entry 191), are the model's choices. -/
theorem refusalsFollowTheOrder : Obligations.RefusalsFollowTheOrder := by
  refine ⟨fun s src a v => State.judge_err, fun s src a v => State.judge_misaligned, fun s src a c v he ha hj => ?first,
    fun s src a v => State.judge_eq_none, ?order⟩
  case first => exact firstCode_spec ((State.judge_aligned he ha).symm.trans hj)
  case order => decide

/-! ### The header of a page (Tables 2.3, 2.8) -/

section header
variable {s : State} {src : Src} {pg o : Nat} {v : Word} (hp : pg < 256) (ho : o < 4096)
include hp ho

/-- The address of offset `o` of page `pg` lies among the register pages and gives both back (R21). -/
theorem pageAddr_parts : pg * 4096 + o < 0x100000 ∧ (pg * 4096 + o) / 4096 = pg ∧ (pg * 4096 + o) % 4096 = o := by
  omega

/-- On a page in use a header register is judged by its own codes. -/
theorem State.wordCodes_head {c : List Nat} (hr : (pageRegs pg).isSome = true) (hg : s.gated pg = false)
    (hc : s.headCodes pg o v = some c) : s.wordCodes src (pg * 4096 + o) v = c := by
  obtain ⟨low, page, offset⟩ := pageAddr_parts hp ho
  obtain ⟨l, hl⟩ := Option.isSome_iff_exists.1 hr
  unfold State.wordCodes State.pageWriteCodes
  rw [if_pos low]
  simp [page, offset, hl, hg, hc]

/-- An accepted write to a header register acts by its offset. -/
theorem State.applyWrite_head {t : State} (ht : s.applyHead pg o v = some t) :
    s.applyWrite src (pg * 4096 + o) v = t := by
  obtain ⟨low, page, offset⟩ := pageAddr_parts hp ho
  unfold State.applyWrite
  rw [if_pos low, page, offset, ht]

/-- Of the offsets of an assigned page, ERR is 0x10. -/
theorem isErr_pageAddr (hr : (pageRegs pg).isSome = true) : isErr (pg * 4096 + o) = (o == 0x10) := by
  obtain ⟨low, page, offset⟩ := pageAddr_parts hp ho
  simp [isErr, low, page, offset, hr]

end header

/-! ### ERR (R24) -/

/-- Recording a refusal leaves the module up or down. -/
theorem State.reject_up (s : State) (src : Src) (a c : Nat) : (s.reject src a c).up_ = s.up_ := rfl

/-- A cleared ERR counts its next refusal as the first. -/
theorem State.reject_err_of_clear {s : State} {pg : Nat} (hk : s.Canonical) (src : Src) {a : Nat} (c : Nat)
    (ha : errPage a = pg) : ((s.wr (pg * 4096 + 0x10) 0).reject src a c).rd (pg * 4096 + 0x10) =
      pack [(0, 8, c), (8, 12, a % 4096), (20, 4, src.port), (24, 8, 1)] := by
  subst ha
  have clear : (s.wr (errPage a * 4096 + 0x10) 0).rf_ (errPage a * 4096 + 0x10) 24 8 = 0 := by
    unfold State.rf_
    rw [State.rd_wr_same hk]
    rfl
  unfold State.reject
  rw [State.errNote_err (State.wr_canonical hk _ _), clear]
  rfl

/-- ERR_CLEAR on an assigned page of a module that is up. -/
theorem exec_errClear {s : State} (hu : s.up_ = true) (src : Src) {page : BitVec 8} (v : Word)
    (hr : (pageRegs page.toNat).isSome = true) :
    exec (.errClear src page v) s = .next (s.wr (page.toNat * 4096 + 0x10) 0) := by
  have accepted : s.judge src (page.toNat * 4096 + 0x10) v = none :=
    State.judge_err (isErr_pageAddr page.isLt (by decide) hr)
  refine congrArg Host.Outcome.next ((State.command_accepted hu accepted).trans ?_)
  exact State.applyWrite_head page.isLt (by decide) rfl

/-- Settles O10: the write clears ERR in every state, so before a rejection as after it. -/
theorem errClearClears : Obligations.ErrClearClears := by
  intro src page v s hk hu e hr
  exact ⟨State.judge_err (isErr_pageAddr page.isLt (by decide) hr), exec_errClear hu src v hr, State.rd_wr_same hk e 0,
    fun a c ha => State.reject_err_of_clear hk src c ha, fun a c => exec_errClear (s.reject_up src a c ▸ hu) src v hr⟩

/-! ### LOCK (R29) -/

/-- A key in UNLOCK stands in the upper half of the word written. -/
theorem pack_unlock_toNat (key : BitVec 16) : (pack [(16, 16, key.toNat)]).toNat = key.toNat * 65536 := by
  have small : key.toNat < 65536 := key.isLt
  simp only [pack, wordN, List.foldl_cons, List.foldl_nil, Nat.shiftLeft_eq, BitVec.toNat_ofNat]
  omega

/-- The word written clears HLOCK, sets no reserved bit, and carries the key in UNLOCK. -/
theorem pack_unlock_fields (key : BitVec 16) :
    let w := pack [(16, 16, key.toNat)]
    Word.bits w 0 1 = 0 ∧ Word.bit w 0 = false ∧ Word.bits w 1 7 = 0 ∧ Word.bits w 10 6 = 0 ∧
      Word.bits w 16 16 = key.toNat := by
  have small : key.toNat < 65536 := key.isLt
  simp only [Word.bits, Word.bit, pack_unlock_toNat, Nat.shiftRight_eq_div_pow, Nat.testBit_zero, decide_eq_false_iff_not]
  omega

section lock
variable {s : State} {src : Src} {pg : Nat} {v : Word} (hp : pg < 256) (hr : (pageRegs pg).isSome = true)
  (hg : s.gated pg = false) (hw : s.winPass src (pg * 4096 + 0x20) true = true)
include hp hr hg hw

/-- A write to LOCK that sets no reserved bit is refused only where it clears a set HLOCK without the key. -/
theorem State.judge_lock (h1 : Word.bits v 1 7 = 0) (h2 : Word.bits v 10 6 = 0) : s.judge src (pg * 4096 + 0x20) v =
    if s.hlock pg && !Word.bit v 0 && Word.bits v 16 16 != 0x4C4B then some 3 else none := by
  rw [State.judge_permitted (isErr_pageAddr hp (by decide) hr) (by omega) hw,
    State.wordCodes_head hp (by decide) hr hg rfl]
  simp only [h1, h2, bne_self_eq_false, Bool.or_self, ifC_false, List.nil_append]
  unfold ifC
  split <;> rfl

/-- An accepted write to LOCK stores HLOCK. -/
theorem State.command_lock (hu : s.up_ = true) (h1 : Word.bits v 1 7 = 0) (h2 : Word.bits v 10 6 = 0)
    (hk : Word.bit v 0 = true ∨ Word.bits v 16 16 = 0x4C4B) :
    s.command src (pg * 4096 + 0x20) v = s.wn (pg * 4096 + 0x20) (Word.bits v 0 1) := by
  have accepted : s.judge src (pg * 4096 + 0x20) v = none := by
    rw [State.judge_lock hp hr hg hw h1 h2, if_neg]
    rcases hk with hk | hk <;> simp [hk]
  exact (State.command_accepted hu accepted).trans (State.applyWrite_head hp (by decide) rfl)

end lock

/-- Settles O11: the fields of the written word decide, by the judgement of LOCK. -/
theorem hostLockSetsAndClears : Obligations.HostLockSetsAndClears := by
  intro src page key s hu hr hg a hw
  refine ⟨congrArg Host.Outcome.next ?set, congrArg Host.Outcome.next ?unlock,
    fun hl hk => congrArg Host.Outcome.next ?refused⟩
  case set => exact State.command_lock page.isLt hr hg hw hu rfl rfl (.inl rfl)
  case unlock =>
    obtain ⟨cleared, -, low, high, unlock⟩ := pack_unlock_fields 0x4C4B
    rw [State.command_lock page.isLt hr hg hw hu low high (.inr unlock), cleared]
  case refused =>
    obtain ⟨-, bit, low, high, unlock⟩ := pack_unlock_fields key
    have wrong : key.toNat ≠ 0x4C4B := fun h => hk (BitVec.eq_of_toNat_eq h)
    refine State.command_refused hu ?_
    rw [State.judge_lock page.isLt hr hg hw low high, if_pos]
    simp [hl, bit, unlock, wrong]

end Sys2Proof.Machine

/-! PROOF. LRP requests on the host port (chapters 2 and 14): O21. -/

namespace Sys2Proof.Machine

/-! ### What a path reads of the state -/

/-- A valid frame for the silence deadline leaves the host port as it is. -/
@[simp] theorem State.silFrame_host (s : State) : s.silFrame.host = s.host :=
  (State.silFrame_only (pt := { sil := true }) rfl (Only.refl _ _)).host.resolve_left (by decide)

/-- The source of a path rests on the host port alone. -/
theorem State.viaSrc_of_host {s t : State} (h : t.host = s.host) (via : Via) : t.viaSrc via = s.viaSrc via := by
  cases via <;> simp [State.viaSrc, State.sess, h]

/-- So does the last executed request of a path. -/
theorem State.lastOf_of_host {s t : State} (h : t.host = s.host) (via : Via) : t.lastOf via = s.lastOf via := by
  cases via <;> simp [State.lastOf, State.sess, h]

/-- A request counts as a host frame for the silence deadline, apart from one on SPI without SPI_OPEN (R257, R268). -/
def State.heard (s : State) (via : Via) : State := if via = .spi ∧ s.rb hostCfg 1 = false then s else s.silFrame

@[simp] theorem State.heard_host (s : State) (via : Via) : (s.heard via).host = s.host := by
  unfold State.heard
  split
  · rfl
  · exact s.silFrame_host

/-- A request waits for the next period, M8 having used up its budget (R263, R273). -/
def State.waitFor (s : State) (via : Via) (q : List Byte) : State :=
  ({ s with host := { s.host with waiting := s.host.waiting ++ [(via, q)] } } : State).overrun8

/-! ### From a request to its execution (R263, R268) -/

theorem lrpSound_length {q : List Byte} (hs : lrpSound q = true) : q.length = lrpLength q := by
  simp only [lrpSound, Bool.and_eq_true, beq_iff_eq] at hs
  obtain ⟨⟨length, -⟩, -⟩ := hs
  exact length

section request
variable {s : State} {via : Via} {src : Src} {q : List Byte} (hu : s.up_ = true) (hv : s.viaSrc via = some src)
  (hq : lrpValid q = true) (hs : lrpSound q = true)
include hu hv hq hs

/-- A sound request on a path that stands for a source is admitted, but for those that SPI without SPI_OPEN refuses. -/
theorem State.lrpRequest_sound : s.lrpRequest via q =
    if via = .spi ∧ s.rb hostCfg 1 = false ∧ lrpOp q ≠ 3 then s.authFail.lrpSend via (lrpAnswer q 5 0 [])
    else (s.heard via).lrpAdmit via q := by
  have whole : (if via = .spi then q.take (lrpLength q) else q) = q := by
    rw [← lrpSound_length hs, List.take_length, ite_self]
  unfold State.lrpRequest State.heard
  simp [hu, hv, whole, hq, hs]

/-- Without SPI_OPEN an unsessioned request other than OPEN is refused (R268), with AUTH_FAIL raised (log entry 41). -/
theorem State.lrpRequest_shut (h : via = .spi ∧ s.rb hostCfg 1 = false ∧ lrpOp q ≠ 3) :
    s.lrpRequest via q = s.authFail.lrpSend .spi (lrpAnswer q 5 0 []) := by
  rw [State.lrpRequest_sound hu hv hq hs, if_pos h, h.1]

theorem State.lrpRequest_admits (h : ¬ (via = .spi ∧ s.rb hostCfg 1 = false ∧ lrpOp q ≠ 3)) :
    s.lrpRequest via q = (s.heard via).lrpAdmit via q := by
  rw [State.lrpRequest_sound hu hv hq hs, if_neg h]

end request

/-- A request identical to the last executed one is answered from the store. -/
theorem State.lrpAdmit_repeated {s : State} {via : Via} {q resp : List Byte} (h : s.lastOf via = some (q, resp)) :
    s.lrpAdmit via q = s.lrpSend via resp := by
  unfold State.lrpAdmit
  rw [h]
  exact if_pos rfl

/-- Any other is executed within the budget, and waits beyond it. -/
theorem State.lrpAdmit_fresh {s : State} {via : Via} {q : List Byte} (h : ∀ p, s.lastOf via = some p → p.1 ≠ q) :
    s.lrpAdmit via q = if lrpCharge q ≤ s.host.budget then s.lrpExecute via q else s.waitFor via q := by
  unfold State.lrpAdmit
  cases hl : s.lastOf via with
  | none => rfl
  | some p => exact if_neg (h p hl)

/-! ### The execution of each OP (Table 14.1) -/

section execute
variable {s : State} {via : Via} {src : Src} {q : List Byte} (hv : s.viaSrc via = some src)
include hv

/-- READ answers with the words read up to the first refused one. -/
theorem State.lrpExecute_read {l : List Word} {c : Nat} (h : lrpOp q = 1)
    (hr : (s.charge (lrpCharge q)).readWords src (lrpCount q) (lrpAddr q) = (l, c)) : s.lrpExecute via q =
      ((s.charge (lrpCharge q)).burstStop src (lrpAddr q) l.length (lrpCount q) c false).lrpRespond via q
        (lrpAnswer q c l.length (l.flatMap wordLe)) := by
  simp only [State.lrpExecute, hv, h, hr]

/-- WRITE goes on at its tick. -/
theorem State.lrpExecute_write_waits {u : State} (h : lrpOp q = 2)
    (hw : (s.charge (lrpCharge q)).writeWords via q src (lrpAddr q) (lrpWords q) 0 = (u, none)) :
    s.lrpExecute via q = u := by
  simp only [State.lrpExecute, hv, h, hw]

/-- WRITE answers with the words written up to the first refused one (R32). -/
theorem State.lrpExecute_write_ends {u : State} {done c : Nat} (h : lrpOp q = 2)
    (hw : (s.charge (lrpCharge q)).writeWords via q src (lrpAddr q) (lrpWords q) 0 = (u, some (done, c))) :
    s.lrpExecute via q = u.writeEnded via q src done c := by
  simp only [State.lrpExecute, hv, h, hw]

theorem State.lrpExecute_open (h : lrpOp q = 3) : s.lrpExecute via q = s.openNow via q := by
  simp only [State.lrpExecute, hv, h]

theorem State.lrpExecute_nop (h : lrpOp q = 5) :
    s.lrpExecute via q = (s.charge (lrpCharge q)).lrpRespond via q (lrpAnswer q 0 0 []) := by
  simp only [State.lrpExecute, hv, h]

end execute

/-- CLOSE on unsessioned SPI ends nothing. -/
theorem State.lrpExecute_close_spi {s : State} {q : List Byte} (h : lrpOp q = 4) :
    s.lrpExecute .spi q = (s.charge (lrpCharge q)).lrpRespond .spi q (lrpAnswer q 0 0 []) := by
  simp only [State.lrpExecute, State.viaSrc, h]

/-- CLOSE in a session is answered before the session ends. -/
theorem State.lrpExecute_close_session {s : State} {i : Nat} {src : Src} {q : List Byte}
    (hv : s.viaSrc (.session i) = some src) (h : lrpOp q = 4) : s.lrpExecute (.session i) q =
      ((s.charge (lrpCharge q)).lrpRespond (.session i) q (lrpAnswer q 0 0 [])).sessEnd i := by
  simp only [State.lrpExecute, hv, h]

/-- OPEN is charged as one word. -/
theorem lrpCharge_open {q : List Byte} (h : lrpOp q = 3) : lrpCharge q = 4 := by
  simp only [lrpCharge, h]

/-! ### The rows of the requests -/

/-- The row that stands for a request of valid OP. -/
def LrpRow (via : Via) (q : List Byte) (c : Instr) : Prop :=
  (lrpOp q = 1 ∧ c = .lrpRead via q) ∨ (lrpOp q = 2 ∧ c = .lrpWrite via q) ∨
    (lrpOp q = 3 ∧ via = .spi ∧ c = .lrpOpen 0 q) ∨ (lrpOp q = 4 ∧ c = .lrpClose via q) ∨
    (lrpOp q = 5 ∧ c = .lrpNop via q)

/-- The OP of a row's request is valid. -/
theorem LrpRow.valid {via : Via} {q : List Byte} {c : Instr} (h : LrpRow via q c) : lrpValid q = true := by
  rcases h with h | h | h | h | h <;> simp [lrpValid, h.1]

/-- A row hands its request to the host port. -/
theorem LrpRow.exec_eq {via : Via} {q : List Byte} {c : Instr} (h : LrpRow via q c) (s : State) :
    exec c s = .next (s.lrpRequest via q) := by
  rcases h with ⟨op, rfl⟩ | ⟨op, rfl⟩ | ⟨op, rfl, rfl⟩ | ⟨op, rfl⟩ | ⟨op, rfl⟩
  · exact congrArg Host.Outcome.next (if_pos op)
  · exact congrArg Host.Outcome.next (if_pos op)
  · exact congrArg Host.Outcome.next ((if_neg (by omega)).trans (if_pos rfl))
  · exact congrArg Host.Outcome.next (if_pos op)
  · exact congrArg Host.Outcome.next (if_pos op)

section row
variable {s : State} {via : Via} {src : Src} {q : List Byte} {c : Instr} (hc : LrpRow via q c) (hu : s.up_ = true)
  (hv : s.viaSrc via = some src) (hs : lrpSound q = true)
include hc hu hv hs

theorem LrpRow.exec_shut (h : via = .spi ∧ s.rb hostCfg 1 = false ∧ lrpOp q ≠ 3) :
    exec c s = .next (s.authFail.lrpSend .spi (lrpAnswer q 5 0 [])) := by
  rw [hc.exec_eq, State.lrpRequest_shut hu hv hc.valid hs h]

variable (ho : ¬ (via = .spi ∧ s.rb hostCfg 1 = false ∧ lrpOp q ≠ 3))
include ho

theorem LrpRow.exec_repeated {resp : List Byte} (h : s.lastOf via = some (q, resp)) :
    exec c s = .next ((s.heard via).lrpSend via resp) := by
  have stored : (s.heard via).lastOf via = some (q, resp) := (State.lastOf_of_host (s.heard_host via) via).trans h
  rw [hc.exec_eq, State.lrpRequest_admits hu hv hc.valid hs ho, State.lrpAdmit_repeated stored]

/-- A request that repeats nothing is executed within the budget, and waits beyond it. -/
theorem LrpRow.exec_fresh (hf : ∀ p, s.lastOf via = some p → p.1 ≠ q) : exec c s =
    .next (if lrpCharge q ≤ s.host.budget then (s.heard via).lrpExecute via q else (s.heard via).waitFor via q) := by
  have unlike : ∀ p, (s.heard via).lastOf via = some p → p.1 ≠ q := by
    rw [State.lastOf_of_host (s.heard_host via)]
    exact hf
  rw [hc.exec_eq, State.lrpRequest_admits hu hv hc.valid hs ho, State.lrpAdmit_fresh unlike, s.heard_host via]

end row

/-! ### An OPEN in plain form on an Ethernet port (R266, R270) -/

section plain
variable {s : State} {port : Nat} {q : List Byte} (hu : s.up_ = true) (h1 : 1 ≤ port) (h3 : port ≤ 3) (hop : lrpOp q = 3)
include hu h1 h3 hop

theorem exec_lrpOpen_unsound (hs : lrpSound q = false) :
    exec (.lrpOpen port q) s = .next (s.lrpFault (.plain port []) q false) := by
  refine congrArg Host.Outcome.next ((if_neg (by omega)).trans ((if_neg (by omega)).trans ?_))
  simp [State.ethOpen, hu, hs, Nat.sub_add_cancel h1]

/-- It is executed within the budget and waits beyond it; no last request is kept on its path (log entry 235). -/
theorem exec_lrpOpen_sound (hs : lrpSound q = true) : exec (.lrpOpen port q) s =
    .next (if 4 ≤ s.host.budget then s.openNow (.plain port []) q else s.waitFor (.plain port []) q) := by
  have admits : s.ethOpen (port - 1) [] q = s.lrpAdmit (.plain port []) q := by
    simp [State.ethOpen, hu, hs, Nat.sub_add_cancel h1]
  have opens : s.lrpExecute (.plain port []) q = s.openNow (.plain port []) q := if_pos hop
  refine congrArg Host.Outcome.next ((if_neg (by omega)).trans ((if_neg (by omega)).trans ?_))
  rw [admits, State.lrpAdmit_fresh (by simp [State.lastOf]), lrpCharge_open hop, opens]

end plain

/-- Settles O21. That a refused request on SPI raises AUTH_FAIL (log entry 41), and that a plain OPEN over Ethernet waits for
the budget and is never stored (log entry 235), are the model's choices. -/
theorem lrpRequestsExecute : Obligations.LrpRequestsExecute := by
  intro via src q s hu heard t shut fresh
  refine ⟨fun hv hs => ⟨fun c (hc : LrpRow via q c) => ?answers, fun ho hf hb => ?executes⟩,
    fun port h1 h3 hop => ?plain, ?otherOp⟩
  case answers =>
    refine ⟨hc.exec_shut hu hv hs, fun resp ho => hc.exec_repeated hu hv hs ho, fun ho hf hb => ?_⟩
    rw [hc.exec_fresh hu hv hs ho hf, if_neg (by omega)]
    rfl
  case executes =>
    have source : heard.viaSrc via = some src := (State.viaSrc_of_host (s.heard_host via) via).trans hv
    have runs {c} (hc : LrpRow via q c) : exec c s = .next (heard.lrpExecute via q) := by
      rw [hc.exec_fresh hu hv hs ho hf, if_pos hb]
      rfl
    refine ⟨fun l c op hr => ?read, fun u op hw => ?writeWaits, fun u done c op hw => ?writeEnds, fun op hvia => ?opens,
      fun op hvia => ?closeSpi, fun i op hvia => ?closeSession, fun op => ?nop⟩
    case read =>
      rw [runs (.inl ⟨op, rfl⟩), State.lrpExecute_read source op hr]
    case writeWaits =>
      rw [runs (.inr (.inl ⟨op, rfl⟩)), State.lrpExecute_write_waits source op hw]
    case writeEnds =>
      rw [runs (.inr (.inl ⟨op, rfl⟩)), State.lrpExecute_write_ends source op hw]
    case opens =>
      subst hvia
      rw [runs (.inr (.inr (.inl ⟨op, rfl, rfl⟩))), State.lrpExecute_open source op]
      simp only [t, lrpCharge_open op]
      rfl
    case closeSpi =>
      subst hvia
      rw [runs (.inr (.inr (.inr (.inl ⟨op, rfl⟩)))), State.lrpExecute_close_spi op]
    case closeSession =>
      subst hvia
      rw [runs (.inr (.inr (.inr (.inl ⟨op, rfl⟩)))), State.lrpExecute_close_session source op]
    case nop =>
      rw [runs (.inr (.inr (.inr (.inr ⟨op, rfl⟩)))), State.lrpExecute_nop source op]
  case plain =>
    have sound := exec_lrpOpen_sound hu h1 h3 hop
    refine ⟨exec_lrpOpen_unsound hu h1 h3 hop, fun hs hb => ?_, fun hs hb => ?_⟩
    · rw [sound hs, if_neg (by omega)]
      rfl
    · rw [sound hs, if_pos hb]
      rfl
  case otherOp =>
    exact ⟨fun h => congrArg _ (if_neg h), fun h => congrArg _ (if_neg h), fun _ h => congrArg _ (if_pos (.inl h)),
      fun h => congrArg _ (if_neg h), fun h => congrArg _ (if_neg h)⟩

end Sys2Proof.Machine

/-! PROOF. Shaft position and load weighing (chapter 3): O28, O29, O30 and O31. -/

namespace Sys2Proof.Machine

/-! ### Door-zone channels -/

@[simp] theorem State.setDz_dz (s : State) (c : Chan) (d : DzCh) : (s.setDz c d).dz c = d := by cases c <;> rfl

@[simp] theorem State.setDz_setDz (s : State) (c : Chan) (d e : DzCh) : (s.setDz c d).setDz c e = s.setDz c e := by
  cases c <;> rfl

/-- What Electrum judges of a wiring fault leaves the channels of POS. -/
@[simp] theorem State.elWire_dz (s : State) (c : Chan) (on : Bool) (e : Chan) : (s.elWire c on).dz e = s.dz e := by
  cases e <;> rfl

/-! ### A source is lost (Table 3.5, R36) -/

theorem exec_srTimeout {s : State} (hl : s.live = true) : exec .srTimeout s = .next s.srTimeout :=
  congrArg Host.Outcome.next (if_pos hl)

/-- No source but ENC1 asks for a trip. -/
theorem State.sourceLost_no_trip (s : State) {i : PosSrc} (hi : i ≠ .enc1) :
    let t := (s.setSrc i .lost).raise pgPos 2
    s.sourceLost i = (t.fire 2 t.posSrcW).posNote := if_neg hi

section silent
variable {s : State} (hs : s.pos.sr.lastAt + 2000000 ≤ s.ns)
include hs

theorem State.srTimeout_valid (hv : s.pos.sr.st = .valid) : s.srTimeout = s.sourceLost .sr := by
  simp [State.srTimeout, hs, hv]

theorem State.srTimeout_probation (hp : s.pos.sr.st = .probation) :
    s.srTimeout = { s with pos := { s.pos with sr := s.pos.sr.probe s.ns } } := by
  simp [State.srTimeout, hs, hp]

end silent

theorem State.srTimeout_stays {s : State}
    (h : ¬ s.pos.sr.lastAt + 2000000 ≤ s.ns ∨ (s.pos.sr.st ≠ .valid ∧ s.pos.sr.st ≠ .probation)) : s.srTimeout = s := by
  unfold State.srTimeout
  rcases h with h | ⟨valid, probation⟩
  · exact if_neg h
  · refine ite_eq_right_iff.2 fun _ => ?_
    split
    · next hv => exact absurd hv valid
    · next hp => exact absurd hp probation
    · rfl

/-! ### A source comes back (R48, R51) -/

theorem exec_sourceReturn {s : State} (hl : s.live = true) (i : PosSrc) :
    exec (.sourceReturn i) s = .next (s.sourceReturn i).posNote := congrArg Host.Outcome.next (if_pos hl)

theorem State.sourceReturn_waits {s : State} {i : PosSrc} (h : s.probationPassed i = false) : s.sourceReturn i = s := by
  simp [State.sourceReturn, h]

theorem State.sourceReturn_back {s : State} {i : PosSrc} (hi : i ≠ .sr) (h : s.probationPassed i = true) :
    s.sourceReturn i = s.sourceBack i := by
  refine (if_neg (by simp [h])).trans ?_
  split
  · exact absurd rfl hi
  · rfl

/-- The reader establishes the absolute reference; p is taken from it where it is the first, or its mean offset was large. -/
theorem State.sourceReturn_reader {s : State} (h : s.probationPassed .sr = true) :
    let t := ((s.setSrc .sr .valid).raise pgPos 3).posNote
    s.sourceReturn .sr = (if s.srSmall = false ∨ s.pos.abs = false then t.takeReader (!s.srSmall) else t).setAbs := by
  simp [State.sourceReturn, State.sourceBack, h]

/-! ### Wiring faults of X14 and X15 (R52) -/

/-- The source that a door-zone channel is. -/
def zoneSrc (c : Chan) : PosSrc := if c = .a then .dza else .dzb

theorem zoneSrc_ne_enc1 (c : Chan) : zoneSrc c ≠ .enc1 := by cases c <;> decide

theorem exec_dzWiringFault {s : State} (hl : s.live = true) (c : Chan) :
    exec (.dzWiringFault c) s = .next ((s.elWire c true).dzFault c) := by
  refine congrArg Host.Outcome.next ?_
  rw [if_pos (State.live_up hl)]
  exact if_pos hl

theorem exec_dzWiringFaultEnd {s : State} (hl : s.live = true) (c : Chan) :
    exec (.dzWiringFaultEnd c) s = .next ((s.elWire c false).dzFaultEnd c) := by
  refine congrArg Host.Outcome.next ?_
  rw [if_pos (State.live_up hl)]
  exact if_pos hl

section wiring
variable (s : State) {c : Chan}

theorem State.dzFault_marks (h : (s.dz c).st = .absent ∨ (s.dz c).st = .lost) :
    s.dzFault c = s.setDz c { s.dz c with wiring := true } := by
  unfold State.dzFault
  rcases h with h | h <;> simp [h]

theorem State.dzFault_probation (h : (s.dz c).st = .probation) : s.dzFault c =
    s.setDz c { ({ s.dz c with wiring := true } : DzCh).probe with st := .lost, lostByWiring := true } := by
  simp [State.dzFault, h]

theorem State.dzFault_valid (h : (s.dz c).st = .valid) :
    let t := (s.setDz c { s.dz c with wiring := true }).sourceLost (zoneSrc c)
    s.dzFault c = t.setDz c { t.dz c with lostByWiring := true } := by
  simp [State.dzFault, h, zoneSrc]

/-- The end of a fault that lost the channel starts its probation; any other only clears the mark. -/
theorem State.dzFaultEnd_eq : s.dzFaultEnd c = s.setDz c
    (if (s.dz c).st = .lost ∧ (s.dz c).lostByWiring = true then ({ s.dz c with wiring := false } : DzCh).probe
      else { s.dz c with wiring := false }) := rfl

end wiring

/-- Settles O28: each row by the lemma of its operation. That a wiring fault loses a channel in probation, which begins anew
when the fault ends (log entry 196), and that p is taken from the reader with ABS clear (log entry 56), are the model's
choices. -/
theorem sourcesAreLostAndReturn : Obligations.SourcesAreLostAndReturn := by
  intro s hl silent
  refine ⟨fun hs hv => ?lost, fun hs hp => ?restarts, fun h => ?stays, fun i h => ?waits, fun h => ?enc1, fun h => ?enc2,
    fun h => ?reader, fun i hi h => ?plain, fun c => ?fault, fun c h => ?ends, fun c hst hw => ?endsLost⟩
  case lost => rw [exec_srTimeout hl, State.srTimeout_valid hs hv, State.sourceLost_no_trip s (by decide)]
  case restarts => rw [exec_srTimeout hl, State.srTimeout_probation hs hp]
  case stays => rw [exec_srTimeout hl, State.srTimeout_stays h]
  case waits => rw [exec_sourceReturn hl, State.sourceReturn_waits h]
  case enc1 =>
    rw [exec_sourceReturn hl, State.sourceReturn_back (by decide) h]
    rfl
  case enc2 =>
    rw [exec_sourceReturn hl, State.sourceReturn_back (by decide) h]
    rfl
  case reader => rw [exec_sourceReturn hl, State.sourceReturn_reader h]
  case plain =>
    rw [exec_sourceReturn hl]
    rcases hi with rfl | rfl | rfl | rfl <;> rw [State.sourceReturn_back (by decide) h] <;> rfl
  case fault =>
    intro i marked lost told
    have zone : (s.elWire c true).dz c = s.dz c := State.elWire_dz ..
    refine ⟨fun h => ?_, fun h => ?_, fun h => ?_⟩ <;> rw [exec_dzWiringFault hl] <;> rw [← zone] at h
    · rw [State.dzFault_marks _ h, zone]
    · rw [State.dzFault_probation _ h, zone, State.setDz_setDz]
    · rw [State.dzFault_valid _ h, State.sourceLost_no_trip _ (zoneSrc_ne_enc1 c), zone]
      rfl
  case ends =>
    rw [exec_dzWiringFaultEnd hl, State.dzFaultEnd_eq, State.elWire_dz, if_neg]
    rintro ⟨hst, hw⟩
    rcases h with h | h
    exacts [h hst, by simp [h] at hw]
  case endsLost => rw [exec_dzWiringFaultEnd hl, State.dzFaultEnd_eq, State.elWire_dz, if_pos ⟨hst, hw⟩]

/-! ### Door-zone edges (R40, R48, R53, R90) -/

/-- Only a search of a correction run outside band 0 takes a capture edge, and a channel takes one. -/
theorem State.homeEdge_stays {s : State} {c : Chan} (rising : Bool) (us : Nat)
    (h : s.mot.phase ≠ .special ∨ s.mot.hstep ≠ .search ∨ s.pos.band = 0 ∨ (s.dz c).capture ≠ none) :
    s.homeEdge c rising us = s := by
  unfold State.homeEdge
  refine if_neg ?_
  rintro ⟨phase, step, -, band, -, free⟩
  rcases h with h | h | h | h
  exacts [h phase, h step, band h, h (Option.isNone_iff_eq_none.1 free)]

/-- A channel sees an edge: its level, the edge kept where the channel is in use, and a LOST one's first starts its
probation; that this edge is kept too is the model's choice (log entry 55). -/
theorem State.dzEdgeSeen_eq (s : State) (c : Chan) (rising : Bool) (us : Nat) :
    let d : DzCh := { s.dz c with active := rising }
    let k : DzCh := { d with edges := (s.dz c).edges ++ [(rising, us)] }
    s.dzEdgeSeen c rising us = s.setDz c (if (s.dz c).st = .absent ∨ s.posRun = false then d
      else if (s.dz c).st = .lost ∧ (s.dz c).wiring = false then k.probe else k) := by
  intro d k
  unfold State.dzEdgeSeen
  by_cases unused : (s.dz c).st = .absent ∨ s.posRun = false
  · rw [if_pos unused, if_pos (by simpa using unused)]
  · rw [if_neg unused, if_neg (by simpa using unused)]
    simp [d, k]

theorem exec_dzEdge {s : State} (hl : s.live = true) (c : Chan) (rising : Bool) (us : Nat) :
    let t := (s.homeEdge c rising us).dzEdgeSeen c rising us
    exec (.dzEdge c rising us) s =
      .next (if rising = true ∧ t.pos.band = 0 ∧ t.posRun = true ∧ t.pos.abs = false then t.absFromZone.posNote else t) := by
  intro t
  refine congrArg Host.Outcome.next ((if_pos hl).trans ?_)
  simp [State.dzEdgeNow, t]

/-! ### The encoders disagree (R50) -/

theorem exec_encDisagree_latches {s : State} (hl : s.live = true) (ht : 160 ≤ s.pos.diffTicks)
    (hd : s.pos.encDisagree = false) : exec .encDisagree s = .next s.encDisagreeNow :=
  congrArg Host.Outcome.next (if_pos ⟨hl, ht, by simp [hd]⟩)

theorem exec_encDisagree_stays {s : State} (h : s.pos.diffTicks < 160 ∨ s.pos.encDisagree = true) :
    exec .encDisagree s = .next s := by
  refine congrArg Host.Outcome.next (if_neg ?_)
  rintro ⟨-, ht, hd⟩
  rcases h with h | h
  · omega
  · simp [h] at hd

/-! ### Traction (R56, R57) -/

/-- TRACTION is due: by a step, or by the time of too fast a slip under a VALID reader (R56). -/
def State.TractionDue (s : State) : Prop := s.pos.tractStep = true ∨
  (s.pos.sr.st = .valid ∧ s.rn posTractTimeMs * 16 ≤ s.pos.tractTicks ∧ 0 < s.pos.tractTicks)

theorem State.tractionLatch_latches {s : State} (hd : s.TractionDue) (ht : s.pos.traction = false) :
    let t := ({ s with pos := { s.pos with traction := true, tractStep := false } } : State).raise pgPos 4
    let held := (t.fire 4 (wordI t.pos.slipRate)).motHoldNow
    s.tractionLatch = held.oosChange held.sch.oosHost true held.sch.oosSafe := by
  refine if_pos ⟨?_, by simp [ht]⟩
  simpa [State.TractionDue, and_assoc] using hd

theorem State.tractionLatch_stays {s : State} (h : ¬ s.TractionDue ∨ s.pos.traction = true) : s.tractionLatch = s := by
  refine if_neg ?_
  rintro ⟨hd, ht⟩
  rcases h with h | h
  · exact h (by simpa [State.TractionDue, and_assoc] using hd)
  · simp [h] at ht

/-- Settles O29: each row by the lemma of its operation. That the edge which starts a probation is kept too is the model's
choice (log entry 55). -/
theorem zoneEdgesAndDisagreements : Obligations.ZoneEdgesAndDisagreements := by
  intro s hl
  refine ⟨fun c rising us => ?edge, fun ht hd => exec_encDisagree_latches hl ht hd, fun h => exec_encDisagree_stays h,
    fun ht => ?clears, fun ht => ?clearsNot, ?traction⟩
  case edge =>
    intro t d k seen first
    have shown : t.dzEdgeSeen c rising us = seen := State.dzEdgeSeen_eq ..
    have answer := exec_dzEdge hl c rising us
    refine ⟨State.homeEdge_stays rising us, fun hf => ?_, fun hf => ?_⟩ <;> rw [answer, shown]
    · rw [if_pos hf]
    · rw [if_neg hf]
  case clears => exact congrArg Host.Outcome.next (if_pos ⟨hl, ht⟩)
  case clearsNot => exact congrArg Host.Outcome.next (if_neg fun h => by omega)
  case traction =>
    intro due t held
    have answer : exec .traction s = .next s.tractionLatch := congrArg Host.Outcome.next (if_pos hl)
    refine ⟨fun hd ht => ?_, fun h => ?_⟩
    · rw [answer, State.tractionLatch_latches hd ht]
    · rw [answer, State.tractionLatch_stays h]

/-! ### POS_CMD and POS_CTRL (R57, R61, R63) -/

/-- An accepted write to POS_CMD does what its bits ask for. -/
theorem State.command_posCmd {s : State} {src : Src} {v : Word} (hu : s.up_ = true) (hj : s.judge src posCmd v = none) :
    s.command src posCmd v =
      let s1 := if Word.bit v 0 then s.biasCalStart else s
      let s2 := if Word.bit v 1 then s1.srReacq else s1
      let s3 := if Word.bit v 2 then s2.clrTract else s2
      if Word.bit v 3 then s3.kappaReset else s3 := by
  obtain ⟨r, hr⟩ : ∃ r, regAt posCmd = some r := ⟨_, rfl⟩
  exact State.command_page hu hj (by decide) rfl hr

/-- A word with its bit 0 cleared. -/
theorem Word.bit_setBits_zero (w : Word) : Word.bit (Word.setBits w 0 1 0) 0 = false := by
  have wide : w.toNat < 2 ^ 32 := w.isLt
  simp only [Word.bit, Word.setBits, Word.bits, BitVec.toNat_ofNat, Nat.shiftRight_zero, Nat.shiftLeft_zero,
    Nat.testBit_zero, decide_eq_false_iff_not]
  omega

/-- An accepted write to POS_CTRL that clears RUN stops POS. -/
theorem State.command_posCtrl_stops {s : State} {src : Src} {v : Word} (hu : s.up_ = true)
    (hj : s.judge src posCtrl v = none) (hr : s.posRun = true) (hv : Word.bit v 0 = false) :
    ∃ w, s.command src posCtrl v = (s.wr posCtrl w).posStop := by
  obtain ⟨r, hreg⟩ : ∃ r, regAt posCtrl = some r := ⟨_, rfl⟩
  refine ⟨_, (State.command_page hu hj (by decide) rfl hreg).trans (if_pos ?_)⟩
  simp [hr, hv]

@[simp] theorem State.posNote_pos (s : State) : s.posNote.pos = { s.pos with validWas := s.posValid } := by
  unfold State.posNote
  split
  · next h => rw [h]
  · rfl

/-- POS stopped: no absolute reference, no calibration, and no source observed (R63). -/
theorem State.posStop_stops (s : State) : s.posStop.pos.abs = false ∧ s.posStop.pos.cal = none ∧
    ∀ i, s.posStop.pos.watch i = .absent := by
  unfold State.posStop
  rw [State.posNote_pos]
  exact ⟨rfl, rfl, fun i => by cases i <;> rfl⟩

theorem State.srReacq_calm {s : State} (h : s.pos.sr.conflict = false) : s.srReacq =
    ({ s with el := { s.el with a := s.el.a.reacq, b := s.el.b.reacq } } : State).wf_ posSrInfo 24 8 0 :=
  if_neg (by simp [h])

/-- A conflict clears with a new probation. -/
theorem State.srReacq_conflict {s : State} (h : s.pos.sr.conflict = true) :
    let t := ({ s with el := { s.el with a := s.el.a.reacq, b := s.el.b.reacq } } : State).wf_ posSrInfo 24 8 0
    s.srReacq = { t with pos := { t.pos with sr := { (t.pos.sr.probe t.ns) with conflict := false } } } := if_pos h

theorem ElCh.reacq_calm {c : ElCh} (h : c.srConflict = false) : c.reacq = c := if_neg (by simp [h])

theorem ElCh.reacq_conflict {c : ElCh} (h : c.srConflict = true) :
    c.reacq = { c with srConflict := false, srSt := .probation, srProb := none } := if_pos h

/-- BIAS_CAL_DONE with a calibration in hand. -/
theorem exec_biasCalDone_running {s : State} {n : Nat} {sum : Int} (hc : s.pos.cal = some (n, sum)) :
    exec .biasCalDone s = .next (if s.live = true ∧ 16000 ≤ n then s.biasCalEnd sum else s) := by
  refine congrArg Host.Outcome.next ?_
  rw [hc]

theorem exec_biasCalDone_idle {s : State} (hc : s.pos.cal = none) : exec .biasCalDone s = .next s := by
  refine congrArg Host.Outcome.next ?_
  rw [hc]

/-- Settles O30: each row by what its operation or its accepted register write does. That SR_REACQ clears the conflict of each
Electrum channel with its own probation (log entry 219), and that the mean truncates toward zero (log entry 61), are the
model's choices. -/
theorem positionCommands : Obligations.PositionCommands := by
  intro s hu
  refine ⟨fun src hj => congrArg _ (State.command_posCmd hu hj), fun n sum hl hc hn => ?calDone,
    fun n sum hc hn => ?calRuns, exec_biasCalDone_idle, fun src hj => ?reacq,
    fun src hj => congrArg _ (State.command_posCmd hu hj), fun src hj => congrArg _ (State.command_posCmd hu hj),
    fun src hj hr => ?stops, fun hp ht => ?saves, fun h => ?savesNot⟩
  case calDone =>
    rw [exec_biasCalDone_running hc, if_pos ⟨hl, hn⟩]
    rfl
  case calRuns => rw [exec_biasCalDone_running hc, if_neg (fun h => by omega)]
  case reacq =>
    have answer : exec (.srReacq src) s = .next s.srReacq := congrArg _ (State.command_posCmd hu hj)
    refine ⟨fun hc => ?_, fun hc => ?_, fun c => ElCh.reacq_calm, fun c => ElCh.reacq_conflict⟩
    · rw [answer, State.srReacq_calm hc]
    · rw [answer, State.srReacq_conflict hc]
  case stops =>
    obtain ⟨w, written⟩ := State.command_posCtrl_stops hu hj hr (Word.bit_setBits_zero _)
    obtain ⟨abs, cal, watch⟩ := (s.wr posCtrl w).posStop_stops
    exact ⟨_, congrArg Host.Outcome.next written, abs, cal, watch .enc1, watch .enc2, watch .sr, watch .dza, watch .dzb,
      watch .acc, watch .load, State.posStop_only rfl rfl rfl (State.wr_only rfl (Only.refl _ _) _ _)⟩
  case saves => exact congrArg Host.Outcome.next (if_pos (by simp [hu, hp, ht]))
  case savesNot =>
    refine congrArg Host.Outcome.next (if_neg ?_)
    rcases h with h | h <;> simp [h]

/-! ### The load weighing bridge (R64 to R66) -/

theorem exec_lwbConversion {s : State} (hl : s.live = true) (raw : Int) (ow exc ol : Bool) :
    exec (.lwbConversion raw ow exc ol) s = .next (s.lwbConvert raw ow exc ol) := congrArg Host.Outcome.next (if_pos hl)

/-- With EN set a conversion is filtered and counted, and joins a calibration in hand. -/
theorem State.lwbConvert_enabled {s : State} (he : s.rb lwbCtrl 0 = true) (raw : Int) (ow exc ol : Bool) :
    let load := min (max ((raw - s.ri lwbZero) * (s.rn lwbSpan : Int) / 16777216) 0) 65535
    let bad := ow || exc || ol
    s.lwbConvert raw ow exc ol = { s with lwb := { s.lwb with
      raw := raw, first := false, openWire := ow, exc := exc, overRange := ol
      y := if s.lwb.first then load else s.lwb.y + (load - s.lwb.y).tdiv (s.rn lwbFiltMs)
      faultConv := if bad then min (s.lwb.faultConv + 1) 50 else 0
      okConv := if bad then 0 else min (s.lwb.okConv + 1) 100
      cal := s.lwb.cal.map (fun x => if x.2.1 < 2000 then (x.1, x.2.1 + 1, x.2.2 + raw) else x) } } := by
  intro load bad
  unfold State.lwbConvert
  rw [if_neg (by simp [he])]
  cases hc : s.lwb.cal with
  | none =>
    simp only [hc]
    rfl
  | some x =>
    simp only [hc, Option.map_some, apply_ite some]
    rfl

/-- VALID changes with VALID_CHG (R65). -/
theorem State.lwbSetValid_changes {s : State} {v : Bool} (h : s.lwb.valid ≠ v) :
    s.lwbSetValid v = ({ s with lwb := { s.lwb with valid := v } } : State).raise pgLwb 1 := if_neg h

theorem State.lwbSetValid_same {s : State} {v : Bool} (h : s.lwb.valid = v) : s.lwbSetValid v = s := if_pos h

/-- An accepted write to LWB_CMD starts a calibration. -/
theorem State.command_lwbCmd {s : State} {src : Src} {v : Word} (hu : s.up_ = true) (hj : s.judge src lwbCmd v = none) :
    s.command src lwbCmd v =
      if Word.bit v 0 then s.lwbCalStart false else if Word.bit v 1 then s.lwbCalStart true else s := by
  obtain ⟨r, hr⟩ : ∃ r, regAt lwbCmd = some r := ⟨_, rfl⟩
  exact State.command_page hu hj (by decide) rfl hr

section calibration
variable {s : State} {sum : Int}

theorem State.lwbCalEnd_zero (hc : s.lwb.cal = some (false, 2000, sum)) : s.lwbCalEnd =
    ({ s.wi lwbZero (sum.tdiv 2000) with lwb := { s.lwb with cal := none, zeroStored := true } } : State).raise pgLwb 2 := by
  unfold State.lwbCalEnd
  rw [hc]
  rfl

/-- A span whose mean does not lie above zero is aborted. -/
theorem State.lwbCalEnd_abort (hc : s.lwb.cal = some (true, 2000, sum)) (hm : sum.tdiv 2000 ≤ s.ri lwbZero) :
    s.lwbCalEnd = ({ s with lwb := { s.lwb with cal := none } } : State).raise pgLwb 3 := by
  unfold State.lwbCalEnd
  rw [hc]
  have below : sum.tdiv 2000 - s.ri lwbZero ≤ 0 := by omega
  exact (if_neg Bool.false_ne_true).trans (if_pos below)

theorem State.lwbCalEnd_span (hc : s.lwb.cal = some (true, 2000, sum)) (hm : s.ri lwbZero < sum.tdiv 2000) :
    let v := ((s.rn lwbCalKg : Int) * 16777216).tdiv (sum.tdiv 2000 - s.ri lwbZero)
    s.lwbCalEnd = ({ s.wr lwbSpan (if v < 4294967296 then wordI v else Config.outOfRange v) with
      lwb := { s.lwb with cal := none, spanStored := true } } : State).raise pgLwb 2 := by
  intro v
  unfold State.lwbCalEnd
  rw [hc]
  have above : ¬ sum.tdiv 2000 - s.ri lwbZero ≤ 0 := by omega
  exact (if_neg Bool.false_ne_true).trans (if_neg above)

theorem State.lwbCalEnd_runs (h : ∀ k sum, s.lwb.cal ≠ some (k, 2000, sum)) : s.lwbCalEnd = s := by
  unfold State.lwbCalEnd
  split
  · next k sum hc => exact absurd hc (h k sum)
  · rfl

end calibration

/-- Settles O31: each row by the lemma of its operation. That good conversions count while UNCAL is 1 (log entry 197), that
the means truncate toward zero (log entry 61), and the free value of a quotient too wide for its register (log entry 190)
are the model's choices. -/
theorem loadWeighingCommands : Obligations.LoadWeighingCommands := by
  intro s hl
  have hu := State.live_up hl
  have calEnd : exec .lwbCalDone s = .next s.lwbCalEnd := congrArg Host.Outcome.next (if_pos hl)
  have clears (h : 50 ≤ s.lwb.faultConv ∨ s.lwb.uncal = true) : exec .lwbValidClear s = .next (s.lwbSetValid false) :=
    congrArg Host.Outcome.next (if_pos ⟨hl, h⟩)
  refine ⟨fun raw ow exc ol he => ?off, fun raw ow exc ol he => ?converts, fun hv h => ?clear, fun h => ?clearNot,
    fun hv he hn hc => ?set, fun h => ?setNot, fun src hj => ?zero, fun src hj => ?span, fun sum hc => ?zeroDone,
    fun sum hc hm => ?abort, fun sum hc => ?spanDone, fun h => ?runs⟩
  case off =>
    rw [exec_lwbConversion hl]
    exact congrArg Host.Outcome.next (if_pos (by simp [he]))
  case converts =>
    intro load bad
    rw [exec_lwbConversion hl, State.lwbConvert_enabled he]
  case clear => rw [clears h, State.lwbSetValid_changes (by simp [hv])]
  case clearNot =>
    by_cases due : 50 ≤ s.lwb.faultConv ∨ s.lwb.uncal = true
    · have invalid : s.lwb.valid = false := h.resolve_right fun ⟨few, known⟩ =>
        due.elim (by omega) (by simp [known])
      rw [clears due, State.lwbSetValid_same invalid]
    · exact congrArg Host.Outcome.next (if_neg fun k => due k.2)
  case set =>
    have acts : exec .lwbValidSet s = .next (s.lwbSetValid true) :=
      congrArg Host.Outcome.next (if_pos ⟨hl, he, hn, by simp [hc]⟩)
    rw [acts, State.lwbSetValid_changes (by simp [hv])]
  case setNot =>
    refine congrArg Host.Outcome.next (ite_eq_right_iff.2 ?_)
    rintro ⟨-, he, hn, hc⟩
    refine State.lwbSetValid_same (h.resolve_right ?_)
    simp_all
  case zero => exact congrArg Host.Outcome.next (State.command_lwbCmd hu hj)
  case span => exact congrArg Host.Outcome.next (State.command_lwbCmd hu hj)
  case zeroDone => rw [calEnd, State.lwbCalEnd_zero hc]
  case abort => rw [calEnd, State.lwbCalEnd_abort hc hm]
  case spanDone =>
    intro v hm
    rw [calEnd, State.lwbCalEnd_span hc hm]
  case runs => rw [calEnd, State.lwbCalEnd_runs h]

end Sys2Proof.Machine

/-! PROOF. What the recorder stages, loses, flushes and saves (chapter 16): O55. -/

namespace Sys2Proof.Machine

/-! ### Staging a record (R305, R307, R309) -/

/-- A value put into an association list is found again. -/
theorem alook_aput {α : Type} (l : List (Nat × α)) (k : Nat) (v : α) : alook (aput l k v) k = some v := by
  induction l with
  | nil => simp [aput, alook]
  | cons x r ih =>
    obtain ⟨j, u⟩ := x
    unfold aput
    split
    · simp [alook]
    · split
      · simp [alook]
      · next hne =>
        rw [← ih]
        simp [alook, List.find?_cons_of_neg, Ne.symm hne]

/-- A record has taken the next SEQ: `q` after `r`. -/
def Rec.Staged (r q : Rec) : Prop :=
  q.seqNext = r.seqNext + 1 ∧ q.unwritten = r.unwritten ++ [r.seqNext] ∧ q.lostNew = 0

/-- A record of `source` has been lost and counted, the first one's source kept: `q` after `r`. -/
def Rec.Lost (r q : Rec) (source : Nat) : Prop := q.seqNext = r.seqNext ∧ q.unwritten = r.unwritten ∧
  q.places = r.places ∧ q.lostCnt = r.lostCnt + 1 ∧ q.lostNew = r.lostNew + 1 ∧
  q.lostSrc = if r.lostCnt = 0 then source else r.lostSrc

/-- A record with the present SEQ is staged, and its place holds it. -/
theorem State.putRcd_staged {s : State} {x : Rcd} (hx : x.seq = s.rcd.seqNext) :
    s.rcd.Staged (s.putRcd x).rcd ∧ alook (s.putRcd x).rcd.places (s.rcd.seqNext % 64) = some x := by
  rw [← hx]
  exact ⟨⟨rfl, congrArg (s.rcd.unwritten ++ [·]) hx, rfl⟩, alook_aput _ _ _⟩

section stage
variable {s : State} {typ : RecType} {source : Nat} {slot : Option Nat} {detail : Word} {snap : List Word} {flush : Bool}

/-- After the final save nothing is staged. -/
theorem State.stage_stopped (h : s.rcd.stopped = true) : s.stage typ source slot detail snap flush = s := if_pos h

/-- With 63 unwritten records held the next is lost. -/
theorem State.stage_lost (hs : s.rcd.stopped = false) (hf : 63 ≤ s.rcd.unwritten.length) :
    s.rcd.Lost (s.stage typ source slot detail snap flush).rcd source := by
  unfold State.stage
  rw [if_neg (by simp [hs]), if_pos hf]
  exact ⟨rfl, rfl, rfl, rfl, rfl, rfl⟩

variable (typ source slot detail snap flush)

/-- With room a record with the header fields of this moment is staged. -/
theorem State.stage_staged (hs : s.rcd.stopped = false) (hr : s.rcd.unwritten.length < 63) :
    let t := s.stage typ source slot detail snap flush
    s.rcd.Staged t.rcd ∧
      alook t.rcd.places (s.rcd.seqNext % 64) = some (s.mkRcd typ source slot detail snap flush) := by
  unfold State.stage
  rw [if_neg (by simp [hs]), if_neg (by omega)]
  exact State.putRcd_staged rfl

end stage

/-! ### REC_CMD and REC_RD_SEQ (R301, R308, R310, R311) -/

/-- An accepted write to REC_CMD does what its bits ask for. -/
theorem State.command_recCmd {s : State} {src : Src} {v : Word} (hu : s.up_ = true) (hj : s.judge src recCmd v = none) :
    s.command src recCmd v =
      let s1 := if Word.bit v 1 then s.wallSet else s
      let s2 := if Word.bit v 2 then s1.hostFire (Word.bits v 8 6) else s1
      let s3 := if Word.bit v 3 then s2.recCntClr else s2
      if Word.bit v 0 then s3.flushAsk else s3 := by
  obtain ⟨r, hr⟩ : ∃ r, regAt recCmd = some r := ⟨_, rfl⟩
  exact State.command_page hu hj (by decide) rfl hr

/-- The word of REC_FIRE asks for FIRE alone, with the slot's low 6 bits. -/
theorem pack_fire_fields (slot : Nat) :
    let v := pack [(2, 1, 1), (8, 6, slot)]
    Word.bit v 0 = false ∧ Word.bit v 1 = false ∧ Word.bit v 2 = true ∧ Word.bit v 3 = false ∧
      Word.bits v 8 6 = slot % 64 := by
  intro v
  have value : v.toNat = 4 + slot % 64 * 256 := by
    simp only [v, pack, wordN, List.foldl_cons, List.foldl_nil, Nat.shiftLeft_eq, BitVec.toNat_ofNat]
    omega
  simp only [Word.bit, Word.bits, value, Nat.shiftRight_eq_div_pow, Nat.testBit_eq_decide_div_mod_eq,
    decide_eq_false_iff_not, decide_eq_true_eq]
  omega

theorem exec_recWallSet {s : State} {src : Src} (hu : s.up_ = true) (hj : s.judge src recCmd 2 = none) :
    exec (.recWallSet src) s = .next s.wallSet := congrArg Host.Outcome.next (State.command_recCmd hu hj)

theorem exec_recFire {s : State} {src : Src} {slot : Nat} (hu : s.up_ = true)
    (hj : s.judge src recCmd (pack [(2, 1, 1), (8, 6, slot)]) = none) :
    exec (.recFire src slot) s = .next (s.hostFire (slot % 64)) := by
  obtain ⟨flush, wall, fire, clear, fired⟩ := pack_fire_fields slot
  refine congrArg Host.Outcome.next ((State.command_recCmd hu hj).trans ?_)
  simp [flush, wall, fire, clear, fired]

/-- An accepted write to REC_RD_SEQ is read at the next tick. -/
theorem State.command_recRdSeq {s : State} {src : Src} {q : Word} (hu : s.up_ = true)
    (hj : s.judge src recRdSeq q = none) : s.command src recRdSeq q = s.readAsk q := by
  obtain ⟨r, hr⟩ : ∃ r, regAt recRdSeq = some r := ⟨_, rfl⟩
  exact State.command_page hu hj (by decide) rfl hr

/-! ### The wall clock (R304, R310) -/

/-- The offset that WALL_SET stores: the wall time less OPTIME. -/
def State.wallSetOfs (s : State) : Int :=
  ((s.rn recWallLo + 4294967296 * s.rn recWallHi : Nat) : Int) - s.rcd.optime

/-- The wall clock is set, with its record still to stage. -/
def State.wallStored (s : State) : State :=
  { s with rcd := { s.rcd with wallValid := true, wallOfs := s.wallSetOfs, prevOfs := some s.wallSetOfs } }

/-- The words of the CLOCK_SET record: the new offset, and the one before or the mark of none. -/
def State.clockSnap (s : State) : List Word :=
  word64 s.wallSetOfs ++ (match s.rcd.prevOfs with
    | some o => word64 o
    | none => [0, 0x80000000])

theorem State.wallSet_stages (s : State) :
    s.wallSet = s.wallStored.stage .clockSet 0 none 0 s.clockSnap false := rfl

/-- What a stage makes of the wall clock's offsets: nothing. -/
theorem State.stage_wall (s : State) (typ : RecType) (source : Nat) (slot : Option Nat) (detail : Word)
    (snap : List Word) (flush : Bool) :
    let r := (s.stage typ source slot detail snap flush).rcd
    r.wallValid = s.rcd.wallValid ∧ r.wallOfs = s.rcd.wallOfs ∧ r.prevOfs = s.rcd.prevOfs := by
  unfold State.stage
  split
  · exact ⟨rfl, rfl, rfl⟩
  · split <;> exact ⟨rfl, rfl, rfl⟩

/-! ### The kept place, flushes and saves (R305, R307, R308, R309) -/

theorem State.stageLost_stays {s : State} (h : s.rcd.lostCnt = 0 ∨ s.rcd.stopped = true ∨ 64 ≤ s.rcd.unwritten.length) :
    s.stageLost = s := if_pos h

/-- The kept place takes the RECORDS_LOST record. -/
theorem State.stageLost_stages {s : State} (hc : s.rcd.lostCnt ≠ 0) (hs : s.rcd.stopped = false)
    (hr : s.rcd.unwritten.length < 64) :
    let t := s.putRcd { s.mkRcd .recordsLost s.rcd.lostSrc none 0 [] false with lost := s.rcd.lostCnt }
    s.stageLost = { t with rcd := { t.rcd with lostCnt := 0 } } := by
  refine if_neg ?_
  rintro (h | h | h)
  exacts [hc h, by simp [hs] at h, by omega]

theorem State.flushStart_starts {s : State} (hf : s.rcd.flushing = []) (hd : s.flushDue = true) : s.flushStart =
    { s with rcd := { s.rcd with flushing := s.rcd.unwritten, tries := 0, flushReq := false } } :=
  if_pos (by simp [hf, hd])

theorem State.flushStart_stays {s : State} (h : s.rcd.flushing ≠ [] ∨ s.flushDue = false) : s.flushStart = s := by
  refine if_neg ?_
  rcases h with h | h <;> simp [h]

/-- Storing the estimate leaves the recorder. -/
@[simp] theorem State.posSave_rcd (s : State) : s.posSave.rcd = s.rcd := by
  unfold State.posSave
  split <;> rfl

/-- The estimate is stored where the profile is valid (R55). -/
theorem State.posSave_sys (s : State) : s.posSave.sys.pfw = s.sys.pfw ∧ s.posSave.sys.posSaved =
    if s.sys.profValid then some (s.pos.p, s.pos.s, s.pos.kap, s.pos.b) else s.sys.posSaved := by
  unfold State.posSave
  split <;> exact ⟨rfl, rfl⟩

/-- Writing everything out touches the recorder and its counters alone. -/
theorem State.flushAll_parts (s : State) : Only { rf := true, irqNow := true, rcd := true } s s.flushAll :=
  State.flushAll_only rfl rfl rfl (Only.refl _ _)

/-- What the final save keeps: the counters as they are at its end, and the estimate; staging has ended while the warning
stands. -/
theorem State.finalSave_saves (s : State) :
    let t := s.finalSave
    t.rcd.stopped = s.sys.pfw.isSome ∧ t.rcd.finalAt = none ∧ t.rcd.savedOp = t.rcd.optime ∧
      t.rcd.savedSeq = t.rcd.seqNext ∧ t.sys.posSaved =
        (if s.sys.profValid then some (s.pos.p, s.pos.s, s.pos.kap, s.pos.b) else s.sys.posSaved) := by
  intro t
  have sys : s.flushAll.sys = s.sys := s.flushAll_parts.sys.resolve_left (by decide)
  have pos : s.flushAll.pos = s.pos := s.flushAll_parts.pos.resolve_left (by decide)
  obtain ⟨warning, estimate⟩ := s.flushAll.counterSave.posSave_sys
  have pfw : s.flushAll.counterSave.posSave.sys.pfw = s.sys.pfw := warning.trans (congrArg Sys.pfw sys)
  have saved : t.rcd = { s.flushAll.counterSave.rcd with finalAt := none, stopped := s.sys.pfw.isSome } := by
    simp [t, State.finalSave, pfw]
  rw [saved]
  refine ⟨rfl, rfl, rfl, rfl, ?_⟩
  rw [← sys, ← pos]
  exact estimate

theorem exec_finalSave {s : State} (hu : s.up_ = true) (hd : s.finalDue = true) : exec .finalSave s = .next s.finalSave :=
  congrArg Host.Outcome.next (if_pos ⟨hu, hd⟩)

/-- Settles O55: each row by the lemma of its operation. That the final save comes although LOGIC has recovered, and staging
then goes on, is the model's choice (log entry 231). -/
theorem recorderStagesAndKeeps : Obligations.RecorderStagesAndKeeps := by
  intro s hu r room few staged lost wallOfs
  have kept : exec .recordsLostStage s = .next s.stageLost := congrArg Host.Outcome.next (if_pos hu)
  have flush : exec .flushStart s = .next s.flushStart := congrArg Host.Outcome.next (if_pos hu)
  refine ⟨fun src hj => ?wall, fun src slot hj => ?fire, fun h => ?keptNot, fun hc hs hr => ?kept, fun hf hd => ?flush,
    fun h => ?flushNot, fun src hj => ?ask, fun src hj => ?clear, fun src q hj => ?read, fun ht => ?save,
    fun ht => ?saveNot, fun hd => ?final, fun hd => ?finalNot⟩
  case wall =>
    obtain ⟨valid, ofs, prev⟩ := s.wallStored.stage_wall .clockSet 0 none 0 s.clockSnap false
    refine ⟨s.wallSet, exec_recWallSet hu hj, valid, ofs, prev, State.wallSet_only rfl rfl rfl (Only.refl _ _), ?_⟩
    rw [State.wallSet_stages]
    refine ⟨fun ⟨hs, hr⟩ => ?_, fun hs hf => State.stage_lost (s := s.wallStored) hs hf, fun hs => ?_⟩
    · obtain ⟨taken, place⟩ := State.stage_staged (s := s.wallStored) .clockSet 0 none 0 s.clockSnap false hs hr
      exact ⟨taken, (congrArg (Option.map _) place).trans rfl⟩
    · rw [State.stage_stopped (s := s.wallStored) hs]
      rfl
  case fire =>
    have only : Only few s (s.hostFire (slot % 64)) := State.hostFire_only rfl rfl rfl (Only.refl _ _) _
    rw [exec_recFire hu hj]
    refine ⟨fun ⟨hs, hr⟩ => ⟨_, rfl, ?_⟩, fun hs hf => ⟨_, rfl, State.stage_lost hs hf, only⟩,
      fun hs => congrArg Host.Outcome.next (State.stage_stopped hs)⟩
    obtain ⟨taken, place⟩ := State.stage_staged .host 0 (some (slot % 64)) 0 [] false hs hr
    exact ⟨taken, (congrArg (Option.map _) place).trans rfl, only⟩
  case keptNot => rw [kept, State.stageLost_stays h]
  case kept =>
    have only : Only few s s.stageLost := State.stageLost_only rfl rfl rfl (Only.refl _ _)
    refine ⟨_, kept, ?_⟩
    rw [State.stageLost_stages hc hs hr] at only ⊢
    obtain ⟨taken, place⟩ := State.putRcd_staged (s := s)
      (x := { s.mkRcd .recordsLost s.rcd.lostSrc none 0 [] false with lost := s.rcd.lostCnt }) rfl
    refine ⟨rfl, taken, ?_, only⟩
    exact (congrArg (Option.map _) place).trans rfl
  case flush => rw [flush, State.flushStart_starts hf hd]
  case flushNot => rw [flush, State.flushStart_stays h]
  case ask => exact congrArg Host.Outcome.next (State.command_recCmd hu hj)
  case clear => exact congrArg Host.Outcome.next (State.command_recCmd hu hj)
  case read => exact congrArg Host.Outcome.next (State.command_recRdSeq hu hj)
  case save => exact congrArg Host.Outcome.next (if_pos ⟨hu, ht⟩)
  case saveNot => exact congrArg Host.Outcome.next (if_neg fun h => absurd h.2 (Nat.not_le.2 ht))
  case final =>
    obtain ⟨stopped, done, op, seq, estimate⟩ := s.finalSave_saves
    exact ⟨_, exec_finalSave hu hd, stopped, done, op, seq, estimate, State.finalSave_only rfl rfl rfl rfl (Only.refl _ _)⟩
  case finalNot => exact congrArg Host.Outcome.next (if_neg (by simp [hd]))

end Sys2Proof.Machine

/-! PROOF. Runs, their controlled stops and ends (chapter 4), and the steps of the drive sequence (R101): O32, O33 and
O36. -/

namespace Sys2Proof.Machine

/-! ### MOT at rest and DRV in OFF -/

/-- DRV in OFF asks for nothing; its latches stand. -/
@[simp] theorem State.drvOff_drv (s : State) : s.drvOff.drv = { s.drv with
    step := .off, energise := false, follow := false, liftReq := false, readyAt := none, stepAt := s.tick, ie := 0
    anNext := 0, pulses := 0 } := by
  simp [State.drvOff]

theorem State.motIdleNow_idle (s : State) : s.motIdleNow.mot.phase = .idle ∧ s.motIdleNow.mot.committed = false :=
  ⟨rfl, rfl⟩

/-! ### The steps of the drive sequence (R101) -/

section driveSequence
variable {s : State}

theorem State.readyTimeout_expires {t0 : Nat} (h0 : s.drv.readyAt = some t0) (hs : s.drv.step = .magnetise)
    (ht : s.since t0 (msTicks (s.rn drvReadyToMs)) = true) : s.readyTimeout =
      (({ s with drv := { s.drv with timeout := true } } : State).drvOff).raise pgDrv 4 := by
  unfold State.readyTimeout
  rw [h0]
  exact if_pos ⟨hs, ht⟩

theorem State.readyTimeout_waits (h : ¬ ∃ t0, s.drv.readyAt = some t0 ∧ s.drv.step = .magnetise ∧
    s.since t0 (msTicks (s.rn drvReadyToMs)) = true) : s.readyTimeout = s := by
  unfold State.readyTimeout
  split
  · rfl
  · next t0 h0 => exact if_neg fun due => h ⟨t0, h0, due⟩

/-- DRV in FOLLOW at the set-point in force (Table 6.1). -/
def State.drvFollows (s : State) : State :=
  { s with drv := { s.drv with step := .follow, stepAt := s.tick, follow := true, ie := 0, stepP0 := s.spPos, stepN := 0 } }

/-- Drive ready moves MOT alone. -/
theorem State.motReady_parts (s : State) : Only { mot := true } s s.motReady :=
  State.motReady_only rfl (Only.refl _ _)

theorem State.motReady_prep (h : s.mot.phase = .prep) :
    s.motReady.mot.phase = if s.mot.committed then .approach else .speed := by
  unfold State.motReady
  rw [h]
  rfl

theorem State.motReady_special (h : s.mot.phase = .special) :
    s.motReady.mot.phase = .special ∧ s.motReady.mot.moved = true := by
  unfold State.motReady
  rw [h]
  exact ⟨h, rfl⟩

/-- The applied brake moves MOT alone. -/
theorem State.motBrakeApplied_parts (s : State) : Only { mot := true } s s.motBrakeApplied :=
  State.motBrakeApplied_only rfl (Only.refl _ _)

theorem State.motBrakeApplied_landed (h : s.mot.phase = .landed) : s.motBrakeApplied = s.motIdleNow := by
  unfold State.motBrakeApplied
  rw [h]

/-- A controlled stop is held where a target or the horizon is kept. -/
theorem State.motBrakeApplied_holding (h : s.mot.phase = .holding) :
    s.motBrakeApplied.mot.phase = if s.mot.committed || s.mot.keptHorizon then .held else .idle := by
  unfold State.motBrakeApplied
  rw [h]
  dsimp only
  split <;> rfl

section live
variable (hl : s.live = true)
include hl

theorem exec_drvReadyTimeout : exec .drvReadyTimeout s = .next s.readyTimeout := congrArg Host.Outcome.next (if_pos hl)
theorem exec_drvPreloadDone : exec .drvPreloadDone s = .next s.preloadDone := congrArg Host.Outcome.next (if_pos hl)
theorem exec_drvBrakeLifted : exec .drvBrakeLifted s = .next s.brakeLifted := congrArg Host.Outcome.next (if_pos hl)
theorem exec_drvBrakeApplied : exec .drvBrakeApplied s = .next s.brakeDropped := congrArg Host.Outcome.next (if_pos hl)

end live

end driveSequence

/-- Settles O36: each row by the lemma of its step of Table 6.1. -/
theorem driveSequenceSteps : Obligations.DriveSequenceSteps := by
  intro s hl
  rw [exec_drvReadyTimeout hl, exec_drvPreloadDone hl, exec_drvBrakeLifted hl, exec_drvBrakeApplied hl]
  refine ⟨⟨fun ⟨t0, h0, hs, ht⟩ => ?timeout, fun h => ?timeoutNot⟩, ⟨fun h => ?preload, fun h => ?preloadNot⟩,
    ⟨fun h => ?lifted, fun h => ?liftedNot⟩, fun h => ?applied, fun h => ?appliedNot⟩
  case timeout =>
    have only : Only { rf := true, irqNow := true, drv := true, el := true } s s.readyTimeout :=
      State.readyTimeout_only rfl rfl rfl rfl (Only.refl _ _)
    rw [State.readyTimeout_expires h0 hs ht] at only ⊢
    refine ⟨_, rfl, ?_, ?_, ?_, ?_, ?_, only⟩ <;>
      simp only [State.raise_drv, State.raise_el, State.drvOff_drv, State.drvOff_el]
  case timeoutNot => rw [State.readyTimeout_waits h]
  case preload => exact congrArg Host.Outcome.next (if_pos h)
  case preloadNot => exact congrArg Host.Outcome.next (if_neg h)
  case lifted =>
    have follows : s.brakeLifted = s.drvFollows.motReady := if_pos h
    have only : Only { mot := true, drv := true } s s.brakeLifted := State.brakeLifted_only rfl rfl (Only.refl _ _)
    rw [follows] at only ⊢
    have drv : s.drvFollows.motReady.drv = s.drvFollows.drv := s.drvFollows.motReady_parts.drv_eq rfl
    exact ⟨_, rfl, congrArg Drv.step drv, congrArg Drv.follow drv, congrArg Drv.stepAt drv,
      fun prep => State.motReady_prep prep, fun special => State.motReady_special special, only⟩
  case liftedNot => exact congrArg Host.Outcome.next (if_neg h)
  case applied =>
    have off : s.brakeDropped = s.drvOff.motBrakeApplied := if_pos h
    have only : Only { rf := true, irqNow := true, mot := true, drv := true, el := true } s s.brakeDropped :=
      State.brakeDropped_only rfl rfl rfl rfl rfl (Only.refl _ _)
    rw [off] at only ⊢
    have parts := s.drvOff.motBrakeApplied_parts
    refine ⟨_, rfl, ?_, ?_, fun landed => ?_, fun holding => ?_, only⟩
    · rw [parts.drv_eq rfl, State.drvOff_drv]
    · rw [parts.el_eq rfl, State.drvOff_el]
    · rw [State.motBrakeApplied_landed (by simpa using landed)]
      exact State.motIdleNow_idle _
    · rw [State.motBrakeApplied_holding (by simpa using holding), State.drvOff_mot]
  case appliedNot => exact congrArg Host.Outcome.next (if_neg h)

/-! ### Writes to the MOT page (R71 to R80) -/

section motWrites
variable {s : State} {src : Src} {v : Word} (hu : s.up_ = true)
include hu

/-- An accepted write to MOT_CMD gives its command. -/
theorem State.command_motCmd (hj : s.judge src Machine.motCmd v = none) : s.command src Machine.motCmd v = s.motCmd v := by
  obtain ⟨r, hr⟩ : ∃ r, regAt Machine.motCmd = some r := ⟨_, rfl⟩
  exact State.command_page hu hj (by decide) rfl hr

/-- An accepted write to MOT_TARGET commits where the register takes a commitment (R77). -/
theorem State.command_motTarget (hj : s.judge src motTarget v = none) :
    s.command src motTarget v = if s.targetOpen then s.hostCommit (Word.bits v 0 8) else s := by
  obtain ⟨r, hr⟩ : ∃ r, regAt motTarget = some r := ⟨_, rfl⟩
  exact State.command_page hu hj (by decide) rfl hr

theorem State.command_motHorizon {r : RegSpec} (hj : s.judge src motHorizon v = none) (hr : regAt motHorizon = some r) :
    s.command src motHorizon v = s.storeReg motHorizon r v :=
  State.command_page hu hj (by decide) rfl hr

theorem State.command_motCtrl {r : RegSpec} (hj : s.judge src motCtrl v = none) (hr : regAt motCtrl = some r) :
    s.command src motCtrl v = s.storeReg motCtrl r v :=
  State.command_page hu hj (by decide) rfl hr

end motWrites

/-! ### Controlled stops (R94) -/

section holds
variable {s : State}

theorem State.motHoldNow_running (h : s.mot.phase = .speed ∨ s.mot.phase = .approach ∨ s.mot.phase = .stopping) :
    s.motHoldNow = { s with mot := { s.mot with
      phase := .holding, plan := some s.holdPlan, keptHorizon := !s.mot.committed, blend := false } } := by
  unfold State.motHoldNow
  rcases h with h | h | h <;> rw [h]

theorem State.motHoldNow_prep (h : s.mot.phase = .prep) : s.motHoldNow =
    ({ s.drvOff with mot := { s.mot with phase := .held, plan := none, keptHorizon := !s.mot.committed } } : State).spFollow := by
  unfold State.motHoldNow
  rw [h]
  dsimp only
  rw [State.drvOff_mot]

/-- A special run in motion stops with nothing kept. -/
theorem State.motHoldNow_special_moved (h : s.mot.phase = .special) (hm : s.mot.moved = true) :
    s.motHoldNow.mot.phase = .holding ∧ s.motHoldNow.mot.committed = false ∧ s.motHoldNow.mot.keptHorizon = false := by
  unfold State.motHoldNow
  rw [h]
  dsimp only
  rw [if_pos hm]
  exact ⟨rfl, rfl, rfl⟩

/-- A special run that has not moved is over. -/
theorem State.motHoldNow_special_still (h : s.mot.phase = .special) (hm : s.mot.moved = false) :
    s.motHoldNow.mot.phase = .idle ∧ s.motHoldNow.drv.step = .off := by
  unfold State.motHoldNow
  rw [h]
  dsimp only
  rw [if_neg (by simp [hm])]
  exact ⟨rfl, (State.drvOff_off _).1⟩

theorem State.motHoldNow_stays (h : s.mot.phase = .idle ∨ s.mot.phase = .holding ∨ s.mot.phase = .held ∨
    s.mot.phase = .landed ∨ s.mot.phase = .tripped) : s.motHoldNow = s := by
  unfold State.motHoldNow
  rcases h with h | h | h | h | h <;> rw [h]

theorem exec_motHold (hl : s.live = true) {src : Src} {r : RegSpec} (hr : regAt motCtrl = some r)
    (hj : s.judge src motCtrl (Word.setBits (s.rd motCtrl) 1 1 1) = none)
    (hh : (s.storeReg motCtrl r (Word.setBits (s.rd motCtrl) 1 1 1)).rb motCtrl 1 = true) :
    exec (.motHold src) s = .next (s.storeReg motCtrl r (Word.setBits (s.rd motCtrl) 1 1 1)).motHoldNow := by
  refine congrArg Host.Outcome.next ?_
  unfold State.holdCommand
  rw [State.command_motCtrl (State.live_up hl) hj hr]
  exact (if_pos hl).trans (if_pos hh)

theorem Mot.follows_iff (m : Mot) : m.follows = true ↔ m.phase = .speed ∨ m.phase = .approach ∨ m.phase = .stopping := by
  simp [Mot.follows, or_assoc]

end holds

/-! ### The end of a plan (R79, R98) -/

section planEnd
variable {s : State}

@[simp] theorem State.drvDrop_mot (s : State) : s.drvDrop.mot = s.mot := by
  unfold State.drvDrop
  split <;> rfl

/-- The door cycles of the proof and the brake's drop do not touch each other. -/
theorem State.proofCycle_drvDrop (s : State) (n : Nat) : (s.proofCycle n).drvDrop = s.drvDrop.proofCycle n := by
  by_cases h : s.drv.step = .follow
  · have drops : s.drvDrop = { s with drv := { s.drv with step := .drop, stepAt := s.tick, liftReq := false } } := if_pos h
    rw [drops]
    exact if_pos h
  · have stays : s.drvDrop = s := if_neg h
    rw [stays]
    exact if_neg h

theorem State.motReached_landed (s : State) : s.motReached.mot.phase = .landed ∧
    s.motReached.mot.landing = s.mot.target ∧ s.motReached.mot.landValid = true ∧ s.motReached.mot.plan = none := by
  unfold State.motReached
  dsimp only
  split <;> exact ⟨rfl, rfl, rfl, rfl⟩

/-- The car lands, the brake is asked to drop, and a proof run begins its door cycles. -/
theorem State.motRunDone_eq (s : State) : s.motRunDone =
    if s.el.proofPend = true ∧ (s.mot.runType = .recovery ∨ s.mot.runType = .correction) then
      (s.motLanded.raise pgMot 3).drvDrop.proofCycle s.mot.target
    else (s.motLanded.raise pgMot 3).drvDrop := by
  unfold State.motRunDone State.motReached
  rw [← State.proofCycle_drvDrop, ← apply_ite State.drvDrop]
  simp

theorem State.planEndNow_normal (hr : s.mot.runType = .none) (hh : s.mot.holdRun = false) :
    s.planEndNow = s.motRunDone.schRunDone s.mot.target :=
  if_pos (by simp [hr, hh])

theorem State.planEndNow_other (h : s.mot.runType ≠ .none ∨ s.mot.holdRun = true) : s.planEndNow = s.motRunDone :=
  if_neg (by rcases h with h | h <;> simp [h])

/-- The plan in hand has ended at its target. -/
def State.planEnded (s : State) : Prop := ∃ p, s.mot.plan = some p ∧ s.mot.landsAt = true ∧ p.done s.tick = true

theorem exec_planEnd_ended (hl : s.live = true) (h : s.planEnded) : exec .planEnd s = .next s.planEndNow := by
  obtain ⟨p, plan, lands, done⟩ := h
  refine congrArg Host.Outcome.next ?_
  rw [plan]
  exact if_pos ⟨hl, lands, done⟩

theorem exec_planEnd_runs (h : ¬ s.planEnded) : exec .planEnd s = .next s := by
  refine congrArg Host.Outcome.next ?_
  split
  · next p plan => exact if_neg fun ⟨_, ended⟩ => h ⟨p, plan, ended⟩
  · rfl

end planEnd

/-! ### A change of the cap (R82) -/

section cap
variable {s : State}

/-- Electrum's cap in force, with CAP_CHG. -/
def State.capTaken (s : State) : State := ({ s with mot := { s.mot with cap := s.el.vlim } } : State).raise pgMot 6

theorem State.capChange_running (h : s.mot.phase ≠ .stopping) : s.capChange = s.capTaken.motReplan none := by
  unfold State.capChange
  dsimp only
  split
  · next hs => exact absurd hs h
  · rfl

section stopping
variable (h : s.mot.phase = .stopping)
include h

theorem State.capChange_within (hv : (s.mot.along s.mot.sp).1 ≤ (s.capTaken.vcap : Int) * 65536) :
    s.capChange = s.capTaken := by
  unfold State.capChange
  rw [h]
  exact if_pos hv

variable (hv : (s.capTaken.vcap : Int) * 65536 < (s.mot.along s.mot.sp).1)
include hv

theorem State.capChange_unplanned (hp : s.capTaken.applyPlan s.capTaken.lims s.capTaken.mot.targetPos = none) :
    s.capChange = s.capTaken := by
  unfold State.capChange
  rw [← State.capTaken, h]
  refine (if_neg (Int.not_le.2 hv)).trans ?_
  rw [hp]

theorem State.capChange_planned {b : Option (List Seg)}
    (hp : s.capTaken.applyPlan s.capTaken.lims s.capTaken.mot.targetPos = some b) :
    s.capChange = s.capTaken.motReplan b := by
  unfold State.capChange
  rw [← State.capTaken, h]
  refine (if_neg (Int.not_le.2 hv)).trans ?_
  rw [hp]

end stopping

end cap

/-- Settles O33: each row by the lemma of its operation. That the scheduler answers normal runs alone, and neither a special
nor a hold-to-run run, is the model's choice (log entry 80). -/
theorem runsHoldAndEnd : Obligations.RunsHoldAndEnd := by
  intro s hl
  refine ⟨fun src r hr => ?hold, State.motHoldNow_running, fun h => ?prep,
    State.motHoldNow_special_moved, State.motHoldNow_special_still, State.motHoldNow_stays, ?follow, ?ended, ?cap⟩
  case hold =>
    intro w t hj hh
    exact exec_motHold hl hr hj hh
  case prep =>
    rw [State.motHoldNow_prep h]
    exact ⟨rfl, (State.drvOff_off s).1, rfl, rfl⟩
  case follow =>
    intro lasting
    refine ⟨fun ⟨many, running⟩ => ?_, fun h => ?_⟩
    · exact congrArg Host.Outcome.next (if_pos ⟨hl, many, s.mot.follows_iff.2 running⟩)
    · exact congrArg Host.Outcome.next (if_neg fun ⟨_, many, follows⟩ => h ⟨many, s.mot.follows_iff.1 follows⟩)
  case ended =>
    intro ended landed dropped proof done
    have finished : s.motRunDone = done := s.motRunDone_eq
    rw [← finished]
    refine ⟨?_, fun h other => ?_, fun h hr hh => ?_, exec_planEnd_runs⟩
    · unfold State.motRunDone
      rw [State.drvDrop_mot]
      exact s.motReached_landed
    · rw [exec_planEnd_ended hl h, State.planEndNow_other other]
    · rw [exec_planEnd_ended hl h, State.planEndNow_normal hr hh]
  case cap =>
    intro capped v
    have changed (hc : s.mot.cap ≠ s.el.vlim) : exec .vcapChange s = .next s.capChange :=
      congrArg Host.Outcome.next (if_pos ⟨hl, hc⟩)
    refine ⟨fun hc => ?_, fun hc hs => ?_, fun hc hs hv => ?_, fun hc hs hv => ⟨fun hp => ?_, fun b hp => ?_⟩⟩
    · exact congrArg Host.Outcome.next (if_neg fun h => h.2 hc)
    · rw [changed hc, State.capChange_running hs]; rfl
    · rw [changed hc, State.capChange_within hs hv]; rfl
    · rw [changed hc, State.capChange_unplanned hs hv hp]; rfl
    · rw [changed hc, State.capChange_planned hs hv hp]; rfl

/-! ### APPLY (R80, R81) -/

section apply
variable {s : State}

@[simp] theorem State.copyStaged_mot (s : State) : s.copyStaged.mot = s.mot :=
  (State.copyStaged_only (pt := { rf := true }) rfl (Only.refl _ _)).mot.resolve_left (by decide)

/-- Outside a normal run in motion no level governs. -/
theorem State.applyLevel_rest (h : s.mot.phase = .idle ∨ s.mot.phase = .prep ∨ s.mot.phase = .held ∨ s.mot.phase = .landed) :
    s.applyLevel = none := by
  unfold State.applyLevel
  rcases h with h | h | h | h <;> rw [h]

/-- Without a plan there is none to rebuild. -/
theorem State.motReplan_rest (h : s.mot.phase = .idle ∨ s.mot.phase = .prep ∨ s.mot.phase = .held ∨ s.mot.phase = .landed)
    (b : Option (List Seg)) : s.motReplan b = s := by
  unfold State.motReplan
  rcases h with h | h | h | h <;> rw [h]

theorem State.applyNow_free (h : s.applyLevel = none) : s.applyNow = (s.copyStaged.motReplan none).raise pgMot 4 := by
  unfold State.applyNow
  rw [h]

variable {l : Int} (h : s.applyLevel = some l)
include h

theorem State.applyNow_planned {b : Option (List Seg)} (hp : s.applyPlan s.stagedLims l = some b) :
    s.applyNow = (s.copyStaged.motReplan b).raise pgMot 4 := by
  unfold State.applyNow
  rw [h]
  dsimp only
  rw [hp]

/-- With no plan to the level the ramp in hand goes on. -/
theorem State.applyNow_unplanned (hp : s.applyPlan s.stagedLims l = none) : s.applyNow = s.copyStaged.raise pgMot 4 := by
  unfold State.applyNow
  rw [h]
  dsimp only
  rw [hp]

end apply

/-! ### RESUME (R97) -/

section resume
variable {s : State}

/-- RAMPED cleared and RESUMED reported; no landing has been passed yet. -/
def State.woken (s : State) : State :=
  ({ s with mot := { s.mot with ramped := false }, sch := { s.sch with passed := [], cand := none } } : State).rtEvent 6

/-- MOT prepares to leave upward or downward, with the target it has. -/
def State.setOff (u : State) (up : Bool) : State :=
  ({ u with mot := { u.mot with
      phase := .prep, up := up, ramped := false, blend := false, plan := none, keptHorizon := false
      landValid := false } } : State).drvRequest

/-- The estimate stands within the levelling accuracy of a level. -/
def State.atLevel (s : State) (x : Int) : Prop := ((s.estPos - x).natAbs : Int) ≤ s.ri motLevelAcc

section committed
variable (hc : s.mot.committed = true)
include hc

theorem State.resumeNow_arrived (ha : s.atLevel s.mot.targetPos) (hz : s.inZone s.mot.target = true) :
    s.resumeNow = s.woken.motReached :=
  (if_pos hc).trans (if_pos ⟨ha, hz⟩)

theorem State.resumeNow_departs (h : ¬ s.atLevel s.mot.targetPos ∨ s.inZone s.mot.target = false) :
    s.resumeNow = s.woken.setOff (decide (s.estPos < s.mot.targetPos)) := by
  refine (if_pos hc).trans (if_neg fun ⟨ha, hz⟩ => ?_)
  exact h.elim (absurd ha) fun out => by simp [out] at hz

end committed

section uncommitted
variable (hc : s.mot.committed = false)
include hc

theorem State.resumeNow_horizon_arrived (hz : s.inZone s.horizon = true) (ha : s.atLevel (s.level s.horizon)) :
    s.resumeNow = (s.woken.motCommit s.horizon .horizon).motReached := by
  unfold State.resumeNow
  dsimp only
  rw [if_neg (ne_true_of_eq_false hc), if_pos hz]
  exact if_pos ⟨rfl, ha⟩

theorem State.resumeNow_horizon_near (hz : s.inZone s.horizon = true) (ha : ¬ s.atLevel (s.level s.horizon)) :
    s.resumeNow = (s.woken.motCommit s.horizon .horizon).setOff (decide (s.estPos < s.level s.horizon)) := by
  unfold State.resumeNow
  dsimp only
  rw [if_neg (ne_true_of_eq_false hc), if_pos hz]
  exact if_neg fun h => ha h.2

theorem State.resumeNow_horizon_far (hz : s.inZone s.horizon = false) :
    s.resumeNow = s.woken.setOff (decide (s.estPos < s.level s.horizon)) := by
  have uncommitted : ¬ s.woken.mot.committed = true := ne_true_of_eq_false hc
  unfold State.resumeNow
  dsimp only
  rw [if_neg (ne_true_of_eq_false hc), if_neg (ne_true_of_eq_false hz)]
  exact if_neg fun h => uncommitted h.1

end uncommitted

/-- The scheduler answers only a car that has landed. -/
theorem State.schReached_setOff (u before : State) (up : Bool) : (u.setOff up).schReached before = u.setOff up :=
  if_neg fun h => Phase.noConfusion h.1

end resume

/-- Settles O32: each row by what an accepted write to its register does. That the ramp in hand goes on after an APPLY without
a plan is the model's reading (log entry 65). -/
theorem runCommandsStartAndCommit : Obligations.RunCommandsStartAndCommit := by
  intro src s hu
  have mot {v} (hj : s.judge src motCmd v = none) : s.command src motCmd v = s.motCmd v := State.command_motCmd hu hj
  refine ⟨fun hj => ?start, fun v hj => ?target, fun v r hj hr => ?horizon, fun hj => ?apply, fun hj => ?trun,
    fun hj => ?resume⟩
  case start =>
    exact ⟨s.motStartNow, congrArg Host.Outcome.next (mot hj), rfl, rfl, rfl, rfl, rfl, rfl, rfl, rfl, rfl, rfl, rfl, rfl,
      State.motStartNow_only rfl rfl rfl (Only.refl _ _)⟩
  case target =>
    intro n t
    have write : exec (.motTargetWrite src v) s = .next (if s.targetOpen then s.hostCommit n else s) :=
      congrArg Host.Outcome.next (State.command_motTarget hu hj)
    rw [write]
    refine ⟨fun ho hp => ?_, fun ho hp => ?_, fun ho => ?_⟩
    · exact congrArg Host.Outcome.next ((if_pos ho).trans (if_pos hp))
    · exact congrArg Host.Outcome.next ((if_pos ho).trans (if_neg hp))
    · exact congrArg Host.Outcome.next (if_neg (by simp [ho]))
  case horizon => exact congrArg Host.Outcome.next (State.command_motHorizon hu hj hr)
  case apply =>
    intro live
    have applies : exec (.motApply src) s = .next s.applyNow := congrArg Host.Outcome.next (mot hj)
    rw [applies]
    refine ⟨fun h => ?_, fun h => ?_, fun l b h hp => ?_, fun l h hp => ?_⟩
    · rw [State.applyNow_free h]; rfl
    · rw [State.applyNow_free (State.applyLevel_rest h), State.motReplan_rest (by simpa using h)]; rfl
    · rw [State.applyNow_planned h hp]; rfl
    · rw [State.applyNow_unplanned h hp]; rfl
  case trun => exact congrArg Host.Outcome.next (mot hj)
  case resume =>
    intro woken n atLevel off
    have resume : exec (.motResume src) s = .next (s.resumeNow.schReached s) := congrArg Host.Outcome.next (mot hj)
    rw [resume]
    refine ⟨fun hc ha hz => ?_, fun hc h => ?_, fun hc hz ha => ?_, fun hc hz ha => ?_, fun hc hz => ?_⟩
    · rw [State.resumeNow_arrived hc ha hz]; rfl
    · rw [State.resumeNow_departs hc h, State.schReached_setOff]; rfl
    · rw [State.resumeNow_horizon_arrived hc hz ha]; rfl
    · rw [State.resumeNow_horizon_near hc hz ha, State.schReached_setOff]; rfl
    · rw [State.resumeNow_horizon_far hc hz, State.schReached_setOff]; rfl

end Sys2Proof.Machine

/-! PROOF. The special runs: how they start (R85 to R93), how a correction run fails (R89), and what the scheduler starts,
resumes, holds and closes (R97, R128, R129, R132): O34, O35 and O41. -/

namespace Sys2Proof.Machine

/-- An accepted write to MOT_RT_CMD gives its command (R86). -/
theorem State.command_motRtCmd {s : State} {src : Src} {v : Word} (hu : s.up_ = true)
    (hj : s.judge src motRtCmd v = none) : s.command src motRtCmd v = s.rtCmd v := by
  obtain ⟨r, hr⟩ : ∃ r, regAt motRtCmd = some r := ⟨_, rfl⟩
  exact State.command_page hu hj (by decide) rfl hr

/-! ### Runs that commit their target at once (R85, R92, R98) -/

/-- The run is committed to the level of its landing, and DRV is asked to magnetise. -/
theorem State.specialTo_starts (s : State) (t : RunType) (n vel : Nat) :
    let u := s.specialTo t n vel
    u.mot.phase = .special ∧ u.mot.runType = t ∧ u.mot.committed = true ∧ u.mot.target = n ∧
      u.mot.targetPos = s.level n ∧ u.drv.step = .magnetise :=
  ⟨rfl, rfl, rfl, rfl, rfl, rfl⟩

section recovery
variable {s : State}

/-- Where no landing is left to prove, nothing starts (log entry 204). -/
theorem State.recoverStart_none (h : s.recoverTarget = none) : s.recoverStart = s := by
  unfold State.recoverStart
  rw [h]

variable {n : Nat} (h : s.recoverTarget = some n)
include h

theorem State.recoverStart_departs (away : ¬ s.atLevel (s.level n)) :
    s.recoverStart = s.specialTo .recovery n (s.rn motRecovVel) := by
  unfold State.recoverStart
  rw [h]
  exact if_neg away

/-- With the car level the run is over at once: DRV stays in OFF, and the door cycles of the proof begin. -/
theorem State.recoverStart_lands (level : s.atLevel (s.level n)) : s.recoverStart =
    ((s.specialTo .recovery n (s.rn motRecovVel)).drvOff.motLanded.raise pgMot 3).proofCycle n := by
  unfold State.recoverStart
  rw [h]
  exact if_pos level

end recovery

/-- What a relevelling leaves of MOT: its run to the level of LANDING, which stays, counted up to 15. -/
theorem State.relevStart_mot (s : State) : s.relevStart.mot =
    { (s.specialTo .relevelling s.mot.landing (s.rn motRelevVel)).mot with
      relevCnt := min (s.mot.relevCnt + 1) 15, landing := s.mot.landing } := by
  unfold State.relevStart
  dsimp only
  split
  · exact State.fire_mot ..
  · rfl

/-! ### AUTO_SPECIAL_START (R87) -/

section autoSpecial
variable {s : State}

theorem State.autoSpecial_corrects (hi : s.drvIf ≠ 0) (ha : s.pos.abs = false) (hc : s.rb motRtCfg 0 = true) :
    s.autoSpecial = s.homeStart :=
  (if_neg hi).trans (if_pos (by simp [ha, hc]))

theorem State.autoSpecial_recovers (hi : s.drvIf ≠ 0) (h : s.pos.abs = true ∧ s.posValid = true ∧ s.el.proofPend = true ∧
    s.rb motRtCfg 1 = true) : s.autoSpecial = s.recoverStart := by
  obtain ⟨abs, valid, pending, allowed⟩ := h
  exact (if_neg hi).trans ((if_neg (by simp [abs])).trans (if_pos (by simp [abs, valid, pending, allowed])))

/-- With the interface disabled (R100), or neither run asked for. -/
theorem State.autoSpecial_stays (h : s.drvIf = 0 ∨ ¬ (s.pos.abs = false ∧ s.rb motRtCfg 0 = true) ∧
    ¬ (s.pos.abs = true ∧ s.posValid = true ∧ s.el.proofPend = true ∧ s.rb motRtCfg 1 = true)) : s.autoSpecial = s := by
  refine ite_eq_left_iff.2 fun hi => ?_
  obtain ⟨noCorrection, noRecovery⟩ := h.resolve_left hi
  exact (if_neg (by simpa using noCorrection)).trans (if_neg (by simpa using noRecovery))

theorem exec_autoSpecialStart_waits (h : ¬ (s.autoCond = true ∧ 16000 ≤ s.mot.autoTicks)) :
    exec .autoSpecialStart s = .next s :=
  congrArg Host.Outcome.next (if_neg fun due => h due.2)

theorem exec_autoSpecialStart_due (hl : s.live = true) (hc : s.autoCond = true) (ht : 16000 ≤ s.mot.autoTicks) :
    exec .autoSpecialStart s = .next s.autoSpecial :=
  congrArg Host.Outcome.next (if_pos ⟨hl, hc, ht⟩)

end autoSpecial

/-! ### AUTO_RELEVEL (R92, R93) -/

section autoRelevel
variable {s : State}

/-- RELEV_BLOCKED is reported once per stop. -/
theorem State.relevBlock_rf (s : State) :
    s.relevBlock.rf = if s.mot.relevBlocked then s.rf else (s.wf_ motRtEvent 3 1 1).rf := by
  unfold State.relevBlock
  dsimp only
  split <;> rfl

/-- A blocked relevelling waits anew, and asks for bridging where only the doors keep it. -/
theorem State.relevBlock_mot (s : State) : s.relevBlock.mot = { s.mot with
    relevBlocked := true, relevTicks := 0, relevPend := s.relevZone && !s.doorsClosed } := by
  unfold State.relevBlock
  dsimp only
  split <;> rfl

theorem exec_autoRelevel_rests (hd : s.relevDue = false) : exec .autoRelevel s = .next s :=
  congrArg Host.Outcome.next (if_pos (by simp [hd]))

variable (hl : s.live = true) (hd : s.relevDue = true)
include hl hd

theorem exec_autoRelevel_decides (hm : s.relevMay = true) : exec .autoRelevel s = .next s.relevDecide :=
  congrArg Host.Outcome.next ((if_neg (by simp [hl, hd])).trans (if_pos hm))

theorem exec_autoRelevel_blocks (hm : s.relevMay = false) : exec .autoRelevel s = .next s.relevBlock :=
  congrArg Host.Outcome.next ((if_neg (by simp [hl, hd])).trans (if_neg (by simp [hm])))

end autoRelevel

/-- A relevelling that was decided on starts, MOT still being idle and the run still permitted. -/
theorem State.relevSettle_starts {s : State} (hg : s.mot.relevGo = true) (hp : s.mot.phase = .idle)
    (hm : s.relevMay = true) : s.relevSettle =
      ({ s with mot := { s.mot with relevGo := false } } : State).relevStart.schRelevFail :=
  if_pos (by simp [hg, hp, hm])

/-- Settles O34: each row by what its accepted register write or its own condition does. That a recovery without a target
does nothing (log entry 204), that one already level is LANDED at once (log entry 67), and that AUTO_RELEVEL only decides,
with the run in the Set-point phase (log entry 211), are the model's choices. -/
theorem specialRunsStart : Obligations.SpecialRunsStart := by
  intro s hu
  have rt {src v} (hj : s.judge src motRtCmd v = none) : s.command src motRtCmd v = s.rtCmd v := State.command_motRtCmd hu hj
  refine ⟨fun src hj => ?home, fun src hj => ?recover, fun src hj => ?relevel, fun src hj => ?abandon, fun hl => ?auto,
    fun _ hd => exec_autoRelevel_rests hd, fun hl hd hm => exec_autoRelevel_decides hl hd hm,
    fun t hg hp hm => State.relevSettle_starts hg hp hm, fun hl hd hm => ?blocked⟩
  case home =>
    exact ⟨s.homeStart, congrArg Host.Outcome.next (rt hj), rfl, rfl, rfl, rfl, rfl, rfl, rfl, rfl, rfl, rfl,
      State.homeStart_only rfl rfl rfl (Only.refl _ _)⟩
  case recover =>
    refine ⟨congrArg Host.Outcome.next (rt hj), State.recoverStart_none, fun n hn away => ?departs, fun n hn level => ?lands⟩
    case departs =>
      intro t
      have starts : t = s.specialTo .recovery n (s.rn motRecovVel) := State.recoverStart_departs hn (Int.not_le.2 away)
      obtain ⟨phase, type, committed, target, pos, drv⟩ := s.specialTo_starts .recovery n (s.rn motRecovVel)
      rw [starts]
      exact ⟨phase, type, committed, target, pos, drv, State.specialTo_only rfl rfl rfl rfl (Only.refl _ _) ..⟩
    case lands =>
      intro t
      have lands : t = _ := State.recoverStart_lands hn level
      obtain ⟨-, type, -, target, -, -⟩ := s.specialTo_starts .recovery n (s.rn motRecovVel)
      rw [lands]
      simp [State.proofCycle, State.motLanded, type, target]
  case relevel =>
    refine ⟨congrArg Host.Outcome.next (rt hj), ?_⟩
    rw [State.relevStart_mot]
    exact ⟨rfl, rfl, rfl, rfl⟩
  case abandon =>
    exact ⟨s.abandonNow, congrArg Host.Outcome.next (rt hj), rfl, rfl, rfl, rfl,
      State.abandonNow_only rfl (Only.refl _ _)⟩
  case auto =>
    intro due correct recover
    refine ⟨fun ⟨hc, ht, hi⟩ ⟨ha, allowed⟩ => ?_, fun ⟨hc, ht, hi⟩ h => ?_, fun h => ?_⟩
    · rw [exec_autoSpecialStart_due hl hc ht, State.autoSpecial_corrects hi ha allowed]
    · rw [exec_autoSpecialStart_due hl hc ht, State.autoSpecial_recovers hi h]
    · by_cases waited : s.autoCond = true ∧ 16000 ≤ s.mot.autoTicks
      · obtain ⟨hc, ht⟩ := waited
        have stays : s.drvIf = 0 ∨ ¬ correct ∧ ¬ recover :=
          h.imp_left fun notDue => by_contra fun hi => notDue ⟨hc, ht, hi⟩
        rw [exec_autoSpecialStart_due hl hc ht, State.autoSpecial_stays stays]
      · exact exec_autoSpecialStart_waits waited
  case blocked =>
    refine ⟨s.relevBlock, exec_autoRelevel_blocks hl hd hm, s.relevBlock_rf, ?_, ?_, ?_,
      State.relevBlock_only rfl rfl (Only.refl _ _)⟩ <;> rw [State.relevBlock_mot]

/-! ### A correction run fails (R89, Table 5.2) -/

section correctionFails
variable {s : State} {e : HomeErr}

/-- A failure leaves MOT its cause, and no step of the homing. -/
theorem State.homeFailed_mot : (s.homeFailed e).mot = { s.mot with homeErr := e, hstep := .none } :=
  State.fire_mot ..

/-- Before the car has moved the run is over. -/
theorem State.homeFail_still (h : s.mot.moved = false) : (s.homeFail e).mot.phase = .idle ∧
    (s.homeFail e).mot.homeErr = e ∧ (s.homeFail e).drv.step = .off ∧ (s.homeFail e).mot.committed = false := by
  have ends : s.homeFail e = (s.homeFailed e).drvOff.motIdleNow := if_neg (by simp [h])
  have mot : (s.homeFailed e).drvOff.mot.homeErr = e := by simp [State.homeFailed_mot]
  rw [ends]
  exact ⟨rfl, mot, (State.drvOff_off _).1, rfl⟩

/-- A car in motion stops with nothing kept. -/
theorem State.homeFail_moved (h : s.mot.moved = true) : (s.homeFail e).mot.phase = .holding ∧
    (s.homeFail e).mot.homeErr = e ∧ (s.homeFail e).mot.committed = false ∧ (s.homeFail e).mot.keptHorizon = false := by
  have stops : s.homeFail e = { s.homeFailed e with mot := { (s.homeFailed e).mot with
      phase := .holding, plan := some s.holdPlan, committed := false, csrc := .none, keptHorizon := false } } := if_pos h
  rw [stops]
  exact ⟨rfl, congrArg Mot.homeErr State.homeFailed_mot, rfl, rfl⟩

/-- A change that is no drop-out in SEARCH is noted. -/
theorem State.homeRef_notes {a : Bool} (h : s.mot.hstep ≠ .search ∨ a = true) :
    s.homeRef a = { s with mot := { s.mot with refWas := a } } := by
  refine if_neg ?_
  rintro ⟨search, -, inactive⟩
  exact h.elim (absurd search) fun active => by simp [active] at inactive

/-- A drop-out in SEARCH is counted, and fails the run at MOT_HOME_CHAT. -/
theorem State.homeRef_counts (hs : s.mot.hstep = .search) (hw : s.mot.refWas = true) :
    let t : State := { s with mot := { s.mot with refWas := false, chat := min (s.mot.chat + 1) 15 } }
    s.homeRef false = if s.rn motHomeChat ≤ t.mot.chat then t.homeFail .chatter else t :=
  if_pos ⟨hs, hw, rfl⟩

end correctionFails

/-- Settles O35: the three rows by their conditions, and a failure by whether the car has moved. -/
theorem correctionRunsFail : Obligations.CorrectionRunsFail := by
  intro s hl
  refine ⟨⟨fun limit => ?limit, fun h => ?limitNot⟩, ⟨fun far => ?far, fun h => ?farNot⟩,
    fun e => State.homeFail_still, fun e => State.homeFail_moved, fun e => rfl, fun a => ?reference⟩
  case limit => exact congrArg Host.Outcome.next (if_pos ⟨hl, limit⟩)
  case limitNot => exact congrArg Host.Outcome.next (if_neg fun due => h due.2)
  case far => exact congrArg Host.Outcome.next (if_pos ⟨hl, far⟩)
  case farNot => exact congrArg Host.Outcome.next (if_neg fun due => h due.2)
  case reference =>
    intro changed
    have changes (h : changed) : exec (.homeRefInput a) s = .next (s.homeRef a) :=
      congrArg Host.Outcome.next (if_pos ⟨hl, h⟩)
    refine ⟨fun h other => ?_, fun h hs ha => ?_, fun h => ?_⟩
    · rw [changes h, State.homeRef_notes other]
    · rw [changes h]
      obtain ⟨-, -, -, was⟩ := h
      subst ha
      exact congrArg Host.Outcome.next (State.homeRef_counts hs (by simpa using was))
    · exact congrArg Host.Outcome.next (if_neg fun due => h due.2)

/-! ### The scheduler starts a run (R128) -/

section schStart
variable {s : State} {up : Bool}

theorem State.schStart_none (h : s.terminal up = none) : s.schStart up = s := by
  unfold State.schStart
  rw [h]

/-- A horizon that START does not take, or no drive interface: the horizon alone is written. -/
theorem State.schStart_refused {n : Nat} (h : s.terminal up = some n)
    (hz : (s.wn motHorizon n).horizonOk = false ∨ s.drvIf = 0) : s.schStart up = s.wn motHorizon n := by
  unfold State.schStart
  rw [h]
  refine if_neg ?_
  rintro ⟨ok, enabled⟩
  exact hz.elim (fun bad => by simp [bad] at ok) enabled

theorem State.schStart_starts {n : Nat} (h : s.terminal up = some n) (ok : (s.wn motHorizon n).horizonOk = true)
    (enabled : s.drvIf ≠ 0) : s.schStart up = (s.wn motHorizon n).motStartNow := by
  unfold State.schStart
  rw [h]
  exact if_pos ⟨ok, enabled⟩

theorem exec_schedRunStart_starts (hl : s.live = true) (hd : s.schDue = true) (hp : s.mot.phase = .idle)
    (hr : s.runDir = some up) : exec .schedRunStart s = .next (s.schStart up) := by
  refine congrArg Host.Outcome.next ((if_pos ⟨hl, hd, hp⟩).trans ?_)
  rw [hr]

theorem exec_schedRunStart_rests (h : s.schDue = false ∨ s.mot.phase ≠ .idle ∨ s.runDir = none) :
    exec .schedRunStart s = .next s := by
  refine congrArg Host.Outcome.next (ite_eq_right_iff.2 ?_)
  rintro ⟨-, due, idle⟩
  obtain notDue | busy | noDir := h
  · simp [notDue] at due
  · exact absurd idle busy
  · rw [noDir]

end schStart

/-! ### The end of the hold (R129) -/

section dwell
variable {s : State}

/-- A hold that has lasted its time, INDEPENDENT apart. -/
def State.holdElapsed (s : State) : Prop := ∃ a t0, s.sch.ans = some a ∧ a.holdAt = some t0 ∧ s.mode ≠ .independent ∧
  s.since t0 (msTicks a.holdMs) = true

theorem State.schHoldEnd_closes (h : s.holdElapsed) : s.schHoldEnd = s.schClose := by
  obtain ⟨a, t0, ans, hold, elapsed⟩ := h
  unfold State.schHoldEnd
  rw [ans]
  dsimp only
  rw [hold]
  exact if_pos elapsed

theorem State.schHoldEnd_stays (h : ¬ s.holdElapsed) : s.schHoldEnd = s := by
  unfold State.schHoldEnd
  split
  · next a ans =>
    split
    · next t0 hold => exact if_neg fun elapsed => h ⟨a, t0, ans, hold, elapsed⟩
    · rfl
  · rfl

theorem State.schEndHold_none (h : s.sch.ans = none) : s.schEndHold = s := by
  unfold State.schEndHold
  rw [h]

variable {a : Answer} (ans : s.sch.ans = some a)
include ans

theorem State.schEndHold_closes (h : a.holdAt ≠ none ∨ (a.opening = [] ∧ a.closing = false ∧
    ¬ (s.mode = .recall ∧ s.sch.recallDone = true))) : s.schEndHold = s.schClose := by
  unfold State.schEndHold
  rw [ans]
  refine if_pos (h.imp Option.isSome_iff_ne_none.2 ?_)
  rintro ⟨opened, notClosing, notRecalled⟩
  simpa [opened, notClosing, imp_iff_not_or] using notRecalled

theorem State.schEndHold_stays (noHold : a.holdAt = none) (h : a.opening ≠ [] ∨ a.closing = true ∨
    (s.mode = .recall ∧ s.sch.recallDone = true)) : s.schEndHold = s := by
  unfold State.schEndHold
  rw [ans]
  refine if_neg ?_
  rintro (hold | stays)
  · simp [noHold] at hold
  · obtain opening | closing | ⟨atRecall, recalled⟩ := h
    · simp [opening] at stays
    · simp [closing] at stays
    · simp [atRecall, recalled] at stays

end dwell

/-- END_DWELL where its register write is accepted. -/
theorem exec_endDwell {s : State} {src : Src} (hu : s.up_ = true) (hj : s.judge src schCmd 4 = none) :
    exec (.endDwell src) s = .next s.schEndHold := by
  obtain ⟨r, hr⟩ : ∃ r, regAt schCmd = some r := ⟨_, rfl⟩
  exact congrArg Host.Outcome.next (State.command_page hu hj (by decide) rfl hr)

/-! ### A stuck button (R132) -/

/-- A button that has been active for SCH_BTN_STUCK_MS and is not reported yet. -/
def State.btnSticks (s : State) (n : Nat) : Prop := ∃ t0, alook s.sch.btnOn n = some t0 ∧
  s.since t0 (msTicks (s.rn schBtnStuckMs)) = true ∧ s.sch.btnStuck.contains n = false

theorem State.btnStuckNow_reports {s : State} {n : Nat} (h : s.btnSticks n) : s.btnStuckNow n =
    ({ s with sch := { s.sch with btnStuck := setIns s.sch.btnStuck n } } : State).raise pgSch 8 := by
  obtain ⟨t0, on, elapsed, fresh⟩ := h
  unfold State.btnStuckNow
  rw [on]
  exact if_pos ⟨elapsed, by simpa using fresh⟩

theorem State.btnStuckNow_stays {s : State} {n : Nat} (h : ¬ s.btnSticks n) : s.btnStuckNow n = s := by
  unfold State.btnStuckNow
  split
  · rfl
  · next t0 on => exact if_neg fun ⟨elapsed, fresh⟩ => h ⟨t0, on, elapsed, by simpa using fresh⟩

/-- Settles O41: each row by the lemma of its operation. That END_DWELL ends a dwell whose doors stay open without a hold,
and does nothing while they open or close, is the model's choice (log entry 83). -/
theorem schedulerRuns : Obligations.SchedulerRuns := by
  intro s hl
  refine ⟨exec_schedRunStart_rests, fun up hd hp hr => ?start, ⟨fun may => ?resume, fun h => ?resumeNot⟩,
    ⟨fun elapsed => ?hold, fun h => ?holdNot⟩, fun src hj => ?endDwell, fun n => ⟨fun stuck => ?stuck, fun h => ?stuckNot⟩⟩
  case start =>
    rw [exec_schedRunStart_starts hl hd hp hr]
    refine ⟨fun none => ?_, fun n hn refused => ?_, fun n hn ok enabled => ?_⟩
    · rw [State.schStart_none none]
    · rw [State.schStart_refused hn refused]
    · have only : Only { rf := true, mot := true, drv := true, sch := true } s (s.schStart up) :=
        State.schStart_only rfl rfl rfl rfl (Only.refl _ _) up
      rw [State.schStart_starts hn ok enabled] at only ⊢
      exact ⟨_, rfl, rfl, rfl, rfl, rfl, rfl, rfl, only⟩
  case resume =>
    obtain ⟨due, held, noHold, keeps, enabled⟩ := may
    exact congrArg Host.Outcome.next ((if_pos ⟨hl, due⟩).trans (if_pos ⟨held, by simp [noHold], keeps, enabled⟩))
  case resumeNot =>
    refine congrArg Host.Outcome.next (ite_eq_right_iff.2 fun ⟨_, due⟩ => if_neg ?_)
    rintro ⟨held, noHold, keeps, enabled⟩
    exact h ⟨due, held, by simpa using noHold, keeps, enabled⟩
  case hold => exact congrArg Host.Outcome.next ((if_pos hl).trans (State.schHoldEnd_closes elapsed))
  case holdNot => exact congrArg Host.Outcome.next ((if_pos hl).trans (State.schHoldEnd_stays h))
  case endDwell =>
    rw [exec_endDwell (State.live_up hl) hj]
    exact ⟨fun a ans h => congrArg Host.Outcome.next (State.schEndHold_closes ans h),
      fun a ans noHold h => congrArg Host.Outcome.next (State.schEndHold_stays ans noHold h),
      fun none => congrArg Host.Outcome.next (State.schEndHold_none none)⟩
  case stuck => exact congrArg Host.Outcome.next ((if_pos hl).trans (State.btnStuckNow_reports stuck))
  case stuckNot => exact congrArg Host.Outcome.next ((if_pos hl).trans (State.btnStuckNow_stays h))

end Sys2Proof.Machine

/-! PROOF. Calls, destinations and the control of the scheduler (chapter 7): O39 and O40. -/

namespace Sys2Proof.Machine

/-! ### Accepted writes to the SCH page -/

section schWrites
variable {s : State} {src : Src} {v : Word} (hu : s.up_ = true)
include hu

theorem State.command_schMode (hj : s.judge src schMode v = none) : s.command src schMode v = s.modeWrite v := by
  obtain ⟨r, hr⟩ : ∃ r, regAt schMode = some r := ⟨_, rfl⟩
  exact State.command_page hu hj (by decide) rfl hr

theorem State.command_schDestAdd (hj : s.judge src schDestAdd v = none) :
    s.command src schDestAdd v = s.destAdd v := by
  obtain ⟨r, hr⟩ : ∃ r, regAt schDestAdd = some r := ⟨_, rfl⟩
  exact State.command_page hu hj (by decide) rfl hr

theorem State.command_schDestDel (hj : s.judge src schDestDel v = none) :
    s.command src schDestDel v = s.destDel (Word.bits v 0 10) := by
  obtain ⟨r, hr⟩ : ∃ r, regAt schDestDel = some r := ⟨_, rfl⟩
  exact State.command_page hu hj (by decide) rfl hr

/-- An accepted write to SCH_CMD does what its bits ask for. -/
theorem State.command_schCmd (hj : s.judge src schCmd v = none) : s.command src schCmd v =
    let s1 := if Word.bit v 0 then s.schRestore else s
    let s2 := if Word.bit v 1 then s1.ccClrAll else s1
    if Word.bit v 2 then s2.schEndHold else s2 := by
  obtain ⟨r, hr⟩ : ∃ r, regAt schCmd = some r := ⟨_, rfl⟩
  exact State.command_page hu hj (by decide) rfl hr

/-- An accepted write to SCH_CTRL: the host cause first, then RUN (R118, R119, R133). -/
theorem State.command_schCtrl (hj : s.judge src schCtrl v = none) : s.command src schCtrl v =
    let t := (s.wf_ schCtrl 1 1 (Word.bits v 1 1)).oosHostNow (Word.bit v 1)
    if s.rb schCtrl 0 && !Word.bit v 0 then t.schStop else if Word.bit v 0 then t.schRunSet else t := by
  obtain ⟨r, hr⟩ : ∃ r, regAt schCtrl = some r := ⟨_, rfl⟩
  exact State.command_page hu hj (by decide) rfl hr

end schWrites

/-! ### Accepted writes to the call table and the landing table (R119, R121) -/

section tables
variable {s : State} {src : Src} {a : Nat} {v : Word}

theorem State.applyWrite_callTable (low : 0x140000 ≤ a) (high : a < 0x150000) :
    s.applyWrite src a v = s.applyCallAt (callArea a) v := by
  unfold State.applyWrite State.applyCall
  rw [if_neg (by omega), if_neg (by omega), if_pos high]

theorem State.applyWrite_landingTable (low : 0x150000 ≤ a) : s.applyWrite src a v = (s.ltWrite a v).elDigest := by
  unfold State.applyWrite State.applyLt
  rw [if_neg (by omega), if_neg (by omega), if_neg (by omega)]

/-- SET and CLR words lie in the call table. -/
theorem callArea_window {k w : Nat} (h : callArea a = .set k w ∨ callArea a = .clr k w) :
    0x140000 ≤ a ∧ a < 0x150000 := by
  unfold callArea at h
  generalize place : a - 0x140000 = o at h
  have inside : 0x60 ≤ o ∧ o < 0x5000 := by
    by_contra outside
    by_cases low : o < 0x60
    · simp [low] at h
    · simp [low, show ¬ (0x80 ≤ o ∧ o < 0xE0) by omega, show ¬ (0x100 ≤ o ∧ o < 0x160) by omega,
        show ¬ (0x1000 ≤ o ∧ o < 0x5000) by omega] at h
  omega

end tables

section calls
variable {s : State} {src : Src} {a : Addr} {v : Word}

/-- A SET word: a call ends PARK before its landings are entered (R121, R363). -/
theorem exec_callSet {k w : Nat} (hu : s.up_ = true) (area : callArea a.toNat = .set k w)
    (hj : s.judge src a.toNat v = none) : exec (.callSet src a v) s =
      .next ((if s.sys.run = .park then s.parkEnd .fieldOrCall else s).callSetNow k w v) := by
  obtain ⟨low, high⟩ := callArea_window (.inl area)
  refine congrArg Host.Outcome.next ?_
  rw [area]
  dsimp only
  rw [State.command_accepted hu hj, State.applyWrite_callTable low high, area]
  rfl

theorem exec_callClr {k w : Nat} (hu : s.up_ = true) (area : callArea a.toNat = .clr k w)
    (hj : s.judge src a.toNat v = none) : exec (.callClr src a v) s = .next (s.callClrNow k w v) := by
  obtain ⟨low, high⟩ := callArea_window (.inr area)
  refine congrArg Host.Outcome.next ?_
  rw [area]
  dsimp only
  rw [State.command_accepted hu hj, State.applyWrite_callTable low high, area]
  rfl

theorem exec_callSet_elsewhere (h : ∀ k w, callArea a.toNat ≠ .set k w) : exec (.callSet src a v) s = .next s := by
  refine congrArg Host.Outcome.next ?_
  split
  · next k w area => exact absurd area (h k w)
  all_goals rfl

theorem exec_callClr_elsewhere (h : ∀ k w, callArea a.toNat ≠ .clr k w) : exec (.callClr src a v) s = .next s := by
  refine congrArg Host.Outcome.next ?_
  split
  · next k w area => exact absurd area (h k w)
  all_goals rfl

theorem exec_landingTableWrite (hu : s.up_ = true) (low : 0x150000 ≤ a.toNat) (hj : s.judge src a.toNat v = none) :
    exec (.landingTableWrite src a v) s = .next (s.ltWrite a.toNat v).elDigest :=
  congrArg Host.Outcome.next
    ((if_pos low).trans ((State.command_accepted hu hj).trans (State.applyWrite_landingTable low)))

theorem exec_landingTableWrite_elsewhere (high : a.toNat < 0x150000) :
    exec (.landingTableWrite src a v) s = .next s := by
  have outside : ¬ 0x150000 ≤ a.toNat := by omega
  exact congrArg Host.Outcome.next (if_neg outside)

end calls

/-! ### Destinations (R122) -/

section destinations
variable {s : State}

/-- The entry that a word of SCH_DEST_ADD names, with its slot. -/
def State.destNamed (s : State) (v : Word) : Option (Nat × Dest) := s.sch.dests.find? fun d =>
  d.2.src == Word.bits v 0 8 && d.2.dst == Word.bits v 8 8 && d.2.seq == Word.bits v 16 16

theorem State.destAdd_held {v : Word} {d : Nat × Dest} (h : s.destNamed v = some d) :
    s.destAdd v = s.wn schDestLast (0x8000 + d.1) := by
  unfold State.destNamed at h
  unfold State.destAdd
  dsimp only
  rw [h]

theorem State.destAdd_placed {v : Word} {i : Nat} (h : s.destNamed v = none) (free : s.freeDest = some i) :
    s.destAdd v = (s.wn schDestLast (0x8000 + i)).destPlace i (Word.bits v 0 8) (Word.bits v 8 8)
      (Word.bits v 16 16) none := by
  unfold State.destNamed at h
  unfold State.destAdd
  dsimp only
  rw [h, free]

theorem State.destAdd_full {v : Word} (h : s.destNamed v = none) (full : s.freeDest = none) : s.destAdd v = s := by
  unfold State.destNamed at h
  unfold State.destAdd
  dsimp only
  rw [h, full]

variable {i : Nat}

theorem State.destDel_free (h : alook s.sch.dests i = none) : s.destDel i = s := by
  unfold State.destDel
  rw [h]

variable {d : Dest} (h : alook s.sch.dests i = some d)
include h

theorem State.destDel_kept (kept : d.state ≠ .waiting) :
    s.destDel i = { s with sch := { s.sch with dests := adel s.sch.dests i } } := by
  unfold State.destDel
  rw [h]
  exact if_neg kept

theorem State.destDel_waiting (waits : d.state = .waiting) : s.destDel i =
    (let t := s.releaseCall (callKey d.src 2) d.seq 2
     { t with sch := { t.sch with dests := adel t.sch.dests i } }) := by
  unfold State.destDel
  rw [h]
  refine (if_pos waits).trans ?_
  unfold State.dropDest
  rw [h]
  dsimp only
  rw [if_pos waits]

end destinations

/-- Settles O39: each row by what its accepted write does, and a landing-table word by whether it holds the call enables. -/
theorem callsAndDestinations : Obligations.CallsAndDestinations := by
  intro src s hu awake
  refine ⟨fun a v k w area hj => exec_callSet hu area hj, fun a v k w area hj => exec_callClr hu area hj,
    fun a v h => exec_callSet_elsewhere h, fun a v h => exec_callClr_elsewhere h, fun a v low hj => ?landing,
    fun a v high => ?noLanding, fun v hj => ?add, fun v hj => ?del, fun hj => ?clearAll⟩
  case landing =>
    intro n t off s1 s2 s3 s4
    rw [exec_landingTableWrite hu low hj]
    unfold State.ltWrite
    dsimp only
    refine ⟨fun other => ?_, fun enables => ?_⟩
    · rw [if_pos other]
    · rw [if_neg (not_not.2 enables)]
  case noLanding => exact exec_landingTableWrite_elsewhere high
  case add =>
    have answer : exec (.destAdd src v) s = .next (s.destAdd v) :=
      congrArg Host.Outcome.next (State.command_schDestAdd hu hj)
    rw [answer]
    exact ⟨fun d held => congrArg _ (State.destAdd_held held),
      fun i new free => congrArg _ (State.destAdd_placed new free),
      fun new full => congrArg _ (State.destAdd_full new full)⟩
  case del =>
    have answer : exec (.destDel src v) s = .next (s.destDel (Word.bits v 0 10)) :=
      congrArg Host.Outcome.next (State.command_schDestDel hu hj)
    rw [answer]
    exact ⟨fun d found kept => congrArg _ (State.destDel_kept found kept),
      fun d found waits => congrArg _ (State.destDel_waiting found waits),
      fun empty => congrArg _ (State.destDel_free empty)⟩
  case clearAll => exact congrArg Host.Outcome.next (State.command_schCmd hu hj)

/-! ### RUN and OOS of SCH_CTRL (R118, R119, R133) -/

/-- A word with its bit 0 set. -/
theorem Word.bit_setBits_one (w : Word) : Word.bit (Word.setBits w 0 1 1) 0 = true := by
  have wide : w.toNat < 2 ^ 32 := w.isLt
  simp only [Word.bit, Word.setBits, Word.bits, BitVec.toNat_ofNat, Nat.shiftRight_zero, Nat.shiftLeft_zero,
    Nat.testBit_zero, decide_eq_true_eq]
  omega

/-- Bit 1 of a word does not touch bit 0. -/
theorem Word.bit_zero_setBits_bit_one (w : Word) (v : Nat) : Word.bit (Word.setBits w 1 1 v) 0 = Word.bit w 0 := by
  have wide : w.toNat < 2 ^ 32 := w.isLt
  simp only [Word.bit, Word.setBits, Word.bits, BitVec.toNat_ofNat, Nat.testBit_zero, Nat.shiftRight_eq_div_pow,
    Nat.shiftLeft_eq, decide_eq_decide]
  omega

section schCtrl
variable {s : State}

theorem State.schRunSet_runs (h : s.rb schCtrl 0 = true) : s.schRunSet = s := if_pos h

theorem State.schRunSet_sets (h : s.rb schCtrl 0 = false) (sound : s.ltCheck = none) :
    s.schRunSet = (s.wr schLtFault 0).wf_ schCtrl 0 1 1 := by
  refine (if_neg (by simp [h])).trans ?_
  unfold State.schRunNow
  rw [sound]

theorem State.schRunSet_faulty {n r : Nat} (h : s.rb schCtrl 0 = false) (fault : s.ltCheck = some (n, r)) :
    s.schRunSet = s.wr schLtFault (pack [(0, 8, n), (8, 4, r)]) := by
  refine (if_neg (by simp [h])).trans ?_
  unfold State.schRunNow State.ltFaultNote
  rw [fault]

variable {src : Src} {v : Word} (hu : s.up_ = true) (hj : s.judge src schCtrl v = none)
include hu hj

/-- RUN written 1 is judged after the host cause. -/
theorem State.command_schCtrl_set (run : Word.bit v 0 = true) : s.command src schCtrl v =
    ((s.wf_ schCtrl 1 1 (Word.bits v 1 1)).oosHostNow (Word.bit v 1)).schRunSet := by
  rw [State.command_schCtrl hu hj]
  simp [run]

theorem State.command_schCtrl_stop (h : s.rb schCtrl 0 = true) (run : Word.bit v 0 = false) : s.command src schCtrl v =
    ((s.wf_ schCtrl 1 1 (Word.bits v 1 1)).oosHostNow (Word.bit v 1)).schStop := by
  rw [State.command_schCtrl hu hj]
  simp [run, h]

theorem State.command_schCtrl_idle (h : s.rb schCtrl 0 = false) (run : Word.bit v 0 = false) : s.command src schCtrl v =
    (s.wf_ schCtrl 1 1 (Word.bits v 1 1)).oosHostNow (Word.bit v 1) := by
  rw [State.command_schCtrl hu hj]
  simp [run, h]

end schCtrl

/-! ### The host cause of SCH_OOS (R133) -/

section oosHost
variable {s : State}

theorem State.oosHostNow_sets (h : s.sch.oosHost = false) :
    s.oosHostNow true = ({ s with sch := { s.sch with oosHost := true } } : State).oosSet := by
  simp [State.oosHostNow, State.oosChange, h]

theorem State.oosHostNow_ends (h : s.sch.oosHost = true) (last : (s.sch.oosTraction || s.sch.oosSafe) = false) :
    s.oosHostNow false = ({ s with sch := { s.sch with oosHost := false } } : State).raise pgSch 6 := by
  simp only [Bool.or_eq_false_iff] at last
  simp [State.oosHostNow, State.oosChange, h, last]

theorem State.oosHostNow_quiet {on : Bool}
    (h : on = s.sch.oosHost ∨ (on = false ∧ (s.sch.oosTraction || s.sch.oosSafe) = true)) :
    s.oosHostNow on = { s with sch := { s.sch with oosHost := on } } := by
  refine (if_neg ?_).trans (if_neg ?_)
  all_goals obtain rfl | ⟨rfl, others⟩ := h
  · simp
  · simp
  · simp only [Bool.and_not_self, Bool.false_eq_true, not_false_eq_true]
  · simp [Bool.or_assoc, others]

end oosHost

/-! ### SCH_MODE (R124, R131) -/

section schMode
variable {s : State} {v : Word}

theorem State.modeWrite_same (h : s.mode = modeOf (Word.bits v 0 3)) :
    s.modeWrite v = (s.wr schMode v).raise pgSch 5 := if_pos h

/-- A change of mode enters the new one; a car at its recall landing then closes its doors (R131). -/
theorem State.modeWrite_change (h : s.mode ≠ modeOf (Word.bits v 0 3)) : s.modeWrite v =
    let u := ((s.wr schMode v).raise pgSch 5).modeEntry (modeOf (Word.bits v 0 3))
    if s.mode = .recall ∧ u.sch.recallDone then
      ({ u with sch := { u.sch with recallDone := false } } : State).schClose else u := if_neg h

end schMode

/-- Settles O40: each row by what its accepted write does. That leaving RECALL at its landing closes the doors (log entry 84)
and that clearing RUN stops Bellmetal (log entry 99) are the model's choices. -/
theorem schedulerControl : Obligations.SchedulerControl := by
  intro src s hu
  refine ⟨fun v hj => ?mode, fun hj => ?set, fun hj => ?clear, fun on hj runs => ?oos,
    fun hj => congrArg Host.Outcome.next (State.command_schCmd hu hj), fun on => ?cause⟩
  case mode =>
    intro t m u
    have answer : exec (.schModeWrite src v) s = .next (s.modeWrite v) :=
      congrArg Host.Outcome.next (State.command_schMode hu hj)
    rw [answer]
    refine ⟨fun same => congrArg _ (State.modeWrite_same same), fun change recalled done => congrArg _ ?_,
      fun change other => congrArg _ ?_⟩
    all_goals rw [State.modeWrite_change change]
    · exact if_pos ⟨recalled, done⟩
    · refine if_neg ?_
      rintro ⟨recalled, done⟩
      exact other.elim (absurd recalled) fun notDone => Bool.false_ne_true (notDone.symm.trans done)
  case set =>
    have answer := State.command_schCtrl_set hu hj (Word.bit_setBits_one _)
    exact ⟨fun runs => congrArg Host.Outcome.next (answer.trans (State.schRunSet_runs runs)),
      fun stands sound => congrArg Host.Outcome.next (answer.trans (State.schRunSet_sets stands sound)),
      fun n r stands fault => congrArg Host.Outcome.next (answer.trans (State.schRunSet_faulty stands fault))⟩
  case clear =>
    have off := Word.bit_setBits_zero (s.rd schCtrl)
    exact ⟨fun ran => congrArg Host.Outcome.next (State.command_schCtrl_stop hu hj ran off),
      fun stood => congrArg Host.Outcome.next (State.command_schCtrl_idle hu hj stood off)⟩
  case oos =>
    refine congrArg Host.Outcome.next ?_
    have run : Word.bit (Word.setBits (s.rd schCtrl) 1 1 (b2n on)) 0 = s.rb schCtrl 0 := Word.bit_zero_setBits_bit_one _ _
    cases stood : s.rb schCtrl 0 with
    | false => exact State.command_schCtrl_idle hu hj stood (run.trans stood)
    | true =>
      have still := runs.resolve_left (by simp [stood])
      exact (State.command_schCtrl_set hu hj (run.trans stood)).trans (State.schRunSet_runs still)
  case cause =>
    intro t other
    refine ⟨?_, ?_, State.oosHostNow_quiet⟩
    · rintro rfl fresh
      exact State.oosHostNow_sets fresh
    · rintro rfl was last
      exact State.oosHostNow_ends was last

end Sys2Proof.Machine

/-! PROOF. The filtered inputs of the field channels, and the landings' buttons on them (chapters 7 and 13): O51. -/

namespace Sys2Proof.Machine

/-! ### One input channel at a filter tick (R248, R256) -/

section channel
variable {s : State} {g i : Nat} {raw : Word} (hi : i < 32)
include hi

theorem State.nth_filtQs : nth (s.filtQs g raw) i 0 =
    if s.chField g i 0 2 != 1 then 0
    else if s.firstSetting g i then (if Word.bit raw i then s.rf_ (fiogFilt (grpPage g)) 8 8 else 0)
    else filtQ (s.rf_ (fiogFilt (grpPage g)) 8 8) (nth (s.grp g).q i 0) (Word.bit raw i) := by
  simp [State.filtQs, nth, hi]

theorem State.nth_filtStates : nth (s.filtStates g raw) i false = (s.chField g i 0 2 == 1 &&
    (if s.firstSetting g i then Word.bit raw i
     else filtOut (s.rf_ (fiogFilt (grpPage g)) 8 8) (nth (s.filtQs g raw) i 0) (Word.bit (s.grp g).filt i))) := by
  simp [State.filtStates, nth, hi]

theorem State.filtStates_getElem? : (s.filtStates g raw)[i]? = some (nth (s.filtStates g raw) i false) := by
  simp [State.filtStates, nth, hi]

/-- A recorded change: an input channel whose filtered state differs, unless this tick sets it first. -/
theorem State.mem_filtChanges {x : Bool} : (i, x) ∈ s.filtChanges g raw ↔ x = nth (s.filtStates g raw) i false ∧
    s.chField g i 0 2 = 1 ∧ s.firstSetting g i = false ∧ x ≠ Word.bit (s.grp g).filt i := by
  have state : (s.filtStates g raw)[i]? = some x ↔ x = nth (s.filtStates g raw) i false := by
    rw [State.filtStates_getElem? hi, Option.some.injEq, eq_comm]
  rw [← state]
  simp only [State.filtChanges, List.mem_filterMap, Prod.exists, List.mem_zipIdx_iff_getElem?]
  constructor
  · rintro ⟨y, j, found, h⟩
    simp only [Option.ite_none_right_eq_some, Bool.and_eq_true, beq_iff_eq, Bool.not_eq_true', bne_iff_ne,
      Option.some.injEq, Prod.mk.injEq] at h
    obtain ⟨⟨⟨input, settled⟩, differs⟩, rfl, rfl⟩ := h
    exact ⟨found, input, settled, differs⟩
  · rintro ⟨found, input, settled, differs⟩
    exact ⟨x, i, found, if_pos (by simp [input, settled, differs])⟩

/-- A first setting takes the pin at once and is no change. -/
theorem State.filt_first (input : s.chField g i 0 2 = 1) (first : s.firstSetting g i = true) :
    nth (s.filtQs g raw) i 0 = (if Word.bit raw i then s.rf_ (fiogFilt (grpPage g)) 8 8 else 0) ∧
      nth (s.filtStates g raw) i false = Word.bit raw i ∧ ∀ x, (i, x) ∉ s.filtChanges g raw := by
  refine ⟨?_, ?_, fun x change => ?_⟩
  · simp [State.nth_filtQs hi, input, first]
  · simp [State.nth_filtStates hi, input, first]
  · obtain ⟨-, -, settled, -⟩ := (State.mem_filtChanges hi).1 change
    exact Bool.false_ne_true (settled.symm.trans first)

/-- A settled input: the counter moves by one, and the state follows it at its two ends. -/
theorem State.filt_settled (input : s.chField g i 0 2 = 1) (settled : s.firstSetting g i = false) :
    nth (s.filtQs g raw) i 0 = filtQ (s.rf_ (fiogFilt (grpPage g)) 8 8) (nth (s.grp g).q i 0) (Word.bit raw i) ∧
      nth (s.filtStates g raw) i false =
        filtOut (s.rf_ (fiogFilt (grpPage g)) 8 8) (nth (s.filtQs g raw) i 0) (Word.bit (s.grp g).filt i) ∧
      ∀ x, (i, x) ∈ s.filtChanges g raw ↔ (x = nth (s.filtStates g raw) i false ∧ x ≠ Word.bit (s.grp g).filt i) := by
  refine ⟨?_, ?_, fun x => ?_⟩
  · simp [State.nth_filtQs hi, input, settled]
  · simp [State.nth_filtStates hi, input, settled]
  · simp [State.mem_filtChanges hi, input, settled]

theorem State.filt_noInput (other : s.chField g i 0 2 ≠ 1) : nth (s.filtQs g raw) i 0 = 0 ∧
    nth (s.filtStates g raw) i false = false ∧ ∀ x, (i, x) ∉ s.filtChanges g raw := by
  refine ⟨?_, ?_, fun x change => ?_⟩
  · simp [State.nth_filtQs hi, other]
  · simp [State.nth_filtStates hi, other]
  · obtain ⟨-, input, -⟩ := (State.mem_filtChanges hi).1 change
    exact other input

end channel

/-! ### A landing's button (R132) -/

section button
variable {s : State} {g l c : Nat} {ch : List (Nat × Bool)}

/-- The button of a landing lies on an input channel of the group. -/
theorem State.btnTick_here (named : s.buttonCh l = some c) (group : chGroup c = g)
    (input : s.chField g (c % 32) 0 2 = 1) : s.btnTick g ch l =
    if Word.bit (s.grp g).filt (c % 32) then
      (if ch.contains (c % 32, true) then s.buttonOn l true
       else if (alook s.sch.btnOn l).isNone then s.buttonOn l false else s)
    else if s.sch.btnArmed.contains l ∧ (alook s.sch.btnOn l).isNone then s
    else s.buttonOff l := by
  unfold State.btnTick
  rw [named]
  refine if_neg ?_
  rintro (other | other)
  · exact other group
  · exact other input

theorem State.btnTick_elsewhere (h : s.buttonCh l = none ∨
    s.buttonCh l = some c ∧ (chGroup c ≠ g ∨ s.chField g (c % 32) 0 2 ≠ 1)) : s.btnTick g ch l = s := by
  unfold State.btnTick
  obtain unnamed | ⟨named, other⟩ := h
  · rw [unnamed]
  · rw [named]
    exact if_pos other

variable (named : s.buttonCh l = some c) (group : chGroup c = g) (input : s.chField g (c % 32) 0 2 = 1)
include named group input

/-- An active button that has just changed, or is not timed yet: its time starts, and a change once armed waits. -/
theorem State.btnTick_starts (active : Word.bit (s.grp g).filt (c % 32) = true)
    (h : ch.contains (c % 32, true) = true ∨ alook s.sch.btnOn l = none) :
    s.btnTick g ch l = s.buttonOn l (ch.contains (c % 32, true)) := by
  rw [State.btnTick_here named group input, if_pos active]
  cases changed : ch.contains (c % 32, true) with
  | true => rfl
  | false =>
    have untimed := h.resolve_left fun has => Bool.false_ne_true (changed.symm.trans has)
    rw [if_neg Bool.false_ne_true, untimed]
    rfl

theorem State.btnTick_lasts (active : Word.bit (s.grp g).filt (c % 32) = true)
    (unchanged : ch.contains (c % 32, true) = false) (timed : alook s.sch.btnOn l ≠ none) : s.btnTick g ch l = s := by
  rw [State.btnTick_here named group input, if_pos active, unchanged, if_neg Bool.false_ne_true,
    if_neg (by simpa using timed)]

theorem State.btnTick_rests (inactive : Word.bit (s.grp g).filt (c % 32) = false)
    (armed : s.sch.btnArmed.contains l = true) (untimed : alook s.sch.btnOn l = none) : s.btnTick g ch l = s := by
  rw [State.btnTick_here named group input, inactive, if_neg Bool.false_ne_true, if_pos ⟨armed, by simp [untimed]⟩]

theorem State.btnTick_ends (inactive : Word.bit (s.grp g).filt (c % 32) = false)
    (h : s.sch.btnArmed.contains l = false ∨ alook s.sch.btnOn l ≠ none) : s.btnTick g ch l = s.buttonOff l := by
  rw [State.btnTick_here named group input, inactive, if_neg Bool.false_ne_true, if_neg]
  rintro ⟨armed, untimed⟩
  obtain unarmed | timed := h
  · exact Bool.false_ne_true (unarmed.symm.trans armed)
  · exact timed (Option.isNone_iff_eq_none.1 untimed)

end button

/-! ### The tick of a group, and a change noted in COS (R248, R249, R363) -/

section fieldTick
variable {s : State} {g : Nat} {raw : Word}

theorem exec_fieldFilterTick (hu : s.up_ = true) (low : 1 ≤ g) (high : g ≤ 8) :
    exec (.fieldFilterTick g raw) s = .next (s.fieldTick g raw) :=
  congrArg Host.Outcome.next (if_pos ⟨hu, low, high⟩)

theorem State.fieldTick_unsupplied (bad : (s.grp g).supply.good = false) :
    s.fieldTick g raw = s.setGrp g { s.grp g with raw := raw } := by
  have shows : (!(s.grp g).supply.good) = true := by simp [bad]
  exact (if_pos shows).trans (if_pos shows)

/-- Disarming buttons and filtering do not touch what PARK rests on. -/
theorem State.btnDisarm_filterTick_sys : ((s.btnDisarm g).filterTick g raw).sys = s.sys :=
  (State.filterTick_only (pt := { rf := true, irqNow := true, sch := true, fiog := true }) rfl rfl rfl
    (State.btnDisarm_only rfl (Only.refl _ s) g) g raw).sys.resolve_left Bool.false_ne_true

theorem State.fieldTick_supplied (good : (s.grp g).supply.good = true) : s.fieldTick g raw =
    let u := (s.btnDisarm g).filterTick g raw
    let w := if s.sys.run = .park ∧ (s.filtChanges g raw).any (fun x => s.fieldWakes g x.1) = true then
      u.parkEnd .fieldOrCall else u
    each w.landings w (fun t l => t.btnTick g (s.filtChanges g raw) l) := by
  refine (if_neg (by simp [good])).trans ?_
  dsimp only
  rw [State.btnDisarm_filterTick_sys]

theorem State.cosNote_disabled {i : Nat} {up : Bool}
    (h : s.rb (if up then fiogCosRise (grpPage g) else fiogCosFall (grpPage g)) i = false) : s.cosNote g i up = s :=
  if_neg (by simp [h])

end fieldTick

/-- Settles O51: the tick by its supply, a channel by its first setting and its configuration, a landing's button by its
filtered channel, and a change by the enable of its edge. -/
theorem fieldInputsAreFiltered : Obligations.FieldInputsAreFiltered := by
  intro s g raw hu low high n
  rw [exec_fieldFilterTick hu low high]
  refine ⟨fun bad => congrArg _ (State.fieldTick_unsupplied bad), fun good => congrArg _ (State.fieldTick_supplied good),
    fun i hi input => ⟨State.filt_first hi input, State.filt_settled hi input⟩,
    fun i hi other => State.filt_noInput hi other,
    fun l c ch named group input => ?button, fun l c ch h => State.btnTick_elsewhere h,
    fun i up => ⟨State.cosNote_disabled, fun enabled => if_pos enabled⟩⟩
  exact ⟨State.btnTick_starts named group input, State.btnTick_lasts named group input,
    State.btnTick_rests named group input, State.btnTick_ends named group input⟩

end Sys2Proof.Machine

/-! PROOF. What the frames of the group bus do, and the group's timers, membership and commands (chapter 8): O42 and
O43. -/

namespace Sys2Proof.Machine

/-! ### From the bus to the engine that hears it (R137, R141, R235) -/

section hearing
variable {s : State} {n : Nat} {f : CanFrame}

theorem State.canIncoming_runs (hu : s.up_ = true) (hr : s.canRuns n = true) :
    s.canIncoming n f = (s.canReceive n f).engineFrame n f := if_pos ⟨hu, hr⟩

theorem State.canIncoming_stopped (hr : s.canRuns n = false) : s.canIncoming n f = s := if_neg (by simp [hr])

/-- A command of a frame does nothing with a frame of another class, or where the controller takes no part in its bus. -/
theorem State.canIncoming_unheard {mine : Bool} (h : mine = false ∨ s.canRuns n = false) :
    (if mine then s.canIncoming n f else s) = s := by
  rcases h with rfl | hr
  · rfl
  · exact ite_eq_right_iff.2 fun _ => State.canIncoming_stopped hr

/-- A frame is of one class alone. -/
theorem isRitha_other {c e : Nat} (hc : isRitha c f = true) (ne : c ≠ e) : isRitha e f = false := by
  simp only [isRitha, Bool.and_eq_true, beq_iff_eq] at hc
  obtain ⟨-, rfl⟩ := hc
  simp [isRitha, ne]

/-- What Bellmetal makes of a frame on CAN2 (R140, Table 8.3): nothing of another class or in OFF, a protocol count where
the conditions do not hold, and otherwise what `heard` says. -/
def State.rithaRx (s : State) (c : Nat) (f : CanFrame) (heard : State) : State :=
  if !s.bidHears ∨ !isRitha c f then s else if s.rithaBad c f then s.bidProto else heard

variable {c : Nat} {heard : State}

theorem State.rithaRx_other (hc : isRitha c f = false) : s.rithaRx c f heard = s := if_pos (by simp [hc])

theorem State.rithaRx_off (off : s.bid.member = .off) : s.rithaRx c f heard = s :=
  if_pos (by simp [State.bidHears, off])

section hears
variable (on : s.bid.member ≠ .off) (hc : isRitha c f = true)
include on hc

theorem State.rithaRx_discards (bad : s.rithaBad c f = true) : s.rithaRx c f heard = s.bidProto :=
  (if_neg (by simp [State.bidHears, on, hc])).trans (if_pos bad)

theorem State.rithaRx_hears (good : s.rithaBad c f = false) : s.rithaRx c f heard = heard :=
  (if_neg (by simp [State.bidHears, on, hc])).trans (if_neg (by simp [good]))

end hears

theorem State.announcementRx_other (hc : isRitha 1 f = false) : s.announcementRx f = s := State.rithaRx_other hc
theorem State.bidFrameRx_other (hc : isRitha 2 f = false) : s.bidFrameRx f = s := State.rithaRx_other hc
theorem State.releaseRx_other (hc : isRitha 3 f = false) : s.releaseRx f = s := State.rithaRx_other hc

end hearing

section frameCommands
variable {s : State} {f : CanFrame} (hu : s.up_ = true)
include hu

/-- A hall press: the call of its key, with the destination and SEQ that a DEST call brings (R141). -/
theorem exec_hallPress (hp : isPress f = true) (hr : s.canRuns 1 = true) :
    let type := keyType (idKey f.id.toNat)
    exec (.hallPress f) s = .next ((s.canReceive 1 f).press (idKey f.id.toNat)
      (if type = 2 then byteAt f.data 0 else 0xFF) (if type = 2 then leNat (slice f.data 1 2) else 0)) := by
  refine congrArg Host.Outcome.next ((if_pos hp).trans ((State.canIncoming_runs hu hr).trans ((if_pos hp).trans ?_)))
  by_cases dest : keyType (idKey f.id.toNat) = 2 <;> simp only [dest, if_true, if_false]

variable (hr : s.canRuns 2 = true)
include hr

theorem exec_announcement (hc : isRitha 1 f = true) : exec (.announcement f) s = .next ((s.canReceive 2 f).rithaRx 1 f
    ((s.canReceive 2 f).announceHeard f.id.toNat f.data f.vp)) := by
  refine congrArg Host.Outcome.next ((if_pos hc).trans ((State.canIncoming_runs hu hr).trans ?_))
  simp only [State.engineFrame, State.bidFrameRx_other (isRitha_other hc (by decide : 1 ≠ 2)),
    State.releaseRx_other (isRitha_other hc (by decide : 1 ≠ 3))]
  rfl

theorem exec_bidFrame (hc : isRitha 2 f = true) : exec (.bidFrame f) s = .next ((s.canReceive 2 f).rithaRx 2 f
    ((s.canReceive 2 f).bidHeard f.id.toNat f.data)) := by
  refine congrArg Host.Outcome.next ((if_pos hc).trans ((State.canIncoming_runs hu hr).trans ?_))
  simp only [State.engineFrame, State.announcementRx_other (isRitha_other hc (by decide : 2 ≠ 1)),
    State.releaseRx_other (isRitha_other hc (by decide : 2 ≠ 3))]
  rfl

theorem exec_releaseFrame (hc : isRitha 3 f = true) : exec (.releaseFrame f) s = .next ((s.canReceive 2 f).rithaRx 3 f
    ((s.canReceive 2 f).releaseHeard f.id.toNat f.data)) := by
  refine congrArg Host.Outcome.next ((if_pos hc).trans ((State.canIncoming_runs hu hr).trans ?_))
  simp only [State.engineFrame, State.announcementRx_other (isRitha_other hc (by decide : 3 ≠ 1)),
    State.bidFrameRx_other (isRitha_other hc (by decide : 3 ≠ 2))]
  rfl

end frameCommands

/-! ### A hall press by membership state (R141, R154) -/

section press
variable {s : State} {k d q : Nat}

theorem State.press_off (off : s.bid.member = .off) : s.press k d q = s := by
  simp only [State.press, off]

theorem State.press_listen (listen : s.bid.member = .listen) :
    s.press k d q = { s with bid := { s.bid with presses := s.bid.presses ++ [(k, d, q)] } } := by
  simp only [State.press, listen]

theorem State.press_member (member : s.bid.member = .member) (new : s.gcall k q = none) :
    s.press k d q = s.pressNew k d q := by
  simp only [State.press, member]
  exact if_neg (by simp [new])

theorem State.press_island (island : s.bid.member = .island) (new : s.gcall k q = none) :
    s.press k d q = s.pressIsland k d q := by
  simp only [State.press, island]
  exact if_neg (by simp [new])

/-- A call of the list is pressed again to no effect, unless presses are deferred. -/
theorem State.press_held (hears : s.bid.member ≠ .listen) (held : s.gcall k q ≠ none) : s.press k d q = s := by
  have known : (s.gcall k q).isSome = true := Option.isSome_iff_ne_none.2 held
  unfold State.press
  split
  · rfl
  · next listen => exact absurd listen hears
  · exact if_pos known
  · exact if_pos known

/-- The entry that a press makes (R141): of an UP or DOWN call with a SEQ of this car's counter. -/
def State.pressEntry (s : State) (k d q : Nat) : GCall :=
  { key := k, seq := if keyType k ≠ 2 then (s.car * 1024 + s.bid.counter) % 65536 else q, dest := d, up := s.keyUp k d
    holder := none, tag := 0, lastAt := s.tick, annAt := s.tick, closeAt := s.tick, orphAt := 0, firstAt := none
    mine := s.rb bidCfg 8 }

/-- A SEQ of the car's own counts the counter on. -/
def State.pressCounted (s : State) (k : Nat) : State :=
  if keyType k ≠ 2 then { s with bid := { s.bid with counter := (s.bid.counter + 1) % 1024 } } else s

theorem State.pressNew_eq : s.pressNew k d q =
    let u := (s.pressCounted k).gcallPut (s.pressEntry k d q)
    if s.rb bidCfg 8 then u.announceCall (s.pressEntry k d q) 0 0xFF else u := by
  by_cases dest : keyType k = 2 <;> simp [State.pressNew, State.pressCounted, State.pressEntry, dest]

theorem State.pressNew_silent (silent : s.rb bidCfg 8 = false) :
    s.pressNew k d q = (s.pressCounted k).gcallPut (s.pressEntry k d q) :=
  State.pressNew_eq.trans (if_neg (by simp [silent]))

theorem State.pressNew_announced (announced : s.rb bidCfg 8 = true) : s.pressNew k d q =
    ((s.pressCounted k).gcallPut (s.pressEntry k d q)).announceCall (s.pressEntry k d q) 0 0xFF :=
  State.pressNew_eq.trans (if_pos announced)

theorem State.pressIsland_disabled (disabled : s.rb bidCfg 7 = false) : s.pressIsland k d q = s :=
  if_pos (.inr (by simp [disabled]))

end press

/-! ### A bid (R145 to R147) -/

section bid
variable {s : State} {id : Nat} {d : List Byte}

theorem State.bidHeard_awards {r : Round} (round : s.bid.round = some r) (key : r.key = leNat (slice d 0 2))
    (tag : r.tag = idTag id) : s.bidHeard id d =
      (({ s.roundClose with bid := { s.roundClose.bid with
          award := some (r, idCar id), pendAwards := s.roundClose.bid.pendAwards ++ [(r, idCar id, s.tick)] } } : State).wr
        bidCosts (pack [(0, 16, id / 1024 % 65536), (16, 16, s.bid.ownCost)])).bidPump := by
  unfold State.bidHeard
  rw [round]
  exact if_pos ⟨key, tag⟩

theorem State.bidHeard_unmatched (h : ¬ ∃ r, s.bid.round = some r ∧ r.key = leNat (slice d 0 2) ∧ r.tag = idTag id) :
    s.bidHeard id d = s.bidStale (leNat (slice d 0 2)) (idTag id) := by
  unfold State.bidHeard
  split
  · next r round => exact if_neg fun matched => h ⟨r, round, matched⟩
  · rfl

variable {key tag : Nat}

theorem State.bidStale_repeats (h : ∃ r c, s.bid.award = some (r, c) ∧ r.key = key ∧ r.tag = tag) :
    s.bidStale key tag = s := by
  obtain ⟨r, c, award, rfl, rfl⟩ := h
  unfold State.bidStale
  rw [award]
  exact if_pos (by simp)

theorem State.bidStale_counts (h : ¬ ∃ r c, s.bid.award = some (r, c) ∧ r.key = key ∧ r.tag = tag) :
    s.bidStale key tag = s.bump bidCntErr 0 8 := by
  unfold State.bidStale
  refine if_neg fun again => h ?_
  split at again
  · next r c award => exact ⟨r, c, award, by simpa using again⟩
  · exact absurd again Bool.false_ne_true

end bid

/-! ### A release (R147, R152) -/

section release
variable {s : State} {id : Nat} {d : List Byte}

theorem State.releaseHeard_foreign (h : ∀ c, s.gcall (idKey id) (leNat (slice d 4 2)) = some c →
    c.holder ≠ some (idCar id) ∨ c.tag ≠ idTag id) : s.releaseHeard id d = s.bump bidCntErr 0 8 := by
  unfold State.releaseHeard
  dsimp only
  split
  · rfl
  · next c known => exact if_pos (h c known)

/-- The car's own release is out: it keeps the call no longer out of the order of service. -/
def State.releaseOut (s : State) (own : Bool) (k q : Nat) : State :=
  if own then { s with bid := { s.bid with releasing := s.bid.releasing.filter (fun r =>
    !(r.1 == k && (keyType k != 2 || r.2 == q))) } } else s

variable {c : GCall} (known : s.gcall (idKey id) (leNat (slice d 4 2)) = some c) (holder : c.holder = some (idCar id))
  (tag : c.tag = idTag id)
include known holder tag

theorem State.releaseHeard_served (served : byteAt d 3 = 0) : s.releaseHeard id d =
    (s.releaseOut (idCar id == s.car) (idKey id) (leNat (slice d 4 2))).gcallDel (idKey id) (leNat (slice d 4 2)) := by
  unfold State.releaseHeard
  dsimp only
  rw [known]
  exact (if_neg (by simp [holder, tag])).trans (if_pos served)

/-- A call released for another reason is free, and its releaser announces it. -/
theorem State.releaseHeard_frees (reason : byteAt d 3 ≠ 0) : s.releaseHeard id d =
    let own := idCar id == s.car
    let free : GCall := { c with holder := none, lastAt := s.tick, annAt := s.tick, closeAt := s.tick, mine := own }
    let u := (s.releaseOut own (idKey id) (leNat (slice d 4 2))).gcallPut free
    if own then u.announceCall free 16 0xFF else u := by
  unfold State.releaseHeard
  dsimp only
  rw [known]
  exact (if_neg (by simp [holder, tag])).trans (if_neg reason)

end release

/-- Settles O42: each frame by its command and what its class then does. That every membership state but OFF hears the
rounds, ISLAND among them, is the model's choice (log entry 98). -/
theorem groupFramesAreHeard : Obligations.GroupFramesAreHeard := by
  intro s f hu id k type
  refine ⟨fun h => ?noPress, fun h => ?noAnnouncement, fun h => ?noBid, fun h => ?noRelease, fun hp hr => ?press,
    fun t k d q => ⟨State.pressNew_silent, State.pressNew_announced, State.pressIsland_disabled⟩, fun hr => ?ritha⟩
  case noPress => exact congrArg Host.Outcome.next (State.canIncoming_unheard h)
  case noAnnouncement => exact congrArg Host.Outcome.next (State.canIncoming_unheard h)
  case noBid => exact congrArg Host.Outcome.next (State.canIncoming_unheard h)
  case noRelease => exact congrArg Host.Outcome.next (State.canIncoming_unheard h)
  case press =>
    rw [exec_hallPress hu hp hr]
    refine ⟨fun member new => congrArg _ (State.press_member member new),
      fun island new => congrArg _ (State.press_island island new), fun rests => congrArg _ ?_,
      fun listen => congrArg _ (State.press_listen listen)⟩
    rcases rests with off | ⟨hears, held⟩
    · exact State.press_off off
    · exact State.press_held hears held
  case ritha =>
    refine ⟨fun off hc => ?_, fun off hc => ?_, fun off hc => ?_, fun on hc => ⟨fun good => ?_, fun bad => ?_⟩,
      fun on hc => ?bid, fun on hc => ?release⟩
    · rw [exec_announcement hu hr hc, State.rithaRx_off off]
    · rw [exec_bidFrame hu hr hc, State.rithaRx_off off]
    · rw [exec_releaseFrame hu hr hc, State.rithaRx_off off]
    · rw [exec_announcement hu hr hc, State.rithaRx_hears on hc good]
      rfl
    · rw [exec_announcement hu hr hc, State.rithaRx_discards on hc bad]
    case bid =>
      rw [exec_bidFrame hu hr hc]
      refine ⟨fun bad => ?_, fun good matched => ?_, fun good unmatched again => ?_, fun good unmatched new => ?_⟩
      · rw [State.rithaRx_discards on hc bad]
      · obtain ⟨r, round, key, tag⟩ := matched
        rw [State.rithaRx_hears on hc good, State.bidHeard_awards round key tag]
        dsimp only
        rw [round]
        rfl
      · rw [State.rithaRx_hears on hc good, State.bidHeard_unmatched unmatched, State.bidStale_repeats again]
      · rw [State.rithaRx_hears on hc good, State.bidHeard_unmatched unmatched, State.bidStale_counts new]
    case release =>
      rw [exec_releaseFrame hu hr hc]
      refine ⟨fun bad => ?_, fun good foreign => ?_, fun c good known holder tag => ⟨fun served => ?_, fun reason => ?_⟩⟩
      · rw [State.rithaRx_discards on hc bad]
      · rw [State.rithaRx_hears on hc good, State.releaseHeard_foreign foreign]
      · rw [State.rithaRx_hears on hc good, State.releaseHeard_served known holder tag served]
        rfl
      · rw [State.rithaRx_hears on hc good, State.releaseHeard_frees known holder tag reason]
        rfl

/-! ### The end of a round without a bid (R148) -/

section nobid
variable {s : State}

theorem State.roundNobid_waits (h : ¬ ∃ r, s.bid.round = some r ∧ r.openUs + 5000 < s.us + 63) : s.roundNobid = s := by
  unfold State.roundNobid
  split
  · rfl
  · next r round => exact if_neg fun elapsed => h ⟨r, round, elapsed⟩

/-- The round closed with NOBID and its count. -/
def State.roundLapsed (s : State) : State := (s.roundClose.bump bidCntErr 16 8).raise pgBid 3

/-- The call of a round closed without a bid: its repeat counts from now. -/
def State.callClosed (s : State) (r : Round) : State :=
  match s.gcall r.key r.seq with
  | none => s
  | some c => s.gcallPut { c with closeAt := s.tick }

theorem State.callClosed_unknown {r : Round} (unknown : s.gcall r.key r.seq = none) : s.callClosed r = s := by
  simp only [State.callClosed, unknown]

theorem State.callClosed_known {r : Round} {c : GCall} (known : s.gcall r.key r.seq = some c) :
    s.callClosed r = s.gcallPut { c with closeAt := s.tick } := by
  simp only [State.callClosed, known]

theorem State.roundNobid_closes {r : Round} (round : s.bid.round = some r) (elapsed : r.openUs + 5000 < s.us + 63) :
    s.roundNobid = (s.roundLapsed.callClosed r).bidPump := by
  unfold State.roundNobid
  rw [round]
  exact if_pos elapsed

end nobid

/-! ### Re-bids, repeats and orphans (R148, R152, R153) -/

section again
variable {s : State} {k q : Nat}

/-- A member without an announcement of the call in its queue. -/
def State.mayAnnounce (s : State) (k q : Nat) : Prop := s.bid.member = .member ∧ s.bidQueued false k q = false

/-- A call held by this car, whose re-bid is due. -/
def State.rebidDue (s : State) (k q : Nat) (c : GCall) : Prop :=
  c.holder = some s.car ∧ s.isReleasing k q = false ∧ s.since c.lastAt (msTicks (s.rn bidRebidMs)) = true

/-- A call in WAIT that this module announced, whose repeat is due. -/
def State.repeatDue (s : State) (c : GCall) : Prop :=
  c.holder = none ∧ c.mine = true ∧ s.since c.closeAt (msTicks (s.rn bidRepeatMs)) = true

/-- A call in WAIT without an announcement for ORPHAN_N repeats. -/
def State.silentWait (s : State) (c : GCall) : Prop :=
  c.holder = none ∧ s.since c.annAt (s.rn bidOrphanN * msTicks (s.rn bidRepeatMs)) = true

/-- A held call without a re-bid, and without an ORPHAN, for ORPHAN_N re-bids. -/
def State.silentHeld (s : State) (c : GCall) : Prop :=
  c.holder ≠ none ∧ s.since (max c.lastAt c.orphAt) (s.rn bidOrphanN * msTicks (s.rn bidRebidMs)) = true

theorem State.rebidNow_rests (h : ∀ c, s.gcall k q = some c → s.mayAnnounce k q → ¬ s.rebidDue k q c) :
    s.rebidNow k q = s := by
  unfold State.rebidNow
  split
  · rfl
  · next c known =>
    refine if_neg ?_
    rintro ⟨member, holder, kept, unqueued, elapsed⟩
    exact h c known ⟨member, by simpa using unqueued⟩ ⟨holder, by simpa using kept, elapsed⟩

theorem State.repeatNow_rests (h : ∀ c, s.gcall k q = some c → s.mayAnnounce k q → ¬ s.repeatDue c) :
    s.repeatNow k q = s := by
  unfold State.repeatNow
  split
  · rfl
  · next c known =>
    refine if_neg ?_
    rintro ⟨member, wait, mine, unqueued, elapsed⟩
    exact h c known ⟨member, by simpa using unqueued⟩ ⟨by simpa using wait, mine, elapsed⟩

/-- The silence of a call is counted by its holder's re-bids, or in WAIT by its announcements. -/
theorem State.silent_iff {c : GCall} : s.since (if c.holder.isSome then max c.lastAt c.orphAt else c.annAt)
    (s.rn bidOrphanN * msTicks (if c.holder.isSome then s.rn bidRebidMs else s.rn bidRepeatMs)) = true ↔
      s.silentWait c ∨ s.silentHeld c := by
  cases wait : c.holder with
  | none => simp [State.silentWait, State.silentHeld, wait]
  | some car => simp [State.silentWait, State.silentHeld, wait]

theorem State.orphanNow_rests (h : ∀ c, s.gcall k q = some c → s.mayAnnounce k q → ¬ (s.silentWait c ∨ s.silentHeld c)) :
    s.orphanNow k q = s := by
  unfold State.orphanNow
  split
  · rfl
  · next c known =>
    refine if_neg ?_
    rintro ⟨member, unqueued, elapsed⟩
    exact h c known ⟨member, by simpa using unqueued⟩ (State.silent_iff.1 elapsed)

variable {c : GCall} (known : s.gcall k q = some c) (may : s.mayAnnounce k q)
include known may

theorem State.rebidNow_announces (due : s.rebidDue k q c) : s.rebidNow k q = s.announceCall c 1 s.car := by
  obtain ⟨member, unqueued⟩ := may
  obtain ⟨holder, kept, elapsed⟩ := due
  unfold State.rebidNow
  rw [known]
  exact if_pos ⟨member, holder, by simp [kept], by simp [unqueued], elapsed⟩

theorem State.repeatNow_announces (due : s.repeatDue c) : s.repeatNow k q = s.announceCall c 4 0xFF := by
  obtain ⟨member, unqueued⟩ := may
  obtain ⟨wait, mine, elapsed⟩ := due
  unfold State.repeatNow
  rw [known]
  exact if_pos ⟨member, by simp [wait], mine, by simp [unqueued], elapsed⟩

theorem State.orphanNow_announces (silent : s.silentWait c ∨ s.silentHeld c) :
    s.orphanNow k q = s.announceCall c 8 (c.holder.getD 0xFF) := by
  obtain ⟨member, unqueued⟩ := may
  unfold State.orphanNow
  rw [known]
  exact if_pos ⟨member, by simp [unqueued], State.silent_iff.2 silent⟩

end again

/-! ### Membership (Table 8.3, R154) -/

section membership
variable {s : State}

/-- An island that listens changes its membership state. -/
theorem State.bidListen_island (island : s.bid.member = .island) : s.bidListen =
    ({ s with bid := { s.bid with listenAt := s.tick, member := .listen } } : State).raise pgBid 4 :=
  if_neg (by simp [island])

theorem State.islandEnter_enters (h : ∃ t, s.bid.cutAt = some t ∧ (s.bid.member = .listen ∨ s.bid.member = .member) ∧
    s.since t (s.rn bidOrphanN * msTicks (s.rn bidRebidMs)) = true) : s.islandEnter = s.bidSilent.bidInto .island := by
  obtain ⟨t, cut, long⟩ := h
  unfold State.islandEnter
  rw [cut]
  exact if_pos long

theorem State.islandEnter_stays (h : ¬ ∃ t, s.bid.cutAt = some t ∧ (s.bid.member = .listen ∨ s.bid.member = .member) ∧
    s.since t (s.rn bidOrphanN * msTicks (s.rn bidRebidMs)) = true) : s.islandEnter = s := by
  unfold State.islandEnter
  split
  · rfl
  · next t cut => exact if_neg fun long => h ⟨t, cut, long⟩

/-- Whether an island hears the group again, for 1 s. -/
def State.hearsAgain (s : State) : Prop :=
  s.bid.member = .island ∧ s.since s.bid.okAt 16000 = true ∧ (s.cann 2).st = .errorActive ∧ (s.cann 2).alone = false

theorem State.islandExit_listens (h : s.hearsAgain) : s.islandExit = s.bidListen := by
  obtain ⟨island, long, active, heard⟩ := h
  exact if_pos ⟨island, long, active, by simp [heard]⟩

theorem State.islandExit_stays (h : ¬ s.hearsAgain) : s.islandExit = s := by
  refine if_neg ?_
  rintro ⟨island, long, active, heard⟩
  exact h ⟨island, long, active, by simpa using heard⟩

/-- Whether RUN of BID_CTRL is to set. -/
def State.bidMayRun (s : State) : Prop := s.bid.run = false ∧ s.rb schCtrl 0 = true ∧ s.sys.profValid = true

theorem State.bidRunSet_sets (h : s.bidMayRun) : s.bidRunSet =
    let t : State := { s with bid := { s.bid with run := true } }
    if s.rb bidCfg 6 then t.bidListen else t := by
  obtain ⟨stopped, sch, profile⟩ := h
  exact if_neg (by simp [stopped, sch, profile])

theorem State.bidRunSet_stays (h : ¬ s.bidMayRun) : s.bidRunSet = s := by
  refine if_pos ?_
  by_contra may
  exact h (by simpa [State.bidMayRun] using may)

end membership

/-! ### Commands that are writes to the BID page (Table 8.7) -/

section bidWrites
variable {s : State} {src : Src} {v : Word} (hu : s.up_ = true)
include hu

/-- An accepted write to BID_CMD does what its bits ask for. -/
theorem State.command_bidCmd (hj : s.judge src bidCmd v = none) : s.command src bidCmd v =
    let s1 := if Word.bit v 0 then s.bidCntClr else s
    let s2 := if Word.bit v 1 then s1.releaseAll else s1
    if Word.bit v 2 then s2.bidRejoin else s2 := by
  obtain ⟨r, hr⟩ : ∃ r, regAt bidCmd = some r := ⟨_, rfl⟩
  exact State.command_page hu hj (by decide) rfl hr

theorem State.command_bidQuery (hj : s.judge src Machine.bidQuery v = none) :
    s.command src Machine.bidQuery v = s.bidQuery (v &&& 0x00FFFFFF) := by
  obtain ⟨r, hr⟩ : ∃ r, regAt Machine.bidQuery = some r := ⟨_, rfl⟩
  exact State.command_page hu hj (by decide) rfl hr

theorem exec_bidRejoin (hj : s.judge src bidCmd 4 = none) : exec (.bidRejoin src) s = .next s.bidRejoin :=
  congrArg Host.Outcome.next (State.command_bidCmd hu hj)

theorem exec_bidReleaseAll (hj : s.judge src bidCmd 2 = none) : exec (.bidReleaseAll src) s = .next s.releaseAll :=
  congrArg Host.Outcome.next (State.command_bidCmd hu hj)

theorem exec_bidCntClr (hj : s.judge src bidCmd 1 = none) : exec (.bidCntClr src) s = .next s.bidCntClr :=
  congrArg Host.Outcome.next (State.command_bidCmd hu hj)

end bidWrites

section timers
variable {s : State} (hl : s.live = true)
include hl

theorem exec_roundNobid : exec .roundNobid s = .next s.roundNobid := congrArg Host.Outcome.next (if_pos hl)
theorem exec_awardTakeEffect : exec .awardTakeEffect s = .next s.awardsNow := congrArg Host.Outcome.next (if_pos hl)
theorem exec_rebid (k q : Nat) : exec (.rebid k q) s = .next (s.rebidNow k q) := congrArg Host.Outcome.next (if_pos hl)
theorem exec_announceRepeat (k q : Nat) : exec (.announceRepeat k q) s = .next (s.repeatNow k q) :=
  congrArg Host.Outcome.next (if_pos hl)
theorem exec_orphanDetect (k q : Nat) : exec (.orphanDetect k q) s = .next (s.orphanNow k q) :=
  congrArg Host.Outcome.next (if_pos hl)
theorem exec_listenEnd : exec .listenEnd s = .next s.listenEnd := congrArg Host.Outcome.next (if_pos hl)
theorem exec_islandEnter : exec .islandEnter s = .next s.islandEnter := congrArg Host.Outcome.next (if_pos hl)
theorem exec_islandExit : exec .islandExit s = .next s.islandExit := congrArg Host.Outcome.next (if_pos hl)
theorem exec_bidRunSet : exec .bidRunSet s = .next s.bidRunSet := congrArg Host.Outcome.next (if_pos hl)

end timers

/-- Settles O43: each timer and each command by the lemma of its operation. That a repeated ORPHAN waits the same time from
the last one (log entry 205), and that a round closes which would lapse before the next tick (log entry 96), is the model's
choice. -/
theorem groupTimersAndCommands : Obligations.GroupTimersAndCommands := by
  intro s hl listening
  have hu : s.up_ = true := State.live_up hl
  rw [exec_roundNobid hl, exec_awardTakeEffect hl, exec_listenEnd hl, exec_islandEnter hl, exec_islandExit hl,
    exec_bidRunSet hl]
  refine ⟨⟨fun early => congrArg _ (State.roundNobid_waits early), fun r round elapsed => ?nobid⟩,
    rfl, fun k q => ?again, ⟨fun elapsed => congrArg _ (if_pos elapsed), fun early => congrArg _ (if_neg early)⟩,
    ⟨fun cut => congrArg _ (State.islandEnter_enters cut), fun h => congrArg _ (State.islandEnter_stays h)⟩,
    ⟨fun back => congrArg _ ?back, fun h => congrArg _ (State.islandExit_stays h)⟩,
    ⟨fun may plain => congrArg _ ?runs, fun may bids => congrArg _ ?listens, fun h => congrArg _ (State.bidRunSet_stays h)⟩,
    fun src => ⟨fun hj => ?rejoin, fun hj => exec_bidReleaseAll hu hj, fun hj => exec_bidCntClr hu hj,
      fun v hj => congrArg _ (State.command_bidQuery hu hj)⟩⟩
  case nobid =>
    rw [State.roundNobid_closes round elapsed]
    exact ⟨fun unknown => congrArg _ (congrArg State.bidPump (State.callClosed_unknown unknown)),
      fun c known => congrArg _ (congrArg State.bidPump (State.callClosed_known known))⟩
  case again =>
    rw [exec_rebid hl, exec_announceRepeat hl, exec_orphanDetect hl]
    refine ⟨fun h => ?_, fun c known idle => ?_⟩
    · have never : ∀ c, s.gcall k q = some c → ¬ s.mayAnnounce k q := fun c known =>
        h.resolve_left fun unknown => Option.some_ne_none c (known.symm.trans unknown)
      exact ⟨congrArg _ (State.rebidNow_rests fun c known may => absurd may (never c known)),
        congrArg _ (State.repeatNow_rests fun c known may => absurd may (never c known)),
        congrArg _ (State.orphanNow_rests fun c known may => absurd may (never c known))⟩
    · have only {c' : GCall} (known' : s.gcall k q = some c') : c = c' := Option.some.inj (known.symm.trans known')
      exact ⟨fun due => congrArg _ (State.rebidNow_announces known idle due),
        fun early => congrArg _ (State.rebidNow_rests fun c' known' _ => only known' ▸ early),
        fun due => congrArg _ (State.repeatNow_announces known idle due),
        fun early => congrArg _ (State.repeatNow_rests fun c' known' _ => only known' ▸ early),
        fun silent => congrArg _ (State.orphanNow_announces known idle silent),
        fun wait held => congrArg _ (State.orphanNow_rests fun c' known' _ => only known' ▸ not_or.2 ⟨wait, held⟩)⟩
  case back => exact (State.islandExit_listens back).trans (State.bidListen_island back.1)
  case runs => exact (State.bidRunSet_sets may).trans (if_neg (by simp [plain]))
  case listens => exact (State.bidRunSet_sets may).trans (if_pos bids)
  case rejoin =>
    rw [exec_bidRejoin hu hj]
    exact ⟨fun island => congrArg _ ((if_pos island).trans (State.bidListen_island island)),
      fun other => congrArg _ (if_neg other)⟩

end Sys2Proof.Machine

/-! PROOF. How a state comes to differ by one door axis, and what the requests to an axis do (chapter 9): O44. -/

namespace Sys2Proof.Machine

/-! ### One axis of the state -/

section axis
variable {s : State} {c : Chan} {d e : Door}

@[simp] theorem State.door_setDoor : (s.setDoor c d).door c = d := by cases c <;> rfl
@[simp] theorem State.setDoor_door : s.setDoor c (s.door c) = s := by cases c <;> rfl
@[simp] theorem State.setDoor_setDoor : (s.setDoor c d).setDoor c e = s.setDoor c e := by cases c <;> rfl
@[simp] theorem State.door_raise (pg i : Nat) : (s.raise pg i).door c = s.door c := by cases c <;> rfl
@[simp] theorem State.door_wr (a : Nat) (w : Word) : (s.wr a w).door c = s.door c := by cases c <;> rfl

/-- A change of state, with its interrupt where the state is another (Table 9.3). -/
theorem State.doorInto_eq (st : DoorSt) : s.doorInto c st =
    if (s.door c).st = st then s.setDoor c ((s.door c).entered st s.tick)
    else (s.setDoor c ((s.door c).entered st s.tick)).raise (doorPage c) 1 := rfl

theorem Only.setDoor {m : Parts} {t : State} (h : Only m s t) (front : c = .a → m.doorF = true)
    (rear : c = .b → m.doorR = true) : Only m s (t.setDoor c d) := by
  cases c with
  | a => exact { h with doorF := .inl (front rfl) }
  | b => exact { h with doorR := .inl (rear rfl) }

end axis

/-- From `s` to `t` axis `c` becomes `e`, and beside it only registers and interrupt bits change. -/
structure DoorTo (c : Chan) (s t : State) (e : Door) : Prop where
  door : t.door c = e
  only : Only (doorParts c) s t

section doorTo
variable {s t u : State} {c : Chan} {d e : Door}

theorem DoorTo.refl : DoorTo c s s (s.door c) := ⟨rfl, Only.refl _ s⟩

theorem DoorTo.trans (h : DoorTo c s t d) (g : DoorTo c t u e) : DoorTo c s u e := ⟨g.door, h.only.trans g.only⟩

theorem DoorTo.tick (h : DoorTo c s t e) : t.tick = s.tick := h.only.tick.resolve_left Bool.false_ne_true

theorem DoorTo.setDoor (h : DoorTo c s t d) (e : Door) : DoorTo c s (t.setDoor c e) e :=
  ⟨State.door_setDoor, h.only.setDoor (by rintro rfl; rfl) (by rintro rfl; rfl)⟩

theorem DoorTo.set (e : Door) : DoorTo c s (s.setDoor c e) e := DoorTo.refl.setDoor e

theorem DoorTo.raise (h : DoorTo c s t e) (pg i : Nat) : DoorTo c s (t.raise pg i) e :=
  ⟨(State.door_raise pg i).trans h.door, State.raise_only rfl rfl h.only pg i⟩

theorem DoorTo.wr (h : DoorTo c s t e) (a : Nat) (w : Word) : DoorTo c s (t.wr a w) e :=
  ⟨(State.door_wr a w).trans h.door, State.wr_only rfl h.only a w⟩

theorem DoorTo.raiseIf (h : DoorTo c s t e) (p : Prop) [Decidable p] (pg i : Nat) :
    DoorTo c s (if p then t.raise pg i else t) e := by
  split
  · exact h.raise pg i
  · exact h

theorem DoorTo.into (h : DoorTo c s t e) (st : DoorSt) : DoorTo c s (t.doorInto c st) (e.entered st s.tick) := by
  have set := h.setDoor (e.entered st s.tick)
  rw [State.doorInto_eq, h.door, h.tick]
  split
  · exact set
  · exact set.raise _ _

/-- The axis is set again to what it holds but for its position's being lost (R159). -/
theorem DoorTo.losePos (h : DoorTo c s t e) : DoorTo c s (t.doorLosePos c) { e with posLost := true } := by
  obtain ⟨rfl, only⟩ := h
  unfold State.doorLosePos
  dsimp only
  split
  · next lost => exact ⟨by rw [← lost], only⟩
  · exact (DoorTo.setDoor ⟨rfl, only⟩ _).raise _ _

theorem DoorTo.losePosIf (h : DoorTo c s t e) {p : Prop} [Decidable p] {b : Bool} (hb : p ↔ b = true) :
    DoorTo c s (if p then t.doorLosePos c else t) { e with posLost := e.posLost || b } := by
  split
  · next lost =>
    rw [hb.1 lost, Bool.or_true]
    exact h.losePos
  · next kept =>
    rw [Bool.eq_false_iff.2 (mt hb.2 kept), Bool.or_false]
    exact h

end doorTo

/-! ### The motions an axis is asked for (R162, R167, R178) -/

section motions
variable (s : State) (c : Chan) (e : Door)

/-- The state in which axis `c` is `e` and its set-point that of this tick. -/
def State.withDoorHere : State := (s.setDoor c e).doorHere c

/-- The axis from `e` on an opening to the creep point. -/
def State.doorOpens : Door :=
  let u := s.withDoorHere c e
  ({ u.door c with
    plan := some (u.doorPlan c true ((s.dr c doorWidthUm : Int) - s.dr c doorCreepUm)), creep := false, fCnt := 0
    fHold := 0, defer := false, obsWait := false, afterStop := none } : Door).entered .opening s.tick

/-- The axis from `e` on a closing to the creep point. -/
def State.doorCloses : Door :=
  let u := s.withDoorHere c e
  ({ u.door c with
    plan := some (u.doorPlan c false (s.dr c doorCreepUm)), creep := false, fCnt := 0, fHold := 0, defer := false
    obsWait := false, stayOpen := false, afterStop := none, lcBlockAt := none } : Door).entered .closing s.tick

/-- The axis from `e` on a stop at REV_DEC into a state, with what follows at rest. -/
def State.doorStops (st : DoorSt) (after : Option DoorSt) : Door :=
  let u := s.withDoorHere c e
  ({ u.door c with
    plan := some (u.doorStopPlan c), creep := false, fCnt := 0, afterStop := after, cleanOpen := false
    cleanClose := false, armed := false } : Door).entered st s.tick

/-- The axis on its way to the closed stop, at the creep speed. -/
def State.doorHomes : Door :=
  ({ (s.doorHere c).door c with
    plan := none, creep := true, homeTravel := 0, fHold := 0, learn := none, afterStop := none, defer := false
    obsWait := false } : Door).entered .homing s.tick

variable {s c e}

theorem State.withDoorHere_to : DoorTo c s (s.withDoorHere c e) ((s.withDoorHere c e).door c) :=
  ⟨rfl, ((DoorTo.set e).setDoor _).only⟩

theorem State.dr_withDoorHere (r : Nat → Nat) : (s.withDoorHere c e).dr c r = s.dr c r := by cases c <;> rfl

theorem State.doorStartOpen_to : DoorTo c s ((s.setDoor c e).doorStartOpen c) (s.doorOpens c e) := by
  unfold State.doorOpens
  rw [← State.dr_withDoorHere (e := e) doorWidthUm, ← State.dr_withDoorHere (e := e) doorCreepUm]
  exact (State.withDoorHere_to.setDoor _).into .opening

theorem State.doorStartClose_to : DoorTo c s ((s.setDoor c e).doorStartClose c) (s.doorCloses c e) := by
  unfold State.doorCloses
  rw [← State.dr_withDoorHere (e := e) doorCreepUm]
  exact (State.withDoorHere_to.setDoor _).into .closing

theorem State.doorStartOpen_self : DoorTo c s (s.doorStartOpen c) (s.doorOpens c (s.door c)) := by
  have reached := State.doorStartOpen_to (s := s) (c := c) (e := s.door c)
  rwa [State.setDoor_door] at reached

theorem State.doorStartClose_self : DoorTo c s (s.doorStartClose c) (s.doorCloses c (s.door c)) := by
  have reached := State.doorStartClose_to (s := s) (c := c) (e := s.door c)
  rwa [State.setDoor_door] at reached

theorem State.doorStopInto_to (st : DoorSt) (after : Option DoorSt) :
    DoorTo c s ((s.setDoor c e).doorStopInto c st after) (s.doorStops c e st after) :=
  (State.withDoorHere_to.setDoor _).into st

theorem DoorTo.stopInto {t : State} (h : DoorTo c s t e) (st : DoorSt) (after : Option DoorSt) :
    DoorTo c s (t.doorStopInto c st after) (t.doorStops c e st after) := by
  obtain ⟨rfl, only⟩ := h
  have stops := State.doorStopInto_to (s := t) (c := c) (e := t.door c) st after
  rw [State.setDoor_door] at stops
  exact DoorTo.trans ⟨rfl, only⟩ stops

theorem State.doorStartHome_to (may : s.outputsMay = true) : DoorTo c s (s.doorStartHome c) (s.doorHomes c) := by
  have here : (s.doorHere c).outputsMay = true := by cases c <;> exact may
  have set : DoorTo c s (s.doorHere c) ((s.doorHere c).door c) := ⟨rfl, (DoorTo.refl.setDoor _).only⟩
  have starts : s.doorStartHome c = _ := if_neg (by simp [here])
  rw [starts]
  exact (set.setDoor _).into .homing

/-- Without authority the axis stays (log entry 208). -/
theorem State.doorStartHome_stays (may : s.outputsMay = false) : s.doorStartHome c = s := by
  have here : (s.doorHere c).outputsMay = false := by cases c <;> exact may
  exact if_pos (by simp [here])

end motions

/-! ### What OPEN, CLOSE and STOP do by state (R166, R167) -/

section requests
variable {s : State} {c : Chan}

/-- Whether the DOOR supply is good, as the axis has it (R159). -/
def Door.supplied (d : Door) : Prop := d.uv = false ∧ d.ov = false

theorem Door.supplied_iff {d : Door} : d.supplied ↔ (d.uv || d.ov) = false := by
  simp [Door.supplied]

theorem State.doorOpenAct_waits (bad : ¬ (s.door c).supplied) :
    s.doorOpenAct c = s.setDoor c { s.door c with waitReq := some true, waitAt := s.tick } :=
  if_pos (by simpa only [Door.supplied_iff, Bool.not_eq_false] using bad)

theorem State.doorCloseAct_waits (bad : ¬ (s.door c).supplied) :
    s.doorCloseAct c = s.setDoor c { s.door c with waitReq := some false, waitAt := s.tick } :=
  if_pos (by simpa only [Door.supplied_iff, Bool.not_eq_false] using bad)

theorem State.doorReverse_to (raised byLc : Bool) : DoorTo c s (s.doorReverse c raised byLc) (s.doorStops c
    { s.door c with lcBlockAt := if byLc && (s.door c).lcBlockAt.isNone then some s.tick else (s.door c).lcBlockAt }
    .reversing none) :=
  (State.doorStopInto_to .reversing none).raiseIf _ _ _

section supplied
variable (good : (s.door c).supplied)
include good

theorem State.doorOpenAct_closed (h : (s.door c).st = .closed) : DoorTo c s (s.doorOpenAct c)
    (s.doorOpens c { s.door c with reqAt := s.tick, cleanOpen := true, obstruct := 0, cleanClose := false }) := by
  simp only [State.doorOpenAct, Door.supplied_iff.1 good, Bool.false_eq_true, if_false, h]
  exact State.doorStartOpen_to

theorem State.doorOpenAct_partly (h : (s.door c).st = .geared ∨ (s.door c).st = .stopped) :
    DoorTo c s (s.doorOpenAct c)
      (s.doorOpens c { s.door c with reqAt := s.tick, cleanOpen := false, obstruct := 0 }) := by
  rcases h with h | h <;>
    simp only [State.doorOpenAct, Door.supplied_iff.1 good, Bool.false_eq_true, if_false, h] <;>
    exact State.doorStartOpen_to

theorem State.doorOpenAct_opened (h : (s.door c).st = .opened) :
    DoorTo c s (s.doorOpenAct c) { s.door c with defer := false, lcBlockAt := none } := by
  simp only [State.doorOpenAct, Door.supplied_iff.1 good, Bool.false_eq_true, if_false, h]
  exact DoorTo.set _

theorem State.doorOpenAct_closing (h : (s.door c).st = .closing) :
    DoorTo c s (s.doorOpenAct c) (s.doorStops c (s.door c) .reversing none) := by
  simp only [State.doorOpenAct, Door.supplied_iff.1 good, Bool.false_eq_true, if_false, h]
  exact State.doorReverse_to false false

theorem State.doorOpenAct_other (closed : (s.door c).st ≠ .closed) (geared : (s.door c).st ≠ .geared)
    (stopped : (s.door c).st ≠ .stopped) (opened : (s.door c).st ≠ .opened) (closing : (s.door c).st ≠ .closing) :
    s.doorOpenAct c = s := by
  simp only [State.doorOpenAct, Door.supplied_iff.1 good, Bool.false_eq_true, if_false]

section starts
variable (h : (s.door c).st = .opened ∨ (s.door c).st = .stopped) (may : s.outputsMay = true)
include h may

/-- Where a closing may start, the light curtain decides. -/
theorem State.doorCloseAct_starts : s.doorCloseAct c = if s.lcOk c then
      (s.setDoor c { s.door c with reqAt := s.tick, cleanClose := decide ((s.door c).st = .opened) }).doorStartClose c
    else s.setDoor c { s.door c with
      defer := true, reqAt := if (s.door c).defer then (s.door c).reqAt else s.tick
      cleanClose := decide ((s.door c).st = .opened)
      lcBlockAt := if (s.door c).lcBlockAt.isNone then some s.tick else (s.door c).lcBlockAt } :=
  (if_neg (by simp [Door.supplied_iff.1 good])).trans (if_pos (by simp [h, may]))

theorem State.doorCloseAct_closes (clear : s.lcOk c = true) : DoorTo c s (s.doorCloseAct c)
    (s.doorCloses c { s.door c with reqAt := s.tick, cleanClose := decide ((s.door c).st = .opened) }) := by
  rw [State.doorCloseAct_starts good h may, if_pos clear]
  exact State.doorStartClose_to

theorem State.doorCloseAct_defers (blocked : s.lcOk c = false) : DoorTo c s (s.doorCloseAct c) { s.door c with
      defer := true, reqAt := if (s.door c).defer then (s.door c).reqAt else s.tick
      cleanClose := decide ((s.door c).st = .opened)
      lcBlockAt := if (s.door c).lcBlockAt.isNone then some s.tick else (s.door c).lcBlockAt } := by
  rw [State.doorCloseAct_starts good h may, if_neg (by simp [blocked])]
  exact DoorTo.set _

end starts

theorem State.doorCloseAct_other
    (h : ((s.door c).st ≠ .opened ∧ (s.door c).st ≠ .stopped) ∨ s.outputsMay = false) : s.doorCloseAct c = s := by
  refine (if_neg (by simp [Door.supplied_iff.1 good])).trans (if_neg ?_)
  rcases h with ⟨opened, stopped⟩ | may
  · simp [opened, stopped]
  · simp [may]

end supplied

theorem State.doorStopAct_moving (h : (s.door c).st = .opening ∨ (s.door c).st = .closing ∨ (s.door c).st = .reversing ∨
    (s.door c).st = .homing) : DoorTo c s (s.doorStopAct c) (s.doorStops c (s.door c) .stopped none) := by
  have stops : s.doorStopAct c = s.doorStopInto c .stopped none := by
    rcases h with h | h | h | h <;> simp only [State.doorStopAct, h]
  rw [stops]
  exact DoorTo.refl.stopInto .stopped none

theorem State.doorGearAbort_to (h : (s.door c).st = .geared) (cause : Nat) : DoorTo c s (s.doorGearAbort c cause)
    (s.doorStops c { s.door c with gearCause := cause } .stopped (some .closing)) := by
  rw [State.doorGearAbort, if_pos h]
  exact (State.doorStopInto_to .stopped (some .closing)).raise _ _

theorem State.doorLearnAbort_to : DoorTo c s (s.doorLearnAbort c)
    (s.doorStops c { s.door c with learn := none } .stopped (some .closing)) :=
  (State.doorStopInto_to .stopped (some .closing)).raise _ _

theorem State.doorStopAct_stopped (h : (s.door c).st = .stopped) :
    DoorTo c s (s.doorStopAct c) { s.door c with afterStop := none, obsWait := false } := by
  simp only [State.doorStopAct, h]
  exact DoorTo.set _

theorem State.doorStopAct_geared (h : (s.door c).st = .geared) : DoorTo c s (s.doorStopAct c)
    (s.doorStops c { s.door c with gearCause := 6 } .stopped (some .closing)) := by
  have ends : s.doorStopAct c = s.doorGearAbort c 6 := by simp only [State.doorStopAct, h]
  rw [ends]
  exact State.doorGearAbort_to h 6

theorem State.doorStopAct_learn (h : (s.door c).st = .learn) : DoorTo c s (s.doorStopAct c)
    (s.doorStops c { s.door c with learn := none } .stopped (some .closing)) := by
  have ends : s.doorStopAct c = s.doorLearnAbort c := by simp only [State.doorStopAct, h]
  rw [ends]
  exact State.doorLearnAbort_to

theorem State.doorStopAct_other (h : (s.door c).st = .closed ∨ (s.door c).st = .opened ∨ (s.door c).st = .unref ∨
    (s.door c).st = .fault ∨ (s.door c).st = .off) : s.doorStopAct c = s := by
  rcases h with h | h | h | h | h <;> simp only [State.doorStopAct, h]

end requests

/-! ### Commands that are writes to DOORx_CMD (R166, R170) -/

section doorCmd
variable {s : State} {src : Src} {c : Chan} {v : Word}

theorem State.command_doorCmd (hu : s.up_ = true) (hj : s.judge src (Machine.doorCmd (doorPage c)) v = none) :
    s.command src (Machine.doorCmd (doorPage c)) v = (s.doorCmd c v).doorNoted c src v := by
  cases c with
  | a =>
    obtain ⟨r, hr⟩ : ∃ r, regAt (Machine.doorCmd (doorPage .a)) = some r := ⟨_, rfl⟩
    exact State.command_page hu hj (by decide) rfl hr
  | b =>
    obtain ⟨r, hr⟩ : ∃ r, regAt (Machine.doorCmd (doorPage .b)) = some r := ⟨_, rfl⟩
    exact State.command_page hu hj (by decide) rfl hr

/-- The bits that ask for motion or a stop: OPEN, CLOSE, STOP, HOME, LEARN. -/
def asksMotion (v : Word) : Bool := Word.bits v 0 3 != 0 || Word.bits v 4 2 != 0

theorem State.doorNoted_silent (h : asksMotion v = false) : s.doorNoted c src v = s :=
  if_neg (by simpa [asksMotion] using h)

theorem State.doorNoted_asks {t : State} {e : Door} (h : DoorTo c s t e) (asks : asksMotion v = true) :
    DoorTo c s (t.doorNoted c src v) { e with hostCmd := some (s.tick, src) } := by
  have noted : t.doorNoted c src v = _ := if_pos (by simpa [asksMotion] using asks)
  rw [noted, h.door, h.tick]
  exact h.setDoor _

/-- An accepted request for motion or a stop notes its tick and its sender, beside what it does. -/
theorem State.command_doorCmd_to (hu : s.up_ = true) (hj : s.judge src (Machine.doorCmd (doorPage c)) v = none)
    (asks : asksMotion v = true) {e : Door} (acts : DoorTo c s (s.doorCmd c v) e) {i : Instr}
    (writes : exec i s = .next (s.command src (Machine.doorCmd (doorPage c)) v)) :
    ∃ t, exec i s = .next t ∧ t.door c = { e with hostCmd := some (s.tick, src) } ∧ Only (doorParts c) s t := by
  obtain ⟨door, only⟩ := State.doorNoted_asks (src := src) acts asks
  exact ⟨_, writes.trans (congrArg _ (State.command_doorCmd hu hj)), door, only⟩

theorem exec_doorArmAdv (hu : s.up_ = true) (hj : s.judge src (doorCmd (doorPage c)) 8 = none) :
    exec (.doorArmAdv src c) s = .next (s.doorArmHost c) :=
  congrArg Host.Outcome.next ((State.command_doorCmd hu hj).trans (State.doorNoted_silent rfl))

theorem exec_doorClrFault (hu : s.up_ = true) (hj : s.judge src (doorCmd (doorPage c)) 64 = none) :
    exec (.doorClrFault src c) s = .next (s.doorClrFault c) :=
  congrArg Host.Outcome.next ((State.command_doorCmd hu hj).trans (State.doorNoted_silent rfl))

/-- Whether CLR_FAULT has a fault to clear: its cause is gone (Table 9.3, log entry 104). -/
def Door.clears (d : Door) : Prop := d.st = .fault ∧ (if d.fault = 4 then d.temp < 1200 else d.fltNow ≠ d.fault)

theorem Door.clears_iff {d : Door} : d.clears ↔ d.st = .fault ∧ d.faultGone = true := by
  unfold Door.clears Door.faultGone
  split <;> simp

theorem State.doorClrFault_stays (h : ¬ (s.door c).clears) : s.doorClrFault c = s := if_neg (mt Door.clears_iff.2 h)

theorem State.doorClrFault_to (h : (s.door c).clears) :
    let lost := (s.door c).posLost || s.overHalfStep c ((s.door c).count - (s.door c).refCount).natAbs
    DoorTo c s (s.doorClrFault c)
      (({ s.door c with fault := 0, posLost := lost } : Door).entered (if lost then .unref else .stopped) s.tick) := by
  intro lost
  have noted : DoorTo c s
      (if s.overHalfStep c ((s.door c).count - (s.door c).refCount).natAbs = true then s.doorLosePos c else s)
      { s.door c with posLost := lost } := DoorTo.refl.losePosIf Iff.rfl
  have clears : s.doorClrFault c = _ := if_pos (Door.clears_iff.1 h)
  rw [clears, noted.door]
  exact (noted.setDoor _).into _

end doorCmd

/-- Settles O44: each request by what its operation makes of the state it finds. When a fault's cause is gone (log entry
104), that a CLOSE in a state without a row does nothing more (105) and that HOME starts a homing anew (107) is the
model's choice. -/
theorem doorRequests : Obligations.DoorRequests := by
  intro src c s hu d ok here opens closes stops sends good
  refine ⟨fun hj => ?opening, fun hj => ?closing, fun hj => ?stop, fun hj => exec_doorArmAdv hu hj, fun hj => ?home,
    fun hj => ?learn, fun hj => ?clear⟩
  case opening =>
    have acts {e : Door} (h : DoorTo c s (s.doorOpenAct c) e) : sends e (.doorOpen src c) :=
      State.command_doorCmd_to hu hj rfl h rfl
    refine ⟨fun bad => acts ?_, fun ok h => acts (State.doorOpenAct_closed ok h),
      fun ok h => acts (State.doorOpenAct_partly ok h), fun ok h => acts (State.doorOpenAct_opened ok h),
      fun ok h => acts (State.doorOpenAct_closing ok h), fun ok h1 h2 h3 h4 h5 => acts ?_⟩
    · exact State.doorOpenAct_waits bad ▸ DoorTo.set _
    · exact (State.doorOpenAct_other ok h1 h2 h3 h4 h5).symm ▸ DoorTo.refl
  case closing =>
    have acts {e : Door} (h : DoorTo c s (s.doorCloseAct c) e) : sends e (.doorClose src c) :=
      State.command_doorCmd_to hu hj rfl h rfl
    refine ⟨fun bad => acts ?_, fun ok h may clear => acts (State.doorCloseAct_closes ok h may clear),
      fun ok h may blocked => acts (State.doorCloseAct_defers ok h may blocked), fun ok h => acts ?_⟩
    · exact State.doorCloseAct_waits bad ▸ DoorTo.set _
    · exact (State.doorCloseAct_other ok h).symm ▸ DoorTo.refl
  case stop =>
    have acts {e : Door} (h : DoorTo c s (s.doorStopAct c) e) : sends e (.doorStop src c) :=
      State.command_doorCmd_to hu hj rfl h rfl
    exact ⟨fun h => acts (State.doorStopAct_moving h), fun h => acts (State.doorStopAct_stopped h),
      fun h => acts (State.doorStopAct_geared h), fun h => acts (State.doorStopAct_learn h),
      fun h => acts ((State.doorStopAct_other h).symm ▸ DoorTo.refl)⟩
  case home =>
    have acts {e : Door} (h : DoorTo c s (s.doorStartHome c) e) : sends e (.doorHome src c) :=
      State.command_doorCmd_to hu hj rfl h rfl
    refine ⟨fun may => acts (State.doorStartHome_to may), fun may => acts ?_⟩
    exact (State.doorStartHome_stays may).symm ▸ DoorTo.refl
  case learn => exact State.command_doorCmd_to hu hj rfl ((DoorTo.set _).into .learn) rfl
  case clear =>
    intro gone lost
    rw [exec_doorClrFault hu hj]
    refine ⟨fun h => ?_, fun h => congrArg _ (State.doorClrFault_stays h)⟩
    obtain ⟨door, only⟩ := State.doorClrFault_to h
    exact ⟨_, rfl, only, door⟩

end Sys2Proof.Machine

/-! PROOF. How the motions of a door axis end and follow one another (chapter 9): O45. -/

namespace Sys2Proof.Machine

/-! ### A command that acts under a condition -/

/-- A command that runs where its condition holds, and what it makes of its axis there. -/
theorem exec_when {s u : State} {c : Chan} {e : Door} {i : Instr} {p when : Prop} [Decidable p]
    (runs : exec i s = .next (if p then u else s)) (iff : p ↔ when) (acts : when → DoorTo c s u e) :
    (when → ∃ t, exec i s = .next t ∧ t.door c = e ∧ Only (doorParts c) s t) ∧ (¬ when → exec i s = .next s) := by
  refine ⟨fun h => ?_, fun h => runs.trans (congrArg Host.Outcome.next (if_neg (mt iff.1 h)))⟩
  obtain ⟨door, only⟩ := acts h
  exact ⟨u, runs.trans (congrArg Host.Outcome.next (if_pos (iff.2 h))), door, only⟩

/-! ### How a motion ends (R162, R167) -/

section ends
variable {s t : State} {c : Chan} {d e : Door}

/-- The axis at the end of its opening. -/
def State.doorAtOpen (s : State) (c : Chan) : Door :=
  ({ s.door c with
    creep := false, plan := none, spPos := s.doorSpNow c, spTick := s.tick, spVel := 0, spAcc := 0, cleanOpen := false
    obstruct := 0 } : Door).entered .opened s.tick

theorem State.doorOpened_to : DoorTo c s (s.doorOpened c) (s.doorAtOpen c) := by
  have timed (p : Prop) [Decidable p] (a : Nat) (n : Int) : DoorTo c s (if p then s.wi a n else s) (s.door c) := by
    split
    · exact DoorTo.refl.wr _ _
    · exact DoorTo.refl
  exact (((timed _ _ _).setDoor _).into .opened).raise _ _

/-- A hold that is not to end at once tells the scheduler alone (R129). -/
theorem State.schDoorOpened_holds (h : s.sch.ans.all (fun a => !a.endNow) = true) (c : Chan) :
    ∃ x, s.schDoorOpened c = { s with sch := x } := by
  unfold State.schDoorOpened
  split
  · exact ⟨s.sch, rfl⟩
  · next a served =>
    have lasts : a.endNow = false := by simpa [served] using h
    split
    · exact ⟨_, if_neg (by simp [lasts])⟩
    · exact ⟨s.sch, rfl⟩

theorem DoorTo.schDoorOpened (h : DoorTo c s t e) (holds : s.sch.ans.all (fun a => !a.endNow) = true) :
    (t.schDoorOpened c).door c = e ∧ Only { doorParts c with sch := true } s (t.schDoorOpened c) := by
  have sch : t.sch = s.sch := h.only.sch.resolve_left Bool.false_ne_true
  obtain ⟨x, told⟩ := State.schDoorOpened_holds (sch ▸ holds) c
  rw [told]
  exact ⟨by cases c <;> exact h.door, { h.only with sch := .inl rfl }⟩

theorem State.doorClosedNow_to : DoorTo c s (s.doorClosedNow c) (({ s.door c with
    creep := false, plan := none, spPos := s.doorSpNow c, spTick := s.tick, spVel := 0, spAcc := 0
    lockAt := some s.tick } : Door).entered .closed s.tick) :=
  (DoorTo.set _).into .closed

theorem State.doorHomedNow_to : DoorTo c s (s.doorHomedNow c) (({ s.door c with
    cntZero := (s.door c).count, actPos := 0, spPos := 0, spVel := 0, spAcc := 0, posLost := false, creep := false
    plan := none, cleanClose := false } : Door).entered .closed s.tick) :=
  ((DoorTo.set _).into .closed).raise _ _

/-- A host command of this tick that a fault makes meaningless is forgotten (R170). -/
theorem DoorTo.discard (h : DoorTo c s t e) : ∃ k, DoorTo c s (t.doorDiscard c) { e with hostCmd := k } := by
  obtain ⟨rfl, only⟩ := h
  have kept : DoorTo c s t (t.door c) := ⟨rfl, only⟩
  unfold State.doorDiscard
  split
  · split
    · exact ⟨none, ((kept.setDoor _).wr _ _).raise _ _⟩
    · exact ⟨_, kept⟩
  · exact ⟨_, kept⟩

/-- A faulted axis: its stage is off, and neither its position nor the other axis is touched. -/
theorem DoorTo.faulted (h : DoorTo c s t e) (code : Nat) :
    ((t.doorFaulted c code).door c).st = .fault ∧ ((t.doorFaulted c code).door c).fault = code ∧
      ((t.doorFaulted c code).door c).plan = none ∧ ((t.doorFaulted c code).door c).creep = false ∧
      ((t.doorFaulted c code).door c).posLost = e.posLost ∧ Only (doorParts c) s (t.doorFaulted c code) := by
  obtain ⟨k, discarded⟩ := h.discard
  have faulted := (((discarded.setDoor { (t.doorDiscard c).door c with
    fault := code, plan := none, creep := false, learn := none, spVel := 0, spAcc := 0
    refCount := ((t.doorDiscard c).door c).count, armed := false, afterStop := none, waitReq := none, defer := false
    obsWait := false }).raiseIf (((t.doorDiscard c).door c).learn.isSome = true) (doorPage c) 13).into .fault).raise
      (doorPage c) 14
  have door : (t.doorFaulted c code).door c = _ := faulted.door
  rw [door, discarded.door]
  exact ⟨rfl, rfl, rfl, rfl, rfl, faulted.only⟩

theorem State.doorLockFail_to : DoorTo c s (s.doorLockFail c)
    (let e := s.doorOpens c { s.door c with
      retry := (s.door c).retry + 1, lockAt := none, cleanOpen := false, cleanClose := false, obstruct := 0 }
    if s.dr c doorCloseRetry < (s.door c).retry + 1 then { e with stayOpen := true } else e) := by
  have reopens := State.doorStartOpen_to (s := s) (c := c) (e := { s.door c with
    retry := (s.door c).retry + 1, lockAt := none, cleanOpen := false, cleanClose := false, obstruct := 0 })
  unfold State.doorLockFail
  dsimp only
  by_cases past : s.dr c doorCloseRetry < (s.door c).retry + 1
  · rw [if_pos (by simpa using past), if_pos past, reopens.door]
    exact (reopens.setDoor _).raise _ _
  · rw [if_neg (by simpa using past), if_neg past]
    exact reopens

/-- A reversal at rest goes on to open, with PERMIT (R165), or stays (log entry 209). -/
theorem State.doorReversed_to : DoorTo c s
    (if (s.setDoor c e).permit c then (s.setDoor c e).doorStartOpen c else (s.setDoor c e).doorInto c .stopped)
    (if (s.setDoor c e).permit c then s.doorOpens c e else e.entered .stopped s.tick) := by
  split
  · exact State.doorStartOpen_to
  · exact (DoorTo.set e).into .stopped

theorem State.outputsMay_of_doorHeld (h : s.doorHeld c = false) : s.outputsMay = true := by
  simpa using (Bool.or_eq_false_iff.1 h).2

theorem Door.openStop_iff : d.openStop = true ↔ if d.olWired then d.ol = true else 160 ≤ d.fHold := by
  unfold Door.openStop
  split <;> simp

theorem exec_doorLockTimeout {t0 : Nat} (timed : (s.door c).lockAt = some t0) : exec (.doorLockTimeout c) s =
    .next (if s.live ∧ (s.door c).st = .closed ∧ !s.locked c ∧ s.since t0 (msTicks (s.dr c doorLockToMs)) ∧ s.permit c ∧
      !s.doorHeld c then s.doorLockFail c else s) := by
  change execDoorLockTimeout c s = _
  simp only [execDoorLockTimeout, timed]

theorem exec_doorLockTimeout_idle (untimed : (s.door c).lockAt = none) : exec (.doorLockTimeout c) s = .next s := by
  change execDoorLockTimeout c s = _
  simp only [execDoorLockTimeout, untimed]

theorem exec_doorNudge {t0 : Nat} (blocked : (s.door c).lcBlockAt = some t0) : exec (.doorNudge c) s =
    .next (if s.deferMay c ∧ s.rb (doorCfg (doorPage c)) 6 ∧ s.since t0 (msTicks (s.dr c doorNudgeMs)) then s.nudgeNow c
      else s) := by
  change execDoorNudge c s = _
  simp only [execDoorNudge, blocked]

theorem exec_doorNudge_idle (clear : (s.door c).lcBlockAt = none) : exec (.doorNudge c) s = .next s := by
  change execDoorNudge c s = _
  simp only [execDoorNudge, clear]

theorem State.deferMay_iff (hl : s.live = true) : s.deferMay c = true ↔ (s.door c).defer = true ∧
    ((s.door c).st = .opened ∨ (s.door c).st = .stopped) ∧ s.doorHeld c = false ∧ (s.door c).posLost = false := by
  simp [State.deferMay, hl, and_assoc]

end ends

/-- Settles O45: each command by its condition and by the lemma of its operation. That only a deferred close nudges (log
entry 108) and that an opening ends in creep alone (109) is the model's choice, as is a reversal at rest without PERMIT
(209). -/
theorem doorMotionEnds : Obligations.DoorMotionEnds := by
  intro c s hl d here opens closes ends does
  refine ⟨exec_when rfl (by simp [hl, d]) ?home, ⟨fun h => ?openEnd, fun h holds => ?openHolds, fun h => ?openRests⟩,
    exec_when rfl (by simp [hl, d]) fun _ => State.doorClosedNow_to,
    exec_when rfl (by simp [hl, d]) fun _ => State.doorHomedNow_to, ⟨fun h => ?homeFails, fun h => ?homeGoes⟩,
    exec_when rfl (by simp [hl, d]) fun _ => ?retry, fun t0 timed => ?lock, fun untimed => ?unlocked,
    ⟨?defers, fun t0 blocked => ?nudges, fun clear => ?clear⟩, exec_when rfl (by simp [hl, d]) fun _ => ?reversed⟩
  case home =>
    rintro ⟨-, supplied, -, -⟩
    exact State.doorStartHome_to (State.outputsMay_of_doorHeld supplied)
  case openEnd =>
    obtain ⟨door, only⟩ := State.doorOpened_to (s := s) (c := c)
    exact ⟨s.doorOpened c, congrArg Host.Outcome.next (if_pos (by simpa [hl, Door.openStop_iff] using h)), door, only⟩
  case openHolds =>
    obtain ⟨door, only⟩ := State.doorOpened_to.schDoorOpened holds
    exact ⟨_, congrArg Host.Outcome.next (if_pos (by simpa [hl, Door.openStop_iff] using h)), door, only⟩
  case openRests => exact congrArg Host.Outcome.next (if_neg (by simpa [hl, Door.openStop_iff] using h))
  case homeFails =>
    obtain ⟨st, fault, plan, creep, -, only⟩ := (DoorTo.refl.raise (doorPage c) 16).faulted (s := s) 7
    exact ⟨_, congrArg Host.Outcome.next (if_pos (by simpa [hl, Door.homes] using h)), st, fault, plan, creep, only⟩
  case homeGoes => exact congrArg Host.Outcome.next (if_neg (by simpa [hl, Door.homes] using h))
  case retry => exact State.doorStartOpen_self
  case lock => exact exec_when (exec_doorLockTimeout timed) (by simp [hl, d]) fun _ => State.doorLockFail_to
  case unlocked => exact exec_doorLockTimeout_idle untimed
  case defers => exact exec_when rfl (and_congr_left' (State.deferMay_iff hl)) fun _ => State.doorStartClose_self
  case nudges =>
    exact exec_when (exec_doorNudge blocked) (and_congr_left' (State.deferMay_iff hl)) fun _ =>
      State.doorStartClose_to
  case clear => exact exec_doorNudge_idle clear
  case reversed => exact State.doorReversed_to

end Sys2Proof.Machine

/-! PROOF. What one evaluation of a door axis does (chapter 9): O46. -/

namespace Sys2Proof.Machine

/-! ### The samples of one evaluation (R157, R158, R161, R163) -/

section samples
variable {s : State} {c : Chan} {i : DoorIn}

/-- The filter of the light curtain touches its own fields alone. -/
theorem Door.lcFilter_changes (d : Door) (raw : Bool) (tick : Nat) :
    ∃ x n k, d.lcFilter raw tick = { d with lcClear := x, lcCnt := n, lcClearAt := k } := by
  unfold Door.lcFilter
  split
  · exact ⟨_, _, _, rfl⟩
  · split
    · exact ⟨_, _, _, rfl⟩
    · exact ⟨_, _, _, rfl⟩

/-- A stepper's current stays within its limit, or rises by at most 100 mA. -/
theorem stepperCurrent_le (hold ceil lim : Nat) (theta : Int) (now : Nat) :
    stepperCurrent hold ceil lim theta now ≤ max lim (now + 100) := by
  unfold stepperCurrent
  dsimp only
  split <;> omega

theorem State.doorAmp_le (iq theta : Int) (lim : Nat) :
    s.doorAmp c iq theta lim ≤ max lim ((s.door c).current + 100) := by
  unfold State.doorAmp
  split
  · exact Nat.zero_le _
  · split
    · exact stepperCurrent_le _ _ _ _ _
    · exact le_max_of_le_left (min_le_right _ _)

theorem State.doorSample_sets : s.doorSample c i = s.setDoor c ((s.doorSample c i).door c) := by
  simp only [State.doorSample, State.setDoor_setDoor, State.door_setDoor]

/-- An evaluation's samples touch the axis alone. -/
theorem State.doorSample_axisOnly : Only { doorF := c == .a, doorR := c == .b } s (s.doorSample c i) := by
  rw [State.doorSample_sets]
  exact (Only.refl _ s).setDoor (by rintro rfl; rfl) (by rintro rfl; rfl)

theorem State.doorSample_to : DoorTo c s (s.doorSample c i) ((s.doorSample c i).door c) := by
  rw [State.doorSample_sets, State.door_setDoor]
  exact DoorTo.set _

/-- What the samples leave of the axis: the motion in hand. -/
theorem State.doorSample_motion : ((s.doorSample c i).door c).st = (s.door c).st ∧
    ((s.doorSample c i).door c).spPos = (s.door c).spPos ∧ ((s.doorSample c i).door c).plan = (s.door c).plan ∧
    ((s.doorSample c i).door c).learn = (s.door c).learn ∧
    ((s.doorSample c i).door c).obstruct = (s.door c).obstruct := by
  obtain ⟨x, n, k, filtered⟩ := Door.lcFilter_changes (s.door c) i.lc s.tick
  simp only [State.doorSample, State.door_setDoor, filtered, and_self]

theorem State.doorSample_rb (a n : Nat) : (s.doorSample c i).rb a n = s.rb a n := by
  have rf : (s.doorSample c i).rf = s.rf := State.doorSample_axisOnly.rf.resolve_left Bool.false_ne_true
  simp only [State.rb, State.rd, rf]

end samples

/-! ### What the force limit and the light curtain do to the motion in hand (R167, R168, R173, R176) -/

section guard
variable {s t : State} {c : Chan} {d e : Door} {i : DoorIn}

theorem State.door_withDoorHere : (s.withDoorHere c e).door c =
    { e with spPos := (s.setDoor c e).doorSpNow c, spTick := s.tick } := by cases c <;> rfl

theorem State.doorStops_eq (st : DoorSt) (after : Option DoorSt) : s.doorStops c e st after = ({ e with
    spPos := (s.setDoor c e).doorSpNow c, spTick := s.tick, plan := some ((s.withDoorHere c e).doorStopPlan c)
    creep := false, fCnt := 0, afterStop := after, cleanOpen := false, cleanClose := false, armed := false } :
    Door).entered st s.tick := by
  simp only [State.doorStops, State.door_withDoorHere]

/-- One more obstruction of an opening. -/
def State.obstructCounted (s : State) (c : Chan) : State :=
  (s.setDoor c { s.door c with obstruct := (s.door c).obstruct + 1 }).raise (doorPage c) 4

theorem State.obstructCounted_to :
    DoorTo c s (s.obstructCounted c) { s.door c with obstruct := (s.door c).obstruct + 1 } := (DoorTo.set _).raise _ _

/-- The first two obstructions of an opening stop it, with a retry to follow. -/
theorem State.doorObstructed_waits (few : (s.door c).obstruct < 2) : ∃ e, DoorTo c s (s.doorObstructed c) e ∧
    e.st = .stopped ∧ e.obsWait = true ∧ e.obstruct = (s.door c).obstruct + 1 ∧ e.learn = (s.door c).learn := by
  have stops := (State.obstructCounted_to (s := s) (c := c)).stopInto .stopped none
  have waits : s.doorObstructed c = ((s.obstructCounted c).doorStopInto c .stopped none).setDoor c
      { ((s.obstructCounted c).doorStopInto c .stopped none).door c with obsWait := true } := if_neg (by omega)
  rw [waits]
  refine ⟨_, stops.setDoor _, ?_⟩
  rw [stops.door, State.doorStops_eq]
  exact ⟨rfl, rfl, rfl, rfl⟩

/-- The third ends it as open. -/
theorem State.doorObstructed_opens (many : 2 ≤ (s.door c).obstruct) : ∃ e, DoorTo c s (s.doorObstructed c) e ∧
    e.st = .opened ∧ e.obstruct = 0 ∧ e.learn = (s.door c).learn := by
  have stops := (State.obstructCounted_to (s := s) (c := c)).stopInto .opened none
  have opens : s.doorObstructed c = (((s.obstructCounted c).doorStopInto c .opened none).setDoor c
      { ((s.obstructCounted c).doorStopInto c .opened none).door c with obstruct := 0 }).raise (doorPage c) 5 :=
    if_pos (by omega)
  rw [opens]
  refine ⟨_, (stops.setDoor _).raise _ _, ?_⟩
  rw [stops.door, State.doorStops_eq]
  exact ⟨rfl, rfl, rfl⟩

/-- The light curtain interrupts: used, not clear, and no nudging. -/
theorem State.lcBroken_iff : s.lcBroken c = true ↔
    s.rb (doorCfg (doorPage c)) 5 = true ∧ (s.door c).lcClear = false ∧ (s.door c).nudge = false := by
  simp [State.lcBroken, and_assoc]

section closing
variable (closing : (s.door c).st = .closing)
include closing

theorem State.doorGuard_reverses (h : 2 ≤ (s.door c).fCnt ∨ s.lcBroken c = true) : ∃ e, DoorTo c s (s.doorGuard c) e ∧
    e.st = .reversing ∧ e.plan = some ((s.doorHere c).doorStopPlan c) ∧ e.lcBlockAt =
      (if (s.door c).fCnt < 2 ∧ (s.door c).lcBlockAt = none then some s.tick else (s.door c).lcBlockAt) ∧
    e.learn = (s.door c).learn := by
  have plan (x : Option Nat) : (s.withDoorHere c { s.door c with lcBlockAt := x }).doorStopPlan c =
      (s.doorHere c).doorStopPlan c := by cases c <;> rfl
  simp only [State.doorGuard, closing, decide_eq_true_eq]
  by_cases force : 2 ≤ (s.door c).fCnt
  · rw [if_pos force]
    refine ⟨_, State.doorReverse_to true false, ?_⟩
    rw [State.doorStops_eq, plan]
    exact ⟨rfl, rfl, (if_neg (by omega)).symm, rfl⟩
  · rw [if_neg force, if_pos (h.resolve_left force)]
    refine ⟨_, State.doorReverse_to true true, ?_⟩
    rw [State.doorStops_eq, plan]
    refine ⟨rfl, rfl, ?_, rfl⟩
    simp [Door.entered, Nat.lt_of_not_le force]

theorem State.doorGuard_closing_stays (force : (s.door c).fCnt < 2) (h : s.lcBroken c = false) : s.doorGuard c = s := by
  simp only [State.doorGuard, closing, h, Nat.not_le.2 force, decide_false, Bool.false_eq_true, if_false]

end closing

section opening
variable (opening : (s.door c).st = .opening) (force : 2 ≤ (s.door c).fCnt)
include opening force

theorem State.doorGuard_opening : s.doorGuard c =
    if ((s.doorObstructed c).door c).st = .opened then (s.doorObstructed c).schDoorOpened c else s.doorObstructed c := by
  simp only [State.doorGuard, opening, decide_eq_true force, if_true]

theorem State.doorGuard_obstructed (few : (s.door c).obstruct < 2) : ∃ e, DoorTo c s (s.doorGuard c) e ∧
    e.st = .stopped ∧ e.obsWait = true ∧ e.obstruct = (s.door c).obstruct + 1 ∧ e.learn = (s.door c).learn := by
  obtain ⟨e, obstructed, st, facts⟩ := State.doorObstructed_waits few
  rw [State.doorGuard_opening opening force, obstructed.door, st, if_neg (by decide)]
  exact ⟨e, obstructed, st, facts⟩

/-- A third obstruction ends the opening and tells the scheduler, where no hold is to end at once. -/
theorem State.doorGuard_fails (many : 2 ≤ (s.door c).obstruct) (holds : s.sch.ans.all (fun a => !a.endNow) = true) :
    ((s.doorGuard c).door c).st = .opened ∧ ((s.doorGuard c).door c).obstruct = 0 ∧
      ((s.doorGuard c).door c).learn = (s.door c).learn ∧ Only { doorParts c with sch := true } s (s.doorGuard c) := by
  obtain ⟨e, obstructed, st, obstruct, learn⟩ := State.doorObstructed_opens many
  obtain ⟨door, only⟩ := obstructed.schDoorOpened holds
  rw [State.doorGuard_opening opening force, if_pos (obstructed.door ▸ st), door]
  exact ⟨st, obstruct, learn, only⟩

end opening

theorem State.doorGuard_geared (geared : (s.door c).st = .geared) (force : 2 ≤ (s.door c).fCnt) :
    ∃ e, DoorTo c s (s.doorGuard c) e ∧ e.st = .stopped ∧ e.gearCause = 5 ∧ e.afterStop = some .closing ∧
      e.learn = (s.door c).learn := by
  have aborts : s.doorGuard c = s.doorGearAbort c 5 := by
    simp only [State.doorGuard, geared, decide_eq_true force, if_true]
  rw [aborts]
  refine ⟨_, State.doorGearAbort_to geared 5, ?_⟩
  rw [State.doorStops_eq]
  exact ⟨rfl, rfl, rfl, rfl⟩

theorem State.doorGuard_quiet (h : (s.door c).st = .opening ∨ (s.door c).st = .geared) (force : (s.door c).fCnt < 2) :
    s.doorGuard c = s := by
  rcases h with h | h <;>
    simp only [State.doorGuard, h, Nat.not_le.2 force, decide_false, Bool.false_eq_true, if_false]

/-- No motion but those of the table is guarded, with no learning in hand. -/
theorem State.doorGuard_other (learn : (s.door c).learn = none) (closing : (s.door c).st ≠ .closing)
    (opening : (s.door c).st ≠ .opening) (geared : (s.door c).st ≠ .geared) : s.doorGuard c = s := by
  unfold State.doorGuard
  dsimp only
  split
  · next h => exact absurd h closing
  · next h => exact absurd h opening
  · next h => exact absurd h geared
  · exact if_neg (by simp [Door.learnCloses, learn])
  · rfl

theorem State.doorGuard_learn {l : Learn} (learn : (s.door c).learn = some l) (st : (s.door c).st = .learn)
    (h : 2 ≤ (s.door c).fCnt ∧ l.moves ≠ 0 ∨ (l.moves = 2 ∨ l.moves = 4 ∨ l.moves = 6) ∧ s.lcBroken c = true) :
    ∃ e, DoorTo c s (s.doorGuard c) e ∧ e.st = .stopped ∧ e.learn = none ∧ e.afterStop = some .closing := by
  have aborts : s.doorGuard c = s.doorLearnAbort c := by
    simp only [State.doorGuard, st]
    exact if_pos (by simpa [Door.learnCloses, learn, or_assoc] using h)
  rw [aborts]
  refine ⟨_, State.doorLearnAbort_to, ?_⟩
  rw [State.doorStops_eq]
  exact ⟨rfl, rfl, rfl⟩

/-- With no learning in hand, an evaluation under drive ends with its guard. -/
theorem exec_doorEval_guards (hl : s.live = true) (en : s.doorEn c = true)
    (free : (s.doorSample c i).doorHeld c = false) (idle : (((s.doorSample c i).doorGuard c).door c).learn = none) :
    exec (.doorEval c i) s = .next ((s.doorSample c i).doorGuard c) := by
  refine congrArg Host.Outcome.next ((if_pos ⟨hl, en⟩).trans ((if_neg (by simp [free])).trans ?_))
  simp only [State.learnEval, idle]

end guard

/-- Settles O46: the samples field by field, the guard by the motion in hand, and each command by its condition. That
force does not end a learning's homing, nor the light curtain its openings (log entry 113), and the 135 °C of code 4
(117) are the model's choice. -/
theorem doorEvaluation : Obligations.DoorEvaluation := by
  intro c i s hl u e d cfg
  obtain ⟨st, -, -, learn, obstruct⟩ : e.st = d.st ∧ _ := State.doorSample_motion
  have sampled : DoorTo c s u e := State.doorSample_to
  refine ⟨fun unused => congrArg Host.Outcome.next (if_neg (by simp [unused])),
    ⟨State.doorSample_axisOnly, ?samples⟩,
    fun en held => congrArg Host.Outcome.next ((if_pos ⟨hl, en⟩).trans (if_pos held)), fun en free => ?guards,
    fun h => ?slips, fun h => congrArg Host.Outcome.next (if_neg (mt And.right h)),
    fun k => ⟨fun h => ?faults, fun h => congrArg Host.Outcome.next (if_neg (mt And.right h))⟩,
    fun long => congrArg Host.Outcome.next (if_pos ⟨hl, long⟩),
    fun short => congrArg Host.Outcome.next (if_neg (mt And.right (Nat.not_le.2 short)))⟩
  case samples =>
    obtain ⟨x, n, k, filtered⟩ := Door.lcFilter_changes (s.door c) i.lc s.tick
    simp only [e, u, d, State.doorSample, State.door_setDoor, filtered, true_and, and_true]
    exact ⟨rfl, rfl, State.doorAmp_le _ _ _, rfl⟩
  case guards =>
    intro lc
    have broken : u.lcBroken c = true ↔ lc := by rw [State.lcBroken_iff, State.doorSample_rb]
    have settles (idle : d.learn = none) (kept : ((u.doorGuard c).door c).learn = e.learn) :
        exec (.doorEval c i) s = .next (u.doorGuard c) :=
      exec_doorEval_guards hl en free (kept.trans (learn.trans idle))
    have rests (idle : d.learn = none) (stays : u.doorGuard c = u) : exec (.doorEval c i) s = .next u :=
      (settles idle (by rw [stays])).trans (congrArg _ stays)
    refine ⟨fun idle closing h => ?reverses, fun idle closing force clear => rests idle ?_,
      fun idle opening force few => ?obstructs, fun idle opening force many holds => ?fails,
      fun idle geared force => ?aborts, fun idle h force => rests idle ?_,
      fun idle closing opening geared => rests idle ?_, fun l present learns h => ?learning⟩
    case reverses =>
      obtain ⟨f, reversed, st', plan, block, kept⟩ :=
        State.doorGuard_reverses (st.trans closing) (h.imp_right broken.2)
      refine ⟨_, settles idle (reversed.door ▸ kept), ?_⟩
      rw [reversed.door]
      exact ⟨st', plan, sampled.tick ▸ block, (sampled.trans reversed).only⟩
    · exact State.doorGuard_closing_stays (st.trans closing) force (Bool.eq_false_iff.2 (mt broken.1 clear))
    case obstructs =>
      obtain ⟨f, stopped, st', wait, count, kept⟩ :=
        State.doorGuard_obstructed (st.trans opening) force (obstruct.trans_lt few)
      refine ⟨_, settles idle (stopped.door ▸ kept), ?_⟩
      rw [stopped.door]
      exact ⟨st', wait, count.trans (by rw [obstruct]), (sampled.trans stopped).only⟩
    case fails =>
      have sch : u.sch = s.sch := sampled.only.sch.resolve_left Bool.false_ne_true
      obtain ⟨st', count, kept, only⟩ :=
        State.doorGuard_fails (st.trans opening) force (many.trans_eq obstruct.symm) (sch ▸ holds)
      exact ⟨_, settles idle kept, st', count, Only.trans { sampled.only with sch := .inl rfl } only⟩
    case aborts =>
      obtain ⟨f, aborted, st', cause, after, kept⟩ := State.doorGuard_geared (st.trans geared) force
      refine ⟨_, settles idle (aborted.door ▸ kept), ?_⟩
      rw [aborted.door]
      exact ⟨st', cause, after, (sampled.trans aborted).only⟩
    · exact State.doorGuard_quiet (by rw [st]; exact h) force
    · exact State.doorGuard_other (learn.trans idle) (st ▸ closing) (st ▸ opening) (st ▸ geared)
    case learning =>
      obtain ⟨f, aborted, st', dropped, after⟩ :=
        State.doorGuard_learn (learn.trans present) (st.trans learns) (h.imp_right (And.imp_right broken.2))
      refine ⟨_, exec_doorEval_guards hl en free (aborted.door ▸ dropped), ?_⟩
      rw [aborted.door]
      exact ⟨st', dropped, after, (sampled.trans aborted).only⟩
  case slips =>
    obtain ⟨st, fault, -, -, lost, only⟩ := (DoorTo.refl (s := s) (c := c)).losePos.faulted 6
    exact ⟨_, congrArg Host.Outcome.next (if_pos ⟨hl, h⟩), st, fault, lost, only⟩
  case faults =>
    obtain ⟨st, fault, plan, -, -, only⟩ := (DoorTo.set (s := s) { s.door c with fltNow := k }).faulted k
    exact ⟨_, congrArg Host.Outcome.next (if_pos ⟨hl, h⟩), st, fault, plan, only⟩

end Sys2Proof.Machine

/-! PROOF. The DOOR supply, a stage powered again, and the end of a learning (chapter 9): O47. -/

namespace Sys2Proof.Machine

/-! ### The DOOR supply, and rest after it failed (R159) -/

section supply
variable {s : State} {c : Chan}

/-- No request waits, or none may act yet. -/
theorem State.doorWaited_idle (h : (s.door c).waitReq = none ∨ (s.door c).uv = true ∨ (s.door c).ov = true) :
    s.doorWaited c = s := by
  unfold State.doorWaited
  dsimp only
  split
  · rfl
  · next acts =>
    have good : (s.door c).uv = false ∧ (s.door c).ov = false := by
      rw [Bool.not_eq_true, Bool.or_eq_false_iff, Bool.or_eq_false_iff] at acts
      exact acts.1
    have idle : (s.door c).waitReq = none := h.resolve_right (by simp [good])
    rw [idle]

theorem State.supplyGood_idle (idle : (s.door c).waitReq = none) (o : Bool) : s.supplyGood c o =
    s.setDoor c { s.door c with uv := (s.door c).uv && o, ov := (s.door c).ov && !o } :=
  State.doorWaited_idle (.inl (by rw [State.door_setDoor, idle]))

theorem State.supplyGood_both_idle (front : s.doorF.waitReq = none) (rear : s.doorR.waitReq = none) (o : Bool) :
    (s.supplyGood .a o).supplyGood .b o = { s with
      doorF := { s.doorF with uv := s.doorF.uv && o, ov := s.doorF.ov && !o }
      doorR := { s.doorR with uv := s.doorR.uv && o, ov := s.doorR.ov && !o } } := by
  have second (d : Door) : (s.setDoor .a d).supplyGood .b o = _ :=
    State.supplyGood_idle (s := s.setDoor .a d) (c := .b) rear o
  rw [State.supplyGood_idle (c := .a) front, second]
  rfl

/-- The axis at rest after its supply failed: its learning dropped, its set-point where the encoder shows it. -/
def State.doorRested (s : State) (c : Chan) : Door :=
  let d := s.door c
  { d with
    moving := false, wasOff := false, spPos := d.actPos * 65536, spTick := s.tick, spVel := 0, spAcc := 0
    afterStop := none, learn := none
    posLost := d.posLost || (d.wasOff && s.overHalfStep c (d.count - d.refCount).natAbs) }

theorem State.doorRest_to (waits : (s.door c).waitReq = none ∨ (s.door c).uv = true ∨ (s.door c).ov = true) :
    DoorTo c s (s.doorRest c)
      (if (s.door c).st = .fault ∨ (s.door c).st = .off ∨ (s.door c).st = .unref then s.doorRested c
      else (s.doorRested c).entered .stopped s.tick) := by
  have dropped : DoorTo c s
      (if (s.door c).learn.isSome then (s.setDoor c { s.door c with learn := none }).raise (doorPage c) 13 else s)
      { s.door c with learn := none } := by
    split
    · exact (DoorTo.set _).raise _ _
    · next absent => exact ⟨by rw [← Option.not_isSome_iff_eq_none.1 absent], Only.refl _ s⟩
  have rested := (dropped.setDoor { (s.door c) with
    learn := none, moving := false, wasOff := false, spPos := (s.door c).actPos * 65536, spTick := s.tick, spVel := 0
    spAcc := 0, afterStop := none }).losePosIf
      (p := (s.door c).wasOff ∧ s.overHalfStep c ((s.door c).count - (s.door c).refCount).natAbs)
      Bool.and_eq_true_iff.symm
  unfold State.doorRest
  dsimp only
  rw [dropped.door]
  split
  · rw [State.doorWaited_idle (by rw [rested.door]; exact waits)]
    exact rested
  · have stopped := rested.into .stopped
    rw [State.doorWaited_idle (by rw [stopped.door]; exact waits)]
    exact stopped

end supply

/-! ### A stage powered again (R175) -/

section powerUp
variable {s : State} {c : Chan} {n : Int} {o : Bool}

/-- What the always-on domain kept is valid, and the encoder agrees with it to less than half a step. -/
def State.retainGood (s : State) (c : Chan) (n : Int) (o : Bool) : Prop :=
  s.rb (doorRetAngle (doorPage c)) 17 = true ∧ o = false ∧ s.sys.aonPowered = true ∧
    s.belowHalfStep c (s.doorSense c n - s.ri (doorRetCnt (doorPage c))).natAbs = true

theorem State.doorPowerUp_resumes (good : s.retainGood c n o) : DoorTo c s (s.doorPowerUp c n o false) (({ s.door c with
    count := s.doorSense c n, spPos := (s.door c).retSp, spTick := s.tick, posLost := false, refCount := s.doorSense c n
    cntZero := s.ri (doorRetCnt (doorPage c)) - (s.door c).retSp / s.ri (doorEncScale (doorPage c)) } : Door).entered
      (if (s.door c).retSt = .closed ∨ (s.door c).retSt = .opened then (s.door c).retSt else .stopped) s.tick) := by
  obtain ⟨valid, overrun, powered, agrees⟩ := good
  unfold State.doorPowerUp
  simp only [Bool.false_eq_true, if_false, State.door_setDoor, Bool.or_eq_true, decide_eq_true_eq]
  rw [if_pos (by simp [valid, overrun, powered, agrees])]
  exact ((DoorTo.set _).setDoor _).into _

theorem State.doorPowerUp_lost (bad : ¬ s.retainGood c n o) : DoorTo c s (s.doorPowerUp c n o false)
    (({ s.door c with count := s.doorSense c n, posLost := true } : Door).entered .unref s.tick) := by
  have lost : s.doorPowerUp c n o false = _ := if_neg (by simpa [State.retainGood, and_assoc] using bad)
  rw [lost]
  exact (((DoorTo.set _).wr _ _).losePos).into .unref

/-- A cut of the encoder's supply has cleared VALID (R379). -/
theorem Word.bit_valid_cleared (w : Word) : Word.bit (Word.setBits w 17 1 0) 17 = false := by
  have wide : w.toNat < 2 ^ 32 := w.isLt
  simp only [Word.bit, Word.setBits, Word.bits, BitVec.toNat_ofNat, Nat.testBit_eq_decide_div_mod_eq,
    Nat.shiftRight_eq_div_pow, Nat.shiftLeft_eq, decide_eq_false_iff_not]
  omega

theorem State.doorPowerUp_cut (stored : s.Canonical) : DoorTo c s (s.doorPowerUp c n o true)
    (({ s.door c with count := s.doorSense c n, posLost := true } : Door).entered .unref s.tick) := by
  have cleared : DoorTo c s (s.wf_ (doorRetAngle (doorPage c)) 17 1 0) (s.door c) := DoorTo.refl.wr _ _
  have invalid : (s.wf_ (doorRetAngle (doorPage c)) 17 1 0).rb (doorRetAngle (doorPage c)) 17 = false :=
    (congrArg (fun w => Word.bit w 17) (State.rd_wr_same stored _ _)).trans (Word.bit_valid_cleared _)
  have sense : (s.wf_ (doorRetAngle (doorPage c)) 17 1 0).doorSense c n = s.doorSense c n := by
    have inverted :
        (s.wf_ (doorRetAngle (doorPage c)) 17 1 0).rb (doorCfg (doorPage c)) 9 = s.rb (doorCfg (doorPage c)) 9 :=
      congrArg (fun w => Word.bit w 9) (State.rd_wr_other stored _ (by cases c <;> decide))
    rw [State.doorSense, inverted, State.doorSense]
  have lost := State.doorPowerUp_lost (c := c) (n := n) (o := o) fun good =>
    Bool.false_ne_true (invalid.symm.trans good.1)
  rw [sense, cleared.door] at lost
  exact cleared.trans lost

end powerUp

/-! ### The end of a learning (R176) -/

section learn
variable {s : State} {c : Chan} {l : Learn}

theorem exec_doorLearnDone (hl : s.live = true) (present : (s.door c).learn = some l) (learns : (s.door c).st = .learn)
    (made : 7 ≤ l.moves) : exec (.doorLearnDone c) s = .next (s.learnDone c l) := by
  change execDoorLearnDone c s = _
  simp only [execDoorLearnDone, present]
  exact congrArg _ (if_pos ⟨hl, learns, made⟩)

theorem exec_doorLearnDone_goes
    (h : (s.door c).learn.all (fun l => decide (l.moves < 7)) = true ∨ (s.door c).st ≠ .learn) :
    exec (.doorLearnDone c) s = .next s := by
  change execDoorLearnDone c s = _
  unfold execDoorLearnDone
  split
  · rfl
  · next l present =>
    refine congrArg _ (if_neg ?_)
    rintro ⟨-, learns, made⟩
    have few : l.moves < 7 := by simpa [present, learns] using h
    omega

/-- What a learning stores, and the axis it leaves. -/
theorem State.learnDone_stores (fits : l.mass (s.learnLims c).am ≤ s.dr c doorMassMax) : s.learnDone c l =
    (((((s.wi (doorMassG (doorPage c)) (l.mass (s.learnLims c).am)).wi (doorWidthUm (doorPage c)) l.width).wf_
      (doorFriction (doorPage c)) 0 16 (wordI l.fric).toNat).setDoor c { s.door c with
        learn := none, learned := true, plan := none, creep := false, spPos := (s.door c).actPos * 65536, spVel := 0
        spAcc := 0 }).doorInto c .closed).raise (doorPage c) 12 := by
  refine (if_neg (Int.not_lt.2 fits)).trans ?_
  cases c <;> rfl

theorem State.learnDone_aborts (heavy : (s.dr c doorMassMax : Int) < l.mass (s.learnLims c).am) :
    s.learnDone c l = s.doorLearnAbort c := if_pos heavy

end learn

/-- Settles O47: each command by its condition and the lemma of its operation. That the set-point becomes the encoder
position at rest (log entry 115), and that the row's own count must equal the last evaluation's (238), is the model's
choice. -/
theorem doorSupplyAndLearning : Obligations.DoorSupplyAndLearning := by
  intro s hu
  refine ⟨fun o => ?fault, fun o => ?recover, fun c n => ?rest, fun c n o cut hl => ?powerUp, fun c hl => ?learn⟩
  case fault =>
    intro f n
    have run : s.supplyRun (if o then Door.highN else Door.lowN) = max (n s.doorF) (n s.doorR) := by cases o <;> rfl
    exact ⟨fun long => congrArg Host.Outcome.next (if_pos ⟨hu, run ▸ long⟩),
      fun short => congrArg Host.Outcome.next (if_neg fun h => absurd h.2 (run ▸ Nat.not_le.2 short))⟩
  case recover =>
    intro n
    have run : s.supplyRun (if o then Door.downN else Door.upN) = max (n s.doorF) (n s.doorR) := by cases o <;> rfl
    exact ⟨fun long front rear =>
        congrArg Host.Outcome.next ((if_pos ⟨hu, run ▸ long⟩).trans (State.supplyGood_both_idle front rear o)),
      fun _ => execDoorSupplyRecover_only o s,
      fun short => congrArg Host.Outcome.next (if_neg fun h => absurd h.2 (run ▸ Nat.not_le.2 short))⟩
  case rest =>
    intro d still lost e
    refine ⟨fun moved stood same waits => ?_, fun _ _ _ => execDoorRestDetect_only c n s,
      fun h => congrArg Host.Outcome.next (if_neg ?_)⟩
    · obtain ⟨door, only⟩ := State.doorRest_to waits
      exact ⟨_, congrArg Host.Outcome.next (if_pos ⟨hu, moved, stood, same⟩), only, door⟩
    · rintro ⟨-, moved, stood, same⟩
      rcases h with unmoved | early | counts
      · exact Bool.false_ne_true (unmoved.symm.trans moved)
      · exact absurd stood (Nat.not_le.2 early)
      · exact counts same
  case powerUp =>
    intro d count may good
    have acts {e : Door} (h : may) (powered : DoorTo c s (s.doorPowerUp c n o cut) e) :
        ∃ t, exec (.doorStagePowerUp c n ⟨o, cut⟩) s = .next t ∧ Only (doorParts c) s t ∧ t.door c = e := by
      obtain ⟨en, off, driven⟩ := h
      exact ⟨_, congrArg Host.Outcome.next (if_pos ⟨hl, en, off, by simp [driven]⟩), powered.only, powered.door⟩
    refine ⟨fun h g => acts h ?_, fun h kept lack => acts h ?_, fun h taken stored => acts h ?_,
      fun h => congrArg Host.Outcome.next (if_neg ?_)⟩
    · obtain ⟨kept, g⟩ := g
      rw [kept]
      exact State.doorPowerUp_resumes g
    · rw [kept]
      exact State.doorPowerUp_lost fun g => lack ⟨kept, g⟩
    · rw [taken]
      exact State.doorPowerUp_cut stored
    · rintro ⟨-, en, off, driven⟩
      exact h ⟨en, off, by simpa using driven⟩
  case learn =>
    intro d
    refine ⟨fun l present learns made => ?_, exec_doorLearnDone_goes⟩
    intro m
    rw [exec_doorLearnDone hl present learns made]
    refine ⟨fun fits => congrArg _ (State.learnDone_stores fits), fun heavy => ?_⟩
    rw [State.learnDone_aborts heavy]
    obtain ⟨door, only⟩ := State.doorLearnAbort_to (s := s) (c := c)
    refine ⟨_, rfl, ?_⟩
    rw [door, State.doorStops_eq]
    exact ⟨rfl, rfl, rfl, rfl, only⟩

end Sys2Proof.Machine

/-! PROOF. The Electrum safety kernel (chapter 10): what every step keeps, timed checks, the end of START, resets, test
pulses, modes, timers and configuration, and the run to the nearest landing: O5, O14 and O16 to O20. -/

namespace Sys2Proof.Machine

/-! ### What every step keeps (R186, R190, R192) -/

/-- Every command answers a next state that keeps what `Keeps` names, each by the lemma of its own meaning. -/
theorem exec_keeps : ∀ (c : Instr) (s : State), Answers s (exec c s)
  | .servoTick inp, s => execServoTick_keeps inp s
  | .phaseDeadlineMiss master, s => execPhaseDeadlineMiss_keeps master s
  | .electrumCycle inp, s => execElectrumCycle_keeps inp s
  | .strobeTimeout early, s => execStrobeTimeout_keeps early s
  | .electrumStartComplete pass da db, s => execElectrumStartComplete_keeps pass da db s
  | .safeResetCmd src, s => execSafeResetCmd_keeps src s
  | .autoReset, s => execAutoReset_keeps s
  | .keyRstInput heldMs, s => execKeyRstInput_keeps heldMs s
  | .pitReset, s => execPitReset_keeps s
  | .testPulse slot nodeLow demand, s => execTestPulse_keeps slot nodeLow demand s
  | .modeNormalReturn, s => execModeNormalReturn_keeps s
  | .degradedExpired mode, s => execDegradedExpired_keeps mode s
  | .degradedTimerClear mode, s => execDegradedTimerClear_keeps mode s
  | .nearestLandingRun, s => execNearestLandingRun_keeps s
  | .pairMismatch pair, s => execPairMismatch_keeps pair s
  | .channelDisagree, s => execChannelDisagree_keeps s
  | .absTimeout ch, s => execAbsTimeout_keeps ch s
  | .mirrorTimeout output, s => execMirrorTimeout_keeps output s
  | .stoFbTimeout, s => execStoFbTimeout_keeps s
  | .dcmPlaus side, s => execDcmPlaus_keeps side s
  | .safeConfigWrite src offset val, s => execSafeConfigWrite_keeps src offset val s
  | .hostRegisterWrite src addr val, s => execHostRegisterWrite_keeps src addr val s
  | .errClear src page val, s => execErrClear_keeps src page val s
  | .hlockSet src page, s => execHlockSet_keeps src page s
  | .hlockUnlock src page key, s => execHlockUnlock_keeps src page key s
  | .lrpRead via req, s => execLrpRead_keeps via req s
  | .lrpWrite via req, s => execLrpWrite_keeps via req s
  | .lrpOpen port req, s => execLrpOpen_keeps port req s
  | .lrpClose via req, s => execLrpClose_keeps via req s
  | .lrpNop via req, s => execLrpNop_keeps via req s
  | .lrpInvalidOp via req, s => execLrpInvalidOp_keeps via req s
  | .spiTransaction mosi, s => execSpiTransaction_keeps mosi s
  | .sessionEnvelope port bytes, s => execSessionEnvelope_keeps port bytes s
  | .ethFrameRx port fcsOk bytes, s => execEthFrameRx_keeps port fcsOk bytes s
  | .ethLinkChange port up amp24 sqi, s => execEthLinkChange_keeps port up amp24 sqi s
  | .sessionPendingTimeout inp, s => execSessionPendingTimeout_keeps inp s
  | .sessionTimeout inp, s => execSessionTimeout_keeps inp s
  | .hostSealOpen src, s => execHostSealOpen_keeps src s
  | .hostCloseOthers src, s => execHostCloseOthers_keeps src s
  | .hostCntClr src, s => execHostCntClr_keeps src s
  | .ethCntClr src port, s => execEthCntClr_keeps src port s
  | .ethReneg src port, s => execEthReneg_keeps src port s
  | .xbarClrPeak src, s => execXbarClrPeak_keeps src s
  | .xbarClrFlt src, s => execXbarClrFlt_keeps src s
  | .budgetExhausted master, s => execBudgetExhausted_keeps master s
  | .srAnswer bytes endNs, s => execSrAnswer_keeps bytes endNs s
  | .srTimeout, s => execSrTimeout_keeps s
  | .sourceReturn source, s => execSourceReturn_keeps source s
  | .dzEdge ch rising stampUs, s => execDzEdge_keeps ch rising stampUs s
  | .dzWiringFault ch, s => execDzWiringFault_keeps ch s
  | .dzWiringFaultEnd ch, s => execDzWiringFaultEnd_keeps ch s
  | .encDisagree, s => execEncDisagree_keeps s
  | .encDisagreeClear, s => execEncDisagreeClear_keeps s
  | .traction, s => execTraction_keeps s
  | .biasCal src, s => execBiasCal_keeps src s
  | .biasCalDone, s => execBiasCalDone_keeps s
  | .srReacq src, s => execSrReacq_keeps src s
  | .clrTract src, s => execClrTract_keeps src s
  | .kappaReset src, s => execKappaReset_keeps src s
  | .posRunClear src, s => execPosRunClear_keeps src s
  | .kappaBiasSave, s => execKappaBiasSave_keeps s
  | .lwbConversion raw openWire exc overLimit, s => execLwbConversion_keeps raw openWire exc overLimit s
  | .lwbValidClear, s => execLwbValidClear_keeps s
  | .lwbValidSet, s => execLwbValidSet_keeps s
  | .lwbZero src, s => execLwbZero_keeps src s
  | .lwbSpan src, s => execLwbSpan_keeps src s
  | .lwbCalDone, s => execLwbCalDone_keeps s
  | .motStart src, s => execMotStart_keeps src s
  | .motApply src, s => execMotApply_keeps src s
  | .motResume src, s => execMotResume_keeps src s
  | .motTrun src, s => execMotTrun_keeps src s
  | .motTargetWrite src val, s => execMotTargetWrite_keeps src val s
  | .motHorizonWrite src val, s => execMotHorizonWrite_keeps src val s
  | .motHold src, s => execMotHold_keeps src s
  | .planEnd, s => execPlanEnd_keeps s
  | .followError, s => execFollowError_keeps s
  | .vcapChange, s => execVcapChange_keeps s
  | .motHome src, s => execMotHome_keeps src s
  | .motRecover src, s => execMotRecover_keeps src s
  | .motRelevel src, s => execMotRelevel_keeps src s
  | .motAbandon src, s => execMotAbandon_keeps src s
  | .autoSpecialStart, s => execAutoSpecialStart_keeps s
  | .autoRelevel, s => execAutoRelevel_keeps s
  | .homeRefInput active, s => execHomeRefInput_keeps active s
  | .homeLimitInput, s => execHomeLimitInput_keeps s
  | .homeMaxdist, s => execHomeMaxdist_keeps s
  | .drvReadyTimeout, s => execDrvReadyTimeout_keeps s
  | .drvPreloadDone, s => execDrvPreloadDone_keeps s
  | .drvBrakeLifted, s => execDrvBrakeLifted_keeps s
  | .drvBrakeApplied, s => execDrvBrakeApplied_keeps s
  | .drvResponse bytes delimNs endNs, s => execDrvResponse_keeps bytes delimNs endNs s
  | .motionWatchdog, s => execMotionWatchdog_keeps s
  | .drvFaultRst src, s => execDrvFaultRst_keeps src s
  | .drvCntClr src, s => execDrvCntClr_keeps src s
  | .ciaTpdo statusword position sofUs, s => execCiaTpdo_keeps statusword position sofUs s
  | .ciaSdoResponse, s => execCiaSdoResponse_keeps s
  | .legacyRdyChange active, s => execLegacyRdyChange_keeps active s
  | .landingTableWrite src addr val, s => execLandingTableWrite_keeps src addr val s
  | .callSet src addr val, s => execCallSet_keeps src addr val s
  | .callClr src addr val, s => execCallClr_keeps src addr val s
  | .destAdd src val, s => execDestAdd_keeps src val s
  | .destDel src val, s => execDestDel_keeps src val s
  | .schModeWrite src val, s => execSchModeWrite_keeps src val s
  | .schRunSet src, s => execSchRunSet_keeps src s
  | .schRunClear src, s => execSchRunClear_keeps src s
  | .schOosRequest src on, s => execSchOosRequest_keeps src on s
  | .schedRunStart, s => execSchedRunStart_keeps s
  | .schedResume, s => execSchedResume_keeps s
  | .holdTimeEnd, s => execHoldTimeEnd_keeps s
  | .schRestore src, s => execSchRestore_keeps src s
  | .ccClrAll src, s => execCcClrAll_keeps src s
  | .endDwell src, s => execEndDwell_keeps src s
  | .btnStuck landing, s => execBtnStuck_keeps landing s
  | .hallPress frame, s => execHallPress_keeps frame s
  | .announcement frame, s => execAnnouncement_keeps frame s
  | .bidFrame frame, s => execBidFrame_keeps frame s
  | .roundNobid, s => execRoundNobid_keeps s
  | .releaseFrame frame, s => execReleaseFrame_keeps frame s
  | .awardTakeEffect, s => execAwardTakeEffect_keeps s
  | .announceRepeat key seq, s => execAnnounceRepeat_keeps key seq s
  | .rebid key seq, s => execRebid_keeps key seq s
  | .orphanDetect key seq, s => execOrphanDetect_keeps key seq s
  | .listenEnd, s => execListenEnd_keeps s
  | .islandEnter, s => execIslandEnter_keeps s
  | .islandExit, s => execIslandExit_keeps s
  | .bidRunSet, s => execBidRunSet_keeps s
  | .bidRejoin src, s => execBidRejoin_keeps src s
  | .bidReleaseAll src, s => execBidReleaseAll_keeps src s
  | .bidCntClr src, s => execBidCntClr_keeps src s
  | .bidQuery src val, s => execBidQuery_keeps src val s
  | .doorOpen src axis, s => execDoorOpen_keeps src axis s
  | .doorClose src axis, s => execDoorClose_keeps src axis s
  | .doorStop src axis, s => execDoorStop_keeps src axis s
  | .doorArmAdv src axis, s => execDoorArmAdv_keeps src axis s
  | .doorHome src axis, s => execDoorHome_keeps src axis s
  | .doorLearn src axis, s => execDoorLearn_keeps src axis s
  | .doorClrFault src axis, s => execDoorClrFault_keeps src axis s
  | .doorEval axis inp, s => execDoorEval_keeps axis inp s
  | .stepLoss axis, s => execStepLoss_keeps axis s
  | .doorAutoHome axis, s => execDoorAutoHome_keeps axis s
  | .doorOpenEnd axis, s => execDoorOpenEnd_keeps axis s
  | .doorCloseEnd axis, s => execDoorCloseEnd_keeps axis s
  | .doorHomed axis, s => execDoorHomed_keeps axis s
  | .doorHomeFail axis, s => execDoorHomeFail_keeps axis s
  | .doorObstructRetry axis, s => execDoorObstructRetry_keeps axis s
  | .doorLockTimeout axis, s => execDoorLockTimeout_keeps axis s
  | .doorDeferEnd axis, s => execDoorDeferEnd_keeps axis s
  | .doorNudge axis, s => execDoorNudge_keeps axis s
  | .doorReverseEnd axis, s => execDoorReverseEnd_keeps axis s
  | .doorLearnDone axis, s => execDoorLearnDone_keeps axis s
  | .doorStageFault axis code, s => execDoorStageFault_keeps axis code s
  | .doorSupplyFault overLimit, s => execDoorSupplyFault_keeps overLimit s
  | .doorSupplyRecover overLimit, s => execDoorSupplyRecover_keeps overLimit s
  | .doorRestDetect axis count, s => execDoorRestDetect_keeps axis count s
  | .doorPeakExhausted axis, s => execDoorPeakExhausted_keeps axis s
  | .doorStagePowerUp axis count down, s => execDoorStagePowerUp_keeps axis count down s
  | .lsfFrameRx bus frame, s => execLsfFrameRx_keeps bus frame s
  | .lsfTimeout slot, s => execLsfTimeout_keeps slot s
  | .lsfCrcRate slot, s => execLsfCrcRate_keeps slot s
  | .lsfConfTimeout slot, s => execLsfConfTimeout_keeps slot s
  | .lsfProduce slot identical, s => execLsfProduce_keeps slot identical s
  | .lsfRestart src val, s => execLsfRestart_keeps src val s
  | .lsfCntClr src, s => execLsfCntClr_keeps src s
  | .canFrameRx n frame, s => execCanFrameRx_keeps n frame s
  | .canTxReq src n val, s => execCanTxReq_keeps src n val s
  | .canTxAbort src n val, s => execCanTxAbort_keeps src n val s
  | .canTxAttemptEnd n obj outcome sofUs, s => execCanTxAttemptEnd_keeps n obj outcome sofUs s
  | .canError n lec transmitting increment, s => execCanError_keeps n lec transmitting increment s
  | .canBusOff n, s => execCanBusOff_keeps n s
  | .canBusoffRecovery n, s => execCanBusoffRecovery_keeps n s
  | .canAlone n, s => execCanAlone_keeps n s
  | .canSleep src n, s => execCanSleep_keeps src n s
  | .canLocalWake src n, s => execCanLocalWake_keeps src n s
  | .canWake n cause frame, s => execCanWake_keeps n cause frame s
  | .canIntegrate n, s => execCanIntegrate_keeps n s
  | .canCntClr src n, s => execCanCntClr_keeps src n s
  | .fieldFilterTick group raw, s => execFieldFilterTick_keeps group raw s
  | .fioOutSet src group val, s => execFioOutSet_keeps src group val s
  | .fioOutClr src group val, s => execFioOutClr_keeps src group val s
  | .fioTsd channel, s => execFioTsd_keeps channel s
  | .fioTsdRecover channel, s => execFioTsdRecover_keeps channel s
  | .fioTsdClr src group val, s => execFioTsdClr_keeps src group val s
  | .grpOc group, s => execGrpOc_keeps group s
  | .fioGrpClr src group, s => execFioGrpClr_keeps src group s
  | .fioDiagChange channel kind present, s => execFioDiagChange_keeps channel kind present s
  | .fieldSupplyChange group mv, s => execFieldSupplyChange_keeps group mv s
  | .fioChannelCfg src channel val, s => execFioChannelCfg_keeps src channel val s
  | .silenceTimeout, s => execSilenceTimeout_keeps s
  | .silAck src, s => execSilAck_keeps src s
  | .bandChange loopUa heldUs, s => execBandChange_keeps loopUa heldUs s
  | .presentStable, s => execPresentStable_keeps s
  | .presentOpen, s => execPresentOpen_keeps s
  | .claim, s => execClaim_keeps s
  | .claimSettleEnd, s => execClaimSettleEnd_keeps s
  | .isolatedExit, s => execIsolatedExit_keeps s
  | .echoWindow, s => execEchoWindow_keeps s
  | .echoStop, s => execEchoStop_keeps s
  | .mirrorEpochRx e, s => execMirrorEpochRx_keeps e s
  | .mirrorEpochApply, s => execMirrorEpochApply_keeps s
  | .mirrorStale, s => execMirrorStale_keeps s
  | .partnerLinkDown, s => execPartnerLinkDown_keeps s
  | .partnerLinkUp, s => execPartnerLinkUp_keeps s
  | .resyncComplete, s => execResyncComplete_keeps s
  | .roleExchange, s => execRoleExchange_keeps s
  | .xchNow src, s => execXchNow_keeps src s
  | .xchHoldEnd, s => execXchHoldEnd_keeps s
  | .partResync src, s => execPartResync_keeps src s
  | .partCntClr src, s => execPartCntClr_keeps src s
  | .flushStart, s => execFlushStart_keeps s
  | .recordsLostStage, s => execRecordsLostStage_keeps s
  | .recFlush src, s => execRecFlush_keeps src s
  | .recWallSet src, s => execRecWallSet_keeps src s
  | .recFire src slot, s => execRecFire_keeps src slot s
  | .recCntClr src, s => execRecCntClr_keeps src s
  | .recRead src seq, s => execRecRead_keeps src seq s
  | .counterSave, s => execCounterSave_keeps s
  | .finalSave, s => execFinalSave_keeps s
  | .keyLoad src cmd, s => execKeyLoad_keeps src cmd s
  | .keyUnload src cmd, s => execKeyUnload_keeps src cmd s
  | .keyReplace src cmd, s => execKeyReplace_keeps src cmd s
  | .keySwap slot, s => execKeySwap_keeps slot s
  | .keyGenerate src cmd, s => execKeyGenerate_keeps src cmd s
  | .keyImport src cmd, s => execKeyImport_keeps src cmd s
  | .keyDerive src cmd, s => execKeyDerive_keeps src cmd s
  | .keyStoreRes src cmd, s => execKeyStoreRes_keeps src cmd s
  | .keyEraseRes src cmd, s => execKeyEraseRes_keeps src cmd s
  | .attestKey src cmd, s => execAttestKey_keeps src cmd s
  | .attestDev src cmd, s => execAttestDev_keeps src cmd s
  | .idPub src cmd, s => execIdPub_keeps src cmd s
  | .nonce src cmd, s => execNonce_keeps src cmd s
  | .lcTransition src cmd, s => execLcTransition_keeps src cmd s
  | .lcReturn src cmd, s => execLcReturn_keeps src cmd s
  | .verify src cmd, s => execVerify_keeps src cmd s
  | .keymgmt src cmd, s => execKeymgmt_keeps src cmd s
  | .keyRemask, s => execKeyRemask_keeps s
  | .idReady, s => execIdReady_keeps s
  | .lowerTreeBuild, s => execLowerTreeBuild_keeps s
  | .serviceExpiry, s => execServiceExpiry_keeps s
  | .tamperEvent sources, s => execTamperEvent_keeps sources s
  | .tamperRelease src, s => execTamperRelease_keeps src s
  | .startAttempt inp, s => execStartAttempt_keeps inp s
  | .clockHoldEnd, s => execClockHoldEnd_keeps s
  | .invarWindow count, s => execInvarWindow_keeps count s
  | .xoStop, s => execXoStop_keeps s
  | .pllLossOfLock backup, s => execPllLossOfLock_keeps backup s
  | .ircTrim up, s => execIrcTrim_keeps up s
  | .ircFail, s => execIrcFail_keeps s
  | .fallbackAcc1pct, s => execFallbackAcc1pct_keeps s
  | .clkGateWrite src val, s => execClkGateWrite_keeps src val s
  | .gateDrainEnd ended, s => execGateDrainEnd_keeps ended s
  | .clkoutReconfig, s => execClkoutReconfig_keeps s
  | .powerOnReset, s => execPowerOnReset_keeps s
  | .brownOutReset, s => execBrownOutReset_keeps s
  | .pinReset, s => execPinReset_keeps s
  | .watchdogReset, s => execWatchdogReset_keeps s
  | .softReset src cmd, s => execSoftReset_keeps src cmd s
  | .safeReset, s => execSafeReset_keeps s
  | .partReset, s => execPartReset_keeps s
  | .clkReset, s => execClkReset_keeps s
  | .resetButtonRelease pressMs immediate, s => execResetButtonRelease_keeps pressMs immediate s
  | .resetButtonStuck, s => execResetButtonStuck_keeps s
  | .resetButtonRearm, s => execResetButtonRearm_keeps s
  | .deferredPinReset, s => execDeferredPinReset_keeps s
  | .powerFailWarning mv, s => execPowerFailWarning_keeps mv s
  | .powerRecovery mv, s => execPowerRecovery_keeps mv s
  | .holdupReady, s => execHoldupReady_keeps s
  | .profDataWrite src val, s => execProfDataWrite_keeps src val s
  | .profStore src slot, s => execProfStore_keeps src slot s
  | .profStoreDone writeOk, s => execProfStoreDone_keeps writeOk s
  | .profileOvrWrite src val, s => execProfileOvrWrite_keeps src val s
  | .park src, s => execPark_keeps src s
  | .autoPark, s => execAutoPark_keeps s
  | .parkWake cause, s => execParkWake_keeps cause s
  | .pwrRun src, s => execPwrRun_keeps src s
  | .deep src, s => execDeep_keeps src s
  | .deepWake cause, s => execDeepWake_keeps cause s
  | .imageUpdate src object, s => execImageUpdate_keeps src object s
  | .enrolment helper vendorRoots, s => execEnrolment_keeps helper vendorRoots s
  | .keyCommandDone, s => execKeyCommandDone_keeps s
  | .aonPowerLoss, s => execAonPowerLoss_keeps s
  | .borStart, s => execBorStart_keeps s
  | .ethFarFault on, s => execEthFarFault_keeps on s

/-- What `Keeps` names is enough for a sound state to stay sound. -/
theorem Keeps.sound {s t : State} (h : Keeps s t) (hs : s.Sound) : t.Sound :=
  ⟨h.store hs.canonical, h.el hs.electrum⟩

/-- Whether a state is sound does not rest on its queue. -/
theorem State.Sound.withQueue {s : State} (h : s.Sound) (q : List Instr) : State.Sound { s with pending := q } :=
  ⟨h.canonical, h.electrum⟩

/-- Settles O5: an idle step changes nothing, and every command keeps the store canonical and Electrum safe. -/
theorem everyStepKeepsSoundness : Obligations.EveryStepKeepsSoundness := by
  intro s hs
  unfold step
  split
  case h_1 => exact ⟨s, rfl, hs⟩
  case h_2 c rest _ =>
    obtain ⟨t, answers, keeps⟩ := exec_keeps c { s with pending := rest }
    exact ⟨t, answers, keeps.sound (hs.withQueue rest)⟩

/-! ### The timed checks (R181, R184, R200, R201) -/

/-- A command that asks for a trip trips where its cause would latch now. -/
theorem exec_trips {i : Instr} {s : State} {c : Nat} (answer : exec i s = .next (s.trip c)) (h : s.Latches c) :
    ∃ t, exec i s = .next t ∧ Tripped s t c := ⟨s.trip c, answer, State.trip_spec h⟩

/-- A place of a list lies in every stretch of the list that holds it. -/
theorem mem_take_drop {α : Type} {l : List α} {x : α} {k d n : Nat} (found : l[k]? = some x) (lo : d ≤ k)
    (hi : k < d + n) : x ∈ (l.drop d).take n := by
  refine List.mem_iff_getElem?.2 ⟨k - d, ?_⟩
  rw [List.getElem?_take_of_lt (by omega), List.getElem?_drop, show d + (k - d) = k by omega, found]

/-- The contradictions 0 to 2 are those of the front side, 3 to 5 those of the rear one
(R201). -/
theorem El.plausBad_of_held {e : El} {c : ElCh} {k n : Nat} {x : Chan} (hc : c ∈ e.chans) (found : c.plaus[k]? = some n)
    (held : 2000 ≤ n) (side : (x = .a ∧ k < 3) ∨ (x = .b ∧ 3 ≤ k ∧ k < 6)) : e.plausBad x = true := by
  refine List.any_eq_true.2 ⟨c, hc, List.any_eq_true.2 ⟨n, ?_, decide_eq_true held⟩⟩
  obtain ⟨rfl, front⟩ | ⟨rfl, lo, hi⟩ := side
  · exact mem_take_drop found (Nat.zero_le k) (by omega)
  · exact mem_take_drop found lo (by omega)

/-- A mirror contact that has not followed in its time trips with MC for a contactor and with BRK for a brake. -/
theorem exec_mirrorTimeout_late {s : State} {k : Nat} (hu : s.up_ = true) (lo : 2 ≤ k) (hi : k ≤ 5)
    (wrong : s.mirrorOk k = false) (late : nth s.el.chgAt k 0 + s.mirrorTime k ≤ s.el.cyc) :
    exec (.mirrorTimeout k) s = .next (s.trip (if k ≤ 3 then 8 else 7)) :=
  congrArg Host.Outcome.next (if_pos ⟨hu, lo, hi, by simp [wrong], late⟩)

/-- Settles O14: each check's own condition asks for a trip with its cause, and a trip is `State.trip_spec`. -/
theorem timedChecksTrip : Obligations.TimedChecksTrip := by
  intro s hu
  refine ⟨fun early hc => exec_trips ?strobe hc, fun pair hc held => exec_trips ?pair hc,
    fun k n hc differs held => exec_trips ?channels hc, fun k hc hk wrong late => exec_trips ?contactor hc,
    fun k hc hk wrong late => exec_trips ?brake hc, fun hc reads wrong late => exec_trips ?feedback hc,
    fun ch k n hc his found held => ⟨fun front => exec_trips ?front hc, fun lo hi => exec_trips ?rear hc⟩⟩
  case strobe => exact congrArg Host.Outcome.next (if_pos hu)
  case pair => exact congrArg Host.Outcome.next (if_pos ⟨hu, held⟩)
  case channels =>
    exact congrArg Host.Outcome.next (if_pos ⟨hu, List.any_eq_true.2 ⟨(k, n), differs, decide_eq_true held⟩⟩)
  case contactor =>
    obtain rfl | rfl := hk
    · exact exec_mirrorTimeout_late hu (by decide) (by decide) wrong late
    · exact exec_mirrorTimeout_late hu (by decide) (by decide) wrong late
  case brake =>
    obtain rfl | rfl := hk
    · exact exec_mirrorTimeout_late hu (by decide) (by decide) wrong late
    · exact exec_mirrorTimeout_late hu (by decide) (by decide) wrong late
  case feedback => exact congrArg Host.Outcome.next (if_pos ⟨hu, reads, by simp [wrong], late⟩)
  all_goals have own : ch ∈ s.el.chans := by simpa [El.chans] using his
  case front => exact congrArg Host.Outcome.next (if_pos ⟨hu, El.plausBad_of_held own found held (.inl ⟨rfl, front⟩)⟩)
  case rear => exact congrArg Host.Outcome.next (if_pos ⟨hu, El.plausBad_of_held own found held (.inr ⟨rfl, lo, hi⟩)⟩)

/-! ### The end of START (R192, R224) -/

section start
variable {s : State} {pass : Bool} {da db : Word}

theorem exec_electrumStartComplete (hu : s.up_ = true) :
    exec (.electrumStartComplete pass da db) s = .next (s.elStart pass da db) := congrArg Host.Outcome.next (if_pos hu)

theorem State.elStart_stays (h : s.el.st ≠ .start) : s.elStart pass da db = s := if_pos h

/-- In START the self-tests and the two digests decide. -/
theorem State.elStart_decides (h : s.el.st = .start) : s.elStart pass da db =
    let t : State := { s with el := { s.el with a := { s.el.a with digest := da }, b := { s.el.b with digest := db } } }
    if pass ∧ da = db then
      ({ t with el := { t.el with
        st := if t.el.causes.isEmpty then .normal else .tripped } } : State).elOutputs.lsfRunNow
    else (if t.el.causes.contains 19 then { t with el := { t.el with st := .tripped } } else t.trip 19).lsfRunNow :=
  if_neg (not_not.2 h)

end start

/-- LSF runs from now on where it did not run before (Table 11.6). -/
theorem State.lsfRunNow_starts {s : State} (left : s.el.st ≠ .start) (stood : s.el.runUs = none) : s.lsfRunNow =
    each (List.range 32) { s with el := { s.el with runUs := some s.us } } (fun w k => w.lsfStart k) := by
  refine if_neg ?_
  rintro (h | h)
  · exact left h
  · rw [stood] at h
    exact Bool.noConfusion h

/-- Settles O16: outside START nothing happens; in START the tests and the digests decide, and CONFIG trips unless it is
latched. That a cause latches in START too is the model's choice (log entry 229). -/
theorem electrumStartEnds : Obligations.ElectrumStartEnds := by
  intro pass da db s hu kept
  rw [exec_electrumStartComplete hu]
  refine ⟨fun h passed same => ?normal, fun h failed fresh => ?trips, fun h failed latched => ?latched,
    fun h => congrArg _ (State.elStart_stays h), fun _ => State.lsfRunNow_starts⟩
  case normal => rw [State.elStart_decides h]; exact congrArg _ (if_pos ⟨passed, same⟩)
  all_goals
    have bad : ¬ (pass = true ∧ da = db) := by
      rintro ⟨passed, same⟩
      exact failed.elim (by simp [passed]) (absurd same)
    rw [State.elStart_decides h]
  case trips =>
    have latches : kept.Latches 19 := ⟨fresh, .inr rfl⟩
    exact ⟨kept.trip 19, State.trip_spec latches,
      congrArg _ ((if_neg bad).trans (congrArg State.lsfRunNow (if_neg (by simpa using fresh))))⟩
  case latched => exact congrArg _ ((if_neg bad).trans (congrArg State.lsfRunNow (if_pos (by simpa using latched))))

/-! ### Resets (R191, R192, R203) -/

/-- Commanding the switches of an output leaves the latch of the pit. -/
theorem El.setSw_pitLatch (e : El) (k : Nat) (x y : Bool) (c : Nat) : (e.setSw k x y c).pitLatch = e.pitLatch := by
  unfold El.setSw
  dsimp only
  split <;> rfl

/-- Commanding switches one after another leaves the latch of the pit. -/
theorem El.outputs_pitLatch (auth : Bool) (a b : List Bool) (l : List Nat) (e : El) :
    (l.foldl (fun x i => x.setSw i (auth && nth a i false) (auth && nth b i false) x.cyc) e).pitLatch = e.pitLatch := by
  induction l generalizing e with
  | nil => rfl
  | cons k r ih => exact (ih _).trans (El.setSw_pitLatch e k _ _ _)

/-- The outputs of a cycle leave the causes, the state, permission and the latch of the pit. -/
theorem State.elOutputs_same (s : State) : s.elOutputs.el.causes = s.el.causes ∧ s.elOutputs.el.st = s.el.st ∧
    s.elOutputs.el.perm = s.el.perm ∧ s.elOutputs.el.pitLatch = s.el.pitLatch := by
  unfold State.elOutputs
  obtain ⟨causes, st, perm, -⟩ := El.outputs_same s.outputsMay (s.elWants s.el.a) (s.elWants s.el.b) (List.range 9) s.el
  exact ⟨causes, st, perm, El.outputs_pitLatch _ _ _ _ _⟩

/-- The outputs of a cycle are no stored words. -/
theorem State.elOutputs_rf (s : State) : s.elOutputs.rf = s.rf :=
  (State.elOutputs_only (pt := { el := true }) rfl (Only.refl _ _)).rf.resolve_left (by decide)

/-- The stored words that an interrupt leaves rest on the stored words alone. -/
theorem State.raise_rf_congr {s t : State} (h : t.rf = s.rf) (pg i : Nat) : (t.raise pg i).rf = (s.raise pg i).rf := by
  simp only [State.raise, State.wf_, State.wr, State.rd, h]

/-- With a cause left, or outside TRIPPED, Electrum stays; with none left it leaves TRIPPED for NORMAL with
RESET_DONE. -/
theorem State.elResolve_ends (s : State) : s.elResolve.el = { s.el with
      st := if s.el.st = .tripped ∧ s.el.causes = [] then .normal else s.el.st } ∧
    s.elResolve.rf = if s.el.st = .tripped ∧ s.el.causes = [] then (s.raise pgSafe 2).rf else s.rf := by
  unfold State.elResolve
  by_cases h : s.el.st = .tripped ∧ s.el.causes = []
  · rw [if_pos (by simpa using h), if_pos h, if_pos h]
    exact ⟨rfl, rfl⟩
  · rw [if_neg (by simpa using h), if_neg h, if_neg h]
    exact ⟨rfl, rfl⟩

/-- Electrum without the causes of a list; without OVS2, the governor's output is free again. -/
def State.withoutCauses (s : State) (l : List Nat) : State :=
  { s with el := { s.el with
    causes := s.el.causes.filter (fun c => !l.contains c), govTripped := s.el.govTripped && !l.contains 5 } }

/-- Causes clear, the outputs take their state, and Electrum leaves TRIPPED where none is left. -/
theorem State.elClear_eq (s : State) (l : List Nat) : s.elClear l = (s.withoutCauses l).elOutputs.elResolve := rfl

/-- What clearing the causes of a list does. -/
theorem State.elClear_clears (s : State) (l : List Nat) : CausesCleared l s (s.elClear l) := by
  have only : Only { rf := true, irqNow := true, el := true } s (s.elClear l) :=
    State.elClear_only rfl rfl rfl (Only.refl _ _) l
  obtain ⟨causes, st, perm, -⟩ := (s.withoutCauses l).elOutputs_same
  have rf : (s.withoutCauses l).elOutputs.rf = s.rf := State.elOutputs_rf _
  rw [State.elClear_eq] at only ⊢
  generalize (s.withoutCauses l).elOutputs = out at *
  obtain ⟨el, done⟩ := out.elResolve_ends
  refine ⟨?causes, ?state, ?permission, ?done, only⟩
  all_goals rw [el]
  case causes => exact causes
  case state => rw [st]; rfl
  case permission => exact perm
  case done => rw [done, st, State.raise_rf_congr rf, rf]; rfl

/-- The latch of the pit stays while causes clear. -/
theorem State.elClear_pitLatch (s : State) (l : List Nat) : (s.elClear l).el.pitLatch = s.el.pitLatch := by
  obtain ⟨-, -, -, latch⟩ := (s.withoutCauses l).elOutputs_same
  rw [State.elClear_eq]
  generalize (s.withoutCauses l).elOutputs = out at *
  rw [out.elResolve_ends.1]
  exact latch

/-- What clears `l` for a state without the latch of the pit clears it for the state with it. -/
theorem CausesCleared.ofPitLatch {l : List Nat} {s t : State} {b : Bool}
    (h : CausesCleared l { s with el := { s.el with pitLatch := b } } t) : CausesCleared l s t :=
  { h with frame := { h.frame with el := .inl rfl } }

/-- Under the common conditions a reset clears every cause it covers. -/
theorem State.clearable_common {s : State} (h : s.commonOk = true) (cov : TripKind → Bool) :
    s.clearable cov = s.coveredCauses cov := if_pos h

/-- A reset has something to clear only under the common conditions. -/
theorem State.clearable_eq_nil {s : State} {cov : TripKind → Bool} :
    s.clearable cov = [] ↔ s.commonOk = false ∨ s.coveredCauses cov = [] := by
  cases h : s.commonOk with
  | true => simp [State.clearable_common h]
  | false => simp [State.clearable, h]

/-- SAFE_CMD.RESET is refused where the reset has nothing to clear. -/
theorem State.safeResetRefusal_ne_nil {s : State} {src : Src} (h : s.clearable (covers src) = []) :
    s.safeResetRefusal src ≠ [] := by
  unfold State.safeResetRefusal
  rw [h, if_neg (by decide)]
  split
  · exact List.cons_ne_nil 5 []
  · exact List.cons_ne_nil 2 []

/-- An accepted RESET has something to clear. -/
theorem State.safeReset_accepted {s : State} {src : Src} (hj : s.judge src safeCmd 1 = none) :
    s.clearable (covers src) ≠ [] := by
  obtain ⟨-, codes⟩ := (State.judge_eq_none (by decide) (by decide)).1 hj
  have page : s.wordCodes src safeCmd 1 = ifC (s.gated pgSafe && true) 2 ++
      (s.regCodes pgSafe _ (s.heldWord safeCmd) 1 ++ s.judgeSafe src _ 0x8C (s.heldWord safeCmd) 1) := rfl
  rw [page, List.append_eq_nil_iff, List.append_eq_nil_iff] at codes
  obtain ⟨-, -, judged⟩ := codes
  have refusal : s.safeResetRefusal src = [] := (List.append_eq_nil_iff.1 judged).2
  exact fun nothing => State.safeResetRefusal_ne_nil nothing refusal

/-- A write of RESET to SAFE_CMD, where it is accepted, is the reset. -/
theorem State.applySafe_reset (s : State) (src : Src) (r : RegSpec) : s.applySafe src 0x8C r 1 = s.safeReset src := by
  unfold State.applySafe
  exact if_pos (by decide)

/-- An accepted RESET clears every cause that the world of its session covers. -/
theorem exec_safeResetCmd {s : State} {src : Src} (hu : s.up_ = true) (hj : s.judge src safeCmd 1 = none) :
    exec (.safeResetCmd src) s = .next (s.elClear (s.coveredCauses (covers src))) := by
  have common : s.commonOk = true := by
    by_contra h
    exact State.safeReset_accepted hj (State.clearable_eq_nil.2 (.inl (by simpa using h)))
  obtain ⟨r, hr⟩ : ∃ r, regAt safeCmd = some r := ⟨_, rfl⟩
  refine congrArg Host.Outcome.next ?_
  calc s.command src safeCmd 1 = s.applyPage src 0x10 0x8C r 1 := State.command_page hu hj (by decide) rfl hr
    _ = s.applySafe src 0x8C r 1 := rfl
    _ = s.safeReset src := s.applySafe_reset src r
    _ = s.elClear (s.coveredCauses (covers src)) := congrArg s.elClear (State.clearable_common common _)

section resets
variable {s : State} (hu : s.up_ = true)
include hu

theorem exec_autoReset (h : s.autoClear ≠ []) : exec .autoReset s = .next (s.elClear s.autoClear) :=
  congrArg Host.Outcome.next (if_pos ⟨hu, by simpa using h⟩)

theorem exec_keyRstInput {ms : Nat} (lo : 1000 ≤ ms) (hi : ms ≤ 5000) (common : s.commonOk = true)
    (h : s.coveredCauses keyCovers ≠ []) :
    exec (.keyRstInput ms) s = .next (s.elClear (s.coveredCauses keyCovers)) := by
  rw [← State.clearable_common common] at h ⊢
  exact congrArg Host.Outcome.next (if_pos ⟨hu, lo, hi, by simpa using h⟩)

theorem exec_pitReset (held : 4000 ≤ s.el.pitRst) : exec .pitReset s = .next s.pitResetNow :=
  congrArg Host.Outcome.next (if_pos ⟨hu, held⟩)

end resets

theorem exec_keyRstInput_stays {s : State} {ms : Nat} (h : ms < 1000 ∨ 5000 < ms ∨ s.clearable keyCovers = []) :
    exec (.keyRstInput ms) s = .next s := by
  refine congrArg Host.Outcome.next (if_neg ?_)
  rintro ⟨-, lo, hi, covered⟩
  obtain short | long | nothing := h
  · omega
  · omega
  · simp [nothing] at covered

/-- The AUTO causes that clear by themselves (R191). -/
theorem State.mem_autoClear {s : State} {c : Nat} : c ∈ s.autoClear ↔ 2000 ≤ s.el.commonN ∧ c ∈ s.el.causes ∧
    causeKind c = .auto ∧ c ∉ s.el.present ∧ (alook s.el.lastPresent c).getD 0 + 2000 ≤ s.el.cyc := by
  unfold State.autoClear
  split
  · next h => simp [h, and_assoc]
  · next h => simp [h]

/-- Settles O17: a reset that has something to clear clears it as `State.elClear_clears` says. That KEY_RST covers kinds
HOST and AUTO too, and that PIT_RST clears the latch without the cause outside the common conditions, is the model's reading
(log entry 142). -/
theorem resetsClearTheirCauses : Obligations.ResetsClearTheirCauses := by
  intro s hu
  refine ⟨fun src hj => ⟨_, exec_safeResetCmd hu hj, s.elClear_clears _⟩, fun c => State.mem_autoClear,
    fun h => ⟨_, exec_autoReset hu h, s.elClear_clears _⟩, fun h => ?noAuto,
    fun ms lo hi common h => ⟨_, exec_keyRstInput hu lo hi common h, s.elClear_clears _⟩,
    fun ms h => exec_keyRstInput_stays (h.imp_right (Or.imp_right State.clearable_eq_nil.2)),
    fun held common gone => ?pit, fun held h => ?latch, fun early => ?early⟩
  case noAuto =>
    refine congrArg Host.Outcome.next (if_neg ?_)
    rintro ⟨-, covered⟩
    simp [h] at covered
  case pit =>
    have cause : s.pitResetNow = ({ s with el := { s.el with pitLatch := false } } : State).elClear [11] :=
      if_pos (by simp [common, gone])
    rw [exec_pitReset hu held, cause]
    exact ⟨_, rfl, (State.elClear_clears _ _).ofPitLatch, State.elClear_pitLatch _ _⟩
  case latch =>
    rw [exec_pitReset hu held]
    refine congrArg Host.Outcome.next (if_neg ?_)
    rcases h with uncommon | present
    · simp [uncommon]
    · simp [present]
  case early => exact congrArg Host.Outcome.next (if_neg fun h => Nat.not_le.2 early h.2)

/-! ### Test pulses (R206, R207) -/

/-- A pulse of a slot counted and remembered with its score; the next one opens the other switch (R206). -/
def State.pulseScored (s : State) (slot : Nat) (ok : Bool) : State :=
  ({ s with el := { s.el with
    lastPulse := some (slot, nth s.el.swNext slot false, ok), pulsed := some ((s.el.cyc - 1) / 25)
    swNext := s.el.swNext.set slot (!nth s.el.swNext slot false) } } : State).wf_ safeTest 16 16
      ((s.rf_ safeTest 16 16 + 1) % 65536)

section pulse
variable {s : State} {slot : Nat} {low : Bool} {d : PulseDemand}

theorem El.pulseDue_iff {e : El} : e.pulseDue slot = true ↔ 0 < e.cyc ∧ (e.cyc - 1) / 25 % 16 = slot ∧
    (e.cyc - 1) % 25 ≤ 1 ∧ e.pulsed ≠ some ((e.cyc - 1) / 25) := by
  simp [El.pulseDue, and_assoc]

theorem State.testPulseNow_stays (h : 9 ≤ slot ∨ s.el.out slot = false ∨ s.el.pulseDue slot = false) :
    s.testPulseNow slot low d = s := if_pos (by simpa using h)

/-- A due pulse of an energised output passes on a low node or a demand before the reading, and otherwise trips. -/
theorem State.testPulseNow_scores (small : slot < 9) (on : s.el.out slot = true) (due : s.el.pulseDue slot = true) :
    s.testPulseNow slot low d =
      let ok := low || d == .offBeforeReading
      if ok then s.pulseScored slot ok else ((s.pulseScored slot ok).raise pgSafe 9).trip 17 := by
  unfold State.testPulseNow State.pulseScored
  rw [if_neg (by simp [small, on, due])]
  cases d <;> cases low <;> rfl

/-- A scored pulse latches nothing and leaves authority. -/
theorem State.pulseScored_latches {c : Nat} {ok : Bool} (h : s.Latches c) (pg i : Nat) :
    ((s.pulseScored slot ok).raise pg i).Latches c := h

end pulse

/-- Settles O18: a due pulse is scored by `State.testPulseNow_scores`. When one is due is the model's choice (log
entry 221). -/
theorem testPulsesAreScored : Obligations.TestPulsesAreScored := by
  intro slot low d s hu ok pulsed
  have answer : exec (.testPulse slot low d) s = .next (s.testPulseNow slot low d) :=
    congrArg Host.Outcome.next (if_pos hu)
  rw [answer]
  refine ⟨El.pulseDue_iff, fun h => congrArg _ (State.testPulseNow_stays h), fun small on due pass => ?passes,
    fun small on due fail hc => ?fails⟩
  all_goals rw [State.testPulseNow_scores small on due]
  case passes => exact congrArg _ (if_pos pass)
  case fails =>
    exact ⟨_, congrArg _ (if_neg (by simpa [ok] using fail)), State.trip_spec (State.pulseScored_latches hc pgSafe 9)⟩

/-! ### Modes, timers and the configuration (R183, R184, R202, R210, R211) -/

/-- An offset from 0x40 lies behind the header of its page (Table 2.3). -/
theorem State.applyHead_none {s : State} {pg o : Nat} {v : Word} (ho : 0x40 ≤ o) : s.applyHead pg o v = none := by
  unfold State.applyHead
  split
  case h_5 => rfl
  all_goals omega

/-- A configuration word of SAFE is stored and taken by both channels (R211). -/
theorem State.applySafe_config {s : State} {src : Src} {o : Nat} {r : RegSpec} {v : Word} (ho : o ≠ 0x8C) :
    s.applySafe src o r v = (s.storeReg (0x10000 + o) r v).elDigest := by
  unfold State.applySafe
  split
  · exact absurd rfl ho
  · rfl

theorem exec_safeConfigWrite {s : State} {src : Src} {o : BitVec 12} {r : RegSpec} {v : Word} (hu : s.up_ = true)
    (lo : 0x40 ≤ o.toNat) (ho : o.toNat ≠ 0x8C) (hj : s.judge src (0x10000 + o.toNat) v = none)
    (hr : regAt (0x10000 + o.toNat) = some r) :
    exec (.safeConfigWrite src o v) s = .next (s.storeReg (0x10000 + o.toNat) r v).elDigest := by
  have small : o.toNat < 4096 := o.isLt
  have page : (0x10000 + o.toNat) / 4096 = 0x10 := by omega
  have offset : (0x10000 + o.toNat) % 4096 = o.toNat := by omega
  refine congrArg Host.Outcome.next ?_
  calc s.command src (0x10000 + o.toNat) v = s.applyPage src 0x10 o.toNat r v := by
        rw [State.command_page hu hj (by omega) (by rw [offset]; exact State.applyHead_none lo) hr, page, offset]
    _ = s.applySafe src o.toNat r v := rfl
    _ = _ := State.applySafe_config ho

/-- Both channels hold the same copy of the configuration now in force, and their digests of it (R184). -/
theorem State.elDigest_takes (s : State) : s.elDigest.rf = s.rf ∧ s.elDigest.el.a.copy = s.elCopyNow ∧
    s.elDigest.el.b.copy = s.elCopyNow ∧ s.elDigest.el.a.digest = s.elDigest.safeDigestOf s.elDigest.el.a ∧
    s.elDigest.el.b.digest = s.elDigest.safeDigestOf s.elDigest.el.b := ⟨rfl, rfl, rfl, rfl, rfl⟩

/-- Settles O19: each command by its own condition, the configuration write by what an accepted write there does. That a
landing word counts among the words copied is the model's reading (log entry 222). -/
theorem electrumModesAndTimers : Obligations.ElectrumModesAndTimers := by
  intro s hu
  have expired (m) : exec (.degradedExpired m) s = .next (s.degExpire m) := congrArg Host.Outcome.next (if_pos hu)
  have clear (m) : exec (.degradedTimerClear m) s = .next (s.degClear m) := congrArg Host.Outcome.next (if_pos hu)
  have absLost {c} (h : 14400000 ≤ (s.el.chan c).absBad) : exec (.absTimeout c) s = .next (s.absLost c) :=
    congrArg Host.Outcome.next (if_pos ⟨hu, h⟩)
  have absStays {c} (h : (s.el.chan c).absBad < 14400000) : exec (.absTimeout c) s = .next s :=
    congrArg Host.Outcome.next (if_neg fun due => Nat.not_le.2 h due.2)
  refine ⟨fun held away => ?returns, fun h => ?stays, fun m h fresh => ?expires, fun m h => ?expiresNot,
    fun m h gone => ?clears, fun m h => ?clearsNot, absLost (c := .a), absLost (c := .b), absStays (c := .a),
    absStays (c := .b), fun src o v r lo ho hj hr => ?config⟩
  case returns => exact congrArg Host.Outcome.next ((if_pos ⟨hu, held, away⟩).trans (if_neg away))
  case stays =>
    refine congrArg Host.Outcome.next (if_neg ?_)
    rintro ⟨-, held, away⟩
    exact h.elim (Nat.not_lt.2 held) away
  case expires => rw [expired]; exact congrArg _ (if_pos ⟨h, by rw [fresh]; rfl⟩)
  case expiresNot =>
    rw [expired]
    refine congrArg _ (if_neg ?_)
    rintro ⟨due, fresh⟩
    exact h.elim (Nat.not_lt.2 due) (by simpa using fresh)
  case clears => rw [clear]; exact congrArg _ (if_pos ⟨h, by rw [gone]; rfl⟩)
  case clearsNot =>
    rw [clear]
    refine congrArg _ (if_neg ?_)
    rintro ⟨due, gone⟩
    exact h.elim (Nat.not_lt.2 due) (by simpa using gone)
  case config =>
    intro u
    obtain ⟨rf, copyA, copyB, digestA, digestB⟩ := u.elDigest_takes
    exact ⟨_, exec_safeConfigWrite hu lo ho hj hr, rfl, rf, copyA, copyB, digestA, digestB,
      State.elDigest_only rfl (State.storeReg_only rfl (Only.refl _ _) _ _ _)⟩

/-! ### The run to the nearest landing (R210) -/

/-- Settles O20: with its conditions met the run starts as any other, towards the nearest landing. -/
theorem runToTheNearestLanding : Obligations.RunToTheNearestLanding := by
  intro n s hl
  have answer : exec .nearestLandingRun s = .next s.nearestStart := congrArg Host.Outcome.next (if_pos hl)
  rw [answer]
  refine ⟨fun nothing => congrArg _ ?rests,
    fun near expired idle still band run own away closed valid drive auth => ⟨s.nearestStart, rfl, ?starts⟩⟩
  case rests =>
    unfold State.nearestStart
    split
    · rfl
    · exact if_neg fun h => by simp [nothing] at h
  case starts =>
    have starts : s.nearestStart = (s.wn motHorizon n).motStartNow := by
      unfold State.nearestStart
      rw [near]
      exact if_pos ⟨by simpa using expired, idle, still, band, run, by simp [own], List.all_eq_true.2 away, closed,
        valid, drive, auth⟩
    rw [starts]
    exact ⟨rfl, rfl, rfl, rfl, rfl, rfl, State.motStartNow_only rfl rfl rfl (State.wn_only rfl (Only.refl _ _) _ _)⟩

end Sys2Proof.Machine

/-! PROOF. The length of a safe frame, and what the slots of LSF do with frames, time and commands (chapter 11): O48 and
O49. -/

namespace Sys2Proof.Machine

/-! ### The data length and the padding (R215) -/

/-- What is found first in a rising list is the least that passes. -/
theorem find?_least {l : List Nat} {p : Nat → Bool} {a : Nat} (rising : l.Pairwise (· ≤ ·)) (found : l.find? p = some a) :
    ∀ m ∈ l, p m = true → a ≤ m := by
  obtain ⟨-, before, after, rfl, fail⟩ := List.find?_eq_some_iff_append.1 found
  intro m hm pass
  rcases List.mem_append.1 hm with hm | hm
  · exact absurd pass (by simpa using fail m hm)
  · rcases List.mem_cons.1 hm with rfl | hm
    · exact Nat.le_refl m
    · exact List.rel_of_pairwise_cons (List.pairwise_append.1 rising).2.1 hm

theorem fdLen_least {n : Nat} (fits : n ≤ 64) : fdLen n ∈ [12, 16, 20, 24, 32, 48, 64] ∧ n ≤ fdLen n ∧
    ∀ m ∈ [12, 16, 20, 24, 32, 48, 64], n ≤ m → fdLen n ≤ m := by
  obtain ⟨a, found⟩ : ∃ a, [12, 16, 20, 24, 32, 48, 64].find? (fun m => decide (n ≤ m)) = some a :=
    Option.isSome_iff_exists.1 (List.find?_isSome.2 ⟨64, by decide, by simpa using fits⟩)
  have is : fdLen n = a := by rw [fdLen, found]; rfl
  rw [is]
  exact ⟨List.mem_of_find?_eq_some found, by simpa using List.find?_some found,
    fun m hm le => find?_least (by decide) found m hm (by simpa using le)⟩

@[simp] theorem natLe_length (n x : Nat) : (natLe n x).length = n := by
  induction n generalizing x with
  | zero => rfl
  | succ n ih => rw [natLe, List.length_cons, ih]

@[simp] theorem padData_length (l : List Byte) (n : Nat) : (padData l n).length = n := by
  simp [padData]

theorem padData_pads {l : List Byte} {m n : Nat} (le : l.length ≤ m) : ∀ b ∈ (padData l n).drop m, b = 0 := by
  intro b hb
  rw [padData, List.drop_take, List.drop_append, List.drop_eq_nil_of_le le, List.nil_append, List.drop_replicate] at hb
  exact List.eq_of_mem_replicate (List.mem_of_mem_take hb)

@[simp] theorem State.lsfImage_length (s : State) : s.lsfImage.length = 12 := by
  simp [State.lsfImage, wordLe]

/-- The first rule of Table 11.3 comes before all others. -/
theorem State.lsfJudge_rejects {s : State} {k : Nat} {f : CanFrame} (bad : f.data.length ≠ fdLen (10 + s.lsfLen k) ∨
    ∃ b ∈ f.data.drop (10 + s.lsfLen k), b ≠ 0) : s.lsfJudge k f = .other := by
  refine if_pos ?_
  rcases bad with length | ⟨b, hb, ne⟩
  · simp [length]
  · have padding : (f.data.drop (10 + s.lsfLen k)).any (· != 0) = true := List.any_eq_true.2 ⟨b, hb, by simpa using ne⟩
    rw [padding, Bool.or_true]

/-! ### Production (R219) -/

section produce
variable {s : State} {k : Nat}

theorem exec_lsfProduce (hu : s.up_ = true) (due : s.lsfEn k = true ∧ s.lsfProd k = true ∧ (s.lsfn k).st = .run ∧
    (s.lsfn k).deadline ≤ s.us) (i : Bool) : exec (.lsfProduce k i) s = .next (s.lsfProduceNow k i) :=
  congrArg Host.Outcome.next (if_pos ⟨hu, due⟩)

theorem exec_lsfProduce_early (early : ¬ (s.lsfEn k = true ∧ s.lsfProd k = true ∧ (s.lsfn k).st = .run ∧
    (s.lsfn k).deadline ≤ s.us)) (i : Bool) : exec (.lsfProduce k i) s = .next s :=
  congrArg Host.Outcome.next (if_neg fun due => early due.2)

/-- An identical production is sent, with 22 bytes of content. -/
theorem State.lsfProduceNow_sends (s : State) (k : Nat) : ∃ (t : State) (content : List Byte), content.length = 22 ∧
    s.lsfProduceNow k true = t.canSend (Word.bits (s.lsfCfg k) 2 2) (s.lsfTxObj k) true
      (lsfId (s.rf_ lsfNode 0 12) (Word.bits (s.lsfCfg k) 8 4)) true (padData content 24) := by
  unfold State.lsfProduceNow
  extract_lets l n j full pend aborted img peer conn own body crc
  refine ⟨_, body ++ natLe 4 crc, ?length, if_pos rfl⟩
  simp [body, img]

/-- Where the channels differ the production is skipped, once a frame still pending is aborted. -/
theorem State.lsfProduceNow_skips (s : State) (k : Nat) :
    let n := Word.bits (s.lsfCfg k) 2 2
    let q := ((s.lsfn k).seq + 1) % 4294967296
    let t := if (s.txo n (s.lsfTxObj k)).res = .pending then (s.canAbort n (s.lsfTxObj k)).bump (lsfCnt k) 8 8 else s
    s.lsfProduceNow k false = (((t.setLsf k { s.lsfn k with
      seq := q, deadline := (s.lsfn k).deadline + 1000 * s.lsfTime k }).wn (lsfCnSeq + 0x20 * k) q).bump (lsfCnt k) 0 8).raise
        pgLsf 5 := by
  intro n q t
  unfold State.lsfProduceNow
  simp only [beq_iff_eq]
  exact if_neg Bool.false_ne_true

end produce

/-- Settles O48: a length is the first of the rising list that fits, the first rule of Table 11.3 rejects, and a production
pads its 22 bytes to 24. -/
theorem lsfDataLength : Obligations.LsfDataLength := by
  refine ⟨fun n => fdLen_least, fun s k f => State.lsfJudge_rejects, fun s k hu en prod run due => ?produced⟩
  obtain ⟨t, content, length, sends⟩ := s.lsfProduceNow_sends k
  exact ⟨t, padData content 24, padData_length _ _, padData_pads length.le,
    (exec_lsfProduce hu ⟨en, prod, run, due⟩ true).trans (congrArg _ sends)⟩

/-! ### A frame reaches its slot (R220, R235) -/

section frame
variable {s : State} {b : Nat} {f : CanFrame}

/-- No engine but Electrum hears a frame of LSF, which waits for its next cycle. -/
theorem State.engineFrame_lsf (ext : f.ide = true) (lsf : idClass f.id.toNat = 5) : s.engineFrame b f = s := by
  have ritha {c} (ne : 5 ≠ c) : isRitha c f = false := by simp [isRitha, lsf, ne]
  unfold State.engineFrame
  split
  · exact if_neg (by simp [isPress, lsf])
  · rw [State.announcementRx_other (ritha (by decide)), State.bidFrameRx_other (ritha (by decide)),
      State.releaseRx_other (ritha (by decide))]
  · exact if_pos (.inr (.inl ext))
  · rfl

theorem State.canIncoming_lsf (hu : s.up_ = true) (ext : f.ide = true) (lsf : idClass f.id.toNat = 5) :
    s.canIncoming b f = if s.canRuns b then s.canReceive b f else s := by
  split
  · next hr => rw [State.canIncoming_runs hu hr, State.engineFrame_lsf ext lsf]
  · next hr => exact State.canIncoming_stopped (by simpa using hr)

theorem State.lsfFrame_unbound {t : State} (incoming : s.canIncoming b f = t) (unbound : t.lsfSlotOf b f = none) :
    s.lsfFrame b f = t := by
  unfold State.lsfFrame
  rw [incoming]
  dsimp only
  rw [unbound]

theorem State.lsfFrame_bound {t : State} {k : Nat} (incoming : s.canIncoming b f = t) (bound : t.lsfSlotOf b f = some k) :
    s.lsfFrame b f = t.lsfTake k := by
  unfold State.lsfFrame
  rw [incoming]
  dsimp only
  rw [bound]

theorem exec_lsfFrameRx (hu : s.up_ = true) (hb : b < 4) (ext : f.ide = true) (lsf : idClass f.id.toNat = 5) :
    exec (.lsfFrameRx b f) s = .next (s.lsfFrame b f) := congrArg Host.Outcome.next (if_pos ⟨hu, hb, ext, lsf⟩)

theorem exec_lsfFrameRx_other (h : f.ide = false ∨ idClass f.id.toNat ≠ 5) : exec (.lsfFrameRx b f) s = .next s := by
  refine congrArg Host.Outcome.next (if_neg ?_)
  rintro ⟨-, -, ext, lsf⟩
  exact h.elim (by simp [ext]) (· lsf)

end frame

/-! ### Electrum takes a slot's frame (R220 to R225, Tables 11.3 and 11.4) -/

/-- The state that a frame is judged in: its object given up, and CONF cleared where its timer expired before the frame's
stamp (R19, R224). -/
def State.lsfTaken (s : State) (n k vp : Nat) : State :=
  let w := s.canTake n (s.lsfRxObj k)
  if (w.lsfn k).st = .wait ∧ (w.lsfn k).conf = true ∧ (w.lsfn k).confUs < vp then
    w.setLsf k { w.lsfn k with conf := false } else w

/-- A slot in WAIT is back before its first frame. -/
def State.lsfBack (u : State) (k : Nat) : State :=
  if (u.lsfn k).st = .wait ∧ (u.lsfn k).conf = true then u.setLsf k { u.lsfn k with conf := false } else u

/-- What an accepted frame does: its data delivered in RUN, unless it comes after the deadline, and by the second of two
that confirm the connection. -/
def State.lsfAccepted (u : State) (k vp q a : Nat) (d : List Byte) : State :=
  let l := u.lsfn k
  let late := vp + 1000 * u.lsfTime k
  let got : LsfSlot := { l with
    seq := q, lastAge := a, data := d, n := u.lsfLen k, infoSeq := q % 65536, deadline := late - 1000 * a, valid := true }
  let set (x : LsfSlot) : State := (u.setLsf k x).wn (lsfCnSeq + 0x20 * k) q
  if l.st = .run then if l.deadline < vp then u else set got
  else if l.conf then (set { got with st := .run, conf := false }).raise pgLsf 1
  else set { l with seq := q, conf := true, confUs := late, lastAge := a }

/-- What the verdict on its frame does to a slot that listens. -/
def State.lsfJudged (u : State) (k vp : Nat) : LsfVerdict → State
  | .duplicate => u
  | .other => u.bump (lsfCnt k) 16 8
  | .aged => (u.lsfBack k).bump (lsfCnt k) 16 8
  | .seqErr => ((u.lsfBack k).bump (lsfCnt k) 8 8).raise pgLsf 4
  | .crcErr =>
    let v := ((u.lsfBack k).bump (lsfCnt k) 0 8).raise pgLsf 3
    v.setLsf k { v.lsfn k with crcUs := vp :: (v.lsfn k).crcUs.filter (fun x => decide (vp < x + 1000000)) }
  | .accept q a d => u.lsfAccepted k vp q a d

section receive
variable {s : State} {n k : Nat} {f : CanFrame} (bound : s.lsfSlotOf n f = some k)
include bound

theorem State.lsfReceive_ignores
    (off : ((s.lsfTaken n k f.vp).lsfn k).st = .off ∨ ((s.lsfTaken n k f.vp).lsfn k).st = .failed) :
    s.lsfReceive n f = s.lsfTaken n k f.vp := by
  unfold State.lsfReceive
  rw [bound]
  dsimp -zeta only
  extract_lets w d u l back
  rcases off with off | off <;> rw [show l.st = _ from off] <;> rfl

theorem State.lsfReceive_judged
    (on : ((s.lsfTaken n k f.vp).lsfn k).st = .run ∨ ((s.lsfTaken n k f.vp).lsfn k).st = .wait)
    {v : LsfVerdict} (judged : (s.lsfTaken n k f.vp).lsfJudge k f = v) :
    s.lsfReceive n f = (s.lsfTaken n k f.vp).lsfJudged k f.vp v := by
  unfold State.lsfReceive
  rw [bound]
  dsimp -zeta only
  extract_lets w d u l back
  rw [show u.lsfJudge k f = v from judged]
  split
  · next off => exact on.elim (fun on => nomatch off.symm.trans on) (fun on => nomatch off.symm.trans on)
  · next failed => exact on.elim (fun on => nomatch failed.symm.trans on) (fun on => nomatch failed.symm.trans on)
  · cases v
    case accept =>
      dsimp only
      split
      · next run => exact (if_pos run).symm
      · next other => exact (if_neg other).symm
    all_goals rfl

end receive

/-- Electrum takes the new frame of an enabled consumer's object. -/
theorem State.lsfTake_receives {s : State} {k : Nat} {o : RxObj} (en : s.lsfEn k = true) (cons : s.lsfProd k = false)
    (held : alook (s.cann (Word.bits (s.lsfCfg k) 2 2)).rx (s.lsfRxObj k) = some o) (new : o.new = true) :
    s.lsfTake k = s.lsfReceive (Word.bits (s.lsfCfg k) 2 2)
      ⟨true, BitVec.ofNat 29 (lsfId (Word.bits (s.lsfCfg k) 16 12) (Word.bits (s.lsfCfg k) 8 4)), false, o.fdf, o.brs, o.esi,
        o.data.take o.len, o.sof, o.vp⟩ := by
  unfold State.lsfTake
  rw [if_neg (by simp [en, cons]), held]
  exact if_pos new

theorem State.lsfTake_none {s : State} {k : Nat} (h : s.lsfEn k = false ∨ s.lsfProd k = true) : s.lsfTake k = s :=
  if_pos (by simpa using h)

/-! ### The times of a slot, and its commands (R222 to R224, R227, R229) -/

section times
variable {s : State} {k : Nat}

theorem exec_lsfTimeout (hu : s.up_ = true) : exec (.lsfTimeout k) s = .next ((s.lsfTake k).lsfLate k) :=
  congrArg Host.Outcome.next (if_pos hu)

theorem exec_lsfConfTimeout (hu : s.up_ = true) : exec (.lsfConfTimeout k) s = .next ((s.lsfTake k).lsfUnconf k) :=
  congrArg Host.Outcome.next (if_pos hu)

theorem exec_lsfCrcRate_fails (runs : s.lsfRuns k = true) (many : s.rn lsfCrcMax ≤ (s.lsfn k).crcUs.length) :
    exec (.lsfCrcRate k) s = .next (s.lsfFail k 2) := congrArg Host.Outcome.next (if_pos ⟨runs, many⟩)

theorem exec_lsfCrcRate_stays (h : s.lsfRuns k = false ∨ (s.lsfn k).crcUs.length < s.rn lsfCrcMax) :
    exec (.lsfCrcRate k) s = .next s := by
  refine congrArg Host.Outcome.next (if_neg ?_)
  rintro ⟨runs, many⟩
  exact h.elim (by simp [runs]) (Nat.not_lt.2 many)

theorem State.lsfLate_stays (h : s.lsfRuns k = false ∨ s.us ≤ (s.lsfn k).deadline) : s.lsfLate k = s := by
  refine if_neg ?_
  rintro ⟨runs, late⟩
  exact h.elim (by simp [runs]) (Nat.not_le.2 late)

end times

section commands
variable {s : State} {src : Src} (hu : s.up_ = true)
include hu

theorem exec_lsfRestart {v : Word} (hj : s.judge src lsfRestart v = none) :
    exec (.lsfRestart src v) s = .next (s.lsfRestartNow v) := by
  obtain ⟨r, hr⟩ : ∃ r, regAt lsfRestart = some r := ⟨_, rfl⟩
  exact congrArg Host.Outcome.next (State.command_page hu hj (by decide) rfl hr)

theorem exec_lsfCntClr (hj : s.judge src lsfCmd 1 = none) : exec (.lsfCntClr src) s = .next s.lsfCntClr := by
  obtain ⟨r, hr⟩ : ∃ r, regAt lsfCmd = some r := ⟨_, rfl⟩
  exact congrArg Host.Outcome.next (State.command_page hu hj (by decide) rfl hr)

end commands

/-! ### A slot starts (R224, R229) -/

section starts
variable {s : State} {k : Nat}

theorem State.lsfStart_off (h : s.lsfEn k = false ∨ s.el.runUs = none) :
    s.lsfStart k = s.setLsf k { LsfSlot.reset with seq := if s.lsfProd k then (s.lsfn k).seq else 0 } :=
  if_pos (by simpa using h)

variable (en : s.lsfEn k = true) (left : s.el.runUs ≠ none)
include en left

theorem State.lsfStart_producer (prod : s.lsfProd k = true) : s.lsfStart k =
    s.setLsf k { LsfSlot.reset with st := .run, seq := (s.lsfn k).seq, deadline := s.lsfInstant k } :=
  (if_neg (by simp [en, left])).trans (if_pos prod)

theorem State.lsfStart_consumer (cons : s.lsfProd k = false) : s.lsfStart k =
    s.setLsf k { LsfSlot.reset with st := .wait, cause := (s.lsfn k).cause } :=
  (if_neg (by simp [en, left])).trans (if_neg (by simp [cons]))

end starts

/-- Settles O49: each command by its condition, a slot's frame by its verdict. That a configuration write leads on to WAIT or
RUN (log entry 146), that a frame after the deadline is left to the timeout (log entries 147, 223), that the rate of CRC
failures acts in RUN only (log entry 148) and that a frame is taken before a timeout is judged (log entry 223) is the model's
choice. -/
theorem lsfSlots : Obligations.LsfSlots := by
  intro s k hu
  refine ⟨fun b f hb ext lsf => ?frame, fun b f => exec_lsfFrameRx_other, ?take, State.lsfTake_none, ?timed, ?produce,
    fun src v => exec_lsfRestart hu, fun t => ?starts, fun src => exec_lsfCntClr hu⟩
  case frame =>
    intro t
    have incoming : s.canIncoming b f = t := State.canIncoming_lsf hu ext lsf
    rw [exec_lsfFrameRx hu hb ext lsf]
    exact ⟨fun unbound => congrArg _ (State.lsfFrame_unbound incoming unbound),
      fun bound => congrArg _ (State.lsfFrame_bound incoming bound)⟩
  case take =>
    intro o cfg b f en cons held new bound w u l back late
    have receives : s.lsfTake k = s.lsfReceive b f := State.lsfTake_receives en cons held new
    have judges (on : l.st = .run ∨ l.st = .wait) {v} (judged : u.lsfJudge k f = v) : s.lsfTake k = u.lsfJudged k o.vp v :=
      receives.trans (State.lsfReceive_judged bound on judged)
    refine ⟨fun off => receives.trans (State.lsfReceive_ignores bound off),
      fun on => ⟨judges on, judges on, judges on, judges on, judges on⟩, fun q a d judged => ?accepted⟩
    case accepted =>
      have run (h : l.st = .run) := (judges (.inl h) judged).trans (if_pos h)
      have wait (h : l.st = .wait) := (judges (.inr h) judged).trans (if_neg (by rw [h]; nofun))
      exact ⟨fun h due => (run h).trans (if_neg (Nat.not_lt.2 due)), fun h late => (run h).trans (if_pos late),
        fun h first => (wait h).trans (if_neg (by rw [first]; nofun)), fun h second => (wait h).trans (if_pos second)⟩
  case timed =>
    intro t l fails
    rw [exec_lsfTimeout hu, exec_lsfConfTimeout hu]
    exact ⟨fun runs late => congrArg _ (if_pos ⟨runs, late⟩), fun h => congrArg _ (State.lsfLate_stays h),
      exec_lsfCrcRate_fails, exec_lsfCrcRate_stays, fun lapsed => congrArg _ (if_pos lapsed),
      fun stands => congrArg _ (if_neg stands)⟩
  case produce =>
    intro l n due q t
    exact ⟨fun h => (exec_lsfProduce hu h false).trans (congrArg _ (s.lsfProduceNow_skips k)),
      fun i early => exec_lsfProduce_early early i⟩
  case starts =>
    exact ⟨State.lsfStart_consumer, State.lsfStart_producer, State.lsfStart_off⟩

end Sys2Proof.Machine

/-! PROOF. The idle step, the answer of every command, and what no step takes back (chapters 1, 17 and What each step
holds): O2, O3 and O6. -/

namespace Sys2Proof.Machine

/-- Settles O2 (log entry 2). -/
theorem stepIdlesOnAnEmptyQueue : Obligations.StepIdlesOnAnEmptyQueue := by
  intro s empty
  unfold step
  rw [empty]

/-- Settles O3: the queue is one of the parts of the state that `Keeps` names. -/
theorem everyCommandAnswers : Obligations.EveryCommandAnswers := by
  intro c s
  obtain ⟨t, answers, keeps⟩ := exec_keeps c s
  exact ⟨t, answers, keeps.queue⟩

/-- Settles O6: an idle step changes nothing, and `Keeps` names one-time memory and the index records. -/
theorem everyStepKeepsOneTimeMemory : Obligations.EveryStepKeepsOneTimeMemory := by
  intro s t answered
  unfold step at answered
  split at answered
  case h_1 =>
    obtain rfl : s = t := by simpa using answered
    exact ⟨OtpKeeps.refl _, le_refl _, IdxRises.refl _⟩
  case h_2 c rest _ =>
    obtain ⟨u, answers, keeps⟩ := exec_keeps c { s with pending := rest }
    obtain rfl : u = t := by simpa [answers] using answered
    exact ⟨keeps.otp, keeps.svn, keeps.idx⟩

end Sys2Proof.Machine

/-! PROOF. Faulty requests, SPI, envelopes and sessions, the Ethernet ports, the counters and the budgets (chapter 14): O22,
O23, O24, O25 and O26. -/

namespace Sys2Proof.Machine

/-! ### Faulty requests (R263) -/

section faults
variable {s : State} {via : Via} {q : List Byte} (hu : s.up_ = true) (hv : s.viaSrc via ≠ none)
include hu hv

/-- An invalid OP on a path that stands for a source. -/
theorem State.lrpRequest_invalid (hq : lrpValid q = false) : s.lrpRequest via q = s.lrpFault via q true := by
  unfold State.lrpRequest
  simp [hu, hv, hq]

/-- A failed length or CRC check; on SPI a request is cut to the length of its OP first. -/
theorem State.lrpRequest_unsound (hq : lrpValid q = true) (whole : via = .spi → q.length ≤ lrpLength q)
    (hs : lrpSound q = false) : s.lrpRequest via q = s.lrpFault via q false := by
  have kept : (if via = .spi then q.take (lrpLength q) else q) = q := by
    split
    · next spi => exact List.take_of_length_le (whole spi)
    · rfl
  unfold State.lrpRequest
  simp [hu, hv, kept, hq, hs]

end faults

/-! ### An SPI transaction (R264) -/

/-- What an enabled SPI port clocks out, once. -/
def State.spiClocked (s : State) (n : Nat) : State :=
  { s with host := { s.host with
    spiOut := (s.host.spiResp.getD [] ++ List.replicate n 0).take n, spiResp := none } }

/-- The first byte says what a transaction carries. -/
theorem State.spi_enabled {s : State} (hu : s.up_ = true) (en : s.rb hostCfg 0 = true) (b : Byte) (r : List Byte) :
    s.spi (b :: r) =
      if b = 0 then s.spiClocked (r.length + 1)
      else if b = 6 then (s.spiClocked (r.length + 1)).envelope 0 [] (slice (b :: r) 3 (leNat (slice (b :: r) 1 2)))
      else (s.spiClocked (r.length + 1)).lrpRequest .spi (b :: r) := by
  have first : byteAt (b :: r) 0 = b.toNat := rfl
  have none_ : b.toNat = 0 ↔ b = 0 := by rw [← BitVec.toNat_inj]; rfl
  have env : b.toNat = 6 ↔ b = 6 := by rw [← BitVec.toNat_inj]; rfl
  unfold State.spi
  simp only [hu, en, first, none_, env]
  rfl

/-- Settles O22: a request of valid OP goes the way of its row, and then its check fails. -/
theorem lrpFaultsExecuteNothing : Obligations.LrpFaultsExecuteNothing := by
  intro via q s hu
  refine ⟨fun hv hq => ?invalid, fun c hv (hc : LrpRow via q c) whole hs => ?unsound, fun resp => rfl,
    fun b r en => ?spi, fun l off => ?off⟩
  case invalid =>
    refine congrArg Host.Outcome.next ((if_neg (by simp [hq])).trans ?_)
    rw [State.lrpRequest_invalid hu hv hq]
    rfl
  case unsound =>
    rw [hc.exec_eq, State.lrpRequest_unsound hu hv hc.valid whole hs]
    rfl
  case spi =>
    have run : exec (.spiTransaction (b :: r)) s = .next _ := congrArg Host.Outcome.next (State.spi_enabled hu en b r)
    rw [run]
    refine ⟨fun h => congrArg _ (if_pos h), fun h => ?_, fun h0 h6 => congrArg _ ((if_neg h0).trans (if_neg h6))⟩
    exact congrArg _ ((if_neg (by simp [h])).trans (if_pos h))
  case off =>
    refine congrArg Host.Outcome.next (if_pos ?_)
    rcases off with off | rfl
    · simp [off]
    · simp

/-! ### Envelopes (R265 to R267) -/

section envelope
variable {s : State} {port i : Nat} {x : Session} {e : List Byte} (hu : s.up_ = true)
include hu

theorem exec_sessionEnvelope_unknown (unknown : s.sessOf port (leNat (slice e 0 2)) = none) :
    exec (.sessionEnvelope port e) s = .next s.authFail := by
  change Host.Outcome.next (s.envelope port _ e) = _
  unfold State.envelope
  simp [hu, unknown]

/-- An envelope of a session, by its length, its authentication and its CTR. -/
theorem exec_sessionEnvelope_known (known : s.sessOf port (leNat (slice e 0 2)) = some (i, x)) :
    exec (.sessionEnvelope port e) s = .next (
      if e.length < 26 then s.authFail
      else match Config.gcmOpen x.key (x.saltIn ++ slice e 2 8) (slice e 0 10) (slice e 10 (e.length - 26))
          (e.drop (e.length - 16)) with
        | none => s.authFail
        | some q =>
          if leNat (slice e 2 8) ≤ x.ctrIn then s.bump hostCnt 16 8
          else
            let t := s.setSess i { x with ctrIn := leNat (slice e 2 8), lastAt := s.tick, isOpen := true }
            let done := (if x.isOpen then t else t.raise pgHost 1).lrpRequest (.session i) q
            if leNat (slice e 2 8) = 2 ^ 64 - 1 then done.sessEnd i else done) := by
  have peer : ((s.sessOf port (leNat (slice e 0 2))).map (fun y => y.2.peer)).getD [] = x.peer := by rw [known]; rfl
  change Host.Outcome.next (s.envelope port _ e) = _
  rw [peer]
  unfold State.envelope
  simp only [hu, known]
  rfl

end envelope

/-- Settles O23: the checks of an envelope in their order. That AUTH_FAIL comes with every count of HOST_CNT.AUTH is the
model's choice (log entry 41). -/
theorem envelopesAreAuthenticated : Obligations.EnvelopesAreAuthenticated := by
  intro port e s hu counted
  refine ⟨exec_sessionEnvelope_unknown hu, fun i x known => ?_⟩
  intro ctr opened
  have run := exec_sessionEnvelope_known hu known
  refine ⟨fun bad => ?drops, fun q long sound old => ?replays, fun q long sound new => ?accepts⟩
  case drops =>
    rw [run]
    rcases bad with short | unsound
    · rw [if_pos short]
      rfl
    · simp only [opened] at unsound
      simp only [unsound, ite_self]
      rfl
  case replays =>
    simp only [opened] at sound
    rw [run, if_neg (Nat.not_lt.2 long)]
    simp only [sound]
    rw [if_pos old]
  case accepts =>
    simp only [opened] at sound
    rw [run, if_neg (Nat.not_lt.2 long)]
    simp only [sound]
    rw [if_neg (Nat.not_le.2 new)]

/-! ### Sessions end (R266, R267, R269) -/

theorem State.sessEnd_some {s : State} {i : Nat} {x : Session} (h : s.sess i = some x) : s.sessEnd i =
    ({ s with host := { s.host with
      sessions := s.host.sessions.set i none
      sealBy := if s.host.sealBy = some i then none else s.host.sealBy } } : State).raise pgHost 2 := by
  change nth s.host.sessions i none = some x at h
  unfold State.sessEnd
  rw [h]

/-- An accepted write to HOST_CMD. -/
theorem State.command_hostCmd {s : State} {src : Src} {v : Word} (hu : s.up_ = true) (hj : s.judge src hostCmd v = none) :
    s.command src hostCmd v =
      let s1 := if Word.bit v 0 then s.wr hostCnt 0 else s
      let s2 := if Word.bit v 1 then s1.sealOpen src else s1
      if Word.bit v 2 then s2.closeOthers src else s2 := by
  obtain ⟨r, hr⟩ : ∃ r, regAt hostCmd = some r := ⟨_, rfl⟩
  exact State.command_page hu hj (by decide) rfl hr

section timeouts
variable {s : State} {i : Nat}

theorem exec_sessionPendingTimeout {x : Session} (used : s.sess i = some x) : exec (.sessionPendingTimeout i) s =
    .next (if x.isOpen = false ∧ x.lastAt + 16000 ≤ s.tick then s.sessEnd i else s) := by
  change execSessionPendingTimeout i s = _
  simp only [execSessionPendingTimeout, used, Bool.not_eq_true']

theorem exec_sessionTimeout {x : Session} (used : s.sess i = some x) : exec (.sessionTimeout i) s =
    .next (if x.isOpen = true ∧ x.lastAt + msTicks (s.rn hostSessToMs) ≤ s.tick then s.sessEnd i else s) := by
  change execSessionTimeout i s = _
  simp only [execSessionTimeout, used]

theorem exec_session_timeouts_free (free : s.sess i = none) :
    exec (.sessionPendingTimeout i) s = .next s ∧ exec (.sessionTimeout i) s = .next s := by
  change execSessionPendingTimeout i s = _ ∧ execSessionTimeout i s = _
  simp only [execSessionPendingTimeout, execSessionTimeout, free, and_self]

end timeouts

/-- Settles O24: a session's end is one operation, whatever ends it. -/
theorem sessionsEnd : Obligations.SessionsEnd := by
  intro s hu
  refine ⟨fun i free => exec_session_timeouts_free free, fun i x used => ?times, fun src hj => ?opens,
    fun src hj => congrArg Host.Outcome.next (State.command_hostCmd hu hj)⟩
  case times =>
    intro ended pendingOver openOver
    rw [exec_sessionPendingTimeout used, exec_sessionTimeout used, State.sessEnd_some used]
    exact ⟨fun h => congrArg _ (if_pos h), fun h => congrArg _ (if_neg h), fun h => congrArg _ (if_pos h),
      fun h => congrArg _ (if_neg h)⟩
  case opens =>
    have run : exec (.hostSealOpen src) s = .next (s.sealOpen src) :=
      congrArg Host.Outcome.next (State.command_hostCmd hu hj)
    rw [run]
    exact ⟨fun field => congrArg _ (if_pos field), fun other => congrArg _ (if_neg other)⟩

/-! ### Ethernet ports (R270, R273) -/

/-- A port that is enabled and runs, outside the fallback clock, takes frames. -/
def State.ethTakes (s : State) (n : Nat) : Prop :=
  s.rb (ethCfg (n + 0x18)) 0 = true ∧ s.gated (n + 0x18) = false ∧ s.clk.fallback = false

theorem State.ethTakes_iff {s : State} {n : Nat} (hu : s.up_ = true) : s.ethTakes n ↔
    (!s.up_ || !s.rb (ethCfg (n + 0x18)) 0 || s.gated (n + 0x18) || s.clk.fallback) = false := by
  simp [State.ethTakes, hu, and_assoc]

theorem exec_ethFrameRx_unused {s : State} {n : Nat} (hu : s.up_ = true) (unused : ¬ s.ethTakes n) (ok : Bool)
    (f : List Byte) : exec (.ethFrameRx n ok f) s = .next s := by
  have shut := (State.ethTakes_iff hu).not.1 unused
  refine congrArg Host.Outcome.next ?_
  split
  · exact if_pos ((Bool.not_eq_false _).mp shut)
  · rfl

section ethFrame
variable {s : State} {n : Nat} (hu : s.up_ = true) (hn : n < 3) (takes : s.ethTakes n)
include hu hn takes

theorem exec_ethFrameRx_crc (f : List Byte) :
    exec (.ethFrameRx n false f) s = .next (s.bump (ethCntErr (n + 0x18)) 0 8) :=
  congrArg Host.Outcome.next ((if_pos hn).trans ((if_neg (by simp [(State.ethTakes_iff hu).1 takes])).trans rfl))

/-- A frame with a good FCS is counted, and then taken, or buffered while M7's budget is used up. -/
theorem exec_ethFrameRx_sound (f : List Byte) : exec (.ethFrameRx n true f) s = .next (
    let t := s.bump (ethCntFrm (n + 0x18)) 0 16
    if s.host.netOut then
      (if 16 ≤ (s.host.ethBuf.filter (fun e => e.1 == n)).length then t.bump (ethCntErr (n + 0x18)) 8 8
       else { t with host := { s.host with ethBuf := s.host.ethBuf ++ [(n, f)] } })
    else t.ethTake n f) :=
  congrArg Host.Outcome.next ((if_pos hn).trans ((if_neg (by simp [(State.ethTakes_iff hu).1 takes])).trans rfl))

end ethFrame

section ethTake
variable {s : State} {n : Nat} {f : List Byte}

theorem State.ethTake_unknown (h : f.length < 64 ∨ 1518 < f.length ∨ s.rn (ethIp (n + 0x18)) = 0) :
    s.ethTake n f = s.bump (ethCntErr (n + 0x18)) 16 8 := if_pos h

variable (shortest : 64 ≤ f.length) (longest : f.length ≤ 1518) (addressed : s.rn (ethIp (n + 0x18)) ≠ 0)
include shortest longest addressed

theorem State.ethTake_arp (typ : beNat (slice f 12 2) = 0x0806)
    (here : (slice f 0 6 == macOf n) = true ∨ ((slice f 0 6).all (fun b => b == 0xFF)) = true)
    (request : beNat (slice f 14 8) = 0x0001080006040001) (asked : beNat (slice f 38 4) = s.rn (ethIp (n + 0x18))) :
    s.ethTake n f = s.ethSend n 0 (slice f 6 6 ++ slice f 28 4) [] :=
  (if_neg (by omega)).trans (if_pos ⟨typ, by simpa using here, request, asked⟩)

variable (typ : beNat (slice f 12 2) = 0x0800) (mine : (slice f 0 6 == macOf n) = true) (plain : byteAt f 14 = 0x45)
  (whole : beNat (slice f 20 2) % 16384 = 0) (asked : beNat (slice f 30 4) = s.rn (ethIp (n + 0x18)))
include typ mine plain whole asked

/-- An IPv4 packet for the port's own address, whole and without options (R270). -/
theorem State.ethTake_ip : s.ethTake n f =
    if byteAt f 23 = 1 ∧ beNat (slice f 34 2) = 0x0800 ∧ s.rb (ethCfg (n + 0x18)) 1 then
      s.ethSend n 1 (slice f 6 6 ++ slice f 26 4) (slice f 38 (beNat (slice f 16 2) - 24))
    else if byteAt f 23 = 17 ∧ beNat (slice f 36 2) = 49731 then
      s.datagram n (slice f 6 6 ++ slice f 26 4 ++ slice f 34 2) (slice f 42 (beNat (slice f 38 2) - 8))
    else s.ethUnknown n :=
  (if_neg (by omega)).trans ((if_neg (by omega)).trans (if_pos ⟨typ, mine, plain, whole, asked⟩))

end ethTake

/-- Settles O25: a frame meets the checks of the port in their order. That no IPv4, ICMP or UDP checksum is checked, and
that a frame to a port without an address counts as UNKNOWN, is the model's choice (log entry 43). -/
theorem ethernetPortsTakeFrames : Obligations.EthernetPortsTakeFrames := by
  intro n s hn hu took inUse ip
  have sound := fun (takes : inUse) f => exec_ethFrameRx_sound hu hn takes f
  refine ⟨fun ok f unused => exec_ethFrameRx_unused hu unused ok f, fun f takes => exec_ethFrameRx_crc hu hn takes f,
    fun f takes out room => ?waits, fun f takes out full => ?overflows, fun f takes within => ?taken,
    fun up amp sqi => ?link, ?far, ?farEnds⟩
  case waits =>
    rw [sound takes]
    simp only [out]
    exact congrArg _ (if_neg (Nat.not_le.2 room))
  case overflows =>
    rw [sound takes]
    simp only [out]
    exact congrArg _ (if_pos full)
  case taken =>
    intro typ src mine all forMe
    have run : exec (.ethFrameRx n true f) s = .next (took.ethTake n f) := by
      rw [sound takes]
      simp only [within]
      rfl
    rw [run]
    refine ⟨fun h => congrArg _ (State.ethTake_unknown h), fun shortest longest addressed => ⟨?_, ?_, ?_⟩⟩
    · exact fun arp here request asked => congrArg _ (State.ethTake_arp shortest longest addressed arp here request asked)
    · rintro ⟨ipv4, own, plain, whole, asked⟩ icmp echo ping
      rw [State.ethTake_ip shortest longest addressed ipv4 own plain whole asked]
      exact congrArg _ (if_pos ⟨icmp, echo, ping⟩)
    · rintro ⟨ipv4, own, plain, whole, asked⟩ udp port
      rw [State.ethTake_ip shortest longest addressed ipv4 own plain whole asked]
      exact congrArg _ ((if_neg (by omega)).trans (if_pos ⟨udp, port⟩))
  case link => exact congrArg Host.Outcome.next (if_pos ⟨hu, hn⟩)
  case far => exact congrArg Host.Outcome.next (if_neg (by simp [hu]))
  case farEnds => exact congrArg Host.Outcome.next (if_neg (by simp [hu]))

/-! ### Counters and budgets (R273, R278 to R280) -/

/-- An accepted write to ETHn_CMD. -/
theorem State.command_ethCmd {s : State} {src : Src} {n : Nat} {v : Word} (hu : s.up_ = true) (hn : n < 3)
    (hj : s.judge src (ethCmd (n + 0x18)) v = none) : s.command src (ethCmd (n + 0x18)) v =
      let t := if Word.bit v 0 then s.ethCntClr n else s
      if Word.bit v 1 then t.ethReneg n else t := by
  obtain ⟨r, hr⟩ : ∃ r, regAt (ethCmd (n + 0x18)) = some r := by
    interval_cases n <;> exact ⟨_, rfl⟩
  rw [State.command_page hu hj (by interval_cases n <;> decide) (by interval_cases n <;> rfl) hr]
  interval_cases n <;> rfl

/-- An accepted write to XBAR_CMD. -/
theorem State.command_xbarCmd {s : State} {src : Src} {v : Word} (hu : s.up_ = true) (hj : s.judge src xbarCmd v = none) :
    s.command src xbarCmd v =
      let t := if Word.bit v 0 then s.clrPeak else s
      if Word.bit v 1 then t.clrFlt else t := by
  obtain ⟨r, hr⟩ : ∃ r, regAt xbarCmd = some r := ⟨_, rfl⟩
  exact State.command_page hu hj (by decide) rfl hr

/-- A master of the block uses up its budget. -/
theorem exec_budgetExhausted {s : State} {m : Nat} (hu : s.up_ = true) (hm : m < 12) :
    exec (.budgetExhausted m) s = .next (s.exhausted m) := congrArg Host.Outcome.next (if_pos ⟨hu, hm⟩)

/-- Settles O26. That a renegotiated link shows as down until its next change (log entry 45), and what exhaustion does for
each master beside its bit (log entry 50), are the model's choices. -/
theorem hostCountersAndBudgets : Obligations.HostCountersAndBudgets := by
  intro s hu
  refine ⟨fun src hj => ?host, fun src n hn hj => ?eth, fun src n hn hj => ?reneg, fun src hj => ?peak, fun src hj => ?flt,
    ?budgets⟩
  case host => exact congrArg Host.Outcome.next (State.command_hostCmd hu hj)
  case eth => exact congrArg Host.Outcome.next ((if_pos hn).trans (State.command_ethCmd hu hn hj))
  case reneg =>
    have hn : n < 3 := by omega
    have run : exec (.ethReneg src n) s = .next (s.ethReneg n) :=
      congrArg Host.Outcome.next ((if_pos hn).trans (State.command_ethCmd hu hn hj))
    have down : exec (.ethLinkChange n false false 0) s = .next (s.ethReneg n) := by
      refine congrArg Host.Outcome.next ((if_pos ⟨hu, hn⟩).trans ?_)
      simp [State.ethReneg]
    exact ⟨run.trans down.symm, _, run⟩
  case peak => exact congrArg Host.Outcome.next (State.command_xbarCmd hu hj)
  case flt => exact congrArg Host.Outcome.next (State.command_xbarCmd hu hj)
  case budgets =>
    have run := fun (m : Nat) (hm : m < 12) => exec_budgetExhausted hu hm
    refine ⟨fun m hm => ?_, run 6 (by decide), run 7 (by decide), run 8 (by decide), run 9 (by decide), run 10 (by decide),
      run 11 (by decide), fun m hm => congrArg Host.Outcome.next (if_neg fun h => absurd h.2 (Nat.not_lt.2 hm))⟩
    rw [run m (by omega)]
    interval_cases m <;> rfl

end Sys2Proof.Machine

/-! PROOF. What the CAN controllers do with frames, attempts, errors and commands (chapter 12): O50. -/

namespace Sys2Proof.Machine

/-! ### Accepted writes to a CAN page -/

/-- Bit 1 of a word once it is written. -/
theorem Word.bit_one_setBits (w : Word) (v : Nat) : Word.bit (Word.setBits w 1 1 v) 1 = decide (v % 2 = 1) := by
  have wide : w.toNat < 2 ^ 32 := w.isLt
  simp only [Word.bit, Word.setBits, Word.bits, BitVec.toNat_ofNat, Nat.testBit_eq_decide_div_mod_eq,
    Nat.shiftRight_eq_div_pow, Nat.shiftLeft_eq, decide_eq_decide]
  omega

section canWrites
variable {s : State} {src : Src} {n : Nat} {v : Word} (hu : s.up_ = true) (hn : n < 4)
include hu hn

/-- A write to a register of a CAN page, beyond the header, acts by its offset. -/
theorem State.command_can {o : Nat} {r : RegSpec} (ho : o < 4096) (body : s.applyHead (canPage n) o v = none)
    (hr : regAt (canPage n * 4096 + o) = some r) (hj : s.judge src (canPage n * 4096 + o) v = none) :
    s.command src (canPage n * 4096 + o) v = s.applyCan n o r v := by
  obtain ⟨low, page, offset⟩ := pageAddr_parts (pg := canPage n) (o := o) (by unfold canPage; omega) ho
  rw [State.command_page hu hj low (by rw [page, offset]; exact body) hr, page, offset]
  interval_cases n <;> rfl

theorem State.command_canTxReq (hj : s.judge src (canTxReq (canPage n)) v = none) :
    s.command src (canTxReq (canPage n)) v = s.canRequestMask n v := by
  obtain ⟨r, hr⟩ : ∃ r, regAt (canTxReq (canPage n)) = some r := by interval_cases n <;> exact ⟨_, rfl⟩
  exact State.command_can hu hn (by decide) rfl hr hj

theorem State.command_canTxAbort (hj : s.judge src (canTxAbort (canPage n)) v = none) :
    s.command src (canTxAbort (canPage n)) v = s.canAbortMask n v := by
  obtain ⟨r, hr⟩ : ∃ r, regAt (canTxAbort (canPage n)) = some r := by interval_cases n <;> exact ⟨_, rfl⟩
  exact State.command_can hu hn (by decide) rfl hr hj

theorem State.command_canCtrl (hj : s.judge src (canCtrl (canPage n)) v = none) :
    s.command src (canCtrl (canPage n)) v = s.canSleepBit n (Word.bit v 1) := by
  obtain ⟨r, hr⟩ : ∃ r, regAt (canCtrl (canPage n)) = some r := by interval_cases n <;> exact ⟨_, rfl⟩
  exact State.command_can hu hn (by decide) rfl hr hj

theorem State.command_canCmd (hj : s.judge src (canCmd (canPage n)) v = none) :
    s.command src (canCmd (canPage n)) v = if Word.bit v 0 then s.canCntClr n else s := by
  obtain ⟨r, hr⟩ : ∃ r, regAt (canCmd (canPage n)) = some r := by interval_cases n <;> exact ⟨_, rfl⟩
  exact State.command_can hu hn (by decide) rfl hr hj

theorem exec_canSleep (hj : s.judge src (canCtrl (canPage n)) (Word.setBits (s.rd (canCtrl (canPage n))) 1 1 1) = none) :
    exec (.canSleep src n) s = .next (s.canSleepNow n) := by
  refine congrArg Host.Outcome.next ((if_pos hn).trans ((State.command_canCtrl hu hn hj).trans ?_))
  simp [State.canSleepBit, Word.bit_one_setBits]

theorem exec_canLocalWake
    (hj : s.judge src (canCtrl (canPage n)) (Word.setBits (s.rd (canCtrl (canPage n))) 1 1 0) = none) :
    exec (.canLocalWake src n) s = .next (s.canWakeNow n 4) := by
  refine congrArg Host.Outcome.next ((if_pos hn).trans ((State.command_canCtrl hu hn hj).trans ?_))
  simp [State.canSleepBit, Word.bit_one_setBits]

end canWrites

/-! ### Frames (R235, R236) -/

section frames
variable {s : State} {n : Nat} {f : CanFrame}

/-- What a valid frame leaves of the controller's error counters (R242, R243). -/
def State.canHeard (s : State) (n : Nat) (f : CanFrame) : State :=
  (s.setCan n { s.cann n with
    recE := if 127 < (s.cann n).recE then 119 else (s.cann n).recE - 1, alone := false
    ackRun := if (s.cann n).alone then 0 else (s.cann n).ackRun, lastVp := some f.vp }).canErrState n

section receive
variable (runs : s.canRuns n = true)
include runs

theorem State.canReceive_remote (remote : f.remote = true) :
    s.canReceive n f = (s.canHeard n f).bump (canCntErr (canPage n)) 24 8 :=
  (if_neg (by simp [runs])).trans (if_pos remote)

variable (data : f.remote = false)
include data

/-- A data frame is stored in the lowest object bound to its identifier. -/
theorem State.canReceive_bound {i : Nat}
    (bound : (List.range 128).find? (fun i => (s.canHeard n f).rxBound n i == some f.key) = some i) :
    s.canReceive n f = (s.canHeard n f).canStore n i f := by
  refine (if_neg (by simp [runs])).trans ((if_neg (by simp [data])).trans ?_)
  simp only [State.canHeard] at bound ⊢
  rw [bound]

theorem State.canReceive_unmatched
    (unmatched : (List.range 128).find? (fun i => (s.canHeard n f).rxBound n i == some f.key) = none) :
    s.canReceive n f = (s.canHeard n f).bump (canCntErr (canPage n)) 8 8 := by
  refine (if_neg (by simp [runs])).trans ((if_neg (by simp [data])).trans ?_)
  simp only [State.canHeard] at unmatched ⊢
  rw [unmatched]

end receive

theorem exec_canFrameRx_runs (hu : s.up_ = true) (hn : n < 4) (runs : s.canRuns n = true) :
    exec (.canFrameRx n f) s = .next ((s.canReceive n f).engineFrame n f) :=
  congrArg Host.Outcome.next ((if_pos hn).trans (State.canIncoming_runs hu runs))

theorem exec_canFrameRx_stopped (hn : n < 4) (stopped : s.canRuns n = false) :
    exec (.canFrameRx n f) s = .next s :=
  congrArg Host.Outcome.next ((if_pos hn).trans (State.canIncoming_stopped stopped))

end frames

/-! ### Requests and attempts (R237 to R239) -/

section objects
variable {s : State} {n j : Nat}

theorem State.canRequest_idle (idle : (s.txo n j).res ≠ .pending) :
    let asked := s.setTxo n j { s.txo n j with
      res := .pending, aborted := false, attempts := 0, reqUs := s.us, reqLate := s.us + 62 }
    s.canRequest n j = if s.authority then asked else asked.canAbort n j := if_neg idle

theorem State.canRequest_pending (pending : (s.txo n j).res = .pending) : s.canRequest n j = s := if_pos pending

theorem State.canAbort_pending (pending : (s.txo n j).res = .pending) : s.canAbort n j =
    s.txResult n j false { s.txo n j with res := .failed, aborted := true, abortUs := s.us } := if_pos pending

theorem State.canAbort_idle (idle : (s.txo n j).res ≠ .pending) : s.canAbort n j = s := if_neg idle

/-- An attempt may end so: of the object that its controller offered at the start of that frame (R238). -/
def State.attempts (s : State) (n j : Nat) (out : AttemptEnd) (m : Nat) : Prop :=
  j ≤ 32 ∧ s.attemptMay n out = true ∧ s.txOffered n j m = true

/-- A pending object that was surely in time and ranks before bars an object from being offered (R238). -/
theorem State.txOffered_false {i m : Nat} {x : TxObj} (held : (i, x) ∈ (s.cann n).tx) (pending : x.res = .pending)
    (late : x.reqLate ≤ s.txLimit n m) (before : s.txRank n i < s.txRank n j) : s.txOffered n j m = false := by
  have barred : (s.cann n).tx.all (fun y => !(y.2.res == .pending && decide (y.2.reqLate ≤ s.txLimit n m) &&
      decide (s.txRank n y.1 < s.txRank n j))) = false :=
    List.all_eq_false.2 ⟨(i, x), held, by simp [pending, late, before]⟩
  simp only [State.txOffered, barred, Bool.and_false]

/-- An offered object is pending, or was aborted after its frame began. -/
theorem State.txOffered_open {m : Nat} (offered : s.txOffered n j m = true) : (s.txo n j).res = .pending ∨
    ((s.txo n j).aborted = true ∧ (s.txo n j).res = .failed ∧ m ≤ (s.txo n j).abortUs) := by
  simp only [State.txOffered, Bool.and_eq_true, Bool.or_eq_true, beq_iff_eq, decide_eq_true_eq, and_assoc] at offered
  exact offered.1

/-- A success completes the object and lowers TEC (R239, R242). -/
def State.attemptDone (s : State) (n j m : Nat) : State :=
  (((s.setCan n { s.cann n with
    tec := (s.cann n).tec - 1, ackRun := 0, alone := false, lastVp := some (max m s.us) }).canErrState n).bump
      (canCntFrm (canPage n)) 16 16).txResult n j true { s.txo n j with res := .done, aborted := false, sof := m }

theorem State.canAttempt_success {m : Nat} (offered : s.txOffered n j m = true) :
    s.canAttempt n j .success m = s.attemptDone n j m := if_pos (State.txOffered_open offered)

/-- An error counts an attempt, and the one that reaches SHOTS fails the object (R239). -/
theorem State.canFailed_eq : s.canFailed n j =
    let o := s.txo n j
    let a := min (o.attempts + 1) 255
    let shots := s.rf_ (txoAddr n j + 4) 8 8
    if o.res ≠ .pending then s
    else if shots ≠ 0 ∧ shots ≤ a then s.txResult n j false { o with res := .failed, attempts := a }
    else s.setTxo n j { o with attempts := a } := by
  simp only [State.canFailed, ne_eq, ite_not]

theorem State.canAttempt_error {m : Nat} {out : AttemptEnd} (errs : out ≠ .success ∧ out ≠ .lostArbitration) :
    s.canAttempt n j out m = s.canFailed n j := by
  cases out
  case success => exact absurd rfl errs.1
  case lostArbitration => exact absurd rfl errs.2
  case error => rfl
  case errorAfterVp => rfl

/-- An object of Bellmetal's, while its engine runs (Table 12.4). -/
theorem State.bidObject_iff : (s.bidObject n j = true ∧ s.live = true) ↔
    (n = 2 ∧ s.rb bidCfg 6 = true ∧ (j = 31 ∨ j = 32) ∧ s.live = true) := by
  simp [State.bidObject, and_assoc]

section attempt
variable {out : AttemptEnd} {m : Nat} (hu : s.up_ = true) (hn : n < 4)

theorem exec_canTxAttemptEnd_not (unoffered : ¬ s.attempts n j out m) :
    exec (.canTxAttemptEnd n j out m) s = .next s :=
  congrArg Host.Outcome.next (if_neg fun h => unoffered h.2.2)

include hu hn

theorem exec_canTxAttemptEnd (may : s.attempts n j out m) :
    exec (.canTxAttemptEnd n j out m) s = .next (s.attemptEnd n j out m) :=
  congrArg Host.Outcome.next (if_pos ⟨hu, hn, may⟩)

end attempt

/-- What the end of an attempt of another object does. -/
theorem State.attemptEnd_host {out : AttemptEnd} {m : Nat} (host : ¬ (s.bidObject n j = true ∧ s.live = true)) :
    s.attemptEnd n j out m = s.canAttempt n j out m := if_neg host

section bellmetal
variable {m lec : Nat} (bell : s.bidObject n j = true ∧ s.live = true)
include bell

theorem State.attemptEnd_bid_success (offered : s.txOffered n j m = true)
    (done : ((s.attemptDone n j m).txo n j).res = .done) (unfinished : (s.txo n j).res ≠ .done) :
    s.attemptEnd n j .success m = (s.attemptDone n j m).bidSent j m := by
  refine (if_pos bell).trans ?_
  simp only [State.canAttempt_success offered]
  exact if_pos ⟨done, unfinished⟩

theorem State.attemptEnd_bid_error : s.attemptEnd n j (.error lec) m = s.canFailed n j := if_pos bell

theorem State.attemptEnd_bid_valid (pending : (s.txo n j).res = .pending) :
    s.attemptEnd n j (.errorAfterVp lec) m = ((s.canFailed n j).canAbort n j).bidSent j m :=
  (if_pos bell).trans (if_pos pending)

end bellmetal

end objects

/-! ### Errors and bus-off (R242, R243) -/

theorem exec_canError {s : State} {n lec inc : Nat} {tx : Bool} (hu : s.up_ = true) (hn : n < 4)
    (may : s.canRuns n = true ∧ 1 ≤ lec ∧ lec ≤ 6) :
    exec (.canError n lec tx inc) s = .next (s.canErrorNow n lec tx inc) :=
  congrArg Host.Outcome.next (if_pos ⟨hu, hn, may.2.1, may.2.2, may.1⟩)

theorem exec_canError_not {s : State} {n lec inc : Nat} {tx : Bool} (h : ¬ (s.canRuns n = true ∧ 1 ≤ lec ∧ lec ≤ 6)) :
    exec (.canError n lec tx inc) s = .next s :=
  congrArg Host.Outcome.next (if_neg fun k => h ⟨k.2.2.2.2, k.2.2.1, k.2.2.2.1⟩)

theorem State.canErrorNow_transmitting {s : State} {n lec inc : Nat} (other : lec ≠ 3) : s.canErrorNow n lec true inc =
    (s.setCan n { s.cann n with
      lec := lec, tec := min ((s.cann n).tec + inc) 256, ackRun := 0 }).canErrState n := by
  simp [State.canErrorNow, other]

theorem State.canErrorNow_ack {s : State} {n inc : Nat} : s.canErrorNow n 3 true inc =
    (s.setCan n { s.cann n with
      lec := 3, tec := if (s.cann n).st = .errorPassive then (s.cann n).tec else min ((s.cann n).tec + inc) 256
      ackRun := min ((s.cann n).ackRun + 1) 63 }).canErrState n := by
  simp [State.canErrorNow]

theorem State.busOffNow_can (s : State) (n : Nat) : (s.busOffNow n).can = (s.canInto n .busOff).can := by
  simp [State.busOffNow]

/-! ### Wakes (R244, R364) -/

section wakes
variable {s : State} {n : Nat} {w : CanWake} {f : Option CanFrame}

theorem State.wakeCode_eq : s.wakeCode n w f =
    if s.rb (canCfg (canPage n)) 4 = false then none
    else if s.rb (canCfg (canPage n)) 3 = false then (if w = .pattern then some 1 else none)
    else if w = .frame ∧ f.any (fun g => s.wakeMatch n g) = true then some 2
    else if w = .frameErr then some 3 else none := by
  cases en : s.rb (canCfg (canPage n)) 4
  · simp [State.wakeCode, en]
  · cases frames : s.rb (canCfg (canPage n)) 3 <;> cases w <;> simp [State.wakeCode, en, frames]

theorem exec_canWake_none (unwoken : s.wakeCode n w f = none) : exec (.canWake n w f) s = .next s := by
  change execCanWake n w f s = _
  simp only [execCanWake, unwoken]

theorem exec_canWake_some {k : Nat} (hn : n < 4) (code : s.wakeCode n w f = some k) :
    exec (.canWake n w f) s = .next (s.canWoken n k) := by
  change execCanWake n w f s = _
  simp only [execCanWake, code, hn, if_true]

theorem State.canWoken_run {k : Nat} (run : s.sys.run = .run) : s.canWoken n k = s.canWakeNow n k := by
  simp [State.canWoken, run, State.up_]

theorem State.canWoken_park {k : Nat} (park : s.sys.run = .park) : s.canWoken n k =
    if (s.cann n).st = .sleep then (s.canWakeNow n k).parkEnd (.can (BitVec.ofNat 4 (2 ^ n))) else s := by
  simp [State.canWoken, park]

theorem State.canWakeNow_awake {k : Nat} (awake : (s.cann n).st ≠ .sleep) : s.canWakeNow n k = s := if_neg awake

theorem State.up_cases (hu : s.up_ = true) : s.sys.run = .run ∨ s.sys.run = .park := by
  simpa [State.up_] using hu

theorem exec_canWake_awake (hu : s.up_ = true) (hn : n < 4) (awake : (s.cann n).st ≠ .sleep) :
    exec (.canWake n w f) s = .next s := by
  cases code : s.wakeCode n w f with
  | none => exact exec_canWake_none code
  | some k =>
    rw [exec_canWake_some hn code]
    rcases State.up_cases hu with run | park
    · rw [State.canWoken_run run, State.canWakeNow_awake awake]
    · rw [State.canWoken_park park, if_neg awake]

end wakes

/-- Settles O50: each event by the lemma of its operation. The window of time of a request (log entry 206), its abort at once
without authority (150) and the limits of TEC and REC (153) are the model's choices. -/
theorem canControllers : Obligations.CanControllers := by
  intro s n hu hn c pg
  refine ⟨fun f => exec_canFrameRx_stopped hn, fun f runs => ?frame, fun f t => rfl, fun src v hj => ?request,
    fun src v hj => ?abort, fun t j => ?object, fun j m out => ?attempt, fun i j m out x held pending late before => ?barred,
    fun lec tx inc => ?error, fun runs past => ?busOff, fun h => ?busOffNot, fun off => ?recover, fun on => ?recoverNot,
    fun many other => ?alone, fun h => ?aloneNot, fun src => ?sleep, ?wake, fun integrates => ?integrate,
    fun done => ?integrateNot, fun src hj => ?clear⟩
  case frame =>
    intro u bound
    rw [exec_canFrameRx_runs hu hn runs]
    refine ⟨fun remote => ?_, fun i data found => ?_, fun data unmatched => ?_⟩
    · rw [State.canReceive_remote runs remote]
      rfl
    · rw [State.canReceive_bound runs data found]
      rfl
    · rw [State.canReceive_unmatched runs data unmatched]
      rfl
  case request => exact congrArg Host.Outcome.next ((if_pos hn).trans (State.command_canTxReq hu hn hj))
  case abort => exact congrArg Host.Outcome.next ((if_pos hn).trans (State.command_canTxAbort hu hn hj))
  case object =>
    intro o asked
    exact ⟨fun idle auth => (State.canRequest_idle idle).trans (if_pos auth),
      fun idle bare => (State.canRequest_idle idle).trans (if_neg (by simp [bare])), State.canRequest_pending,
      State.canAbort_pending, State.canAbort_idle⟩
  case attempt =>
    intro o may bell errs a shots done erred
    have run : may → exec (.canTxAttemptEnd n j out m) s = .next (s.attemptEnd n j out m) := exec_canTxAttemptEnd hu hn
    have failed : s.canFailed n j = erred := State.canFailed_eq
    refine ⟨exec_canTxAttemptEnd_not, fun h lost => ?_, fun h host success => ?_, fun h host err => ?_,
      fun h own success isDone notDone => ?_, fun lec h own err => ?_, fun lec h own err pending => ?_⟩
    all_goals rw [run h]
    · subst lost
      simp [State.attemptEnd, State.canAttempt]
    · subst success
      rw [State.attemptEnd_host (mt State.bidObject_iff.1 host), State.canAttempt_success h.2.2]
      rfl
    · rw [State.attemptEnd_host (mt State.bidObject_iff.1 host), State.canAttempt_error err, failed]
    · subst success
      exact congrArg _ (State.attemptEnd_bid_success (State.bidObject_iff.2 own) h.2.2 isDone notDone)
    · subst err
      rw [State.attemptEnd_bid_error (State.bidObject_iff.2 own), failed]
    · subst err
      rw [State.attemptEnd_bid_valid (State.bidObject_iff.2 own) pending, failed]
  case barred =>
    exact exec_canTxAttemptEnd_not fun may =>
      Bool.false_ne_true ((State.txOffered_false held pending late before).symm.trans may.2.2)
  case error =>
    intro may
    refine ⟨fun h receives => ?_, fun h sends other => ?_, fun h sends ack => ?_, exec_canError_not⟩
    all_goals rw [exec_canError hu hn h]
    · subst receives
      rfl
    · subst sends
      rw [State.canErrorNow_transmitting other]
    · subst sends ack
      rw [State.canErrorNow_ack]
  case busOff =>
    exact ⟨s.busOffNow n, congrArg Host.Outcome.next (if_pos ⟨hu, hn, runs, past⟩), s.busOffNow_can n,
      State.busOffNow_only rfl rfl rfl rfl (Only.refl _ _) _⟩
  case busOffNot =>
    refine congrArg Host.Outcome.next (if_neg ?_)
    rintro ⟨-, -, runs, past⟩
    rcases h with stopped | few
    · exact Bool.false_ne_true (stopped.symm.trans runs)
    · exact absurd past (Nat.not_le.2 few)
  case recover => exact congrArg Host.Outcome.next (if_pos ⟨hu, hn, off⟩)
  case recoverNot => exact congrArg Host.Outcome.next (if_neg fun h => on h.2.2)
  case alone => exact congrArg Host.Outcome.next (if_pos ⟨hu, hn, many, by simpa [c] using other⟩)
  case aloneNot =>
    refine congrArg Host.Outcome.next (if_neg ?_)
    rintro ⟨-, -, many, other⟩
    rcases h with few | alone
    · exact absurd many (Nat.not_le.2 few)
    · simp [c] at alone
      simp [alone] at other
  case sleep =>
    intro w hj
    rw [exec_canSleep hu hn hj]
    exact ⟨fun used awake => congrArg _ (if_neg (not_or.2 ⟨used, awake⟩)), fun h => congrArg _ (if_pos h)⟩
  case wake =>
    intro wakes cfg
    refine ⟨fun src hj => ?_, fun w f => ?_⟩
    · rw [exec_canLocalWake hu hn hj]
      exact ⟨fun sleeps => congrArg _ (if_pos sleeps), fun awake => congrArg _ (if_neg awake)⟩
    · intro code
      have same : s.wakeCode n w f = code := State.wakeCode_eq
      refine ⟨fun k wakesBy sleeps run => ?_, fun k wakesBy sleeps park => ?_, fun h => ?_⟩
      · rw [exec_canWake_some hn (same.trans wakesBy), State.canWoken_run run]
        exact congrArg _ (if_pos sleeps)
      · rw [exec_canWake_some hn (same.trans wakesBy), State.canWoken_park park, if_pos sleeps]
        exact congrArg (fun t => Host.Outcome.next (State.parkEnd t _)) (if_pos sleeps)
      · rcases h with unwoken | awake
        · exact exec_canWake_none (same.trans unwoken)
        · exact exec_canWake_awake hu hn awake
  case integrate => exact congrArg Host.Outcome.next (if_pos ⟨hu, hn, integrates⟩)
  case integrateNot => exact congrArg Host.Outcome.next (if_neg fun h => Bool.false_ne_true (done.symm.trans h.2.2))
  case clear => exact congrArg Host.Outcome.next ((if_pos hn).trans (State.command_canCmd hu hn hj))

end Sys2Proof.Machine

/-! PROOF. What the output commands, the protection, the diagnostics, the supply and the silence timer of the field channels
do (chapter 13): O52. -/

namespace Sys2Proof.Machine

/-! ### Accepted writes to a group's page (R251, R254, R255) -/

section groupWrites
variable {s : State} {src : Src} {g : Nat} {v : Word} (hu : s.up_ = true) (low : 1 ≤ g) (high : g ≤ 8)
include hu low high

/-- A write to a register of a group's page, beyond the header, acts by its offset. -/
theorem State.command_fiog {o : Nat} {r : RegSpec} (ho : o < 4096) (body : s.applyHead (grpPage g) o v = none)
    (hr : regAt (grpPage g * 4096 + o) = some r) (hj : s.judge src (grpPage g * 4096 + o) v = none) :
    s.command src (grpPage g * 4096 + o) v = s.applyFiog g o r v := by
  obtain ⟨below, page, offset⟩ := pageAddr_parts (pg := grpPage g) (o := o) (by unfold grpPage; omega) ho
  rw [State.command_page hu hj below (by rw [page, offset]; exact body) hr, page, offset]
  interval_cases g <;> rfl

theorem exec_fioOutSet (hj : s.judge src (fiogOutSet (grpPage g)) v = none) :
    exec (.fioOutSet src g v) s = .next (s.outWrite g v true) := by
  obtain ⟨r, hr⟩ : ∃ r, regAt (fiogOutSet (grpPage g)) = some r := by interval_cases g <;> exact ⟨_, rfl⟩
  exact congrArg Host.Outcome.next ((if_pos ⟨low, high⟩).trans (State.command_fiog hu low high (by decide) rfl hr hj))

theorem exec_fioOutClr (hj : s.judge src (fiogOutClr (grpPage g)) v = none) :
    exec (.fioOutClr src g v) s = .next (s.outWrite g v false) := by
  obtain ⟨r, hr⟩ : ∃ r, regAt (fiogOutClr (grpPage g)) = some r := by interval_cases g <;> exact ⟨_, rfl⟩
  exact congrArg Host.Outcome.next ((if_pos ⟨low, high⟩).trans (State.command_fiog hu low high (by decide) rfl hr hj))

theorem exec_fioTsdClr (hj : s.judge src (fiogTsdClr (grpPage g)) v = none) :
    exec (.fioTsdClr src g v) s = .next (s.tsdClear g v) := by
  obtain ⟨r, hr⟩ : ∃ r, regAt (fiogTsdClr (grpPage g)) = some r := by interval_cases g <;> exact ⟨_, rfl⟩
  exact congrArg Host.Outcome.next ((if_pos ⟨low, high⟩).trans (State.command_fiog hu low high (by decide) rfl hr hj))

theorem exec_fioGrpClr (hj : s.judge src (fiogCmd (grpPage g)) 1 = none) :
    exec (.fioGrpClr src g) s = .next (s.grpClr g) := by
  obtain ⟨r, hr⟩ : ∃ r, regAt (fiogCmd (grpPage g)) = some r := by interval_cases g <;> exact ⟨_, rfl⟩
  exact congrArg Host.Outcome.next ((if_pos ⟨low, high⟩).trans (State.command_fiog hu low high (by decide) rfl hr hj))

end groupWrites

/-- A channel's configuration register lies beyond the registers of its page that act. -/
theorem State.applyFiog_chCfg (s : State) {g i : Nat} (hi : i < 32) (r : RegSpec) (v : Word) :
    s.applyFiog g (0x100 + 4 * i) r v = s.chCfgApply g i (v &&& r.keepMask) := by
  unfold State.applyFiog
  split
  case h_6 => rw [if_pos (by omega), show (0x100 + 4 * i - 0x100) / 4 = i by omega]
  all_goals omega

theorem State.applyHead_chCfg (s : State) (pg : Nat) {o : Nat} (ho : 0x100 ≤ o) (v : Word) :
    s.applyHead pg o v = none := by
  unfold State.applyHead
  split
  case h_5 => rfl
  all_goals omega

theorem exec_fioChannelCfg {s : State} {src : Src} {c : Nat} {v : Word} {r : RegSpec} (hu : s.up_ = true) (hc : c < 256)
    (hj : s.judge src (fiogChCfg (grpPage (chGroup c)) + 4 * (c % 32)) v = none)
    (hr : regAt (fiogChCfg (grpPage (chGroup c)) + 4 * (c % 32)) = some r) :
    exec (.fioChannelCfg src c v) s = .next (s.chCfgApply (chGroup c) (c % 32) (v &&& r.keepMask)) := by
  have place : fiogChCfg (grpPage (chGroup c)) + 4 * (c % 32) = grpPage (chGroup c) * 4096 + (0x100 + 4 * (c % 32)) := by
    unfold fiogChCfg; omega
  rw [place] at hj hr
  refine congrArg Host.Outcome.next ((if_pos hc).trans ?_)
  rw [place, State.command_fiog hu (by unfold chGroup; omega) (by unfold chGroup; omega) (by omega)
    (s.applyHead_chCfg _ (by omega) v) hr hj, State.applyFiog_chCfg s (by omega)]

/-- What the configuration of a channel does to its group (R251, R255). -/
theorem State.chCfgApply_eq (s : State) (g i : Nat) (w : Word) : s.chCfgApply g i w =
    let f := s.grp g
    let clr (x : Word) : Word := if Word.bits w 0 2 ≠ 2 then Word.setBits x i 1 0 else x
    (s.wr (fiogChCfg (grpPage g) + 4 * i) w).setGrp g { f with
      out := if s.chField g i 0 2 = 2 then clr f.out else f.out
      renew := if s.chField g i 0 2 ≠ 1 ∧ Word.bits w 0 2 = 1 then Word.setBits f.renew i 1 1 else f.renew
      filt := if Word.bits w 0 2 ≠ 1 then Word.setBits f.filt i 1 0 else f.filt
      tsd := clr f.tsd, dOpen := clr f.dOpen, dSvf := clr f.dSvf, dClim := clr f.dClim, dOvl := clr f.dOvl } := by
  simp [State.chCfgApply, ite_and]

/-! ### Protection and diagnostics (R251, R252) -/

section channel
variable {s : State} {c : Nat} (hu : s.up_ = true) (hc : c < 256)

section protection
include hu hc

theorem exec_fioTsd : exec (.fioTsd c) s = .next (s.tsdSet c) := congrArg Host.Outcome.next (if_pos ⟨hu, hc⟩)

theorem exec_fioTsdRecover (hot : Word.bit (s.grp (chGroup c)).tsdHot (c % 32) = true) :
    exec (.fioTsdRecover c) s = .next (s.tsdCool c) := congrArg Host.Outcome.next (if_pos ⟨hu, hc, hot⟩)

theorem exec_fioDiagChange (k : Diag) (p : Bool) : exec (.fioDiagChange c k p) s = .next (s.diagSet c k p) :=
  congrArg Host.Outcome.next (if_pos ⟨hu, hc⟩)

end protection

theorem State.tsdSet_output (output : s.chField (chGroup c) (c % 32) 0 2 = 2) : s.tsdSet c =
    ((s.setGrp (chGroup c) { s.grp (chGroup c) with
      tsd := Word.setBits (s.grp (chGroup c)).tsd (c % 32) 1 1
      tsdHot := Word.setBits (s.grp (chGroup c)).tsdHot (c % 32) 1 1 }).raise (grpPage (chGroup c)) 5).fire 0xC
        (pack [(0, 8, c)]) := if_pos (by simp [output])

theorem State.tsdSet_other (other : s.chField (chGroup c) (c % 32) 0 2 ≠ 2) : s.tsdSet c = s := if_neg (by simp [other])

variable {k : Diag}

theorem State.diagSet_output {p : Bool} (output : s.chField (chGroup c) (c % 32) 0 2 = 2)
    (shown : p = true → s.diagSuspended (chGroup c) (c % 32) k = false) : s.diagSet c k p =
      let t := s.setGrp (chGroup c) ((s.grp (chGroup c)).setDiag k (c % 32) p)
      if p = true ∧ (s.grp (chGroup c)).diag k (c % 32) = false then t.raise (grpPage (chGroup c)) (diagIrq k) else t := by
  have acts : (s.chField (chGroup c) (c % 32) 0 2 != 2 || (p && s.diagSuspended (chGroup c) (c % 32) k)) = false := by
    cases p
    · simp [output]
    · simp [output, shown rfl]
  simp [State.diagSet, acts]

theorem State.diagSet_suspended (suspended : s.diagSuspended (chGroup c) (c % 32) k = true) : s.diagSet c k true = s :=
  if_pos (by simp [suspended])

theorem State.diagSet_other (other : s.chField (chGroup c) (c % 32) 0 2 ≠ 2) (p : Bool) : s.diagSet c k p = s :=
  if_pos (by simp [other])

end channel

/-! ### The silence timer (R257) -/

theorem exec_silenceTimeout {s : State} {d : Nat} (running : s.sil.deadline = some d) : exec .silenceTimeout s =
    .next (if s.up_ = true ∧ s.sil.silent = false ∧ d < s.us then s.silExpire else s) := by
  change execSilenceTimeout s = _
  simp [execSilenceTimeout, running]

theorem exec_silenceTimeout_idle {s : State} (idle : s.sil.deadline = none) : exec .silenceTimeout s = .next s := by
  change execSilenceTimeout s = _
  simp only [execSilenceTimeout, idle]

/-- An accepted write to FIO_CMD. -/
theorem State.command_fioCmd {s : State} {src : Src} {v : Word} (hu : s.up_ = true) (hj : s.judge src fioCmd v = none) :
    s.command src fioCmd v = if Word.bit v 0 then s.silAckNow else s := by
  obtain ⟨r, hr⟩ : ∃ r, regAt fioCmd = some r := ⟨_, rfl⟩
  exact State.command_page hu hj (by decide) rfl hr

/-- Taking the safe states touches no register. -/
theorem State.silAckNow_eq (s : State) : s.silAckNow = { (if s.sil.silent then s.safeOutputs else s) with
    sil := ⟨if s.rb fioCfg 0 then some (s.us + 1000 * s.rn fioSilenceMs) else none, false⟩ } := by
  have same : ∀ t : State, t.rf = s.rf → ({ t with sil := ⟨none, false⟩ } : State).silRestart s.us =
      { t with sil := ⟨if s.rb fioCfg 0 then some (s.us + 1000 * s.rn fioSilenceMs) else none, false⟩ } := by
    intro t words
    unfold State.silRestart State.rb State.rn State.rd
    simp only [words]
    split <;> rfl
  unfold State.silAckNow
  split
  · exact same _ rfl
  · exact same _ rfl

/-- Settles O52: each row by the lemma of its operation. That a group's over-current names the group's first channel in its
record is the model's choice (log entry 156). -/
theorem fieldOutputsAndProtection : Obligations.FieldOutputsAndProtection := by
  intro s g hu low high f pg
  refine ⟨fun src v => ?commands, fun c hc here => ?channel, fun clear => ?overCurrent, fun latched => ?overCurrentNot,
    fun src hj => exec_fioGrpClr hu low high hj, fun mv => ?supply, fun src c v hc here => ?config, fun d running => ?silence,
    exec_silenceTimeout_idle, fun src hj => ?ack⟩
  case commands =>
    intro noted
    exact ⟨exec_fioOutSet hu low high, exec_fioOutClr hu low high, exec_fioTsdClr hu low high⟩
  case channel =>
    subst here
    rw [exec_fioTsd hu hc]
    refine ⟨fun output => congrArg _ (State.tsdSet_output output), fun other => congrArg _ (State.tsdSet_other other),
      fun hot => ?_, fun cool => ?_, fun k => ?_⟩
    · rw [exec_fioTsdRecover hu hc hot]
      simp [State.tsdCool, f]
    · refine congrArg Host.Outcome.next (if_neg ?_)
      rintro ⟨-, -, hot⟩
      exact Bool.false_ne_true (cool.symm.trans hot)
    · intro on out
      simp only [exec_fioDiagChange hu hc]
      refine ⟨fun output shown new => ?_, fun output shown old => ?_, fun output suspended => ?_, fun output => ?_,
        fun other p => congrArg _ (State.diagSet_other other p)⟩
      · rw [State.diagSet_output output fun _ => shown]
        exact congrArg _ (if_pos ⟨rfl, new⟩)
      · rw [State.diagSet_output output fun _ => shown]
        exact congrArg _ (if_neg fun h => Bool.false_ne_true (h.2.symm.trans old))
      · exact congrArg _ (State.diagSet_suspended suspended)
      · rw [State.diagSet_output output (fun h => absurd h Bool.false_ne_true)]
        exact congrArg _ (if_neg fun h => Bool.false_ne_true h.1)
  case overCurrent => exact congrArg Host.Outcome.next (if_pos ⟨hu, low, high, by simpa [f] using clear⟩)
  case overCurrentNot =>
    refine congrArg Host.Outcome.next (if_neg ?_)
    rintro ⟨-, -, -, clear⟩
    simp only [f] at latched
    simp [latched] at clear
  case supply =>
    intro lvl t
    have run : exec (.fieldSupplyChange g mv) s = .next (if f.seen && lvl != f.supply then t.raise pg 2 else t) :=
      congrArg Host.Outcome.next (if_pos ⟨hu, low, high⟩)
    rw [run]
    refine ⟨fun ⟨seen, changed⟩ => congrArg _ (if_pos (by simp [seen, changed])), fun h => congrArg _ (if_neg ?_)⟩
    rcases h with first | same
    · simp [first]
    · simp [same]
  case config =>
    subst here
    intro a hj r hr w clr
    rw [exec_fioChannelCfg hu hc hj hr, State.chCfgApply_eq]
  case silence =>
    rw [exec_silenceTimeout running]
    refine ⟨fun ⟨heard, late⟩ => congrArg _ (if_pos ⟨hu, heard, late⟩), fun h => congrArg _ (if_neg ?_)⟩
    rintro ⟨-, heard, late⟩
    rcases h with silent | early
    · exact Bool.false_ne_true (heard.symm.trans silent)
    · exact absurd late (Nat.not_lt.2 early)
  case ack =>
    refine congrArg Host.Outcome.next ((State.command_fioCmd hu hj).trans ?_)
    exact s.silAckNow_eq

end Sys2Proof.Machine

/-! PROOF. What the mirror, its link and the exchange of roles do (chapter 15): O54. -/

namespace Sys2Proof.Machine

/-! ### The part `part` through the mirror's operations -/

@[simp] theorem State.setSync_part (s : State) (y : Sync) : (s.setSync y).part = { s.part with sync := y } := by
  unfold State.setSync
  split
  · next h => rw [← h]
  · rfl

theorem State.setSync_change {s : State} {y : Sync} (h : s.part.sync ≠ y) :
    s.setSync y = ({ s with part := { s.part with sync := y } } : State).raise pgPart 3 := if_neg h

/-- SYNC and its interrupt leave everything else. -/
theorem State.setSync_parts (s : State) (y : Sync) : Only { rf := true, irqNow := true, part := true } s (s.setSync y) :=
  State.setSync_only rfl rfl rfl (Only.refl _ _) y

/-- What POSN may touch. -/
theorem State.takePosn_parts (s : State) (m : MirrorPosn) :
    Only { rf := true, irqNow := true, pos := true, mot := true } s (s.takePosn m) :=
  State.takePosn_only rfl rfl rfl rfl (Only.refl _ _) m

/-- The absolute reference leaves the slip and the calibration. -/
theorem State.setAbs_pos (s : State) : s.setAbs.pos.s = s.pos.s ∧ s.setAbs.pos.kap = s.pos.kap ∧ s.setAbs.pos.b = s.pos.b := by
  have landing : ∀ t : State, t.absLanding.pos = t.pos := fun t =>
    (State.absLanding_only (pt := { mot := true }) rfl (Only.refl _ t)).pos.resolve_left (by decide)
  simp [State.setAbs, landing]

/-- POSN brings its slip and calibration (Table 15.4). -/
theorem State.takePosn_pos (s : State) (m : MirrorPosn) :
    (s.takePosn m).pos.s = m.s ∧ (s.takePosn m).pos.kap = m.kap ∧ (s.takePosn m).pos.b = m.b := by
  unfold State.takePosn
  dsimp only
  split
  · exact State.setAbs_pos _
  · exact ⟨rfl, rfl, rfl⟩

/-- CONFIG leaves the partner's digest, and whether a difference has been reported (R286). -/
theorem State.takeConfig_eq (s : State) (c : List Byte × BitVec 2) : ∃ b, s.takeConfig c =
    { s with part := { s.part with peerDigest := some c, misRaised := b } } := by
  unfold State.takeConfig
  dsimp only
  split
  · exact ⟨_, rfl⟩
  · exact ⟨s.part.misRaised, rfl⟩

/-- The mirrored tables leave pairing itself but for the mirror. -/
@[simp] theorem State.takeMirror_part (s : State) (m : Mirror) : (s.takeMirror m).part = { s.part with mirror := m } := by
  unfold State.takeMirror
  dsimp only
  cases m.calls <;> cases m.doors <;> rfl

theorem State.takeMirror_parts (s : State) (m : Mirror) :
    Only { rf := true, sch := true, doorF := true, doorR := true, part := true } s (s.takeMirror m) :=
  State.takeMirror_only rfl rfl rfl rfl rfl (Only.refl _ _) m

/-! ### An epoch is applied (R291, R296) -/

section epoch
variable {s : State} {e : Epoch}

/-- An epoch is noted: its number, its time, and the mark of a final segment. -/
def State.epochNoted (s : State) (e : Epoch) : State := { s with part := { s.part with
  pendEpoch := none, rxEpoch := e.number, rxAt := s.tick, gotRx := true, rejoin := false
  segFinal := s.part.segFinal || (e.finalSegment && s.part.resyncing) } }

/-- POSN, COUNTERS and CONFIG of an epoch are taken, its classes still to come. -/
def State.epochTaken (s : State) (e : Epoch) : State :=
  let t := match e.counters with
    | none => (s.epochNoted e).takePosn e.posn
    | some c => ((s.epochNoted e).takePosn e.posn).takeCounters c
  match e.config with
  | none => t
  | some c => t.takeConfig c

theorem State.epochApply_none (idle : s.part.pendEpoch = none) : s.epochApply = s := by
  unfold State.epochApply
  rw [idle]

theorem State.epochApply_some (waits : s.part.pendEpoch = some e) : s.epochApply =
    let t := s.epochTaken e
    if t.part.resyncing then
      { t with part := { t.part with shadow := some ((t.part.shadow.getD t.part.mirror).with e) } }
    else
      (({ t with part := { t.part with goodAt := s.tick } } : State).takeMirror (t.part.mirror.with e)).setSync .synced := by
  unfold State.epochApply
  rw [waits]
  rfl

/-- POSN and COUNTERS leave pairing; CONFIG leaves its digest. -/
theorem State.epochTaken_part : ∃ b, (s.epochTaken e).part = { (s.epochNoted e).part with
    peerDigest := if e.config.isSome then e.config else s.part.peerDigest, misRaised := b } := by
  have posn : ((s.epochNoted e).takePosn e.posn).part = (s.epochNoted e).part := (State.takePosn_parts _ _).part_eq rfl
  have counters : ∀ c, (((s.epochNoted e).takePosn e.posn).takeCounters c).part = (s.epochNoted e).part := fun _ => posn
  unfold State.epochTaken
  cases e.counters with
  | none =>
    cases e.config with
    | none => exact ⟨s.part.misRaised, posn⟩
    | some c =>
      obtain ⟨b, config⟩ := State.takeConfig_eq ((s.epochNoted e).takePosn e.posn) c
      exact ⟨b, by simp [config, posn]⟩
  | some n =>
    cases e.config with
    | none => exact ⟨s.part.misRaised, counters n⟩
    | some c =>
      obtain ⟨b, config⟩ := State.takeConfig_eq (((s.epochNoted e).takePosn e.posn).takeCounters n) c
      exact ⟨b, by simp [config, counters]⟩

/-- CONFIG touches neither the position nor the recorder. -/
theorem State.takeConfig_others (s : State) (c : List Byte × BitVec 2) :
    (s.takeConfig c).pos = s.pos ∧ (s.takeConfig c).rcd = s.rcd ∧ (s.takeConfig c).tick = s.tick := by
  obtain ⟨b, config⟩ := s.takeConfig_eq c
  rw [config]
  exact ⟨rfl, rfl, rfl⟩

theorem State.epochTaken_tick (s : State) (e : Epoch) : (s.epochTaken e).tick = s.tick := by
  have posn : ((s.epochNoted e).takePosn e.posn).tick = s.tick := (State.takePosn_parts _ _).tick.resolve_left (by decide)
  unfold State.epochTaken
  cases e.counters <;> cases e.config <;> simp [State.takeConfig_others, State.takeCounters, posn]

theorem State.epochTaken_pos : (s.epochTaken e).pos.s = e.posn.s ∧ (s.epochTaken e).pos.kap = e.posn.kap ∧
    (s.epochTaken e).pos.b = e.posn.b := by
  have posn : (s.epochTaken e).pos = ((s.epochNoted e).takePosn e.posn).pos := by
    unfold State.epochTaken
    cases e.counters <;> cases e.config <;> simp [State.takeConfig_others, State.takeCounters]
  rw [posn]
  exact State.takePosn_pos _ _

theorem State.epochTaken_rcd :
    ((s.epochTaken e).rcd.seqNext, (s.epochTaken e).rcd.pcycle, (s.epochTaken e).rcd.optime) = (match e.counters with
      | none => (s.rcd.seqNext, s.rcd.pcycle, s.rcd.optime)
      | some c => (max s.rcd.seqNext c.1, max s.rcd.pcycle c.2.1, max s.rcd.optime c.2.2)) := by
  have posn : ((s.epochNoted e).takePosn e.posn).rcd = s.rcd :=
    (State.takePosn_parts _ _).rcd.resolve_left (by decide)
  unfold State.epochTaken
  cases e.counters <;> cases e.config <;> simp [State.takeConfig_others, State.takeCounters, posn]

/-- Within a resynchronisation the classes join the shadow copy (R296). -/
theorem State.epochApply_resyncing (waits : s.part.pendEpoch = some e) (runs : s.part.resyncing = true) :
    s.epochApply = { s.epochTaken e with part := { (s.epochTaken e).part with
      shadow := some ((s.part.shadow.getD s.part.mirror).with e) } } := by
  obtain ⟨b, part⟩ := State.epochTaken_part (s := s) (e := e)
  have resyncs : (s.epochTaken e).part.resyncing = true := by rw [part]; exact runs
  have shadow : (s.epochTaken e).part.shadow = s.part.shadow := by rw [part]; rfl
  have mirror : (s.epochTaken e).part.mirror = s.part.mirror := by rw [part]; rfl
  rw [State.epochApply_some waits]
  simp only [resyncs, shadow, mirror, if_true]

/-- Outside one they join the mirror, and the module is SYNCED (R291). -/
theorem State.epochApply_synced (waits : s.part.pendEpoch = some e) (rests : s.part.resyncing = false) :
    s.epochApply.part = { (s.epochTaken e).part with
      goodAt := s.tick, mirror := s.part.mirror.with e, sync := .synced } ∧
    s.epochApply.pos = (s.epochTaken e).pos ∧ s.epochApply.rcd = (s.epochTaken e).rcd := by
  obtain ⟨b, part⟩ := State.epochTaken_part (s := s) (e := e)
  have settled : (s.epochTaken e).part.resyncing = false := by rw [part]; exact rests
  have mirror : (s.epochTaken e).part.mirror = s.part.mirror := by rw [part]; rfl
  have tick : (s.epochTaken e).tick = s.tick := s.epochTaken_tick e
  have applied : s.epochApply = (({ s.epochTaken e with part := { (s.epochTaken e).part with
      goodAt := s.tick } } : State).takeMirror (s.part.mirror.with e)).setSync .synced := by
    rw [State.epochApply_some waits]
    simp only [settled, mirror, tick, Bool.false_eq_true, if_false]
  rw [applied]
  refine ⟨by simp, ?_, ?_⟩
  · exact ((State.setSync_parts _ _).pos.resolve_left (by decide)).trans
      ((State.takeMirror_parts _ _).pos.resolve_left (by decide))
  · exact ((State.setSync_parts _ _).rcd.resolve_left (by decide)).trans
      ((State.takeMirror_parts _ _).rcd.resolve_left (by decide))

end epoch

/-! ### An epoch is received (R291) -/

section receive
variable {s : State} {e : Epoch}

theorem State.epochRx_ignored
    (h : s.part.linkUp = false ∨ s.sys.ordD = false ∨ s.authority = false ∧ s.part.role ≠ .standby) : s.epochRx e = s := by
  unfold State.epochRx
  rcases h with down | single | ⟨free, other⟩
  · simp [down]
  · simp [single]
  · simp [free, other]

variable (hu : s.up_ = true) (link : s.part.linkUp = true) (double : s.sys.ordD = true)
include hu link double

theorem State.epochRx_holder (holds : s.authority = true) : s.epochRx e = match e.config with
    | some c => if e.crcOk = true then s.takeConfig c else s
    | none => s := by
  unfold State.epochRx
  refine (if_neg (by simp [hu, link, double])).trans ((if_pos holds).trans ?_)
  cases e.config <;> rfl

theorem State.epochRx_standby (free : s.authority = false) (standby : s.part.role = .standby) : s.epochRx e =
    if e.crcOk = true ∧ (s.epochApply.part.rejoin = true ∨ e.number = (s.epochApply.part.rxEpoch + 1) % 4294967296) then
      { s.epochApply with part := { s.epochApply.part with pendEpoch := some e } }
    else s.epochApply.epochDiscard := by
  unfold State.epochRx
  rw [if_neg (by simp [hu, link, double]), if_neg (by simp [free]), if_neg (by simp [standby])]
  simp

end receive

/-- A discarded epoch during a resynchronisation only counts. -/
theorem State.epochDiscard_resyncing {s : State} (h : s.part.resyncing = true) :
    s.epochDiscard = (s.bump partCnt 24 8).raise pgPart 7 := if_pos h

theorem State.epochDiscard_gap {s : State} (h : s.part.resyncing = false) :
    s.epochDiscard = (((s.bump partCnt 24 8).raise pgPart 7).setSync .stale).resyncNow := if_neg (by simp [h])

/-! ### The link is lost and comes back (R293, R296) -/

section link
variable {s : State}

theorem State.linkLost_other (other : s.part.role ≠ .standby) : s.linkLost =
    { s with part := { s.part with linkUp := false, resyncing := false, pendEpoch := none } } := if_pos other

theorem State.linkLost_part (standby : s.part.role = .standby) : s.linkLost.part =
    { s.part with linkUp := false, resyncing := false, pendEpoch := none, sync := .stale } := by
  unfold State.linkLost
  simp [standby]

/-- The landings of a group's calls of one type, as a rising list. -/
theorem mem_landingsOf (l : List GCall) (k n : Nat) :
    n ∈ (l.filter (fun c => keyType c.key == k)).foldl (fun m c => setIns m (keyLanding c.key)) [] ↔
      ∃ c ∈ l, keyType c.key = k ∧ keyLanding c.key = n := by
  rw [← List.foldl_map, setIns_foldl_mem]
  simp [and_assoc]

/-- A standby that loses the link takes its calls from the field and the group list (R293). -/
theorem State.linkLost_calls (standby : s.part.role = .standby) :
    let mine := s.bid.calls.filter (fun c => c.holder == some s.car)
    let lampOn (n : Nat) : Bool := Word.bit (s.lt n 0x10) 17 &&
      Word.bit (s.grp (Word.bits (s.lt n 0x10) 8 8 / 32 + 1)).raw (Word.bits (s.lt n 0x10) 8 8 % 32)
    let t := s.linkLost
    (∀ n, n ∈ t.sch.cc ↔ n ∈ s.landings ∧ lampOn n = true ∨ ∃ x ∈ s.sch.dests, x.2.state = .riding ∧ x.2.dst = n) ∧
    (∀ n, (n ∈ t.sch.hu ↔ ∃ c ∈ mine, keyType c.key = 0 ∧ keyLanding c.key = n) ∧
      (n ∈ t.sch.hd ↔ ∃ c ∈ mine, keyType c.key = 1 ∧ keyLanding c.key = n)) ∧
    t.sch.dests = (mine.filter (fun c => keyType c.key == 2)).mapIdx (fun i c =>
      (i, (⟨keyLanding c.key, c.dest, .waiting, c.seq, s.rcd.optime % 4294967296, some c.tag⟩ : Dest))) := by
  intro mine lampOn t
  have sch : t.sch = { s.sch with
      cc := ((s.sch.dests.filter (fun d => d.2.state == .riding)).map (fun d => d.2.dst)).foldl setIns
        (s.landings.filter lampOn)
      hu := (mine.filter (fun c => keyType c.key == 0)).foldl (fun l c => setIns l (keyLanding c.key)) []
      hd := (mine.filter (fun c => keyType c.key == 1)).foldl (fun l c => setIns l (keyLanding c.key)) []
      dests := (mine.filter (fun c => keyType c.key == 2)).mapIdx (fun i c =>
        (i, (⟨keyLanding c.key, c.dest, .waiting, c.seq, s.rcd.optime % 4294967296, some c.tag⟩ : Dest))) } := by
    simp only [t]
    unfold State.linkLost
    rw [if_neg (not_not_intro standby)]
    exact (State.setSync_parts _ _).sch.resolve_left (by decide)
  rw [sch]
  refine ⟨fun n => ?_, fun n => ⟨mem_landingsOf mine 0 n, mem_landingsOf mine 1 n⟩, rfl⟩
  rw [setIns_foldl_mem]
  simp [and_assoc, or_comm]

theorem exec_partnerLinkDown (hu : s.up_ = true) (link : s.part.linkUp = true) :
    exec .partnerLinkDown s = .next s.linkLost := congrArg Host.Outcome.next (if_pos ⟨hu, link⟩)

theorem exec_partnerLinkUp (hu : s.up_ = true) (down : s.part.linkUp = false) (double : s.sys.ordD = true) :
    exec .partnerLinkUp s = .next (
      let t : State := { s with part := { s.part with linkUp := true, linkAt := s.tick, told := none } }
      if s.part.role = .standby then t.resyncNow else t) :=
  congrArg Host.Outcome.next (if_neg (by simp [down, double, hu]))

end link

/-! ### The exchange of roles (R295) -/

section exchange
variable {s : State}

theorem State.xchNow_parts (s : State) :
    Only { rf := true, irqNow := true, drv := true, doorF := true, doorR := true, el := true, can := true, part := true,
           rcd := true } s s.xchNow :=
  State.xchNow_only rfl rfl rfl rfl rfl rfl rfl rfl rfl (Only.refl _ _)

/-- The active module hands over with a final epoch. -/
theorem State.xchNow_hands (s : State) :
    let p := s.xchNow.part
    p.latch = false ∧ p.role = .standby ∧ p.pres = .present ∧ p.xchHold = some s.tick ∧
      p.xchDueMs = 1000 * s.rn partXchPeriodS ∧ p.txEpoch = (s.part.txEpoch + 1) % 4294967296 ∧
      p.sent = s.mirrorSend.part.sent := by
  intro p
  have part : p = { s.mirrorSend.part with
      xchHold := some s.tick, xchDueMs := 1000 * s.rn partXchPeriodS, latch := false, settle := none
      lostNow := s.part.lostNow || s.part.latch, pres := .present, window := none, role := .standby
      resyncing := s.part.linkUp, rejoin := true } := by
    simp only [p, State.xchNow, State.standbyNow_part, State.loseAuthority_part]
    rfl
  rw [part]
  exact ⟨rfl, rfl, rfl, rfl, rfl, rfl, rfl⟩

/-- An accepted write to PART_CMD. -/
theorem State.command_partCmd {src : Src} {v : Word} (hu : s.up_ = true) (hj : s.judge src partCmd v = none) :
    s.command src partCmd v =
      let s1 := if Word.bit v 2 then s.wr partCnt 0 else s
      let s2 := if Word.bit v 1 then s1.resyncNow else s1
      if Word.bit v 0 then s2.xchNow else s2 := by
  obtain ⟨r, hr⟩ : ∃ r, regAt partCmd = some r := ⟨_, rfl⟩
  exact State.command_page hu hj (by decide) rfl hr

theorem exec_xchNow {src : Src} (hu : s.up_ = true) (hj : s.judge src partCmd 1 = none) :
    exec (.xchNow src) s = .next s.xchNow := by
  have clear : Word.bit 1 2 = false := by decide
  have resync : Word.bit 1 1 = false := by decide
  have exchange : Word.bit 1 0 = true := by decide
  refine congrArg Host.Outcome.next ((State.command_partCmd hu hj).trans ?_)
  simp only [clear, resync, exchange, if_true, Bool.false_eq_true, if_false]

theorem exec_xchHoldEnd (hu : s.up_ = true) {t0 : Nat} (hold : s.part.xchHold = some t0) : exec .xchHoldEnd s = .next (
    let u : State := { s with part := { s.part with xchHold := none } }
    if s.since t0 8000 = false then s
    else if s.part.band = .claiming ∧ s.since s.part.bandAt 160 = true then u
    else (u.raise pgPart 6).fire 0xE u.partStatusW) := by
  refine congrArg Host.Outcome.next ((if_pos hu).trans ?_)
  unfold State.xchHoldEnd
  simp only [hold, Bool.not_eq_true']

end exchange

/-- Settles O54: each row by the lemma of its operation. That any discarded epoch makes the standby STALE and asks for an
image (log entry 160), and that a claim of 10 ms tells a good exchange from a failed one (167), are the model's choices. -/
theorem mirrorLinkAndExchange : Obligations.MirrorLinkAndExchange := by
  intro s hu p hands mine lampOn
  have handsOver : hands s.xchNow := by
    obtain ⟨latch, role, pres, hold, due, sends, sent⟩ := s.xchNow_hands
    exact ⟨latch, role, pres, hold, due, sends, sent, s.xchNow_parts⟩
  refine ⟨fun e h => congrArg Host.Outcome.next (State.epochRx_ignored h),
    fun e link double holds => congrArg Host.Outcome.next (State.epochRx_holder hu link double holds),
    fun e link double free standby => ?receives, fun idle => ?applyNone, fun e waits => ?applies, fun synced aged => ?stale,
    fun h => ?staleNot, fun link other => ?lost, fun link standby => ?lostStandby, fun down => ?lostNot,
    fun down double => ?back, fun h => ?backNot, fun runs final => ?complete, fun h => ?completeNot,
    fun live enabled due may => ?exchange, fun h => ?exchangeNot, fun src hj => ?now, fun idle => ?holdNone,
    fun t0 hold => ?holdEnd, fun src => ⟨fun hj => ?resync, fun hj => ?clear⟩⟩
  case receives =>
    intro u follows
    have run : exec (.mirrorEpochRx e) s = .next _ :=
      congrArg Host.Outcome.next (State.epochRx_standby hu link double free standby)
    rw [run]
    refine ⟨State.epochApply_none, fun sound next => congrArg _ (if_pos ⟨sound, next⟩), fun bad => ?_⟩
    rw [if_neg (by rintro ⟨sound, next⟩; exact bad.elim (fun c => by simp [c] at sound) (fun n => n next))]
    exact ⟨fun runs => congrArg _ (State.epochDiscard_resyncing runs), fun rests => congrArg _ (State.epochDiscard_gap rests)⟩
  case applyNone => exact congrArg Host.Outcome.next ((if_pos hu).trans (State.epochApply_none idle))
  case applies =>
    obtain ⟨b, part⟩ := State.epochTaken_part (s := s) (e := e)
    obtain ⟨slip, kappa, bias⟩ := State.epochTaken_pos (s := s) (e := e)
    refine ⟨s.epochApply, congrArg Host.Outcome.next (if_pos hu), ?_⟩
    rcases Bool.eq_false_or_eq_true s.part.resyncing with runs | rests
    · rw [State.epochApply_resyncing waits runs, part]
      exact ⟨rfl, rfl, rfl, rfl, rfl, rfl, rfl, slip, kappa, bias, State.epochTaken_rcd, rfl, fun _ => ⟨rfl, rfl, rfl⟩,
        fun rests => (Bool.false_ne_true (rests.symm.trans runs)).elim⟩
    · obtain ⟨applied, pos, rcd⟩ := State.epochApply_synced waits rests
      rw [applied, pos, rcd, part]
      exact ⟨rfl, rfl, rfl, rfl, rfl, rfl, rfl, slip, kappa, bias, State.epochTaken_rcd, rfl,
        fun runs => (Bool.false_ne_true (rests.symm.trans runs)).elim, fun _ => ⟨rfl, rfl, rfl⟩⟩
  case stale =>
    exact congrArg Host.Outcome.next ((if_pos hu).trans ((if_pos ⟨synced, aged⟩).trans
      (State.setSync_change (by simp [p] at synced; simp [synced]))))
  case staleNot =>
    refine congrArg Host.Outcome.next ((if_pos hu).trans (if_neg ?_))
    rintro ⟨synced, aged⟩
    exact h.elim (fun n => n synced) (fun young => absurd aged (Nat.not_lt.2 young))
  case lost => rw [exec_partnerLinkDown hu link, State.linkLost_other other]
  case lostStandby =>
    obtain ⟨cc, halls, dests⟩ := State.linkLost_calls standby
    refine ⟨s.linkLost, exec_partnerLinkDown hu link, ?_, ?_, ?_, ?_, cc, halls, dests,
      State.linkLost_only rfl rfl rfl rfl (Only.refl _ _)⟩
    all_goals rw [State.linkLost_part standby]
  case lostNot => exact congrArg Host.Outcome.next (if_neg fun h => Bool.false_ne_true (down.symm.trans h.2))
  case back =>
    rw [exec_partnerLinkUp hu down double]
    exact ⟨fun other => congrArg _ (if_neg other), fun standby => congrArg _ (if_pos standby)⟩
  case backNot =>
    refine congrArg Host.Outcome.next (if_pos ?_)
    rcases h with up | single
    · exact .inl up
    · exact .inr (.inl (by simp [single]))
  case complete => exact congrArg Host.Outcome.next ((if_pos hu).trans (if_pos ⟨runs, final⟩))
  case completeNot =>
    refine congrArg Host.Outcome.next ((if_pos hu).trans (if_neg ?_))
    rintro ⟨runs, final⟩
    rcases h with idle | more
    · exact Bool.false_ne_true (idle.symm.trans runs)
    · exact Bool.false_ne_true (more.symm.trans final)
  case exchange => exact ⟨s.xchNow, congrArg Host.Outcome.next (if_pos ⟨live, enabled, due, may⟩), handsOver⟩
  case exchangeNot =>
    refine congrArg Host.Outcome.next (if_neg ?_)
    rintro ⟨live, enabled, due, may⟩
    rcases h with h | h | h | h
    · exact Bool.false_ne_true (h.symm.trans live)
    · exact Bool.false_ne_true (h.symm.trans enabled)
    · exact h due
    · exact Bool.false_ne_true (h.symm.trans may)
  case now => exact ⟨s.xchNow, exec_xchNow hu hj, handsOver⟩
  case holdNone =>
    refine congrArg Host.Outcome.next ((if_pos hu).trans ?_)
    simp only [p] at idle
    simp only [State.xchHoldEnd, idle]
  case holdEnd =>
    rw [exec_xchHoldEnd hu hold]
    refine ⟨fun early => congrArg _ (if_pos early), fun due claims stood => ?_, fun due h => ?_⟩
    · exact congrArg _ ((if_neg (by simp [due])).trans (if_pos ⟨claims, stood⟩))
    · refine congrArg _ ((if_neg (by simp [due])).trans (if_neg ?_))
      rintro ⟨claims, stood⟩
      exact h.elim (fun n => n claims) (fun young => Bool.false_ne_true (young.symm.trans stood))
  case resync => exact congrArg Host.Outcome.next (State.command_partCmd hu hj)
  case clear => exact congrArg Host.Outcome.next (State.command_partCmd hu hj)

end Sys2Proof.Machine

/-! PROOF. How key commands are accepted, run and end (chapter 17): O56. -/

namespace Sys2Proof.Machine

/-! ### An accepted write to KEY_CMD (R323) -/

section accept
variable {s : State} {src : Src} {cmd : Word} (hu : s.up_ = true) (hj : s.judge src keyCmd cmd = none)
include hu hj

theorem State.command_keyCmd : s.command src keyCmd cmd = s.keyAccept src cmd := by
  obtain ⟨r, hr⟩ : ∃ r, regAt keyCmd = some r := ⟨_, rfl⟩
  exact State.command_page hu hj (by decide) rfl hr

/-- A row runs the command of its own OP, and leaves a word of another alone. -/
theorem State.keyWrite_runs (k : Nat) :
    (Word.bits cmd 0 8 = k → Host.Outcome.next (φ := Fault) (ρ := Refusal) (s.keyWrite k src cmd) =
      .next { s with key := { s.key with job := some ⟨cmd, src, s.tick, none, none⟩ } }) ∧
    (Word.bits cmd 0 8 ≠ k → Host.Outcome.next (φ := Fault) (ρ := Refusal) (s.keyWrite k src cmd) = .next s) := by
  refine ⟨fun op => congrArg _ ((if_pos op).trans ?_), fun other => congrArg _ (if_neg other)⟩
  exact State.command_keyCmd hu hj

end accept

/-! ### The end of a command (R323, R324, R326) -/

/-- A child orphaned while a command used it is cleared, with its sessions. -/
theorem State.orphanSlot_key (s : State) (n : Nat) : (s.orphanSlot n).key =
    { s.key with slots := adel s.key.slots n, orphans := setIns s.key.orphans n } :=
  (State.sessEndSlot_only (pt := { rf := true, irqNow := true, host := true }) rfl rfl rfl (Only.refl _ _) n).key.resolve_left
    (by decide)

/-- The output of a command goes to the key buffer and leaves the key store. -/
theorem State.setBuf_key (s : State) (l : List Byte) : (s.setBuf l).key = s.key :=
  (State.setBuf_only (pt := { rf := true }) rfl (Only.refl _ _) l).key.resolve_left (by decide)

/-- A command's effect, with its output in the key buffer. -/
def State.keyBuffered (s : State) (j : KeyJob) : State :=
  match (s.keyRun j).out with
  | some l => (s.keyRun j).st.setBuf l
  | none => (s.keyRun j).st

theorem State.keyBuffered_key (s : State) (j : KeyJob) : (s.keyBuffered j).key = (s.keyRun j).st.key := by
  unfold State.keyBuffered
  split
  · exact State.setBuf_key _ _
  · rfl

/-- A command is over, but for the slot it used. -/
def State.keyOver (s : State) (j : KeyJob) : State :=
  { s.keyBuffered j with key := { (s.keyBuffered j).key with
    job := none
    result := pack [(0, 8, (s.keyRun j).code), (8, 6, (s.keyRun j).slot),
      (16, 16, ((s.keyRun j).out.map List.length).getD 0)] } }

section ends
variable {s : State} {j : KeyJob} (runs : s.key.job = some j)
include runs

theorem State.keyDone_waits (early : s.keyReady j = false) : s.keyDone = s := by
  unfold State.keyDone
  rw [runs]
  exact if_pos (by simp [early])

/-- At its end only the slot that a command used gets a fresh mask, or is cleared where it was orphaned. -/
theorem State.keyDone_ends (ready : s.keyReady j = true) : s.keyDone =
    (if s.jobUses (Word.bits j.cmd 8 6) then
      (if (alook (s.keyOver j).key.slots (Word.bits j.cmd 8 6)).map (·.orphaned) = some true then
        (s.keyOver j).orphanSlot (Word.bits j.cmd 8 6)
       else (s.keyOver j).remaskSlot (Word.bits j.cmd 8 6))
     else s.keyOver j).raise pgKey 1 := by
  unfold State.keyDone
  rw [runs]
  exact if_neg (by simp [ready])

theorem State.keyDone_result (ready : s.keyReady j = true) :
    s.keyDone.key.job = none ∧ s.keyDone.key.result = (s.keyOver j).key.result := by
  rw [State.keyDone_ends runs ready]
  split
  · split
    · simp [State.orphanSlot_key, State.keyOver]
    · unfold State.remaskSlot
      split <;> exact ⟨rfl, rfl⟩
  · exact ⟨rfl, rfl⟩

/-- NONCE uses no slot. -/
theorem State.keyDone_nonce (ready : s.keyReady j = true) (op : Word.bits j.cmd 0 8 = 12) :
    s.keyDone.key.nonce = s.randBytes 16 ∧ s.keyDone.key.slots = s.key.slots ∧ (s.keyRun j).code = 0 := by
  have unused : s.jobUses (Word.bits j.cmd 8 6) = false := by simp [State.jobUses, runs, op]
  have run : s.keyRun j = ⟨{ s.draw with key := { s.key with nonce := s.randBytes 16 } }, 0, 0, none⟩ := by
    simp only [State.keyRun, op]
  have key : (s.keyBuffered j).key = { s.key with nonce := s.randBytes 16 } := by rw [State.keyBuffered_key, run]
  rw [State.keyDone_ends runs ready, unused, run]
  simp [State.keyOver, key]

end ends

/-! ### What each command does at its end (Table 17.6) -/

section run
variable {s : State} {j : KeyJob}

theorem State.keyRun_load (op : Word.bits j.cmd 0 8 = 1) : s.keyRun j = s.keyLoad j.src.port (s.keyBuf 80) := by
  simp only [State.keyRun, op]

theorem State.keyRun_unload (op : Word.bits j.cmd 0 8 = 2) : s.keyRun j = s.keyUnload (Word.bits j.cmd 8 6) := by
  simp only [State.keyRun, op]

theorem State.keyRun_storeRes (op : Word.bits j.cmd 0 8 = 7) : s.keyRun j =
    if blobOk (s.keyBuf 80) then
      ⟨{ s with key := { s.key with resident := aput s.key.resident (Word.bits j.cmd 16 4) (s.keyBuf 80) } }, 0, 0, none⟩
    else ⟨s, 1, 0, none⟩ := by
  cases form : blobOk (s.keyBuf 80) <;> simp [State.keyRun, State.keyResident, KeyOut.fail, op, form]

theorem State.keyRun_eraseRes (op : Word.bits j.cmd 0 8 = 8) : s.keyRun j =
    ⟨{ s with key := { s.key with resident := adel s.key.resident (Word.bits j.cmd 16 4) } }, 0, 0, none⟩ := by
  simp only [State.keyRun, State.keyResident, op, if_true]

theorem State.keyRun_attest_uncommitted (op : Word.bits j.cmd 0 8 = 9 ∨ Word.bits j.cmd 0 8 = 10)
    (uncommitted : j.idx = none) : s.keyRun j = ⟨s, j.code.getD 0xB, 0, none⟩ := by
  rcases op with op | op <;> simp only [State.keyRun, KeyOut.fail, op, uncommitted]

theorem State.keyRun_idPub (op : Word.bits j.cmd 0 8 = 11) (secure : s.key.secOff = false) (kept : s.idxLost = false)
    (named : (lcName s.lc).isSome = true) :
    s.keyRun j = ⟨s, 0, 0, some (padData (Config.hssPublic s.key.idSeed s.key.idI) 60)⟩ := by
  have known : (lcName s.lc).isNone = false := by rw [← Option.not_isSome, named]; rfl
  simp [State.keyRun, op, secure, kept, known]

theorem State.keyRun_verify (op : Word.bits j.cmd 0 8 = 14) : (s.keyRun j).code = s.objectCode s.bufObject 8192 := by
  simp only [State.keyRun, op]

end run

section load
variable {s : State} {port : Nat} {b : List Byte}

theorem State.keyLoad_unwrapped_not (unsound : s.unwrap port b = none) : s.keyLoad port b = ⟨s, 0xB, 0, none⟩ := by
  unfold State.keyLoad
  rw [unsound]
  rfl

variable {k : List Byte} {p : Option Nat} (sound : s.unwrap port b = some (k, p))
include sound

theorem State.keyLoad_loaded (loaded : (s.slotOfId (leNat (slice b 0 2))).isSome = true) :
    s.keyLoad port b = ⟨s, 2, 0, none⟩ := by
  unfold State.keyLoad
  rw [sound]
  exact if_pos loaded

variable (new : s.slotOfId (leNat (slice b 0 2)) = none)
include new

theorem State.keyLoad_full (full : ∀ i, i < 48 → (alook s.key.slots (16 + i)).isSome = true) :
    s.keyLoad port b = ⟨s, 0xD, 0, none⟩ := by
  have taken : (List.range 48).find? (fun i => (alook s.key.slots (16 + i)).isNone) = none := by
    rw [List.find?_range_eq_none]
    exact fun i hi => by simp [full i hi]
  unfold State.keyLoad
  simp only [sound, new, taken]
  rfl

theorem State.keyLoad_free {i : Nat} (hi : i < 48) (free : alook s.key.slots (16 + i) = none)
    (lowest : ∀ m, m < i → (alook s.key.slots (16 + m)).isSome = true) :
    s.keyLoad port b = ⟨s.putSlot (16 + i) (b.take 16) k false p, 0, 16 + i, none⟩ := by
  have first : (List.range 48).find? (fun i => (alook s.key.slots (16 + i)).isNone) = some i := by
    rw [List.find?_range_eq_some]
    exact ⟨by simp [free], List.mem_range.2 hi, fun m hm => by simp [lowest m hm]⟩
  unfold State.keyLoad
  simp only [sound, new, first]
  rfl

end load

theorem State.keyUnload_absent {s : State} {n : Nat} (absent : s.slotKey n = none) : s.keyUnload n = ⟨s, 0xB, 0, none⟩ :=
  if_pos (by simp [absent])

theorem State.keyUnload_present {s : State} {n : Nat} (present : (s.slotKey n).isSome = true) :
    s.keyUnload n = ⟨s.dropSlot n, 0, n, none⟩ :=
  if_neg (by rw [← Option.not_isSome, present]; simp)

/-- Settles O56: a row of its own OP is accepted, and each end is that of its command, with the codes of Table 17.6: E_KEY
(0x0B), E_STATE (2) for a KEY_ID that is loaded, E_FULL (0x0D). That a command reads its buffer and slots at its end (log
entry 175), and gives the first fault in the table's order (176), is the model's choice. -/
theorem keyCommandsRunAndEnd : Obligations.KeyCommandsRunAndEnd := by
  intro s hu
  refine ⟨fun src cmd hj => ?rows, fun idle => ?idle, fun j runs => ?ends⟩
  case rows =>
    intro op arg runs
    have row (k : Nat) : runs k (.next (s.keyWrite k src cmd)) := State.keyWrite_runs hu hj k
    have moves (h : arg ≠ 0x10) : exec (.lcTransition src cmd) s = .next (s.keyWrite 13 src cmd) := congrArg _ (if_neg h)
    have returns (h : arg = 0x10) : exec (.lcReturn src cmd) s = .next (s.keyWrite 13 src cmd) := congrArg _ (if_pos h)
    exact ⟨row 1, row 2, row 3, row 4, row 5, row 6, row 7, row 8, row 9, row 10, row 11, row 12,
      fun h => moves h ▸ row 13, fun h => congrArg _ (if_pos h), fun h => returns h ▸ row 13, fun h => congrArg _ (if_neg h),
      row 14, row 15⟩
  case idle =>
    refine congrArg Host.Outcome.next ((if_pos hu).trans ?_)
    unfold State.keyDone
    rw [idle]
  case ends =>
    intro op slot n blob out
    have run : exec .keyCommandDone s = .next s.keyDone := congrArg Host.Outcome.next (if_pos hu)
    refine ⟨fun early => run.trans (congrArg _ (State.keyDone_waits runs early)), fun ready => ?_, fun h => ?load,
      fun h => ?unload, fun h => ?store, State.keyRun_eraseRes, State.keyRun_attest_uncommitted, State.keyRun_idPub,
      State.keyRun_verify⟩
    · obtain ⟨finished, result⟩ := State.keyDone_result runs ready
      exact ⟨s.keyDone, run, finished, result, State.keyDone_nonce runs ready⟩
    case load =>
      have load : out = s.keyLoad j.src.port blob := State.keyRun_load h
      rw [load]
      exact ⟨State.keyLoad_unwrapped_not, fun k p sound => ⟨State.keyLoad_loaded sound, State.keyLoad_full sound,
        fun i hi new free lowest => State.keyLoad_free sound new hi free lowest⟩⟩
    case unload =>
      have unload : out = s.keyUnload slot := State.keyRun_unload h
      rw [unload]
      exact ⟨State.keyUnload_absent, State.keyUnload_present⟩
    case store =>
      have store : out = _ := State.keyRun_storeRes h
      rw [store]
      exact ⟨fun bad => if_neg (by simp [blob, bad]), fun good => if_pos good⟩

end Sys2Proof.Machine

/-! PROOF. The start attempt, the clock monitor, fallback, the gates and CLKOUT (chapter 18): O58. -/

namespace Sys2Proof.Machine

/-! ### What a start attempt comes to (R338, R339, Table 18.3) -/

theorem startedIn_iff {us : Option Nat} {limit : Nat} :
    startedIn us limit = true ↔ ∃ t, us = some t ∧ t ≤ limit := by
  cases us <;> simp [startedIn]

/-- The XO fails by amplitude, by a stop or by its frequency, in that order. -/
theorem xoCause_spec (i : StartIn) :
    let amp := startedIn i.xoAmpUs 20000 = true
    let xo := 51380 ≤ i.xoIrcCycles ∧ i.xoIrcCycles ≤ 53477
    (¬amp → xoCause i = some .xoNoAmp) ∧ (amp → i.xoStopped = true → xoCause i = some .xoStop) ∧
      (amp → i.xoStopped = false → ¬xo → xoCause i = some .xoFreq) ∧
      (amp → i.xoStopped = false → xo → xoCause i = none) := by
  refine ⟨fun na => ?_, fun amp stop => ?_, fun amp run off => ?_, fun amp run inside => ?_⟩
  · simp [xoCause, na]
  · simp [xoCause, amp, stop]
  · have out : i.xoIrcCycles < 51380 ∨ 53477 < i.xoIrcCycles := by omega
    simp [xoCause, amp, run, out]
  · have no : ¬(i.xoIrcCycles < 51380 ∨ 53477 < i.xoIrcCycles) := by omega
    simp [xoCause, amp, run, no]

/-- An attempt with XO good needs IRC-A in its window and both PLLs in time. -/
theorem startOutcome_xoGood {i : StartIn} (good : xoCause i = none) :
    let irc := 19141 ≤ i.ircCycles ∧ i.ircCycles ≤ 19922
    let backup := startedIn i.backupLockUs 200 = true
    let root := startedIn i.rootLockUs 200 = true
    (¬irc → startOutcome i = (some .ircQual, false)) ∧
      (irc → ¬backup ∨ ¬root → startOutcome i = (some .pllLock, false)) ∧
      (irc → backup → root → startOutcome i = (none, false)) := by
  refine ⟨fun out => ?_, fun inside miss => ?_, fun inside lock root => ?_⟩
  · simp [startOutcome, good, out]
  · rcases miss with miss | miss <;> simp [startOutcome, good, inside, miss]
  · simp [startOutcome, good, inside, lock, root]

/-- An attempt with XO failed reaches RUN, in fallback, only where the failure is a late one, IRC-A is in its window and
the backup PLL is locked. -/
theorem startOutcome_xoFailed {i : StartIn} {c : BootCause} (failed : xoCause i = some c) :
    let irc := 19141 ≤ i.ircCycles ∧ i.ircCycles ≤ 19922
    let backup := startedIn i.backupLockUs 200 = true
    let late := xoAfterIrc i c = true
    (¬late → startOutcome i = (some c, false)) ∧ (late → ¬irc → startOutcome i = (some .ircQual, false)) ∧
      (late → irc → ¬backup → startOutcome i = (some .pllLock, false)) ∧
      (late → irc → backup → startOutcome i = (none, true)) := by
  refine ⟨fun early => ?_, fun late out => ?_, fun late inside miss => ?_, fun late inside lock => ?_⟩
  · simp [startOutcome, failed, early]
  · simp [startOutcome, failed, late, out]
  · simp [startOutcome, failed, late, inside, miss]
  · simp [startOutcome, failed, late, inside, lock]

theorem xoAfterIrc_iff {i : StartIn} {c : BootCause} :
    xoAfterIrc i c = true ↔ (c = .xoFreq ∨ i.xoFailedAfterIrc = true) ∧ 32 < i.xoFailLpo := by
  simp [xoAfterIrc]

/-! ### A failed attempt (R339, R340) -/

/-- The fields of the boot-failure word as a failure writes them. -/
theorem pack_boot_fields {n c : Nat} (d : Bool) (hn : n ≤ 9) (hc : c < 16) :
    let v := pack [(0, 4, n), (4, 4, c), (8, 1, b2n d)]
    Word.bits v 0 4 = n ∧ Word.bits v 4 4 = c ∧ Word.bit v 8 = d := by
  intro v
  have one : b2n d ≤ 1 := by cases d <;> decide
  have value : v.toNat = n + 16 * c + 256 * b2n d := by
    simp only [v, pack, wordN, List.foldl_cons, List.foldl_nil, Nat.shiftLeft_eq, BitVec.toNat_ofNat]
    omega
  have dead : Word.bit v 8 = decide (b2n d = 1) := by
    simp only [Word.bit, value, Nat.testBit_eq_decide_div_mod_eq, decide_eq_decide]
    omega
  refine ⟨?_, ?_, dead.trans (by cases d <;> rfl)⟩ <;>
    · simp only [Word.bits, value, Nat.shiftRight_eq_div_pow]
      omega

theorem bootCode_lt (c : BootCause) : bootCode c < 16 := by cases c <;> decide

theorem State.startFailed_spec (s : State) (c : BootCause) :
    (s.startFailed c).sys.run = (if 8 ≤ s.clk.retries then .clkDead else .clockHold) ∧
      Word.bits (s.startFailed c).clk.bootWord 0 4 = min (Word.bits s.clk.bootWord 0 4 + 1) 9 ∧
      Word.bits (s.startFailed c).clk.bootWord 4 4 = bootCode c ∧
      Word.bit (s.startFailed c).clk.bootWord 8 = (decide (8 ≤ s.clk.retries) || Word.bit s.clk.bootWord 8) ∧
      Only { clk := true, sys := true } s (s.startFailed c) := by
  obtain ⟨count, code, dead⟩ := pack_boot_fields (n := min (Word.bits s.clk.bootWord 0 4 + 1) 9)
    (decide (8 ≤ s.clk.retries) || Word.bit s.clk.bootWord 8) (by omega) (bootCode_lt c)
  refine ⟨?_, count, code, dead, State.startFailed_only rfl rfl (Only.refl _ _) c⟩
  change (if decide (8 ≤ s.clk.retries) = true then RunState.clkDead else .clockHold) = _
  simp only [decide_eq_true_eq]

/-! ### Clock fallback (R342) -/

/-- The state in which fallback is entered, before its ports, sessions and reports. -/
def State.fallbackEntered (s0 : State) (c : ClkCause) : State :=
  let s := if s0.part.role == .active && s0.partnerSynced then
      ({ s0 with part := { s0.part with handOver := true } }).motHoldNow
    else s0
  { s with clk := { s.clk with fallback := true, cause := c, frozen := true, xoOk := s.clk.xoOk && c == .pll, rootLock := false } }

/-- What follows the entry is the link of the ports, the sessions and the reports. -/
theorem State.fallback_enters {s : State} (hf : s.clk.fallback = false) (c : ClkCause) :
    Only { rf := true, irqNow := true, host := true, rcd := true } (s.fallbackEntered c) (s.fallback c) := by
  unfold State.fallback
  rw [if_neg (by simp [hf])]
  refine State.fire_only rfl rfl rfl (State.wf__only rfl (State.raise_only rfl rfl
    (each_only _ (fun t i h => ?_) _ (each_only _ (fun t n h => ?_) _ (Only.refl _ _))) _ _) _ _ _ _) _ _
  · split
    · exact State.sessEnd_only rfl rfl rfl h _
    · exact h
  · dsimp only
    split
    · exact State.raise_only rfl rfl (State.wr_only rfl h _ _) _ _
    · exact h

/-- Fallback is entered once: the cause is recorded, the trim code is frozen and the root PLL is off. -/
theorem State.fallback_clk {s : State} (hf : s.clk.fallback = false) (c : ClkCause) :
    (s.fallback c).clk = { s.clk with
      fallback := true, cause := c, frozen := true, xoOk := s.clk.xoOk && c == .pll, rootLock := false } := by
  rw [(State.fallback_enters hf c).clk.resolve_left (by decide)]
  unfold State.fallbackEntered
  split
  · let given : State := { s with part := { s.part with handOver := true } }
    have held : Only { rf := true, irqNow := true, mot := true, drv := true, el := true, rcd := true }
        given given.motHoldNow := State.motHoldNow_only rfl rfl rfl rfl rfl rfl (Only.refl _ _)
    have kept : given.motHoldNow.clk = s.clk := held.clk.resolve_left (by decide)
    simp only [given] at kept
    simp only [kept]
  · rfl

theorem State.fallback_again {s : State} (hf : s.clk.fallback = true) (c : ClkCause) : s.fallback c = s :=
  if_pos hf

/-- Fallback moves neither the run state nor the estimate. -/
theorem State.fallback_parts (s : State) (c : ClkCause) :
    Only { rf := true, irqNow := true, mot := true, drv := true, el := true, host := true, part := true, rcd := true, clk := true }
      s (s.fallback c) :=
  State.fallback_only rfl rfl rfl rfl rfl rfl rfl rfl rfl (Only.refl _ _) c

theorem State.fallback_sys (s : State) (c : ClkCause) : (s.fallback c).sys = s.sys :=
  (s.fallback_parts c).sys.resolve_left (by decide)

/-! ### A start that reaches RUN (R351) -/

theorem State.startMesh_run {s : State} (hr : s.sys.run = .run) (active : Bool) :
    (s.startMesh active).sys.run = .run ∧ (s.startMesh active).clk = s.clk := by
  have only : Only { rf := true, irqNow := true, host := true, rcd := true, key := true, tamp := true, sys := true }
      s (s.startMesh active) := State.startMesh_only rfl rfl rfl rfl rfl rfl rfl (Only.refl _ _) active
  refine ⟨?_, only.clk.resolve_left (by decide)⟩
  cases active
  · exact hr
  · rfl

/-- Selecting a slot changes the slot alone. -/
theorem State.selectSlot_run (s : State) : s.selectSlot.sys.run = s.sys.run := by
  unfold State.selectSlot
  dsimp only
  split <;> rfl

theorem State.applyEntries_sys (s : State) (l : List (Nat × Word)) : (s.applyEntries l).sys = s.sys :=
  (State.applyEntries_only (pt := { rf := true, drv := true }) rfl rfl (Only.refl _ _) l).sys.resolve_left (by decide)

theorem State.startProfile_run (s : State) :
    s.startProfile.sys.run = s.sys.run ∧ s.startProfile.clk = s.clk := by
  have only : Only { rf := true, drv := true, sys := true } s s.startProfile :=
    State.startProfile_only rfl rfl rfl (Only.refl _ _)
  refine ⟨?_, only.clk.resolve_left (by decide)⟩
  exact (congrArg Sys.run (State.applyEntries_sys _ _)).trans s.selectSlot_run

theorem State.startKeys_parts (s : State) : Only { fresh := true, key := true } s s.startKeys :=
  State.startKeys_only rfl rfl (Only.refl _ _)

theorem State.startRecord_clk (s : State) (w : Word) :
    (s.startRecord w).clk = { s.clk with outCfg := s.rd clkOutCfg } ∧ (s.startRecord w).sys = s.sys := by
  unfold State.startRecord
  simp

theorem State.enginesStart_parts (s : State) :
    Only { rf := true, irqNow := true, pos := true, mot := true, can := true, sil := true } s s.enginesStart :=
  State.enginesStart_only rfl rfl rfl rfl rfl rfl (Only.refl _ _)

/-- The start up to the START record, which still holds the boot-failure word of the attempts. -/
def State.startRecorded (s : State) (i : StartIn) (fb : Bool) : State :=
  ((((s.startFields i fb).startMesh i.meshActive).startProfile).startKeys).startRecord s.clk.bootWord

/-- The start up to its engines, before a fallback of its XO. -/
def State.startEngines (s : State) (i : StartIn) (fb : Bool) : State :=
  (if (s.startRecorded i fb).sys.profValid then (s.startRecorded i fb).enginesStart else s.startRecorded i fb).elTake

theorem State.startRun_eq (s : State) (i : StartIn) (fb : Bool) :
    s.startRun i fb = if fb then (s.startEngines i fb).fallback .xoStart else s.startEngines i fb := rfl

/-- The start as recorded: RUN, the boot-failure word cleared, no change of the fallback. -/
theorem State.startRecorded_spec (s : State) (i : StartIn) (fb : Bool) :
    (s.startRecorded i fb).sys.run = .run ∧ (s.startRecorded i fb).clk.fallback = s.clk.fallback ∧
      (s.startRecorded i fb).clk.bootWord = 0 := by
  unfold State.startRecorded
  obtain ⟨meshRun, meshClk⟩ := State.startMesh_run (s := s.startFields i fb) rfl i.meshActive
  obtain ⟨profRun, profClk⟩ := ((s.startFields i fb).startMesh i.meshActive).startProfile_run
  have keys := ((s.startFields i fb).startMesh i.meshActive).startProfile.startKeys_parts
  have keysSys := keys.sys.resolve_left (by decide)
  have keysClk := keys.clk.resolve_left (by decide)
  obtain ⟨recClk, recSys⟩ :=
    (((s.startFields i fb).startMesh i.meshActive).startProfile.startKeys).startRecord_clk s.clk.bootWord
  rw [recSys, recClk, keysSys, keysClk, profRun, profClk, meshRun, meshClk]
  exact ⟨rfl, rfl, rfl⟩

theorem State.startEngines_kept (s : State) (i : StartIn) (fb : Bool) :
    (s.startEngines i fb).sys = (s.startRecorded i fb).sys ∧ (s.startEngines i fb).clk = (s.startRecorded i fb).clk := by
  change (if _ then _ else _ : State).sys = _ ∧ (if _ then _ else _ : State).clk = _
  split
  · have engines := (s.startRecorded i fb).enginesStart_parts
    exact ⟨engines.sys.resolve_left (by decide), engines.clk.resolve_left (by decide)⟩
  · exact ⟨rfl, rfl⟩

theorem State.startRun_spec (s : State) (i : StartIn) (fb : Bool) :
    (s.startRun i fb).sys.run = .run ∧ (s.startRun i fb).clk.fallback = (fb || s.clk.fallback) ∧
      (s.startRun i fb).clk.bootWord = 0 ∧
      (fb = true → s.clk.fallback = false → (s.startRun i fb).clk.cause = .xoStart) := by
  obtain ⟨run, fallback, boot⟩ := s.startRecorded_spec i fb
  obtain ⟨sys, clk⟩ := s.startEngines_kept i fb
  rw [← sys] at run
  rw [← clk] at fallback boot
  rw [s.startRun_eq]
  cases fb
  · exact ⟨run, fallback, boot, fun h => by cases h⟩
  rw [if_pos rfl]
  refine ⟨by rw [State.fallback_sys, run], ?_⟩
  cases already : (s.startEngines i true).clk.fallback
  · rw [State.fallback_clk already]
    exact ⟨rfl, boot, fun _ _ => rfl⟩
  · rw [State.fallback_again already]
    refine ⟨already, boot, fun _ no => ?_⟩
    rw [already, no] at fallback
    cases fallback

section attempt
variable {s : State} {i : StartIn}

theorem State.startAttempt_idle (hr : s.sys.run ≠ .attempt) : s.startAttempt i = s := if_pos hr

theorem State.startAttempt_fails (hr : s.sys.run = .attempt) {c : BootCause} {fb : Bool}
    (h : startOutcome i = (some c, fb)) : s.startAttempt i = s.startFailed c := by
  unfold State.startAttempt
  rw [if_neg (by simp [hr]), h]

theorem State.startAttempt_runs (hr : s.sys.run = .attempt) {fb : Bool}
    (h : startOutcome i = (none, fb)) : s.startAttempt i = s.startRun i fb := by
  unfold State.startAttempt
  rw [if_neg (by simp [hr]), h]

end attempt

/-! ### The clock monitor (R341, R343) -/

/-- An Invar window is bad outside its limits, which are those of LPO once IRC-A has failed. -/
def State.badWindow (s : State) (n : Nat) : Bool :=
  if s.clk.ircFail then decide (n < 725 ∨ 801 < n) else decide (n < 1255 ∨ 1305 < n)

/-- A window counted: its XO cycles, the failures and the bad ones in a row. -/
def State.windowCounted (s : State) (n : Nat) : State :=
  { s with clk := { s.clk with
    invarCount := n, invarFails := s.clk.invarFails + b2n (s.badWindow n)
    badWin := if s.badWindow n then s.clk.badWin + 1 else 0 } }

section monitor
variable {s : State} (hu : s.up_ = true)
include hu

theorem State.invar_counts (hf : s.clk.fallback = false) (n : Nat) : s.invar n =
    if (if s.badWindow n then s.clk.badWin + 1 else 0) < 2 then s.windowCounted n
    else if s.clk.ircFail then (s.windowCounted n).resetBy .clk else (s.windowCounted n).fallback .freq :=
  if_neg (by simp [hu, hf])

theorem State.invar_single (hf : s.clk.fallback = false) {n : Nat} (h : s.badWindow n = false ∨ s.clk.badWin = 0) :
    s.invar n = s.windowCounted n := by
  rw [State.invar_counts hu hf]
  refine if_pos ?_
  rcases h with h | h
  · simp [h]
  · split <;> omega

theorem State.invar_second (hf : s.clk.fallback = false) {n : Nat} (h : s.badWindow n = true) (hb : s.clk.badWin ≠ 0) :
    s.invar n = if s.clk.ircFail then (s.windowCounted n).resetBy .clk else (s.windowCounted n).fallback .freq := by
  rw [State.invar_counts hu hf, if_pos h]
  exact if_neg (by omega)

theorem State.xoStopped_acts (hf : s.clk.fallback = false) :
    s.xoStopped = if s.clk.ircFail then s.resetBy .clk else s.fallback .stop := if_neg (by simp [hu, hf])

theorem State.pllLost_onXo (hf : s.clk.fallback = false) :
    s.pllLost false = if s.clk.ircFail then s.resetBy .clk else s.fallback .pll := by
  simp [State.pllLost, hu, hf]

theorem State.pllLost_backup : s.pllLost true =
    let t : State := { s with clk := { s.clk with backupLock := false } }
    if s.clk.fallback then t.resetBy .clk else t := if_neg (by simp [hu])

/-- A trim step moves the code by one; at an end it fails IRC-A. -/
theorem State.trimStep_moves (hf : s.clk.fallback = false) (hi : s.clk.ircFail = false) (b : Bool) :
    let d := if b then min (s.rf_ clkTrim 0 10 + 1) 1023 else s.rf_ clkTrim 0 10 - 1
    (d ≠ 0 → d ≠ 1023 → s.trimStep b = s.wf_ clkTrim 0 10 d) ∧
      (d = 0 ∨ d = 1023 → s.trimStep b = ({ s.wf_ clkTrim 0 10 d with
        clk := { s.clk with ircFail := true, badWin := 0 } } : State).raise pgClk 2) := by
  intro d
  have step : s.trimStep b = if d = 0 ∨ d = 1023 then ({ s.wf_ clkTrim 0 10 d with
      clk := { s.clk with ircFail := true, badWin := 0 } } : State).raise pgClk 2 else s.wf_ clkTrim 0 10 d :=
    if_neg (by simp [hu, hf, hi])
  exact ⟨fun low high => step.trans (if_neg (by omega)), fun h => step.trans (if_pos h)⟩

theorem State.ircStop_fallback (hf : s.clk.fallback = true) : s.ircStop = s.resetBy .clk := by
  simp [State.ircStop, hu, hf]

theorem State.ircStop_first (hf : s.clk.fallback = false) (hi : s.clk.ircFail = false) : s.ircStop =
    ({ s with clk := { s.clk with ircFail := true, ircOk := false, badWin := 0 } } : State).raise pgClk 2 := by
  simp [State.ircStop, hu, hf, hi]

end monitor

theorem State.pllLost_inFallback {s : State} (hf : s.clk.fallback = true) : s.pllLost false = s := by
  simp [State.pllLost, hf]

theorem State.ircStop_again {s : State} (hf : s.clk.fallback = false) (hi : s.clk.ircFail = true) : s.ircStop = s := by
  simp [State.ircStop, hf, hi]

theorem State.trimStep_frozen {s : State} (h : s.clk.fallback = true ∨ s.clk.ircFail = true) (b : Bool) :
    s.trimStep b = s := by
  refine if_pos ?_
  rcases h with h | h <;> simp [h]

/-! ### The gates (R345, R346) -/

/-- An accepted write to CLK_GATE is made, or waits for the drain of the gates it stops. -/
theorem State.command_clkGate {s : State} {src : Src} {v : Word} (hu : s.up_ = true)
    (hj : s.judge src clkGate v = none) : s.command src clkGate v = s.gateWrite src.port v := by
  obtain ⟨r, hr⟩ : ∃ r, regAt clkGate = some r := ⟨_, rfl⟩
  exact State.command_page hu hj (by decide) rfl hr

/-- A drain that does not end leaves the gates, and records E_BUSY. -/
theorem State.drainEnd_fails {s : State} {port : Nat} {v : Word} (hd : s.clk.drain = some (port, v)) :
    ∃ t, s.drainEnd false = t ∧ t.clk = { s.clk with drain := none } ∧
      (s.Canonical → t.rd clkGate = s.rd clkGate) ∧ Only { rf := true, irqNow := true, clk := true } s t := by
  refine ⟨_, rfl, ?_, fun hk => ?_, State.drainEnd_only rfl rfl rfl (Only.refl _ _) false⟩
  · unfold State.drainEnd
    rw [hd]
    rfl
  · unfold State.drainEnd
    rw [hd]
    exact State.errNote_keeps_words (s := { s with clk := { s.clk with drain := none } }) hk pgClk (clkGate % 4096)
      ⟨port, .control, none⟩ 4 clkGate (by decide)

theorem State.drainEnd_makes {s : State} {port : Nat} {v : Word} (hd : s.clk.drain = some (port, v)) :
    s.drainEnd true = ({ s with clk := { s.clk with drain := none } } : State).wr clkGate v := by
  unfold State.drainEnd
  rw [hd]
  rfl

/-! ### The rows of the clocks -/

section rows
variable {s : State}

theorem exec_clockHoldEnd_attempts (hr : s.sys.run = .clockHold) : exec .clockHoldEnd s = .next { s with
    clk := { s.clk with retries := s.clk.retries + 1 }, sys := { s.sys with run := .attempt } } :=
  congrArg Host.Outcome.next (if_neg (by simp [hr]))

theorem exec_clockHoldEnd_idle (hr : s.sys.run ≠ .clockHold) : exec .clockHoldEnd s = .next s :=
  congrArg Host.Outcome.next (if_pos hr)

theorem exec_fallbackAcc1pct_sets (hu : s.up_ = true) (hf : s.clk.fallback = true) (ha : s.clk.acc1 = false)
    (ht : 9600000 ≤ s.clk.fbTicks) : exec .fallbackAcc1pct s =
      .next (({ s with clk := { s.clk with acc1 := true } } : State).raise pgClk 3) :=
  congrArg Host.Outcome.next (if_pos ⟨hu, hf, by simp [ha], by omega⟩)

theorem exec_fallbackAcc1pct_idle (h : s.clk.fallback = false ∨ s.clk.acc1 = true ∨ s.clk.fbTicks < 9600000) :
    exec .fallbackAcc1pct s = .next s := by
  refine congrArg Host.Outcome.next (if_neg ?_)
  rintro ⟨-, hf, ha, ht⟩
  rcases h with h | h | h
  · simp [h] at hf
  · simp [h] at ha
  · omega

theorem exec_gateDrainEnd_runs (hu : s.up_ = true) (b : Bool) : exec (.gateDrainEnd b) s = .next (s.drainEnd b) :=
  congrArg Host.Outcome.next (if_pos hu)

theorem exec_gateDrainEnd_idle (h : s.clk.drain = none ∨ s.up_ = false) (b : Bool) :
    exec (.gateDrainEnd b) s = .next s := by
  refine congrArg Host.Outcome.next ?_
  rcases h with h | h
  · split
    · unfold State.drainEnd
      rw [h]
    · rfl
  · exact if_neg (by simp [h])

theorem exec_clkGateWrite_stopsNone (hu : s.up_ = true) {src : Src} {v : Word} (hj : s.judge src clkGate v = none)
    (h : s.rd clkGate &&& ~~~v = 0) : exec (.clkGateWrite src v) s = .next (s.wr clkGate v) :=
  congrArg Host.Outcome.next ((State.command_clkGate hu hj).trans (if_pos h))

theorem exec_clkGateWrite_drains (hu : s.up_ = true) {src : Src} {v : Word} (hj : s.judge src clkGate v = none)
    (h : s.rd clkGate &&& ~~~v ≠ 0) : exec (.clkGateWrite src v) s =
      .next { s with clk := { s.clk with drain := some (src.port, v) } } :=
  congrArg Host.Outcome.next ((State.command_clkGate hu hj).trans (if_neg h))

theorem exec_clkoutReconfig_takes (hu : s.up_ = true) {w : Word} (hw : s.clk.outPend = some w) :
    exec .clkoutReconfig s = .next { s with clk := { s.clk with outCfg := w, outPend := none } } := by
  change execClkoutReconfig s = _
  unfold execClkoutReconfig
  rw [hw]
  exact congrArg Host.Outcome.next (if_pos hu)

theorem exec_clkoutReconfig_idle (h : s.clk.outPend = none ∨ s.up_ = false) : exec .clkoutReconfig s = .next s := by
  change execClkoutReconfig s = _
  unfold execClkoutReconfig
  rcases h with h | h
  · rw [h]
  · split
    · rfl
    · exact congrArg Host.Outcome.next (if_neg (by simp [h]))

/-- The monitor and the row of IRC-A while XO is in use. -/
theorem exec_monitor_onXo (hu : s.up_ = true) (hf : s.clk.fallback = false) :
    (∀ n, (s.badWindow n = false ∨ s.clk.badWin = 0 → exec (.invarWindow n) s = .next (s.windowCounted n)) ∧
      (s.badWindow n = true → s.clk.badWin ≠ 0 → exec (.invarWindow n) s =
        .next (if s.clk.ircFail then (s.windowCounted n).resetBy .clk else (s.windowCounted n).fallback .freq))) ∧
    exec .xoStop s = .next (if s.clk.ircFail then s.resetBy .clk else s.fallback .stop) ∧
    exec (.pllLossOfLock false) s = .next (if s.clk.ircFail then s.resetBy .clk else s.fallback .pll) ∧
    exec (.pllLossOfLock true) s = .next { s with clk := { s.clk with backupLock := false } } :=
  ⟨fun _ => ⟨fun h => congrArg Host.Outcome.next (State.invar_single hu hf h),
      fun h hb => congrArg Host.Outcome.next (State.invar_second hu hf h hb)⟩,
    congrArg Host.Outcome.next (State.xoStopped_acts hu hf),
    congrArg Host.Outcome.next (State.pllLost_onXo hu hf),
    congrArg Host.Outcome.next ((State.pllLost_backup hu).trans (if_neg (by simp [hf])))⟩

/-- In fallback the monitor is still, and a loss of what is left resets. -/
theorem exec_monitor_fallback (hu : s.up_ = true) (hf : s.clk.fallback = true) :
    exec .ircFail s = .next (s.resetBy .clk) ∧ exec .xoStop s = .next s ∧
    (∀ n, exec (.invarWindow n) s = .next s) ∧ (∀ b, exec (.ircTrim b) s = .next s) ∧
    exec (.pllLossOfLock false) s = .next s ∧
    exec (.pllLossOfLock true) s = .next (({ s with clk := { s.clk with backupLock := false } } : State).resetBy .clk) :=
  ⟨congrArg Host.Outcome.next (State.ircStop_fallback hu hf),
    congrArg Host.Outcome.next (if_pos (by simp [hf])),
    fun _ => congrArg Host.Outcome.next (if_pos (by simp [hf])),
    fun b => congrArg Host.Outcome.next (State.trimStep_frozen (.inl hf) b),
    congrArg Host.Outcome.next (State.pllLost_inFallback hf),
    congrArg Host.Outcome.next ((State.pllLost_backup hu).trans (if_pos hf))⟩

end rows

/-- Settles O58: the outcome of an attempt by the cases of Table 18.3, each row by its condition, and what fallback and a
start keep by the parts their operations leave. Which XO failures come after IRC-A's qualification is the model's reading
of log entry 233; the CLK reset at once of an XO stop or a loss of the root's lock with IRC-A failed is the choice of log
entry 230; the rejection recorded after a failed drain is that of log entry 15. -/
theorem clocksStartMonitorAndGates : Obligations.ClocksStartMonitorAndGates := by
  unfold Obligations.ClocksStartMonitorAndGates
  refine ⟨fun i => ?outcome, fun s => ⟨fun hr i => congrArg Host.Outcome.next (State.startAttempt_idle hr),
    fun hr i => ⟨fun c fb h => ?fails, fun fb h => ?runs⟩, exec_clockHoldEnd_attempts, exec_clockHoldEnd_idle,
    fun hf c => ?enters, fun hu hf => ?onXo, fun hu hf => ?inFallback,
    fun hu src v hj => ⟨exec_clkGateWrite_stopsNone hu hj, exec_clkGateWrite_drains hu hj⟩, fun hu port v hd => ?drain,
    exec_gateDrainEnd_idle, fun hu w => exec_clkoutReconfig_takes hu, exec_clkoutReconfig_idle⟩⟩
  case outcome =>
    simp only [← startedIn_iff, ← xoAfterIrc_iff]
    obtain ⟨amp, stop, off, good⟩ := xoCause_spec i
    exact ⟨amp, stop, off, good, startOutcome_xoGood, fun c => startOutcome_xoFailed⟩
  case fails =>
    exact ⟨_, congrArg Host.Outcome.next (State.startAttempt_fails hr h), s.startFailed_spec c⟩
  case runs =>
    exact ⟨_, congrArg Host.Outcome.next (State.startAttempt_runs hr h), s.startRun_spec i fb⟩
  case enters =>
    refine ⟨_, rfl, ?_⟩
    rw [State.fallback_clk hf, State.fallback_sys]
    exact ⟨rfl, rfl, rfl, rfl, rfl, rfl, (s.fallback_parts c).pos.resolve_left (by decide)⟩
  case onXo =>
    obtain ⟨window, stop, root, backup⟩ := exec_monitor_onXo hu hf
    refine ⟨window, stop, root, backup, fun hi b => ?_, fun hi => ⟨fun b => ?_, ?_⟩, fun hi => ?_,
      exec_fallbackAcc1pct_idle (.inl hf)⟩
    · obtain ⟨moves, ends⟩ := State.trimStep_moves hu hf hi b
      exact ⟨fun low high => congrArg Host.Outcome.next (moves low high), fun h => congrArg Host.Outcome.next (ends h)⟩
    · exact congrArg Host.Outcome.next (State.trimStep_frozen (.inr hi) b)
    · exact congrArg Host.Outcome.next (State.ircStop_again hf hi)
    · exact congrArg Host.Outcome.next (State.ircStop_first hu hf hi)
  case inFallback =>
    obtain ⟨irc, stop, window, trim, root, backup⟩ := exec_monitor_fallback hu hf
    exact ⟨irc, stop, window, trim, root, backup, exec_fallbackAcc1pct_sets hu hf,
      fun h => exec_fallbackAcc1pct_idle (.inr h)⟩
  case drain =>
    obtain ⟨t, made, kept⟩ := State.drainEnd_fails hd
    exact ⟨(exec_gateDrainEnd_runs hu true).trans (congrArg Host.Outcome.next (State.drainEnd_makes hd)),
      t, (exec_gateDrainEnd_runs hu false).trans (congrArg Host.Outcome.next made), kept⟩

end Sys2Proof.Machine

/-! PROOF. What resets and the supply do (chapters 18 and 19): O59. -/

namespace Sys2Proof.Machine

/-! ### What a reset starts from: the handover and the orderly save (R288, R354) -/

/-- An active module has handed over, but on POR, BOR and a wake from DEEP. -/
def State.handedOver (s : State) (k : ResetKind) : State :=
  if !(k == .por || k == .bor) && k != .deep && s.part.role == .active then s.handover else s

/-- The state a reset of a kind takes effect on: handed over, and saved on the kinds of R354. -/
def State.resetFrom (s : State) (k : ResetKind) : State :=
  if resetSaves k then (s.handedOver k).orderlySave else s.handedOver k

theorem State.posSave_banks (s : State) : s.posSave.sys.banks = s.sys.banks := by
  unfold State.posSave
  split <;> rfl

/-- The orderly save leaves the banks. -/
theorem State.orderlySave_banks (s : State) : s.orderlySave.sys.banks = s.sys.banks := by
  unfold State.orderlySave
  have doors := each_only (m := { rf := true, doorF := true, doorR := true }) (fun (t : State) (c : Chan) => t.doorRetain c)
    (fun t c h => State.doorRetain_only rfl rfl rfl h c) s.doorsIn (Only.refl _ s.flushAll.counterSave.posSave)
  rw [doors.sys.resolve_left (by decide)]
  have flushed : s.flushAll.counterSave.sys = s.sys := s.flushAll_parts.sys.resolve_left (by decide)
  exact (State.posSave_banks _).trans (congrArg Sys.banks flushed)

/-- The handover leaves the stored state of the module. -/
theorem State.handedOver_parts (s : State) (k : ResetKind) :
    Only { rf := true, irqNow := true, drv := true, doorF := true, doorR := true, el := true, can := true, part := true, rcd := true }
      s (s.handedOver k) := by
  unfold State.handedOver
  split
  · exact State.handover_only rfl rfl rfl rfl rfl rfl rfl rfl rfl (Only.refl _ _)
  · exact Only.refl _ _

theorem State.handedOver_sys (s : State) (k : ResetKind) : (s.handedOver k).sys = s.sys :=
  (s.handedOver_parts k).sys.resolve_left (by decide)

theorem State.orderlySave_parts (s : State) :
    Only { rf := true, irqNow := true, doorF := true, doorR := true, rcd := true, sys := true } s s.orderlySave :=
  State.orderlySave_only rfl rfl rfl rfl rfl rfl (Only.refl _ _)

/-- What a reset starts from has the keys, the clocks, the tamper latch and the queue of the state before. -/
theorem State.resetFrom_parts (s : State) (k : ResetKind) :
    (s.resetFrom k).key = s.key ∧ (s.resetFrom k).clk = s.clk ∧ (s.resetFrom k).tamp = s.tamp ∧
      (s.resetFrom k).pending = s.pending := by
  have hand := s.handedOver_parts k
  have key := hand.key.resolve_left (by decide)
  have clk := hand.clk.resolve_left (by decide)
  have tamp := hand.tamp.resolve_left (by decide)
  unfold State.resetFrom
  split
  · have save := (s.handedOver k).orderlySave_parts
    exact ⟨(save.key.resolve_left (by decide)).trans key, (save.clk.resolve_left (by decide)).trans clk,
      (save.tamp.resolve_left (by decide)).trans tamp, save.pending.trans hand.pending⟩
  · exact ⟨key, clk, tamp, hand.pending⟩

theorem State.resetFrom_banks (s : State) (k : ResetKind) : (s.resetFrom k).sys.banks = s.sys.banks := by
  have hand := congrArg Sys.banks (s.handedOver_sys k)
  unfold State.resetFrom
  split
  · exact (State.orderlySave_banks _).trans hand
  · exact hand

/-- Without the save, κ and b stay as they were stored. -/
theorem State.resetFrom_unsaved (s : State) {k : ResetKind} (h : resetSaves k = false) : (s.resetFrom k).sys = s.sys := by
  unfold State.resetFrom
  rw [if_neg (by simp [h])]
  exact s.handedOver_sys k

/-! ### What a reset leaves (R351, R353) -/

/-- The position engine with a stored κ and b, and as reset else. -/
def Pos.stored : Option (Nat × Int) → Pos
  | some (kap, b) => { Pos.reset with kap := kap, b := b }
  | none => Pos.reset

theorem Pos.stored_spec (kb : Option (Nat × Int)) :
    Pos.stored kb = { Pos.reset with kap := (Pos.stored kb).kap, b := (Pos.stored kb).b } ∧
      ((Pos.stored kb).kap, (Pos.stored kb).b) = kb.getD (Pos.reset.kap, Pos.reset.b) := by
  cases kb <;> exact ⟨rfl, rfl⟩

theorem State.resetWith_pos (s : State) (k : ResetKind) (ks : List ResetKind) :
    (s.resetWith k ks).pos = Pos.stored (s.resetFrom k).sys.kbSaved := by
  change (match (s.resetFrom k).sys.kbSaved with
    | some (kap, b) => { Pos.reset with kap := kap, b := b }
    | none => Pos.reset) = _
  cases (s.resetFrom k).sys.kbSaved <;> rfl

theorem El.afterReset_st (e : El) (k : ResetKind) : (e.afterReset k).st = .start := (El.afterReset_safe e k).1

theorem State.resetWith_spec (s : State) (k : ResetKind) (ks : List ResetKind) :
    let t := s.resetWith k ks
    t.sys.run = .attempt ∧ t.sys.kind = k ∧ t.sys.kinds = ks ∧ t.el.st = .start ∧ t.part.role = .init ∧ t.part.latch = false ∧
      t.host = HostP.reset ∧ t.key.slots = [] ∧ t.key.job = none ∧ t.key.service = none ∧
      t.mot = Mot.reset ∧ t.sch = Sch.reset ∧ t.pos = { Pos.reset with kap := t.pos.kap, b := t.pos.b } ∧
      (resetSaves k = false → (t.pos.kap, t.pos.b) = s.sys.kbSaved.getD (Pos.reset.kap, Pos.reset.b)) ∧
      t.bid = Bid.reset ∧ t.can = State.reset.can ∧
      t.key.lcOtp = s.key.lcOtp ∧ t.clk.bootWord = s.clk.bootWord ∧ t.sys.banks = s.sys.banks ∧
      t.tamp.tampered = s.tamp.tampered ∧ t.pending = s.pending := by
  intro t
  obtain ⟨key, clk, tamp, queue⟩ := s.resetFrom_parts k
  obtain ⟨stored, calib⟩ := Pos.stored_spec (s.resetFrom k).sys.kbSaved
  have pos : t.pos = Pos.stored (s.resetFrom k).sys.kbSaved := s.resetWith_pos k ks
  have otp : (s.resetFrom k).key.lcOtp = s.key.lcOtp := congrArg Key.lcOtp key
  have boot : (s.resetFrom k).clk.bootWord = s.clk.bootWord := congrArg Clk.bootWord clk
  have latch : (s.resetFrom k).tamp.tampered = s.tamp.tampered := congrArg Tamp.tampered tamp
  refine ⟨rfl, rfl, rfl, El.afterReset_st (s.resetFrom k).el k, rfl, rfl, rfl, rfl, rfl, rfl, rfl, rfl, ?_, fun no => ?_, rfl, rfl,
    otp, boot, s.resetFrom_banks k, latch, queue⟩
  · rw [pos]
    exact stored
  · rw [pos, calib, State.resetFrom_unsaved s no]

/-! ### A request, by the state it meets (R350, R352) -/

section requests
variable {s : State} (k : ResetKind)

theorem State.resetBy_up (hu : s.up_ = true) : s.resetBy k = s.resetWith k [k] := by
  unfold State.resetBy
  rcases State.up_cases hu with h | h <;> rw [h]

/-- Within a running sequence POR and BOR start it again, and another kind is merged. -/
theorem State.resetBy_starting (h : s.sys.run = .attempt ∨ s.sys.run = .clockHold) : s.resetBy k =
    if k = .por ∨ k = .bor then s.resetWith k (k :: s.sys.kinds.filter (fun x => x != k))
    else { s with sys := { s.sys with
      kinds := k :: s.sys.kinds.filter (fun x => x != k)
      kind := if resetRank k < resetRank s.sys.kind then k else s.sys.kind } } := by
  unfold State.resetBy
  rcases h with h | h <;> rw [h]

/-- A module that is dead, in DEEP or unpowered takes only POR and BOR. -/
theorem State.resetBy_dead (h : s.sys.run = .clkDead ∨ s.sys.run = .deep ∨ s.sys.run = .unpowered) :
    s.resetBy k = if k = .por ∨ k = .bor then s.resetWith k [k] else s := by
  unfold State.resetBy
  rcases h with h | h | h <;> rw [h]

end requests

/-! ### The rows of the resets -/

section rows
variable {s : State}

theorem exec_safeReset_up (hu : s.up_ = true) : exec .safeReset s = .next ((s.trip 15).resetBy .safe) :=
  congrArg (fun t : State => Host.Outcome.next (t.resetBy .safe)) (if_pos hu)

theorem exec_safeReset_down (hu : s.up_ = false) : exec .safeReset s = .next (s.resetBy .safe) :=
  congrArg (fun t : State => Host.Outcome.next (t.resetBy .safe)) (if_neg (by simp [hu]))

/-- An accepted word with its SOFT bit acts after the store it may carry. -/
theorem exec_softReset_runs (hu : s.up_ = true) {src : Src} {v : Word} (hj : s.judge src sysCmd v = none)
    (hb : Word.bit v 0 = true) : exec (.softReset src v) s =
      .next ((if Word.bit v 1 then s.profStoreNow (Word.bits v 2 2) else s).resetBy .soft) := by
  obtain ⟨r, hr⟩ : ∃ r, regAt sysCmd = some r := ⟨_, rfl⟩
  have acts : s.command src sysCmd v = s.applySys sysCmd r v := State.command_page hu hj (by decide) rfl hr
  exact congrArg Host.Outcome.next ((if_pos hb).trans (acts.trans (if_pos hb)))

theorem exec_softReset_without (src : Src) {v : Word} (hb : Word.bit v 0 = false) :
    exec (.softReset src v) s = .next s := congrArg Host.Outcome.next (if_neg (by simp [hb]))

theorem exec_pinReset_acts (h : s.up_ = false ∨ s.standstill = true ∨ s.sys.immediate = true) :
    exec .pinReset s = .next (s.resetBy .pin) := by
  refine congrArg Host.Outcome.next (if_neg ?_)
  rcases h with h | h | h <;> simp [h]

theorem exec_pinReset_waits (hu : s.up_ = true) (moves : s.standstill = false) (hi : s.sys.immediate = false) :
    exec .pinReset s = .next s := congrArg Host.Outcome.next (if_pos (by simp [hu, moves, hi]))

/-! ### The reset button (R355, R356) -/

/-- The strap is sampled at the release of a press (R370). -/
def State.strapSampled (s : State) (imm : Bool) : State := { s with sys := { s.sys with immediate := imm } }

section button
variable {ms : Nat} {imm : Bool}

theorem State.buttonRelease_down (hu : s.up_ = false) : s.buttonRelease ms imm = s := by
  unfold State.buttonRelease
  rw [if_neg (show ¬s.up_ = true by simp [hu])]
  exact if_pos (by simp [hu])

variable (hu : s.up_ = true)
include hu

theorem State.buttonRelease_up : s.buttonRelease ms imm =
    if !s.up_ || !s.sys.btnArmed || s.sys.pinDefer.isSome || ms < 50 || 10000 < ms then s.strapSampled imm
    else if imm || s.standstill then (s.strapSampled imm).resetBy .pin
    else ({ s.strapSampled imm with sys := { (s.strapSampled imm).sys with pinDefer := some s.tick } } : State).raise pgSys 3 := by
  unfold State.buttonRelease
  rw [if_pos hu]
  rfl

/-- A press that counts asks for a reset. -/
theorem State.buttonRelease_press (armed : s.sys.btnArmed = true) (free : s.sys.pinDefer = none) (low : 50 ≤ ms)
    (high : ms ≤ 10000) : s.buttonRelease ms imm =
      if imm || s.standstill then (s.strapSampled imm).resetBy .pin
      else ({ s.strapSampled imm with sys := { (s.strapSampled imm).sys with pinDefer := some s.tick } } : State).raise pgSys 3 :=
  (State.buttonRelease_up hu).trans (if_neg (by simp [hu, armed, free, low, high]))

/-- Any other release only samples the strap. -/
theorem State.buttonRelease_other
    (h : s.sys.btnArmed = false ∨ s.sys.pinDefer.isSome = true ∨ ms < 50 ∨ 10000 < ms) :
    s.buttonRelease ms imm = s.strapSampled imm := by
  refine (State.buttonRelease_up hu).trans (if_pos ?_)
  rcases h with h | h | h | h <;> simp [h]

end button

theorem exec_resetButtonStuck_sets (hu : s.up_ = true) (armed : s.sys.btnArmed = true) (free : s.sys.pinDefer = none) :
    exec .resetButtonStuck s =
      .next (({ s with sys := { s.sys with stuck := true, btnArmed := false } } : State).raise pgSys 4) :=
  congrArg Host.Outcome.next (if_pos ⟨hu, armed, by simp [free]⟩)

theorem exec_resetButtonStuck_idle (h : s.up_ = false ∨ s.sys.btnArmed = false ∨ s.sys.pinDefer.isSome = true) :
    exec .resetButtonStuck s = .next s := by
  refine congrArg Host.Outcome.next (if_neg ?_)
  rintro ⟨hu, armed, free⟩
  rcases h with h | h | h
  · simp [h] at hu
  · simp [h] at armed
  · simp [Option.isNone_iff_eq_none.1 free] at h

theorem exec_buttonSeenReleased_rearms (hu : s.up_ = true) (h : s.sys.btnArmed = false) :
    exec .resetButtonRearm s = .next { s with sys := { s.sys with stuck := false, btnArmed := true } } :=
  congrArg Host.Outcome.next (if_pos ⟨hu, by simp [h]⟩)

theorem exec_buttonSeenReleased_idle (h : s.up_ = false ∨ s.sys.btnArmed = true) :
    exec .resetButtonRearm s = .next s := by
  refine congrArg Host.Outcome.next (if_neg ?_)
  rcases h with h | h <;> simp [h]

/-- A deferred reset waits for standstill, or 30 s, after which the car is stopped. -/
theorem State.pinDeferred_since {w : Nat} (hd : s.sys.pinDefer = some w) : s.pinDeferred =
    if s.standstill then s.resetBy .pin
    else if s.since w 480000 then (s.motTrip.drvOff.spFollow).resetBy .pin else s := by
  unfold State.pinDeferred
  rw [hd]

theorem exec_deferredPinReset_runs (hu : s.up_ = true) : exec .deferredPinReset s = .next s.pinDeferred :=
  congrArg Host.Outcome.next (if_pos hu)

theorem exec_deferredPinReset_idle (h : s.sys.pinDefer = none ∨ s.up_ = false) :
    exec .deferredPinReset s = .next s := by
  refine congrArg Host.Outcome.next ?_
  rcases h with h | h
  · split
    · unfold State.pinDeferred
      rw [h]
    · rfl
  · exact if_neg (by simp [h])

/-! ### Brown-outs (R357) -/

theorem State.brownOutDue_warned {w : Nat} (hw : s.sys.pfw = some w) :
    s.brownOutDue = (s.since w 800 || !s.sys.holdup) := by
  unfold State.brownOutDue
  rw [hw]

theorem State.brownOutDue_unwarned (hw : s.sys.pfw = none) : s.brownOutDue = !s.up_ := by
  unfold State.brownOutDue
  rw [hw]

theorem exec_brownOutReset_due (h : s.brownOutDue = true) : exec .brownOutReset s = .next s.brownOut :=
  congrArg Host.Outcome.next (if_pos h)

theorem exec_brownOutReset_early (h : s.brownOutDue = false) : exec .brownOutReset s = .next s :=
  congrArg Host.Outcome.next (if_neg (by simp [h]))

/-- An unpowered module neither starts nor loses more, but while the always-on domain keeps its power. -/
theorem exec_aon_idle (h : s.sys.run ≠ .unpowered ∨ s.sys.aonPowered = false) :
    exec .aonPowerLoss s = .next s ∧ exec .borStart s = .next s := by
  refine ⟨congrArg Host.Outcome.next (if_pos ?_), congrArg Host.Outcome.next (if_neg ?_)⟩ <;>
    rcases h with h | h <;> simp [h]

theorem exec_aon_acts (hr : s.sys.run = .unpowered) (ha : s.sys.aonPowered = true) :
    exec .borStart s = .next { s with sys := { s.sys with run := .attempt } } ∧
      exec .aonPowerLoss s = .next { s with
        rf := s.rf.filter (fun e => regClass e.1 == .n), sys := { s.sys with aonPowered := false } } :=
  ⟨congrArg Host.Outcome.next (if_pos ⟨hr, ha⟩), congrArg Host.Outcome.next (if_neg (by simp [hr, ha]))⟩

/-! ### The power-failure warning (R309, R357) -/

/-- Staging a record leaves the time of the final save. -/
theorem State.stage_finalAt (s : State) (typ : RecType) (source : Nat) (slot : Option Nat) (detail : Word)
    (snap : List Word) (flush : Bool) : (s.stage typ source slot detail snap flush).rcd.finalAt = s.rcd.finalAt := by
  unfold State.stage
  split
  · rfl
  · split <;> rfl

/-- A key command given up without a result leaves the key store but for the command. -/
theorem State.keyAbandon_none_key (s : State) : (s.keyAbandon none).key = { s.key with job := none } := by
  unfold State.keyAbandon
  split
  · rename_i idle
    exact congrArg (fun j => { s.key with job := j }) idle
  · exact congrArg (fun key : Key => { key with job := none }) (s.setBuf_key [])

/-- The warning as it is raised, with the time of the final save that follows it. -/
def State.warnRaised (s : State) (mv : Nat) : State :=
  ({ s with sys := { s.sys with pfw := some s.tick, logicMv := mv }, rcd := { s.rcd with finalAt := some s.tick } }).raise pgPwr 1

/-- What a warning retains: the doors, counted, and the running key command given up. -/
def State.warnRetained (s : State) (mv : Nat) : State :=
  (each (s.warnRaised mv).doorsIn ((s.warnRaised mv).bump pwrPfCnt 0 16) (fun t c => t.doorRetain c)).keyAbandon none

theorem State.warnNow_eq (s : State) (mv : Nat) :
    s.warnNow mv = (s.warnRetained mv).stage .powerFail 0 none (wordN mv) [] true := rfl

theorem State.warnRetained_kept (s : State) (mv : Nat) : (s.warnRetained mv).sys = (s.warnRaised mv).sys ∧
    (s.warnRetained mv).rcd = (s.warnRaised mv).rcd ∧ (s.warnRetained mv).key = { s.key with job := none } := by
  unfold State.warnRetained
  have doors := each_only (m := { rf := true, doorF := true, doorR := true }) (fun (t : State) (c : Chan) => t.doorRetain c)
    (fun t c h => State.doorRetain_only rfl rfl rfl h c) (s.warnRaised mv).doorsIn
    (Only.refl _ ((s.warnRaised mv).bump pwrPfCnt 0 16))
  generalize each (s.warnRaised mv).doorsIn ((s.warnRaised mv).bump pwrPfCnt 0 16) (fun t c => t.doorRetain c) = u at doors
  have ends : Only { rf := true, irqNow := true, key := true } u (u.keyAbandon none) :=
    State.keyAbandon_only rfl rfl rfl (Only.refl _ _) none
  have key : u.key = s.key := doors.key.resolve_left (by decide)
  refine ⟨(ends.sys.resolve_left (by decide)).trans (doors.sys.resolve_left (by decide)),
    (ends.rcd.resolve_left (by decide)).trans (doors.rcd.resolve_left (by decide)), ?_⟩
  rw [State.keyAbandon_none_key, key]

/-- The warning: its time, the final save that follows it, and the running key command given up. -/
theorem State.warnNow_spec (s : State) (mv : Nat) :
    (s.warnNow mv).sys = { s.sys with pfw := some s.tick, logicMv := mv } ∧
      (s.warnNow mv).rcd.finalAt = some s.tick ∧ (s.warnNow mv).key = { s.key with job := none } := by
  obtain ⟨sys, rcd, key⟩ := s.warnRetained_kept mv
  rw [State.warnNow_eq, State.stage_sys, State.stage_finalAt, State.stage_key, sys, rcd, key]
  exact ⟨rfl, rfl, rfl⟩

theorem exec_powerFailWarning_warns (hu : s.up_ = true) (hw : s.sys.pfw = none) {mv : Nat} (low : mv < 16000) :
    exec (.powerFailWarning mv) s = .next (s.warnNow mv) :=
  congrArg Host.Outcome.next (if_neg (by simp [hu, hw, low]))

theorem exec_powerFailWarning_idle {mv : Nat} (h : s.up_ = false ∨ s.sys.pfw.isSome = true ∨ 16000 ≤ mv) :
    exec (.powerFailWarning mv) s = .next s := by
  refine congrArg Host.Outcome.next (if_pos ?_)
  rcases h with h | h | h <;> simp [h]

/-- LOGIC back at 17.0 V ends the warning and lets the recorder stage again. -/
theorem exec_powerRecovery_ends (hu : s.up_ = true) (hw : s.sys.pfw.isSome = true) {mv : Nat} (high : 17000 ≤ mv) :
    ∃ t, exec (.powerRecovery mv) s = .next t ∧ t.sys = { s.sys with pfw := none, logicMv := mv } ∧
      t.rcd = { s.rcd with stopped := false } ∧ Only { rf := true, rcd := true, sys := true } s t := by
  obtain ⟨w, warned⟩ := Option.isSome_iff_exists.1 hw
  have back : s.powerBack mv = ({ s with
      sys := { s.sys with pfw := none, logicMv := mv }, rcd := { s.rcd with stopped := false } } : State).bump pwrPfCnt 16 16 :=
    if_neg (by simp [hu, warned, high])
  refine ⟨_, congrArg Host.Outcome.next back, rfl, rfl, ?_⟩
  rw [← back]
  exact State.powerBack_only rfl rfl rfl (Only.refl _ _) mv

theorem exec_powerRecovery_idle {mv : Nat} (h : s.up_ = false ∨ s.sys.pfw = none ∨ mv < 17000) :
    exec (.powerRecovery mv) s = .next s := by
  refine congrArg Host.Outcome.next (if_pos ?_)
  rcases h with h | h | h <;> simp [h]

end rows

/-- Settles O59: what a reset leaves follows from the parts that its handover and its orderly save keep, a request by the
state it meets, and each row by its condition. When a brown-out acts, the standstill or the strap of a PIN reset, STUCK and
a release while a reset is deferred, and the hold-up ready at once are the choices of log entries 8, 9, 10 and 11. -/
theorem resetsAndSupply : Obligations.ResetsAndSupply := by
  unfold Obligations.ResetsAndSupply
  refine ⟨State.resetWith_spec, fun s => ⟨fun k => ⟨State.resetBy_up k, fun starting => ?merged, fun dead => ?refused⟩,
    rfl, rfl, rfl, exec_safeReset_up, exec_safeReset_down, fun h => congrArg Host.Outcome.next (if_pos h),
    fun notStandby notIsolated => congrArg Host.Outcome.next (if_neg (by simp [notStandby, notIsolated])),
    fun hu src v hj hb => exec_softReset_runs hu hj hb, fun src v hb => exec_softReset_without src hb,
    exec_pinReset_acts, exec_pinReset_waits, fun w hw => ?warned, fun hw => ?unwarned,
    fun h => if_neg h, fun h => if_pos h, fun ms imm => ?button,
    exec_resetButtonStuck_sets, exec_resetButtonStuck_idle, exec_buttonSeenReleased_rearms, exec_buttonSeenReleased_idle,
    fun hu w hd => ?deferred, exec_deferredPinReset_idle, fun hu hw mv => ?warning, fun mv => ?noWarning,
    fun hu hw mv => ⟨exec_powerRecovery_ends hu hw, fun low => exec_powerRecovery_idle (.inr (.inr low))⟩,
    fun h => congrArg Host.Outcome.next (if_neg h), fun h => congrArg Host.Outcome.next (if_pos h),
    exec_aon_idle, exec_aon_acts⟩⟩
  case merged =>
    exact ⟨fun again => (State.resetBy_starting k starting).trans (if_pos again),
      fun other => (State.resetBy_starting k starting).trans (if_neg other)⟩
  case refused =>
    exact ⟨fun again => (State.resetBy_dead k dead).trans (if_pos again),
      fun other => (State.resetBy_dead k dead).trans (if_neg other)⟩
  case warned =>
    have due := State.brownOutDue_warned hw
    exact ⟨fun h => exec_brownOutReset_due (due.trans (by rcases h with h | h <;> simp [h])),
      fun early hold => exec_brownOutReset_early (due.trans (by simp [early, hold]))⟩
  case unwarned =>
    have due := State.brownOutDue_unwarned hw
    exact ⟨fun up => exec_brownOutReset_early (due.trans (by simp [up])),
      fun down => exec_brownOutReset_due (due.trans (by simp [down]))⟩
  case button =>
    refine ⟨fun hu => congrArg Host.Outcome.next (State.buttonRelease_down hu), fun hu armed free low high => ⟨fun h => ?_,
      fun hi moves => ?_⟩, fun hu h => congrArg Host.Outcome.next (State.buttonRelease_other hu h)⟩
    · exact congrArg Host.Outcome.next ((State.buttonRelease_press hu armed free low high).trans (if_pos (by simpa using h)))
    · exact congrArg Host.Outcome.next
        ((State.buttonRelease_press hu armed free low high).trans (if_neg (by simp [hi, moves])))
  case deferred =>
    have runs := (exec_deferredPinReset_runs hu).trans (congrArg Host.Outcome.next (State.pinDeferred_since hd))
    refine ⟨fun still => ?_, fun moves old => ?_, fun moves young => ?_⟩
    · rw [runs, if_pos still]
    · rw [runs, if_neg (by simp [moves]), if_pos old]
    · rw [runs, if_neg (by simp [moves]), if_neg (by simp [young])]
  case warning =>
    refine ⟨fun low => ?_, fun high => exec_powerFailWarning_idle (.inr (.inr high))⟩
    obtain ⟨sys, due, key⟩ := s.warnNow_spec mv
    exact ⟨_, exec_powerFailWarning_warns hu hw low, sys, due, key,
      State.warnNow_only rfl rfl rfl rfl rfl rfl rfl (Only.refl _ _) mv⟩
  case noWarning =>
    exact ⟨fun h => exec_powerFailWarning_idle (h.elim (fun w => .inr (.inl w)) .inl),
      fun h => exec_powerRecovery_idle (h.elim (fun w => .inr (.inl w)) .inl)⟩

end Sys2Proof.Machine
